-- ==== Sys2Proof/Word.lean ====
section
/-! DEFINITION. The word types of the Sirrihorn SH-1600: bytes, 32-bit registers and 64-bit memory words (00 R4). -/

namespace Sys2Proof

/-- A byte of a memory structure. -/
abbrev Byte := BitVec 8
/-- A direct register or a word of an indirect space. -/
abbrev W32 := BitVec 32
/-- A word of a memory structure (a descriptor word, a context word). -/
abbrev W64 := BitVec 64

end Sys2Proof
end

