-- ==== Sys2Proof/Syntax.lean ====
section
/-! DEFINITION. The commands of the block: one constructor per row of spec/opcode_table.json, with the row's operands.
A unit is named by its number; data that comes from outside is an operand. -/

namespace Sys2Proof

/-- What a read brings back (18 R521 to R523): the response code and, when it is GOOD, every 64-bit word of the
64 B lines the request touches, in address order, each with its check byte (06 R214). `last` is fpn_rs_last of its final beat
(R522). -/
structure Answer where
  code  : BitVec 6
  words : List (W64 × Byte)
  last  : Bool := true
  deriving DecidableEq, Repr

/-- The three waits of 18 R525. -/
inductive BeatWait where
  /-- A request valid on rq or wq is not taken. -/
  | request
  /-- A write-data beat is not taken. -/
  | data
  /-- The next beat of a read response does not come. -/
  | response
  deriving DecidableEq, Repr

/-- The result of a SECDED decode (06 R215). -/
inductive EccMark where
  | clean
  | corrected
  | uncorrectable
  deriving DecidableEq, Repr

/-- The outbound fabric channels that count credits (18 R517). -/
inductive CreditChan where
  | rq
  | wq
  | wd
  deriving DecidableEq, Repr

/-- What wakes the block at WAKE (15 R473); the timer has a row of its own. -/
inductive WakeCause where
  /-- A rising edge on wake source 0 or 1. -/
  | event (source : Nat)
  /-- A register access by the lane, offset and direction given. -/
  | access
  deriving DecidableEq, Repr

/-- What MBIST finds in one macro (19 R548): its number, the failing rows in increasing order, and whether its second
phase A (after repair) passes and whether it finished at all. -/
structure MacroFault where
  num      : Nat
  rows     : List Nat
  passes   : Bool
  finished : Bool
  deriving DecidableEq, Repr

/-- A write through the register port (18 R526): lane, byte offset, data, protected attribute, parity. -/
structure RegWrite where
  agent    : Nat
  offset   : Nat
  data     : W32
  prot     : Bool
  parityOk : Bool
  deriving DecidableEq, Repr

/-- A read through the register port. -/
structure RegRead where
  agent    : Nat
  offset   : Nat
  prot     : Bool
  parityOk : Bool
  deriving DecidableEq, Repr

/-- A frame on a link (14 R444): the header beat, the payload beats, and the check byte of each of their 64-bit words in
order, those of the header first. The members exchange their ownership tables (14 R426, R429), for which the manual gives no
encoding: `owners` is the sender's, as far as it comes with the frame, a queue and its member each. So with the sender's
FED_ID.GROUP (R427): `group` is it, where the frame brings one. -/
structure RawFrame where
  header  : BitVec 256
  payload : List (BitVec 256)
  checks  : List Byte
  owners  : List (Nat × Nat) := []
  group   : Option (BitVec 16) := none
  deriving DecidableEq, Repr

/-- The commands: the rows of the opcode table, in its order. -/
inductive Instr where
  /-- CREATE_INSTANCE (R315): Admin command 0x80 reads an instance image, checks it and writes a new instance-table entry, leaving the
  instance LIVE. -/
  | createInstance
  /-- MODIFY_INSTANCE (R314): Admin command 0x81 writes the selected groups of an instance image into an existing instance-table entry. -/
  | modifyInstance
  /-- QUIESCE_INSTANCE (R322): Admin command 0x82 stops binds of an instance and drains its queues toward PAUSED; with UNQUIESCE it
  releases them. -/
  | quiesceInstance
  /-- DRAIN_OR_SQUASH (R329): Admin command 0x83 ends every in-flight descriptor of a quiescing instance with SQUASHED and drains its
  issued writes. -/
  | drainOrSquash
  /-- RESET_INSTANCE (R333): Admin command 0x84 destroys every queue of an idle instance, stops its log, zeroes its counters and
  leaves it LIVE. -/
  | resetInstance
  /-- DESTROY_INSTANCE (R333): Admin command 0x85 destroys every queue of an idle instance and clears its entry, leaving it ABSENT. -/
  | destroyInstance
  /-- CREATE_QUEUE (R292): Admin command 0x88 writes a whole queue context, resident, and makes the queue IDLE, or PAUSED under a
  quiesce. -/
  | createQueue
  /-- MODIFY_QUEUE (R294): Admin command 0x89 applies the selected parameter words of a queue and optionally pauses or resumes it. -/
  | modifyQueue
  /-- DESTROY_QUEUE (R292): Admin command 0x8A drains a queue to ABSENT. -/
  | destroyQueue
  /-- MOVE_QUEUE (R79): Admin command 0x8B drains a queue and restores its prior state on a new home cluster. -/
  | moveQueue
  /-- STAGE (R295): Admin command 0x90 reads and checks an item list and adds all its items to the staging area, or none. -/
  | stage
  /-- COMMIT (R303): Admin command 0x91 checks the staged items, pins contexts, waits for a quiet point, holds the affected clusters
  and applies the items. -/
  | commit
  /-- START_DIRTY_LOG (R345): Admin command 0x98 sets an instance's log ring and page size and turns dirty-page logging on. -/
  | startDirtyLog
  /-- HARVEST_DIRTY_LOG (R344): Admin command 0x99 closes the current dirty-log epoch, waits for its records and reports LOG_WR and
  overflow. -/
  | harvestDirtyLog
  /-- STOP_DIRTY_LOG (R345): Admin command 0x9A closes the epoch as a harvest does, waits for the filter sweep and turns logging off. -/
  | stopDirtyLog
  /-- EVM_UPDATE (R310): Admin command 0xA0 applies a list of routing items to the pending banks and swaps them in one EVM cycle. -/
  | evmUpdate
  /-- SET_TIMEBASE (R395): Admin command 0xA8 loads, adds to or re-trims the timebase. -/
  | setTimebase
  /-- FED_JOIN (R426): Admin command 0xB0 trains links, exchanges manifests and founds or joins a federation. -/
  | fedJoin
  /-- FED_LEAVE (R442): Admin command 0xB1 moves every homed queue to the survivors and makes the member ALONE. -/
  | fedLeave
  /-- REST (R470): Admin command 0xB8 waits for the idle condition to hold for IDLE_US before the block enters REST. -/
  | rest
  /-- READ_TELEMETRY (R414): Admin command 0xB9 copies a telemetry set into memory with a header line. -/
  | readTelemetry
  /-- ADMIN_DOORBELL_READ (R276): At each admin POLL_IV, or on a kick of IID 0, the admin processor reads the admin doorbell record. -/
  | adminDoorbellRead
  /-- ADMIN_DOORBELL_RESPONSE (R276): The admin doorbell record arrives and is applied like a data-path doorbell record. -/
  | adminDoorbellResponse (aid : Nat) (ans : Answer)
  /-- ADMIN_SLOT_READ_RESPONSE (R283): An admin slot arrives and is checked for GEN and proofed; a malformed slot puts admin queue 0
  into ERROR. -/
  | adminSlotReadResponse (aid : Nat) (ans : Answer)
  /-- ADMIN_RECORD_ACK (R289): The acknowledgement of an admin completion record arrives; a notice follows and the next slot may be read. -/
  | adminRecordAck (aid : Nat) (code : BitVec 6)
  /-- ADM_MEM_CEIL (R277): An admin memory access reaches MEM_CEIL and is issued again; an error-log write is given up at its
  sixteenth expiry. -/
  | admMemCeil (aid : Nat)
  /-- POLL_DUE (R63): An instance's effective poll interval passes, or a kept kick is released, and its poll begins with the root
  summary access. -/
  | pollDue (iid : Nat)
  /-- ROOT_SWAP_RESPONSE (R55): The root summary word returns, and a leaf access is issued for each set bit. -/
  | rootSwapResponse (aid : Nat) (ans : Answer)
  /-- LEAF_SWAP_RESPONSE (R55): A leaf summary word returns, and a doorbell line read is issued for each set bit. -/
  | leafSwapResponse (aid : Nat) (ans : Answer)
  /-- DOORBELL_LINE_READ_RESPONSE (R50): A doorbell line arrives, and each of its eight records is applied to its queue context. -/
  | doorbellLineReadResponse (aid : Nat) (ans : Answer)
  /-- POLL_ACCESS_CEIL (R32): A summary or doorbell access reaches SCH_POLL_CEIL and is abandoned, so the next poll is a full scan. -/
  | pollAccessCeil (aid : Nat)
  /-- CTX_FETCH_RESPONSE (R19): A context fetch returns and is placed in its set, and the queue is marked ready. -/
  | ctxFetchResponse (aid : Nat) (ans : Answer)
  /-- CTX_FETCH_CEIL (R32): A context fetch or write-back reaches CTX_FETCH_CEIL, or its retry time after an error passes, and it is
  issued again. -/
  | ctxFetchCeil (qid : Nat)
  /-- CTX_WRITE_BACK_ACK (R566): The answer to a context write-back arrives and frees or keeps the way. -/
  | ctxWriteBackAck (aid : Nat) (code : BitVec 6)
  /-- CONTEXT_WRITE_BACK (R422): WB_IV has passed since a changed federated context was last written back, so it is written back. -/
  | contextWriteBack (qid : Nat)
  /-- BIND (R223): A channel is free and a queue is eligible, so the scheduler binds the queue to a channel and debits its deficit. -/
  | bind (home : Nat) (clu : Nat) (slot : Nat)
  /-- PROMOTION (R221): An eligible queue reaches SCH_BIND_CEIL without a bind and is promoted ahead of every class. -/
  | promotion (qid : Nat)
  /-- SLOT_READ_RESPONSE (R65): A ring or chain slot arrives and is sorted by GEN and SEAL into not written, torn or whole. -/
  | slotReadResponse (aid : Nat) (ans : Answer)
  /-- SLOT_REREAD (R66): The effective interval after an unwritten or torn slot passes, and the queue may be bound again to re-read it. -/
  | slotReread (qid : Nat)
  /-- TORN_CEIL_REACHED (R67): The re-read count of a slot reaches TORN_CEIL and the slot is malformed as TORN or STALE. -/
  | tornCeilReached (qid : Nat)
  /-- SLOT_READ_CEIL (R32): A slot read reaches CLU_RD_CEIL and is issued again. -/
  | slotReadCeil (aid : Nat)
  /-- COPY (R97): An accepted COPY moves LEN bytes between contiguous or strided sides. -/
  | copy (clu : Nat) (slot : Nat)
  /-- GATHER (R100): An accepted GATHER moves indexed elements into a contiguous destination. -/
  | gather (clu : Nat) (slot : Nat)
  /-- SCATTER (R102): An accepted SCATTER moves a contiguous source to indexed elements. -/
  | scatter (clu : Nat) (slot : Nat)
  /-- SGLIST (R104): An accepted SGLIST moves TOTAL bytes between a listed side and a contiguous side. -/
  | sglist (clu : Nat) (slot : Nat)
  /-- FILL (R105): An accepted FILL writes a repeated 8-byte pattern to a contiguous destination. -/
  | fill (clu : Nat) (slot : Nat)
  /-- CHECK (R106): An accepted CHECK computes a running check over a source and optionally compares it with EXPECT. -/
  | check (clu : Nat) (slot : Nat)
  /-- PI_INSERT (R205): An accepted PI_INSERT copies data and adds a protection tuple to each block. -/
  | piInsert (clu : Nat) (slot : Nat)
  /-- PI_STRIP (R210): An accepted PI_STRIP checks and removes each block's protection tuple. -/
  | piStrip (clu : Nat) (slot : Nat)
  /-- PI_VERIFY (R209): An accepted PI_VERIFY checks each block's protection tuple without writing. -/
  | piVerify (clu : Nat) (slot : Nat)
  /-- LINK (R108): An accepted LINK runs a chain of segments outside the ring. -/
  | link (clu : Nat) (slot : Nat)
  /-- FENCE (R127): An accepted FENCE waits for every earlier record of the queue to be acknowledged. -/
  | fence (clu : Nat) (slot : Nat)
  /-- FENCE_COMPLETE (R127): Every earlier record of a FENCE's queue is acknowledged and the FENCE completes. -/
  | fenceComplete (clu : Nat) (slot : Nat)
  /-- SIGNAL (R110): An accepted SIGNAL waits for earlier records before pulsing its signal source. -/
  | signal (clu : Nat) (slot : Nat)
  /-- SIGNAL_PULSE (R110): The earlier records of a SIGNAL's queue are acknowledged, so it pulses its source and completes. -/
  | signalPulse (clu : Nat) (slot : Nat)
  /-- WAIT (R111): An accepted WAIT holds its channel until its WAIT flag is seen set or its ceiling expires. -/
  | wait (clu : Nat) (slot : Nat)
  /-- WAIT_FLAG_SEEN (R113): A set WAIT flag reaches the cluster and every WAIT on it completes OK, clearing it when CLEAR_FLAG is 1. -/
  | waitFlagSeen (clu : Nat) (flag : Nat)
  /-- WAIT_TIMEOUT (R112): A WAIT reaches WAIT_US and completes with WAIT_TIMEOUT. -/
  | waitTimeout (clu : Nat) (slot : Nat)
  /-- NOP (R109): An accepted NOP completes at once. -/
  | nop (clu : Nat) (slot : Nat)
  /-- PARK_TEST (R73): Once per effective interval a parked channel reads its tail line and decides whether to follow an append or
  close the tail. -/
  | parkTest (clu : Nat) (slot : Nat)
  /-- PARK_CEIL (R74): A parked channel reaches SCH_PARK_CEIL and its tail closes with TAIL_CLOSED = 1. -/
  | parkCeil (clu : Nat) (slot : Nat)
  /-- POOL_LINE_GRANT (R171): Pool lines free up and are granted to the oldest waiting reservation. -/
  | poolLineGrant (clu : Nat)
  /-- READ_REQUEST_ISSUE (R165): A tag, landing lines and the port grant are available, so Prism or Lens issues a read request. -/
  | readRequestIssue (clu : Nat) (slot : Nat) (table : Bool) (losers : List Nat)
  /-- WRITE_REQUEST_ISSUE (R165): A write ID is available, so a write request is issued. -/
  | writeRequestIssue (clu : Nat) (slot : Nat) (losers : List Nat)
  /-- LENS_HOLD_EXPIRY (R157): An open Lens request reaches its hold ceiling and is issued as it stands. -/
  | lensHoldExpiry (clu : Nat) (slot : Nat)
  /-- READ_RESPONSE (R521): Read response beats arrive, are SECDED-checked and land in the reorder buffer, or end the read with a code. -/
  | readResponse (aid : Nat) (ans : Answer)
  /-- WRITE_ACK (R522): The answer to a write arrives and counts toward commit, or triggers replay or a fault status. -/
  | writeAck (aid : Nat) (code : BitVec 6)
  /-- DATA_READ_CEIL (R32): A data, index or list read reaches CLU_RD_CEIL and is treated as a retryable fabric error. -/
  | dataReadCeil (aid : Nat)
  /-- DATA_WRITE_CEIL (R32): A data write reaches CLU_WR_CEIL, giving a fabric replay before release or STREAM_FAULT after. -/
  | dataWriteCeil (aid : Nat)
  /-- RECORD_WRITE_CEIL (R32): A completion record or notice write reaches CLU_WR_CEIL and is issued again with the same content. -/
  | recordWriteCeil (aid : Nat)
  /-- RECORD_GIVE_UP (R362): A record or notice write meets a non-retryable error or its sixteenth expiry and is given up as
  acknowledged. -/
  | recordGiveUp (aid : Nat) (code : BitVec 6)
  /-- BEAT_CEIL (R525): A beat handshake on a fabric channel reaches CLU_BEAT_CEIL and the transfer is abandoned or its loaf replayed. -/
  | beatCeil (aid : Nat) (wait : BeatWait)
  /-- HOLD_CEIL (R242): A granted transfer runs past HOLD_CEIL; the requester is cut off and locked out for PENALTY. -/
  | holdCeil (arb : Nat) (req : Nat)
  /-- FORCED_WIN (R240): A requester's wait counter reaches WAIT_LIMIT and its forced flag is set. -/
  | forcedWin (arb : Nat) (req : Nat)
  /-- QUARANTINE_END (R173): A quarantined tag or write ID reaches twice its expired ceiling and returns to use. -/
  | quarantineEnd (aid : Nat)
  /-- REPLAY_BACKOFF_END (R258): The backoff of a fabric-kind replay passes and the loaf's new attempt begins. -/
  | replayBackoffEnd (clu : Nat) (slot : Nat) (loaf : Nat)
  /-- FAB_MAX_EXCEEDED (R259): A loaf's fabric-kind replay count would pass FAB_MAX, so the descriptor ends with SRC_FAULT or DST_FAULT. -/
  | fabMaxExceeded (clu : Nat) (slot : Nat)
  /-- RELEASE_LIMIT (R191): A retryable error during the fourth release of a held-back loaf ends the descriptor with STREAM_FAULT. -/
  | releaseLimit (clu : Nat) (slot : Nat)
  /-- SLOT_RETIRED (R260): A fourth internal replay on one slot retires the slot and moves the descriptor to its target. -/
  | slotRetired (clu : Nat) (slot : Nat)
  /-- DESCRIPTOR_PLACED (R264): A slot frees in the receiving cluster and a moved descriptor is placed there. -/
  | descriptorPlaced (clu : Nat)
  /-- STORE_BRIDGE_TRANSFER (R265): The store bridge becomes free and carries the oldest waiting loaf store to the receiving cluster. -/
  | storeBridgeTransfer
  /-- LOAF_RELEASE (R188): A held-back loaf has passed its verify pass and its predecessor has committed, so its writes are released. -/
  | loafRelease (clu : Nat) (slot : Nat)
  /-- CHECKPOINT_STORED (R246): The checkpoint table stores a loaf's checkpoint and the loaf reaches its commit point. -/
  | checkpointStored (clu : Nat) (slot : Nat)
  /-- CKPT_CEIL (R251): An unacknowledged checkpoint reaches CKPT_CEIL and is sent again. -/
  | ckptCeil (clu : Nat) (slot : Nat)
  /-- COMPLETION_RECORD (R28): A finished record's earlier slots have been issued, so the completion record is written over its slot. -/
  | completionRecord (qid : Nat)
  /-- ABANDONED_RECORD (R86): Every earlier record has been issued, so the notice logic writes the ABANDONED record of a discarded slot. -/
  | abandonedRecord (qid : Nat)
  /-- COMPLETION_RECORD_ACK (R131): A completion record is acknowledged; CI and PENDING advance and notice triggers are checked. -/
  | completionRecordAck (aid : Nat) (code : BitVec 6)
  /-- NOTICE_DELAY_EXPIRY (R131): NOTICE_DELAY passes since the first pending record, so a notice is issued. -/
  | noticeDelayExpiry (qid : Nat)
  /-- NOTICE_ACK (R132): A notice is acknowledged, and a kept trigger issues the next notice. -/
  | noticeAck (aid : Nat) (code : BitVec 6)
  /-- INSTANCE_QUIET (R323): A quiescing instance becomes quiet; the QUIESCE_INSTANCE record is issued and the instance is QUIESCED. -/
  | instanceQuiet (iid : Nat)
  /-- QUIESCE_TIMEOUT (R328): A quiesce, pause, destroy or move of a queue reaches QUIESCE_CEIL and ends with TIMEOUT while the change
  continues. -/
  | quiesceTimeout
  /-- QUEUE_DRAIN_END (R565): Nothing of a DRAINING queue is in flight, so it reaches PAUSED, ABSENT, its new home or ERROR. -/
  | queueDrainEnd (qid : Nat)
  /-- ERROR_LOG_WRITE (R354): A pending error record is written to the log ring when logging is enabled and the ring has room. -/
  | errorLogWrite
  /-- ERROR_LOG_ACK (R361): An error-log write is acknowledged; the error-log source pulses and DEVICE status is updated. -/
  | errorLogAck (aid : Nat) (code : BitVec 6)
  /-- DIRTY_LOG_RECORD_WRITE (R341): The dirty-log writer writes a queued page record to its instance's log ring. -/
  | dirtyLogRecordWrite
  /-- FILTER_SWEEP_DONE (R344): The dedup filter sweep after a harvest ends. -/
  | filterSweepDone
  /-- OCCUPANCY_SAMPLE (R407): Each TEL_OCC_CTL.PERIOD, telemetry samples tags, write IDs and pool lines of all ports. -/
  | occupancySample
  /-- THRESHOLD_EVAL (R409): A threshold is evaluated against its watched word and its state changes by its mode. -/
  | thresholdEval (t : Nat)
  /-- INTERVAL_TIMER_EXPIRY (R411): Interval timer Tk reaches its period and pulses its source. -/
  | intervalTimerExpiry (k : Nat)
  /-- EV_IN_EDGE (R376): A rising edge on ev_in[i] is synchronized into EVM with its hop count. -/
  | evInEdge (i : Nat) (hop : BitVec 3)
  /-- EVM_SOURCE_PULSE (R375): A source pulse reaches EVM, its lines make edges and their sinks act. -/
  | evmSourcePulse (sources : List Nat)
  /-- RATE_MERGED_EDGE (R388): A line's rate-limiter window ends and its deferred edge is delivered. -/
  | rateMergedEdge (line : Nat)
  /-- STUCK_CEIL (R389): A line stays asserted beyond its stuck ceiling and is masked, flagged and logged. -/
  | stuckCeil (line : Nat)
  /-- REFCLK_LOST (R450): refclk shows no edge for 16 oscillator cycles, so the block enters the FATAL state. -/
  | refclkLost
  /-- PLL_WINDOW_END (R452): A PLL monitor window ends and its count is compared with 5,120. -/
  | pllWindowEnd (pll : Bool) (count : Nat)
  /-- PLL_TAP_LOST (R455): A PLL's divide-by-16 tap shows no edge in two SUP cycles, so the PLL trips. -/
  | pllTapLost (pll : Bool)
  /-- PLL_LOCK_CEIL (R454): A starting PLL is not judged within LOCK_CEIL and is failed and stopped. -/
  | pllLockCeil (pll : Bool)
  /-- MUX_HANG_CEIL (R458): A clock switch hangs beyond HANG_CEIL and is forced, marking the domain suspect. -/
  | muxHangCeil (domain : Nat)
  /-- SUSPECT_CLEAR (R267): A suspect domain runs 1,024 cycles on its new clock and its mark clears. -/
  | suspectClear (domain : Nat)
  /-- PW_ACK_TOGGLE (R463): A pw_ack toggle arrives and lets the awaited P-level change proceed, or clears ACK_LATE. -/
  | pwAckToggle
  /-- PW_ACK_CEIL (R465): A P-level change waits beyond ACK_CEIL for pw_ack and stops at the level in force. -/
  | pwAckCeil
  /-- P_LEVEL_CHANGE (R464): A write of PWR_CTL.LEVEL starts a change of the cluster performance level. -/
  | pLevelChange (w : RegWrite)
  /-- CLK_GATE_WRITE (R468): A write of CLK_GATE sets or clears cluster and unit enables; cleared clusters stop taking binds. -/
  | clkGateWrite (w : RegWrite)
  /-- CLUSTER_CLOCK_STOP (R468): A disabled cluster has no slot running and every checkpoint stored, so its clock stops. -/
  | clusterClockStop (clu : Nat)
  /-- REST_IDLE_MET (R470): The idle condition holds for IDLE_US and the REST record is issued. -/
  | restIdleMet
  /-- REST_TIMEOUT (R292): The REST command reaches WAIT_US without the idle condition and ends with TIMEOUT. -/
  | restTimeout
  /-- REST_ENTRY (R471): The REST record is acknowledged and the sequencer takes the block into REST. -/
  | restEntry
  /-- WAKE (R473): A wake input edge or a register access in REST starts the wake sequence. -/
  | wake (cause : WakeCause)
  /-- WAKE_TIMER (R473): The wake timer PWR_WAKE_TMR expires in REST and starts the wake sequence. -/
  | wakeTimer
  /-- WAKE_RUN (R474): 40.0 µs after the wake cause, the block enters RUN and binds begin. -/
  | wakeRun
  /-- RST_N_FALL (R533): rst_n falls and every output takes its RESET value at once. -/
  | rstNFall
  /-- RST_N_RISE (R546): rst_n rises and bring-up begins with PLL start and MBIST. -/
  | rstNRise
  /-- BRINGUP_END (R546): Bring-up ends after repair and initialization, or at 4 ms, and the block enters CONFIGURE. -/
  | bringupEnd (faults : List MacroFault)
  /-- MODE_REQ_RUN (R545): A write of GLB_MODE.REQ = 3 requests the transition from CONFIGURE to RUN. -/
  | modeReqRun (w : RegWrite)
  /-- MODE_REQ_CONFIGURE (R545): A write of GLB_MODE.REQ = 2 requests the transition from RUN or TEST to CONFIGURE. -/
  | modeReqConfigure (w : RegWrite)
  /-- MODE_REQ_TEST (R545): A write of GLB_MODE.REQ = 5 requests the transition from CONFIGURE to TEST. -/
  | modeReqTest (w : RegWrite)
  /-- MODE_TRANSITION_DONE (R543): A requested mode transition completes and GLB_MODE.CUR takes the new mode. -/
  | modeTransitionDone
  /-- REGISTER_WRITE (R485): A write to a register without a row of its own is checked by R478 and applied by its class and live note. -/
  | registerWrite (w : RegWrite)
  /-- SEQ_WRITE_BACK (R483): A write to an S-class register with the current SEQ clears its named status bits. -/
  | seqWriteBack (w : RegWrite)
  /-- ERR_FATAL_WRITE_BACK (R351): Writing back the SEQ read from ERR_FATAL clears the held fatal cause. -/
  | errFatalWriteBack (w : RegWrite)
  /-- LOCK_SETUP (R492): A protected write of REG_LOCK.LOCK_SETUP freezes the set-up registers until rst_n. -/
  | lockSetup (w : RegWrite)
  /-- IND_CLAIM (R493): A write of REG_IND_CLAIM claims or frees an indirect pair. -/
  | indClaim (w : RegWrite)
  /-- IND_DATA_READ (R495): A read of REG_IND_DATA returns a word of an indirect space and advances WORD by STRIDE. -/
  | indDataRead (r : RegRead)
  /-- IND_DATA_WRITE (R495): A write of REG_IND_DATA writes a word of an indirect space under that space's rules and advances WORD. -/
  | indDataWrite (w : RegWrite)
  /-- TB_LO_READ (R399): A read of TEL_TB_LO returns the low timebase bits and latches the high bits for that agent. -/
  | tbLoRead (r : RegRead)
  /-- TB_ADJ_WRITE (R395): A write of TEL_TB_ADJ adds a signed offset to the timebase. -/
  | tbAdjWrite (w : RegWrite)
  /-- TB_RATE_WRITE (R395): A write of TEL_TB_RATE replaces the rate trim and clears the accumulator. -/
  | tbRateWrite (w : RegWrite)
  /-- ADM_Q_ENABLE_SET (R275): Setting ADM_Q_CTL.ENABLE resets the admin queue indices and makes it IDLE. -/
  | admQEnableSet (w : RegWrite)
  /-- ADM_Q_ENABLE_CLEAR (R280): Clearing ADM_Q_CTL.ENABLE stops the admin queue after the command in progress. -/
  | admQEnableClear (w : RegWrite)
  /-- ECC_INJ (R217): A write of CLUn_ECC_INJ with INJ_EN injects a fault into the next word written at the selected site. -/
  | eccInj (w : RegWrite)
  /-- EVM_WFLAG_WRITE (R383): A write of EVM_WFLAG sets or clears WAIT flags under its mask. -/
  | evmWflagWrite (w : RegWrite)
  /-- EVM_LINE_CTL_WRITE (R389): A write of an EVM_LINE_CTL element sets line fields, clears STUCK and unmasks the line. -/
  | evmLineCtlWrite (w : RegWrite)
  /-- FED_RESYNC_WRITE (R431): A write of FED_RESYNC lets a HELD member leave HELD when epoch and ownership hash agree. -/
  | fedResyncWrite (w : RegWrite)
  /-- DBG_MEM_GO (R504): A write of DBG_MEM_CTL with GO issues one debug memory access as the port's emergency requester. -/
  | dbgMemGo (w : RegWrite)
  /-- DBG_POLL_GO (R505): A write of DBG_POLL with GO starts a poll of an instance as a kick does. -/
  | dbgPollGo (w : RegWrite)
  /-- PLL_RESTART (R454): A write of CLK_PLL_CMD starts a failed or stopped PLL. -/
  | pllRestart (w : RegWrite)
  /-- MBIST_GO (R551): A write of TST_MBIST_CTL with GO runs MBIST on the selected macros in TEST. -/
  | mbistGo (w : RegWrite)
  /-- MBIST_RUN_DONE (R551): A TEST MBIST run ends and updates the IS6 records. -/
  | mbistRunDone (faults : List MacroFault)
  /-- TST_RUN (R555): A write of TST_CTL.RUN starts or stops the enabled pattern generators and checkers. -/
  | tstRun (w : RegWrite)
  /-- TST_INJ (R554): A write of TST_UNIT_CTL.INJ inverts a data bit of the next generated beat. -/
  | tstInj (w : RegWrite)
  /-- REG_ACCESS_CEIL (R478): A register access not accepted by its domain within 512 CFG cycles is answered GATED and logged. -/
  | regAccessCeil (agent : Nat) (offset : Nat)
  /-- REG_PARITY_FAULT (R489): A configuration flop fails parity and is reloaded from its ECC shadow. -/
  | regParityFault (target : Nat) (flop : W32) (shadowBad : Bool)
  /-- SHADOW_SCRUB (R490): The shadow walker reads a shadow word and corrects or reports it. -/
  | shadowScrub (target : Nat) (found : EccMark)
  /-- AGENT_RESET (R529): agent_reset of an agent frees its pairs and latches and stops an admin queue it owns. -/
  | agentReset (agent : Nat)
  /-- FABRIC_CREDIT (R517): A credit input adds one credit to an outbound fabric channel. -/
  | fabricCredit (port : Nat) (chan : CreditChan)
  /-- TRAIN (R446): A TRAIN frame arrives and, with local RX_OK, marks the link trained. -/
  | train (link : Nat) (f : RawFrame)
  /-- MANIFEST (R428): A MANIFEST frame arrives and its fields are stored in IS7 and checked for refusal. -/
  | manifest (link : Nat) (f : RawFrame)
  /-- HEARTBEAT (R429): A HEARTBEAT frame arrives, marks members heard and settles epoch and ownership disagreements. -/
  | heartbeat (link : Nat) (f : RawFrame)
  /-- TIME (R433): A TIME frame arrives and is answered by the reference or gives the offset measurement. -/
  | time (link : Nat) (f : RawFrame)
  /-- CONFIG (R423): A CONFIG frame arrives and the receiver applies the federated command it carries. -/
  | config (link : Nat) (f : RawFrame)
  /-- CONFIG_ACK (R423): A CONFIG_ACK frame arrives and counts toward the issuing member's record point. -/
  | configAck (link : Nat) (f : RawFrame)
  /-- DOORBELL (R421): A DOORBELL frame arrives and the home member applies the record or forwards it. -/
  | doorbell (link : Nat) (f : RawFrame)
  /-- FENCE_FRAME (R435): A FENCE frame arrives; the receiver logs MEMBER_FENCED and applies the new epoch and member list. -/
  | fenceFrame (link : Nat) (f : RawFrame)
  /-- ACK (R447): An ACK frame arrives and releases acknowledged frames held for resend. -/
  | ack (link : Nat) (f : RawFrame)
  /-- HEARTBEAT_SEND (R434): Once per FED_HB_CEIL/8 a member sends heartbeats and writes its witness line. -/
  | heartbeatSend
  /-- WITNESS_READ (R435): Once per FED_HB_CEIL/8 a member reads the witness lines of members it does not hear. -/
  | witnessRead (member : Nat)
  /-- WITNESS_READ_RESPONSE (R435): A witness line read returns and may find a member silent, so the fence leader sends FENCE. -/
  | witnessReadResponse (aid : Nat) (ans : Answer)
  /-- SELF_FENCE (R436): A member's witness writes stay unacknowledged for FED_HB_CEIL/2 and it fences itself. -/
  | selfFence
  /-- ADOPTION_START (R437): 2 x CLU_WR_CEIL after a fence, survivors adopt the fenced member's queues. -/
  | adoptionStart (member : Nat)
  /-- JOIN_CEIL (R426): FED_JOIN or FED_LEAVE reaches JOIN_CEIL and ends with TIMEOUT. -/
  | joinCeil
  /-- LINK_RETRY_CEIL (R447): An unacknowledged frame reaches RETRY_CEIL and every frame from the oldest is resent. -/
  | linkRetryCeil (link : Nat)
  /-- LINK_RESEND_LIMIT (R447): One frame has been resent 16 times, so the link is down and trains again. -/
  | linkResendLimit (link : Nat)
  /-- LINK_IDLE_ERR_LIMIT (R559): 64 idle beats in error within 65,536 take the link down for retraining. -/
  | linkIdleErrLimit (link : Nat)
  /-- LINK_RX_KIND_ZERO (R536): A receiver sees kind 0 for 64 cycles and takes the link as down. -/
  | linkRxKindZero (link : Nat)
  /-- TAIL_LINE_READ_RESPONSE (R73): The tail line at the end of a chain segment arrives and its chain end word decides whether the
  channel follows NEXT, closes the tail or parks. -/
  | tailLineReadResponse (aid : Nat) (ans : Answer)
  /-- IMAGE_READ_RESPONSE (R291): The instance image or item list that an admin command reads arrives, and the command continues, or
  ends with MEM_FAULT on a non-retryable error. -/
  | imageReadResponse (aid : Nat) (ans : Answer)
  /-- ADMIN_SLOT_REREAD (R277): One POLL_IV after an admin slot read returned an unwritten or torn slot, the slot is read again. -/
  | adminSlotReread
  /-- QUIET_POINT (R304): An ADM cycle finds every affected cluster quiet, no poll access of a named instance and no EVM update, so
  COMMIT holds the clusters and applies its items. -/
  | quietPoint
  /-- COMMIT_CEIL (R303): A COMMIT's quiet-point wait reaches ADM_CEIL.COMMIT_CEIL and the affected clusters are held by a pinch. -/
  | commitCeil
  /-- TELEMETRY_WRITE_CEIL (R415): A trace record or snapshot write reaches CLU_WR_CEIL of its service port and is dropped and counted
  lost, or the snapshot is abandoned. -/
  | telemetryWriteCeil (aid : Nat)
  /-- DBG_MEM_CEIL (R504): A debug memory access reaches the read or write ceiling of its port; TIMEOUT is set and its tag or write ID
  is quarantined. -/
  | dbgMemCeil (aid : Nat)
  /-- TST_REQUEST_CEIL (R555): A test-unit port request reaches CLU_RD_CEIL or CLU_WR_CEIL; FAULTS increments, the tag or ID is
  quarantined and the pass goes on. -/
  | tstRequestCeil (aid : Nat)
  /-- WITNESS_READ_CEIL (R435): A witness line read reaches CLU_RD_CEIL and counts as unchanged toward finding the member silent. -/
  | witnessReadCeil (aid : Nat)
  /-- ACK_SEND (R445): 64 FLk cycles after taking a frame with nothing else to send on that link, the receiver sends an ACK. -/
  | ackSend (link : Nat)
  /-- RX_OK (R446): A link's receiver counts 1,024 consecutive error-free idle beats, sets RX_OK and, with a TRAIN already received
  with RX_OK = 1, the link is trained. -/
  | rxOk (link : Nat)
  /-- SYNC_GAINED (R554): A pattern checker sees 64 consecutive error-free beats and sets SYNC, from which bit errors are counted. -/
  | syncGained (unit : Nat)
  /-- SYNC_LOST (R554): A pattern checker sees 16 consecutive beats in error, loses SYNC, increments RESYNCS and reloads its register. -/
  | syncLost (unit : Nat)
  /-- EV_IN_FALL (R376): An ev_in input falls; the lines it feeds drop their level, ending pauses, direct outputs, WAIT-flag setting
  and gated timers. -/
  | evInFall (i : Nat)
  /-- WAKE_RESTART (R474): 10.0 µs after a wake cause, every enabled domain restarts on REFCLK bypass and units resume from retained
  state. -/
  | wakeRestart
  /-- POLL_ACCESS_ISSUE (R64): The poll-bandwidth budget is positive and the poll-issue arbiter grants, so a waiting summary or
  doorbell access is issued. -/
  | pollAccessIssue (iid : Nat)
  /-- DATAPATH_BEAT (R160): The datapath arbiter grants one out-side beat, which passes the check engine, is SECDED and parity checked
  and leaves as write data or a verify-pass beat. -/
  | datapathBeat (clu : Nat)
  /-- S_CLASS_READ (R482): An agent reads an S-class register, and the SEQ it reads becomes that agent's last-read value, which later
  SEQ advances avoid. -/
  | sClassRead (r : RegRead)
  deriving DecidableEq, Repr

end Sys2Proof
end

