-- ==== Sys2Proof/Decode.lean ====
section
/-! DEFINITION. The commands of the opcode table are steps of the block and have no encoding: no row gives bits. -/

namespace Sys2Proof

/-- The command that a word spells: the table gives no row any bits, so no word spells one. -/
def decodeTableWord (_nbits _w : Nat) : Option Instr := none

end Sys2Proof
end

