-- ==== Sys2Proof/Config.lean ====
section
/-! DEFINITION. What an implementation fixes and the free values: constants without a body, so that no proof can
rest on a value of theirs (notes/assumptions/1.md, 4.md). -/

namespace Sys2Proof

/-- Which free read tag or write ID the n-th issued access takes (05 R172: any free one). -/
opaque Config.freeTag : Nat → BitVec 10
/-- The hash of IID, SIZE and PAGE that indexes the dedup filter (10 R340 names no hash). -/
opaque Config.dirtyHash : Nat → Bool → BitVec 52 → BitVec 20
/-- How many SRAM macros a domain from 18 up has (19 R549 does not number them). -/
opaque Config.extraMacros : Nat → BitVec 16
/-- The rows of macro m where 19 R547 and R549 do not give them. -/
opaque Config.macroRows : Nat → BitVec 16
/-- Whether a link's idle beat of a tick arrives with an error that shows, by the link and the time of the tick (14 R448, 19 R553:
what befalls a beat on the way is outside the block). -/
opaque Config.idleBad : Nat → Nat → Bool
/-- A value that the manual leaves open, the n-th one met (a buffer line of an ECC_CORR record and the like). -/
opaque Config.freeValue : Nat → W64
/-- A content word of IS4 of a way that is invalid and once held a context (17 R507 gives no content for it). -/
opaque Config.staleWord : Nat → W32

/-- A byte of a write beat that the block leaves to itself, by the access and the address: a lane without a strobe in a word
with one, and the data of a beat sent for an attempt that was dropped (18 R524, 08 R257). -/
opaque Config.freeLane : Nat → Nat → Byte

/-- What befalls a memory of the block, the n-th such question: whether a word of a stored checkpoint copy, of a slot's own copy or of
its channel state has become uncorrectable by the time it is read (08 R249, R251, R252), and whether a macro's test is unfinished when
bring-up ends at its ceiling (19 R546). -/
opaque Config.upset : Nat → Bool

end Sys2Proof
end

