-- ==== Sys2Proof/Machine/State.lean ====
section
/-! DEFINITION. The state of the block: plain data, every piece the spec names (INVENTORY.md, State). -/

namespace Sys2Proof.Machine

/-- Why a step stops. Safe: the block itself never stops a run. -/
inductive Fault where
  /-- Raised by a meaning whose operand names no unit of the block (a cluster above 15, a slot above 33, a port above
  15, an agent above 2, a line above 255, a link above 2 and so on). Safe. -/
  | noSuchUnit
  deriving DecidableEq, Repr

/-- Why a command has no meaning here. -/
inductive Refusal where
  /-- A row that the model does not have yet, by mnemonic. Safe. -/
  | notModelled (mnemonic : String)
  deriving DecidableEq, Repr

/-- Words of a register file or an indirect space: (word, value), words strictly rising, no entry equal to what an
unlisted word reads as. -/
abbrev WordMap := List (Nat × W32)

/-- The six modes (19 R542). -/
inductive Mode where
  | reset | bringup | configure | run | rest | test
  deriving DecidableEq, Repr

/-- The code GLB_MODE.CUR shows. -/
def Mode.code : Mode → Nat
  | .reset => 0 | .bringup => 1 | .configure => 2 | .run => 3 | .rest => 4 | .test => 5

/-- A queue context: every bit of the 128 B of 17 R503, field by field. -/
structure QCtx where
  state        : BitVec 3
  byQuiesce    : BitVec 1
  drainTo      : BitVec 2
  prior        : BitVec 3
  home         : BitVec 4
  newHome      : BitVec 4
  homeMember   : BitVec 2
  log2dM4      : BitVec 4
  overlapM1    : BitVec 4
  qClass       : BitVec 2
  attrRo       : BitVec 1
  attrNs       : BitVec 1
  tphEn        : BitVec 1
  tphSt        : BitVec 8
  tphPh        : BitVec 2
  dbGen        : BitVec 8
  iid          : BitVec 12
  resumeSeen   : BitVec 1
  abandonSeen  : BitVec 1
  ringBase     : W64
  f            : W32
  q            : W32
  piSeen       : W32
  errIndex     : W32
  errCause     : BitVec 8
  errDepth     : BitVec 8
  errChainPos  : BitVec 16
  reread       : BitVec 8
  winDone      : BitVec 16
  nseq         : BitVec 8
  noticeAddr   : W64
  noticeThresh : BitVec 16
  noticeDelay  : BitVec 20
  pendingCnt   : BitVec 16
  noticeBusy   : BitVec 1
  noticeKept   : BitVec 1
  resumePend   : BitVec 1
  abandonPend  : BitVec 1
  rsv6         : BitVec 8
  estCost      : W32
  ntcDue       : W32
  bytesRd      : W64
  bytesWr      : W64
  descs        : W32
  replays      : BitVec 16
  contained    : BitVec 16
  qid          : BitVec 22
  localQ       : BitVec 15
  rsv11        : BitVec 27
  rsv12        : BitVec 256
  deriving DecidableEq, Repr

/-- A valid way of the context cache (01 R19, 17 R507): where it lies, its age among the set's ways, and its context.
`wbFault` is set while a write-back that met a non-retryable error awaits an acknowledgement (11 R566). -/
structure Way where
  qid     : Nat
  way     : Nat
  age     : Nat
  dirty   : Bool
  wbFault : Bool
  ctx     : QCtx
  deriving DecidableEq, Repr

/-- Work that waits for a context to become resident (11 R566: every unit that needs the context waits for it). -/
inductive CtxWork where
  /-- A doorbell record to apply (02 R50). -/
  | doorbell (record : W64)
  /-- A ring record acknowledged: slot index and whether a notice is asked for now (03 R131). -/
  | recordAck (idx : W32) (ring : Bool) (noticeNow : Bool)
  /-- A notice acknowledged (03 R132). -/
  | noticeAck
  /-- A kick of the queue (12 R381). -/
  | kick
  /-- The admin command in progress needs the context; `own` tells this member's from another's (14 R423). -/
  | admin (own : Bool)
  /-- A queue of an instance that is quiesced, released, or closed (10 R322, R327, R333). -/
  | quiesce
  | release
  | close
  /-- An adopted queue (14 R438), and a queue of a member that leaves (14 R442). -/
  | adopt
  | leave
  /-- A snapshot or READ_TELEMETRY copy of SET 3 (13 R412); `none` is the admin command. -/
  | copy (sink : Nat)
  /-- A notice of the queue waits to be issued (03 R132). -/
  | notice
  /-- The scheduler found the queue ready (01 R27). -/
  | ready
  deriving DecidableEq, Repr

/-- What a fabric access is for. -/
inductive Purpose where
  /-- A ring or chain slot read by a channel. -/
  | slot (clu slot : Nat)
  /-- The tail line of a chain segment (02 R73). -/
  | tail (clu slot : Nat)
  /-- The ring slot that a parked channel looks at (02 R73). -/
  | parkSlot (clu slot : Nat)
  /-- A data read of a loaf's attempt. -/
  | data (clu slot loaf : Nat)
  /-- An index or list read: first entry and number of entries. -/
  | table (clu slot first count : Nat)
  /-- A data write of a loaf's attempt. -/
  | write (clu slot loaf : Nat)
  /-- A write of an attempt that was dropped or of a descriptor that has ended: only its answer matters. -/
  | oldWrite (qid : Nat) (idx : W32) (chainPos loaf : Nat)
  /-- A read whose data no one waits for any more, the descriptor that issued it, and its row of 06 R216: 0 a data read, 1 one of an
  SRC_NI descriptor, 2 an index or list read; a slot, chain or tail read has chain position 0x10000. -/
  | oldRead (qid : Nat) (idx : W32) (chainPos site : Nat)
  /-- A completion record (ring slot or chain descriptor; `abandoned` is written by the notice logic). -/
  | record (qid : Nat) (idx : W32) (chainPos : Nat) (noticeNow abandoned : Bool)
  | notice (qid : Nat)
  | ctxFetch (qid : Nat)
  | ctxWriteBack (qid : Nat)
  | root (iid : Nat)
  | leaf (iid k : Nat)
  | doorbell (iid k j : Nat)
  | admDoorbell
  | admSlot
  /-- The image or item list of the command in progress: the offset of the first byte read. -/
  | admImage (ofs : Nat)
  | admRecord (idx : W32)
  | admNotice
  /-- A payload or header line of READ_TELEMETRY. -/
  | admCopy (header : Bool)
  | errLog (seq : W32) (device : Bool)
  | dirtyLog (iid : Nat) (epoch : Bool)
  /-- A payload or header line of snapshot sink k. -/
  | snap (k : Nat) (header : Bool)
  | trace (slot : Nat)
  | witnessWrite
  | witnessRead (member : Nat)
  /-- A federation checkpoint (14 R439), and an adopter's read of entry n of the fenced member's. -/
  | fedCkpt
  | adoptCkpt (clu slot n : Nat)
  | debug
  | test (unit ofs : Nat)
  deriving DecidableEq, Repr

/-- The attributes a request carries (05 R182, 18 R513). -/
structure Attrs where
  rid     : BitVec 16
  pasidEn : Bool
  pasid   : BitVec 20
  ro      : Bool
  ns      : Bool
  tphEn   : Bool
  tphSt   : BitVec 8
  tphPh   : BitVec 2
  cls     : BitVec 2
  idem    : Bool
  swap    : Bool
  deriving DecidableEq, Repr

/-- An outstanding fabric access: its handle (the model's name for its port and tag), the port, the pin value of its
tag or write ID, direction, purpose, address, length, attributes, the bytes of a write, how many of its beats have
not yet left, when its ceiling expires (nominal ns), expiries so far, instance for the dirty log, whether its beats
are sent with inverted check bits (08 R257), and what it covers. Issue order is the order of the handles. -/
structure Access where
  aid      : Nat
  port     : Nat
  tag      : BitVec 10
  write    : Bool
  purpose  : Purpose
  addr     : Nat
  len      : Nat
  attrs    : Attrs
  data     : List Byte
  toSend   : Nat
  due      : Nat
  ceilNs   : Nat
  expiries : Nat
  iid      : Nat
  /-- The key that picks its port, for a shared-unit access (01 R22). -/
  key      : Nat
  poisoned : Bool
  /-- The check byte of each word of the beats that have left, in order (06 R213, R216, 18 R524). -/
  checks   : List Byte
  /-- What a data access covers: (walk position, address, bytes) in walk order. -/
  spans    : List (Nat × Nat × Nat)
  /-- Which class of the tag budget holds it (05 R174): 34 and above is a shared unit, else the slot index. -/
  holder   : Nat
  /-- 05 R174: held by a class U slot. -/
  classU   : Bool
  /-- Buffer lines, of the partition and of the pool, that a read of a dropped attempt holds until its answer (05 R175, 18 R520). -/
  rob      : Nat × Nat
  deriving DecidableEq, Repr

/-- A tag or write ID in quarantine (05 R173): the access it belonged to and when it returns to use. -/
structure Quar where
  acc   : Access
  freeAt : Nat
  deriving DecidableEq, Repr

/-- An access not yet issued: a shared-unit access for which no port is available (01 R561), or one whose port has no
credit or tag for it yet. `port` is set for an access that belongs to a cluster's own port. -/
structure Held where
  purpose : Purpose
  key     : Nat
  write   : Bool
  addr    : Nat
  len     : Nat
  attrs   : Attrs
  data    : List Byte
  iid     : Nat
  expiries : Nat
  port    : Option Nat
  holder  : Nat
  classU  : Bool
  /-- A notice's word is formed when it is issued (03 R132). -/
  form    : Bool
  deriving DecidableEq, Repr

/-- Bytes of a walk that have landed in the buffer: first walk position, the words that hold them with their check bits (00 R16), the
offset of the first byte in the first word, the number of bytes, and the same words in the store's copy lines (05 R170). -/
structure Frag where
  walkB : Nat
  words : List (W64 × Byte)
  ofs   : Nat
  len   : Nat
  copy  : List (W64 × Byte)
  deriving DecidableEq, Repr

/-- What a reservation of buffer lines is for (05 R165, R170): a data read, an index or list read, a loaf's overflow and copies. -/
inductive ResKind where
  | data | table | capture
  deriving DecidableEq, Repr

/-- A buffer line reserved for a request (05 R165 to R168), of the partition or of the pool: the loaf and the walk positions it
covers; of an index or list read (`table`) `loaf` is its first entry. -/
structure Lines where
  table  : Bool
  loaf   : Nat
  firstB : Nat
  lastB  : Nat
  part   : Nat
  pool   : Nat
  deriving DecidableEq, Repr

/-- A retryable error to a write of a released loaf (05 R191): walk position and address of write k, its code, its handle. -/
structure RelFault where
  pos  : Nat
  addr : Nat
  code : BitVec 6
  aid  : Nat
  deriving DecidableEq, Repr

/-- A loaf that has begun and not committed (08): the walk range [b0, b1). -/
structure Loaf where
  num        : Nat
  b0         : Nat
  b1         : Nat
  /-- Its end is decided (an unread entry can leave it open). -/
  closed     : Bool
  /-- This attempt: reads and writes are requested up to here, bytes have passed the check engine up to here, and tuples
  are judged up to here. -/
  readB      : Nat
  writeB     : Nat
  passB      : Nat
  judged     : Nat
  /-- The loaf check over the covered bytes that have passed, and their number (06 R196). -/
  chkReg     : W64
  chkLen     : Nat
  /-- The loaf has passed its verify pass and is released, and how often it was (05 R188, R191). -/
  released   : Bool
  releases   : Nat
  /-- Replays by kind (08 R258, R260), the nominal time a backoff ends, and whether this is a later attempt. -/
  fab        : Nat
  internal   : Nat
  backoff    : Option Nat
  again      : Bool
  /-- It holds the slot's loaf store (05 R169). -/
  stored     : Bool
  /-- Walk positions of writes held back until the loaf before has committed (06 R200). -/
  skip       : Option (Nat × Nat)
  /-- Pool lines of its store's overflow and copies (05 R170). -/
  capt       : Nat
  /-- The first retryable error after release, and the latest write acknowledged (05 R191). -/
  relBad     : Option RelFault
  relAckMax  : Option Nat
  /-- Bytes that the verify pass formed: inserted tuples and appended check bytes, by walk position (05 R188). -/
  formed     : List (Nat × Byte)
  frags      : List Frag
  deriving DecidableEq, Repr

/-- A request of Lens (04 R155): its address range, its loaf, and the walk positions it serves with their addresses. -/
structure LensReq where
  start : Nat
  stop  : Nat
  loaf  : Nat
  spans : List (Nat × Nat × Nat)
  deriving DecidableEq, Repr

/-- What a channel does now. -/
inductive Phase where
  /-- Its slot read is under way. -/
  | slotRead
  /-- A descriptor of its LINK's chain proved malformed: it keeps the channel and waits for the repair (02 R80, R84). -/
  | broken
  /-- Proofed whole, held until every earlier slot is accepted (02 R68). -/
  | proofed
  /-- Accepted; its row of the table has not begun it yet. -/
  | accepted
  /-- Moving data. -/
  | moving
  /-- FENCE or SIGNAL waiting for earlier records. -/
  | fencing
  | signalling
  /-- WAIT holding for its flag until the nominal time given. -/
  | waiting (due : Nat)
  /-- Running a chain: between descriptors, reading the tail, parked at it. -/
  | chainTail
  | parked (since : Nat) (nextTest : Nat)
  /-- A park test has found the park ceiling passed: the tail is to close (02 R73, R74). -/
  | expired
  /-- Ended with a status; waits until every issued request is answered (03 R122). -/
  | ending
  /-- Done: its records are in the store, or kept because the store is full (17 R503). -/
  | finished
  /-- Ends in a move: waits to be placed, or for its released writes (08 R264, R266). -/
  | leaving
  deriving DecidableEq, Repr

/-- A chain under way on the channel of its LINK (02 R69 to R77). -/
structure Chain where
  linkDesc  : List W64
  linkFetch : W64
  /-- The LINK's own request attributes, class, timestamp marks and step (09 R294; 03 R121; 13 R401). -/
  linkAttrs : Attrs
  linkUnsync : Bool
  linkStep  : Nat
  segAddr   : Nat
  segCount  : Nat
  segPos    : Nat
  pos       : Nat
  written   : Nat
  /-- The finished record of a segment's last descriptor, held until the tail is decided (02 R75), with its address. -/
  heldRec   : Option (List W64)
  /-- 10 R322: follow no further NEXT. -/
  closing   : Bool
  /-- The position that an adopter looks for; 0 when none (14 R438). -/
  seek      : Nat
  deriving DecidableEq, Repr

/-- A finished record in the record store (17 R503): whose slot, the eight words, who writes it. -/
structure Record where
  qid       : Nat
  idx       : W32
  chainPos  : Nat
  addr      : Nat
  words     : List W64
  clu       : Nat
  slot      : Nat
  cls       : BitVec 2
  noticeNow : Bool
  abandoned : Bool
  /-- Step numbers of the two timestamps (13 R401). -/
  fetchStep : Nat
  doneStep  : Nat
  attrs     : Attrs
  deriving DecidableEq, Repr

/-- A bound channel (slot 0 to 31) or a busy Mirror (32, 33) of a cluster. -/
structure Slot where
  clu       : Nat
  idx       : Nat
  qid       : Nat
  iid       : Nat
  rotHome   : Nat
  slotIdx   : W32
  chain     : Option Chain
  phase     : Phase
  desc      : List W64
  fetchTs   : BitVec 48
  fetchStep : Nat
  doneTs    : BitVec 48
  doneStep  : Nat
  cls       : BitVec 2
  attrs     : Attrs
  estCost   : Nat
  /-- Walk position of the next loaf to cut, its number, and the transfer length still valid (R143 cuts it). -/
  cutB      : Nat
  cutNum    : Nat
  walkEnd   : Nat
  loaves    : List Loaf
  lines     : List Lines
  /-- Pool lines granted to a reservation and not yet taken by its request (05 R171). -/
  grant     : List (ResKind × Nat)
  /-- Reservations that wait for pool lines: lines wanted and the place among all that wait (05 R171). -/
  poolWait  : List (ResKind × Nat × Nat)
  /-- Index or list entries read, (number, index or address, length; a list element's reserved bits stand above bit 31 of the length). -/
  entries   : List (Nat × Nat × Nat)
  /-- The numbers of entries that a replay reads again before it uses them (04 R151). -/
  stale     : List Nat
  lens      : Option LensReq
  lensReady : List LensReq
  /-- Fabric-kind replays of the loaf to be cut next, for reads of its entries, and the end of their backoff (04 R153). -/
  nextFab   : Nat
  nextBackoff : Option Nat
  status    : Nat
  detail    : BitVec 6
  w5        : W64
  bytes     : Nat
  commits   : Nat
  fold      : W64
  replays   : Nat
  retireBy  : Option Nat
  fabOver   : Option (Bool × BitVec 6 × Nat)
  relOver   : Option (BitVec 6 × Nat)
  piBlk     : Nat
  piOfs     : Nat
  piGuard   : W64
  piRef     : W64
  /-- Bytes of a tuple whose loaf has committed and whose end has not (06 R209). -/
  piTuple   : List Byte
  squashed  : Bool
  /-- The fetch timestamp, and the completion timestamp, were taken while the timebase was marked not synchronized (03 R121). -/
  unsynced  : Bool
  doneUnsync : Bool
  /-- Finished records that it keeps because the record store is full, oldest first (17 R503). -/
  kept      : List Record
  /-- A word of its channel state, or of its own copy of the checkpoint, is uncorrectable (08 R251, R252). -/
  stateBad  : Bool
  copyBad   : Bool
  /-- Its chain descriptor is read again for a RESUME (02 R84). -/
  resumed   : Bool
  /-- The federation checkpoint that the descriptor resumes from, and whether it does (14 R438, R440). -/
  resume    : Option (List W64)
  adopted   : Bool
  deriving DecidableEq, Repr

/-- A checkpoint entry (08 R250), and the words of its two stored copies with their check bits (R249). -/
structure Ckpt where
  clu      : Nat
  idx      : Nat
  copy0    : List (W64 × Byte)
  copy1    : List (W64 × Byte)
  desc     : List W64
  qid      : Nat
  slotIdx  : W32
  chainPos : Nat
  fetchTs  : BitVec 48
  loaves   : Nat
  bytes    : Nat
  walkB    : Nat
  listK    : Nat
  listS    : Nat
  fold     : W64
  piBlk    : Nat
  piOfs    : Nat
  piGuard  : W64
  piRef    : W64
  replays  : Nat
  relCount : Nat
  fabTries : Nat
  deriving DecidableEq, Repr

/-- A poll in progress (02 R55 to R60): mode it began in, full scan, accesses not yet issued, accesses under way,
when it fell due (its stamp), and whether it is the debug trigger's (17 R505). -/
structure Poll where
  iid     : Nat
  engine  : Nat
  scan    : Bool
  full    : Bool
  /-- The round counter of the poll-issue arbiter when it fell due (07 R238). -/
  stamp   : Nat
  waiting : List Purpose
  active  : Nat
  failed  : Bool
  debug   : Bool
  deriving DecidableEq, Repr

/-- What the poller keeps per instance between polls: when its interval passes, whether its next poll is a full scan, a kick that
is kept, whether that is the debug trigger's, and, once it has fallen due, the nominal ns and the round of the poll-issue
arbiter then (02 R59 to R64, 07 R238). -/
structure PollInst where
  iid      : Nat
  nextDue  : Option Nat
  fullDue  : Bool
  kept     : Bool
  keptDbg  : Bool
  fell     : Option (Nat × Nat)
  deriving DecidableEq, Repr

/-- A queue the scheduler counts as ready (01 R20): nominal ns it has been eligible without a bind (07 R221), its place
among the promoted queues, whether it is bound for a RESUME (02 R84), and the instance, home cluster and Q_CLASS of its
context when it became ready, by which a round counts it while its context is not resident (CTX_SET_FULL). One that is not
`live` is not ready, and keeps its time and promotion, which only a bind restarts (07 R221). -/
structure Ready where
  qid      : Nat
  live     : Bool
  iid      : Nat
  home     : Nat
  qClass   : Nat
  elig     : Nat
  promoted : Option Nat
  resume   : Bool
  deriving DecidableEq, Repr

/-- A visit in progress of a class rotation: the class, the instance, and the WEIGHT and CLASS_CAP in force for it (07 R223,
R229). -/
structure Visit where
  cls    : Nat
  iid    : Nat
  weight : Nat
  cap    : Nat
  deriving DecidableEq, Repr

/-- Scheduler state of one cluster (07 R220 to R225): deficits by IID, WEIGHT × QUANTUM at the start of each instance's last visit,
which bounds its deficit until its next one (R225, R230), the visits in progress, the IID of the last visit of each class, the last
QID bound by (IID, class), and since when the cluster has had no free channel (07 R232). -/
structure Sched where
  clu     : Nat
  defs    : List (Nat × Int)
  weights : List (Nat × Nat)
  visits  : List Visit
  last    : List (Nat × Nat)
  lastQ   : List (Nat × Nat × Nat)
  fullAt  : Option Nat
  deriving DecidableEq, Repr

/-- Token buckets of an instance (07 R227), in thousandths of a byte and of a descriptor times 10^6. -/
structure Bucket where
  iid   : Nat
  bytes : Int
  descs : Int
  deriving DecidableEq, Repr

/-- One requester of an arbiter (07 R238 to R242). -/
structure Requester where
  idx     : Nat
  stamp   : Nat
  wait    : Nat
  forced  : Bool
  /-- Locked out: cycles left for a datapath arbiter, else the nominal ns at which the lockout ends. -/
  lockout : Nat
  raised  : Bool
  deriving DecidableEq, Repr

/-- An arbiter (07 R235): 0 to 15 ports, 16 to 31 context banks, 32 poll issue, 33 admin, 34 to 49 datapaths. -/
structure Arb where
  num       : Nat
  round     : Nat
  reqs      : List Requester
  emBarred  : Bool
  emRun     : Nat
  /-- Grants won by a forced requester (SCH_ARB_STAT.FORCED, 07 R240). -/
  won       : Nat
  /-- Accesses to a context bank that are not granted yet, each by its requester, oldest first. -/
  waiting   : List Nat
  deriving DecidableEq, Repr

/-- A slot that was not whole when it was read (02 R65 to R67): its re-read count, when its interval passes (none once it
has), the cause when the ceiling is passed, the cluster and channel that read it last, and what they read (03 R123). -/
structure Reread where
  qid     : Nat
  idx     : W32
  count   : Nat
  due     : Option Nat
  cause   : Option Nat
  clu     : Nat
  slot    : Nat
  words   : List W64
  deriving DecidableEq, Repr

/-- Phase of the admin command in progress. -/
inductive AdmPhase where
  /-- Proofed: its row may begin it. -/
  | proofed
  /-- Waits for an image or list (bytes read so far). -/
  | image (got : List Byte)
  /-- Waits for CONFIG_ACK of the other members before its effect (14 R423). -/
  | members
  /-- Waits for the context of its queue. -/
  | context
  /-- Waits for the events its row of 09 R292 names. -/
  | waiting
  /-- COMMIT makes the contexts of its queue items resident (09 R303, phase 2). -/
  | pinning
  /-- COMMIT waits for a quiet point. -/
  | quietPoint
  /-- Writing a copy (13 R412): lines still unanswered, and the header line with its address while it is not yet written. -/
  | copying (left : Nat) (header : Option (Nat × List W64))
  deriving DecidableEq, Repr

/-- A command in progress (09 R278): of admin queue 0, or one that another member sent (14 R423; `sender`). -/
structure AdmCmd where
  words    : List W64
  idx      : W32
  phase    : AdmPhase
  fetchTs  : BitVec 48
  /-- When its ceiling passes (nominal ns). -/
  due      : Nat
  /-- How far a command of several stages has come (10 R333); of a RESET_INSTANCE or DESTROY_INSTANCE that waits for the other members
  16 more than the INST_STATE it found; 1 for a COMMIT whose staging area was emptied under it (09 R301). -/
  stage    : Nat
  w1       : W64
  w2       : W64
  items    : List (W64 × W64)
  image    : List W64
  /-- The clusters that a COMMIT affects (09 R302). -/
  clusters : List Nat
  /-- Members whose CONFIG_ACK is awaited, and the lowest member that answered other than OK, its STATUS and DETAIL. -/
  acks     : List Nat
  bad      : Option (Nat × Nat × Nat)
  /-- The owner agent was reset: no record is written (09 R281). -/
  silent   : Bool
  sender   : Option Nat
  deriving DecidableEq, Repr

/-- Admin queue 0 (09 R272 to R289). -/
structure Adm where
  f          : W32
  q          : W32
  piSeen     : W32
  resumeSeen : BitVec 1
  abandonSeen : BitVec 1
  reread     : Nat
  rereadDue  : Option Nat
  nseq       : BitVec 8
  noticeBusy : Bool
  noticeKept : Bool
  nextPoll   : Nat
  kick       : Bool
  dbActive   : Bool
  slotActive : Bool
  lastSlot   : List W64
  cmd        : Option AdmCmd
  deriving DecidableEq, Repr

/-- A record waiting for the error log (11 R355, R359). -/
structure ErrRec where
  seq     : W32
  cls     : Nat
  domain  : Nat
  code    : Nat
  count   : Nat
  time    : W64
  iid     : Nat
  qid     : Nat
  slot    : Nat
  clu     : Nat
  detail  : BitVec 8
  arg0    : W64
  arg1    : W64
  deriving DecidableEq, Repr

/-- A dirty-log record waiting to be written (10 R341). -/
structure DirtyRec where
  iid   : Nat
  epoch : Bool
  big   : Bool
  page  : Nat
  deriving DecidableEq, Repr

/-- An entry of the dedup filter (10 R340). -/
structure DirtyKey where
  hash  : Nat
  iid   : Nat
  big   : Bool
  page  : Nat
  epoch : Bool
  deriving DecidableEq, Repr

/-- The banked routing of the event matrix (09 R310): IS1, IS2 and the banked registers of page 0x6. -/
structure EvmBank where
  is1  : WordMap
  is2  : WordMap
  regs : WordMap
  deriving DecidableEq, Repr

/-- What EVM keeps per line (12 R377, R388, R389): level, masked, since when asserted, end of the rate window,
deferred edge with its hop count. -/
structure Line where
  num    : Nat
  level  : Bool
  masked : Bool
  since  : Nat
  window : Nat
  defer  : Option Nat
  deriving DecidableEq, Repr

/-- An interval timer (13 R411): end of the running interval, or what remains of it while paused. -/
structure Timer where
  num    : Nat
  ends   : Option Nat
  paused : Option Nat
  deriving DecidableEq, Repr

/-- A PLL and its monitor (15 R452 to R455): when its lock ceiling passes, clean windows in a row, and whether it has tripped since
it was last started (R460). -/
structure Pll where
  due     : Nat
  clean   : Nat
  tripped : Bool
  deriving DecidableEq, Repr

/-- A clock switch that hangs (15 R458): domain, when it began, and its ceiling in SUP cycles. -/
structure Mux where
  domain : Nat
  since  : Nat
  ceil   : Nat
  deriving DecidableEq, Repr

/-- A P-level change (15 R464 to R466): target, whether it waits for pw_ack and until when, whether only for a late toggle,
and whether it has not begun because a switch of a cluster's clock has not ended. -/
structure PChange where
  target : Nat
  up     : Bool
  due    : Nat
  late   : Bool
  held   : Bool
  deriving DecidableEq, Repr

/-- A frame held for resend (14 R447). -/
structure TxFrame where
  seq     : Nat
  header  : BitVec 256
  payload : List (BitVec 256)
  due     : Nat
  resends : Nat
  deriving DecidableEq, Repr

/-- A frame formed while its link was down or held 64 unacknowledged frames. -/
structure WaitFrame where
  type    : Nat
  dst     : Nat
  relayed : Bool
  src     : Nat
  fields  : List (Nat × Nat × Nat)
  payload : List (BitVec 256)
  deriving DecidableEq, Repr

/-- A federation link (14 R444 to R448): own receiver has RX_OK, TRAIN with RX_OK = 1 received, last SEQ sent, highest SEQ
received in order, frames held for resend, an ACK owed, the member at the far end as learned, frames that wait for the
link, how many beats ago each idle beat in error of the last 65,536 came, the pattern it was trained with, and the generator of its idle
beats (14 FED_LINK_CTL.PRBS, 19 R553). -/
structure Link where
  num      : Nat
  rxOk     : Bool
  farOk    : Bool
  txSeq    : Nat
  rxSeq    : Nat
  unacked  : List TxFrame
  ackOwed  : Bool
  far      : Option Nat
  waiting  : List WaitFrame
  idle     : List Nat
  sel      : Nat
  gen      : BitVec 31
  deriving DecidableEq, Repr

/-- What a member knows of another member (14 R434, R435): when its own heartbeat, and one that lists it as heard, last
arrived; the last witness read; the witness count and the time of the read that first returned it; found silent; when
its queues may be adopted; epoch, hash and STATE of its last heartbeat; a manifest of it has arrived since it was last
fenced. -/
structure Member where
  num       : Nat
  heardAt   : Option Nat
  listedAt  : Option Nat
  readAt    : Option Nat
  witness   : Option (Nat × Nat)
  silent    : Bool
  adoptAt   : Option Nat
  epoch     : W32
  hash      : W64
  state     : Nat
  manifest  : Bool
  deriving DecidableEq, Repr

/-- Federation state beyond its registers (14). -/
structure Fed where
  links      : List Link
  members    : List Member
  /-- Ownership of queues homed elsewhere: (QID, member). -/
  owners     : List (Nat × Nat)
  hash       : W64
  witnessCnt : Nat
  witnessAck : Nat
  nextHb     : Nat
  /-- CONFIG parts received of commands not yet whole: (member, CMD_ID, parts received, payload beats). -/
  config     : List (Nat × Nat × Nat × List (BitVec 256))
  /-- The other member's command being applied, and those behind it (14 R423). -/
  remote     : Option AdmCmd
  inbox      : List AdmCmd
  timeReq    : Option (Nat × W64)
  timeNum    : Nat
  /-- Members whose manifests have arrived since FED_JOIN began. -/
  joinSeen   : List Nat
  offset     : W64
  leaving    : List Nat
  /-- The ownership table as a joiner has it from the members: (QID, member) of every queue (14 R426, step 5). -/
  joinTable  : List (Nat × Nat)
  /-- Queues that this member yields, and to which member (14 R429). -/
  yielding   : List (Nat × Nat)
  /-- The member has fenced itself and has not been joined again (14 R436). -/
  fenced     : Bool
  /-- The members whose manifests named another group than this joiner's (14 R427), by number. -/
  joinGroups : List Nat
  /-- Manifests, by link and member, whose answer waits for the end of a FENCE in progress (14 R443). -/
  joinWait   : List (Nat × Nat)
  /-- The federated commands a fenced member had outstanding, which apply to its adopted queues (14 R443). -/
  outstanding : List AdmCmd
  deriving DecidableEq, Repr

/-- A generator and checker of the test unit (19 R553, R554): its number, generator register, checker register; of a unit
that works on memory the offset of its request and the phase of its pass, 0 writing and 1 reading; of the checker of a link
unit the error-free beats in a row (`ofs`) and the beats in error in a row (`phase`). -/
structure TUnit where
  num    : Nat
  gen    : BitVec 31
  chk    : BitVec 31
  ofs    : Nat
  phase  : Nat
  deriving DecidableEq, Repr

/-- A telemetry snapshot being written (13 R415). -/
structure Snap where
  num     : Nat
  /-- Payload lines not yet answered. -/
  left    : Nat
  /-- SET 3: the queue's context is not yet resident. -/
  waiting : Bool
  /-- The key of its writes (12 R381). -/
  key     : Nat
  /-- The header line, not yet written, and its address. -/
  header  : Option (List Byte × Nat)
  /-- The words of its sink at the edge: they serve this copy, however the sink is written meanwhile (13 R415). -/
  sink    : List W32
  deriving DecidableEq, Repr

/-- The answer of the register port to the last access (18 R526): lane, code, data. -/
structure Resp where
  agent : Nat
  code  : Nat
  data  : W32
  deriving DecidableEq, Repr

/-- The state of the block. -/
structure State where
  pending     : List Instr
  -- time
  timebase    : W64
  tbFrac      : Int
  tbStep      : Nat
  nomNs       : Nat
  tbLatch     : List (Nat × W32)
  -- modes and registers
  mode        : Mode
  modeNext    : Option Mode
  fatal       : Bool
  rstN        : Bool
  strapEvOut  : BitVec 256
  strapTst    : BitVec 2
  regs        : WordMap
  lastRead    : List (Nat × Nat × Nat)
  resp        : Option Resp
  is0         : WordMap
  evm         : EvmBank
  evmPend     : EvmBank
  is3         : WordMap
  /-- Words of IS4 written in TEST, as differences (17 R508). -/
  is4         : WordMap
  /-- What the cache held in each of these words when it was written. -/
  is4Seen     : WordMap
  /-- Entries of the context cache that have held something since MBIST zeroed it, and whether a run of TEST has. -/
  usedWays    : List Nat
  ctxZero     : Bool
  is6         : WordMap
  is7         : WordMap
  -- admin
  staged      : List (W64 × W64)
  adm         : Adm
  commitPins  : List Nat
  lastSlots   : List (Nat × List W64)
  overrun     : List Nat
  -- queues and contexts
  queues      : List Nat
  ways        : List Way
  ctxWait     : List (Nat × CtxWork)
  ctxRetry    : List (Nat × Nat)
  ctxWb       : List (Nat × Nat)
  -- poller
  polls       : List Poll
  pollInst    : List PollInst
  pollBudget  : Int
  -- scheduler
  ready       : List Ready
  sched       : List Sched
  buckets     : List Bucket
  promoCtr    : Nat
  rereads     : List Reread
  -- channels and data movement
  slots       : List Slot
  ckpt        : List Ckpt
  records     : List Record
  /-- Finished records that no channel keeps and that wait for an entry of the record store, oldest first (17 R503). -/
  waitRecs    : List Record
  moving      : List (Nat × Slot)
  bridge      : List (Nat × Nat × Nat)
  takeover    : List (Nat × Nat × Nat)
  acc         : List Access
  quar        : List Quar
  held        : List Held
  credits     : List (Nat × Nat × Nat × Nat)
  portActive  : List Nat
  arbs        : List Arb
  uWin        : List (Nat × List Bool)
  /-- Whose turn it was last, by 3 × cluster + 0 for Prism's reads, 1 for its writes, 2 for Lens (04 R154, 05 R164). -/
  turns       : List (Nat × Nat)
  suspect     : List Nat
  /-- WAITs (cluster, slot) that saw their flag set before a clear of it reached their cluster (03 R113). -/
  lateFlags   : List (Nat × Nat)
  -- logs
  errQ        : List ErrRec
  dirtyQ      : List DirtyRec
  dirtyFilter : List DirtyKey
  dirtyPrev   : List (Nat × Nat)
  closing     : List (Nat × Bool)
  sweep       : List Nat
  -- events and telemetry
  heldPulses  : List (Nat × Nat × Nat)
  srcLevels   : List Nat
  /-- The sources that have no level (12 R374) and are high in the EVM cycle of the pulse being delivered (12 R378). -/
  pulseHigh   : List Nat
  /-- WAIT flags that a line set, with the nominal time (12 R383: in the same EVM cycle the set wins over a clear). -/
  flagSets    : List (Nat × Nat)
  evIn        : List (Nat × Nat)
  lines       : List Line
  evOut       : List (Nat × Nat × Nat)
  timers      : List Timer
  thrPrev     : List (Nat × W32)
  snaps       : List Snap
  copySeq     : W32
  occDue      : Nat
  -- clocks and power
  plls        : Pll × Pll
  muxes       : List Mux
  /-- Clusters' domains whose switch waits for a P-level change, and whether their clock had stopped (15 R466). -/
  clkWait     : List (Nat × Bool)
  pchange     : Option PChange
  pwAck       : Bool
  pwRest      : Bool
  idleSince   : Option Nat
  wakeAt      : Option Nat
  /-- 0 none, 1 the REST record is issued, 2 the entry of 15 R471 is under way. -/
  restEnter   : Nat
  restAt      : Nat
  wakePend    : Option Nat
  -- federation and test
  fed         : Fed
  adopting    : List (Nat × Nat)
  /-- Of an adopted queue that is not IDLE or ACTIVE: the index at which its resolution ends, for no slot was fetched from there on. -/
  adoptStop   : List (Nat × W32)
  adoptDone   : List (Nat × W32)
  /-- The CSEQ of each entry of this member's federation checkpoints that has been written (14 R439). -/
  cseqs       : List (Nat × Nat)
  /-- Frames that have left, each with its link. -/
  txFrames    : List (Nat × RawFrame)
  /-- The idle beats that the links drive now, each with its link and check bytes (18 R536). -/
  idleOut     : List (Nat × BitVec 256 × List Byte)
  tunits      : List TUnit
  mbist       : Option (Nat × Bool)
  -- the model's own counters
  nextAid     : Nat
  freeCtr     : Nat
  deriving DecidableEq, Repr

/-- Admin queue 0 after reset. -/
def Adm.init : Adm :=
  { f := 0, q := 0, piSeen := 0, resumeSeen := 0, abandonSeen := 0, reread := 0, rereadDue := none, nseq := 0,
    noticeBusy := false, noticeKept := false, nextPoll := 0, kick := false, dbActive := false, slotActive := false,
    lastSlot := [], cmd := none }

/-- The federation after reset: alone (14 R425). -/
def Fed.init : Fed :=
  { links := [], members := [], owners := [], hash := 0, witnessCnt := 0, witnessAck := 0, nextHb := 0, config := [],
    remote := none, inbox := [], timeReq := none, timeNum := 0, joinSeen := [], offset := 0, leaving := [],
    joinTable := [], yielding := [], fenced := false, joinGroups := [], joinWait := [], outstanding := [] }

/-- The machine right after reset: rst_n has risen, BRINGUP has begun, both PLLs start (19 R543, R546), every register
at its reset value, nothing bound, nothing waiting. -/
def State.reset : State :=
  { pending := [], timebase := 0, tbFrac := 0, tbStep := 0, nomNs := 0, tbLatch := [], mode := .bringup,
    modeNext := none, fatal := false, rstN := true, strapEvOut := 0, strapTst := 0, regs := [],
    lastRead := [], resp := none, is0 := [(13, 1)], evm := ⟨[], [], []⟩, evmPend := ⟨[], [], []⟩, is3 := [], is4 := [], is4Seen := [], usedWays := [], ctxZero := false,
    is6 := [], is7 := [], staged := [], adm := Adm.init, commitPins := [], lastSlots := [], overrun := [], queues := [], ways := [], ctxWait := [],
    ctxRetry := [], ctxWb := [], polls := [], pollInst := [], pollBudget := 4096000, ready := [], sched := [],
    buckets := [], promoCtr := 0, rereads := [], slots := [], ckpt := [], records := [], waitRecs := [], moving := [], bridge := [],
    takeover := [], acc := [], quar := [], held := [], credits := [], portActive := [], arbs := [], uWin := [], turns := [],
    suspect := [], lateFlags := [], errQ := [], dirtyQ := [], dirtyFilter := [], dirtyPrev := [], closing := [], sweep := [],
    heldPulses := [], srcLevels := [], pulseHigh := [], flagSets := [], evIn := [], lines := [], evOut := [], timers := [], thrPrev := [], snaps := [],
    copySeq := 0, occDue := 0, plls := (⟨50000, 0, false⟩, ⟨50000, 0, false⟩), muxes := [], clkWait := [], pchange := none, pwAck := false,
    pwRest := false, idleSince := none, wakeAt := none, restEnter := 0, restAt := 0, wakePend := none, fed := Fed.init, adopting := [], adoptStop := [], adoptDone := [], cseqs := [],
    txFrames := [], idleOut := [], tunits := [], mbist := none, nextAid := 0, freeCtr := 0 }

/-- What a step answers. -/
abbrev Out := Host.Outcome State Fault Refusal

end Sys2Proof.Machine
end

