-- ==== Sys2Proof/Machine/Bits.lean ====
section
/-! DEFINITION. Bit fields, byte order (00 R4), word maps, and the small list operations the meanings share. -/

namespace Sys2Proof.Machine

/-- Bits [lo + len − 1 : lo] of a word, as a number. -/
def bits {n : Nat} (w : BitVec n) (lo len : Nat) : Nat := w.toNat / 2 ^ lo % 2 ^ len

/-- Bit i of a word. -/
def bit {n : Nat} (w : BitVec n) (i : Nat) : Bool := decide (w.toNat / 2 ^ i % 2 = 1)

/-- The word with v (modulo 2^len) in bits [lo + len − 1 : lo], the other bits as they were. -/
def withBits {n : Nat} (w : BitVec n) (lo len v : Nat) : BitVec n :=
  BitVec.ofNat n (w.toNat - w.toNat / 2 ^ lo % 2 ^ len * 2 ^ lo + v % 2 ^ len * 2 ^ lo)

/-- One bit as a number. -/
def flag (b : Bool) : Nat := if b then 1 else 0

/-- A 64-bit word from its fields, each (position, width, value). -/
def packNat : List (Nat × Nat × Nat) → Nat
  | [] => 0
  | (lo, len, v) :: fs => v % 2 ^ len * 2 ^ lo + packNat fs

/-- A 64-bit word from its fields. -/
def pack (fs : List (Nat × Nat × Nat)) : W64 := BitVec.ofNat 64 (packNat fs)

/-- Little-endian value of bytes. -/
def leNat : List Byte → Nat
  | [] => 0
  | b :: bs => b.toNat + 256 * leNat bs

/-- The n low bytes of v, low byte first. -/
def leBytes : Nat → Nat → List Byte
  | 0, _ => []
  | n + 1, v => BitVec.ofNat 8 v :: leBytes n (v / 256)

/-- The n low bytes of v, high byte first (00 R13). -/
def beBytes (n v : Nat) : List Byte := (leBytes n v).reverse

/-- Big-endian value of bytes. -/
def beNat (bs : List Byte) : Nat := leNat bs.reverse

/-- The bytes of 64-bit words in memory (00 R4, R5). -/
def bytesOfWords (ws : List W64) : List Byte := ws.flatMap (fun w => leBytes 8 w.toNat)

/-- Pieces of k elements; fuel bounds the number of pieces. -/
def chunksOf {α : Type} (k : Nat) : Nat → List α → List (List α)
  | 0, _ => []
  | f + 1, xs => if xs.isEmpty then [] else xs.take k :: chunksOf k f (xs.drop k)

/-- 64-bit words of bytes. -/
def wordsOfBytes (bs : List Byte) : List W64 :=
  (chunksOf 8 (bs.length + 1) bs).map (fun c => BitVec.ofNat 64 (leNat c))

/-- Word i of a structure of 64-bit words; zero beyond it. -/
def wd (ws : List W64) (i : Nat) : W64 := ws.getD i 0

/-- The value a register or field acts as between limits. -/
def clamp (lo hi v : Nat) : Nat := max lo (min hi v)

/-- The signed value of the low `len` bits of v in two's complement. -/
def signedOf (len v : Nat) : Int :=
  if v % 2 ^ len < 2 ^ (len - 1) then (v % 2 ^ len : Nat) else (v % 2 ^ len : Nat) - (2 ^ len : Nat)

/-- A word map with `v` at `k`: words rising, no zero listed. -/
def WordMap.put (m : WordMap) (k : Nat) (v : W32) : WordMap :=
  match m with
  | [] => if v = 0 then [] else [(k, v)]
  | (a, x) :: r =>
    if k < a then (if v = 0 then (a, x) :: r else (k, v) :: (a, x) :: r)
    else if k = a then (if v = 0 then r else (k, v) :: r)
    else (a, x) :: WordMap.put r k v

/-- The word at k; zero where none is listed. -/
def WordMap.get (m : WordMap) (k : Nat) : W32 :=
  match m with
  | [] => 0
  | (a, x) :: r => if a = k then x else WordMap.get r k

/-- The canonical form: words strictly rising above `lo`, none zero. -/
def WordMap.wfFrom : Nat → WordMap → Bool
  | _, [] => true
  | lo, (a, x) :: r => decide (lo ≤ a) && decide (x ≠ 0) && WordMap.wfFrom (a + 1) r

/-- The canonical form of a word map. -/
def WordMap.wf (m : WordMap) : Bool := WordMap.wfFrom 0 m

/-- The words of a map of one stretch [lo, lo + n) set to zero. -/
def WordMap.clear (m : WordMap) (lo n : Nat) : WordMap := m.filter (fun p => decide (p.1 < lo) || decide (lo + n ≤ p.1))

/-- `put` of consecutive words from k on. -/
def WordMap.putAll (m : WordMap) (k : Nat) : List W32 → WordMap
  | [] => m
  | v :: vs => WordMap.putAll (m.put k v) (k + 1) vs

/-- Apply f to the elements that p picks. -/
def upd {α : Type} (p : α → Bool) (f : α → α) (xs : List α) : List α := xs.map (fun x => if p x then f x else x)

/-- Drop the elements that p picks. -/
def dropIf {α : Type} (p : α → Bool) (xs : List α) : List α := xs.filter (fun x => !p x)

/-- The value listed for a key. -/
def assocGet {β : Type} (xs : List (Nat × β)) (k : Nat) : Option β := (xs.find? (fun x => x.1 == k)).map (·.2)

/-- The list with (k, v) in place of any entry of k. -/
def assocPut {β : Type} (xs : List (Nat × β)) (k : Nat) (v : β) : List (Nat × β) := (k, v) :: xs.filter (fun x => x.1 != k)

/-- The list without the entries of k. -/
def assocDel {β : Type} (xs : List (Nat × β)) (k : Nat) : List (Nat × β) := xs.filter (fun x => x.1 != k)

/-- The least of a list by a measure; the earlier of equals. -/
def leastBy {α : Type} (f : α → Nat) : List α → Option α
  | [] => none
  | x :: xs =>
    match leastBy f xs with
    | none => some x
    | some y => if f x ≤ f y then some x else some y

/-- The service port index of a key: the exclusive-OR of its 4-bit groups (01 R21). -/
def servicePort (key : Nat) : Nat :=
  (key % 16) ^^^ (key / 16 % 16) ^^^ (key / 256 % 16) ^^^ (key / 4096 % 16) ^^^ (key / 65536 % 16) ^^^
    (key / 1048576 % 4)

/-- The partner of a cluster (00 R8). -/
def partnerOf (n : Nat) : Nat := if n % 2 = 0 then n + 1 else n - 1

end Sys2Proof.Machine
end

