-- ==== Sys2Proof/Machine/Flags.lean ====
section
/-! DEFINITION. The check computations of the block: the three check codes (00 R12), their fold (06 R196, R197), the SECDED
code (06 R213 to R215), the response codes (18 R523), and the pattern generators (00 R14). -/

namespace Sys2Proof.Machine

/-- The check codes of FLAGS_A.CHK_SEL (03 R92). -/
inductive CheckCode where
  | none | crc16 | crc32c | crc64
  deriving DecidableEq, Repr

/-- CHK_SEL. -/
def CheckCode.ofSel (v : Nat) : CheckCode :=
  if v = 1 then .crc16 else if v = 2 then .crc32c else if v = 3 then .crc64 else .none

/-- Bytes of a check value (06 R199). -/
def CheckCode.size : CheckCode → Nat
  | .none => 0 | .crc16 => 2 | .crc32c => 4 | .crc64 => 8

/-- The initial value, which is also the final exclusive-OR (00 R12). -/
def CheckCode.init : CheckCode → W64
  | .none => 0 | .crc16 => 0 | .crc32c => 0xFFFFFFFF | .crc64 => 0xFFFFFFFFFFFFFFFF

/-- One bit step of a reflected register with the bit-reversed polynomial. -/
def crcReflStep (poly r : W64) : W64 := if bit r 0 then (r >>> 1) ^^^ poly else r >>> 1

/-- One byte through a reflected register. -/
def crcReflByte (poly r : W64) (b : Byte) : W64 :=
  (List.range 8).foldl (fun x _ => crcReflStep poly x) (r ^^^ b.setWidth 64)

/-- One bit step of the CRC-16/T10-DIF register. -/
def crc16Step (r : W64) : W64 :=
  if bit r 15 then ((r <<< 1) ^^^ 0x8BB7) &&& 0xFFFF else (r <<< 1) &&& 0xFFFF

/-- One byte through the CRC-16/T10-DIF register. -/
def crc16Byte (r : W64) (b : Byte) : W64 :=
  (List.range 8).foldl (fun x _ => crc16Step x) (r ^^^ (b.setWidth 64 <<< 8))

/-- One byte through a check register (00 R12). -/
def CheckCode.byte (c : CheckCode) (r : W64) (b : Byte) : W64 :=
  match c with
  | .none => 0
  | .crc16 => crc16Byte r b
  | .crc32c => crcReflByte 0x82F63B78 r b
  | .crc64 => crcReflByte 0x9A6C9329AC4BC9B5 r b

/-- Reg(s, M) of 06 R196. -/
def CheckCode.reg (c : CheckCode) (s : W64) (m : List Byte) : W64 := m.foldl (fun r b => c.byte r b) s

/-- Shift(s, n) of 06 R196: n zero bytes. -/
def CheckCode.shift (c : CheckCode) (s : W64) : Nat → W64
  | 0 => s
  | n + 1 => CheckCode.shift c (c.byte s 0) n

/-- The complete check of a message. -/
def CheckCode.of (c : CheckCode) (m : List Byte) : W64 := c.reg c.init m ^^^ c.init

/-- Folding a loaf's check into the running register (06 R197). -/
def CheckCode.fold (c : CheckCode) (r loafCheck : W64) (n : Nat) : W64 := c.shift r n ^^^ loafCheck

/-- A check value in the byte order it is appended in (06 R199). -/
def CheckCode.bytesOf (c : CheckCode) (v : W64) : List Byte :=
  match c with
  | .none => []
  | .crc16 => beBytes 2 v.toNat
  | .crc32c => leBytes 4 v.toNat
  | .crc64 => leBytes 8 v.toNat

/-- CRC-32C over bytes (14 R444). -/
def crc32c (m : List Byte) : W32 := (CheckCode.crc32c.of m).setWidth 32

/-- Positions 1 to 71 that hold data bits, in order (06 R213). -/
def secdedPositions : List Nat :=
  (List.range 72).filter (fun p => decide (p ∉ [0, 1, 2, 4, 8, 16, 32, 64]))

/-- The exclusive-OR of the positions of the set data bits. -/
def secdedXor (d : W64) : Nat :=
  (secdedPositions.zipIdx).foldl (fun s p => if bit d p.2 then s ^^^ p.1 else s) 0

/-- Parity of a word: true when an odd number of bits is set. -/
def oddParity {n : Nat} (w : BitVec n) : Bool :=
  (List.range n).foldl (fun p i => p ^^ bit w i) false

/-- The check byte of a word (06 R213, R214). -/
def secdedCheck (d : W64) : Byte :=
  BitVec.ofNat 8 (secdedXor d + 128 * flag (oddParity d ^^ oddParity (BitVec.ofNat 7 (secdedXor d))))

/-- The syndrome of a received word (06 R215). -/
def secdedSyndrome (d : W64) (c : Byte) : Nat := secdedXor d ^^^ (c.toNat % 128)

/-- Decoding a received word: its data and what was found (06 R215). -/
def secdedDecode (d : W64) (c : Byte) : W64 × EccMark :=
  let s := secdedSyndrome d c
  let p := oddParity d ^^ oddParity c
  if s = 0 then (d, if p then .corrected else .clean)
  else if p && decide (s ≤ 71) then
    (match secdedPositions.findIdx? (· == s) with
     | some i => d ^^^ BitVec.ofNat 64 (2 ^ i)
     | none => d, .corrected)
  else (d, .uncorrectable)

/-- The worse of two findings. -/
def markJoin (a b : EccMark) : EccMark :=
  match a, b with
  | .uncorrectable, _ => .uncorrectable
  | _, .uncorrectable => .uncorrectable
  | .corrected, _ => .corrected
  | _, .corrected => .corrected
  | .clean, .clean => .clean

/-- A response code is retryable (18 R523). -/
def codeRetryable (c : BitVec 6) : Bool := decide (1 ≤ c.toNat) && decide (c.toNat ≤ 0x1F)

/-- A received code as Sirrihorn handles it: 0x3D to 0x3F count as 0x3C (18 R523). -/
def codeSeen (c : BitVec 6) : BitVec 6 := if 0x3D ≤ c.toNat then 0x3C else c

/-- The lines of 64 B that a range touches (05 R163). -/
def linesTouched (addr len : Nat) : Nat := if len = 0 then 0 else (addr + len - 1) / 64 - addr / 64 + 1

/-- What an answered read yields: the requested bytes, and the worst finding on the words that hold at least one of
them (18 R521). The answer's words begin at the 64 B line of addr; words not given read as zero. -/
def readBytes (addr len : Nat) (words : List (W64 × Byte)) : List Byte × EccMark :=
  let first := addr % 64 / 8
  let last := (addr % 64 + len - 1) / 8
  let ds := (List.range (last + 1 - first)).map (fun i => let w := words.getD (first + i) (0, 0); secdedDecode w.1 w.2)
  (((ds.flatMap (fun d => leBytes 8 d.1.toNat)).drop (addr % 8)).take len, ds.foldl (fun m d => markJoin m d.2) .clean)

/-- How many words of the answer that hold requested bytes decoded as corrected. -/
def readCorrected (addr len : Nat) (words : List (W64 × Byte)) : Nat :=
  let first := addr % 64 / 8
  let last := (addr % 64 + len - 1) / 8
  ((List.range (last + 1 - first)).filter
    (fun i => let w := words.getD (first + i) (0, 0); decide ((secdedDecode w.1 w.2).2 = .corrected))).length

/-- Words with the check bytes a sound answer carries. -/
def soundWords (ws : List W64) : List (W64 × Byte) := ws.map (fun w => (w, secdedCheck w))

/-! Beats of a link (14 R444, 18 R536). -/

/-- The four words of a beat, the lowest first. -/
def beatWords (b : BitVec 256) : List W64 := (List.range 4).map (fun i => BitVec.ofNat 64 (bits b (64 * i) 64))

/-- A beat from its words. -/
def wordsBeat (ws : List W64) : BitVec 256 := BitVec.ofNat 256 (leNat (bytesOfWords ws))

/-- The check bytes of a beat's words. -/
def wordChecks (b : BitVec 256) : List Byte := (beatWords b).map secdedCheck

/-- A frame with the check bytes that its sender gives its words. -/
def sealFrame (h : BitVec 256) (p : List (BitVec 256)) : RawFrame :=
  { header := h, payload := p, checks := (h :: p).flatMap wordChecks }

/-- The words of a received frame, decoded. -/
def frameDecode (f : RawFrame) : List (W64 × EccMark) :=
  (((f.header :: f.payload).flatMap beatWords).zip f.checks).map (fun w => secdedDecode w.1 w.2)

/-- What decoding its words found: the worst of them. -/
def frameMark (f : RawFrame) : EccMark := (frameDecode f).foldl (fun m d => markJoin m d.2) .clean

/-- How many of its words decoded as corrected. -/
def frameCorrected (f : RawFrame) : Nat := ((frameDecode f).filter (fun d => decide (d.2 = .corrected))).length

/-- The frame with every correctable word corrected. -/
def fixedFrame (f : RawFrame) : RawFrame :=
  let ws := (frameDecode f).map (·.1)
  let beat := fun (b : Nat) => wordsBeat ((ws.drop (4 * b)).take 4)
  { f with header := beat 0, payload := (List.range f.payload.length).map (fun b => beat (b + 1)) }

/-! Patterns (00 R14, 19 R553). -/

/-- Degree and middle tap of a pattern of the PRBS field. -/
def prbsTaps (sel : Nat) : Nat × Nat :=
  if sel = 0 then (7, 6) else if sel = 1 then (15, 14) else if sel = 2 then (23, 18) else (31, 28)

/-- The bit shifted into the register: the sum of its two taps; the newest bit is the lowest. -/
def prbsIn (sel : Nat) (r : BitVec 31) : Bool := bit r ((prbsTaps sel).1 - 1) ^^ bit r ((prbsTaps sel).2 - 1)

/-- The next pattern bit: the oldest of the register, not inverted, for all four patterns. 00 R14 gives the polynomials and the all-ones
start and names O.150, which inverts those of 15, 23 and 31 stages; the block's beats are all sent as the register gives them (DESIGN
CHOICE, log entry 48). -/
def prbsBit (sel : Nat) (r : BitVec 31) : Bool := bit r ((prbsTaps sel).1 - 1)

/-- The register after a bit. -/
def prbsNext (sel : Nat) (r : BitVec 31) : BitVec 31 :=
  BitVec.ofNat 31 ((2 * r.toNat + flag (prbsIn sel r)) % 2 ^ (prbsTaps sel).1)

/-- The all-ones register of a pattern. -/
def prbsOnes (sel : Nat) : BitVec 31 := BitVec.ofNat 31 (2 ^ (prbsTaps sel).1 - 1)

/-- The next n pattern bits as a number, the first in bit 0, and the register after them. -/
def prbsBits (sel : Nat) : Nat → BitVec 31 → Nat × BitVec 31
  | 0, r => (0, r)
  | n + 1, r =>
    match prbsBits sel n (prbsNext sel r) with
    | (v, r1) => (flag (prbsBit sel r) + 2 * v, r1)

/-- The next n bytes. -/
def prbsBytes (sel : Nat) : Nat → BitVec 31 → List Byte × BitVec 31
  | 0, r => ([], r)
  | n + 1, r =>
    match prbsBits sel 8 r with
    | (v, r1) =>
      match prbsBytes sel n r1 with
      | (bs, r2) => (BitVec.ofNat 8 v :: bs, r2)

/-- Bits in which two byte strings differ. -/
def bitErrors : List Byte → List Byte → Nat
  | a :: as, b :: bs => ((List.range 8).filter (fun i => bit (a ^^^ b) i)).length + bitErrors as bs
  | _, _ => 0

/-- The register that the first pattern bits of a beat load into a checker (19 R554): its first bit is the oldest. -/
def prbsLoad (sel : Nat) (bs : List Byte) : BitVec 31 :=
  BitVec.ofNat 31 ((List.range (prbsTaps sel).1).foldl (fun v j => 2 * v + flag ((leNat (bs.take 4)).testBit j)) 0)

end Sys2Proof.Machine
end

