-- ==== Sys2Proof/Machine/Operands.lean ====
section
/-! DEFINITION. The operands of data-path descriptors: fields (03 R89 to R112), the proofing checks (03 R114, R115), the sides
of a transfer with their addresses and pieces (04 R133 to R139, 06 R204, R205), and the cut into loaves (04 R140 to R142). -/

namespace Sys2Proof.Machine

/-- The data-path opcodes (03 R94). -/
inductive OpKind where
  | copy | gather | scatter | sglist | fill | check | piInsert | piStrip | piVerify | link | fence | signal | wait | nop
  deriving DecidableEq, Repr

/-- The opcode of a code (03 R94); none where it names no data-path opcode. -/
def OpKind.ofCode (c : Nat) : Option OpKind :=
  match c with
  | 0x01 => some .copy
  | 0x02 => some .gather
  | 0x03 => some .scatter
  | 0x04 => some .sglist
  | 0x05 => some .fill
  | 0x06 => some .check
  | 0x08 => some .piInsert
  | 0x09 => some .piStrip
  | 0x0A => some .piVerify
  | 0x10 => some .link
  | 0x11 => some .fence
  | 0x12 => some .signal
  | 0x13 => some .wait
  | 0x14 => some .nop
  | _ => none

/-- Opcodes that write no destination (03 R94). -/
def OpKind.noDest : OpKind → Bool
  | .check => true | .piVerify => true | _ => false

/-- Opcodes that move or check data. -/
def OpKind.isData : OpKind → Bool
  | .link => false | .fence => false | .signal => false | .wait => false | .nop => false | _ => true

/-- The protection-information opcodes (03 R107). -/
def OpKind.isPi : OpKind → Bool
  | .piInsert => true | .piStrip => true | .piVerify => true | _ => false

/-! Envelope (03 R89, R92). -/

/-- W0.OPCODE. -/
def dOpcode (d : List W64) : Nat := bits (wd d 0) 0 8
/-- The opcode; NOP stands in where the code is undefined, which proofing has refused. -/
def dKind (d : List W64) : OpKind := (OpKind.ofCode (dOpcode d)).getD .nop
/-- ORDERED. -/
def dOrdered (d : List W64) : Bool := bit (wd d 0) 8
/-- NOTICE_NOW. -/
def dNoticeNow (d : List W64) : Bool := bit (wd d 0) 9
/-- SRC_NI. -/
def dSrcNi (d : List W64) : Bool := bit (wd d 0) 10
/-- DST_NI. -/
def dDstNi (d : List W64) : Bool := bit (wd d 0) 11
/-- CHK_SEL. -/
def dChkSel (d : List W64) : CheckCode := CheckCode.ofSel (bits (wd d 0) 12 2)
/-- CHK_APPEND. -/
def dAppend (d : List W64) : Bool := bit (wd d 0) 14
/-- FLAGS_B[16]: SRC_STRIDED, LIST_ON_DST, COMPARE or CLEAR_FLAG by opcode. -/
def dFlagB0 (d : List W64) : Bool := bit (wd d 0) 16
/-- FLAGS_B[17]: DST_STRIDED. -/
def dFlagB1 (d : List W64) : Bool := bit (wd d 0) 17
/-- CLASS. -/
def dClass (d : List W64) : Nat := bits (wd d 0) 24 2
/-- W0[26], DONE in a record. -/
def dDone (d : List W64) : Bool := bit (wd d 0) 26
/-- TAG. -/
def dTag (d : List W64) : Nat := bits (wd d 0) 32 16
/-- GEN. -/
def dGen (d : List W64) : Nat := bits (wd d 0) 56 8
/-- SEAL. -/
def dSeal (d : List W64) : Nat := bits (wd d 7) 56 8

/-! Field maps. -/

/-- Appended check bytes (04 R141, 06 R199). -/
def dAppendLen (d : List W64) : Nat := if dAppend d then (dChkSel d).size else 0
/-- ELEM of GATHER and SCATTER. -/
def dElem (d : List W64) : Nat := bits (wd d 4) 24 12 + 1
/-- COUNT of GATHER and SCATTER. -/
def dCount (d : List W64) : Nat := bits (wd d 4) 0 24 + 1
/-- Index width in bytes. -/
def dIdxWidth (d : List W64) : Nat := 2 ^ (bits (wd d 4) 36 2 + 1)
/-- SCALE. -/
def dScale (d : List W64) : Nat := bits (wd d 4) 38 4
/-- NELEM of SGLIST. -/
def dNelem (d : List W64) : Nat := bits (wd d 3) 0 24 + 1
/-- Block size of the protection-information opcodes. -/
def dBlk (d : List W64) : Nat := 512 * 2 ^ bits (wd d 3) 32 3
/-- PI_FMT. -/
def dPiFmt (d : List W64) : Bool := bit (wd d 3) 35
/-- Tuple size (00 R13). -/
def dTuple (d : List W64) : Nat := if dPiFmt d then 16 else 8
/-- PI_SEP. -/
def dPiSep (d : List W64) : Bool := bit (wd d 3) 36
/-- REF_MODE. -/
def dRefMode (d : List W64) : Nat := bits (wd d 3) 37 2
/-- REF_TAG. -/
def dRefTag (d : List W64) : Nat := bits (wd d 4) 0 48
/-- APP_TAG. -/
def dAppTag (d : List W64) : Nat := bits (wd d 4) 48 16
/-- APP_MASK. -/
def dAppMask (d : List W64) : Nat := bits (wd d 7) 0 16
/-- Protected blocks. -/
def dBlocks (d : List W64) : Nat := bits (wd d 3) 0 32 / dBlk d
/-- LEN in W3[31:0]. -/
def dLen (d : List W64) : Nat := bits (wd d 3) 0 32

/-- The transfer length (04 R133, 06 R205); 0 for the control opcodes. -/
def transferLen (d : List W64) : Nat :=
  match dKind d with
  | .copy => dLen d
  | .gather => dCount d * dElem d
  | .scatter => dCount d * dElem d
  | .sglist => (wd d 4).toNat
  | .fill => dLen d
  | .check => dLen d
  | .piInsert => dLen d + dBlocks d * dTuple d
  | .piStrip => dLen d + dBlocks d * dTuple d
  | .piVerify => dLen d + dBlocks d * dTuple d
  | _ => 0

/-- The whole walk: transfer bytes and appended check bytes (04 R141). -/
def walkLen (d : List W64) : Nat := transferLen d + dAppendLen d

/-- A side of a transfer (04 R133, 06 R204, R205). -/
inductive Side where
  | absent
  | contig (a : Nat)
  | strided (a run n1 : Nat) (st1 st2 : Int)
  | indexed (base scale elem : Nat)
  | listed
  /-- Data blocks one after another; tuple positions of the walk have no address. -/
  | blocks (a blk t : Nat)
  /-- Data blocks one after another at a, tuples one after another at pa. -/
  | separate (a pa blk t : Nat)
  deriving DecidableEq, Repr

/-- The source side of COPY or its destination (03 R96). -/
def copySide (d : List W64) (dst : Bool) : Side :=
  if dst then
    if dFlagB1 d then .strided (wd d 2).toNat (bits (wd d 7) 24 24) (bits (wd d 5) 48 16 + 1)
      (signedOf 32 (bits (wd d 4) 32 32)) (signedOf 32 (bits (wd d 5) 0 32))
    else .contig (wd d 2).toNat
  else
    if dFlagB0 d then .strided (wd d 1).toNat (bits (wd d 7) 0 24) (bits (wd d 5) 32 16 + 1)
      (signedOf 32 (bits (wd d 3) 32 32)) (signedOf 32 (bits (wd d 4) 0 32))
    else .contig (wd d 1).toNat

/-- Where data with tuples lies (06 R204). -/
def piSide (d : List W64) (a : Nat) : Side :=
  if dPiSep d then .separate a (wd d 5).toNat (dBlk d) (dTuple d) else .contig a

/-- The source side. -/
def srcSide (d : List W64) : Side :=
  match dKind d with
  | .copy => copySide d false
  | .gather => .indexed (wd d 1).toNat (dScale d) (dElem d)
  | .scatter => .contig (wd d 1).toNat
  | .sglist => if dFlagB0 d then .contig (wd d 2).toNat else .listed
  | .check => .contig (wd d 1).toNat
  | .piInsert => .blocks (wd d 1).toNat (dBlk d) (dTuple d)
  | .piStrip => piSide d (wd d 1).toNat
  | .piVerify => piSide d (wd d 1).toNat
  | _ => .absent

/-- The destination side. -/
def dstSide (d : List W64) : Side :=
  match dKind d with
  | .copy => copySide d true
  | .gather => .contig (wd d 2).toNat
  | .scatter => .indexed (wd d 2).toNat (dScale d) (dElem d)
  | .sglist => if dFlagB0 d then .listed else .contig (wd d 2).toNat
  | .fill => .contig (wd d 1).toNat
  | .piInsert => piSide d (wd d 2).toNat
  | .piStrip => .blocks (wd d 2).toNat (dBlk d) (dTuple d)
  | _ => .absent

/-- The side whose bytes R140 cuts: the destination, or the source where there is none (R142). -/
def cutSide (d : List W64) : Side := if (dKind d).noDest then srcSide d else dstSide d

/-- The table of index or list entries read so far: number, value (index or address), length. -/
abbrev Entries := List (Nat × Nat × Nat)

/-- The entry of a number. -/
def entryOf (es : Entries) (k : Nat) : Option (Nat × Nat) := (es.find? (fun e => e.1 == k)).map (·.2)

/-- S_k of 04 R134 and the entry that holds walk byte b: number, address, length, S_k; none where it has not been read.
`f` bounds the search. -/
def listedAt (es : Entries) : Nat → Nat → Nat → Nat → Option (Nat × Nat × Nat × Nat)
  | 0, _, _, _ => none
  | f + 1, k, s, b =>
    match entryOf es k with
    | none => none
    | some (a, l) => if b < s + l then some (k, a, l, s) else listedAt es f (k + 1) (s + l) b

/-- The address of walk byte b on a side (04 R134); none where the side has none there or the entry is not read. -/
def Side.addr (sd : Side) (es : Entries) (b : Nat) : Option Nat :=
  match sd with
  | .absent => none
  | .contig a => some (a + b)
  | .strided a run n1 st1 st2 =>
    let r := b / run
    some (Int.toNat (a + (r / n1 : Nat) * st2 + (r % n1 : Nat) * st1 + (b % run : Nat)))
  | .indexed base scale elem => (entryOf es (b / elem)).map (fun e => base + e.1 * 2 ^ scale + b % elem)
  | .listed => (listedAt es (es.length + 1) 0 0 b).map (fun e => e.2.1 + (b - e.2.2.2))
  | .blocks a blk t => if b % (blk + t) < blk then some (a + b / (blk + t) * blk + b % (blk + t)) else none
  | .separate a pa blk t =>
    if b % (blk + t) < blk then some (a + b / (blk + t) * blk + b % (blk + t))
    else some (pa + b / (blk + t) * t + (b % (blk + t) - blk))

/-- A side that has an address for a walk byte once its entry is read. -/
def Side.has (sd : Side) (b : Nat) : Bool :=
  match sd with
  | .absent => false
  | .blocks _ blk t => decide (b % (blk + t) < blk)
  | _ => true

/-- The walk position after the piece that holds b (04 R136, R138). `len` is the length of the walk on the side. -/
def Side.pieceEnd (sd : Side) (es : Entries) (len b : Nat) : Nat :=
  match sd with
  | .strided _ run n1 st1 st2 =>
    let unit := decide (n1 = 1) || decide (st1 = (run : Int))
    if unit && decide (st2 = ((run * n1 : Nat) : Int)) then len
    else if unit then min len ((b / (run * n1) + 1) * (run * n1))
    else min len ((b / run + 1) * run)
  | .indexed _ _ elem => min len ((b / elem + 1) * elem)
  | .listed =>
    match listedAt es (es.length + 1) 0 0 b with
    | some (_, _, l, s) => min len (s + l)
    | none => b
  | .separate _ _ blk t =>
    if b % (blk + t) < blk then min len (b / (blk + t) * (blk + t) + blk) else min len ((b / (blk + t) + 1) * (blk + t))
  | _ => len

/-- The first walk position from b on that holds a data byte of a side of data blocks (06 R205). -/
def blocksSkip (blk t b : Nat) : Nat := if b % (blk + t) < blk then b else (b / (blk + t) + 1) * (blk + t)

/-- Spans of one request over data blocks that lie one after another, up to the address `lim` (06 R205: a contiguous
side, whose tuple positions have no address and are passed over). `f` bounds the number of spans. -/
def blocksSpans (a blk t stop lim : Nat) : Nat → Nat → List (Nat × Nat × Nat)
  | 0, _ => []
  | f + 1, b0 =>
    let b := blocksSkip blk t b0
    let adr := a + b / (blk + t) * blk + b % (blk + t)
    let n := min (min stop (b / (blk + t) * (blk + t) + blk) - b) (lim - adr)
    if n = 0 then [] else (b, adr, n) :: blocksSpans a blk t stop lim f (b + n)

/-- The next request of Prism on a side inside [b, stop) (05 R162): its spans (walk position, address, bytes) and the walk
position after it. It ends at the end of the piece, at the end of the loaf (`stop`), or before an address that is a
multiple of 256. No span: nothing is left to request before `stop`. None: an entry it needs has not been read. -/
def nextRequest (sd : Side) (es : Entries) (len b stop : Nat) : Option (List (Nat × Nat × Nat) × Nat) :=
  match sd with
  | .absent => some ([], stop)
  | .blocks a blk t =>
    let b1 := blocksSkip blk t b
    let sp := blocksSpans a blk t stop (((a + b1 / (blk + t) * blk + b1 % (blk + t)) / 256 + 1) * 256) 4 b1
    match sp.getLast? with
    | none => some ([], stop)
    | some l => some (sp, l.1 + l.2.2)
  | _ =>
    if stop ≤ b then some ([], stop)
    else
      match sd.addr es b with
      | none => none
      | some a =>
        let n := min (min stop (sd.pieceEnd es len b) - b) (256 - a % 256)
        some ([(b, a, n)], b + n)

/-- Where the loaf that begins at the first cut byte of [b, …) ends (04 R140): walk from b with `cnt` cut bytes taken and
`prev` the address of the last one. Answers the end and whether it is decided; an unread entry leaves it open. -/
def loafScan (sd : Side) (es : Entries) (len : Nat) : Nat → Nat → Nat → Option Nat → Nat × Bool
  | 0, b, _, _ => (b, true)
  | f + 1, b, cnt, prev =>
    if len ≤ b then (len, true)
    else if sd.has b then
      match sd.addr es b with
      | none => (b, false)
      | some a =>
        if decide (4096 ≤ cnt) || (decide (a % 4096 = 0) && decide (prev = some (a - 1)) && decide (0 < a)) then (b, true)
        else loafScan sd es len f (b + 1) (cnt + 1) (some a)
    else loafScan sd es len f (b + 1) cnt prev

/-- Fuel of `loafScan`: 4,096 cut bytes and the tuple bytes among and after them. -/
def loafFuel : Nat := 4400

/-- The end of the loaf from b on, where `cnt` bytes and the last address are already in it (04 R140). On a contiguous
side it lies at the next 4 KiB boundary. -/
def loafEnd (sd : Side) (es : Entries) (len b cnt : Nat) (prev : Option Nat) : Nat × Bool :=
  match sd with
  | .contig a => (min len (b + (4096 - (a + b) % 4096)), true)
  | _ => loafScan sd es len loafFuel b cnt prev

/-! Proofing (03 R114). -/

/-- Bits of W1 to W5 and W7[47:0] that the opcode's field map uses; every other bit of them is reserved (03 R91). -/
def usedBits (k : OpKind) : List Nat :=
  let a := 2 ^ 64 - 1
  match k with
  | .copy => [a, a, a, a, a, 2 ^ 48 - 1]
  | .gather => [a, a, a, 2 ^ 42 - 1, a, 0]
  | .scatter => [a, a, a, 2 ^ 42 - 1, a, 0]
  | .sglist => [a, a, 2 ^ 24 - 1, a, 0, 0]
  | .fill => [a, a, 2 ^ 32 - 1, 0, 0, 0]
  | .check => [a, a, 2 ^ 32 - 1, 0, 0, 0]
  | .piInsert => [a, a, 2 ^ 39 - 1, a, a, 2 ^ 16 - 1]
  | .piStrip => [a, a, 2 ^ 39 - 1, a, a, 2 ^ 16 - 1]
  | .piVerify => [a, a, 2 ^ 39 - 1, a, a, 2 ^ 16 - 1]
  | .link => [a, 0xF, 0, 0, 0, 0]
  | .fence => [0, 0, 0, 0, 0, 0]
  | .signal => [0xF, 0, 0, 0, 0, 0]
  | .wait => [0x3F, 2 ^ 22 - 1, 0, 0, 0, 0]
  | .nop => [0, 0, 0, 0, 0, 0]

/-- Bits of FLAGS_B the opcode uses; the others are reserved. -/
def usedFlagsB (k : OpKind) : Nat :=
  match k with
  | .copy => 3 | .sglist => 1 | .check => 1 | .wait => 1 | _ => 0

/-- Step 5: a reserved bit of W0, W1 to W5 or W7[55:0] is set (03 R91). W0[15], W0[31:26], W0[55:48] and W7[55:48] are
reserved in every descriptor. -/
def rsvdSet (k : OpKind) (d : List W64) : Bool :=
  bit (wd d 0) 15 || decide (bits (wd d 0) 26 6 ≠ 0) || decide (bits (wd d 0) 48 8 ≠ 0) ||
  decide (bits (wd d 0) 16 8 &&& usedFlagsB k ≠ bits (wd d 0) 16 8) ||
  ((usedBits k).zip [1, 2, 3, 4, 5, 7]).any
    (fun p => let v := bits (wd d p.2) 0 (if p.2 = 7 then 56 else 64); decide (v &&& p.1 ≠ v))

/-- Step 6: FLAGS_A (03 R95), bit 0 being ORDERED; CHK_APPEND with CHK_SEL = 0 is an error as well. -/
def flagsAllowed (k : OpKind) (d : List W64) : Nat :=
  match k with
  | .copy => if dFlagB1 d then 0x3F else 0x7F
  | .gather => 0x7B
  | .scatter => 0x37
  | .sglist => if dFlagB0 d then 0x37 else 0x7B
  | .fill => 0x7B
  | .check => 0x37
  | .piInsert => 0x0F
  | .piStrip => 0x0F
  | .piVerify => 0x07
  | _ => 0x02

/-- Step 6. -/
def flagsBad (k : OpKind) (d : List W64) : Bool :=
  let v := bits (wd d 0) 8 7
  decide (v &&& flagsAllowed k d ≠ v) || (bit (wd d 0) 14 && decide (bits (wd d 0) 12 2 = 0)) ||
  (decide (k = .check) && decide (bits (wd d 0) 12 2 = 0))

/-- Step 7: fields outside their ranges (03 R96 to R112). -/
def fieldBad (k : OpKind) (d : List W64) : Bool :=
  match k with
  | .copy =>
    decide (dLen d = 0) ||
    (if dFlagB0 d then decide (bits (wd d 7) 0 24 = 0)
     else decide (bits (wd d 3) 32 32 ≠ 0) || decide (bits (wd d 4) 0 32 ≠ 0) || decide (bits (wd d 5) 32 16 ≠ 0) ||
       decide (bits (wd d 7) 0 24 ≠ 0)) ||
    (if dFlagB1 d then decide (bits (wd d 7) 24 24 = 0)
     else decide (bits (wd d 4) 32 32 ≠ 0) || decide (bits (wd d 5) 0 32 ≠ 0) || decide (bits (wd d 5) 48 16 ≠ 0) ||
       decide (bits (wd d 7) 24 24 ≠ 0))
  | .gather => decide (bits (wd d 4) 36 2 = 3) || decide (12 < dScale d) || decide (wd d 5 = 0)
  | .scatter => decide (bits (wd d 4) 36 2 = 3) || decide (12 < dScale d) || decide (wd d 5 = 0)
  | .sglist => decide (wd d 4 = 0)
  | .fill => decide (dLen d = 0)
  | .check => decide (dLen d = 0) || (!dFlagB0 d && decide (wd d 2 ≠ 0))
  | .wait => decide (bits (wd d 2) 0 22 = 0) || decide (4000000 < bits (wd d 2) 0 22)
  | .link => false
  | .fence => false
  | .signal => false
  | .nop => false
  | _ =>
    decide (dLen d = 0) || decide (4 < bits (wd d 3) 32 3) || decide (dRefMode d = 3) ||
    (!dPiFmt d && decide (bits (wd d 4) 32 16 ≠ 0)) || (!dPiSep d && decide (wd d 5 ≠ 0)) ||
    (decide (k = .piVerify) && decide (wd d 2 ≠ 0)) || (decide (k = .piInsert) && decide (dAppMask d ≠ 0))

/-- Step 8: alignment. -/
def alignBad (k : OpKind) (d : List W64) : Bool :=
  match k with
  | .gather => decide ((wd d 3).toNat % dIdxWidth d ≠ 0)
  | .scatter => decide ((wd d 3).toNat % dIdxWidth d ≠ 0)
  | .sglist => decide ((wd d 1).toNat % 16 ≠ 0)
  | .link => decide ((wd d 1).toNat % 64 ≠ 0)
  | .copy => false
  | .fill => false
  | .check => false
  | .fence => false
  | .signal => false
  | .wait => false
  | .nop => false
  | _ => dPiSep d && decide ((wd d 5).toNat % dTuple d ≠ 0)

/-- A strided side's shape (03 R97): LEN a multiple of RUN, and ST2 zero when LEN ≤ RUN × N1. -/
def stridedShapeBad (len run n1 : Nat) (st2 : Int) : Bool :=
  decide (len % run ≠ 0) || (decide (len ≤ run * n1) && decide (st2 ≠ 0))

/-- Step 9: shape. -/
def shapeBad (k : OpKind) (d : List W64) : Bool :=
  match k with
  | .copy =>
    (dFlagB0 d && stridedShapeBad (dLen d) (bits (wd d 7) 0 24) (bits (wd d 5) 32 16 + 1)
      (signedOf 32 (bits (wd d 4) 0 32))) ||
    (dFlagB1 d && stridedShapeBad (dLen d) (bits (wd d 7) 24 24) (bits (wd d 5) 48 16 + 1)
      (signedOf 32 (bits (wd d 5) 0 32)))
  | .piInsert => decide (dLen d % dBlk d ≠ 0)
  | .piStrip => decide (dLen d % dBlk d ≠ 0)
  | .piVerify => decide (dLen d % dBlk d ≠ 0)
  | _ => false

/-- The extreme addresses of a strided side: the procedure strided_extent of chapter 04. -/
def stridedExtent (a len run n1 : Nat) (st1 st2 : Int) : Int × Int :=
  let perRow := run * n1
  let rows := (len + perRow - 1) / perRow
  let last := (len - (rows - 1) * perRow) / run
  let corners : List (Nat × Nat) :=
    [(rows - 1, 0), (rows - 1, last - 1)] ++
      (if 2 ≤ rows then [(0, 0), (0, n1 - 1), (rows - 2, 0), (rows - 2, n1 - 1)] else [])
  let base := fun (c : Nat × Nat) => (a : Int) + (c.1 : Int) * st2 + (c.2 : Int) * st1
  match corners with
  | [] => (a, a)
  | c :: cs =>
    (cs.foldl (fun m c => min m (base c)) (base c),
     cs.foldl (fun m c => max m (base c + run - 1)) (base c + run - 1))

/-- The extent of one side (03 R115). `len` is the side's length with appended bytes. -/
def Side.extent (sd : Side) (len : Nat) : Int × Int :=
  match sd with
  | .contig a => (a, a + len - 1)
  | .strided a run n1 st1 st2 => stridedExtent a len run n1 st1 st2
  | .blocks a blk t => (a, a + len / (blk + t) * blk - 1)
  | .separate a pa blk t => (min a pa, max (a + len / (blk + t) * blk - 1) (pa + len / (blk + t) * t - 1))
  | _ => (0, 0)

/-- The extent lies inside the address space. -/
def inSpace (e : Int × Int) : Bool := decide (0 ≤ e.1) && decide (e.2 < 2 ^ 64)

/-- The extent of an indexed side (03 R115). -/
def indexedTop (d : List W64) (base : W64) : Nat :=
  base.toNat + ((wd d 5).toNat - 1) * 2 ^ dScale d + dElem d - 1

/-- Step 10: bounds (03 R115). -/
def boundsBad (k : OpKind) (d : List W64) : Bool :=
  match k with
  | .gather =>
    decide (2 ^ 64 ≤ indexedTop d (wd d 1)) || decide (2 ^ 64 < (wd d 3).toNat + dCount d * dIdxWidth d) ||
    decide (2 ^ 64 < (wd d 2).toNat + walkLen d)
  | .scatter =>
    decide (2 ^ 64 ≤ indexedTop d (wd d 2)) || decide (2 ^ 64 < (wd d 3).toNat + dCount d * dIdxWidth d) ||
    decide (2 ^ 64 < (wd d 1).toNat + transferLen d)
  | .sglist =>
    decide (2 ^ 64 < (wd d 1).toNat + 16 * dNelem d) || decide (2 ^ 64 < (wd d 2).toNat + walkLen d)
  | .link => decide (2 ^ 64 < (wd d 1).toNat + 64 * (bits (wd d 2) 0 4 + 2))
  | .fence => false
  | .signal => false
  | .wait => false
  | .nop => false
  | _ =>
    (decide (srcSide d ≠ .absent) && !inSpace ((srcSide d).extent (transferLen d))) ||
    (decide (dstSide d ≠ .absent) && !inSpace ((dstSide d).extent (walkLen d)))

/-- The codes that name an admin command (09 R292). -/
def adminOpcodes : List Nat :=
  [0x80, 0x81, 0x82, 0x83, 0x84, 0x85, 0x88, 0x89, 0x8A, 0x8B, 0x90, 0x91, 0x98, 0x99, 0x9A, 0xA0, 0xA8, 0xB0, 0xB1,
   0xB8, 0xB9]

/-- The cause code of the first proofing check of R114 (rows 2 to 11) that fails; 0 where all pass. `inChain`: the
descriptor lies in a chain. `segBad`: it is the first of a linked segment whose extent passes 2^64 − 1 (R115).
`ownsSig`, `ownsFlag`: whether the instance owns the SIGNAL source or the WAIT flag (row 11). -/
def proofCause (d : List W64) (inChain segBad : Bool) (ownsSig ownsFlag : Nat → Bool) : Nat :=
  let c := dOpcode d
  match OpKind.ofCode c with
  | none => if adminOpcodes.contains c then 0x11 else 0x10
  | some k =>
    if inChain && decide (k = .link) then 0x12
    else if rsvdSet k d then 0x13
    else if flagsBad k d then 0x14
    else if fieldBad k d then 0x15
    else if alignBad k d then 0x16
    else if shapeBad k d then 0x17
    else if segBad || boundsBad k d then 0x18
    else if (decide (k = .signal) && !ownsSig (bits (wd d 1) 0 4)) || (decide (k = .wait) && !ownsFlag (bits (wd d 1) 0 6)) then 0x19
    else 0

/-- The effective class: the larger of CLASS and the instance's class cap (03 R93). -/
def effClass (d : List W64) (cap : Nat) : BitVec 2 := BitVec.ofNat 2 (max (dClass d) cap)

/-! The completion record (03 R117). -/

/-- The eight words of a completion record. -/
def recordWords (opcode status detail cls : Nat) (replays : Nat) (tailClosed : Bool) (tag gen : Nat) (w1 w2 : W64)
    (fetchTs doneTs : BitVec 48) (loaves : Nat) (w5 w6 : W64) : List W64 :=
  [ pack [(0, 8, opcode), (8, 8, status), (16, 8, detail), (24, 2, cls), (26, 1, 1), (27, 1, flag (decide (replays ≠ 0))),
      (28, 1, flag tailClosed), (32, 16, tag), (56, 8, gen)],
    w1, w2,
    pack [(0, 48, fetchTs.toNat), (48, 16, min loaves 0xFFFF)],
    pack [(0, 48, doneTs.toNat), (48, 16, min replays 0xFFFF)],
    w5, w6,
    pack [(48, 1, 1), (56, 8, gen)] ]

end Sys2Proof.Machine
end

