-- ==== Sys2Proof/Machine/Regs.lean ====
section
/-! DEFINITION. The register map (17 R498 to R501): one constant for each direct register, with its offset, its count, the
distance between its instances, its value at reset, and the bits of each class (16 R481) as the chapter that holds
the register gives them; then the one list of them all. -/

namespace Sys2Proof.Machine

/-- A direct register, or an array of them. A cluster register's offset is the one within the image of C0. The
masks are those of the fields of class P, M, S, L and X; `refused` marks the fields that are Refused in RUN;
`frozen` the registers of 16 R492. A bit in no mask is class C or reserved. -/
structure Reg where
  base    : Nat
  count   : Nat
  stride  : Nat
  reset   : Nat
  pBits   : Nat
  mBits   : Nat
  sBits   : Nat
  lBits   : Nat
  xBits   : Nat
  refused : Nat
  frozen  : Bool
  deriving DecidableEq, Repr

/-- A cluster register is repeated in the image of each of the sixteen clusters (17 R498). -/
def Reg.clustered (r : Reg) : Bool := decide (0x8000 ≤ r.base)

/-- The canonical offset of instance i of a register of the shared pages. -/
def Reg.at (r : Reg) (i : Nat) : Nat := r.base + r.stride * i

/-- The canonical offset of a cluster's register (17 R498). -/
def Reg.ofClu (r : Reg) (n : Nat) : Nat := r.base + 0x1000 * (n / 2) + 0x400 * (n % 2)

/-- SCH_POLL_CTL (02). -/
def Reg.schPollCtl : Reg :=
  ⟨0x3040, 1, 4, 0x1007d0, 0x1ffffff, 0, 0, 0, 0, 0, false⟩
/-- SCH_PARK_CEIL (02). -/
def Reg.schParkCeil : Reg :=
  ⟨0x3044, 1, 4, 0x3e8, 0xffffffff, 0, 0, 0, 0, 0, false⟩
/-- CLUn_LENS_CTL (04). -/
def Reg.cluLensCtl : Reg :=
  ⟨0x80c0, 1, 4, 0x104000, 0xffffff, 0, 0, 0, 0, 0, false⟩
/-- CLUn_LENS_ELEMS (04). -/
def Reg.cluLensElems : Reg :=
  ⟨0x80c4, 1, 4, 0, 0, 0, 0, 0, 0, 0, false⟩
/-- CLUn_LENS_REQS (04). -/
def Reg.cluLensReqs : Reg :=
  ⟨0x80c8, 1, 4, 0, 0, 0, 0, 0, 0, 0, false⟩
/-- CLUn_ROB_CTL (05). -/
def Reg.cluRobCtl : Reg :=
  ⟨0x80d0, 1, 4, 0x100, 0x7ff, 0, 0, 0, 0, 0, false⟩
/-- CLUn_TAG_CTL (05). -/
def Reg.cluTagCtl : Reg :=
  ⟨0x80d4, 1, 4, 0x2010100, 0xfffffff, 0, 0, 0, 0, 0, false⟩
/-- CLUn_ROB_STAT (05). -/
def Reg.cluRobStat : Reg :=
  ⟨0x80d8, 1, 4, 0, 0, 0, 0, 0, 0, 0, false⟩
/-- CLUn_PREEMPTS (05). -/
def Reg.cluPreempts : Reg :=
  ⟨0x80dc, 1, 4, 0, 0, 0, 0, 0, 0, 0, false⟩
/-- CLUn_ECC_STAT (06). -/
def Reg.cluEccStat : Reg :=
  ⟨0x80e0, 1, 4, 0, 0, 0, 0, 0, 0, 0, false⟩
/-- CLUn_ECC_INJ (06). -/
def Reg.cluEccInj : Reg :=
  ⟨0x80e4, 1, 4, 0, 0, 0x3ff, 0, 0, 0, 0, false⟩
/-- SCH_DRR_CTL (07). -/
def Reg.schDrrCtl : Reg :=
  ⟨0x3048, 1, 4, 0x10, 0xfff, 0, 0, 0, 0, 0, false⟩
/-- SCH_BIND_CEIL (07). -/
def Reg.schBindCeil : Reg :=
  ⟨0x304c, 1, 4, 0x64, 0x1ffff, 0, 0, 0, 0, 0, false⟩
/-- SCH_SHARE_CTL (07). -/
def Reg.schShareCtl : Reg :=
  ⟨0x3050, 1, 4, 0x1014, 0xffffff, 0, 0, 0, 0, 0, false⟩
/-- SCH_PROMOTIONS (07). -/
def Reg.schPromotions : Reg :=
  ⟨0x3054, 1, 4, 0, 0, 0, 0, 0, 0, 0, false⟩
/-- SCH_ARB_CTL (07). -/
def Reg.schArbCtl : Reg :=
  ⟨0x3100, 34, 4, 0x10010040, 0xffffffff, 0, 0, 0, 0, 0, false⟩
/-- SCH_ARB_STAT (07). -/
def Reg.schArbStat : Reg :=
  ⟨0x3280, 34, 4, 0, 0, 0, 0, 0, 0, 0, false⟩
/-- SCH_PORT_PRIO (07). -/
def Reg.schPortPrio : Reg :=
  ⟨0x3200, 16, 4, 0x6dda4, 0x1fffff, 0, 0, 0, 0, 0, false⟩
/-- SCH_CTXB_PRIO (07). -/
def Reg.schCtxbPrio : Reg :=
  ⟨0x3240, 1, 4, 0x759ac, 0x1fffff, 0, 0, 0, 0, 0, false⟩
/-- CLUn_DPA_CTL (07). -/
def Reg.cluDpaCtl : Reg :=
  ⟨0x80f0, 1, 4, 0x10010040, 0xffffffff, 0, 0, 0, 0, 0, false⟩
/-- CLUn_DPA_STAT (07). -/
def Reg.cluDpaStat : Reg :=
  ⟨0x80f4, 1, 4, 0, 0, 0, 0, 0, 0, 0, false⟩
/-- CLUn_REPLAY_CTL (08). -/
def Reg.cluReplayCtl : Reg :=
  ⟨0x8100, 1, 4, 0x2000a10, 0xfffffff, 0, 0, 0, 0, 0, false⟩
/-- CLUn_REPLAY_STAT (08). -/
def Reg.cluReplayStat : Reg :=
  ⟨0x8104, 1, 4, 0, 0, 0, 0, 0, 0, 0, false⟩
/-- CLUn_RETIRED (08). -/
def Reg.cluRetired : Reg :=
  ⟨0x8108, 1, 4, 0, 0, 0, 0, 0, 0, 0, false⟩
/-- CLUn_MIRROR_STAT (08). -/
def Reg.cluMirrorStat : Reg :=
  ⟨0x810c, 1, 4, 0, 0, 0, 0, 0, 0, 0, false⟩
/-- ADM_Q_BASE_LO (09). -/
def Reg.admQBaseLo : Reg :=
  ⟨0x5000, 1, 4, 0, 0xffffffc0, 0, 0, 0, 0, 0xffffffc0, false⟩
/-- ADM_Q_BASE_HI (09). -/
def Reg.admQBaseHi : Reg :=
  ⟨0x5004, 1, 4, 0, 0xffffffff, 0, 0, 0, 0, 0xffffffff, false⟩
/-- ADM_Q_CTL (09). -/
def Reg.admQCtl : Reg :=
  ⟨0x5008, 1, 4, 0, 0, 0x1fff, 0, 0, 0, 0x1fef, false⟩
/-- ADM_DB_ADDR_LO (09). -/
def Reg.admDbAddrLo : Reg :=
  ⟨0x500c, 1, 4, 0, 0xfffffff8, 0, 0, 0, 0, 0xfffffff8, false⟩
/-- ADM_DB_ADDR_HI (09). -/
def Reg.admDbAddrHi : Reg :=
  ⟨0x5010, 1, 4, 0, 0xffffffff, 0, 0, 0, 0, 0xffffffff, false⟩
/-- ADM_NOTICE_LO (09). -/
def Reg.admNoticeLo : Reg :=
  ⟨0x5014, 1, 4, 0, 0xfffffff8, 0, 0, 0, 0, 0, false⟩
/-- ADM_NOTICE_HI (09). -/
def Reg.admNoticeHi : Reg :=
  ⟨0x5018, 1, 4, 0, 0xffffffff, 0, 0, 0, 0, 0, false⟩
/-- ADM_POLL (09). -/
def Reg.admPoll : Reg :=
  ⟨0x501c, 1, 4, 0x14, 0x1fffff, 0, 0, 0, 0, 0, false⟩
/-- ADM_CEIL (09). -/
def Reg.admCeil : Reg :=
  ⟨0x5020, 1, 4, 0xc8032, 0x3fffffff, 0, 0, 0, 0, 0, false⟩
/-- ADM_Q_STAT (09). -/
def Reg.admQStat : Reg :=
  ⟨0x5024, 1, 4, 0, 0, 0, 0, 0, 0, 0, false⟩
/-- ADM_LAST_DONE (09). -/
def Reg.admLastDone : Reg :=
  ⟨0x5028, 1, 4, 0, 0, 0, 0, 0, 0, 0, false⟩
/-- ADM_STAGE_STAT (09). -/
def Reg.admStageStat : Reg :=
  ⟨0x502c, 1, 4, 0, 0, 0, 0, 0, 0, 0, false⟩
/-- ADM_COMMITS (09). -/
def Reg.admCommits : Reg :=
  ⟨0x5030, 1, 4, 0, 0, 0, 0, 0, 0, 0, false⟩
/-- ADM_ERR_INDEX (09). -/
def Reg.admErrIndex : Reg :=
  ⟨0x5034, 1, 4, 0, 0, 0, 0, 0, 0, 0, false⟩
/-- INS_QUIESCE_CEIL (10). -/
def Reg.insQuiesceCeil : Reg :=
  ⟨0x4080, 1, 4, 0x3e8, 0xfffff, 0, 0, 0, 0, 0, false⟩
/-- INS_STAT (10). -/
def Reg.insStat : Reg :=
  ⟨0x4084, 1, 4, 1, 0, 0, 0, 0, 0, 0, false⟩
/-- INS_DLOG_STAT (10). -/
def Reg.insDlogStat : Reg :=
  ⟨0x4088, 1, 4, 0, 0, 0, 0, 0, 0, 0, false⟩
/-- ERR_LOG_BASE_LO (11). -/
def Reg.errLogBaseLo : Reg :=
  ⟨0x5100, 1, 4, 0, 0xfffff000, 0, 0, 0, 0, 0xfffff000, false⟩
/-- ERR_LOG_BASE_HI (11). -/
def Reg.errLogBaseHi : Reg :=
  ⟨0x5104, 1, 4, 0, 0xffffffff, 0, 0, 0, 0, 0xffffffff, false⟩
/-- ERR_LOG_CTL (11). -/
def Reg.errLogCtl : Reg :=
  ⟨0x5108, 1, 4, 0, 0, 0x1f, 0, 0, 0, 0x1e, false⟩
/-- ERR_LOG_CONS (11). -/
def Reg.errLogCons : Reg :=
  ⟨0x510c, 1, 4, 1, 0xffffffff, 0, 0, 0, 0, 0, false⟩
/-- ERR_LOG_STAT (11). -/
def Reg.errLogStat : Reg :=
  ⟨0x5110, 1, 4, 0, 0, 0, 0xff000007, 0, 0, 0, false⟩
/-- ERR_LOST_SEQ (11). -/
def Reg.errLostSeq : Reg :=
  ⟨0x5114, 1, 4, 0, 0, 0, 0, 0, 0, 0, false⟩
/-- ERR_NEXT_SEQ (11). -/
def Reg.errNextSeq : Reg :=
  ⟨0x5118, 1, 4, 1, 0, 0, 0, 0, 0, 0, false⟩
/-- ERR_FATAL (11). -/
def Reg.errFatal : Reg :=
  ⟨0x511c, 1, 4, 0, 0, 0, 0xff03ffff, 0, 0, 0, false⟩
/-- SCH_POLL_CEIL (11). -/
def Reg.schPollCeil : Reg :=
  ⟨0x3058, 1, 4, 0x32, 0x3fff, 0, 0, 0, 0, 0, false⟩
/-- CTX_FETCH_CEIL (11). -/
def Reg.ctxFetchCeil : Reg :=
  ⟨0x4040, 1, 4, 0x14, 0x3fff, 0, 0, 0, 0, 0, false⟩
/-- CLUn_RD_CEIL (11). -/
def Reg.cluRdCeil : Reg :=
  ⟨0x8110, 1, 4, 0x32, 0x1ffff, 0, 0, 0, 0, 0, false⟩
/-- CLUn_WR_CEIL (11). -/
def Reg.cluWrCeil : Reg :=
  ⟨0x8114, 1, 4, 0x32, 0x1ffff, 0, 0, 0, 0, 0, false⟩
/-- CLUn_BEAT_CEIL (11). -/
def Reg.cluBeatCeil : Reg :=
  ⟨0x8118, 1, 4, 8, 0xff, 0, 0, 0, 0, 0, false⟩
/-- EVM_LINE_CTL (12). -/
def Reg.evmLineCtl : Reg :=
  ⟨0x6000, 128, 4, 0, 0xffffffff, 0, 0, 0, 0, 0, false⟩
/-- EVM_KICK_MAP (12). -/
def Reg.evmKickMap : Reg :=
  ⟨0x6200, 64, 4, 0, 0xffffffff, 0, 0, 0, 0, 0, false⟩
/-- EVM_SET_OWNER (12). -/
def Reg.evmSetOwner : Reg :=
  ⟨0x6300, 8, 4, 0, 0x1fff1fff, 0, 0, 0, 0, 0, false⟩
/-- EVM_LINE_STAT (12). -/
def Reg.evmLineStat : Reg :=
  ⟨0x6320, 32, 4, 0, 0, 0, 0xff0000ff, 0, 0, 0, false⟩
/-- EVM_WFLAG (12). -/
def Reg.evmWflag : Reg :=
  ⟨0x63a0, 4, 4, 0, 0, 0xffff, 0, 0, 0, 0, false⟩
/-- EVM_STUCK_VAL (12). -/
def Reg.evmStuckVal : Reg :=
  ⟨0x63b0, 4, 4, 0x3e8, 0x3fffff, 0, 0, 0, 0, 0, false⟩
/-- EVM_CTL (12). -/
def Reg.evmCtl : Reg :=
  ⟨0x63c0, 1, 4, 0x10, 0x3ff, 0, 0, 0, 0, 0, false⟩
/-- EVM_STAT (12). -/
def Reg.evmStat : Reg :=
  ⟨0x63c4, 1, 4, 0, 0, 0, 0xff000001, 0, 0, 0, false⟩
/-- TEL_TB_LO (13). -/
def Reg.telTbLo : Reg :=
  ⟨0x63c8, 1, 4, 0, 0, 0, 0, 0, 0, 0, false⟩
/-- TEL_TB_HI (13). -/
def Reg.telTbHi : Reg :=
  ⟨0x63cc, 1, 4, 0, 0, 0, 0, 0, 0, 0, false⟩
/-- TEL_TB_RATE (13). -/
def Reg.telTbRate : Reg :=
  ⟨0x63d0, 1, 4, 0, 0xffffffff, 0, 0, 0, 0, 0, false⟩
/-- TEL_TB_ADJ (13). -/
def Reg.telTbAdj : Reg :=
  ⟨0x63d4, 1, 4, 0, 0xffffffff, 0, 0, 0, 0, 0, false⟩
/-- TEL_OCC_CTL (13). -/
def Reg.telOccCtl : Reg :=
  ⟨0x63d8, 1, 4, 0xa, 0x1fffff, 0, 0, 0, 0, 0, false⟩
/-- TEL_STAT (13). -/
def Reg.telStat : Reg :=
  ⟨0x63dc, 1, 4, 0, 0, 0, 0, 0, 0, 0, false⟩
/-- TEL_TRACE_CONS (13). -/
def Reg.telTraceCons : Reg :=
  ⟨0x63e0, 8, 4, 0, 0xffffffff, 0, 0, 0, 0, 0, false⟩
/-- FED_ID (14). -/
def Reg.fedId : Reg :=
  ⟨0x7000, 1, 4, 0, 0xffff, 0, 0, 0, 0, 0xffff, true⟩
/-- FED_CTL (14). -/
def Reg.fedCtl : Reg :=
  ⟨0x7004, 1, 4, 0xc819014, 0xffffffff, 0, 0, 0, 0, 0, false⟩
/-- FED_HB_CEIL (14). -/
def Reg.fedHbCeil : Reg :=
  ⟨0x7008, 1, 4, 0x2710, 0xfffff, 0, 0, 0, 0, 0, false⟩
/-- FED_AREA_LO (14). -/
def Reg.fedAreaLo : Reg :=
  ⟨0x700c, 1, 4, 0, 0xfffff000, 0, 0, 0, 0, 0xfffff000, true⟩
/-- FED_AREA_HI (14). -/
def Reg.fedAreaHi : Reg :=
  ⟨0x7010, 1, 4, 0, 0xffffffff, 0, 0, 0, 0, 0xffffffff, true⟩
/-- FED_RESYNC (14). -/
def Reg.fedResync : Reg :=
  ⟨0x7014, 1, 4, 0, 0xffffffff, 0, 0, 0, 0, 0, false⟩
/-- FED_STAT (14). -/
def Reg.fedStat : Reg :=
  ⟨0x7018, 1, 4, 0, 0, 0, 0, 0, 0, 0, false⟩
/-- FED_EPOCH (14). -/
def Reg.fedEpoch : Reg :=
  ⟨0x701c, 1, 4, 0, 0, 0, 0, 0, 0, 0, false⟩
/-- FED_LINK_CTL (14). -/
def Reg.fedLinkCtl : Reg :=
  ⟨0x7040, 3, 4, 0xc02, 0xfff, 0, 0, 0, 0, 0, false⟩
/-- FED_LINK_STAT (14). -/
def Reg.fedLinkStat : Reg :=
  ⟨0x7050, 3, 4, 0, 0, 0, 0, 0, 0, 0, false⟩
/-- CLK_CTL (15). -/
def Reg.clkCtl : Reg :=
  ⟨0x1000, 1, 4, 0, 1, 0, 0, 0, 0, 1, true⟩
/-- CLK_PLL_CTL (15). -/
def Reg.clkPllCtl : Reg :=
  ⟨0x1004, 1, 4, 0x328, 0x3fff, 0, 0, 0, 0, 0, true⟩
/-- CLK_MUX_CTL (15). -/
def Reg.clkMuxCtl : Reg :=
  ⟨0x1008, 1, 4, 0x40, 0xff, 0, 0, 0, 0, 0, true⟩
/-- CLK_STAT (15). -/
def Reg.clkStat : Reg :=
  ⟨0x100c, 1, 4, 9, 0, 0, 0, 0, 0, 0, false⟩
/-- CLK_SRC_LO (15). -/
def Reg.clkSrcLo : Reg :=
  ⟨0x1010, 1, 4, 3, 0, 0, 0, 0, 0, 0, false⟩
/-- CLK_SRC_HI (15). -/
def Reg.clkSrcHi : Reg :=
  ⟨0x1014, 1, 4, 0, 0, 0, 0, 0, 0, 0, false⟩
/-- CLK_MON (15). -/
def Reg.clkMon : Reg :=
  ⟨0x1018, 1, 4, 0, 0, 0, 0, 0, 0, 0, false⟩
/-- CLK_PLL_CMD (15). -/
def Reg.clkPllCmd : Reg :=
  ⟨0x101c, 1, 4, 0, 0, 3, 0, 0, 0, 0, false⟩
/-- CLK_GATE (15). -/
def Reg.clkGate : Reg :=
  ⟨0x1020, 1, 4, 0x1e00000, 0x1ffffff, 0, 0, 0, 0, 0x1e00000, false⟩
/-- CLK_GATE_STAT (15). -/
def Reg.clkGateStat : Reg :=
  ⟨0x1024, 1, 4, 0x1e00000, 0, 0, 0, 0, 0, 0, false⟩
/-- PWR_CTL (15). -/
def Reg.pwrCtl : Reg :=
  ⟨0x1040, 1, 4, 0x323, 0xffff, 0, 0, 0, 0, 0, false⟩
/-- PWR_STAT (15). -/
def Reg.pwrStat : Reg :=
  ⟨0x1044, 1, 4, 0xf, 0, 0, 0, 0, 0, 0, false⟩
/-- PWR_REST_CTL (15). -/
def Reg.pwrRestCtl : Reg :=
  ⟨0x1048, 1, 4, 0x3e8, 0xfffff, 0, 0, 0, 0, 0, false⟩
/-- PWR_WAKE_CTL (15). -/
def Reg.pwrWakeCtl : Reg :=
  ⟨0x104c, 1, 4, 0, 0x3ffff, 0, 0, 0, 0, 0, false⟩
/-- PWR_WAKE_TMR (15). -/
def Reg.pwrWakeTmr : Reg :=
  ⟨0x1050, 1, 4, 0, 0x3fffffff, 0, 0, 0, 0, 0, false⟩
/-- PWR_WAKES (15). -/
def Reg.pwrWakes : Reg :=
  ⟨0x1054, 1, 4, 0, 0, 0, 0, 0, 0, 0, false⟩
/-- REG_ERR (16). -/
def Reg.regErr : Reg :=
  ⟨0x2000, 1, 4, 0, 0, 0, 0xff00000f, 0, 0, 0, false⟩
/-- REG_ERR_COUNT (16). -/
def Reg.regErrCount : Reg :=
  ⟨0x2004, 1, 4, 0, 0, 0, 0, 0, 0, 0, false⟩
/-- REG_LOCK (16). -/
def Reg.regLock : Reg :=
  ⟨0x2008, 1, 4, 0, 0, 0, 0, 1, 0, 0, false⟩
/-- REG_PROT_MAP (16). -/
def Reg.regProtMap : Reg :=
  ⟨0x200c, 1, 4, 0x82, 0xffff, 0, 0, 0, 0, 0, true⟩
/-- REG_SHADOW_STAT (16). -/
def Reg.regShadowStat : Reg :=
  ⟨0x2010, 1, 4, 0, 0, 0, 0xff000003, 0, 0, 0, false⟩
/-- REG_RELOADS (16). -/
def Reg.regReloads : Reg :=
  ⟨0x2014, 1, 4, 0, 0, 0, 0, 0, 0, 0, false⟩
/-- REG_IND_CLAIM (16). -/
def Reg.regIndClaim : Reg :=
  ⟨0x2100, 4, 16, 0, 7, 0, 0, 0, 0, 0, false⟩
/-- REG_IND_ADDR (16). -/
def Reg.regIndAddr : Reg :=
  ⟨0x2104, 4, 16, 0, 0, 0, 0, 0, 0xf7fffff, 0, false⟩
/-- REG_IND_DATA (16). -/
def Reg.regIndData : Reg :=
  ⟨0x2108, 4, 16, 0, 0, 0, 0, 0, 0xffffffff, 0, false⟩
/-- GLB_ID (17). -/
def Reg.glbId : Reg :=
  ⟨0, 1, 4, 0x1001600, 0, 0, 0, 0, 0, 0, false⟩
/-- GLB_MODE (17). -/
def Reg.glbMode : Reg :=
  ⟨4, 1, 4, 0x201, 0x700, 0, 0, 0, 0, 0, false⟩
/-- GLB_STAT (17). -/
def Reg.glbStat : Reg :=
  ⟨8, 1, 4, 0, 0, 0, 0, 0, 0, 0, false⟩
/-- GLB_SCRATCH (17). -/
def Reg.glbScratch : Reg :=
  ⟨0xc, 1, 4, 0, 0xffffffff, 0, 0, 0, 0, 0, false⟩
/-- CTX_BASE_LO (17). -/
def Reg.ctxBaseLo : Reg :=
  ⟨0x4000, 1, 4, 0, 0xfffff000, 0, 0, 0, 0, 0xfffff000, true⟩
/-- CTX_BASE_HI (17). -/
def Reg.ctxBaseHi : Reg :=
  ⟨0x4004, 1, 4, 0, 0xffffffff, 0, 0, 0, 0, 0xffffffff, true⟩
/-- CTX_HITS (17). -/
def Reg.ctxHits : Reg :=
  ⟨0x4044, 1, 4, 0, 0, 0, 0, 0, 0, 0, false⟩
/-- CTX_MISSES (17). -/
def Reg.ctxMisses : Reg :=
  ⟨0x4048, 1, 4, 0, 0, 0, 0, 0, 0, 0, false⟩
/-- CTX_SET_FULL (17). -/
def Reg.ctxSetFull : Reg :=
  ⟨0x404c, 1, 4, 0, 0, 0, 0, 0, 0, 0, false⟩
/-- CLUn_BUSY (17). -/
def Reg.cluBusy : Reg :=
  ⟨0x8000, 1, 4, 0, 0, 0, 0, 0, 0, 0, false⟩
/-- CLUn_STARTS (17). -/
def Reg.cluStarts : Reg :=
  ⟨0x8004, 1, 4, 0, 0, 0, 0, 0, 0, 0, false⟩
/-- CLUn_SLOT_Q (17). -/
def Reg.cluSlotQ : Reg :=
  ⟨0x8200, 34, 4, 0, 0, 0, 0, 0, 0, 0, false⟩
/-- DBG_MEM_ADDR_LO (17). -/
def Reg.dbgMemAddrLo : Reg :=
  ⟨0x7300, 1, 4, 0, 0xffffffff, 0, 0, 0, 0, 0, false⟩
/-- DBG_MEM_ADDR_HI (17). -/
def Reg.dbgMemAddrHi : Reg :=
  ⟨0x7304, 1, 4, 0, 0xffffffff, 0, 0, 0, 0, 0, false⟩
/-- DBG_MEM_CTL (17). -/
def Reg.dbgMemCtl : Reg :=
  ⟨0x7308, 1, 4, 0, 0xffffff, 0, 0, 0, 0, 0, false⟩
/-- DBG_MEM_STAT (17). -/
def Reg.dbgMemStat : Reg :=
  ⟨0x730c, 1, 4, 0, 0, 0, 0, 0, 0, 0, false⟩
/-- DBG_MEM_DATA (17). -/
def Reg.dbgMemData : Reg :=
  ⟨0x7310, 16, 4, 0, 0xffffffff, 0, 0, 0, 0, 0, false⟩
/-- DBG_POLL (17). -/
def Reg.dbgPoll : Reg :=
  ⟨0x7358, 1, 4, 0, 0x1fff, 0, 0, 0, 0, 0, false⟩
/-- TST_CTL (19). -/
def Reg.tstCtl : Reg :=
  ⟨0x7100, 1, 4, 0, 1, 0, 0, 0, 0, 1, false⟩
/-- TST_MBIST_CTL (19). -/
def Reg.tstMbistCtl : Reg :=
  ⟨0x7104, 1, 4, 0, 0x1fffff, 0, 0, 0, 0, 0x1fffff, false⟩
/-- TST_MBIST_STAT (19). -/
def Reg.tstMbistStat : Reg :=
  ⟨0x7108, 1, 4, 0, 0, 0, 0, 0, 0, 0, false⟩
/-- TST_UNIT_CTL (19). -/
def Reg.tstUnitCtl : Reg :=
  ⟨0x7140, 19, 4, 0x18, 0xff, 0, 0, 0, 0, 0xff, false⟩
/-- TST_UNIT_STAT (19). -/
def Reg.tstUnitStat : Reg :=
  ⟨0x71c0, 19, 4, 0, 0, 0, 0, 0, 0, 0, false⟩
/-- TST_UNIT_ERRS (19). -/
def Reg.tstUnitErrs : Reg :=
  ⟨0x7240, 19, 4, 0, 0, 0, 0, 0, 0, 0, false⟩
/-- TST_PORT_BASE_LO (19). -/
def Reg.tstPortBaseLo : Reg :=
  ⟨0x72c0, 1, 4, 0, 0xfffff000, 0, 0, 0, 0, 0xfffff000, false⟩
/-- TST_PORT_BASE_HI (19). -/
def Reg.tstPortBaseHi : Reg :=
  ⟨0x72c4, 1, 4, 0, 0xffffffff, 0, 0, 0, 0, 0xffffffff, false⟩
/-- TST_PORT_CFG (19). -/
def Reg.tstPortCfg : Reg :=
  ⟨0x72c8, 1, 4, 0xc000, 0x1ffff, 0, 0, 0, 0, 0x1ffff, false⟩

/-- Part 1 of the list of registers. -/
def regList1 : List Reg :=
  [Reg.schPollCtl, Reg.schParkCeil, Reg.cluLensCtl, Reg.cluLensElems, Reg.cluLensReqs, Reg.cluRobCtl, Reg.cluTagCtl, Reg.cluRobStat, Reg.cluPreempts, Reg.cluEccStat, Reg.cluEccInj, Reg.schDrrCtl, Reg.schBindCeil, Reg.schShareCtl, Reg.schPromotions, Reg.schArbCtl, Reg.schArbStat, Reg.schPortPrio, Reg.schCtxbPrio, Reg.cluDpaCtl]
/-- Part 2 of the list of registers. -/
def regList2 : List Reg :=
  [Reg.cluDpaStat, Reg.cluReplayCtl, Reg.cluReplayStat, Reg.cluRetired, Reg.cluMirrorStat, Reg.admQBaseLo, Reg.admQBaseHi, Reg.admQCtl, Reg.admDbAddrLo, Reg.admDbAddrHi, Reg.admNoticeLo, Reg.admNoticeHi, Reg.admPoll, Reg.admCeil, Reg.admQStat, Reg.admLastDone, Reg.admStageStat, Reg.admCommits, Reg.admErrIndex, Reg.insQuiesceCeil]
/-- Part 3 of the list of registers. -/
def regList3 : List Reg :=
  [Reg.insStat, Reg.insDlogStat, Reg.errLogBaseLo, Reg.errLogBaseHi, Reg.errLogCtl, Reg.errLogCons, Reg.errLogStat, Reg.errLostSeq, Reg.errNextSeq, Reg.errFatal, Reg.schPollCeil, Reg.ctxFetchCeil, Reg.cluRdCeil, Reg.cluWrCeil, Reg.cluBeatCeil, Reg.evmLineCtl, Reg.evmKickMap, Reg.evmSetOwner, Reg.evmLineStat, Reg.evmWflag]
/-- Part 4 of the list of registers. -/
def regList4 : List Reg :=
  [Reg.evmStuckVal, Reg.evmCtl, Reg.evmStat, Reg.telTbLo, Reg.telTbHi, Reg.telTbRate, Reg.telTbAdj, Reg.telOccCtl, Reg.telStat, Reg.telTraceCons, Reg.fedId, Reg.fedCtl, Reg.fedHbCeil, Reg.fedAreaLo, Reg.fedAreaHi, Reg.fedResync, Reg.fedStat, Reg.fedEpoch, Reg.fedLinkCtl, Reg.fedLinkStat]
/-- Part 5 of the list of registers. -/
def regList5 : List Reg :=
  [Reg.clkCtl, Reg.clkPllCtl, Reg.clkMuxCtl, Reg.clkStat, Reg.clkSrcLo, Reg.clkSrcHi, Reg.clkMon, Reg.clkPllCmd, Reg.clkGate, Reg.clkGateStat, Reg.pwrCtl, Reg.pwrStat, Reg.pwrRestCtl, Reg.pwrWakeCtl, Reg.pwrWakeTmr, Reg.pwrWakes, Reg.regErr, Reg.regErrCount, Reg.regLock, Reg.regProtMap]
/-- Part 6 of the list of registers. -/
def regList6 : List Reg :=
  [Reg.regShadowStat, Reg.regReloads, Reg.regIndClaim, Reg.regIndAddr, Reg.regIndData, Reg.glbId, Reg.glbMode, Reg.glbStat, Reg.glbScratch, Reg.ctxBaseLo, Reg.ctxBaseHi, Reg.ctxHits, Reg.ctxMisses, Reg.ctxSetFull, Reg.cluBusy, Reg.cluStarts, Reg.cluSlotQ, Reg.dbgMemAddrLo, Reg.dbgMemAddrHi, Reg.dbgMemCtl]
/-- Part 7 of the list of registers. -/
def regList7 : List Reg :=
  [Reg.dbgMemStat, Reg.dbgMemData, Reg.dbgPoll, Reg.tstCtl, Reg.tstMbistCtl, Reg.tstMbistStat, Reg.tstUnitCtl, Reg.tstUnitStat, Reg.tstUnitErrs, Reg.tstPortBaseLo, Reg.tstPortBaseHi, Reg.tstPortCfg]

/-- Every direct register. -/
def regList : List Reg :=
  regList1 ++ regList2 ++ regList3 ++ regList4 ++ regList5 ++ regList6 ++ regList7

/-- Whether canonical offset off is that of an instance of r, of cluster n where r is a cluster register. -/
def Reg.covers (r : Reg) (off : Nat) : Bool :=
  if r.clustered then
    decide (0x8000 ≤ off) && decide ((off &&& 0x3FC) + 0x8000 ≥ r.base) &&
      decide ((off &&& 0x3FC) + 0x8000 < r.base + r.stride * r.count) &&
      decide (((off &&& 0x3FC) + 0x8000 - r.base) % r.stride = 0)
  else
    decide (r.base ≤ off) && decide (off < r.base + r.stride * r.count) && decide ((off - r.base) % r.stride = 0)

/-- The register at a canonical offset; none where 17 R500 assigns none. -/
def regAtOffset (off : Nat) : Option Reg := regList.find? (fun r => r.covers off)

/-- The canonical offset that a byte offset reaches (16 R475). -/
def canonOffset (a : Nat) : Nat :=
  if a % 0x10000 < 0x8000 then (a % 0x10000) / 0x1000 * 0x1000 + (a &&& 0x3FC)
  else (a % 0x10000) / 0x1000 * 0x1000 + (a &&& 0x7FC)

end Sys2Proof.Machine
end

