-- ==== Sys2Proof/Machine/Ops.lean ====
section
/-! DEFINITION. The operations every meaning shares: registers, status events, the error log queue, source pulses, the
instance table, ports and fabric accesses, and the context cache. -/

namespace Sys2Proof.Machine

/-! Registers. -/

/-- The canonical offset of instance i of a register; of cluster i's for a cluster register (17 R498). -/
def Reg.addr (r : Reg) (i : Nat) : Nat := if r.clustered then r.ofClu i else r.at i

/-- The stored value of a register. The map holds each value's difference from its value at reset. -/
def State.rd (s : State) (r : Reg) (i : Nat) : W32 := s.regs.get (r.addr i) ^^^ BitVec.ofNat 32 r.reset

/-- The state with a register's stored value replaced. -/
def State.wr (s : State) (r : Reg) (i : Nat) (v : W32) : State :=
  { s with regs := s.regs.put (r.addr i) (v ^^^ BitVec.ofNat 32 r.reset) }

/-- Field [lo + len − 1 : lo] of a register. -/
def State.fld (s : State) (r : Reg) (i lo len : Nat) : Nat := bits (s.rd r i) lo len

/-- The state with one field of a register replaced. -/
def State.setFld (s : State) (r : Reg) (i lo len v : Nat) : State := s.wr r i (withBits (s.rd r i) lo len v)

/-- A counter field, wrapping at its width. -/
def State.bump (s : State) (r : Reg) (i lo len k : Nat) : State := s.setFld r i lo len (s.fld r i lo len + k)

/-- A counter field, saturating at its width. -/
def State.bumpSat (s : State) (r : Reg) (i lo len k : Nat) : State :=
  s.setFld r i lo len (min (2 ^ len - 1) (s.fld r i lo len + k))

/-! Values that registers act as. -/

/-- TORN_CEIL (02 R67). -/
def tornCeil (s : State) : Nat := max 1 (s.fld .schPollCtl 0 16 8)
/-- POLL_CAP in MB/s (02 R64). -/
def pollCap (s : State) : Nat := max 64 (s.fld .schPollCtl 0 0 16)
/-- SCAN_MODE (02 R56). -/
def scanMode (s : State) : Bool := bit (s.rd .schPollCtl 0) 24
/-- SCH_PARK_CEIL in ns (02 R74). -/
def parkCeilNs (s : State) : Nat := 1000 * clamp 1 4000000 (s.fld .schParkCeil 0 0 32)
/-- CLUn_RD_CEIL in ns. -/
def rdCeilNs (s : State) (n : Nat) : Nat := 1000 * clamp 1 100000 (s.fld .cluRdCeil n 0 17)
/-- CLUn_WR_CEIL in ns. -/
def wrCeilNs (s : State) (n : Nat) : Nat := 1000 * clamp 1 100000 (s.fld .cluWrCeil n 0 17)
/-- SCH_POLL_CEIL in ns. -/
def pollCeilNs (s : State) : Nat := 1000 * clamp 1 10000 (s.fld .schPollCeil 0 0 14)
/-- CTX_FETCH_CEIL in ns. -/
def fetchCeilNs (s : State) : Nat := 1000 * clamp 1 10000 (s.fld .ctxFetchCeil 0 0 14)
/-- ADM_CEIL.MEM_CEIL in ns (09 R277). -/
def memCeilNs (s : State) : Nat := 1000 * max 1 (s.fld .admCeil 0 14 16)
/-- ADM_CEIL.COMMIT_CEIL in ns. -/
def commitCeilNs (s : State) : Nat := 1000 * clamp 1 10000 (s.fld .admCeil 0 0 14)
/-- INS_QUIESCE_CEIL in ns (10 R328). -/
def quiesceCeilNs (s : State) : Nat := 1000 * clamp 1 1000000 (s.fld .insQuiesceCeil 0 0 20)
/-- SCH_BIND_CEIL in ns (07 R221). -/
def bindCeilNs (s : State) : Nat := 1000 * clamp 1 100000 (s.fld .schBindCeil 0 0 17)
/-- FED_HB_CEIL in ns (14 R434). -/
def hbCeilNs (s : State) : Nat := 1000 * clamp 1000 1000000 (s.fld .fedHbCeil 0 0 20)

/-! Status events (16 R482, R560). -/

/-- The next SEQ after `cur` that is none of the values last read. -/
def seqNext (cur : Nat) (avoid : List Nat) : Nat :=
  (((List.range 4).map (fun k => (cur + 1 + k) % 256)).find? (fun v => !avoid.contains v)).getD ((cur + 1) % 256)

/-- An event of an S-class register: f changes its status fields, and SEQ advances (16 R482). -/
def State.sEvent (s : State) (r : Reg) (i : Nat) (f : W32 → W32) : State :=
  let w := f (s.rd r i)
  let avoid := (s.lastRead.filter (fun x => x.2.1 == r.addr i)).map (·.2.2)
  s.wr r i (withBits w 24 8 (seqNext (bits w 24 8) avoid))

/-! The error log (11 R353 to R360). -/

/-- A record of a fault; SEQ, TIME and COUNT are given when it is logged. -/
def mkErr (cls domain code iid qid slot clu : Nat) (detail : BitVec 8) (arg0 arg1 : Nat) : ErrRec :=
  { seq := 0, cls := cls, domain := domain, code := code, count := 1, time := 0, iid := iid, qid := qid, slot := slot,
    clu := clu, detail := detail, arg0 := BitVec.ofNat 64 arg0, arg1 := BitVec.ofNat 64 arg1 }

/-- A record is lost: LOG_LOST, and ERR_LOST_SEQ when it was clear (11 R358). -/
def State.loseErr (s : State) (seq : W32) : State :=
  let s1 := if bit (s.rd .errLogStat 0) 0 then s else s.wr .errLostSeq 0 seq
  s1.sEvent .errLogStat 0 (fun w => withBits w 0 1 1)

/-- A fault is logged: merged into a pending record of the same code, cluster, slot and queue when it is CORRECTED or
REPLAYED (11 R360), else given the next SEQ and queued, or lost when 64 records are pending (R359). -/
def State.logErr (s : State) (e : ErrRec) : State :=
  let same := fun (x : ErrRec) => decide (x.code = e.code) && decide (x.clu = e.clu) && decide (x.slot = e.slot) &&
    decide (x.qid = e.qid)
  if decide (e.cls ≤ 1) && s.errQ.any same then
    { s with errQ := upd same (fun x => { x with count := min 0xFFFF (x.count + 1) }) s.errQ }
  else
    let seq := s.rd .errNextSeq 0
    let s1 := s.wr .errNextSeq 0 (if seq + 1 = 0 then 1 else seq + 1)
    if 64 ≤ s1.errQ.length then s1.loseErr seq
    else { s1 with errQ := s1.errQ ++ [{ e with seq := seq, time := s.timebase, count := 1 }] }

/-! Source pulses (12 R374, R375). -/

/-- A pulse is merged into the next one that its source delivers. -/
def mergePulse (src hop : Nat) : List (Nat × Nat × Nat) → List (Nat × Nat × Nat)
  | [] => []
  | p :: ps => if p.1 = src then (p.1, p.2.1 + 1, max p.2.2 hop) :: ps else p :: mergePulse src hop ps

/-- A source pulses: it holds one more pulse for delivery, or merges it into the next one where it holds fifteen. -/
def State.pulse (s : State) (src hop : Nat) : State :=
  { s with heldPulses :=
      if (s.heldPulses.filter (fun p => p.1 == src)).length < 15 then s.heldPulses ++ [(src, 1, hop)]
      else mergePulse src hop s.heldPulses }

/-! The instance table (10 R313). -/

/-- Word w of the entry of an instance. -/
def State.inst (s : State) (iid w : Nat) : W32 := s.is0.get (16 * iid + w)

/-- Field [lo + len − 1 : lo] of word w of the entry. -/
def State.instFld (s : State) (iid w lo len : Nat) : Nat := bits (s.inst iid w) lo len

/-- The state with word w of the entry replaced. -/
def State.setInst (s : State) (iid w : Nat) (v : W32) : State := { s with is0 := s.is0.put (16 * iid + w) v }

/-- The state with one field of the entry replaced. -/
def State.setInstFld (s : State) (iid w lo len v : Nat) : State := s.setInst iid w (withBits (s.inst iid w) lo len v)

/-- INST_STATE (10 R320): 0 ABSENT, 1 LIVE, 2 QUIESCING, 3 QUIESCED, 4 SQUASHING, 5 CLOSING. -/
def State.instState (s : State) (iid : Nat) : Nat := s.instFld iid 13 0 3

/-- QBASE. -/
def qbase (s : State) (iid : Nat) : Nat := s.instFld iid 2 0 22
/-- QID_SPAN. -/
def qidSpan (s : State) (iid : Nat) : Nat := s.instFld iid 3 0 16
/-- DB_BASE (02 R47). -/
def dbBase (s : State) (iid : Nat) : Nat := s.instFld iid 4 12 20 * 4096 + s.instFld iid 5 0 32 * 2 ^ 32
/-- SUM_BASE (02 R51). -/
def sumBase (s : State) (iid : Nat) : Nat := s.instFld iid 6 6 26 * 64 + s.instFld iid 7 0 32 * 2 ^ 32
/-- POLL_IV (02 R61). -/
def pollIv (s : State) (iid : Nat) : Nat := min 2000000 (s.instFld iid 8 0 21)
/-- WEIGHT. -/
def weight (s : State) (iid : Nat) : Nat := s.instFld iid 9 0 16
/-- CLASS_CAP. -/
def classCap (s : State) (iid : Nat) : Nat := s.instFld iid 9 16 2
/-- RATE_B in MB/s. -/
def rateB (s : State) (iid : Nat) : Nat := s.instFld iid 10 0 21
/-- BURST_B in bytes. -/
def burstB (s : State) (iid : Nat) : Nat := 1024 * max 1 (s.instFld iid 11 0 16)
/-- BURST_D in descriptors. -/
def burstD (s : State) (iid : Nat) : Nat := max 1 (s.instFld iid 11 16 16)
/-- RATE_D in thousands of descriptors a second. -/
def rateD (s : State) (iid : Nat) : Nat := min 1000000 (s.instFld iid 12 0 20)

/-- IIDs of the instances that are not ABSENT. -/
def createdIids (s : State) : List Nat :=
  (s.is0.filter (fun p => decide (p.1 % 16 = 13) && decide (p.2.toNat % 8 ≠ 0))).map (fun p => p.1 / 16)

/-- The effective poll interval in ns (02 R62): the larger of POLL_IV × 0.5 µs and N × 8 B ÷ POLL_CAP. -/
def effInterval (s : State) (iid : Nat) : Nat :=
  max (500 * pollIv s iid)
    (((createdIids s).filter (fun i => decide (pollIv s i ≠ 0))).length * 8 * 1000 / pollCap s)

/-! Counters in IS3 (13 R402 to R406). -/

/-- The telemetry functions run: their clock is not gated by CLK_GATE.TEL_EN or by REST (13 R397; 15 R467). -/
def telOn (s : State) : Bool := bit (s.rd .clkGateStat 0) 16

/-- A 32-bit counter of IS3, wrapping; while telemetry is gated it does not count. -/
def State.addIs3 (s : State) (w k : Nat) : State :=
  if !telOn s then s
  else { s with is3 := s.is3.put w (BitVec.ofNat 32 ((s.is3.get w).toNat + k)) }

/-- A 64-bit counter of IS3 in words w and w + 1, wrapping. -/
def State.addIs3w (s : State) (w k : Nat) : State :=
  if !telOn s then s else
  let v := (s.is3.get w).toNat + 2 ^ 32 * (s.is3.get (w + 1)).toNat + k
  { s with is3 := (s.is3.put w (BitVec.ofNat 32 v)).put (w + 1) (BitVec.ofNat 32 (v / 2 ^ 32)) }

/-- The base of an instance's counters (13 R406). -/
def instCtr (iid : Nat) : Nat := 0x1000 + 16 * iid

/-! Ports and attributes (01 R21 to R23, 05 R182). -/

/-- CLK_GATE.CLU_EN of a cluster. -/
def cluEn (s : State) (n : Nat) : Bool := decide (n < 16) && bit (s.rd .clkGate 0) n

/-- OUT_OF_SERVICE of a cluster (08 R263). -/
def outOfService (s : State) (n : Nat) : Bool := bit (s.rd .cluMirrorStat n) 4

/-- A cluster that is clock-enabled and in service. -/
def inService (s : State) (n : Nat) : Bool := cluEn s n && !outOfService s n

/-- The clusters in service. -/
def servingClusters (s : State) : List Nat := (List.range 16).filter (fun n => inService s n)

/-- A port that a shared-unit access may use (01 R23): its cluster is in service, or is the last one and keeps its port
(08 R263). -/
def portAvail (s : State) (n : Nat) : Bool :=
  inService s n || (cluEn s n && decide (servingClusters s = []) && decide (s.fld .cluMirrorStat n 5 4 = n))

/-- The port of a shared-unit access with key K (01 R21, R23). -/
def portFor (s : State) (key : Nat) : Option Nat :=
  let p := servicePort key
  if portAvail s p then some p
  else if portAvail s (partnerOf p) then some (partnerOf p)
  else (List.range 16).find? (fun n => portAvail s n)

/-- The adopter of a cluster (08 R261). -/
def adopterOf (s : State) (n : Nat) : Option Nat :=
  if inService s (partnerOf n) then some (partnerOf n)
  else (List.range 16).find? (fun m => decide (m ≠ n) && inService s m)

/-- The attributes of a shared-unit access under the identity of an instance (05 R182). -/
def sharedAttrs (s : State) (iid : Nat) : Attrs :=
  { rid := BitVec.ofNat 16 (s.instFld iid 0 0 16), pasidEn := bit (s.inst iid 0) 16,
    pasid := BitVec.ofNat 20 (s.instFld iid 1 0 20), ro := false, ns := false, tphEn := false, tphSt := 0, tphPh := 0,
    cls := 1, idem := true, swap := false }

/-- The unit that issues an access, for its place in order (01 R561): 0 context cache, 1 poller, 2 notice logic, 3 telemetry; of the
admin processor, each requester of its arbiter in order of its own (07 R235; DEDUCED, log entry 48), 4 ring fetch, 6 command
executor, 7 error-log writer, 8 dirty-log writer; 9 the debug access, 10 witness lines, 11 federation checkpoints, 12 an adopter's
reads; 16 + n the channels of Cn, 64 + q the records of queue q, 2^23 + u test unit u; 5 others. -/
def unitOf : Purpose → Nat
  | .ctxFetch _ => 0 | .ctxWriteBack _ => 0
  | .root _ => 1 | .leaf _ _ => 1 | .doorbell _ _ _ => 1
  | .notice _ => 2 | .record q _ _ _ ab => if ab then 2 else 64 + q
  | .snap _ _ => 3 | .trace _ => 3
  | .admDoorbell => 4 | .admSlot => 4 | .admImage _ => 6 | .admRecord _ => 6 | .admNotice => 6 | .admCopy _ => 6
  | .errLog _ _ => 7 | .dirtyLog _ _ => 8 | .debug => 9 | .witnessWrite => 10 | .witnessRead _ => 10
  | .fedCkpt => 11 | .adoptCkpt _ _ _ => 12 | .test u _ => 2 ^ 23 + u
  | .slot c _ => 16 + c | .tail c _ => 16 + c | .parkSlot c _ => 16 + c
  | _ => 5

/-- The ceiling in ns that an access waits under on port p (11 R367). -/
def ceilingOf (s : State) (p : Nat) (w : Bool) (u : Purpose) : Nat :=
  match u with
  | .ctxFetch _ => fetchCeilNs s
  | .ctxWriteBack _ => if s.modeNext = some .test then wrCeilNs s p else fetchCeilNs s
  | .root _ => pollCeilNs s
  | .leaf _ _ => pollCeilNs s
  | .doorbell _ _ _ => pollCeilNs s
  | .admDoorbell => memCeilNs s
  | .admSlot => memCeilNs s
  | .admImage _ => memCeilNs s
  | .admRecord _ => memCeilNs s
  | .admNotice => memCeilNs s
  | .admCopy _ => memCeilNs s
  | .errLog _ _ => memCeilNs s
  | .dirtyLog _ _ => memCeilNs s
  | _ => if w then wrCeilNs s p else rdCeilNs s p

/-- Credits of a port: requests on rq and wq, beats on wd (18 R517). -/
def creditsOf (s : State) (p : Nat) : Nat × Nat × Nat := (assocGet s.credits p).getD (0, 0, 0)

/-- The port has the credits that an access with its data beats takes (18 R517). -/
def hasCredit (s : State) (p : Nat) (w : Bool) (beats : Nat) : Bool :=
  let c := creditsOf s p
  if w then decide (1 ≤ c.2.1) && decide (beats ≤ c.2.2) else decide (1 ≤ c.1)

/-- The credits after such an access. -/
def takeCredit (s : State) (p : Nat) (w : Bool) (beats : Nat) : List (Nat × Nat × Nat × Nat) :=
  let c := creditsOf s p
  assocPut s.credits p (if w then (c.1, c.2.1 - 1, c.2.2 - beats) else (c.1 - 1, c.2.1, c.2.2))

/-- Tags (or write IDs) of a port that are held or quarantined (05 R172, R173). -/
def tagsUsed (s : State) (p : Nat) (w : Bool) : Nat :=
  (s.acc.filter (fun a => decide (a.port = p) && decide (a.write = w))).length +
  (s.quar.filter (fun q => decide (q.acc.port = p) && decide (q.acc.write = w))).length

/-- Tags held by holders that f picks. -/
def tagsHeld (s : State) (p : Nat) (w : Bool) (f : Access → Bool) : Nat :=
  (s.acc.filter (fun a => decide (a.port = p) && decide (a.write = w) && f a)).length

/-- The tag budget of 05 R174. Holder 34 is a shared unit. -/
def tagOk (s : State) (p : Nat) (w : Bool) (holder : Nat) (classU : Bool) : Bool :=
  let free := 1024 - tagsUsed s p w
  let vs := clamp 8 128 (s.fld .cluTagCtl p 11 8) - tagsHeld s p w (fun a => decide (34 ≤ a.holder))
  let vu := min 256 (s.fld .cluTagCtl p 19 9) - tagsHeld s p w (fun a => a.classU)
  if 34 ≤ holder then decide (0 < free)
  else decide (tagsHeld s p w (fun a => decide (a.holder = holder)) < clamp 16 1024 (s.fld .cluTagCtl p 0 11)) &&
    (if classU then decide (vs < free) else decide (vs + vu < free))

/-! The common arbiter (07 R235 to R245). -/

/-- The state of arbiter `a` (07 R235). -/
def arbOf (s : State) (a : Nat) : Arb :=
  (s.arbs.find? (fun x => x.num == a)).getD { num := a, round := 0, reqs := [], emBarred := false, emRun := 0, won := 0, waiting := [] }

/-- The state of an arbiter replaced. -/
def State.putArb (s : State) (x : Arb) : State := { s with arbs := x :: s.arbs.filter (fun y => y.num != x.num) }

/-- The first value of an arbiter's control register: WAIT_LIMIT, HOLD_CEIL and PENALTY share one layout in SCH_ARB_CTL and
CLUn_DPA_CTL. -/
def arbCtl (s : State) (a : Nat) : W32 := if a < 34 then s.rd .schArbCtl a else s.rd .cluDpaCtl (a - 34)

/-- WAIT_LIMIT. -/
def waitLimit (s : State) (a : Nat) : Nat := max 1 (bits (arbCtl s a) 0 10)

/-- PENALTY in cycles of the arbiter's domain. -/
def penalty (s : State) (a : Nat) : Nat := bits (arbCtl s a) 20 12

/-- How many requesters an arbiter has besides the emergency requester (07 R235). -/
def arbSize (a : Nat) : Nat := if a < 32 then 7 else if a = 32 then 16 else if a = 33 then 3 else if a < 50 then 34 else 0

/-- A requester's state at an arbiter. -/
def reqOf (x : Arb) (r : Nat) : Requester :=
  (x.reqs.find? (fun q => q.idx == r)).getD
    { idx := r, stamp := x.round, wait := 0, forced := false, lockout := 0, raised := false }

/-- A requester's state replaced. -/
def Arb.putReq (x : Arb) (q : Requester) : Arb := { x with reqs := q :: x.reqs.filter (fun y => y.idx != q.idx) }

/-- A requester is locked out (07 R242). A datapath arbiter's lockout counts its cycles; another's ends at a nominal time. -/
def lockedOut (s : State) (a : Nat) (q : Requester) : Bool :=
  if a < 34 then decide (s.nomNs < q.lockout) else decide (0 < q.lockout)

/-- The ranking key of R239 as one number: forced, priority unless forced, age, lower index. -/
def rankKey (x : Arb) (prio : Nat → Nat) (q : Requester) : Nat :=
  ((if q.forced then 8 else prio q.idx) * 1024 + min 1023 (x.round - q.stamp)) * 64 + (63 - q.idx)

/-- A requester as it takes part: raised, stamped with the round at which it was raised (07 R238). -/
def raisedReq (x : Arb) (stamp r : Nat) : Requester :=
  let q := reqOf x r
  if q.raised then q else { q with raised := true, stamp := stamp }

/-- The candidate that ranks first (07 R239). -/
def ranksFirst (x : Arb) (prio : Nat → Nat) (qs : List Requester) : Option Requester :=
  leastBy (fun q => 16 * 1024 * 64 - rankKey x prio q) qs

/-- One decision of an arbiter among the requesters in `cands` (07 R239, R240): requesters that are not candidates lose
their stamp, counter and flag; the winner must be the one ranked first; each other candidate loses a round; a forced winner
is counted. None where `w` is not the winner. `stampOf` is the stamp of a request raised now (R238); requesters in `still` have
their request raised without taking part (07 R234, R242). -/
def arbDecide (s : State) (a w : Nat) (cands still : List Nat) (prio : Nat → Nat) (stampOf : Nat → Nat) : Option Arb :=
  let x := arbOf s a
  let lim := waitLimit s a
  let keep := x.reqs.filter (fun q => cands.contains q.idx || still.contains q.idx || lockedOut s a q)
  let x1 : Arb := { x with reqs := keep }
  let qs := cands.map (fun r => raisedReq x1 (stampOf r) r)
  if qs.any (fun q => lockedOut s a q) then none
  else
    match ranksFirst x prio qs with
    | none => none
    | some b =>
      if b.idx ≠ w then none
      else
        let lost := (qs.filter (fun q => q.idx != w)).map (fun q =>
          { q with wait := q.wait + 1, forced := q.forced || decide (lim ≤ q.wait + 1) })
        let apart := (still.filter (fun r => r != w && !cands.contains r)).eraseDups
        let held := apart.map (fun r => raisedReq x1 (stampOf r) r)
        some { x with reqs := lost ++ held ++ keep.filter (fun q => !cands.contains q.idx && !apart.contains q.idx),
                      round := x.round + 1, emBarred := false, won := x.won + flag b.forced }

/-- A decision carried out. -/
def State.arbGrant (s : State) (a w : Nat) (cands still : List Nat) (prio : Nat → Nat) (stampOf : Nat → Nat) : Option State :=
  (arbDecide s a w cands still prio stampOf).map (fun x => s.putArb x)

/-- The requesters that are raised at an arbiter and not locked out. -/
def raisedAt (s : State) (a : Nat) : List Nat :=
  ((arbOf s a).reqs.filter (fun q => q.raised && !lockedOut s a q)).map (·.idx)

/-- Requester r of an arbiter is granted its transfer. Of the candidates, and of the requesters raised there that `waits` does
not name, those that rank behind r lose the round; the others do not take part (their transfers cannot begin). -/
def State.grantAmong (s : State) (a r : Nat) (cands waits : List Nat) (prio : Nat → Nat) : State :=
  let x := arbOf s a
  let key := fun i => rankKey x prio (raisedReq x x.round i)
  let all := (cands ++ (raisedAt s a).filter (fun i => !waits.contains i)).eraseDups
  let behind := all.filter (fun i => i != r && decide (key i < key r) && !lockedOut s a (reqOf x i))
  (s.arbGrant a r (r :: behind) (waits ++ all) prio (fun _ => x.round)).getD s

/-- A requester raises its request at an arbiter, stamped with the round (07 R238). -/
def State.raiseAt (s : State) (a r : Nat) : State := s.putArb ((arbOf s a).putReq (raisedReq (arbOf s a) (arbOf s a).round r))

/-- The candidate of a list that ranks first at an arbiter, its request raised now where it was not. -/
def bestOf (s : State) (a : Nat) (prio : Nat → Nat) (rs : List Nat) : Option Nat :=
  (ranksFirst (arbOf s a) prio (rs.map (raisedReq (arbOf s a) (arbOf s a).round))).map (·.idx)

/-- SCH_CTXB_PRIO of a context bank's requester (07 R236). -/
def bankPrio (s : State) (r : Nat) : Nat := s.fld .schCtxbPrio 0 (3 * r) 3

/-- A requester drops its request at an arbiter: it loses its counter, its flag and its stamp; a lockout runs on (07 R240, R242). -/
def State.dropRequest (s : State) (a r : Nat) : State :=
  let x := arbOf s a
  if x.reqs.any (fun q => q.idx == r) then s.putArb (x.putReq { reqOf x r with wait := 0, forced := false, raised := false }) else s

/-- An access of requester r of a context bank waits for its grant, in front of its other ones where `again` (07 R242). -/
def State.bankWait (s : State) (a r : Nat) (again : Bool) : State :=
  let x := (arbOf s a).putReq (raisedReq (arbOf s a) (arbOf s a).round r)
  s.putArb { x with waiting := if again then r :: x.waiting else x.waiting ++ [r] }

/-- An access of requester r to the entry of a queue raises its request in the entry's context bank (07 R235). What the access does to
the context is the command's own effect, taken when the access is asked for; the grants follow at the ticks (DESIGN CHOICE, log entry
14). -/
def State.bankAccess (s : State) (qid r : Nat) : State := s.bankWait (16 + qid % 16) r false

/-- A context bank grants the access that ranks first; its requester raises its next one, stamped anew (07 R239 to R242). -/
def State.bankGrant (s : State) (a : Nat) : State :=
  let rs := raisedAt s a
  match bestOf s a (bankPrio s) rs with
  | none => s
  | some r =>
    let t := s.grantAmong a r rs [] (bankPrio s)
    let x := arbOf t a
    let y := { x with waiting := x.waiting.erase r }
    t.putArb (if y.waiting.contains r then y.putReq (raisedReq y y.round r) else y)

/-- Every context bank grants one access. -/
def State.bankGrants (s : State) : State := (List.range 16).foldl (fun t b => t.bankGrant (16 + b)) s

/-- The emergency requester of an arbiter takes a transfer; `others` tells that another candidate waits (07 R243, R244). -/
def State.grantEmergency (s : State) (a : Nat) (others : Bool) : State := s.putArb { arbOf s a with emBarred := others }

/-! Queue contexts (17 R503) and the notices they give. -/

/-- The sixteen words of a context (17 R503). -/
def QCtx.toWords (c : QCtx) : List W64 :=
  [ pack [(0, 3, c.state.toNat), (3, 1, c.byQuiesce.toNat), (4, 2, c.drainTo.toNat), (6, 3, c.prior.toNat),
      (9, 4, c.home.toNat), (13, 4, c.newHome.toNat), (17, 2, c.homeMember.toNat), (19, 4, c.log2dM4.toNat),
      (23, 4, c.overlapM1.toNat), (27, 2, c.qClass.toNat), (29, 1, c.attrRo.toNat), (30, 1, c.attrNs.toNat),
      (31, 1, c.tphEn.toNat), (32, 8, c.tphSt.toNat), (40, 2, c.tphPh.toNat), (42, 8, c.dbGen.toNat),
      (50, 12, c.iid.toNat), (62, 1, c.resumeSeen.toNat), (63, 1, c.abandonSeen.toNat)],
    c.ringBase,
    pack [(0, 32, c.f.toNat), (32, 32, c.q.toNat)],
    pack [(0, 32, c.piSeen.toNat), (32, 32, c.errIndex.toNat)],
    pack [(0, 8, c.errCause.toNat), (8, 8, c.errDepth.toNat), (16, 16, c.errChainPos.toNat), (32, 8, c.reread.toNat),
      (40, 16, c.winDone.toNat), (56, 8, c.nseq.toNat)],
    c.noticeAddr,
    pack [(0, 16, c.noticeThresh.toNat), (16, 20, c.noticeDelay.toNat), (36, 16, c.pendingCnt.toNat),
      (52, 1, c.noticeBusy.toNat), (53, 1, c.noticeKept.toNat), (54, 1, c.resumePend.toNat),
      (55, 1, c.abandonPend.toNat), (56, 8, c.rsv6.toNat)],
    pack [(0, 32, c.estCost.toNat), (32, 32, c.ntcDue.toNat)],
    c.bytesRd, c.bytesWr,
    pack [(0, 32, c.descs.toNat), (32, 16, c.replays.toNat), (48, 16, c.contained.toNat)],
    pack [(0, 22, c.qid.toNat), (22, 15, c.localQ.toNat), (37, 27, c.rsv11.toNat)],
    c.rsv12.extractLsb' 0 64, c.rsv12.extractLsb' 64 64, c.rsv12.extractLsb' 128 64, c.rsv12.extractLsb' 192 64 ]

/-- Field of a word, at its width. -/
def fieldOf (w : W64) (lo len : Nat) : BitVec len := BitVec.ofNat len (w.toNat / 2 ^ lo)

/-- The context that sixteen words hold (17 R503). -/
def QCtx.ofWords (ws : List W64) : QCtx :=
  let q := fun i => wd ws i
  { state := fieldOf (q 0) 0 3, byQuiesce := fieldOf (q 0) 3 1, drainTo := fieldOf (q 0) 4 2, prior := fieldOf (q 0) 6 3,
    home := fieldOf (q 0) 9 4, newHome := fieldOf (q 0) 13 4, homeMember := fieldOf (q 0) 17 2,
    log2dM4 := fieldOf (q 0) 19 4, overlapM1 := fieldOf (q 0) 23 4, qClass := fieldOf (q 0) 27 2,
    attrRo := fieldOf (q 0) 29 1, attrNs := fieldOf (q 0) 30 1, tphEn := fieldOf (q 0) 31 1, tphSt := fieldOf (q 0) 32 8,
    tphPh := fieldOf (q 0) 40 2, dbGen := fieldOf (q 0) 42 8, iid := fieldOf (q 0) 50 12,
    resumeSeen := fieldOf (q 0) 62 1, abandonSeen := fieldOf (q 0) 63 1, ringBase := q 1, f := fieldOf (q 2) 0 32,
    q := fieldOf (q 2) 32 32, piSeen := fieldOf (q 3) 0 32, errIndex := fieldOf (q 3) 32 32, errCause := fieldOf (q 4) 0 8,
    errDepth := fieldOf (q 4) 8 8, errChainPos := fieldOf (q 4) 16 16, reread := fieldOf (q 4) 32 8,
    winDone := fieldOf (q 4) 40 16, nseq := fieldOf (q 4) 56 8, noticeAddr := q 5, noticeThresh := fieldOf (q 6) 0 16,
    noticeDelay := fieldOf (q 6) 16 20, pendingCnt := fieldOf (q 6) 36 16, noticeBusy := fieldOf (q 6) 52 1,
    noticeKept := fieldOf (q 6) 53 1, resumePend := fieldOf (q 6) 54 1, abandonPend := fieldOf (q 6) 55 1,
    rsv6 := fieldOf (q 6) 56 8, estCost := fieldOf (q 7) 0 32, ntcDue := fieldOf (q 7) 32 32, bytesRd := q 8,
    bytesWr := q 9, descs := fieldOf (q 10) 0 32, replays := fieldOf (q 10) 32 16, contained := fieldOf (q 10) 48 16,
    qid := fieldOf (q 11) 0 22, localQ := fieldOf (q 11) 22 15, rsv11 := fieldOf (q 11) 37 27,
    rsv12 := q 15 ++ q 14 ++ q 13 ++ q 12 }

/-- A context as a fetch takes it: reserved bits are ignored, so they read as zero (17 R503). -/
def QCtx.fetched (ws : List W64) : QCtx := { QCtx.ofWords ws with rsv6 := 0, rsv11 := 0, rsv12 := 0 }

/-- The ring depth D. -/
def QCtx.depth (c : QCtx) : Nat := 2 ^ (c.log2dM4.toNat + 4)

/-- GEN(x) of 02 R39. -/
def genOf (depth : Nat) (x : W32) : Nat := (x.toNat / depth + 1) % 256

/-- The address of the slot of free-running index x (02 R39). -/
def slotAddr (c : QCtx) (x : W32) : Nat := c.ringBase.toNat + 64 * (x.toNat % c.depth)

/-- Queue states (02 R78). -/
def qAbsent : BitVec 3 := 0
/-- IDLE. -/
def qIdle : BitVec 3 := 1
/-- ACTIVE. -/
def qActive : BitVec 3 := 2
/-- PAUSED. -/
def qPaused : BitVec 3 := 3
/-- DRAINING. -/
def qDraining : BitVec 3 := 4
/-- ERROR. -/
def qError : BitVec 3 := 5

/-- The way that holds a queue's context. -/
def wayOf (s : State) (qid : Nat) : Option Way := s.ways.find? (fun w => w.qid == qid)

/-- The resident context of a queue. -/
def ctxOf (s : State) (qid : Nat) : Option QCtx := (wayOf s qid).map (·.ctx)

/-- Ring records of a queue that are issued and not acknowledged. -/
def unackedRing (s : State) (qid : Nat) : List W32 :=
  let f := fun (u : Purpose) => match u with
    | .record q i 0 _ _ => if q = qid then some i else none
    | _ => none
  s.acc.filterMap (fun a => f a.purpose) ++ s.held.filterMap (fun h => f h.purpose)

/-- CI of 03 R130: one past the highest slot whose record and every earlier slot's are acknowledged. -/
def noticeCi (s : State) (qid : Nat) (c : QCtx) : W32 :=
  c.q - BitVec.ofNat 32 ((unackedRing s qid).foldl (fun m i => max m (c.q - i).toNat) 0)

/-- The notice word (03 R130). -/
def noticeWord (ci : W32) (c : QCtx) (nseq : Nat) : W64 :=
  let err := decide (c.state = qError)
  pack [(0, 32, ci.toNat), (32, 17, if err then (c.errIndex - ci).toNat else 0), (49, 1, flag err), (56, 8, nseq)]

/-- The next notice sequence: skipping 0 (03 R130). -/
def nseqNext (n : Nat) : Nat := if (n + 1) % 256 = 0 then 1 else (n + 1) % 256

/-! The admin notice (09 R289). -/

/-- ADM_Q_STAT.STATE: 0 DISABLED, 1 IDLE, 2 ACTIVE, 3 ERROR, 4 STOPPING. -/
def admState (s : State) : Nat := s.fld .admQStat 0 0 3

/-- The depth of the admin ring (09 R272). -/
def admDepth (s : State) : Nat := 2 ^ (min 12 (s.fld .admQCtl 0 0 4) + 4)

/-- Admin records that are issued and not acknowledged. -/
def admUnacked (s : State) : List W32 :=
  let f := fun (u : Purpose) => match u with | .admRecord i => some i | _ => none
  (s.acc.filterMap (fun a => f a.purpose) ++ s.held.filterMap (fun h => f h.purpose)).filter
    (fun i => decide ((s.adm.q - i).toNat ≤ admDepth s))

/-- CI of the admin notice (03 R130). -/
def admCi (s : State) : W32 := s.adm.q - BitVec.ofNat 32 ((admUnacked s).foldl (fun m i => max m (s.adm.q - i).toNat) 0)

/-- The admin notice's word as things stand (09 R289, 03 R130). -/
def admNoticeWord (s : State) : W64 :=
  let err := decide (admState s = 3)
  pack [(0, 32, (admCi s).toNat), (32, 17, if err then (s.rd .admErrIndex 0 - admCi s).toNat else 0), (49, 1, flag err),
    (56, 8, s.adm.nseq.toNat)]

/-- The bytes of an access as it is issued: a notice carries the CI and the ERROR state current then (03 R132); it is issued only while
its queue's context is resident (`mayGo`), or as its trigger formed it where the queue has left this member meanwhile. -/
def bytesAtIssue (s : State) (h : Held) : List Byte :=
  if !h.form then h.data
  else
    match h.purpose with
    | .notice q =>
      match ctxOf s q with
      | some c => leBytes 8 (noticeWord (noticeCi s q c) c c.nseq.toNat).toNat
      | none => h.data
    | .admNotice => leBytes 8 (admNoticeWord s).toNat
    | _ => h.data

/-- A word of a write beat: its bytes on their lanes; a word with no strobe carries zero (18 R524). What the lanes without a
strobe carry in another word is left open. -/
def beatWord (aid addr : Nat) (bs : List Byte) (w : Nat) : W64 :=
  let on := fun (i : Nat) => decide (addr ≤ w + i) && decide (w + i < addr + bs.length)
  if (List.range 8).any on then
    BitVec.ofNat 64 (leNat ((List.range 8).map (fun i => if on i then bs.getD (w + i - addr) 0 else Config.freeLane aid (w + i))))
  else 0

/-- The check bytes of the words of the beats that carry `bs` at an address (06 R213, R214, R216). -/
def beatChecks (aid addr : Nat) (bs : List Byte) : List Byte :=
  (List.range (8 * linesTouched addr bs.length)).map (fun k => secdedCheck (beatWord aid addr bs (addr / 64 * 64 + 8 * k)))

/-- A tag or write ID of a port is held or quarantined (05 R172, R173). -/
def tagTaken (s : State) (p : Nat) (w : Bool) (t : BitVec 10) : Bool :=
  s.acc.any (fun a => decide (a.port = p) && decide (a.write = w) && decide (a.tag = t)) ||
  s.quar.any (fun q => decide (q.acc.port = p) && decide (q.acc.write = w) && decide (q.acc.tag = t))

/-- A tag or write ID of a port that is free, from v on (05 R172). -/
def freshTag (s : State) (p : Nat) (w : Bool) (v : BitVec 10) : BitVec 10 :=
  (((List.range 1024).map (fun k => v + BitVec.ofNat 10 k)).find? (fun t => !tagTaken s p w t)).getD v

/-- An access is issued on port p: it takes a free tag (which of them is left open; the model's handle is the next one) and
its credits, and its ceiling starts (11 R366). `beats` are data beats that leave at once, `toSend` those that the
datapath arbiter will send. -/
def State.issueAt (s : State) (p : Nat) (h : Held) (holder : Nat) (classU : Bool) (spans : List (Nat × Nat × Nat))
    (beats toSend : Nat) : State :=
  let c := ceilingOf s p h.write h.purpose
  { s with
    acc := s.acc ++ [{ aid := s.nextAid, port := p, tag := freshTag s p h.write (Config.freeTag s.nextAid), write := h.write,
                       purpose := h.purpose, addr := h.addr, len := h.len, attrs := h.attrs, data := bytesAtIssue s h,
                       toSend := toSend, due := s.nomNs + c, ceilNs := c, expiries := h.expiries, iid := h.iid,
                       key := h.key, poisoned := false, rob := (0, 0),
                       checks := if beats = 0 then [] else beatChecks s.nextAid h.addr (bytesAtIssue s h), spans := spans, holder := holder, classU := classU }],
    nextAid := s.nextAid + 1,
    credits := takeCredit s p h.write beats }

/-- The data beats of an access pass the datapath arbiter: those of a channel's writes and records do (07 R235, 05 R564),
those of shared units, of a debug access and of a test unit do not. -/
def viaDatapath (h : Held) : Bool :=
  h.port.isSome && (match h.purpose with | .debug => false | .test _ _ => false | _ => true)

/-- Data beats of an access that leave when it is issued. -/
def beatsNow (h : Held) : Nat := if h.write && !viaDatapath h then linesTouched h.addr h.len else 0

/-- Data beats that the datapath arbiter has yet to send. -/
def beatsLater (h : Held) : Nat := if h.write && viaDatapath h then linesTouched h.addr h.len else 0

/-- An access for a queue: a member that serves no queue issues none (14 R429, R436). -/
def forQueue : Purpose → Bool
  | .slot _ _ => true | .tail _ _ => true | .parkSlot _ _ => true | .data _ _ _ => true | .table _ _ _ _ => true
  | .write _ _ _ => true | .oldWrite _ _ _ _ => true | .record _ _ _ _ _ => true | .notice _ => true | .ctxFetch _ => true
  | .ctxWriteBack _ => true | .root _ => true | .leaf _ _ => true | .doorbell _ _ _ => true | .fedCkpt => true
  | .adoptCkpt _ _ _ => true
  | _ => false

/-- The port arbiter's requester that an access comes from (07 R235); none for the emergency requester and test units. -/
def portRequester (u : Purpose) (write : Bool) : Option Nat :=
  match u with
  | .debug => none | .test _ _ => none | .witnessWrite => none | .witnessRead _ => none
  | .snap _ _ => some 6 | .trace _ => some 6
  | .notice _ => some 5 | .record _ _ _ _ ab => some (if ab then 5 else 1)
  | .root _ => some 4 | .leaf _ _ => some 4 | .doorbell _ _ _ => some 4
  | .admDoorbell => some 3 | .admSlot => some 3 | .admImage _ => some 3 | .admRecord _ => some 3 | .admNotice => some 3
  | .admCopy _ => some 3 | .errLog _ _ => some 3 | .dirtyLog _ _ => some 3
  | .ctxFetch _ => some 2 | .ctxWriteBack _ => some 2
  | _ => some (if write then 1 else 0)

/-- The admin arbiter's requester that an access comes from (07 R235): 0 ring fetch, 1 command executor, 2 dirty-log
writer. -/
def admRequester : Purpose → Option Nat
  | .admDoorbell => some 0 | .admSlot => some 0
  | .admImage _ => some 1 | .admRecord _ => some 1 | .admNotice => some 1 | .admCopy _ => some 1
  | .dirtyLog _ _ => some 2
  | _ => none

/-- An access of the admin processor: its arbiter's requesters and the error-log writer, its emergency requester (07 R235). -/
def isAdmin (u : Purpose) : Bool := (admRequester u).isSome || (match u with | .errLog _ _ => true | _ => false)

/-- The requester of an arbiter is locked out until a nominal time (07 R242). -/
def barredUntil (s : State) (a : Nat) (r : Option Nat) : Bool :=
  match r with
  | none => false
  | some i => (arbOf s a).reqs.any (fun q => q.idx == i && decide (s.nomNs < q.lockout))

/-- The port that an access asks for. -/
def heldPort (s : State) (h : Held) : Option Nat := match h.port with | some p => some p | none => portFor s h.key

/-- The member serves queues: it is neither HELD nor FENCED (14 R429), and has not fenced itself without being joined again since
(R436). -/
def serves (s : State) : Bool := decide (s.fld .fedStat 0 2 3 ≠ 3) && decide (s.fld .fedStat 0 2 3 ≠ 4) && !s.fed.fenced

/-- A write of the telemetry unit (13 R397). -/
def forTelemetry : Purpose → Bool
  | .snap _ _ => true | .trace _ => true
  | _ => false

/-- The own member number of a federation (14 FED_STAT). -/
def ownMember (s : State) : Nat := s.fld .fedStat 0 0 2

/-- The home member of a queue (14 R420). -/
def homeOf (s : State) (qid : Nat) : Nat := (assocGet s.fed.owners qid).getD (ownMember s)

/-- The queue is homed on another member. -/
def homedAway (s : State) (qid : Nat) : Bool := decide (homeOf s qid ≠ ownMember s)

/-- Port p has what an access takes, its requesters are not locked out, and its unit may issue: a member that serves no queue
nothing for a queue (14 R429, R436), the admin processor nothing in TEST (09 R279), gated telemetry nothing (13 R397), the notice
logic no notice whose queue's context it waits for (11 R566). -/
def mayGo (s : State) (h : Held) (p : Nat) : Bool :=
  hasCredit s p h.write (beatsNow h) && tagOk s p h.write h.holder h.classU && !barredUntil s p (portRequester h.purpose h.write) &&
  !barredUntil s 33 (admRequester h.purpose) && !(forQueue h.purpose && !serves s) &&
  !(isAdmin h.purpose && decide (s.mode = .test)) && !(forTelemetry h.purpose && !telOn s) &&
  (match h.purpose with | .notice q => !h.form || (ctxOf s q).isSome || !s.queues.contains q || homedAway s q | _ => true)

/-- An access of the emergency requester of a port may go: the port is not barred to it, or nothing else could take it (07
R244). -/
def debugMayGo (s : State) (p : Nat) : Bool :=
  !(arbOf s p).emBarred || !s.held.any (fun h => decide (h.purpose ≠ .debug) && decide (heldPort s h = some p) && mayGo s h p)

/-- The port on which an access can be issued now. -/
def portNow (s : State) (h : Held) : Option Nat :=
  match heldPort s h with
  | none => none
  | some p => if mayGo s h p && (decide (h.purpose ≠ .debug) || debugMayGo s p) then some p else none

/-- The first waiting access of each unit (01 R561). -/
def unitHeads : List Held → List Held
  | [] => []
  | h :: hs => h :: (unitHeads hs).filter (fun x => unitOf x.purpose != unitOf h.purpose)

/-- The waiting accesses that could be issued now. -/
def readyHeads (s : State) : List Held := (unitHeads s.held).filter (fun h => (portNow s h).isSome)

/-- The fixed priorities of the admin arbiter (07 R236). -/
def admPrio (r : Nat) : Nat := if r = 0 then 4 else if r = 1 then 5 else 3

/-- SCH_PORT_PRIO of a port's requester (07 R236). -/
def portPrio (s : State) (p r : Nat) : Nat := s.fld .schPortPrio p (3 * r) 3

/-- The admin access that has the admin arbiter (07 R235, R239, R243, R244; 11 R354): the error-log writer's where it may take
it, else that of the requester ranked first. -/
def adminPick (s : State) (hs : List Held) : Option Held :=
  let rs := hs.filterMap (fun h => admRequester h.purpose)
  match hs.find? (fun h => isAdmin h.purpose && (admRequester h.purpose).isNone) with
  | some h => if (arbOf s 33).emBarred && !rs.isEmpty then
      (bestOf s 33 admPrio rs).bind (fun r => hs.find? (fun k => decide (admRequester k.purpose = some r))) else some h
  | none => (bestOf s 33 admPrio rs).bind (fun r => hs.find? (fun k => decide (admRequester k.purpose = some r)))

/-- The port arbiter's requesters of the accesses that wait for port p. -/
def heldRequesters (s : State) (p : Nat) (hs : List Held) : List Nat :=
  ((hs.filter (fun h => decide (heldPort s h = some p))).filterMap (fun h => portRequester h.purpose h.write)).eraseDups

/-- A cluster stream whose request for a data read or write is raised at port p, and could be issued, ranks ahead of the access: the
port is the stream's (07 R239). -/
def streamAhead (s : State) (p : Nat) (h : Held) : Bool :=
  match portRequester h.purpose h.write with
  | none => false
  | some r =>
    let waits := heldRequesters s p s.held
    let streams := (raisedAt s p).filter (fun i => decide (i ≤ 1) && i != r && !waits.contains i && hasCredit s p (i == 1) 0)
    decide (bestOf s p (portPrio s p) (r :: streams) ≠ some r)

/-- The accesses that take part at their ports: those that could be issued, of the admin processor's only the one that has
the admin arbiter, and none that a cluster stream ranks ahead of. -/
def contenders (s : State) : List Held :=
  let hs := readyHeads s
  hs.filter (fun h => (!isAdmin h.purpose || decide (adminPick s hs = some h)) &&
    (match portNow s h with | some p => !streamAhead s p h | none => false))

/-- The access that port p grants among the contenders (07 R239, R243): the debug access, an access that has no requester (a
test unit's, a witness line's), else the oldest of the requester ranked first. That an access without a requester of R235 goes first,
unranked and without a round, is the model's choice (DESIGN CHOICE, log entry 48). -/
def portPick (s : State) (p : Nat) (hs : List Held) : Option Held :=
  match hs.find? (fun h => (portRequester h.purpose h.write).isNone) with
  | some h => some h
  | none => (bestOf s p (portPrio s p) (hs.filterMap (fun h => portRequester h.purpose h.write))).bind
      (fun r => hs.find? (fun h => decide (portRequester h.purpose h.write = some r)))

/-- Every unit whose first access waits has its request raised at its port's arbiter, and at the admin arbiter. -/
def State.raiseWaits (s : State) : State :=
  (unitHeads s.held).foldl (fun t h =>
    let t1 := match heldPort t h, portRequester h.purpose h.write with
      | some p, some r => t.raiseAt p r
      | _, _ => t
    match admRequester h.purpose with
    | some r => t1.raiseAt 33 r
    | none => t1) s

/-- A granted access counts its rounds: at the port's arbiter, and at the admin arbiter for the admin processor (07 R238 to
R240, R244). `hs` are the accesses that could be issued. -/
def State.countGrant (s : State) (p : Nat) (h : Held) (hs : List Held) : State :=
  let reqs := fun (ks : List Held) => (ks.filterMap (fun k => portRequester k.purpose k.write)).eraseDups
  let here := reqs (hs.filter (fun k => decide (heldPort s k = some p)))
  let s1 := match portRequester h.purpose h.write with
    | some r => s.grantAmong p r here (reqs (s.held.filter (fun k => decide (heldPort s k = some p)))) (portPrio s p)
    | none => if h.purpose = .debug then s.grantEmergency p (!here.isEmpty) else s
  let adm := (hs.filterMap (fun k => admRequester k.purpose)).eraseDups
  if isAdmin h.purpose then
    match admRequester h.purpose with
    | some r => s1.grantAmong 33 r adm (s.held.filterMap (fun k => admRequester k.purpose)) admPrio
    | none => s1.grantEmergency 33 (!adm.isEmpty)
  else s1

/-- The next access that some port grants is issued; nothing where none can be (01 R561, 07 R239). -/
def State.grantNext (s : State) : State :=
  let hs := contenders s
  match hs.head?.bind (portNow s) with
  | none => s
  | some p =>
    match portPick s p (hs.filter (fun k => decide (portNow s k = some p))) with
    | none => s
    | some h =>
      let t := s.countGrant p h (readyHeads s)
      (State.issueAt { t with held := s.held.erase h } p h h.holder h.classU [] (beatsNow h) (beatsLater h)).raiseWaits

/-- Ports grant waiting accesses, at most n of them. -/
def State.pump (s : State) : Nat → State
  | 0 => s
  | n + 1 => s.grantNext.pump n

/-- A unit asks for an access: it waits with those held, and the ports grant what they can (01 R561, 07 R239). In the FATAL
state nothing is issued (11 R350). -/
def State.service (s : State) (h : Held) : State :=
  if s.fatal then s else (State.raiseWaits { s with held := s.held ++ [h] }).pump (s.held.length + 1)

/-- Fabric ports are out of reset and out of REST (18 R519, 15 R471, R474). -/
def portsOn (s : State) : Bool :=
  decide (s.mode = .configure) || decide (s.mode = .run) || decide (s.mode = .test) ||
  (decide (s.mode = .rest) && decide (s.rd .clkGateStat 0 ≠ 0) && s.wakeAt.isSome)

/-- A port has tags or write IDs held or quarantined, or a descriptor still runs in its cluster, which finishes there (08 R263, 18
R519). -/
def portBusy (s : State) (n : Nat) : Bool :=
  s.acc.any (fun a => a.port == n) || s.quar.any (fun q => q.acc.port == n) || s.slots.any (fun x => x.clu == n)

/-- fp_active of port n rises with its cluster clock-enabled and in service, with no credits, and falls once no tag or write
ID of it is held or quarantined (18 R519); accesses that wait for a port that falls take the service port. -/
def State.refreshPort (s : State) (n : Nat) : State :=
  if portsOn s && portAvail s n then
    if s.portActive.contains n then s
    else { s with portActive := n :: s.portActive, credits := assocDel s.credits n }
  else if s.portActive.contains n && !portBusy s n then
    let move := fun (h : Held) => if h.port = some n && decide (h.purpose ≠ .debug) then { h with port := none } else h
    { s with portActive := s.portActive.filter (· != n), credits := assocDel s.credits n, held := s.held.map move }
  else s

/-- Every port. -/
def State.refreshPorts (s : State) : State := (List.range 16).foldl (fun t n => t.refreshPort n) s

/-- Every held access is offered again, once the ports' states are settled; in the FATAL state they are dropped (11 R350). -/
def State.drainHeld (s : State) : State :=
  let t := s.refreshPorts
  if t.fatal then { t with held := [] } else t.pump t.held.length

/-- A shared-unit access to be issued. -/
def mkHeld (u : Purpose) (key : Nat) (write : Bool) (addr len : Nat) (attrs : Attrs) (data : List Byte) (iid : Nat) : Held :=
  { purpose := u, key := key, write := write, addr := addr, len := len, attrs := attrs, data := data, iid := iid,
    expiries := 0, port := none, holder := 34, classU := false, form := false }

/-- The outstanding access of a handle. -/
def State.access (s : State) (aid : Nat) : Option Access := s.acc.find? (fun a => a.aid == aid)

/-- The access is answered: its tag or write ID is free (05 R172). -/
def State.dropAccess (s : State) (aid : Nat) : State := { s with acc := s.acc.filter (fun a => a.aid != aid) }

/-- The access's ceiling has expired: its tag is quarantined for twice the ceiling (05 R173). Where CLU_BEAT_CEIL expires between two
beats of a read response (18 R525), the quarantine is as long, twice the read's own ceiling: the spec names the rule R173 and leaves
open which ceiling it doubles there (DESIGN CHOICE, log entry 45). -/
def State.quarantine (s : State) (a : Access) : State :=
  { (s.dropAccess a.aid) with quar := s.quar ++ [{ acc := a, freeAt := s.nomNs + 2 * a.ceilNs }] }

/-- A read is answered: its tag is free, or quarantined where a beat that ends it with an error is not its last (18 R522). -/
def State.readEnds (s : State) (a : Access) (ans : Answer) : State :=
  if codeSeen ans.code ≠ 0 ∧ ans.last = false then s.quarantine a else s.dropAccess a.aid

/-- The ceiling of an access has passed (11 R364). -/
def expired (s : State) (a : Access) : Bool := decide (a.due ≤ s.nomNs)

/-- A shared-unit access is issued again, with one more expiry counted (11 R562). -/
def State.serviceAgain (s : State) (a : Access) (key : Nat) : State :=
  s.service { purpose := a.purpose, key := key, write := a.write, addr := a.addr, len := a.len, attrs := a.attrs,
              data := a.data, iid := a.iid, expiries := a.expiries + 1, port := if a.holder < 34 then some a.port else none,
              holder := a.holder, classU := a.classU, form := false }

/-- The key of a shared-unit access (01 R22): the one it was issued with. -/
def keyOf (a : Access) : Nat := a.key

/-- An access is issued again as it was, with no expiry counted (15 R458, 08 R267). -/
def State.reissue (s : State) (a : Access) : State :=
  let own := decide (a.holder < 34) || (match a.purpose with | .debug => true | .test _ _ => true | _ => false)
  s.service { purpose := a.purpose, key := keyOf a, write := a.write, addr := a.addr, len := a.len, attrs := a.attrs,
              data := a.data, iid := a.iid, expiries := a.expiries, port := if own then some a.port else none,
              holder := a.holder, classU := a.classU, form := false }

/-- A CORRECTED record (11 R356). -/
def correctedErr (s : State) (code domain iid qid arg0 : Nat) : State :=
  s.logErr (mkErr 0 domain code iid qid 63 0 0 arg0 0)

/-! The context cache (01 R19, R20). -/

/-- Two queues share a set (01 R19). -/
def sameSet (a b : Nat) : Bool := decide (a % 4096 = b % 4096)

/-- The queue that a command works on: that of the command with a queue of its own, MODIFY_QUEUE, DESTROY_QUEUE and MOVE_QUEUE by QID,
CREATE_QUEUE by instance and number. READ_TELEMETRY with SET 3, whose operand names a queue too, pins nothing (DESIGN CHOICE, log
entry 48). -/
def cmdQueue (s : State) (c : AdmCmd) : Option Nat :=
  let op := bits (wd c.words 0) 0 8
  if op = 0x88 then some (qbase s (bits (wd c.words 1) 0 12) + bits (wd c.words 1) 12 15)
  else if 0x89 ≤ op ∧ op ≤ 0x8B then some (bits (wd c.words 1) 0 22)
  else none

/-- A context is pinned (01 R20, 11 R566): a channel runs a descriptor of its queue, the admin processor works on it (a
queue that drains among them), or its write-back awaits an acknowledgement after an error. -/
def pinned (s : State) (qid : Nat) : Bool :=
  s.slots.any (fun x => x.qid == qid) || s.moving.any (fun x => x.2.qid == qid) || s.commitPins.contains qid ||
  (s.adm.cmd.toList ++ s.fed.remote.toList).any (fun c => decide (cmdQueue s c = some qid)) ||
  s.ways.any (fun w => w.qid == qid && (w.wbFault || decide (w.ctx.state = qDraining)))

/-- The way is the most recently used of its set (01 R19). -/
def State.touch (s : State) (qid : Nat) : State :=
  match wayOf s qid with
  | none => s
  | some w =>
    let young := fun (x : Way) =>
      if x.qid == qid then { x with age := 0 } else if x.age < w.age then { x with age := x.age + 1 } else x
    { s with ways := upd (fun x => sameSet x.qid qid) young s.ways }

/-- A resident context is replaced and its way becomes dirty. -/
def State.setCtx (s : State) (qid : Nat) (c : QCtx) : State :=
  { s with ways := upd (fun w => w.qid == qid) (fun w => { w with ctx := c, dirty := true }) s.ways }

/-- A resident context is changed by f. -/
def State.updCtx (s : State) (qid : Nat) (f : QCtx → QCtx) : State :=
  match ctxOf s qid with
  | none => s
  | some c => s.setCtx qid (f c)

/-- The counters of a queue's context change, unless telemetry is gated (13 R397, R402). -/
def State.countCtx (s : State) (qid : Nat) (f : QCtx → QCtx) : State :=
  if telOn s then (s.bankAccess qid 6).updCtx qid f else s

/-- CTX_BASE + 128 × QID (17 R502). -/
def ctxAddr (s : State) (qid : Nat) : Nat :=
  s.fld .ctxBaseLo 0 12 20 * 4096 + s.fld .ctxBaseHi 0 0 32 * 2 ^ 32 + 128 * qid

/-- A new way in the set of a queue: the lowest way number free. -/
def freeWay (s : State) (qid : Nat) : Option Nat :=
  (List.range 4).find? (fun k => !s.ways.any (fun w => sameSet w.qid qid && w.way == k))

/-- The way that a queue's set replaces next: the least recently used one that is not pinned (01 R19). -/
def victim (s : State) (qid : Nat) : Option Way :=
  leastBy (fun w => 4 - w.age) (s.ways.filter (fun w => sameSet w.qid qid && !pinned s w.qid))

/-- The ages that no valid way of a queue's set has. -/
def freeAges (s : State) (qid : Nat) : List Nat :=
  (List.range 4).filter (fun a => !s.ways.any (fun w => sameSet w.qid qid && w.age == a))

/-- The entry of the context cache that way k of a queue's set is (17 R507). -/
def wayEntry (qid k : Nat) : Nat := 1024 * (qid % 16) + 4 * (qid / 16 % 256) + k

/-- A context is placed in way k of its set, most recently used; the ways younger than the one it replaces age. -/
def State.placeWay (s : State) (qid k : Nat) (c : QCtx) (dirty : Bool) : State :=
  let was := (freeAges s qid).headD 3
  let older := upd (fun x => sameSet x.qid qid && decide (x.age < was)) (fun x => { x with age := x.age + 1 }) s.ways
  let e := wayEntry qid k
  { (s.bankAccess qid 5) with
           ways := { qid := qid, way := k, age := 0, dirty := dirty, wbFault := false, ctx := c } :: older,
           usedWays := e :: s.usedWays.filter (· != e) }

/-- A write-back of the context of a queue is under way. -/
def wbBusy (s : State) (qid : Nat) : Bool :=
  s.acc.any (fun a => a.purpose == .ctxWriteBack qid) || s.held.any (fun h => h.purpose == .ctxWriteBack qid)

/-- A fetch of the context of a queue is under way, or waits for its retry. -/
def fetchBusy (s : State) (qid : Nat) : Bool :=
  s.acc.any (fun a => a.purpose == .ctxFetch qid) || s.held.any (fun h => h.purpose == .ctxFetch qid) ||
  s.ctxRetry.any (fun r => r.1 == qid)

/-! Notices (03 R129 to R132). -/

/-- A notice of the queue waits to be issued: its issue, whenever it is, returns PENDING to 0 and carries the CI current then (03
R131, R132). -/
def noticeWaits (s : State) (qid : Nat) : Bool := s.held.any (fun h => h.form && decide (h.purpose = .notice qid))

/-- While NOTICE_ADDR is 0 PENDING holds 0, no trigger is kept, and no notice is sent: one that waits to be issued is dropped, and its
NSEQ with it (03 R129). -/
def State.addrTaken (s : State) (qid : Nat) : State :=
  match ctxOf s qid with
  | none => s
  | some c =>
    if c.noticeAddr ≠ 0 then s
    else
      let wait := noticeWaits s qid
      ({ s with held := s.held.filter (fun h => !(h.form && decide (h.purpose = .notice qid))) } : State).setCtx qid
        { c with pendingCnt := 0, noticeKept := 0, noticeBusy := if wait then 0 else c.noticeBusy, nseq := if wait then c.nseq - 1 else c.nseq }

/-- A notice trigger of a resident queue (03 R131, R132): nothing while NOTICE_ADDR is 0, or while a notice waits to be issued, which
will carry what is current then; kept while a notice is in flight; else a notice is asked for and NSEQ advances. PENDING returns to 0
here, and counts no record until the notice is issued (`State.recordAcked`), so that it is 0 once it is; that it reads 0 in between is
the model's choice (DESIGN CHOICE, log entry 48). -/
def State.noticeTrigger (s : State) (qid : Nat) : State :=
  match ctxOf s qid with
  | none => s
  | some c =>
    if c.noticeAddr = 0 || noticeWaits s qid then s
    else if c.noticeBusy = 1 then s.setCtx qid { c with noticeKept := 1 }
    else
      let n := nseqNext c.nseq.toNat
      let w := noticeWord (noticeCi s qid c) c n
      let at0 := sharedAttrs s c.iid.toNat
      ((s.setCtx qid { c with noticeBusy := 1, noticeKept := 0, nseq := BitVec.ofNat 8 n, pendingCnt := 0 }).bankAccess qid 3).service
        { mkHeld (.notice qid) qid true c.noticeAddr.toNat 8
            { at0 with tphEn := decide (c.tphEn = 1), tphSt := c.tphSt, tphPh := c.tphPh } (leBytes 8 w.toNat) c.iid.toNat with
          form := true }

/-! Fetching contexts. -/

/-- The clock of CTX runs (15 R467): else it fetches, places and writes back nothing. -/
def ctxOn (s : State) : Bool := bit (s.rd .clkGateStat 0) 22

/-- The write-back of a dirty way (01 R19); in a federation the next one of the queue is due WB_IV later (14 R422). -/
def State.writeBack (s : State) (w : Way) : State :=
  if !ctxOn s then s else
  let s1 := if s.fld .fedStat 0 2 3 = 0 then s else { s with ctxWb := assocPut s.ctxWb w.qid s.nomNs }
  let c := (ctxOf s1 w.qid).getD w.ctx
  (s1.bankAccess w.qid 5).service (mkHeld (.ctxWriteBack w.qid) w.qid true (ctxAddr s w.qid) 128 (sharedAttrs s 0)
    (bytesOfWords c.toWords) 0)

/-- The write-back of a way that is evicted: the notice of a queue with PENDING ≠ 0 goes first (17 R503). -/
def State.evict (s : State) (w : Way) : State :=
  (if w.ctx.pendingCnt = 0 then s else s.noticeTrigger w.qid).writeBack w

/-- The fetch of a context that is not resident begins, or the write-back that makes room for it; where every way of
the set is pinned nothing begins (01 R19, R20). A re-issue, `again`, is not counted in CTX_MISSES. -/
def State.fetchCtx (s : State) (qid : Nat) (again : Bool) : State :=
  let issued := s.service (mkHeld (.ctxFetch qid) qid false (ctxAddr s qid) 128 (sharedAttrs s 0) [] 0)
  let fetch := if again then issued else issued.bump .ctxMisses 0 0 32 1
  if (wayOf s qid).isSome || fetchBusy s qid || !s.queues.contains qid || !ctxOn s then s
  else if (freeWay s qid).isSome then fetch
  else
    match victim s qid with
    | some w => if !w.dirty then fetch else if wbBusy s w.qid then s else s.evict w
    | none => s

/-- The fetch of a context that is not resident begins. -/
def State.startFetch (s : State) (qid : Nat) : State := s.fetchCtx qid false

/-- Work that needs a context that is not resident waits for it (11 R566), and the fetch begins. -/
def State.awaitCtx (s : State) (qid : Nat) (w : CtxWork) : State :=
  ({ s with ctxWait := s.ctxWait ++ [(qid, w)] }).startFetch qid

/-- Fetches that wait for a way are tried again. -/
def State.pumpCtx (s : State) : State := s.ctxWait.foldl (fun t x => t.startFetch x.1) s

/-- A lookup by requester r of the context bank that finds the context resident: counted, and its way is the most recent (17
CTX_HITS). -/
def State.lookup (s : State) (qid r : Nat) : State := ((s.bump .ctxHits 0 0 32 1).touch qid).bankAccess qid r

/-- A lookup of the poller. -/
def State.hit (s : State) (qid : Nat) : State := s.lookup qid 0

/-- Notices that wait to be issued have their queues' contexts fetched where those are not resident (03 R132, 11 R566). -/
def State.fetchForNotices (s : State) : State :=
  s.held.foldl (fun t h =>
    match h.purpose with
    | .notice q => if !h.form || (ctxOf t q).isSome || !t.queues.contains q || homedAway t q || t.ctxWait.contains (q, .notice) then t
      else t.awaitCtx q .notice
    | _ => t) s

end Sys2Proof.Machine
end

