-- ==== Sys2Proof/Machine/Queues.lean ====
section
/-! DEFINITION. What the units do to a queue: its channels, readiness, ERROR with RESUME and ABANDON, draining, and the
records and notices that follow (02 R78 to R88, 03 R117 to R132, 07 R222 to R225). -/

namespace Sys2Proof.Machine

/-! Channels and deficits. -/

/-- The slots that run a descriptor of a queue. -/
def chans (s : State) (qid : Nat) : List Slot := s.slots.filter (fun x => x.qid == qid)

/-- The busy slot of a cluster and index. -/
def slotAt (s : State) (clu idx : Nat) : Option Slot := s.slots.find? (fun x => x.clu == clu && x.idx == idx)

/-- The busy slot changed by f. -/
def State.updSlot (s : State) (clu idx : Nat) (f : Slot → Slot) : State :=
  { s with slots := upd (fun x => x.clu == clu && x.idx == idx) f s.slots }

/-- A slot is retired (08 R262). -/
def slotRetired (s : State) (clu idx : Nat) : Bool :=
  if idx < 32 then bit (s.rd .cluRetired clu) idx else bit (s.rd .cluMirrorStat clu) (idx - 32)

/-- The free channels of a cluster: neither bound nor retired. -/
def freeChannels (s : State) (clu : Nat) : List Nat :=
  (List.range 32).filter (fun k => (slotAt s clu k).isNone && !slotRetired s clu k)

/-- The scheduler's state of a cluster. -/
def schedOf (s : State) (clu : Nat) : Sched :=
  (s.sched.find? (fun x => x.clu == clu)).getD { clu := clu, defs := [], weights := [], visits := [], last := [], lastQ := [], fullAt := none }

/-- The scheduler's state of a cluster replaced. -/
def State.putSched (s : State) (x : Sched) : State := { s with sched := x :: s.sched.filter (fun y => y.clu != x.clu) }

/-- DEF[i, n] (07 R223). -/
def defOf (s : State) (clu iid : Nat) : Int := (assocGet (schedOf s clu).defs iid).getD 0

/-- WEIGHT × QUANTUM × 64 B (07 R223, R225). -/
def quantum (s : State) (w : Nat) : Int := ((w * max 1 (s.fld .schDrrCtl 0 0 12) * 64 : Nat) : Int)

/-- The quantum of an instance's next new visit (07 R223). -/
def quantumOf (s : State) (iid : Nat) : Int := quantum s (weight s iid)

/-- The upper limit of DEF[i, n], by the WEIGHT and QUANTUM of the instance's last new visit there (07 R225, R230, SCH_DRR_CTL). -/
def defLimit (s : State) (clu iid : Nat) : Int :=
  match assocGet (schedOf s clu).weights iid with
  | some n => ((n * 64 : Nat) : Int)
  | none => quantumOf s iid

/-- DEF[i, n] changed by d within its limits (07 R225). -/
def State.addDef (s : State) (clu iid : Nat) (d : Int) : State :=
  let x := schedOf s clu
  let v := max (-(2 : Int) ^ 39) (min (defLimit s clu iid) (defOf s clu iid + d))
  s.putSched { x with defs := assocPut x.defs iid v }

/-- Since when the cluster has had no free channel (07 R232): noted when it loses its last one, cleared when it has one. -/
def State.noteFull (s : State) (clu : Nat) : State :=
  let x := schedOf s clu
  if (freeChannels s clu).isEmpty then (if x.fullAt.isSome then s else s.putSched { x with fullAt := some s.nomNs })
  else if x.fullAt.isSome then s.putSched { x with fullAt := none } else s

/-- A reserved line that takes data of loaf num. -/
def Lines.ofLoaf (num : Nat) (r : Lines) : Bool := !r.table && r.loaf == num

/-- The reserved lines of an index or list read whose first entry is `first`. -/
def Lines.ofTable (first : Nat) (r : Lines) : Bool := r.table && r.loaf == first

/-- The line takes bytes of a data read of loaf num. -/
def Lines.ofRead (num : Nat) (a : Access) (r : Lines) : Bool :=
  r.ofLoaf num && a.spans.any (fun sp => decide (sp.1 ≤ r.firstB) && decide (r.firstB < sp.1 + sp.2.2))

/-- Buffer lines, of the partition and of the pool, that an outstanding read of a slot holds. -/
def readHolds (x : Slot) (a : Access) : Nat × Nat :=
  let ls := x.lines.filter (fun r => match a.purpose with
    | .data _ _ num => r.ofRead num a
    | .table _ _ first _ => r.ofTable first
    | _ => false)
  ((ls.map (·.part)).sum, (ls.map (·.pool)).sum)

/-- A read whose data no one waits for any more: it keeps its tag, and its buffer lines, until it is answered (05 R172, R175, 18
R520). -/
def orphaned (x : Slot) (a : Access) : Access :=
  let p := (x.chain.map (·.pos)).getD 0
  { a with
    purpose := (match a.purpose with
      | .data _ _ _ => .oldRead x.qid x.slotIdx p (if dSrcNi x.desc then 1 else 0)
      | .table _ _ _ _ => .oldRead x.qid x.slotIdx p 2
      | _ => .oldRead x.qid x.slotIdx 0x10000 2),
    rob := readHolds x a }

/-- The slot's read accesses, whose data no one waits for any more, keep their tags until they are answered. -/
def State.orphanReads (s : State) (clu idx : Nat) : State :=
  let old := fun (a : Access) =>
    match slotAt s clu idx with
    | some x => orphaned x a
    | none => { a with purpose := Purpose.oldRead 0 0 0x10000 2 }
  let mine := fun (u : Purpose) => match u with
    | .slot c k => decide (c = clu) && decide (k = idx)
    | .tail c k => decide (c = clu) && decide (k = idx)
    | .parkSlot c k => decide (c = clu) && decide (k = idx)
    | .data c k _ => decide (c = clu) && decide (k = idx)
    | .table c k _ _ => decide (c = clu) && decide (k = idx)
    | _ => false
  { s with acc := upd (fun a => mine a.purpose) old s.acc,
           held := s.held.filter (fun h => !mine h.purpose) }

/-- A slot is free again. -/
def State.freeSlot (s : State) (clu idx : Nat) : State :=
  (({ s with slots := s.slots.filter (fun y => !(y.clu == clu && y.idx == idx)) }).noteFull clu).pumpCtx

/-- A bind ends without acceptance: its estimated cost is credited and its channel freed (07 R224). -/
def State.endBind (s : State) (x : Slot) : State :=
  ((s.addDef x.rotHome x.iid x.estCost).orphanReads x.clu x.idx).freeSlot x.clu x.idx

/-- A bind of a ring slot that has not been accepted. -/
def isEarly (x : Slot) : Bool := x.chain.isNone && (decide (x.phase = .slotRead) || decide (x.phase = .proofed))

/-- The channels of a queue whose ring slots have not been accepted. -/
def earlySlots (s : State) (qid : Nat) : List Slot := (chans s qid).filter isEarly

/-- A re-read of a running chain's descriptor (02 R70), on the channel of its LINK. -/
def chainReread (s : State) (r : Reread) : Bool :=
  (chans s r.qid).any (fun x => x.chain.isSome && decide (x.slotIdx = r.idx))

/-- Binds of a queue end, and re-reads of its ring slots that wait for their intervals are dropped with their count (02 R68,
R565; 10 R322). A running chain's re-read goes on (R81). -/
def State.endBinds (s : State) (qid : Nat) (xs : List Slot) : State :=
  let s1 := xs.foldl (fun t x => t.endBind x) s
  ({ s1 with rereads := s1.rereads.filter (fun r => r.qid != qid || chainReread s r) }).updCtx qid (fun c => { c with reread := 0 })

/-- Every bind of a queue whose ring slot has not been accepted ends (02 R68). -/
def State.discardEarly (s : State) (qid : Nat) : State := s.endBinds qid (earlySlots s qid)

/-- The early slot of index i has passed proofing, and so has every one before it from F on. -/
def passedUpTo (xs : List Slot) (f : W32) (i : W32) : Bool :=
  (List.range ((i - f).toNat + 1)).all (fun k =>
    xs.any (fun x => decide (x.slotIdx = f + BitVec.ofNat 32 k) && decide (x.phase = .proofed) && decide (x.status = 0)))

/-- The binds of a queue whose slots have not passed proofing end (02 R565, 10 R322); so do those behind such a slot, which
no acceptance in slot order can reach. -/
def State.endUnproofed (s : State) (qid : Nat) : State :=
  match ctxOf s qid with
  | none => s
  | some c =>
    let xs := earlySlots s qid
    s.endBinds qid (xs.filter (fun x => decide (xs.length < (x.slotIdx - c.f).toNat) || !passedUpTo xs c.f x.slotIdx))

/-! Readiness. -/

/-- The queue is no longer ready; its time without a bind and its promotion stay (07 R221). -/
def State.notReady (s : State) (qid : Nat) : State :=
  let bare := fun (r : Ready) => decide (r.elig = 0) && r.promoted.isNone
  let rest := s.ready.filter (fun r => r.qid != qid || !bare r)
  { s with ready := upd (fun r => r.qid == qid) (fun r => { r with live := false, resume := false }) rest }

/-- The scheduler knows nothing of the queue any more. -/
def State.forgetReady (s : State) (qid : Nat) : State := { s with ready := s.ready.filter (fun r => r.qid != qid) }

/-- The queue is ready for a bind; `resume` for the one read of a RESUME. -/
def State.addReady (s : State) (qid : Nat) (resume : Bool) : State :=
  let at' := (ctxOf s qid).map (fun c => (c.iid.toNat, c.home.toNat, c.qClass.toNat))
  if s.ready.any (fun r => r.qid == qid) then
    { s with ready := upd (fun r => r.qid == qid) (fun r => { r with live := true, resume := r.resume || resume }) s.ready }
  else
    { s with ready := s.ready ++ [{ qid := qid, live := true, iid := (at'.map (·.1)).getD 0, home := (at'.map (·.2.1)).getD 0,
                                    qClass := (at'.map (·.2.2)).getD 0, elig := 0, promoted := none, resume := resume }] }

/-- No bind for a RESUME is wanted any more. -/
def State.clearResume (s : State) (qid : Nat) : State :=
  { s with ready := upd (fun r => r.qid == qid) (fun r => { r with resume := false }) s.ready }

/-- The member whose checkpoints the resolution of an adopted queue reads, while that goes on (14 R438). -/
def adoptedFrom (s : State) (qid : Nat) : Option Nat := assocGet s.adopting qid

/-- The slots of an adopted queue are being resolved. -/
def isAdopting (s : State) (qid : Nat) : Bool := (adoptedFrom s qid).isSome

/-- An adopted queue in ERROR or DRAINING has slots left to resolve: those that had been fetched. -/
def adoptsOn (s : State) (qid : Nat) (c : QCtx) (i : W32) : Bool :=
  isAdopting s qid && (decide (c.state = qError) || decide (c.state = qDraining)) &&
  (match assocGet s.adoptStop qid with | some x => decide (i ≠ x) | none => false)

/-- mark_ready of chapter 02: an IDLE queue with unfetched slots becomes ACTIVE and is ready. An adopted queue has its slots
resolved, whatever PI_SEEN says (14 R438). -/
def State.markReady (s : State) (qid : Nat) : State :=
  match ctxOf s qid with
  | none => s
  | some c =>
    if (decide (c.state = qIdle) || decide (c.state = qActive)) && (decide (c.piSeen ≠ c.f) || isAdopting s qid) then
      { ((s.setCtx qid { c with state := qActive }).addReady qid false) with idleSince := none }
    else if adoptsOn s qid c c.f then s.addReady qid false
    else s

/-- Nothing of the queue is in flight: every fetched slot's record is issued and no slot runs a descriptor of it. -/
def nothingInFlight (s : State) (qid : Nat) (c : QCtx) : Bool :=
  decide (c.q = c.f) && (chans s qid).isEmpty && !s.moving.any (fun m => m.2.qid == qid)

/-- A queue that has become IDLE sends its notice when PENDING is not zero (03 R131). -/
def State.idleNotice (s : State) (qid : Nat) : State :=
  match ctxOf s qid with
  | none => s
  | some c => if decide (c.state = qIdle) && decide (c.pendingCnt ≠ 0) then s.noticeTrigger qid else s

/-- ACTIVE becomes IDLE when Q reaches PI_SEEN with nothing in flight (02 R79), which triggers a notice when PENDING is
not zero (03 R131). -/
def State.checkIdle (s : State) (qid : Nat) : State :=
  match ctxOf s qid with
  | none => s
  | some c =>
    if decide (c.state = qActive) && decide (c.q = c.piSeen) && !isAdopting s qid && nothingInFlight s qid c then
      ((s.setCtx qid { c with state := qIdle }).notReady qid).idleNotice qid
    else s

/-! ERROR (02 R80 to R88). -/

/-- A queue enters ERROR (02 R80, R82): the index and cause are latched, later reads discarded (R68), one record logged,
the cluster's QUEUE_ERROR source pulses, CONTAINED counts (13 R402), and the notice is sent at once. -/
def State.enterError (s : State) (qid : Nat) (idx : W32) (cause chainPos domain slot clu : Nat) : State :=
  match ctxOf s qid with
  | none => s
  | some c0 =>
    let s1 := (s.discardEarly qid).notReady qid
    let c := (ctxOf s1 qid).getD c0
    let iid := c.iid.toNat
    let s2 := s1.setCtx qid { c with state := qError, errIndex := idx, errCause := BitVec.ofNat 8 cause, errDepth := 0,
                                     errChainPos := BitVec.ofNat 16 chainPos, contained := if telOn s then c.contained + 1 else c.contained }
    let s3 := s2.logErr (mkErr 2 domain cause iid qid slot clu 0 idx.toNat chainPos)
    ((s3.pulse (8 * c.home.toNat + 2) 0).addIs3 (instCtr iid + 7) 1).noticeTrigger qid

/-- A further fault of a queue in ERROR: ERR_DEPTH increments and ERR_CAUSE takes the new cause (11 R363). -/
def State.furtherError (s : State) (qid : Nat) (cause : Nat) : State :=
  s.updCtx qid (fun c => { c with errCause := BitVec.ofNat 8 cause,
                                  errDepth := if c.errDepth = 0xFF then 0xFF else c.errDepth + 1 })

/-- An error latched while the queue drains (02 R565). -/
def State.latchError (s : State) (qid : Nat) (idx : W32) (cause chainPos : Nat) : State :=
  let s1 := s.updCtx qid (fun c => { c with errIndex := idx, errCause := BitVec.ofNat 8 cause, errChainPos := BitVec.ofNat 16 chainPos })
  { s1 with overrun := qid :: s1.overrun.filter (· != qid) }

/-- A doorbell overrun (02 R45): ERROR with ERR_INDEX = Q + D; counted in ERR_DEPTH in ERROR (11 R363); latched while
DRAINING (02 R565). -/
def State.overrunAt (s : State) (qid : Nat) (c : QCtx) : State :=
  let idx := c.q + BitVec.ofNat 32 c.depth
  if c.state = qError then s.furtherError qid 3
  else if c.state = qDraining then s.latchError qid idx 3 0
  else s.enterError qid idx 3 0 18 63 0

/-- The scheduling class of a queue (07 R219). -/
def schedClass (s : State) (c : QCtx) : Nat := max c.qClass.toNat (classCap s c.iid.toNat)

/-- The attributes of a record of a queue (05 R182). -/
def recordAttrs (s : State) (c : QCtx) (cls : BitVec 2) : Attrs :=
  { sharedAttrs s c.iid.toNat with ro := decide (c.attrRo = 1), tphEn := decide (c.tphEn = 1), tphSt := c.tphSt, tphPh := c.tphPh, cls := cls }

/-- The attributes that a queue gives its data requests, taken when a descriptor is accepted (05 R182, 09 R294). -/
def queueAttrs (s : State) (c : QCtx) (cls : BitVec 2) : Attrs :=
  { sharedAttrs s c.iid.toNat with ro := decide (c.attrRo = 1), ns := decide (c.attrNs = 1), tphEn := decide (c.tphEn = 1),
                                   tphSt := c.tphSt, tphPh := c.tphPh, cls := cls }

/-- The attributes of a slot, index or list read of a queue (05 R182). -/
def readAttrs (s : State) (c : QCtx) (cls : BitVec 2) : Attrs :=
  { sharedAttrs s c.iid.toNat with ro := decide (c.attrRo = 1), cls := cls }

/-- A finished record of a ring slot waits in the record store, and WIN_DONE shows it (17 R503). -/
def State.placeRecord (s : State) (r : Record) : State :=
  ({ s with records := s.records ++ [r] }).updCtx r.qid (fun c =>
    if r.chainPos = 0 then { c with winDone := c.winDone ||| BitVec.ofNat 16 (2 ^ (r.idx - c.q).toNat) } else c)

/-- The queue leaves ERROR for ACTIVE, is ready where it has unfetched slots, and IDLE where nothing is left (02 R79). -/
def State.leaveError (s : State) (qid : Nat) : State :=
  ((s.updCtx qid (fun c => { c with state := qActive })).markReady qid).checkIdle qid

/-- The read of a chain descriptor or tail line, by the LINK's channel with the LINK's class and attributes (05 R182). -/
def chainRead (s : State) (x : Slot) (u : Purpose) (addr : Nat) : Held :=
  let cls := effClass ((x.chain.map (·.linkDesc)).getD x.desc) (classCap s x.iid)
  let at0 := (x.chain.map (·.linkAttrs)).getD x.attrs
  { mkHeld u 0 false addr 64 { sharedAttrs s x.iid with ro := at0.ro, cls := cls } [] x.iid with
    port := some x.clu, holder := x.idx, classU := decide (cls = 0) }

/-- The channel of the LINK a descriptor of whose chain proved malformed, or is read again for a RESUME. -/
def errLink (s : State) (qid : Nat) : Option Slot :=
  (chans s qid).find? (fun x => x.chain.isSome && (decide (x.phase = .broken) || x.resumed))

/-- The read that a RESUME began ends without effect: a ring slot's bind, its re-read and its readiness, or the chain's read. -/
def State.haltResume (s : State) (qid : Nat) (c : QCtx) : State :=
  let s0 := (s.clearResume qid)
  let s1 := { s0 with rereads := s0.rereads.filter (fun r => !(r.qid == qid && decide (r.idx = c.errIndex))) }
  match errLink s1 qid with
  | some x => (s1.orphanReads x.clu x.idx).updSlot x.clu x.idx (fun y => { y with phase := .broken, resumed := false })
  | none => (earlySlots s1 qid).foldl (fun t x => t.endBind x) s1

/-- The channel of a broken LINK reads its chain descriptor again, with its re-read count at 0; for a RESUME where `resume`. -/
def State.rereadLink (s : State) (x : Slot) (resume : Bool) : State :=
  match x.chain with
  | none => s
  | some ch =>
    (s.updSlot x.clu x.idx (fun y => { y with phase := .slotRead, resumed := resume })).service
      (chainRead s x (.slot x.clu x.idx) (ch.segAddr + 64 * ch.segPos))

/-- A RESUME or ABANDON on a DB_OVERRUN (02 R84, R85): the queue leaves ERROR without a read. A read that an earlier RESUME began ends;
fetching goes on, so a LINK whose chain descriptor proved malformed before has it read again. -/
def State.leaveOverrun (s : State) (qid : Nat) (c : QCtx) : State :=
  let s1 := (s.haltResume qid c).updCtx qid (fun q => { q with reread := 0 })
  (match errLink s1 qid with | some x => s1.rereadLink x false | none => s1).leaveError qid

/-- RESUME (02 R84): the slot is read again with its re-read count at 0, on the LINK's own channel for a chain
descriptor; a DB_OVERRUN is left without a read. An earlier RESUME's read is made anew. -/
def State.resumeQ (s : State) (qid : Nat) : State :=
  match ctxOf s qid with
  | none => s
  | some c =>
    if c.errCause = 3 then s.leaveOverrun qid c
    else
      let s1 := (s.haltResume qid c).updCtx qid (fun q => { q with reread := 0 })
      match errLink s1 qid with
      | some x => s1.rereadLink x true
      | none => s1.addReady qid true

/-- The words of the last read of the slot at ERR_INDEX: those of a read that waits to be made again, where one does (03 R123). -/
def lastSlotRead (s : State) (qid : Nat) (c : QCtx) : List W64 :=
  match s.rereads.find? (fun r => r.qid == qid && decide (r.idx = c.errIndex)) with
  | some r => r.words
  | none => (assocGet s.lastSlots qid).getD []

/-- A record with no channel goes to the record store, or waits for an entry of it (17 R503). -/
def State.storeRecord (s : State) (r : Record) : State :=
  if decide (s.records.length < 1024) && s.waitRecs.isEmpty then s.placeRecord r else { s with waitRecs := s.waitRecs ++ [r] }

/-- ABANDON (02 R85, R86): the slot at ERR_INDEX is discarded, fetching goes on behind it, and its ABANDONED record
(03 R123) takes its place in the window; on a DB_OVERRUN it acts as RESUME. A LINK's chain ends with it, and the records that its
channel keeps stand. -/
def State.abandonQ (s : State) (qid : Nat) : State :=
  match ctxOf s qid with
  | none => s
  | some c =>
    if c.errCause = 3 then s.leaveOverrun qid c
    else
      let s0 := s.haltResume qid c
      let link := errLink s0 qid
      let last := match link with
        | some x => ((x.chain.map (·.linkDesc)).getD [])
        | none => lastSlotRead s qid c
      let s1 := match link with
        | some x => x.kept.foldl (fun (t : State) r => t.storeRecord r) (s0.freeSlot x.clu x.idx)
        | none => s0
      let cls := schedClass s c
      let ts : BitVec 48 := s.timebase.setWidth 48
      let words := recordWords (dOpcode last) 1 0 cls 0 false 0 (genOf c.depth c.errIndex) 0 0 ts ts 0 0 (wd last 6)
      let s2 := (s1.updCtx qid (fun x => { x with f := x.errIndex + 1, reread := 0 })).storeRecord
        { qid := qid, idx := c.errIndex, chainPos := 0, addr := slotAddr c c.errIndex, words := words, clu := 0, slot := 63,
          cls := BitVec.ofNat 2 cls, noticeNow := dNoticeNow last, abandoned := true, fetchStep := s.tbStep, doneStep := s.tbStep,
          attrs := recordAttrs s c (BitVec.ofNat 2 cls) }
      s2.leaveError qid

/-- Toggles seen on a queue that was in ERROR before the record (02 R87): recorded as pending during a quiesce (10 R325),
else acted on, ABANDON before RESUME. -/
def State.toggles (s : State) (qid : Nat) (rt at' : Bool) : State :=
  match ctxOf s qid with
  | none => s
  | some c =>
    let st := s.instState c.iid.toNat
    if 2 ≤ st ∧ st ≤ 4 then
      s.setCtx qid { c with resumePend := if rt then 1 else c.resumePend, abandonPend := if at' then 1 else c.abandonPend }
    else if at' then s.abandonQ qid
    else if rt then s.resumeQ qid
    else s

/-! Doorbell records (02 R46 to R50). -/

/-- An ignored doorbell record counts once for each read of it, unless it is all zero (02 R49, 13 R403). -/
def State.countIgnored (s : State) (iid : Nat) (rec : W64) : State :=
  if rec = 0 then s else s.addIs3 (instCtr iid + 8) 1

/-- apply_record of chapter 02 on a queue whose context is resident. -/
def State.applyRecord (s : State) (qid : Nat) (rec : W64) : State :=
  match ctxOf s qid with
  | none => s
  | some c =>
    let iid := c.iid.toNat
    if decide (c.state = qAbsent) || (decide (c.state = qDraining) && decide (c.drainTo = 1)) then s.countIgnored iid rec
    else if bits rec 56 8 ≠ c.dbGen.toNat then s.countIgnored iid rec
    else
      let wasError := decide (c.state = qError)
      let rb : BitVec 1 := BitVec.ofNat 1 (bits rec 48 1)
      let ab : BitVec 1 := BitVec.ofNat 1 (bits rec 49 1)
      let rt := decide (rb ≠ c.resumeSeen)
      let at' := decide (ab ≠ c.abandonSeen)
      let c1 := { c with resumeSeen := rb, abandonSeen := ab }
      let pi : W32 := rec.setWidth 32
      let d := (pi - c.piSeen).toNat
      let s1 := s.setCtx qid c1
      if d ≠ 0 ∧ (c.depth < d ∨ c.depth < (pi - c.q).toNat) then s1.overrunAt qid c1
      else
        let s2 := if d = 0 then s1 else s1.setCtx qid { c1 with piSeen := pi }
        let s3 := if wasError then s2.toggles qid rt at' else s2
        s3.markReady qid

/-! Draining (02 R79, R565). -/

/-- The read of a RESUME ends when its queue drains or its instance quiesces (02 R565, 10 R322). The RESUME stays pending for
the end of the quiesce (10 R325). -/
def State.stopResume (s : State) (qid : Nat) : State :=
  match ctxOf s qid with
  | none => s
  | some c =>
    let link := (errLink s qid).any (fun x => decide (x.phase ≠ .broken))
    let ring := decide (errLink s qid = none) &&
      ((earlySlots s qid).length != 0 || s.ready.any (fun r => r.qid == qid && r.resume) ||
       s.rereads.any (fun r => r.qid == qid && decide (r.idx = c.errIndex)))
    if decide (c.state = qError) && decide (c.errCause ≠ 3) && (link || ring) then
      (s.haltResume qid c).updCtx qid (fun q => { q with resumePend := 1 })
    else s

/-- A queue starts to drain toward `target` (0 PAUSED, 1 ABSENT, 2 a new home). -/
def State.startDrain (s : State) (qid target : Nat) (byQuiesce : Bool) : State :=
  let s1 := ((s.stopResume qid).endUnproofed qid).notReady qid
  let s2 := { s1 with overrun := s1.overrun.filter (· != qid) }
  s2.updCtx qid (fun c => { c with state := qDraining, drainTo := BitVec.ofNat 2 target, prior := c.state,
                                   byQuiesce := BitVec.ofNat 1 (flag byQuiesce) })

/-- IDLE or ACTIVE, by PI_SEEN ≠ F or records outstanding (02 R79). -/
def restState (c : QCtx) : BitVec 3 := if c.piSeen = c.f ∧ c.q = c.f then qIdle else qActive

/-- A queue is released from PAUSED (02 R79). -/
def State.unpause (s : State) (qid : Nat) : State :=
  ((s.updCtx qid (fun c => { c with state := restState c, byQuiesce := 0 })).markReady qid).idleNotice qid

/-! Completion records (03 R117). -/

/-- A completed slot's record: the words of 03 R117. -/
def Slot.recordWords (x : Slot) (tailClosed : Bool) : List W64 :=
  Sys2Proof.Machine.recordWords (dOpcode x.desc) x.status
    (flag (x.unsynced || x.doneUnsync) * 128 + flag (decide (x.cls.toNat ≠ dClass x.desc)) * 64 + x.detail.toNat)
    x.cls.toNat x.replays tailClosed (dTag x.desc) (dGen x.desc) (BitVec.ofNat 64 x.bytes)
    (if (dChkSel x.desc) = .none then 0 else
      if x.commits = 0 then 0 else x.fold ^^^ (dChkSel x.desc).init)
    x.fetchTs x.doneTs x.commits x.w5 (wd x.desc 6)

/-! Answered reads (06 R215, R216). -/

/-- The words of an answer that hold requested bytes and decode as `m`, each by its address. -/
def wordsMarked (m : EccMark) (addr len : Nat) (words : List (W64 × Byte)) : List Nat :=
  let first := addr % 64 / 8
  let last := (addr % 64 + len - 1) / 8
  ((List.range (last + 1 - first)).filter
    (fun i => let w := words.getD (first + i) (0, 0); decide ((secdedDecode w.1 w.2).2 = m))).map (fun i => addr / 8 * 8 + 8 * i)

/-- A read's data lands: its bytes and their state. Corrected words count in CLUn_ECC_STAT and are logged as ECC_CORR with
the site's row of R216; uncorrectable ones count. -/
def State.land (s : State) (a : Access) (words : List (W64 × Byte)) (site qid slot clu : Nat) : State × List Byte × EccMark :=
  let good := wordsMarked .corrected a.addr a.len words
  let bad := wordsMarked .uncorrectable a.addr a.len words
  let s1 := if good = [] then s else s.bump .cluEccStat a.port 0 16 good.length
  let s2 := if bad = [] then s1 else s1.bump .cluEccStat a.port 16 16 bad.length
  let s3 := good.foldl (fun t x => t.logErr (mkErr 0 (2 + a.port) 0x30 a.iid qid slot clu 0 site x)) s2
  (s3, readBytes a.addr a.len words)

/-- A read that no one waits for any more is answered: its words are checked as they land (06 R216). -/
def State.landOrphan (s : State) (a : Access) (ans : Answer) : State :=
  match a.purpose with
  | .oldRead q _ _ site => if codeSeen ans.code = 0 then (s.land a ans.words site q (min 63 a.holder) (if a.holder < 34 then a.port else 0)).1 else s
  | _ => s

/-- The block runs its data path: mode RUN, no FATAL fault, no entry into REST under
way, and the clocks of SCH and CTX not gated (15 R467). -/
def running (s : State) : Bool :=
  decide (s.mode = .run) && !s.fatal && s.rstN && decide (s.restEnter ≠ 2) && bit (s.rd .clkGateStat 0) 21 && ctxOn s

/-- A wake has come so far that the instances and the admin doorbell are read again (15 R474). -/
def waking (s : State) : Bool :=
  decide (s.mode = .rest) && !s.fatal && s.rstN && (match s.wakeAt with | some t => decide (t + 20480 ≤ s.nomNs) | none => false)

/-- The timebase is marked not synchronized (14 R433, FED_STAT.UNSYNCED). -/
def unsyncedNow (s : State) : Bool := bit (s.rd .fedStat 0) 13

end Sys2Proof.Machine
end

