-- ==== Sys2Proof/Machine/Dirty.lean ====
section
/-! DEFINITION. Dirty-page logging (10 R336 to R345). -/

namespace Sys2Proof.Machine

/-- LOG_ON of an instance. -/
def logOn (s : State) (iid : Nat) : Bool := bit (s.inst iid 13) 3

/-- The current harvest epoch. -/
def logEpoch (s : State) (iid : Nat) : Bool := bit (s.inst iid 13) 10

/-- LOG_BASE. -/
def logBase (s : State) (iid : Nat) : Nat := s.instFld iid 13 12 20 * 4096 + s.instFld iid 14 0 32 * 2 ^ 32

/-- The page of an address, in units of 4 KiB (10 R337). -/
def pageOf (big : Bool) (addr : Nat) : Nat := if big then addr / 2 ^ 21 * 512 else addr / 4096

/-- A write that carries an instance's identity is answered: its page is logged unless the filter holds it for the current
epoch (10 R336, R339, R340); a full queue drops it and sets DIRTY_OVERFLOW (R341). -/
def State.logDirty (s : State) (iid addr : Nat) : State :=
  if iid = 0 ∨ !logOn s iid then s
  else
    let big := bit (s.inst iid 13) 4
    let page := pageOf big addr
    let h := (Config.dirtyHash iid big (BitVec.ofNat 52 page)).toNat
    let key : DirtyKey := { hash := h, iid := iid, big := big, page := page, epoch := logEpoch s iid }
    if s.dirtyFilter.contains key then s
    else if 4096 ≤ s.dirtyQ.length then ((s.setInstFld iid 13 11 1 1).bump .insDlogStat 0 16 16 1).pulse 148 0
    else
      { s with dirtyQ := s.dirtyQ ++ [{ iid := iid, epoch := logEpoch s iid, big := big, page := page }],
               dirtyFilter := key :: s.dirtyFilter.filter (fun k => k.hash != h) }

/-- A write or a summary-word Swap is answered, expires, is cut off, or leaves quarantine: its page is logged (10 R336, R339). -/
def State.logPage (s : State) (a : Access) : State := if a.write || a.attrs.swap then s.logDirty a.iid a.addr else s

/-- The LOG_WR at which the previous epoch began (10 R342). -/
def epochStart (s : State) (iid : Nat) : Nat := (assocGet s.dirtyPrev (2 * iid)).getD 0

/-- DIRTY_LOG_RECORD_WRITE (10 R338, R341, R342): the oldest waiting record is written, and LOG_WR increments. -/
def execDirtyLogRecordWrite (s : State) : Out :=
  match s.dirtyQ with
  | [] => .next s
  | r :: rest =>
    if s.fatal then .next s
    else
      let n := s.instFld r.iid 15 0 32
      let size := 2 ^ s.instFld r.iid 13 5 5
      let w := pack [(0, 1, flag r.epoch), (1, 1, flag r.big), (12, 52, r.page)]
      let s1 := if size ≤ (n + 2 ^ 32 - epochStart s r.iid) % 2 ^ 32 then (s.setInstFld r.iid 13 11 1 1).pulse 148 0 else s
      let s2 := { (s1.setInst r.iid 15 (BitVec.ofNat 32 (n + 1))) with dirtyQ := rest }
      .next (s2.service (mkHeld (.dirtyLog r.iid r.epoch) r.iid true (logBase s r.iid + 8 * (n % size)) 8
        (sharedAttrs s 0) (leBytes 8 w.toNat) 0))

end Sys2Proof.Machine
end

