-- ==== Sys2Proof/Machine/FedOps.lean ====
section
/-! DEFINITION. The link layer and the membership of a federation (14 R418 to R421, R444 to R448). -/

namespace Sys2Proof.Machine

/-- FED_STAT.STATE: 0 ALONE, 1 JOINING, 2 MEMBER, 3 HELD, 4 FENCED, 5 LEAVING. -/
def fedState (s : State) : Nat := s.fld .fedStat 0 2 3

/-- The members in service (FED_STAT.IN_SERVICE), in increasing order. -/
def members (s : State) : List Nat := (List.range 4).filter (fun m => bit (s.rd .fedStat 0) (5 + m))

/-- The block belongs to a federation. -/
def federated (s : State) : Bool := decide (2 ≤ fedState s)

/-- FED_EPOCH. -/
def fedEpoch (s : State) : Nat := s.fld .fedEpoch 0 0 32

/-- This member polls the instance (14 R421). -/
def pollsInstance (s : State) (iid : Nat) : Bool :=
  if federated s then
    serves s && decide ((members s).getD (iid % max 1 (members s).length) 4 = ownMember s)
  else serves s

/-- The state of link k. -/
def linkOf (s : State) (k : Nat) : Link :=
  (s.fed.links.find? (fun l => l.num == k)).getD
    { num := k, rxOk := false, farOk := false, txSeq := 0, rxSeq := 0, unacked := [], ackOwed := false,
      far := none, waiting := [], idle := [], sel := 3, gen := prbsOnes 3 }

/-- The state of a link replaced. -/
def State.putLink (s : State) (l : Link) : State :=
  { s with fed := { s.fed with links := l :: s.fed.links.filter (fun x => x.num != l.num) } }

/-- FED_LINK_STAT[k].LSTATE: 0 down, 1 training, 2 up. -/
def lstate (s : State) (k : Nat) : Nat := s.fld .fedLinkStat k 0 2

/-- A link that leads to a member: its own link when that is up, else one through which it can be relayed, else its own
link, on which the frame waits. -/
def linkFor (s : State) (dst : Nat) : Option Nat :=
  match (List.range 3).find? (fun k => decide (lstate s k = 2) && decide ((linkOf s k).far = some dst)) with
  | some k => some k
  | none =>
    match (List.range 3).find? (fun k => decide (lstate s k = 2)) with
    | some k => some k
    | none => (List.range 3).find? (fun k => decide ((linkOf s k).far = some dst))

/-- The header beat of a frame (14 R444, R445). -/
def frameHeader (type seq ackSeq src dst : Nat) (relayed : Bool) (epoch : Nat) (fields : List (Nat × Nat × Nat))
    (payload : List (BitVec 256)) : BitVec 256 :=
  let h := packNat ([(0, 8, type), (8, 8, seq), (16, 8, ackSeq), (24, 3, payload.length), (32, 2, src), (34, 2, dst),
    (36, 1, flag relayed), (40, 32, epoch)] ++ fields)
  BitVec.ofNat 256 (h + (crc32c (leBytes 32 h ++ payload.flatMap (fun b => leBytes 32 b.toNat))).toNat * 2 ^ 224)

/-- A frame's CRC-32C and payload count are right (14 R444). -/
def frameSound (f : RawFrame) : Bool :=
  let h := f.header.toNat % 2 ^ 224
  decide (bits f.header 24 3 = f.payload.length) &&
  decide ((crc32c (leBytes 32 h ++ f.payload.flatMap (fun b => leBytes 32 b.toNat))).toNat = bits f.header 224 32)

/-- RETRY_CEIL of a link in ns. -/
def retryCeilNs (s : State) (k : Nat) : Nat := 1000 * clamp 1 1000 (s.fld .fedLinkCtl k 0 10)

/-- A frame leaves on link k now: TRAIN (1) and ACK (9) with SEQ 0 and not held, others with the next SEQ and held for
resend (14 R445, R447). It carries FED_EPOCH as it is when this member forms it; a relayed one has the EPOCH of the member that
formed it among its fields. -/
def State.emitFrame (s : State) (k type dst : Nat) (relayed : Bool) (src : Nat) (fields : List (Nat × Nat × Nat))
    (payload : List (BitVec 256)) : State :=
  let l := linkOf s k
  let plain := decide (type = 1) || decide (type = 9)
  let seq := if plain then 0 else (l.txSeq + 1) % 256
  let h := frameHeader type seq l.rxSeq src dst relayed (if relayed then 0 else fedEpoch s) fields payload
  let l1 := if plain then { l with ackOwed := false } else
    { l with ackOwed := false, txSeq := seq, unacked := l.unacked ++
        [{ seq := seq, header := h, payload := payload, due := s.nomNs + retryCeilNs s k, resends := 0 }] }
  { (s.putLink l1) with txFrames := s.txFrames ++ [(k, sealFrame h payload)] }

/-- A frame is sent on link k, or waits there while the link is down or holds 64 unacknowledged frames. -/
def State.sendFrame (s : State) (k type dst : Nat) (relayed : Bool) (src : Nat) (fields : List (Nat × Nat × Nat))
    (payload : List (BitVec 256)) : State :=
  let l := linkOf s k
  if s.fatal then s
  else if decide (type = 1) || (decide (lstate s k = 2) && decide (l.unacked.length < 64) && l.waiting.isEmpty) then
    s.emitFrame k type dst relayed src fields payload
  else s.putLink { l with waiting := l.waiting ++
      [{ type := type, dst := dst, relayed := relayed, src := src, fields := fields, payload := payload }] }

/-- A frame from this member to another. -/
def State.sendTo (s : State) (type dst : Nat) (fields : List (Nat × Nat × Nat)) (payload : List (BitVec 256)) : State :=
  match linkFor s dst with
  | some k => s.sendFrame k type dst false (ownMember s) fields payload
  | none => s

/-- Frames that wait on a link leave as long as it is up and has room. `f` bounds their number. -/
def State.pumpLink (s : State) (k : Nat) : Nat → State
  | 0 => s
  | f + 1 =>
    let l := linkOf s k
    match l.waiting with
    | [] => s
    | w :: ws =>
      if decide (lstate s k = 2) && decide (l.unacked.length < 64) && !s.fatal then
        ((s.putLink { l with waiting := ws }).emitFrame k w.type w.dst w.relayed w.src w.fields w.payload).pumpLink k f
      else s

/-- The acknowledged SEQ of a frame releases the frames held up to it. -/
def State.takeAck (s : State) (k ackSeq : Nat) : State :=
  let l := linkOf s k
  match l.unacked.findIdx? (fun t => t.seq == ackSeq) with
  | none => s
  | some i => (s.putLink { l with unacked := l.unacked.drop (i + 1) }).pumpLink k (l.waiting.length + 1)

/-- The corrected words of a frame are logged, one record each (14 R448). -/
def State.logFrameWords (s : State) (k : Nat) (raw : RawFrame) : State :=
  (List.range (frameCorrected raw)).foldl (fun t _ => t.logErr (mkErr 0 (23 + k) 0x30 0 0 63 0 0 6 k)) s

/-! Test units as the links see them (19 R555, R556). -/

/-- MODE of unit u. -/
def unitMode (s : State) (u : Nat) : Nat := s.fld .tstUnitCtl u 0 3
/-- GEN_EN of unit u. -/
def unitGen (s : State) (u : Nat) : Bool := bit (s.rd .tstUnitCtl u) 5
/-- CHK_EN of unit u. -/
def unitChk (s : State) (u : Nat) : Bool := bit (s.rd .tstUnitCtl u) 6

/-- The unit runs in its mode (19 R555, R556). -/
def unitRuns (s : State) (u : Nat) : Bool :=
  decide (s.mode = .test) && !s.fatal && bit (s.rd .tstCtl 0) 0 && (unitGen s u || unitChk s u)

/-- In far-end loopback the link sends back what it receives. -/
def farLoop (s : State) (k : Nat) : Bool := unitRuns s (16 + k) && decide (unitMode s (16 + k) = 3)

/-- What the link layer does with a frame that arrives on link k as `raw` and that its sender formed with TYPE `type`: the
state after it, and whether the frame, corrected, is to be applied here (14 R445, R447, R448). One in far-end loopback goes
back unchanged (19 R556). -/
def State.rxFrame (s : State) (k type : Nat) (raw : RawFrame) : State × Bool :=
  let f := fixedFrame raw
  if farLoop s k then ({ s with txFrames := s.txFrames ++ [(k, raw)] }, false)
  else if s.fatal || !s.rstN || decide (lstate s k = 0) || decide (s.mode = .test) || decide (frameMark raw = .uncorrectable) ||
      decide (bits f.header 0 8 ≠ type) || !frameSound f then (s, false)
  else
    let s1 := s.logFrameWords k raw
    let s2 := s1.takeAck k (bits f.header 16 8)
    if type = 1 then (s2, true)
    else if type = 9 then (s2, false)
    else
      let l := linkOf s2 k
      let seq := bits f.header 8 8
      if seq = (l.rxSeq + 1) % 256 then
        let s3 := s2.putLink { l with rxSeq := seq, ackOwed := true }
        let dst := bits f.header 34 2
        if dst = ownMember s3 || (decide (type = 2) && !bit f.header 36 && decide (dst = bits f.header 32 2)) then (s3, true)
        else if bit f.header 36 then (s3, false)
        else
          match (List.range 3).find? (fun j => decide ((linkOf s3 j).far = some dst)) with
          | some j => (s3.sendFrame j type dst true (bits f.header 32 2)
              [(40, 32, bits f.header 40 32), (72, 152, bits f.header 72 152)] f.payload, false)
          | none => (s3, false)
      else (s2.putLink { l with ackOwed := true }, false)

/-- A doorbell record goes to the home of its queue in a DOORBELL frame (14 R421); a HELD or FENCED member forwards nothing
(R429, R436). -/
def State.forwardDoorbell (s : State) (qid : Nat) (rec : W64) : State :=
  if !federated s || !serves s then s else s.sendTo 7 (homeOf s qid) [(72, 22, qid), (96, 64, rec.toNat)] []

/-- One queue's term of the ownership hash (14 R430). -/
def hashTerm (qid member : Nat) : W64 := CheckCode.crc64.of (leBytes 8 (qid + 2 ^ 24 * member))

/-- A queue's home changes, or the queue comes or goes: the hash is updated. -/
def State.flipHash (s : State) (qid member : Nat) : State :=
  { s with fed := { s.fed with hash := s.fed.hash ^^^ hashTerm qid member } }

/-! Training of the links (14 R426, R444 to R448). -/

/-- What this member knows of member m. -/
def memberOf (s : State) (m : Nat) : Member :=
  (s.fed.members.find? (fun x => x.num == m)).getD
    { num := m, heardAt := none, listedAt := none, readAt := none, witness := none, silent := false, adoptAt := none,
      epoch := 0, hash := 0, state := 0, manifest := false }

/-- That replaced. -/
def State.putMember (s : State) (x : Member) : State :=
  { s with fed := { s.fed with members := x :: s.fed.members.filter (fun y => y.num != x.num) } }

/-- The idle-beat checker of a link or the checker of a test unit is in SYNC, or not (19 R554). -/
def State.setSync (s : State) (u : Nat) (v : Bool) : State := s.setFld .tstUnitStat u 0 1 (flag v)

/-- Link k trains from the start (14 R447): its pattern begins anew, with the PRBS the register now names. -/
def State.linkTrain (s : State) (k : Nat) : State :=
  let sel := s.fld .fedLinkCtl k 10 2
  ((s.putLink { linkOf s k with rxOk := false, farOk := false, idle := [], sel := sel, gen := prbsOnes sel }).setFld .fedLinkStat k 0 2 1).setSync (16 + k) false

/-- Link k goes down, and trains again at once: counted and logged where it was up (14 R447). -/
def State.linkDown (s : State) (k : Nat) : State :=
  if lstate s k = 2 then ((s.bump .fedLinkStat k 8 8 1).logErr (mkErr 3 (23 + k) 0x4A 0 0 63 0 0 k 0)).linkTrain k
  else if lstate s k = 1 then s.linkTrain k
  else s

/-- Link k stops with its clock or with the mode (15 CLK_GATE.FL_EN, 19 R556). -/
def State.linkStop (s : State) (k : Nat) : State :=
  if lstate s k = 0 then s
  else
    let s1 := if lstate s k = 2 then s.bump .fedLinkStat k 8 8 1 else s
    ((s1.putLink { linkOf s1 k with rxOk := false, farOk := false, ackOwed := false, idle := [] }).setFld .fedLinkStat k 0 2 0).setSync (16 + k) false

/-- Link k is trained: frames not yet acknowledged are sent again, then those that wait (14 R447, 19 R559). -/
def State.linkTrained (s : State) (k : Nat) : State :=
  let l := linkOf s k
  let fresh := fun (t : TxFrame) => { t with due := s.nomNs + retryCeilNs s k, resends := 0 }
  let l1 := { l with idle := [], unacked := l.unacked.map fresh }
  let again := l.unacked.map (fun t => (k, sealFrame t.header t.payload))
  let s1 := s.putLink l1
  let s2 := { s1 with txFrames := s1.txFrames ++ again }
  (s2.setFld .fedLinkStat k 0 2 2).pumpLink k (l.waiting.length + 1)

/-- The links whose clock is enabled and whose macros are sound train (19 R548, R556). -/
def State.startLinks (s : State) : State :=
  (List.range 3).foldl (fun t k => if bit (t.rd .clkGateStat 0) (17 + k) && decide (lstate t k = 0) then t.linkTrain k else t) s

/-- Every link stops. -/
def State.stopLinks (s : State) : State := (List.range 3).foldl (fun t k => t.linkStop k) s

end Sys2Proof.Machine
end

