-- ==== Sys2Proof/Machine/AdmOps.lean ====
section
/-! DEFINITION. The admin processor (09 R272 to R293): its accesses, notices and ERROR, the end of a command with its record,
the frames of a federated command (14 R423), and the commands that wait for events of the instances (10 R322 to R345). -/

namespace Sys2Proof.Machine

/-! Admin queue 0. -/

/-- Admin queue 0 runs in CONFIGURE and in RUN (09 R279). -/
def admRuns (s : State) : Bool := (decide (s.mode = .configure) || decide (s.mode = .run)) && !s.fatal && s.rstN && decide (s.restEnter ≠ 2) &&
  bit (s.rd .clkGateStat 0) 23

/-- ADM_Q_BASE, its low bits taken as zero (09 R273). -/
def admBase (s : State) : Nat :=
  let d := 64 * admDepth s
  (s.fld .admQBaseLo 0 6 26 * 64 + s.fld .admQBaseHi 0 0 32 * 2 ^ 32) / d * d

/-- The address of an admin slot. -/
def admSlotAddr (s : State) (x : W32) : Nat := admBase s + 64 * (x.toNat % admDepth s)

/-- ADM_DB_ADDR. -/
def admDbAddr (s : State) : Nat := s.fld .admDbAddrLo 0 3 29 * 8 + s.fld .admDbAddrHi 0 0 32 * 2 ^ 32

/-- ADM_NOTICE. -/
def admNoticeAddr (s : State) : Nat := s.fld .admNoticeLo 0 3 29 * 8 + s.fld .admNoticeHi 0 0 32 * 2 ^ 32

/-- POLL_IV of the admin queue in ns. -/
def admPollNs (s : State) : Nat := 500 * min 2000000 (s.fld .admPoll 0 0 21)

/-- A memory access of the admin processor (09 R277): keyed 0, under the identity of IID 0. -/
def admAccess (s : State) (u : Purpose) (w : Bool) (addr len : Nat) (data : List Byte) : Held :=
  mkHeld u 0 w addr len (sharedAttrs s 0) data 0

/-- The admin queue's state changed. -/
def State.setAdm (s : State) (f : Adm → Adm) : State := { s with adm := f s.adm }

/-- A trigger of the admin notice (09 R289, 03 R130, R132): nothing while a notice waits to be issued, which will carry what is current
then. -/
def State.admNotice (s : State) : State :=
  if admNoticeAddr s = 0 || s.held.any (fun h => h.form && decide (h.purpose = .admNotice)) then s
  else if s.adm.noticeBusy then s.setAdm (fun a => { a with noticeKept := true })
  else
    let t := s.setAdm (fun a => { a with noticeBusy := true, noticeKept := false, nseq := BitVec.ofNat 8 (nseqNext a.nseq.toNat) })
    t.service { admAccess t .admNotice true (admNoticeAddr t) 8 (leBytes 8 (admNoticeWord t).toNat) with form := true }

/-- The admin notice is acknowledged (03 R132). -/
def State.admNoticeAcked (s : State) : State :=
  let s1 := s.setAdm (fun a => { a with noticeBusy := false })
  if s.adm.noticeKept then s1.admNotice else s1

/-- The staging area is emptied; an emptying that discards items is counted (09 R301). -/
def State.discardStaged (s : State) : State :=
  let s1 := if s.staged = [] then s else s.bump .admStageStat 0 16 16 1
  ({ s1 with staged := [] }).setFld .admStageStat 0 0 9 0

/-- A slot read under way or waiting for its interval is discarded (02 R68, R84, R85): its answer only frees its tag. -/
def State.dropAdmSlot (s : State) : State :=
  let old := fun (a : Access) => { a with purpose := Purpose.oldRead 0 0 0x10000 3 }
  { s with acc := upd (fun a => a.purpose == .admSlot) old s.acc, held := s.held.filter (fun h => h.purpose != .admSlot),
           adm := { s.adm with slotActive := false, reread := 0, rereadDue := none } }

/-- A COMMIT in progress applies nothing more: the staging area is emptied under it (09 R301). -/
def State.emptyCommit (s : State) : State :=
  match s.adm.cmd with
  | some c => if bits (wd c.words 0) 0 8 = 0x91 then { s with adm := { s.adm with cmd := some { c with stage := 1 } } } else s
  | none => s

/-- Admin queue 0 enters ERROR (09 R283, 02 R80). -/
def State.admError (s : State) (cause : Nat) (idx : W32) : State :=
  let s0 := s.dropAdmSlot.emptyCommit
  let s1 := ((s0.setFld .admQStat 0 0 3 3).setFld .admQStat 0 8 8 cause).setFld .admQStat 0 16 8 0
  let s2 := (s1.wr .admErrIndex 0 idx).discardStaged
  (s2.logErr (mkErr 2 20 cause 0 0 63 0 0 idx.toNat 0)).admNotice

/-- A further fault in ERROR (02 R84, 11 R363). -/
def State.admFurther (s : State) (cause : Nat) : State :=
  (s.setFld .admQStat 0 8 8 cause).bumpSat .admQStat 0 16 8 1

/-- Slot F is read as soon as the queue has one, no command is in progress and nothing else is being read (09 R278). -/
def State.admPump (s : State) : State :=
  let a := s.adm
  if (decide (admState s = 1) || decide (admState s = 2)) && admRuns s && a.cmd.isNone && !a.slotActive && a.rereadDue.isNone then
    if a.f ≠ a.piSeen then
      ((s.setAdm (fun x => { x with slotActive := true })).setFld .admQStat 0 0 3 2).service
        (admAccess s .admSlot false (admSlotAddr s a.f) 64 [])
    else s.setFld .admQStat 0 0 3 1
  else s

/-- The slot of a RESUME is read once, its re-read count at 0 (02 R84); the read of an earlier RESUME is discarded. -/
def State.admResume (s : State) : State :=
  let s0 := s.dropAdmSlot
  if s.fld .admQStat 0 8 8 = 3 then (s0.setFld .admQStat 0 0 3 2).admPump
  else (s0.setAdm (fun a => { a with slotActive := true })).service (admAccess s .admSlot false (admSlotAddr s s.adm.f) 64 [])

/-- The record of a slot or command of the admin queue (09 R285). -/
def State.admRecord (s : State) (idx : W32) (words : List W64) : State :=
  let s1 := s.service (admAccess s (.admRecord idx) true (admSlotAddr s idx) 64 (bytesOfWords words))
  (s1.setAdm (fun a => { a with q := idx + 1 })).wr .admLastDone 0 (idx + 1)

/-- ABANDON (02 R85): the slot at ADM_ERR_INDEX is discarded with an ABANDONED record. -/
def State.admAbandon (s : State) : State :=
  if s.fld .admQStat 0 8 8 = 3 then s.admResume
  else
    let last := s.adm.lastSlot
    let idx := s.rd .admErrIndex 0
    let ts : BitVec 48 := s.timebase.setWidth 48
    let words := recordWords (dOpcode last) 1 0 (dClass last) 0 false 0 (genOf (admDepth s) idx) 0 0 ts ts 0 0 (wd last 6)
    (((s.dropAdmSlot.admRecord idx words).setAdm (fun a => { a with f := idx + 1 })).setFld .admQStat 0 0 3 2).admPump

/-- A doorbell record of admin queue 0 is applied (09 R276; 02 R45, R49, R50, R83 to R87). -/
def State.admDoorbell (s : State) (rec : W64) : State :=
  if admState s = 0 || admState s = 4 then s
  else if bits rec 56 8 ≠ s.fld .admQCtl 0 5 8 then s.countIgnored 0 rec
  else
    let a := s.adm
    let wasError := decide (admState s = 3)
    let rb : BitVec 1 := BitVec.ofNat 1 (bits rec 48 1)
    let ab : BitVec 1 := BitVec.ofNat 1 (bits rec 49 1)
    let pi : W32 := rec.setWidth 32
    let d := (pi - a.piSeen).toNat
    let s1 := s.setAdm (fun x => { x with resumeSeen := rb, abandonSeen := ab })
    if d ≠ 0 ∧ (admDepth s < d ∨ admDepth s < (pi - a.q).toNat) then
      if wasError then s1.admFurther 3 else s1.admError 3 (a.q + BitVec.ofNat 32 (admDepth s))
    else
      let s2 := if d = 0 then s1 else s1.setAdm (fun x => { x with piSeen := pi })
      if wasError && decide (ab ≠ a.abandonSeen) then s2.admAbandon
      else if wasError && decide (rb ≠ a.resumeSeen) then s2.admResume
      else s2.admPump

/-! Commands in progress. -/

/-- The command in progress: this member's own, or another member's. -/
def cmdOf (s : State) (own : Bool) : Option AdmCmd := if own then s.adm.cmd else s.fed.remote

/-- The command in progress replaced. -/
def State.putCmd (s : State) (own : Bool) (c : Option AdmCmd) : State :=
  if own then { s with adm := { s.adm with cmd := c } } else { s with fed := { s.fed with remote := c } }

/-- Its operation code. -/
def cOp (c : AdmCmd) : Nat := bits (wd c.words 0) 0 8
/-- Bit i of FLAGS_B. -/
def cFlag (c : AdmCmd) (i : Nat) : Bool := bit (wd c.words 0) (16 + i)
/-- W1[11:0]. -/
def cIid (c : AdmCmd) : Nat := bits (wd c.words 1) 0 12
/-- W1[21:0]. -/
def cQid (c : AdmCmd) : Nat := bits (wd c.words 1) 0 22

/-- A command as it begins. -/
def newCmd (s : State) (words : List W64) (idx : W32) (sender : Option Nat) : AdmCmd :=
  { words := words, idx := idx, phase := .proofed, fetchTs := s.timebase.setWidth 48, due := 0,
    stage := 0, w1 := 0, w2 := 0, items := [], image := [], clusters := [], acks := [], bad := none,
    silent := false, sender := sender }

/-- A federated command (14 R423). -/
def isFederated (c : AdmCmd) (items : List (W64 × W64)) : Bool :=
  (decide (0x80 ≤ cOp c) && decide (cOp c ≤ 0x8B)) ||
  (decide (cOp c = 0x91) && items.any (fun i => let sp := bits i.1 32 4; decide (sp = 1) || decide (sp = 2)))

/-- The other members in service that a federated command of this member reaches: none while it is alone or HELD. -/
def fedOthers (s : State) : List Nat :=
  if fedState s = 2 ∨ fedState s = 5 then (members s).filter (fun m => m ≠ ownMember s) else []

/-- FED_EPOCH advances with a federated command that ends OK (14 R425). -/
def State.epochNext (s : State) : State := if federated s then s.wr .fedEpoch 0 (s.rd .fedEpoch 0 + 1) else s

/-- A payload beat of four words. -/
def beatOf (ws : List W64) : BitVec 256 := BitVec.ofNat 256 (leNat (bytesOfWords ws))

/-- The payload beats of a command: its slot, its image, its items (14 R446). -/
def cmdBeats (c : AdmCmd) (items : List (W64 × W64)) : List (BitVec 256) :=
  let ws := c.words ++ c.image ++ items.flatMap (fun i => [i.1, i.2])
  (chunksOf 4 (ws.length + 1) ws).map beatOf

/-- A command goes to member m in CONFIG frames. -/
def State.sendConfig (s : State) (c : AdmCmd) (items : List (W64 × W64)) (m : Nat) : State :=
  let parts := chunksOf 7 40 (cmdBeats c items)
  (parts.zipIdx).foldl (fun t p =>
    t.sendTo 5 m [(72, 16, c.idx.toNat), (88, 8, p.2), (96, 1, flag (decide (p.2 + 1 = parts.length)))] p.1) s

/-- The command's STATUS over all members: the first that is not OK, in member order (14 R423). -/
def worstStatus (s : State) (c : AdmCmd) (status detail : Nat) : Nat × Nat :=
  match c.bad with
  | none => (status, detail)
  | some (m, st, de) => if status ≠ 0 ∧ ownMember s < m then (status, detail) else (st, de)

/-- The command that another member sent has ended; the one behind it is next (14 R423). -/
def State.nextRemote (s : State) : State :=
  { s with fed := { s.fed with remote := s.fed.inbox.head?, inbox := s.fed.inbox.tail } }

/-- A command ends (09 R278, R280 to R282, R285): its record is issued, or its CONFIG_ACK sent; ADM_LAST_DONE passes it, a
queue that is stopping becomes DISABLED, and the next slot may be read. -/
def State.admEnd (s : State) (own : Bool) (status detail w1 w2 w5 : Nat) : State :=
  match cmdOf s own with
  | none => s
  | some c =>
    let fin := if c.sender.isNone then worstStatus s c status detail else (status, detail)
    let s0 := if decide (fin.1 = 0) && isFederated c c.items then s.epochNext else s
    match c.sender with
    | some m =>
      s0.nextRemote.sendTo 6 m [(72, 16, c.idx.toNat), (88, 8, status), (96, 8, detail)] []
    | none =>
      let words := recordWords (cOp c) fin.1 (128 * flag (unsyncedNow s) + fin.2) (dClass c.words) 0 false (dTag c.words)
        (genOf (admDepth s) c.idx) (BitVec.ofNat 64 w1) (BitVec.ofNat 64 w2) c.fetchTs (s.timebase.setWidth 48) 0
        (BitVec.ofNat 64 w5) (wd c.words 6)
      let s1 := s0.putCmd own none
      let s2 := if c.silent then (s1.setAdm (fun a => { a with q := c.idx + 1 })).wr .admLastDone 0 (c.idx + 1)
        else s1.admRecord c.idx words
      if admState s2 = 4 then s2.discardStaged.setFld .admQStat 0 0 3 0 else s2.admPump

/-! Instances. -/

/-- The existing queues of an instance. -/
def instQueues (s : State) (iid : Nat) : List Nat :=
  s.queues.filter (fun q => decide (qbase s iid ≤ q) && decide (q < qbase s iid + qidSpan s iid))

/-- A LINK that keeps its channel because a chain descriptor proved malformed: it waits for the repair and runs nothing. -/
def heldLink (x : Slot) : Bool := decide (x.phase = .broken)

/-- A channel runs or parks on a descriptor of the instance, or one of its descriptors waits for a place (10 R323). -/
def instRuns (s : State) (iid : Nat) : Bool :=
  s.slots.any (fun x => decide (x.iid = iid) && !heldLink x) || s.moving.any (fun m => decide (m.2.iid = iid))

/-- A finished record of the instance waits to be issued. -/
def instRecords (s : State) (iid : Nat) : Bool :=
  (s.records ++ s.waitRecs).any (fun r => (instQueues s iid).contains r.qid) || s.slots.any (fun x => decide (x.iid = iid) && decide (x.kept ≠ []))

/-- Accepted descriptors of a slot whose records are not issued: the one it runs or holds for a tail, its LINK, and those of the
records that it keeps. A LINK that waits for a repair runs nothing (02 R88). -/
def slotInFlight (x : Slot) : Nat :=
  let held := flag (x.chain.bind (·.heldRec)).isSome
  x.kept.length + (if heldLink x then 0 else flag x.chain.isSome) +
    (match x.phase with
     | .slotRead => 0 | .proofed => 0 | .finished => 0 | .broken => 0
     | .chainTail => held | .parked _ _ => held | .expired => held
     | _ => 1)

/-- Descriptors of the instance in flight: accepted, with no record issued (10 R328). -/
def instInFlight (s : State) (iid : Nat) : Nat :=
  ((s.slots.filter (fun x => decide (x.iid = iid))).map slotInFlight).sum +
  ((s.moving.filter (fun m => decide (m.2.iid = iid))).map (fun m => slotInFlight m.2)).sum +
  ((s.records ++ s.waitRecs).filter (fun r => (instQueues s iid).contains r.qid && !r.abandoned)).length

/-- A write for a queue into its instance's memory: a record, a notice, or a write of a dropped attempt. -/
def writeOfQueue (qid : Nat) (u : Purpose) : Bool :=
  match u with | .record q _ _ _ _ => q == qid | .notice q => q == qid | .oldWrite q _ _ _ => q == qid | _ => false

/-- Nothing of a DRAINING queue is in flight; toward ABSENT its writes are answered, or at their ceilings, as well (10 R347). What the
fenced member had in flight of an adopted queue is resolved first, where its instance lets it run (14 R438). -/
def drained (s : State) (qid : Nat) (c : QCtx) : Bool :=
  !(adoptsOn s qid c c.f && decide (s.instState c.iid.toNat = 1)) &&
  (chans s qid).all (fun x => heldLink x && decide (x.kept = [])) && !s.moving.any (fun m => m.2.qid == qid) &&
  !(s.records ++ s.waitRecs).any (fun r => r.qid == qid) &&
  (decide (c.drainTo ≠ 1) ||
    (!s.acc.any (fun a => writeOfQueue qid a.purpose) && !s.held.any (fun h => writeOfQueue qid h.purpose)))

/-- A queue is gone (02 R78, ABSENT). -/
def State.dropQueue (s : State) (qid : Nat) : State :=
  let home := homeOf s qid
  let s1 := (chans s qid).foldl (fun t x => (t.orphanReads x.clu x.idx).freeSlot x.clu x.idx) s
  let s2 := { s1 with
    adopting := assocDel s1.adopting qid, adoptStop := assocDel s1.adoptStop qid, adoptDone := s1.adoptDone.filter (fun x => x.1 != qid),
    ways := s1.ways.filter (fun w => w.qid != qid), queues := s1.queues.filter (· != qid),
    lastSlots := assocDel s1.lastSlots qid, overrun := s1.overrun.filter (· != qid),
    rereads := s1.rereads.filter (fun r => r.qid != qid), ctxWait := s1.ctxWait.filter (fun w => w.1 != qid),
    ctxRetry := assocDel s1.ctxRetry qid, ctxWb := assocDel s1.ctxWb qid,
    fed := { s1.fed with owners := assocDel s1.fed.owners qid } }
  (s2.forgetReady qid).flipHash qid home

/-- A queue goes to ABSENT through DRAINING (02 R79). -/
def State.startDestroy (s : State) (qid : Nat) : State :=
  match ctxOf s qid with
  | none => s
  | some c => if c.state = qDraining then s.setCtx qid { c with drainTo := 1 } else s.startDrain qid 1 false

/-- The epoch of an instance's log closes (10 R344). -/
def State.closeEpoch (s : State) (iid : Nat) : State :=
  let e := logEpoch s iid
  ({ s with closing := (iid, e) :: s.closing.filter (fun c => c.1 != iid) }).setInstFld iid 13 10 1 (flag (!e))

/-- Every record of the closing epoch is acknowledged. -/
def epochClosed (s : State) (iid : Nat) : Bool :=
  match assocGet s.closing iid with
  | none => true
  | some e =>
    !s.dirtyQ.any (fun r => r.iid == iid && r.epoch == e) && !s.acc.any (fun a => a.purpose == .dirtyLog iid e) &&
    !s.held.any (fun h => h.purpose == .dirtyLog iid e)

/-- The closed epoch's overflow is taken and cleared, the next one begins in the ring here, and the filter sweep starts
(10 R342, R344). -/
def State.epochEnd (s : State) (iid : Nat) : State :=
  let cur := (assocGet s.dirtyPrev (2 * iid + 1)).getD 0
  let n := s.instFld iid 15 0 32
  (({ s with closing := s.closing.filter (fun c => c.1 != iid), sweep := iid :: s.sweep.filter (· != iid),
             dirtyPrev := assocPut (assocPut s.dirtyPrev (2 * iid) cur) (2 * iid + 1) n }).setInstFld iid 13 11 1 0).setFld
    .insDlogStat 0 13 1 1

/-- Logging of an instance stops. -/
def State.logStops (s : State) (iid : Nat) : State :=
  if logOn s iid then (s.setInstFld iid 13 3 1 0).setFld .insStat 0 13 13 (s.fld .insStat 0 13 13 - 1) else s

/-- The telemetry counters and histograms of an instance are set to zero (13 R405). -/
def State.zeroInst (s : State) (iid : Nat) : State :=
  { s with is3 := ((s.is3.clear (instCtr iid) 16).clear (0x20000 + 64 * iid) 64).clear (0x60000 + 8 * iid) 8 }

/-- A reset or destroyed instance reaches its state (10 R333). Records of an epoch after the closed one, which no harvest reads,
are dropped with a destroyed instance's entry (DESIGN CHOICE, log entry 45). -/
def State.instanceEnd (s : State) (iid : Nat) (gone : Bool) : State :=
  let s1 := { (s.zeroInst iid) with buckets := s.buckets.filter (fun b => b.iid != iid),
                                    dirtyFilter := s.dirtyFilter.filter (fun k => k.iid != iid) }
  if gone then
    let forget := fun (x : Sched) => { x with defs := assocDel x.defs iid }
    let s2 := { s1 with
      is0 := s1.is0.clear (16 * iid) 16, pollInst := s1.pollInst.filter (fun p => p.iid != iid),
      dirtyQ := s1.dirtyQ.filter (fun r => r.iid != iid), dirtyPrev := assocDel (assocDel s1.dirtyPrev (2 * iid)) (2 * iid + 1), sched := s1.sched.map forget }
    s2.setFld .insStat 0 0 13
      (s1.fld .insStat 0 0 13 - 1)
  else s1.setInstFld iid 13 0 3 1

/-- A queue of a closing instance is taken to ABSENT, now or once its context is resident. -/
def State.closeQueue (s : State) (qid : Nat) : State :=
  if homedAway s qid then s.dropQueue qid
  else if (ctxOf s qid).isSome then s.startDestroy qid
  else s.awaitCtx qid .close

/-- The end of a closing instance: a destroyed one's comes between two polls, since no access carries its identity after the
record (10 R334, R347). -/
def State.closeEnd (s : State) (own : Bool) (c : AdmCmd) : State :=
  let iid := cIid c
  let gone := decide (cOp c = 0x85)
  if gone && s.polls.any (fun p => p.iid == iid) then s
  else (s.instanceEnd iid gone).admEnd own 0 0 c.w1.toNat 0 0

/-- RESET_INSTANCE and DESTROY_INSTANCE as far as they can go now (10 R333). Stages: 0 polls, 1 queues, 2 closing epoch, 3
filter sweep. -/
def State.closeStep (s : State) (own : Bool) (c : AdmCmd) : Nat → State
  | 0 => s
  | f + 1 =>
    let iid := cIid c
    let goOn := fun (t : State) (k : Nat) (w1 : W64) => let d := { c with stage := k, w1 := w1 }; (t.putCmd own (some d)).closeStep own d f
    if c.stage = 0 then
      if s.polls.any (fun p => p.iid == iid) then s
      else
        let qs := instQueues s iid
        goOn (qs.foldl (fun t q => t.closeQueue q) s) 1 (BitVec.ofNat 64 qs.length)
    else if c.stage = 1 then
      if (instQueues s iid) ≠ [] then s
      else if !logOn s iid then s.closeEnd own c
      else if s.sweep.contains iid then s
      else goOn (s.closeEpoch iid) 2 c.w1
    else if c.stage = 2 then
      if !epochClosed s iid then s
      else
        let ovf := s.instFld iid 13 11 1
        goOn ((((s.epochEnd iid).logStops iid).setFld .insDlogStat 0 0 12 iid).setFld .insDlogStat 0 12 1 ovf) 3 c.w1
    else if s.sweep.contains iid then s
    else s.closeEnd own c

/-- HARVEST_DIRTY_LOG and STOP_DIRTY_LOG as far as they can go now (10 R344, R345). Stages: 0 an earlier sweep, 1 records of
the closing epoch, 2 the sweep of a stop. -/
def State.harvestStep (s : State) (own : Bool) (c : AdmCmd) : Nat → State
  | 0 => s
  | f + 1 =>
    let iid := cIid c
    let goOn := fun (t : State) (d : AdmCmd) => (t.putCmd own (some d)).harvestStep own d f
    if c.stage = 0 then
      if s.sweep.contains iid then s else goOn (s.closeEpoch iid) { c with stage := 1 }
    else if c.stage = 1 then
      if !epochClosed s iid then s
      else
        let w1 := s.instFld iid 15 0 32
        let w2 := s.instFld iid 13 11 1
        let s1 := s.epochEnd iid
        if cOp c = 0x99 then s1.admEnd own 0 0 w1 w2 0
        else goOn (s1.logStops iid) { c with stage := 2, w1 := BitVec.ofNat 64 w1, w2 := BitVec.ofNat 64 w2 }
    else if s.sweep.contains iid then s
    else s.admEnd own 0 0 c.w1.toNat c.w2.toNat 0

/-- The command in progress reaches its record point if what it waits for has come about. -/
def State.admCheckOne (s : State) (own : Bool) : State :=
  match cmdOf s own with
  | none => s
  | some c =>
    if c.phase ≠ .waiting then s
    else
      let iid := cIid c
      if cOp c = 0x82 ∧ cFlag c 0 then
        if s.ctxWait.any (fun w => decide (w.2 = .release) && (instQueues s iid).contains w.1) then s
        else s.admEnd own 0 0 (instInFlight s iid) 0 0
      else if cOp c = 0x83 then
        if instRuns s iid || instRecords s iid then s
        else (s.setInstFld iid 13 0 3 3).admEnd own 0 0 c.w1.toNat c.w2.toNat 0
      else if cOp c = 0x84 ∨ cOp c = 0x85 then s.closeStep own c 6
      else if cOp c = 0x99 ∨ cOp c = 0x9A then s.harvestStep own c 6
      else s

/-- Both commands in progress. -/
def State.admCheck (s : State) : State := (s.admCheckOne true).admCheckOne false

end Sys2Proof.Machine
end

