-- ==== Sys2Proof/Machine/Admin.lean ====
section
/-! DEFINITION. Admin queue 0's doorbell, slots and records: reads, proofing (09 R283, R290), acknowledgements, ceilings. -/

namespace Sys2Proof.Machine

/-! Proofing of an admin slot (09 R283). -/

/-- Bits of W1 to W5 and W7[55:0] that a command's fields use (09 R290). -/
def admUsedBits (op : Nat) : List Nat :=
  let a := 2 ^ 64 - 1
  match op with
  | 0x80 => [0xFFF, a, 0, 0, 0, 0]
  | 0x81 => [0x1F0FFF, a, 0, 0, 0, 0]
  | 0x82 => [0xFFF, 0, 0, 0, 0, 0]
  | 0x83 => [0xFFF, 0, 0, 0, 0, 0]
  | 0x84 => [0xFFF, 0, 0, 0, 0, 0]
  | 0x85 => [0xFFF, 0, 0, 0, 0, 0]
  | 0x88 => [2 ^ 43 - 1, a, a, 0x1FFFFFFF03FFFFFF, 0, 0]
  | 0x89 => [0x3F3FFFFF, 0, a, 0x1FFFFFFF03FFFFFF, 0, 0]
  | 0x8A => [2 ^ 22 - 1, 0, 0, 0, 0, 0]
  | 0x8B => [0xF3FFFFF, 0, 0, 0, 0, 0]
  | 0x90 => [a, 0xFF, 0, 0, 0, 0]
  | 0x98 => [0x1FFF, a, 0x1F, 0, 0, 0]
  | 0x99 => [0xFFF, 0, 0, 0, 0, 0]
  | 0x9A => [0xFFF, 0, 0, 0, 0, 0]
  | 0xA0 => [a, 0x3FF, 0, 0, 0, 0]
  | 0xA8 => [a, 2 ^ 32 - 1, 0, 0, 0, 0]
  | 0xB0 => [0x73, 0, 0, 0, 0, 0]
  | 0xB8 => [2 ^ 22 - 1, 0, 0, 0, 0, 0]
  | 0xB9 => [a, 0xFFFF, 2 ^ 22 - 1, 0, 0, 0]
  | _ => [0, 0, 0, 0, 0, 0]

/-- Bits of FLAGS_B that a command uses. -/
def admUsedFlagsB (op : Nat) : Nat := if op = 0x82 ∨ op = 0x91 then 1 else if op = 0xA8 then 7 else 0

/-- A reserved bit is set (03 R91). -/
def admRsvdSet (d : List W64) : Bool :=
  let op := dOpcode d
  bit (wd d 0) 15 || decide (bits (wd d 0) 26 6 ≠ 0) || decide (bits (wd d 0) 48 8 ≠ 0) ||
  decide (bits (wd d 0) 16 8 &&& admUsedFlagsB op ≠ bits (wd d 0) 16 8) ||
  ((admUsedBits op).zip [1, 2, 3, 4, 5, 7]).any
    (fun p => let v := bits (wd d p.2) 0 (if p.2 = 7 then 56 else 64); decide (v &&& p.1 ≠ v))

/-- A field lies outside its range (09 R290). -/
def admFieldBad (d : List W64) : Bool :=
  let op := dOpcode d
  let w := fun i => wd d i
  let iid := bits (w 1) 0 12
  let queueBad := fun (take : Nat → Bool) =>
    (take 2 && decide (1000000 < bits (w 4) 0 20)) || (take 3 && decide (bits (w 4) 32 16 = 0))
  if op = 0x80 ∨ (0x82 ≤ op ∧ op ≤ 0x85) ∨ op = 0x99 ∨ op = 0x9A then decide (iid = 0)
  else if op = 0x81 then decide (bits (w 1) 16 5 = 0)
  else if op = 0x88 then queueBad (fun _ => true)
  else if op = 0x89 then decide (bits (w 1) 28 2 = 3) || queueBad (fun p => bit (w 1) (24 + p))
  else if op = 0x98 then decide (iid = 0) || decide (bits (w 3) 0 5 < 9) || decide (20 < bits (w 3) 0 5)
  else if op = 0xA8 then
    let r := signedOf 32 (w 2).toNat
    decide (bits (w 0) 16 3 = 0) || (bit (w 0) 16 && bit (w 0) 17) || decide (r < -1000000) || decide (1000000 < r)
  else if op = 0xB0 then decide (bits (w 1) 4 3 = 0)
  else if op = 0xB8 then decide (bits (w 1) 0 22 = 0) || decide (4000000 < bits (w 1) 0 22)
  else if op = 0xB9 then decide (3 < bits (w 2) 12 4) || (decide (bits (w 2) 12 4 ≠ 3) && decide (bits (w 3) 0 22 ≠ 0))
  else false

/-- An address is not aligned. -/
def admAlignBad (d : List W64) : Bool :=
  let op := dOpcode d
  let off := fun (i n : Nat) => decide ((wd d i).toNat % n ≠ 0)
  if op = 0x80 ∨ op = 0x81 then off 2 64
  else if op = 0xB9 then off 1 64
  else if op = 0x90 ∨ op = 0xA0 then off 1 16
  else if op = 0x88 then off 3 8
  else if op = 0x89 then bit (wd d 1) 24 && off 3 8
  else if op = 0x98 then off 2 4096
  else false

/-- An extent passes the end of the address space. -/
def admBoundsBad (d : List W64) : Bool :=
  let op := dOpcode d
  if op = 0x90 then decide (2 ^ 64 < (wd d 1).toNat + 16 * (bits (wd d 2) 0 8 + 1))
  else if op = 0xA0 then decide (2 ^ 64 < (wd d 1).toNat + 16 * (bits (wd d 2) 0 10 + 1))
  else if op = 0x98 then decide (2 ^ 64 < (wd d 2).toNat + 8 * 2 ^ bits (wd d 3) 0 5)
  else false

/-- The cause code of the first proofing step that an admin slot fails; 0 where it passes (09 R283). -/
def admProofCause (d : List W64) : Nat :=
  let op := dOpcode d
  if !adminOpcodes.contains op then (if (OpKind.ofCode op).isSome then 0x1A else 0x10)
  else if admRsvdSet d then 0x13
  else if decide (bits (wd d 0) 8 7 &&& 0x02 ≠ bits (wd d 0) 8 7) then 0x14
  else if admFieldBad d then 0x15
  else if admAlignBad d then 0x16
  else if admBoundsBad d then 0x18
  else 0

/-! The doorbell. -/

/-- ADMIN_DOORBELL_READ (09 R276, 15 R474): once per POLL_IV, or at once on a kick of IID 0, and during a wake. -/
def execAdminDoorbellRead (s : State) : Out :=
  let a := s.adm
  let on := decide (1 ≤ admState s) && decide (admState s ≤ 3)
  if (admRuns s || waking s) && on && !a.dbActive && (a.kick || (decide (admPollNs s ≠ 0) && decide (a.nextPoll ≤ s.nomNs))) then
    .next ((s.setAdm (fun x => { x with dbActive := true, kick := false, nextPoll := s.nomNs + admPollNs s })).service
      (admAccess s .admDoorbell false (admDbAddr s) 8 []))
  else .next s

/-- An admin access is issued again (09 R277, 11 R562), logged as ADM_MEM_CEIL. -/
def State.admAgain (s : State) (a : Access) (code : BitVec 6) : State :=
  (s.logErr (mkErr 0 20 0x37 0 0 63 0 (code.setWidth 8) a.addr 0)).serviceAgain a (keyOf a)

/-- An answered admin read: its bytes, or the read again. -/
def State.admRead (s : State) (a : Access) (ans : Answer) (k : State → List Byte → State) : State :=
  let s0 := (s.readEnds a ans).drainHeld
  if codeSeen ans.code ≠ 0 then s0.admAgain a (codeSeen ans.code)
  else
    match s0.land a ans.words 3 0 63 0 with
    | (s1, bytes, m) => if m = .uncorrectable then s1.admAgain a 0 else k s1 bytes

/-- ADMIN_DOORBELL_RESPONSE (09 R276). -/
def execAdminDoorbellResponse (aid : Nat) (ans : Answer) (s : State) : Out :=
  match s.access aid with
  | none => .next s
  | some a =>
    if a.purpose ≠ .admDoorbell ∨ s.fatal then .next s
    else .next (s.admRead a ans (fun t bytes =>
      (t.setAdm (fun x => { x with dbActive := false })).admDoorbell (BitVec.ofNat 64 (leNat bytes))))

/-! Slots. -/

/-- A slot of the admin queue is malformed. -/
def State.admMalformed (s : State) (cause : Nat) : State :=
  if admState s = 3 then s.admFurther cause else s.admError cause s.adm.f

/-- An admin slot as read (09 R277, R283; 02 R65, R67). -/
def State.admSlotRead (s : State) (ws : List W64) : State :=
  let a := s.adm
  let gen := genOf (admDepth s) a.f
  let s1 := s.setAdm (fun x => { x with slotActive := false })
  if admState s = 0 || admState s = 4 then s1
  else if dGen ws ≠ gen ∨ dSeal ws ≠ gen then
    if tornCeil s ≤ a.reread then
      ((s1.setAdm (fun x => { x with reread := 0, lastSlot := ws })).admMalformed (if dGen ws = gen then 1 else 2))
    else s1.setAdm (fun x => { x with reread := a.reread + 1, rereadDue := some (s.nomNs + admPollNs s) })
  else
    let cause := admProofCause ws
    let s2 := s1.setAdm (fun x => { x with reread := 0, lastSlot := ws })
    if cause ≠ 0 then s2.admMalformed cause
    else (s2.setAdm (fun x => { x with f := a.f + 1, cmd := some (newCmd s ws a.f none) })).setFld .admQStat 0 0 3 2

/-- ADMIN_SLOT_READ_RESPONSE (09 R277, R278, R283). -/
def execAdminSlotReadResponse (aid : Nat) (ans : Answer) (s : State) : Out :=
  match s.access aid with
  | none => .next s
  | some a =>
    if decide (a.purpose = .oldRead 0 0 0x10000 3) && !s.fatal then .next ((s.readEnds a ans).drainHeld.landOrphan a ans)
    else if a.purpose ≠ .admSlot ∨ s.fatal then .next s
    else .next (s.admRead a ans (fun t bytes => t.admSlotRead (wordsOfBytes bytes)))

/-- ADMIN_SLOT_REREAD (09 R277): one POLL_IV after an unwritten or torn slot. -/
def execAdminSlotReread (s : State) : Out :=
  match s.adm.rereadDue with
  | none => .next s
  | some t =>
    if admRuns s && decide (t ≤ s.nomNs) && decide (1 ≤ admState s) && decide (admState s ≤ 3) then
      .next ((s.setAdm (fun x => { x with rereadDue := none, slotActive := true })).service
        (admAccess s .admSlot false (admSlotAddr s s.adm.f) 64 []))
    else .next s

/-! Records and ceilings. -/

/-- An admin record or notice is given up (11 R362): logged as RECORD_LOST, and it counts as acknowledged. -/
def State.admGiveUp (s : State) (a : Access) (code : BitVec 6) : State :=
  match a.purpose with
  | .admRecord i => s.logErr (mkErr 3 20 0x46 0 0 63 0 (code.setWidth 8) i.toNat 0)
  | _ => s.logErr (mkErr 3 20 0x46 0 0 63 0 (code.setWidth 8) (leNat (a.data.take 4)) 1)

/-- ADMIN_RECORD_ACK (09 R289; 12 R374): the record is acknowledged, its source pulses, and the notice follows. -/
def execAdminRecordAck (aid : Nat) (code : BitVec 6) (s : State) : Out :=
  match s.access aid with
  | none => .next s
  | some a =>
    match a.purpose with
    | .admRecord _ =>
      if s.fatal then .next s
      else
        let s1 := (s.dropAccess aid).drainHeld
        let c := codeSeen code
        if c = 0 then .next ((s1.pulse 145 0).admNotice)
        else if codeRetryable c then .next (s1.admAgain a c)
        else .next ((s1.admGiveUp a c).admNotice)
    | _ => .next s

/-- An error-log write is given up (11 R358, R362). -/
def State.errGiveUp (s : State) (seq : W32) : State :=
  (s.loseErr seq).sEvent .errLogStat 0 (fun w => withBits w 1 1 1)

/-- An error-log write is issued again, or given up at its sixteenth expiry; its expiries are not logged (09 R277). -/
def State.errAgain (s : State) (a : Access) : State :=
  match a.purpose with
  | .errLog seq _ => if 16 ≤ a.expiries + 1 then s.errGiveUp seq else s.serviceAgain a 0
  | _ => s

/-- ADM_MEM_CEIL (09 R277, 11 R362): an access of the admin processor is issued again, its tag quarantined. -/
def execAdmMemCeil (aid : Nat) (s : State) : Out :=
  match s.access aid with
  | none => .next s
  | some a =>
    if s.fatal || !expired s a || !isAdmin a.purpose then .next s
    else
      let s1 := (s.quarantine a).drainHeld
      match a.purpose with
      | .errLog _ _ => .next (s1.errAgain a)
      | _ => .next (s1.admAgain a 0)

end Sys2Proof.Machine
end

