-- ==== Sys2Proof/Machine/EvmOps.lean ====
section
/-! DEFINITION. The event matrix as other units see it: routing words, set owners, line levels and cluster pauses
(09 R298, 12 R377 to R387). -/

namespace Sys2Proof.Machine

/-- A banked register of the event matrix. -/
def evRd (b : EvmBank) (r : Reg) (i : Nat) : W32 := b.regs.get (r.addr i) ^^^ BitVec.ofNat 32 r.reset

/-- Element l of EVM_LINE_CTL. -/
def lineCtl (b : EvmBank) (l : Nat) : Nat := bits (evRd b .evmLineCtl (l / 2)) (16 * (l % 2)) 16

/-- Element k of EVM_KICK_MAP. -/
def kickMap (b : EvmBank) (k : Nat) : Nat := bits (evRd b .evmKickMap (k / 2)) (16 * (k % 2)) 16

/-- Element j of EVM_SET_OWNER. -/
def setOwner (b : EvmBank) (j : Nat) : Nat := bits (evRd b .evmSetOwner (j / 2)) (16 * (j % 2)) 16

/-- The owner IID of event set j (12 R385). -/
def ownerOfSet (s : State) (j : Nat) : Nat := setOwner s.evm j % 4096

/-- A line is direct (12 R377, R378). -/
def lineDirect (b : EvmBank) (l : Nat) : Bool := decide (lineCtl b l / 2 ^ 13 % 2 = 1)

/-- Source n feeds line l (09 R298). -/
def feeds (b : EvmBank) (n l : Nat) : Bool := bit (b.is1.get (8 * n + l / 32)) (l % 32)

/-- Line l feeds sink k (09 R298). -/
def reaches (b : EvmBank) (l k : Nat) : Bool := bit (b.is2.get (16 * l + k / 32)) (k % 32)

/-- The lines that some word of IS1 or IS2 routes, or that EVM keeps something of, in increasing order. -/
def routedLines (s : State) : List Nat :=
  (List.range 256).filter (fun l =>
    s.evm.is2.any (fun p => p.1 / 16 == l) || s.lines.any (fun x => x.num == l) ||
    s.evm.is1.any (fun p => decide (p.1 % 8 = l / 32) && bit p.2 (l % 32)))

/-- What EVM keeps of line l. -/
def lineOf (s : State) (l : Nat) : Line :=
  (s.lines.find? (fun x => x.num == l)).getD
    { num := l, level := false, masked := false, since := 0, window := 0, defer := none }

/-- That replaced. -/
def State.putLine (s : State) (x : Line) : State := { s with lines := x :: s.lines.filter (fun y => y.num != x.num) }

/-- The level of line l that reaches sinks: a masked line's reaches none (12 R389). -/
def lineHigh (s : State) (l : Nat) : Bool := (lineOf s l).level && !(lineOf s l).masked

/-- Cluster n has an asserted pause request (12 R380, R36): a synchronous line that feeds sink 496 + n is high. -/
def clusterPaused (s : State) (n : Nat) : Bool :=
  s.lines.any (fun x => x.level && !x.masked && !lineDirect s.evm x.num && reaches s.evm x.num (496 + n))

/-- WAIT flag f (12 R383). -/
def waitFlag (s : State) (f : Nat) : Bool := bit (s.rd .evmWflag (f / 16)) (f % 16)

/-- WAIT flag f takes a value. -/
def State.putWaitFlag (s : State) (f : Nat) (v : Bool) : State := s.setFld .evmWflag (f / 16) (f % 16) 1 (flag v)

/-- A line sets WAIT flag f (12 R383). -/
def State.setWaitFlag (s : State) (f : Nat) : State :=
  { s.putWaitFlag f true with flagSets := (f, s.nomNs) :: s.flagSets.filter (fun p => p.1 != f && p.2 == s.nomNs) }

/-- WAIT flag f is held at 1 by the level of a direct line (12 R383). -/
def flagHeld (s : State) (f : Nat) : Bool :=
  s.lines.any (fun x => x.level && !x.masked && lineDirect s.evm x.num && reaches s.evm x.num (432 + f))

/-- A WAIT with CLEAR_FLAG clears flag f (03 R113); a direct line that is high holds it (12 R383). -/
def State.clearWaitFlag (s : State) (f : Nat) : State := if flagHeld s f then s else s.putWaitFlag f false

/-- A write of word i of EVM_WFLAG has been made: a flag that a line set in the same EVM cycle stays set (12 R383). Which commands
fall in one EVM cycle, of those between two ticks, is the model's choice: all of them do (DESIGN CHOICE, log entry 48). -/
def State.setsWin (s : State) (i : Nat) : State :=
  (s.flagSets.filter (fun p => decide (p.1 / 16 = i) && p.2 == s.nomNs)).foldl (fun t p => t.putWaitFlag p.1 true) s

end Sys2Proof.Machine
end

