-- ==== Sys2Proof/Machine/Arb.lean ====
section
/-! DEFINITION. The common arbiter (07 R235 to R245): ranking, wait counters, forced wins, and cut-offs. -/

namespace Sys2Proof.Machine

/-- The port arbiter grants requester w, a cluster stream, against the others that take part: the operand's, and those of accesses that
could be issued. Requests of accesses that could not, and of those locked out, stay raised. -/
def State.portGrant (s : State) (p w : Nat) (losers : List Nat) : Option State :=
  let out := fun (r : Nat) => lockedOut s p (reqOf (arbOf s p) r)
  let others := (losers ++ heldRequesters s p (readyHeads s)).eraseDups.filter (fun r => r != w)
  s.arbGrant p w (w :: others.filter (fun r => !out r)) (heldRequesters s p s.held ++ others.filter out) (portPrio s p)
    (fun _ => (arbOf s p).round)

/-- A requester is cut off: locked out for PENALTY and counted (07 R242). `ps` is the picoseconds of a cycle of the arbiter's
domain. -/
def State.cutOff (s : State) (a r ps : Nat) : State :=
  let x := arbOf s a
  let q := reqOf x r
  let until_ := if a < 34 then s.nomNs + (penalty s a * ps + 999) / 1000 else penalty s a
  let s1 := s.putArb (x.putReq { q with lockout := until_ })
  if a < 34 then s1.bump .schArbStat a 16 16 1 else s1.bump .cluDpaStat (a - 34) 16 16 1

end Sys2Proof.Machine
end

