-- ==== Sys2Proof/Machine/Poll.lean ====
section
/-! DEFINITION. The poller (02 R55 to R64): polls of instances, summary words, doorbell lines, and the records they bring. -/

namespace Sys2Proof.Machine

/-- Polls begin: the block is in RUN, or wakes and 20.48 µs have passed since the wake cause (15 R474). -/
def pollsOn (s : State) : Bool := (running s && decide (s.modeNext ≠ some .configure)) || waking s

/-- What the poller keeps of an instance. -/
def pollOf (s : State) (iid : Nat) : PollInst :=
  (s.pollInst.find? (fun p => p.iid == iid)).getD
    { iid := iid, nextDue := none, fullDue := false, kept := false, keptDbg := false, fell := none }

/-- That replaced. -/
def State.putPoll (s : State) (p : PollInst) : State := { s with pollInst := p :: s.pollInst.filter (fun x => x.iid != p.iid) }

/-- An instance's next poll has fallen due, at nominal time t, if it had not already (02 R63, 07 R238). -/
def fallDue (s : State) (t : Nat) (p : PollInst) : PollInst :=
  if p.fell.isSome then p else { p with fell := some (t, (arbOf s 32).round) }

/-- The instance falls due at once (02 R63). -/
def State.dueNow (s : State) (iid : Nat) : State := s.putPoll (fallDue s s.nomNs { pollOf s iid with nextDue := some s.nomNs })

/-- Intervals that have passed: their polls fall due (02 R63). -/
def State.pollsFallDue (s : State) : State :=
  let one := fun (p : PollInst) =>
    match p.nextDue with
    | some t => if t ≤ s.nomNs ∧ pollIv s p.iid ≠ 0 then fallDue s t p else p
    | none => p
  { s with pollInst := s.pollInst.map one }

/-- Its next poll is a full scan (02 R60). -/
def State.fullScanNext (s : State) (iid : Nat) : State := s.putPoll { pollOf s iid with fullDue := true }

/-- The poll in progress of an instance. -/
def pollIn (s : State) (iid : Nat) : Option Poll := s.polls.find? (fun p => p.iid == iid)

/-- A free poll engine; the poller has sixteen (07 R235). -/
def freeEngine (s : State) : Option Nat := (List.range 16).find? (fun e => !s.polls.any (fun p => p.engine == e))

/-- A poll of the instance may begin (02 R63; 10 R320; 14 R421). -/
def canPoll (s : State) (iid : Nat) : Bool :=
  pollsOn s && decide (s.instState iid ≠ 0) && (pollIn s iid).isNone && (freeEngine s).isSome && pollsInstance s iid

/-- When the instance's next poll fell due, and the arbiter's round then. -/
def pollDue (s : State) (p : PollInst) : Option (Nat × Nat) :=
  match p.fell with
  | some x => some x
  | none =>
    let now := some (s.nomNs, (arbOf s 32).round)
    let timed := match p.nextDue with | some t => decide (t ≤ s.nomNs) && decide (pollIv s p.iid ≠ 0) | none => false
    if timed || p.kept then now else none

/-- The polls that may begin and fell due before the instance's. -/
def pollsAhead (s : State) (iid : Nat) : Nat :=
  let before := fun (a b : Option (Nat × Nat)) => match a, b with | some x, some y => decide (x.1 < y.1) | _, _ => false
  (s.pollInst.filter (fun q => decide (q.iid ≠ iid) && canPoll s q.iid && before (pollDue s q) (pollDue s (pollOf s iid)))).length

/-- An engine is left for the instance's due poll: those that fell due earlier go first (02 R64). -/
def mayBegin (s : State) (iid : Nat) : Bool :=
  canPoll s iid && (pollDue s (pollOf s iid)).isSome &&
  decide (pollsAhead s iid < ((List.range 16).filter (fun e => !s.polls.any (fun p => p.engine == e))).length)

/-- A poll begins: its mode is the one in force, and it is a full scan when one is due, as after a change of the mode (02 R59,
R60). Its stamp is the round at which it fell due (07 R238). The next one falls due an effective interval later (R63). -/
def State.beginPoll (s : State) (iid : Nat) (dbg : Bool) : State :=
  match freeEngine s with
  | none => s
  | some e =>
    let p := pollOf s iid
    let s1 := s.putPoll { p with nextDue := if pollIv s iid = 0 then none else some (s.nomNs + effInterval s iid),
                                 fullDue := false, kept := false, keptDbg := false, fell := none }
    { s1 with polls := s1.polls ++ [{ iid := iid, engine := e, scan := scanMode s, full := p.fullDue,
                                      stamp := ((pollDue s p).map (·.2)).getD (arbOf s 32).round, waiting := [.root iid],
                                      active := 0, failed := false, debug := dbg }] }

/-- A kick of an instance: it is polled at once, or the kick is kept for the end of the poll in progress (02 R63). -/
def State.kickInst (s : State) (iid : Nat) (dbg : Bool) : State :=
  if s.instState iid = 0 then s
  else
    let p := pollOf s iid
    let q := { p with kept := true, keptDbg := p.keptDbg || dbg }
    let s1 := s.putPoll (if (pollIn s iid).isSome then q else fallDue s s.nomNs q)
    if mayBegin s1 iid then s1.beginPoll iid (p.keptDbg || dbg) else s1

/-- POLL_DUE (02 R63): the effective interval has passed, or a kept kick is released. -/
def execPollDue (iid : Nat) (s : State) : Out :=
  if 4096 ≤ iid then .fault .noSuchUnit
  else if mayBegin s iid then .next (s.beginPoll iid (pollOf s iid).keptDbg) else .next s

/-! Accesses. -/

/-- The access of a poll. -/
def pollAccess (s : State) (p : Poll) (u : Purpose) : Held :=
  let at0 := sharedAttrs s p.iid
  match u with
  | .leaf _ k => mkHeld u p.iid false (sumBase s p.iid + 64 + 8 * k) 8 { at0 with swap := !p.scan } [] p.iid
  | .doorbell _ k j => mkHeld u p.iid false (dbBase s p.iid + 4096 * k + 64 * j) 64 at0 [] p.iid
  | _ => mkHeld u p.iid false (sumBase s p.iid) 8 { at0 with swap := !p.scan } [] p.iid

/-- A poll changed. -/
def State.updPoll (s : State) (iid : Nat) (f : Poll → Poll) : State :=
  { s with polls := upd (fun p => p.iid == iid) f s.polls }

/-- POLL_ACCESS_ISSUE (02 R64; 07 R235): with the budget positive and the poll-issue arbiter's grant, the poll's next
waiting access is issued and charged. A debug trigger's poll is the emergency requester, and is not charged (17 R505). -/
def execPollAccessIssue (iid : Nat) (s : State) : Out :=
  if 4096 ≤ iid then .fault .noSuchUnit
  else if s.fatal then .next s
  else
    match pollIn s iid with
    | none => .next s
    | some p =>
      match p.waiting with
      | [] => .next s
      | u :: us =>
        let h := pollAccess s p u
        let cands := (s.polls.filter (fun q => !q.debug && decide (q.waiting ≠ []) &&
          !lockedOut s 32 (reqOf (arbOf s 32) q.engine))).map (·.engine)
        let stampOf := fun e => ((s.polls.find? (fun q => q.engine == e)).map (·.stamp)).getD 0
        if (portNow s h).isNone || (!p.debug && decide (s.pollBudget ≤ 0)) then .next s
        else
          let granted :=
            if p.debug then
              if !(arbOf s 32).emBarred || cands.isEmpty then
                let x := arbOf s 32
                some (s.putArb { x with emBarred := !cands.isEmpty })
              else none
            else if !cands.contains p.engine then none
            else s.arbGrant 32 p.engine cands [] (fun _ => 4) stampOf
          match granted with
          | none => .next s
          | some t =>
            .next (({ t with pollBudget := if p.debug then t.pollBudget else t.pollBudget - 1000 * (h.len : Int) }.updPoll iid
              (fun q => { q with waiting := us, active := q.active + 1 })).service h)

/-- The poll has nothing left: it ends, and a failed one makes the next a full scan. -/
def State.settlePoll (s : State) (iid : Nat) : State :=
  match pollIn s iid with
  | none => s
  | some p =>
    if p.active = 0 ∧ p.waiting = [] then
      let s0 := { (s.dropRequest 32 p.engine) with polls := s.polls.filter (fun q => q.iid != iid) }
      let s1 := if (pollOf s iid).kept then s0.putPoll (fallDue s s.nomNs (pollOf s iid)) else s0
      (if p.failed then s1.fullScanNext iid else s1).admCheck
    else s

/-- One access of a poll has come to its end, with more accesses put in front of those waiting. -/
def State.pollStep (s : State) (iid : Nat) (more : List Purpose) : State :=
  (s.updPoll iid (fun q => { q with active := q.active - 1, waiting := if q.failed then [] else more ++ q.waiting })).settlePoll iid

/-- An access of a poll failed: the poll ends, its engine asks for no further access (07 R240), and the next is a full scan (02 R58,
R60). -/
def State.pollFail (s : State) (iid : Nat) : State :=
  let t := match pollIn s iid with | some p => s.dropRequest 32 p.engine | none => s
  (t.updPoll iid (fun q => { q with active := q.active - 1, waiting := [], failed := true })).settlePoll iid

/-- An answer that ends a poll access without data: retryable, as an expiry (0x32), or not (0x45). -/
def State.pollError (s : State) (a : Access) (code : BitVec 6) : State :=
  let s1 := if codeRetryable code then s.logErr (mkErr 0 18 0x32 a.iid 0 63 0 (code.setWidth 8) a.addr 0)
    else s.logErr (mkErr 3 18 0x45 a.iid 0 63 0 (code.setWidth 8) a.addr code.toNat)
  s1.pollFail a.iid

/-- The doorbell line of a full scan holds the record of an existing queue. -/
def lineHasQueue (s : State) (iid k j : Nat) : Bool :=
  (List.range 8).any (fun r => decide (512 * k + 8 * j + r < qidSpan s iid) && s.queues.contains (qbase s iid + 512 * k + 8 * j + r))

/-- An answered poll access: its bytes, or the error's effect. -/
def State.pollAnswer (s : State) (a : Access) (ans : Answer) (k : State → List Byte → State) : State :=
  let s0 := (s.readEnds a ans).drainHeld
  let s1 := s0.logPage a
  let code := codeSeen ans.code
  if code ≠ 0 then s1.pollError a code
  else
    match s1.land a ans.words 3 0 63 0 with
    | (s2, bytes, m) =>
      if m = .uncorrectable then (s2.logErr (mkErr 0 18 0x32 a.iid 0 63 0 0 a.addr 0)).pollFail a.iid
      else k s2 bytes

/-- A response to a Swap that comes after its ceiling, its tag in quarantine: it is discarded, and its page is logged (05 R173, 10
R339). -/
def State.lateSwap (s : State) (aid : Nat) : State :=
  match s.quar.find? (fun q => q.acc.aid == aid) with
  | some q => if s.fatal || !q.acc.attrs.swap then s else s.logPage q.acc
  | none => s

/-- ROOT_SWAP_RESPONSE (02 R55, R56, R60): a leaf access for each set root bit, or for every leaf of a full scan. -/
def execRootSwapResponse (aid : Nat) (ans : Answer) (s : State) : Out :=
  match s.access aid with
  | none => .next (s.lateSwap aid)
  | some a =>
    match a.purpose with
    | .root iid =>
      if s.fatal then .next s
      else
        .next (s.pollAnswer a ans (fun t bytes =>
          let root := BitVec.ofNat 64 (leNat bytes)
          let full := ((pollIn t iid).map (·.full)).getD false
          t.pollStep iid (((List.range 64).filter (fun k => full || bit root k)).map (fun k => .leaf iid k))))
    | _ => .next s

/-- LEAF_SWAP_RESPONSE (02 R55, R56, R60): a line read for each set leaf bit, or for every line that holds the record of an
existing queue in a full scan. -/
def execLeafSwapResponse (aid : Nat) (ans : Answer) (s : State) : Out :=
  match s.access aid with
  | none => .next (s.lateSwap aid)
  | some a =>
    match a.purpose with
    | .leaf iid k =>
      if s.fatal then .next s
      else
        .next (s.pollAnswer a ans (fun t bytes =>
          let leaf := BitVec.ofNat 64 (leNat bytes)
          let full := ((pollIn t iid).map (·.full)).getD false
          t.pollStep iid (((List.range 64).filter (fun j => bit leaf j || (full && lineHasQueue t iid k j))).map
            (fun j => .doorbell iid k j))))
    | _ => .next s

/-- The record of a queue of this member is applied, at once or when its context is resident (02 R50; 11 R566). -/
def State.takeRecord (s : State) (qid : Nat) (rec : W64) : State :=
  if (ctxOf s qid).isSome then (s.hit qid).applyRecord qid rec else s.awaitCtx qid (.doorbell rec)

/-- One record of a doorbell line of an instance: ignored where its local number has no queue (02 R49), sent to the member
that runs its queue (14 R421), or applied. -/
def State.lineRecord (s : State) (iid q : Nat) (rec : W64) : State :=
  let qid := qbase s iid + q
  if !decide (q < qidSpan s iid) || !s.queues.contains qid then s.countIgnored iid rec
  else if homedAway s qid then s.forwardDoorbell qid rec
  else s.takeRecord qid rec

/-- DOORBELL_LINE_READ_RESPONSE (02 R49, R50): each of the eight records in turn. -/
def execDoorbellLineReadResponse (aid : Nat) (ans : Answer) (s : State) : Out :=
  match s.access aid with
  | none => .next s
  | some a =>
    match a.purpose with
    | .doorbell iid k j =>
      if s.fatal then .next s
      else
        .next (s.pollAnswer a ans (fun t bytes =>
          let failed := ((pollIn t iid).map (·.failed)).getD false
          let ws := wordsOfBytes bytes
          let t1 := if failed then t else
            (List.range 8).foldl (fun u r => u.lineRecord iid (512 * k + 8 * j + r) (wd ws r)) t
          t1.pollStep iid []))
    | _ => .next s

/-- POLL_ACCESS_CEIL (02 R32, R60; 11 R562): the access is abandoned, its tag quarantined, and the next poll of the
instance is a full scan. -/
def execPollAccessCeil (aid : Nat) (s : State) : Out :=
  match s.access aid with
  | none => .next s
  | some a =>
    if s.fatal || !expired s a || unitOf a.purpose ≠ 1 then .next s
    else .next (((((s.logPage a).quarantine a).drainHeld).logErr (mkErr 0 18 0x32 a.iid 0 63 0 0 a.addr 0)).pollFail a.iid)

end Sys2Proof.Machine
end

