-- ==== Sys2Proof/Machine/Sched.lean ====
section
/-! DEFINITION. The scheduler (07 R218 to R233): eligibility, rotations, deficits, binds and promotions. -/

namespace Sys2Proof.Machine

/-- The token buckets of an instance (07 R227); full where nothing has used them. -/
def bucketOf (s : State) (iid : Nat) : Bucket :=
  (s.buckets.find? (fun b => b.iid == iid)).getD
    { iid := iid, bytes := 1000 * (burstB s iid : Int), descs := 1000000 * (burstD s iid : Int) }

/-- An instance's buckets replaced. -/
def State.putBucket (s : State) (b : Bucket) : State := { s with buckets := b :: s.buckets.filter (fun x => x.iid != b.iid) }

/-- Both buckets are positive; a bucket with rate 0 always is (07 R227). -/
def bucketsPositive (s : State) (iid : Nat) : Bool :=
  (decide (rateB s iid = 0) || decide (0 < (bucketOf s iid).bytes)) &&
  (decide (rateD s iid = 0) || decide (0 < (bucketOf s iid).descs))

/-- An accepted descriptor debits the buckets by its cost and by 1 (07 R227). -/
def State.debit (s : State) (iid cost : Nat) : State :=
  let b := bucketOf s iid
  s.putBucket { b with bytes := if rateB s iid = 0 then b.bytes else b.bytes - 1000 * (cost : Int),
                       descs := if rateD s iid = 0 then b.descs else b.descs - 1000000 }

/-- The cluster in whose rotations a queue is bound: its home, or the home's adopter (07 R232, 08 R263). -/
def schedCluster (s : State) (home : Nat) : Nat :=
  if outOfService s home then (adopterOf s home).getD home else home

/-- The free-running index that the next bind of the queue reads: the first from F on that no channel reads or holds (02 R65,
R66, R68). -/
def nextIndex (s : State) (qid : Nat) (c : QCtx) : W32 :=
  let xs := earlySlots s qid
  let free := fun (k : Nat) => !xs.any (fun x => decide (x.slotIdx = c.f + BitVec.ofNat 32 k))
  c.f + BitVec.ofNat 32 (((List.range (xs.length + 1)).find? free).getD xs.length)

/-- A slot counts toward OVERLAP (03 R124): it runs an accepted descriptor whose record is not issued. A LINK counts only for
the chain descriptor it runs, or whose record it holds for the tail (02 R75). -/
def unissuedSlot (x : Slot) : Bool :=
  if x.chain.isNone && decide (dOpcode x.desc = 0x10) then false
  else
    match x.phase with
    | .slotRead => false | .proofed => false | .broken => false | .finished => false
    | .chainTail => (x.chain.bind (·.heldRec)).isSome
    | .parked _ _ => (x.chain.bind (·.heldRec)).isSome
    | .expired => (x.chain.bind (·.heldRec)).isSome
    | _ => true

/-- A finished record that counts toward OVERLAP until it is issued: not a LINK's own, nor one of a discarded slot. -/
def countsOverlap (r : Record) : Bool := !r.abandoned && !(decide (r.chainPos = 0) && decide (bits (wd r.words 0) 0 8 = 0x10))

/-- Finished records of a queue that are not issued: those in the record store, those that wait for an entry of it, and those that
slots keep (17 R503). -/
def finishedRecs (s : State) (qid : Nat) : List Record :=
  (s.records ++ s.waitRecs ++ s.slots.flatMap (·.kept) ++ s.moving.flatMap (·.2.kept)).filter (fun r => r.qid == qid)

/-- The queue's accepted descriptors whose records are not issued (03 R124). -/
def overlapUsed (s : State) (qid : Nat) : Nat :=
  ((chans s qid).filter unissuedSlot).length + ((finishedRecs s qid).filter countsOverlap).length +
  (s.moving.filter (fun m => m.2.qid == qid)).length

/-- A further descriptor of the queue may be accepted under OVERLAP (03 R124, 09 R294). -/
def overlapRoom (s : State) (qid : Nat) (c : QCtx) : Bool := decide (overlapUsed s qid < c.overlapM1.toNat + 1)

/-- An accepted LINK, WAIT or FENCE of a ring slot, or a chain under way, holds back the queue's later slots (02 R72, 03 R128). -/
def holdsBack (x : Slot) : Bool :=
  x.chain.isSome ||
  (decide (x.phase ≠ .slotRead) && decide (x.phase ≠ .proofed) &&
    ((decide (dOpcode x.desc = 0x10) && decide (x.phase ≠ .finished)) || decide (dOpcode x.desc = 0x11) || decide (dOpcode x.desc = 0x13)))

/-- A record of a WAIT or FENCE that is not issued (03 R128). -/
def holdingRecord (r : Record) : Bool :=
  decide (bits (wd r.words 0) 0 8 = 0x11) || decide (bits (wd r.words 0) 0 8 = 0x13)

/-- A LINK, WAIT or FENCE of the queue holds back later slots, wherever it runs, in the ring or in a chain, until its record is
issued (02 R72, 03 R111, R127, R128). -/
def heldBack (s : State) (qid : Nat) : Bool :=
  (chans s qid).any holdsBack || s.moving.any (fun m => m.2.qid == qid && holdsBack m.2) || (finishedRecs s qid).any holdingRecord

/-- A proofed descriptor of a chain waits for its acceptance: the record of a WAIT or FENCE before it in the chain is not
issued (03 R111, R127), the channel keeps a record, or OVERLAP leaves no room (R124). -/
def chainHeld (s : State) (x : Slot) : Bool :=
  decide (x.kept ≠ []) || (finishedRecs s x.qid).any (fun r => decide (r.idx = x.slotIdx) && decide (r.chainPos ≠ 0) && holdingRecord r) ||
  (match ctxOf s x.qid with | some c => !overlapRoom s x.qid c | none => true)

/-- Every way of the queue's set is pinned (01 R20). -/
def setFull (s : State) (qid : Nat) : Bool :=
  decide (4 ≤ (s.ways.filter (fun w => sameSet w.qid qid && pinned s w.qid)).length)

/-- A moved descriptor waits for a place in the cluster (08 R264). -/
def awaitsPlace (s : State) (n : Nat) : Bool := s.moving.any (fun m => m.1 == n && !m.2.squashed)

/-- The conditions of R218 on the cluster that would run the descriptor, and no moved descriptor waits there (08 R264). -/
def clusterTakes (s : State) (n : Nat) : Bool := inService s n && !clusterPaused s n && !awaitsPlace s n

/-- The visit in progress of an instance in a cluster's rotations. -/
def visitOf (s : State) (home iid : Nat) : Option Visit := (schedOf s home).visits.find? (fun v => v.iid == iid)

/-- The WEIGHT of an instance in force in a cluster: that of its visit in progress, else the field (07 R229). -/
def weightIn (s : State) (home iid : Nat) : Nat := ((visitOf s home iid).map (·.weight)).getD (weight s iid)

/-- The conditions of R218 on the instance, in the rotations of cluster `home`. -/
def instTakes (s : State) (home iid : Nat) : Bool :=
  decide (s.instState iid = 1) && decide (weightIn s home iid ≠ 0) && bucketsPositive s iid && serves s

/-- A slot re-read of the queue waits for its interval (02 R66), or the slot to be read next, `i`, waits for the row of its ceiling. -/
def rereadWaits (s : State) (qid : Nat) (i : Option W32) : Bool :=
  s.rereads.any (fun x => x.qid == qid && (x.due.isSome || (x.cause.isSome && (i.isNone || i == some x.idx))))

/-- The conditions of R218 on the queue and its instance, the set's ways apart; of an adopted queue one slot after another is resolved
(14 R438). They hold for the slot read of a RESUME too, though R218
speaks of ACTIVE queues and 02 R84 says only that the slot is read again (DESIGN CHOICE, log entry 48). -/
def wantsBind (s : State) (r : Ready) (c : QCtx) : Bool :=
  r.live &&
  (if r.resume then decide (c.state = qError) && decide (earlySlots s r.qid = [])
   else if isAdopting s r.qid then
     decide (earlySlots s r.qid = []) && (decide (c.state = qActive) || adoptsOn s r.qid c (nextIndex s r.qid c))
   else decide (c.state = qActive) && decide (c.piSeen ≠ nextIndex s r.qid c)) &&
  overlapRoom s r.qid c && !heldBack s r.qid && !rereadWaits s r.qid (some (nextIndex s r.qid c)) &&
  instTakes s (schedCluster s c.home.toNat) c.iid.toNat && !homedAway s r.qid && cluEn s c.home.toNat

/-- A ready queue is eligible in its home cluster's rotations for a channel of cluster `clu` (07 R218). -/
def eligible (s : State) (r : Ready) (clu : Nat) : Bool :=
  match ctxOf s r.qid with
  | none => false
  | some c => wantsBind s r c && !setFull s r.qid && clusterTakes s clu

/-- CLASS_CAP of an instance in force in a rotation: that of its visit in progress there, else the field (07 R229). -/
def capIn (s : State) (home cls iid : Nat) : Nat :=
  (((schedOf s home).visits.find? (fun v => v.iid == iid && v.cls == cls)).map (·.cap)).getD (classCap s iid)

/-- The queue belongs to the rotations of cluster `home`, in class `cls` (07 R219, R220). -/
def inRotation (s : State) (home cls : Nat) (r : Ready) : Bool :=
  match ctxOf s r.qid with
  | none => false
  | some c => decide (schedCluster s c.home.toNat = home) && decide (max c.qClass.toNat (capIn s home cls c.iid.toNat) = cls)

/-- The instance of a ready queue. -/
def iidOf (s : State) (qid : Nat) : Nat := ((ctxOf s qid).map (fun c => c.iid.toNat)).getD 0

/-- The queue that a visit of an instance binds next: round robin by QID (07 R220). -/
def nextQueue (s : State) (home clu cls iid : Nat) : Option Nat :=
  let qs := (s.ready.filter (fun r => inRotation s home cls r && eligible s r clu && decide (iidOf s r.qid = iid))).map (·.qid)
  let last := ((schedOf s home).lastQ.find? (fun x => x.1 == iid && x.2.1 == cls)).map (·.2.2)
  match leastBy id (qs.filter (fun q => match last with | some l => decide (l < q) | none => true)) with
  | some q => some q
  | none => leastBy id qs

/-- A ready queue is passed over in a round of rotation `cls` because every way of its set is pinned (01 R20): of one whose
context is not resident, what R218 asks of its instance is known. -/
def blocked (s : State) (home clu cls : Nat) (r : Ready) : Bool :=
  r.live && setFull s r.qid && clusterTakes s clu &&
  (match ctxOf s r.qid with
   | some c => inRotation s home cls r && wantsBind s r c
   | none => decide (schedCluster s r.home = home) && decide (max r.qClass (capIn s home cls r.iid) = cls) &&
       !rereadWaits s r.qid none && instTakes s home r.iid && !homedAway s r.qid && cluEn s r.home)

/-- The instances that a round of a class rotation meets, in increasing IID order after `v`, once round: those that hold an
eligible queue, and those of which it passes a queue over. -/
def rotation (s : State) (home clu cls : Nat) (v : Option Nat) : List Nat :=
  let is := (s.ready.filter (fun r => inRotation s home cls r && eligible s r clu)).map (fun r => iidOf s r.qid) ++
    (s.ready.filter (blocked s home clu cls)).map (fun r => ((ctxOf s r.qid).map (fun c => c.iid.toNat)).getD r.iid)
  let all := (List.range 4096).filter (fun i => is.contains i)
  match v with
  | some l => all.filter (fun i => decide (l < i)) ++ all.filter (fun i => decide (i ≤ l))
  | none => all

/-- A visit ends (07 R223, step 3): the deficit of an instance with no eligible queue left in the cluster is not kept. -/
def State.endVisit (s : State) (home clu cls iid : Nat) : State :=
  let left := s.ready.any (fun r => eligible s r clu && decide (iidOf s r.qid = iid) &&
    (List.range 4).any (fun cls => inRotation s home cls r))
  let s1 := if left then s else s.addDef home iid (min 0 (- defOf s home iid))
  let x := schedOf s1 home
  s1.putSched { x with visits := x.visits.filter (fun v => v.cls != cls), last := assocPut x.last cls iid }

/-- A new visit of an instance begins (07 R223, step 1): the WEIGHT and CLASS_CAP now in force bound it (R229, R230), and it
takes its quantum. -/
def State.beginVisit (s : State) (home cls iid : Nat) : State :=
  let x := schedOf s home
  let s1 := s.putSched { x with
    weights := assocPut x.weights iid (weight s iid * max 1 (s.fld .schDrrCtl 0 0 12)),
    visits := { cls := cls, iid := iid, weight := weight s iid, cap := classCap s iid } :: x.visits.filter (fun v => v.cls != cls) }
  s1.addDef home iid (quantum s (weight s iid))

/-- Visits in turn until one may bind (07 R223): each new visit takes its quantum; a visit with DEF ≤ 0 ends. Queues passed
over on the way count (01 R20). Answers the state and the instance whose visit binds. -/
def State.visits (s : State) (home clu cls : Nat) : List Nat → State × Option Nat
  | [] => (s, none)
  | i :: is =>
    let n := (s.ready.filter (fun r => blocked s home clu cls r && decide (((ctxOf s r.qid).map (fun c => c.iid.toNat)).getD r.iid = i))).length
    let s0 := if n = 0 then s else s.bump .ctxSetFull 0 0 32 n
    if (nextQueue s0 home clu cls i).isNone then s0.visits home clu cls is
    else
      let s1 := s0.beginVisit home cls i
      if decide (0 < defOf s1 home i) && (nextQueue s1 home clu cls i).isSome then (s1, some i)
      else (s1.endVisit home clu cls i).visits home clu cls is

/-- The visit in progress of a rotation. -/
def visitIn (s : State) (home cls : Nat) : Option Visit := (schedOf s home).visits.find? (fun v => v.cls == cls)

/-- A visit goes on: its deficit is positive and its instance has an eligible queue of the class (07 R223, step 2). -/
def visitGoesOn (s : State) (home clu cls : Nat) (v : Visit) : Bool :=
  decide (0 < defOf s home v.iid) && (nextQueue s home clu cls v.iid).isSome

/-- One rotation's choice: the visit in progress goes on without a new quantum, or a round of visits begins. One round is made for a
free channel before the next class is tried, whatever the deficits at its end (DESIGN CHOICE, log entry 48). -/
def State.rotate (s : State) (home clu cls : Nat) : State × Option Nat :=
  let begin' := fun (t : State) => t.visits home clu cls (rotation t home clu cls (assocGet (schedOf t home).last cls))
  match visitIn s home cls with
  | some v => if visitGoesOn s home clu cls v then (s, some v.iid) else begin' (s.endVisit home clu cls v.iid)
  | none => begin' s

/-- Visits of cluster `home` that have come to their end end (07 R223, step 3); while it has no free channel, only one whose
deficit is spent (step 4). -/
def State.endVisits (s : State) (home : Nat) : State :=
  (schedOf s home).visits.foldl (fun t v =>
    let spent := decide (defOf t home v.iid ≤ 0) ||
      (!(freeChannels t home).isEmpty && (nextQueue t home home v.cls v.iid).isNone)
    if spent then t.endVisit home home v.cls v.iid else t) s

/-- Every cluster's. -/
def State.settleVisits (s : State) : State := s.sched.foldl (fun t x => if x.visits = [] then t else t.endVisits x.clu) s

/-- The bind the scheduler makes next for a channel of cluster `clu`: a promoted queue, else the first rotation of U, I,
B, G that yields one (07 R220). Answers the state, the queue and the class of its rotation. -/
def State.chooseBind (s : State) (home clu : Nat) : State × Option (Nat × Nat) :=
  let promo := s.ready.filter (fun r => r.promoted.isSome && eligible s r clu &&
    (List.range 4).any (fun cls => inRotation s home cls r))
  match leastBy (fun (r : Ready) => r.promoted.getD 0) promo with
  | some r => (s, ((List.range 4).find? (fun cls => inRotation s home cls r)).map (fun cls => (r.qid, cls)))
  | none =>
    (List.range 4).foldl (fun (acc : State × Option (Nat × Nat)) cls =>
      match acc.2 with
      | some _ => acc
      | none =>
        match acc.1.rotate home clu cls with
        | (t, some i) => (t, (nextQueue t home clu cls i).map (fun q => (q, cls)))
        | (t, none) => (t, none)) (s, none)

/-- A slot as it begins a bind. -/
def newSlot (clu idx qid iid home : Nat) (x : W32) (attrs : Attrs) (est : Nat) : Slot :=
  { clu := clu, idx := idx, qid := qid, iid := iid, rotHome := home, slotIdx := x, chain := none, phase := .slotRead,
    desc := [], fetchTs := 0, fetchStep := 0, doneTs := 0, doneStep := 0, cls := 0, attrs := attrs, estCost := est,
    cutB := 0, cutNum := 0, walkEnd := 0, loaves := [], lines := [], grant := [], poolWait := [], entries := [],
    lens := none, lensReady := [], nextFab := 0, nextBackoff := none, status := 0, detail := 0, w5 := 0, bytes := 0,
    commits := 0, fold := 0, replays := 0, retireBy := none, fabOver := none, relOver := none, piBlk := 0, piOfs := 0,
    piGuard := 0, piRef := 0, piTuple := [], squashed := false, unsynced := false, doneUnsync := false, kept := [], stale := [], stateBad := false, copyBad := false, resumed := false, resume := none, adopted := false }

/-- The read of a ring slot by a channel. Its class, and whether the slot counts as class U for the tag budget (05 R174), are the
queue's scheduling class (07 R219): no effective class is known before the descriptor is read (DESIGN CHOICE, log entry 45). It
reserves no reorder-buffer line, nor does a chain or tail read (DESIGN CHOICE, log entry 48). -/
def slotRead (s : State) (clu idx : Nat) (c : QCtx) (addr : Nat) : Held :=
  let cls := schedClass s c
  { mkHeld (.slot clu idx) 0 false addr 64 (readAttrs s c (BitVec.ofNat 2 cls)) [] c.iid.toNat with
    port := some clu, holder := idx, classU := decide (cls = 0) }

/-- A bind of a queue in rotation `rot` to a channel (07 R220, R221, R223): the deficit is debited, the channel reads slot F (02 R65). -/
def State.bindTo (s : State) (qid rot home clu idx : Nat) : State :=
  match ctxOf s qid with
  | none => s
  | some c =>
    let iid := c.iid.toNat
    let x := nextIndex s qid c
    let cls := schedClass s c
    let s1 := s.addDef home iid (- (c.estCost.toNat : Int))
    let y := schedOf s1 home
    let s2 := s1.putSched { y with lastQ := (iid, rot, qid) :: y.lastQ.filter (fun z => !(z.1 == iid && z.2.1 == rot)) }
    let rebound := fun (r : Ready) => { r with elig := 0, promoted := none, resume := false }
    let s3 := { s2 with
      slots := (newSlot clu idx qid iid home x (readAttrs s c (BitVec.ofNat 2 cls)) c.estCost.toNat) :: s2.slots,
      ready := upd (fun r => r.qid == qid) rebound s2.ready }
    (((s3.noteFull clu).endVisits home).lookup qid 1).service (slotRead s3 clu idx c (slotAddr c x))

/-- A bind of cluster `home` may be placed on its partner (07 R232); none of its binds is made while a moved descriptor waits there
(08 R264). -/
def mayShare (s : State) (home clu : Nat) : Bool :=
  decide (clu = partnerOf home) && !awaitsPlace s home && (freeChannels s home).isEmpty &&
  (match (schedOf s home).fullAt with
   | some t => decide (t + 100 * max 1 (s.fld .schShareCtl 0 0 10) ≤ s.nomNs)
   | none => false) &&
  decide (min 31 (s.fld .schShareCtl 0 10 6) < (freeChannels s clu).length) && !bit (s.rd .schShareCtl 0) (16 + home / 2)

/-- Ready queues whose contexts are not resident have them fetched (01 R27, stage 3). -/
def State.fetchReady (s : State) : State :=
  s.ready.foldl (fun t r => if !r.live || (ctxOf t r.qid).isSome || t.ctxWait.any (fun w => w.1 == r.qid) then t
    else t.awaitCtx r.qid .ready) s

/-- BIND (07 R218 to R224, R232): cluster `home`'s scheduler binds its next queue to the free channel given, of the home or
of its partner. -/
def execBind (home clu slot : Nat) (s : State) : Out :=
  if 16 ≤ home || 16 ≤ clu || 32 ≤ slot then .fault .noSuchUnit
  else if !running s then .next s
  else
    let s0 := s.fetchReady
    if !(freeChannels s0 clu).contains slot || !(decide (clu = home) || mayShare s0 home clu) || !clusterTakes s0 clu then .next s0
    else
      match s0.chooseBind home clu with
      | (t, some (q, cls)) => .next (t.bindTo q cls home clu slot)
      | (t, none) => .next t

/-- PROMOTION (07 R221): a queue eligible without a bind for SCH_BIND_CEIL is promoted and counted. -/
def execPromotion (qid : Nat) (s : State) : Out :=
  if 2 ^ 22 ≤ qid then .fault .noSuchUnit
  else
    match s.ready.find? (fun r => r.qid == qid), ctxOf s qid with
    | some r, some c =>
      if running s && r.promoted.isNone && decide (bindCeilNs s ≤ r.elig) && eligible s r (schedCluster s c.home.toNat) then
        let promote := fun (x : Ready) => { x with promoted := some s.promoCtr }
        .next ((({ s with promoCtr := s.promoCtr + 1, ready := upd (fun x => x.qid == qid) promote s.ready }).bump .schPromotions 0 0 32 1).pulse 146 0)
      else .next s
    | _, _ => .next s

end Sys2Proof.Machine
end

