-- ==== Sys2Proof/Machine/Desc.lean ====
section
/-! DEFINITION. From a slot read to an accepted descriptor, and through a chain to its end: sorting, re-reads, proofing,
acceptance, completion into the record store, tails and parks (02 R65 to R77, 03 R114 to R122, 07 R222 to R224). -/

namespace Sys2Proof.Machine

/-! Checkpoints (08 R250, 14 R439). -/

/-- The element of an SG list that holds walk position b, and its S_k, as far as the entries before it are read (04 R144): the first
one not yet read where b stands at its start. -/
def elementAt (es : Entries) (b : Nat) : Nat → Nat → Nat → Nat × Nat
  | 0, k, sum => (k, sum)
  | f + 1, k, sum =>
    match entryOf es k with
    | none => (k, sum)
    | some (_, len) => if b < sum + len then (k, sum) else elementAt es b f (k + 1) (sum + len)

/-- The checkpoint a slot's descriptor has now. -/
def ckptOf (x : Slot) : Ckpt :=
  let first := x.loaves.head?
  let b := (first.map (·.b0)).getD x.cutB
  let e := if dKind x.desc = .sglist then elementAt x.entries b (x.entries.length + 1) 0 0 else (0, 0)
  { clu := x.clu, idx := x.idx, copy0 := [], copy1 := [], desc := x.desc, qid := x.qid, slotIdx := x.slotIdx,
    chainPos := (x.chain.map (·.pos)).getD 0, fetchTs := x.fetchTs, loaves := x.commits, bytes := x.bytes, walkB := b,
    listK := e.1, listS := e.2,
    fold := x.fold, piBlk := x.piBlk, piOfs := x.piOfs, piGuard := x.piGuard, piRef := x.piRef, replays := min 0xFFFF x.replays,
    relCount := (first.map (·.releases)).getD 0, fabTries := (first.map (·.fab)).getD x.nextFab }

/-- The 24 words of a checkpoint entry: its fields in the order of R250's table, low bits first, the reserved ones zero (08 R249; how
the fields lie in the words is left open: DESIGN CHOICE, log entry 48). -/
def Ckpt.toWords (k : Ckpt) : List W64 :=
  k.desc.take 8 ++
  [ pack [(0, 22, k.qid), (22, 32, k.slotIdx.toNat)], pack [(0, 16, k.chainPos), (16, 48, k.fetchTs.toNat)],
    pack [(0, 32, k.loaves)], BitVec.ofNat 64 k.bytes, BitVec.ofNat 64 k.walkB, pack [(0, 24, k.listK)], BitVec.ofNat 64 k.listS, k.fold,
    pack [(0, 32, k.piBlk), (32, 14, k.piOfs)], k.piGuard, pack [(0, 48, k.piRef.toNat)],
    pack [(0, 16, k.replays), (16, 3, k.relCount), (19, 8, k.fabTries)] ] ++ List.replicate 4 0

/-- Words as they are stored, with their check bits (06 R213): one that has become uncorrectable shows two check bits inverted. -/
def storedWords (ws : List W64) (upset : Bool) : List (W64 × Byte) :=
  match soundWords ws with
  | [] => []
  | w :: r => (if upset then (w.1, w.2 ^^^ 3) else w) :: r

/-- A stored copy holds an uncorrectable word (08 R251). -/
def copyLost (ws : List (W64 × Byte)) : Bool := ws.any (fun w => decide ((secdedDecode w.1 w.2).2 = .uncorrectable))

/-- The checkpoint table stores an entry in both copies, and the running slot its own (08 R249 to R251). Whether a word of each will be
uncorrectable when it is read, and whether one of the channel state will, is left open. -/
def State.putCkpt (s : State) (k : Ckpt) : State :=
  let n := s.freeCtr
  let e := { k with copy0 := storedWords k.toWords (Config.upset n), copy1 := storedWords k.toWords (Config.upset (n + 1)) }
  { (s.updSlot k.clu k.idx (fun y => { y with copyBad := Config.upset (n + 2), stateBad := y.stateBad || Config.upset (n + 3) })) with
    ckpt := e :: s.ckpt.filter (fun y => !(y.clu == k.clu && y.idx == k.idx)), freeCtr := n + 4 }

/-- FED_AREA. -/
def fedArea (s : State) : Nat := s.fld .fedAreaLo 0 12 20 * 4096 + s.fld .fedAreaHi 0 0 32 * 2 ^ 32

/-- The eight words of a federation checkpoint (14 R439). -/
def fedCkptWords (k : Ckpt) (cseq : Nat) : List W64 :=
  [ pack [(0, 32, k.slotIdx.toNat), (32, 22, k.qid), (56, 8, cseq)],
    pack [(0, 16, k.chainPos), (16, 16, k.replays), (32, 16, min k.loaves 0xFFFF)],
    BitVec.ofNat 64 k.walkB, BitVec.ofNat 64 k.bytes, k.fold, k.piGuard, pack [(0, 32, k.piBlk), (32, 14, k.piOfs)],
    pack [(0, 48, k.piRef.toNat), (56, 8, cseq)] ]

/-- The federation checkpoint of a slot is written, where the block is federated; CSEQ counts the writes of its entry (14 R439). -/
def State.fedCkpt (s : State) (x : Slot) : State :=
  if !federated s then s
  else
    let e := 34 * x.clu + x.idx
    let n := ((assocGet s.cseqs e).getD 0 + 1) % 256
    ({ s with cseqs := assocPut s.cseqs e n }).service
      (mkHeld .fedCkpt 0 true (fedArea s + 0x1000 + 64 * (544 * ownMember s + e)) 64 (sharedAttrs s 0)
        (bytesOfWords (fedCkptWords (ckptOf x) n)) 0)

/-! Completion into the record store (03 R117, R122, 17 R503). -/

/-- A slot whose completion timestamp is taken now (01 R30). The cluster's copy of the timebase is taken as equal to TB, where
01 R31 lets it differ by at most 4 ns (DESIGN CHOICE, log entry 45). -/
def stampedDone (s : State) (x : Slot) : Slot :=
  { x with doneTs := s.timebase.setWidth 48, doneStep := s.tbStep, doneUnsync := unsyncedNow s }

/-- A completion timestamp is taken now. -/
def State.stampDone (s : State) (clu idx : Nat) : State := s.updSlot clu idx (stampedDone s)

/-- The address that a slot's record is written to: its ring slot, or its descriptor in the chain. -/
def recordAddr (s : State) (x : Slot) : Nat :=
  match x.chain with
  | some ch => ch.segAddr + 64 * ch.segPos
  | none => match ctxOf s x.qid with | some c => slotAddr c x.slotIdx | none => 0

/-- The record of a slot as it goes to the store. -/
def recordOf (s : State) (x : Slot) (words : List W64) (chainPos addr : Nat) : Record :=
  { qid := x.qid, idx := x.slotIdx, chainPos := chainPos, addr := addr, words := words, clu := x.clu, slot := x.idx,
    cls := x.cls, noticeNow := dNoticeNow x.desc, abandoned := false, fetchStep := x.fetchStep, doneStep := x.doneStep,
    attrs := { x.attrs with ns := false, cls := x.cls, idem := true } }

/-- The record store has an entry left: 1,024 in all (17 R503). -/
def storeRoom (s : State) : Bool := decide (s.records.length < 1024)

/-- A finished record of a slot goes to the store, or its channel keeps it while the store is full (17 R503). -/
def State.keepRecord (s : State) (clu idx : Nat) (r : Record) : State :=
  if storeRoom s && decide (((slotAt s clu idx).map (·.kept)).getD [] = []) && s.waitRecs.isEmpty then s.placeRecord r
  else s.updSlot clu idx (fun x => { x with kept := x.kept ++ [r] })

/-- The record with TAIL_CLOSED set. -/
def withTailClosed (ws : List W64) (closed : Bool) : List W64 :=
  match ws with
  | [] => []
  | w :: r => withBits w 28 1 (flag closed) :: r

/-! Acceptance (02 R68, 03 R114, 07 R222 to R224, R227, 08 R250). -/

/-- The cost of a descriptor (07 R222). -/
def costOf (d : List W64) : Nat := if (dKind d).isData then max 64 (walkLen d) else 64

/-- A proofed descriptor is accepted: its cost is charged, F passes a ring slot, its checkpoint is stored. What the checkpoint table
says of the words stored for its slot (`putCkpt`) stands; the channel state begins sound. -/
def State.accept (s : State) (x : Slot) : State :=
  match ctxOf s x.qid with
  | none => s
  | some c =>
    let cost := costOf x.desc
    let cls := effClass x.desc (classCap s x.iid)
    let ring := x.chain.isNone
    let y := { x with
      phase := .accepted, status := 0, cls := cls,
      attrs := queueAttrs s c cls, walkEnd := walkLen x.desc,
      fold := (dChkSel x.desc).init, piRef := BitVec.ofNat 64 (dRefTag x.desc),
      piGuard := if dPiFmt x.desc then CheckCode.crc64.init else 0,
      cutB := 0, cutNum := 0, loaves := [], lines := [], grant := [], poolWait := [], entries := [], stale := [],
      lens := none, lensReady := [], nextFab := 0, nextBackoff := none, detail := 0, w5 := 0, bytes := 0, commits := 0, replays := 0,
      retireBy := none, fabOver := none, relOver := none, piBlk := 0, piOfs := 0, piTuple := [], squashed := false, stateBad := false, copyBad := false, resumed := false }
    let s1 := s.updSlot x.clu x.idx (fun _ => y)
    let s2 := s1.debit x.iid cost
    let s3 := s2.addDef x.rotHome x.iid ((if ring then (x.estCost : Int) else 0) - (cost : Int))
    let cost32 := BitVec.ofNat 32 (min cost (2 ^ 32 - 1))
    let s4 := s3.updCtx x.qid (fun c => if ring then
        { c with f := c.f + 1, estCost := cost32,
                 reread := BitVec.ofNat 8 (((s.rereads.find? (fun r => r.qid == x.qid && decide (r.idx = c.f + 1))).map (·.count)).getD 0) }
      else c)
    let s5 := { s4 with rereads := s4.rereads.filter (fun r => !(r.qid == x.qid && decide (r.idx = x.slotIdx))) }
    let s6 := (s5.putCkpt (ckptOf y)).bump .cluStarts x.clu 0 32 1
    s6.fedCkpt y

/-- The slot's words are those of the last read (03 R123). -/
def State.noteSlot (s : State) (qid : Nat) (ws : List W64) : State := { s with lastSlots := assocPut s.lastSlots qid ws }

/-- A slot or chain descriptor proves malformed (02 R80; in ERROR already, R84 and 11 R363). Its bind ends; a LINK keeps its
channel. A chain descriptor of a DRAINING queue has its error latched until the drain ends, as R565 latches a DB_OVERRUN, the slots
that the LINK held back are discarded (R68), and
the error record then names domain SCH and SLOT 63, as a DB_OVERRUN's does; R565 itself speaks of slots (DESIGN CHOICE, log
entry 45). -/
def State.malformed (s : State) (x : Slot) (cause : Nat) : State :=
  let pos := (x.chain.map (·.pos)).getD 0
  let again := match ctxOf s x.qid with | some c => decide (c.state = qError) | none => false
  let s0 := { s with rereads := s.rereads.filter (fun r => !(r.qid == x.qid && decide (r.idx = x.slotIdx))) }
  let s1 := if x.chain.isNone then s0 else s0.updSlot x.clu x.idx (fun y => { y with phase := .broken, resumed := false })
  let draining := match ctxOf s x.qid with | some c => decide (c.state = qDraining) | none => false
  let s2 := if again then s1.furtherError x.qid cause
    else if draining then (s1.discardEarly x.qid).latchError x.qid x.slotIdx cause pos
    else s1.enterError x.qid x.slotIdx cause pos (2 + x.clu) x.idx x.clu
  if x.chain.isNone && (slotAt s2 x.clu x.idx).isSome then s2.endBind x else s2

/-- Slots read early are accepted in slot order as long as nothing holds them back; the first that is malformed puts the
queue into ERROR (02 R68, R72, 03 R127). -/
def State.acceptReady (s : State) (qid : Nat) : Nat → State
  | 0 => s
  | f + 1 =>
    match ctxOf s qid with
    | none => s
    | some c =>
      match (chans s qid).find? (fun x => x.chain.isNone && decide (x.phase = .proofed) && decide (x.slotIdx = c.f)) with
      | none => s
      | some x =>
        if x.status ≠ 0 then (s.noteSlot qid x.desc).malformed x x.status
        else if heldBack s qid || !(overlapRoom s qid c || decide (dOpcode x.desc = 0x10)) then s
        else (s.accept x).acceptReady qid f

/-- A proofed chain descriptor is accepted once nothing holds it (02 R68, 03 R124, R128). -/
def State.acceptChains (s : State) (qid : Nat) : State :=
  ((chans s qid).filter (fun x => x.chain.isSome && decide (x.phase = .proofed))).foldl (fun t x =>
    if chainHeld t x then t else t.accept x) s

/-- Every descriptor of the queue that may be accepted now is. -/
def State.acceptMore (s : State) (qid : Nat) : State := (s.acceptChains qid).acceptReady qid 33

/-! The end of a descriptor. -/

/-- A slot whose descriptor is done is free once the store has its records: a channel at once, a Mirror when the record is
issued (01 R28, 08 R262, 17 R503). -/
def State.releaseDone (s : State) (clu idx : Nat) : State :=
  match slotAt s clu idx with
  | none => s
  | some x =>
    if decide (x.phase = .finished) && x.chain.isNone && decide (x.kept = []) then
      (if idx < 32 then s.freeSlot clu idx else s).acceptMore x.qid
    else s

/-- The LINK that a slot's chain belongs to, at its own end (03 R108), stamped now (01 R30). Its effective class, and that of the reads
of its chain (`chainRead`), uses the CLASS_CAP in force then, where other descriptors keep that of their acceptance (DESIGN CHOICE, log
entry 48). A squashed LINK's W5 is the count of
R108 too, where R120 gives 0 for SQUASHED (DESIGN CHOICE, log entry 45). -/
def linkSlot (s : State) (x : Slot) (ch : Chain) : Slot :=
  stampedDone s { x with
    chain := none, desc := ch.linkDesc, fetchTs := ch.linkFetch.setWidth 48, fetchStep := ch.linkStep, unsynced := ch.linkUnsync,
    attrs := ch.linkAttrs, status := if x.squashed then 2 else 0, detail := 0, w5 := BitVec.ofNat 64 ch.written, bytes := 0,
    commits := 0, replays := 0, cls := effClass ch.linkDesc (classCap s x.iid), phase := .finished }

/-- The end of a chain: the LINK's own record (03 R108, 02 R75), and its channel is free. -/
def State.endChain (s : State) (x : Slot) (ch : Chain) (closed : Bool) : State :=
  let link := { linkSlot s x ch with kept := ((slotAt s x.clu x.idx).map (·.kept)).getD [] }
  let s1 := s.updSlot x.clu x.idx (fun _ => link)
  (s1.keepRecord x.clu x.idx (recordOf s1 link (link.recordWords closed) 0 (recordAddr s1 link))).releaseDone x.clu x.idx

/-- The tail of a segment is decided (02 R75): the held record goes to the store with TAIL_CLOSED. -/
def State.placeHeld (s : State) (x : Slot) (ch : Chain) (closed : Bool) : State :=
  match ch.heldRec with
  | none => s
  | some ws => s.keepRecord x.clu x.idx (recordOf s x (withTailClosed ws closed) ch.pos (ch.segAddr + 64 * ch.segPos))

/-- A tail closes: TAIL_CLOSED = 1 on the last record and on the LINK's (02 R75, R76). -/
def State.closeTail (s : State) (x : Slot) : State :=
  match x.chain with
  | none => s
  | some ch => ((s.placeHeld x ch true).orphanReads x.clu x.idx).endChain x ch true

/-- The channel goes on with its chain: the slot's fields are x's, but for the records that the channel keeps. -/
def State.goOn (s : State) (x : Slot) : State := s.updSlot x.clu x.idx (fun y => { x with kept := y.kept })

/-- An append is taken: the next segment's first descriptor is read (02 R73). -/
def State.takeAppend (s : State) (x : Slot) (addr count : Nat) : State :=
  match x.chain with
  | none => s
  | some ch =>
    let ch' := { ch with segAddr := addr, segCount := count, segPos := 0, pos := ch.pos + 1, heldRec := none }
    let y := { x with chain := some ch', phase := .slotRead }
    ((s.placeHeld x ch false).goOn y).service (chainRead s y (.slot x.clu x.idx) addr)

/-- After a chain descriptor's record: the segment's next descriptor is read, or its tail line. -/
def State.chainNext (s : State) (x : Slot) (ch : Chain) : State :=
  if ch.segPos + 1 < ch.segCount then
    let y := { x with chain := some { ch with segPos := ch.segPos + 1, pos := ch.pos + 1 }, phase := .slotRead }
    (s.goOn y).service (chainRead s y (.slot x.clu x.idx) (ch.segAddr + 64 * (ch.segPos + 1)))
  else if ch.closing then s.closeTail { x with chain := some ch, phase := .chainTail }
  else
    let y := { x with chain := some ch, phase := .chainTail }
    (s.goOn y).service (chainRead s y (.tail x.clu x.idx) (ch.segAddr + 64 * ch.segCount))

/-- A descriptor is done with its status: its record goes to the record store and its channel is released (01 R28), or
it waits for an entry (17 R503). A squashed descriptor is its chain's final one, and the LINK's TAIL_CLOSED is its (02 R75). -/
def State.finish (s : State) (clu idx : Nat) : State :=
  match slotAt s clu idx with
  | none => s
  | some x =>
    let x0 := if (dKind x.desc).isData && (decide (x.doneStep ≠ 0) || decide (x.doneTs ≠ 0)) then x else stampedDone s x
    let x1 := { x0 with phase := .finished, lines := [], grant := [], poolWait := [] }
    let s1 := { (s.updSlot clu idx (fun _ => x1)) with lateFlags := s.lateFlags.filter (fun p => decide (p ≠ (clu, idx))) }
    match x.chain with
    | none => (s1.keepRecord clu idx (recordOf s1 x1 (x1.recordWords false) 0 (recordAddr s1 x1))).releaseDone clu idx
    | some ch =>
      let last := decide (ch.segCount ≤ ch.segPos + 1)
      let ch' := { ch with written := ch.written + 1 }
      if x.squashed then
        (s1.keepRecord clu idx (recordOf s1 x1 (x1.recordWords last) ch.pos (recordAddr s1 x1))).endChain x1 ch' last
      else if last then s1.chainNext x1 { ch' with heldRec := some (x1.recordWords false) }
      else (s1.keepRecord clu idx (recordOf s1 x1 (x1.recordWords false) ch.pos (recordAddr s1 x1))).chainNext x1 ch'

/-- A finished record is issued: the record store's entry, or the place that it waited in, is free (17 R503). -/
def State.takeRecordOut (s : State) (r : Record) : State :=
  if s.records.contains r then { s with records := s.records.erase r }
  else
    let drop := fun (x : Slot) => { x with kept := x.kept.erase r }
    { s with waitRecs := s.waitRecs.erase r, slots := s.slots.map drop, moving := s.moving.map (fun m => (m.1, drop m.2)) }

/-- An entry of the record store is free: a record without a channel that waits for one takes it, else the slot that has kept a record
longest places it (17 R503). -/
def State.pumpStore (s : State) : State :=
  match s.waitRecs, storeRoom s with
  | r :: rs, true => ({ s with waitRecs := rs }).placeRecord r
  | _, _ =>
  match s.slots.reverse.find? (fun x => decide (x.kept ≠ [])) with
  | some x =>
    match x.kept, storeRoom s with
    | r :: rs, true =>
      (((s.updSlot x.clu x.idx (fun y => { y with kept := rs })).placeRecord r).releaseDone x.clu x.idx).acceptChains x.qid
    | _, _ => s
  | none => s

/-! The answers of slot and tail reads. -/

/-- A slot was not whole (02 R65 to R67). A ring slot's channel is released; a chain's keeps it. -/
def State.notWhole (s : State) (x : Slot) (ws : List W64) (torn : Bool) : State :=
  let old := s.rereads.find? (fun r => r.qid == x.qid && decide (r.idx = x.slotIdx))
  let n := (old.map (·.count)).getD 0
  let spent := decide (tornCeil s ≤ n)
  let r : Reread :=
    { qid := x.qid, idx := x.slotIdx, count := if spent then n else n + 1,
      due := if spent then none else some (s.nomNs + effInterval s x.iid),
      cause := if spent then some (if torn then 1 else 2) else none, clu := x.clu, slot := x.idx, words := ws }
  let s1 := { s with rereads := r :: s.rereads.filter (fun y => !(y.qid == x.qid && decide (y.idx = x.slotIdx))) }
  let isF := match ctxOf s1 x.qid with | some c => x.chain.isNone && decide (c.f = x.slotIdx) | none => false
  let s2 := if isF then s1.updCtx x.qid (fun c => { c with reread := BitVec.ofNat 8 r.count }) else s1
  if x.chain.isNone then s2.endBind x else s2

/-- A queue in ERROR whose RESUMEd slot has proofed whole becomes ACTIVE, and fetching goes on (02 R79, R84). -/
def State.errorEnds (s : State) (qid : Nat) : State :=
  (((s.updCtx qid (fun c => { c with state := qActive })).clearResume qid)).markReady qid

/-- A whole slot, with its fetch timestamp, is proofed (03 R114) and accepted in its turn. One that a RESUME had read again, a ring slot
or the descriptor of a broken LINK's chain, ends ERROR as it proofs whole (02 R84). -/
def State.proofSlot (s : State) (x : Slot) (ws : List W64) : State :=
  let segBad := match x.chain with
    | some ch => decide (ch.segPos = 0) && decide (ch.pos ≠ 1) && decide (2 ^ 64 < ch.segAddr + 64 * (ch.segCount + 1))
    | none => false
  let cause := proofCause ws x.chain.isSome segBad (fun j => decide (ownerOfSet s j = x.iid))
    (fun f => decide (ownerOfSet s (f / 4) = x.iid))
  let y := { x with desc := ws, phase := .proofed, status := cause, doneTs := 0, doneStep := 0, doneUnsync := false }
  let s0 := s.updSlot x.clu x.idx (fun _ => y)
  let inErr := match ctxOf s x.qid with | some c => decide (c.state = qError) | none => false
  let again := match ctxOf s x.qid with | some c => !isAdopting s x.qid || decide (c.errIndex = x.slotIdx) | none => true
  let s1 := if inErr && decide (cause = 0) && ((x.chain.isNone && again) || x.resumed) then s0.errorEnds x.qid else s0
  if x.chain.isSome then
    (if cause ≠ 0 then (s1.noteSlot x.qid ws).malformed y cause else if chainHeld s1 y then s1 else s1.accept y)
  else s1.acceptReady x.qid 33

/-- The fetch timestamp is taken as the slot's response reaches the channel (01 R30). -/
def stampedFetch (s : State) (x : Slot) : Slot :=
  { x with fetchTs := s.timebase.setWidth 48, fetchStep := s.tbStep, unsynced := unsyncedNow s }

/-- A slot's whole answer reaches the channel. -/
def State.wholeSlot (s : State) (x : Slot) (ws : List W64) : State := s.proofSlot (stampedFetch s x) ws

/-! Slots of an adopted queue (14 R438). -/

/-- The slot holds a completion record of its lap (03 R119). -/
def isRecord (ws : List W64) (gen : Nat) : Bool := dDone ws && bit (wd ws 7) 48 && decide (dGen ws = gen)

/-- Q passes the slots that already hold their records. -/
def State.skipDone (s : State) (qid : Nat) : Nat → State
  | 0 => s
  | f + 1 =>
    match ctxOf s qid with
    | none => s
    | some c =>
      if s.adoptDone.contains (qid, c.q) then
        (({ s with adoptDone := s.adoptDone.erase (qid, c.q) }).updCtx qid
          (fun x => { x with q := x.q + 1, winDone := x.winDone >>> 1 })).skipDone qid f
      else s

/-- The read of entry n of the fenced member's checkpoints. -/
def ckptRead (s : State) (x : Slot) (m n : Nat) : Held :=
  mkHeld (.adoptCkpt x.clu x.idx n) 0 false (fedArea s + 0x1000 + 64 * (544 * m + n)) 64 (sharedAttrs s 0) [] 0

/-- The resolution of an adopted queue's slots ends, with its notice. -/
def State.adoptEnds (s : State) (qid : Nat) : State :=
  ({ s with adopting := assocDel s.adopting qid, adoptStop := assocDel s.adoptStop qid }).noticeTrigger qid

/-- A slot that was written at PI_SEEN was posted: PI_SEEN, which the full scan gives, covers it. -/
def QCtx.covers (c : QCtx) (i : W32) : QCtx := if c.piSeen = i then { c with piSeen := i + 1 } else c

/-- A slot of an adopted queue as read, in slot order: one with its record is complete; a whole one has its checkpoint
looked for; the first that is not written ends the resolution with a notice. That one is read again only where PI_SEEN covers it. -/
def State.adoptSlot (s : State) (x : Slot) (c : QCtx) (m : Nat) (ws : List W64) : State :=
  let gen := genOf c.depth x.slotIdx
  if c.f ≠ x.slotIdx then (s.endBind x).markReady x.qid
  else if isRecord ws gen then
    let s1 := { s with adoptDone := (x.qid, x.slotIdx) :: s.adoptDone }
    (((s1.endBind x).updCtx x.qid (fun q => { q.covers x.slotIdx with f := q.f + 1 })).skipDone x.qid 65536).markReady x.qid
  else if dGen ws = gen ∧ dSeal ws = gen then
    let y := { stampedFetch s x with desc := ws }
    ((s.updSlot x.clu x.idx (fun _ => y)).updCtx x.qid (fun q => q.covers x.slotIdx)).service (ckptRead s y m 0)
  else if c.piSeen = x.slotIdx then (((s.adoptEnds x.qid).endBind x).markReady x.qid).checkIdle x.qid
  else (s.adoptEnds x.qid).notWhole x ws (decide (dGen ws = gen))

/-- The resolution of an adopted queue that is neither IDLE nor ACTIVE ends where no slot had been fetched; one that has become IDLE or
ACTIVE goes on to the first slot that is not written. -/
def State.adoptCheck (s : State) (qid : Nat) : State :=
  match ctxOf s qid with
  | none => s
  | some c =>
    if decide (c.state = qIdle) || decide (c.state = qActive) then { s with adoptStop := assocDel s.adoptStop qid }
    else if assocGet s.adoptStop qid = some c.f then s.adoptEnds qid
    else s

/-- Every adopted queue's. -/
def State.adoptChecks (s : State) : State := s.adopting.foldl (fun t a => t.adoptCheck a.1) s

/-- An entry of the fenced member's checkpoints as read (14 R438, R439): the descriptor resumes from one that matches; after
the last entry it runs from its start. -/
def State.adoptEntry (s : State) (x : Slot) (n : Nat) (ws : List W64) : State :=
  let w0 := wd ws 0
  let hit := decide (bits w0 56 8 = bits (wd ws 7) 56 8) && decide (bits w0 0 32 = x.slotIdx.toNat) && decide (bits w0 32 22 = x.qid)
  if hit then s.proofSlot { x with resume := some ws } x.desc
  else
    match adoptedFrom s x.qid, decide (n + 1 < 544) with
    | some m, true => s.service (ckptRead s x m (n + 1))
    | _, _ => s.proofSlot x x.desc

/-- The chain of an adopted LINK is followed toward the position it had reached, by tail lines only (14 R438). -/
def State.seekStep (s : State) (x : Slot) (ch : Chain) : State :=
  let base := ch.pos - ch.segPos - 1
  if ch.seek ≤ base + ch.segCount then
    let k := ch.seek - base - 1
    let y := { x with chain := some { ch with segPos := k, pos := ch.seek, written := ch.seek - 1 }, phase := .slotRead }
    (s.updSlot x.clu x.idx (fun _ => y)).service (chainRead s y (.slot x.clu x.idx) (ch.segAddr + 64 * k))
  else
    let n := base + ch.segCount
    let y := { x with chain := some { ch with segPos := ch.segCount - 1, pos := n, written := n }, phase := .chainTail }
    (s.updSlot x.clu x.idx (fun _ => y)).service (chainRead s y (.tail x.clu x.idx) (ch.segAddr + 64 * ch.segCount))

/-- The read of a channel again, on the same port (01 R32, 06 R216, 11 R562). -/
def State.readAgain (s : State) (a : Access) : State := s.serviceAgain a 0

/-- A park test ends with the channel still parked: it waits for the next one, or its tail is to close at the park ceiling (02
R73, R74). -/
def State.parkOn (s : State) (x : Slot) : State :=
  match x.phase with
  | .parked since _ =>
    s.updSlot x.clu x.idx (fun y => { y with
      phase := if since + parkCeilNs s ≤ s.nomNs then .expired else .parked since (s.nomNs + effInterval s x.iid) })
  | _ => s

/-- SLOT_READ_RESPONSE (02 R65 to R68, R73; 03 R114): a slot is sorted by GEN and SEAL; whole ones are proofed. An error
answer or an uncorrectable word has the slot read again. The look of a parked channel at the next ring slot ends here. -/
def execSlotReadResponse (aid : Nat) (ans : Answer) (s : State) : Out :=
  match s.access aid with
  | none => .next s
  | some a =>
    if s.fatal then .next s
    else
      let s0 := (s.readEnds a ans).drainHeld
      match a.purpose with
      | .oldRead _ _ p _ => .next (if p = 0x10000 then s0.landOrphan a ans else s)
      | .slot clu idx =>
        match slotAt s0 clu idx with
        | none => .next s0
        | some x =>
          if codeSeen ans.code ≠ 0 then .next (s0.readAgain a)
          else
            match s0.land a ans.words 2 x.qid idx clu with
            | (s1, bytes, m) =>
              if m = .uncorrectable then .next (s1.readAgain a)
              else
                let ws := wordsOfBytes bytes
                match ctxOf s1 x.qid with
                | none => .next s1
                | some c =>
                  let gen := genOf c.depth x.slotIdx
                  let seeking := (x.chain.map (·.seek)).getD 0
                  let found := { x with chain := x.chain.map (fun ch => { ch with seek := 0 }) }
                  match adoptedFrom s1 x.qid, x.chain with
                  | some m, none => .next (s1.adoptSlot x c m ws)
                  | _, _ =>
                  if seeking ≠ 0 ∧ isRecord ws gen then
                    match found.chain with
                    | some ch => .next (s1.chainNext { found with resume := none } { ch with written := ch.pos })
                    | none => .next s1
                  else if dGen ws ≠ gen then .next (s1.notWhole x ws false)
                  else if dSeal ws ≠ gen then .next (s1.notWhole x ws true)
                  else .next (s1.wholeSlot found ws)
      | .parkSlot clu idx =>
        match slotAt s0 clu idx with
        | none => .next s0
        | some x =>
          if codeSeen ans.code ≠ 0 then .next (s0.readAgain a)
          else
            match s0.land a ans.words 2 x.qid idx clu with
            | (s1, bytes, m) =>
              if m = .uncorrectable then .next (s1.readAgain a)
              else
                let ws := wordsOfBytes bytes
                match ctxOf s1 x.qid with
                | none => .next s1
                | some c =>
                  let gen := genOf c.depth (x.slotIdx + 1)
                  if dGen ws = gen ∧ dSeal ws = gen then .next (s1.closeTail x)
                  else .next (s1.parkOn x)
      | _ => .next s

/-- TAIL_LINE_READ_RESPONSE (02 R69, R73, R75): the chain end word decides whether the channel follows NEXT, closes the tail
or parks; parked, the next ring slot is looked at when the doorbell covers it. -/
def execTailLineReadResponse (aid : Nat) (ans : Answer) (s : State) : Out :=
  match s.access aid with
  | none => .next s
  | some a =>
    match a.purpose with
    | .tail clu idx =>
      if s.fatal then .next s
      else
        let s0 := (s.readEnds a ans).drainHeld
        match slotAt s0 clu idx with
        | none => .next s0
        | some x =>
          if codeSeen ans.code ≠ 0 then .next (s0.readAgain a)
          else
            match s0.land a ans.words 2 x.qid idx clu with
            | (s1, bytes, m) =>
              if m = .uncorrectable then .next (s1.readAgain a)
              else
                let w := wd (wordsOfBytes bytes) 0
                let closing := (x.chain.map (·.closing)).getD false
                let seeking := (x.chain.map (·.seek)).getD 0
                if closing then .next (s1.closeTail x)
                else if seeking ≠ 0 ∧ !bit w 0 then
                  match x.chain with
                  | some ch => .next (s1.seekStep x
                      { ch with segAddr := bits w 6 58 * 64, segCount := bits w 2 4 + 1, segPos := 0, pos := ch.pos + 1 })
                  | none => .next s1
                else if !bit w 0 then .next (s1.takeAppend x (bits w 6 58 * 64) (bits w 2 4 + 1))
                else if !bit w 1 then .next (s1.closeTail x)
                else
                  let since := match x.phase with | .parked t _ => t | _ => s1.nomNs
                  let y := { x with phase := .parked since (s1.nomNs + effInterval s1 x.iid) }
                  let s2 := s1.updSlot clu idx (fun _ => y)
                  match ctxOf s2 x.qid with
                  | none => .next s2
                  | some c =>
                    let d := (c.piSeen - (x.slotIdx + 1)).toNat
                    if 1 ≤ d ∧ d ≤ c.depth then
                      .next (s2.service (chainRead s2 y (.parkSlot clu idx) (slotAddr c (x.slotIdx + 1))))
                    else .next (s2.parkOn y)
    | .oldRead _ _ p _ => .next (if decide (p = 0x10000) && !s.fatal then ((s.readEnds a ans).drainHeld).landOrphan a ans else s)
    | _ => .next s

/-- PARK_TEST (02 R73): once per effective interval a parked channel reads its tail line. -/
def execParkTest (clu slot : Nat) (s : State) : Out :=
  if 16 ≤ clu || 34 ≤ slot then .fault .noSuchUnit
  else
    match slotAt s clu slot with
    | none => .next s
    | some x =>
      match x.phase, x.chain with
      | .parked since next, some ch =>
        let mine := fun (u : Purpose) => decide (u = .tail clu slot) || decide (u = .parkSlot clu slot)
        if running s && serves s && decide (next ≤ s.nomNs) && !s.acc.any (fun a => mine a.purpose) && !s.held.any (fun h => mine h.purpose) then
          .next ((s.updSlot clu slot (fun y => { y with phase := .parked since (s.nomNs + effInterval s x.iid) })).service
            (chainRead s x (.tail clu slot) (ch.segAddr + 64 * ch.segCount)))
        else .next s
      | _, _ => .next s

/-- PARK_CEIL (02 R73 to R75): the tail of a channel whose park test has found the ceiling passed closes with TAIL_CLOSED = 1,
logged as CORRECTED. -/
def execParkCeil (clu slot : Nat) (s : State) : Out :=
  if 16 ≤ clu || 34 ≤ slot then .fault .noSuchUnit
  else
    match slotAt s clu slot with
    | none => .next s
    | some x =>
      if running s && decide (x.phase = .expired) then
        .next ((s.logErr (mkErr 0 (2 + clu) 0x35 x.iid x.qid slot clu 0 x.slotIdx.toNat ((x.chain.map (·.pos)).getD 0))).closeTail x)
      else .next s

/-- SLOT_REREAD (02 R66): the interval has passed; the queue may be bound again, or the chain's channel reads again. -/
def execSlotReread (qid : Nat) (s : State) : Out :=
  if 2 ^ 22 ≤ qid then .fault .noSuchUnit
  else
    match s.rereads.find? (fun r => r.qid == qid && (match r.due with | some t => decide (t ≤ s.nomNs) | none => false)) with
    | none => .next s
    | some r =>
      if !running s || !serves s then .next s
      else
        let same := fun (y : Reread) => y.qid == qid && decide (y.idx = r.idx)
        let s1 := { s with rereads := upd same (fun y => { y with due := none }) s.rereads }
        match (chans s qid).find? (fun x => decide (x.slotIdx = r.idx) && x.chain.isSome) with
        | some x =>
          let ch := x.chain
          .next (s1.service (chainRead s1 x (.slot x.clu x.idx) ((ch.map (fun k => k.segAddr + 64 * k.segPos)).getD 0)))
        | none =>
          let inErr := match ctxOf s1 qid with | some c => decide (c.state = qError) | none => false
          .next (if inErr then s1.addReady qid true else s1.markReady qid)

/-- The re-read of a queue that the ceiling of R67 has ended: at slot F, or of the chain under way. -/
def spentReread (s : State) (qid : Nat) (c : QCtx) : Option Reread :=
  s.rereads.find? (fun r => r.qid == qid && r.cause.isSome && (decide (c.f = r.idx) || chainReread s r))

/-- TORN_CEIL_REACHED (02 R67): the re-read count is at TORN_CEIL and the last read was not whole: TORN or STALE. What it read is
kept for an ABANDONED record (03 R123). -/
def execTornCeilReached (qid : Nat) (s : State) : Out :=
  if 2 ^ 22 ≤ qid then .fault .noSuchUnit
  else
    match ctxOf s qid with
    | none => .next s
    | some c =>
      match spentReread s qid c with
      | none => .next s
      | some r =>
        let cause := r.cause.getD 2
        if !running s then .next s
        else
          match (chans s qid).find? (fun x => decide (x.slotIdx = r.idx) && x.chain.isSome) with
          | some x => .next (s.malformed x cause)
          | none =>
            let s1 := ({ s with rereads := s.rereads.filter (fun y => !(y.qid == qid && decide (y.idx = r.idx))) }).noteSlot qid r.words
            if c.state = qError then .next (s1.furtherError qid cause)
            else .next (s1.enterError qid r.idx cause 0 (2 + r.clu) r.slot r.clu)

/-- SLOT_READ_CEIL (01 R32): a slot or tail read is issued again; the tag is quarantined. -/
def execSlotReadCeil (aid : Nat) (s : State) : Out :=
  match s.access aid with
  | none => .next s
  | some a =>
    if s.fatal || !expired s a then .next s
    else
      match a.purpose with
      | .slot _ _ => .next (((s.quarantine a).drainHeld).readAgain a)
      | .tail _ _ => .next (((s.quarantine a).drainHeld).readAgain a)
      | .parkSlot _ _ => .next (((s.quarantine a).drainHeld).readAgain a)
      | .adoptCkpt _ _ _ => .next (((s.quarantine a).drainHeld).readAgain a)
      | _ => .next s

end Sys2Proof.Machine
end

