-- ==== Sys2Proof/Machine/Data.lean ====
section
/-! DEFINITION. A moving descriptor's loaves: the bytes they hold, the values that leave, protection-information tuples,
buffer lines, the cut of the walk, and where the walk ends early (04 R140 to R149, 05 R165 to R171, 06 R196 to R212). -/

namespace Sys2Proof.Machine

/-! The walk. -/

/-- Its loaves have a loaf store (05 R169). -/
def hasStore (d : List W64) : Bool := dSrcNi d || dDstNi d

/-- Walk position b has a source address. -/
def srcHas (d : List W64) (b : Nat) : Bool := decide (b < transferLen d) && (srcSide d).has b

/-- Data bytes (no tuple, no appended byte) of walk positions below b. -/
def dataBelow (d : List W64) (b : Nat) : Nat :=
  let m := min b (transferLen d)
  if (dKind d).isPi then m / (dBlk d + dTuple d) * dBlk d + min (m % (dBlk d + dTuple d)) (dBlk d) else m

/-- Data bytes of [b, e). -/
def dataBytes (d : List W64) (b e : Nat) : Nat := dataBelow d e - dataBelow d b

/-- Source bytes of [b, e): data bytes, and the tuples where they are read. -/
def srcBytes (d : List W64) (b e : Nat) : Nat :=
  match dKind d with
  | .fill => 0
  | .piInsert => dataBytes d b e
  | _ => min e (transferLen d) - b

/-- Bytes the loaf store holds (05 R169); an open loaf counts as a full one. -/
def storeBytes (d : List W64) (l : Loaf) : Nat :=
  if (dKind d).noDest || l.closed then srcBytes d l.b0 l.b1 else 4096

/-- The chain position of a slot; 0 in a ring. -/
def chainPosOf (x : Slot) : Nat := (x.chain.map (·.pos)).getD 0

/-- The first walk position at or after b that is on a side of data blocks; b itself elsewhere. -/
def destSkip (d : List W64) (b : Nat) : Nat :=
  match dstSide d with
  | .blocks _ blk t => blocksSkip blk t b
  | _ => b

/-! Bytes held. -/

/-- A word of a fragment, decoded (06 R213). -/
def Frag.word (ws : List (W64 × Byte)) (i : Nat) : W64 × EccMark :=
  match ws[i]? with | some w => secdedDecode w.1 w.2 | none => (0, .clean)

/-- Byte k of a fragment, with the state of its word and of the word's copy. -/
def Frag.byteAt (f : Frag) (k : Nat) : Byte × EccMark × EccMark :=
  let d := Frag.word f.words ((f.ofs + k) / 8)
  (BitVec.ofNat 8 (d.1.toNat / 2 ^ (8 * ((f.ofs + k) % 8))), d.2, (Frag.word f.copy ((f.ofs + k) / 8)).2)

/-- Walk position b lies in the fragment. -/
def Frag.has (f : Frag) (b : Nat) : Bool := decide (f.walkB ≤ b) && decide (b < f.walkB + f.len)

/-- The byte of walk position b that some fragments hold, with the state of its word and of the word's copy. -/
def fragByte (fs : List Frag) (b : Nat) : Option (Byte × EccMark × EccMark) :=
  (fs.find? (fun f => f.has b)).map (fun f => f.byteAt (b - f.walkB))

/-- The loaf whose range holds walk position b. -/
def loafAt (x : Slot) (b : Nat) : Option Loaf := x.loaves.find? (fun l => decide (l.b0 ≤ b) && decide (b < l.b1))

/-- The source byte of walk position b, as landed. -/
def srcByte (x : Slot) (b : Nat) : Option (Byte × EccMark × EccMark) :=
  match loafAt x b with
  | some l => fragByte l.frags b
  | none => none

/-- The source bytes of n positions from b on; none while one is missing. -/
def srcRun (x : Slot) (b n : Nat) : Option (List Byte) :=
  (List.range n).foldr (fun i acc =>
    match srcByte x (b + i), acc with
    | some v, some vs => some (v.1 :: vs)
    | _, _ => none) (some [])

/-- The loaf is the first that has not committed. -/
def isHead (x : Slot) (num : Nat) : Bool := (x.loaves.head?.map (·.num)) == some num

/-! Protection information (06 R202 to R212). -/

/-- The check code of the guards. -/
def piCode (d : List W64) : CheckCode := if dPiFmt d then .crc64 else .crc16

/-- The guard of block n (06 R203), over its committed bytes and those that the loaves hold; none while one is missing. -/
def guardOf (x : Slot) (n : Nat) : Option W64 :=
  let d := x.desc
  let c := piCode d
  let done := if x.piBlk = n then min x.piOfs (dBlk d) else 0
  let reg := if x.piBlk = n then x.piGuard else c.init
  (srcRun x (n * (dBlk d + dTuple d) + done) (dBlk d - done)).map (fun bs => c.reg reg bs ^^^ c.init)

/-- Block n's expected or inserted reference tag (06 R206). -/
def refTagOf (d : List W64) (n : Nat) : Nat :=
  let m := if dPiFmt d then 2 ^ 48 else 2 ^ 32
  match dRefMode d with
  | 1 => (dRefTag d + n) % m
  | 2 => dRefTag d % m
  | _ => 0

/-- The tuple that PI_INSERT writes for block n (06 R202, R206, R207). -/
def tupleOf (d : List W64) (n : Nat) (guard : W64) : List Byte :=
  if dPiFmt d then beBytes 8 guard.toNat ++ beBytes 2 (dAppTag d) ++ beBytes 6 (refTagOf d n)
  else beBytes 2 guard.toNat ++ beBytes 2 (dAppTag d) ++ beBytes 4 (refTagOf d n)

/-- The verdict on a tuple read for block n: DETAIL bits of the fields that fail (06 R206 to R209). -/
def tupleVerdict (d : List W64) (n : Nat) (guard : W64) (t : List Byte) : Nat :=
  let g := if dPiFmt d then beNat (t.take 8) else beNat (t.take 2)
  let app := if dPiFmt d then beNat ((t.drop 8).take 2) else beNat ((t.drop 2).take 2)
  let ref := if dPiFmt d then beNat (t.drop 10) else beNat (t.drop 4)
  let ones := if dPiFmt d then 2 ^ 48 - 1 else 2 ^ 32 - 1
  if decide (app = 0xFFFF) && (decide (dRefMode d ≠ 2) || decide (ref = ones)) then 0
  else flag (decide (g ≠ guard.toNat)) + 2 * flag (decide ((app ^^^ dAppTag d) &&& dAppMask d ≠ 0)) +
    4 * flag (decide (dRefMode d ≠ 0) && decide (ref ≠ refTagOf d n))

/-- The verdict on block n; none while a byte of it or of its tuple is missing. -/
def judgeOf (x : Slot) (n : Nat) : Option Nat :=
  let d := x.desc
  let had := if x.piBlk = n then x.piOfs - dBlk d else 0
  match guardOf x n, srcRun x (n * (dBlk d + dTuple d) + dBlk d + had) (dTuple d - had) with
  | some g, some t => some (tupleVerdict d n g (x.piTuple.take had ++ t))
  | _, _ => none

/-- Blocks whose tuples end in (a, e], in order. -/
def tuplesIn (d : List W64) (a e : Nat) : List Nat :=
  let u := dBlk d + dTuple d
  (List.range (e / u - a / u)).map (fun i => a / u + i)

/-- Protection-information state after the walk has committed up to b (06 R212). The bytes of a tuple that straddles two loaves are
kept in the slot once the first has committed, and not in its checkpoint, whose fields (08 R250) hold none (DESIGN CHOICE, log entry
45). -/
def Slot.piCommit (x : Slot) (b : Nat) : Slot :=
  let d := x.desc
  if !(dKind d).isPi then x
  else
    let u := dBlk d + dTuple d
    let n := b / u
    let ofs := b % u
    let had := if x.piBlk = n then min x.piOfs (dBlk d) else 0
    let reg := if x.piBlk = n then x.piGuard else (piCode d).init
    let more := (srcRun x (n * u + had) (min ofs (dBlk d) - had)).getD []
    let hadT := if x.piBlk = n then x.piOfs - dBlk d else 0
    let tup := (srcRun x (n * u + dBlk d + hadT) (ofs - dBlk d - hadT)).getD []
    { x with piBlk := n, piOfs := ofs, piGuard := (piCode d).reg reg more, piRef := BitVec.ofNat 64 (refTagOf d n),
             piTuple := if dKind d = .piInsert then [] else (if x.piBlk = n then x.piTuple else []) ++ tup }

/-! Bytes that leave. -/

/-- Every entry of an SG list is read and none is faulty, or the opcode has no list (03 R104). -/
def listSound (x : Slot) (bad : Option (Nat × Nat × Nat × Nat)) : Bool :=
  decide (dKind x.desc ≠ .sglist) || (bad.isNone && (List.range (dNelem x.desc)).all (fun k => (entryOf x.entries k).isSome))

/-- Walk position b carries a value that depends on bytes of an earlier loaf than l (06 R200): an appended check byte, or a
byte of a tuple whose block begins in an earlier loaf. -/
def dependsEarlier (d : List W64) (l : Loaf) (b : Nat) : Bool :=
  decide (transferLen d ≤ b) ||
  (decide (dKind d = .piInsert) && decide (dBlk d ≤ b % (dBlk d + dTuple d)) &&
    decide (b / (dBlk d + dTuple d) * (dBlk d + dTuple d) < l.b0))

/-- The appended check bytes (06 R199), once every earlier loaf is folded and the loaf's own data is here. -/
def appendBytes (x : Slot) (l : Loaf) (own : Option (List Byte)) : Option (List Byte) :=
  let c := dChkSel x.desc
  if !isHead x l.num then none
  else own.map (fun bs => c.bytesOf (c.fold x.fold (c.reg 0 bs) bs.length ^^^ c.init))

/-- The byte that leaves for walk position b of loaf l; none while something it needs is missing. -/
def outByte (x : Slot) (l : Loaf) (b : Nat) : Option Byte :=
  let d := x.desc
  let tl := transferLen d
  if tl ≤ b then
    let own := if dKind d = .fill then
        some ((List.range (tl - l.b0)).map (fun i => (leBytes 8 (wd d 2).toNat).getD ((l.b0 + i) % 8) 0))
      else srcRun x l.b0 (tl - l.b0)
    (appendBytes x l own).map (fun bs => bs.getD (b - tl) 0)
  else if dKind d = .fill then some ((leBytes 8 (wd d 2).toNat).getD (b % 8) 0)
  else if decide (dKind d = .piInsert) && decide (dBlk d ≤ b % (dBlk d + dTuple d)) then
    if dependsEarlier d l b && !isHead x l.num then none
    else
      let n := b / (dBlk d + dTuple d)
      (guardOf x n).map (fun g => (tupleOf d n g).getD (b % (dBlk d + dTuple d) - dBlk d) 0)
  else (srcByte x b).map (·.1)

/-- The bytes that leave for a list of positions; none while one is missing. -/
def outRun (x : Slot) (l : Loaf) (ps : List Nat) : Option (List Byte) :=
  ps.foldr (fun b acc =>
    match outByte x l b, acc with
    | some v, some vs => some (v :: vs)
    | _, _ => none) (some [])

/-- The open request of Lens is closed: it is ready to be issued (04 R156). Answers the slot and the requests counted. -/
def closeLens (x : Slot) : Slot × Nat :=
  match x.lens with
  | none => (x, 0)
  | some r => ({ x with lens := none, lensReady := x.lensReady ++ [r] }, 1)

/-! Slots and loaves in the state. -/

/-- One loaf of a slot changed. -/
def Slot.updLoaf (x : Slot) (num : Nat) (f : Loaf → Loaf) : Slot :=
  { x with loaves := upd (fun l => l.num == num) f x.loaves }

/-- One loaf of a slot. -/
def loafOf (x : Slot) (num : Nat) : Option Loaf := x.loaves.find? (fun l => l.num == num)

/-- A slot's descriptor has met a fault that its own row acts on: until then nothing of it goes on. -/
def stalled (x : Slot) : Bool := x.retireBy.isSome || x.fabOver.isSome || x.relOver.isSome

/-- The slot moves data or drains its end. -/
def dataPhase (x : Slot) : Bool := decide (x.phase = .moving) || decide (x.phase = .ending)

/-- A descriptor's own write: of its current attempt. -/
def ownWrite (clu slot num : Nat) (a : Access) : Bool := decide (a.purpose = .write clu slot num)

/-- An unanswered write of a dropped attempt of loaf num of a descriptor (08 R246). -/
def oldWriteOf (x : Slot) (num : Nat) (a : Access) : Bool :=
  decide (a.purpose = .oldWrite x.qid x.slotIdx (chainPosOf x) num)

/-- Requests of a descriptor that are not answered (03 R122): data and table reads, writes of any attempt. -/
def owed (x : Slot) (a : Access) : Bool :=
  match a.purpose with
  | .data c k _ => decide (c = x.clu) && decide (k = x.idx)
  | .table c k _ _ => decide (c = x.clu) && decide (k = x.idx)
  | .write c k _ => decide (c = x.clu) && decide (k = x.idx)
  | .oldWrite q i p _ => decide (q = x.qid) && decide (i = x.slotIdx) && decide (p = chainPosOf x)
  | .oldRead q i p _ => decide (q = x.qid) && decide (i = x.slotIdx) && decide (p = chainPosOf x)
  | _ => false

/-- Nothing of the descriptor is unanswered. -/
def allAnswered (s : State) (x : Slot) : Bool := !s.acc.any (owed x)

/-! Buffer lines (05 R167 to R171). -/

/-- POOL_MAX. -/
def poolMax (s : State) (clu : Nat) : Nat := clamp 80 1920 (s.fld .cluRobCtl clu 0 11)

/-- Buffer lines, of the partition and of the pool, that reads of dropped attempts hold for a slot until their answers (05 R175, 18
R520). -/
def oldHolds (s : State) (clu idx : Nat) : Nat × Nat :=
  let as := s.acc.filter (fun a => decide (a.port = clu) && decide (a.holder = idx))
  ((as.map (fun a => a.rob.1)).sum, (as.map (fun a => a.rob.2)).sum)

/-- Pool lines granted to a slot's reservations of one kind, and to all of them. -/
def grantOf (x : Slot) (k : ResKind) : Nat := ((x.grant.filter (fun g => g.1 == k)).map (·.2)).sum

/-- Pool lines of a slot's own reads, loaves and grants. -/
def poolOwn (x : Slot) : Nat := (x.lines.map (·.pool)).sum + (x.loaves.map (·.capt)).sum + (x.grant.map (·.2)).sum

/-- Pool lines a slot holds. -/
def poolHeld (s : State) (x : Slot) : Nat := poolOwn x + (oldHolds s x.clu x.idx).2

/-- Pool lines held in a cluster. -/
def poolUsed (s : State) (clu : Nat) : Nat :=
  ((s.slots.filter (fun x => x.clu == clu)).map poolOwn).sum + ((s.acc.filter (fun a => a.port == clu)).map (fun a => a.rob.2)).sum

/-- Free partition lines of a slot; its store occupies them where it has one. -/
def partFree (s : State) (x : Slot) : Nat :=
  if hasStore x.desc then 0 else 64 - (x.lines.map (·.part)).sum - (oldHolds s x.clu x.idx).1

/-- The reservations of a cluster that wait for pool lines: slot, kind, lines wanted, place. -/
def poolWaits (s : State) (clu : Nat) : List (Nat × ResKind × Nat × Nat) :=
  (s.slots.filter (fun x => x.clu == clu)).flatMap (fun x => x.poolWait.map (fun w => (x.idx, w.1, w.2.1, w.2.2)))

/-- The reservation of a cluster that has waited longest (05 R171). -/
def oldestWait (s : State) (clu : Nat) : Option (Nat × ResKind × Nat × Nat) := leastBy (fun w => w.2.2.2) (poolWaits s clu)

/-- The place of a reservation of a cluster that begins to wait now: behind those that wait (05 R171). -/
def waitPlace (s : State) (clu : Nat) : Nat := ((poolWaits s clu).map (fun w => w.2.2.2)).foldl max 0 + 1

/-- A reservation of n lines: the slot and the lines of each kind, or the slot as it waits for the pool behind the older reservations
of the cluster, its own among them (05 R171). -/
def reserve (s : State) (x : Slot) (k : ResKind) (n : Nat) (poolOnly : Bool) : Slot × Option (Nat × Nat) :=
  let part := if poolOnly then 0 else min n (partFree s x)
  let need := n - part
  let g := grantOf x k
  let took : Slot := { x with grant := x.grant.filter (fun g => g.1 != k), poolWait := x.poolWait.filter (fun w => w.1 != k) }
  if need ≤ g then (took, some (part, need))
  else if poolMax s x.clu < poolHeld s x - g + need then (x, none)
  else
    let first := match oldestWait s x.clu with | some w => decide (w.1 = x.idx) && decide (w.2.1 = k) | none => true
    if first && decide (poolUsed s x.clu - g + need ≤ 1920) then (took, some (part, need))
    else (if x.poolWait.any (fun w => w.1 == k) then x else { x with poolWait := x.poolWait ++ [(k, need, waitPlace s x.clu)] }, none)

/-- POOL_LINE_GRANT (05 R171): free pool lines go to the reservation that has waited longest, if they suffice for it. -/
def execPoolLineGrant (clu : Nat) (s : State) : Out :=
  if 16 ≤ clu then .fault .noSuchUnit
  else
    match oldestWait s clu with
    | none => .next s
    | some (i, k, need, _) =>
      if !s.fatal && decide (poolUsed s clu + need ≤ 1920) then
        .next (s.updSlot clu i (fun y => { y with grant := (k, need) :: y.grant, poolWait := y.poolWait.filter (fun w => w.1 != k) }))
      else .next s

/-- A line whose bytes have passed the check engine is freed (05 R168): not one with source bytes that a write held back carries (06
R200). -/
def Slot.freePassed (x : Slot) : Slot :=
  if hasStore x.desc then x
  else
    let gone := fun (r : Lines) =>
      !r.table &&
      match loafOf x r.loaf with
      | some l => decide (r.lastB ≤ l.passB) && (match l.skip with
        | some k => !(List.range (min r.lastB k.2 - max r.firstB k.1)).any (fun i => srcHas x.desc (max r.firstB k.1 + i))
        | none => true)
      | none => true
    { x with lines := dropIf gone x.lines }

/-- Every position of [a, e) with a source byte has landed in loaf l. -/
def landedAll (d : List W64) (l : Loaf) (a e : Nat) : Bool :=
  (List.range (e - a)).all (fun i => !srcHas d (a + i) || (fragByte l.frags (a + i)).isSome)

/-- The store's lines of the slot's first loaf are packed: landing lines whose bytes are here are freed (05 R170). -/
def Slot.pack (x : Slot) : Slot :=
  match x.loaves with
  | l :: _ =>
    if hasStore x.desc then
      let y := x.updLoaf l.num (fun m => { m with stored := true })
      { y with lines := dropIf (fun r => r.ofLoaf l.num && landedAll x.desc l r.firstB r.lastB) y.lines }
    else x
  | [] => x

/-- The walk position of the byte at offset k of a loaf's store, which is packed in walk order (05 R169). -/
def packedPos (d : List W64) (l : Loaf) (k : Nat) : Option Nat :=
  ((List.range (l.b1 - l.b0)).find? (fun i => srcHas d (l.b0 + i) && decide (srcBytes d l.b0 (l.b0 + i) = k))).map (l.b0 + ·)

/-- The number of the buffer line that holds walk position b of a loaf: a line of the slot's partition or of the pool (05 R167 to
R170). Which one of them it is is left open, but for a store, whose bytes stand packed in the partition. -/
def bufferLine (x : Slot) (l : Loaf) (b v : Nat) : Nat :=
  if hasStore x.desc && l.stored then
    let k := srcBytes x.desc l.b0 b
    if k < 4096 then 64 * x.idx + k / 64 else 2176 + v % 1920
  else
    match x.lines.find? (fun r => r.ofLoaf l.num && decide (r.firstB ≤ b) && decide (b < r.lastB)) with
    | some r => if r.pool = 0 then 64 * x.idx + v % 64 else 2176 + v % 1920
    | none => if hasStore x.desc then 2176 + v % 1920 else 64 * x.idx + v % 64

/-! Where the walk ends early (04 R143, R145, R149). -/

/-- The first faulty element of an SG list among the entries read: walk position, status, DETAIL, W5 (04 R145, 03 R104). -/
def badListFrom (d : List W64) (es : Entries) : Nat → Nat → Nat → Option (Nat × Nat × Nat × Nat)
  | 0, _, _ => none
  | f + 1, k, sum =>
    if dNelem d ≤ k then (if sum < (wd d 4).toNat then some (sum, 4, 16, dNelem d) else none)
    else
      match entryOf es k with
      | none => none
      | some (a, e1) =>
        let len := e1 % 2 ^ 32
        if len = 0 then some (sum, 4, 1, k)
        else if 2 ^ 32 ≤ e1 then some (sum, 4, 2, k)
        else if 2 ^ 64 < a + len then some (sum, 4, 4, k)
        else if (wd d 4).toNat < sum + len then some (sum, 4, 8, k)
        else badListFrom d es f (k + 1) (sum + len)

/-- The first out-of-bounds index among the entries held (04 R149): its element's walk position, INDEX_BOUNDS, W5. -/
def badIndex (d : List W64) (es : Entries) : Option (Nat × Nat × Nat × Nat) :=
  (leastBy (fun e => e.1) (es.filter (fun e => decide ((wd d 5).toNat ≤ e.2.1)))).map (fun e => (e.1 * dElem d, 3, 0, e.1))

/-- The first faulty element of the walk, as far as the entries are read: walk position, status, DETAIL, W5. -/
def badAt (x : Slot) : Option (Nat × Nat × Nat × Nat) :=
  match dKind x.desc with
  | .sglist => badListFrom x.desc x.entries (x.entries.length + 1) 0 0
  | .gather => badIndex x.desc x.entries
  | .scatter => badIndex x.desc x.entries
  | _ => none

/-- The walk as far as it may be cut: its end, or the first faulty element known. -/
def walkLimit (x : Slot) : Nat :=
  match badAt x with
  | some b => min x.walkEnd b.1
  | none => x.walkEnd

/-! Cutting loaves (04 R140 to R142). -/

/-- The range of the loaf that begins at b, as far as it is known: its end and whether that is decided. -/
def loafRange (x : Slot) (b : Nat) : Nat × Bool := loafEnd (cutSide x.desc) x.entries (walkLimit x) b 0 none

/-- A loaf as it begins. -/
def newLoaf (num b0 b1 : Nat) (closed : Bool) (fab : Nat) : Loaf :=
  { num := num, b0 := b0, b1 := b1, closed := closed, readB := b0, writeB := b0, passB := b0, judged := b0, chkReg := 0,
    chkLen := 0, released := false, releases := 0, fab := fab, internal := 0, backoff := none,
    again := false, stored := false, skip := none, capt := 0, relBad := none, relAckMax := none, formed := [], frags := [] }

/-- The open loaf takes the entries read since. -/
def Slot.extend (x : Slot) : Slot :=
  { x with
    loaves := upd (fun l => !l.closed) (fun l => let r := loafRange x l.b0; { l with b1 := max l.b1 r.1, closed := r.2 }) x.loaves,
    cutB := match x.loaves.getLast? with
      | some l => if l.closed then x.cutB else max x.cutB (loafRange x l.b0).1
      | none => x.cutB }

/-- The next loaf may begin (08, 01 R36, 09 R305): the cluster is neither paused nor held, and the loaf before is closed. -/
def mayCut (s : State) (x : Slot) : Bool :=
  decide (x.phase = .moving) && !stalled x && !clusterPaused s x.clu && decide (x.cutB < walkLimit x) && x.nextBackoff.isNone &&
  (match x.loaves.getLast? with | some l => l.closed | none => true)

/-- The next loaf of the walk begins; nothing changes where none may or its first entry is not read. -/
def cutNext (s : State) (x : Slot) : Slot :=
  if !mayCut s x then x
  else
    let r := loafRange x x.cutB
    if r.1 ≤ x.cutB then x
    else
      let l := newLoaf x.cutNum x.cutB r.1 r.2 x.nextFab
      ({ x with loaves := x.loaves ++ [l], cutB := r.1, cutNum := x.cutNum + 1, nextFab := 0 }).pack

end Sys2Proof.Machine
end

