-- ==== Sys2Proof/Machine/Replay.lean ====
section
/-! DEFINITION. Faults on accepted descriptors: attempts dropped and begun again, the end of a descriptor with a status,
slots retired and descriptors moved, clusters out of service (08 R252 to R269, 03 R120 to R122, 05 R181, R191). -/

namespace Sys2Proof.Machine

/-! Dropping attempts. -/

/-- The writes of a loaf's attempt become writes of a dropped one; beats not yet sent go out poisoned (08 R257). So do those of a
released DST_NI loaf whose descriptor ends, or whose cluster's switch is forced, while those that CLU_WR_CEIL leaves unsent do not
(`execDataWriteCeil`): R257 settles neither (DESIGN CHOICE, log entry 48). -/
def State.dropWrites (s : State) (x : Slot) (num : Nat) : State :=
  let old := fun (a : Access) =>
    { a with purpose := .oldWrite x.qid x.slotIdx (chainPosOf x) num, poisoned := decide (a.toSend ≠ 0) }
  { s with acc := upd (ownWrite x.clu x.idx num) old s.acc }

/-- No one waits any more for the data reads of a loaf. -/
def State.dropReads (s : State) (x : Slot) (num : Nat) : State :=
  { s with acc := upd (fun a => decide (a.purpose = .data x.clu x.idx num)) (orphaned x) s.acc }

/-- A loaf before its attempt; `keep` where its source bytes are kept (08 R256). -/
def Loaf.fresh (l : Loaf) (keep : Bool) : Loaf :=
  { l with readB := l.b0, writeB := l.b0, passB := l.b0, judged := l.b0, chkReg := 0, chkLen := 0, released := false, skip := none, relBad := none, relAckMax := none, formed := [],
           frags := if keep then l.frags else [] }

/-- The walk ranges of the elements of an SG list that are read, in order: number, first position, position after it. -/
def listRanges (es : Entries) : Nat → Nat → Nat → List (Nat × Nat × Nat)
  | 0, _, _ => []
  | f + 1, k, sum =>
    match entryOf es k with
    | none => []
    | some (_, len) => (k, sum, sum + len) :: listRanges es f (k + 1) (sum + len)

/-- The numbers of the elements read that hold a byte of [b, e) (04 R151). Of an SG list in which an earlier entry is not read yet the
later entries' ranges are not known; `openEnd` tells that the loaf's end is not either: they may lie in it. -/
def elementsIn (x : Slot) (b e : Nat) (openEnd : Bool) : List Nat :=
  let flat := (x.entries.filter (fun r => (openEnd || decide (r.1 * dElem x.desc < e)) && decide (b < (r.1 + 1) * dElem x.desc))).map (·.1)
  match dKind x.desc with
  | .sglist =>
    let rs := listRanges x.entries (x.entries.length + 1) 0 0
    (rs.filter (fun r => (openEnd || decide (r.2.1 < e)) && decide (b < r.2.2))).map (·.1) ++
      (if openEnd then (x.entries.filter (fun r => decide (rs.length ≤ r.1))).map (·.1) else [])
  | .gather => flat
  | .scatter => flat
  | _ => []

/-- Entries are to be read again before they are used (04 R151). -/
def Slot.markStale (x : Slot) (ks : List Nat) : Slot := { x with stale := x.stale ++ ks.filter (fun k => !x.stale.contains k) }

/-- Requests of Lens for a loaf that are not issued are dropped: their elements are taken again. -/
def Slot.dropLens (y : Slot) (num : Nat) : Slot :=
  { y with lens := if (y.lens.map (·.loaf)) = some num then none else y.lens, lensReady := dropIf (fun r => r.loaf == num) y.lensReady }

/-- A loaf's attempt is dropped: its accesses are no longer its own, its lines are freed, its entries are to be read again (04
R151); a capture loaf keeps its bytes and its reads (08 R256, 05 R185). -/
def State.dropAttempt (s : State) (clu idx num : Nat) : State :=
  match slotAt s clu idx with
  | none => s
  | some x =>
    match loafOf x num with
    | none => s
    | some l =>
      let cap := dSrcNi x.desc
      let s1 := s.dropWrites x num
      let s2 := if cap then s1 else s1.dropReads x num
      let els := elementsIn x l.b0 l.b1 (!l.closed)
      s2.updSlot clu idx (fun y =>
        { ((y.updLoaf num (fun m => m.fresh cap)).markStale els).dropLens num with
          lines := if cap then y.lines else dropIf (fun r => r.ofLoaf num) y.lines })

/-- Loaf attempts begun again are counted (08 R269, 13 R402) and their source pulses. -/
def State.countReplays (s : State) (clu idx n : Nat) : State :=
  match slotAt s clu idx with
  | none => s
  | some x =>
    let s1 := s.updSlot clu idx (fun y => { y with replays := y.replays + n })
    let s2 := (s1.bump .cluReplayStat clu 0 16 n).addIs3 (instCtr x.iid + 6) n
    let s3 := s2.countCtx x.qid (fun c => { c with replays := c.replays + BitVec.ofNat 16 n })
    (List.range n).foldl (fun t _ => t.pulse (8 * clu) 0) s3

/-- A loaf's new attempt begins. -/
def State.beginAttempt (s : State) (clu idx num : Nat) : State :=
  (s.updSlot clu idx (fun y => y.updLoaf num (fun l => { l with again := true, backoff := none }))).countReplays clu idx 1

/-! The end of a descriptor. -/

/-- Nothing of the descriptor's writes is unanswered. -/
def writesAnswered (s : State) (x : Slot) : Bool := !s.acc.any (fun a => a.write && owed x a)

/-- An outstanding write of the loaf's own. -/
def ownWriteOpen (s : State) (x : Slot) : Bool :=
  s.acc.any (fun a => match a.purpose with | .write c k _ => decide (c = x.clu) && decide (k = x.idx) | _ => false)

/-- Twice the ceiling of an access has not passed since its issue (08 R246, R266, R271). -/
def withinTwice (s : State) (a : Access) : Bool := decide (s.nomNs < a.due + a.ceilNs)

/-- A write of a dropped attempt of a descriptor that counts as unanswered: loaf num's, or any loaf's (08 R246, R266). -/
def oldWriteOpen (s : State) (x : Slot) (num : Option Nat) : Bool :=
  let mine := fun (a : Access) => match a.purpose with
    | .oldWrite q i p n => decide (q = x.qid) && decide (i = x.slotIdx) && decide (p = chainPosOf x) &&
        (match num with | some k => decide (n = k) | none => true)
    | _ => false
  s.acc.any (fun a => mine a && withinTwice s a) || s.quar.any (fun q => mine q.acc && withinTwice s q.acc)

/-- A descriptor that leaves its slot waits for the writes of a released loaf (08 R266): all writes of a DST_NI descriptor are. -/
def moveWaits (s : State) (x : Slot) : Bool := ownWriteOpen s x || (dDstNi x.desc && oldWriteOpen s x none)

/-- The walk is committed to its end: the final comparison of CHECK is made (06 R201), and the descriptor finishes; one
that ends with a status finishes once its requests are answered (03 R122). -/
def State.settle (s : State) (clu idx : Nat) : State :=
  match slotAt s clu idx with
  | none => s
  | some x =>
    match x.phase with
    | .moving =>
      let done := x.loaves.isEmpty && decide (x.walkEnd ≤ x.cutB) && !stalled x
      let c := dChkSel x.desc
      let bad := decide (x.status = 0) && decide (dKind x.desc = .check) && dFlagB0 x.desc &&
        decide (x.fold ^^^ c.init ≠ wd x.desc 2)
      let ready := if bad then allAnswered s x
        else if x.status = 0 then listSound x (badAt x)
        else if x.status = 6 then allAnswered s x else writesAnswered s x
      if done && ready then
        ((s.updSlot clu idx (fun y => if bad then { y with status := 5 } else y)).orphanReads clu idx).finish clu idx
      else s
    | .ending => if x.loaves.isEmpty && allAnswered s x then s.finish clu idx else s
    | _ => s

/-- Every request of the loaf is issued and answered data is on its way: it can still commit when the descriptor issues no
more. -/
def fullyRequested (x : Slot) (l : Loaf) : Bool :=
  l.closed && l.backoff.isNone && l.relBad.isNone && decide (srcBytes x.desc l.readB l.b1 = 0) &&
  !(x.lens.toList ++ x.lensReady).any (fun r => r.loaf == l.num) &&
  ((dKind x.desc).noDest || (decide (l.b1 ≤ l.writeB) && l.skip.isNone))

/-- Loaves from position n of the slot's list on are dropped. -/
def State.dropLoaves (s : State) (x : Slot) (n : Nat) : State :=
  let gone := x.loaves.drop n
  let s1 := gone.foldl (fun t l => (t.dropWrites x l.num).dropReads x l.num) s
  s1.updSlot x.clu x.idx (fun y =>
    { y with loaves := y.loaves.take n,
             lens := if y.lens.toList.any (fun r => gone.any (fun l => l.num == r.loaf)) then none else y.lens,
             lensReady := dropIf (fun r => gone.any (fun l => l.num == r.loaf)) y.lensReady,
             lines := dropIf (fun r => gone.any (fun l => r.ofLoaf l.num)) y.lines })

/-- The loaf and every later one of a descriptor that has ended cannot commit any more. -/
def State.dropFrom (s : State) (x : Slot) (num : Nat) : State :=
  (s.dropLoaves x (x.loaves.takeWhile (fun l => decide (l.num ≠ num))).length).settle x.clu x.idx

/-- A descriptor ends with a status that lets it issue nothing more (03 R122): one CONTAINED record for the faults of
outside (11 R356), loaves that are wholly requested may still commit, `bad` cannot. One that is ending keeps its status (10 R329,
R330). -/
def State.endWith (s : State) (clu idx status : Nat) (detail : BitVec 6) (w5 : Nat) (bad : Option Nat) : State :=
  match slotAt s clu idx with
  | none => s
  | some x =>
    if x.phase = .ending then (match bad with | some n => s.dropFrom x n | none => s)
    else
      let s1 := if 7 ≤ status ∧ status ≤ 9 then
          s.logErr (mkErr 2 (2 + clu) (0x15 + status) x.iid x.qid idx clu (detail.setWidth 8) x.slotIdx.toNat w5)
        else s
      let n := (x.loaves.takeWhile (fun l => fullyRequested x l && decide (some l.num ≠ bad))).length
      let ended := fun (y : Slot) => { y with
        phase := .ending, status := status, detail := detail, w5 := BitVec.ofNat 64 w5, fabOver := none, relOver := none,
        retireBy := none, nextBackoff := none, grant := [], poolWait := [], lens := none, lensReady := [] }
      ((s1.dropLoaves x n).updSlot clu idx ended).settle clu idx

/-- The write's spans end at or before p. -/
def writeBelow (p : Nat) (a : Access) : Bool := a.spans.all (fun sp => decide (sp.1 + sp.2.2 ≤ p))

/-- A loaf cut at walk position p (04 R143, 06 R210): writes not wholly before p are dropped and what lies before p is
requested again, and passes the check engine again. `late` are the first positions of the dropped writes. -/
def Loaf.cutAt (x : Slot) (p : Nat) (late : List Nat) (l : Loaf) : Loaf :=
  if l.b1 ≤ p then { l with closed := true }
  else
    let c := dChkSel x.desc
    let w := late.foldl min (min l.writeB p)
    let pass := if (dKind x.desc).noDest then min l.passB p else min l.passB w
    let e := min pass (transferLen x.desc)
    { l with b1 := p, closed := true, writeB := w, passB := pass,
             chkReg := if pass < l.passB then c.reg 0 ((srcRun x l.b0 (e - l.b0)).getD []) else l.chkReg,
             chkLen := if pass < l.passB then e - l.b0 else l.chkLen,
             skip := match l.skip with
               | some k => if p ≤ k.1 then none else some (k.1, min k.2 p)
               | none => none }

/-- The walk ends at p with a status: the loaf in progress is cut there, loaves behind it are dropped, and those before it
commit (04 R143, 06 R210). -/
def State.endCut (s : State) (clu idx p status : Nat) (detail : BitVec 6) (w5 : Nat) : State :=
  match slotAt s clu idx with
  | none => s
  | some x =>
    let s1 := s.dropLoaves x (x.loaves.filter (fun l => decide (l.b0 < p))).length
    let beyond := s1.acc.filter (fun a => match a.purpose with
      | .write c k _ => decide (c = clu) && decide (k = idx) && !writeBelow p a
      | _ => false)
    let old := fun (a : Access) =>
      { a with
        purpose := (match a.purpose with
          | .write _ _ n => .oldWrite x.qid x.slotIdx (chainPosOf x) n
          | u => u),
        poisoned := decide (a.toSend ≠ 0) }
    let s2 := { s1 with acc := upd (fun a => beyond.any (fun o => o.aid == a.aid)) old s1.acc }
    let late := beyond.filterMap (fun a => a.spans.head?.map (·.1))
    let n := match slotAt s2 clu idx with | some y => (closeLens y).2 | none => 0
    ((s2.bump .cluLensReqs clu 0 32 n).updSlot clu idx (fun y =>
      { (closeLens y).1 with
        loaves := y.loaves.map (Loaf.cutAt x p late), walkEnd := p, cutB := min y.cutB p, status := status,
        detail := detail, w5 := BitVec.ofNat 64 w5, nextBackoff := none })).settle clu idx

/-- The table or list of the descriptor is that of its destination. -/
def tableOfDest (d : List W64) : Bool := decide (dKind d = .scatter) || (decide (dKind d = .sglist) && dFlagB0 d)

/-- A faulty element takes effect when the walk has reached it: every byte before it is walked (04 R146, R149). A side is walked
as its requests are formed: the writes' where the table is the destination's (for an SG list a DESIGN CHOICE, log entry 45; Lens
compares an index as it takes the element, R149), else the reads'. -/
def State.walkFault (s : State) (clu idx : Nat) : State :=
  match slotAt s clu idx with
  | none => s
  | some x =>
    match badAt x with
    | none => s
    | some (p, st, det, w5) =>
      if decide (x.phase = .moving) && decide (x.status = 0) && !stalled x && decide (p ≤ x.cutB) &&
          x.loaves.all (fun l => if tableOfDest x.desc then decide (min l.b1 p ≤ l.writeB) && l.skip.isNone
            else decide (min l.b1 p ≤ l.readB) || !srcHas x.desc l.readB) then
        s.endCut clu idx p st (BitVec.ofNat 6 det) w5
      else s

/-! Replay causes (08 R252, R255, R258 to R260). -/

/-- One REPLAYED record (08 R255). -/
def State.logReplay (s : State) (x : Slot) (code : Nat) (detail : BitVec 8) (arg1 : Nat) : State :=
  s.logErr (mkErr 1 (2 + x.clu) code x.iid x.qid x.idx x.clu detail x.slotIdx.toNat arg1)

/-- FAB_MAX. -/
def fabMax (s : State) (clu : Nat) : Nat := max 1 (s.fld .cluReplayCtl clu 0 8)

/-- The backoff before the m-th fabric-kind replay, in ns (08 R258). -/
def backoffNs (s : State) (clu m : Nat) : Nat := s.fld .cluReplayCtl clu 8 8 * 100 * min (2 ^ (m - 1)) 64

/-- An internal-kind fault of a loaf: the fourth on a slot retires it (08 R260). -/
def State.internalFault (s : State) (clu idx num code : Nat) : State :=
  match slotAt s clu idx with
  | none => s
  | some x =>
    match loafOf x num with
    | none => s
    | some l =>
      let s1 := s.logReplay x code 0 l.b0
      if x.phase = .ending then s1.dropFrom x num
      else
        let s2 := (s1.dropAttempt clu idx num).updSlot clu idx (fun y =>
          let z := y.updLoaf num (fun m => { m with internal := m.internal + 1 })
          if l.internal + 1 ≤ 3 then z else { z with retireBy := some code })
        if l.internal + 1 ≤ 3 then s2.beginAttempt clu idx num else s2

/-- The entries read that the loaf to be cut next needs, or may need (04 R151, R153). -/
def nextElements (x : Slot) : List Nat := let r := loafRange x x.cutB; elementsIn x x.cutB r.1 (!r.2)

/-- A fabric-kind fault of a loaf, or of the loaf to be cut next: past FAB_MAX the descriptor is to end, else the attempt
begins after the backoff (08 R258, R259); the entries of its elements are read again (04 R151). A backoff ends at the time that
BACKOFF gave when the fault came, whatever is written to it since (DESIGN CHOICE, log entry 48). -/
def State.fabricFault (s : State) (clu idx num code : Nat) (read : Bool) (detail : BitVec 6) (addr : Nat) : State :=
  match slotAt s clu idx with
  | none => s
  | some x =>
    let s1 := s.logReplay x code (detail.setWidth 8) addr
    if stalled x then s1
    else
      match loafOf x num with
      | none =>
        if x.phase = .ending then s1
        else if fabMax s clu < x.nextFab + 1 then s1.updSlot clu idx (fun y => { y with nextFab := y.nextFab + 1, fabOver := some (read, detail, addr) })
        else
          let w := backoffNs s clu (x.nextFab + 1)
          s1.updSlot clu idx (fun y => { y.markStale (nextElements x) with nextFab := y.nextFab + 1, nextBackoff := if w = 0 then none else some (s.nomNs + w) })
      | some l =>
        if x.phase = .ending then s1.dropFrom x num
        else
          let s2 := (s1.dropAttempt clu idx num).updSlot clu idx (fun y => y.updLoaf num (fun m => { m with fab := m.fab + 1 }))
          if fabMax s clu < l.fab + 1 then s2.updSlot clu idx (fun y => { y with fabOver := some (read, detail, addr) })
          else
            let w := backoffNs s clu (l.fab + 1)
            if w = 0 then s2.beginAttempt clu idx num
            else s2.updSlot clu idx (fun y => y.updLoaf num (fun m => { m with backoff := some (s.nomNs + w) }))

/-- REPLAY_BACKOFF_END (08 R258): the backoff has passed and the loaf's new attempt begins. -/
def execReplayBackoffEnd (clu slot loaf : Nat) (s : State) : Out :=
  if 16 ≤ clu || 34 ≤ slot then .fault .noSuchUnit
  else
    match slotAt s clu slot with
    | none => .next s
    | some x =>
      match loafOf x loaf with
      | some l =>
        match l.backoff with
        | some t => if running s && decide (t ≤ s.nomNs) then .next (s.beginAttempt clu slot loaf) else .next s
        | none => .next s
      | none =>
        match x.nextBackoff with
        | some t =>
          if running s && decide (loaf = x.cutNum) && decide (t ≤ s.nomNs) then .next (s.updSlot clu slot (fun y => { y with nextBackoff := none }))
          else .next s
        | none => .next s

/-- FAB_MAX_EXCEEDED (08 R259): the descriptor ends with SRC_FAULT or DST_FAULT, by the side of the last cause. -/
def execFabMaxExceeded (clu slot : Nat) (s : State) : Out :=
  if 16 ≤ clu || 34 ≤ slot then .fault .noSuchUnit
  else
    match (slotAt s clu slot).bind (·.fabOver) with
    | some (read, detail, addr) =>
      if running s then .next ((s.bump .cluReplayStat clu 24 8 1).endWith clu slot (if read then 7 else 8) detail addr none)
      else .next s
    | none => .next s

/-- RELEASE_LIMIT (05 R191): a retryable error during the fourth release ends the descriptor with STREAM_FAULT. -/
def execReleaseLimit (clu slot : Nat) (s : State) : Out :=
  if 16 ≤ clu || 34 ≤ slot then .fault .noSuchUnit
  else
    match slotAt s clu slot with
    | some x =>
      match x.relOver with
      | some (detail, addr) =>
        if running s then .next (s.endWith clu slot 9 detail addr (x.loaves.head?.map (·.num))) else .next s
      | none => .next s
    | none => .next s

/-! Retirement and moves (08 R260 to R266). -/

/-- Cluster `clu` goes out of service (08 R263): its adopter is recorded and takes over what it had adopted. -/
def State.goOutOfService (s : State) (clu cause : Nat) : State :=
  if outOfService s clu then s
  else
    let s1 := s.setFld .cluMirrorStat clu 4 1 1
    let ad := adopterOf s1 clu
    let s2 := (s1.setFld .cluMirrorStat clu 5 4 (ad.getD clu)).setFld .cluMirrorStat clu 9 2 cause
    let s3 := ((List.range 16).filter (fun n => decide (n ≠ clu) && outOfService s2 n && decide (s2.fld .cluMirrorStat n 5 4 = clu))).foldl
      (fun t n => t.setFld .cluMirrorStat n 5 4 ((adopterOf t n).getD n)) s2
    let s4 := { s3 with moving := s3.moving.map (fun (m : Nat × Slot) => if m.1 = clu then ((ad.getD clu), m.2) else m) }
    s4.logErr (mkErr 3 (2 + clu) 0x41 0 0 63 0 0 cause (ad.getD 0xFF))

/-- A slot is retired (08 R262, R263). -/
def State.retireSlot (s : State) (x : Slot) (code : Nat) : State :=
  let s1 := if x.idx < 32 then s.setFld .cluRetired x.clu x.idx 1 1 else s.setFld .cluMirrorStat x.clu (x.idx - 32) 1 1
  let s2 := (s1.logErr (mkErr 3 (2 + x.clu) 0x40 x.iid x.qid x.idx x.clu 0 x.idx code)).pulse (8 * x.clu + 6) 0
  let s3 := s2.noteFull x.clu
  if s3.fld .cluMirrorStat x.clu 0 2 = 3 then s3.goOutOfService x.clu 1
  else if s3.rd .cluRetired x.clu = 0xFFFFFFFF then s3.goOutOfService x.clu 3
  else s3

/-- A Mirror is free for a moved descriptor. -/
def mirrorFree (s : State) (clu k : Nat) : Bool := (slotAt s clu k).isNone && !slotRetired s clu k

/-- The target of a move (08 R261): the cluster, and the Mirror where it is one of the same cluster. -/
def moveTarget (s : State) (clu idx : Nat) : Option (Nat × Option Nat) :=
  match ([32, 33].filter (fun k => decide (k ≠ idx))).find? (fun k => mirrorFree s clu k) with
  | some k => some (clu, some k)
  | none => (adopterOf s clu).map (fun m => (m, none))

/-- A descriptor as it leaves a slot (08 R260): every uncommitted loaf is to begin again, its entries to be read again from the
one that its checkpoint names (LIST_K, R250); a released loaf goes on as it is, and a loaf with a store keeps it. -/
def Slot.leave (x : Slot) : Slot :=
  { x with
    loaves := x.loaves.map (fun l =>
      let h := isHead x l.num
      let m := if l.released then l else l.fresh (dSrcNi x.desc || l.stored)
      { m with internal := 0, backoff := none, again := true, fab := if h then l.fab else 0,
               releases := if h then l.releases else 0 }),
    lines := [], grant := [], poolWait := [], stale := x.entries.map (·.1), lens := none, lensReady := [], retireBy := none,
    stateBad := false, copyBad := false, nextFab := 0, nextBackoff := none, phase := .moving }

/-- Lines of the store that moves with a descriptor (05 R181, 08 R265). -/
def storeLines (x : Slot) : Nat :=
  match x.loaves with
  | l :: _ => if l.stored then ((l.frags.map (·.len)).sum + 63) / 64 else 0
  | [] => 0

/-- A moved descriptor begins on its new slot: its loaves' new attempts, its checkpoint, and its store's way there. -/
def State.placeMoved (s : State) (y : Slot) (clu idx : Nat) (bridged : Bool) : State :=
  let x := { y with clu := clu, idx := idx }
  let n := storeLines x
  let s1 := { s with slots := x :: s.slots,
                     takeover := if n = 0 || bridged then s.takeover else s.takeover ++ [(clu, idx, n)],
                     bridge := if n = 0 || !bridged then s.bridge else s.bridge ++ [(clu, idx, n)] }
  let s2 := if idx < 32 then s1.noteFull clu else s1.setFld .cluMirrorStat clu (idx - 30) 1 1
  ((s2.countReplays clu idx (x.loaves.filter (fun l => !l.released)).length).putCkpt (ckptOf x)).settle clu idx

/-- The address that names the first uncommitted byte (08 R251, R261): its source address, else its destination address. -/
def firstAddress (x : Slot) : Nat :=
  let b := (x.loaves.head?.map (·.b0)).getD x.cutB
  match (srcSide x.desc).addr x.entries b with
  | some a => a
  | none => ((dstSide x.desc).addr x.entries b).getD 0

/-- The checkpoint of a slot is lost: the table's two copies and the slot's own (08 R251). -/
def ckptGone (s : State) (x : Slot) : Bool :=
  x.copyBad && s.ckpt.any (fun k => k.clu == x.clu && k.idx == x.idx && copyLost k.copy0 && copyLost k.copy1)

/-- A descriptor whose checkpoint is lost, or whose move has no target, ends with SRC_FAULT and DETAIL 0x3F, logged as `code` (08
R251, R261, R268). -/
def State.endLost (s : State) (x : Slot) (code : Nat) : State :=
  let w5 := firstAddress x
  let s1 := s.logErr (mkErr 3 (2 + x.clu) code x.iid x.qid x.idx x.clu 0x3F x.slotIdx.toNat w5)
  (s1.updSlot x.clu x.idx (fun y => { y with phase := .moving })).endWith x.clu x.idx 7 0x3F w5 (x.loaves.head?.map (·.num))

/-- The descriptor of a retired slot moves to its target from its checkpoint, or ends where either is missing (08 R251, R261). -/
def State.moveAway (s : State) (clu idx : Nat) : State :=
  match slotAt s clu idx with
  | none => s
  | some x =>
    let s0 := { s with ckpt := s.ckpt.filter (fun k => !(k.clu == clu && k.idx == idx)),
                       slots := s.slots.filter (fun y => !(y.clu == clu && y.idx == idx)) }
    let s1 := if idx < 32 then s0 else s0.setFld .cluMirrorStat clu (idx - 30) 1 0
    if ckptGone s x then s.endLost x 0x43
    else
    match moveTarget s1 clu idx with
    | none => s.endLost x 0x50
    | some (m, some k) => (s1.bump .cluReplayStat clu 16 8 1).placeMoved x.leave m k false
    | some (m, none) => { s1.bump .cluReplayStat clu 16 8 1 with moving := s1.moving ++ [(m, x.leave)] }

/-- A leaving descriptor moves once the writes of a released loaf are answered, or twice their ceiling has passed (08 R266). -/
def State.leaveNow (s : State) (clu idx : Nat) : State :=
  match slotAt s clu idx with
  | some x => if decide (x.phase = .leaving) && !moveWaits s x then s.moveAway clu idx else s
  | none => s

/-- SLOT_RETIRED (08 R260 to R266): the slot is retired; its descriptor stops there, and moves once the writes of a released
loaf are answered. -/
def execSlotRetired (clu slot : Nat) (s : State) : Out :=
  if 16 ≤ clu || 34 ≤ slot then .fault .noSuchUnit
  else
    match slotAt s clu slot with
    | none => .next s
    | some x =>
      match x.retireBy with
      | none => if running s then .next (s.leaveNow clu slot) else .next s
      | some code =>
        if !running s then .next s
        else
          let s1 := s.retireSlot x code
          let stop := x.loaves.filter (fun l => !l.released)
          let s2 := stop.foldl (fun t l => (t.dropWrites x l.num).dropReads x l.num) s1
          let s3 := (s2.orphanReads clu slot).updSlot clu slot (fun y => { y with phase := .leaving, retireBy := none })
          .next (s3.leaveNow clu slot)

/-- DESCRIPTOR_PLACED (08 R264): the descriptor that has waited longest for cluster `clu` takes its first free channel, else
its first free Mirror. -/
def execDescriptorPlaced (clu : Nat) (s : State) : Out :=
  if 16 ≤ clu then .fault .noSuchUnit
  else
    match s.moving.find? (fun m => m.1 == clu && !m.2.squashed) with
    | none => .next s
    | some (_, y) =>
      let k := match (freeChannels s clu).head? with
        | some c => some c
        | none => [32, 33].find? (fun k => mirrorFree s clu k)
      match k with
      | none => .next s
      | some k =>
        if running s then .next (({ s with moving := s.moving.erase (clu, y) }).placeMoved y clu k true) else .next s

/-- The records of a squashed descriptor that has no slot, and of its LINK (10 R329, R330). -/
def movedRecords (s : State) (y : Slot) : List Record :=
  let x := stampedDone s y
  match y.chain with
  | none => y.kept ++ [recordOf s x (x.recordWords false) 0 (recordAddr s x)]
  | some ch =>
    let link := linkSlot s x { ch with written := ch.written + 1 }
    y.kept ++ [recordOf s x (x.recordWords (decide (ch.segCount ≤ ch.segPos + 1))) ch.pos (recordAddr s x),
      recordOf s link (link.recordWords (decide (ch.segCount ≤ ch.segPos + 1))) 0 (recordAddr s link)]

/-- A descriptor squashed while it waited for a place is done: its requests are answered (03 R122) and the record store has room. -/
def movedDone (s : State) (m : Nat × Slot) : Bool :=
  m.2.squashed && allAnswered s m.2 && decide (s.records.length + (movedRecords s m.2).length ≤ 1024)

/-- Squashed descriptors that have no slot place their records as soon as they are done, at most n of them. -/
def State.settleMoving (s : State) : Nat → State
  | 0 => s
  | n + 1 =>
    match s.moving.find? (movedDone s) with
    | none => s
    | some m =>
      ((movedRecords s m.2).foldl (fun (t : State) r => t.placeRecord r) { s with moving := s.moving.erase m }).settleMoving n

/-- STORE_BRIDGE_TRANSFER (08 R265): the oldest waiting store is carried to the receiving cluster. -/
def execStoreBridgeTransfer (s : State) : Out :=
  if running s then .next { s with bridge := s.bridge.tail } else .next s

/-! Restarts (08 R252, R253, R267). -/

/-- Every uncommitted loaf of a slot's descriptor begins again from its checkpoint (08 R253, R267): no count of a loaf advances, a
backoff runs on, and each loaf whose attempt begins again now counts as a replay (R269). One that is ending issues nothing more
(03 R122), so its loaves are dropped; one whose checkpoint is lost ends (R251). -/
def State.restartSlot (s : State) (x : Slot) : State :=
  if x.phase = .ending then (s.dropLoaves x 0).settle x.clu x.idx
  else if ckptGone s x then s.endLost x 0x43
  else
    let t1 := x.loaves.foldl (fun u l => u.dropAttempt x.clu x.idx l.num) s
    let t2 := t1.updSlot x.clu x.idx (fun y =>
      { y with loaves := y.loaves.map (fun l =>
          let was := (loafOf x l.num).map (·.released)
          { l with again := true, releases := if was = some true then l.releases - 1 else l.releases }) })
    t2.countReplays x.clu x.idx (x.loaves.filter (fun l => l.backoff.isNone)).length

/-- The slots of a cluster whose descriptors a restart of scope Cluster concerns. -/
def restarts (s : State) (clu : Nat) : List Slot :=
  s.slots.filter (fun x => decide (x.clu = clu) &&
    (decide (x.phase = .moving) || decide (x.phase = .leaving) || decide (x.phase = .ending)))

/-- A restart of scope Cluster (08 R253, R267, 11 R363). -/
def State.restartCluster (s : State) (clu : Nat) : State := (restarts s clu).foldl (fun t x => t.restartSlot x) s

/-- How many loaves begin again. -/
def loavesOn (s : State) (clu : Nat) : Nat :=
  (((restarts s clu).filter (fun x => decide (x.phase ≠ .ending))).map
    (fun x => (x.loaves.filter (fun l => l.backoff.isNone)).length)).sum

/-- An uncorrectable word in the channel state of a slot is found (08 R252): an internal-kind cause of scope Slot, counted on the
first uncommitted loaf, and on none where no loaf is begun (DESIGN CHOICE, log entry 48); the fourth retires the slot (R260). -/
def State.slotFault (s : State) (x : Slot) : State :=
  let s0 := s.updSlot x.clu x.idx (fun y => { y with stateBad := false })
  match x.loaves.head? with
  | none => s0.logReplay x 0x24 0 x.cutB
  | some l =>
    let s1 := s0.logReplay x 0x24 0 l.b0
    if decide (x.phase = .ending) || decide (l.internal + 1 ≤ 3) then
      (s1.updSlot x.clu x.idx (fun y => y.updLoaf l.num (fun m => { m with internal := m.internal + 1 }))).restartSlot x
    else
      (x.loaves.foldl (fun u m => u.dropAttempt x.clu x.idx m.num) s1).updSlot x.clu x.idx (fun y =>
        { y.updLoaf l.num (fun m => { m with internal := m.internal + 1 }) with retireBy := some 0x24 })

/-- A slot whose descriptor uses its channel state, where a word of it is uncorrectable. -/
def stateFault (x : Slot) : Bool := x.stateBad && dataPhase x && !stalled x

end Sys2Proof.Machine
end

