-- ==== Sys2Proof/Machine/Move.lean ====
section
/-! DEFINITION. Accepted descriptors begin (03 R94, R108 to R113), and Prism and Lens issue their requests (04 R133 to R158,
05 R162 to R171, R182). -/

namespace Sys2Proof.Machine

/-! The rows of the opcodes. -/

/-- An accepted descriptor of opcode k on a slot. -/
def acceptedOn (s : State) (clu slot : Nat) (k : OpKind) : Option Slot :=
  match slotAt s clu slot with
  | some x => if decide (x.phase = .accepted) && decide (dKind x.desc = k) && running s then some x else none
  | none => none

/-- A descriptor of an adopted queue resumes from its checkpoint, or ends where an NI side makes that impossible (14 R440). -/
def State.resumeFrom (s : State) (x : Slot) (ws : List W64) : State :=
  let b := (wd ws 2).toNat
  if bits (wd ws 1) 0 16 ≠ chainPosOf x then s.updSlot x.clu x.idx (fun _ => cutNext s { x with phase := .moving })
  else
    let y := { x with
      phase := .moving, adopted := true, cutB := b, cutNum := bits (wd ws 1) 32 16, commits := bits (wd ws 1) 32 16,
      bytes := (wd ws 3).toNat, fold := wd ws 4, piGuard := wd ws 5, piBlk := bits (wd ws 6) 0 32,
      piOfs := bits (wd ws 6) 32 14, piRef := BitVec.ofNat 64 (bits (wd ws 7) 0 48), replays := bits (wd ws 1) 16 16 }
    let s1 := s.updSlot x.clu x.idx (fun _ => y)
    let at' := fun (sd : Side) => (sd.addr y.entries b).getD 0
    if dSrcNi x.desc then s1.endWith x.clu x.idx 7 0x3F (at' (srcSide x.desc)) none
    else if dDstNi x.desc then s1.endWith x.clu x.idx 9 0x3F (at' (dstSide x.desc)) none
    else ((s1.updSlot x.clu x.idx (fun _ => cutNext s y)).putCkpt (ckptOf y)).fedCkpt y

/-- An accepted data opcode begins its walk: its first loaf is cut as far as its entries are known (04 R140, R142). -/
def beginData (k : OpKind) (clu slot : Nat) (s : State) : Out :=
  if 16 ≤ clu || 34 ≤ slot then .fault .noSuchUnit
  else
    match acceptedOn s clu slot k with
    | none => .next s
    | some x =>
      match x.resume with
      | none => .next (s.updSlot clu slot (fun _ => cutNext s { x with phase := .moving }))
      | some ws => .next (s.resumeFrom { x with resume := none } ws)

/-- COPY (03 R97, R98; 04 R133, R134). -/
def execCopy (clu slot : Nat) (s : State) : Out := beginData .copy clu slot s
/-- GATHER (03 R100, R101). -/
def execGather (clu slot : Nat) (s : State) : Out := beginData .gather clu slot s
/-- SCATTER (03 R100 to R102). -/
def execScatter (clu slot : Nat) (s : State) : Out := beginData .scatter clu slot s
/-- SGLIST (03 R104; 04 R144 to R147). -/
def execSglist (clu slot : Nat) (s : State) : Out := beginData .sglist clu slot s
/-- FILL (03 R105). -/
def execFill (clu slot : Nat) (s : State) : Out := beginData .fill clu slot s
/-- CHECK (03 R106, 06 R201). -/
def execCheck (clu slot : Nat) (s : State) : Out := beginData .check clu slot s
/-- PI_INSERT (06 R202 to R207). -/
def execPiInsert (clu slot : Nat) (s : State) : Out := beginData .piInsert clu slot s
/-- PI_STRIP (06 R208 to R211). -/
def execPiStrip (clu slot : Nat) (s : State) : Out := beginData .piStrip clu slot s
/-- PI_VERIFY (06 R208 to R211). -/
def execPiVerify (clu slot : Nat) (s : State) : Out := beginData .piVerify clu slot s

/-- LINK (03 R108, 02 R69, R72): the channel runs the chain, from the first descriptor of its first segment. -/
def execLink (clu slot : Nat) (s : State) : Out :=
  if 16 ≤ clu || 34 ≤ slot then .fault .noSuchUnit
  else
    match (if serves s then acceptedOn s clu slot .link else none) with
    | none => .next s
    | some x =>
      let ch : Chain :=
        { linkDesc := x.desc, linkFetch := x.fetchTs.setWidth 64, linkAttrs := x.attrs, linkUnsync := x.unsynced,
          linkStep := x.fetchStep, segAddr := (wd x.desc 1).toNat,
          segCount := bits (wd x.desc 2) 0 4 + 1, segPos := 0, pos := 1, written := 0, heldRec := none, closing := false,
          seek := (x.resume.map (fun ws => bits (wd ws 1) 0 16)).getD 0 }
      let y := { x with chain := some ch, phase := .slotRead }
      if ch.seek ≠ 0 then .next (s.seekStep x ch)
      else .next ((s.updSlot clu slot (fun _ => y)).service (chainRead s y (.slot clu slot) ch.segAddr))

/-- A record of an earlier descriptor of the queue is not acknowledged (03 R127). -/
def earlierOpen (s : State) (x : Slot) : Bool :=
  let p := chainPosOf x
  let before := fun (q : Nat) (i : W32) (cp : Nat) => decide (q = x.qid) && (decide (i ≠ x.slotIdx) || (decide (cp ≠ 0) && decide (cp < p)))
  let f := fun (u : Purpose) => match u with | .record q i cp _ _ => before q i cp | _ => false
  (match ctxOf s x.qid with | some c => decide (c.q ≠ x.slotIdx) | none => false) ||
  s.acc.any (fun a => f a.purpose) || s.held.any (fun h => f h.purpose) ||
  (finishedRecs s x.qid).any (fun r => decide (r.idx = x.slotIdx) && before r.qid r.idx r.chainPos)

/-- FENCE (03 R127) holds its channel until every earlier record is acknowledged. -/
def execFence (clu slot : Nat) (s : State) : Out :=
  if 16 ≤ clu || 34 ≤ slot then .fault .noSuchUnit
  else
    match acceptedOn s clu slot .fence with
    | none => .next s
    | some x => .next (s.updSlot clu slot (fun _ => { x with phase := .fencing }))

/-- FENCE_COMPLETE (03 R127). -/
def execFenceComplete (clu slot : Nat) (s : State) : Out :=
  if 16 ≤ clu || 34 ≤ slot then .fault .noSuchUnit
  else
    match slotAt s clu slot with
    | some x => if running s && decide (x.phase = .fencing) && !earlierOpen s x then .next (s.finish clu slot) else .next s
    | none => .next s

/-- SIGNAL (03 R110) waits for the earlier records. -/
def execSignal (clu slot : Nat) (s : State) : Out :=
  if 16 ≤ clu || 34 ≤ slot then .fault .noSuchUnit
  else
    match acceptedOn s clu slot .signal with
    | none => .next s
    | some x => .next (s.updSlot clu slot (fun _ => { x with phase := .signalling }))

/-- SIGNAL_PULSE (03 R110, 12 R374): the pulse on source 128 + SIG_NUM, then the descriptor's own record. -/
def execSignalPulse (clu slot : Nat) (s : State) : Out :=
  if 16 ≤ clu || 34 ≤ slot then .fault .noSuchUnit
  else
    match slotAt s clu slot with
    | some x =>
      if running s && decide (x.phase = .signalling) && !earlierOpen s x then
        .next ((s.pulse (128 + bits (wd x.desc 1) 0 4) 0).finish clu slot)
      else .next s
    | none => .next s

/-- WAIT (03 R111, R112) holds its channel until its flag is seen set or WAIT_US passes. -/
def execWait (clu slot : Nat) (s : State) : Out :=
  if 16 ≤ clu || 34 ≤ slot then .fault .noSuchUnit
  else
    match acceptedOn s clu slot .wait with
    | none => .next s
    | some x => .next (s.updSlot clu slot (fun _ => { x with phase := .waiting (s.nomNs + 1000 * bits (wd x.desc 2) 0 22) }))

/-- A slot of a cluster that waits for a flag. -/
def waitsOn (clu f : Nat) (x : Slot) : Bool :=
  decide (x.clu = clu) && decide (bits (wd x.desc 1) 0 6 = f) && (match x.phase with | .waiting _ => true | _ => false)

/-- The WAIT has not expired (03 R112). -/
def waitLasts (s : State) (x : Slot) : Bool := match x.phase with | .waiting due => decide (s.nomNs < due) | _ => false

/-- The WAIT saw its flag set before a clear of it reached its cluster (03 R113). -/
def sawFlag (s : State) (x : Slot) : Bool := s.lateFlags.contains (x.clu, x.idx)

/-- A WAIT clears its flag in EVM (03 R113). The WAITs on it in other clusters have seen it set, and the clear reaches them later:
until the block's next tick they may still complete. -/
def State.clearSeenFlag (s : State) (clu f : Nat) : State :=
  let others := (s.slots.filter (fun y => decide (y.clu ≠ clu) && waitsOn y.clu f y)).map (fun y => (y.clu, y.idx))
  { s.clearWaitFlag f with lateFlags := s.lateFlags ++ others.filter (fun p => !s.lateFlags.contains p) }

/-- WAIT_FLAG_SEEN (03 R112, R113): every WAIT of the cluster on a flag that it sees set, and that has not expired, completes with
OK; one with CLEAR_FLAG clears it. -/
def execWaitFlagSeen (clu f : Nat) (s : State) : Out :=
  if 16 ≤ clu || 64 ≤ f then .fault .noSuchUnit
  else if !running s then .next s
  else
    let ws := s.slots.filter (fun x => waitsOn clu f x && waitLasts s x && (waitFlag s f || sawFlag s x))
    let s0 := { s with lateFlags := s.lateFlags.filter (fun p => !ws.any (fun x => decide (p = (x.clu, x.idx)))) }
    let s1 := if waitFlag s f && ws.any (fun x => dFlagB0 x.desc) then s0.clearSeenFlag clu f else s0
    .next (ws.foldl (fun t x => t.finish clu x.idx) s1)

/-- WAIT_TIMEOUT (03 R112). -/
def execWaitTimeout (clu slot : Nat) (s : State) : Out :=
  if 16 ≤ clu || 34 ≤ slot then .fault .noSuchUnit
  else
    match slotAt s clu slot with
    | some x =>
      match x.phase with
      | .waiting due =>
        if running s && decide (due ≤ s.nomNs) then .next ((s.updSlot clu slot (fun y => { y with status := 0x0A })).finish clu slot)
        else .next s
      | _ => .next s
    | none => .next s

/-- NOP (03 R109) completes at once. -/
def execNop (clu slot : Nat) (s : State) : Out :=
  if 16 ≤ clu || 34 ≤ slot then .fault .noSuchUnit
  else
    match acceptedOn s clu slot .nop with
    | none => .next s
    | some _ => .next (s.finish clu slot)

/-! Requests. -/

/-- An earlier data descriptor of the queue whose writes are not all acknowledged (03 R126). -/
def earlierWrites (s : State) (x : Slot) : Bool :=
  match ctxOf s x.qid with
  | none => false
  | some c =>
    let before := fun (i : W32) => decide ((i - c.q).toNat < (x.slotIdx - c.q).toNat)
    let busy := fun (y : Slot) => decide (y.qid = x.qid) && before y.slotIdx && (dKind y.desc).isData && !(dKind y.desc).noDest &&
      !(decide (y.phase = .slotRead) || decide (y.phase = .proofed) || decide (y.phase = .finished))
    s.slots.any busy || s.moving.any (fun m => busy m.2) ||
    s.acc.any (fun a => match a.purpose with | .oldWrite q i _ _ => decide (q = x.qid) && before i | _ => false)

/-- The slot may issue requests: it moves data, is not held (09 R305), and ORDERED is satisfied (03 R126). -/
def mayIssue (s : State) (x : Slot) : Bool :=
  running s && serves s && decide (x.phase = .moving) && !stalled x && (!dOrdered x.desc || !earlierWrites s x)

/-- The attributes of a data request (05 R182), of those that the descriptor took from its queue when it was accepted (09 R294). -/
def dataAttrs (x : Slot) (write : Bool) : Attrs :=
  let ni := if write then dDstNi x.desc else dSrcNi x.desc
  { x.attrs with
    ro := x.attrs.ro && !(write && dDstNi x.desc), tphEn := write && x.attrs.tphEn, tphSt := if write then x.attrs.tphSt else 0,
    tphPh := if write then x.attrs.tphPh else 0, cls := x.cls, idem := !ni }

/-- A request of a slot on its cluster's port. -/
def dataHeld (x : Slot) (u : Purpose) (write : Bool) (addr len : Nat) (attrs : Attrs) : Held :=
  { mkHeld u 0 write addr len attrs [] x.iid with port := some x.clu, holder := x.idx, classU := decide (x.cls = 0) }

/-- The port has a credit and a tag for a request of the slot (05 R174, 18 R517). -/
def portReady (s : State) (x : Slot) (write : Bool) : Bool :=
  hasCredit s x.clu write 0 && tagOk s x.clu write x.idx (decide (x.cls = 0)) &&
  !barredUntil s x.clu (some (if write then 1 else 0))

/-- A request won against the others at its port arbiter is issued. `beats` are left to the datapath arbiter. -/
def State.issueData (s : State) (x : Slot) (h : Held) (spans : List (Nat × Nat × Nat)) (losers : List Nat) : Option State :=
  (s.portGrant x.clu (if h.write then 1 else 0) losers).map (fun t =>
    t.issueAt x.clu h x.idx (decide (x.cls = 0)) spans 0 (if h.write then linesTouched h.addr h.len else 0))

/-- Address and length of the range that spans cover. -/
def spanRange (sp : List (Nat × Nat × Nat)) : Nat × Nat :=
  match sp.head?, sp.getLast? with
  | some a, some z => (a.2.1, z.2.1 + z.2.2 - a.2.1)
  | _, _ => (0, 0)

/-! Turns (04 R154, 05 R164). -/

/-- The slots of a cluster in the order of their turns: local slots 0 to 31, M0 and M1 in rotation, from the one behind that which
was served last. -/
def turnOrder (s : State) (key : Nat) : List Nat :=
  match assocGet s.turns key with
  | some l => (List.range 34).filter (fun k => decide (l < k)) ++ (List.range 34).filter (fun k => decide (k ≤ l))
  | none => List.range 34

/-- It is the turn of slot x among the slots of its cluster that `wants` picks: the others are passed over. -/
def hasTurn (s : State) (key : Nat) (x : Slot) (wants : Slot → Bool) : Bool :=
  (turnOrder s key).find? (fun k => k == x.idx || (slotAt s x.clu k).any wants) == some x.idx

/-- The slot has had its turn. -/
def State.tookTurn (s : State) (key idx : Nat) : State := { s with turns := assocPut s.turns key idx }

/-- None of the entries that walk positions [b, e) need is to be read again first (04 R151). -/
def entriesFresh (x : Slot) (b e : Nat) : Bool := (elementsIn x b e false).all (fun k => !x.stale.contains k)

/-! Lens (04 R154 to R157). -/

/-- GAP_MAX. -/
def gapMax (s : State) (clu : Nat) : Nat := s.fld .cluLensCtl clu 0 8
/-- MERGE_OFF. -/
def mergeOff (s : State) (clu : Nat) : Bool := bit (s.rd .cluLensCtl clu) 23
/-- IDX_AHEAD. -/
def idxAhead (s : State) (clu : Nat) : Nat := clamp 1 16 (s.fld .cluLensCtl clu 18 5)

/-- One element passed to Prism: requests cut before multiples of 256 (04 R155 row 2, 05 R162). -/
def prismPieces (num : Nat) : Nat → Nat → Nat → Nat → List LensReq
  | 0, _, _, _ => []
  | f + 1, b, a, n =>
    if n = 0 then []
    else
      let m := min n (256 - a % 256)
      { start := a, stop := a + m - 1, loaf := num, spans := [(b, a, m)] } :: prismPieces num f (b + m) (a + m) (n - m)

/-- Lens takes the next element of loaf l, by the first row of R155 that applies. Answers the slot, the elements and the requests
counted. Of an element whose bytes lie in two loaves each loaf's part is taken as an element of its own, and counts as a request of
its own, as a request never serves two loaves (R158) and the table speaks of whole elements (DESIGN CHOICE, log entry 45). -/
def lensTake (s : State) (x : Slot) (l : Loaf) (write : Bool) : Slot × Nat × Nat :=
  let d := x.desc
  let b := if write then l.writeB else l.readB
  let e := b / dElem d
  match (if x.stale.contains e then none else entryOf x.entries e) with
  | none => (x, 0, 0)
  | some (i, _) =>
    let c := closeLens x
    if (wd d 5).toNat ≤ i then (c.1, 0, c.2)
    else
      let base := if write then (wd d 2).toNat else (wd d 1).toNat
      let whole := base + i * 2 ^ dScale d
      let a := whole + b % dElem d
      let n := min ((e + 1) * dElem d) l.b1 - b
      let top := a + n - 1
      let one : LensReq := { start := a, stop := top, loaf := l.num, spans := [(b, a, n)] }
      let alone := decide (256 < dElem d) || decide (whole / 4096 ≠ (whole + dElem d - 1) / 4096)
      let fits := fun (r : LensReq) => decide (top - r.start < 256) && decide (r.start / 4096 = top / 4096)
      let y : Slot × Nat :=
        if mergeOff s x.clu && !alone then ({ c.1 with lensReady := c.1.lensReady ++ [one] }, c.2 + 1)
        else if alone then ({ c.1 with lensReady := c.1.lensReady ++ prismPieces l.num 17 b a n }, c.2 + 1)
        else
          match x.lens with
          | none => ({ x with lens := some one }, 0)
          | some r =>
            if r.loaf ≠ l.num then ({ c.1 with lens := some one }, c.2)
            else if !write && decide (r.start ≤ a) && decide (top ≤ r.stop) then
              ({ x with lens := some { r with spans := r.spans ++ [(b, a, n)] } }, 0)
            else if !write && decide (r.stop < a) && decide (a ≤ r.stop + 1 + gapMax s x.clu) && fits r then
              ({ x with lens := some { r with stop := top, spans := r.spans ++ [(b, a, n)] } }, 0)
            else if write && decide (a = r.stop + 1) && fits r then
              ({ x with lens := some { r with stop := top, spans := r.spans ++ [(b, a, n)] } }, 0)
            else ({ c.1 with lens := some one }, c.2)
      let z := y.1.updLoaf l.num (fun m => if write then { m with writeB := b + n } else { m with readB := b + n })
      let last := if min (transferLen d) x.walkEnd ≤ b + n then closeLens z else (z, 0)
      (last.1, flag (decide (b % dElem d = 0)), y.2 + last.2)

/-- LENS_HOLD_EXPIRY (04 R157): the open request is closed as it stands. -/
def execLensHoldExpiry (clu slot : Nat) (s : State) : Out :=
  if 16 ≤ clu || 34 ≤ slot then .fault .noSuchUnit
  else
    match slotAt s clu slot with
    | some x =>
      if running s && x.lens.isSome then
        .next ((s.updSlot clu slot (fun y => (closeLens y).1)).bump .cluLensReqs clu 0 32 1)
      else .next s
    | none => .next s

/-! Reads. -/

/-- The first position from b on that no interval covers and that has a source byte. -/
def needFrom (d : List W64) (ivs : List (Nat × Nat)) (stop : Nat) : Nat → Nat → Option Nat
  | 0, _ => none
  | f + 1, b0 =>
    let b := match srcSide d with | .blocks _ blk t => blocksSkip blk t b0 | _ => b0
    if stop ≤ b then none
    else
      match ivs.find? (fun v => decide (v.1 ≤ b) && decide (b < v.1 + v.2)) with
      | some v => needFrom d ivs stop f (v.1 + v.2)
      | none => some b

/-- Positions of a loaf that have landed or are on their way. -/
def readCover (s : State) (x : Slot) (l : Loaf) : List (Nat × Nat) :=
  l.frags.map (fun f => (f.walkB, f.len)) ++
  (s.acc.filter (fun a => decide (a.purpose = .data x.clu x.idx l.num))).flatMap (fun a => a.spans.map (fun sp => (sp.1, sp.2.2)))

/-- Where the walk must stop for a faulty element: no byte of it or of a later one is moved, though its fault waits for the walk to reach
it (03 R104, 04 R146, R563). -/
def walkStop (x : Slot) (e : Nat) : Nat := match badAt x with | some b => min e b.1 | none => e

/-- The next stretch of a loaf to be read: its first position and where it must stop. -/
def readNeed (s : State) (x : Slot) (l : Loaf) : Option (Nat × Nat) :=
  if l.backoff.isSome then none
  else
    let stop := walkStop x (min l.b1 (transferLen x.desc))
    let ivs := readCover s x l
    (needFrom x.desc ivs stop (ivs.length + 2) l.readB).map (fun b =>
      (b, ivs.foldl (fun m v => if b < v.1 then min m v.1 else m) stop))

/-- The first loaf in walk order with something left to read, and the stretch. -/
def readWork (s : State) (x : Slot) : List Loaf → Option (Loaf × Nat × Nat)
  | [] => none
  | l :: ls =>
    match readNeed s x l with
    | some (b, stop) => some (l, b, stop)
    | none => readWork s x ls

/-- Pool lines that a loaf reserves before its first read, for its store's overflow and copies (05 R169, R170). -/
def captLines (d : List W64) (l : Loaf) : Nat :=
  if !hasStore d then 0
  else
    let n := (storeBytes d l + 63) / 64
    (n - 64) + (if dSrcNi d then n else 0)

/-- The reservation of a loaf's capture lines, where it has not been made. -/
def reserveCapt (s : State) (x : Slot) (l : Loaf) : Slot × Bool :=
  let n := captLines x.desc l
  if n ≤ l.capt then (x, true)
  else
    match reserve s x .capture n true with
    | (y, some _) => (y.updLoaf l.num (fun m => { m with capt := n }), true)
    | (y, none) => (y, false)

/-- The buffer lines of a data read, each with the walk positions whose bytes it takes (05 R165, R168): the first `part` of them of
the partition. A line of gap bytes alone (04 R158) takes none. -/
def readLines (num addr len : Nat) (spans : List (Nat × Nat × Nat)) (part : Nat) : List Lines :=
  (List.range (linesTouched addr len)).map (fun i =>
    let lo := (addr / 64 + i) * 64
    let ov := spans.filterMap (fun sp =>
      let b := max sp.2.1 lo
      let e := min (sp.2.1 + sp.2.2) (lo + 64)
      if b < e then some (sp.1 + (b - sp.2.1), sp.1 + (e - sp.2.1)) else none)
    let head := ((ov.head?.map (·.1)).or (spans.head?.map (·.1))).getD 0
    { table := false, loaf := num, firstB := ov.foldl (fun m v => min m v.1) head, lastB := ov.foldl (fun m v => max m v.2) head,
      part := if i < part then 1 else 0, pool := if i < part then 0 else 1 })

/-- The buffer lines of an index or list read whose first entry is k (05 R165). -/
def tableLines (k n part : Nat) : List Lines :=
  (List.range n).map (fun i =>
    { table := true, loaf := k, firstB := 0, lastB := 0, part := if i < part then 1 else 0, pool := if i < part then 0 else 1 })

/-- The slot as a READ_REQUEST_ISSUE finds it: a loaf is cut when the loaves begun have nothing left to read. -/
def readCut (s : State) (x : Slot) : Slot := if (readWork s x x.loaves).isSome || x.lensReady ≠ [] then x else cutNext s x

/-- The data read that a slot issues next: its loaf, spans, address, length, and the walk position after it. Prism's (05 R162, R166),
or the oldest that Lens has closed (05 R163). -/
def readWanted (s : State) (x : Slot) : Option (Nat × List (Nat × Nat × Nat) × Nat × Nat × Nat) :=
  if dKind x.desc = .gather then x.lensReady.head?.map (fun r => (r.loaf, r.spans, r.start, r.stop + 1 - r.start, 0))
  else
    match readWork s x x.loaves with
    | none => none
    | some (l, b, stop) =>
      match nextRequest (srcSide x.desc) x.entries (transferLen x.desc) b stop with
      | none => none
      | some (spans, after) =>
        if !tableOfDest x.desc && !entriesFresh x b after then none
        else some (l.num, spans, (spanRange spans).1, (spanRange spans).2, after)

/-- The loaf of a read, for its capture lines. -/
def readLoaf (x : Slot) (num : Nat) : Loaf := (loafOf x num).getD (newLoaf num 0 0 true 0)

/-- A read of a slot that wants n buffer lines finds them (05 R165 to R171). -/
def linesReady (s : State) (x : Slot) (k : ResKind) (n : Nat) : Bool := (reserve s x k n (hasStore x.desc)).2.isSome

/-- Bytes of one index or list entry. -/
def entryWidth (d : List W64) : Nat := if dKind d = .sglist then 16 else dIdxWidth d

/-- Entries of the table. -/
def entryCount (d : List W64) : Nat :=
  match dKind d with
  | .sglist => dNelem d
  | .gather => dCount d
  | .scatter => dCount d
  | _ => 0

/-- The table's address. -/
def tableBase (d : List W64) : Nat := if dKind d = .sglist then (wd d 1).toNat else (wd d 3).toNat

/-- The walk position that the table's use has reached: the first position not yet taken. -/
def tablePos (x : Slot) : Nat :=
  let at' := fun (l : Loaf) => if tableOfDest x.desc then l.writeB else l.readB
  match x.loaves.find? (fun l => l.backoff.isNone && decide (at' l < min l.b1 (transferLen x.desc))) with
  | some l => at' l
  | none => x.cutB

/-- The number of the entry in use (04 R146, R148); the first that is missing where the list is not read that far. -/
def entryInUse (x : Slot) : Nat :=
  if dKind x.desc = .sglist then
    match listedAt x.entries (x.entries.length + 1) 0 0 (tablePos x) with
    | some (k, _, _, _) => k
    | none => ((List.range (x.entries.length + 1)).find? (fun k => (entryOf x.entries k).isNone)).getD 0
  else tablePos x / dElem x.desc

/-- Entries that a table read under way brings. -/
def tableComing (s : State) (x : Slot) (k : Nat) : Bool :=
  s.acc.any (fun a => match a.purpose with
    | .table c i f n => decide (c = x.clu) && decide (i = x.idx) && decide (f ≤ k) && decide (k < f + n)
    | _ => false)

/-- The next table read: first entry, entries, within one line of 256 B and the read-ahead (04 R146 to R148). -/
def tableNext (s : State) (x : Slot) : Option (Nat × Nat) :=
  let d := x.desc
  let w := entryWidth d
  let base := tableBase d
  let here := fun k => ((entryOf x.entries k).isSome && !x.stale.contains k) || tableComing s x k
  let use := entryInUse x
  let last := ((base + use * w) / 256 + idxAhead s x.clu + 1) * 256
  let top := min (entryCount d) ((last - base) / w)
  match (List.range (top - use)).find? (fun i => !here (use + i)) with
  | none => none
  | some i =>
    let k := use + i
    let line := min top ((((base + k * w) / 256 + 1) * 256 - base) / w)
    let n := match (List.range (line - k)).find? (fun j => decide (0 < j) && here (k + j)) with
      | some j => j
      | none => line - k
    if n = 0 then none else some (k, n)

/-- The next read of an index table or SG list (04 R146, R148): first entry, address and length. -/
def tableWanted (s : State) (x : Slot) : Option (Nat × Nat × Nat × Nat) :=
  if x.status ≠ 0 || x.nextBackoff.isSome then none
  else (tableNext s x).map (fun p => (p.1, p.2, tableBase x.desc + p.1 * entryWidth x.desc, p.2 * entryWidth x.desc))

/-- The slot has a read that Prism can issue now (05 R164): a data read, or one of its table. -/
def readable (s : State) (x : Slot) : Bool :=
  mayIssue s x && portReady s x false &&
  (((readWanted s (readCut s x)).any (fun r =>
      match reserveCapt s (readCut s x) (readLoaf (readCut s x) r.1) with
      | (y, true) => linesReady s y .data (linesTouched r.2.2.1 r.2.2.2.1)
      | (_, false) => false)) ||
   (tableWanted s x).any (fun t => linesReady s x .table (linesTouched t.2.2.1 t.2.2.2)))

/-- A read of a slot in its turn: its lines are reserved (05 R165), the port is won, and the request issued; `f` marks it as taken,
`rows` are its lines by how many the partition gives. -/
def State.issueRead (s : State) (x : Slot) (k : ResKind) (h : Held) (spans : List (Nat × Nat × Nat)) (losers : List Nat) (rows : Nat → List Lines)
    (f : Slot → Slot) : State :=
  if !portReady s x false || !hasTurn s (3 * x.clu) x (readable s) then s
  else
    match reserve s x k (linesTouched h.addr h.len) (hasStore x.desc) with
    | (y, none) => s.updSlot x.clu x.idx (fun _ => y)
    | (y, some (part, _)) =>
      match s.issueData x h spans losers with
      | none => s
      | some t => (t.updSlot x.clu x.idx (fun _ => f { y with lines := y.lines ++ rows part })).tookTurn (3 * x.clu) x.idx

/-- The next data read of a slot. -/
def State.dataRead (s : State) (x : Slot) (losers : List Nat) : State :=
  match readWanted s x with
  | none => s
  | some (num, spans, addr, len, after) =>
    match reserveCapt s x (readLoaf x num) with
    | (y, false) => s.updSlot x.clu x.idx (fun _ => y)
    | (y, true) =>
      (s.updSlot x.clu x.idx (fun _ => y)).issueRead y .data (dataHeld x (.data x.clu x.idx num) false addr len (dataAttrs x false)) spans losers
        (readLines num addr len spans) (fun z =>
          if dKind x.desc = .gather then { z with lensReady := z.lensReady.tail }
          else z.updLoaf num (fun m => { m with readB := max m.readB after }))

/-- The next read of a slot's index table or SG list. -/
def State.tableRead (s : State) (x : Slot) (losers : List Nat) : State :=
  match tableWanted s x with
  | none => s
  | some (k, n, addr, len) =>
    s.issueRead x .table (dataHeld x (.table x.clu x.idx k n) false addr len
        { x.attrs with ns := false, tphEn := false, tphSt := 0, tphPh := 0, cls := x.cls, idem := true }) [] losers
      (tableLines k (linesTouched addr len)) id

/-- The loaf whose write is next in walk order: one in a backoff is passed over, an unfinished one is not. -/
def writeWork (x : Slot) : List Loaf → Option Loaf
  | [] => none
  | l :: ls =>
    if l.backoff.isSome then writeWork x ls
    else if dDstNi x.desc && (!l.released || l.relBad.isSome) then none
    else if (l.skip.isSome && isHead x l.num) || decide (l.writeB < l.b1) then some l
    else if !l.closed then none
    else writeWork x ls

/-- The loaf whose next element Lens takes for a slot: of the reads of a GATHER, or of the writes of a SCATTER. An element is taken once
its entry is read, and while no closed request of the slot waits to be issued (DESIGN CHOICE, log entry 48). -/
def lensNext (x : Slot) : Option Loaf :=
  let write := decide (dKind x.desc = .scatter)
  let at' := fun (l : Loaf) => if write then l.writeB else l.readB
  let l? := if x.lensReady ≠ [] then none
    else if write then (writeWork x x.loaves).filter (fun l => decide (l.writeB < l.b1))
    else x.loaves.find? (fun l => l.backoff.isNone && decide (l.readB < min l.b1 (transferLen x.desc)))
  l?.filter (fun l => (entryOf x.entries (at' l / dElem x.desc)).isSome && !x.stale.contains (at' l / dElem x.desc))

/-- The slot as Lens finds it: a loaf of a GATHER is cut when the loaves begun have nothing left to read. -/
def lensCut (s : State) (x : Slot) : Slot := if dKind x.desc = .gather then readCut s x else x

/-- The slot has an element pending for Lens (04 R154). -/
def lensPending (s : State) (x : Slot) : Bool :=
  mayIssue s x && (decide (dKind x.desc = .gather) || decide (dKind x.desc = .scatter)) && (lensNext (lensCut s x)).isSome

/-- Lens takes an element of the slot in its turn (04 R154, R155). -/
def State.lensStep (s : State) (x : Slot) : State × Slot :=
  match lensNext x with
  | none => (s, x)
  | some l =>
    if !hasTurn s (3 * x.clu + 2) x (lensPending s) then (s, x)
    else
      match lensTake s x l (decide (dKind x.desc = .scatter)) with
      | (y, e, r) => ((((s.updSlot x.clu x.idx (fun _ => y)).bump .cluLensElems x.clu 0 32 e).bump .cluLensReqs x.clu 0 32 r).tookTurn
          (3 * x.clu + 2) x.idx, y)

/-- READ_REQUEST_ISSUE (05 R164, R165; 04 R146, R148, R155): in its turn the slot's next data read, or its next table read, is issued;
for a GATHER with none ready Lens takes an element first. A loaf is cut when the loaves begun have nothing left to read. -/
def execReadRequestIssue (clu slot : Nat) (table : Bool) (losers : List Nat) (s : State) : Out :=
  if 16 ≤ clu || 34 ≤ slot then .fault .noSuchUnit
  else
    match slotAt s clu slot with
    | none => .next s
    | some x =>
      if stateFault x then .next (s.slotFault x)
      else if !mayIssue s x then .next s
      else if table then .next (s.tableRead x losers)
      else
        let s1 := s.updSlot clu slot (fun _ => readCut s x)
        let p := if dKind x.desc = .gather then s1.lensStep (readCut s x) else (s1, readCut s x)
        .next (((p.1.dataRead p.2 losers).walkFault clu slot).settle clu slot)

/-! Writes. -/

/-- A loaf that reads nothing (05 R166). -/
def readsNothing (d : List W64) (l : Loaf) : Bool := decide (srcBytes d l.b0 l.b1 = 0)

/-- Lines that a slot's requested and uncommitted writes without reads count for (05 R166). -/
def fillLines (x : Slot) : Nat :=
  ((x.loaves.filter (readsNothing x.desc)).map (fun l =>
    linesTouched (((dstSide x.desc).addr x.entries l.b0).getD 0) (l.writeB - l.b0))).sum

/-- Where a write of loaf l from walk position b on must end: before a faulty element, and so that it carries either no byte of a tuple
that depends on earlier loaves or only such bytes (06 R200). Appended check bytes extend the destination's single piece, so one request
can carry data bytes and check bytes (04 R136, R141). -/
def depStop (x : Slot) (l : Loaf) (b : Nat) : Nat :=
  let d := x.desc
  let u := dBlk d + dTuple d
  let tuple := if decide (dKind d = .piInsert) && !isHead x l.num then [l.b0 / u * u + dBlk d, (l.b0 / u + 1) * u] else []
  tuple.foldl (fun m p => if b < p then min m p else m) (walkStop x l.b1)

/-- A write of loaf l that covers walk positions [b, e) carries a value that depends on earlier loaves (06 R200). -/
def carriesEarlier (d : List W64) (l : Loaf) (b e : Nat) : Bool := dependsEarlier d l b || decide (transferLen d < e)

/-- Prism's next write request of loaf l: the loaf as it is then, and the spans. Requests that carry values depending on
earlier loaves are passed over until the loaf is the first (06 R200); one with appended check bytes also waits until the loaf's other
writes are answered (`clear`), as a descriptor that does not end OK writes none of them. -/
def nextWrite (x : Slot) (l : Loaf) (clear : Bool) : Nat → Loaf × Option (List (Nat × Nat × Nat))
  | 0 => (l, none)
  | f + 1 =>
    let d := x.desc
    let appended := fun (e : Nat) => decide (transferLen d < e) && !(clear && listSound x (badAt x))
    match (if isHead x l.num then l.skip else none) with
    | some (a, e) =>
      match nextRequest (dstSide d) x.entries (walkLen d) a (walkStop x e) with
      | none => (l, none)
      | some (sp, after) =>
        if appended after || decide (after ≤ a) then (l, none)
        else ({ l with skip := if after < e then some (after, e) else none }, some sp)
    | none =>
      if walkStop x l.b1 ≤ l.writeB then (l, none)
      else
        match nextRequest (dstSide d) x.entries (walkLen d) l.writeB (depStop x l l.writeB) with
        | none => (l, none)
        | some (sp, after) =>
          if sp.isEmpty then ({ l with writeB := after }, none)
          else if carriesEarlier d l l.writeB after && !isHead x l.num then
            match l.skip with
            | none => nextWrite x { l with skip := some (l.writeB, after), writeB := after } clear f
            | some k => if k.2 = l.writeB then nextWrite x { l with skip := some (k.1, after), writeB := after } clear f else (l, none)
          else if appended after || (tableOfDest d && !entriesFresh x l.writeB after) then (l, none)
          else ({ l with writeB := after }, some sp)

/-- The write that a slot issues next: its loaf, that loaf as it is then, spans, address and length. Prism's, or the oldest that Lens
has closed. A loaf as it is then alone: nothing is left to write before its end. -/
def writeWanted (s : State) (x : Slot) : Option (Nat × Loaf × Option (List (Nat × Nat × Nat) × Nat × Nat)) :=
  if dKind x.desc = .scatter then
    x.lensReady.head?.map (fun r => (r.loaf, readLoaf x r.loaf, some (r.spans, r.start, r.stop + 1 - r.start)))
  else
    match writeWork x x.loaves with
    | none => none
    | some l =>
      match nextWrite x l (!s.acc.any (ownWrite x.clu x.idx l.num)) 4 with
      | (m, none) => some (l.num, m, none)
      | (m, some sp) =>
        let r := spanRange sp
        let ahead := readsNothing x.desc l && !isHead x l.num && decide (64 + poolMax s x.clu < fillLines x + linesTouched r.1 r.2)
        if ahead then none else some (l.num, m, some (sp, r.1, r.2))

/-- The slot as a WRITE_REQUEST_ISSUE finds it: a loaf that reads nothing is cut here. -/
def writeCut (s : State) (x : Slot) : Slot :=
  let z := cutNext s x
  let cut := (writeWork x x.loaves).isNone && (match z.loaves.getLast? with
    | some l => decide (x.loaves.length < z.loaves.length) && readsNothing x.desc l
    | none => false)
  if cut then z else x

/-- The slot has a write that Prism can issue now (05 R164). -/
def writable (s : State) (x : Slot) : Bool :=
  mayIssue s x && !(dKind x.desc).noDest && portReady s x true && (writeWanted s (writeCut s x)).any (fun w => w.2.2.isSome)

/-- The next data write of a slot in its turn: its beats follow through the datapath arbiter (05 R164, R165, 07 R235). -/
def State.dataWrite (s : State) (x : Slot) (losers : List Nat) : State :=
  match writeWanted s x with
  | none => s
  | some (num, m, none) => s.updSlot x.clu x.idx (fun y => y.updLoaf num (fun _ => m))
  | some (num, m, some (spans, addr, len)) =>
    if !portReady s x true || !hasTurn s (3 * x.clu + 1) x (writable s) then s
    else
      match s.issueData x (dataHeld x (.write x.clu x.idx num) true addr len (dataAttrs x true)) spans losers with
      | none => s
      | some t =>
        (t.updSlot x.clu x.idx (fun z =>
          if dKind x.desc = .scatter then { z with lensReady := z.lensReady.tail } else z.updLoaf num (fun _ => m))).tookTurn (3 * x.clu + 1) x.idx

/-- WRITE_REQUEST_ISSUE (05 R164 to R166): in its turn the slot's next data write is issued; for a SCATTER with none ready Lens takes
an element first. A loaf that reads nothing is cut here. -/
def execWriteRequestIssue (clu slot : Nat) (losers : List Nat) (s : State) : Out :=
  if 16 ≤ clu || 34 ≤ slot then .fault .noSuchUnit
  else
    match slotAt s clu slot with
    | none => .next s
    | some x =>
      if stateFault x then .next (s.slotFault x)
      else if !mayIssue s x || (dKind x.desc).noDest then .next s
      else
        let s1 := s.updSlot clu slot (fun _ => writeCut s x)
        let p := if dKind x.desc = .scatter then s1.lensStep (writeCut s x) else (s1, writeCut s x)
        .next (((p.1.dataWrite p.2 losers).walkFault clu slot).settle clu slot)

end Sys2Proof.Machine
end

