-- ==== Sys2Proof/Machine/Beats.lean ====
section
/-! DEFINITION. What lands, what passes the check engine and leaves, releases and commits (05 R159 to R161, R176 to R191;
06 R193 to R201, R209 to R217; 08 R246 to R251). -/

namespace Sys2Proof.Machine

/-! Injected faults (06 R217, CLUn_ECC_INJ). -/

/-- A fault is to be injected into the first word that a slot of the cluster writes at a site. -/
def injects (s : State) (clu site : Nat) : Bool :=
  let w := s.rd .cluEccInj clu
  bit w 0 && decide (bits w 2 2 = site)

/-- INJ_EN clears when the fault is injected. -/
def State.injDone (s : State) (clu : Nat) : State := s.setFld .cluEccInj clu 0 1 0

/-- A stored word with the fault of the injection register: data bit INJ_BIT flipped, and with INJ_DOUBLE the next, under the check
byte of the sound word. -/
def flipWord (inj : W32) (w : W64 × Byte) : W64 × Byte :=
  let b := bits inj 4 6
  (w.1 ^^^ BitVec.ofNat 64 (2 ^ b) ^^^ (if bit inj 1 then BitVec.ofNat 64 (2 ^ ((b + 1) % 64)) else 0), w.2)

/-- The first word of the fragments flipped; `copy` where its copy holds the same. -/
def flipFirst (inj : W32) (copy : Bool) : List Frag → List Frag
  | [] => []
  | f :: fs =>
    let ws := f.words.take 1 |>.map (flipWord inj)
    { f with words := ws ++ f.words.drop 1, copy := if copy then ws ++ f.words.drop 1 else f.copy } :: fs

/-! Landing (05 R159, R169, R170; 06 R216). -/

/-- A word that decodes is stored again with its check byte; one that does not stays as it is. -/
def repaired (w : W64 × Byte) : W64 × Byte :=
  match secdedDecode w.1 w.2 with
  | (_, .uncorrectable) => w
  | (d, _) => (d, secdedCheck d)

/-- Fragments of an answered read: each span's bytes, in the words of its lines as they stand after the check; `copied` for a loaf
that keeps copies. -/
def fragsOf (addr : Nat) (words : List (W64 × Byte)) (spans : List (Nat × Nat × Nat)) (copied : Bool) : List Frag :=
  spans.map (fun sp =>
    let k := (sp.2.1 - addr / 64 * 64) / 8
    let ws := (List.range ((sp.2.1 % 8 + sp.2.2 + 7) / 8)).map (fun i => repaired (words.getD (k + i) (0, 0)))
    { walkB := sp.1, words := ws, ofs := sp.2.1 % 8, len := sp.2.2, copy := if copied then ws else [] })

/-- The completion timestamp of a descriptor that writes no data is taken as a read's response arrives (01 R30). -/
def State.stampRead (s : State) (x : Slot) : State := if (dKind x.desc).noDest then s.stampDone x.clu x.idx else s

/-- The words of some fragments that decode as m: fragment and number. -/
def wordsOf (m : EccMark) (fs : List Frag) : List (Frag × Nat) :=
  fs.flatMap (fun f => ((List.range f.words.length).filter (fun i => decide ((Frag.word f.words i).2 = m))).map (fun i => (f, i)))

/-- The walk position of the first byte that a fragment has in its word i. -/
def Frag.posOf (f : Frag) (i : Nat) : Nat := f.walkB + (8 * i - f.ofs)

/-- Every corrected word read from a line is counted and logged (06 R216). -/
def State.logCorrected (s : State) (x : Slot) (l : Loaf) (ws : List (Frag × Nat)) : State :=
  ws.foldl (fun t f =>
    let n := bufferLine x l (f.1.posOf f.2) (Config.freeValue t.freeCtr).toNat
    { ((t.bump .cluEccStat x.clu 0 16 1).logErr (mkErr 0 (2 + x.clu) 0x30 x.iid x.qid x.idx x.clu 0 4 n)) with freeCtr := t.freeCtr + 1 }) s

/-- Landing lines of a loaf are packed into its store (05 R170): they are read, so their words are checked (06 R216); corrected ones
stand repaired in the store, and an uncorrectable one of an idempotent source makes the loaf begin again. One of a capture loaf goes
into the store and its copy as it is: both are then lost (05 R187), where R216 gives no row for a landing line of a capture loaf
(DESIGN CHOICE, log entry 45). -/
def State.packLines (s : State) (x : Slot) (num : Nat) (fs : List Frag) : State :=
  match loafOf x num with
  | none => s
  | some l =>
    let bad := wordsOf .uncorrectable fs
    let packed := fun (f : Frag) => { f with words := f.words.map repaired, copy := f.copy.map repaired }
    let s1 := (s.logCorrected x l (wordsOf .corrected fs)).updSlot x.clu x.idx (fun y =>
      y.updLoaf num (fun m => { m with frags := upd (fun f => fs.contains f) packed m.frags }))
    if bad = [] || dSrcNi x.desc then s1 else (s1.bump .cluEccStat x.clu 16 16 bad.length).internalFault x.clu x.idx num 0x20

/-- A data read's bytes land in the slot's buffer lines, and are packed into its store where its loaf holds it: faults injected at
sites 0 and 2 stand in the landing lines, those at site 1 in the store (06 R217). -/
def State.landData (s : State) (x : Slot) (num : Nat) (a : Access) (words : List (W64 × Byte)) : State :=
  let fs := fragsOf a.addr words a.spans (dSrcNi x.desc)
  let st := match loafOf x num with | some l => hasStore x.desc && l.stored | none => false
  let p : State × List Frag :=
    if injects s x.clu 0 || injects s x.clu 2 then (s.injDone x.clu, flipFirst (s.rd .cluEccInj x.clu) (dSrcNi x.desc) fs) else (s, fs)
  let add := fun (gs : List Frag) (t : State) =>
    (t.updSlot x.clu x.idx (fun y => (y.updLoaf num (fun l => { l with frags := l.frags ++ gs })).pack)).stampRead x
  if !st then add p.2 p.1
  else if injects p.1 x.clu 1 then
    add (flipFirst (p.1.rd .cluEccInj x.clu) false (p.2.map (fun f => { f with words := f.words.map repaired, copy := f.copy.map repaired })))
      ((p.1.injDone x.clu).logCorrected x (readLoaf x num) (wordsOf .corrected p.2))
  else (add p.2 p.1).packLines x num p.2

/-- Lines reserved for a read that brings nothing are freed. -/
def State.freeRead (s : State) (x : Slot) (num : Nat) (a : Access) : State :=
  s.updSlot x.clu x.idx (fun y => { y with lines := dropIf (Lines.ofRead num a) y.lines })

/-- Lines reserved for an index or list read are freed: its entries are taken, or it brings nothing. -/
def State.freeTable (s : State) (x : Slot) (first : Nat) : State :=
  s.updSlot x.clu x.idx (fun y => { y with lines := dropIf (fun r => r.ofTable first) y.lines })

/-- The loaf that needs the entries of a table read from `first` on (04 R153): the one that holds the first of them, else
the one to be cut or still open. -/
def tableLoaf (x : Slot) (first : Nat) : Nat :=
  let pos : Option Nat := match dKind x.desc with
    | .sglist => if first = 0 then some 0 else ((listRanges x.entries (x.entries.length + 1) 0 0).find? (fun (r : Nat × Nat × Nat) => r.1 + 1 == first)).map (fun (r : Nat × Nat × Nat) => r.2.2)
    | _ => some (first * dElem x.desc)
  match pos.bind (loafAt x) with
  | some l => l.num
  | none => match x.loaves.find? (fun (l : Loaf) => !l.closed) with | some l => l.num | none => x.cutNum

/-- The entries that a table read brings. -/
def entriesOf (d : List W64) (first : Nat) (bytes : List Byte) : Entries :=
  let w := entryWidth d
  ((chunksOf w (bytes.length + 1) bytes).zipIdx).map (fun c =>
    if w = 16 then (first + c.2, leNat (c.1.take 8), leNat (c.1.drop 8)) else (first + c.2, leNat c.1, 0))

/-- The slot of a descriptor, wherever it runs, settles. -/
def State.settleOf (s : State) (qid : Nat) (idx : W32) (pos : Nat) : State :=
  match s.slots.find? (fun x => decide (x.qid = qid) && decide (x.slotIdx = idx) && decide (chainPosOf x = pos)) with
  | some x => s.settle x.clu x.idx
  | none => s.settleMoving s.moving.length

/-- A data read fails with a retryable cause: capture lines of that read are freed, the loaf's fault follows. -/
def State.readFault (s : State) (x : Slot) (num : Nat) (a : Access) (code : Nat) (detail : BitVec 6) : State :=
  (s.freeRead x num a).fabricFault x.clu x.idx num code true detail a.addr

/-- The answer to a data read (18 R521 to R523, 06 R216, 03 R120). -/
def State.dataAnswer (s : State) (x : Slot) (num : Nat) (a : Access) (ans : Answer) : State :=
  let code := codeSeen ans.code
  if code ≠ 0 then
    let s1 := s.stampRead x
    if codeRetryable code then s1.readFault x num a 0x26 code else s1.endWith x.clu x.idx 7 code a.addr (some num)
  else
    match s.land a ans.words (if dSrcNi x.desc then 1 else 0) x.qid x.idx x.clu with
    | (s1, _, m) =>
      if m = .uncorrectable then
        if dSrcNi x.desc then
          ((s1.stampRead x).logErr (mkErr 3 (2 + x.clu) 0x44 x.iid x.qid x.idx x.clu 0x3E x.slotIdx.toNat a.addr)).endWith x.clu x.idx 7 0x3E a.addr (some num)
        else (s1.stampRead x).readFault x num a 0x25 0x3E
      else (s1.landData x num a ans.words).settle x.clu x.idx

/-- The answer to a read of an index table or SG list (04 R146, R148, R151, R153). -/
def State.tableAnswer (s0 : State) (x : Slot) (first : Nat) (a : Access) (ans : Answer) : State :=
  let code := codeSeen ans.code
  let s := s0.freeTable x first
  if code ≠ 0 then
    if codeRetryable code then s.fabricFault x.clu x.idx (tableLoaf x first) 0x26 true code a.addr
    else s.endWith x.clu x.idx 7 code a.addr none
  else
    match s.land a ans.words 2 x.qid x.idx x.clu with
    | (s1, bytes, m) =>
      if m = .uncorrectable then s1.fabricFault x.clu x.idx (tableLoaf x first) 0x25 true 0x3E a.addr
      else
        let es := (entriesOf x.desc first bytes).filter (fun e => (entryOf x.entries e.1).isNone || x.stale.contains e.1)
        let new := fun (k : Nat) => es.any (fun e => e.1 == k)
        ((s1.updSlot x.clu x.idx (fun y => Slot.extend
          { y with entries := dropIf (fun e => new e.1) y.entries ++ es, stale := dropIf new y.stale })).walkFault x.clu x.idx).settle x.clu x.idx

/-! Answers to data writes (05 R183, R191; 08 R246, R268). -/

/-- A released loaf with a retryable error is decided once every later write is answered (05 R191): released again from
write k on, or STREAM_FAULT where a later write was acknowledged; the fourth release is the last. -/
def State.relEval (s : State) (clu idx : Nat) : State :=
  match slotAt s clu idx with
  | none => s
  | some x =>
    match x.loaves.head? with
    | none => s
    | some l =>
      match l.relBad with
      | none => s
      | some k =>
        if x.phase = .ending || stalled x then s
        else if s.acc.any (fun a => ownWrite clu idx l.num a && decide (k.aid < a.aid)) then s
        else if (match l.relAckMax with | some m => decide (k.aid < m) | none => false) then s.endWith clu idx 9 k.code k.addr (some l.num)
        else if 4 ≤ l.releases then s.updSlot clu idx (fun y => { y with relOver := some (k.code, k.addr) })
        else
          let again := fun (m : Loaf) => { m with writeB := k.pos, releases := m.releases + 1, relBad := none, again := true }
          ((s.logReplay x 0x29 (k.code.setWidth 8) k.addr).updSlot clu idx (fun y => (y.updLoaf l.num again).dropLens l.num)).countReplays clu idx 1

/-- The answer to a write of loaf num's own attempt. -/
def State.dataWriteAnswer (s : State) (x : Slot) (num : Nat) (a : Access) (code0 : BitVec 6) : State :=
  let code := codeSeen code0
  let clu := x.clu
  let idx := x.idx
  let rel := match loafOf x num with | some l => l.released | none => false
  if code = 0 then
    let s1 := s.stampDone clu idx
    let ack := fun (l : Loaf) => { l with relAckMax := some (max a.aid (l.relAckMax.getD 0)) }
    let s2 := if rel then s1.updSlot clu idx (fun y => y.updLoaf num ack) else s1
    ((s2.relEval clu idx).settle clu idx).leaveNow clu idx
  else if rel then
    if codeRetryable code && decide (x.phase = .ending) then s.dropFrom x num
    else if codeRetryable code then
      let k : RelFault := { pos := (a.spans.head?.map (·.1)).getD 0, addr := a.addr, code := code, aid := a.aid }
      let note := fun (l : Loaf) => { l with relBad := some (match l.relBad with | some j => if j.aid < k.aid then j else k | none => k) }
      (((s.updSlot clu idx (fun y => y.updLoaf num note)).relEval clu idx).settle clu idx).leaveNow clu idx
    else s.endWith clu idx 9 code a.addr (some num)
  else if codeRetryable code then s.fabricFault clu idx num 0x26 false code a.addr
  else s.endWith clu idx 8 code a.addr (some num)

/-- DATA_READ_CEIL (01 R32, 08 R252, 04 R153): the read is a retryable fabric error; its tag is quarantined. -/
def execDataReadCeil (aid : Nat) (s : State) : Out :=
  match s.access aid with
  | none => .next s
  | some a =>
    if s.fatal || !expired s a || a.write then .next s
    else
      match a.purpose with
      | .data c i num =>
        let s1 := (s.quarantine a).drainHeld
        match slotAt s1 c i with
        | some x => .next (s1.readFault x num a 0x27 0x3D)
        | none => .next s1
      | .table c i first _ =>
        let s1 := (s.quarantine a).drainHeld
        match slotAt s1 c i with
        | some x => .next ((s1.freeTable x first).fabricFault c i (tableLoaf x first) 0x27 true 0x3D a.addr)
        | none => .next s1
      | .oldRead q i p _ => .next (((s.quarantine a).drainHeld).settleOf q i p)
      | _ => .next s

/-- DATA_WRITE_CEIL (01 R32, 08 R252, 05 R191): before release a fabric replay, after it STREAM_FAULT; the write ID is
quarantined. No one waits for a federation checkpoint (14 R439), and the next witness write takes the place of one. -/
def execDataWriteCeil (aid : Nat) (s : State) : Out :=
  match s.access aid with
  | none => .next s
  | some a =>
    if s.fatal || !expired s a then .next s
    else
      match a.purpose with
      | .write c i num =>
        match slotAt s c i with
        | none => .next ((s.quarantine a).drainHeld)
        | some x =>
          let rel := match loafOf x num with | some l => l.released | none => false
          let old := { a with purpose := .oldWrite x.qid x.slotIdx (chainPosOf x) num, poisoned := decide (a.toSend ≠ 0) && !rel }
          let s1 := ((s.logDirty a.iid a.addr).quarantine old).drainHeld
          .next (if rel then s1.endWith c i 9 0x3D a.addr (some num) else s1.fabricFault c i num 0x27 false 0x3D a.addr)
      | .oldWrite q i p _ => .next ((((s.logDirty a.iid a.addr).quarantine a).drainHeld).settleOf q i p)
      | .fedCkpt => .next ((s.quarantine a).drainHeld)
      | .witnessWrite => .next ((s.quarantine a).drainHeld)
      | _ => .next s

/-! The out side (05 R160, R161, R176 to R181). -/

/-- What a slot offers the datapath arbiter. -/
inductive BeatJob where
  /-- A line of a record or of a dropped attempt's write, by handle. -/
  | line (aid : Nat)
  /-- The next line of a write of loaf num. -/
  | write (aid num : Nat)
  /-- The verify pass of loaf num. -/
  | verify (num : Nat)
  /-- A beat of CHECK or PI_VERIFY. -/
  | check (num : Nat)
  deriving DecidableEq, Repr

/-- Every access that still has beats to send, of a slot index on a port. -/
def unsent (s : State) (clu idx : Nat) (f : Purpose → Bool) : Option Access :=
  (s.acc ++ s.quar.map (·.acc)).find? (fun a =>
    a.write && decide (a.port = clu) && decide (a.holder = idx) && decide (0 < a.toSend) && f a.purpose)

/-- The walk parts that the next line of a write carries: position and length. -/
def lineParts (a : Access) : List (Nat × Nat) :=
  let lo := (a.addr / 64 + (linesTouched a.addr a.len - a.toSend)) * 64
  a.spans.filterMap (fun sp =>
    let b := max sp.2.1 lo
    let e := min (sp.2.1 + sp.2.2) (lo + 64)
    if b < e then some (sp.1 + (b - sp.2.1), e - b) else none)

/-- Walk positions of some parts. -/
def partPositions (ps : List (Nat × Nat)) : List Nat := ps.flatMap (fun p => (List.range p.2).map (fun i => p.1 + i))

/-- Blocks whose tuples must be judged before these positions of a PI_STRIP leave: those of the loaf that are not judged
yet (06 R209, R210). -/
def stripBlocks (x : Slot) (l : Loaf) (ps : List Nat) : List Nat :=
  if dKind x.desc ≠ .piStrip then []
  else
    let u := dBlk x.desc + dTuple x.desc
    match ps.getLast? with
    | none => []
    | some z => (tuplesIn x.desc l.judged ((z / u + 1) * u)).filter (fun n => decide (n * u + dBlk x.desc < l.b1))

/-- The earlier loaves of the slot have passed and judged all their tuples. -/
def earlierJudged (x : Slot) (l : Loaf) : Bool :=
  (x.loaves.takeWhile (fun m => decide (m.num ≠ l.num))).all (fun m =>
    decide (m.b1 ≤ (if (dKind x.desc).noDest || dDstNi x.desc then m.passB else max m.judged m.passB)))

/-- Every verdict is at hand. A PI_STRIP judges the tuple of a block that begins in an earlier loaf once that loaf has committed, so
that no loaf whose bytes have left is cut (06 R210, R211). -/
def canJudge (x : Slot) (l : Loaf) (ns : List Nat) : Bool :=
  ns.isEmpty || (earlierJudged x l && ns.all (fun n => (judgeOf x n).isSome &&
    (decide (dKind x.desc ≠ .piStrip) || isHead x l.num || decide (l.b0 ≤ n * (dBlk x.desc + dTuple x.desc)))))

/-- Every tuple that ends in an earlier loaf of a PI_STRIP is judged: until then no byte behind it leaves (06 R210). -/
def earlierTuples (x : Slot) (l : Loaf) : Bool :=
  let u := dBlk x.desc + dTuple x.desc
  decide (dKind x.desc ≠ .piStrip) || (x.loaves.takeWhile (fun m => decide (m.num ≠ l.num))).all (fun m =>
    decide (m.b1 / u * u ≤ m.b0) || decide (m.b1 / u * u ≤ max m.judged m.passB))

/-- The next line of the verify pass (05 R188): up to 64 source bytes of the store, or of the pattern. -/
def verifyPositions (x : Slot) (l : Loaf) : List Nat :=
  let stop := min l.b1 (transferLen x.desc)
  let has := fun b => decide (dKind x.desc = .fill) || srcHas x.desc b
  (((List.range (stop - l.passB)).map (fun i => l.passB + i)).filter has).take 64

/-- The next beat of CHECK or PI_VERIFY: the bytes of one source line. -/
def checkPositions (x : Slot) (l : Loaf) : List Nat :=
  match nextRequest (srcSide x.desc) x.entries (transferLen x.desc) l.passB (min l.b1 (transferLen x.desc)) with
  | some ((b, a, n) :: _, _) => (List.range (min n (64 - a % 64))).map (fun i => b + i)
  | _ => []

/-- Tuples that end in a verify or check beat. -/
def beatTuples (x : Slot) (l : Loaf) (ps : List Nat) : List Nat :=
  if decide (dKind x.desc = .piStrip) || decide (dKind x.desc = .piVerify) then
    match ps.getLast? with | some z => tuplesIn x.desc l.passB (z + 1) | none => []
  else []

/-- What a loaf of a slot offers: `none` where it stops later loaves, `some none` where they may go on. -/
def loafJob (s : State) (x : Slot) (l : Loaf) (credit : Bool) : Option (Option BeatJob) :=
  let go : Option (Option BeatJob) := if l.again then some none else none
  let d := x.desc
  let storeOk := !hasStore d || l.stored
  if l.backoff.isSome then some none
  else if (dKind d).noDest then
    if l.b1 ≤ l.passB then some none
    else
      let ps := checkPositions x l
      if storeOk && !ps.isEmpty && ps.all (fun b => (fragByte l.frags b).isSome) && canJudge x l (beatTuples x l ps) then
        some (some (.check l.num))
      else go
  else if dDstNi d && !l.released then
    let ps := verifyPositions x l
    if decide (x.phase = .moving) && storeOk && l.closed && !ps.isEmpty && (outRun x l ps).isSome && canJudge x l (beatTuples x l ps) then
      some (some (.verify l.num))
    else none
  else
    let ws := s.acc.filter (fun a => ownWrite x.clu x.idx l.num a && decide (0 < a.toSend))
    match leastBy (fun a => (a.spans.head?.map (·.1)).getD 0) ws with
    | none => some none
    | some a =>
      let ps := partPositions (lineParts a)
      if credit && storeOk && (outRun x l ps).isSome && earlierTuples x l && canJudge x l (stripBlocks x l ps) then some (some (.write a.aid l.num)) else go

/-- The first job of the slot's loaves in walk order. -/
def loavesJob (s : State) (x : Slot) (credit : Bool) : List Loaf → Option BeatJob
  | [] => none
  | l :: ls =>
    match loafJob s x l credit with
    | some (some j) => some j
    | some none => loavesJob s x credit ls
    | none => none

/-- The store of the slot's descriptor is still on its way to it. -/
def storeAway (s : State) (clu idx : Nat) : Bool :=
  s.takeover.any (fun t => t.1 == clu && t.2.1 == idx) || s.bridge.any (fun t => t.1 == clu && t.2.1 == idx)

/-- What slot index idx of cluster clu offers, and its class (05 R177, R564): a record's beat first, then beats owed for a
dropped attempt, then its descriptor's. -/
def slotJob (s : State) (clu idx : Nat) : Option (BeatJob × Nat) :=
  let credit := decide (1 ≤ (creditsOf s clu).2.2)
  let isRec := fun (u : Purpose) => match u with | .record _ _ _ _ _ => true | _ => false
  let isOld := fun (u : Purpose) => match u with | .oldWrite _ _ _ _ => true | _ => false
  match (if credit then (unsent s clu idx isRec).or (unsent s clu idx isOld) else none) with
  | some a => some (.line a.aid, a.attrs.cls.toNat)
  | none =>
    match slotAt s clu idx with
    | none => none
    | some x =>
      if stalled x || storeAway s clu idx then none
      else if dataPhase x then (loavesJob s x credit x.loaves).map (fun j => (j, x.cls.toNat))
      else if x.phase = .leaving then (loavesJob s x credit (x.loaves.filter (·.released))).map (fun j => (j, x.cls.toNat))
      else none

/-! The effect of a granted beat. -/

/-- The address of the first byte of an access's next beat, and how many bytes of it the beat carries. -/
def nextBeat (a : Access) : Nat × Nat :=
  let lo := (a.addr / 64 + (linesTouched a.addr a.len - a.toSend)) * 64
  (max a.addr lo, min (a.addr + a.len) (lo + 64) - max a.addr lo)

/-- The bytes of a beat that no descriptor forms: those of a record, else of a write whose attempt was dropped, which are left
open (08 R257). -/
def lineBytes (a : Access) : List Byte :=
  match a.purpose with
  | .record _ _ _ _ _ => a.data
  | _ => (List.range (nextBeat a).2).map (fun i => Config.freeLane a.aid ((nextBeat a).1 + i))

/-- An access after its next beat has left with its bytes and the check byte of each word, which has c0 and c1 inverted where the
attempt was dropped (06 R213, R216, 08 R257, 18 R524). -/
def Access.sent (bytes : List Byte) (a : Access) : Access :=
  { a with toSend := a.toSend - 1, data := (a.data ++ bytes).take a.len,
           checks := a.checks ++ (beatChecks a.aid (nextBeat a).1 bytes).map (fun c => if a.poisoned then c ^^^ 3 else c) }

/-- One line of an access leaves. -/
def State.sendLine (s : State) (aid : Nat) (bytes : List Byte) : State :=
  let f := Access.sent bytes
  let p := ((s.acc ++ s.quar.map (·.acc)).find? (fun a => a.aid == aid)).map (·.port)
  match p with
  | none => s
  | some n =>
    let c := creditsOf s n
    { s with acc := upd (fun a => a.aid == aid) f s.acc,
             quar := upd (fun q => q.acc.aid == aid) (fun q => { q with acc := f q.acc }) s.quar,
             credits := assocPut s.credits n (c.1, c.2.1, c.2.2 - 1) }

/-- The words of a loaf that hold one of some positions and decode from their lines as m: fragment and number. -/
def markedIn (m : EccMark) (l : Loaf) (ps : List Nat) : List (Frag × Nat) :=
  (wordsOf m l.frags).filter (fun w => ps.any (fun b => w.1.has b && decide ((w.1.ofs + (b - w.1.walkB)) / 8 = w.2)))

/-- Every corrected word that a beat reads from its lines is counted and logged (06 R216). -/
def State.correctedLines (s : State) (x : Slot) (l : Loaf) (ps : List Nat) : State := s.logCorrected x l (markedIn .corrected l ps)

/-- The source address of the first transfer byte held in the store line that holds walk position b (05 R187). -/
def lostAddress (x : Slot) (l : Loaf) (b : Nat) : Nat :=
  let first := (packedPos x.desc l (srcBytes x.desc l.b0 b / 64 * 64)).getD b
  ((srcSide x.desc).addr x.entries first).getD 0

/-- The check that the lines read for some positions are sound (06 R216; 05 R186, R187, R189, R190): the state after a fault, or none
where they are. A line of a held-back loaf with an idempotent source, which has a store and no copy, is logged as STORE_UNCORR like
that of any store, where R252 names the code for one whose copy is whole (DESIGN CHOICE, log entry 45). -/
def State.lineFault (s : State) (x : Slot) (l : Loaf) (ps : List Nat) : Option State :=
  let clu := x.clu
  let idx := x.idx
  match markedIn .uncorrectable l ps with
  | [] => none
  | lost =>
    let s1 := s.bump .cluEccStat clu 16 16 lost.length
    let bad := fun (f : Frag) => lost.any (fun w => w.1 == f)
    if dSrcNi x.desc then
      match lost.find? (fun w => decide ((Frag.word w.1.copy w.2).2 = .uncorrectable)) with
      | some w =>
        let w5 := lostAddress x l (w.1.posOf w.2)
        some ((s1.logErr (mkErr 3 (2 + clu) 0x42 x.iid x.qid idx clu 0x3F x.slotIdx.toNat w5)).endWith clu idx 7 0x3F w5 (some l.num))
      | none =>
        let s2 := s1.updSlot clu idx (fun y => y.updLoaf l.num (fun m => { m with frags := upd bad (fun f => { f with words := f.copy }) m.frags }))
        some (if l.released then s2 else s2.internalFault clu idx l.num 0x21)
    else if l.released then
      some (s1.updSlot clu idx (fun y => y.updLoaf l.num (fun m =>
        { m with frags := dropIf bad m.frags, readB := lost.foldl (fun r w => min r w.1.walkB) m.readB })))
    else some (s1.internalFault clu idx l.num (if hasStore x.desc then 0x21 else 0x20))

/-- The check that a beat is sound (06 R217): its lines, and the byte parity on its way through the lane shifter and the check
engine. -/
def State.beatFault (s : State) (x : Slot) (l : Loaf) (ps : List Nat) : Option State :=
  match s.lineFault x l ps with
  | some t => some t
  | none =>
    if injects s x.clu 3 then
      let s1 := (s.injDone x.clu).bump .cluEccStat x.clu 16 16 1
      some (if l.released then s1 else s1.internalFault x.clu x.idx l.num 0x22)
    else none

/-- The loaf check takes the covered bytes of a beat (06 R193 to R196). -/
def Loaf.takeCheck (x : Slot) (ps : List Nat) (bytes : List Byte) (l : Loaf) : Loaf :=
  let c := dChkSel x.desc
  let cov := ((ps.zip bytes).filter (fun p => decide (p.1 < transferLen x.desc))).map (·.2)
  { l with chkReg := c.reg l.chkReg cov, chkLen := l.chkLen + cov.length }

/-- The first failing block of a list, and its DETAIL. -/
def firstBad (x : Slot) (ns : List Nat) : Option (Nat × Nat) :=
  (ns.find? (fun n => decide (judgeOf x n ≠ some 0))).map (fun n => (n, (judgeOf x n).getD 0))

/-- PI_MISMATCH at block f (06 R210). -/
def State.piMismatch (s : State) (x : Slot) (f det : Nat) : State :=
  s.endCut x.clu x.idx (f * (dBlk x.desc + dTuple x.desc)) 6 (BitVec.ofNat 6 det) f

/-- Walk positions of the tuples of some blocks. -/
def tuplePositions (d : List W64) (ns : List Nat) : List Nat :=
  ns.flatMap (fun n => (List.range (dTuple d)).map (fun i => n * (dBlk d + dTuple d) + dBlk d + i))

/-- The bytes among positions [a, e) of a held-back loaf that the check engine forms: tuples and appended check bytes (05 R188). -/
def formedIn (x : Slot) (l : Loaf) (a e : Nat) : List (Nat × Byte) :=
  ((List.range (e - a)).map (fun i => a + i)).filterMap (fun b =>
    if decide (dKind x.desc = .fill) && decide (b < transferLen x.desc) || srcHas x.desc b then none
    else (outByte x l b).map (fun v => (b, v)))

/-- The bytes that a beat of a released loaf forms again equal those of the verify pass (05 R188). -/
def formedAgrees (x : Slot) (l : Loaf) (ps : List Nat) : Bool :=
  ps.all (fun b => match assocGet l.formed b with | some v => decide (outByte x l b = some v) | none => true)

/-- The end of some positions, at least b. -/
def passTo (b : Nat) (ps : List Nat) : Nat := ps.foldl (fun m p => max m (p + 1)) b

/-- A beat of the verify pass (`held`), or of CHECK or PI_VERIFY, passes the check engine: faults of its lines, then the verdicts on
the tuples that end in it (05 R188, R189, 06 R209). -/
def State.passBeat (s : State) (x : Slot) (l : Loaf) (ps : List Nat) (held : Bool) : State :=
  let ns := beatTuples x l ps
  let reads := ps ++ (tuplePositions x.desc ns).filter (fun b => !ps.contains b)
  match s.beatFault x l reads with
  | some t => t
  | none =>
    let s0 := s.correctedLines x l reads
    match firstBad x ns with
    | some (f, det) => s0.piMismatch x f det
    | none =>
      let bytes := (outRun x l ps).getD []
      let e := passTo l.passB ps
      let pass := fun (m : Loaf) => { m.takeCheck x ps bytes with
        passB := e, formed := if held then m.formed ++ formedIn x l l.passB e else m.formed }
      s0.updSlot x.clu x.idx (fun y => if held then y.updLoaf l.num pass else (y.updLoaf l.num pass).freePassed)

/-- A line of a write of loaf l leaves: faults of its lines, the verdicts it needs, the comparison with the verify pass, then its bytes
(05 R160, R161, R190, 06 R194, R196, R210). -/
def State.writeBeat (s : State) (x : Slot) (l : Loaf) (a : Access) : State :=
  let ps := partPositions (lineParts a)
  let ns := stripBlocks x l ps
  let reads := ps ++ tuplePositions x.desc ns
  match s.beatFault x l reads with
  | some t => t
  | none =>
    let s0 := s.correctedLines x l reads
    match firstBad x ns with
    | some (f, det) => s0.piMismatch x f det
    | none =>
      if l.released && !formedAgrees x l ps then s0
      else
        let bytes := (outRun x l ps).getD []
        (s0.sendLine a.aid bytes).updSlot x.clu x.idx (fun y => (y.updLoaf l.num (fun m =>
          let m1 := if dDstNi x.desc then m else m.takeCheck x ps bytes
          { m1 with passB := min m.b1 (max m.passB (destSkip x.desc (passTo m.passB ps))),
                    judged := ns.foldl (fun r n => max r ((n + 1) * (dBlk x.desc + dTuple x.desc))) m.judged })).freePassed)

/-- A line leaves whose access may be quarantined (05 R173, 18 R525). -/
def State.runLine (s : State) (aid : Nat) : State :=
  s.sendLine aid (((((s.acc ++ s.quar.map (·.acc)).find? (fun a => a.aid == aid))).map lineBytes).getD [])

/-- A granted beat: a line that no descriptor forms, a line of a write, a verify beat, or a beat of CHECK or PI_VERIFY (05 R160). -/
def State.runBeat (s : State) (x : Slot) (j : BeatJob) : State :=
  match j with
  | .line aid => s.runLine aid
  | .write aid num =>
    match loafOf x num, s.access aid with
    | some l, some a => s.writeBeat x l a
    | _, _ => s
  | .verify num =>
    match loafOf x num with
    | some l => s.passBeat x l (verifyPositions x l) true
    | none => s
  | .check num =>
    match loafOf x num with
    | some l => s.passBeat x l (checkPositions x l) false
    | none => s

/-- Software priority of a class in a datapath arbiter (05 R177). -/
def classPrio (c : Nat) : Nat := if c = 0 then 7 else if c = 1 then 5 else if c = 2 then 3 else 1

/-- The U-class window of a cluster: for its last 1,024 cycles, whether class U took the beat (07 R234). -/
def uWindow (s : State) (clu : Nat) : List Bool := (assocGet s.uWin clu).getD []

/-- A cycle enters the window. -/
def State.pushWindow (s : State) (clu : Nat) (u : Bool) : State :=
  { s with uWin := assocPut s.uWin clu ((u :: uWindow s clu).take 1024) }

/-- A cycle of the arbiter's domain passes for the lockouts of a datapath arbiter (07 R242). -/
def State.tickLockouts (s : State) (a : Nat) : State :=
  let x := arbOf s a
  s.putArb { x with reqs := x.reqs.map (fun q => { q with lockout := q.lockout - 1 }) }

/-- The requesters of a datapath arbiter that ask no more lose their counter, flag and stamp (07 R240); a lockout runs on. -/
def State.dropRequests (s : State) (a : Nat) (asks : List Nat) : State :=
  let x := arbOf s a
  s.putArb { x with reqs := (x.reqs.filter (fun q => asks.contains q.idx || lockedOut s a q)).map (fun q =>
    if asks.contains q.idx then q else { q with wait := 0, forced := false, raised := false }) }

/-- The walk positions whose bytes stand in line k of a loaf's store. -/
def storePositions (d : List W64) (l : Loaf) (k : Nat) : List Nat :=
  ((List.range (l.b1 - l.b0)).map (l.b0 + ·)).filter (fun b => srcHas d b && decide (srcBytes d l.b0 b / 64 = k))

/-- A line of a store on its way to a Mirror is read (06 R216). -/
def State.readStoreLine (s : State) (clu idx left : Nat) : State :=
  match slotAt s clu idx with
  | none => s
  | some x =>
    match x.loaves with
    | [] => s
    | l :: _ =>
      let ps := storePositions x.desc l (storeLines x - left)
      (s.lineFault x l ps).getD (s.correctedLines x l ps)

/-- The takeover stream takes the beat: one line of a store reaches the Mirror's partition (05 R181, 07 R243, R244). -/
def State.takeoverBeat (s0 : State) (clu : Nat) (t : Nat × Nat × Nat) : State :=
  let s := s0.readStoreLine clu t.2.1 t.2.2
  let x := arbOf s (34 + clu)
  let left := t.2.2 - 1
  let done := decide (left = 0) || decide (66 ≤ x.emRun + 1)
  let s1 := s.putArb { x with emBarred := done, emRun := if done then 0 else x.emRun + 1 }
  let rest := s1.takeover.erase t
  { s1 with takeover := if left = 0 then rest else (clu, t.2.1, left) :: rest }

/-- The beat that the slot of a job is granted. -/
def State.beatOf (s : State) (clu i : Nat) (j : BeatJob) : State :=
  match slotAt s clu i, j with
  | _, .line aid => s.runLine aid
  | some x, _ => if stateFault x then s.slotFault x else s.runBeat x j
  | none, _ => s

/-- DATAPATH_BEAT (05 R160, R176 to R180; 07 R234 to R244): one cycle of cluster clu's datapath arbiter, and the beat it
grants. -/
def execDatapathBeat (clu : Nat) (s : State) : Out :=
  if 16 ≤ clu then .fault .noSuchUnit
  else if !running s then .next s
  else
    let a := 34 + clu
    let jobs := (List.range 34).filterMap (fun i => (slotJob s clu i).map (fun j => (i, j)))
    let s0 := (s.tickLockouts a).dropRequests a (jobs.map (·.1))
    let free := jobs.filter (fun j => !lockedOut s0 a (reqOf (arbOf s0 a) j.1))
    match s0.takeover.find? (fun t => t.1 == clu), (!(arbOf s0 a).emBarred || free.isEmpty) with
    | some t, true => .next ((s0.takeoverBeat clu t).pushWindow clu false)
    | _, _ =>
      let barred := decide (512 ≤ ((uWindow s0 clu).filter (fun u => u)).length) && free.any (fun j => decide (j.2.2 ≠ 0))
      let s1 := if barred then s0.bump .cluDpaStat clu 0 16 1 else s0
      let cands := free.filter (fun j => !(barred && decide (j.2.2 = 0)))
      let cls := fun i => ((jobs.find? (fun j => j.1 == i)).map (fun j => j.2.2)).getD 3
      let still := (jobs.filter (fun j => !cands.contains j)).map (·.1)
      let round := (arbOf s1 a).round
      let prio := fun i => classPrio (cls i)
      match bestOf s1 a prio (cands.map (·.1)) with
      | none => .next ((s1.putArb { arbOf s1 a with emBarred := false, emRun := 0 }).pushWindow clu false)
      | some i =>
        match s1.arbGrant a i (cands.map (·.1)) still prio (fun _ => round), cands.find? (fun j => j.1 == i) with
        | some s2, some j =>
          let u := decide (j.2.2 = 0)
          let s3 := if u && cands.any (fun k => decide (k.2.2 ≠ 0)) then s2.bump .cluPreempts clu 0 32 1 else s2
          .next ((s3.pushWindow clu u).beatOf clu i j.2.1)
        | _, _ => .next s1

/-! Release and commit. -/

/-- LOAF_RELEASE (05 R188, R191): the first loaf of a DST_NI descriptor has passed its verify pass; its writes are
released. -/
def execLoafRelease (clu slot : Nat) (s : State) : Out :=
  if 16 ≤ clu || 34 ≤ slot then .fault .noSuchUnit
  else
    match slotAt s clu slot with
    | none => .next s
    | some x =>
      match x.loaves.head? with
      | none => .next s
      | some l =>
        if running s && stateFault x then .next (s.slotFault x)
        else if running s && decide (x.phase = .moving) && !stalled x && dDstNi x.desc && !l.released && l.closed && l.backoff.isNone &&
            (verifyPositions x l).isEmpty && decide (srcBytes x.desc l.readB l.b1 = 0) && !storeAway s clu slot then
          .next (s.updSlot clu slot (fun y => y.updLoaf l.num (fun m =>
            { m with released := true, releases := m.releases + 1, formed := m.formed ++ formedIn x l l.passB l.b1 })))
        else .next s

/-- The slot sends the checkpoint of its first loaf (08 R246 conditions 1 to 5). -/
def commitReady (s : State) (x : Slot) (l : Loaf) : Bool :=
  dataPhase x && !stalled x && l.closed && l.backoff.isNone && l.relBad.isNone && !storeAway s x.clu x.idx &&
  !(x.lens.toList ++ x.lensReady).any (fun r => r.loaf == l.num) &&
  (if (dKind x.desc).noDest then decide (l.b1 ≤ l.passB)
   else decide (l.b1 ≤ l.writeB) && l.skip.isNone && !s.acc.any (ownWrite x.clu x.idx l.num) && (!dDstNi x.desc || l.released)) &&
  !oldWriteOpen s x (some l.num)

/-- The first loaf of a slot commits (08 R246 to R250): its check is folded, its bytes count, its checkpoint is stored. -/
def State.commitLoaf (s : State) (x : Slot) (l : Loaf) : State :=
  let d := x.desc
  let c := dChkSel d
  let data := dataBytes d l.b0 l.b1
  let rd := if dKind d = .fill then 0 else data
  let wr := if (dKind d).noDest then 0 else data
  let p := x.piCommit l.b1
  let y := ({ p with
    commits := x.commits + 1, bytes := x.bytes + data, loaves := x.loaves.tail,
    fold := if dChkSel d = CheckCode.none then x.fold else c.fold x.fold l.chkReg l.chkLen,
    replays := x.replays + flag x.adopted, lines := dropIf (fun r => r.ofLoaf l.num) x.lines }).pack
  let s1 := s.updSlot x.clu x.idx (fun _ => y)
  let s2 := ((s1.addIs3w (instCtr x.iid) rd).addIs3w (instCtr x.iid + 2) wr).countCtx x.qid (fun q =>
    { q with bytesRd := q.bytesRd + BitVec.ofNat 64 rd, bytesWr := q.bytesWr + BitVec.ofNat 64 wr })
  let s3 := (s2.putCkpt (ckptOf y)).fedCkpt y
  let s4 := match y.loaves with | m :: _ => if hasStore d then s3.packLines y m.num m.frags else s3 | [] => s3
  (s4.walkFault x.clu x.idx).settle x.clu x.idx

/-- CHECKPOINT_STORED (08 R246): the commit point of the slot's first loaf. -/
def execCheckpointStored (clu slot : Nat) (s : State) : Out :=
  if 16 ≤ clu || 34 ≤ slot then .fault .noSuchUnit
  else
    match slotAt s clu slot with
    | none => .next s
    | some x =>
      match x.loaves.head? with
      | some l =>
        if !running s || !commitReady s x l then .next s
        else if stateFault x then .next (s.slotFault x)
        else .next (s.commitLoaf x l)
      | none => .next s

/-- CKPT_CEIL (08 R251, R271): the checkpoint is sent again, logged as CORRECTED. -/
def execCkptCeil (clu slot : Nat) (s : State) : Out :=
  if 16 ≤ clu || 34 ≤ slot then .fault .noSuchUnit
  else
    match slotAt s clu slot with
    | none => .next s
    | some x =>
      match x.loaves.head? with
      | some l =>
        if running s && commitReady s x l then .next (s.logErr (mkErr 0 (2 + clu) 0x34 x.iid x.qid slot clu 0 slot 0)) else .next s
      | none => .next s

end Sys2Proof.Machine
end

