-- ==== Sys2Proof/Machine/Records.lean ====
section
/-! DEFINITION. Completion records and notices: their issue, what telemetry takes from them, their answers, and what is
given up (01 R28, 02 R86, 03 R127 to R132, 11 R362, R562, 13 R400 to R402, R416). -/

namespace Sys2Proof.Machine

/-! What telemetry takes from an issued record. -/

/-- The histogram bin of a latency (13 R400). -/
def histBin (l : Nat) : Nat := if l < 128 then 0 else if 2097152 ≤ l then 15 else Nat.log2 l - 6

/-- A record of an accepted descriptor enters its histogram, unless the timebase stepped between its timestamps (13 R400,
R401). -/
def State.enterHistogram (s : State) (iid : Nat) (r : Record) : State :=
  if !telOn s || r.abandoned then s
  else if r.fetchStep ≠ r.doneStep then s.bump .telStat 0 0 16 1
  else
    let l := (bits (wd r.words 4) 0 48 + 2 ^ 48 - bits (wd r.words 3) 0 48) % 2 ^ 48
    let c := r.cls.toNat
    (s.addIs3 (0x20000 + 64 * iid + 16 * c + histBin l) 1).addIs3w (0x60000 + 8 * iid + 2 * c) l

/-- Word 2 of trace slot k; its map entry is the difference from the reset value (13 R416). -/
def traceWord2 (s : State) (k : Nat) : W32 := s.is3.get (0x69300 + 8 * k + 2) ^^^ 0x1C00000

/-- LOG2_RECS of trace slot k. -/
def traceLog2 (s : State) (k : Nat) : Nat := clamp 7 16 (bits (traceWord2 s k) 22 5)

/-- A trace record (13 R417) of a completion record. -/
def traceWords (r : Record) (lap : Nat) : List W64 :=
  let w := fun i => wd r.words i
  [ pack [(0, 32, r.idx.toNat), (32, 8, bits (w 0) 0 8), (40, 8, bits (w 0) 8 8), (48, 2, bits (w 0) 24 2),
      (50, 1, bits (w 0) 27 1), (51, 1, bits (w 0) 28 1), (56, 8, lap)], w 3, w 4, w 1 ]

/-- LOST of a trace slot counts one more. -/
def State.traceLost (s : State) (k : Nat) : State := s.addIs3 (0x69300 + 8 * k + 4) 1

/-- Trace slot k writes its record, or drops it when its ring is full (13 R416). -/
def State.traceOne (s : State) (r : Record) (k : Nat) : State :=
  let base := 0x69300 + 8 * k
  let w2 := traceWord2 s k
  if !bit w2 27 || decide (bits w2 0 22 ≠ r.qid) then s
  else
    let prod := (s.is3.get (base + 3)).toNat
    let size := 2 ^ traceLog2 s k
    if size ≤ (prod + 2 ^ 32 - (s.rd .telTraceCons k).toNat) % 2 ^ 32 then s.traceLost k
    else
      let addr := (s.is3.get base).toNat / 4096 * 4096 + (s.is3.get (base + 1)).toNat * 2 ^ 32 + 32 * (prod % size)
      (s.addIs3 (base + 3) 1).service
        (mkHeld (.trace k) r.qid true addr 32 (sharedAttrs s 0) (bytesOfWords (traceWords r ((prod / size + 1) % 256))) 0)

/-- Every trace slot takes the record (13 R416). -/
def State.traceRecord (s : State) (r : Record) : State :=
  if telOn s then (List.range 8).foldl (fun t k => t.traceOne r k) s else s

/-! The issue of a record (01 R28). -/

/-- The instance of a queue whose context is resident. -/
def iidOfQueue (s : State) (qid : Nat) : Nat := match ctxOf s qid with | some c => c.iid.toNat | none => 0

/-- What follows the issue of a record: the store's entry frees, Q and the window advance for a ring slot, counters,
histogram and trace take it, a Mirror returns to standby, later slots may be accepted, and the queue may become IDLE. -/
def State.recordIssued (s : State) (r : Record) : State :=
  let iid := iidOfQueue s r.qid
  let status := bits (wd r.words 0) 8 8
  let s1 := s.takeRecordOut r
  let s2 := if r.chainPos = 0 then (s1.updCtx r.qid (fun c => { c with q := c.q + 1, winDone := c.winDone >>> 1 })).skipDone r.qid 65536 else s1
  let s3 := (s2.addIs3w (instCtr iid + 4) 1).countCtx r.qid (fun c => { c with descs := c.descs + 1 })
  let s4 := if status ≤ 2 then s3 else (s3.addIs3 (instCtr iid + 7) 1).countCtx r.qid (fun c => { c with contained := c.contained + 1 })
  let s5 := (s4.enterHistogram iid r).traceRecord r
  let s6 := if r.abandoned || decide (status = 0) then s5 else s5.pulse (8 * r.clu + 1) 0
  let mirrorDone := decide (32 ≤ r.slot) && decide (r.slot < 34) && decide (r.chainPos = 0) &&
    (match slotAt s6 r.clu r.slot with
     | some x => decide (x.phase = .finished) && decide (x.qid = r.qid) && decide (x.slotIdx = r.idx) && x.chain.isNone && decide (x.kept = [])
     | none => false)
  let s7 := if mirrorDone then (s6.setFld .cluMirrorStat r.clu (r.slot - 30) 1 0).freeSlot r.clu r.slot else s6
  (((((s7.bankAccess r.qid 2).releaseDone r.clu r.slot).acceptMore r.qid).pumpStore.settleMoving 1).checkIdle r.qid).admCheck

/-- The finished record whose turn it is: those of the chain at slot Q in order, then slot Q's own. One that waits for an entry of the
full record store is issued from where it is kept, since the store empties by such issues alone (17 R503, DEDUCED, log entry 48). -/
def nextRecord (s : State) (qid : Nat) : Option Record :=
  match ctxOf s qid with
  | none => none
  | some c =>
    let here := (finishedRecs s qid).filter (fun r => decide (r.idx = c.q))
    match leastBy (·.chainPos) (here.filter (fun r => decide (r.chainPos ≠ 0))) with
    | some r => some r
    | none => here.find? (fun r => decide (r.chainPos = 0))

/-- The write of a finished record, in the write stream of the cluster that ran it (01 R28), or by the notice logic. Where that
cluster's port has fallen since (18 R519), the record takes the queue's service port (DESIGN CHOICE, log entry 45). -/
def recordHeld (s : State) (r : Record) : Held :=
  { mkHeld (.record r.qid r.idx r.chainPos r.noticeNow r.abandoned) r.qid true r.addr 64 r.attrs (bytesOfWords r.words)
      (iidOfQueue s r.qid) with
    port := if r.abandoned || !s.portActive.contains r.clu then none else some r.clu,
    holder := if r.abandoned then 34 else r.slot, classU := !r.abandoned && decide (r.cls = 0) }

/-- The context of a queue with finished records is fetched where it is not resident (11 R566). -/
def State.needCtx (s : State) (qid : Nat) : State :=
  if (ctxOf s qid).isSome || s.ctxWait.any (fun w => w.1 == qid) || (finishedRecs s qid).isEmpty then s
  else s.awaitCtx qid .ready

/-- COMPLETION_RECORD (01 R28, 03 R117): the record of the queue's next finished slot is written over its slot. -/
def execCompletionRecord (qid : Nat) (s : State) : Out :=
  if 2 ^ 22 ≤ qid then .fault .noSuchUnit
  else
    match nextRecord s qid with
    | none => if running s then .next (s.needCtx qid) else .next s
    | some r =>
      if running s && serves s && !r.abandoned && (portNow s (recordHeld s r)).isSome then
        .next ((s.service (recordHeld s r)).recordIssued r)
      else .next s

/-- ABANDONED_RECORD (02 R86, 03 R123): the notice logic writes the record of a discarded slot in its turn. -/
def execAbandonedRecord (qid : Nat) (s : State) : Out :=
  if 2 ^ 22 ≤ qid then .fault .noSuchUnit
  else
    match nextRecord s qid with
    | none => if running s then .next (s.needCtx qid) else .next s
    | some r =>
      if running s && serves s && r.abandoned then .next ((s.service (recordHeld s r)).recordIssued r) else .next s

/-! Acknowledgements (03 R131, R132). -/

/-- Timebase bits [41:10] at which a delay of `us` ends, rounded up. -/
def noticeDue (s : State) (us : Nat) : W32 := BitVec.ofNat 32 ((s.timebase.toNat + 1000 * us + 1023) / 1024)

/-- NOTICE_DELAY has passed. -/
def noticeLate (s : State) (c : QCtx) : Bool := !bit (BitVec.ofNat 32 (s.timebase.toNat / 1024) - c.ntcDue) 31

/-- A record is acknowledged: a ring record counts in PENDING, and the triggers are checked (03 R131). PENDING stays at its greatest
value, 65,535, where a notice in flight lets it come so far (DESIGN CHOICE, log entry 45); a notice that waits to be issued counts the
record in its CI, and its issue returns PENDING to 0. -/
def State.recordAcked (s : State) (qid : Nat) (ring noticeNow : Bool) : State :=
  match ctxOf s qid with
  | none => s
  | some c =>
    if c.noticeAddr = 0 then s
    else if noticeWaits s qid then s
    else if !ring then (if noticeNow then s.noticeTrigger qid else s)
    else
      let p := min 0xFFFF (c.pendingCnt.toNat + 1)
      let c1 := { c with
        pendingCnt := BitVec.ofNat 16 p,
        ntcDue := if c.pendingCnt = 0 then noticeDue s c.noticeDelay.toNat else c.ntcDue }
      let s1 := s.setCtx qid c1
      if decide (c.noticeThresh.toNat ≤ p) || noticeNow then s1.noticeTrigger qid else s1

/-- A record's acknowledgement reaches its queue's context, or waits for it. -/
def State.recordAckAt (s : State) (qid : Nat) (idx : W32) (chainPos : Nat) (noticeNow : Bool) : State :=
  if !s.queues.contains qid then s
  else if (ctxOf s qid).isSome then (s.lookup qid 2).recordAcked qid (decide (chainPos = 0)) noticeNow
  else s.awaitCtx qid (.recordAck idx (decide (chainPos = 0)) noticeNow)

/-- A notice is acknowledged: a kept trigger issues the next one (03 R132). -/
def State.noticeAcked (s : State) (qid : Nat) : State :=
  match ctxOf s qid with
  | none => s
  | some c =>
    let s1 := s.setCtx qid { c with noticeBusy := 0 }
    if c.noticeKept = 1 then s1.noticeTrigger qid else s1

/-- A notice's acknowledgement reaches its queue's context, or waits for it. -/
def State.noticeAckAt (s : State) (qid : Nat) : State :=
  if !s.queues.contains qid then s else if (ctxOf s qid).isSome then (s.lookup qid 3).noticeAcked qid else s.awaitCtx qid .noticeAck

/-- A record or notice write counts as acknowledged. -/
def State.writeAcked (s : State) (u : Purpose) : State :=
  match u with
  | .record q i cp nn _ => s.recordAckAt q i cp nn
  | .notice q => s.noticeAckAt q
  | _ => s

/-- A record or notice write is given up (11 R362): logged as DEVICE 0x46, and it counts as acknowledged. -/
def State.giveUp (s : State) (a : Access) (code : BitVec 6) : State :=
  match a.purpose with
  | .record q i _ _ ab =>
    (s.logErr (mkErr 3 (if ab then 18 else 2 + a.port) 0x46 a.iid q (if ab then 63 else a.holder) (if ab then 0 else a.port)
      (code.setWidth 8) i.toNat 0)).writeAcked a.purpose
  | .notice q =>
    (s.logErr (mkErr 3 18 0x46 a.iid q 63 0 (code.setWidth 8) (leNat (a.data.take 4)) 1)).writeAcked a.purpose
  | _ => s

/-- The write is a record's or a notice's. -/
def isRecordWrite (u : Purpose) : Bool := match u with | .record _ _ _ _ _ => true | .notice _ => true | _ => false

/-- The queue that a record or notice belongs to. -/
def recordQueue (u : Purpose) : Nat := match u with | .record q _ _ _ _ => q | .notice q => q | _ => 0

/-- A record or notice write is to be issued again, or is given up at its sixteenth expiry (11 R362, R562). -/
def State.recordAgain (s : State) (a : Access) (code : BitVec 6) : State :=
  if 16 ≤ a.expiries + 1 then s.giveUp a code else s.serviceAgain { a with toSend := 0 } (recordQueue a.purpose)

/-- The answer to a record or notice write. What it leads to comes before any access that waited for its write ID: a notice then issued
counts no record that is still to be acknowledged (01 R26, 03 R130). -/
def State.recordAnswer (s : State) (a : Access) (code0 : BitVec 6) : State :=
  let code := codeSeen code0
  let s1 := (s.logDirty a.iid a.addr).dropAccess a.aid
  (if code = 0 then s1.writeAcked a.purpose
   else if codeRetryable code then s1.recordAgain a code
   else s1.giveUp a code).drainHeld

/-- COMPLETION_RECORD_ACK (03 R131, 11 R362, R562). -/
def execCompletionRecordAck (aid : Nat) (code : BitVec 6) (s : State) : Out :=
  match s.access aid with
  | none => .next s
  | some a =>
    match a.purpose with
    | .record _ _ _ _ _ => if s.fatal || decide (a.toSend ≠ 0) then .next s else .next (s.recordAnswer a code)
    | _ => .next s

/-- NOTICE_ACK (03 R132, 11 R362, R562). -/
def execNoticeAck (aid : Nat) (code : BitVec 6) (s : State) : Out :=
  match s.access aid with
  | none => .next s
  | some a =>
    match a.purpose with
    | .notice _ => if s.fatal then .next s else .next (s.recordAnswer a code)
    | _ => .next s

/-- NOTICE_DELAY_EXPIRY (03 R131): NOTICE_DELAY has passed since the first record counted in PENDING was acknowledged. -/
def execNoticeDelayExpiry (qid : Nat) (s : State) : Out :=
  if 2 ^ 22 ≤ qid then .fault .noSuchUnit
  else
    match ctxOf s qid with
    | none => .next s
    | some c =>
      if running s && decide (c.pendingCnt ≠ 0) && decide (c.noticeDelay ≠ 0) && noticeLate s c then .next (s.noticeTrigger qid)
      else .next s

/-- RECORD_WRITE_CEIL (01 R32, 11 R362): a record or notice write is issued again with the same content; its write ID is
quarantined. -/
def execRecordWriteCeil (aid : Nat) (s : State) : Out :=
  match s.access aid with
  | none => .next s
  | some a =>
    if s.fatal || !expired s a || !isRecordWrite a.purpose then .next s
    else .next ((((s.logDirty a.iid a.addr).quarantine a).recordAgain a 0).drainHeld)

/-- RECORD_GIVE_UP (11 R362): a record or notice write that draws a non-retryable error, or expires for the sixteenth time,
is given up. -/
def execRecordGiveUp (aid : Nat) (code : BitVec 6) (s : State) : Out :=
  match s.access aid with
  | none => .next s
  | some a =>
    let c := codeSeen code
    if s.fatal || !isRecordWrite a.purpose then .next s
    else if decide (c ≠ 0) && !codeRetryable c then .next ((((s.logDirty a.iid a.addr).dropAccess aid).giveUp a c).drainHeld)
    else if decide (16 ≤ a.expiries + 1) && expired s a then .next ((((s.logDirty a.iid a.addr).quarantine a).giveUp a c).drainHeld)
    else .next s

end Sys2Proof.Machine
end

