-- ==== Sys2Proof/Machine/Telemetry.lean ====
section
/-! DEFINITION. Telemetry: copies and snapshots, port occupancy, thresholds, interval timers (13 R407 to R415). -/

namespace Sys2Proof.Machine

/-! Copies (13 R412, R413). -/

/-- A 64-bit word of IS3. -/
def is3w (s : State) (w : Nat) : W64 := BitVec.ofNat 64 ((s.is3.get w).toNat + 2 ^ 32 * (s.is3.get (w + 1)).toNat)

/-- Two 32-bit words of IS3 as one 64-bit word. -/
def is3pair (s : State) (lo hi : Nat) : W64 := BitVec.ofNat 64 ((s.is3.get lo).toNat + 2 ^ 32 * (s.is3.get hi).toNat)

/-- A line of eight words. -/
def line8 (ws : List W64) : List W64 := (ws ++ List.replicate 8 0).take 8

/-- Payload lines of a copy (13 R412). -/
def copyLines (s : State) (set iid : Nat) (c : Option QCtx) : List (List W64) :=
  if set = 0 then
    let b := instCtr iid
    [line8 [is3w s b, is3w s (b + 2), is3w s (b + 4), is3pair s (b + 6) (b + 7), (s.is3.get (b + 8)).setWidth 64]]
  else if set = 1 then
    let b := 0x20000 + 64 * iid
    ((List.range 4).map (fun k => (List.range 8).map (fun i => is3pair s (b + 16 * k + 2 * i) (b + 16 * k + 2 * i + 1)))) ++
      [line8 ((List.range 4).map (fun k => is3w s (0x60000 + 8 * iid + 2 * k)))]
  else if set = 2 then
    (List.range 16).map (fun p => (List.range 8).map (fun i => is3pair s (0x68000 + 16 * p + 2 * i) (0x68000 + 16 * p + 2 * i + 1)))
  else
    match c with
    | none => [line8 []]
    | some q => [line8 [q.bytesRd, q.bytesWr, pack [(0, 32, q.descs.toNat), (32, 16, q.replays.toNat), (48, 16, q.contained.toNat)]]]

/-- How many payload lines a set has. -/
def copySize (set : Nat) : Nat := if set = 1 then 5 else if set = 2 then 16 else 1

/-- COPY_SEQ after the one given. -/
def copySeqNext (n : W32) : W32 := if n + 1 = 0 then 1 else n + 1

/-- The header line of a copy (13 R413). -/
def copyHeader (s : State) (set iid qid : Nat) (absent : Bool) (seq : W32) : List W64 :=
  [pack [(0, 4, set), (4, 12, iid), (16, 22, qid), (38, 1, flag absent), (39, 1, flag (unsyncedNow s))], s.timebase,
   seq.setWidth 64, 0, 0, 0, 0, seq.setWidth 64]

/-- A copy of set 2 restarts the maxima (13 R408). -/
def State.restartMax (s : State) : State :=
  { s with is3 := (List.range 16).foldl (fun m p => (List.range 3).foldl (fun n k =>
      n.put (0x68000 + 16 * p + 3 + k) (n.get (0x68000 + 16 * p + k))) m) s.is3 }

/-- A copy is taken: its payload, its header line, and what the taking changes. `absent` makes the payload zero. -/
def State.takeCopy (s : State) (set iid qid : Nat) (c : Option QCtx) (absent : Bool) : State × List (List W64) × List W64 :=
  let seq := copySeqNext s.copySeq
  let ls := if absent then List.replicate (copySize set) (line8 []) else copyLines s set iid c
  let s1 := { s with copySeq := seq }
  (if set = 2 then s1.restartMax else s1, ls, copyHeader s set iid qid absent seq)

/-! Snapshots (13 R415). -/

/-- The words of snapshot sink k. -/
def snapWords (s : State) (k : Nat) : List W32 := (List.range 4).map (fun w => s.is3.get (0x69200 + 4 * k + w))

/-- DEST of a snapshot sink with the words given. -/
def snapDest (ws : List W32) : Nat := (ws.getD 0 0).toNat / 64 * 64 + (ws.getD 1 0).toNat * 2 ^ 32

/-- What EVM and telemetry keep of snapshot k. -/
def snapOf (s : State) (k : Nat) : Option Snap := s.snaps.find? (fun x => x.num == k)

/-- A snapshot changed, or dropped. -/
def State.putSnap (s : State) (k : Nat) (x : Option Snap) : State :=
  { s with snaps := x.toList ++ s.snaps.filter (fun y => y.num != k) }

/-- A write of snapshot k. -/
def snapWrite (s : State) (k key addr : Nat) (header : Bool) (line : List W64) : Held :=
  mkHeld (.snap k header) key true addr 64 (sharedAttrs s 0) (bytesOfWords line) 0

/-- The copy of snapshot k is taken, by the words of its sink at the edge, and its payload lines are written. -/
def State.snapCopy (s : State) (k key : Nat) (ws : List W32) (c : Option QCtx) (absent : Bool) : State :=
  let w2 := ws.getD 2 0
  let set := bits w2 12 4
  let dest := snapDest ws
  match s.takeCopy set (bits w2 0 12) (bits (ws.getD 3 0) 0 22) c absent with
  | (s1, ls, h) =>
    let s2 := s1.putSnap k (some { num := k, left := ls.length, waiting := false, key := key, header := some (bytesOfWords h, dest), sink := ws })
    (ls.zipIdx).foldl (fun t l => t.service (snapWrite t k key (dest + 64 + 64 * l.2) false l.1)) s2

/-- The queue that a sink of SET 3 names is there to be copied: of a live instance, homed here (13 R415). -/
def snapTarget (s : State) (ws : List W32) : Bool :=
  let iid := bits (ws.getD 2 0) 0 12
  let qid := bits (ws.getD 3 0) 0 22
  decide (s.instState iid ≠ 0) && s.queues.contains qid && !homedAway s qid && decide (qbase s iid ≤ qid) &&
    decide (qid < qbase s iid + qidSpan s iid)

/-- An edge on snapshot sink k, under the key of its line's owner. -/
def State.snapshot (s : State) (k key : Nat) : State :=
  let ws := snapWords s k
  let w2 := ws.getD 2 0
  let set := bits w2 12 4
  let qid := bits (ws.getD 3 0) 0 22
  if !telOn s || !bit w2 16 || decide (3 < set) || decide (snapDest ws = 0) then s
  else if (snapOf s k).isSome then s.bump .telStat 0 16 8 1
  else if set = 3 then
    if !snapTarget s ws then s.snapCopy k key ws none true
    else
      match ctxOf s qid with
      | some c => s.snapCopy k key ws (some c) false
      | none => (s.putSnap k (some { num := k, left := 0, waiting := true, key := key, header := none, sink := ws })).awaitCtx qid (.copy k)
  else s.snapCopy k key ws none (decide (set ≠ 2) && decide (s.instState (bits w2 0 12) = 0))

/-- A snapshot that waits for its queue's context is taken once it is resident, or without a target once the queue is gone; while
telemetry is gated it waits (13 R397, R415). -/
def State.snapWaits (s : State) (x : Snap) : State :=
  let qid := bits (x.sink.getD 3 0) 0 22
  if !x.waiting || !telOn s then s
  else if !snapTarget s x.sink then s.snapCopy x.num x.key x.sink none true
  else
    match ctxOf s qid with
    | some c => s.snapCopy x.num x.key x.sink (some c) false
    | none => if s.ctxWait.any (fun w => w.1 == qid && decide (w.2 = .copy x.num)) then s else s.awaitCtx qid (.copy x.num)

/-- A snapshot write is acknowledged: the header follows the last payload line, and ends the copy. -/
def State.snapAck (s : State) (k : Nat) (header : Bool) : State :=
  match snapOf s k with
  | none => s
  | some x =>
    if header then s.putSnap k none
    else if 1 < x.left then s.putSnap k (some { x with left := x.left - 1 })
    else
      match x.header with
      | some (h, dest) =>
        (s.putSnap k (some { x with left := 0, header := none })).service
          (mkHeld (.snap k true) x.key true dest 64 (sharedAttrs s 0) h 0)
      | none => s.putSnap k none

/-- A copy is abandoned: its header is not written, and the answers of its other writes are taken as they come. -/
def State.snapDrop (s : State) (k : Nat) : State :=
  let mine := fun (u : Purpose) => match u with | .snap j _ => j == k | _ => false
  { (s.putSnap k none) with
    acc := upd (fun a => mine a.purpose) (fun a => { a with purpose := .oldWrite 0 0 0x10000 0 }) s.acc,
    held := s.held.filter (fun h => !mine h.purpose) }

/-- A trace or snapshot write is given up (13 R415, R416). -/
def State.telGiveUp (s : State) (u : Purpose) : State :=
  match u with
  | .trace k => s.traceLost k
  | .snap k _ => s.snapDrop k
  | _ => s

/-- TELEMETRY_WRITE_CEIL (13 R415, R416; 01 R34): a trace record is counted lost, a snapshot abandoned. -/
def execTelemetryWriteCeil (aid : Nat) (s : State) : Out :=
  match s.access aid with
  | none => .next s
  | some a =>
    if s.fatal || !expired s a || decide (unitOf a.purpose ≠ 3) then .next s
    else .next (((s.quarantine a).drainHeld).telGiveUp a.purpose)

/-! Words of IS3 as they read (13 R406). -/

/-- Timer k counts now. -/
def timerRuns (s : State) (k : Nat) : Bool := telOn s && s.timers.any (fun t => t.num == k && t.ends.isSome)

/-- A word of IS3: as stored, with the reset value of a trace slot's word 2, and RUNNING of a timer. -/
def is3Word (s : State) (w : Nat) : W32 :=
  if 0x69300 ≤ w ∧ w < 0x69340 ∧ w % 8 = 2 then traceWord2 s ((w - 0x69300) / 8)
  else if 0x69100 ≤ w ∧ w < 0x69140 ∧ w % 2 = 1 then withBits (s.is3.get w) 2 1 (flag (timerRuns s ((w - 0x69100) / 2)))
  else if w < 0x69340 then s.is3.get w
  else 0

/-! Occupancy and thresholds (13 R407 to R410). -/

/-- The clock switch of TB hangs: its clock stands still (15 R458). -/
def tbHangs (s : State) : Bool := s.muxes.any (fun x => x.domain == 22)

/-- Telemetry counts TB cycles: it is not gated, and TB's clock does not hang (13 R397, R407, R409, R411). -/
def telRuns (s : State) : Bool := telOn s && !tbHangs s

/-- Sample period in ns. -/
def occPeriodNs (s : State) : Nat := 1000 * clamp 1 1000000 (s.fld .telOccCtl 0 0 20)

/-- One port's sample (13 R407): the tags and IDs held, quarantined ones aside (05 R172). -/
def State.samplePort (s : State) (p : Nat) : State :=
  let on := bit (s.rd .clkGateStat 0) p && !outOfService s p
  let v := fun k => if !on then 0 else if k = 0 then tagsHeld s p false (fun _ => true)
    else if k = 1 then tagsHeld s p true (fun _ => true) else poolUsed s p
  let b := 0x68000 + 16 * p
  let s1 := (List.range 3).foldl (fun t k =>
    let last := t.is3.put (b + k) (BitVec.ofNat 32 (v k))
    let most := last.put (b + 3 + k) (BitVec.ofNat 32 (max (last.get (b + 3 + k)).toNat (v k)))
    ({ t with is3 := most }).addIs3w (b + 8 + 2 * k) (v k)) s
  s1.addIs3 (b + 6) 1

/-- Word w of threshold t. -/
def thrWord (s : State) (t w : Nat) : W32 := s.is3.get (0x69000 + 4 * t + w)

/-- The state of threshold t. -/
def thrState (s : State) (t : Nat) : Bool := bit (thrWord s t 3) 0

/-- That replaced. -/
def State.setThr (s : State) (t : Nat) (v : Bool) : State :=
  { s with is3 := s.is3.put (0x69000 + 4 * t + 3) (BitVec.ofNat 32 (flag v)) }

/-- The new state of a threshold in a mode, with value v (13 R409). -/
def thrNext (mode v limit hyst : Nat) (old : Bool) : Bool :=
  if mode = 0 then false
  else if mode = 2 then (if v < limit then true else if min (2 ^ 32 - 1) (limit + hyst) ≤ v then false else old)
  else (if limit ≤ v then true else if v < limit - hyst then false else old)

/-- Threshold t is evaluated; in delta mode only at a sample. -/
def State.evalThr (s : State) (t : Nat) (sample : Bool) : State :=
  let w0 := thrWord s t 0
  let mode := bits w0 20 2
  let v := (is3Word s (bits w0 0 20)).toNat
  let limit := (thrWord s t 1).toNat
  let hyst := (thrWord s t 2).toNat
  if mode = 3 then
    if sample then
      let prev := ((assocGet s.thrPrev t).map (·.toNat)).getD 0
      ({ s with thrPrev := assocPut s.thrPrev t (BitVec.ofNat 32 v) }).setThr t
        (thrNext 3 ((v + 2 ^ 32 - prev) % 2 ^ 32) limit hyst (thrState s t))
    else s
  else if sample then s
  else s.setThr t (thrNext mode v limit hyst (thrState s t))

/-- OCCUPANCY_SAMPLE (13 R407): all sixteen ports are sampled, then the delta thresholds are evaluated (R409). -/
def execOccupancySample (s : State) : Out :=
  if telRuns s && !s.fatal && s.rstN && bit (s.rd .telOccCtl 0) 20 && decide (s.occDue ≤ s.nomNs) then
    let s1 := (List.range 16).foldl (fun t p => t.samplePort p) { s with occDue := s.nomNs + occPeriodNs s }
    .next ((List.range 64).foldl (fun t k => t.evalThr k true) s1)
  else .next s

/-- THRESHOLD_EVAL (13 R409): one evaluation, due once per 64 TB cycles. -/
def execThresholdEval (t : Nat) (s : State) : Out :=
  if 64 ≤ t then .fault .noSuchUnit
  else if telRuns s && !s.fatal && s.rstN then .next (s.evalThr t false) else .next s

/-! Interval timers (13 R411). -/

/-- PERIOD of timer k in ns. -/
def timerPeriod (s : State) (k : Nat) : Nat := max 1 (s.is3.get (0x69100 + 2 * k)).toNat

/-- MODE of timer k. -/
def timerMode (s : State) (k : Nat) : Nat := bits (s.is3.get (0x69100 + 2 * k + 1)) 0 2

/-- The state of timer k. -/
def timerOf (s : State) (k : Nat) : Timer := (s.timers.find? (fun t => t.num == k)).getD { num := k, ends := none, paused := none }

/-- That replaced. -/
def State.putTimer (s : State) (t : Timer) : State :=
  { s with timers := (if t.ends.isNone && t.paused.isNone then [] else [t]) ++ s.timers.filter (fun x => x.num != t.num) }

/-- An edge on the control of timer k, with the level it then has (13 R411, 12 R384). -/
def State.timerEdge (s : State) (k : Nat) (high : Bool) : State :=
  let n := s.nomNs + timerPeriod s k
  if timerMode s k = 0 || !telOn s then s
  else if timerMode s k = 3 && !high then s.putTimer { num := k, ends := none, paused := some (timerPeriod s k) }
  else s.putTimer { num := k, ends := some n, paused := none }

/-- The control level of a gated timer: it runs while high, and pauses while low. -/
def State.timerGate (s : State) (k : Nat) (high : Bool) : State :=
  let t := timerOf s k
  if timerMode s k ≠ 3 ∨ !telOn s then s
  else
    match high, t.ends with
    | true, none => s.putTimer { t with ends := some (s.nomNs + t.paused.getD (timerPeriod s k)), paused := none }
    | false, some e => s.putTimer { t with ends := none, paused := some (e - s.nomNs) }
    | _, _ => s

/-- A write of a timer's MODE (13 R411): periodic mode runs from here; the others wait for their control. -/
def State.timerModeSet (s : State) (k : Nat) : State :=
  if timerMode s k = 1 then s.putTimer { num := k, ends := some (s.nomNs + timerPeriod s k), paused := none }
  else s.putTimer { num := k, ends := none, paused := none }

/-- INTERVAL_TIMER_EXPIRY (13 R411; 12 R374): timer Tk reaches its period and pulses its source. -/
def execIntervalTimerExpiry (k : Nat) (s : State) : Out :=
  if 32 ≤ k then .fault .noSuchUnit
  else
    match (timerOf s k).ends with
    | some e =>
      if telRuns s && !s.fatal && s.rstN && decide (e ≤ s.nomNs) then
        let s1 := s.pulse (224 + k) 0
        .next (s1.putTimer { num := k, ends := if timerMode s k = 2 then none else some (e + timerPeriod s k), paused := none })
      else .next s
    | none => .next s

end Sys2Proof.Machine
end

