-- ==== Sys2Proof/Machine/Events.lean ====
section
/-! DEFINITION. The event matrix at work: levels, pulses, edges and sinks (12 R374 to R393). -/

namespace Sys2Proof.Machine

/-- EVM runs: its clock is neither gated nor in a hang (15 R459, R467, R474). -/
def evmOn (s : State) : Bool :=
  !s.fatal && s.rstN && (decide (s.mode = .configure) || decide (s.mode = .run) || decide (s.mode = .test) || waking s) &&
  bit (s.rd .clkGateStat 0) 24 && !s.muxes.any (fun x => x.domain == 21)

/-- Nanoseconds of an EVM cycle: 1 on a PLL, 10 on bypass (15 R456). -/
def evmCycleNs (s : State) : Nat := if s.fld .clkSrcHi 0 10 2 = 0 then 10 else 1

/-- The slot runs a descriptor: its slot has been accepted (17 CLUn_SLOT_Q). -/
def slotRuns (x : Slot) : Bool := x.chain.isSome || (decide (x.phase ≠ .slotRead) && decide (x.phase ≠ .proofed))

/-! Sources (12 R374). -/

/-- Class U is barred at a cluster's datapath arbiter (07 R234). -/
def uBarred (s : State) (n : Nat) : Bool :=
  decide (512 ≤ ((uWindow s n).filter (fun u => u)).length) &&
  (List.range 34).any (fun i => match slotJob s n i with | some j => decide (j.2 ≠ 0) | none => false)

/-- Free read tags of a port are down to the reserves (05 R174). -/
def tagsLow (s : State) (n : Nat) : Bool :=
  decide (1024 - tagsUsed s n false ≤ clamp 8 128 (s.fld .cluTagCtl n 11 8) + min 256 (s.fld .cluTagCtl n 19 9))

/-- The level of a source outside its pulse cycles. -/
def sourceLevel (s : State) (n : Nat) : Bool :=
  if n < 128 then
    let c := n / 8
    if n % 8 = 3 then decide (1680 ≤ poolUsed s c)
    else if n % 8 = 4 then tagsLow s c
    else if n % 8 = 5 then uBarred s c
    else if n % 8 = 7 then !s.slots.any (fun x => x.clu == c && slotRuns x)
    else false
  else if n = 147 then decide (s.pollBudget ≤ 0)
  else if 160 ≤ n ∧ n < 224 then thrState s (n - 160)
  else if 256 ≤ n then s.evIn.any (fun e => e.1 == n - 256)
  else false

/-- The sources that the active bank routes to some line. -/
def routedSources (b : EvmBank) : List Nat :=
  b.is1.foldl (fun l p => if l.head? = some (p.1 / 8) then l else p.1 / 8 :: l) []

/-! Levels. -/

/-- FLAG of a line is set, one event of EVM_LINE_STAT where it finds FLAG at 0 or comes from an edge (12 R392). -/
def State.lineFlag (s : State) (l : Nat) (edge : Bool) : State :=
  if edge || !bit (s.rd .evmLineStat (l / 8)) (l % 8) then s.sEvent .evmLineStat (l / 8) (fun w => withBits w (l % 8) 1 1)
  else s

/-- The level of line l becomes v. -/
def State.lineLevel (s : State) (l : Nat) (v : Bool) : State :=
  let x := lineOf s l
  let s1 := s.putLine { x with level := v, since := if v && !x.level then s.nomNs else x.since }
  if !v || x.masked then s1
  else
    let s2 := s1.lineFlag l false
    if lineDirect s.evm l then
      (List.range 64).foldl (fun t f => if reaches s.evm l (432 + f) then t.setWaitFlag f else t) s2
    else s2

/-- The control level of timer k. -/
def timerHigh (s : State) (k : Nat) : Bool :=
  s.lines.any (fun x => x.level && !x.masked && !lineDirect s.evm x.num && reaches s.evm x.num (384 + k))

/-- The timers in gated mode follow their control levels. -/
def State.gateTimers (s : State) : State :=
  (List.range 32).foldl (fun t k => if timerMode t k = 3 then t.timerGate k (timerHigh t k) else t) s

/-- Source levels are taken anew: rises pulse, an input's with its hop count, lines follow, gated timers with them; the pulse cycle
before has ended. -/
def State.refreshEvm (s : State) : State :=
  if !evmOn s then s
  else
    let high := (routedSources s.evm).filter (fun n => sourceLevel s n)
    let hop := fun (n : Nat) => ((s.evIn.find? (fun e => e.1 + 256 == n)).map (fun e => e.2)).getD 0
    let s1 := (high.filter (fun n => !s.srcLevels.contains n)).foldl (fun t n => t.pulse n (hop n)) { s with srcLevels := high, pulseHigh := [] }
    ((routedLines s1).foldl (fun t l => t.lineLevel l (high.any (fun n => feeds s.evm n l))) s1).gateTimers

/-- The routing changes by f: the rises under the old one pulse first, and a source newly routed makes no rise of the level it
already has. -/
def State.reroute (s : State) (f : State → State) : State :=
  let t := f s.refreshEvm
  ({ t with srcLevels := (routedSources t.evm).filter (fun n => sourceLevel t n) }).refreshEvm

/-! Sinks (12 R380 to R384). -/

/-- A kick of a queue (01 R35): marked ready, once its context is resident. -/
def State.kickQueue (s : State) (qid : Nat) : State :=
  if homedAway s qid then s
  else if (ctxOf s qid).isSome then (s.hit qid).markReady qid
  else s.awaitCtx qid .kick

/-- A kick of the poll of an instance, the debug trigger's or a kick slot's (02 R63, 17 R505): of IID 0 also of the admin doorbell's
read (09 R276); without effect in CONFIGURE and TEST (19 R542). -/
def State.kickPoll (s : State) (iid : Nat) (dbg : Bool) : State :=
  if decide (s.instState iid = 0) || decide (s.mode = .configure) || decide (s.mode = .test) then s
  else (if iid = 0 then s.setAdm (fun a => { a with kick := true }) else s).kickInst iid dbg

/-- Kick slot k (12 R381); without effect in CONFIGURE and TEST (19 R542). -/
def State.kickSlot (s : State) (k : Nat) : State :=
  let iid := ownerOfSet s (k / 8)
  let m := kickMap s.evm k
  if decide (s.instState iid = 0) || decide (s.mode = .configure) || decide (s.mode = .test) then s
  else if bit (BitVec.ofNat 16 m) 15 then s.kickPoll iid false
  else
    let q := m % 2 ^ 15
    if decide (q < qidSpan s iid) && s.queues.contains (qbase s iid + q) then s.kickQueue (qbase s iid + q) else s

/-- A sink acts on the edges of the lines given: (line, hop count), lowest line first. -/
def State.sinkEdge (s : State) (k : Nat) (ls : List (Nat × Nat)) : State :=
  if k < 256 then { s with evOut := (k, s.nomNs + 4 * evmCycleNs s, ls.foldl (fun m l => max m l.2) 0) :: s.evOut.filter (fun e => decide (s.nomNs < e.2.1)) }
  else if k < 384 then s.kickSlot (k - 256)
  else if k < 416 then s.timerEdge (k - 384) (timerHigh s (k - 384))
  else if k < 432 then s.snapshot (k - 416) (((ls.head?).map (fun l => lineCtl s.evm l.1 % 4096)).getD 0)
  else if k < 496 then s.setWaitFlag (k - 432)
  else s

/-- A counter of a line, kept by EVM whether or not telemetry runs (12 R393, 15 R469). -/
def State.countLine (s : State) (w k : Nat) : State := { s with is3 := s.is3.put w (BitVec.ofNat 32 ((s.is3.get w).toNat + k)) }

/-- Edges delivered in one EVM cycle: each counted, each sink acting once. -/
def State.deliverEdges (s : State) (ls : List (Nat × Nat)) : State :=
  if ls = [] then s
  else
    let s1 := ls.foldl (fun t l => (t.countLine (8 * l.1 + 1) 1).lineFlag l.1 true) s
    (List.range 496).foldl (fun t k =>
      let here := ls.filter (fun l => reaches s.evm l.1 k)
      if here = [] then t else t.sinkEdge k here) s1

/-- MIN_GAP (12 R388). -/
def minGap (s : State) : Nat := bits (evRd s.evm .evmCtl 0) 0 10

/-- The rate window that an edge delivered at time t opens. -/
def State.openWindow (s : State) (l t : Nat) : State :=
  s.putLine { lineOf s l with window := t + minGap s * evmCycleNs s, defer := none }

/-- A synchronous line takes n pulses, the largest hop count among them being h (12 R377, R388, R390). Answers the state
and whether an edge is delivered now. -/
def State.lineEdge (s : State) (l n extra h : Nat) : State × Bool :=
  let s1 := (s.countLine (8 * l) (n + extra)).countLine (8 * l + 2) (n - 1 + extra)
  let x := lineOf s1 l
  let hop := min 7 (1 + h)
  if x.masked then (s1, false)
  else if hop = 7 then
    (((s1.countLine (8 * l + 4) 1).sEvent .evmStat 0 (fun w => withBits w 0 1 1)).setFld .evmStat 0 8 8 l, false)
  else if s1.nomNs < x.window then
    ((s1.countLine (8 * l + 3) 1).putLine { x with defer := some (max hop (x.defer.getD 0)) }, false)
  else (if minGap s1 = 0 then s1 else s1.openWindow l s1.nomNs, true)

/-- The EVM cycle of a nominal time. -/
def evmCycle (s : State) (t : Nat) : Nat := t / evmCycleNs s

/-- The synchronous lines whose window has ended with an edge deferred (12 R388), in order of their numbers. -/
def dueLines (s : State) : List Line :=
  ((List.range 256).filterMap (fun l => s.lines.find? (fun x => x.num == l))).filter (fun x =>
    x.defer.isSome && decide (x.window ≤ s.nomNs) && !lineDirect s.evm x.num)

/-- The deferred edges that fall due in EVM cycle c open their lines' next windows, a masked line's is dropped (R389), and the others
are to be delivered in that cycle: (line, hop count). -/
def State.takeDue (s : State) (c : Nat) : State × List (Nat × Nat) :=
  let xs := (dueLines s).filter (fun x => evmCycle s x.window == c)
  (xs.foldl (fun t x => if x.masked then t.putLine { x with defer := none } else t.openWindow x.num x.window) s,
   (xs.filter (fun x => !x.masked)).map (fun x => (x.num, x.defer.getD 0)))

/-- The deferred edges that fell due in EVM cycles before this one are delivered, those of one cycle together (12 R381, R388), at most
n cycles. -/
def State.settleDue (s : State) : Nat → State
  | 0 => s
  | n + 1 =>
    match leastBy (fun x => x.window) (dueLines s) with
    | none => s
    | some x =>
      if evmCycle s x.window = evmCycle s s.nomNs then s
      else
        match s.takeDue (evmCycle s x.window) with
        | (t, ls) => (t.deliverEdges ls).settleDue n

/-- The next pulse of each of the sources given: source, pulses merged into one, and their largest hop count. -/
def heldOf (s : State) (ns : List Nat) : List (Nat × Nat × Nat) :=
  ns.dedup.filterMap (fun n => s.heldPulses.find? (fun p => p.1 == n))

/-- The delivered pulses are no longer held. -/
def State.takePulses (s : State) (ns : List Nat) : State :=
  { s with heldPulses := ns.dedup.foldl (fun l n => l.eraseP (fun p => p.1 == n)) s.heldPulses }

/-- A source whose level is high in its pulse cycles only (12 R374). -/
def pulseOnly (n : Nat) : Bool :=
  (decide (n < 128) && [0, 1, 2, 6].contains (n % 8)) || (decide (128 ≤ n) && decide (n < 147)) || decide (n = 148) ||
  (decide (224 ≤ n) && decide (n < 256))

/-- The pulse cycle of sources whose level is high in it only: the lines that they feed are high, and with them the wait
flags of direct lines and gated timers, until levels are next taken (12 R374, R378, R383, R384). -/
def State.pulseLevels (s : State) (ns : List Nat) : State :=
  if ns = [] then s
  else (((routedLines s).filter (fun l => ns.any (fun n => feeds s.evm n l))).foldl (fun (t : State) l => t.lineLevel l true) { s with pulseHigh := ns }).gateTimers

/-- EVM_SOURCE_PULSE (12 R375, R377 to R390): in one EVM cycle the sources given deliver a pulse each; every synchronous
line that they feed makes its edge, and the edges deferred to this cycle are delivered with them. -/
def execEvmSourcePulse (sources : List Nat) (s : State) : Out :=
  if sources.any (fun n => decide (512 ≤ n)) then .fault .noSuchUnit
  else if !evmOn s then .next s
  else
    let s' := s.refreshEvm.settleDue s.lines.length
    let due := s'.takeDue (evmCycle s' s'.nomNs)
    let s0 := due.1
    let ps := heldOf s0 sources
    let s1 := (s0.takePulses sources).pulseLevels ((ps.map (fun p => p.1)).filter pulseOnly)
    let hit := fun (t : State × List (Nat × Nat)) (l : Nat) =>
      if lineDirect s.evm l then t
      else
        let mine := ps.filter (fun p => feeds s.evm p.1 l)
        if mine = [] then t
        else
          let h := mine.foldl (fun m p => max m p.2.2) 0
          let extra := (mine.map (fun p => p.2.1 - 1)).sum
          match t.1.lineEdge l mine.length extra h with
          | (u, true) => (u, t.2 ++ [(l, min 7 (1 + h))])
          | (u, false) => (u, t.2)
    match (routedLines s1).foldl hit (s1, []) with
    | (s2, ls) => .next (s2.deliverEdges ((List.range 256).flatMap (fun l => (due.2 ++ ls).filter (fun e => e.1 == l))))

/-- RATE_MERGED_EDGE (12 R381, R388): the window has ended, and the deferred edge is delivered, with those of the other lines that are
due. -/
def execRateMergedEdge (line : Nat) (s : State) : Out :=
  if 256 ≤ line then .fault .noSuchUnit
  else
    if evmOn s && (dueLines s).any (fun x => x.num == line) then
      let t := s.settleDue s.lines.length
      match t.takeDue (evmCycle t t.nomNs) with
      | (u, ls) => .next (u.deliverEdges ls)
    else .next s

/-- The stuck ceiling of a line in ns (12 R389). -/
def stuckNs (s : State) (l : Nat) : Nat :=
  1000 * clamp 1 4000000 (bits (evRd s.evm .evmStuckVal (lineCtl s.evm l / 2 ^ 14 % 4)) 0 22)

/-- STUCK_CEIL (12 R389, 01 R36): a line asserted beyond its ceiling is masked, flagged and logged. -/
def execStuckCeil (line : Nat) (s : State) : Out :=
  if 256 ≤ line then .fault .noSuchUnit
  else
    let s0 := s.refreshEvm
    let x := lineOf s0 line
    if evmOn s && x.level && !x.masked && decide (x.since + stuckNs s line ≤ s.nomNs) then
      let owner := lineCtl s.evm line % 4096
      let s1 := (s0.putLine { x with masked := true }).logErr (mkErr 2 21 0x1F owner 0 63 0 0 line owner)
      .next s1.refreshEvm
    else .next s0

/-- EV_IN_FALL (12 R376): ev_in[i] falls. -/
def execEvInFall (i : Nat) (s : State) : Out :=
  if 256 ≤ i then .fault .noSuchUnit
  else .next ({ s with evIn := s.evIn.filter (fun e => e.1 != i) }).refreshEvm

/-- A write of line l's element (12 R379, R389): STUCK clears, the line is unmasked, and its ceiling counts again; a line
made synchronous starts afresh. -/
def State.lineWritten (s : State) (l : Nat) (wasDirect : Bool) : State :=
  let x := lineOf s l
  let y := { x with masked := false, since := if x.level then s.nomNs else x.since }
  if wasDirect && !lineDirect s.evm l then s.putLine { y with level := false, window := 0, defer := none } else s.putLine y

end Sys2Proof.Machine
end

