-- ==== Sys2Proof/Machine/Logs.lean ====
section
/-! DEFINITION. The error log's writes and the sweep of the dedup filter (11 R352 to R362; 10 R344). -/

namespace Sys2Proof.Machine

/-- Records that the error-log ring holds (11 R352). -/
def errRing (s : State) : Nat := 2 ^ (min 10 (s.fld .errLogCtl 0 1 4) + 6)

/-- ERR_LOG_BASE. -/
def errBase (s : State) : Nat := s.fld .errLogBaseLo 0 12 20 * 4096 + s.fld .errLogBaseHi 0 0 32 * 2 ^ 32

/-- An error record (11 R355). -/
def errWords (e : ErrRec) : List W64 :=
  [ pack [(0, 32, e.seq.toNat), (32, 3, e.cls), (35, 5, e.domain), (40, 8, e.code), (48, 16, e.count)], e.time,
    pack [(0, 12, e.iid), (12, 22, e.qid), (34, 6, e.slot), (40, 4, e.clu), (48, 8, e.detail.toNat)], e.arg0, e.arg1, 0, 0,
    pack [(56, 8, e.seq.toNat)] ]

/-- ERROR_LOG_WRITE (11 R354, R358, R359): the oldest pending record is written where the ring has room, else it is lost. It stays
pending until its write is issued: one that nothing could issue now has not begun. -/
def execErrorLogWrite (s : State) : Out :=
  match s.errQ with
  | [] => .next s
  | e :: rest =>
    if !admRuns s || !bit (s.rd .errLogCtl 0) 0 then .next s
    else
      let s1 := { s with errQ := rest }
      if (e.seq - s.rd .errLogCons 0).toNat < errRing s then
        let t := s1.service (admAccess s (.errLog e.seq (decide (e.cls = 3))) true (errBase s + 64 * (e.seq.toNat % errRing s)) 64
          (bytesOfWords (errWords e)))
        .next (if t.held.any (fun h => decide (h.purpose = .errLog e.seq (decide (e.cls = 3)))) then s else t)
      else .next (s1.loseErr e.seq)

/-- ERROR_LOG_ACK (11 R361, R362, R562): an acknowledged record pulses its source, and a DEVICE record sets DEVICE_SEEN. -/
def execErrorLogAck (aid : Nat) (code : BitVec 6) (s : State) : Out :=
  match s.access aid with
  | none => .next s
  | some a =>
    match a.purpose with
    | .errLog seq device =>
      if s.fatal then .next s
      else
        let s1 := (s.dropAccess aid).drainHeld
        let c := codeSeen code
        if c = 0 then
          let s2 := s1.pulse 144 0
          .next (if device then s2.sEvent .errLogStat 0 (fun w => withBits w 2 1 1) else s2)
        else if codeRetryable c then .next (s1.errAgain a)
        else .next (s1.errGiveUp seq)
    | _ => .next s

/-- FILTER_SWEEP_DONE (10 R344, R345): the oldest sweep has cleared the entries of its instance's closed epoch. -/
def execFilterSweepDone (s : State) : Out :=
  match s.sweep.reverse with
  | [] => .next s
  | iid :: _ =>
    if s.fatal || !s.rstN then .next s
    else
      let old := !logEpoch s iid
      let s1 := { s with sweep := s.sweep.filter (· != iid),
                         dirtyFilter := s.dirtyFilter.filter (fun k => !(k.iid == iid && k.epoch == old)) }
      .next (s1.setFld .insDlogStat 0 13 1 (flag (decide (s1.sweep ≠ [])))).admCheck

end Sys2Proof.Machine
end

