-- ==== Sys2Proof/Machine/TestOps.lean ====
section
/-! DEFINITION. The generators and checkers of the test unit and the idle beats of the links (19 R553 to R558) and the debug memory access
(17 R504): what their accesses carry and what their answers do. -/

namespace Sys2Proof.Machine

/-! Test units. -/

/-- PRBS of unit u. -/
def unitPrbs (s : State) (u : Nat) : Nat := s.fld .tstUnitCtl u 3 2
/-- Errors are counted, except in the first cycles after a forced switch of TST (15 R459). -/
def State.unitErrors (s : State) (u n : Nat) : State :=
  if s.suspect.contains 26 then s else s.bumpSat .tstUnitErrs u 0 32 n

/-- The state of a unit's generator and checker; a new one starts at all ones. `phase`: 0 writing, 1 reading. -/
def tunitOf (s : State) (u : Nat) : TUnit :=
  (s.tunits.find? (fun t => t.num == u)).getD
    { num := u, gen := prbsOnes (unitPrbs s u), chk := prbsOnes (unitPrbs s u), ofs := 0, phase := 0 }

/-- That replaced. -/
def State.putTunit (s : State) (t : TUnit) : State := { s with tunits := t :: s.tunits.filter (fun x => x.num != t.num) }

/-- A window's size in bytes. -/
def testWin (s : State) : Nat := 2 ^ clamp 12 30 (s.fld .tstPortCfg 0 12 5)

/-- The address of window u. -/
def testBase (s : State) (u : Nat) : Nat :=
  s.fld .tstPortBaseLo 0 12 20 * 4096 + s.fld .tstPortBaseHi 0 0 32 * 2 ^ 32 + u * testWin s

/-- A unit's request is outstanding or waits. -/
def testBusy (s : State) (u : Nat) : Bool :=
  let mine := fun (p : Purpose) => match p with | .test v _ => v == u | _ => false
  s.acc.any (fun a => mine a.purpose) || s.held.any (fun h => mine h.purpose)

/-- A unit's access of 256 B (19 R555). -/
def testAccess (s : State) (u ofs : Nat) (w : Bool) (data : List Byte) : Held :=
  { mkHeld (.test u ofs) 0 w (testBase s u + ofs) 256 (sharedAttrs s (s.fld .tstPortCfg 0 0 12)) data (s.fld .tstPortCfg 0 0 12) with
    port := some u }

/-- Data bit 0 of the next generated beat is inverted once (INJ). -/
def injectBit (bs : List Byte) : List Byte :=
  match bs with
  | [] => []
  | b :: r => (b ^^^ 1) :: r

/-- The next write of a unit: its pattern bytes, with an injected error in the first beat where INJ is set. -/
def State.testWrite (s : State) (t : TUnit) : State :=
  match prbsBytes (unitPrbs s t.num) 256 t.gen with
  | (bs, g) =>
    let inj := bit (s.rd .tstUnitCtl t.num) 7
    ((s.putTunit { t with gen := g }).setFld .tstUnitCtl t.num 7 1 0).service
      (testAccess s t.num t.ofs true (if inj then injectBit bs else bs))

/-- A port unit makes its next request in address order (19 R555), one at a time (DESIGN CHOICE, log entry 48). -/
def State.testGo (s : State) (u : Nat) : State :=
  if !unitRuns s u || decide (16 ≤ u) || testBusy s u then s
  else
    let t := tunitOf s u
    let m := unitMode s u
    if m = 2 then
      if (decide (t.phase = 0) && unitGen s u) || !unitChk s u then s.testWrite t
      else (s.putTunit t).service (testAccess s u t.ofs false [])
    else if m = 3 && unitGen s u then s.testWrite t
    else if m = 4 && unitChk s u then (s.putTunit t).service (testAccess s u t.ofs false [])
    else s

/-- A unit's request has ended: the next offset, pass or phase, and the next request. -/
def State.testStep (s : State) (u : Nat) : State :=
  let t := tunitOf s u
  let ones := prbsOnes (unitPrbs s u)
  let m := unitMode s u
  let t1 :=
    if t.ofs + 256 < testWin s then { t with ofs := t.ofs + 256 }
    else if m = 2 then
      { t with ofs := 0, phase := if t.phase = 0 && unitChk s u then 1 else if unitGen s u then 0 else t.phase }
    else { t with ofs := 0, gen := ones, chk := ones }
  (s.putTunit t1).testGo u

/-- A unit's request ends with a fault: FAULTS increments, its bits are not compared, and the pass goes on. -/
def State.testFault (s : State) (u : Nat) (write : Bool) : State :=
  let t := tunitOf s u
  let s1 := s.bump .tstUnitStat u 16 16 1
  let s2 := if write then s1 else s1.putTunit { t with chk := (prbsBytes (unitPrbs s u) 256 t.chk).2 }
  s2.testStep u

/-- The bytes of a unit's read arrive, as received. -/
def State.testData (s : State) (u : Nat) (words : List W64) : State :=
  let t := tunitOf s u
  match prbsBytes (unitPrbs s u) 256 t.chk with
  | (bs, c) =>
    ((s.unitErrors u (bitErrors (bytesOfWords words) bs)).putTunit { t with chk := c }).testStep u

/-! Units without memory: patterns turned back at a port, and the pattern beats of the links (19 R553 to R556). -/

/-- The checker of a link unit takes a beat (19 R554): out of SYNC it loads its register from the first beat of a row and
sets SYNC after 64 without an error; in SYNC it counts each differing bit and loses SYNC after 16 beats in error in a row. -/
def State.linkCheck (s : State) (u : Nat) (beat : List Byte) : State :=
  let t := tunitOf s u
  let sel := unitPrbs s u
  let sync := bit (s.rd .tstUnitStat u) 0
  match prbsBytes sel 32 (if sync || decide (t.ofs ≠ 0) then t.chk else prbsLoad sel beat) with
  | (bs, c) =>
    let e := bitErrors beat bs
    if sync then
      let s1 := s.unitErrors u e
      if e = 0 then s1.putTunit { t with chk := c, phase := 0 }
      else if t.phase + 1 < 16 then s1.putTunit { t with chk := c, phase := t.phase + 1 }
      else ((s1.bump .tstUnitStat u 8 8 1).setSync u false).putTunit { t with chk := c, ofs := 0, phase := 0 }
    else if e ≠ 0 then s.putTunit { t with chk := c, ofs := 0, phase := 0 }
    else if t.ofs + 1 < 64 then s.putTunit { t with chk := c, ofs := t.ofs + 1, phase := 0 }
    else (s.setSync u true).putTunit { t with chk := c, ofs := 0, phase := 0 }

/-- The next beat of a unit's generator, n bytes, with data bit 0 inverted where INJ is set; INJ is 0 after it. -/
def State.genBeat (s : State) (u n : Nat) : State × List Byte :=
  let t := tunitOf s u
  match prbsBytes (unitPrbs s u) n t.gen with
  | (bs, g) => ((s.putTunit { t with gen := g }).setFld .tstUnitCtl u 7 1 0,
                if bit (s.rd .tstUnitCtl u) 7 then injectBit bs else bs)

/-- A beat that the near-end loopback of port unit u turns back (19 R555, mode 1). -/
def State.portLoop (s : State) (u : Nat) : State :=
  if !unitRuns s u || decide (unitMode s u ≠ 1) || !unitGen s u then s
  else
    match s.genBeat u 64 with
    | (s1, beat) =>
      if !unitChk s u then s1
      else
        let t := tunitOf s1 u
        match prbsBytes (unitPrbs s u) 64 t.chk with
        | (bs, c) => (s1.unitErrors u (bitErrors beat bs)).putTunit { t with chk := c }

/-- Link k drives an idle beat. -/
def State.driveIdle (s : State) (k : Nat) (b : BitVec 256) : State := { s with idleOut := s.idleOut ++ [(k, b, wordChecks b)] }

/-- The idle beat of link k now: in TEST that of its unit in mode 1 or 2, which mode 2 also turns back to its checker (19
R556); outside TEST that of a link that trains or is up (14 R426, 19 R558). -/
def State.linkBeat (s : State) (k : Nat) : State :=
  let u := 16 + k
  if s.mode = .test then
    if !unitRuns s u || !unitGen s u || (decide (unitMode s u ≠ 1) && decide (unitMode s u ≠ 2)) then s
    else
      match s.genBeat u 32 with
      | (s1, beat) =>
        let s2 := s1.driveIdle k (BitVec.ofNat 256 (leNat beat))
        if unitChk s u && decide (unitMode s u = 2) then s2.linkCheck u beat else s2
  else if lstate s k = 0 then s
  else
    let l := linkOf s k
    match prbsBits l.sel 256 l.gen with
    | (v, g) => (s.putLink { l with gen := g }).driveIdle k (BitVec.ofNat 256 v)

/-- The idle beat that link k, which is up and whose checker is in SYNC, receives now: one that differs from the pattern counts in
IDLE_ERR, and the 64th within 65,536 takes the link down (14 R448, 19 R558, R559). Which ones differ is left open. -/
def State.idleBeat (s : State) (k : Nat) : State :=
  if decide (s.mode = .test) || decide (lstate s k ≠ 2) || !bit (s.rd .tstUnitStat (16 + k)) 0 then s
  else
    let bad := Config.idleBad k s.nomNs
    let s1 := if bad then s.bump .fedLinkStat k 16 16 1 else s
    let l := linkOf s1 k
    let ages := (l.idle.map (· + 1)).filter (fun n => decide (n < 65536))
    let now := if bad then 0 :: ages else ages
    let s2 := s1.putLink { l with idle := now }
    if bad && decide (64 ≤ now.length) then s2.linkDown k else s2

/-- One beat of every pattern. -/
def State.patternBeats (s : State) : State :=
  let s1 := (List.range 3).foldl (fun t k => (t.idleBeat k).linkBeat k) { s with idleOut := [] }
  (List.range 16).foldl (fun t u => t.portLoop u) s1

/-- A unit starts anew: generator at all ones, checker out of SYNC; a running port checker is in SYNC at once (19 R554). -/
def State.unitStart (s : State) (u : Nat) : State :=
  let t : TUnit := { num := u, gen := prbsOnes (unitPrbs s u), chk := prbsOnes (unitPrbs s u), ofs := 0,
                     phase := if unitGen s u || decide (16 ≤ u) then 0 else 1 }
  let m := unitMode s u
  let on := unitRuns s u && decide (u < 16) && decide (1 ≤ m) && decide (m ≤ 4)
  ((s.putTunit t).setSync u on).testGo u

/-- SYNC, ERRS, RESYNCS and FAULTS of a unit are cleared (19 R554). -/
def State.unitClear (s : State) (u : Nat) : State := (s.wr .tstUnitStat u 0).wr .tstUnitErrs u 0

/-- Every unit stops: what is outstanding is answered without effect. -/
def State.unitsStop (s : State) : State :=
  let still := fun (h : Held) => match h.purpose with | .test _ _ => false | _ => true
  let t := (List.range 16).foldl (fun x u => x.setSync u false) { s with tunits := [], held := s.held.filter still }
  t.setFld .tstCtl 0 0 1 0

/-! The debug access (17 R504). -/

/-- DBG_MEM_ADDR. -/
def dbgAddr (s : State) : Nat := s.fld .dbgMemAddrLo 0 0 32 + s.fld .dbgMemAddrHi 0 0 32 * 2 ^ 32

/-- LEN_M1 + 1. -/
def dbgLen (s : State) : Nat := s.fld .dbgMemCtl 0 4 6 + 1

/-- The sixteen data registers as bytes. -/
def dbgBytes (s : State) : List Byte := (List.range 16).flatMap (fun k => leBytes 4 (s.rd .dbgMemData k).toNat)

/-- Bytes returned replace the first ones. -/
def State.setDbgBytes (s : State) (bs : List Byte) : State :=
  let all := bs ++ (dbgBytes s).drop bs.length
  (List.range 16).foldl (fun t k => t.wr .dbgMemData k (BitVec.ofNat 32 (leNat ((all.drop (4 * k)).take 4)))) s

/-- GO: the access is issued as the port's emergency requester. -/
def State.dbgGo (s : State) : State :=
  let w := bit (s.rd .dbgMemCtl 0) 10
  let iid := s.fld .dbgMemCtl 0 11 12
  (s.wr .dbgMemStat 0 1).service
    { mkHeld .debug 0 w (dbgAddr s) (dbgLen s) (sharedAttrs s iid) (if w then (dbgBytes s).take (dbgLen s) else []) iid with
      port := some (s.fld .dbgMemCtl 0 0 4) }

/-- A GO is dropped (17 R504). -/
def dbgBusy (s : State) (w : W32) : Bool :=
  decide (64 < dbgAddr s % 64 + bits w 4 6 + 1) || bit (s.rd .dbgMemStat 0) 0 || !inService s (bits w 0 4)

/-- The access ends with an error response (11 R562). -/
def State.dbgError (s : State) (code : BitVec 6) : State := s.wr .dbgMemStat 0 (BitVec.ofNat 32 (4 + 8 * code.toNat))

/-- The access is answered. -/
def State.dbgAnswer (s : State) (bs : List Byte) : State := (s.setDbgBytes bs).wr .dbgMemStat 0 0

end Sys2Proof.Machine
end

