-- ==== Sys2Proof/Machine/CtxOps.lean ====
section
/-! DEFINITION. Context fetches and write-backs that expire or meet errors (01 R32, 11 R562, R566), and the witness lines of
a federation (14 R434, R435). -/

namespace Sys2Proof.Machine

/-- The instance whose span holds a QID; 0 where none does. -/
def spanIid (s : State) (qid : Nat) : Nat :=
  ((createdIids s).find? (fun i => decide (qbase s i ≤ qid) && decide (qid < qbase s i + qidSpan s i))).getD 0

/-- A record about the context access a for queue `qid` (11 R355, R356). -/
def ctxErr (s : State) (a : Access) (qid cls code : Nat) (resp : BitVec 6) (arg1 : Nat) : ErrRec :=
  mkErr cls 19 code (spanIid s qid) qid 63 0 (resp.setWidth 8) a.addr arg1

/-- A context access is issued again, logged as CTX_CEIL with the response code where there was one (11 R562). -/
def State.ctxAgain (s : State) (a : Access) (resp : BitVec 6) : State :=
  let qid := match a.purpose with | .ctxFetch q => q | .ctxWriteBack q => q | _ => 0
  (s.logErr (ctxErr s a qid 0 0x33 resp 0)).serviceAgain a (keyOf a)

/-- FED_HB_CEIL ÷ 8 in ns. -/
def hbStepNs (s : State) : Nat := hbCeilNs s / 8

/-- Member m is heard (14 R434). -/
def heardNow (s : State) (m : Nat) : Bool :=
  let x := memberOf s m
  let fresh := fun (t : Option Nat) => match t with | some v => decide (s.nomNs < v + hbCeilNs s) | none => false
  fresh x.heardAt || fresh x.listedAt

/-- Member m is heard directly. -/
def heardDirect (s : State) (m : Nat) : Bool :=
  match (memberOf s m).heardAt with | some v => decide (s.nomNs < v + hbCeilNs s) | none => false

/-- The address of the witness line of member m (14 R434). -/
def witnessAddr (s : State) (m : Nat) : Nat := s.fld .fedAreaLo 0 12 20 * 4096 + s.fld .fedAreaHi 0 0 32 * 2 ^ 32 + 64 * m

/-- The fence leader as this member sees it (14 R435). -/
def fenceLeader (s : State) : Nat :=
  ((members s).find? (fun m => decide (m = ownMember s) || !(memberOf s m).silent)).getD (ownMember s)

/-- The members that a fence by this member now takes out. -/
def silentMembers (s : State) : List Nat := (members s).filter (fun m => decide (m ≠ ownMember s) && (memberOf s m).silent)

/-! Membership (14 R421, R425 to R431). -/

/-- Instances whose poll member has changed since `s` take a full scan at their next poll (14 R421). -/
def State.rescanned (t s : State) : State :=
  (createdIids t).foldl (fun u i => if pollsInstance s i = pollsInstance t i then u else u.fullScanNext i) t

/-- FED_STAT.STATE changes. -/
def State.setFedState (s : State) (v : Nat) : State := (s.setFld .fedStat 0 2 3 v).rescanned s

/-- FED_STAT.IN_SERVICE changes. -/
def State.setMembers (s : State) (mask : Nat) : State := (s.setFld .fedStat 0 5 4 mask).rescanned s

/-- A list of members as a mask. -/
def memberMask (ms : List Nat) : Nat := ((List.range 4).map (fun m => if ms.contains m then 2 ^ m else 0)).sum

/-- The block enters MEMBER: it is in service, its heartbeats and witness writes begin, and its resident contexts name it, which is
written back (14 R422). -/
def State.enterMember (s : State) : State :=
  let own := ownMember s
  let renamed := fun (w : Way) => decide (homeOf s w.qid = own) && decide (w.ctx.homeMember.toNat ≠ own)
  let mine := fun (w : Way) => if renamed w then { w with dirty := true, ctx := { w.ctx with homeMember := BitVec.ofNat 2 own } } else w
  let s1 := { s with ways := s.ways.map mine, fed := { s.fed with nextHb := s.nomNs, witnessAck := s.nomNs, fenced := false } }
  let s2 := ((s1.setFld .fedStat 0 5 4 (memberMask (own :: members s))).setFld .fedStat 0 2 3 2).rescanned s
  (s.ways.filter renamed).foldl (fun t w => t.writeBack w) s2

/-- The other members whose heartbeats this member receives now. -/
def heardPeers (s : State) : List Member :=
  s.fed.members.filter (fun x => decide (x.num ≠ ownMember s) && heardDirect s x.num && (decide (x.state = 2) || decide (x.state = 5)))

/-- A HELD member leaves HELD when FED_RESYNC holds the highest epoch in the heartbeats it receives and its ownership hash
equals theirs (14 R431); its epoch is then that one. -/
def State.heldCheck (s : State) : State :=
  let ps := heardPeers s
  let top := ps.foldl (fun m x => max m x.epoch.toNat) 0
  if decide (fedState s = 3) && !ps.isEmpty && decide ((s.rd .fedResync 0).toNat = top) &&
      (ps.filter (fun x => decide (x.epoch.toNat = top))).all (fun x => decide (x.hash = s.fed.hash)) then
    (s.wr .fedEpoch 0 (s.rd .fedResync 0)).enterMember
  else s

end Sys2Proof.Machine
end

