-- ==== Sys2Proof/Machine/Clocks.lean ====
section
/-! DEFINITION. Clocks, domains and power (15 R449 to R474): PLLs and their monitors, clock switches, performance levels,
gating, REST and wake; the FATAL state (11 R350); and the MBIST results that gating depends on (19 R548, R549). -/

namespace Sys2Proof.Machine

/-! SRAM macros (17 R510, 19 R548, R549). The map of IS6 holds each word's difference from that of a sound macro. -/

/-- The domains whose macros follow those of the clusters, in order (19 R549). -/
def lateDomains : List Nat := [18, 19, 20, 21, 22, 23, 24, 25, 26, 27]

/-- NMACRO: 164 macros of CFG and the clusters, and those from m = 164 on, whose number the manual does not give. -/
def nMacro : Nat := min 0xFFFF (164 + (lateDomains.map (fun d => (Config.extraMacros d).toNat)).sum)

/-- The domain, and the index in it, of the n-th macro of the domains given (19 R549). -/
def macroSeat (n : Nat) : List Nat → Nat × Nat
  | [] => (0, n)
  | d :: ds => if n < (Config.extraMacros d).toNat then (d, n) else macroSeat (n - (Config.extraMacros d).toNat) ds

/-- The DOMAIN code of a macro, and its index within its unit (19 R549). -/
def macroPlace (m : Nat) : Nat × Nat :=
  if m < 4 then (1, m) else if m < 164 then (2 + (m - 4) / 10, (m - 4) % 10) else macroSeat (m - 164) lateDomains

/-- The DOMAIN code of a macro. -/
def macroDomain (m : Nat) : Nat := (macroPlace m).1

/-- The rows of a macro (19 R547, R549). -/
def macroRows (m : Nat) : Nat :=
  let p := macroPlace m
  if 2 ≤ p.1 ∧ p.1 ≤ 17 then (if p.2 < 8 then 4096 else 1024)
  else if p.1 = 19 ∨ p.1 = 22 then 16384
  else (Config.macroRows m).toNat

/-- Word 64 + 4m of IS6: domain, index within the unit, rows (17 R510). -/
def macroGeom (m : Nat) : W32 :=
  (pack [(0, 5, macroDomain m), (8, 8, (macroPlace m).2), (16, 16, macroRows m)]).setWidth 32

/-- RESULT of macro m: 0 not tested, 1 pass, 2 repaired, 3 fail. -/
def macroResult (s : State) (m : Nat) : Nat := bits (s.is6.get (65 + 4 * m) ^^^ 1) 0 2

/-- The macros whose RESULT is not 1. -/
def macrosNoted (s : State) : List Nat :=
  (s.is6.filter (fun p => decide (64 ≤ p.1) && decide (p.1 % 4 = 1) && decide (macroResult s ((p.1 - 65) / 4) ≠ 1))).map (fun p => (p.1 - 65) / 4)

/-- The macros that failed. -/
def macrosFailed (s : State) : List Nat := (macrosNoted s).filter (fun m => decide (macroResult s m ≠ 2))

/-- A macro of the domain failed MBIST. -/
def domainFailed (s : State) (d : Nat) : Bool := (macrosFailed s).any (fun m => macroDomain m == d)

/-- A word of IS6 as it reads. -/
def is6Word (s : State) (w : Nat) : W32 :=
  if w = 0 then BitVec.ofNat 32 nMacro
  else if w = 1 then BitVec.ofNat 32 ((macrosFailed s).length % 65536 +
    65536 * (((macrosNoted s).filter (fun m => macroResult s m = 2)).length % 65536))
  else if w < 64 ∨ 64 + 4 * nMacro ≤ w then 0
  else if w % 4 = 0 then macroGeom ((w - 64) / 4)
  else if w % 4 = 1 then s.is6.get w ^^^ 1
  else if w % 4 = 2 then s.is6.get w
  else 0

/-! Domains (15 R456). -/

/-- The bit of CLK_GATE of a domain that it gates. -/
def gateBit (d : Nat) : Option Nat :=
  if 2 ≤ d ∧ d ≤ 17 then some (d - 2) else if 18 ≤ d ∧ d ≤ 21 then some (d + 3)
  else if 23 ≤ d ∧ d ≤ 25 then some (d - 6) else if d = 26 then some 20 else none

/-- The clock of a domain runs. -/
def domainRuns (s : State) (d : Nat) : Bool :=
  if s.mode = .reset then false
  else if s.mode = .bringup ∨ d ≤ 1 then true
  else
    match gateBit d with
    | some i => bit (s.rd .clkGateStat 0) i
    | none => decide (s.mode ≠ .rest) || decide (s.rd .clkGateStat 0 ≠ 0)

/-- SRC of a domain: 0 bypass, 1 PLL A, 2 PLL B, 3 refclk. -/
def srcOf (s : State) (d : Nat) : Nat :=
  if d < 16 then s.fld .clkSrcLo 0 (2 * d) 2 else s.fld .clkSrcHi 0 (2 * (d - 16)) 2

/-- SRC of a domain changed: an ordinary switch (15 R457). -/
def State.setSrc (s : State) (d v : Nat) : State :=
  if d < 16 then s.setFld .clkSrcLo 0 (2 * d) 2 v else s.setFld .clkSrcHi 0 (2 * (d - 16)) 2 v

/-- The state of a PLL (false A, true B): 0 off, 1 starting, 2 in use, 3 standby, 4 failed. -/
def pllState (s : State) (p : Bool) : Nat := s.fld .clkStat 0 (3 * flag p) 3

/-- That changed. -/
def State.setPll (s : State) (p : Bool) (v : Nat) : State := s.setFld .clkStat 0 (3 * flag p) 3 v

/-- The monitor of a PLL. -/
def pllOf (s : State) (p : Bool) : Pll := if p then s.plls.2 else s.plls.1

/-- That replaced. -/
def State.putPll (s : State) (p : Bool) (x : Pll) : State :=
  { s with plls := if p then (s.plls.1, x) else (x, s.plls.2) }

/-- The source that a domain takes when it starts: the PLL in use, else bypass. -/
def curSource (s : State) : Nat := if pllState s false = 2 then 1 else if pllState s true = 2 then 2 else 0

/-- The domains that run on a source and can be switched, those that hang or wait for a switch aside. -/
def domainsOn (s : State) (src : Nat) : List Nat :=
  ((List.range 28).drop 1).filter (fun d =>
    domainRuns s d && decide (srcOf s d = src) && !s.muxes.any (fun x => x.domain == d) && !s.clkWait.any (fun x => x.1 == d))

/-- The domain is a cluster's. -/
def cluDomain (d : Nat) : Bool := decide (2 ≤ d) && decide (d ≤ 17)

/-- A switch of a domain's source waits for a P-level change to end (15 R466). -/
def switchWaits (s : State) (d : Nat) : Bool := cluDomain d && s.pchange.isSome

/-- A cluster's clock is being switched. -/
def cluSwitching (s : State) : Bool := s.muxes.any (fun x => cluDomain x.domain)

/-- The switch of one domain to a source (15 R457, R458): it hangs where its old clock has stopped, under HANG_CEIL as it
is at its start. -/
def State.switchOne (s : State) (target : Nat) (hang : Bool) (d : Nat) : State :=
  if switchWaits s d then { s with clkWait := s.clkWait ++ [(d, hang)] }
  else if hang then { s with muxes := s.muxes ++ [{ domain := d, since := s.nomNs, ceil := max 1 (s.fld .clkMuxCtl 0 0 8) }] }
  else s.setSrc d target

/-- The degraded condition of 15 R461: in RUN a domain other than SUP runs on bypass, one whose switch waits among them. -/
def clkDegraded (s : State) : Bool :=
  decide (s.mode = .run) &&
  ((List.range 28).drop 1).any (fun d => domainRuns s d && decide (srcOf s d = 0) && !s.muxes.any (fun x => x.domain == d))

/-- LOCK_CEIL in ns. -/
def lockCeilNs (s : State) : Nat := 1000 * clamp 21 1000 (s.fld .clkPllCtl 0 4 10)

/-- A PLL starts (15 R454); `tripped` as its last trip leaves it. -/
def State.pllStart (s : State) (p tripped : Bool) : State :=
  (s.setPll p 1).putPll p { due := s.nomNs + lockCeilNs s, clean := 0, tripped := tripped }

/-- The PLL that counts as primary (CLK_STAT.EFF_PRIMARY: CLK_CTL.PRIMARY, or as 15 R460 leaves it). -/
def isPrimary (s : State) (p : Bool) : Bool := decide (s.fld .clkStat 0 7 1 = flag p)

/-- A PLL is judged stable (15 R451, R453, R460): domains on bypass move to it; the primary takes them from the standby too, unless it
has tripped, which leaves the other as the one that counts as primary; the standby waits. -/
def State.pllJudged (s : State) (p : Bool) : State :=
  if curSource s = 0 then
    (domainsOn s 0).foldl (fun t d => t.switchOne (1 + flag p) false d) (s.setPll p 2)
  else if isPrimary s p && !(pllOf s p).tripped then
    (domainsOn s 0 ++ domainsOn s (1 + flag (!p))).foldl (fun t d => t.switchOne (1 + flag p) false d) ((s.setPll (!p) 3).setPll p 2)
  else
    let s1 := s.setPll p 3
    if isPrimary s1 p then s1.setFld .clkStat 0 7 1 (flag (!p)) else s1

/-- A running PLL trips (15 R455, R460): it is counted and started again; the domains that it clocks move to the standby, or
to bypass. A clock that has stopped lets no switch pass, so with `hang` every one of them hangs (R458). -/
def State.pllTrip (s : State) (p hang : Bool) : State :=
  let used := decide (pllState s p = 2)
  let s1 := (s.bump .clkStat 0 8 8 1).pllStart p true
  if !used then s1
  else
    let standby := decide (pllState s (!p) = 3)
    let target := if standby then 1 + flag (!p) else 0
    let s2 := if standby then s1.setPll (!p) 2 else s1
    (domainsOn s (1 + flag p)).foldl (fun t d => t.switchOne target hang d) s2

/-- PLL_WINDOW_END (15 R452, R453, R455): a window's count is compared with 5,120. -/
def execPllWindowEnd (p : Bool) (count : Nat) (s : State) : Out :=
  let st := pllState s p
  if s.fatal || !s.rstN || decide (st = 0) || decide (st = 4) then .next s
  else
    let s1 := s.setFld .clkMon 0 (16 * flag p) 16 count
    let tol := max 1 (s.fld .clkPllCtl 0 0 4)
    let inside := decide (count ≤ 5120 + tol) && decide (5120 ≤ count + tol)
    if st = 1 then
      let x := pllOf s p
      if !inside then .next (s1.putPll p { x with clean := 0 })
      else if 4 ≤ x.clean + 1 then .next ((s1.putPll p { x with clean := 0 }).pllJudged p)
      else .next (s1.putPll p { x with clean := x.clean + 1 })
    else if inside then .next s1
    else .next (s1.pllTrip p false)

/-- PLL_TAP_LOST (15 R455, R458): a running PLL's tap shows no edge; it trips, and the domains on it hang. -/
def execPllTapLost (p : Bool) (s : State) : Out :=
  if s.fatal || !s.rstN || decide (pllState s p < 2) || decide (pllState s p = 4) then .next s
  else .next (s.pllTrip p true)

/-- PLL_LOCK_CEIL (15 R454): a PLL that is not judged in time is failed and stopped; domains keep their source. -/
def execPllLockCeil (p : Bool) (s : State) : Out :=
  if s.fatal || !s.rstN || decide (pllState s p ≠ 1) || decide (s.nomNs < (pllOf s p).due) then .next s
  else .next ((s.setPll p 4).logErr (mkErr 3 0 0x48 0 0 63 0 0 (flag p) (s.fld .clkMon 0 (16 * flag p) 16)))

/-- CLK_PLL_CMD as written: failed or stopped PLLs start (15 R454). -/
def State.pllCmd (s : State) (v : Nat) : State :=
  let go := fun (t : State) (p : Bool) =>
    if v / 2 ^ flag p % 2 = 1 ∧ (pllState t p = 0 ∨ pllState t p = 4) then t.pllStart p (pllOf t p).tripped else t
  go (go s false) true

/-! Performance levels (15 R462 to R466). -/

/-- The level of the dividers in use. -/
def inForce (s : State) : Nat := s.fld .pwrStat 0 0 2
/-- The level on pw_req_level. -/
def reqLevel (s : State) : Nat := s.fld .pwrStat 0 2 2
/-- ACK_LATE. -/
def ackLate (s : State) : Bool := bit (s.rd .pwrStat 0) 5
/-- PWR_CTL.LEVEL. -/
def levelWanted (s : State) : Nat := s.fld .pwrCtl 0 0 2
/-- ACK_CEIL in ns. -/
def ackCeilNs (s : State) : Nat := 1000 * clamp 1 10000 (s.fld .pwrCtl 0 2 14)

/-- A change waits for pw_ack; BUSY shows it. -/
def State.pWait (s : State) (target : Nat) (up late : Bool) : State :=
  { (s.setFld .pwrStat 0 4 1 1) with
    pchange := some { target := target, up := up, due := s.nomNs + ackCeilNs s, late := late, held := false } }

/-- A change waits for the switches of clusters' clocks to end (15 R466). -/
def State.pHold (s : State) (target : Nat) : State :=
  { (s.setFld .pwrStat 0 4 1 1) with pchange := some { target := target, up := false, due := s.nomNs, late := false, held := true } }

/-- The steps of a change up to its wait (15 R464); a supply already requested needs none. -/
def State.pRun (s : State) (t : Nat) : State :=
  if t < inForce s then
    if reqLevel s = t then s.setFld .pwrStat 0 0 2 t else (s.setFld .pwrStat 0 2 2 t).pWait t true false
  else
    let s1 := s.setFld .pwrStat 0 0 2 t
    if reqLevel s = t then s1 else (s1.setFld .pwrStat 0 2 2 t).pWait t false false

/-- A change toward a level begins; while ACK_LATE is 1 it waits for that toggle first, and while a cluster's clock is being
switched for that (15 R465, R466). -/
def State.pStart (s : State) (t : Nat) : State :=
  if inForce s = t ∧ reqLevel s = t then s else if cluSwitching s then s.pHold t else if ackLate s then s.pWait t (decide (t < inForce s)) true else s.pRun t

/-! REST (15 R470 to R474). -/

/-- The idle condition (15 R470); records counted toward a notice whose NOTICE_DELAY runs are a notice pending. -/
def restIdle (s : State) : Bool :=
  let waits := fun (u : Purpose) => match u with
    | .notice _ => true | .trace _ => true | .dirtyLog _ _ => true | .admNotice => true | _ => false
  !s.ways.any (fun w => decide (w.ctx.state = qActive) || decide (w.ctx.state = qDraining) ||
    decide (w.ctx.noticeBusy = 1) || decide (w.ctx.noticeKept = 1) ||
    (decide (w.ctx.pendingCnt ≠ 0) && decide (w.ctx.noticeDelay ≠ 0))) &&
  !s.ready.any (fun r => r.live) && s.slots.isEmpty && s.moving.isEmpty && s.records.isEmpty && s.waitRecs.isEmpty && s.staged.isEmpty && s.errQ.isEmpty &&
  s.dirtyQ.isEmpty && !s.adm.noticeBusy && !s.adm.noticeKept && !s.acc.any (fun a => waits a.purpose) &&
  !s.held.any (fun h => waits h.purpose) && s.pchange.isNone

/-- Since when the idle condition has held. -/
def State.trackIdle (s : State) : State :=
  { s with idleSince := if restIdle s then some (s.idleSince.getD s.nomNs) else none }

/-- The wake begins (15 R474, step 0): cause 0 event input, 1 register access, 2 timer. -/
def State.startWake (s : State) (cause : Nat) : State :=
  let s1 := (s.bump .pwrWakes 0 0 16 1).setFld .pwrWakes 0 16 2 cause
  { ((s1.pllStart false false).pllStart true false) with pwRest := false, wakeAt := some s.nomNs }

/-- The last steps of the entry into REST (15 R471): domains on bypass and gated, PLLs off, pw_rest high; a cause that arrived
during the entry wakes the block at once. -/
def State.enterRest (s : State) : State :=
  let s1 := ((s.stopLinks).wr .clkSrcLo 0 3).wr .clkSrcHi 0 0
  let s2 := ((s1.setPll false 0).setPll true 0).wr .clkGateStat 0 0
  let s3 : State := { s2 with mode := .rest, restEnter := 0, restAt := s.nomNs, idleSince := none, muxes := [], clkWait := [], evOut := [], pwRest := true,
                              wakePend := none, wakeAt := none }
  let s4 := s3.refreshPorts
  match s.wakePend with
  | some c => s4.startWake c
  | none => s4

/-- The entry ends once nothing is in flight and the level change has ended. -/
def State.restStep (s : State) : State :=
  if decide (s.restEnter = 2) && s.pchange.isNone && s.acc.isEmpty && s.held.isEmpty && s.polls.isEmpty then s.enterRest else s

/-- A change of level ends: the switches that waited for it begin, a level written meanwhile is run toward, and an entry into
REST goes on (15 R466). -/
def State.pEnd (s : State) (was : Nat) : State :=
  let s0 : State := { (s.setFld .pwrStat 0 4 1 0) with pchange := none, clkWait := [] }
  let s1 := s.clkWait.foldl (fun t w => t.switchOne (curSource s) w.2 w.1) s0
  if s1.restEnter = 2 then (if was = 3 then s1 else s1.pStart 3).restStep
  else if s1.mode = .rest ∨ levelWanted s1 = was then s1
  else s1.pStart (levelWanted s1)

/-- PWR_CTL as written: a change toward LEVEL, or LEVEL kept for later (15 R464, R466, R473). -/
def State.levelWritten (s : State) : State :=
  if s.pchange.isSome ∨ s.mode = .rest ∨ s.restEnter = 2 then s else s.pStart (levelWanted s)

/-- A change that waited for switches begins once none is left; one with nothing left to do has ended (15 R466). -/
def State.heldLevel (s : State) : State :=
  match s.pchange with
  | some c =>
    if !c.held || cluSwitching s then s
    else
      let s1 : State := { (s.setFld .pwrStat 0 4 1 0) with pchange := none }
      let t := if s1.restEnter = 2 then 3 else levelWanted s1
      let s2 := s1.pStart t
      if s2.pchange.isSome then s2 else s2.pEnd t
  | none => s

/-- PW_ACK_TOGGLE (15 R463 to R465): the awaited change proceeds; a late toggle clears ACK_LATE only. -/
def execPwAckToggle (s : State) : Out :=
  let s1 := { s with pwAck := !s.pwAck }
  if s.fatal || !s.rstN then .next s1
  else
    match s.pchange with
    | none => .next (s1.setFld .pwrStat 0 5 1 0)
    | some c =>
      if c.held then .next (s1.setFld .pwrStat 0 5 1 0)
      else if c.late then
        let s2 := ({ (s1.setFld .pwrStat 0 5 1 0) with pchange := none }).pRun c.target
        .next (if s2.pchange.isSome then s2 else s2.pEnd c.target)
      else if c.up then .next ((s1.setFld .pwrStat 0 0 2 c.target).pEnd c.target)
      else .next (s1.pEnd c.target)

/-- PW_ACK_CEIL (15 R465): the change ends at the level in force; ACK_LATE is set. During an entry into REST the clusters go down to P3
without the late toggle (R471). -/
def execPwAckCeil (s : State) : Out :=
  match s.pchange with
  | none => .next s
  | some c =>
    if s.fatal || !s.rstN || c.held || decide (s.nomNs < c.due) then .next s
    else
      let s1 := (s.logErr (mkErr 3 0 0x49 0 0 63 0 0 c.target (inForce s))).setFld .pwrStat 0 5 1 1
      if c.late ∧ s.restEnter = 2 then
        let s2 := State.pRun { (s1.setFld .pwrStat 0 4 1 0) with pchange := none } 3
        .next (if s2.pchange.isSome then s2 else s2.pEnd 3)
      else .next (s1.pEnd c.target)

/-! Forced switches (15 R458, R459; 08 R267). -/

/-- The accesses on a cluster's port at a forced switch: their tags and write IDs are quarantined; polls are abandoned, what
belongs to a loaf or has ended is waited for no more, and every other access is issued again as it was. -/
def State.forcedAccess (s : State) (a : Access) : State :=
  let s1 := s.logPage a
  match a.purpose with
  | .data c i _ =>
    match slotAt s1 c i with
    | some x => (s1.quarantine (orphaned x a)).settle c i
    | none => s1.quarantine a
  | .table c i first _ =>
    match slotAt s1 c i with
    | some x => ((s1.freeTable x first).quarantine (orphaned x a)).settle c i
    | none => s1.quarantine a
  | .write c i num =>
    match slotAt s1 c i with
    | some x => (s1.quarantine { a with purpose := .oldWrite x.qid x.slotIdx (chainPosOf x) num }).settle c i
    | none => s1.quarantine a
  | .oldWrite q i p _ => (s1.quarantine a).settleOf q i p
  | .oldRead q i p _ => (s1.quarantine a).settleOf q i p
  | .root _ => ((s1.quarantine a).logErr (mkErr 0 18 0x32 a.iid 0 63 0 0 a.addr 0)).pollFail a.iid
  | .leaf _ _ => ((s1.quarantine a).logErr (mkErr 0 18 0x32 a.iid 0 63 0 0 a.addr 0)).pollFail a.iid
  | .doorbell _ _ _ => ((s1.quarantine a).logErr (mkErr 0 18 0x32 a.iid 0 63 0 0 a.addr 0)).pollFail a.iid
  | _ => (s1.quarantine a).reissue { a with toSend := 0 }

/-- A capture read's lines are free, so that its bytes are requested again. -/
def State.forcedLines (s : State) (a : Access) : State :=
  match a.purpose with
  | .data c i num => match slotAt s c i with | some x => s.freeRead x num a | none => s
  | _ => s

/-- A forced switch of cluster n's domain: its loaves begin again, its accesses are dealt with, and descriptors that leave
move on. -/
def State.forceClu (s : State) (n : Nat) : State :=
  let mine := s.acc.filter (fun a => a.port == n)
  let s1 := s.logErr (mkErr 1 (2 + n) 0x2A 0 0 63 n 0 (loavesOn s n) 0)
  let s2 := (mine.foldl (fun t a => t.forcedLines a) s1).restartCluster n
  let s3 := (s2.acc.filter (fun a => a.port == n)).foldl (fun t a => t.forcedAccess a) s2
  (s3.slots.filter (fun x => decide (x.clu = n))).foldl (fun t x => t.leaveNow n x.idx) s3

/-- Poll accesses are abandoned, and binds end whose slot read was not issued (15 R459, SCH). -/
def State.forceSch (s : State) : State :=
  let polls := s.acc.filter (fun a => decide (unitOf a.purpose = 1))
  let s1 := polls.foldl (fun t a =>
    (((t.logPage a).quarantine a).logErr (mkErr 0 18 0x32 a.iid 0 63 0 0 a.addr 0)).pollFail a.iid) s
  let early := s1.slots.filter (fun x => x.chain.isNone && decide (x.phase = .slotRead) &&
    s1.held.any (fun h => h.purpose == .slot x.clu x.idx))
  (early.foldl (fun t x => (t.endBind x).markReady x.qid) s1).drainHeld

/-- Admin accesses are issued again as on their ceiling (15 R459, ADM). -/
def State.forceAdm (s : State) : State :=
  (s.acc.filter (fun a => isAdmin a.purpose)).foldl (fun t a =>
    let t1 := t.quarantine a
    match a.purpose with | .errLog _ _ => t1.errAgain a | _ => t1.admAgain a 0) s

/-- MUX_HANG_CEIL (15 R458 to R460; 08 R267; 13 R398): the switch is forced and the domain is suspect. -/
def execMuxHangCeil (d : Nat) (s : State) : Out :=
  if d = 0 ∨ 28 ≤ d then .fault .noSuchUnit
  else
    match s.muxes.find? (fun x => x.domain == d) with
    | none => .next s
    | some x =>
      if s.fatal || !s.rstN || decide (s.nomNs < x.since + 10 * x.ceil) then .next s
      else
        let s0 := { s with muxes := s.muxes.filter (fun y => y.domain != d), suspect := d :: s.suspect.filter (· != d) }
        let s1 := (s0.setSrc d (curSource s)).bump .clkStat 0 16 8 1
        if 2 ≤ d ∧ d ≤ 17 then .next (s1.forceClu (d - 2)).heldLevel
        else
          let s2 := s1.logErr (mkErr 0 d 0x38 0 0 63 0 0 0 0)
          if d = 18 then .next s2.forceSch
          else if d = 20 then .next s2.forceAdm
          else if d = 22 then
            let t := max s2.nomNs (x.since + 10 * (x.ceil + 4))
            .next { s2 with timebase := s2.timebase + BitVec.ofNat 64 (20 + (t - x.since)), nomNs := t }
          else if d = 26 then .next ([16, 17, 18].foldl (fun t u => t.setSync u false) s2)
          else .next s2

/-- SUSPECT_CLEAR (08 R267): the domain has run 1,024 cycles on its new clock. -/
def execSuspectClear (d : Nat) (s : State) : Out :=
  if 28 ≤ d then .fault .noSuchUnit
  else if s.fatal || !s.rstN || s.muxes.any (fun x => x.domain == d) then .next s
  else .next { s with suspect := s.suspect.filter (· != d) }

/-! Gating (15 R467 to R469). -/

/-- A write of CLK_GATE is dropped with REASON BUSY (15 R468, 19 R548). -/
def gateBusy (s : State) (v : W32) : Bool :=
  ((decide (s.mode = .run) || decide (s.mode = .rest)) && !(List.range 16).any (fun n => bit v n)) ||
  (bit v 16 && domainFailed s 22) || (bit v 20 && domainFailed s 26) ||
  [0, 1, 2].any (fun k => bit v (17 + k) && domainFailed s (23 + k))

/-- One enable of CLK_GATE takes effect: a clock starts on the current source; one other than a cluster's stops at once. -/
def State.gateOne (s : State) (i : Nat) : State :=
  let on := bit (s.rd .clkGate 0) i
  let was := bit (s.rd .clkGateStat 0) i
  if on = was then s
  else if on then
    let s1 := s.setFld .clkGateStat 0 i 1 1
    let s2 := match (List.range 28).find? (fun d => decide (gateBit d = some i)) with
      | some d => s1.setSrc d (curSource s)
      | none => s1
    if 17 ≤ i ∧ i ≤ 19 ∧ s.mode ≠ .test then s2.linkTrain (i - 17) else s2
  else if i < 16 then s
  else
    let s1 := s.setFld .clkGateStat 0 i 1 0
    if 17 ≤ i ∧ i ≤ 19 then s1.linkStop (i - 17) else if i = 20 then s1.unitsStop else s1

/-- CLK_GATE as written. -/
def State.gateWritten (s : State) : State :=
  if s.mode = .rest ∧ s.rd .clkGateStat 0 = 0 then s
  else ((List.range 25).foldl (fun t i => t.gateOne i) s).drainHeld.pumpCtx

/-- CLUSTER_CLOCK_STOP (15 R468, 18 R519): a disabled cluster with no slot running and no tag outstanding stops. -/
def execClusterClockStop (n : Nat) (s : State) : Out :=
  if 16 ≤ n then .fault .noSuchUnit
  else if s.fatal || !s.rstN || cluEn s n || !bit (s.rd .clkGateStat 0) n || s.slots.any (fun x => x.clu == n) || portBusy s n then .next s
  else .next ((s.setFld .clkGateStat 0 n 1 0).drainHeld)

/-! REST and wake. -/

/-- The REST command in progress waits for the idle condition. -/
def restCmd (s : State) : Option AdmCmd :=
  match s.adm.cmd with
  | some c => if decide (cOp c = 0xB8) && decide (c.phase = .waiting) then some c else none
  | none => none

/-- IDLE_US in ns. -/
def idleNs (s : State) : Nat := 1000 * clamp 1 1000000 (s.fld .pwrRestCtl 0 0 20)

/-- REST_IDLE_MET (15 R470): the idle condition has held for IDLE_US, and the REST record is issued. -/
def execRestIdleMet (s : State) : Out :=
  match restCmd s, s.idleSince with
  | some _, some t =>
    if running s && restIdle s && decide (t + idleNs s ≤ s.nomNs) then
      .next { (s.admEnd true 0 0 0 0 0) with restEnter := 1 }
    else .next s
  | _, _ => .next s

/-- REST_TIMEOUT (09 R292): WAIT_US has passed. -/
def execRestTimeout (s : State) : Out :=
  match restCmd s with
  | some c => if !s.fatal && s.rstN && decide (c.due ≤ s.nomNs) then .next (s.admEnd true 0x46 0 0 0 0) else .next s
  | none => .next s

/-- REST_ENTRY (15 R471): once the REST record is acknowledged, polling and admin reads stop, the clusters go to P3, and when
nothing is in flight the block is in REST. -/
def execRestEntry (s : State) : Out :=
  if s.fatal || !s.rstN || decide (s.mode ≠ .run) then .next s
  else if s.restEnter = 1 then
    if admUnacked s ≠ [] then .next s
    else
      let s1 := { s with restEnter := 2 }
      .next (if s1.pchange.isSome then s1 else s1.pStart 3).restStep
  else .next s.restStep

/-- A wake cause arrives (15 R473); one during the entry counts when the entry ends, the lowest code first. -/
def State.wakeBy (s : State) (cause : Nat) : State :=
  if s.fatal || !s.rstN then s
  else if s.restEnter = 2 then { s with wakePend := some (min cause (s.wakePend.getD cause)) }
  else if s.mode = .rest ∧ s.wakeAt = none then s.startWake cause
  else s

/-- A wake source is enabled (15 R473). -/
def wakeEn (s : State) (k : Nat) : Bool := bit (s.rd .pwrWakeCtl 0) (9 * k + 8)

/-- EV_IN_EDGE (12 R376): a rising edge on ev_in[i], with its hop count, is registered in EVM; one that finds EVM's clock
stopped is seen once it runs again, if the input is still high (15 R459, 18 R530). On an enabled wake source's input it is a wake
cause (15 R473). -/
def execEvInEdge (i : Nat) (hop : BitVec 3) (s : State) : Out :=
  if 256 ≤ i then .fault .noSuchUnit
  else if s.evIn.any (fun e => e.1 == i) then .next s
  else
    let s0 : State := { s with evIn := (i, hop.toNat) :: s.evIn }
    let s1 := if [0, 1].any (fun k => wakeEn s k && decide (s.fld .pwrWakeCtl 0 (9 * k) 8 = i)) then s0.wakeBy 0 else s0
    if evmOn s1 then .next ({ s1.pulse (256 + i) hop.toNat with srcLevels := (256 + i) :: s1.srcLevels }).refreshEvm else .next s1

/-- WAKE (15 R473): an edge on an enabled wake source, or a register access. -/
def execWake (c : WakeCause) (s : State) : Out :=
  match c with
  | .event k =>
    if 2 ≤ k then .fault .noSuchUnit
    else if wakeEn s k then .next (s.wakeBy 0)
    else .next s
  | .access => .next (s.wakeBy 1)

/-- WAKE_TIMER (15 R473). -/
def execWakeTimer (s : State) : Out :=
  let ms := s.fld .pwrWakeTmr 0 0 30
  if decide (s.mode = .rest) && decide (ms ≠ 0) && decide (s.restAt + 1000000 * ms ≤ s.nomNs) then .next (s.wakeBy 2) else .next s

/-- WAKE_RESTART (15 R474): 10.0 µs after the cause every enabled domain restarts on bypass; polls fall due 20.48 µs after it. -/
def execWakeRestart (s : State) : Out :=
  match s.wakeAt with
  | none => .next s
  | some t =>
    if s.mode ≠ .rest ∨ s.fatal ∨ !s.rstN ∨ s.nomNs < t + 10000 ∨ s.rd .clkGateStat 0 ≠ 0 then .next s
    else
      let s1 := (((s.wr .clkGateStat 0 (s.rd .clkGate 0)).wr .clkSrcLo 0 3).wr .clkSrcHi 0 0)
      let due := fun (u : State) (i : Nat) =>
        if pollIv u i = 0 then u else u.putPoll { pollOf u i with nextDue := some (t + 20480), fell := none }
      let s2 := ((createdIids s1).foldl due s1).setAdm (fun a => { a with nextPoll := t + 20480, kick := a.kick || decide (admPollNs s = 0) })
      .next ((s2.startLinks).drainHeld)

/-- WAKE_RUN (15 R474): 40.0 µs after the cause the block is in RUN; then the level goes up toward LEVEL. -/
def execWakeRun (s : State) : Out :=
  match s.wakeAt with
  | none => .next s
  | some t =>
    if s.mode ≠ .rest ∨ s.fatal ∨ !s.rstN ∨ s.nomNs < t + 40000 ∨ s.rd .clkGateStat 0 = 0 then .next s
    else
      let s1 := { s with mode := .run, wakeAt := none }
      .next (((s1.levelWritten).drainHeld).admPump).refreshEvm

/-! FATAL (11 R349, R350). -/

/-- The FATAL state: the cause is latched, nothing more is issued, answers are discarded, event outputs take their strap
values. -/
def State.goFatal (s : State) (f : W32 → W32) : State :=
  { (s.sEvent .errFatal 0 f) with fatal := true, acc := [], held := [], evOut := [] }

/-- REFCLK_LOST (15 R450). -/
def execRefclkLost (s : State) : Out :=
  if s.fatal || !s.rstN then .next s else .next (s.goFatal (fun w => withBits w 1 1 1))

end Sys2Proof.Machine
end

