-- ==== Sys2Proof/Machine/Modes.lean ====
section
/-! DEFINITION. The six modes and bring-up (19 R542 to R548). -/

namespace Sys2Proof.Machine

/-! Reset and bring-up. -/

/-- RST_N_FALL (18 R533, 19 R543; 11 R351): every register but ERR_FATAL and every state of the block is reset at once; what
stands on input pins stays. -/
def execRstNFall (s : State) : Out :=
  let held := s.regs.get (Reg.errFatal.addr 0)
  .next { State.reset with
    pending := s.pending, mode := .reset, rstN := false, regs := WordMap.put [] (Reg.errFatal.addr 0) held,
    strapEvOut := s.strapEvOut, strapTst := s.strapTst, evIn := s.evIn, pwAck := s.pwAck,
    nextAid := s.nextAid, freeCtr := s.freeCtr }

/-- RST_N_RISE (19 R543, R546; 15 R460): bring-up begins on bypass, and both PLLs start. -/
def execRstNRise (s : State) : Out :=
  if s.rstN then .next s
  else .next ((({ s with rstN := true, mode := .bringup }).pllStart false false).pllStart true false)

/-- RESULT of a macro after MBIST (19 R548), and the spare rows it uses (17 R510). -/
def mbistResult (f : MacroFault) : Nat × Nat :=
  if !f.finished then (0, 0)
  else if f.rows = [] then (1, 0)
  else if 2 < f.rows.length then (3, 0)
  else (if f.passes then 2 else 3, f.rows.length)

/-- The record of a macro in IS6. -/
def State.noteMacro (s : State) (f : MacroFault) : State :=
  if nMacro ≤ f.num then s
  else
    let r := mbistResult f
    let w65 : W32 := BitVec.ofNat 32 (r.1 + 256 * r.2) ^^^ 1
    let w66 : W32 := if r.1 < 2 then 0 else BitVec.ofNat 32 (f.rows.getD 0 0 % 65536 + 65536 * (f.rows.getD 1 0 % 65536))
    { s with is6 := (s.is6.put (65 + 4 * f.num) w65).put (66 + 4 * f.num) w66 }

/-- A cluster that failed MBIST is out of service (08 R263, 19 R548). -/
def State.bistOut (s : State) (n : Nat) : State :=
  let sound := fun (m : Nat) => decide (m ≠ n) && !domainFailed s (2 + m)
  let ad := if sound (partnerOf n) then partnerOf n else ((List.range 16).find? sound).getD n
  ((s.setFld .cluMirrorStat n 4 1 1).setFld .cluMirrorStat n 5 4 ad).setFld .cluMirrorStat n 9 2 2

/-- Bring-up ends with what MBIST found: results are noted, failed clusters go out of service, each failing domain logs one record,
and the block is in CONFIGURE (19 R543, R546, R548). -/
def State.bringupEnd (s : State) (faults : List MacroFault) : State :=
  let s1 := faults.foldl (fun t f => t.noteMacro f) s
  let s2 := ((List.range 16).filter (fun n => domainFailed s1 (2 + n))).foldl (fun t n => t.bistOut n) s1
  let failing := fun (d : Nat) => ((macrosFailed s1).filter (fun m => macroDomain m == d)).length
  let s3 := ((List.range 32).filter (fun d => decide (failing d ≠ 0))).foldl
    (fun t d => t.logErr (mkErr 3 d 0x4C 0 0 63 0 0 d (failing d))) s2
  ({ (s3.setFld .glbStat 0 0 1 1) with mode := .configure }).refreshEvm

/-- BRINGUP_END (19 R543, R546, R548): bring-up ends. -/
def execBringupEnd (faults : List MacroFault) (s : State) : Out :=
  if s.mode ≠ .bringup ∨ s.fatal ∨ !s.rstN then .next s else .next (s.bringupEnd faults)

/-- When 4 ms have passed bring-up ends all the same, and a macro that has not finished has RESULT 0; which have not, a tick that no
BRINGUP_END has preceded does not know, and is left open (19 R546 to R548, 11 R367). -/
def State.bringupCeil (s : State) : State :=
  if s.mode = .bringup ∧ 4000000 ≤ s.nomNs then
    let late := (List.range nMacro).filter (fun m => Config.upset (s.freeCtr + m))
    State.bringupEnd { s with freeCtr := s.freeCtr + nMacro }
      (late.map (fun m => { num := m, rows := [], passes := false, finished := false }))
  else s

/-! Transitions (19 R543, R545). -/

/-- A queue is ACTIVE or DRAINING. -/
def anyQueueBusy (s : State) : Bool :=
  s.ways.any (fun w => decide (w.ctx.state = qActive) || decide (w.ctx.state = qDraining)) || s.ready.any (fun r => r.live) ||
  !s.records.isEmpty || !s.moving.isEmpty

/-- A write of GLB_MODE.REQ is dropped with REASON BUSY (19 R545). -/
def modeReqBusy (s : State) (v : Nat) : Bool :=
  if s.modeNext.isSome || decide (s.restEnter = 2) || (decide (v ≠ 2) && decide (v ≠ 3) && decide (v ≠ 5)) then true
  else if v = s.mode.code then false
  else
    match s.mode with
    | .configure =>
      if v = 3 then servingClusters s = [] || [1, 18, 19, 20, 21].any (fun d => domainFailed s d)
      else !bit (s.rd .clkGate 0) 20 || decide (fedState s ≠ 0) ||
        (s.ways.any (fun w => w.dirty) && !(List.range 16).any (fun n => portAvail s n))
    | .run => if v = 2 then !s.slots.isEmpty || anyQueueBusy s || decide (fedState s ≠ 0) else true
    | .test => if v = 2 then bit (s.rd .tstMbistStat 0) 0 else true
    | _ => true

/-- Dirty ways are written back before TEST, in which their contexts are lost, so the notices of those with PENDING ≠ 0 go first (19
R543, 17 R503). -/
def State.flushWays (s : State) : State :=
  (s.ways.filter (fun w => w.dirty && !wbBusy s w.qid)).foldl (fun t w => t.evict w) s

/-- An accepted request: the transition begins, or nothing where the mode is in force. -/
def State.modeRequested (s : State) (v : Nat) : State :=
  if v = s.mode.code then s
  else if v = 3 then { s with modeNext := some .run }
  else if v = 2 then { s with modeNext := some .configure }
  else ({ s with modeNext := some .test }).flushWays

/-- MODE_TRANSITION_DONE (19 R542, R543; 09 R279; 02 R63; 17 R508; 19 R556). -/
def execModeTransitionDone (s : State) : Out :=
  if s.fatal || !s.rstN then .next s
  else
    match s.modeNext with
    | some .run =>
      let s1 := { s with mode := .run, modeNext := none }
      let s2 := (createdIids s1).foldl (fun t i => if pollIv t i = 0 then t else t.dueNow i) s1
      .next ((s2.drainHeld).admPump).refreshEvm
    | some .configure =>
      if s.mode = .test then
        let s1 := s.unitsStop
        let s2 : State := { s1 with
          mode := .configure, modeNext := none, ways := [], is4 := [], is4Seen := [], ctxZero := false,
          usedWays := (s1.is4.filter (fun p => decide (p.1 < 0x80000))).foldl (fun l p => if l.contains (p.1 / 32) then l else p.1 / 32 :: l) s1.usedWays }
        .next ((((s2.startLinks).drainHeld).pumpCtx).admPump)
      else if s.polls ≠ [] then .next s
      else .next { s with mode := .configure, modeNext := none }
    | some .test =>
      if s.ways.any (fun w => w.dirty) || s.ways.any (fun w => wbBusy s w.qid) then .next s.flushWays
      else .next { (s.stopLinks) with mode := .test, modeNext := none }
    | _ => .next s

end Sys2Proof.Machine
end

