-- ==== Sys2Proof/Machine/RegOps.lean ====
section
/-! DEFINITION. What a register read shows and what a register write does once it is answered OK: classes, live notes and
the action of each register (16 R481 to R496), and the items of the staging area (09 R296 to R300). -/

namespace Sys2Proof.Machine

/-! Reads. -/

/-- The banked routing registers (09 R310, 12). -/
def Reg.banked (r : Reg) : Bool :=
  [Reg.evmLineCtl, Reg.evmKickMap, Reg.evmSetOwner, Reg.evmStuckVal, Reg.evmCtl].any (fun x => x.base == r.base)

/-- The instance of a register that a canonical offset reaches: the cluster of a cluster register. -/
def Reg.index (r : Reg) (off : Nat) : Nat :=
  if r.clustered then 2 * ((off - 0x8000) / 0x1000) + off / 0x400 % 2 else (off - r.base) / r.stride

/-- The stored value of a register, in the active bank where it has two. -/
def State.stored (s : State) (r : Reg) (i : Nat) : W32 := if r.banked then evRd s.evm r i else s.rd r i

/-- A bank with a register's value replaced. -/
def EvmBank.putReg (b : EvmBank) (r : Reg) (i : Nat) (v : W32) : EvmBank :=
  { b with regs := b.regs.put (r.addr i) (v ^^^ BitVec.ofNat 32 r.reset) }

/-- A register's stored value replaced, in both banks where it has two (09 R311). -/
def State.putReg (s : State) (r : Reg) (i : Nat) (v : W32) : State :=
  if r.banked then { s with evm := s.evm.putReg r i v, evmPend := s.evmPend.putReg r i v } else s.wr r i v

/-- A mask of the bits i below n that f picks. -/
def maskOf (n : Nat) (f : Nat → Bool) : Nat := ((List.range n).map (fun i => if f i then 2 ^ i else 0)).sum

/-- GLB_STAT.DEGRADED (17): CLK_STAT.DEGRADED, a retired Mirror, or a cluster out of service. -/
def degraded (s : State) : Bool :=
  clkDegraded s || (List.range 16).any (fun n => decide (s.fld .cluMirrorStat n 0 2 ≠ 0) || outOfService s n)

/-- What an agent reads at a canonical offset (16 R481; 17 R500). -/
def readReg (s : State) (agent off : Nat) : W32 :=
  match regAtOffset off with
  | none => 0
  | some r =>
    let i := r.index off
    let v := s.stored r i
    if r.base = Reg.glbMode.base then withBits v 0 3 s.mode.code
    else if r.base = Reg.glbStat.base then
      pack [(0, 1, bits v 0 1), (1, 1, flag (decide (macrosFailed s ≠ []))), (2, 1, flag (degraded s)),
        (3, 1, flag (decide (s.fld .errFatal 0 0 2 ≠ 0))), (16, 16, maskOf 16 (fun n => inService s n))] |>.setWidth 32
    else if r.base = Reg.clkStat.base then withBits v 6 1 (flag (clkDegraded s))
    else if r.base = Reg.schArbStat.base then withBits v 0 16 (arbOf s i).won
    else if r.base = Reg.cluBusy.base then BitVec.ofNat 32 (maskOf 32 (fun k => (slotAt s i k).isSome))
    else if r.base = Reg.cluSlotQ.base then
      match slotAt s i ((off % 0x400 - 0x200) / 4) with
      | some x => if slotRuns x then BitVec.ofNat 32 (x.qid + 2 ^ 31) else 0
      | none => 0
    else if r.base = Reg.cluRobStat.base then
      BitVec.ofNat 32 (poolUsed s i + 4096 * ((s.slots.filter (fun x => x.clu == i && x.loaves.any (fun l => l.stored))).length))
    else if r.base = Reg.cluMirrorStat.base then
      withBits (withBits v 2 1 (flag (slotAt s i 32).isSome)) 3 1 (flag (slotAt s i 33).isSome)
    else if r.base = Reg.admStageStat.base then withBits v 0 9 s.staged.length
    else if r.base = Reg.errLogStat.base then withBits v 16 7 (min 64 s.errQ.length)
    else if r.base = Reg.evmLineStat.base then
      withBits (withBits v 8 8 (maskOf 8 (fun k => (lineOf s (8 * i + k)).level))) 16 8
        (maskOf 8 (fun k => (lineOf s (8 * i + k)).masked))
    else if r.base = Reg.telTbLo.base then s.timebase.setWidth 32
    else if r.base = Reg.telTbHi.base then (assocGet s.tbLatch agent).getD 0
    else if r.base = Reg.fedStat.base then
      withBits v 9 4 (if federated s then maskOf 4 (fun m => decide (m ≠ ownMember s) && heardNow s m) else 0)
    else v

/-! Writes. -/

/-- The value after a write: every bit of class P, and the bits of class M under their mask (16 R481). -/
def Reg.merge (r : Reg) (old data : W32) : W32 :=
  let p := BitVec.ofNat 32 r.pBits
  let m := (data >>> 16) &&& BitVec.ofNat 32 r.mBits
  let v := (old &&& ~~~p) ||| (data &&& p)
  let w := (v &&& ~~~m) ||| (data &&& m)
  if r.base = Reg.regProtMap.base then w ||| 0x82 else w

/-- LOCK_SETUP. -/
def setupLocked (s : State) : Bool := bit (s.rd .regLock 0) 0

/-- Fields Refused in RUN are refused in RUN and in REST (16 R486, R487). -/
def refusing (s : State) : Bool := decide (s.mode = .run) || decide (s.mode = .rest)

/-- Why a write that is answered OK is dropped (16 R479, R486, R492): 0 not at all, 1 BUSY, 2 LOCKED. -/
def dropReason (s : State) (r : Reg) (old new data : W32) : Nat :=
  if setupLocked s && r.frozen && decide (old ≠ new) then 2
  else if refusing s && decide ((old ^^^ new) &&& BitVec.ofNat 32 r.refused ≠ 0) then 1
  else if r.base = Reg.glbMode.base then flag (modeReqBusy s (bits data 8 3))
  else if r.base = Reg.clkGate.base then flag (gateBusy s new)
  else if r.base = Reg.admQCtl.base then flag (decide (admState s = 4) && bit data 20 && bit data 4)
  else if r.base = Reg.dbgMemCtl.base then flag (bit data 23 && dbgBusy s data)
  else if r.base = Reg.tstMbistCtl.base then
    flag (bit data 20 && (decide (s.mode ≠ .test) || bit (s.rd .tstMbistStat 0) 0))
  else 0

/-- A dropped write is reported (16 R479). -/
def State.reportDrop (s : State) (reason agent off : Nat) : State :=
  (s.sEvent .regErr 0 (fun w => withBits (withBits (withBits w 0 4 reason) 4 2 agent) 8 16 off)).bump .regErrCount 0 0 32 1

/-! The timebase (13 R395, R396). -/

/-- ADD: a signed value; any but 0 is a step. -/
def State.tbAdd (s : State) (v : W64) : State :=
  if v = 0 then s else { s with timebase := s.timebase + v, tbStep := s.tbStep + 1 }

/-- LOAD. -/
def State.tbLoad (s : State) (v : W64) : State := { s with timebase := v, tbFrac := 0, tbStep := s.tbStep + 1 }

/-- SET_RATE. -/
def State.tbRate (s : State) (v : W32) : State := { (s.wr .telTbRate 0 v) with tbFrac := 0 }

/-! Admin queue 0 (09 R275, R280, R281). -/

/-- ENABLE changes from 0 to 1. -/
def State.admEnableSet (s : State) (agent : Nat) : State :=
  let a : Adm := { Adm.init with noticeBusy := s.adm.noticeBusy, noticeKept := s.adm.noticeKept, nextPoll := s.nomNs }
  ((({ s with adm := a }).discardStaged).setFld .admQStat 0 0 3 1).setFld .admQStat 0 4 2 agent

/-- Slot and doorbell reads of a queue that stops are answered without effect. -/
def State.admForget (s : State) : State :=
  let stop := fun (u : Purpose) => decide (u = .admSlot) || decide (u = .admDoorbell)
  let off := fun (a : Adm) => { a with dbActive := false, slotActive := false, rereadDue := none, kick := false }
  ({ s with acc := upd (fun a => stop a.purpose) (fun a => { a with purpose := .oldRead 0 0 0x10000 3 }) s.acc,
            held := s.held.filter (fun h => !stop h.purpose) }).setAdm off

/-- ENABLE is cleared: the command in progress runs to its end, then the queue is DISABLED. -/
def State.admEnableClear (s : State) : State :=
  if admState s = 0 ∨ admState s = 4 then s
  else
    let s1 := s.admForget
    if s1.adm.cmd.isNone then s1.discardStaged.setFld .admQStat 0 0 3 0 else s1.setFld .admQStat 0 0 3 4

/-! The test unit as its registers set it (19 R551 to R556). -/

/-- TST_UNIT_CTL as written: a change of MODE or PRBS, or an enable that rises, clears the unit's results and starts it. -/
def State.unitWritten (s : State) (u : Nat) (old new : W32) : State :=
  let rise := fun (k : Nat) => bit new k && !bit old k
  if bits old 0 5 ≠ bits new 0 5 ∨ rise 5 ∨ rise 6 then (s.unitClear u).unitStart u else s.testGo u

/-- TST_CTL as written: RUN from 0 to 1 restarts every generator and clears every checker's SYNC. -/
def State.runWritten (s : State) (old new : W32) : State :=
  if bit new 0 && !bit old 0 then (List.range 19).foldl (fun t u => (t.setSync u false).unitStart u) s
  else if bit old 0 && !bit new 0 then (List.range 16).foldl (fun t u => t.setSync u false) s
  else s

/-- TST_MBIST_CTL.GO (19 R551). -/
def State.mbistStart (s : State) : State :=
  let v := s.rd .tstMbistCtl 0
  { ((s.setFld .tstMbistCtl 0 20 1 0).wr .tstMbistStat 0 1) with mbist := some (bits v 0 19, bit v 19) }

/-- The elements of a pair of EVM_LINE_CTL elements that a write under a mask touches take it (12 R389). -/
def State.linePair (s : State) (old : EvmBank) (i : Nat) (mask : W32) : State :=
  let one := fun (t : State) (k : Nat) => if bits mask (16 * k) 16 = 0 then t else t.lineWritten (2 * i + k) (lineDirect old (2 * i + k))
  one (one s 0) 1

/-- A register takes a new value, and its action follows. -/
def State.regStore (s : State) (r : Reg) (i : Nat) (old new : W32) (agent : Nat) : State :=
  let t := s.putReg r i new
  let rises := fun (k : Nat) => bit new k && !bit old k
  if r.base = Reg.glbMode.base then t.modeRequested (bits new 8 3)
  else if r.base = Reg.clkCtl.base then if old = new then t else t.setFld .clkStat 0 7 1 (bits new 0 1)
  else if r.base = Reg.clkPllCmd.base then (t.wr .clkPllCmd 0 0).pllCmd (bits new 0 2)
  else if r.base = Reg.clkGate.base then t.gateWritten
  else if r.base = Reg.pwrCtl.base then t.levelWritten
  else if r.base = Reg.admQCtl.base then
    if rises 4 then t.admEnableSet agent else if bit old 4 && !bit new 4 then t.admEnableClear else t
  else if r.base = Reg.evmLineCtl.base then (t.linePair s.evm i 0xFFFFFFFF).refreshEvm
  else if r.base = Reg.evmWflag.base then (t.setsWin i).refreshEvm
  else if r.base = Reg.schPollCtl.base then
    if bit old 24 = bit new 24 then t else (createdIids t).foldl (fun u iid => u.fullScanNext iid) t
  else if r.base = Reg.telTbRate.base then t.tbRate new
  else if r.base = Reg.telTbAdj.base then t.tbAdd (new.signExtend 64)
  else if r.base = Reg.telOccCtl.base then if rises 20 then { t with occDue := t.nomNs + occPeriodNs t } else t
  else if r.base = Reg.fedResync.base then t.heldCheck
  else if r.base = Reg.tstCtl.base then t.runWritten old new
  else if r.base = Reg.tstUnitCtl.base then t.unitWritten i old new
  else if r.base = Reg.tstMbistCtl.base then if bit new 20 then t.mbistStart else t
  else if r.base = Reg.dbgMemCtl.base then if bit new 23 then (t.setFld .dbgMemCtl 0 23 1 0).dbgGo else t
  else if r.base = Reg.dbgPoll.base then
    if bit new 12 then (t.setFld .dbgPoll 0 12 1 0).kickPoll (bits new 0 12) true else t
  else t

/-- A clearing write of an S-class register (16 R483, R560): with the current SEQ it clears the status bits and codes that
the register's table names. -/
def State.seqClear (s : State) (r : Reg) (i : Nat) (data : W32) : State :=
  let v := s.rd r i
  if bits data 24 8 = bits v 24 8 then
    (s.wr r i (v &&& ~~~(BitVec.ofNat 32 (r.sBits % 2 ^ 24)))).refreshEvm
  else s

/-! Staged items (09 R296 to R300). -/

/-- SPACE of an item. -/
def itemSpace (x : W64 × W64) : Nat := bits x.1 32 4
/-- ADDR of an item. -/
def itemAddr (x : W64 × W64) : Nat := bits x.1 0 32
/-- DATA of an item. -/
def itemData (x : W64 × W64) : W32 := x.2.setWidth 32
/-- MASK of an item. -/
def itemMask (x : W64 × W64) : W32 := (x.2 >>> 32).setWidth 32
/-- The target under an item (09 R297). -/
def itemOver (x : W64 × W64) (old : W32) : W32 := (old &&& ~~~(itemMask x)) ||| (itemData x &&& itemMask x)

/-- The register that a SPACE 0 item names, and its instance. -/
def itemReg (x : W64 × W64) : Option (Reg × Nat) :=
  let a := itemAddr x
  if 0x10000 ≤ a ∨ a % 4 ≠ 0 then none
  else let off := canonOffset a; (regAtOffset off).map (fun r => (r, r.index off))

/-- An item of the event matrix: SPACE 3 or 4, or a register of EVM on page 0x6. -/
def itemEvm (x : W64 × W64) : Bool :=
  decide (itemSpace x = 3) || decide (itemSpace x = 4) ||
  (decide (itemSpace x = 0) && decide (canonOffset (itemAddr x) / 0x1000 = 6) && decide (canonOffset (itemAddr x) < 0x63C8))

/-- The bits of an IS0 word that MODIFY_INSTANCE groups cover (10 R313, R316). -/
def groupBits (w : Nat) : Nat :=
  if w = 3 then 0xFFFF0000 else if w = 8 then 0x1FFFFF else if w = 9 then 0x3FFFF else if w = 10 then 0x1FFFFF
  else if w = 11 then 0xFFFFFFFF else if w = 12 then 0xFFFFF else 0

/-- The bits of the fields of parameter word p of a queue (09 R290). -/
def paramBits (p : Nat) : Nat := if p < 2 then 0xFFFFFFFF else if p = 2 then 0x3FFFFFF else 0x1FFFFFFF

/-- PROT of line l. -/
def lineProt (s : State) (l : Nat) : Bool := decide (lineCtl s.evm l / 2 ^ 12 % 2 = 1)

/-- Lines that an item touches (09 R298). -/
def itemLines (x : W64 × W64) : List Nat :=
  let a := itemAddr x
  if itemSpace x = 3 then ((List.range 32).filter (fun k => bit (itemMask x) k)).map (fun k => 32 * (a % 8) + k)
  else if itemSpace x = 4 then (if itemMask x = 0 then [] else [a / 16])
  else if itemSpace x = 0 then
    match itemReg x with
    | some (r, i) =>
      if r.base = Reg.evmLineCtl.base then
        ((List.range 2).filter (fun k => decide (bits (itemMask x) (16 * k) 16 ≠ 0))).map (fun k => 2 * i + k)
      else []
    | none => []
  else []

/-- A queue that an item may name: it exists, and is neither ABSENT nor DRAINING. -/
def queueGone (s : State) (qid : Nat) : Bool :=
  !s.queues.contains qid ||
  (match ctxOf s qid with | some c => decide (c.state = qAbsent) || decide (c.state = qDraining) | none => false)

/-- Reason 0x03 of R300. -/
def itemAbsent (s : State) (x : W64 × W64) : Bool :=
  if itemSpace x = 1 then decide (s.instState (itemAddr x / 16) = 0)
  else if itemSpace x = 2 then queueGone s (itemAddr x % 2 ^ 22)
  else false

/-- Reason 0x06 of R300. -/
def itemRefused (s : State) (x : W64 × W64) : Bool :=
  decide (s.mode = .run) && decide (itemSpace x = 0) &&
  (match itemReg x with
   | some (r, _) => decide ((itemMask x).toNat &&& r.refused ≠ 0)
   | none => false)

/-- Reason 0x04 of R300; also a register with no bit of class P or M, and an M-class item with an upper half. -/
def itemUnstageable (x : W64 × W64) : Bool :=
  let m := (itemMask x).toNat
  if itemSpace x = 0 then
    match itemReg x with
    | some (r, _) =>
      decide (r.sBits ≠ 0) || decide (r.lBits ≠ 0) || decide (r.xBits ≠ 0) || decide (r.pBits = 0 ∧ r.mBits = 0) ||
      (decide (r.mBits ≠ 0) && (decide (2 ^ 16 ≤ m) || decide (2 ^ 16 ≤ (itemData x).toNat)))
    | none => false
  else if itemSpace x = 1 then decide (m &&& groupBits (itemAddr x % 16) ≠ m) || decide (groupBits (itemAddr x % 16) = 0)
  else if itemSpace x = 2 then decide (m &&& paramBits (itemAddr x / 2 ^ 22) ≠ m)
  else false

/-- The distinct queues of one context set that items name (01 R19). -/
def setQueues (xs : List (W64 × W64)) (qid : Nat) : List Nat :=
  ((xs.filter (fun y => decide (itemSpace y = 2) && sameSet (itemAddr y % 2 ^ 22) qid)).map (fun y => itemAddr y % 2 ^ 22)).dedup

/-- The first reason for which STAGE or EVM_UPDATE refuses an item behind those of `before` (09 R300); 0 none. -/
def itemReason (s : State) (evm : Bool) (before : List (W64 × W64)) (x : W64 × W64) : Nat :=
  let sp := itemSpace x
  let a := itemAddr x
  let page := canonOffset a / 0x1000
  if 4 < sp ∨ bits x.1 36 28 ≠ 0 then 1
  else if (sp = 0 ∧ (itemReg x).isNone) ∨ (sp = 1 ∧ 65536 ≤ a) ∨ (sp = 2 ∧ 2 ^ 24 ≤ a) ∨ (3 ≤ sp ∧ 4096 ≤ a) then 2
  else if itemAbsent s x then 3
  else if itemUnstageable x then 4
  else if (sp = 0 ∧ (page = 1 ∨ page = 7)) ∨ (itemLines x).any (fun l => lineProt s l) then 5
  else if itemRefused s x then 6
  else if sp = 2 ∧ 4 < (setQueues (before ++ [x]) (a % 2 ^ 22)).length then 7
  else if evm && (decide (sp = 1) || decide (sp = 2) || (decide (sp = 0) && decide (page ≠ 6))) then 8
  else 0

/-- The first refused item of a list behind `before`: its index and reason. -/
def firstBadItem (s : State) (evm : Bool) (before : List (W64 × W64)) (n : Nat) : List (W64 × W64) → Option (Nat × Nat)
  | [] => none
  | x :: xs =>
    let r := itemReason s evm before x
    if r ≠ 0 then some (n, r) else firstBadItem s evm (before ++ [x]) (n + 1) xs

/-- The first item that COMMIT refuses: its index and reason (09 R299, R300). -/
def firstStale (s : State) (n : Nat) : List (W64 × W64) → Option (Nat × Nat)
  | [] => none
  | x :: xs =>
    if itemAbsent s x then some (n, 3) else if itemRefused s x then some (n, 6) else firstStale s (n + 1) xs

/-! Applying items. -/

/-- Parameter word p of a queue (09 R290). -/
def paramWord (c : QCtx) (p : Nat) : W32 :=
  if p = 0 then c.noticeAddr.setWidth 32
  else if p = 1 then (c.noticeAddr >>> 32).setWidth 32
  else if p = 2 then (pack [(0, 20, c.noticeDelay.toNat), (20, 4, c.overlapM1.toNat), (24, 2, c.qClass.toNat)]).setWidth 32
  else (pack [(0, 16, c.noticeThresh.toNat), (16, 1, c.attrRo.toNat), (17, 1, c.attrNs.toNat), (18, 1, c.tphEn.toNat),
    (19, 8, c.tphSt.toNat), (27, 2, c.tphPh.toNat)]).setWidth 32

/-- NOTICE_DELAY replaced: the delay that runs counts from the same acknowledgement (03 R131). -/
def QCtx.setNoticeDelay (c : QCtx) (us : Nat) : QCtx :=
  let units := fun (n : Nat) => BitVec.ofNat 32 ((1000 * n + 1023) / 1024)
  { c with noticeDelay := BitVec.ofNat 20 us, ntcDue := if c.pendingCnt = 0 then c.ntcDue else c.ntcDue + units us - units c.noticeDelay.toNat }

/-- Parameter word p of a queue replaced as a whole; the low bits of a notice address are zero (17 R503). What an address of 0 does
follows once every word of the command is in (`State.addrTaken`). A COMMIT item brings any value its bits can hold: a NOTICE_THRESH of
0, which every record then reaches, and a NOTICE_DELAY above 1,000,000, which counts as it stands, are taken as given (03 R129, 09
R300; DESIGN CHOICE, log entry 48). -/
def QCtx.setParam (c : QCtx) (p : Nat) (v : W32) : QCtx :=
  let f := fun (lo len : Nat) => v.toNat / 2 ^ lo % 2 ^ len
  if p = 0 then { c with noticeAddr := BitVec.ofNat 64 (c.noticeAddr.toNat / 2 ^ 32 * 2 ^ 32 + v.toNat / 8 * 8) }
  else if p = 1 then { c with noticeAddr := BitVec.ofNat 64 (c.noticeAddr.toNat % 2 ^ 32 + v.toNat * 2 ^ 32) }
  else if p = 2 then
    { c.setNoticeDelay (f 0 20) with overlapM1 := BitVec.ofNat 4 (f 20 4), qClass := BitVec.ofNat 2 (f 24 2) }
  else
    { c with noticeThresh := BitVec.ofNat 16 (f 0 16), attrRo := BitVec.ofNat 1 (f 16 1), attrNs := BitVec.ofNat 1 (f 17 1),
             tphEn := BitVec.ofNat 1 (f 18 1), tphSt := BitVec.ofNat 8 (f 19 8), tphPh := BitVec.ofNat 2 (f 27 2) }

/-- A word of an instance's entry changes (02 R63; 07 R229): an interval that becomes non-zero in RUN falls due at once, and a
lowered burst clips its bucket; a raised one adds nothing. -/
def State.putInst (s : State) (iid w : Nat) (v : W32) : State :=
  let was := pollIv s iid
  let t := s.setInst iid w v
  if w = 8 then if was = 0 ∧ pollIv t iid ≠ 0 ∧ t.mode = .run then t.dueNow iid else t
  else if w = 11 then
    let b := bucketOf s iid
    t.putBucket { b with bytes := min b.bytes (1000 * (burstB t iid : Int)), descs := min b.descs (1000000 * (burstD t iid : Int)) }
  else t

/-- An item other than the event matrix's is applied (09 R297, R307); frozen fields stay (16 R492). -/
def State.applyItem (s : State) (x : W64 × W64) : State :=
  let a := itemAddr x
  if itemEvm x then s
  else if itemSpace x = 0 then
    match itemReg x with
    | some (r, i) =>
      let old := s.rd r i
      let bits' := BitVec.ofNat 32 (r.pBits ||| r.mBits)
      let new0 := (old &&& ~~~bits') ||| (itemOver x old &&& bits')
      let new := if r.base = Reg.regProtMap.base then new0 ||| 0x82 else new0
      if decide (r.base = Reg.regIndClaim.base) || decide (dropReason s r old new ((itemMask x <<< 16) ||| itemData x) ≠ 0) then s
      else s.regStore r i old new 0
    | none => s
  else if itemSpace x = 1 then s.putInst (a / 16) (a % 16) (itemOver x (s.inst (a / 16) (a % 16)))
  else s.updCtx (a % 2 ^ 22) (fun c => c.setParam (a / 2 ^ 22) (itemOver x (paramWord c (a / 2 ^ 22))))

/-- An event item is applied to a bank. -/
def EvmBank.apply (b : EvmBank) (x : W64 × W64) : EvmBank :=
  let a := itemAddr x
  if itemSpace x = 3 then { b with is1 := b.is1.put a (itemOver x (b.is1.get a)) }
  else if itemSpace x = 4 then { b with is2 := b.is2.put a (itemOver x (b.is2.get a)) }
  else
    match itemReg x with
    | some (r, i) =>
      let p := BitVec.ofNat 32 r.pBits
      let old := evRd b r i
      if r.banked then b.putReg r i ((old &&& ~~~p) ||| (itemOver x old &&& p)) else b
    | none => b

/-- What an event item does beside its bank in the swap cycle: its lines are written, or WAIT flags set and cleared. -/
def State.swapItem (old : EvmBank) (s : State) (x : W64 × W64) : State :=
  if itemSpace x ≠ 0 then s
  else
    match itemReg x with
    | some (r, i) =>
      if r.base = Reg.evmLineCtl.base then s.linePair old i (itemMask x)
      else if r.base = Reg.evmWflag.base then (s.wr .evmWflag i (itemOver x (s.rd .evmWflag i) &&& 0xFFFF)).setsWin i
      else s
    | none => s

/-- Event items take effect in one EVM cycle: applied to a copy of the active bank, which is then the active one (09 R310). -/
def State.applyEvm (s : State) (xs : List (W64 × W64)) : State :=
  let es := xs.filter itemEvm
  if es = [] then s
  else
    let b := es.foldl (fun b x => b.apply x) s.evm
    s.reroute (fun t => es.foldl (fun u x => State.swapItem s.evm u x) { t with evm := b, evmPend := b })

end Sys2Proof.Machine
end

