-- ==== Sys2Proof/Machine/AdminCmds.lean ====
section
/-! DEFINITION. The admin commands (09 R286 to R310; 10 R313 to R345; 13 R395, R414; 15 R470): what each does once it is
proofed, for this member's own command and for one that another member sent (14 R423). -/

namespace Sys2Proof.Machine

/-! How a command runs. -/

/-- The command in progress whose row may begin it: proofed, with that code, while the admin processor runs (09 R278, R279). -/
def cmdReady (s : State) (own : Bool) (op : Nat) : Option AdmCmd :=
  match cmdOf s own with
  | some c => if decide (c.phase = .proofed) && decide (cOp c = op) && admRuns s then some c else none
  | none => none

/-- The row of a command: this member's own first, else the one that another member sent. -/
def beginCmd (op : Nat) (run : State → Bool → AdmCmd → State) (s : State) : Out :=
  match cmdReady s true op with
  | some c => .next (run s true c)
  | none =>
    match cmdReady s false op with
    | some c => .next (run s false c)
    | none => .next s

/-- BAD_STATE, NO_INSTANCE and the others that end a command at once. -/
def State.admRefuse (s : State) (own : Bool) (status w5 : Nat) : State := s.admEnd own status 0 0 0 w5

/-- The members that an own command is sent to. -/
def toldMembers (s : State) (own : Bool) : List Nat := if own then fedOthers s else []

/-- A federated command goes to the other members, and its effect here follows their answers (14 R423): a command that one of
them refuses has none. -/
def State.toMembers (s : State) (own : Bool) (c : AdmCmd) (items : List (W64 × W64)) (eff : State → Bool → AdmCmd → State) : State :=
  match toldMembers s own with
  | [] => eff s own c
  | ms =>
    let d := { c with acks := ms, phase := .members }
    ms.foldl (fun t m => t.sendConfig d items m) (s.putCmd own (some d))

/-- QUIESCE_CEIL runs from the command's beginning (09 R293). -/
def underCeil (s : State) (c : AdmCmd) : AdmCmd := if c.due = 0 then { c with due := s.nomNs + quiesceCeilNs s } else c

/-- The command waits for events, under QUIESCE_CEIL. -/
def State.waitQuiesce (s : State) (own : Bool) (c : AdmCmd) : State :=
  let d := { underCeil s c with phase := .waiting }
  s.putCmd own (some d)

/-- A command that needs the context of queue `qid` goes on with it, or waits for it (11 R566). -/
def State.needQueue (s : State) (own : Bool) (c : AdmCmd) (qid : Nat) (k : State → QCtx → State) : State :=
  match ctxOf s qid with
  | some q => k (s.lookup qid 4) q
  | none =>
    let d := { c with phase := .context }
    (s.putCmd own (some d)).awaitCtx qid (.admin own)

/-! Images and item lists (09 R291). -/

/-- Address and length of what a command reads. -/
def listRange (c : AdmCmd) : Nat × Nat :=
  let op := cOp c
  if op < 0x90 then ((wd c.words 2).toNat, 64)
  else ((wd c.words 1).toNat, 16 * (bits (wd c.words 2) 0 (if op = 0x90 then 8 else 10) + 1))

/-- The read of a command's image or list from offset `ofs` on, to the end of its line of 64 B. -/
def State.readPiece (s : State) (c : AdmCmd) (ofs : Nat) : State :=
  let r := listRange c
  let a := r.1 + ofs
  s.service (admAccess s (.admImage ofs) false a (min (r.2 - ofs) (64 - a % 64)) [])

/-- A command begins with its image or list: read here for an own command, brought by its CONFIG frames for another's. -/
def State.withList (s : State) (own : Bool) (c : AdmCmd) (k : State → Bool → AdmCmd → State) : State :=
  if own then
    let d := { c with phase := .image [] }
    (s.putCmd own (some d)).readPiece c 0
  else k s own c

/-- Word w of an instance image. -/
def imageWord (c : AdmCmd) (w : Nat) : W32 := BitVec.ofNat 32 (bits (wd c.image (w / 2)) (32 * (w % 2)) 32)

/-! CREATE_INSTANCE and MODIFY_INSTANCE (10 R313 to R316). -/

/-- Bits of an image word that must be zero (10 R313, R314). -/
def imageReserved (w : Nat) : Nat :=
  [0xFFFE0000, 0xFFF00000, 0xFFC00000, 0, 0xFFF, 0, 0x3F, 0, 0xFFE00000, 0xFFFC0000, 0xFFE00000, 0, 0xFFF00000].getD w 0xFFFFFFFF

/-- An image word breaks a rule of CREATE_INSTANCE. -/
def imageBad (c : AdmCmd) (w : Nat) : Bool :=
  let v := (imageWord c w).toNat
  decide (v &&& imageReserved w ≠ 0) || (decide (w = 3) && (decide (v % 65536 = 0) || decide (32768 < v % 65536)))

/-- The image's QID range passes the last QID or meets another instance's (10 R315). -/
def imageClash (s : State) (c : AdmCmd) : Bool :=
  let base := (imageWord c 2).toNat
  let span := (imageWord c 3).toNat % 65536
  decide (4194304 < base + span) ||
  (createdIids s).any (fun i => decide (base < qbase s i + qidSpan s i) && decide (qbase s i < base + span))

/-- The entry is written and the instance is LIVE (10 R313, R321); its first poll falls due at once in RUN (02 R63). -/
def State.createInst (s : State) (own : Bool) (c : AdmCmd) : State :=
  let iid := cIid c
  let s1 := (List.range 13).foldl (fun t w => t.setInst iid w (imageWord c w)) s
  let s2 := ((s1.setInst iid 13 1).setInst iid 14 0).setInst iid 15 0
  let s3 : State := { (s2.setFld .insStat 0 0 13 (s2.fld .insStat 0 0 13 + 1)) with buckets := s2.buckets.filter (fun b => b.iid != iid) }
  (if s3.mode = .run ∧ pollIv s3 iid ≠ 0 then s3.dueNow iid else s3).admEnd own 0 0 0 0 0

/-- CREATE_INSTANCE with its image. -/
def State.createInstImage (s : State) (own : Bool) (c : AdmCmd) : State :=
  match (List.range 16).find? (fun w => imageBad c w) with
  | some w => s.admRefuse own 0x44 w
  | none => if imageClash s c then s.admRefuse own 0x45 0 else s.toMembers own c [] State.createInst

/-- CREATE_INSTANCE: EXISTS, then its image. -/
def State.beginCreateInst (s : State) (own : Bool) (c : AdmCmd) : State :=
  if s.instState (cIid c) ≠ 0 then s.admRefuse own 0x42 0 else s.withList own c State.createInstImage

/-- The selected groups are written; nothing else of the image is taken (10 R314; 07 R229, R230). -/
def State.modifyInst (s : State) (own : Bool) (c : AdmCmd) : State :=
  let iid := cIid c
  let g := fun (k : Nat) => bit (wd c.words 1) (16 + k)
  let put := fun (t : State) (on : Bool) (w lo len : Nat) =>
    if on then t.putInst iid w (withBits (t.inst iid w) lo len (bits (imageWord c w) lo len)) else t
  let s1 := put s (g 0) 9 0 16
  let s2 := put (put (put s1 (g 1) 10 0 21) (g 1) 11 0 32) (g 1) 12 0 20
  let s3 := put (put (put s2 (g 2) 9 16 2) (g 3) 3 16 16) (g 4) 8 0 21
  s3.admEnd own 0 0 0 0 0

/-- MODIFY_INSTANCE with its image. -/
def State.modifyInstImage (s : State) (own : Bool) (c : AdmCmd) : State := s.toMembers own c [] State.modifyInst

/-- MODIFY_INSTANCE: NO_INSTANCE, then its image. -/
def State.beginModifyInst (s : State) (own : Bool) (c : AdmCmd) : State :=
  if s.instState (cIid c) = 0 then s.admRefuse own 0x40 0 else s.withList own c State.modifyInstImage

/-! Quiesce (10 R322 to R328). -/

/-- The chains of a queue follow no further NEXT, and tails not yet decided close (10 R322, steps 5 and 6). -/
def State.closeChains (s : State) (qid : Nat) : State :=
  (chans s qid).foldl (fun t x =>
    match x.chain with
    | none => t
    | some ch =>
      let y := { x with chain := some { ch with closing := true } }
      match x.phase with
      | .chainTail => (t.updSlot x.clu x.idx (fun _ => y)).closeTail y
      | .parked _ _ => (t.updSlot x.clu x.idx (fun _ => y)).closeTail y
      | .expired => (t.updSlot x.clu x.idx (fun _ => y)).closeTail y
      | _ => t.updSlot x.clu x.idx (fun z => { z with chain := z.chain.map (fun h => { h with closing := true }) })) s

/-- A queue of a quiescing instance (10 R322): IDLE and ACTIVE drain; in ERROR the read of a RESUME ends, and chains of earlier
LINKs run on to the ends of their segments (02 R88). -/
def State.quiesceQueue (s : State) (qid : Nat) : State :=
  match ctxOf s qid with
  | none => s
  | some c =>
    let s1 :=
      if c.state = qIdle ∨ c.state = qActive then s.startDrain qid 0 true
      else if c.state = qError then ((s.stopResume qid).endUnproofed qid).notReady qid
      else s
    s1.closeChains qid

/-- Every queue of an instance that this member homes. -/
def ownQueues (s : State) (iid : Nat) : List Nat := (instQueues s iid).filter (fun q => !homedAway s q)

/-- The queues of an instance are taken through f, at once or when their contexts are resident. -/
def State.eachQueue (s : State) (iid : Nat) (f : State → Nat → State) (w : CtxWork) : State :=
  (ownQueues s iid).foldl (fun t q => if (ctxOf t q).isSome then f t q else t.awaitCtx q w) s

/-- A queue of an instance that is released (10 R325, R327): PAUSED by the quiesce becomes IDLE or ACTIVE, and toggles seen
meanwhile act, ABANDON before RESUME. -/
def State.releaseQueue (s : State) (qid : Nat) : State :=
  match ctxOf s qid with
  | none => s
  | some c =>
    if decide (c.state = qPaused) && decide (c.byQuiesce = 1) then s.unpause qid
    else if c.state = qError then
      let s1 := s.setCtx qid { c with resumePend := 0, abandonPend := 0 }
      if c.abandonPend = 1 then s1.abandonQ qid else if c.resumePend = 1 then s1.resumeQ qid else s1
    else s

/-- QUIESCE_INSTANCE takes effect (10 R321, R322). -/
def State.quiesceInst (s : State) (own : Bool) (c : AdmCmd) : State :=
  let iid := cIid c
  let st := s.instState iid
  if st = 3 then s.admEnd own 0 0 (instInFlight s iid) 0 0
  else if st = 2 then s.waitQuiesce own c
  else if st = 1 then ((s.waitQuiesce own c).setInstFld iid 13 0 3 2).eachQueue iid State.quiesceQueue .quiesce
  else s.admRefuse own 0x43 st

/-- UNQUIESCE takes effect (10 R321, R327). -/
def State.releaseInst (s : State) (own : Bool) (c : AdmCmd) : State :=
  let iid := cIid c
  if s.instState iid ≠ 3 then s.admRefuse own 0x43 (s.instState iid)
  else (((s.waitQuiesce own c).setInstFld iid 13 0 3 1).eachQueue iid State.releaseQueue .release).admCheck

/-- QUIESCE_INSTANCE, with UNQUIESCE too, under its ceiling from here on (10 R321, R322, R328). -/
def State.beginQuiesce (s : State) (own : Bool) (c : AdmCmd) : State :=
  let st := s.instState (cIid c)
  if st = 0 then s.admRefuse own 0x40 0
  else if cFlag c 0 then
    if st ≠ 3 then s.admRefuse own 0x43 st else s.toMembers own (underCeil s c) [] State.releaseInst
  else if st = 4 ∨ st = 5 then s.admRefuse own 0x43 st
  else s.toMembers own (underCeil s c) [] State.quiesceInst

/-! Drain or squash (10 R329 to R331). -/

/-- A loaf that still commits: wholly requested and its check recorded (10 R329). -/
def squashKeeps (x : Slot) (l : Loaf) : Bool :=
  l.closed && decide (l.b1 ≤ l.passB) && l.backoff.isNone && l.relBad.isNone &&
  ((dKind x.desc).noDest || (decide (l.b1 ≤ l.writeB) && l.skip.isNone)) && (!dDstNi x.desc || l.released)

/-- The slot's own state as it ends SQUASHED. -/
def Slot.squash (x : Slot) : Slot :=
  { x with
    squashed := true, status := 2, detail := 0, w5 := 0, fabOver := none, relOver := none, retireBy := none, nextBackoff := none,
    grant := [], poolWait := [], lens := none, lensReady := [] }

/-- Descriptors that a squash of this slot ends: the one it runs, unless it already ends with a status, and its LINK, unless that
waits for a repair. -/
def squashCount (x : Slot) : Nat :=
  if heldLink x then 0
  else
    flag x.chain.isSome +
      (match x.phase with
       | .ending => 0 | .finished => 0 | .slotRead => 0 | .proofed => 0 | .chainTail => 0 | .parked _ _ => 0 | .expired => 0
       | .broken => 0
       | _ => 1)

/-- A chain between two descriptors ends with its LINK. -/
def State.squashChain (s : State) (x : Slot) : State :=
  match x.chain with
  | none => s
  | some ch =>
    let y := x.squash
    (((s.updSlot x.clu x.idx (fun _ => y)).placeHeld y ch true).orphanReads x.clu x.idx).endChain y ch true

/-- One slot of the instance is squashed. A chain descriptor that already ends with a status keeps it, and its LINK ends with it
(10 R330). -/
def State.squashSlot (s : State) (x : Slot) : State :=
  let ended := fun (t : State) =>
    let n := (x.loaves.takeWhile (squashKeeps x)).length
    (((t.dropLoaves x n).orphanReads x.clu x.idx).updSlot x.clu x.idx (fun y => { y.squash with phase := .ending })).settle x.clu x.idx
  if squashCount x = 0 then s
  else
    match x.phase with
    | .ending => s.updSlot x.clu x.idx (fun y => { y with squashed := true })
    | .slotRead => s.squashChain x
    | .proofed => s.squashChain x
    | .chainTail => s.squashChain x
    | .parked _ _ => s.squashChain x
    | .expired => s.squashChain x
    | .moving => ended s
    | .leaving => ended s
    | _ => (s.updSlot x.clu x.idx Slot.squash).finish x.clu x.idx

/-- Writes of the instance that are issued and not answered. -/
def instWrites (s : State) (iid : Nat) : Nat :=
  (s.acc.filter (fun a => decide (a.iid = iid) && (match a.purpose with | .write _ _ _ => true | .oldWrite _ _ _ _ => true | _ => false))).length

/-- Every descriptor of the instance is squashed; binds whose ring slots have not been accepted end first, so that no record squashed
before them lets one of them in (10 R329). -/
def State.squashAll (s : State) (iid : Nat) : State :=
  let early := (s.slots.filter (fun x => decide (x.iid = iid) && isEarly x)).foldl (fun t x => t.endBind x) s
  let s1 := (early.slots.filter (fun x => decide (x.iid = iid))).foldl (fun t x => t.squashSlot x) early
  let out := fun (m : Nat × Slot) => if m.2.iid = iid then (m.1, m.2.squash) else m
  { s1 with moving := s1.moving.map out }.settleMoving s1.moving.length

/-- DRAIN_OR_SQUASH takes effect: W1 counts what it ends, W2 the writes that it drains. -/
def State.squashInst (s : State) (own : Bool) (c : AdmCmd) : State :=
  let iid := cIid c
  let st := s.instState iid
  if st ≠ 2 ∧ st ≠ 3 then s.admRefuse own 0x43 st
  else
    let n := ((s.slots.filter (fun x => decide (x.iid = iid))).map squashCount).sum +
      ((s.moving.filter (fun m => decide (m.2.iid = iid))).map (fun m => 1 + flag m.2.chain.isSome)).sum
    let e := { c with phase := .waiting, w1 := BitVec.ofNat 64 n, w2 := BitVec.ofNat 64 (instWrites s iid) }
    (((s.putCmd own (some e)).setInstFld iid 13 0 3 4).squashAll iid).admCheck

/-- DRAIN_OR_SQUASH. -/
def State.beginSquash (s : State) (own : Bool) (c : AdmCmd) : State :=
  let st := s.instState (cIid c)
  if st = 0 then s.admRefuse own 0x40 0
  else if st ≠ 2 ∧ st ≠ 3 then s.admRefuse own 0x43 st
  else s.toMembers own c [] State.squashInst

/-! Reset and destroy (10 R333). -/

/-- RESET_INSTANCE and DESTROY_INSTANCE take effect: as far as they can go. -/
def State.closeInst (s : State) (own : Bool) (c : AdmCmd) : State :=
  let d := { c with phase := .waiting, stage := 0 }
  (s.putCmd own (some d)).closeStep own d 6

/-- RESET_INSTANCE and DESTROY_INSTANCE: CLOSING, which holds binds while the other members answer, unless a descriptor is in flight. -/
def State.beginClose (s : State) (own : Bool) (c : AdmCmd) : State :=
  let iid := cIid c
  let st := s.instState iid
  if st = 0 then s.admRefuse own 0x40 0
  else if st ≠ 1 ∧ st ≠ 3 then s.admRefuse own 0x43 st
  else if instInFlight s iid ≠ 0 then s.admRefuse own 0x43 st
  else (s.setInstFld iid 13 0 3 5).toMembers own { c with stage := 16 + st } [] State.closeInst

/-! Queues (09 R292 to R294; 02 R38, R40, R79). -/

/-- W5 of a BAD_STATE on a queue (09 R287). -/
def queueCode (q : QCtx) : Nat :=
  8 + q.state.toNat + (if (q.state = qPaused ∨ q.state = qDraining) ∧ q.byQuiesce = 1 then 8 else 0)

/-- The QID of a CREATE_QUEUE. -/
def newQid (s : State) (c : AdmCmd) : Nat := qbase s (cIid c) + bits (wd c.words 1) 12 15

/-- The context of a new queue (02 R40; 09 R290; 10 R326). -/
def newContext (s : State) (c : AdmCmd) (home : Nat) : QCtx :=
  let w1 := wd c.words 1
  let w4 := wd c.words 4
  let quiet := decide (2 ≤ s.instState (cIid c))
  { QCtx.ofWords [] with
    state := if quiet then qPaused else qIdle, byQuiesce := BitVec.ofNat 1 (flag quiet), home := fieldOf w1 27 4,
    homeMember := BitVec.ofNat 2 home, log2dM4 := fieldOf w1 31 4, dbGen := fieldOf w1 35 8, iid := BitVec.ofNat 12 (cIid c),
    ringBase := wd c.words 2, noticeAddr := wd c.words 3, noticeDelay := fieldOf w4 0 20, overlapM1 := fieldOf w4 20 4,
    qClass := fieldOf w4 24 2, noticeThresh := fieldOf w4 32 16, attrRo := fieldOf w4 48 1, attrNs := fieldOf w4 49 1,
    tphEn := fieldOf w4 50 1, tphSt := fieldOf w4 51 8, tphPh := fieldOf w4 59 2, estCost := 4096,
    qid := BitVec.ofNat 22 (newQid s c), localQ := fieldOf w1 12 15 }

/-- CREATE_QUEUE takes effect: the queue exists; here its whole context is written into a way of its set, once there is one
(01 R19). -/
def State.createQueue (s : State) (own : Bool) (c : AdmCmd) : State :=
  let qid := newQid s c
  let home := c.sender.getD (ownMember s)
  let exists' := fun (t : State) => ({ t with queues := qid :: t.queues }).flipHash qid home
  let wait := fun (t : State) => let d := { c with phase := .context }; t.putCmd own (some d)
  if c.sender.isSome then
    let s1 := exists' s
    { s1 with fed := { s1.fed with owners := assocPut s1.fed.owners qid home } }.admEnd own 0 0 qid 0 0
  else
    let q := newContext s c home
    match freeWay s qid, victim s qid with
    | some k, _ => ((exists' s).placeWay qid k q true).admEnd own 0 0 qid 0 0
    | none, some w =>
      if !w.dirty then
        ((exists' { s with ways := s.ways.filter (fun v => v.qid != w.qid) }).placeWay qid w.way q true).admEnd own 0 0 qid 0 0
      else if wbBusy s w.qid then wait s
      else (wait s).evict w
    | none, none => wait s

/-- CREATE_QUEUE. A depth above 65,536 ends it with BAD_PARAM, as R38 and R292 say; step 7 of R283 would find it too (DEDUCED, log
entry 46). -/
def State.beginCreateQueue (s : State) (own : Bool) (c : AdmCmd) : State :=
  let iid := cIid c
  let lq := bits (wd c.words 1) 12 15
  let qid := newQid s c
  let d := 64 * 2 ^ (bits (wd c.words 1) 31 4 + 4)
  let old := decide (lq < qidSpan s iid) && s.queues.contains qid
  let leaving := match ctxOf s qid with | some q => if decide (q.state = qDraining) && decide (q.drainTo = 1) then some (queueCode q) else none | none => none
  if s.instState iid = 0 then s.admRefuse own 0x40 0
  else if old then
    match leaving with
    | some w => s.admRefuse own 0x43 w
    | none => s.admRefuse own 0x42 0
  else if 12 < bits (wd c.words 1) 31 4 then s.admRefuse own 0x44 17
  else if (wd c.words 2).toNat % d ≠ 0 then s.admRefuse own 0x44 18
  else if min (s.instFld iid 3 16 16) (qidSpan s iid) ≤ lq then s.admRefuse own 0x45 0
  else s.toMembers own c [] State.createQueue

/-- The request of a MODIFY_QUEUE: 1 a pause, 2 a resume. -/
def pauseReq (c : AdmCmd) : Nat := bits (wd c.words 1) 28 2

/-- A MODIFY_QUEUE's request does not fit the queue's state. -/
def pauseRefused (c : AdmCmd) (q : QCtx) : Bool :=
  decide ((pauseReq c = 1 ∧ ¬(q.state = qIdle ∨ q.state = qActive)) ∨ (pauseReq c = 2 ∧ ¬(q.state = qPaused ∧ q.byQuiesce = 0)))

/-- What MODIFY_QUEUE changes in its queue (09 R294): its parameter words, then the pause or the resume. -/
def State.modifyEffect (s : State) (c : AdmCmd) : State :=
  let qid := cQid c
  let word := fun (p : Nat) => BitVec.ofNat 32 (bits (wd c.words (3 + p / 2)) (32 * (p % 2)) 32)
  let s1 := (((List.range 4).filter (fun p => bit (wd c.words 1) (24 + p))).foldl (fun t p => t.updCtx qid (fun q => q.setParam p (word p))) s).addrTaken qid
  if pauseReq c = 1 then s1.startDrain qid 0 false else if pauseReq c = 0 then s1 else s1.unpause qid

/-- MODIFY_QUEUE takes effect at its queue's home. -/
def State.modifyQueue (s : State) (own : Bool) (c : AdmCmd) : State :=
  if homedAway s (cQid c) then s.admEnd own 0 0 0 0 0
  else if pauseReq c = 1 then (s.modifyEffect c).waitQuiesce own c
  else (s.modifyEffect c).admEnd own 0 0 0 0 0

/-- A command on a queue begins: NO_QUEUE; at its home, with its context, the check k; elsewhere at once (14 R423). -/
def State.onQueue (s : State) (own : Bool) (c0 : AdmCmd) (check : QCtx → Option (Nat × Nat)) (eff : State → Bool → AdmCmd → State) : State :=
  let c := underCeil s c0
  let qid := cQid c
  if !s.queues.contains qid then s.admRefuse own 0x41 0
  else if homedAway s qid then s.toMembers own c [] eff
  else
    s.needQueue own c qid (fun t q =>
      match check q with
      | some (st, w5) => t.admRefuse own st w5
      | none => t.toMembers own c [] eff)

/-- MODIFY_QUEUE. -/
def State.beginModifyQueue (s : State) (own : Bool) (c : AdmCmd) : State :=
  s.onQueue own c (fun q => if pauseRefused c q then some (0x43, queueCode q) else none) State.modifyQueue

/-- DESTROY_QUEUE takes effect. -/
def State.destroyQueue (s : State) (own : Bool) (c : AdmCmd) : State :=
  let qid := cQid c
  if homedAway s qid then (s.dropQueue qid).admEnd own 0 0 0 0 0
  else (s.startDestroy qid).waitQuiesce own c

/-- DESTROY_QUEUE. -/
def State.beginDestroyQueue (s : State) (own : Bool) (c : AdmCmd) : State :=
  s.onQueue own c (fun q => if q.state = qDraining ∧ q.drainTo = 1 then some (0x43, queueCode q) else none) State.destroyQueue

/-- What MOVE_QUEUE does to its queue: it drains toward its new home (02 R79). -/
def State.moveEffect (s : State) (c : AdmCmd) : State :=
  let qid := cQid c
  let byQ := match ctxOf s qid with | some q => decide (q.byQuiesce = 1) | none => false
  (s.startDrain qid 2 byQ).updCtx qid (fun q => { q with newHome := fieldOf (wd c.words 1) 24 4 })

/-- MOVE_QUEUE takes effect at its queue's home. -/
def State.moveQueue (s : State) (own : Bool) (c : AdmCmd) : State :=
  if homedAway s (cQid c) then s.admEnd own 0 0 0 0 0 else (s.moveEffect c).waitQuiesce own c

/-- Why a MOVE_QUEUE is refused: STATUS and W5. -/
def moveRefused (s : State) (c : AdmCmd) (q : QCtx) : Option (Nat × Nat) :=
  if ¬(q.state = qIdle ∨ q.state = qActive ∨ q.state = qPaused) then some (0x43, queueCode q)
  else if outOfService s (bits (wd c.words 1) 24 4) then some (0x44, 17) else none

/-- MOVE_QUEUE. -/
def State.beginMoveQueue (s : State) (own : Bool) (c : AdmCmd) : State := s.onQueue own c (moveRefused s c) State.moveQueue

/-- A command that a fenced member had still to apply is applied to a queue adopted from it (14 R443). -/
def State.adoptCommand (s : State) (qid : Nat) (c : AdmCmd) : State :=
  match ctxOf s qid with
  | none => s
  | some q =>
    if cQid c ≠ qid then s
    else if cOp c = 0x89 then (if pauseRefused c q then s else s.modifyEffect c)
    else if cOp c = 0x8A then s.startDestroy qid
    else if cOp c = 0x8B then (if (moveRefused s c q).isSome then s else s.moveEffect c)
    else s

/-! Staging, COMMIT and EVM_UPDATE (09 R295 to R310). -/

/-- Items of a list as read. -/
def itemsOf (bs : List Byte) : List (W64 × W64) := (chunksOf 2 (bs.length + 1) (wordsOfBytes bs)).map (fun c => (wd c 0, wd c 1))

/-- STAGE with its list: all of it is staged, or none (09 R295). -/
def State.stageItems (s : State) (own : Bool) (c : AdmCmd) : State :=
  match firstBadItem s false s.staged 0 c.items with
  | some (i, r) => s.admEnd own 0x48 r 0 0 i
  | none => { s with staged := s.staged ++ c.items }.admEnd own 0 0 (s.staged.length + c.items.length) 0 0

/-- STAGE: STAGE_FULL, then its list. -/
def State.beginStage (s : State) (own : Bool) (c : AdmCmd) : State :=
  if 256 < s.staged.length + (bits (wd c.words 2) 0 8 + 1) then s.admRefuse own 0x47 s.staged.length
  else s.withList own c State.stageItems

/-- EVM_UPDATE with its list (09 R309, R310). -/
def State.evmItems (s : State) (own : Bool) (c : AdmCmd) : State :=
  match firstBadItem s true [] 0 c.items with
  | some (i, r) => s.admEnd own 0x48 r 0 0 i
  | none => ((c.items.foldl (fun t x => t.applyItem x) s).applyEvm c.items).admEnd own 0 0 c.items.length 0 0

/-- EVM_UPDATE. -/
def State.beginEvm (s : State) (own : Bool) (c : AdmCmd) : State := s.withList own c State.evmItems

/-- The existing queues that items name and this member homes. -/
def itemQueues (s : State) (xs : List (W64 × W64)) : List Nat :=
  (((xs.filter (fun x => decide (itemSpace x = 2))).map (fun x => itemAddr x % 2 ^ 22)).filter
    (fun q => s.queues.contains q && !homedAway s q)).dedup

/-- The instances that items name. -/
def itemInsts (xs : List (W64 × W64)) : List Nat := (xs.filter (fun x => decide (itemSpace x = 1))).map (fun x => itemAddr x / 16)

/-- The clusters that an item affects (09 R302). -/
def itemClusters (s : State) (x : W64 × W64) : List Nat :=
  let sp := itemSpace x
  if sp = 2 then
    let q := itemAddr x % 2 ^ 22
    let home := match ctxOf s q with | some c => c.home.toNat | none => 0
    let at0 := if outOfService s home then (adopterOf s home).toList else [home, partnerOf home]
    at0 ++ (chans s q).map (·.clu)
  else if sp = 1 then servingClusters s
  else if sp = 0 then
    match itemReg x with
    | some (r, i) => if r.clustered then [i] else servingClusters s
    | none => []
  else []

/-- The affected clusters as they stand now: one that went out of service is replaced by its adopter (09 R302). -/
def heldClusters (s : State) (c : AdmCmd) : List Nat :=
  c.clusters.map (fun n => if outOfService s n then (adopterOf s n).getD n else n)

/-- A command would issue an access. -/
def issues (s : State) (o : Out) : Bool := match o with | .next t => decide (s.nextAid < t.nextAid) | _ => false

/-- A cluster is quiet: none of its slots has a request that Prism could issue (09 R304). -/
def clusterQuiet (s : State) (n : Nat) : Bool :=
  s.slots.all (fun x => decide (x.clu ≠ n) ||
    !(issues s (execReadRequestIssue n x.idx false [] s) || issues s (execReadRequestIssue n x.idx true [] s) ||
      issues s (execWriteRequestIssue n x.idx [] s)))

/-- A quiet point of a COMMIT (09 R304). -/
def quietNow (s : State) (c : AdmCmd) : Bool :=
  (heldClusters s c).all (clusterQuiet s) && !s.polls.any (fun p => (itemInsts c.items).contains p.iid && decide (p.active ≠ 0))

/-- A queue that an item names is still to be adopted from a fenced member (14 R443). -/
def adoptionOpen (s : State) (c : AdmCmd) : Bool :=
  c.items.any (fun x => decide (itemSpace x = 2) &&
    ((memberOf s (homeOf s (itemAddr x % 2 ^ 22))).adoptAt.isSome || s.ctxWait.contains (itemAddr x % 2 ^ 22, .adopt)))

/-- COMMIT waits for a quiet point once every context is resident (09 R303, phases 2 and 3). -/
def State.pinStep (s : State) (own : Bool) (c : AdmCmd) : State :=
  let qs := itemQueues s c.items
  match qs.filter (fun q => (ctxOf s q).isNone) with
  | [] =>
    if adoptionOpen s c then
      let d := { c with phase := .pinning }
      s.putCmd own (some d)
    else
    let d := { c with phase := .quietPoint, due := s.nomNs + commitCeilNs s,
                      clusters := (c.items.flatMap (itemClusters s)).dedup }
    qs.foldl (fun t q => t.lookup q 4) (s.putCmd own (some d))
  | missing =>
    let d := { c with phase := .pinning }
    (missing.filter (fun q => !s.ctxWait.contains (q, .admin own))).foldl (fun t q => t.awaitCtx q (.admin own)) (s.putCmd own (some d))

/-- COMMIT takes effect: its contexts are pinned. -/
def State.commitPin (s : State) (own : Bool) (c : AdmCmd) : State :=
  let qs := itemQueues s c.items
  ({ s with commitPins := s.commitPins ++ qs }).pinStep own c

/-- The pins and the mark of a COMMIT are taken back. -/
def State.unpin (s : State) (own : Bool) (c : AdmCmd) : State :=
  let s1 := ({ s with commitPins := s.commitPins.diff (itemQueues s c.items) }).pumpCtx
  if own then s1.setFld .admStageStat 0 9 1 0 else s1

/-- The clusters are held, every item is applied in order, and the hold ends (09 R303, R305 to R307). How long it lasted is
left open below its bound (R306). Where the staging area was emptied under it no item is applied (R301). -/
def State.commitApply (s : State) (own : Bool) (c : AdmCmd) (pinch : Bool) : State :=
  let items := if c.stage = 1 then [] else c.items
  let s0 := (items.foldl (fun t x => t.applyItem x) s).applyEvm items
  let s1 := (itemQueues s items).foldl (fun t q => t.addrTaken q) s0
  let s2 := s1.unpin own c
  let s3 := if own then { s2 with staged := [] } else s2
  let s4 := if own && decide (items ≠ []) then
      (s3.bump .admCommits 0 0 16 1).bump .admCommits 0 16 16 (flag pinch)
    else s3
  let hold := if c.clusters = [] then 0 else (Config.freeValue s4.freeCtr).toNat % 1793
  { s4 with freeCtr := s4.freeCtr + 1 }.admEnd own 0 (flag pinch) items.length hold 0

/-- COMMIT (09 R299, R301, R303): with DISCARD the area is emptied; else its items are checked again. -/
def State.beginCommit (s : State) (own : Bool) (c : AdmCmd) : State :=
  if cFlag c 0 then (if own then s.discardStaged else s).admEnd own 0 0 0 0 0
  else
    let xs := if own then s.staged else c.items
    match firstStale s 0 xs with
    | some (i, r) => (if own then s.discardStaged else s).admEnd own 0x48 r 0 0 i
    | none =>
      let s1 := if own then s.setFld .admStageStat 0 9 1 1 else s
      let d := { c with items := xs }
      let shared := xs.filter (fun x => decide (itemSpace x = 1) || decide (itemSpace x = 2))
      if shared = [] then s1.commitPin own d else s1.toMembers own d shared State.commitPin

/-- The COMMIT that waits for a quiet point. -/
def commitWaiting (s : State) (own : Bool) : Option AdmCmd :=
  match cmdOf s own with
  | some c => if decide (c.phase = .quietPoint) && admRuns s then some c else none
  | none => none

/-- QUIET_POINT (09 R303, R304). -/
def execQuietPoint (s : State) : Out :=
  let ready := fun (own : Bool) => (commitWaiting s own).filter (quietNow s)
  match ready true with
  | some c => .next (s.commitApply true c false)
  | none =>
    match ready false with
    | some c => .next (s.commitApply false c false)
    | none => .next s

/-- COMMIT_CEIL (09 R303): the affected clusters are held by a pinch. -/
def execCommitCeil (s : State) : Out :=
  let ready := fun (own : Bool) => (commitWaiting s own).filter (fun c => decide (c.due ≤ s.nomNs))
  match ready true with
  | some c => .next (s.commitApply true c true)
  | none =>
    match ready false with
    | some c => .next (s.commitApply false c true)
    | none => .next s

/-! Dirty log, timebase, REST, telemetry. -/

/-- START_DIRTY_LOG (10 R345). -/
def State.beginLog (s : State) (own : Bool) (c : AdmCmd) : State :=
  let iid := cIid c
  if s.instState iid = 0 then s.admRefuse own 0x40 0
  else if logOn s iid then s.admRefuse own 0x43 0x21
  else
    let base := (wd c.words 2).toNat
    let w13 : W32 := (pack [(0, 3, s.instState iid), (3, 1, 1), (4, 1, bits (wd c.words 1) 12 1), (5, 5, bits (wd c.words 3) 0 5),
      (12, 20, base / 4096)]).setWidth 32
    let s1 := ((s.setInst iid 13 w13).setInst iid 14 (BitVec.ofNat 32 (base / 2 ^ 32))).setInst iid 15 0
    let s2 := s1.setFld .insStat 0 13 13 (s1.fld .insStat 0 13 13 + 1)
    { s2 with dirtyPrev := assocDel (assocDel s2.dirtyPrev (2 * iid)) (2 * iid + 1),
              dirtyFilter := s2.dirtyFilter.filter (fun k => k.iid != iid) }.admEnd own 0 0 0 0 0

/-- HARVEST_DIRTY_LOG and STOP_DIRTY_LOG (10 R344, R345). -/
def State.beginHarvest (s : State) (own : Bool) (c : AdmCmd) : State :=
  let iid := cIid c
  if s.instState iid = 0 then s.admRefuse own 0x40 0
  else if !logOn s iid then s.admRefuse own 0x43 0x20
  else
    let d := { c with phase := .waiting, stage := 0 }
    (s.putCmd own (some d)).harvestStep own d 6

/-- SET_TIMEBASE (13 R395, R396). -/
def State.setTimebase (s : State) (own : Bool) (c : AdmCmd) : State :=
  let v := wd c.words 1
  let s1 := if cFlag c 0 then s.tbLoad v else if cFlag c 1 then s.tbAdd v else s
  let s2 := if cFlag c 2 then s1.tbRate ((wd c.words 2).setWidth 32) else s1
  s2.admEnd own 0 0 s2.timebase.toNat 0 0

/-- REST (15 R470): it waits for the idle condition from here on. -/
def State.beginRest (s : State) (own : Bool) (c : AdmCmd) : State :=
  if s.mode ≠ .run then s.admRefuse own 0x43 (0x40 + s.mode.code)
  else
    let d := { c with phase := .waiting, due := s.nomNs + 1000 * bits (wd c.words 1) 0 22 }
    ({ (s.putCmd own (some d)) with idleSince := none }).trackIdle

/-- READ_TELEMETRY takes its copy and writes the payload (13 R412, R414). -/
def State.readCopy (s : State) (own : Bool) (c : AdmCmd) (q : Option QCtx) : State :=
  let dest := (wd c.words 1).toNat
  match s.takeCopy (bits (wd c.words 2) 12 4) (bits (wd c.words 2) 0 12) (bits (wd c.words 3) 0 22) q false with
  | (s1, ls, h) =>
    let d := { c with phase := .copying ls.length (some (dest, h)), w1 := BitVec.ofNat 64 (64 * (ls.length + 1)) }
    (ls.zipIdx).foldl (fun t l => t.service (admAccess t (.admCopy false) true ((dest + 64 + 64 * l.2) % 2 ^ 64) 64 (bytesOfWords l.1)))
      (s1.putCmd own (some d))

/-- READ_TELEMETRY. -/
def State.beginTelemetry (s : State) (own : Bool) (c : AdmCmd) : State :=
  let set := bits (wd c.words 2) 12 4
  let iid := bits (wd c.words 2) 0 12
  let qid := bits (wd c.words 3) 0 22
  if set = 2 then s.readCopy own c none
  else if s.instState iid = 0 then s.admRefuse own 0x40 0
  else if set ≠ 3 then s.readCopy own c none
  else if !(instQueues s iid).contains qid || homedAway s qid then s.admRefuse own 0x41 0
  else s.needQueue own c qid (fun t q => t.readCopy own c (some q))

/-- A line of READ_TELEMETRY's copy is answered: the header follows the last payload line, and its answer ends the command. -/
def State.copyAnswered (s : State) (header : Bool) : State :=
  match s.adm.cmd with
  | none => s
  | some c =>
    match c.phase with
    | .copying left h =>
      if header then s.admEnd true 0 0 c.w1.toNat 0 0
      else if 1 < left then s.putCmd true (some { c with phase := .copying (left - 1) h })
      else
        match h with
        | some (dest, ws) =>
          (s.putCmd true (some { c with phase := .copying 0 none })).service
            (admAccess s (.admCopy true) true dest 64 (bytesOfWords ws))
        | none => s
    | _ => s

/-! The rows. -/

/-- CREATE_INSTANCE (10 R315). -/
def execCreateInstance (s : State) : Out := beginCmd 0x80 State.beginCreateInst s
/-- MODIFY_INSTANCE (10 R314). -/
def execModifyInstance (s : State) : Out := beginCmd 0x81 State.beginModifyInst s
/-- QUIESCE_INSTANCE (10 R322). -/
def execQuiesceInstance (s : State) : Out := beginCmd 0x82 State.beginQuiesce s
/-- DRAIN_OR_SQUASH (10 R329). -/
def execDrainOrSquash (s : State) : Out := beginCmd 0x83 State.beginSquash s
/-- RESET_INSTANCE (10 R333). -/
def execResetInstance (s : State) : Out := beginCmd 0x84 State.beginClose s
/-- DESTROY_INSTANCE (10 R333). -/
def execDestroyInstance (s : State) : Out := beginCmd 0x85 State.beginClose s
/-- A CREATE_QUEUE that waits for a way of its set. -/
def createWaits (s : State) (own : Bool) : Option AdmCmd :=
  (cmdOf s own).filter (fun c => decide (c.phase = .context) && decide (cOp c = 0x88) && admRuns s)

/-- CREATE_QUEUE (09 R292): it begins, or takes a way of its set that has become free (01 R20). -/
def execCreateQueue (s : State) : Out :=
  match createWaits s true with
  | some c => .next (s.createQueue true c)
  | none => beginCmd 0x88 State.beginCreateQueue s
/-- MODIFY_QUEUE (09 R294). -/
def execModifyQueue (s : State) : Out := beginCmd 0x89 State.beginModifyQueue s
/-- DESTROY_QUEUE (09 R292). -/
def execDestroyQueue (s : State) : Out := beginCmd 0x8A State.beginDestroyQueue s
/-- MOVE_QUEUE (02 R79). -/
def execMoveQueue (s : State) : Out := beginCmd 0x8B State.beginMoveQueue s
/-- STAGE (09 R295). -/
def execStage (s : State) : Out := beginCmd 0x90 State.beginStage s
/-- COMMIT (09 R303). -/
def execCommit (s : State) : Out := beginCmd 0x91 State.beginCommit s
/-- START_DIRTY_LOG (10 R345). -/
def execStartDirtyLog (s : State) : Out := beginCmd 0x98 State.beginLog s
/-- HARVEST_DIRTY_LOG (10 R344). -/
def execHarvestDirtyLog (s : State) : Out := beginCmd 0x99 State.beginHarvest s
/-- STOP_DIRTY_LOG (10 R345). -/
def execStopDirtyLog (s : State) : Out := beginCmd 0x9A State.beginHarvest s
/-- EVM_UPDATE (09 R310). -/
def execEvmUpdate (s : State) : Out := beginCmd 0xA0 State.beginEvm s
/-- SET_TIMEBASE (13 R395). -/
def execSetTimebase (s : State) : Out := beginCmd 0xA8 State.setTimebase s
/-- REST (15 R470). -/
def execRest (s : State) : Out := beginCmd 0xB8 State.beginRest s
/-- READ_TELEMETRY (13 R414). -/
def execReadTelemetry (s : State) : Out := beginCmd 0xB9 State.beginTelemetry s

/-! Going on. -/

/-- The image or list of the command in progress is whole. -/
def State.listRead (s : State) (c : AdmCmd) (bs : List Byte) : State :=
  let d := { c with image := if cOp c < 0x90 then wordsOfBytes bs else [], items := if cOp c < 0x90 then [] else itemsOf bs }
  let s1 := s.putCmd true (some d)
  if cOp c = 0x80 then s1.createInstImage true d
  else if cOp c = 0x81 then s1.modifyInstImage true d
  else if cOp c = 0x90 then s1.stageItems true d
  else s1.evmItems true d

/-- IMAGE_READ_RESPONSE (09 R291): the next piece is read, or the command goes on; a non-retryable error ends it with
MEM_FAULT. -/
def execImageReadResponse (aid : Nat) (ans : Answer) (s : State) : Out :=
  match s.access aid with
  | none => .next s
  | some a =>
    match a.purpose with
    | .admImage _ =>
      if s.fatal then .next s
      else
        let code := codeSeen ans.code
        if code ≠ 0 && !codeRetryable code then
          .next (((s.readEnds a ans).drainHeld).admEnd true 0x49 code.toNat 0 0 a.addr)
        else
          .next (s.admRead a ans (fun t bs =>
            match t.adm.cmd with
            | none => t
            | some c =>
              match c.phase with
              | .image got =>
                let all := got ++ bs
                if (listRange c).2 ≤ all.length then t.listRead c all
                else (t.putCmd true (some { c with phase := .image all })).readPiece c all.length
              | _ => t))
    | _ => .next s

/-- The command in progress goes on once the context it waits for is resident. -/
def State.admContext (s : State) (own : Bool) : State :=
  match cmdOf s own with
  | none => s
  | some c =>
    if c.phase = .pinning then s.pinStep own c
    else if c.phase ≠ .context then s
    else
      let d := { c with phase := .proofed }
      let s1 := s.putCmd own (some d)
      if cOp c = 0x88 then s1.createQueue own d
      else if cOp c = 0x89 then s1.beginModifyQueue own d
      else if cOp c = 0x8A then s1.beginDestroyQueue own d
      else if cOp c = 0x8B then s1.beginMoveQueue own d
      else if cOp c = 0xB9 then s1.beginTelemetry own d
      else s1

/-- Every other member has answered: the command takes effect here, or ends (14 R423). -/
def State.afterMembers (s : State) (own : Bool) (c : AdmCmd) : State :=
  if c.phase ≠ .members then s
  else if c.bad.isSome then
    (if cOp c = 0x91 then (s.unpin own { c with items := [] }).discardStaged
     else if cOp c = 0x84 ∨ cOp c = 0x85 then s.setInstFld (cIid c) 13 0 3 (c.stage - 16) else s).admEnd own 0 0 0 0 0
  else if cOp c = 0x80 then s.createInst own c
  else if cOp c = 0x81 then s.modifyInst own c
  else if cOp c = 0x82 then (if cFlag c 0 then s.releaseInst own c else s.quiesceInst own c)
  else if cOp c = 0x83 then s.squashInst own c
  else if cOp c = 0x84 ∨ cOp c = 0x85 then s.closeInst own c
  else if cOp c = 0x88 then s.createQueue own c
  else if cOp c = 0x89 then s.modifyQueue own c
  else if cOp c = 0x8A then s.destroyQueue own c
  else if cOp c = 0x8B then s.moveQueue own c
  else if cOp c = 0x91 then s.commitPin own c
  else s

/-- Member m's answer to this member's command: its STATUS and DETAIL; none where the member was fenced (14 R443). -/
def State.memberAnswered (s : State) (m : Nat) (r : Option (Nat × Nat)) : State :=
  match s.adm.cmd with
  | none => s
  | some c =>
    if !c.acks.contains m then s
    else
      let worse := match r, c.bad with
        | some (st, de), some b => if st ≠ 0 ∧ m < b.1 then some (m, st, de) else c.bad
        | some (st, de), none => if st ≠ 0 then some (m, st, de) else none
        | none, b => b
      let d := { c with acks := c.acks.filter (· != m), bad := worse }
      let s1 := s.putCmd true (some d)
      if d.acks = [] then s1.afterMembers true d else s1

end Sys2Proof.Machine
end

