-- ==== Sys2Proof/Machine/Instances.lean ====
section
/-! DEFINITION. What ends a quiesce and a drain (10 R323, R328; 09 R293; 02 R79, R565), and the end of FED_LEAVE (14 R442). -/

namespace Sys2Proof.Machine

/-! The end of a leave. -/

/-- A HEARTBEAT frame on link k (14 R434, R446). -/
def State.heartbeatOn (s : State) (k : Nat) : State :=
  match (linkOf s k).far with
  | none => s
  | some m =>
    s.sendFrame k 3 m false (ownMember s)
      [(72, 4, memberMask ((members s).filter (fun j => decide (j ≠ ownMember s) && heardDirect s j))), (76, 4, memberMask (members s)),
       (80, 3, fedState s), (96, 32, s.fed.witnessCnt), (128, 64, s.fed.hash.toNat)] []

/-- A HEARTBEAT frame on every link that is up. -/
def State.heartbeats (s : State) : State :=
  (List.range 3).foldl (fun t k => if lstate t k = 2 then t.heartbeatOn k else t) s

/-- The own FED_LEAVE that waits. -/
def leaveCmd (s : State) : Option AdmCmd := s.adm.cmd.filter (fun c => decide (cOp c = 0xB1) && decide (c.phase = .waiting))

/-- A leaving member whose last queue is moved: the epoch increases, the member is ALONE, and the others hear so (14 R442). -/
def State.leaveCheck (s : State) : State :=
  if fedState s = 5 ∧ s.fed.leaving = [] then
    let s1 := (s.wr .fedEpoch 0 (s.rd .fedEpoch 0 + 1)).setFedState 0
    let s2 := (s1.heartbeats).setMembers 0
    if (leaveCmd s).isSome then s2.admEnd true 0 0 0 0 0 else s2
  else s

/-- A drained queue whose error was latched meanwhile enters ERROR with it (02 R565). -/
def State.takeLatched (s : State) (qid : Nat) (c : QCtx) : State :=
  (({ s with overrun := s.overrun.filter (· != qid) }).setCtx qid { c with state := c.prior }).enterError qid c.errIndex
    c.errCause.toNat c.errChainPos.toNat 18 63 0

/-- A drained queue of a leaving member goes to a survivor: its home changes, and its context is written back and let go
(14 R422, R437, R442). An error latched meanwhile goes with it. -/
def State.handOver (s0 : State) (qid : Nat) (c0 : QCtx) : State :=
  let latched := s0.overrun.contains qid
  let s := if latched then s0.takeLatched qid { c0 with drainTo := 0 } else s0
  let c := if latched then (ctxOf s qid).getD c0 else c0
  let ms := (members s).filter (fun m => m ≠ ownMember s)
  let m := ms.getD (qid % max 1 ms.length) (ownMember s)
  let st := if latched then qError else if c.prior = qPaused then qPaused else if c.prior = qError then qError else restState c
  let s1 := s.setCtx qid { c with state := st, homeMember := BitVec.ofNat 2 m }
  let s2 := match wayOf s1 qid with | some w => s1.writeBack w | none => s1
  let s3 := ((s2.flipHash qid (ownMember s)).flipHash qid m).forgetReady qid
  ({ s3 with ways := s3.ways.filter (fun w => w.qid != qid), overrun := s3.overrun.filter (· != qid),
             fed := { s3.fed with owners := assocPut s3.fed.owners qid m, leaving := s3.fed.leaving.filter (· != qid) } }).leaveCheck

/-- A queue that this member yields, with nothing of it in flight, is dropped: another member has it, and YIELDS counts it (14
R429). -/
def State.yieldDone (s : State) (qid m : Nat) : State :=
  let s1 := ((s.flipHash qid (ownMember s)).flipHash qid m).forgetReady qid
  (({ s1 with
      ways := s1.ways.filter (fun w => w.qid != qid), overrun := s1.overrun.filter (· != qid), lastSlots := assocDel s1.lastSlots qid,
      ctxWait := s1.ctxWait.filter (fun w => w.1 != qid), ctxRetry := assocDel s1.ctxRetry qid, ctxWb := assocDel s1.ctxWb qid,
      fed := { s1.fed with owners := assocPut s1.fed.owners qid m, yielding := assocDel s1.fed.yielding qid,
                           leaving := s1.fed.leaving.filter (· != qid) } }).bump .fedStat 0 16 8 1).leaveCheck

/-! Drains. -/

/-- A command in progress that waits for queue `qid` to leave DRAINING ends OK. -/
def State.drainDone (s : State) (own : Bool) (qid : Nat) : State :=
  match cmdOf s own with
  | none => s
  | some c =>
    if decide (c.phase = .waiting) && decide (0x89 ≤ cOp c) && decide (cOp c ≤ 0x8B) && decide (cQid c = qid) then
      s.admEnd own 0 0 0 0 0
    else s

/-- Nothing of a DRAINING queue is in flight (02 R79, R565): it is PAUSED, ABSENT, or in its prior state on its new home; an
overrun latched meanwhile puts it into ERROR instead. -/
def State.drainTo (s : State) (qid : Nat) (c : QCtx) : State :=
  if c.drainTo = 1 then
    let s1 := s.dropQueue qid
    { s1 with fed := { s1.fed with leaving := s1.fed.leaving.filter (· != qid), yielding := assocDel s1.fed.yielding qid } }.leaveCheck
  else if c.drainTo = 2 ∧ (assocGet s.fed.yielding qid).isSome then s.yieldDone qid ((assocGet s.fed.yielding qid).getD 0)
  else if c.drainTo = 2 ∧ s.fed.leaving.contains qid = true then s.handOver qid c
  else
    let moved := decide (c.drainTo = 2)
    let c1 := { c with home := if moved then c.newHome else c.home, drainTo := 0 }
    let s1 := { s with overrun := s.overrun.filter (· != qid) }
    if s.overrun.contains qid then s.takeLatched qid c1
    else if !moved then s1.setCtx qid { c1 with state := qPaused }
    else if c.prior = qPaused then s1.setCtx qid { c1 with state := qPaused }
    else if 2 ≤ s.instState c.iid.toNat then s1.setCtx qid { c1 with state := qPaused, byQuiesce := 1 }
    else ((s1.setCtx qid { c1 with state := restState c1 }).markReady qid).idleNotice qid

/-- QUEUE_DRAIN_END (02 R565). -/
def execQueueDrainEnd (qid : Nat) (s : State) : Out :=
  if 2 ^ 22 ≤ qid then .fault .noSuchUnit
  else
    match ctxOf s qid with
    | none => .next s
    | some c =>
      if admRuns s && ctxOn s && decide (c.state = qDraining) && drained s qid c then
        .next ((((s.drainTo qid c).drainDone true qid).drainDone false qid).admCheck)
      else .next s

/-! Instances. -/

/-- The instance is quiet (10 R323): no queue of it is IDLE, ACTIVE or DRAINING, and no channel runs or parks for it. -/
def instQuiet (s : State) (iid : Nat) : Bool :=
  let qs := instQueues s iid
  let busy := fun (w : Way) => decide (w.ctx.state = qIdle) || decide (w.ctx.state = qActive) || decide (w.ctx.state = qDraining)
  !instRuns s iid && !instRecords s iid && !s.ctxWait.any (fun w => decide (w.2 = .quiesce) && qs.contains w.1) &&
  !s.ways.any (fun w => qs.contains w.qid && busy w)

/-- The QUIESCE_INSTANCE in progress on an instance that waits for quiet. -/
def quiesceCmd (s : State) (own : Bool) (iid : Nat) : Option AdmCmd :=
  (cmdOf s own).filter (fun c => decide (c.phase = .waiting) && decide (cOp c = 0x82) && !cFlag c 0 && decide (cIid c = iid))

/-- INSTANCE_QUIET (10 R323). -/
def execInstanceQuiet (iid : Nat) (s : State) : Out :=
  if 4096 ≤ iid then .fault .noSuchUnit
  else if admRuns s && decide (s.instState iid = 2) && instQuiet s iid then
    let one := fun (t : State) (own : Bool) =>
      if (quiesceCmd t own iid).isSome then t.admEnd own 0 0 (instInFlight s iid) 0 0 else t
    .next (one (one (s.setInstFld iid 13 0 3 3) true) false)
  else .next s

/-- A command that QUIESCE_CEIL bounds (09 R293): a quiesce or its end, a pause, a destroy, a move. -/
def ceilBounds (c : AdmCmd) : Bool :=
  decide (cOp c = 0x82) || (decide (cOp c = 0x89) && decide (bits (wd c.words 1) 28 2 = 1)) || decide (cOp c = 0x8A) ||
  decide (cOp c = 0x8B)

/-- The command in progress that QUIESCE_CEIL bounds and that has reached it. It may wait for events, for its queue's context or
for the other members; one that has begun no change leaves none behind (09 R284; DESIGN CHOICE, log entry 45). -/
def ceilCmd (s : State) (own : Bool) : Option AdmCmd :=
  (cmdOf s own).filter (fun c => (decide (c.phase = .waiting) || decide (c.phase = .context) || decide (c.phase = .members)) &&
    decide (c.due ≤ s.nomNs) && ceilBounds c)

/-- QUIESCE_TIMEOUT (09 R293, 10 R328): the command ends with TIMEOUT, and the change that it began goes on. -/
def execQuiesceTimeout (s : State) : Out :=
  let w1 := fun (c : AdmCmd) => if cOp c = 0x82 then instInFlight s (cIid c) else 0
  if !admRuns s then .next s
  else
    match ceilCmd s true with
    | some c => .next (s.admEnd true 0x46 0 (w1 c) 0 0)
    | none =>
      match ceilCmd s false with
      | some c => .next (s.admEnd false 0x46 0 (w1 c) 0 0)
      | none => .next s

end Sys2Proof.Machine
end

