-- ==== Sys2Proof/Machine/Fed.lean ====
section
/-! DEFINITION. The federation (14): links and their training, joining and leaving, heartbeats, time, federated commands from
other members, fences and adoption. -/

namespace Sys2Proof.Machine

/-! Values. -/

/-- JOIN_CEIL in ns. -/
def joinCeilNs (s : State) : Nat := 1000000 * clamp 1 1000 (s.fld .fedCtl 0 1 10)

/-- The own FED_JOIN that waits. -/
def joinCmd (s : State) : Option AdmCmd := s.adm.cmd.filter (fun c => decide (cOp c = 0xB0) && decide (c.phase = .waiting))

/-- SRC of a frame. -/
def frameSrc (f : RawFrame) : Nat := bits f.header 32 2

/-- The member at the far end of a link is learned from a frame that was not relayed. -/
def State.learnFar (s : State) (k : Nat) (f : RawFrame) : State :=
  if bit f.header 36 then s else s.putLink { linkOf s k with far := some (frameSrc f) }

/-- The ownership hash over every existing queue (14 R430). -/
def ownerHash (s : State) : W64 := s.queues.foldl (fun h q => h ^^^ hashTerm q (homeOf s q)) 0

/-! Manifests (14 R426 to R428). -/

/-- Words 0 to 15 of the member's own manifest. -/
def manifestWords (s : State) : List W32 :=
  let off := s.fed.offset.toNat
  let h := s.fed.hash.toNat
  let heard := memberMask ((members s).filter (fun j => decide (j ≠ ownMember s) && heardDirect s j))
  [ BitVec.ofNat 32 (s.fld .glbId 0 16 16 + 2 ^ 16 * ownMember s), s.rd .fedEpoch 0, BitVec.ofNat 32 off, BitVec.ofNat 32 (off / 2 ^ 32),
    BitVec.ofNat 32 h, BitVec.ofNat 32 (h / 2 ^ 32), BitVec.ofNat 32 (heard + 16 * memberMask (members s)) ] ++ List.replicate 9 0

/-- Manifest words in two payload beats (14 R446). -/
def manifestBeats (ws : List W32) : List (BitVec 256) :=
  (chunksOf 8 3 ws).map (fun c => BitVec.ofNat 256 (leNat (c.flatMap (fun w => leBytes 4 w.toNat))))

/-- The own manifest leaves on link k for member dst. -/
def State.sendManifest (s : State) (k dst : Nat) : State := s.sendFrame k 2 dst false (ownMember s) [] (manifestBeats (manifestWords s))

/-- A joiner's manifest leaves on link k; where the far member's number is not known its DST is the joiner's own (DESIGN CHOICE, log
entry 38). -/
def State.joinManifest (s : State) (k : Nat) : State := s.sendManifest k ((linkOf s k).far.getD (ownMember s))

/-- IS7 word 16m + w (14 R428): of the member's own manifest as it is now, else of the last one received from member m. -/
def is7Word (s : State) (m w : Nat) : W32 := if m = ownMember s then (manifestWords s).getD w 0 else s.is7.get (16 * m + w)

/-- Word w of the last manifest of member m. -/
def manifestWord (s : State) (m w : Nat) : Nat := (s.is7.get (16 * m + w)).toNat

/-- The members in service as the manifests received show them. -/
def joinMask (s : State) : List Nat :=
  (List.range 4).filter (fun m => s.fed.joinSeen.any (fun j => manifestWord s j 6 / 2 ^ (4 + m) % 2 = 1))

/-- The federation's epoch as the manifests received show it. -/
def joinEpoch (s : State) : Nat := s.fed.joinSeen.foldl (fun e j => max e (manifestWord s j 1)) 0

/-- The first reason of R427 for which the join is refused; 0 none. -/
def joinRefusal (s : State) (member : Nat) : Nat :=
  if s.fed.joinSeen.any (fun j => manifestWord s j 0 / 2 ^ 8 % 2 ^ 8 ≠ s.fld .glbId 0 24 8) then 1
  else if s.fed.joinGroups ≠ [] then 2
  else if (joinMask s).contains member || s.fed.joinSeen.contains member then 3
  else if joinEpoch s < fedEpoch s then 4
  else 0

/-- Queue `qid` is homed on member n from now on; this member fetches the context of one that comes to it (14 R429, R442). -/
def State.giveOwner (s : State) (qid n : Nat) : State :=
  let s1 := (s.flipHash qid (homeOf s qid)).flipHash qid n
  let s2 := { s1 with fed := { s1.fed with owners := assocPut s1.fed.owners qid n } }
  if n = ownMember s then s2.awaitCtx qid .ready else s2

/-- A queue that this member did not know of is homed on member n. -/
def State.newOwner (s : State) (qid n : Nat) : State :=
  if s.queues.contains qid then s
  else
    let s1 := ({ s with queues := qid :: s.queues, fed := { s.fed with owners := assocPut s.fed.owners qid n } }).flipHash qid n
    if n = ownMember s then s1.awaitCtx qid .ready else s1

/-- The ownership table that the members gave is the joiner's (14 R426, step 5). -/
def State.takeTable (s : State) : State :=
  s.fed.joinTable.foldl (fun t e =>
    if !t.queues.contains e.1 then t.newOwner e.1 e.2
    else if homeOf t e.1 = e.2 then t
    else
      let u := t.giveOwner e.1 e.2
      if e.2 = ownMember t then u else { u with ways := u.ways.filter (fun w => w.qid != e.1) }) s

/-- A join ends without the member joining. -/
def State.joinFail (s : State) (status reason : Nat) : State := (s.setFedState 0).admEnd true status reason 0 0 0

/-- The joiner has the manifest of every member in service (14 R426, steps 3 and 5): it is refused, a MEMBER, or HELD. -/
def State.joinStep (s : State) : State :=
  match joinCmd s with
  | none => s
  | some _ =>
    let ms := joinMask s
    if s.fed.joinSeen = [] ∨ !(ms.all (fun m => s.fed.joinSeen.contains m)) then s
    else
      let r := joinRefusal s (ownMember s)
      if r ≠ 0 then s.joinFail 0x4A r
      else
        let e := joinEpoch s
        let held := decide (fedEpoch s ≠ 0) && decide (fedEpoch s < e)
        let top := (s.fed.joinSeen.find? (fun j => decide (manifestWord s j 1 = e))).getD 0
        let s1 := (s.setMembers (memberMask ms)).takeTable
        let s2 := { s1 with fed := { s1.fed with hash := BitVec.ofNat 64 (manifestWord s top 4 + 2 ^ 32 * manifestWord s top 5) } }
        let s3 := s2.wr .fedEpoch 0 (BitVec.ofNat 32 e)
        let s4 := if held then
            ({ s3 with fed := { s3.fed with nextHb := s3.nomNs, witnessAck := s3.nomNs, fenced := false } }).setFedState 3
          else s3.enterMember
        s4.admEnd true 0 0 0 0 0

/-- A member answers a joiner, member `joiner` behind link k, with its own manifest and those of the other members. -/
def State.answerJoiner (s : State) (k joiner : Nat) : State :=
  let others := (members s).filter (fun m => decide (m ≠ ownMember s) && (memberOf s m).manifest)
  let relay := fun (t : State) (m : Nat) =>
    t.sendFrame k 2 joiner true m [(40, 32, manifestWord t m 1)] (manifestBeats ((List.range 16).map (fun w => t.is7.get (16 * m + w))))
  others.foldl relay (s.sendManifest k joiner)

/-- The joiners that waited for the end of a FENCE in progress are answered once no member is found silent any more (14 R443). -/
def State.answerWaiting (s : State) : State :=
  if s.fed.joinWait = [] || silentMembers s ≠ [] || (decide (fedState s ≠ 2) && decide (fedState s ≠ 5)) then s
  else s.fed.joinWait.foldl (fun t w => t.answerJoiner w.1 w.2) { s with fed := { s.fed with joinWait := [] } }

/-- MANIFEST (14 R426 to R428): its words are stored, a member answers a joiner's, and a join goes on. A join during a fence waits until
FENCE is applied (R443). That a manifest shows its sender's group is the model's (log entry 38). -/
def execManifest (k : Nat) (raw : RawFrame) (s : State) : Out :=
  if 3 ≤ k then .fault .noSuchUnit
  else
    let f := fixedFrame raw
    match s.rxFrame k 2 raw with
    | (s1, false) => .next s1
    | (s1, true) =>
      let src := frameSrc f
      let ws := (f.payload.flatMap (fun b => (List.range 8).map (fun i => BitVec.ofNat 32 (bits b (32 * i) 32)))).take 16
      let s2 := { (s1.learnFar k f) with is7 := s1.is7.putAll (16 * src) ws }
      let s3 := s2.putMember { memberOf s2 src with manifest := true }
      let inService := decide (bits (ws.getD 6 0) (4 + src) 1 = 1)
      if fedState s3 = 1 then
        let other := match raw.group with | some g => decide (g.toNat ≠ s3.fld .fedId 0 0 16) | none => false
        if inService then
          .next ({ s3 with fed := { s3.fed with
            joinSeen := src :: s3.fed.joinSeen.filter (· != src),
            joinGroups := if other then src :: s3.fed.joinGroups.filter (· != src) else s3.fed.joinGroups.filter (· != src),
            joinTable := if raw.owners = [] then s3.fed.joinTable else raw.owners } }).joinStep
        else .next s3
      else if (fedState s3 = 2 ∨ fedState s3 = 5) ∧ !inService ∧ !bit f.header 36 then
        .next ({ s3 with fed := { s3.fed with joinWait := s3.fed.joinWait.filter (· != (k, src)) ++ [(k, src)] } }).answerWaiting
      else .next s3

/-- FED_JOIN (14 R426): links train, and the manifest goes out on each trained one. -/
def State.beginJoin (s : State) (own : Bool) (c : AdmCmd) : State :=
  let st := fedState s
  if st ≠ 0 ∧ st ≠ 4 then s.admRefuse own 0x43 (0x30 + st)
  else
    let w1 := wd c.words 1
    let d := { c with phase := .waiting, due := s.nomNs + joinCeilNs s }
    let s1 := ((s.putCmd own (some d)).setFld .fedStat 0 0 2 (bits w1 0 2)).setMembers 0
    let s2 := { (s1.setFedState 1) with fed := { s1.fed with joinSeen := [], joinGroups := [], joinTable := [], leaving := [], config := [] } }
    (List.range 3).foldl (fun t k => if bit w1 (4 + k) && decide (lstate t k = 2) then t.joinManifest k else t) s2

/-- FED_LEAVE (14 R442): every queue homed here drains toward a survivor. -/
def State.leaveQueue (s : State) (qid : Nat) : State :=
  match ctxOf s qid with
  | none => s
  | some c =>
    if c.state = qDraining then
      if c.drainTo = 1 then s
      else s.setCtx qid { c with drainTo := 2, prior := if c.drainTo = 0 then qPaused else c.prior }
    else s.startDrain qid 2 (decide (c.byQuiesce = 1))

/-- FED_LEAVE. -/
def State.beginLeave (s : State) (own : Bool) (c : AdmCmd) : State :=
  if fedState s ≠ 2 ∨ s.mode ≠ .run then s.admRefuse own 0x43 (0x30 + fedState s)
  else
    let d := { c with phase := .waiting, due := s.nomNs + joinCeilNs s }
    let mine := if (members s).any (fun m => decide (m ≠ ownMember s)) then s.queues.filter (fun q => !homedAway s q) else []
    let s1 := (s.putCmd own (some d)).setFedState 5
    let s2 := { s1 with fed := { s1.fed with leaving := mine } }
    (mine.foldl (fun t q => if (ctxOf t q).isSome then t.leaveQueue q else t.awaitCtx q .leave) s2).leaveCheck

/-- FED_JOIN (14 R426). -/
def execFedJoin (s : State) : Out := beginCmd 0xB0 State.beginJoin s
/-- FED_LEAVE (14 R442). -/
def execFedLeave (s : State) : Out := beginCmd 0xB1 State.beginLeave s

/-- JOIN_CEIL (14 R426, R427, R442): with no member reachable a founder founds; else the command ends. -/
def execJoinCeil (s : State) : Out :=
  if !admRuns s then .next s
  else
    match joinCmd s, leaveCmd s with
    | some c, _ =>
      if s.nomNs < c.due then .next s
      else
        let w1 := wd c.words 1
        let none' := s.fed.joinSeen = []
        if none' ∧ bit (s.rd .fedCtl 0) 0 then
          let s1 := s.wr .fedEpoch 0 1
          let s2 := { s1 with fed := { s1.fed with owners := [] } }
          let s3 := { s2 with fed := { s2.fed with hash := ownerHash s2 } }
          .next ((s3.enterMember).admEnd true 0 0 0 0 0)
        else if (List.range 3).all (fun k => !bit w1 (4 + k) || decide (lstate s k ≠ 2)) then .next (s.joinFail 0x4A 5)
        else .next (s.joinFail 0x46 0)
    | none, some c => if s.nomNs < c.due then .next s else .next (s.admEnd true 0x46 0 0 0 0)
    | none, none => .next s

/-! Links (14 R444 to R448; 18 R536; 19 R559). -/

/-- Link k is trained; a joiner sends its manifest on it. -/
def State.linkUp (s : State) (k : Nat) : State :=
  let s1 := s.linkTrained k
  match joinCmd s1 with
  | some c => if bit (wd c.words 1) (4 + k) then s1.joinManifest k else s1
  | none => s1

/-- A TRAIN frame with RX_OK = 1 leaves on link k. -/
def State.sendTrain (s : State) (k : Nat) : State :=
  s.emitFrame k 1 ((linkOf s k).far.getD 0) false (ownMember s) [(72, 1, 1)] []

/-- TRAIN (14 R446): with RX_OK on both sides the link is trained; one that is up answers a far end that trains again. -/
def execTrain (k : Nat) (raw : RawFrame) (s : State) : Out :=
  if 3 ≤ k then .fault .noSuchUnit
  else
    let f := fixedFrame raw
    match s.rxFrame k 1 raw with
    | (s1, false) => .next s1
    | (s1, true) =>
      if !bit f.header 72 then .next s1
      else if lstate s1 k = 2 then .next (s1.sendTrain k)
      else
        let s2 := s1.putLink { linkOf s1 k with farOk := true }
        .next (if (linkOf s2 k).rxOk then s2.linkUp k else s2)

/-- RX_OK (14 R446): the receiver has counted 1,024 error-free idle beats. -/
def execRxOk (k : Nat) (s : State) : Out :=
  if 3 ≤ k then .fault .noSuchUnit
  else if s.fatal || !s.rstN || decide (lstate s k ≠ 1) || (linkOf s k).rxOk then .next s
  else
    let s1 := (s.putLink { linkOf s k with rxOk := true }).sendTrain k
    .next (if (linkOf s1 k).farOk then s1.linkUp k else s1)

/-- ACK (14 R447): frames held up to the acknowledged SEQ are released. -/
def execAck (k : Nat) (raw : RawFrame) (s : State) : Out :=
  if 3 ≤ k then .fault .noSuchUnit else .next (s.rxFrame k 9 raw).1

/-- ACK_SEND (14 R445). -/
def execAckSend (k : Nat) (s : State) : Out :=
  if 3 ≤ k then .fault .noSuchUnit
  else if !s.fatal && decide (lstate s k = 2) && (linkOf s k).ackOwed then
    .next (s.emitFrame k 9 ((linkOf s k).far.getD 0) false (ownMember s) [] [])
  else .next s

/-- The oldest unacknowledged frame of a link that is up, where RETRY_CEIL has passed. -/
def lateFrame (s : State) (k : Nat) : Option TxFrame :=
  if s.fatal || decide (lstate s k ≠ 2) then none else ((linkOf s k).unacked.head?).filter (fun t => decide (t.due ≤ s.nomNs))

/-- LINK_RETRY_CEIL (14 R447): every frame from the oldest unacknowledged one is sent again. -/
def execLinkRetryCeil (k : Nat) (s : State) : Out :=
  if 3 ≤ k then .fault .noSuchUnit
  else
    match lateFrame s k with
    | none => .next s
    | some t =>
      if 16 ≤ t.resends then .next s
      else
        let l := linkOf s k
        let l1 := { l with unacked := l.unacked.map (fun x => { x with due := s.nomNs + retryCeilNs s k, resends := x.resends + 1 }) }
        let s1 := (s.putLink l1).logErr (mkErr 0 (23 + k) 0x39 0 0 63 0 0 k (t.resends + 1))
        .next { s1 with txFrames := s1.txFrames ++ l.unacked.map (fun x => (k, sealFrame x.header x.payload)) }

/-- LINK_RESEND_LIMIT (14 R447). -/
def execLinkResendLimit (k : Nat) (s : State) : Out :=
  if 3 ≤ k then .fault .noSuchUnit
  else
    match lateFrame s k with
    | some t => if 16 ≤ t.resends then .next (s.linkDown k) else .next s
    | none => .next s

/-- LINK_IDLE_ERR_LIMIT (19 R559): 64 idle beats in error within 65,536. -/
def execLinkIdleErrLimit (k : Nat) (s : State) : Out :=
  if 3 ≤ k then .fault .noSuchUnit
  else if s.fatal || !s.rstN || decide (lstate s k ≠ 2) then .next s
  else .next ((s.bump .fedLinkStat k 16 16 (64 - (linkOf s k).idle.length)).linkDown k)

/-- LINK_RX_KIND_ZERO (18 R536). -/
def execLinkRxKindZero (k : Nat) (s : State) : Out :=
  if 3 ≤ k then .fault .noSuchUnit else if s.fatal || !s.rstN then .next s else .next (s.linkDown k)

/-! Fences and adoption (14 R435 to R438, R443). -/

/-- The longest CLU_WR_CEIL. -/
def maxWrCeilNs (s : State) : Nat := (List.range 16).foldl (fun m n => max m (wrCeilNs s n)) 0

/-- Federated commands that this member knows to be still under way at a fence: its own that waits for a member taken out, and those
that other members sent it (14 R443). -/
def unfinished (s : State) (out : List Nat) : List AdmCmd :=
  (s.adm.cmd.toList.filter (fun c => out.any (fun m => c.acks.contains m))) ++ s.fed.remote.toList ++ s.fed.inbox

/-- A fence is applied: logged for each member that it takes out, with the new epoch and list; waits for their answers end, and what
they had still to apply is kept for their queues' adoption. -/
def State.applyFence (s0 : State) (epoch : Nat) (ms out : List Nat) : State :=
  let s := { s0 with fed := { s0.fed with outstanding := s0.fed.outstanding ++ unfinished s0 out } }
  let s1 := out.foldl (fun t m =>
    (t.logErr (mkErr 3 31 0x4B 0 0 63 0 0 m epoch)).putMember
      { memberOf t m with manifest := false, silent := false, witness := none, readAt := none,
                          adoptAt := some (t.nomNs + 2 * maxWrCeilNs t) }) s
  let s2 := (s1.wr .fedEpoch 0 (BitVec.ofNat 32 epoch)).setMembers (memberMask ms)
  out.foldl (fun t m => t.memberAnswered m none) s2

/-- The fence leader fences the members that it found silent. -/
def State.fenceNow (s : State) : State :=
  let out := silentMembers s
  if decide (fenceLeader s ≠ ownMember s) || out.isEmpty || (decide (fedState s ≠ 2) && decide (fedState s ≠ 5)) then s
  else
    let ms := (members s).filter (fun m => !out.contains m)
    let e := fedEpoch s + 1
    let to' := ms.filter (fun m => decide (m ≠ ownMember s) && heardNow s m)
    (to'.foldl (fun t m => t.sendTo 8 m [(72, 32, e), (104, 4, memberMask ms), (108, 4, memberMask out)] []) s).applyFence e ms out

/-- FENCE_FRAME (14 R435): a list that the receiver is on is applied. -/
def execFenceFrame (k : Nat) (raw : RawFrame) (s : State) : Out :=
  if 3 ≤ k then .fault .noSuchUnit
  else
    let f := fixedFrame raw
    match s.rxFrame k 8 raw with
    | (s1, false) => .next s1
    | (s1, true) =>
      let e := bits f.header 72 32
      let pick := fun (lo : Nat) => (List.range 4).filter (fun m => bit f.header (lo + m))
      if (pick 104).contains (ownMember s1) && decide (fedEpoch s1 < e) && (decide (fedState s1 = 2) || decide (fedState s1 = 5)) then
        .next (s1.applyFence e (pick 104) ((pick 108).filter (fun m => (members s1).contains m)))
      else .next s1

/-- SELF_FENCE (14 R436): no witness write has been acknowledged for FED_HB_CEIL ÷ 2. -/
def execSelfFence (s : State) : Out :=
  if !s.fatal && s.rstN && (decide (fedState s = 2) || decide (fedState s = 3) || decide (fedState s = 5)) &&
      decide (s.fed.witnessAck + hbCeilNs s / 2 ≤ s.nomNs) then
    .next (({ s with fed := { s.fed with fenced := true } }).setFedState 4)
  else .next s

/-- ADOPTION_START (14 R437): each queue of the fenced member goes to a survivor; this member's share is fetched. -/
def execAdoptionStart (m : Nat) (s : State) : Out :=
  if 4 ≤ m then .fault .noSuchUnit
  else
    match (memberOf s m).adoptAt with
    | none => .next s
    | some t =>
      if s.fatal || !s.rstN || decide (s.nomNs < t) || (decide (fedState s ≠ 2) && decide (fedState s ≠ 5)) then .next s
      else
        let ms := members s
        let s1 := s.putMember { memberOf s m with adoptAt := none }
        .next ((s1.queues.filter (fun q => decide (homeOf s1 q = m))).foldl (fun t q =>
          let n := ms.getD (q % max 1 ms.length) (ownMember t)
          let t1 := (t.flipHash q m).flipHash q n
          let t2 := { t1 with fed := { t1.fed with owners := assocPut t1.fed.owners q n } }
          if n = ownMember t then ({ t2 with adopting := assocPut t2.adopting q m }).awaitCtx q .adopt else t2) s1)

/-! Heartbeats, witness lines, time (14 R429 to R435). -/

/-- HEARTBEAT_SEND (14 R434, R433): heartbeats, the witness line, and a TIME request to the reference. -/
def execHeartbeatSend (s : State) : Out :=
  if s.fatal || !s.rstN || !(decide (fedState s = 2) || decide (fedState s = 3) || decide (fedState s = 5)) || decide (s.nomNs < s.fed.nextHb) then
    .next s
  else
    let n := (s.fed.witnessCnt + 1) % 2 ^ 32
    let s1 := { s with fed := { s.fed with witnessCnt := n, nextHb := s.nomNs + hbStepNs s } }
    let s2 := s1.service (mkHeld .witnessWrite 0 true (witnessAddr s (ownMember s)) 64 (sharedAttrs s 0)
      (bytesOfWords (BitVec.ofNat 64 (n + 2 ^ 32 * fedEpoch s) :: List.replicate 7 0)) 0)
    let s3 := s2.heartbeats
    match (members s3).head? with
    | none => .next s3
    | some r =>
      if r = ownMember s3 then .next s3
      else
        let num := (s3.fed.timeNum + 1) % 256
        let s4 := { s3 with fed := { s3.fed with timeNum := num, timeReq := some (num, s3.timebase) } }
        .next (s4.sendTo 4 r [(80, 8, num)] [BitVec.ofNat 256 s3.timebase.toNat])

/-- A queue that a lower member claims too is yielded to it: its in-flight descriptors run to their records first (14 R429). -/
def State.yieldQueue (s : State) (qid m : Nat) : State :=
  if (assocGet s.fed.yielding qid).isSome then s
  else
    let s1 := { s with fed := { s.fed with yielding := assocPut s.fed.yielding qid m } }
    if (ctxOf s qid).isSome then s1.leaveQueue qid else s1.yieldDone qid m

/-- One entry of member m's ownership table against this member's (14 R429): a queue claimed by both stays with the lower number;
what the member has given away goes where it says; a claim on a third member's queue stands where it is the lower one. -/
def State.settleOwner (m : Nat) (s : State) (e : Nat × Nat) : State :=
  let own := ownMember s
  let home := homeOf s e.1
  if !s.queues.contains e.1 then s.newOwner e.1 e.2
  else if home = own then (if e.2 = m ∧ m < own then s.yieldQueue e.1 m else s)
  else if home = m then (if e.2 = m then s else s.giveOwner e.1 e.2)
  else if e.2 = m ∧ (m < home ∨ !(members s).contains home) then s.giveOwner e.1 m
  else s

/-- The ownership tables are exchanged where the hashes differ (14 R429); a HELD member adopts nothing. -/
def State.settleOwners (s : State) (m : Nat) (table : List (Nat × Nat)) : State :=
  if decide (fedState s = 3) || decide ((memberOf s m).hash = s.fed.hash) then s else table.foldl (State.settleOwner m) s

/-- The queues of a member that has left go to the survivors (14 R437, R442), those handed over already aside. -/
def State.inherit (s : State) (m : Nat) : State :=
  let ms := members s
  (s.queues.filter (fun q => decide (homeOf s q = m))).foldl (fun t q =>
    t.giveOwner q (ms.getD (q % max 1 ms.length) (ownMember t))) s

/-- Membership and epoch as a heartbeat of member m shows them (14 R425, R429). -/
def State.takeHeartbeat (s : State) (m st epoch : Nat) : State :=
  let ms := members s
  let left := decide (st = 0) && ms.contains m
  let serves := (decide (st = 2) || decide (st = 5)) && (memberOf s m).manifest
  let ms' := if serves then m :: ms else ms.filter (· != m)
  let s1 := if left then s.wr .fedEpoch 0 (s.rd .fedEpoch 0 + 1) else s
  let s1' := if memberMask ms' = memberMask ms then s1 else s1.setMembers (memberMask ms')
  let s2 := if left then s1'.inherit m else s1'
  let quiet := s2.adm.cmd.all (fun c => !isFederated c c.items) && s2.fed.remote.isNone && s2.fed.inbox.isEmpty
  if decide (fedState s2 = 2) && (decide (st = 2) || decide (st = 5)) && decide (fedEpoch s2 ≠ 0) && decide (fedEpoch s2 < epoch) && quiet then
    s2.setFedState 3
  else s2

/-- HEARTBEAT (14 R429, R431, R434): members are marked heard, the list of members in service and the epochs are settled. -/
def execHeartbeat (k : Nat) (raw : RawFrame) (s : State) : Out :=
  if 3 ≤ k then .fault .noSuchUnit
  else
    let f := fixedFrame raw
    match s.rxFrame k 3 raw with
    | (s1, false) => .next s1
    | (s1, true) =>
      let m := frameSrc f
      let st := bits f.header 80 3
      let epoch := bits f.header 40 32
      let s2 := s1.learnFar k f
      let s3 := s2.putMember { memberOf s2 m with
        heardAt := some s2.nomNs, epoch := BitVec.ofNat 32 epoch, hash := BitVec.ofNat 64 (bits f.header 128 64), state := st,
        witness := none, readAt := none, silent := false }
      let listed := (List.range 4).filter (fun j => bit f.header (72 + j) && decide (j ≠ m) && decide (j ≠ ownMember s3))
      let s4 := listed.foldl (fun t j => t.putMember { memberOf t j with listedAt := some t.nomNs, witness := none, readAt := none, silent := false }) s3
      let part := decide (fedState s4 = 2) || decide (fedState s4 = 3) || decide (fedState s4 = 5)
      .next (if part then ((s4.takeHeartbeat m st epoch).settleOwners m raw.owners).heldCheck else s4)

/-- TIME (14 R432, R433): the reference answers; an answer gives the offset, whose half nanosecond is left open. -/
def execTime (k : Nat) (raw : RawFrame) (s : State) : Out :=
  if 3 ≤ k then .fault .noSuchUnit
  else
    let f := fixedFrame raw
    match s.rxFrame k 4 raw with
    | (s1, false) => .next s1
    | (s1, true) =>
      let p := (f.payload.head?).getD 0
      let t1 := bits p 0 64
      if !bit f.header 72 then
        if (members s1).head? = some (ownMember s1) then
          let now := s1.timebase.toNat
          .next (s1.sendTo 4 (frameSrc f) [(72, 1, 1), (80, 8, bits f.header 80 8)] [BitVec.ofNat 256 (t1 + 2 ^ 64 * now + 2 ^ 128 * now)])
        else .next s1
      else
        match s1.fed.timeReq with
        | none => .next s1
        | some (n, t0) =>
          if n ≠ bits f.header 80 8 ∨ t0.toNat ≠ t1 then .next s1
          else
            let d : Int := ((bits p 64 64 : Int) - t1) - ((s1.timebase.toNat : Int) - (bits p 128 64 : Int))
            let off : Int := if d % 2 = 0 then d / 2 else d / 2 + (((Config.freeValue s1.freeCtr).toNat % 2 : Nat) : Int)
            let tol : Int := ((max 1 (s1.fld .fedCtl 0 11 10) : Nat) : Int)
            let s2 := { s1 with freeCtr := s1.freeCtr + 1, fed := { s1.fed with timeReq := none, offset := BitVec.ofInt 64 off } }
            .next (s2.setFld .fedStat 0 13 1 (flag (decide (tol < (off.natAbs : Int)))))

/-- WITNESS_READ (14 R435): once per FED_HB_CEIL ÷ 8 the line of a member that is not heard is read. -/
def execWitnessRead (m : Nat) (s : State) : Out :=
  if 4 ≤ m then .fault .noSuchUnit
  else
    let x := memberOf s m
    let due := match x.readAt with | some t => decide (t + hbStepNs s ≤ s.nomNs) | none => true
    let busy := s.acc.any (fun a => a.purpose == .witnessRead m) || s.held.any (fun h => h.purpose == .witnessRead m)
    if s.fatal || !s.rstN || !(decide (fedState s = 2) || decide (fedState s = 5)) || !(members s).contains m || decide (m = ownMember s) ||
        heardNow s m || !due || busy then .next s
    else
      .next ((s.putMember { x with readAt := some s.nomNs }).service
        (mkHeld (.witnessRead m) 0 false (witnessAddr s m) 64 (sharedAttrs s 0) [] 0))

/-- A witness line read has ended with this count, or without one: unchanged for FED_HB_CEIL, the member is silent. -/
def State.witnessSeen (s : State) (m : Nat) (count : Option Nat) : State :=
  let x := memberOf s m
  if heardNow s m || !(members s).contains m then s
  else
    let unread := 2 ^ 32
    let same : Option Nat := match x.witness, count with
      | some (c, t), some n => if c = n ∨ c = unread then some t else none
      | some (_, t), none => some t
      | none, _ => none
    let w := (count.getD ((x.witness.map (·.1)).getD unread), same.getD s.nomNs)
    let silent := match same with | some t => decide (t + hbCeilNs s ≤ s.nomNs) | none => false
    (s.putMember { x with witness := some w, silent := silent }).fenceNow

/-- WITNESS_READ_RESPONSE (14 R435). -/
def execWitnessReadResponse (aid : Nat) (ans : Answer) (s : State) : Out :=
  match s.access aid with
  | none => .next s
  | some a =>
    match a.purpose with
    | .witnessRead m =>
      if s.fatal then .next s
      else
        let s1 := (s.readEnds a ans).drainHeld
        if codeSeen ans.code ≠ 0 then .next (s1.witnessSeen m none)
        else
          match s1.land a ans.words 3 0 63 0 with
          | (s2, bytes, mk) => .next (s2.witnessSeen m (if mk = .uncorrectable then none else some (leNat (bytes.take 4))))
    | _ => .next s

/-- WITNESS_READ_CEIL (14 R435): an expired read counts as unchanged. -/
def execWitnessReadCeil (aid : Nat) (s : State) : Out :=
  match s.access aid with
  | none => .next s
  | some a =>
    match a.purpose with
    | .witnessRead m => if s.fatal || !expired s a then .next s else .next (((s.quarantine a).drainHeld).witnessSeen m none)
    | _ => .next s

/-! Federated commands and doorbells (14 R421, R423). -/

/-- The command that assembled CONFIG payload beats carry. -/
def configCmd (s : State) (src id : Nat) (beats : List (BitVec 256)) : AdmCmd :=
  let ws := beats.flatMap (fun b => (List.range 4).map (fun i => BitVec.ofNat 64 (bits b (64 * i) 64)))
  let slot := ws.take 8
  let image := decide (bits (wd slot 0) 0 8 = 0x80) || decide (bits (wd slot 0) 0 8 = 0x81)
  let rest := ws.drop (if image then 16 else 8)
  let items := (chunksOf 2 (rest.length + 1) rest).map (fun c => (wd c 0, wd c 1))
  { newCmd s slot (BitVec.ofNat 32 id) (some src) with
    image := if image then (ws.drop 8).take 8 else [], items := items.filter (fun i => decide (i ≠ (0, 0))) }

/-- CONFIG (14 R423): the parts of a command are gathered, and a whole one is applied behind those before it. -/
def execConfig (k : Nat) (raw : RawFrame) (s : State) : Out :=
  if 3 ≤ k then .fault .noSuchUnit
  else
    let f := fixedFrame raw
    match s.rxFrame k 5 raw with
    | (s1, false) => .next s1
    | (s1, true) =>
      let src := frameSrc f
      let id := bits f.header 72 16
      let part := bits f.header 88 8
      let mine := fun (x : Nat × Nat × Nat × List (BitVec 256)) => x.1 == src && x.2.1 == id
      let got : Nat × List (BitVec 256) := if part = 0 then (0, []) else
        match s1.fed.config.find? mine with | some x => (x.2.2.1, x.2.2.2) | none => (0, [])
      let rest := s1.fed.config.filter (fun x => !mine x)
      let beats := got.2 ++ f.payload
      if part ≠ got.1 ∨ (fedState s1 ≠ 2 ∧ fedState s1 ≠ 5) then .next s1
      else if bit f.header 96 then
        let c := configCmd s1 src id beats
        let fd := { s1.fed with config := rest }
        .next { s1 with fed := if fd.remote.isNone then { fd with remote := some c } else { fd with inbox := fd.inbox ++ [c] } }
      else .next { s1 with fed := { s1.fed with config := (src, id, part + 1, beats) :: rest } }

/-- CONFIG_ACK (14 R423). -/
def execConfigAck (k : Nat) (raw : RawFrame) (s : State) : Out :=
  if 3 ≤ k then .fault .noSuchUnit
  else
    let f := fixedFrame raw
    match s.rxFrame k 6 raw with
    | (s1, false) => .next s1
    | (s1, true) =>
      match s1.adm.cmd with
      | some c =>
        if bits c.idx 0 16 = bits f.header 72 16 then
          .next (s1.memberAnswered (frameSrc f) (some (bits f.header 88 8, bits f.header 96 8)))
        else .next s1
      | none => .next s1

/-- DOORBELL (14 R421, R443): the home applies the record; another member sends it on. -/
def execDoorbell (k : Nat) (raw : RawFrame) (s : State) : Out :=
  if 3 ≤ k then .fault .noSuchUnit
  else
    let f := fixedFrame raw
    match s.rxFrame k 7 raw with
    | (s1, false) => .next s1
    | (s1, true) =>
      let qid := bits f.header 72 22
      let rec' := BitVec.ofNat 64 (bits f.header 96 64)
      if !s1.queues.contains qid || !serves s1 then .next s1
      else if homedAway s1 qid then .next (s1.forwardDoorbell qid rec')
      else .next (s1.takeRecord qid rec')

end Sys2Proof.Machine
end

