-- ==== Sys2Proof/Machine/Ctx.lean ====
section
/-! DEFINITION. The context cache at work: fetches that return, work that waited for them, write-backs (01 R19, R20, R32; 11
R562, R566; 14 R422, R438). -/

namespace Sys2Proof.Machine

/-- An adopted context (14 R437, R438, R443): homed here, its instance's quiesce and the command that the fenced member had still to
apply take effect, and its slots are resolved from Q on, those of a queue that runs to the first that is not written. -/
def State.adoptCtx (s : State) (qid : Nat) : State :=
  match ctxOf s qid with
  | none => s
  | some c =>
    let iid := c.iid.toNat
    let s1 := (s.setCtx qid { c with
      homeMember := BitVec.ofNat 2 (ownMember s), f := c.q, winDone := 0, reread := 0, noticeBusy := 0,
      resumePend := 0, abandonPend := 0 }).fullScanNext iid
    let quiet := decide (2 ≤ s.instState iid) && decide (s.instState iid ≤ 4)
    let s2 := if quiet then s1.quiesceQueue qid else s1
    let s3 := s2.fed.outstanding.foldl (fun t x => t.adoptCommand qid x) s2
    let s4 := { s3 with adoptStop := assocPut s3.adoptStop qid c.f,
                        fed := { s3.fed with outstanding := s3.fed.outstanding.filter (fun x => decide (cQid x ≠ qid)) } }
    let s5 := (s4.adoptCheck qid).markReady qid
    let s6 := match wayOf s5 qid with | some w => s5.writeBack w | none => s5
    (s6.admContext true).admContext false

/-- One piece of work that waited for a context (11 R566). -/
def State.runWork (s : State) (qid : Nat) (w : CtxWork) : State :=
  match w with
  | .doorbell rec => s.applyRecord qid rec
  | .recordAck _ ring noticeNow => s.recordAcked qid ring noticeNow
  | .noticeAck => s.noticeAcked qid
  | .kick => s.markReady qid
  | .admin own => s.admContext own
  | .quiesce => s.quiesceQueue qid
  | .release => (s.releaseQueue qid).admCheck
  | .close => s.startDestroy qid
  | .adopt => s.adoptCtx qid
  | .leave => if s.fed.leaving.contains qid || (assocGet s.fed.yielding qid).isSome then s.leaveQueue qid else s
  | .copy k =>
    match snapOf s k with
    | some x => s.snapWaits x
    | none => s
  | .notice => s
  | .ready => s

/-- A context is resident: what waited for it runs in order, and its queue is marked ready. -/
def State.ctxArrived (s : State) (qid : Nat) : State :=
  let works := (s.ctxWait.filter (fun w => w.1 == qid)).map (·.2)
  let s1 := { s with ctxWait := s.ctxWait.filter (fun w => w.1 != qid) }
  (works.foldl (fun t w => t.runWork qid w) s1).markReady qid

/-- A fetched context is placed in its set, in place of the least recently used way that is not pinned (01 R19); where that is dirty
it is written back first, and where none is left the fetch waits. -/
def State.placeFetched (s : State) (qid : Nat) (c : QCtx) : State :=
  if !s.queues.contains qid || homedAway s qid then { s with ctxWait := s.ctxWait.filter (fun w => w.1 != qid) }
  else
    match freeWay s qid, victim s qid with
    | some k, _ => (s.placeWay qid k c false).ctxArrived qid
    | none, some w =>
      if !w.dirty then (({ s with ways := s.ways.filter (fun v => v.qid != w.qid) }).placeWay qid w.way c false).ctxArrived qid
      else s.startFetch qid
    | none, none => s

/-- CTX_FETCH_RESPONSE (01 R19; 11 R562, R566; 06 R216). While CTX is gated its answer is not taken yet (15 R467; DESIGN CHOICE, log
entry 48). -/
def execCtxFetchResponse (aid : Nat) (ans : Answer) (s : State) : Out :=
  match s.access aid with
  | none => .next s
  | some a =>
    match a.purpose with
    | .ctxFetch qid =>
      if s.fatal || !ctxOn s then .next s
      else
        let s1 := (s.readEnds a ans).drainHeld
        let code := codeSeen ans.code
        if code ≠ 0 then
          if codeRetryable code then .next (s1.ctxAgain a code)
          else
            .next { s1.logErr (ctxErr s a qid 3 0x4E code code.toNat) with
                    ctxRetry := assocPut s1.ctxRetry qid (s.nomNs + fetchCeilNs s) }
        else
          match s1.land { a with iid := spanIid s1 qid } ans.words 3 qid 63 0 with
          | (s2, bytes, m) =>
            if m = .uncorrectable then .next (s2.ctxAgain a 0) else .next (s2.placeFetched qid (QCtx.fetched (wordsOfBytes bytes)))
    | _ => .next s

/-- A write-back of a queue's context is acknowledged: what it wrote is no longer dirty, and the way may go. -/
def State.writtenBack (s : State) (qid : Nat) (data : List Byte) : State :=
  let clean := fun (w : Way) =>
    if w.qid = qid then { w with wbFault := false, dirty := w.dirty && decide (data ≠ bytesOfWords w.ctx.toWords) } else w
  let s1 := ({ s with ways := s.ways.map clean }).pumpCtx
  match createWaits s1 true with
  | some c => s1.createQueue true c
  | none => s1

/-- CTX_WRITE_BACK_ACK (01 R19; 11 R562, R566). -/
def execCtxWriteBackAck (aid : Nat) (code : BitVec 6) (s : State) : Out :=
  match s.access aid with
  | none => .next s
  | some a =>
    match a.purpose with
    | .ctxWriteBack qid =>
      if s.fatal then .next s
      else
        let s1 := (s.dropAccess aid).drainHeld
        let c := codeSeen code
        if c = 0 then .next (s1.writtenBack qid a.data)
        else if codeRetryable c then .next (s1.ctxAgain a c)
        else
          let s2 := s1.logErr (ctxErr s a qid 3 0x4F c c.toNat)
          .next { s2 with ways := upd (fun w => w.qid == qid) (fun w => { w with wbFault := true, dirty := true }) s2.ways,
                          ctxRetry := assocPut s2.ctxRetry qid (s.nomNs + fetchCeilNs s) }
    | _ => .next s

/-- CTX_FETCH_CEIL (01 R32; 11 R562, R566): a fetch or write-back whose ceiling or retry time has passed is issued again. -/
def execCtxFetchCeil (qid : Nat) (s : State) : Out :=
  if 2 ^ 22 ≤ qid then .fault .noSuchUnit
  else if s.fatal || !s.rstN then .next s
  else
    match s.acc.find? (fun a => (decide (a.purpose = .ctxFetch qid) || decide (a.purpose = .ctxWriteBack qid)) && expired s a) with
    | some a => .next (((s.quarantine a).drainHeld).ctxAgain a 0)
    | none =>
      match assocGet s.ctxRetry qid with
      | none => .next s
      | some t =>
        if s.nomNs < t || !ctxOn s then .next s
        else
          let s1 := { s with ctxRetry := assocDel s.ctxRetry qid }
          match wayOf s1 qid with
          | some w => if wbBusy s1 qid then .next s1 else .next (s1.writeBack w)
          | none => if s1.ctxWait.any (fun x => x.1 == qid) then .next (s1.fetchCtx qid true) else .next s1

/-- CONTEXT_WRITE_BACK (14 R422): a changed context of a federated queue is written back once per WB_IV. -/
def execContextWriteBack (qid : Nat) (s : State) : Out :=
  if 2 ^ 22 ≤ qid then .fault .noSuchUnit
  else
    match wayOf s qid with
    | none => .next s
    | some w =>
      let due := match assocGet s.ctxWb qid with
        | some t => decide (t + 1000 * max 1 (s.fld .fedCtl 0 21 11) ≤ s.nomNs)
        | none => true
      if federated s && serves s && w.dirty && !w.wbFault && !wbBusy s qid && !homedAway s qid && due && !s.fatal && s.rstN then
        .next (({ s with ctxWb := assocPut s.ctxWb qid s.nomNs }).writeBack w)
      else .next s

end Sys2Proof.Machine
end

