-- ==== Sys2Proof/Machine/Test.lean ====
section
/-! DEFINITION. What ends in TEST and in a debug access: an MBIST run (19 R551), the checkers' SYNC (19 R554, R558), and the
ceilings of a test unit's request (19 R555) and of a debug access (17 R504). -/

namespace Sys2Proof.Machine

/-! MBIST on demand (19 R551). -/

/-- Macro m is tested by a run that selects `sel`: bits 0 to 15 the clusters, 16 the context cache, 17 the checkpoint
table, whose macros lie in domain CTX. -/
def mbistTests (sel m : Nat) : Bool :=
  if m < 4 then false
  else if m < 164 then sel.testBit ((m - 4) / 10)
  else decide (macroDomain m = 19) && (sel.testBit 16 || sel.testBit 17)

/-- A macro that fails with REPAIR = 0: RESULT 3 and its first two failing rows; its spare rows stay as they were. -/
def State.failMacro (s : State) (f : MacroFault) : State :=
  if nMacro ≤ f.num then s
  else
    let w65 := withBits (s.is6.get (65 + 4 * f.num) ^^^ 1) 0 2 (if f.finished then 3 else 0) ^^^ 1
    let w66 : W32 := BitVec.ofNat 32 (f.rows.getD 0 0 % 65536 + 65536 * (f.rows.getD 1 0 % 65536))
    { s with is6 := (s.is6.put (65 + 4 * f.num) w65).put (66 + 4 * f.num) w66 }

/-- A tested macro without a fault passes; one that was repaired keeps its repair. -/
def State.passMacro (s : State) (m : Nat) : State :=
  if macroResult s m = 2 then s else { s with is6 := (s.is6.put (65 + 4 * m) 0).put (66 + 4 * m) 0 }

/-- The records of the tested macros after a run. -/
def State.mbistRecords (s : State) (sel : Nat) (repair : Bool) (faults : List MacroFault) : State :=
  let mine := faults.filter (fun f => mbistTests sel f.num && (!f.rows.isEmpty || !f.finished))
  let sound := (macrosNoted s).filter (fun m => mbistTests sel m && !mine.any (fun f => f.num == m))
  let s1 := sound.foldl (fun t m => t.passMacro m) s
  mine.foldl (fun t f => if repair then t.noteMacro f else t.failMacro f) s1

/-- The tested macros are left all zero (19 R551): the context cache holds no way, the checkpoint table no entry. -/
def State.mbistZero (s : State) (sel : Nat) : State :=
  let s1 : State := if sel.testBit 16 then { s with ways := [], usedWays := [], is4 := [], ctxZero := true } else s
  if sel.testBit 17 then { s1 with ckpt := [] } else s1

/-- MBIST_RUN_DONE (19 R551). -/
def execMbistRunDone (faults : List MacroFault) (s : State) : Out :=
  match s.mbist with
  | none => .next s
  | some (sel, repair) =>
    if decide (s.mode ≠ .test) || s.fatal then .next s
    else
      let s1 := (s.mbistRecords sel repair faults).mbistZero sel
      let count := fun (v : Nat) => min 255 ((macrosNoted s1).filter (fun m => mbistTests sel m && decide (macroResult s1 m = v))).length
      .next { (s1.wr .tstMbistStat 0 (BitVec.ofNat 32 (2 + 256 * count 3 + 65536 * count 2))) with mbist := none }

/-! SYNC of a checker (19 R554). -/

/-- Unit u's checker runs: in TEST a link unit that checks in mode 1 or 2, and outside TEST that of a link that is up (19
R556, R558). A port unit is in SYNC while it runs. -/
def linkChecks (s : State) (u : Nat) : Bool :=
  decide (16 ≤ u) && !s.fatal && s.rstN &&
  (if s.mode = .test then unitRuns s u && unitChk s u && (decide (unitMode s u = 1) || decide (unitMode s u = 2))
   else decide (lstate s (u - 16) = 2))

/-- SYNC_GAINED (19 R554): 64 consecutive beats without a bit error. -/
def execSyncGained (u : Nat) (s : State) : Out :=
  if 19 ≤ u then .fault .noSuchUnit
  else if linkChecks s u then .next (s.setSync u true) else .next s

/-- SYNC_LOST (19 R554, R558): 16 consecutive beats that each hold an error. In TEST each differing bit of them counts in
ERRS, a number left open between 16 and 16 × 256; outside TEST each of them counts in IDLE_ERR. -/
def execSyncLost (u : Nat) (s : State) : Out :=
  if 19 ≤ u then .fault .noSuchUnit
  else if !linkChecks s u || !bit (s.rd .tstUnitStat u) 0 then .next s
  else
    let s1 := (s.bump .tstUnitStat u 8 8 1).setSync u false
    if s.mode = .test then
      .next { (s1.unitErrors u (16 + (Config.freeValue s.freeCtr).toNat % 4081)) with freeCtr := s.freeCtr + 1 }
    else
      let l := linkOf s1 (u - 16)
      .next ((s1.bump .fedLinkStat (u - 16) 16 16 16).putLink { l with idle := List.replicate 16 0 ++ l.idle })

/-! Ceilings. -/

/-- A test unit's request ends with a fault; its tag or write ID is quarantined. -/
def State.testEnds (s : State) (a : Access) (u : Nat) : State :=
  (((if a.write then s.logDirty a.iid a.addr else s).quarantine a).drainHeld).testFault u a.write

/-- TST_REQUEST_CEIL (19 R555). -/
def execTstRequestCeil (aid : Nat) (s : State) : Out :=
  match s.access aid with
  | none => .next s
  | some a =>
    match a.purpose with
    | .test u _ => if s.fatal || !expired s a then .next s else .next (s.testEnds a u)
    | _ => .next s

/-- A debug access ends with TIMEOUT; its tag or write ID is quarantined (17 R504). -/
def State.dbgTimeout (s : State) (a : Access) : State := ((s.quarantine a).drainHeld).wr .dbgMemStat 0 2

/-- DBG_MEM_CEIL (17 R504). -/
def execDbgMemCeil (aid : Nat) (s : State) : Out :=
  match s.access aid with
  | none => .next s
  | some a =>
    match a.purpose with
    | .debug => if s.fatal || !expired s a then .next s else .next ((if a.write then s.logDirty a.iid a.addr else s).dbgTimeout a)
    | _ => .next s

end Sys2Proof.Machine
end

