-- ==== Sys2Proof/Machine/Answers.lean ====
section
/-! DEFINITION. Answers on the fabric that have no row of their own (18 R521, R522), the beat ceiling (18 R525), cut-offs of
the common arbiter (07 R242), quarantine (05 R173) and credits (18 R517). -/

namespace Sys2Proof.Machine

/-! What the expiry of an access does once its tag is dealt with (01 R32). -/

/-- The effect of CLU_BEAT_CEIL on a service access (11 R562): that of its own ceiling, by which it is issued again, abandoned or given up
as R32 says; the code that RESP of a debug access then shows is left open. -/
def State.ceilEffect (s : State) (a : Access) : State :=
  match a.purpose with
  | .slot _ _ => s.readAgain a
  | .tail _ _ => s.readAgain a
  | .parkSlot _ _ => s.readAgain a
  | .adoptCkpt _ _ _ => s.readAgain a
  | .root _ => (s.logErr (mkErr 0 18 0x32 a.iid 0 63 0 0 a.addr 0)).pollFail a.iid
  | .leaf _ _ => (s.logErr (mkErr 0 18 0x32 a.iid 0 63 0 0 a.addr 0)).pollFail a.iid
  | .doorbell _ _ _ => (s.logErr (mkErr 0 18 0x32 a.iid 0 63 0 0 a.addr 0)).pollFail a.iid
  | .ctxFetch _ => s.ctxAgain a 0
  | .ctxWriteBack _ => s.ctxAgain a 0
  | .record _ _ _ _ _ => s.recordAgain a 0
  | .notice _ => s.recordAgain a 0
  | .admDoorbell => s.admAgain a 0
  | .admSlot => s.admAgain a 0
  | .admImage _ => s.admAgain a 0
  | .admRecord _ => s.admAgain a 0
  | .admNotice => s.admAgain a 0
  | .admCopy _ => s.admAgain a 0
  | .dirtyLog _ _ => s.admAgain a 0
  | .errLog _ _ => s.errAgain a
  | .snap _ _ => s.telGiveUp a.purpose
  | .trace _ => s.telGiveUp a.purpose
  | .debug => { (s.dbgError ((Config.freeValue s.freeCtr).setWidth 6)) with freeCtr := s.freeCtr + 1 }
  | .test u _ => s.testFault u a.write
  | .witnessRead m => s.witnessSeen m none
  | .oldWrite q i p _ => s.settleOf q i p
  | .oldRead q i p _ => s.settleOf q i p
  | .witnessWrite => s
  | .fedCkpt => s
  | .data _ _ _ => s
  | .table _ _ _ _ => s
  | .write _ _ _ => s

/-! Answers. -/

/-- The slot, or the moving descriptor, that a dropped attempt's access belonged to. -/
def isOf (q : Nat) (i : W32) (p : Nat) (x : Slot) : Bool := decide (x.qid = q) && decide (x.slotIdx = i) && decide (chainPosOf x = p)

/-- A write of a dropped attempt is acknowledged: it counts for the completion timestamp of its descriptor (01 R30). -/
def State.stampOf (s : State) (q : Nat) (i : W32) (p : Nat) : State :=
  { s with slots := upd (isOf q i p) (stampedDone s) s.slots, moving := upd (fun m => isOf q i p m.2) (fun m => (m.1, stampedDone s m.2)) s.moving }

/-- WRITE_ACK (18 R522, R523; 05 R183, R191; 08 R246): the answer to a write that has no row of its own. -/
def execWriteAck (aid : Nat) (code0 : BitVec 6) (s : State) : Out :=
  match s.access aid with
  | none => .next s
  | some a =>
    if s.fatal || !a.write || decide (a.toSend ≠ 0) then .next s
    else
      let code := codeSeen code0
      let ok := decide (code = 0)
      let s1 := ((s.logDirty a.iid a.addr).dropAccess aid).drainHeld
      match a.purpose with
      | .write c i num =>
        match slotAt s1 c i with
        | some x => .next (s1.dataWriteAnswer x num a code0)
        | none => .next s1
      | .oldWrite q i p _ => .next ((if ok then s1.stampOf q i p else s1).settleOf q i p)
      | .dirtyLog _ _ => .next (if ok then s1.admCheck else s1.admAgain a code)
      | .admCopy h => .next (if !ok && codeRetryable code then s1.admAgain a code else s1.copyAnswered h)
      | .admNotice =>
        .next (if ok then s1.admNoticeAcked else if codeRetryable code then s1.admAgain a code else (s1.admGiveUp a code).admNoticeAcked)
      | .snap k h => .next (if ok then s1.snapAck k h else s1.telGiveUp a.purpose)
      | .trace _ => .next (if ok then s1 else s1.telGiveUp a.purpose)
      | .witnessWrite => .next (if ok then { s1 with fed := { s1.fed with witnessAck := s1.nomNs } } else s1)
      | .fedCkpt => .next s1
      | .test u _ =>
        .next (if ok then s1.testStep u else (((s.logDirty a.iid a.addr).quarantine a).drainHeld).testFault u true)
      | .debug => .next (if ok then s1.wr .dbgMemStat 0 0 else s1.dbgError code)
      | _ => .next s

/-- The answer to a debug read: the bytes, uncorrectable words as received. -/
def State.dbgRead (s : State) (a : Access) (ans : Answer) : State :=
  match s.land a ans.words 3 0 63 0 with
  | (s1, bytes, _) => s1.dbgAnswer bytes

/-- A read that no one waits for any more is answered: its words are checked as they land (06 R216), a CHECK or PI_VERIFY takes its
completion time from it where it is the last (01 R30), and its descriptor settles. A discarded slot read stands at 0x10000. -/
def State.lateRead (s : State) (a : Access) (ans : Answer) (q : Nat) (i : W32) (p : Nat) : State :=
  let s1 := s.landOrphan a ans
  let s2 := match s1.slots.find? (isOf q i p) with | some x => s1.stampRead x | none => s1
  s2.settleOf q i p

/-- READ_RESPONSE (18 R521 to R523; 06 R216): the answer to a read that has no row of its own. -/
def execReadResponse (aid : Nat) (ans : Answer) (s : State) : Out :=
  match s.access aid with
  | none => .next s
  | some a =>
    if s.fatal || a.write then .next s
    else
      let code := codeSeen ans.code
      let s1 := (s.readEnds a ans).drainHeld
      match a.purpose with
      | .data c i num =>
        match slotAt s1 c i with
        | some x => .next (s1.dataAnswer x num a ans)
        | none => .next s1
      | .table c i first _ =>
        match slotAt s1 c i with
        | some x => .next (s1.tableAnswer x first a ans)
        | none => .next s1
      | .oldRead q i p _ => .next (s1.lateRead a ans q i p)
      | .adoptCkpt c i n =>
        match slotAt s1 c i with
        | none => .next s1
        | some x =>
          if code ≠ 0 then .next (s1.readAgain a)
          else
            match s1.land a ans.words 3 x.qid x.idx x.clu with
            | (s2, bytes, m) =>
              if m = .uncorrectable then .next (s2.readAgain a) else .next (s2.adoptEntry x n (wordsOfBytes bytes))
      | .test u _ =>
        if code ≠ 0 then .next (((s.quarantine a).drainHeld).testFault u false) else .next (s1.testData u (ans.words.map (·.1)))
      | .debug => if code ≠ 0 then .next (s1.dbgError code) else .next (s1.dbgRead a ans)
      | _ => .next s

/-! A request that was never transferred. -/

/-- An access that the port arbiter granted last in its direction, of which no data beat has left: its request may still be
offered. -/
def offered (s : State) (a : Access) : Bool :=
  !s.acc.any (fun b => decide (b.port = a.port) && decide (b.write = a.write) && decide (a.aid < b.aid)) &&
  (!a.write || decide (34 ≤ a.holder) || decide (a.toSend = linesTouched a.addr a.len))

/-- The request is not issued: its tag or write ID is free at once, and its credits are kept (18 R525). -/
def State.unIssue (s : State) (a : Access) : State :=
  let c := creditsOf s a.port
  let beats := if a.write && decide (34 ≤ a.holder) then linesTouched a.addr a.len else 0
  { (s.dropAccess a.aid) with
    credits := assocPut s.credits a.port (if a.write then (c.1, min 64 (c.2.1 + 1), min 256 (c.2.2 + beats)) else (min 64 (c.1 + 1), c.2.1, c.2.2)) }

/-- A write of a released loaf that never left is issued again with the same content, and later writes of the loaf wait for it: those that
Lens has taken are taken again; no release is counted (05 R191). -/
def State.writeAnew (s : State) (clu idx num : Nat) (a : Access) : State :=
  let pos := (a.spans.head?.map (·.1)).getD 0
  s.updSlot clu idx (fun y => (y.updLoaf num (fun l => { l with writeB := min l.writeB pos })).dropLens num)

/-- A loaf of a slot is released. -/
def isReleased (x : Slot) (num : Nat) : Bool := match loafOf x num with | some l => l.released | none => false

/-- A request of a loaf that is not issued: its loaf replays with the fault that `fault` is (slot, loaf, read), or the write
of a released loaf is issued anew. A service access is dealt with by `service`. -/
def State.notIssued (s : State) (a : Access) (fault : State → Slot → Nat → Bool → State) (service : State → State) : State :=
  match a.purpose with
  | .data c i num => match slotAt s c i with | some x => fault (s.freeRead x num a) x num true | none => s
  | .table c i first _ => match slotAt s c i with | some x => fault (s.freeTable x first) x (tableLoaf x first) true | none => s
  | .write c i num =>
    match slotAt s c i with
    | some x => if isReleased x num then s.writeAnew c i num a else fault s x num false
    | none => s
  | _ => service s

/-! The beat ceiling (18 R525). -/

/-- The fault of a loaf at CLU_BEAT_CEIL (08 R258: 0x28). -/
def beatFaultAt (a : Access) (s : State) (x : Slot) (num : Nat) (read : Bool) : State :=
  s.fabricFault x.clu x.idx num 0x28 read 0x3D a.addr

/-- BEAT_CEIL (18 R525): a request that is not taken is not issued; a data beat that is not taken stays offered and its loaf
replays, or goes on where it is released, and a write of no loaf takes the action of its own ceiling (11 R562); a read whose next beat does
not come is abandoned. -/
def execBeatCeil (aid : Nat) (w : BeatWait) (s : State) : Out :=
  match s.access aid with
  | none => .next s
  | some a =>
    if s.fatal then .next s
    else
      match w with
      | .request =>
        if offered s a then .next ((((s.unIssue a).notIssued a (beatFaultAt a) (fun t => t.ceilEffect a))).drainHeld) else .next s
      | .data =>
        match a.purpose with
        | .write c i num =>
          match slotAt s c i with
          | some x => if isReleased x num || decide (a.toSend = 0) then .next s else .next (beatFaultAt a s x num false)
          | none => .next s
        | .oldWrite _ _ _ _ => .next s
        | _ => if a.write then .next (((((s.logDirty a.iid a.addr).quarantine a).ceilEffect a)).drainHeld) else .next s
      | .response =>
        if a.write then .next s
        else .next ((((s.logPage a).quarantine a).notIssued a (beatFaultAt a) (fun t => t.ceilEffect a)).drainHeld)

/-! Cut-offs (07 R242). -/

/-- Picoseconds of a cycle of a domain's clock (15 R449, R456, R462). -/
def cyclePs (s : State) (d : Nat) : Nat :=
  if srcOf s d = 0 then 10000
  else if 2 ≤ d ∧ d ≤ 17 then [500, 625, 1000, 2000].getD (inForce s) 500
  else if d = 20 then 2000 else 625

/-- The domain of an arbiter (07 R235). -/
def arbDomain (a : Nat) : Nat :=
  if a < 16 then 2 + a else if a < 32 then 19 else if a = 32 then 18 else if a = 33 then 20 else a - 32

/-- A cut-off that replays nothing is logged as ARB_CUTOFF. -/
def State.logCutoff (s : State) (a r : Nat) : State := s.logErr (mkErr 0 (arbDomain a) 0x36 0 0 63 0 0 a r)

/-- The latest access that f picks. -/
def latestAccess (s : State) (f : Access → Bool) : Option Access := leastBy (fun a => s.nextAid - a.aid) (s.acc.filter f)

/-- The fault of a loaf whose request is cut off at its port. -/
def cutFaultAt (s : State) (x : Slot) (num : Nat) (_ : Bool) : State := s.internalFault x.clu x.idx num 0x23

/-- A service access cut off at its port's arbiter: as on its own ceiling, a poll abandoned and every other issued again. -/
def State.cutService (s : State) (a : Access) (port req : Nat) : State :=
  let s1 := s.logCutoff port req
  match a.purpose with
  | .errLog _ _ => s1.errAgain a
  | .record _ _ _ _ _ => s1.recordAgain a 0
  | .notice _ => s1.recordAgain a 0
  | .root _ => s1.pollFail a.iid
  | .leaf _ _ => s1.pollFail a.iid
  | .doorbell _ _ _ => s1.pollFail a.iid
  | .oldWrite q i p _ => s1.settleOf q i p
  | .oldRead q i p _ => s1.settleOf q i p
  | .fedCkpt => s1
  | _ => s1.serviceAgain a (keyOf a)

/-- The requester of a port arbiter whose transfer is cut off. -/
def State.cutPort (s : State) (p req : Nat) : State :=
  match latestAccess s (fun a => a.port == p) with
  | none => s
  | some a =>
    if portRequester a.purpose a.write = some req ∧ offered s a = true then
      let anew := match a.purpose with
        | .write c i num => (match slotAt s c i with | some x => isReleased x num | none => false)
        | _ => false
      ((((if anew then s.logCutoff p req else s).cutOff p req (cyclePs s (arbDomain p))).unIssue a).notIssued a cutFaultAt (fun t => t.cutService a p req)).drainHeld
    else s

/-- A poll engine's access is cut off: the poll is abandoned. -/
def State.cutPoll (s : State) (e : Nat) : State :=
  match s.polls.find? (fun p => p.engine == e) with
  | none => s
  | some p =>
    match latestAccess s (fun a => decide (unitOf a.purpose = 1) && decide (a.iid = p.iid)) with
    | none => s
    | some a => (((((s.logPage a).cutOff 32 e (cyclePs s 18)).quarantine a).logCutoff 32 e).pollFail a.iid).drainHeld

/-- An access of the admin processor is cut off and issued again after the lockout. -/
def State.cutAdmin (s : State) (r : Nat) : State :=
  match latestAccess s (fun a => decide (admRequester a.purpose = some r)) with
  | none => s
  | some a => ((((s.cutOff 33 r (cyclePs s 20)).quarantine a).logCutoff 33 r).reissue { a with toSend := 0 }).drainHeld

/-- A beat of a datapath arbiter is abandoned: its loaf replays; a beat of a released loaf, of a record or of a dropped attempt is
formed again, which is no replay and is logged. -/
def State.cutBeat (s : State) (clu i : Nat) : State :=
  match slotJob s clu i with
  | none => s
  | some (j, _) =>
    let s1 := s.cutOff (34 + clu) i 0
    let fault := fun (num : Nat) =>
      match slotAt s clu i with
      | some x => if isReleased x num then s1.logCutoff (34 + clu) i else s1.internalFault clu i num 0x23
      | none => s1
    match j with
    | .line _ => s1.logCutoff (34 + clu) i
    | .write _ num => fault num
    | .verify num => fault num
    | .check num => fault num

/-- HOLD_CEIL (07 R242): a transfer runs past HOLD_CEIL; its requester is cut off and locked out. -/
def execHoldCeil (arb req : Nat) (s : State) : Out :=
  if arbSize arb ≤ req then .fault .noSuchUnit
  else if s.fatal || !s.rstN || lockedOut s arb (reqOf (arbOf s arb) req) then .next s
  else if arb < 16 then .next (s.cutPort arb req)
  else if arb < 32 then .next (((s.cutOff arb req (cyclePs s 19)).bankWait arb req true).logCutoff arb req)
  else if arb = 32 then .next (s.cutPoll req)
  else if arb = 33 then .next (s.cutAdmin req)
  else .next (s.cutBeat (arb - 34) req)

/-! Forced wins (07 R240). -/

/-- The state that an outcome gives; none where it stops. -/
def nextOf (o : Out) : List State := match o with | .next t => [t] | _ => []

/-- The next round of an arbiter, as far as it may grant now: each state that it can lead to. At a port it is that of the accesses that
wait there, or that of a cluster stream, against which the other stream's request is raised; at a context bank, in the poll-issue
arbiter, at the admin arbiter and in a datapath arbiter it is the arbiter's own. -/
def roundsOf (s : State) (a r : Nat) : List State :=
  if a < 16 then
    let rivals := if r ≤ 1 then [r] else []
    s.grantNext :: (List.range 34).flatMap (fun i =>
      nextOf (execReadRequestIssue a i false rivals s) ++ nextOf (execReadRequestIssue a i true rivals s) ++ nextOf (execWriteRequestIssue a i rivals s))
  else if a < 32 then [s.bankGrant a]
  else if a = 32 then s.polls.flatMap (fun p => nextOf (execPollAccessIssue p.iid s))
  else if a = 33 then [s.grantNext]
  else nextOf (execDatapathBeat (a - 34) s)

/-- FORCED_WIN (07 R240): a candidate loses the round that takes its wait counter to WAIT_LIMIT, and its forced flag is set: the round is
run, with the grant that it gives. -/
def execForcedWin (a r : Nat) (s : State) : Out :=
  if arbSize a ≤ r then .fault .noSuchUnit
  else
    let q := reqOf (arbOf s a) r
    if s.fatal || lockedOut s a q || !q.raised || q.forced then .next s
    else .next (((roundsOf s a r).find? (fun t => (reqOf (arbOf t a) r).forced)).getD s)

/-! Quarantine and credits. -/

/-- QUARANTINE_END (05 R173): the tag or write ID returns to use; a write's page is logged again (10 R339), and a descriptor
that waited for it settles. -/
def execQuarantineEnd (aid : Nat) (s : State) : Out :=
  match s.quar.find? (fun q => q.acc.aid == aid) with
  | none => .next s
  | some q =>
    if s.fatal || !s.rstN || decide (s.nomNs < q.freeAt) then .next s
    else
      let s1 := { s with quar := s.quar.filter (fun x => x.acc.aid != aid) }
      let s2 := s1.logPage q.acc
      match q.acc.purpose with
      | .oldWrite d i p _ => .next ((s2.settleOf d i p).drainHeld)
      | _ => .next s2.drainHeld

/-- One credit more, up to the channel's maximum (18 R517). -/
def creditMore (chan : CreditChan) (c : Nat × Nat × Nat) : Nat × Nat × Nat :=
  match chan with
  | .rq => (min 64 (c.1 + 1), c.2.1, c.2.2)
  | .wq => (c.1, min 64 (c.2.1 + 1), c.2.2)
  | .wd => (c.1, c.2.1, min 256 (c.2.2 + 1))

/-- FABRIC_CREDIT (18 R517, R519): credits before fpn_active rises are ignored. -/
def execFabricCredit (port : Nat) (chan : CreditChan) (s : State) : Out :=
  if 16 ≤ port then .fault .noSuchUnit
  else if s.fatal || !s.portActive.contains port then .next s
  else .next ({ s with credits := assocPut s.credits port (creditMore chan (creditsOf s port)) }.drainHeld)

end Sys2Proof.Machine
end

