-- ==== Sys2Proof/Machine/RegPort.lean ====
section
/-! DEFINITION. The register port (16 R475 to R497, 18 R526 to R529): which response an access gets, what a write that is
answered OK does, the indirect pairs and their spaces, the parity and shadow of configuration registers, and agent
resets. -/

namespace Sys2Proof.Machine

/-! Responses (16 R478). -/

/-- The response to the last access: 0 OK, 1 GATED, 2 PROT, 3 PARITY; data is zero for writes and other responses. -/
def State.answer (s : State) (agent code : Nat) (data : W32) : State :=
  { s with resp := some { agent := agent, code := code, data := if code = 0 then data else 0 } }

/-- Agent a holds pair p (16 R493). -/
def holds (s : State) (p a : Nat) : Bool :=
  bit (s.rd .regIndClaim p) 2 && decide (bits (s.rd .regIndClaim p) 0 2 = a)

/-- The pair whose ADDR or DATA register lies at a canonical offset. -/
def pairAt (off : Nat) : Option Nat :=
  if 0x2100 ≤ off ∧ off < 0x2140 ∧ (off % 16 = 4 ∨ off % 16 = 8) then some ((off - 0x2100) / 16) else none

/-- The access is to a pair that its agent does not hold (16 R494). -/
def pairRefused (s : State) (off agent : Nat) : Bool :=
  match pairAt off with | some p => !holds s p agent | none => false

/-- WORD, SPACE and STRIDE of pair p. -/
def indWord (s : State) (p : Nat) : Nat := s.fld .regIndAddr p 0 20
/-- SPACE. -/
def indSpace (s : State) (p : Nat) : Nat := s.fld .regIndAddr p 20 3
/-- STRIDE. -/
def indStride (s : State) (p : Nat) : Nat := s.fld .regIndAddr p 24 4

/-- An access to the data register of pair p. -/
def dataPair (off : Nat) : Option Nat := if off % 16 = 8 then pairAt off else none

/-- The domain of the unit that holds a register, or a word of IS0 to IS2 (15 R456). -/
def targetDomain (a : Nat) : Nat :=
  if 0x20000 ≤ a then 21
  else if 0x10000 ≤ a then 19
  else if 0x8000 ≤ a then 2 + (2 * ((a - 0x8000) / 0x1000) + a / 0x400 % 2)
  else if a < 0x1000 then 1
  else if a < 0x2000 then 0
  else if a < 0x3000 then 1
  else if a < 0x4000 then 18
  else if a < 0x5000 then 19
  else if a < 0x6000 then 20
  else if a < 0x63C8 then 21
  else if a < 0x7000 then 22
  else if a < 0x7040 then 20
  else if a < 0x7100 then 23 + a / 4 % 4
  else if a < 0x7300 then 26
  else 27

/-- The domain that holds a word of an indirect space: the instance table and the context cache CTX, routing and line counters
EVM, the staging area and manifests ADM, what TST and SUP keep none. -/
def spaceDomain (sp w : Nat) : Nat :=
  if sp = 0 ∨ sp = 4 then 19 else if sp = 1 ∨ sp = 2 ∨ (sp = 3 ∧ w < 0x800) then 21 else if sp = 3 then 22
  else if sp = 5 ∨ sp = 7 then 20 else 1

/-- The unit of an access is stopped by gating (15 R467, R469; 13, 19 R542; 17 R501); that of the timebase never is. -/
def unitStopped (s : State) (off : Nat) : Bool :=
  match dataPair off with
  | some p =>
    let d := spaceDomain (indSpace s p) (indWord s p)
    if d = 22 then !telOn s else !domainRuns s d
  | none =>
    let d := targetDomain off
    if d = 22 then decide (0x63D8 ≤ off) && !telOn s else !domainRuns s d

/-- An access that is not answered before the forced switch of its clock, of CFG or for the debug registers of DBG (15 R459): one made
while that clock hangs. -/
def hangCuts (s : State) (off : Nat) : Bool :=
  s.muxes.any (fun x => x.domain == 1 || (x.domain == 27 && decide (targetDomain off = 27)))

/-- A write to this offset needs the protected attribute (16 R477, R478, R484). -/
def needsProt (s : State) (off : Nat) : Bool :=
  decide (off / 0x1000 = 1) || decide (off / 0x1000 = 7) || bit (s.rd .regProtMap 0) (off / 0x1000) ||
  decide (off = Reg.regLock.base) || decide (off = Reg.regProtMap.base)

/-! The guard of the event matrix (12 R387). -/

/-- PROT of event set j. -/
def setProt (s : State) (j : Nat) : Bool := decide (setOwner s.evm j / 2 ^ 12 % 2 = 1)

/-- An element of EVM_LINE_CTL or EVM_SET_OWNER changes whose PROT is 1 or changes. -/
def elemGuard (old new : W32) : Bool :=
  [0, 1].any (fun h => decide (bits old (16 * h) 16 ≠ bits new (16 * h) 16) && (bit old (16 * h + 12) || bit new (16 * h + 12)))

/-- A word of IS1 changes a bit of a protected line or set. -/
def is1Guard (s : State) (w : Nat) (old new : W32) : Bool :=
  (List.range 32).any (fun k => (bit old k ^^ bit new k) &&
    (lineProt s (32 * (w % 8) + k) || (decide (128 ≤ w / 8) && decide (w / 8 < 144) && setProt s (w / 8 - 128))))

/-- The event set that a sink belongs to (12 R385). -/
def sinkSet (k : Nat) : Option Nat :=
  if 256 ≤ k ∧ k < 384 then some ((k - 256) / 8) else if 432 ≤ k ∧ k < 496 then some ((k - 432) / 4) else none

/-- A word of IS2 changes a bit of a protected line or set. -/
def is2Guard (s : State) (w : Nat) (old new : W32) : Bool :=
  (List.range 32).any (fun k => (bit old k ^^ bit new k) &&
    (lineProt s (w / 16) || (match sinkSet (32 * (w % 16) + k) with | some j => setProt s j | none => false)))

/-- A write without the protected attribute that R387 refuses. -/
def evmRefused (s : State) (w : RegWrite) (off : Nat) : Bool :=
  let other := decide (w.agent ≠ 0)
  match regAtOffset off with
  | none => false
  | some r =>
    let i := r.index off
    let old := s.stored r i
    if r.base = Reg.evmLineCtl.base then other || elemGuard old (r.merge old w.data)
    else if r.base = Reg.evmSetOwner.base then other || elemGuard old (r.merge old w.data)
    else if r.base = Reg.evmKickMap.base then other || (decide (old ≠ r.merge old w.data) && setProt s (2 * i / 8))
    else
      match dataPair off with
      | some p =>
        let x := indWord s p
        if indSpace s p = 1 then decide (x < 4096) && (other || is1Guard s x (s.evm.is1.get x) w.data)
        else if indSpace s p = 2 then decide (x < 4096) && (other || is2Guard s x (s.evm.is2.get x) w.data)
        else false
      | none => false

/-- The response to a write (16 R478; 19 R544). -/
def writeCode (s : State) (w : RegWrite) : Nat :=
  let off := canonOffset w.offset
  if !w.parityOk || hangCuts s off then 3
  else if s.fatal then 2
  else if s.mode = .bringup then 1
  else if s.mode = .rest ∧ 0x2000 ≤ off then 1
  else if (!w.prot && (needsProt s off || evmRefused s w off)) || pairRefused s off w.agent then 2
  else if unitStopped s off then 1
  else 0

/-- The response to a read (16 R478; 19 R544). In the FATAL state ERR_FATAL and page 0x0 are answered as the later rows say (11 R350). -/
def readCode (s : State) (r : RegRead) : Nat :=
  let off := canonOffset r.offset
  if !r.parityOk || hangCuts s off then 3
  else if s.fatal && decide (off ≠ Reg.errFatal.base) && decide (0x1000 ≤ off) then 2
  else if (s.mode = .bringup ∨ s.mode = .rest) ∧ 0x2000 ≤ off then 1
  else if pairRefused s off r.agent then 2
  else if unitStopped s off then 1
  else 0

/-- The port takes accesses (19 R542, 16 R487). -/
def portTakes (s : State) : Bool := s.rstN && decide (s.mode ≠ .reset)

/-! The indirect spaces (16 R495, R496; 17 R506 to R510). -/

/-- A word of IS4 as the context cache holds it (17 R507), before what TEST wrote. -/
def is4Base (s : State) (w : Nat) : W32 :=
  if s.ctxZero ∨ 0x84000 ≤ w then 0
  else if w < 0x80000 then
    match s.ways.find? (fun x => wayEntry x.qid x.way == w / 32) with
    | some x => BitVec.ofNat 32 (bits (wd x.ctx.toWords (w % 32 / 2)) (32 * (w % 2)) 32)
    | none => if s.usedWays.contains (w / 32) then Config.staleWord w else 0
  else
    let e := w - 0x80000
    let first := e / 1024 + 16 * (e / 4 % 256)
    match s.ways.find? (fun x => wayEntry x.qid x.way == e) with
    | some x => (pack [(0, 22, x.qid), (22, 1, 1), (23, 1, flag x.dirty), (24, 1, flag (pinned s x.qid)), (25, 2, x.age)]).setWidth 32
    | none =>
      let before := ((List.range (e % 4)).filter (fun k => !s.ways.any (fun x => sameSet x.qid first && x.way == k))).length
      (pack [(25, 2, (freeAges s first).getD before 0)]).setWidth 32

/-- A word of IS4: what TEST wrote there, as long as the cache has not written the word since, else what the context cache holds
(17 R507, R508). -/
def is4Word (s : State) (w : Nat) : W32 :=
  let now := is4Base s w
  if s.is4Seen.get w = now then now ^^^ s.is4.get w else now

/-- What a read of a word of a space returns. -/
def indRead (s : State) (sp w : Nat) : W32 :=
  if sp = 0 then (if w < 65536 then s.is0.get w else 0)
  else if sp = 1 then (if w < 4096 then s.evm.is1.get w else 0)
  else if sp = 2 then (if w < 4096 then s.evm.is2.get w else 0)
  else if sp = 3 then is3Word s w
  else if sp = 4 then (if w < 0x84000 then is4Word s w else 0)
  else if sp = 5 then
    match s.staged[w / 4]? with
    | some x => BitVec.ofNat 32 (bits (if w % 4 < 2 then x.1 else x.2) (32 * (w % 2)) 32)
    | none => 0
  else if sp = 6 then is6Word s w
  else if w < 64 then is7Word s (w / 16) (w % 16)
  else 0

/-- Bits of an IS0 word that are Refused in RUN (10 R313). -/
def is0Refused (w : Nat) : Nat :=
  [0x1FFFF, 0xFFFFF, 0x3FFFFF, 0xFFFF, 0xFFFFF000, 0xFFFFFFFF, 0xFFFFFFC0, 0xFFFFFFFF].getD w 0

/-- Bits of an IS0 word that LOCK_SETUP freezes (16 R492). -/
def is0Frozen (w : Nat) : Nat := [0x1FFFF, 0xFFFFF, 0x3FFFFF, 0xFFFF].getD w 0

/-- A word of the instance table is written (10 R313, R317; 16 R486, R492). -/
def State.is0Write (s : State) (x : Nat) (data : W32) (agent off : Nat) : State :=
  let w := x % 16
  if 65536 ≤ x ∨ 13 ≤ w then s
  else
    let old := s.inst (x / 16) w
    let new := data &&& ~~~(BitVec.ofNat 32 (imageReserved w))
    if setupLocked s && decide ((old ^^^ new) &&& BitVec.ofNat 32 (is0Frozen w) ≠ 0) then s.reportDrop 2 agent off
    else if refusing s && decide ((old ^^^ new) &&& BitVec.ofNat 32 (is0Refused w) ≠ 0) then s.reportDrop 1 agent off
    else s.putInst (x / 16) w new

/-- A word of the routing matrices lands in both banks (09 R311). -/
def State.is12Write (s : State) (second : Bool) (x : Nat) (data : W32) : State :=
  if 4096 ≤ x then s
  else
    let f := fun (b : EvmBank) => if second then { b with is2 := b.is2.put x data } else { b with is1 := b.is1.put x data }
    s.reroute (fun t => { t with evm := f t.evm, evmPend := f t.evmPend })

/-- A word of IS3 is written as it stands. -/
def State.putIs3 (s : State) (w : Nat) (v : W32) : State := { s with is3 := s.is3.put w v }

/-- A word of trace slot k is written (13 R416): its ring, queue and size are refused while it runs; EN rising starts it anew. -/
def State.traceWrite (s : State) (k w : Nat) (data : W32) (agent off : Nat) : State :=
  let base := 0x69300 + 8 * k
  let old := is3Word s (base + w)
  let new := if w = 0 then data &&& 0xFFFFF000 else if w = 1 then data else data &&& 0xFFFFFFF
  let fixed := if w = 2 then (old ^^^ new) &&& 0x7FFFFFF else old ^^^ new
  if bit (traceWord2 s k) 27 && decide (fixed ≠ 0) then s.reportDrop 1 agent off
  else if w = 2 then
    let t := s.putIs3 (base + 2) (new ^^^ 0x1C00000)
    if bit new 27 && !bit old 27 then (t.putIs3 (base + 3) 0).putIs3 (base + 4) 0 else t
  else s.putIs3 (base + w) new

/-- A word of threshold t is written (13 R410). -/
def State.thrWrite (s : State) (t w : Nat) (data : W32) : State :=
  if w = 0 then
    let s1 := (s.putIs3 (0x69000 + 4 * t) (data &&& 0x3FFFFF)).setThr t false
    if bits data 20 2 = 3 then { s1 with thrPrev := assocPut s1.thrPrev t (is3Word s1 (bits data 0 20)) } else s1
  else s.putIs3 (0x69000 + 4 * t + w) data

/-- A word of IS3 is written: thresholds, timers, snapshot sinks and trace slots (13 R406, R410, R411, R415, R416). -/
def State.is3Write (s : State) (x : Nat) (data : W32) (agent off : Nat) : State :=
  if 0x69000 ≤ x ∧ x < 0x69100 then
    if x % 4 = 3 then s else (s.thrWrite ((x - 0x69000) / 4) (x % 4) data).refreshEvm
  else if 0x69100 ≤ x ∧ x < 0x69140 then
    if x % 2 = 0 then s.putIs3 x data
    else
      let k := (x - 0x69100) / 2
      let t := (s.putIs3 x (data &&& 3)).timerModeSet k
      if bits data 0 2 = 3 then t.timerGate k (timerHigh t k) else t
  else if 0x69200 ≤ x ∧ x < 0x69240 then
    let mask : W32 := if x % 4 = 0 then 0xFFFFFFC0 else if x % 4 = 1 then 0xFFFFFFFF else if x % 4 = 2 then 0x1FFFF else 0x3FFFFF
    s.putIs3 x (data &&& mask)
  else if 0x69300 ≤ x ∧ x < 0x69340 ∧ x % 8 < 3 then s.traceWrite ((x - 0x69300) / 8) (x % 8) data agent off
  else s

/-- What a write of a word of a space does; other writes are dropped without a report (16 R496). -/
def State.indStore (s : State) (sp x : Nat) (w : RegWrite) (off : Nat) : State :=
  if sp = 0 then s.is0Write x w.data w.agent off
  else if sp = 1 then s.is12Write false x w.data
  else if sp = 2 then s.is12Write true x w.data
  else if sp = 3 then s.is3Write x w.data w.agent off
  else if sp = 4 then
    if s.mode = .test ∧ x < 0x84000 then { s with is4 := s.is4.put x (w.data ^^^ is4Base s x), is4Seen := s.is4Seen.put x (is4Base s x) } else s
  else if sp = 6 then
    if decide (s.mode = .test) && w.prot && decide (64 ≤ x) && decide (x % 4 = 2) && decide (x < 64 + 4 * nMacro) then
      { s with is6 := s.is6.put x w.data }
    else s
  else s

/-- WORD of pair p advances by STRIDE (16 R495). -/
def State.indAdvance (s : State) (p : Nat) : State := s.setFld .regIndAddr p 0 20 (indWord s p + indStride s p)

/-- A data write of pair p answered OK. -/
def State.indWrite (s : State) (p : Nat) (w : RegWrite) (off : Nat) : State :=
  (s.indStore (indSpace s p) (indWord s p) w off).indAdvance p

/-! Writes answered OK. -/

/-- A write to a claim register (16 R493). -/
def State.claimWrite (s : State) (p agent : Nat) (data : W32) (off : Nat) : State :=
  let c := s.rd .regIndClaim p
  if (!bit c 2 && bit data 2 && decide (bits data 0 2 = agent)) || (holds s p agent && !bit data 2) then
    s.wr .regIndClaim p (data &&& 7)
  else s.reportDrop 3 agent off

/-- A write to REG_LOCK (16 R484). -/
def State.lockWrite (s : State) (agent : Nat) (data : W32) (off : Nat) : State :=
  if !bit data 0 then s
  else if setupLocked s then s.reportDrop 2 agent off
  else s.wr .regLock 0 1

/-- What a write that is answered OK does (16 R479, R481, R483, R486; 17 R500). -/
def State.writeOk (s : State) (w : RegWrite) (off : Nat) : State :=
  match regAtOffset off with
  | none => s
  | some r =>
    let i := r.index off
    if r.sBits ≠ 0 then s.seqClear r i w.data
    else if r.base = Reg.regIndClaim.base then s.claimWrite i w.agent w.data off
    else if r.base = Reg.regIndAddr.base then s.wr r i (w.data &&& BitVec.ofNat 32 r.xBits)
    else if r.base = Reg.regIndData.base then s.indWrite i w off
    else if r.base = Reg.regLock.base then s.lockWrite w.agent w.data off
    else if r.pBits = 0 ∧ r.mBits = 0 then s
    else
      let old := s.stored r i
      let new := r.merge old w.data
      let k := dropReason s r old new w.data
      if k ≠ 0 then s.reportDrop k w.agent off else s.regStore r i old new w.agent

/-- Any access wakes the block in REST (15 R472, R473). -/
def State.accessWakes (s : State) : State := s.wakeBy 1

/-- A write through the register port (16 R478, R485; 18 R526 to R528). -/
def State.regWrite (s : State) (w : RegWrite) : State :=
  if !portTakes s then s
  else
    let c := writeCode s w
    let s1 := if c = 0 then s.writeOk w (canonOffset w.offset) else s
    (s1.answer w.agent c 0).accessWakes

/-- A read through the register port: `f` is what an answered read does beside its answer. -/
def State.regRead (s : State) (r : RegRead) (data : W32) (f : State → State) : State :=
  if !portTakes s then s
  else
    let c := readCode s r
    let s1 := if c = 0 then f s else s
    (s1.answer r.agent c data).accessWakes

/-- A byte offset reaches an instance of register r (16 R475). -/
def reaches' (a : Nat) (r : Reg) : Bool :=
  match regAtOffset (canonOffset a) with | some q => q.base == r.base | none => false

/-- A register write of a row of its own: the write, where it is one of that row. -/
def writeRow (w : RegWrite) (mine : Bool) (s : State) : Out :=
  if 3 ≤ w.agent then .fault .noSuchUnit else if mine then .next (s.regWrite w) else .next s

/-- The write reaches a register with a status field. -/
def reachesS (a : Nat) : Bool :=
  match regAtOffset (canonOffset a) with | some q => decide (q.sBits ≠ 0) | none => false

/-! The rows of writes. -/

/-- REGISTER_WRITE (16 R485). -/
def execRegisterWrite (w : RegWrite) (s : State) : Out := writeRow w true s

/-- SEQ_WRITE_BACK (16 R483, R560; 12 R392). -/
def execSeqWriteBack (w : RegWrite) (s : State) : Out := writeRow w (reachesS w.offset) s

/-- ERR_FATAL_WRITE_BACK (11 R351). -/
def execErrFatalWriteBack (w : RegWrite) (s : State) : Out := writeRow w (reaches' w.offset .errFatal) s

/-- LOCK_SETUP (16 R484, R492). -/
def execLockSetup (w : RegWrite) (s : State) : Out := writeRow w (reaches' w.offset .regLock && bit w.data 0) s

/-- IND_CLAIM (16 R493). -/
def execIndClaim (w : RegWrite) (s : State) : Out := writeRow w (reaches' w.offset .regIndClaim) s

/-- IND_DATA_WRITE (16 R494 to R496). -/
def execIndDataWrite (w : RegWrite) (s : State) : Out := writeRow w (reaches' w.offset .regIndData) s

/-- TB_ADJ_WRITE (13 R395). -/
def execTbAdjWrite (w : RegWrite) (s : State) : Out := writeRow w (reaches' w.offset .telTbAdj) s

/-- TB_RATE_WRITE (13 R395). -/
def execTbRateWrite (w : RegWrite) (s : State) : Out := writeRow w (reaches' w.offset .telTbRate) s

/-- ADM_Q_ENABLE_SET (09 R275, R280). -/
def execAdmQEnableSet (w : RegWrite) (s : State) : Out :=
  writeRow w (reaches' w.offset .admQCtl && bit w.data 20 && bit w.data 4) s

/-- ADM_Q_ENABLE_CLEAR (09 R280). -/
def execAdmQEnableClear (w : RegWrite) (s : State) : Out :=
  writeRow w (reaches' w.offset .admQCtl && bit w.data 20 && !bit w.data 4) s

/-- ECC_INJ (06 R217, CLUn_ECC_INJ). -/
def execEccInj (w : RegWrite) (s : State) : Out := writeRow w (reaches' w.offset .cluEccInj) s

/-- EVM_WFLAG_WRITE (12 R383). -/
def execEvmWflagWrite (w : RegWrite) (s : State) : Out := writeRow w (reaches' w.offset .evmWflag) s

/-- EVM_LINE_CTL_WRITE (12 R379, R387, R389). -/
def execEvmLineCtlWrite (w : RegWrite) (s : State) : Out := writeRow w (reaches' w.offset .evmLineCtl) s

/-- FED_RESYNC_WRITE (14 R431). -/
def execFedResyncWrite (w : RegWrite) (s : State) : Out := writeRow w (reaches' w.offset .fedResync) s

/-- DBG_MEM_GO (17 R504). -/
def execDbgMemGo (w : RegWrite) (s : State) : Out := writeRow w (reaches' w.offset .dbgMemCtl && bit w.data 23) s

/-- DBG_POLL_GO (17 R505). -/
def execDbgPollGo (w : RegWrite) (s : State) : Out := writeRow w (reaches' w.offset .dbgPoll && bit w.data 12) s

/-- PLL_RESTART (15 R454). -/
def execPllRestart (w : RegWrite) (s : State) : Out := writeRow w (reaches' w.offset .clkPllCmd) s

/-- P_LEVEL_CHANGE (15 R464 to R466). -/
def execPLevelChange (w : RegWrite) (s : State) : Out := writeRow w (reaches' w.offset .pwrCtl) s

/-- CLK_GATE_WRITE (15 R467, R468). -/
def execClkGateWrite (w : RegWrite) (s : State) : Out := writeRow w (reaches' w.offset .clkGate) s

/-- MODE_REQ_RUN (19 R543, R545). -/
def execModeReqRun (w : RegWrite) (s : State) : Out := writeRow w (reaches' w.offset .glbMode && decide (bits w.data 8 3 = 3)) s

/-- MODE_REQ_CONFIGURE (19 R543, R545). -/
def execModeReqConfigure (w : RegWrite) (s : State) : Out := writeRow w (reaches' w.offset .glbMode && decide (bits w.data 8 3 = 2)) s

/-- MODE_REQ_TEST (19 R543, R545). -/
def execModeReqTest (w : RegWrite) (s : State) : Out := writeRow w (reaches' w.offset .glbMode && decide (bits w.data 8 3 = 5)) s

/-- MBIST_GO (19 R551). -/
def execMbistGo (w : RegWrite) (s : State) : Out := writeRow w (reaches' w.offset .tstMbistCtl && bit w.data 20) s

/-- TST_RUN (19 R555, R556). -/
def execTstRun (w : RegWrite) (s : State) : Out := writeRow w (reaches' w.offset .tstCtl) s

/-- TST_INJ (19 R554, TST_UNIT_CTL). -/
def execTstInj (w : RegWrite) (s : State) : Out := writeRow w (reaches' w.offset .tstUnitCtl && bit w.data 7) s

/-! The rows of reads. -/

/-- IND_DATA_READ (16 R494, R495). -/
def execIndDataRead (r : RegRead) (s : State) : Out :=
  if 3 ≤ r.agent then .fault .noSuchUnit
  else
    match dataPair (canonOffset r.offset) with
    | some p => .next (s.regRead r (indRead s (indSpace s p) (indWord s p)) (fun t => t.indAdvance p))
    | none => .next s

/-- TB_LO_READ (13 R399): the high half is latched for the reading agent. -/
def execTbLoRead (r : RegRead) (s : State) : Out :=
  if 3 ≤ r.agent then .fault .noSuchUnit
  else if !reaches' r.offset .telTbLo then .next s
  else .next (s.regRead r (s.timebase.setWidth 32)
    (fun t => { t with tbLatch := assocPut t.tbLatch r.agent ((s.timebase >>> 32).setWidth 32) }))

/-- The SEQ that an agent reads becomes its last-read value of the register (16 R482). -/
def State.noteRead (s : State) (agent off : Nat) (v : W32) : State :=
  if reachesS off then
    { s with lastRead := (agent, off, bits v 24 8) :: s.lastRead.filter (fun x => !(x.1 == agent && x.2.1 == off)) }
  else s

/-- S_CLASS_READ (16 R481, R482): a read of a direct register whose read has no row of its own. -/
def execSClassRead (r : RegRead) (s : State) : Out :=
  if 3 ≤ r.agent then .fault .noSuchUnit
  else if reaches' r.offset .telTbLo || reaches' r.offset .regIndData then .next s
  else
    let off := canonOffset r.offset
    let v := readReg s r.agent off
    .next (s.regRead r v (fun t => t.noteRead r.agent off v))

/-- REG_ACCESS_CEIL (16 R478): an access that its domain does not accept within 512 CFG cycles; one that an earlier row answers is
answered so. -/
def execRegAccessCeil (agent offset : Nat) (s : State) : Out :=
  if 3 ≤ agent then .fault .noSuchUnit
  else if !portTakes s then .next s
  else
    let c := readCode s { agent := agent, offset := offset, prot := true, parityOk := true }
    if c ≠ 0 then .next ((s.answer agent c 0).accessWakes)
    else
      let s1 := if s.fatal then s else s.logErr (mkErr 3 1 0x4D 0 0 63 0 0 (canonOffset offset) agent)
      .next ((s1.answer agent 1 0).accessWakes)

/-! Parity and the shadow (16 R489 to R491; 11 R349). -/

/-- What a configuration target holds (16 R491): the word of an indirect space, its space and number; or a register, its
instance, and its bits of class P, M or L. -/
inductive Target where
  | is0 (w : Nat)
  | is1 (w : Nat)
  | is2 (w : Nat)
  | reg (r : Reg) (i mask : Nat)
  deriving DecidableEq, Repr

/-- The target that an offset of R491 names. -/
def targetOf (a : Nat) : Option Target :=
  if 0x30000 ≤ a then (if a < 0x31000 then some (.is2 (a - 0x30000)) else none)
  else if 0x20000 ≤ a then (if a < 0x21000 then some (.is1 (a - 0x20000)) else none)
  else if 0x10000 ≤ a then (if a % 16 < 13 then some (.is0 (a - 0x10000)) else none)
  else if canonOffset a = a then
    match regAtOffset a with
    | some r => if r.pBits = 0 ∧ r.mBits = 0 ∧ r.lBits = 0 then none else some (.reg r (r.index a) (r.pBits ||| r.mBits ||| r.lBits))
    | none => none
  else none

/-- The target's fields take a value v, its other bits staying. -/
def State.putTarget (s : State) (x : Target) (v : W32) : State :=
  match x with
  | .is0 w => s.setInst (w / 16) (w % 16) v
  | .is1 w => s.is12Write false w v
  | .is2 w => s.is12Write true w v
  | .reg r i mask =>
    let m := BitVec.ofNat 32 mask
    (s.putReg r i ((s.stored r i &&& ~~~m) ||| (v &&& m))).refreshEvm

/-- The value of a target at reset. -/
def Target.reset (x : Target) : W32 := match x with | .reg r _ _ => BitVec.ofNat 32 r.reset | _ => 0

/-- An event of REG_SHADOW_STAT: status bit k, with LAST_OFFSET. -/
def State.shadowEvent (s : State) (k a : Nat) : State :=
  s.sEvent .regShadowStat 0 (fun w => withBits (withBits w k 1 1) 8 16 a)

/-- REG_PARITY_FAULT (16 R489, R490; 11 R349): the flop is reloaded from its shadow; with an uncorrectable shadow the fault is
FATAL on pages 0x1 and 0x7, else DEVICE, and the register takes its reset value. -/
def execRegParityFault (target : Nat) (flop : W32) (shadowBad : Bool) (s : State) : Out :=
  match targetOf target with
  | none => .next s
  | some x =>
    if !s.rstN || s.fatal then .next s
    else if !shadowBad then
      .next (((s.logErr (mkErr 0 (targetDomain target) 0x31 0 0 63 0 0 target 0)).shadowEvent 0 target).bump .regReloads 0 0 32 1)
    else if target / 0x1000 = 1 ∨ target / 0x1000 = 7 then
      .next ((s.putTarget x flop).goFatal (fun w => withBits (withBits w 0 1 1) 2 16 target))
    else
      .next (((s.logErr (mkErr 3 (targetDomain target) 0x47 0 0 63 0 0 target 1)).shadowEvent 1 target).putTarget x x.reset)

/-- SHADOW_SCRUB (16 R490; 11 R349): the walker reads a shadow word whose flop is sound. -/
def execShadowScrub (target : Nat) (found : EccMark) (s : State) : Out :=
  if (targetOf target).isNone || !s.rstN || s.fatal then .next s
  else
    match found with
    | .clean => .next s
    | .corrected => .next (s.bump .regShadowStat 0 2 6 1)
    | .uncorrectable =>
      .next ((s.logErr (mkErr 3 (targetDomain target) 0x47 0 0 63 0 0 target 0)).shadowEvent 1 target)

/-! Agent resets (18 R529; 16 R497; 09 R281, R301). -/

/-- A COMMIT that has not begun its apply span ends; any other command runs on, and its record is not written. -/
def State.admSilence (s : State) : State :=
  match s.adm.cmd with
  | none => s
  | some c =>
    let s1 := s.putCmd true (some { c with silent := true })
    if cOp c = 0x91 then
      (s1.unpin true c).admEnd true 1 0 0 0 0
    else s1

/-- The owner of admin queue 0 is reset. -/
def State.admOwnerReset (s : State) : State :=
  if admState s = 0 then s
  else
    let s1 := ((s.setFld .admQCtl 0 4 1 0).discardStaged).admForget
    if s1.adm.cmd.isNone then s1.setFld .admQStat 0 0 3 0 else (s1.setFld .admQStat 0 0 3 4).admSilence

/-- AGENT_RESET (18 R529). -/
def execAgentReset (agent : Nat) (s : State) : Out :=
  if 3 ≤ agent then .fault .noSuchUnit
  else if !s.rstN || s.fatal then .next s
  else
    let s1 := (List.range 4).foldl (fun t p => if holds t p agent then t.wr .regIndClaim p 0 else t) s
    let s2 : State := { s1 with tbLatch := assocDel s1.tbLatch agent, lastRead := s1.lastRead.filter (fun x => x.1 != agent) }
    .next (if s2.fld .admQStat 0 4 2 = agent then s2.admOwnerReset else s2)

end Sys2Proof.Machine
end

