-- ==== Sys2Proof/Machine/Dispatch.lean ====
section
/-! DEFINITION. One arm per command: its meaning, or a rejection by name. -/

namespace Sys2Proof.Machine

/-- The effect of a command on everything but the queue of waiting commands. -/
def exec (i : Instr) (s : State) : Host.Outcome State Fault Refusal :=
  match i with
  | .createInstance => Sys2Proof.Machine.execCreateInstance s
  | .modifyInstance => Sys2Proof.Machine.execModifyInstance s
  | .quiesceInstance => Sys2Proof.Machine.execQuiesceInstance s
  | .drainOrSquash => Sys2Proof.Machine.execDrainOrSquash s
  | .resetInstance => Sys2Proof.Machine.execResetInstance s
  | .destroyInstance => Sys2Proof.Machine.execDestroyInstance s
  | .createQueue => Sys2Proof.Machine.execCreateQueue s
  | .modifyQueue => Sys2Proof.Machine.execModifyQueue s
  | .destroyQueue => Sys2Proof.Machine.execDestroyQueue s
  | .moveQueue => Sys2Proof.Machine.execMoveQueue s
  | .stage => Sys2Proof.Machine.execStage s
  | .commit => Sys2Proof.Machine.execCommit s
  | .startDirtyLog => Sys2Proof.Machine.execStartDirtyLog s
  | .harvestDirtyLog => Sys2Proof.Machine.execHarvestDirtyLog s
  | .stopDirtyLog => Sys2Proof.Machine.execStopDirtyLog s
  | .evmUpdate => Sys2Proof.Machine.execEvmUpdate s
  | .setTimebase => Sys2Proof.Machine.execSetTimebase s
  | .fedJoin => Sys2Proof.Machine.execFedJoin s
  | .fedLeave => Sys2Proof.Machine.execFedLeave s
  | .rest => Sys2Proof.Machine.execRest s
  | .readTelemetry => Sys2Proof.Machine.execReadTelemetry s
  | .adminDoorbellRead => Sys2Proof.Machine.execAdminDoorbellRead s
  | .adminDoorbellResponse aid ans => Sys2Proof.Machine.execAdminDoorbellResponse aid ans s
  | .adminSlotReadResponse aid ans => Sys2Proof.Machine.execAdminSlotReadResponse aid ans s
  | .adminRecordAck aid code => Sys2Proof.Machine.execAdminRecordAck aid code s
  | .admMemCeil aid => Sys2Proof.Machine.execAdmMemCeil aid s
  | .pollDue iid => Sys2Proof.Machine.execPollDue iid s
  | .rootSwapResponse aid ans => Sys2Proof.Machine.execRootSwapResponse aid ans s
  | .leafSwapResponse aid ans => Sys2Proof.Machine.execLeafSwapResponse aid ans s
  | .doorbellLineReadResponse aid ans => Sys2Proof.Machine.execDoorbellLineReadResponse aid ans s
  | .pollAccessCeil aid => Sys2Proof.Machine.execPollAccessCeil aid s
  | .ctxFetchResponse aid ans => Sys2Proof.Machine.execCtxFetchResponse aid ans s
  | .ctxFetchCeil qid => Sys2Proof.Machine.execCtxFetchCeil qid s
  | .ctxWriteBackAck aid code => Sys2Proof.Machine.execCtxWriteBackAck aid code s
  | .contextWriteBack qid => Sys2Proof.Machine.execContextWriteBack qid s
  | .bind home clu slot => Sys2Proof.Machine.execBind home clu slot s
  | .promotion qid => Sys2Proof.Machine.execPromotion qid s
  | .slotReadResponse aid ans => Sys2Proof.Machine.execSlotReadResponse aid ans s
  | .slotReread qid => Sys2Proof.Machine.execSlotReread qid s
  | .tornCeilReached qid => Sys2Proof.Machine.execTornCeilReached qid s
  | .slotReadCeil aid => Sys2Proof.Machine.execSlotReadCeil aid s
  | .copy clu slot => Sys2Proof.Machine.execCopy clu slot s
  | .gather clu slot => Sys2Proof.Machine.execGather clu slot s
  | .scatter clu slot => Sys2Proof.Machine.execScatter clu slot s
  | .sglist clu slot => Sys2Proof.Machine.execSglist clu slot s
  | .fill clu slot => Sys2Proof.Machine.execFill clu slot s
  | .check clu slot => Sys2Proof.Machine.execCheck clu slot s
  | .piInsert clu slot => Sys2Proof.Machine.execPiInsert clu slot s
  | .piStrip clu slot => Sys2Proof.Machine.execPiStrip clu slot s
  | .piVerify clu slot => Sys2Proof.Machine.execPiVerify clu slot s
  | .link clu slot => Sys2Proof.Machine.execLink clu slot s
  | .fence clu slot => Sys2Proof.Machine.execFence clu slot s
  | .fenceComplete clu slot => Sys2Proof.Machine.execFenceComplete clu slot s
  | .signal clu slot => Sys2Proof.Machine.execSignal clu slot s
  | .signalPulse clu slot => Sys2Proof.Machine.execSignalPulse clu slot s
  | .wait clu slot => Sys2Proof.Machine.execWait clu slot s
  | .waitFlagSeen clu flag => Sys2Proof.Machine.execWaitFlagSeen clu flag s
  | .waitTimeout clu slot => Sys2Proof.Machine.execWaitTimeout clu slot s
  | .nop clu slot => Sys2Proof.Machine.execNop clu slot s
  | .parkTest clu slot => Sys2Proof.Machine.execParkTest clu slot s
  | .parkCeil clu slot => Sys2Proof.Machine.execParkCeil clu slot s
  | .poolLineGrant clu => Sys2Proof.Machine.execPoolLineGrant clu s
  | .readRequestIssue clu slot table losers => Sys2Proof.Machine.execReadRequestIssue clu slot table losers s
  | .writeRequestIssue clu slot losers => Sys2Proof.Machine.execWriteRequestIssue clu slot losers s
  | .lensHoldExpiry clu slot => Sys2Proof.Machine.execLensHoldExpiry clu slot s
  | .readResponse aid ans => Sys2Proof.Machine.execReadResponse aid ans s
  | .writeAck aid code => Sys2Proof.Machine.execWriteAck aid code s
  | .dataReadCeil aid => Sys2Proof.Machine.execDataReadCeil aid s
  | .dataWriteCeil aid => Sys2Proof.Machine.execDataWriteCeil aid s
  | .recordWriteCeil aid => Sys2Proof.Machine.execRecordWriteCeil aid s
  | .recordGiveUp aid code => Sys2Proof.Machine.execRecordGiveUp aid code s
  | .beatCeil aid wait => Sys2Proof.Machine.execBeatCeil aid wait s
  | .holdCeil arb req => Sys2Proof.Machine.execHoldCeil arb req s
  | .forcedWin arb req => Sys2Proof.Machine.execForcedWin arb req s
  | .quarantineEnd aid => Sys2Proof.Machine.execQuarantineEnd aid s
  | .replayBackoffEnd clu slot loaf => Sys2Proof.Machine.execReplayBackoffEnd clu slot loaf s
  | .fabMaxExceeded clu slot => Sys2Proof.Machine.execFabMaxExceeded clu slot s
  | .releaseLimit clu slot => Sys2Proof.Machine.execReleaseLimit clu slot s
  | .slotRetired clu slot => Sys2Proof.Machine.execSlotRetired clu slot s
  | .descriptorPlaced clu => Sys2Proof.Machine.execDescriptorPlaced clu s
  | .storeBridgeTransfer => Sys2Proof.Machine.execStoreBridgeTransfer s
  | .loafRelease clu slot => Sys2Proof.Machine.execLoafRelease clu slot s
  | .checkpointStored clu slot => Sys2Proof.Machine.execCheckpointStored clu slot s
  | .ckptCeil clu slot => Sys2Proof.Machine.execCkptCeil clu slot s
  | .completionRecord qid => Sys2Proof.Machine.execCompletionRecord qid s
  | .abandonedRecord qid => Sys2Proof.Machine.execAbandonedRecord qid s
  | .completionRecordAck aid code => Sys2Proof.Machine.execCompletionRecordAck aid code s
  | .noticeDelayExpiry qid => Sys2Proof.Machine.execNoticeDelayExpiry qid s
  | .noticeAck aid code => Sys2Proof.Machine.execNoticeAck aid code s
  | .instanceQuiet iid => Sys2Proof.Machine.execInstanceQuiet iid s
  | .quiesceTimeout => Sys2Proof.Machine.execQuiesceTimeout s
  | .queueDrainEnd qid => Sys2Proof.Machine.execQueueDrainEnd qid s
  | .errorLogWrite => Sys2Proof.Machine.execErrorLogWrite s
  | .errorLogAck aid code => Sys2Proof.Machine.execErrorLogAck aid code s
  | .dirtyLogRecordWrite => Sys2Proof.Machine.execDirtyLogRecordWrite s
  | .filterSweepDone => Sys2Proof.Machine.execFilterSweepDone s
  | .occupancySample => Sys2Proof.Machine.execOccupancySample s
  | .thresholdEval t => Sys2Proof.Machine.execThresholdEval t s
  | .intervalTimerExpiry k => Sys2Proof.Machine.execIntervalTimerExpiry k s
  | .evInEdge n hop => Sys2Proof.Machine.execEvInEdge n hop s
  | .evmSourcePulse sources => Sys2Proof.Machine.execEvmSourcePulse sources s
  | .rateMergedEdge line => Sys2Proof.Machine.execRateMergedEdge line s
  | .stuckCeil line => Sys2Proof.Machine.execStuckCeil line s
  | .refclkLost => Sys2Proof.Machine.execRefclkLost s
  | .pllWindowEnd pll count => Sys2Proof.Machine.execPllWindowEnd pll count s
  | .pllTapLost pll => Sys2Proof.Machine.execPllTapLost pll s
  | .pllLockCeil pll => Sys2Proof.Machine.execPllLockCeil pll s
  | .muxHangCeil domain => Sys2Proof.Machine.execMuxHangCeil domain s
  | .suspectClear domain => Sys2Proof.Machine.execSuspectClear domain s
  | .pwAckToggle => Sys2Proof.Machine.execPwAckToggle s
  | .pwAckCeil => Sys2Proof.Machine.execPwAckCeil s
  | .pLevelChange w => Sys2Proof.Machine.execPLevelChange w s
  | .clkGateWrite w => Sys2Proof.Machine.execClkGateWrite w s
  | .clusterClockStop clu => Sys2Proof.Machine.execClusterClockStop clu s
  | .restIdleMet => Sys2Proof.Machine.execRestIdleMet s
  | .restTimeout => Sys2Proof.Machine.execRestTimeout s
  | .restEntry => Sys2Proof.Machine.execRestEntry s
  | .wake cause => Sys2Proof.Machine.execWake cause s
  | .wakeTimer => Sys2Proof.Machine.execWakeTimer s
  | .wakeRun => Sys2Proof.Machine.execWakeRun s
  | .rstNFall => Sys2Proof.Machine.execRstNFall s
  | .rstNRise => Sys2Proof.Machine.execRstNRise s
  | .bringupEnd faults => Sys2Proof.Machine.execBringupEnd faults s
  | .modeReqRun w => Sys2Proof.Machine.execModeReqRun w s
  | .modeReqConfigure w => Sys2Proof.Machine.execModeReqConfigure w s
  | .modeReqTest w => Sys2Proof.Machine.execModeReqTest w s
  | .modeTransitionDone => Sys2Proof.Machine.execModeTransitionDone s
  | .registerWrite w => Sys2Proof.Machine.execRegisterWrite w s
  | .seqWriteBack w => Sys2Proof.Machine.execSeqWriteBack w s
  | .errFatalWriteBack w => Sys2Proof.Machine.execErrFatalWriteBack w s
  | .lockSetup w => Sys2Proof.Machine.execLockSetup w s
  | .indClaim w => Sys2Proof.Machine.execIndClaim w s
  | .indDataRead r => Sys2Proof.Machine.execIndDataRead r s
  | .indDataWrite w => Sys2Proof.Machine.execIndDataWrite w s
  | .tbLoRead r => Sys2Proof.Machine.execTbLoRead r s
  | .tbAdjWrite w => Sys2Proof.Machine.execTbAdjWrite w s
  | .tbRateWrite w => Sys2Proof.Machine.execTbRateWrite w s
  | .admQEnableSet w => Sys2Proof.Machine.execAdmQEnableSet w s
  | .admQEnableClear w => Sys2Proof.Machine.execAdmQEnableClear w s
  | .eccInj w => Sys2Proof.Machine.execEccInj w s
  | .evmWflagWrite w => Sys2Proof.Machine.execEvmWflagWrite w s
  | .evmLineCtlWrite w => Sys2Proof.Machine.execEvmLineCtlWrite w s
  | .fedResyncWrite w => Sys2Proof.Machine.execFedResyncWrite w s
  | .dbgMemGo w => Sys2Proof.Machine.execDbgMemGo w s
  | .dbgPollGo w => Sys2Proof.Machine.execDbgPollGo w s
  | .pllRestart w => Sys2Proof.Machine.execPllRestart w s
  | .mbistGo w => Sys2Proof.Machine.execMbistGo w s
  | .mbistRunDone faults => Sys2Proof.Machine.execMbistRunDone faults s
  | .tstRun w => Sys2Proof.Machine.execTstRun w s
  | .tstInj w => Sys2Proof.Machine.execTstInj w s
  | .regAccessCeil agent offset => Sys2Proof.Machine.execRegAccessCeil agent offset s
  | .regParityFault target flop shadowBad => Sys2Proof.Machine.execRegParityFault target flop shadowBad s
  | .shadowScrub target found => Sys2Proof.Machine.execShadowScrub target found s
  | .agentReset agent => Sys2Proof.Machine.execAgentReset agent s
  | .fabricCredit port chan => Sys2Proof.Machine.execFabricCredit port chan s
  | .train link f => Sys2Proof.Machine.execTrain link f s
  | .manifest link f => Sys2Proof.Machine.execManifest link f s
  | .heartbeat link f => Sys2Proof.Machine.execHeartbeat link f s
  | .time link f => Sys2Proof.Machine.execTime link f s
  | .config link f => Sys2Proof.Machine.execConfig link f s
  | .configAck link f => Sys2Proof.Machine.execConfigAck link f s
  | .doorbell link f => Sys2Proof.Machine.execDoorbell link f s
  | .fenceFrame link f => Sys2Proof.Machine.execFenceFrame link f s
  | .ack link f => Sys2Proof.Machine.execAck link f s
  | .heartbeatSend => Sys2Proof.Machine.execHeartbeatSend s
  | .witnessRead member => Sys2Proof.Machine.execWitnessRead member s
  | .witnessReadResponse aid ans => Sys2Proof.Machine.execWitnessReadResponse aid ans s
  | .selfFence => Sys2Proof.Machine.execSelfFence s
  | .adoptionStart member => Sys2Proof.Machine.execAdoptionStart member s
  | .joinCeil => Sys2Proof.Machine.execJoinCeil s
  | .linkRetryCeil link => Sys2Proof.Machine.execLinkRetryCeil link s
  | .linkResendLimit link => Sys2Proof.Machine.execLinkResendLimit link s
  | .linkIdleErrLimit link => Sys2Proof.Machine.execLinkIdleErrLimit link s
  | .linkRxKindZero link => Sys2Proof.Machine.execLinkRxKindZero link s
  | .tailLineReadResponse aid ans => Sys2Proof.Machine.execTailLineReadResponse aid ans s
  | .imageReadResponse aid ans => Sys2Proof.Machine.execImageReadResponse aid ans s
  | .adminSlotReread => Sys2Proof.Machine.execAdminSlotReread s
  | .quietPoint => Sys2Proof.Machine.execQuietPoint s
  | .commitCeil => Sys2Proof.Machine.execCommitCeil s
  | .telemetryWriteCeil aid => Sys2Proof.Machine.execTelemetryWriteCeil aid s
  | .dbgMemCeil aid => Sys2Proof.Machine.execDbgMemCeil aid s
  | .tstRequestCeil aid => Sys2Proof.Machine.execTstRequestCeil aid s
  | .witnessReadCeil aid => Sys2Proof.Machine.execWitnessReadCeil aid s
  | .ackSend link => Sys2Proof.Machine.execAckSend link s
  | .rxOk link => Sys2Proof.Machine.execRxOk link s
  | .syncGained unit => Sys2Proof.Machine.execSyncGained unit s
  | .syncLost unit => Sys2Proof.Machine.execSyncLost unit s
  | .evInFall n => Sys2Proof.Machine.execEvInFall n s
  | .wakeRestart => Sys2Proof.Machine.execWakeRestart s
  | .pollAccessIssue iid => Sys2Proof.Machine.execPollAccessIssue iid s
  | .datapathBeat clu => Sys2Proof.Machine.execDatapathBeat clu s
  | .sClassRead r => Sys2Proof.Machine.execSClassRead r s

end Sys2Proof.Machine
end

