-- ==== Sys2Proof/Machine/Tick.lean ====
section
/-! DEFINITION. What time does: one cycle of the timebase's clock, which is what a step on an empty queue is
(notes/assumptions/3.md; 13 R394, R397, R398; 07 R221, R227; 02 R64). -/

namespace Sys2Proof.Machine

/-- Nanoseconds of a tick: 1 on a PLL; 10 on bypass, in REST, and while the supervisor counts in place of TB. -/
def tickNs (s : State) : Nat := if tbHangs s || decide (s.mode = .rest) || decide (srcOf s 22 = 0) then 10 else 1

/-- RATE_PPB; values beyond ±1,000,000 act as the nearer limit (13 TEL_TB_RATE). -/
def ratePpb (s : State) : Int := max (-1000000) (min 1000000 (signedOf 32 (s.rd .telTbRate 0).toNat))

/-- The nanoseconds by which the timebase advances in `dt` of nominal time, and F after it (13 R394). -/
def trimmed (f rate : Int) (dt : Nat) : Int × Int :=
  let g := f + rate * dt
  if 1000000000 ≤ g then ((dt : Int) + 1, g - 1000000000)
  else if g ≤ -1000000000 then ((dt : Int) - 1, g + 1000000000)
  else (dt, g)

/-- The timebase advances, unless TB's clock hangs. -/
def State.tickTimebase (s : State) (dt : Nat) : State :=
  let s1 := { s with nomNs := s.nomNs + dt }
  if tbHangs s then s1
  else
    let p := trimmed s.tbFrac (ratePpb s) dt
    { s1 with timebase := s1.timebase + BitVec.ofInt 64 p.1, tbFrac := p.2 }

/-- A bucket refills at its rate, never above its capacity (07 R227). -/
def refill (s : State) (dt : Nat) (b : Bucket) : Bucket :=
  { b with bytes := max b.bytes (min (1000 * (burstB s b.iid : Int)) (b.bytes + rateB s b.iid * dt)),
           descs := max b.descs (min (1000000 * (burstD s b.iid : Int)) (b.descs + rateD s b.iid * dt)) }

/-- A ready queue that is eligible without a bind counts the time (07 R221). -/
def ageReady (s : State) (dt : Nat) (r : Ready) : Ready :=
  match ctxOf s r.qid with
  | none => r
  | some c => if eligible s r (schedCluster s c.home.toNat) then { r with elig := r.elig + dt } else r

/-- While telemetry is gated or TB's clock hangs its timers and its next sample stand still (13 R397, R407, R411). -/
def State.telStands (s : State) (dt : Nat) : State :=
  if telRuns s then s
  else { s with occDue := s.occDue + dt, timers := s.timers.map (fun t => { t with ends := t.ends.map (fun e => e + dt) }) }

/-- Budgets, buckets and waits take the time. -/
def State.tickCounts (s : State) (dt : Nat) : State :=
  { (s.telStands dt) with
    pollBudget := min 4096000 (s.pollBudget + pollCap s * dt), buckets := s.buckets.map (refill s dt), ready := if running s then s.ready.map (ageReady s dt) else s.ready }

/-- What falls due at a tick: polls, visits that have ended (07 R223), and the clears of wait flags reach every cluster (03 R113). -/
def State.tickDue (s : State) : State :=
  let s1 := { s.pollsFallDue with lateFlags := [] }
  if running s1 then s1.settleVisits else s1

/-- A cluster stream has nothing to ask of its port's arbiter. -/
def streamIdle (s : State) (p r : Nat) : Bool :=
  s.slots.all (fun x => decide (x.clu ≠ p) || decide (x.phase ≠ .accepted)) && !(heldRequesters s p s.held).contains r

/-- A cluster stream with nothing left to ask drops its request (07 R240). -/
def State.dropStreams (s : State) : State :=
  (List.range 32).foldl (fun t k =>
    if (reqOf (arbOf t (k / 2)) (k % 2)).raised && streamIdle t (k / 2) (k % 2) then t.dropRequest (k / 2) (k % 2) else t) s

/-- What waits for something that may have come about: notices and snapshots for contexts (03 R132, 13 R415), adopted queues for the end
of their resolution (14 R438), joiners for the end of a fence (R443), bring-up for its 4 ms (19 R546); and the context banks grant
(07 R235). -/
def State.tickWaits (s : State) : State :=
  let s1 := if running s then s.fetchForNotices.adoptChecks else s
  let s2 := s1.snaps.foldl (fun t x => t.snapWaits x) s1
  let s3 := (s2.answerWaiting.bringupCeil).dropStreams
  if ctxOn s3 then s3.bankGrants else s3

/-- One tick: nothing in reset, the time alone in the FATAL state; else budgets refill, polls fall due, ports settle, accesses
that wait are offered, sources and lines are looked at, and every pattern gives a beat (log entry 45). -/
def State.tick (s : State) : State :=
  if !s.rstN then s
  else
    let dt := tickNs s
    let s1 := s.tickTimebase dt
    if s.fatal then { s1 with idleOut := [] }
    else ((((((s1.tickCounts dt).tickDue).tickWaits).drainHeld).trackIdle).refreshEvm).patternBeats

end Sys2Proof.Machine
end

