-- ==== Sys2Proof/Machine/Pins.lean ====
section
/-! DEFINITION. The block's outputs that State decides (18 R512, R519, R526, R530, R531, R535, R538, R540). -/

namespace Sys2Proof.Machine

/-- Event outputs are functional: neither in reset, bring-up or REST nor after FATAL (18 R540). -/
def eventPins (s : State) : Bool :=
  s.rstN && !s.fatal && (decide (s.mode = .configure) || decide (s.mode = .run) || decide (s.mode = .test) || waking s)

/-- The level of an unmasked line at its external outputs: a direct line's is not registered, an input entering it as its raw
pin and an internal source as its level in EVM (12 R378, R382). -/
def pinLevel (s : State) (l : Nat) : Bool :=
  let x := lineOf s l
  !x.masked &&
    (if lineDirect s.evm l then
      s.evIn.any (fun e => feeds s.evm (256 + e.1) l) || s.srcLevels.any (fun n => decide (n < 256) && feeds s.evm n l) ||
        s.pulseHigh.any (fun n => feeds s.evm n l)
    else x.level)

/-- The four-cycle periods of edges that cover this time at output k (12 R382). -/
def outPeriods (s : State) (k : Nat) : List (Nat × Nat × Nat) :=
  s.evOut.filter (fun e => decide (e.1 = k) && decide (s.nomNs < e.2.1))

/-- ev_out[k]. -/
def evOutPin (s : State) (k : Nat) : Bool :=
  if eventPins s then (routedLines s).any (fun l => reaches s.evm l k && pinLevel s l) || !(outPeriods s k).isEmpty
  else s.strapEvOut.getLsbD k

/-- ev_out_hop[3k+2:3k]. -/
def evOutHopPin (s : State) (k : Nat) : Nat :=
  if eventPins s then (outPeriods s k).foldl (fun m e => max m e.2.2) 0 else 0

/-- tst_mbist_done and tst_mbist_fail. -/
def mbistPins (s : State) : Bool × Bool :=
  if s.rstN && (s.fatal || decide (s.mode ≠ .rest)) then (bit (s.rd .glbStat 0) 0, decide (macrosFailed s ≠ []))
  else (s.strapTst.getLsbD 0, s.strapTst.getLsbD 1)

/-- pw_req_level. -/
def pwReqPin (s : State) : Nat :=
  if s.rstN && (s.fatal || (decide (s.mode ≠ .bringup) && decide (s.mode ≠ .rest))) then s.fld .pwrStat 0 2 2 else 3

/-- pw_rest. -/
def pwRestPin (s : State) : Bool := s.rstN && !s.fatal && s.pwRest

/-- fpn_active of port n. -/
def fpActivePin (s : State) (n : Nat) : Bool :=
  s.rstN && !s.fatal && decide (s.mode ≠ .bringup) && decide (s.mode ≠ .rest) && s.portActive.contains n

/-- fpn_rs_ready and fpn_wa_ready: answers are taken while the port is in service. -/
def readyPin (s : State) (n : Nat) : Bool := fpActivePin s n

/-! The valid outputs of a port and what they offer in the step that leads from s to t (18 R512, R513): each is low outside such a step. -/

/-- The requests that leave port n on rq, or on wq where `w`. -/
def requestsOut (s t : State) (n : Nat) (w : Bool) : List Access :=
  if fpActivePin t n then t.acc.filter (fun a => decide (s.nextAid ≤ a.aid) && decide (a.port = n) && decide (a.write = w)) else []

/-- fpn_rq_valid. -/
def rqValidPin (s t : State) (n : Nat) : Bool := !(requestsOut s t n false).isEmpty

/-- fpn_wq_valid. -/
def wqValidPin (s t : State) (n : Nat) : Bool := !(requestsOut s t n true).isEmpty

/-- The data beats of a write that have left. -/
def beatsSent (a : Access) : Nat := a.checks.length / 8

/-- The data beats that leave port n: the write and the number of its beat. -/
def beatsOut (s t : State) (n : Nat) : List (Access × Nat) :=
  let before := fun (a : Access) => (((s.acc ++ s.quar.map (·.acc)).find? (fun b => b.aid == a.aid)).map beatsSent).getD 0
  (t.acc ++ t.quar.map (·.acc)).flatMap (fun a =>
    if fpActivePin t n && decide (a.port = n) && a.write then (List.range (beatsSent a - before a)).map (fun i => (a, before a + i)) else [])

/-- fpn_wd_valid. -/
def wdValidPin (s t : State) (n : Nat) : Bool := !(beatsOut s t n).isEmpty

/-- fpn_wd_id of a beat. -/
def wdId (b : Access × Nat) : BitVec 10 := b.1.tag

/-- fpn_wd_strb of a beat: the bytes of its line that the write covers. -/
def wdStrb (b : Access × Nat) : BitVec 64 :=
  let line := (b.1.addr / 64 + b.2) * 64
  BitVec.ofNat 64 (((List.range 64).map (fun i => if b.1.addr ≤ line + i ∧ line + i < b.1.addr + b.1.len then 2 ^ i else 0)).sum)

/-- fpn_wd_last of a beat. -/
def wdLast (b : Access × Nat) : Bool := decide (b.2 + 1 = linesTouched b.1.addr b.1.len)

/-- The words of fpn_wd_data of a beat. -/
def wdData (b : Access × Nat) : List W64 :=
  (List.range 8).map (fun k => beatWord b.1.aid b.1.addr b.1.data ((b.1.addr / 64 + b.2) * 64 + 8 * k))

/-- The bytes of fpn_wd_chk of a beat. -/
def wdChk (b : Access × Nat) : List Byte := (b.1.checks.drop (8 * b.2)).take 8

/-- The clock of domain d runs at the boundary: it stops while the domain is gated or in a hang (15 R456). -/
def clockPin (s : State) (d : Nat) : Bool := !s.rstN || (domainRuns s d && !s.muxes.any (fun x => x.domain == d))

/-- flk_tx_clk of link k: stopped in reset too, and in bring-up where the link is not enabled. -/
def linkClockPin (s : State) (k : Nat) : Bool :=
  s.rstN && (decide (s.mode ≠ .bringup) || bit (s.rd .clkGate 0) (17 + k)) && domainRuns s (23 + k) && !s.muxes.any (fun x => x.domain == 23 + k)

/-! A link's beats (18 R535, R536), and the response of the register port (R526, R528). -/

/-- The frames that leave on link k in the step that leads from s to t. -/
def framesOut (s t : State) (k : Nat) : List RawFrame :=
  ((t.txFrames.drop s.txFrames.length).filter (fun f => f.1 == k)).map (fun f => f.2)

/-- Links send beats: neither in reset, bring-up or REST nor after FATAL (18 R540). -/
def linksDrive (s : State) : Bool := s.rstN && !s.fatal && decide (s.mode ≠ .bringup) && decide (s.mode ≠ .rest)

/-- flk_tx_kind of link k in that step: 2 frame beats, 1 an idle beat, 0 none. -/
def txKindPin (s t : State) (k : Nat) : Nat :=
  if !linksDrive t then 0
  else if framesOut s t k ≠ [] then 2
  else if t.idleOut.any (fun b => b.1 == k) then 1
  else 0

/-- The beats of a frame, in order: flk_tx_hdr, flk_tx_data and the bytes of flk_tx_chk of each (14 R444). -/
def frameBeats (f : RawFrame) : List (Bool × BitVec 256 × List Byte) :=
  let bs := f.header :: f.payload
  (List.range bs.length).map (fun i => (decide (i = 0), bs.getD i 0, (f.checks.drop (4 * i)).take 4))

/-- rp_rsp_par of a response: even parity over rp_rsp_agent, rp_rdata, rp_resp and itself. -/
def rspParPin (r : Resp) : Bool :=
  ((List.range 2).map r.agent.testBit ++ (List.range 32).map (bit r.data) ++ (List.range 2).map r.code.testBit).foldl xor false

end Sys2Proof.Machine
end

