-- ==== Sys2Proof/WellFormed.lean ====
section
/-! DEFINITION. Which commands are well formed: every unit they name exists, and what comes from outside has the shape that
its signals give it. -/

namespace Sys2Proof

/-- A GOOD answer brings whole lines of eight words (18 R521). -/
def Answer.wf (a : Answer) : Bool := decide (a.code ≠ 0) || (decide (a.words ≠ []) && decide (a.words.length % 8 = 0))

/-- A lane of the port and a word offset of 16 bits (18 R526). -/
def RegWrite.wf (w : RegWrite) : Bool := decide (w.agent < 3) && decide (w.offset < 2 ^ 16) && decide (w.offset % 4 = 0)

/-- The same for a read. -/
def RegRead.wf (r : RegRead) : Bool := decide (r.agent < 3) && decide (r.offset < 2 ^ 16) && decide (r.offset % 4 = 0)

/-- At most seven payload beats, and a check byte for each word (14 R444); QIDs and members in the owners. -/
def RawFrame.wf (f : RawFrame) : Bool :=
  decide (f.payload.length < 8) && decide (f.checks.length = 4 * (1 + f.payload.length)) &&
  f.owners.all (fun e => decide (e.1 < 2 ^ 22) && decide (e.2 < 4))

/-- There are two wake sources (15 R473). -/
def WakeCause.wf : WakeCause → Bool
  | .event k => decide (k < 2)
  | .access => true

/-- Failing rows rise and have 16 bits (17 R510). -/
def MacroFault.wf (f : MacroFault) : Bool :=
  (f.rows.zip f.rows.tail).all (fun p => decide (p.1 < p.2)) && f.rows.all (fun r => decide (r < 2 ^ 16))

/-- Requesters of an arbiter besides the emergency requester (07 R235): arbiters 0 to 15 of ports, 16 to 31 of context banks,
32 of poll issue, 33 of the admin processor, 34 to 49 of datapaths. -/
def requesters (arb : Nat) : Nat :=
  if arb < 32 then 7 else if arb = 32 then 16 else if arb = 33 then 3 else if arb < 50 then 34 else 0

/-- The command is well formed. -/
def Instr.wf : Instr → Bool
  | .createInstance => true
  | .modifyInstance => true
  | .quiesceInstance => true
  | .drainOrSquash => true
  | .resetInstance => true
  | .destroyInstance => true
  | .createQueue => true
  | .modifyQueue => true
  | .destroyQueue => true
  | .moveQueue => true
  | .stage => true
  | .commit => true
  | .startDirtyLog => true
  | .harvestDirtyLog => true
  | .stopDirtyLog => true
  | .evmUpdate => true
  | .setTimebase => true
  | .fedJoin => true
  | .fedLeave => true
  | .rest => true
  | .readTelemetry => true
  | .adminDoorbellRead => true
  | .adminDoorbellResponse _ ans => ans.wf
  | .adminSlotReadResponse _ ans => ans.wf
  | .adminRecordAck _ _ => true
  | .admMemCeil _ => true
  | .pollDue iid => decide (iid < 4096)
  | .rootSwapResponse _ ans => ans.wf
  | .leafSwapResponse _ ans => ans.wf
  | .doorbellLineReadResponse _ ans => ans.wf
  | .pollAccessCeil _ => true
  | .ctxFetchResponse _ ans => ans.wf
  | .ctxFetchCeil qid => decide (qid < 2 ^ 22)
  | .ctxWriteBackAck _ _ => true
  | .contextWriteBack qid => decide (qid < 2 ^ 22)
  | .bind home clu slot => decide (home < 16) && decide (clu < 16) && decide (slot < 32)
  | .promotion qid => decide (qid < 2 ^ 22)
  | .slotReadResponse _ ans => ans.wf
  | .slotReread qid => decide (qid < 2 ^ 22)
  | .tornCeilReached qid => decide (qid < 2 ^ 22)
  | .slotReadCeil _ => true
  | .copy clu slot => decide (clu < 16) && decide (slot < 34)
  | .gather clu slot => decide (clu < 16) && decide (slot < 34)
  | .scatter clu slot => decide (clu < 16) && decide (slot < 34)
  | .sglist clu slot => decide (clu < 16) && decide (slot < 34)
  | .fill clu slot => decide (clu < 16) && decide (slot < 34)
  | .check clu slot => decide (clu < 16) && decide (slot < 34)
  | .piInsert clu slot => decide (clu < 16) && decide (slot < 34)
  | .piStrip clu slot => decide (clu < 16) && decide (slot < 34)
  | .piVerify clu slot => decide (clu < 16) && decide (slot < 34)
  | .link clu slot => decide (clu < 16) && decide (slot < 34)
  | .fence clu slot => decide (clu < 16) && decide (slot < 34)
  | .fenceComplete clu slot => decide (clu < 16) && decide (slot < 34)
  | .signal clu slot => decide (clu < 16) && decide (slot < 34)
  | .signalPulse clu slot => decide (clu < 16) && decide (slot < 34)
  | .wait clu slot => decide (clu < 16) && decide (slot < 34)
  | .waitFlagSeen clu flag => decide (clu < 16) && decide (flag < 64)
  | .waitTimeout clu slot => decide (clu < 16) && decide (slot < 34)
  | .nop clu slot => decide (clu < 16) && decide (slot < 34)
  | .parkTest clu slot => decide (clu < 16) && decide (slot < 34)
  | .parkCeil clu slot => decide (clu < 16) && decide (slot < 34)
  | .poolLineGrant clu => decide (clu < 16)
  | .readRequestIssue clu slot _ losers => decide (clu < 16) && decide (slot < 34) && losers.all (fun r => decide (r < 7))
  | .writeRequestIssue clu slot losers => decide (clu < 16) && decide (slot < 34) && losers.all (fun r => decide (r < 7))
  | .lensHoldExpiry clu slot => decide (clu < 16) && decide (slot < 34)
  | .readResponse _ ans => ans.wf
  | .writeAck _ _ => true
  | .dataReadCeil _ => true
  | .dataWriteCeil _ => true
  | .recordWriteCeil _ => true
  | .recordGiveUp _ _ => true
  | .beatCeil _ _ => true
  | .holdCeil arb req => decide (req < requesters arb)
  | .forcedWin arb req => decide (req < requesters arb)
  | .quarantineEnd _ => true
  | .replayBackoffEnd clu slot _ => decide (clu < 16) && decide (slot < 34)
  | .fabMaxExceeded clu slot => decide (clu < 16) && decide (slot < 34)
  | .releaseLimit clu slot => decide (clu < 16) && decide (slot < 34)
  | .slotRetired clu slot => decide (clu < 16) && decide (slot < 34)
  | .descriptorPlaced clu => decide (clu < 16)
  | .storeBridgeTransfer => true
  | .loafRelease clu slot => decide (clu < 16) && decide (slot < 34)
  | .checkpointStored clu slot => decide (clu < 16) && decide (slot < 34)
  | .ckptCeil clu slot => decide (clu < 16) && decide (slot < 34)
  | .completionRecord qid => decide (qid < 2 ^ 22)
  | .abandonedRecord qid => decide (qid < 2 ^ 22)
  | .completionRecordAck _ _ => true
  | .noticeDelayExpiry qid => decide (qid < 2 ^ 22)
  | .noticeAck _ _ => true
  | .instanceQuiet iid => decide (iid < 4096)
  | .quiesceTimeout => true
  | .queueDrainEnd qid => decide (qid < 2 ^ 22)
  | .errorLogWrite => true
  | .errorLogAck _ _ => true
  | .dirtyLogRecordWrite => true
  | .filterSweepDone => true
  | .occupancySample => true
  | .thresholdEval t => decide (t < 64)
  | .intervalTimerExpiry k => decide (k < 32)
  | .evInEdge i _ => decide (i < 256)
  | .evmSourcePulse sources => sources.all (fun n => decide (n < 512))
  | .rateMergedEdge line => decide (line < 256)
  | .stuckCeil line => decide (line < 256)
  | .refclkLost => true
  | .pllWindowEnd _ count => decide (count < 2 ^ 16)
  | .pllTapLost _ => true
  | .pllLockCeil _ => true
  | .muxHangCeil domain => decide (domain < 28) && decide (domain ≠ 0)
  | .suspectClear domain => decide (domain < 28)
  | .pwAckToggle => true
  | .pwAckCeil => true
  | .pLevelChange w => w.wf
  | .clkGateWrite w => w.wf
  | .clusterClockStop clu => decide (clu < 16)
  | .restIdleMet => true
  | .restTimeout => true
  | .restEntry => true
  | .wake cause => cause.wf
  | .wakeTimer => true
  | .wakeRun => true
  | .rstNFall => true
  | .rstNRise => true
  | .bringupEnd faults => faults.all MacroFault.wf
  | .modeReqRun w => w.wf
  | .modeReqConfigure w => w.wf
  | .modeReqTest w => w.wf
  | .modeTransitionDone => true
  | .registerWrite w => w.wf
  | .seqWriteBack w => w.wf
  | .errFatalWriteBack w => w.wf
  | .lockSetup w => w.wf
  | .indClaim w => w.wf
  | .indDataRead r => r.wf
  | .indDataWrite w => w.wf
  | .tbLoRead r => r.wf
  | .tbAdjWrite w => w.wf
  | .tbRateWrite w => w.wf
  | .admQEnableSet w => w.wf
  | .admQEnableClear w => w.wf
  | .eccInj w => w.wf
  | .evmWflagWrite w => w.wf
  | .evmLineCtlWrite w => w.wf
  | .fedResyncWrite w => w.wf
  | .dbgMemGo w => w.wf
  | .dbgPollGo w => w.wf
  | .pllRestart w => w.wf
  | .mbistGo w => w.wf
  | .mbistRunDone faults => faults.all MacroFault.wf
  | .tstRun w => w.wf
  | .tstInj w => w.wf
  | .regAccessCeil agent offset => decide (agent < 3) && decide (offset < 2 ^ 16)
  | .regParityFault _ _ _ => true
  | .shadowScrub _ _ => true
  | .agentReset agent => decide (agent < 3)
  | .fabricCredit port _ => decide (port < 16)
  | .train lk f => decide (lk < 3) && f.wf
  | .manifest lk f => decide (lk < 3) && f.wf
  | .heartbeat lk f => decide (lk < 3) && f.wf
  | .time lk f => decide (lk < 3) && f.wf
  | .config lk f => decide (lk < 3) && f.wf
  | .configAck lk f => decide (lk < 3) && f.wf
  | .doorbell lk f => decide (lk < 3) && f.wf
  | .fenceFrame lk f => decide (lk < 3) && f.wf
  | .ack lk f => decide (lk < 3) && f.wf
  | .heartbeatSend => true
  | .witnessRead member => decide (member < 4)
  | .witnessReadResponse _ ans => ans.wf
  | .selfFence => true
  | .adoptionStart member => decide (member < 4)
  | .joinCeil => true
  | .linkRetryCeil lk => decide (lk < 3)
  | .linkResendLimit lk => decide (lk < 3)
  | .linkIdleErrLimit lk => decide (lk < 3)
  | .linkRxKindZero lk => decide (lk < 3)
  | .tailLineReadResponse _ ans => ans.wf
  | .imageReadResponse _ ans => ans.wf
  | .adminSlotReread => true
  | .quietPoint => true
  | .commitCeil => true
  | .telemetryWriteCeil _ => true
  | .dbgMemCeil _ => true
  | .tstRequestCeil _ => true
  | .witnessReadCeil _ => true
  | .ackSend lk => decide (lk < 3)
  | .rxOk lk => decide (lk < 3)
  | .syncGained unit => decide (unit < 19)
  | .syncLost unit => decide (unit < 19)
  | .evInFall i => decide (i < 256)
  | .wakeRestart => true
  | .pollAccessIssue iid => decide (iid < 4096)
  | .datapathBeat clu => decide (clu < 16)
  | .sClassRead r => r.wf

end Sys2Proof
end

