-- ==== Sys2Proof/Safety.lean ====
section
/-! DEFINITION. What a safe run is: well-formed commands answer a next state, and the invariants that every step keeps. -/

namespace Sys2Proof.Machine

/-- Every register file and indirect space is in canonical form, so equal contents are equal data. -/
def State.mapsOk (s : State) : Bool :=
  s.regs.wf && s.is0.wf && s.evm.is1.wf && s.evm.is2.wf && s.evm.regs.wf && s.evmPend.is1.wf &&
  s.evmPend.is2.wf && s.evmPend.regs.wf && s.is3.wf && s.is4.wf && s.is4Seen.wf && s.is6.wf && s.is7.wf

/-- At most 64 records wait for the error log (11 R359). -/
def State.errOk (s : State) : Bool := decide (s.errQ.length ≤ 64)

/-- Handles are given out in order: every outstanding or quarantined access has one below the next. -/
def State.handlesOk (s : State) : Bool :=
  s.acc.all (fun a => decide (a.aid < s.nextAid)) && s.quar.all (fun q => decide (q.acc.aid < s.nextAid))

/-- No port holds more credits than a channel's maximum (18 R517). -/
def State.creditsOk (s : State) : Bool :=
  s.credits.all (fun c => decide (c.2.1 ≤ 64) && decide (c.2.2.1 ≤ 64) && decide (c.2.2.2 ≤ 256))

/-- rst_n is low exactly in RESET (19 R542, R543). -/
def State.resetOk (s : State) : Bool := decide (s.mode = .reset) == !s.rstN

/-- The block is safe at a state: whatever well-formed command comes first, the step answers a next state. -/
def Safe (s : State) : Prop := ∀ c cs, s.pending = c :: cs → c.wf = true → ∃ t, step s = .next t

/-! Terms of the statements: what changes and what stays. -/

/-- t is s but for the outstanding and waiting accesses, their handles, and the credits, arbiters and ports they go through. -/
def PortsOnly (s t : State) : Prop :=
  ∃ a h n c r p, t = { s with acc := a, held := h, nextAid := n, credits := c, arbs := r, portActive := p }

/-- An access is outstanding, or waits for its port. -/
def Offered (t : State) (u : Purpose) (w : Bool) (addr len : Nat) (data : List Byte) : Prop :=
  (∃ a ∈ t.acc, a.purpose = u ∧ a.write = w ∧ a.addr = addr ∧ a.len = len ∧ a.data = data) ∨
  (∃ h ∈ t.held, h.purpose = u ∧ h.write = w ∧ h.addr = addr ∧ h.len = len ∧ h.data = data)

/-- The outstanding accesses of t are those of s without the one of a handle, and what was issued since. -/
def Released (s t : State) (aid : Nat) : Prop := ∃ more, t.acc = s.acc.filter (fun a => a.aid != aid) ++ more

/-- An access is no longer outstanding, and its tag or write ID is in quarantine until twice its ceiling has passed (05 R173). -/
def Quarantined (s t : State) (a : Access) : Prop :=
  t.quar = s.quar ++ [{ acc := a, freeAt := s.nomNs + 2 * a.ceilNs }] ∧ Released s t a.aid

/-- A GOOD answer (18 R521) whose words that were asked for are all sound (06 R215). -/
def CleanAnswer (a : Access) (ans : Answer) : Prop :=
  codeSeen ans.code = 0 ∧ wordsMarked .corrected a.addr a.len ans.words = [] ∧
  wordsMarked .uncorrectable a.addr a.len ans.words = [] ∧ (readBytes a.addr a.len ans.words).2 ≠ .uncorrectable

/-- The bytes that an answer brings. -/
def answerBytes (a : Access) (ans : Answer) : List Byte := (readBytes a.addr a.len ans.words).1

/-- A descriptor of a ring slot that its queue runs alone, with room in the record store (17 R503) and no context awaited. -/
def Alone (s : State) (x : Slot) : Prop :=
  chans s x.qid = [x] ∧ slotAt s x.clu x.idx = some x ∧ x.chain = none ∧ x.kept = [] ∧ s.waitRecs = [] ∧ s.ctxWait = [] ∧
  s.records.length < 1024 ∧
  (ctxOf s x.qid).isSome = true

/-- The descriptor of a slot is done: its record, with the status given and the words of 03 R117 that name it, goes to the
record store for its slot of the ring (01 R28), and its channel is free, while a Mirror stays until the record is issued
(08 R262). -/
def Finishes (s t : State) (x : Slot) (status : Nat) : Prop :=
  (x.idx < 32 → slotAt t x.clu x.idx = none) ∧
  (32 ≤ x.idx → ∃ y, slotAt t x.clu x.idx = some y ∧ y.phase = .finished) ∧
  (∀ c i, ¬(c = x.clu ∧ i = x.idx) → slotAt t c i = slotAt s c i) ∧
  ∃ r, t.records = s.records ++ [r] ∧ r.qid = x.qid ∧ r.idx = x.slotIdx ∧ r.chainPos = 0 ∧ r.addr = recordAddr s x ∧
    r.clu = x.clu ∧ r.slot = x.idx ∧ bits (wd r.words 0) 0 8 = dOpcode x.desc ∧ bits (wd r.words 0) 8 8 = status ∧
    bits (wd r.words 0) 32 16 = dTag x.desc ∧ bit (wd r.words 0) 26 = true ∧ bits (wd r.words 0) 56 8 = dGen x.desc

/-- The command c of this member's own admin queue is proofed, and no other member takes part in it. -/
def Proofed (s : State) (op : Nat) (c : AdmCmd) : Prop :=
  cmdReady s true op = some c ∧ c.sender = none ∧ c.acks = [] ∧ fedOthers s = []

/-- A write through the register port that is answered OK (16 R478) and reaches instance i of register r. -/
def Written (s : State) (w : RegWrite) (r : Reg) (i : Nat) : Prop :=
  portTakes s = true ∧ w.agent < 3 ∧ writeCode s w = 0 ∧ regAtOffset (canonOffset w.offset) = some r ∧
  r.index (canonOffset w.offset) = i

/-- What answers such a write: OK with data zero; in REST it wakes the block (15 R473). -/
def State.okWrite (s : State) (w : RegWrite) : State := (s.answer w.agent 0 0).accessWakes

/-- A read through the register port that is answered OK (16 R478). -/
def ReadTaken (s : State) (r : RegRead) : Prop := portTakes s = true ∧ r.agent < 3 ∧ readCode s r = 0

/-- The registers whose write does something beside taking its value (17 R500). -/
def actionRegs : List Nat :=
  [Reg.glbMode.base, Reg.clkCtl.base, Reg.clkPllCmd.base, Reg.clkGate.base, Reg.pwrCtl.base, Reg.admQCtl.base, Reg.evmLineCtl.base,
   Reg.evmWflag.base, Reg.telTbRate.base, Reg.telTbAdj.base, Reg.telOccCtl.base, Reg.fedResync.base, Reg.tstCtl.base,
   Reg.tstUnitCtl.base, Reg.tstMbistCtl.base, Reg.dbgMemCtl.base, Reg.dbgPoll.base, Reg.schPollCtl.base, Reg.regIndClaim.base]

/-- A record of the error log is queued with the next SEQ and the time (11 R355). -/
def Logged (s t : State) (e : ErrRec) : Prop :=
  t.errQ = s.errQ ++ [{ e with seq := s.rd .errNextSeq 0, time := s.timebase, count := 1 }]

/-- A frame of TYPE `type` that link k receives as its sender sealed it, and that acknowledges nothing new (14 R444, R447). -/
def FrameSound (s : State) (k type : Nat) (f : RawFrame) : Prop :=
  k < 3 ∧ s.fatal = false ∧ s.rstN = true ∧ lstate s k ≠ 0 ∧ s.mode ≠ .test ∧ bits f.header 0 8 = type ∧
  f.checks = (sealFrame f.header f.payload).checks ∧ frameSound f = true ∧ (linkOf s k).unacked.findIdx? (fun t => t.seq == bits f.header 16 8) = none

/-- A sound frame that is the next in sequence and for this member; a manifest not relayed may name its sender instead. -/
def FrameTaken (s : State) (k type : Nat) (f : RawFrame) : Prop :=
  FrameSound s k type f ∧ bits f.header 8 8 = ((linkOf s k).rxSeq + 1) % 256 ∧
  (bits f.header 34 2 = ownMember s ∨ type = 2 ∧ bit f.header 36 = false ∧ bits f.header 34 2 = frameSrc f)

/-- Link k once such a frame is taken: its SEQ is the last one taken, and an acknowledgement is owed. -/
def State.frameIn (s : State) (k : Nat) (f : RawFrame) : State :=
  s.putLink { linkOf s k with rxSeq := bits f.header 8 8, ackOwed := true }

/-- The block is neither in the FATAL state nor in reset. -/
def awake (s : State) : Prop := s.fatal = false ∧ s.rstN = true

end Sys2Proof.Machine
end

