-- ==== Sys2Proof/Certificates/Slice0/Obligations.lean ====
section
/-! DEFINITION. The statements for the provers. -/

open Sys2Proof Sys2Proof.Machine

/-! ## The frame of a step -/

/-- A step on a queue that is not empty is the front command, run on the state with the queue's rest. -/
def Obligations.StepRunsFront : Prop :=
  ∀ (s : State) (c : Instr) (cs : List Instr), s.pending = c :: cs → step s = exec c { s with pending := cs }

/-- Where no command waits, a step is one cycle of TB (the model's choice, log entry 3): nominal time advances by the
cycle, the timebase by the cycle and the nanosecond that the rate trim adds or takes (R394), and nothing else of the
timebase, the mode or the queues of work changes; contexts change only for notices, snapshots and adopted queues that wait for them. In
reset nothing changes at all. R546: bring-up that has not ended within 4 ms ends then, in CONFIGURE. -/
def Obligations.IdleTick : Prop :=
  (∀ s : State, s.pending = [] → s.rstN = false → step s = .next s) ∧
  (∀ s : State, s.pending = [] → s.rstN = true → s.fatal = false → s.mode = .bringup → 4000000 ≤ s.nomNs + tickNs s →
    ∃ t, step s = .next t ∧ t.mode = .configure ∧ t.pending = [] ∧ t.nomNs = s.nomNs + tickNs s) ∧
  (∀ s : State, s.pending = [] → s.rstN = true → (s.mode = .bringup → s.nomNs + tickNs s < 4000000) →
    ∃ t, step s = .next t ∧ t.nomNs = s.nomNs + tickNs s ∧
    t.mode = s.mode ∧ t.pending = [] ∧ t.slots = s.slots ∧ t.queues = s.queues ∧ t.is0 = s.is0 ∧
    (s.adopting = [] → s.snaps = [] → (∀ h ∈ s.held, h.form = false) → t.ways = s.ways) ∧
    (tbHangs s = true → t.timebase = s.timebase) ∧
    (tbHangs s = false → t.timebase = s.timebase + BitVec.ofInt 64 (trimmed s.tbFrac (ratePpb s) (tickNs s)).1 ∧
      t.tbFrac = (trimmed s.tbFrac (ratePpb s) (tickNs s)).2) ∧
    (tbHangs s = false → ratePpb s = 0 → -1000000000 < s.tbFrac → s.tbFrac < 1000000000 →
      t.timebase = s.timebase + BitVec.ofNat 64 (tickNs s) ∧ t.tbFrac = s.tbFrac))

/-- No command is refused, and every well-formed command answers a next state in every state. -/
def Obligations.WellFormedCommandsRun : Prop :=
  (∀ (c : Instr) (s : State) (r : Refusal), exec c s ≠ .refused r) ∧
  (∀ (c : Instr) (s : State), c.wf = true → ∃ t, exec c s = .next t) ∧
  (∀ (c : Instr) (s : State) (f : Fault), exec c s = .fault f → c.wf = false)

/-! ## The error log, the dirty log, telemetry -/

/-- R354, R358, R359, R361: the oldest pending record is written over its slot of the ring where the ring has room, and stays pending
while its write cannot be issued; with no room it is lost: LOG_LOST is set, and ERR_LOST_SEQ takes its number where LOG_LOST was
clear. An acknowledged record pulses source 144, and one of class DEVICE sets DEVICE_SEEN. -/
def Obligations.ErrorLogRecords : Prop :=
  (∀ s e rest h, s.errQ = e :: rest → admRuns s = true → bit (s.rd .errLogCtl 0) 0 = true →
    (e.seq - s.rd .errLogCons 0).toNat < errRing s → s.held = [] →
    h = admAccess s (.errLog e.seq (decide (e.cls = 3))) true (errBase s + 64 * (e.seq.toNat % errRing s)) 64
      (bytesOfWords (errWords e)) →
    (portNow s h = none → exec .errorLogWrite s = .next s) ∧
    (s.arbs = [] → (portNow s h).isSome = true →
      ∃ t, exec .errorLogWrite s = .next t ∧ PortsOnly { s with errQ := rest } t ∧
        ∃ a ∈ t.acc, a.purpose = h.purpose ∧ a.write = true ∧ a.addr = h.addr ∧ a.len = 64 ∧ a.data = h.data)) ∧
  (∀ s e rest, s.errQ = e :: rest → admRuns s = true → bit (s.rd .errLogCtl 0) 0 = true →
    errRing s ≤ (e.seq - s.rd .errLogCons 0).toNat → s.regs.wf = true →
    ∃ t, exec .errorLogWrite s = .next t ∧ t = { s with errQ := rest, regs := t.regs } ∧
      bit (t.rd .errLogStat 0) 0 = true ∧
      t.rd .errLostSeq 0 = if bit (s.rd .errLogStat 0) 0 then s.rd .errLostSeq 0 else e.seq) ∧
  (∀ s a seq device code, s.fatal = false → s.access a.aid = some a → a.purpose = .errLog seq device → codeSeen code = 0 →
    s.regs.wf = true → ∃ t, exec (.errorLogAck a.aid code) s = .next t ∧ Released s t a.aid ∧
      PortsOnly { (s.pulse 144 0) with regs := t.regs } t ∧ (device = false → t.regs = s.regs) ∧
      (device = true → bit (t.rd .errLogStat 0) 2 = true))

/-- R338, R341, R344: the oldest waiting dirty record is written at LOG_WR, which increments; the oldest sweep drops the
filter entries of its instance's closed epoch. -/
def Obligations.DirtyLogRecords : Prop :=
  (∀ s r rest, s.dirtyQ = r :: rest → s.fatal = false → s.is0.wf = true →
    ∃ t, exec .dirtyLogRecordWrite s = .next t ∧
      PortsOnly { s with dirtyQ := rest, is0 := t.is0, heldPulses := t.heldPulses } t ∧
      t.inst r.iid 15 = s.inst r.iid 15 + 1 ∧
      (∀ w, w < 13 → t.inst r.iid w = s.inst r.iid w) ∧
      Offered t (.dirtyLog r.iid r.epoch) true
        (logBase s r.iid + 8 * ((s.inst r.iid 15).toNat % 2 ^ s.instFld r.iid 13 5 5)) 8
        (leBytes 8 (pack [(0, 1, flag r.epoch), (1, 1, flag r.big), (12, 52, r.page)]).toNat)) ∧
  (∀ s iid more, s.sweep.reverse = iid :: more → awake s →
    ∃ u : State, exec .filterSweepDone s = .next u.admCheck ∧ u.sweep = s.sweep.filter (· != iid) ∧
      u.dirtyFilter = s.dirtyFilter.filter (fun k => !(k.iid == iid && k.epoch == !logEpoch s iid)) ∧
      u = { s with sweep := u.sweep, dirtyFilter := u.dirtyFilter, regs := u.regs })

/-- R407: a sample of a port in service whose clock runs takes its held tags, its held write IDs and its pool lines. R409: what an
evaluation makes of a threshold's state in the modes other than delta, and that it touches nothing else; R411: a timer
that reaches its period pulses source 224 + k, and one of mode 2 runs once. -/
def Obligations.TelemetryEvents : Prop :=
  (∀ s, telRuns s = true → awake s → bit (s.rd .telOccCtl 0) 20 = true → s.occDue ≤ s.nomNs → s.is3.wf = true →
     ∃ t, exec .occupancySample s = .next t ∧ t = { s with occDue := s.nomNs + occPeriodNs s, is3 := t.is3, thrPrev := t.thrPrev } ∧
       (∀ p, p < 16 → bit (s.rd .clkGateStat 0) p = true → outOfService s p = false →
         t.is3.get (0x68000 + 16 * p) = BitVec.ofNat 32 (tagsHeld s p false (fun _ => true)) ∧
         t.is3.get (0x68000 + 16 * p + 1) = BitVec.ofNat 32 (tagsHeld s p true (fun _ => true)) ∧
         t.is3.get (0x68000 + 16 * p + 2) = BitVec.ofNat 32 (poolUsed s p))) ∧
  (∀ s k, k < 64 → telRuns s = true → awake s → s.is3.wf = true →
    ∃ t, exec (.thresholdEval k) s = .next t ∧ t = { s with is3 := t.is3 } ∧
      (∀ w, w ≠ 0x69000 + 4 * k + 3 → t.is3.get w = s.is3.get w) ∧
      (bits (thrWord s k 0) 20 2 = 3 → t = s) ∧
      (bits (thrWord s k 0) 20 2 = 0 → thrState t k = false) ∧
      (bits (thrWord s k 0) 20 2 = 1 →
        let v := (is3Word s (bits (thrWord s k 0) 0 20)).toNat
        let limit := (thrWord s k 1).toNat
        let hyst := (thrWord s k 2).toNat
        thrState t k = if limit ≤ v then true else if v < limit - hyst then false else thrState s k) ∧
      (bits (thrWord s k 0) 20 2 = 2 →
        let v := (is3Word s (bits (thrWord s k 0) 0 20)).toNat
        let limit := (thrWord s k 1).toNat
        let hyst := (thrWord s k 2).toNat
        thrState t k = if v < limit then true else if min (2 ^ 32 - 1) (limit + hyst) ≤ v then false else thrState s k)) ∧
  (∀ s k e, k < 32 → telRuns s = true → awake s → (timerOf s k).ends = some e → e ≤ s.nomNs →
    ∃ t, exec (.intervalTimerExpiry k) s = .next t ∧ t = { s.pulse (224 + k) 0 with timers := t.timers } ∧
      (timerMode s k = 2 → (timerOf t k).ends = none) ∧
      (timerMode s k ≠ 2 → (timerOf t k).ends = some (e + timerPeriod s k)))

/-! ## The event matrix -/

/-- R376: an edge and a fall of an input change its level; the lines, flags and gated timers follow (R377, R392, R411),
and nothing else of the block. R375, R377, R388, R389: a pulse that a synchronous line takes is counted and makes its
edge, and its level in its pulse cycle is the line's where the source has no other (R374); a deferred edge is delivered when its
window has ended, and the window opens anew from then on; those of two lines that fall due in one cycle are delivered together (R381); an
edge on an enabled wake source's input wakes the block in REST (R473); a line asserted beyond its ceiling is masked and logged (R36). -/
def Obligations.EventInputs : Prop :=
  (∀ s i hop, i < 256 → s.evIn.any (fun e => e.1 == i) = false →
    (s.mode ≠ .rest ∧ s.restEnter ≠ 2 ∨ wakeEn s 0 = false ∧ wakeEn s 1 = false) →
    ∃ t, exec (.evInEdge i hop) s = .next t ∧ t.evIn = (i, hop.toNat) :: s.evIn ∧
      (evmOn s = true → t.heldPulses.any (fun p => p.1 == 256 + i) = true) ∧
      (evmOn s = false → t = { s with evIn := t.evIn }) ∧
      t = { s with evIn := t.evIn, heldPulses := t.heldPulses, srcLevels := t.srcLevels, pulseHigh := t.pulseHigh, flagSets := t.flagSets,
                   lines := t.lines, timers := t.timers, regs := t.regs }) ∧
  (∀ s i k (hop : BitVec 3), i < 256 → s.evIn.any (fun e => e.1 == i) = false → awake s → s.mode = .rest → s.restEnter ≠ 2 → s.wakeAt = none →
    k < 2 → wakeEn s k = true → s.fld .pwrWakeCtl 0 (9 * k) 8 = i → evmOn s = false → evmOn ({ s with evIn := (i, hop.toNat) :: s.evIn }.startWake 0) = false →
    exec (.evInEdge i hop) s = .next ({ s with evIn := (i, hop.toNat) :: s.evIn }.startWake 0)) ∧
  (∀ s i, i < 256 →
    ∃ t, exec (.evInFall i) s = .next t ∧ t.evIn = s.evIn.filter (fun e => e.1 != i) ∧
      t = { s with evIn := t.evIn, heldPulses := t.heldPulses, srcLevels := t.srcLevels, pulseHigh := t.pulseHigh, flagSets := t.flagSets,
                   lines := t.lines, timers := t.timers, regs := t.regs }) ∧
  (∀ s n l h, n < 512 → l < 256 → evmOn s = true → s.refreshEvm = s → s.heldPulses = [(n, 1, h)] → h < 6 →
    routedLines s = [l] → lineDirect s.evm l = false → feeds s.evm n l = true → (lineOf s l).masked = false →
    dueLines s = [] → (lineOf s l).window ≤ s.nomNs → minGap s = 0 → s.is3.wf = true →
    ∃ u : State, exec (.evmSourcePulse [n]) s = .next (u.deliverEdges [(l, 1 + h)]) ∧
      u = { s with heldPulses := [], pulseHigh := u.pulseHigh, flagSets := u.flagSets, is3 := u.is3, lines := u.lines, timers := u.timers,
                   regs := u.regs } ∧
      u.is3.get (8 * l) = s.is3.get (8 * l) + 1 ∧ (lineOf u l).level = ((lineOf s l).level || pulseOnly n) ∧
      (pulseOnly n = false → u = { s with heldPulses := [], is3 := u.is3 })) ∧
  (∀ s l h, l < 256 → evmOn s = true → (lineOf s l).defer = some h → dueLines s = [lineOf s l] →
    evmCycle s (lineOf s l).window = evmCycle s s.nomNs → (lineOf s l).masked = false →
    exec (.rateMergedEdge l) s = .next ((s.openWindow l (lineOf s l).window).deliverEdges [(l, h)]) ∧
      (lineOf (s.openWindow l (lineOf s l).window) l).defer = none ∧
      (lineOf (s.openWindow l (lineOf s l).window) l).window = (lineOf s l).window + minGap s * evmCycleNs s) ∧
  (∀ s l m h g, l < m → m < 256 → evmOn s = true → (lineOf s l).defer = some h → (lineOf s m).defer = some g →
    dueLines s = [lineOf s l, lineOf s m] → (lineOf s l).masked = false → (lineOf s m).masked = false →
    evmCycle s (lineOf s l).window = evmCycle s s.nomNs → evmCycle s (lineOf s m).window = evmCycle s s.nomNs →
    ∃ u : State, exec (.rateMergedEdge l) s = .next (u.deliverEdges [(l, h), (m, g)]) ∧
      exec (.rateMergedEdge m) s = .next (u.deliverEdges [(l, h), (m, g)]) ∧ u = { s with lines := u.lines }) ∧
  (∀ s l, l < 256 → evmOn s = true → s.refreshEvm = s → (lineOf s l).level = true → (lineOf s l).masked = false →
    (lineOf s l).since + stuckNs s l ≤ s.nomNs →
    ∃ u : State, exec (.stuckCeil l) s = .next u.refreshEvm ∧ (lineOf u l).masked = true ∧
      u = (s.putLine { lineOf s l with masked := true }).logErr
        (mkErr 2 21 0x1F (lineCtl s.evm l % 4096) 0 63 0 0 l (lineCtl s.evm l % 4096)))

/-! ## The poller -/

/-- R59, R60, R63, R238: a poll that has fallen due begins with its root access where an engine is left for it, in the mode in
force, as a full scan where one is due, with the arbiter's round at which it fell due as its stamp; the next one falls due an
effective interval later, and only the poller changes. One that has not fallen due does not begin. An interval that passes has
its poll fall due at its end. -/
def Obligations.PollsBegin : Prop :=
  (∀ s iid e x, iid < 4096 → mayBegin s iid = true → freeEngine s = some e → pollDue s (pollOf s iid) = some x →
    ∃ (t : State) (p : Poll), exec (.pollDue iid) s = .next t ∧ t = { s with polls := s.polls ++ [p], pollInst := t.pollInst } ∧
      p.iid = iid ∧ p.engine = e ∧ p.waiting = [.root iid] ∧ p.active = 0 ∧ p.failed = false ∧ p.scan = scanMode s ∧
      p.full = (pollOf s iid).fullDue ∧ p.stamp = x.2 ∧
      (pollOf t iid).nextDue = (if pollIv s iid = 0 then none else some (s.nomNs + effInterval s iid)) ∧
      (pollOf t iid).fullDue = false ∧ (pollOf t iid).kept = false ∧ (pollOf t iid).fell = none ∧
      (∀ j, j ≠ iid → pollOf t j = pollOf s j)) ∧
  (∀ s iid, iid < 4096 → pollDue s (pollOf s iid) = none → exec (.pollDue iid) s = .next s) ∧
  (∀ (s : State) iid t, (pollOf s iid).nextDue = some t → t ≤ s.nomNs → pollIv s iid ≠ 0 → (pollOf s iid).fell = none →
    pollOf s.pollsFallDue iid = { pollOf s iid with fell := some (t, (arbOf s 32).round) })

/-- R55, R56, R64: with the budget positive and a port ready, the one poll's next access goes out to its address,
charged by its length: a root word, a leaf word (both swapped against zero unless the poll scans), or a doorbell line.
R244, R505: the poll that a debug trigger began takes the arbiter as its emergency requester, and its accesses are not
charged to the budget (that it also needs none left is the model's reading, log entry 41). -/
def Obligations.PollAccessesIssue : Prop :=
  (∀ s p u us, s.polls = [p] → p.iid < 4096 → p.waiting = u :: us → p.debug = false → s.fatal = false → 0 < s.pollBudget →
     (arbOf s 32).reqs = [] → (portNow s (pollAccess s p u)).isSome = true →
     ∃ t, exec (.pollAccessIssue p.iid) s = .next t ∧
       t.pollBudget = s.pollBudget - 1000 * ((pollAccess s p u).len : Int) ∧
       t.polls = [{ p with waiting := us, active := p.active + 1 }] ∧
       PortsOnly { s with pollBudget := t.pollBudget, polls := t.polls } t ∧
       Offered t u false (pollAccess s p u).addr (pollAccess s p u).len [] ∧
       (∀ i, u = .root i → (pollAccess s p u).addr = sumBase s p.iid ∧ (pollAccess s p u).len = 8 ∧
         (pollAccess s p u).attrs.swap = !p.scan) ∧
       (∀ i k, u = .leaf i k → (pollAccess s p u).addr = sumBase s p.iid + 64 + 8 * k ∧ (pollAccess s p u).len = 8 ∧
         (pollAccess s p u).attrs.swap = !p.scan) ∧
       (∀ i k j, u = .doorbell i k j → (pollAccess s p u).addr = dbBase s p.iid + 4096 * k + 64 * j ∧
         (pollAccess s p u).len = 64 ∧ (pollAccess s p u).attrs.swap = false)) ∧
  (∀ s p u us, s.polls = [p] → p.iid < 4096 → p.waiting = u :: us → p.debug = true → s.fatal = false →
     (portNow s (pollAccess s p u)).isSome = true →
     ∃ t, exec (.pollAccessIssue p.iid) s = .next t ∧ t.pollBudget = s.pollBudget ∧
       t.polls = [{ p with waiting := us, active := p.active + 1 }] ∧ PortsOnly { s with polls := t.polls } t ∧
       Offered t u false (pollAccess s p u).addr (pollAccess s p u).len [])

/-- R55, R56, R60: a sound root word brings one leaf access per set bit (all 64 in a full scan), a sound leaf word one
doorbell line per set bit (in a full scan every line that holds the record of an existing queue as well); a poll with
nothing left ends, and one that failed makes the next a full scan. R49, R50, R421: a sound doorbell line has its eight
records taken in turn, each by its local number: the record of no queue only counts, that of a queue homed at another
member goes there, and any other is applied where the queue's context is resident, else waits for it. -/
def Obligations.PollAnswers : Prop :=
  (∀ s aid ans a p iid, s.access aid = some a → a.purpose = .root iid → s.fatal = false → CleanAnswer a ans →
    pollIn s iid = some p → p.failed = false →
    ∃ (u : State) (more : List Purpose), exec (.rootSwapResponse aid ans) s = .next (u.settlePoll iid) ∧ Released s u a.aid ∧
      more = ((List.range 64).filter (fun k => p.full || bit (BitVec.ofNat 64 (leNat (answerBytes a ans))) k)).map
        (fun k => Purpose.leaf iid k) ∧
      pollIn u iid = some { p with active := p.active - 1, waiting := more ++ p.waiting } ∧
      PortsOnly { s with polls := u.polls, dirtyQ := u.dirtyQ, dirtyFilter := u.dirtyFilter, is0 := u.is0, regs := u.regs,
                         heldPulses := u.heldPulses } u) ∧
  (∀ s aid ans a p iid k, s.access aid = some a → a.purpose = .leaf iid k → s.fatal = false → CleanAnswer a ans →
    pollIn s iid = some p → p.failed = false → p.full = false →
    ∃ (u : State) (more : List Purpose), exec (.leafSwapResponse aid ans) s = .next (u.settlePoll iid) ∧ Released s u a.aid ∧
      more = ((List.range 64).filter (fun j => bit (BitVec.ofNat 64 (leNat (answerBytes a ans))) j)).map
        (fun j => Purpose.doorbell iid k j) ∧
      pollIn u iid = some { p with active := p.active - 1, waiting := more ++ p.waiting } ∧
      PortsOnly { s with polls := u.polls, dirtyQ := u.dirtyQ, dirtyFilter := u.dirtyFilter, is0 := u.is0, regs := u.regs,
                         heldPulses := u.heldPulses } u) ∧
  (∀ s iid p, pollIn s iid = some p → (p.active ≠ 0 ∨ p.waiting ≠ []) → s.settlePoll iid = s) ∧
  (∀ s iid p, pollIn s iid = some p → p.active = 0 → p.waiting = [] →
    ∃ v : State, s.settlePoll iid = v.admCheck ∧ pollIn v iid = none ∧ (p.failed = true → (pollOf v iid).fullDue = true) ∧
      v = { s with polls := v.polls, pollInst := v.pollInst, arbs := v.arbs }) ∧
  (∀ s aid ans a p iid k j, s.access aid = some a → a.purpose = .doorbell iid k j → s.fatal = false → CleanAnswer a ans →
    a.attrs.swap = false → a.write = false → pollIn s iid = some p → p.failed = false →
    ∃ u : State, exec (.doorbellLineReadResponse aid ans) s = .next
        (((List.range 8).foldl (fun v r => v.lineRecord iid (512 * k + 8 * j + r) (wd (wordsOfBytes (answerBytes a ans)) r)) u).pollStep
          iid []) ∧
      Released s u a.aid ∧ PortsOnly s u) ∧
  (∀ s iid q rec, (qidSpan s iid ≤ q ∨ s.queues.contains (qbase s iid + q) = false) →
    s.lineRecord iid q rec = s.countIgnored iid rec) ∧
  (∀ s iid q rec, q < qidSpan s iid → s.queues.contains (qbase s iid + q) = true → homedAway s (qbase s iid + q) = true →
    s.lineRecord iid q rec = s.forwardDoorbell (qbase s iid + q) rec) ∧
  (∀ s iid q rec, q < qidSpan s iid → s.queues.contains (qbase s iid + q) = true → homedAway s (qbase s iid + q) = false →
    ∀ w, ctxOf s (qbase s iid + q) = some w →
      s.lineRecord iid q rec = (s.hit (qbase s iid + q)).applyRecord (qbase s iid + q) rec) ∧
  (∀ s iid q rec, q < qidSpan s iid → s.queues.contains (qbase s iid + q) = true → homedAway s (qbase s iid + q) = false →
    ctxOf s (qbase s iid + q) = none →
    s.lineRecord iid q rec = s.awaitCtx (qbase s iid + q) (.doorbell rec)) ∧
  (∀ (s : State) iid, s.countIgnored iid 0 = s)

/-- R45, R50, R79: what a doorbell record does to a queue that is not in ERROR. A record of another generation, or of a
queue on its way out, only counts; one whose producer index runs past the ring's depth puts the queue in ERROR at Q + D
with cause DB_OVERRUN; any other gives the queue its producer index and toggles, and makes it ready where it has
unfetched slots. -/
def Obligations.DoorbellRecords : Prop :=
  (∀ s qid rec c, ctxOf s qid = some c →
    (c.state = qAbsent ∨ (c.state = qDraining ∧ c.drainTo = 1) ∨ bits rec 56 8 ≠ c.dbGen.toNat) →
    s.applyRecord qid rec = s.countIgnored c.iid.toNat rec) ∧
  (∀ s qid rec c, ctxOf s qid = some c → (c.state = qIdle ∨ c.state = qActive) → bits rec 56 8 = c.dbGen.toNat →
    rec.setWidth 32 ≠ c.piSeen →
    (c.depth < (rec.setWidth 32 - c.piSeen).toNat ∨ c.depth < (rec.setWidth 32 - c.q).toNat) →
    ∃ (t : State) (d : QCtx), s.applyRecord qid rec = t ∧ ctxOf t qid = some d ∧ d.state = qError ∧
      d.errIndex = c.q + BitVec.ofNat 32 c.depth ∧ d.errCause = 3 ∧ d.errDepth = 0 ∧ d.errChainPos = 0 ∧ d.piSeen = c.piSeen) ∧
  (∀ s qid rec c, ctxOf s qid = some c → (c.state = qIdle ∨ c.state = qActive) → bits rec 56 8 = c.dbGen.toNat →
    (rec.setWidth 32 - c.piSeen).toNat ≤ c.depth → (rec.setWidth 32 - c.q).toNat ≤ c.depth →
    ∃ (t : State) (d : QCtx), s.applyRecord qid rec = t ∧ ctxOf t qid = some d ∧
      d = { c with piSeen := rec.setWidth 32, resumeSeen := BitVec.ofNat 1 (bits rec 48 1), abandonSeen := BitVec.ofNat 1 (bits rec 49 1),
                   state := d.state } ∧
      d.state = (if rec.setWidth 32 = c.f ∧ isAdopting s qid = false then c.state else qActive) ∧
      (rec.setWidth 32 ≠ c.f → t.ready.any (fun r => r.qid == qid && r.live) = true) ∧
      (∀ r, r ≠ qid → ctxOf t r = ctxOf s r) ∧
      t = { s with ways := t.ways, ready := t.ready, idleSince := t.idleSince })

/-! ## Ceilings -/

/-- R32, R173, R362, R562: a slot, tail, context, admin, error-log, dirty-log, record or notice access whose ceiling has
passed is issued again as it was, and its tag or write ID is quarantined for twice the ceiling. An error-log write is
given up at its sixteenth expiry. -/
def Obligations.ExpiredAccessesAgain : Prop :=
  (∀ s aid a c k, s.access aid = some a → s.fatal = false → expired s a = true →
    (a.purpose = .slot c k ∨ a.purpose = .tail c k ∨ a.purpose = .parkSlot c k) →
    ∃ t, exec (.slotReadCeil aid) s = .next t ∧ Quarantined s t a ∧ Offered t a.purpose a.write a.addr a.len a.data ∧
      PortsOnly { s with quar := t.quar } t) ∧
  (∀ s aid a, s.access aid = some a → s.fatal = false → expired s a = true → isAdmin a.purpose = true →
    (∀ q d, a.purpose ≠ .errLog q d) →
    ∃ t, exec (.admMemCeil aid) s = .next t ∧ Quarantined s t a ∧ Offered t a.purpose a.write a.addr a.len a.data ∧
      PortsOnly { s with quar := t.quar, errQ := t.errQ, regs := t.regs } t) ∧
  (∀ s aid a q d, s.access aid = some a → s.fatal = false → expired s a = true → a.purpose = .errLog q d →
    a.expiries + 1 < 16 →
    ∃ t, exec (.admMemCeil aid) s = .next t ∧ Quarantined s t a ∧ Offered t a.purpose a.write a.addr a.len a.data ∧
      PortsOnly { s with quar := t.quar } t) ∧
  (∀ s aid a q d, s.access aid = some a → s.fatal = false → expired s a = true → a.purpose = .errLog q d →
    16 ≤ a.expiries + 1 → s.regs.wf = true →
    ∃ t, exec (.admMemCeil aid) s = .next t ∧ Quarantined s t a ∧ PortsOnly { s with quar := t.quar, regs := t.regs } t ∧
      bit (t.rd .errLogStat 0) 0 = true ∧ bit (t.rd .errLogStat 0) 1 = true) ∧
  (∀ s qid a, qid < 2 ^ 22 → awake s →
    s.acc.find? (fun a => (decide (a.purpose = .ctxFetch qid) || decide (a.purpose = .ctxWriteBack qid)) && expired s a) = some a →
    ∃ t, exec (.ctxFetchCeil qid) s = .next t ∧ Quarantined s t a ∧ Offered t a.purpose a.write a.addr a.len a.data ∧
      PortsOnly { s with quar := t.quar, errQ := t.errQ, regs := t.regs } t) ∧
  (∀ s aid a, s.access aid = some a → s.fatal = false → expired s a = true → isRecordWrite a.purpose = true →
    a.expiries + 1 < 16 →
    ∃ t, exec (.recordWriteCeil aid) s = .next t ∧ Quarantined s t a ∧ Offered t a.purpose a.write a.addr a.len a.data ∧
      PortsOnly { s with quar := t.quar, dirtyQ := t.dirtyQ, dirtyFilter := t.dirtyFilter, is0 := t.is0, regs := t.regs,
                         heldPulses := t.heldPulses } t)

/-- R173, R504, R562, R415, R416, R435, R555: an expired poll access is abandoned, its poll fails, and the next one is a
full scan; an expired trace write is counted lost and an expired snapshot dropped; a debug access ends with TIMEOUT; an
expired witness read counts as unchanged, and a test request as an error. The tag is quarantined each time. R32, R191,
R252: an expired data or table read, and an expired write of a loaf not yet released, are retryable faults of the
fabric; an expired write of a released loaf ends the descriptor with status 9; an access that no one waits for any more
only lets its descriptor settle. -/
def Obligations.ExpiredAccessesAbandoned : Prop :=
  (∀ s aid a, s.access aid = some a → s.fatal = false → expired s a = true → unitOf a.purpose = 1 →
    ∃ u : State, exec (.pollAccessCeil aid) s = .next (u.pollFail a.iid) ∧ Quarantined s u a ∧
      (a.write = false → a.attrs.swap = false → u.dirtyQ = s.dirtyQ) ∧
      PortsOnly { s with quar := u.quar, errQ := u.errQ, regs := u.regs, dirtyQ := u.dirtyQ, dirtyFilter := u.dirtyFilter,
                         is0 := u.is0, heldPulses := u.heldPulses } u) ∧
  (∀ s iid p, pollIn s iid = some p → p.active ≤ 1 →
    ∃ v : State, s.pollFail iid = v.admCheck ∧ pollIn v iid = none ∧ (pollOf v iid).fullDue = true ∧
      v = { s with polls := v.polls, pollInst := v.pollInst, arbs := v.arbs }) ∧
  (∀ s aid a k, s.access aid = some a → s.fatal = false → expired s a = true → a.purpose = .trace k →
    ∃ t, exec (.telemetryWriteCeil aid) s = .next t ∧ Quarantined s t a ∧
      PortsOnly { s with quar := t.quar, is3 := t.is3 } t ∧
      (telOn s = true → s.is3.wf = true → t.is3.get (0x69300 + 8 * k + 4) = s.is3.get (0x69300 + 8 * k + 4) + 1)) ∧
  (∀ s aid a k h, s.access aid = some a → s.fatal = false → expired s a = true → a.purpose = .snap k h →
    ∃ t, exec (.telemetryWriteCeil aid) s = .next t ∧ t.quar = s.quar ++ [{ acc := a, freeAt := s.nomNs + 2 * a.ceilNs }] ∧
      snapOf t k = none ∧ (∀ j, j ≠ k → snapOf t j = snapOf s j) ∧
      PortsOnly { s with quar := t.quar, snaps := t.snaps } t) ∧
  (∀ s aid a, s.access aid = some a → s.fatal = false → expired s a = true → a.purpose = .debug → s.regs.wf = true →
    ∃ t, exec (.dbgMemCeil aid) s = .next t ∧ Quarantined s t a ∧ t.rd .dbgMemStat 0 = 2 ∧
      PortsOnly { s with quar := t.quar, dirtyQ := t.dirtyQ, dirtyFilter := t.dirtyFilter, is0 := t.is0, regs := t.regs,
                         heldPulses := t.heldPulses } t) ∧
  (∀ s aid a n o, s.access aid = some a → s.fatal = false → expired s a = true → a.purpose = .test n o →
    ∃ u : State, exec (.tstRequestCeil aid) s = .next (u.testFault n a.write) ∧ Quarantined s u a ∧
      PortsOnly { s with quar := u.quar, dirtyQ := u.dirtyQ, dirtyFilter := u.dirtyFilter, is0 := u.is0, regs := u.regs,
                         heldPulses := u.heldPulses } u) ∧
  (∀ s aid a m, s.access aid = some a → s.fatal = false → expired s a = true → a.purpose = .witnessRead m →
    ∃ u : State, exec (.witnessReadCeil aid) s = .next (u.witnessSeen m none) ∧ Quarantined s u a ∧
      PortsOnly { s with quar := u.quar } u) ∧
  (∀ s aid a c i n x, s.access aid = some a → s.fatal = false → expired s a = true → a.write = false → a.purpose = .data c i n →
    slotAt s c i = some x →
    ∃ u : State, exec (.dataReadCeil aid) s = .next (u.readFault x n a 0x27 0x3D) ∧ Quarantined s u a ∧
      PortsOnly { s with quar := u.quar } u) ∧
  (∀ s aid a c i f n x, s.access aid = some a → s.fatal = false → expired s a = true → a.write = false →
    a.purpose = .table c i f n → slotAt s c i = some x →
    ∃ u : State, exec (.dataReadCeil aid) s = .next (u.fabricFault c i (tableLoaf x f) 0x27 true 0x3D a.addr) ∧
      Quarantined s u a ∧ slotAt u c i = some { x with lines := dropIf (fun r => r.ofTable f) x.lines } ∧
      (∀ d j, ¬(d = c ∧ j = i) → slotAt u d j = slotAt s d j) ∧ PortsOnly { s with quar := u.quar, slots := u.slots } u) ∧
  (∀ s aid a q i p k, s.access aid = some a → s.fatal = false → expired s a = true → a.write = false → a.purpose = .oldRead q i p k →
    ∃ u : State, exec (.dataReadCeil aid) s = .next (u.settleOf q i p) ∧ Quarantined s u a ∧
      PortsOnly { s with quar := u.quar } u) ∧
  (∀ s aid a c i n x l, s.access aid = some a → s.fatal = false → expired s a = true → a.purpose = .write c i n →
    slotAt s c i = some x → loafOf x n = some l →
    ∃ u : State, exec (.dataWriteCeil aid) s = .next (if l.released then u.endWith c i 9 0x3D a.addr (some n)
        else u.fabricFault c i n 0x27 false 0x3D a.addr) ∧
      Released s u a.aid ∧
      (∃ b : Access, u.quar = s.quar ++ [{ acc := b, freeAt := s.nomNs + 2 * a.ceilNs }] ∧ b.aid = a.aid ∧ b.port = a.port ∧
        b.tag = a.tag ∧ b.write = a.write) ∧
      PortsOnly { s with quar := u.quar, dirtyQ := u.dirtyQ, dirtyFilter := u.dirtyFilter, is0 := u.is0, regs := u.regs,
                         heldPulses := u.heldPulses } u) ∧
  (∀ s aid a, s.access aid = some a → s.fatal = false → expired s a = true →
    (a.purpose = .fedCkpt ∨ a.purpose = .witnessWrite) →
    ∃ t, exec (.dataWriteCeil aid) s = .next t ∧ Quarantined s t a ∧ PortsOnly { s with quar := t.quar } t)

/-! ## The context cache -/

/-- R19, R503: a context placed in a way is the youngest of its set and reads back whole, the other contexts keep what
they hold; and the sixteen words of a context hold every one of its fields. -/
def Obligations.ContextWords : Prop :=
  (∀ (s : State) qid k c d, wayOf (s.placeWay qid k c d) qid =
    some { qid := qid, way := k, age := 0, dirty := d, wbFault := false, ctx := c }) ∧
  (∀ (s : State) qid k c d r, r ≠ qid → ctxOf (s.placeWay qid k c d) r = ctxOf s r) ∧
  (∀ c : QCtx, QCtx.ofWords c.toWords = c) ∧ (∀ c : QCtx, c.toWords.length = 16) ∧
  (∀ ws : List W64, wordsOfBytes (bytesOfWords ws) = ws)

/-- R19, R32, R562, R566: a sound context goes to a free way of its set, or in the place of the least recently used way that nothing
pins, which is written back first where it is dirty, and what waited for it runs; a retryable error has it read again; a non-retryable
one is logged as DEVICE and retried after the fetch ceiling. R19, R422, R566: an acknowledged write-back leaves the way clean where
the context has not changed since; one that met a non-retryable error keeps its way, dirty and marked, and is retried; a changed
context of a federated queue is written back, whole, to its place in the context table. R522: the tag of a fetch whose error answer
does not carry fpn_rs_last is quarantined. While CTX is gated an answer waits (R467; the model's choice, log entry 48). -/
def Obligations.ContextTransfers : Prop :=
  (∀ s aid a ans qid k, s.access aid = some a → a.purpose = .ctxFetch qid → s.fatal = false → ctxOn s = true → CleanAnswer a ans →
    s.queues.contains qid = true → homedAway s qid = false → freeWay s qid = some k →
    ∃ u : State, exec (.ctxFetchResponse aid ans) s = .next
        ((u.placeWay qid k (QCtx.fetched (wordsOfBytes (answerBytes a ans))) false).ctxArrived qid) ∧
      Released s u a.aid ∧ PortsOnly s u) ∧
  (∀ s aid a ans qid, s.access aid = some a → a.purpose = .ctxFetch qid → s.fatal = false → ctxOn s = true → CleanAnswer a ans →
    s.queues.contains qid = true → homedAway s qid = false → freeWay s qid = none →
    ∃ u : State, Released s u a.aid ∧ PortsOnly s u ∧
      (∀ w, victim u qid = some w → w.dirty = false → exec (.ctxFetchResponse aid ans) s = .next
        ((({ u with ways := u.ways.filter (fun v => v.qid != w.qid) } : State).placeWay qid w.way
          (QCtx.fetched (wordsOfBytes (answerBytes a ans))) false).ctxArrived qid)) ∧
      (∀ w, victim u qid = some w → w.dirty = true → exec (.ctxFetchResponse aid ans) s = .next (u.startFetch qid)) ∧
      (victim u qid = none → exec (.ctxFetchResponse aid ans) s = .next u)) ∧
  (∀ s qid w, wayOf s qid = none → fetchBusy s qid = false → s.queues.contains qid = true → freeWay s qid = none →
    victim s qid = some w → w.dirty = true → wbBusy s w.qid = false → ctxOn s = true →
    s.startFetch qid = s.evict w ∧ (w.ctx.pendingCnt = 0 → s.evict w = s.writeBack w)) ∧
  (∀ s qid w, victim s qid = some w → pinned s w.qid = false ∧ sameSet w.qid qid = true ∧ w ∈ s.ways ∧
    ∀ v ∈ s.ways, sameSet v.qid qid = true → pinned s v.qid = false → v.age < 4 → w.age < 4 → v.age ≤ w.age) ∧
  (∀ s aid a ans qid, s.access aid = some a → a.purpose = .ctxFetch qid → s.fatal = false → ctxOn s = true → codeSeen ans.code ≠ 0 →
    codeRetryable (codeSeen ans.code) = true →
    ∃ t, exec (.ctxFetchResponse aid ans) s = .next t ∧ Released s t a.aid ∧ Offered t a.purpose a.write a.addr a.len a.data ∧
      (ans.last = true → t.quar = s.quar) ∧ (ans.last = false → Quarantined s t a) ∧
      PortsOnly { s with quar := t.quar, errQ := t.errQ, regs := t.regs } t) ∧
  (∀ s aid a ans qid, s.access aid = some a → a.purpose = .ctxFetch qid → s.fatal = false → ctxOn s = true → codeSeen ans.code ≠ 0 →
    codeRetryable (codeSeen ans.code) = false →
    ∃ t, exec (.ctxFetchResponse aid ans) s = .next t ∧ Released s t a.aid ∧
      assocGet t.ctxRetry qid = some (s.nomNs + fetchCeilNs s) ∧
      PortsOnly { s with quar := t.quar, errQ := t.errQ, regs := t.regs, ctxRetry := t.ctxRetry } t) ∧
  (∀ s aid a ans qid, s.access aid = some a → a.purpose = .ctxFetch qid → ctxOn s = false → exec (.ctxFetchResponse aid ans) s = .next s) ∧
  (∀ (s : State) qid w, s.ctxWait = [(qid, w)] →
    s.ctxArrived qid = (({ s with ctxWait := [] } : State).runWork qid w).markReady qid) ∧
  (∀ s aid a code qid, s.access aid = some a → a.purpose = .ctxWriteBack qid → s.fatal = false → codeSeen code = 0 →
    s.ctxWait = [] → s.adm.cmd = none → s.fed.remote = none →
    ∃ t, exec (.ctxWriteBackAck aid code) s = .next t ∧ Released s t a.aid ∧ PortsOnly { s with ways := t.ways } t ∧
      wayOf t qid = (wayOf s qid).map (fun w =>
        { w with wbFault := false, dirty := w.dirty && decide (a.data ≠ bytesOfWords w.ctx.toWords) }) ∧
      (∀ r, ctxOf t r = ctxOf s r)) ∧
  (∀ s aid a code qid, s.access aid = some a → a.purpose = .ctxWriteBack qid → s.fatal = false → codeSeen code ≠ 0 →
    codeRetryable (codeSeen code) = false →
    ∃ t, exec (.ctxWriteBackAck aid code) s = .next t ∧ Released s t a.aid ∧
      wayOf t qid = (wayOf s qid).map (fun w => { w with wbFault := true, dirty := true }) ∧
      assocGet t.ctxRetry qid = some (s.nomNs + fetchCeilNs s) ∧
      PortsOnly { s with ways := t.ways, errQ := t.errQ, regs := t.regs, ctxRetry := t.ctxRetry } t) ∧
  (∀ s qid w, qid < 2 ^ 22 → wayOf s qid = some w → awake s → federated s = true → serves s = true → w.dirty = true →
    w.wbFault = false → wbBusy s qid = false → homedAway s qid = false → ctxOn s = true →
    (∀ d, assocGet s.ctxWb qid = some d → d + 1000 * max 1 (s.fld .fedCtl 0 21 11) ≤ s.nomNs) →
    ∃ t, exec (.contextWriteBack qid) s = .next t ∧
      Offered t (.ctxWriteBack qid) true (ctxAddr s qid) 128 (bytesOfWords w.ctx.toWords) ∧
      assocGet t.ctxWb qid = some s.nomNs ∧ PortsOnly { s with ctxWb := t.ctxWb } t)

/-! ## The scheduler -/

/-- R218, R220, R221, R223: what a cluster's rotations choose is eligible and stands in them, and a promoted queue goes
first; a visit takes its quantum at its beginning, with the WEIGHT and CLASS_CAP then in force (R229), and the deficit of an
instance that has no eligible queue left is not kept. R65, R221, R223, R224: a bind takes the queue chosen: the first slot
from F on that no channel holds is read by the channel given, the rotation's deficit is debited with the estimated cost (and
not kept where the visit ends with it), and the queue's time without a bind starts anew; a queue eligible for
SCH_BIND_CEIL is promoted, counted, and source 146 pulses. -/
def Obligations.SchedulerChoice : Prop :=
  (∀ (s : State) home clu t q cls, s.chooseBind home clu = (t, some (q, cls)) →
    cls < 4 ∧ ∃ r ∈ t.ready, r.qid = q ∧ eligible t r clu = true ∧ inRotation t home cls r = true) ∧
  (∀ (s : State) home clu r, r ∈ s.ready → r.promoted.isSome = true → eligible s r clu = true →
    (∃ cls, cls < 4 ∧ inRotation s home cls r = true) →
    ∃ q ∈ s.ready, ∃ cls, s.chooseBind home clu = (s, some (q.qid, cls)) ∧ q.promoted.isSome = true ∧ eligible s q clu = true ∧
      q.promoted.getD 0 ≤ r.promoted.getD 0) ∧
  (∀ s r clu c, eligible s r clu = true → ctxOf s r.qid = some c →
    inService s clu = true ∧ awaitsPlace s clu = false ∧ s.instState c.iid.toNat = 1 ∧
    weightIn s (schedCluster s c.home.toNat) c.iid.toNat ≠ 0 ∧
    bucketsPositive s c.iid.toNat = true ∧ overlapUsed s r.qid < c.overlapM1.toNat + 1 ∧ heldBack s r.qid = false ∧
    setFull s r.qid = false ∧ cluEn s c.home.toNat = true ∧ homedAway s r.qid = false ∧
    (r.resume = false → isAdopting s r.qid = false → c.state = qActive ∧ c.piSeen ≠ nextIndex s r.qid c) ∧ (r.resume = true → c.state = qError)) ∧
  (∀ s qid c k, (∀ j, j < k → (earlySlots s qid).any (fun x => decide (x.slotIdx = c.f + BitVec.ofNat 32 j)) = true) →
    k ≤ (earlySlots s qid).length → (earlySlots s qid).any (fun x => decide (x.slotIdx = c.f + BitVec.ofNat 32 k)) = false →
    nextIndex s qid c = c.f + BitVec.ofNat 32 k) ∧
  (∀ s home cls iid, let t := State.beginVisit s home cls iid
    visitIn t home cls = some { cls := cls, iid := iid, weight := weight s iid, cap := classCap s iid } ∧
    weightIn t home iid = weight s iid ∧
    defOf t home iid = max (-(2 : Int) ^ 39) (min (defLimit t home iid) (defOf s home iid + quantum s (weight s iid)))) ∧
  (∀ s home clu cls iid, s.ready.any (fun r => eligible s r clu && decide (iidOf s r.qid = iid) &&
      (List.range 4).any (fun k => inRotation s home k r)) = false → -(2 : Int) ^ 39 ≤ defOf s home iid →
    defOf (s.endVisit home clu cls iid) home iid = min (defOf s home iid) 0 ∧ visitIn (s.endVisit home clu cls iid) home cls = none) ∧
  (∀ (s : State) home clu slot u q rot c, home < 16 → clu < 16 → slot < 32 → running s = true →
    (freeChannels s.fetchReady clu).contains slot = true → (clu = home ∨ mayShare s.fetchReady home clu = true) →
    clusterTakes s.fetchReady clu = true → s.fetchReady.chooseBind home clu = (u, some (q, rot)) → ctxOf u q = some c → u.fatal = false →
    ∃ t x, exec (.bind home clu slot) s = .next t ∧ slotAt t clu slot = some x ∧ x.qid = q ∧ x.iid = c.iid.toNat ∧
      x.rotHome = home ∧ x.slotIdx = nextIndex u q c ∧ x.phase = .slotRead ∧ x.chain = none ∧ x.estCost = c.estCost.toNat ∧
      Offered t (.slot clu slot) false (slotAddr c (nextIndex u q c)) 64 [] ∧
      (let d := max (-(2 : Int) ^ 39) (min (defLimit u home c.iid.toNat) (defOf u home c.iid.toNat - (c.estCost.toNat : Int)))
       defOf t home c.iid.toNat = d ∨ 0 < d ∧ defOf t home c.iid.toNat = 0) ∧
      (∀ r ∈ t.ready, r.qid = q → r.elig = 0 ∧ r.promoted = none ∧ r.resume = false) ∧
      PortsOnly { u with slots := x :: u.slots, ready := t.ready, sched := t.sched, ways := t.ways, regs := t.regs } t) ∧
  (∀ s qid r c, qid < 2 ^ 22 → s.ready.find? (fun r => r.qid == qid) = some r → ctxOf s qid = some c → running s = true →
    r.promoted = none → bindCeilNs s ≤ r.elig → eligible s r (schedCluster s c.home.toNat) = true → s.regs.wf = true →
    ∃ t, exec (.promotion qid) s = .next t ∧ t.ready.find? (fun r => r.qid == qid) = some { r with promoted := some s.promoCtr } ∧
      t.rd .schPromotions 0 = s.rd .schPromotions 0 + 1 ∧ t.promoCtr = s.promoCtr + 1 ∧
      t.heldPulses.any (fun p => p.1 == 146) = true ∧
      t = { s with promoCtr := t.promoCtr, ready := t.ready, regs := t.regs, heldPulses := t.heldPulses })

/-! ## Slots, acceptance and chains -/

/-- R65 to R68: a slot that is read is sorted by its GEN and SEAL against the lap's generation; one that is not whole is
read again, one that is whole is proofed. A slot not whole below the ceiling is read again an effective interval later,
at the ceiling its cause is kept (TORN_CEIL re-reads by R67 and R371, where an example speaks of one more: log entry
42); a ring slot's channel is free again, and the deficit gets the estimated cost back. R66, R67: once its interval has
passed, a slot that was not whole may be bound again, or its chain's channel reads it again; at the ceiling the queue
enters ERROR at that slot, with the cause kept. -/
def Obligations.SlotSorting : Prop :=
  (∀ s aid a ans clu idx x c, s.access aid = some a → a.purpose = .slot clu idx → s.fatal = false → CleanAnswer a ans →
    slotAt s clu idx = some x → ctxOf s x.qid = some c → (x.chain.map (·.seek)).getD 0 = 0 →
    (adoptedFrom s x.qid = none ∨ x.chain.isSome = true) →
    ∃ u : State, Released s u a.aid ∧ PortsOnly s u ∧
      (dGen (wordsOfBytes (answerBytes a ans)) ≠ genOf c.depth x.slotIdx →
        exec (.slotReadResponse aid ans) s = .next (u.notWhole x (wordsOfBytes (answerBytes a ans)) false)) ∧
      (dGen (wordsOfBytes (answerBytes a ans)) = genOf c.depth x.slotIdx →
        dSeal (wordsOfBytes (answerBytes a ans)) ≠ genOf c.depth x.slotIdx →
        exec (.slotReadResponse aid ans) s = .next (u.notWhole x (wordsOfBytes (answerBytes a ans)) true)) ∧
      (dGen (wordsOfBytes (answerBytes a ans)) = genOf c.depth x.slotIdx →
        dSeal (wordsOfBytes (answerBytes a ans)) = genOf c.depth x.slotIdx →
        exec (.slotReadResponse aid ans) s = .next (u.wholeSlot x (wordsOfBytes (answerBytes a ans))))) ∧
  (∀ s aid a ans clu idx x, s.access aid = some a → a.purpose = .slot clu idx → s.fatal = false → codeSeen ans.code ≠ 0 →
    slotAt s clu idx = some x →
    ∃ t, exec (.slotReadResponse aid ans) s = .next t ∧ Released s t a.aid ∧ Offered t a.purpose a.write a.addr a.len a.data ∧
      PortsOnly { s with quar := t.quar } t) ∧
  (∀ (s : State) x ws torn n, n = ((s.rereads.find? (fun r => r.qid == x.qid && decide (r.idx = x.slotIdx))).map (·.count)).getD 0 →
    ∃ r, (s.notWhole x ws torn).rereads.head? = some r ∧ r.qid = x.qid ∧ r.idx = x.slotIdx ∧
      (n < tornCeil s → r.count = n + 1 ∧ r.due = some (s.nomNs + effInterval s x.iid) ∧ r.cause = none) ∧
      (tornCeil s ≤ n → r.count = n ∧ r.due = none ∧ r.cause = some (if torn then 1 else 2)) ∧
      (x.chain = none → slotAt (s.notWhole x ws torn) x.clu x.idx = none)) ∧
  (∀ (s : State) qid r, qid < 2 ^ 22 → s.rereads.find? (fun r => r.qid == qid && (r.due.map (fun d => decide (d ≤ s.nomNs))).getD false) =
      some r →
    running s = true → serves s = true →
    ∃ u : State, u = { s with rereads := u.rereads } ∧
      (∀ y ∈ u.rereads, y.qid = qid → y.idx = r.idx → y.due = none) ∧
      (∀ x ch, (chans s qid).find? (fun x => decide (x.slotIdx = r.idx) && x.chain.isSome) = some x → x.chain = some ch →
        ∃ t, exec (.slotReread qid) s = .next t ∧ PortsOnly u t ∧
          Offered t (.slot x.clu x.idx) false (ch.segAddr + 64 * ch.segPos) 64 []) ∧
      ((chans s qid).find? (fun x => decide (x.slotIdx = r.idx) && x.chain.isSome) = none →
        ∀ c, ctxOf s qid = some c →
          exec (.slotReread qid) s = .next (if c.state = qError then u.addReady qid true else u.markReady qid))) ∧
  (∀ (s : State) qid r c, qid < 2 ^ 22 → ctxOf s qid = some c → spentReread s qid c = some r →
    running s = true → c.f = r.idx → c.state ≠ qError → (chans s qid).find? (fun x => decide (x.slotIdx = r.idx) && x.chain.isSome) = none →
    ∃ t d, exec (.tornCeilReached qid) s = .next t ∧ ctxOf t qid = some d ∧ d.state = qError ∧ d.errIndex = r.idx ∧
      d.errCause = BitVec.ofNat 8 (r.cause.getD 2) ∧ d.errDepth = 0 ∧ d.errChainPos = 0 ∧ d.f = c.f ∧ d.q = c.q)

/-- R68, R222, R223, R250: an accepted ring descriptor moves F on by one, is charged its cost against its rotation's
deficit in place of the estimate, is counted by its cluster, and has its checkpoint stored. -/
def Obligations.Acceptance : Prop :=
  ∀ (s : State) x c, ctxOf s x.qid = some c → slotAt s x.clu x.idx = some x → x.chain = none → federated s = false →
    s.regs.wf = true →
    ∃ (y : Slot) (d : QCtx), slotAt (s.accept x) x.clu x.idx = some y ∧ y.phase = .accepted ∧ y.desc = x.desc ∧
      y.cls = effClass x.desc (classCap s x.iid) ∧ y.attrs = queueAttrs s c y.cls ∧ y.walkEnd = walkLen x.desc ∧ y.commits = 0 ∧ y.bytes = 0 ∧
      y.loaves = [] ∧ y.fold = (dChkSel x.desc).init ∧ y.slotIdx = x.slotIdx ∧
      ctxOf (s.accept x) x.qid = some d ∧ d.f = c.f + 1 ∧ d.q = c.q ∧ d.state = c.state ∧
      d.estCost.toNat = min (costOf x.desc) (2 ^ 32 - 1) ∧
      (∃ k, (s.accept x).ckpt.head? = some k ∧ { k with copy0 := [], copy1 := [] } = ckptOf y) ∧
      (s.accept x).rd .cluStarts x.clu = s.rd .cluStarts x.clu + 1 ∧
      defOf (s.accept x) x.rotHome x.iid = max (-(2 : Int) ^ 39)
        (min (defLimit s x.rotHome x.iid) (defOf s x.rotHome x.iid + ((x.estCost : Int) - (costOf x.desc : Int)))) ∧
      (s.accept x).acc = s.acc ∧ (s.accept x).records = s.records

/-- R69, R73, R75: what a tail line says. An append is followed: the next segment's first descriptor is read. An end
that closes, or a closing chain, closes the tail; an open end parks the channel, which looks at the next ring slot where
the doorbell covers it. R73 to R76: an append's first descriptor is read and the held record goes to the store without
TAIL_CLOSED; a closed tail puts the held record there with it, then the LINK's own record, and the channel is free. A
parked channel reads its tail once per interval; a look that finds nothing past the park ceiling closes the tail, logged as
CORRECTED. -/
def Obligations.TailLines : Prop :=
  (∀ s aid a ans clu idx x ch w c, s.access aid = some a → a.purpose = .tail clu idx → s.fatal = false → CleanAnswer a ans →
     slotAt s clu idx = some x → x.chain = some ch → ch.seek = 0 → ctxOf s x.qid = some c →
     w = wd (wordsOfBytes (answerBytes a ans)) 0 →
     ∃ u : State, Released s u a.aid ∧ PortsOnly s u ∧
       (ch.closing = true → exec (.tailLineReadResponse aid ans) s = .next (u.closeTail x)) ∧
       (ch.closing = false → bit w 0 = false →
         exec (.tailLineReadResponse aid ans) s = .next (u.takeAppend x (bits w 6 58 * 64) (bits w 2 4 + 1))) ∧
       (ch.closing = false → bit w 0 = true → bit w 1 = false →
         exec (.tailLineReadResponse aid ans) s = .next (u.closeTail x)) ∧
       (ch.closing = false → bit w 0 = true → bit w 1 = true → x.phase = .chainTail → 1 ≤ (c.piSeen - (x.slotIdx + 1)).toNat →
         (c.piSeen - (x.slotIdx + 1)).toNat ≤ c.depth →
         ∃ t, exec (.tailLineReadResponse aid ans) s = .next t ∧
           slotAt t clu idx = some { x with phase := .parked s.nomNs (s.nomNs + effInterval s x.iid) } ∧
           Offered t (.parkSlot clu idx) false (slotAddr c (x.slotIdx + 1)) 64 [] ∧ PortsOnly { u with slots := t.slots } t)) ∧
  (∀ (s : State) x ch addr count, x.chain = some ch → s.fatal = false → slotAt s x.clu x.idx = some x →
    ∃ t y, s.takeAppend x addr count = t ∧ slotAt t x.clu x.idx = some y ∧
      y.chain = some { ch with segAddr := addr, segCount := count, segPos := 0, pos := ch.pos + 1, heldRec := none } ∧
      y.phase = .slotRead ∧ Offered t (.slot x.clu x.idx) false addr 64 [] ∧
      (ch.heldRec = none → t.records = s.records) ∧
      (∀ ws, ch.heldRec = some ws → ∃ r, r.words = withTailClosed ws false ∧ r.chainPos = ch.pos ∧
        r.addr = ch.segAddr + 64 * ch.segPos ∧
        (s.records.length < 1024 → x.kept = [] → s.waitRecs = [] → t.records = s.records ++ [r] ∧ y.kept = []) ∧
        (1024 ≤ s.records.length → t.records = s.records ∧ y.kept = x.kept ++ [r])) ∧
      PortsOnly { s with slots := t.slots, records := t.records, ways := t.ways } t) ∧
  (∀ (s : State) x ch ws c, x.chain = some ch → ch.heldRec = some ws → slotAt s x.clu x.idx = some x → chans s x.qid = [x] →
    x.kept = [] → s.waitRecs = [] → s.ctxWait = [] → ctxOf s x.qid = some c → s.records.length < 1023 → x.idx < 32 →
    ∃ t r l, s.closeTail x = t ∧ t.records = s.records ++ [r, l] ∧ slotAt t x.clu x.idx = none ∧
      r.qid = x.qid ∧ r.idx = x.slotIdx ∧ r.chainPos = ch.pos ∧ r.addr = ch.segAddr + 64 * ch.segPos ∧
      r.words = withTailClosed ws true ∧
      l.qid = x.qid ∧ l.idx = x.slotIdx ∧ l.chainPos = 0 ∧ l.addr = slotAddr c x.slotIdx ∧
      bit (wd l.words 0) 28 = true ∧ wd l.words 5 = BitVec.ofNat 64 ch.written) ∧
  (∀ (s : State) clu idx x ch since next, clu < 16 → idx < 34 → slotAt s clu idx = some x → x.phase = .parked since next → x.chain = some ch →
    running s = true → serves s = true → next ≤ s.nomNs →
    s.acc.any (fun a => decide (a.purpose = .tail clu idx) || decide (a.purpose = .parkSlot clu idx)) = false →
    s.held.any (fun h => decide (h.purpose = .tail clu idx) || decide (h.purpose = .parkSlot clu idx)) = false →
    ∃ t, exec (.parkTest clu idx) s = .next t ∧
      slotAt t clu idx = some { x with phase := .parked since (s.nomNs + effInterval s x.iid) } ∧
      Offered t (.tail clu idx) false (ch.segAddr + 64 * ch.segCount) 64 [] ∧ PortsOnly { s with slots := t.slots } t) ∧
  (∀ (s : State) x since next, slotAt s x.clu x.idx = some x → x.phase = .parked since next →
    slotAt (s.parkOn x) x.clu x.idx = some { x with
      phase := if since + parkCeilNs s ≤ s.nomNs then .expired else .parked since (s.nomNs + effInterval s x.iid) }) ∧
  (∀ (s : State) clu idx x, clu < 16 → idx < 34 → slotAt s clu idx = some x → x.phase = .expired → running s = true →
    ∃ u : State, exec (.parkCeil clu idx) s = .next (u.closeTail x) ∧ u = { s with errQ := u.errQ, regs := u.regs } ∧
      u = s.logErr (mkErr 0 (2 + clu) 0x35 x.iid x.qid idx clu 0 x.slotIdx.toNat ((x.chain.map (·.pos)).getD 0)))

/-! ## Opcodes -/

/-- R97 to R106, R133, R140, R142, R144, R202, R208: an accepted data descriptor begins to move: its first loaf is cut
from the walk as far as its entries are known. R140: on a contiguous side a loaf holds no more than 4,096 bytes, all of
one page of 4 KiB, and it ends at the end of the walk or where the next page begins. -/
def Obligations.DataOpcodesBegin : Prop :=
  (∀ s clu slot x, clu < 16 → slot < 34 → running s = true → slotAt s clu slot = some x → x.phase = .accepted →
     x.resume = none → x.loaves = [] →
     ∃ t y, (dKind x.desc = .copy → exec (.copy clu slot) s = .next t) ∧
       (dKind x.desc = .gather → exec (.gather clu slot) s = .next t) ∧
       (dKind x.desc = .scatter → exec (.scatter clu slot) s = .next t) ∧
       (dKind x.desc = .sglist → exec (.sglist clu slot) s = .next t) ∧
       (dKind x.desc = .fill → exec (.fill clu slot) s = .next t) ∧
       (dKind x.desc = .check → exec (.check clu slot) s = .next t) ∧
       (dKind x.desc = .piInsert → exec (.piInsert clu slot) s = .next t) ∧
       (dKind x.desc = .piStrip → exec (.piStrip clu slot) s = .next t) ∧
       (dKind x.desc = .piVerify → exec (.piVerify clu slot) s = .next t) ∧
       slotAt t clu slot = some y ∧ y.phase = .moving ∧ y.desc = x.desc ∧ y.qid = x.qid ∧ y.slotIdx = x.slotIdx ∧
       y.commits = x.commits ∧ y.bytes = x.bytes ∧ y.fold = x.fold ∧ y.walkEnd = x.walkEnd ∧
       (∀ c i, ¬(c = clu ∧ i = slot) → slotAt t c i = slotAt s c i) ∧ t = { s with slots := t.slots } ∧
       (mayCut s { x with phase := .moving } = true → x.cutB < (loafRange { x with phase := .moving } x.cutB).1 →
         ∃ l, y.loaves = [l] ∧ l.num = x.cutNum ∧ l.b0 = x.cutB ∧ l.b1 = (loafRange { x with phase := .moving } x.cutB).1 ∧
           l.closed = (loafRange { x with phase := .moving } x.cutB).2 ∧ l.released = false ∧ l.frags = [] ∧
           y.cutB = l.b1 ∧ y.cutNum = x.cutNum + 1)) ∧
  (∀ (a len b cnt : Nat) es prev, b < len →
     ∃ e, loafEnd (.contig a) es len b cnt prev = (e, true) ∧ b < e ∧ e ≤ len ∧ e - b ≤ 4096 ∧
       (∀ p, b ≤ p → p < e → (a + p) / 4096 = (a + b) / 4096) ∧ (e = len ∨ (a + e) % 4096 = 0))

/-- R109 to R112, R127: FENCE and SIGNAL hold their channel; WAIT holds it until its time has passed; NOP is done at
once. R69, R108: an accepted LINK's channel reads the first descriptor of its chain's first segment. -/
def Obligations.ControlOpcodesBegin : Prop :=
  (∀ s clu slot x, clu < 16 → slot < 34 → running s = true → slotAt s clu slot = some x → x.phase = .accepted →
    ∃ u v w : State, (dKind x.desc = .fence → exec (.fence clu slot) s = .next u) ∧
      slotAt u clu slot = some { x with phase := .fencing } ∧ u = { s with slots := u.slots } ∧
      (dKind x.desc = .signal → exec (.signal clu slot) s = .next v) ∧
      slotAt v clu slot = some { x with phase := .signalling } ∧ v = { s with slots := v.slots } ∧
      (dKind x.desc = .wait → exec (.wait clu slot) s = .next w) ∧
      slotAt w clu slot = some { x with phase := .waiting (s.nomNs + 1000 * bits (wd x.desc 2) 0 22) } ∧
      w = { s with slots := w.slots }) ∧
  (∀ s clu slot x, clu < 16 → slot < 34 → running s = true → slotAt s clu slot = some x → x.phase = .accepted → Alone s x →
    x.status = 0 → dKind x.desc = .nop →
    ∃ t, exec (.nop clu slot) s = .next t ∧ Finishes s t x 0 ∧ t.lateFlags = s.lateFlags.filter (fun p => decide (p ≠ (clu, slot))) ∧
      t = { s with slots := t.slots, records := t.records, ways := t.ways, sched := t.sched, lateFlags := t.lateFlags }) ∧
  (∀ s clu slot x, clu < 16 → slot < 34 → running s = true → serves s = true → slotAt s clu slot = some x →
     x.phase = .accepted → x.resume = none → dKind x.desc = .link →
     ∃ t y ch, exec (.link clu slot) s = .next t ∧ slotAt t clu slot = some y ∧ y.chain = some ch ∧ y.phase = .slotRead ∧
       ch.linkDesc = x.desc ∧ ch.segAddr = (wd x.desc 1).toNat ∧ ch.segCount = bits (wd x.desc 2) 0 4 + 1 ∧ ch.segPos = 0 ∧
       ch.pos = 1 ∧ ch.written = 0 ∧ ch.heldRec = none ∧ ch.closing = false ∧
       Offered t (.slot clu slot) false (wd x.desc 1).toNat 64 [] ∧ PortsOnly { s with slots := t.slots } t)

/-- R110, R112, R113, R127: with every earlier record acknowledged FENCE is done, and SIGNAL pulses source 128 + SIG_NUM
and is done; a WAIT whose flag is seen set before its time has passed is done with OK, and clears it where it says so and no direct line of
high level holds it (R383: set wins), while the WAITs of other clusters that have seen it set may still complete until
the next tick (the model's choice, log entry 45); one whose time has passed is done with TIMEOUT. -/
def Obligations.ControlOpcodesEnd : Prop :=
  (∀ s clu slot x, clu < 16 → slot < 34 → running s = true → slotAt s clu slot = some x → x.phase = .fencing → Alone s x →
    earlierOpen s x = false → x.status = 0 → dKind x.desc = .fence →
    ∃ t, exec (.fenceComplete clu slot) s = .next t ∧ Finishes s t x 0 ∧ t.lateFlags = s.lateFlags.filter (fun p => decide (p ≠ (clu, slot))) ∧
      t = { s with slots := t.slots, records := t.records, ways := t.ways, sched := t.sched, lateFlags := t.lateFlags }) ∧
  (∀ s clu slot x, clu < 16 → slot < 34 → running s = true → slotAt s clu slot = some x → x.phase = .signalling → Alone s x →
    earlierOpen s x = false → x.status = 0 → dKind x.desc = .signal →
    ∃ t, exec (.signalPulse clu slot) s = .next t ∧ Finishes s t x 0 ∧
      t.heldPulses.any (fun p => p.1 == 128 + bits (wd x.desc 1) 0 4) = true ∧
      t.lateFlags = s.lateFlags.filter (fun p => decide (p ≠ (clu, slot))) ∧
      t = { s with slots := t.slots, records := t.records, ways := t.ways, sched := t.sched, heldPulses := t.heldPulses,
                   lateFlags := t.lateFlags }) ∧
  (∀ s clu slot x, clu < 16 → slot < 34 → running s = true → slotAt s clu slot = some x → (x.phase = .fencing ∨ x.phase = .signalling) →
    earlierOpen s x = true → exec (.fenceComplete clu slot) s = .next s ∧ exec (.signalPulse clu slot) s = .next s) ∧
  (∀ s clu f x, clu < 16 → f < 64 → running s = true → (waitFlag s f = true ∨ sawFlag s x = true) → waitLasts s x = true →
    s.slots.filter (waitsOn clu f) = [x] → Alone s x → x.status = 0 → dKind x.desc = .wait → s.regs.wf = true →
    ∃ t, exec (.waitFlagSeen clu f) s = .next t ∧ Finishes s t x 0 ∧
      waitFlag t f = (waitFlag s f && !(dFlagB0 x.desc && !flagHeld s f)) ∧ (∀ g, g < 64 → g ≠ f → waitFlag t g = waitFlag s g) ∧
      (waitFlag s f = true → dFlagB0 x.desc = true → ∀ y ∈ s.slots, y.clu ≠ clu → waitsOn y.clu f y = true → sawFlag t y = true) ∧
      t = { s with slots := t.slots, records := t.records, ways := t.ways, sched := t.sched, regs := t.regs,
                   lateFlags := t.lateFlags }) ∧
  (∀ s clu f, clu < 16 → f < 64 → running s = true → (∀ x ∈ s.slots, waitsOn clu f x = true → waitLasts s x = false) →
    exec (.waitFlagSeen clu f) s = .next s) ∧
  (∀ s clu slot x due, clu < 16 → slot < 34 → running s = true → slotAt s clu slot = some x → x.phase = .waiting due →
    Alone s x → due ≤ s.nomNs → dKind x.desc = .wait →
    ∃ t, exec (.waitTimeout clu slot) s = .next t ∧ Finishes s t x 0x0A ∧
      t.lateFlags = s.lateFlags.filter (fun p => decide (p ≠ (clu, slot))) ∧
      t = { s with slots := t.slots, records := t.records, ways := t.ways, sched := t.sched, lateFlags := t.lateFlags })

/-! ## Requests, answers and beats -/

/-- R146, R148, R162, R164, R165, R168, R182: a slot that may issue, whose turn it is among the slots of its cluster, that wins its port
and has lines reserved puts out its next data read, or its next read of an index table or list, and only that; it is then the slot
served last, and each line of its buffer stands for the positions whose bytes it takes. A slot whose turn it is not is passed by. -/
def Obligations.ReadRequests : Prop :=
  (∀ s clu slot x l b stop spans after losers y part pool g, clu < 16 → slot < 34 → slotAt s clu slot = some x →
    (s.updSlot clu slot (fun _ => x)) = s → stateFault x = false → mayIssue s x = true → dKind x.desc ≠ .gather →
    hasStore x.desc = false → readWork s x x.loaves = some (l, b, stop) →
    nextRequest (srcSide x.desc) x.entries (transferLen x.desc) b stop = some (spans, after) →
    (tableOfDest x.desc = true ∨ entriesFresh x b after = true) →
    portReady s x false = true → hasTurn s (3 * clu) x (readable s) = true →
    reserve s x .data (linesTouched (spanRange spans).1 (spanRange spans).2) false = (y, some (part, pool)) →
    s.portGrant clu 0 losers = some g →
    ∃ (u : State) (a : Access) (z : Slot),
      exec (.readRequestIssue clu slot false losers) s = .next ((u.walkFault clu slot).settle clu slot) ∧
      u.acc = s.acc ++ [a] ∧ a.aid = s.nextAid ∧ a.port = clu ∧ a.write = false ∧ a.purpose = .data clu slot l.num ∧
      a.addr = (spanRange spans).1 ∧ a.len = (spanRange spans).2 ∧ a.spans = spans ∧ a.attrs = dataAttrs x false ∧
      a.due = s.nomNs + rdCeilNs s clu ∧ creditsOf u clu = ((creditsOf s clu).1 - 1, (creditsOf s clu).2) ∧
      slotAt u clu slot = some z ∧
      z.lines = x.lines ++ readLines l.num (spanRange spans).1 (spanRange spans).2 spans part ∧
      u.turns = assocPut s.turns (3 * clu) slot ∧
      (∀ c i, ¬(c = clu ∧ i = slot) → slotAt u c i = slotAt s c i) ∧
      PortsOnly { s with slots := u.slots, regs := u.regs, turns := u.turns } u) ∧
  (∀ num addr len spans part, (readLines num addr len spans part).length = linesTouched addr len ∧
    (∀ r ∈ (readLines num addr len spans part).take part, r.part = 1 ∧ r.pool = 0) ∧
    (∀ r ∈ (readLines num addr len spans part).drop part, r.part = 0 ∧ r.pool = 1) ∧
    (∀ r ∈ readLines num addr len spans part, r.loaf = num ∧ r.table = false ∧ r.firstB ≤ r.lastB)) ∧
  (∀ s clu slot x losers, clu < 16 → slot < 34 → slotAt s clu slot = some x → (s.updSlot clu slot (fun _ => x)) = s →
    stateFault x = false → mayIssue s x = true → dKind x.desc ≠ .gather → hasStore x.desc = false → readCut s x = x →
    hasTurn s (3 * clu) x (readable s) = false →
    exec (.readRequestIssue clu slot false losers) s = .next ((s.walkFault clu slot).settle clu slot) ∧
    exec (.readRequestIssue clu slot true losers) s = .next s) ∧
  (∀ s clu slot x k n losers g y part pool, clu < 16 → slot < 34 → slotAt s clu slot = some x → stateFault x = false →
    mayIssue s x = true → x.status = 0 → x.nextBackoff = none → portReady s x false = true →
    hasTurn s (3 * clu) x (readable s) = true → tableNext s x = some (k, n) →
    reserve s x .table (linesTouched (tableBase x.desc + k * entryWidth x.desc) (n * entryWidth x.desc)) (hasStore x.desc) = (y, some (part, pool)) →
    s.portGrant clu 0 losers = some g →
    ∃ t a z, exec (.readRequestIssue clu slot true losers) s = .next t ∧ t.acc = s.acc ++ [a] ∧ a.aid = s.nextAid ∧ a.port = clu ∧
      a.write = false ∧ a.purpose = .table clu slot k n ∧ a.addr = tableBase x.desc + k * entryWidth x.desc ∧
      a.len = n * entryWidth x.desc ∧ creditsOf t clu = ((creditsOf s clu).1 - 1, (creditsOf s clu).2) ∧
      slotAt t clu slot = some z ∧
      z.lines = x.lines ++ tableLines k (linesTouched (tableBase x.desc + k * entryWidth x.desc) (n * entryWidth x.desc)) part ∧
      t.turns = assocPut s.turns (3 * clu) slot ∧
      (∀ c i, ¬(c = clu ∧ i = slot) → slotAt t c i = slotAt s c i) ∧
      PortsOnly { s with slots := t.slots, regs := t.regs, turns := t.turns } t)

/-- R160, R164, R165, R182: a slot that may issue, whose turn it is and that wins its port puts out its next data write, whose lines
are left to the datapath arbiter, and only that; a loaf that reads nothing writes ahead of the first as far as R166 lets it. -/
def Obligations.WriteRequests : Prop :=
  ∀ s clu slot x l m spans losers g, clu < 16 → slot < 34 → slotAt s clu slot = some x →
    (s.updSlot clu slot (fun _ => x)) = s → stateFault x = false → mayIssue s x = true → (dKind x.desc).noDest = false →
    dKind x.desc ≠ .scatter → writeWork x x.loaves = some l →
    nextWrite x l (!s.acc.any (ownWrite clu slot l.num)) 4 = (m, some spans) →
    (readsNothing x.desc l = true → isHead x l.num = false →
      fillLines x + linesTouched (spanRange spans).1 (spanRange spans).2 ≤ 64 + poolMax s clu) →
    portReady s x true = true → hasTurn s (3 * clu + 1) x (writable s) = true → s.portGrant clu 1 losers = some g →
    ∃ (u : State) (a : Access), exec (.writeRequestIssue clu slot losers) s = .next ((u.walkFault clu slot).settle clu slot) ∧
      u.acc = s.acc ++ [a] ∧ a.aid = s.nextAid ∧ a.port = clu ∧ a.write = true ∧ a.purpose = .write clu slot l.num ∧
      a.addr = (spanRange spans).1 ∧ a.len = (spanRange spans).2 ∧ a.spans = spans ∧ a.data = [] ∧
      a.toSend = linesTouched (spanRange spans).1 (spanRange spans).2 ∧ a.attrs = dataAttrs x true ∧
      a.due = s.nomNs + wrCeilNs s clu ∧
      creditsOf u clu = ((creditsOf s clu).1, (creditsOf s clu).2.1 - 1, (creditsOf s clu).2.2) ∧
      slotAt u clu slot = some (x.updLoaf l.num (fun _ => m)) ∧ u.turns = assocPut s.turns (3 * clu + 1) slot ∧
      (∀ c i, ¬(c = clu ∧ i = slot) → slotAt u c i = slotAt s c i) ∧
      PortsOnly { s with slots := u.slots, regs := u.regs, turns := u.turns } u

/-- R157, R171: the open request of Lens is closed as it stands, counted, and ready to be issued; free pool lines go to
the reservation that has waited longest. -/
def Obligations.LensAndPool : Prop :=
  (∀ s clu slot x r, clu < 16 → slot < 34 → running s = true → slotAt s clu slot = some x → x.lens = some r → s.regs.wf = true →
    ∃ t, exec (.lensHoldExpiry clu slot) s = .next t ∧
      slotAt t clu slot = some { x with lens := none, lensReady := x.lensReady ++ [r] } ∧
      t.rd .cluLensReqs clu = s.rd .cluLensReqs clu + 1 ∧ t = { s with slots := t.slots, regs := t.regs }) ∧
  (∀ s clu i k need place x, clu < 16 → s.fatal = false → oldestWait s clu = some (i, k, need, place) → slotAt s clu i = some x →
    poolUsed s clu + need ≤ 1920 →
    ∃ t, exec (.poolLineGrant clu) s = .next t ∧
      slotAt t clu i = some { x with grant := (k, need) :: x.grant, poolWait := x.poolWait.filter (fun w => w.1 != k) } ∧
      (∀ w ∈ poolWaits s clu, place ≤ w.2.2.2) ∧
      (∀ c j, ¬(c = clu ∧ j = i) → slotAt t c j = slotAt s c j) ∧ t = { s with slots := t.slots })

/-- R30, R120, R151, R159, R252, R521: what an answer to a data read does: sound data lands in the slot's buffer lines, a retryable
error is a fault of its loaf, any other ends the descriptor with status 7; a descriptor without a destination takes its completion
timestamp at each; the tag of an answer with an error whose beat is not the last is quarantined (R522). The entries of a table that
are not held, or are to be read again, are taken, and the read's lines are free. R213 to R215: a word with its check byte decodes
clean, one with a flipped bit to the word, and one with two, or with c0 and c1 inverted (R257), is uncorrectable. -/
def Obligations.DataReadAnswers : Prop :=
  (∀ s aid a ans c i n x, s.access aid = some a → a.purpose = .data c i n → a.write = false → s.fatal = false →
    slotAt s c i = some x → x.clu = c → x.idx = i →
    ∃ u : State, Released s u a.aid ∧ PortsOnly { s with quar := u.quar } u ∧
      ((codeSeen ans.code = 0 ∨ ans.last = true) → u.quar = s.quar) ∧
      (codeSeen ans.code ≠ 0 → ans.last = false → u.quar = s.quar ++ [{ acc := a, freeAt := s.nomNs + 2 * a.ceilNs }]) ∧
      (CleanAnswer a ans → exec (.readResponse aid ans) s = .next ((u.landData x n a ans.words).settle c i)) ∧
      (codeSeen ans.code ≠ 0 → codeRetryable (codeSeen ans.code) = true →
        exec (.readResponse aid ans) s = .next ((u.stampRead x).readFault x n a 0x26 (codeSeen ans.code))) ∧
      (codeSeen ans.code ≠ 0 → codeRetryable (codeSeen ans.code) = false →
        exec (.readResponse aid ans) s = .next ((u.stampRead x).endWith c i 7 (codeSeen ans.code) a.addr (some n)))) ∧
  (∀ (d : W64) (c : Byte), c = secdedCheck d →
    secdedDecode d c = (d, .clean) ∧ (secdedDecode d (c ^^^ 3)).2 = .uncorrectable ∧
    (∀ i, i < 64 → secdedDecode (d ^^^ BitVec.ofNat 64 (2 ^ i)) c = (d, .corrected)) ∧
    (∀ j, j < 8 → secdedDecode d (c ^^^ BitVec.ofNat 8 (2 ^ j)) = (d, .corrected)) ∧
    (∀ i k, i < 64 → k < 64 → i ≠ k →
      (secdedDecode (d ^^^ BitVec.ofNat 64 (2 ^ i) ^^^ BitVec.ofNat 64 (2 ^ k)) c).2 = .uncorrectable)) ∧
  (∀ (s : State) x, slotAt s x.clu x.idx = some x →
    ((dKind x.desc).noDest = false → s.stampRead x = s) ∧
    ((dKind x.desc).noDest = true →
      slotAt (s.stampRead x) x.clu x.idx = some { x with doneTs := s.timebase.setWidth 48, doneStep := s.tbStep,
                                                         doneUnsync := unsyncedNow s })) ∧
  (∀ s aid a ans c i f n x es, s.access aid = some a → a.purpose = .table c i f n → a.write = false → s.fatal = false →
    slotAt s c i = some x → CleanAnswer a ans →
    es = (entriesOf x.desc f (answerBytes a ans)).filter (fun e => (entryOf x.entries e.1).isNone || x.stale.contains e.1) →
    ∃ u : State, Released s u a.aid ∧ PortsOnly { s with slots := u.slots } u ∧
      exec (.readResponse aid ans) s = .next ((u.walkFault c i).settle c i) ∧
      slotAt u c i = some (Slot.extend { x with
        lines := dropIf (fun r => r.ofTable f) x.lines,
        entries := dropIf (fun e => es.any (fun k => k.1 == e.1)) x.entries ++ es,
        stale := dropIf (fun k => es.any (fun e => e.1 == k)) x.stale })) ∧
  (∀ (s : State) x n a words l, slotAt s x.clu x.idx = some x → loafOf x n = some l → hasStore x.desc = false →
    injects s x.clu 0 = false → injects s x.clu 2 = false → (dKind x.desc).noDest = false →
    ∃ (y : Slot) (m : Loaf), slotAt (s.landData x n a words) x.clu x.idx = some y ∧ loafOf y n = some m ∧
      m.frags = l.frags ++ fragsOf a.addr words a.spans (dSrcNi x.desc) ∧
      (s.landData x n a words) = { s with slots := (s.landData x n a words).slots })

/-- R123, R183, R191, R246, R252: what an answer to a write does. A good one to a loaf not released leaves the
completion timestamp; a retryable error before release is a fault of the loaf, any other ends the descriptor with status
8, or with 9 after release; a good answer to a trace write or checkpoint only frees its tag, and one to a witness write
starts the member's witness time anew (R436). A good answer to a write of a descriptor that has ended is its completion timestamp too
(R30). -/
def Obligations.WriteAnswers : Prop :=
  (∀ s aid a code c i n x, s.access aid = some a → a.purpose = .write c i n → a.write = true → a.toSend = 0 → s.fatal = false →
    slotAt s c i = some x → x.clu = c → x.idx = i → isReleased x n = false →
    ∃ u : State, Released s u a.aid ∧
      PortsOnly { s with dirtyQ := u.dirtyQ, dirtyFilter := u.dirtyFilter, is0 := u.is0, regs := u.regs,
                         heldPulses := u.heldPulses } u ∧
      (codeSeen code = 0 → exec (.writeAck aid code) s = .next ((((u.stampDone c i).relEval c i).settle c i).leaveNow c i)) ∧
      (codeSeen code ≠ 0 → codeRetryable (codeSeen code) = true →
        exec (.writeAck aid code) s = .next (u.fabricFault c i n 0x26 false (codeSeen code) a.addr)) ∧
      (codeSeen code ≠ 0 → codeRetryable (codeSeen code) = false →
        exec (.writeAck aid code) s = .next (u.endWith c i 8 (codeSeen code) a.addr (some n)))) ∧
  (∀ s aid a code c i n x, s.access aid = some a → a.purpose = .write c i n → a.write = true → a.toSend = 0 → s.fatal = false →
    slotAt s c i = some x → x.clu = c → x.idx = i → isReleased x n = true → codeSeen code ≠ 0 →
    codeRetryable (codeSeen code) = false →
    ∃ u : State, Released s u a.aid ∧ exec (.writeAck aid code) s = .next (u.endWith c i 9 (codeSeen code) a.addr (some n)) ∧
      u.slots = s.slots) ∧
  (∀ s aid a code, s.access aid = some a → a.write = true → a.toSend = 0 → s.fatal = false → codeSeen code = 0 → a.iid = 0 →
    ((∃ k, a.purpose = .trace k) ∨ a.purpose = .fedCkpt) →
    ∃ t, exec (.writeAck aid code) s = .next t ∧ Released s t a.aid ∧ PortsOnly s t) ∧
  (∀ s aid a code, s.access aid = some a → a.write = true → a.toSend = 0 → s.fatal = false → codeSeen code = 0 → a.iid = 0 →
    a.purpose = .witnessWrite →
    ∃ t, exec (.writeAck aid code) s = .next t ∧ Released s t a.aid ∧ t.fed.witnessAck = s.nomNs ∧
      PortsOnly { s with fed := t.fed } t) ∧
  (∀ s aid a code q i p k, s.access aid = some a → a.write = true → a.toSend = 0 → s.fatal = false → codeSeen code = 0 → a.iid = 0 →
    a.purpose = .oldWrite q i p k →
    ∃ u : State, exec (.writeAck aid code) s = .next ((u.stampOf q i p).settleOf q i p) ∧ Released s u a.aid ∧ PortsOnly s u) ∧
  (∀ (s : State) clu idx x, slotAt s clu idx = some x →
    slotAt (s.stampDone clu idx) clu idx = some { x with doneTs := s.timebase.setWidth 48, doneStep := s.tbStep,
                                                         doneUnsync := unsyncedNow s })

/-- R160, R176 to R180, R234, R235, R564: a cycle of a cluster's datapath arbiter in which one slot offers a beat grants
it, and enters the class window; the beat of a record or of a dropped attempt sends a line of its write for one credit, each
word with its check byte, which a dropped attempt sends with c0 and c1 inverted (R257); with nothing offered the cycle only
passes. -/
def Obligations.DatapathBeats : Prop :=
  (∀ s clu i j c, clu < 16 → running s = true → s.takeover = [] → (arbOf s (34 + clu)).reqs = [] →
    (List.range 34).filterMap (fun i => (slotJob s clu i).map (fun j => (i, j))) = [(i, j, c)] →
    ∃ u : State, u = { s with arbs := u.arbs, uWin := u.uWin, regs := u.regs } ∧
      (c = 0 ∨ ((uWindow s clu).filter (fun b => b)).length < 512 → u.regs = s.regs) ∧
      uWindow u clu = ((decide (c = 0)) :: uWindow s clu).take 1024 ∧
      (∀ x, slotAt s clu i = some x → stateFault x = false → exec (.datapathBeat clu) s = .next (u.runBeat x j)) ∧
      (∀ aid, j = .line aid → exec (.datapathBeat clu) s = .next (u.runLine aid))) ∧
  (∀ s clu, clu < 16 → running s = true → s.takeover = [] → (arbOf s (34 + clu)).reqs = [] →
    (List.range 34).filterMap (fun i => (slotJob s clu i).map (fun j => (i, j))) = [] →
    ∃ t, exec (.datapathBeat clu) s = .next t ∧ t = { s with arbs := t.arbs, uWin := t.uWin } ∧
      uWindow t clu = (false :: uWindow s clu).take 1024) ∧
  (∀ (s : State) aid a bytes, s.access aid = some a →
    ∃ b, (s.sendLine aid bytes).access aid = some b ∧ b.toSend = a.toSend - 1 ∧ b.data = (a.data ++ bytes).take a.len ∧
      b.checks = a.checks ++ (beatChecks a.aid (nextBeat a).1 bytes).map (fun c => if a.poisoned then c ^^^ 3 else c) ∧
      creditsOf (s.sendLine aid bytes) a.port =
        ((creditsOf s a.port).1, (creditsOf s a.port).2.1, (creditsOf s a.port).2.2 - 1))

/-- R188, R191, R246 to R250, R271: a loaf of a non-idempotent destination that has passed its verify pass is released;
the commit of a slot's first loaf counts its bytes and folds its check, and stores the checkpoint; one that is not
stored in time is sent again, logged as CORRECTED. -/
def Obligations.LoavesCommit : Prop :=
  (∀ s clu slot x l, clu < 16 → slot < 34 → running s = true → slotAt s clu slot = some x → x.loaves.head? = some l →
    x.phase = .moving → stalled x = false → stateFault x = false → dDstNi x.desc = true → l.released = false → l.closed = true → l.backoff = none →
    verifyPositions x l = [] → srcBytes x.desc l.readB l.b1 = 0 → storeAway s clu slot = false →
    ∃ t y m, exec (.loafRelease clu slot) s = .next t ∧ slotAt t clu slot = some y ∧ y.loaves.head? = some m ∧
      m.released = true ∧ m.releases = l.releases + 1 ∧ m.num = l.num ∧ t = { s with slots := t.slots }) ∧
  (∀ s clu slot x l, clu < 16 → slot < 34 → running s = true → slotAt s clu slot = some x → x.clu = clu → x.idx = slot →
    x.loaves.head? = some l → commitReady s x l = true → stateFault x = false → federated s = false →
    ∃ (u : State) (y : Slot), exec (.checkpointStored clu slot) s = .next ((u.walkFault clu slot).settle clu slot) ∧
      slotAt u clu slot = some y ∧ y.commits = x.commits + 1 ∧ y.bytes = x.bytes + dataBytes x.desc l.b0 l.b1 ∧
      y.loaves.map (·.num) = x.loaves.tail.map (·.num) ∧
      y.fold = (if dChkSel x.desc = .none then x.fold else (dChkSel x.desc).fold x.fold l.chkReg l.chkLen) ∧
      (∃ k, u.ckpt.head? = some k ∧ { k with copy0 := [], copy1 := [] } = ckptOf y ∧ k.loaves = y.commits ∧ k.bytes = y.bytes ∧
        k.fold = y.fold ∧ k.copy0.map (fun w => w.1) = k.toWords ∧ k.copy1.map (fun w => w.1) = k.toWords) ∧
      u = { s with slots := u.slots, is3 := u.is3, ways := u.ways, ckpt := u.ckpt, arbs := u.arbs, freeCtr := u.freeCtr, errQ := u.errQ,
                   regs := u.regs, heldPulses := u.heldPulses, acc := u.acc } ∧
      (hasStore x.desc = false ∨ x.loaves.tail = [] →
        u.errQ = s.errQ ∧ u.regs = s.regs ∧ u.heldPulses = s.heldPulses ∧ u.acc = s.acc)) ∧
  (∀ s clu slot x l, clu < 16 → slot < 34 → running s = true → slotAt s clu slot = some x → x.loaves.head? = some l →
    commitReady s x l = true →
    exec (.ckptCeil clu slot) s = .next (s.logErr (mkErr 0 (2 + clu) 0x34 x.iid x.qid slot clu 0 slot 0)))

/-! ## Replays, ends, retirement and moves -/

/-- R255, R258, R259: a retryable fault of the fabric drops the attempt of its loaf and counts against it; up to FAB_MAX
the next attempt begins after its backoff, or at once where that is none; past it the descriptor is to end. The loaf
keeps its number and its range (R563). R260: an internal fault of a loaf begins its attempt again; the fourth of a loaf
on its slot has the slot retired. -/
def Obligations.Replays : Prop :=
  (∀ (s : State) clu idx num code read detail addr x l, slotAt s clu idx = some x → stalled x = false → loafOf x num = some l →
    x.phase ≠ .ending →
    ∃ y m, slotAt (s.fabricFault clu idx num code read detail addr) clu idx = some y ∧ loafOf y num = some m ∧
      m.fab = l.fab + 1 ∧ m.num = l.num ∧ m.b0 = l.b0 ∧ m.b1 = l.b1 ∧ m.readB = l.b0 ∧ m.writeB = l.b0 ∧
      (l.fab + 1 ≤ fabMax s clu → backoffNs s clu (l.fab + 1) ≠ 0 →
        m.backoff = some (s.nomNs + backoffNs s clu (l.fab + 1)) ∧ y.replays = x.replays ∧ y.fabOver = x.fabOver) ∧
      (l.fab + 1 ≤ fabMax s clu → backoffNs s clu (l.fab + 1) = 0 →
        m.again = true ∧ m.backoff = none ∧ y.replays = x.replays + 1) ∧
      (fabMax s clu < l.fab + 1 → y.fabOver = some (read, detail, addr) ∧ y.replays = x.replays)) ∧
  (∀ s clu slot loaf x l d, clu < 16 → slot < 34 → running s = true → slotAt s clu slot = some x → loafOf x loaf = some l →
    l.backoff = some d → d ≤ s.nomNs → s.regs.wf = true →
    ∃ t y m, exec (.replayBackoffEnd clu slot loaf) s = .next t ∧ slotAt t clu slot = some y ∧ loafOf y loaf = some m ∧
      m.backoff = none ∧ m.again = true ∧ y.replays = x.replays + 1 ∧
      t.fld .cluReplayStat clu 0 16 = (s.fld .cluReplayStat clu 0 16 + 1) % 2 ^ 16 ∧
      t.heldPulses.any (fun p => p.1 == 8 * clu) = true ∧
      t = { s with slots := t.slots, regs := t.regs, is3 := t.is3, ways := t.ways, heldPulses := t.heldPulses, arbs := t.arbs }) ∧
  (∀ s clu slot x d, clu < 16 → slot < 34 → running s = true → slotAt s clu slot = some x → loafOf x x.cutNum = none →
    x.nextBackoff = some d → d ≤ s.nomNs →
    ∃ t, exec (.replayBackoffEnd clu slot x.cutNum) s = .next t ∧ slotAt t clu slot = some { x with nextBackoff := none } ∧
      t = { s with slots := t.slots }) ∧
  (∀ (s : State) clu idx num code x l, slotAt s clu idx = some x → loafOf x num = some l → x.phase ≠ .ending →
     ∃ y m, slotAt (s.internalFault clu idx num code) clu idx = some y ∧ loafOf y num = some m ∧ m.internal = l.internal + 1 ∧
       m.fab = l.fab ∧ m.b0 = l.b0 ∧ m.b1 = l.b1 ∧ m.readB = l.b0 ∧
       (l.internal < 3 → m.again = true ∧ y.replays = x.replays + 1 ∧ y.retireBy = x.retireBy) ∧
       (3 ≤ l.internal → y.retireBy = some code ∧ y.replays = x.replays))

/-- R122, R191, R259: past FAB_MAX a descriptor ends with SRC_FAULT or DST_FAULT by the side of its last cause, counted;
a retryable error in the fourth release ends it with STREAM_FAULT. An end with a status is kept with its DETAIL and W5,
and is logged as CONTAINED where it is a fault from outside. R260 to R266: a slot that is retired stays so, and its
descriptor leaves it: to a free Mirror of its cluster, else to wait for the adopter, and one whose checkpoint is lost in all its
copies ends (R251); a descriptor that waited is placed
on the first free channel of its new cluster, and the oldest store on the bridge is carried over. -/
def Obligations.DescriptorsEndOrMove : Prop :=
  (∀ s clu slot x read detail addr, clu < 16 → slot < 34 → running s = true → slotAt s clu slot = some x →
    x.fabOver = some (read, detail, addr) → s.regs.wf = true →
    ∃ u : State, exec (.fabMaxExceeded clu slot) s = .next (u.endWith clu slot (if read then 7 else 8) detail addr none) ∧
      u.fld .cluReplayStat clu 24 8 = (s.fld .cluReplayStat clu 24 8 + 1) % 2 ^ 8 ∧ u = { s with regs := u.regs }) ∧
  (∀ s clu slot x detail addr, clu < 16 → slot < 34 → running s = true → slotAt s clu slot = some x →
    x.relOver = some (detail, addr) →
    exec (.releaseLimit clu slot) s = .next (s.endWith clu slot 9 detail addr (x.loaves.head?.map (·.num)))) ∧
  (∀ (s : State) clu idx status detail w5 bad x, slotAt s clu idx = some x → x.phase ≠ .ending →
    ∃ (u : State) (y : Slot), s.endWith clu idx status detail w5 bad = u.settle clu idx ∧ slotAt u clu idx = some y ∧
      y.phase = .ending ∧ y.status = status ∧ y.detail = detail ∧ y.w5 = BitVec.ofNat 64 w5 ∧ y.fabOver = none ∧
      y.relOver = none ∧ y.retireBy = none ∧ y.commits = x.commits ∧ y.bytes = x.bytes ∧
      (7 ≤ status → status ≤ 9 → u.errQ = (s.logErr (mkErr 2 (2 + clu) (0x15 + status) x.iid x.qid idx clu (detail.setWidth 8)
        x.slotIdx.toNat w5)).errQ) ∧
      (status < 7 → u.errQ = s.errQ)) ∧
  (∀ s clu slot x code, clu < 16 → slot < 34 → running s = true → slotAt s clu slot = some x → x.retireBy = some code →
    s.regs.wf = true →
    ∃ (u : State) (y : Slot), exec (.slotRetired clu slot) s = .next (if moveWaits u y then u else u.moveAway clu slot) ∧
      slotAt u clu slot = some y ∧ y.phase = .leaving ∧ y.retireBy = none ∧ y.loaves = x.loaves ∧
      slotRetired u clu slot = true ∧ (∀ c i, ¬(c = clu ∧ i = slot) → slotAt u c i = slotAt s c i)) ∧
  (∀ (s : State) clu idx x, slotAt s clu idx = some x → ckptGone s x = true → s.moveAway clu idx = s.endLost x 0x43) ∧
  (∀ (s : State) clu idx x m, idx < 32 → slotAt s clu idx = some x → ckptGone s x = false →
    moveTarget { s with ckpt := s.ckpt.filter (fun k => !(k.clu == clu && k.idx == idx)), slots := s.slots.filter (fun y => !(y.clu == clu && y.idx == idx)) } clu idx = some (m, none) →
    ∃ t, s.moveAway clu idx = t ∧ t.moving = s.moving ++ [(m, x.leave)] ∧ slotAt t clu idx = none ∧
      t = { s with ckpt := t.ckpt, slots := t.slots, regs := t.regs, moving := t.moving }) ∧
  (∀ s clu y k ks, clu < 16 → running s = true → s.moving.find? (fun m => m.1 == clu && !m.2.squashed) = some (clu, y) →
    freeChannels s clu = k :: ks →
    exec (.descriptorPlaced clu) s = .next (({ s with moving := s.moving.erase (clu, y) } : State).placeMoved y clu k true)) ∧
  (∀ (s : State) y clu idx, idx < 32 →
    ∃ (u : State) (x : Slot) (k : Ckpt), s.placeMoved y clu idx true = u.settle clu idx ∧ slotAt u clu idx = some x ∧
      { x with copyBad := y.copyBad, stateBad := y.stateBad } =
        { y with clu := clu, idx := idx, replays := y.replays + (y.loaves.filter (fun l => !l.released)).length } ∧
      u.ckpt.head? = some k ∧ { k with copy0 := [], copy1 := [] } = ckptOf { y with clu := clu, idx := idx } ∧ u.moving = s.moving) ∧
  (∀ s, running s = true → ∃ t, exec .storeBridgeTransfer s = .next t ∧ t = { s with bridge := s.bridge.tail })

/-! ## Arbiters, quarantine and credits -/

/-- R240, R242: in a round each candidate that is not granted loses it, and is forced once its counter has come to WAIT_LIMIT; the
winner is a candidate, and its stamp, counter and flag are gone. The losing round that takes a candidate to WAIT_LIMIT leaves it
forced: at a context bank that is the round of the access that ranks first. A requester of a context bank's arbiter that holds it past
HOLD_CEIL is locked out for PENALTY cycles, counted and logged, and its access is to be made again before its others. -/
def Obligations.ArbiterLimits : Prop :=
  (∀ s a w cands still prio stamps x, arbDecide s a w cands still prio stamps = some x →
    w ∈ cands ∧ x.round = (arbOf s a).round + 1 ∧ (∀ q ∈ x.reqs, q.idx ≠ w) ∧
    (∀ r ∈ cands, r ≠ w → ∃ q ∈ x.reqs, q.idx = r ∧ q.raised = true ∧
      q.wait = (raisedReq (arbOf s a) (stamps r) r).wait + 1 ∧ q.stamp = (raisedReq (arbOf s a) (stamps r) r).stamp ∧
      (waitLimit s a ≤ q.wait → q.forced = true)) ∧
    (∀ q ∈ x.reqs, q.idx ∈ cands ∨ q.idx ∈ still ∨ lockedOut s a q = true)) ∧
  (∀ s a r, r < arbSize a → s.fatal = false → (reqOf (arbOf s a) r).raised = true → (reqOf (arbOf s a) r).forced = false →
    lockedOut s a (reqOf (arbOf s a) r) = false →
    ∃ t, exec (.forcedWin a r) s = .next t ∧ (t = s ∨ t ∈ roundsOf s a r ∧ (reqOf (arbOf t a) r).forced = true) ∧
      ((∃ u ∈ roundsOf s a r, (reqOf (arbOf u a) r).forced = true) → (reqOf (arbOf t a) r).forced = true)) ∧
  (∀ s a r w, 16 ≤ a → a < 32 → r < 7 → s.fatal = false → (reqOf (arbOf s a) r).raised = true → (reqOf (arbOf s a) r).forced = false →
    lockedOut s a (reqOf (arbOf s a) r) = false → bestOf s a (bankPrio s) (raisedAt s a) = some w → w ≠ r → w < 7 →
    lockedOut s a (reqOf (arbOf s a) w) = false → waitLimit s a ≤ (reqOf (arbOf s a) r).wait + 1 →
    ∃ t, exec (.forcedWin a r) s = .next t ∧ (reqOf (arbOf t a) r).forced = true ∧
      (reqOf (arbOf t a) r).wait = (reqOf (arbOf s a) r).wait + 1 ∧ (arbOf t a).round = (arbOf s a).round + 1 ∧
      (arbOf t a).waiting = (arbOf s a).waiting.erase w ∧ (∀ b, b ≠ a → arbOf t b = arbOf s b) ∧ t = { s with arbs := t.arbs }) ∧
  (∀ s a r, 16 ≤ a → a < 32 → r < 7 → awake s → lockedOut s a (reqOf (arbOf s a) r) = false → s.regs.wf = true →
    ∃ t, exec (.holdCeil a r) s = .next t ∧
      (reqOf (arbOf t a) r).lockout = s.nomNs + (penalty s a * cyclePs s 19 + 999) / 1000 ∧
      (arbOf t a).waiting = r :: (arbOf s a).waiting ∧
      t.fld .schArbStat a 16 16 = (s.fld .schArbStat a 16 16 + 1) % 2 ^ 16 ∧
      t = { s with arbs := t.arbs, regs := t.regs, errQ := t.errQ })

/-- R173: a quarantined tag or write ID whose time has passed is free again. R517: "a credit returned above the maximum
is ignored": a returned credit adds one to its channel's count up to 64, 64 and 256, to no other, and what waits for
credits is offered again; before fpn_active rises it is ignored (R519). -/
def Obligations.TagsAndCreditsReturn : Prop :=
  (∀ s aid q, s.quar.find? (fun q => q.acc.aid == aid) = some q → awake s → q.freeAt ≤ s.nomNs →
     (∀ d i p n, q.acc.purpose ≠ .oldWrite d i p n) →
     ∃ t, exec (.quarantineEnd aid) s = .next t ∧ t.quar = s.quar.filter (fun x => x.acc.aid != aid) ∧
       PortsOnly { s with quar := t.quar, dirtyQ := t.dirtyQ, dirtyFilter := t.dirtyFilter, is0 := t.is0, regs := t.regs,
                          heldPulses := t.heldPulses } t) ∧
  (∀ s p ch, p < 16 → s.fatal = false → s.portActive.contains p = true →
    ∃ u : State, exec (.fabricCredit p ch) s = .next u.drainHeld ∧ u = { s with credits := u.credits } ∧
      (∀ n, n ≠ p → creditsOf u n = creditsOf s n) ∧
      creditsOf u p = (if ch = .rq then min 64 ((creditsOf s p).1 + 1) else (creditsOf s p).1,
        if ch = .wq then min 64 ((creditsOf s p).2.1 + 1) else (creditsOf s p).2.1,
        if ch = .wd then min 256 ((creditsOf s p).2.2 + 1) else (creditsOf s p).2.2)) ∧
  (∀ s p ch, p < 16 → s.portActive.contains p = false → exec (.fabricCredit p ch) s = .next s)

/-- R525: where a request is not taken within CLU_BEAT_CEIL it is not issued, and its tag is free at once (the model's
reading, log entry 20); a slot read is asked for again. A data beat that is not taken, and a read beat that does not
come, replay the loaf with cause 0x28, and a slot read's tag is quarantined. R362, R562: a record or notice whose data beat is not
taken has expired as at its own ceiling, which counts toward the sixteen. -/
def Obligations.BeatCeilings : Prop :=
  (∀ s aid a c k, s.access aid = some a → s.fatal = false → a.purpose = .slot c k → offered s a = true →
    ∃ u t : State, exec (.beatCeil aid .request) s = .next t ∧ t = u.drainHeld ∧ Released s u a.aid ∧ u.quar = s.quar ∧
      Offered u a.purpose a.write a.addr a.len a.data ∧ PortsOnly s t) ∧
  (∀ s aid a c i n x, s.access aid = some a → s.fatal = false → a.purpose = .write c i n → slotAt s c i = some x →
    isReleased x n = false → a.toSend ≠ 0 → x.clu = c → x.idx = i →
    exec (.beatCeil aid .data) s = .next (s.fabricFault c i n 0x28 false 0x3D a.addr)) ∧
  (∀ s aid a, s.access aid = some a → s.fatal = false → isRecordWrite a.purpose = true → a.write = true →
    exec (.beatCeil aid .data) s = .next ((((s.logDirty a.iid a.addr).quarantine a).recordAgain a 0).drainHeld)) ∧
  (∀ s aid a c k, s.access aid = some a → s.fatal = false → a.write = false → a.attrs.swap = false → a.purpose = .slot c k →
    ∃ u t : State, exec (.beatCeil aid .response) s = .next t ∧ t = u.drainHeld ∧ Quarantined s u a ∧
      Offered u a.purpose a.write a.addr a.len a.data ∧ PortsOnly { s with quar := t.quar } t) ∧
  (∀ s aid a c i n x, s.access aid = some a → s.fatal = false → a.write = false → a.attrs.swap = false → a.purpose = .data c i n →
    slotAt s c i = some x → x.clu = c → x.idx = i →
    ∃ u : State, exec (.beatCeil aid .response) s = .next ((u.readFault x n a 0x28 0x3D).drainHeld) ∧ Quarantined s u a ∧
      u = { s with acc := u.acc, quar := u.quar })

/-! ## Records and notices -/

/-- R28, R117, R123: the finished record of the queue's next slot is written over its slot, by its cluster's write
stream, or by the notice logic where the slot was discarded; Q moves on by one, the descriptor is counted, and the
record leaves the store. R400, R401: the latency of a record enters the bin of its instance and effective class, and its
sum, unless the timebase stepped between its two timestamps, which is counted instead. -/
def Obligations.RecordsIssue : Prop :=
  (∀ s qid r c, qid < 2 ^ 22 → running s = true → serves s = true → nextRecord s qid = some r → ctxOf s qid = some c → r.qid = qid →
    r.chainPos = 0 → r ∈ s.records → s.adoptDone = [] → r.slot < 32 ∨ r.slot = 63 →
    (r.abandoned = false → (portNow s (recordHeld s r)).isSome = true) → s.is3.wf = true →
    ∃ (u : State) (d : QCtx), exec (if r.abandoned then .abandonedRecord qid else .completionRecord qid) s =
        .next ((((((u.releaseDone r.clu r.slot).acceptMore qid).pumpStore).settleMoving 1).checkIdle qid).admCheck) ∧
      Offered u (.record qid r.idx 0 r.noticeNow r.abandoned) true r.addr 64 (bytesOfWords r.words) ∧
      u.records = s.records.erase r ∧ ctxOf u qid = some d ∧ d.q = c.q + 1 ∧ d.winDone = c.winDone >>> 1 ∧ d.f = c.f ∧
      d.piSeen = c.piSeen ∧ (telOn s = true → d.descs = c.descs + 1) ∧ (telOn s = false → d.descs = c.descs) ∧
      PortsOnly { s with records := u.records, ways := u.ways, is3 := u.is3, regs := u.regs, heldPulses := u.heldPulses } u) ∧
  (∀ s qid, qid < 2 ^ 22 → running s = true → nextRecord s qid = none →
    exec (.completionRecord qid) s = .next (s.needCtx qid) ∧ exec (.abandonedRecord qid) s = .next (s.needCtx qid)) ∧
  (∀ s qid r, qid < 2 ^ 22 → nextRecord s qid = some r →
    exec (if r.abandoned then .completionRecord qid else .abandonedRecord qid) s = .next s) ∧
  (∀ (s : State) iid r, telOn s = true → r.abandoned = false → r.fetchStep = r.doneStep → s.is3.wf = true → iid < 4096 →
    ∃ L, L = (bits (wd r.words 4) 0 48 + 2 ^ 48 - bits (wd r.words 3) 0 48) % 2 ^ 48 ∧
      (s.enterHistogram iid r).is3.get (0x20000 + 64 * iid + 16 * r.cls.toNat + histBin L) =
        s.is3.get (0x20000 + 64 * iid + 16 * r.cls.toNat + histBin L) + 1 ∧
      histBin L < 16 ∧ (histBin L = 0 ↔ L < 128) ∧ (histBin L = 15 ↔ 2097152 ≤ L) ∧
      (∀ b, 1 ≤ b → b ≤ 14 → (histBin L = b ↔ 2 ^ (b + 6) ≤ L ∧ L < 2 ^ (b + 7))) ∧
      (s.enterHistogram iid r) = { s with is3 := (s.enterHistogram iid r).is3 }) ∧
  (∀ (s : State) iid r, telOn s = true → r.abandoned = false → r.fetchStep ≠ r.doneStep →
    s.enterHistogram iid r = s.bump .telStat 0 0 16 1) ∧
  (∀ (s : State) iid r, (telOn s = false ∨ r.abandoned = true) → s.enterHistogram iid r = s)

/-- R130 to R132: a notice goes to its queue's NOTICE_ADDR with the next sequence and clears PENDING; one that is triggered while
another is in flight is kept, and follows its acknowledgement; an acknowledged ring record counts in PENDING, but for one that comes
while a notice waits to be issued, whose issue returns PENDING to 0 (that it reads 0 from the trigger on is the model's choice, log
entry 48). R131, R362, R562: an acknowledged record or notice reaches its queue's context; one that draws a retryable error is written
again; one that draws any other, or expires for the sixteenth time, is given up, logged as DEVICE 0x46, and counts as acknowledged. -/
def Obligations.Notices : Prop :=
  (∀ (s : State) qid c, ctxOf s qid = some c → s.fatal = false → c.noticeAddr ≠ 0 → c.noticeBusy = 0 → noticeWaits s qid = false →
    ∃ t d, s.noticeTrigger qid = t ∧ ctxOf t qid = some d ∧
      d = { c with noticeBusy := 1, noticeKept := 0, pendingCnt := 0, nseq := d.nseq } ∧ d.nseq ≠ 0 ∧
      (c.nseq ≠ 0xFF → d.nseq = c.nseq + 1) ∧
      Offered t (.notice qid) true c.noticeAddr.toNat 8 (leBytes 8 (noticeWord (noticeCi s qid c) c d.nseq.toNat).toNat) ∧
      PortsOnly { s with ways := t.ways } t) ∧
  (∀ (s : State) qid c, ctxOf s qid = some c → c.noticeAddr ≠ 0 → c.noticeBusy = 1 → noticeWaits s qid = false →
    s.noticeTrigger qid = s.setCtx qid { c with noticeKept := 1 }) ∧
  (∀ (s : State) qid c, ctxOf s qid = some c → c.noticeAddr = 0 → s.noticeTrigger qid = s) ∧
  (∀ (s : State) qid ring nn, noticeWaits s qid = true → s.noticeTrigger qid = s ∧ s.recordAcked qid ring nn = s) ∧
  (∀ s qid c, qid < 2 ^ 22 → ctxOf s qid = some c → running s = true → c.pendingCnt ≠ 0 → c.noticeDelay ≠ 0 →
    noticeLate s c = true → exec (.noticeDelayExpiry qid) s = .next (s.noticeTrigger qid)) ∧
  (∀ (s : State) qid c, ctxOf s qid = some c → c.noticeKept = 0 →
    s.noticeAcked qid = s.setCtx qid { c with noticeBusy := 0 }) ∧
  (∀ (s : State) qid c, ctxOf s qid = some c → c.noticeKept = 1 →
    s.noticeAcked qid = (s.setCtx qid { c with noticeBusy := 0 }).noticeTrigger qid) ∧
  (∀ (s : State) qid c nn, ctxOf s qid = some c → c.noticeAddr ≠ 0 → c.pendingCnt.toNat + 1 < c.noticeThresh.toNat → nn = false →
    noticeWaits s qid = false →
    ∃ t d, s.recordAcked qid true nn = t ∧ ctxOf t qid = some d ∧ d.pendingCnt = c.pendingCnt + 1 ∧ d.noticeBusy = c.noticeBusy ∧
      t = { s with ways := t.ways }) ∧
  (∀ s aid a code q i p nn ab, s.access aid = some a → a.purpose = .record q i p nn ab → s.fatal = false → a.toSend = 0 →
    ∃ u : State, Released s u a.aid ∧
      PortsOnly { s with dirtyQ := u.dirtyQ, dirtyFilter := u.dirtyFilter, is0 := u.is0, regs := u.regs,
                         heldPulses := u.heldPulses } u ∧
      (codeSeen code = 0 → exec (.completionRecordAck aid code) s = .next ((u.recordAckAt q i p nn).drainHeld)) ∧
      (codeSeen code ≠ 0 → codeRetryable (codeSeen code) = true → a.expiries + 1 < 16 →
        ∃ t, exec (.completionRecordAck aid code) s = .next t ∧ Offered t a.purpose a.write a.addr a.len a.data ∧ PortsOnly u t)) ∧
  (∀ s aid a code q, s.access aid = some a → a.purpose = .notice q → s.fatal = false → codeSeen code = 0 →
    ∃ u : State, Released s u a.aid ∧ exec (.noticeAck aid code) s = .next ((u.noticeAckAt q).drainHeld) ∧
      PortsOnly { s with dirtyQ := u.dirtyQ, dirtyFilter := u.dirtyFilter, is0 := u.is0, regs := u.regs,
                         heldPulses := u.heldPulses } u) ∧
  (∀ (s : State) q i p nn c, s.queues.contains q = true → ctxOf s q = some c →
    s.recordAckAt q i p nn = (s.lookup q 2).recordAcked q (decide (p = 0)) nn ∧ s.noticeAckAt q = (s.lookup q 3).noticeAcked q) ∧
  (∀ s aid a code, s.access aid = some a → isRecordWrite a.purpose = true → s.fatal = false → codeSeen code ≠ 0 →
    codeRetryable (codeSeen code) = false →
    ∃ u v : State, exec (.recordGiveUp aid code) s = .next ((v.writeAcked a.purpose).drainHeld) ∧ Released s u a.aid ∧
      v = { u with errQ := v.errQ, regs := v.regs } ∧
      PortsOnly { s with dirtyQ := u.dirtyQ, dirtyFilter := u.dirtyFilter, is0 := u.is0, regs := u.regs,
                         heldPulses := u.heldPulses } u ∧
      (u.errQ.length < 64 → ∃ e, v.errQ = u.errQ ++ [e] ∧ e.code = 0x46 ∧ e.cls = 3 ∧ e.seq = u.rd .errNextSeq 0))

/-! ## Instances, drains and the admin ring -/

/-- R323, R328, R293, R79, R565: a quiet instance is QUIESCED and its command ends OK with W1 the descriptors left in
flight; a command at QUIESCE_CEIL ends with TIMEOUT while its change goes on; a drained queue is PAUSED, on its new
home, or gone. -/
def Obligations.InstanceDrains : Prop :=
  (∀ s iid, iid < 4096 → admRuns s = true → s.instState iid = 2 → instQuiet s iid = true → s.is0.wf = true →
    quiesceCmd s true iid = none → quiesceCmd s false iid = none →
    ∃ t, exec (.instanceQuiet iid) s = .next t ∧ t = { s with is0 := t.is0 } ∧ t.instState iid = 3 ∧
      ∀ k, k ≠ 16 * iid + 13 → t.is0.get k = s.is0.get k) ∧
  (∀ s iid c, iid < 4096 → admRuns s = true → s.instState iid = 2 → instQuiet s iid = true →
    quiesceCmd s true iid = some c → c.acks = [] → c.sender = none → s.fed.remote = none →
    exec (.instanceQuiet iid) s = .next ((s.setInstFld iid 13 0 3 3).admEnd true 0 0 (instInFlight s iid) 0 0)) ∧
  (∀ s c, admRuns s = true → ceilCmd s true = some c →
    ∃ t, exec .quiesceTimeout s = .next t ∧
      t = s.admEnd true 0x46 0 (if cOp c = 0x82 then instInFlight s (cIid c) else 0) 0 0 ∧
      (c.sender = none → t.ways = s.ways ∧ t.is0 = s.is0 ∧ t.slots = s.slots ∧ t.queues = s.queues)) ∧
  (∀ s qid c, qid < 4194304 → admRuns s = true → ctxOf s qid = some c → c.state = qDraining → drained s qid c = true →
    s.adm.cmd = none → s.fed.remote = none → s.overrun.contains qid = false → ctxOn s = true →
    (c.drainTo = 0 → ∃ t, exec (.queueDrainEnd qid) s = .next t ∧ t = { s with ways := t.ways, overrun := t.overrun } ∧
      ctxOf t qid = some { c with state := qPaused } ∧ ∀ r, r ≠ qid → ctxOf t r = ctxOf s r) ∧
    (c.drainTo = 2 → c.prior ≠ qPaused → s.instState c.iid.toNat < 2 → s.fed.leaving.contains qid = false →
      assocGet s.fed.yielding qid = none →
      ∃ t d, exec (.queueDrainEnd qid) s = .next t ∧ ctxOf t qid = some d ∧ d.home = c.newHome ∧
        (d.state = qIdle ∨ d.state = qActive) ∧ d.piSeen = c.piSeen ∧ d.f = c.f ∧ d.q = c.q ∧
        ∀ r, r ≠ qid → ctxOf t r = ctxOf s r) ∧
    (c.drainTo = 1 → chans s qid = [] → fedState s ≠ 5 →
      ∃ t, exec (.queueDrainEnd qid) s = .next t ∧ ctxOf t qid = none ∧ t.queues = s.queues.filter (· != qid) ∧
        (∀ r, r ≠ qid → ctxOf t r = ctxOf s r) ∧ t.is0 = s.is0 ∧ t.slots = s.slots ∧ t.acc = s.acc))

/-- R277, R278, R285, R289: the record of an admin command that ends is written over its slot with the status, detail
and result words given; Q and ADM_LAST_DONE pass it, nothing is in progress, and a queue that is stopping becomes
DISABLED. R276 to R278, R283, R289: the admin doorbell is read once per POLL_IV or on a kick and its record applied; a
whole slot that passes the checks is the command in progress and one that fails puts the queue into ERROR with its
cause; an unwritten one is read again a POLL_IV later; an acknowledged record pulses source 145 and triggers the notice.
-/
def Obligations.AdminRecords : Prop :=
  (∀ s c status detail w1 w2 w5, s.adm.cmd = some c → c.sender = none → c.bad = none → c.silent = false → s.fatal = false →
     s.regs.wf = true →
     (s.admEnd true status detail w1 w2 w5).adm.cmd = none ∧
     (s.admEnd true status detail w1 w2 w5).adm.q = c.idx + 1 ∧
     (s.admEnd true status detail w1 w2 w5).rd .admLastDone 0 = c.idx + 1 ∧
     (admState s = 4 → admState (s.admEnd true status detail w1 w2 w5) = 0) ∧
     Offered (s.admEnd true status detail w1 w2 w5) (.admRecord c.idx) true (admSlotAddr s c.idx) 64
       (bytesOfWords (recordWords (cOp c) status (128 * flag (unsyncedNow s) + detail) (dClass c.words) 0 false (dTag c.words)
         (genOf (admDepth s) c.idx) (BitVec.ofNat 64 w1) (BitVec.ofNat 64 w2) c.fetchTs (s.timebase.setWidth 48) 0
         (BitVec.ofNat 64 w5) (wd c.words 6))) ∧
     (∃ a x r, PortsOnly { s with adm := a, staged := x, regs := r } (s.admEnd true status detail w1 w2 w5))) ∧
  (∀ s, admRuns s = true → 1 ≤ admState s → admState s ≤ 3 → s.adm.dbActive = false →
    (s.adm.kick = true ∨ admPollNs s ≠ 0 ∧ s.adm.nextPoll ≤ s.nomNs) →
    ∃ t, exec .adminDoorbellRead s = .next t ∧
      PortsOnly { s with adm := { s.adm with dbActive := true, kick := false, nextPoll := s.nomNs + admPollNs s } } t ∧
      Offered t .admDoorbell false (admDbAddr s) 8 []) ∧
  (∀ s a ans, s.access a.aid = some a → a.purpose = .admDoorbell → s.fatal = false → CleanAnswer a ans →
    ∃ u : State, exec (.adminDoorbellResponse a.aid ans) s = .next (u.admDoorbell (BitVec.ofNat 64 (leNat (answerBytes a ans)))) ∧
      PortsOnly { s with adm := { s.adm with dbActive := false } } u ∧ Released s u a.aid) ∧
  (∀ (s : State) rec, admState s = 1 → s.adm.cmd = none → s.adm.slotActive = false → s.adm.rereadDue = none → admRuns s = true →
    bits rec 56 8 = s.fld .admQCtl 0 5 8 → (rec.setWidth 32 - s.adm.piSeen).toNat ≤ admDepth s →
    (rec.setWidth 32 - s.adm.q).toNat ≤ admDepth s → rec.setWidth 32 ≠ s.adm.piSeen → s.adm.f ≠ rec.setWidth 32 →
    s.regs.wf = true →
    (s.admDoorbell rec).adm.piSeen = rec.setWidth 32 ∧ admState (s.admDoorbell rec) = 2 ∧
      (s.admDoorbell rec).adm.slotActive = true ∧
      Offered (s.admDoorbell rec) .admSlot false (admSlotAddr s s.adm.f) 64 []) ∧
  (∀ s a ans ws, s.access a.aid = some a → a.purpose = .admSlot → s.fatal = false → CleanAnswer a ans →
    (admState s = 1 ∨ admState s = 2) → s.regs.wf = true → ws = wordsOfBytes (answerBytes a ans) →
    ((dGen ws = genOf (admDepth s) s.adm.f ∧ dSeal ws = genOf (admDepth s) s.adm.f) → admProofCause ws = 0 →
      ∃ t, exec (.adminSlotReadResponse a.aid ans) s = .next t ∧ admState t = 2 ∧ t.adm.f = s.adm.f + 1 ∧ t.adm.lastSlot = ws ∧
        t.adm.cmd = some (newCmd s ws s.adm.f none) ∧ t.adm.slotActive = false) ∧
    ((dGen ws = genOf (admDepth s) s.adm.f ∧ dSeal ws = genOf (admDepth s) s.adm.f) → admProofCause ws ≠ 0 →
      ∃ t, exec (.adminSlotReadResponse a.aid ans) s = .next t ∧ admState t = 3 ∧ t.fld .admQStat 0 8 8 = admProofCause ws % 256 ∧
        t.rd .admErrIndex 0 = s.adm.f ∧ t.adm.f = s.adm.f ∧ t.staged = [] ∧ t.adm.cmd = s.emptyCommit.adm.cmd) ∧
    (¬(dGen ws = genOf (admDepth s) s.adm.f ∧ dSeal ws = genOf (admDepth s) s.adm.f) → s.adm.reread < tornCeil s →
      ∃ t, exec (.adminSlotReadResponse a.aid ans) s = .next t ∧ Released s t a.aid ∧
        PortsOnly { s with adm := { s.adm with slotActive := false, reread := s.adm.reread + 1,
                                               rereadDue := some (s.nomNs + admPollNs s) } } t)) ∧
  (∀ s due, s.adm.rereadDue = some due → due ≤ s.nomNs → admRuns s = true → 1 ≤ admState s → admState s ≤ 3 →
    ∃ t, exec .adminSlotReread s = .next t ∧
      PortsOnly { s with adm := { s.adm with rereadDue := none, slotActive := true } } t ∧
      Offered t .admSlot false (admSlotAddr s s.adm.f) 64 []) ∧
  (∀ s a i, s.access a.aid = some a → a.purpose = .admRecord i → s.fatal = false →
    ∃ u : State, exec (.adminRecordAck a.aid 0) s = .next ((u.pulse 145 0).admNotice) ∧ PortsOnly s u ∧ Released s u a.aid) ∧
  (∀ s : State, admNoticeAddr s ≠ 0 → s.adm.noticeBusy = false → admState s ≠ 3 → s.fatal = false →
    s.held.any (fun h => h.form && decide (h.purpose = .admNotice)) = false →
    s.admNotice.adm.noticeBusy = true ∧ s.admNotice.adm.nseq = BitVec.ofNat 8 (nseqNext s.adm.nseq.toNat) ∧
      Offered s.admNotice .admNotice true (admNoticeAddr s) 8
        (leBytes 8 (pack [(0, 32, (admCi s).toNat), (32, 17, 0), (49, 1, 0), (56, 8, nseqNext s.adm.nseq.toNat)]).toNat))

/-! ## The admin commands -/

/-- R291, R313 to R316, R320 to R323, R329, R333: what the instance commands read, refuse and do, for a command that no
other member takes part in. -/
def Obligations.InstanceCommands : Prop :=
  (∀ s c, Proofed s 0x80 c → s.instState (cIid c) = 0 →
    ∃ t, exec .createInstance s = .next t ∧ PortsOnly { s with adm := { s.adm with cmd := some { c with phase := .image [] } } } t ∧
      Offered t (.admImage 0) false (wd c.words 2).toNat (min 64 (64 - (wd c.words 2).toNat % 64)) []) ∧
  (∀ s c, Proofed s 0x80 c → s.instState (cIid c) ≠ 0 → exec .createInstance s = .next (s.admEnd true 0x42 0 0 0 0)) ∧
  (∀ s c, Proofed s 0x81 c → s.instState (cIid c) ≠ 0 →
    ∃ t, exec .modifyInstance s = .next t ∧ PortsOnly { s with adm := { s.adm with cmd := some { c with phase := .image [] } } } t ∧
      Offered t (.admImage 0) false (wd c.words 2).toNat (min 64 (64 - (wd c.words 2).toNat % 64)) []) ∧
  (∀ s a ofs ans c got d, s.access a.aid = some a → a.purpose = .admImage ofs → s.fatal = false → CleanAnswer a ans →
    s.adm.cmd = some c → c.phase = .image got → (listRange c).2 ≤ (got ++ answerBytes a ans).length → fedOthers s = [] →
    s.is0.wf = true → d = { c with image := wordsOfBytes (got ++ answerBytes a ans), items := [] } →
    (cOp c = 0x80 → (∀ w, w < 16 → imageBad d w = false) → imageClash s d = false →
      ∃ u : State, exec (.imageReadResponse a.aid ans) s = .next (u.admEnd true 0 0 0 0 0) ∧ u.adm.cmd = some d ∧
        (∀ w, w < 13 → u.inst (cIid c) w = imageWord d w) ∧ u.inst (cIid c) 13 = 1 ∧ u.inst (cIid c) 14 = 0 ∧
        u.inst (cIid c) 15 = 0 ∧ (∀ k, k < 16 * cIid c ∨ 16 * cIid c + 16 ≤ k → u.is0.get k = s.is0.get k) ∧
        u.ways = s.ways ∧ u.queues = s.queues ∧ u.slots = s.slots) ∧
    (cOp c = 0x80 → ∀ w, (List.range 16).find? (fun x => imageBad d x) = some w →
      ∃ u : State, exec (.imageReadResponse a.aid ans) s = .next (u.admEnd true 0x44 0 0 0 w) ∧ u.is0 = s.is0) ∧
    (cOp c = 0x81 →
      ∃ u : State, exec (.imageReadResponse a.aid ans) s = .next (u.admEnd true 0 0 0 0 0) ∧
        u.instFld (cIid c) 9 0 16 = (if bit (wd c.words 1) 16 then bits (imageWord d 9) 0 16 else s.instFld (cIid c) 9 0 16) ∧
        u.instFld (cIid c) 10 0 21 = (if bit (wd c.words 1) 17 then bits (imageWord d 10) 0 21 else s.instFld (cIid c) 10 0 21) ∧
        u.inst (cIid c) 11 = (if bit (wd c.words 1) 17 then imageWord d 11 else s.inst (cIid c) 11) ∧
        u.instFld (cIid c) 12 0 20 = (if bit (wd c.words 1) 17 then bits (imageWord d 12) 0 20 else s.instFld (cIid c) 12 0 20) ∧
        u.instFld (cIid c) 9 16 2 = (if bit (wd c.words 1) 18 then bits (imageWord d 9) 16 2 else s.instFld (cIid c) 9 16 2) ∧
        u.instFld (cIid c) 3 16 16 = (if bit (wd c.words 1) 19 then bits (imageWord d 3) 16 16 else s.instFld (cIid c) 3 16 16) ∧
        u.instFld (cIid c) 8 0 21 = (if bit (wd c.words 1) 20 then bits (imageWord d 8) 0 21 else s.instFld (cIid c) 8 0 21) ∧
        (∀ k, (∀ w ∈ [3, 8, 9, 10, 11, 12], k ≠ 16 * cIid c + w) → u.is0.get k = s.is0.get k) ∧
        u.ways = s.ways ∧ u.queues = s.queues ∧ u.slots = s.slots)) ∧
  (∀ s a ofs ans, s.access a.aid = some a → a.purpose = .admImage ofs → s.fatal = false → codeSeen ans.code ≠ 0 →
    codeRetryable (codeSeen ans.code) = false →
    ∃ u : State, exec (.imageReadResponse a.aid ans) s = .next (u.admEnd true 0x49 (codeSeen ans.code).toNat 0 0 a.addr) ∧
      PortsOnly { s with quar := u.quar } u ∧ Released s u a.aid) ∧
  (∀ s c, Proofed s 0x82 c → cFlag c 0 = false → s.instState (cIid c) = 1 → ownQueues s (cIid c) = [] → s.is0.wf = true →
    ∃ t, exec .quiesceInstance s = .next t ∧ t.instState (cIid c) = 2 ∧
      t = { s with is0 := t.is0, adm := { s.adm with cmd := some { underCeil s c with phase := .waiting } } }) ∧
  (∀ (s : State) c, c.due = 0 → underCeil s c = { c with due := s.nomNs + quiesceCeilNs s }) ∧
  (∀ s c, Proofed s 0x82 c → cFlag c 0 = true → s.instState (cIid c) ≠ 0 → s.instState (cIid c) ≠ 3 →
    exec .quiesceInstance s = .next (s.admEnd true 0x43 0 0 0 (s.instState (cIid c)))) ∧
  (∀ s c, Proofed s 0x83 c → (s.instState (cIid c) = 2 ∨ s.instState (cIid c) = 3) → instRuns s (cIid c) = false →
    instRecords s (cIid c) = false → (∀ x ∈ s.slots, x.iid ≠ cIid c) →
    (∀ m ∈ s.moving, m.2.squashed = false) → s.fed.remote = none → s.is0.wf = true →
    ∃ u : State, exec .drainOrSquash s = .next (u.admEnd true 0 0 0 (instWrites s (cIid c) % 2 ^ 64) 0) ∧ u.instState (cIid c) = 3 ∧
      u = { s with is0 := u.is0, adm := u.adm }) ∧
  (∀ s c, Proofed s 0x84 c → (s.instState (cIid c) = 1 ∨ s.instState (cIid c) = 3) → instInFlight s (cIid c) = 0 →
    (s.polls.any (fun p => p.iid == cIid c)) = false → instQueues s (cIid c) = [] → logOn s (cIid c) = false → s.is0.wf = true →
    ∃ u : State, exec .resetInstance s = .next (u.admEnd true 0 0 0 0 0) ∧ u.instState (cIid c) = 1 ∧
      (∀ k, k < 16 * cIid c ∨ 16 * cIid c + 16 ≤ k → u.is0.get k = s.is0.get k) ∧ u.queues = s.queues ∧ u.ways = s.ways ∧
      u.slots = s.slots) ∧
  (∀ s c, Proofed s 0x85 c → (s.instState (cIid c) = 1 ∨ s.instState (cIid c) = 3) → instInFlight s (cIid c) = 0 →
    (s.polls.any (fun p => p.iid == cIid c)) = false → instQueues s (cIid c) = [] → logOn s (cIid c) = false → s.is0.wf = true →
    ∃ u : State, exec .destroyInstance s = .next (u.admEnd true 0 0 0 0 0) ∧ (∀ w, w < 16 → u.inst (cIid c) w = 0) ∧
      (∀ k, k < 16 * cIid c ∨ 16 * cIid c + 16 ≤ k → u.is0.get k = s.is0.get k) ∧ u.queues = s.queues ∧ u.ways = s.ways ∧
      u.slots = s.slots) ∧
  (∀ s c, Proofed s 0x84 c → s.instState (cIid c) ≠ 0 → s.instState (cIid c) ≠ 1 → s.instState (cIid c) ≠ 3 →
    exec .resetInstance s = .next (s.admEnd true 0x43 0 0 0 (s.instState (cIid c))))

/-- R38, R40, R292, R294, R79, R287: what the queue commands do where their queue's context is resident at home. -/
def Obligations.QueueCommands : Prop :=
  (∀ s c k, Proofed s 0x88 c → s.instState (cIid c) ≠ 0 → s.queues.contains (newQid s c) = false →
    bits (wd c.words 1) 31 4 ≤ 12 → (wd c.words 2).toNat % (64 * 2 ^ (bits (wd c.words 1) 31 4 + 4)) = 0 →
    bits (wd c.words 1) 12 15 < min (s.instFld (cIid c) 3 16 16) (qidSpan s (cIid c)) → freeWay s (newQid s c) = some k →
    ∃ u : State, exec .createQueue s = .next (u.admEnd true 0 0 (newQid s c) 0 0) ∧ u.queues = newQid s c :: s.queues ∧
      ctxOf u (newQid s c) = some (newContext s c (ownMember s)) ∧ (∀ r, r ≠ newQid s c → ctxOf u r = ctxOf s r) ∧
      (s.instState (cIid c) = 1 → (newContext s c (ownMember s)).state = qIdle) ∧ u.is0 = s.is0 ∧ u.slots = s.slots) ∧
  (∀ s c, Proofed s 0x88 c → s.instState (cIid c) = 0 →
    exec .createQueue s = .next (s.admEnd true 0x40 0 0 0 0)) ∧
  (∀ s c, Proofed s 0x88 c → s.instState (cIid c) ≠ 0 → s.queues.contains (newQid s c) = false →
    (12 < bits (wd c.words 1) 31 4 → exec .createQueue s = .next (s.admEnd true 0x44 0 0 0 17)) ∧
    (bits (wd c.words 1) 31 4 ≤ 12 → (wd c.words 2).toNat % (64 * 2 ^ (bits (wd c.words 1) 31 4 + 4)) ≠ 0 →
      exec .createQueue s = .next (s.admEnd true 0x44 0 0 0 18))) ∧
  (∀ s c q, Proofed s 0x89 c → s.queues.contains (cQid c) = true → homedAway s (cQid c) = false → ctxOf s (cQid c) = some q →
    bits (wd c.words 1) 28 2 = 0 →
    ∃ (u : State) (r : QCtx), exec .modifyQueue s = .next (u.admEnd true 0 0 0 0 0) ∧ ctxOf u (cQid c) = some r ∧
      r.noticeThresh = (if bit (wd c.words 1) 27 then fieldOf (wd c.words 4) 32 16 else q.noticeThresh) ∧
      r.noticeDelay = (if bit (wd c.words 1) 26 then fieldOf (wd c.words 4) 0 20 else q.noticeDelay) ∧
      r.overlapM1 = (if bit (wd c.words 1) 26 then fieldOf (wd c.words 4) 20 4 else q.overlapM1) ∧
      r.qClass = (if bit (wd c.words 1) 26 then fieldOf (wd c.words 4) 24 2 else q.qClass) ∧
      r.state = q.state ∧ r.f = q.f ∧ r.q = q.q ∧ r.piSeen = q.piSeen ∧ r.ringBase = q.ringBase ∧ r.home = q.home ∧
      (∀ n, n ≠ cQid c → ctxOf u n = ctxOf s n) ∧ u.slots = s.slots ∧ u.is0 = s.is0) ∧
  (∀ s c q, Proofed s 0x89 c → s.queues.contains (cQid c) = true → homedAway s (cQid c) = false → ctxOf s (cQid c) = some q →
    bits (wd c.words 1) 28 2 = 2 → q.state ≠ qPaused →
    ∃ u : State, exec .modifyQueue s = .next (u.admEnd true 0x43 0 0 0 (queueCode q)) ∧ ctxOf u (cQid c) = some q) ∧
  (∀ s c, Proofed s 0x8A c → s.queues.contains (cQid c) = false →
    exec .destroyQueue s = .next (s.admEnd true 0x41 0 0 0 0)) ∧
  (∀ s c q, Proofed s 0x8A c → s.queues.contains (cQid c) = true → homedAway s (cQid c) = false → ctxOf s (cQid c) = some q →
    q.state ≠ qDraining → chans s (cQid c) = [] →
    ∃ (t : State) (r : QCtx), exec .destroyQueue s = .next t ∧ ctxOf t (cQid c) = some r ∧ r.state = qDraining ∧ r.drainTo = 1 ∧
      r.prior = q.state ∧ r.f = q.f ∧ r.q = q.q ∧
      t.adm = { s.adm with cmd := some { underCeil s c with phase := .waiting } } ∧
      (∀ n, n ≠ cQid c → ctxOf t n = ctxOf s n) ∧ t.queues = s.queues ∧ t.slots = s.slots) ∧
  (∀ s c q, Proofed s 0x8B c → s.queues.contains (cQid c) = true → homedAway s (cQid c) = false → ctxOf s (cQid c) = some q →
    (q.state = qIdle ∨ q.state = qActive ∨ q.state = qPaused) → chans s (cQid c) = [] →
    (outOfService s (bits (wd c.words 1) 24 4) = true →
      ∃ u : State, exec .moveQueue s = .next (u.admEnd true 0x44 0 0 0 17) ∧ ctxOf u (cQid c) = some q) ∧
    (outOfService s (bits (wd c.words 1) 24 4) = false →
      ∃ (t : State) (r : QCtx), exec .moveQueue s = .next t ∧ ctxOf t (cQid c) = some r ∧ r.state = qDraining ∧ r.drainTo = 2 ∧
        r.prior = q.state ∧ r.newHome = fieldOf (wd c.words 1) 24 4 ∧ r.home = q.home ∧
        t.adm = { s.adm with cmd := some { underCeil s c with phase := .waiting } } ∧
        (∀ n, n ≠ cQid c → ctxOf t n = ctxOf s n)))

/-- R295 to R305, R309 to R311: STAGE and EVM_UPDATE read their lists; a list is staged whole or not at all; COMMIT
empties the area on DISCARD and on a stale item, else waits for a quiet point, at which or at its ceiling the items take
effect. The length of the hold that COMMIT reports is left open (log entry 1). -/
def Obligations.StagedCommands : Prop :=
  (∀ s c, Proofed s 0x90 c → s.staged.length + (bits (wd c.words 2) 0 8 + 1) ≤ 256 →
    ∃ t, exec .stage s = .next t ∧ PortsOnly { s with adm := { s.adm with cmd := some { c with phase := .image [] } } } t ∧
      Offered t (.admImage 0) false (wd c.words 1).toNat (min (16 * (bits (wd c.words 2) 0 8 + 1)) (64 - (wd c.words 1).toNat % 64)) []) ∧
  (∀ s c, Proofed s 0x90 c → 256 < s.staged.length + (bits (wd c.words 2) 0 8 + 1) →
    exec .stage s = .next (s.admEnd true 0x47 0 0 0 s.staged.length)) ∧
  (∀ s c, Proofed s 0xA0 c →
    ∃ t, exec .evmUpdate s = .next t ∧ PortsOnly { s with adm := { s.adm with cmd := some { c with phase := .image [] } } } t ∧
      Offered t (.admImage 0) false (wd c.words 1).toNat (min (16 * (bits (wd c.words 2) 0 10 + 1)) (64 - (wd c.words 1).toNat % 64)) []) ∧
  (∀ s a ofs ans c got xs, s.access a.aid = some a → a.purpose = .admImage ofs → s.fatal = false → CleanAnswer a ans →
    s.adm.cmd = some c → c.phase = .image got → (listRange c).2 ≤ (got ++ answerBytes a ans).length →
    xs = itemsOf (got ++ answerBytes a ans) →
    (cOp c = 0x90 → firstBadItem s false s.staged 0 xs = none →
      ∃ u : State, exec (.imageReadResponse a.aid ans) s = .next (u.admEnd true 0 0 (s.staged.length + xs.length) 0 0) ∧
        u.staged = s.staged ++ xs) ∧
    (cOp c = 0x90 → ∀ i r, firstBadItem s false s.staged 0 xs = some (i, r) →
      ∃ u : State, exec (.imageReadResponse a.aid ans) s = .next (u.admEnd true 0x48 r 0 0 i) ∧ u.staged = s.staged) ∧
    (cOp c = 0xA0 → firstBadItem s true [] 0 xs = none → xs ≠ [] → xs.all itemEvm = true →
      ∃ u : State, exec (.imageReadResponse a.aid ans) s = .next (u.admEnd true 0 0 xs.length 0 0) ∧
        u.evm = xs.foldl (fun b x => b.apply x) s.evm ∧ u.evmPend = u.evm ∧ u.is0 = s.is0 ∧ u.ways = s.ways)) ∧
  (∀ s c, Proofed s 0x91 c → cFlag c 0 = true → exec .commit s = .next (s.discardStaged.admEnd true 0 0 0 0 0) ∧ s.discardStaged.staged = []) ∧
  (∀ s c i r, Proofed s 0x91 c → cFlag c 0 = false → firstStale s 0 s.staged = some (i, r) →
    exec .commit s = .next (s.discardStaged.admEnd true 0x48 r 0 0 i) ∧ s.discardStaged.staged = []) ∧
  (∀ s c, Proofed s 0x91 c → cFlag c 0 = false → firstStale s 0 s.staged = none →
    (∀ x ∈ s.staged, itemSpace x ≠ 1 ∧ itemSpace x ≠ 2) → s.regs.wf = true →
    ∃ t d, exec .commit s = .next t ∧ t = { s with regs := t.regs, adm := { s.adm with cmd := some d } } ∧ d.items = s.staged ∧
      d.phase = .quietPoint ∧ d.due = s.nomNs + commitCeilNs s ∧ bit (t.rd .admStageStat 0) 9 = true) ∧
  (∀ s c x, commitWaiting s true = some c → quietNow s c = true → c.sender = none → c.acks = [] → c.stage ≠ 1 → c.items = [x] → itemSpace x = 1 →
    s.is0.wf = true →
    ∃ (u : State) (hold : Nat), exec .quietPoint s = .next (u.admEnd true 0 0 1 hold 0) ∧ hold < 1793 ∧ u.staged = [] ∧
      u.is0.get (itemAddr x) = itemOver x (s.is0.get (itemAddr x)) ∧ (∀ k, k ≠ itemAddr x → u.is0.get k = s.is0.get k)) ∧
  (∀ s c x, commitWaiting s true = some c → c.due ≤ s.nomNs → c.sender = none → c.acks = [] → c.stage ≠ 1 → c.items = [x] → itemSpace x = 1 →
    s.is0.wf = true →
    ∃ (u : State) (hold : Nat), exec .commitCeil s = .next (u.admEnd true 0 1 1 hold 0) ∧ hold < 1793 ∧ u.staged = [] ∧
      u.is0.get (itemAddr x) = itemOver x (s.is0.get (itemAddr x)) ∧ (∀ k, k ≠ itemAddr x → u.is0.get k = s.is0.get k))

/-- R342 to R345, R395, R396, R426, R442, R470, R414: what the log, timebase, federation, REST and telemetry commands
do. -/
def Obligations.OtherCommands : Prop :=
  (∀ s c, Proofed s 0x98 c → s.instState (cIid c) ≠ 0 → logOn s (cIid c) = false → s.is0.wf = true → (wd c.words 2).toNat % 4096 = 0 →
    ∃ u : State, exec .startDirtyLog s = .next (u.admEnd true 0 0 0 0 0) ∧ logOn u (cIid c) = true ∧
      u.instState (cIid c) = s.instState (cIid c) ∧ logBase u (cIid c) = (wd c.words 2).toNat ∧
      u.instFld (cIid c) 13 5 5 = bits (wd c.words 3) 0 5 ∧ u.inst (cIid c) 15 = 0 ∧
      (∀ k, k ≠ 16 * cIid c + 13 → k ≠ 16 * cIid c + 14 → k ≠ 16 * cIid c + 15 → u.is0.get k = s.is0.get k)) ∧
  (∀ s c, Proofed s 0x98 c → s.instState (cIid c) ≠ 0 → logOn s (cIid c) = true →
    exec .startDirtyLog s = .next (s.admEnd true 0x43 0 0 0 0x21)) ∧
  (∀ s c, (Proofed s 0x99 c ∨ Proofed s 0x9A c) → s.instState (cIid c) ≠ 0 → logOn s (cIid c) = true → s.is0.wf = true →
    s.sweep.contains (cIid c) = false → (∀ r ∈ s.dirtyQ, r.iid ≠ cIid c) →
    (∀ a ∈ s.acc, ∀ e, a.purpose ≠ .dirtyLog (cIid c) e) → (∀ h ∈ s.held, ∀ e, h.purpose ≠ .dirtyLog (cIid c) e) →
    (Proofed s 0x99 c → ∃ u : State, exec .harvestDirtyLog s =
        .next (u.admEnd true 0 0 (s.instFld (cIid c) 15 0 32) (s.instFld (cIid c) 13 11 1) 0) ∧
      logEpoch u (cIid c) = !logEpoch s (cIid c) ∧ u.instFld (cIid c) 13 11 1 = 0 ∧ logOn u (cIid c) = true ∧
      u.sweep.contains (cIid c) = true ∧ u.dirtyQ = s.dirtyQ) ∧
    (Proofed s 0x9A c → ∃ (t : State) (d : AdmCmd), exec .stopDirtyLog s = .next t ∧ t.adm = { s.adm with cmd := some d } ∧
      d.phase = .waiting ∧ d.stage = 2 ∧ d.w1 = BitVec.ofNat 64 (s.instFld (cIid c) 15 0 32) ∧
      d.w2 = BitVec.ofNat 64 (s.instFld (cIid c) 13 11 1) ∧ logOn t (cIid c) = false ∧ t.sweep.contains (cIid c) = true)) ∧
  (∀ s c, Proofed s 0xA8 c → s.regs.wf = true →
    ∃ u : State, exec .setTimebase s = .next (u.admEnd true 0 0 u.timebase.toNat 0 0) ∧
      u.timebase = (if cFlag c 0 then wd c.words 1 else if cFlag c 1 then s.timebase + wd c.words 1 else s.timebase) ∧
      (cFlag c 2 = true → u.rd .telTbRate 0 = (wd c.words 2).setWidth 32 ∧ u.tbFrac = 0) ∧
      (cFlag c 2 = false → u.regs = s.regs) ∧ u.is0 = s.is0 ∧ u.ways = s.ways ∧ u.slots = s.slots) ∧
  (∀ s c, Proofed s 0xB0 c → (fedState s = 0 ∨ fedState s = 4) → s.regs.wf = true →
    ∃ t, exec .fedJoin s = .next t ∧ fedState t = 1 ∧ ownMember t = bits (wd c.words 1) 0 2 ∧ members t = [] ∧
      t.adm = { s.adm with cmd := some { c with phase := .waiting, due := s.nomNs + joinCeilNs s } } ∧ t.ways = s.ways ∧
      t.queues = s.queues ∧ t.timebase = s.timebase) ∧
  (∀ s c, Proofed s 0xB0 c → fedState s ≠ 0 → fedState s ≠ 4 → exec .fedJoin s = .next (s.admEnd true 0x43 0 0 0 (0x30 + fedState s))) ∧
  (∀ s c, Proofed s 0xB1 c → fedState s = 2 → s.mode = .run → (members s).any (fun m => decide (m ≠ ownMember s)) = false →
    s.regs.wf = true →
    ∃ u : State, exec .fedLeave s = .next (u.admEnd true 0 0 0 0 0) ∧ fedState u = 0 ∧ members u = [] ∧
      u.rd .fedEpoch 0 = s.rd .fedEpoch 0 + 1 ∧ u.ways = s.ways ∧ u.queues = s.queues) ∧
  (∀ s c, Proofed s 0xB1 c → fedState s ≠ 2 → exec .fedLeave s = .next (s.admEnd true 0x43 0 0 0 (0x30 + fedState s))) ∧
  (∀ s c, Proofed s 0xB8 c → s.mode = .run →
    ∃ t, exec .rest s = .next t ∧ t = { s with
      adm := { s.adm with cmd := some { c with phase := .waiting, due := s.nomNs + 1000 * bits (wd c.words 1) 0 22 } },
      idleSince := if restIdle s then some s.nomNs else none }) ∧
  (∀ s c, Proofed s 0xB8 c → s.mode ≠ .run → exec .rest s = .next (s.admEnd true 0x43 0 0 0 (0x40 + s.mode.code))) ∧
  (∀ s c u ls h, Proofed s 0xB9 c → (bits (wd c.words 2) 12 4 = 2 ∨ bits (wd c.words 2) 12 4 ≠ 3 ∧ s.instState (bits (wd c.words 2) 0 12) ≠ 0) →
    s.takeCopy (bits (wd c.words 2) 12 4) (bits (wd c.words 2) 0 12) (bits (wd c.words 3) 0 22) none false = (u, ls, h) →
    ∃ t, exec .readTelemetry s = .next t ∧
      PortsOnly { u with adm := { s.adm with cmd := some { c with
        phase := .copying ls.length (some ((wd c.words 1).toNat, h)), w1 := BitVec.ofNat 64 (64 * (ls.length + 1)) } } } t ∧
      ∀ l ∈ ls.zipIdx, Offered t (.admCopy false) true (((wd c.words 1).toNat + 64 + 64 * l.2) % 2 ^ 64) 64 (bytesOfWords l.1))

/-! ## Registers -/

/-- R478, R479, R481, R483, R351: a write that is not answered OK does nothing; a dropped one is reported; a register
with no action of its own takes its P bits and its M bits under their mask; a write of the current SEQ clears status
bits. -/
def Obligations.RegisterWrites : Prop :=
  (∀ s (w : RegWrite), portTakes s = true → w.agent < 3 → writeCode s w ≠ 0 →
    exec (.registerWrite w) s = .next ((s.answer w.agent (writeCode s w) 0).accessWakes)) ∧
  (∀ s w r i, Written s w r i → r.sBits = 0 → (r.pBits ≠ 0 ∨ r.mBits ≠ 0) → r.base ≠ Reg.regIndClaim.base →
    dropReason s r (s.stored r i) (r.merge (s.stored r i) w.data) w.data ≠ 0 →
    exec (.registerWrite w) s =
      .next ((s.reportDrop (dropReason s r (s.stored r i) (r.merge (s.stored r i) w.data) w.data) w.agent (canonOffset w.offset)).okWrite w)) ∧
  (∀ s w r i, Written s w r i → r.sBits = 0 → (r.pBits ≠ 0 ∨ r.mBits ≠ 0) → actionRegs.contains r.base = false →
    dropReason s r (s.stored r i) (r.merge (s.stored r i) w.data) w.data = 0 → s.regs.wf = true → s.evm.regs.wf = true →
    exec (.registerWrite w) s = .next ((s.putReg r i (r.merge (s.stored r i) w.data)).okWrite w) ∧
      (s.putReg r i (r.merge (s.stored r i) w.data)).stored r i = r.merge (s.stored r i) w.data) ∧
  (∀ s w r i, Written s w r i → r.sBits ≠ 0 →
    (bits w.data 24 8 = bits (s.rd r i) 24 8 → exec (.seqWriteBack w) s =
      .next (((s.wr r i (s.rd r i &&& ~~~(BitVec.ofNat 32 (r.sBits % 2 ^ 24)))).refreshEvm).okWrite w)) ∧
    (bits w.data 24 8 ≠ bits (s.rd r i) 24 8 → exec (.seqWriteBack w) s = .next (s.okWrite w))) ∧
  (∀ s w, Written s w .errFatal 0 → bits w.data 24 8 = bits (s.rd .errFatal 0) 24 8 → s.regs.wf = true →
    ∃ u : State, exec (.errFatalWriteBack w) s = .next (u.okWrite w) ∧ bits (u.rd .errFatal 0) 0 18 = 0 ∧
      bits (u.rd .errFatal 0) 24 8 = bits (s.rd .errFatal 0) 24 8)

/-- R481, R482, R494, R495: what reads return, that a read with SEQ notes it, and that data reads and writes of a pair
move its WORD by STRIDE. -/
def Obligations.RegisterReads : Prop :=
  (∀ s (r : RegRead), ReadTaken s r → reaches' r.offset .telTbLo = false → reaches' r.offset .regIndData = false →
    ∃ u : State, exec (.sClassRead r) s = .next ((u.answer r.agent 0 (readReg s r.agent (canonOffset r.offset))).accessWakes) ∧
      u = { s with lastRead := u.lastRead } ∧ (reachesS (canonOffset r.offset) = false → u = s) ∧
      (reachesS (canonOffset r.offset) = true →
        u.lastRead.find? (fun x => x.1 == r.agent && x.2.1 == canonOffset r.offset) =
          some (r.agent, canonOffset r.offset, bits (readReg s r.agent (canonOffset r.offset)) 24 8))) ∧
  (∀ s (r : RegRead), portTakes s = true → r.agent < 3 → readCode s r ≠ 0 → reaches' r.offset .telTbLo = false →
    reaches' r.offset .regIndData = false →
    exec (.sClassRead r) s = .next ((s.answer r.agent (readCode s r) 0).accessWakes)) ∧
  (∀ s (r : RegRead) p, ReadTaken s r → dataPair (canonOffset r.offset) = some p → s.regs.wf = true →
    ∃ u : State, exec (.indDataRead r) s = .next ((u.answer r.agent 0 (indRead s (indSpace s p) (indWord s p))).accessWakes) ∧
      u = { s with regs := u.regs } ∧ indWord u p = (indWord s p + indStride s p) % 2 ^ 20) ∧
  (∀ s w p, Written s w .regIndData p → indSpace s p = 0 → indWord s p < 65536 → indWord s p % 16 < 13 → setupLocked s = false →
    refusing s = false → s.regs.wf = true → s.is0.wf = true →
    ∃ u : State, exec (.indDataWrite w) s = .next (u.okWrite w) ∧
      u.is0.get (indWord s p) = w.data &&& ~~~(BitVec.ofNat 32 (imageReserved (indWord s p % 16))) ∧
      (∀ k, k ≠ indWord s p → u.is0.get k = s.is0.get k) ∧ indWord u p = (indWord s p + indStride s p) % 2 ^ 20)

/-- R399: a read of TEL_TB_LO returns bits [31:0] of the counter and latches bits [63:32] for the reading agent, whose
own latch a read of TEL_TB_HI returns; no other agent's latch changes. -/
def Obligations.TimebaseReads : Prop :=
  (∀ s (r : RegRead), ReadTaken s r → reaches' r.offset .telTbLo = true →
    ∃ u : State, exec (.tbLoRead r) s = .next ((u.answer r.agent 0 (s.timebase.setWidth 32)).accessWakes) ∧
      u = { s with tbLatch := u.tbLatch } ∧ assocGet u.tbLatch r.agent = some ((s.timebase >>> 32).setWidth 32) ∧
      ∀ a, a ≠ r.agent → assocGet u.tbLatch a = assocGet s.tbLatch a) ∧
  (∀ s (r : RegRead) v, ReadTaken s r → reaches' r.offset .telTbHi = true → assocGet s.tbLatch r.agent = some v →
    exec (.sClassRead r) s = .next ((s.answer r.agent 0 v).accessWakes))

/-- R484: LOCK_SETUP is 0 after rst_n; a write without the protected attribute does not change it, is answered PROT and
is not reported; a write of 1 sets it; a write of 0 changes nothing, and one of 1 to the bit already set changes nothing
but reports LOCKED. -/
def Obligations.LockSetup : Prop :=
  setupLocked State.reset = false ∧
  (∀ s t, exec .rstNFall s = .next t → setupLocked t = false) ∧
  (∀ s (w : RegWrite), portTakes s = true → w.agent < 3 → reaches' w.offset .regLock = true → w.prot = false →
    ∃ t, exec (.registerWrite w) s = .next t ∧ t.rd .regLock 0 = s.rd .regLock 0 ∧ t.rd .regErr 0 = s.rd .regErr 0 ∧
      t.rd .regErrCount 0 = s.rd .regErrCount 0 ∧
      (w.parityOk = true → hangCuts s (canonOffset w.offset) = false → s.fatal = false → s.mode ≠ .bringup → s.mode ≠ .rest →
        t.resp = some { agent := w.agent, code := 2, data := 0 })) ∧
  (∀ s w, Written s w .regLock 0 → s.regs.wf = true →
    (bit w.data 0 = true → setupLocked s = false →
      exec (.lockSetup w) s = .next ((s.wr .regLock 0 1).okWrite w) ∧ setupLocked (s.wr .regLock 0 1) = true) ∧
    (bit w.data 0 = true → setupLocked s = true →
      exec (.lockSetup w) s = .next ((s.reportDrop 2 w.agent (canonOffset w.offset)).okWrite w) ∧
      (s.reportDrop 2 w.agent (canonOffset w.offset)).rd .regLock 0 = s.rd .regLock 0) ∧
    (bit w.data 0 = false → exec (.registerWrite w) s = .next (s.okWrite w)))

/-- R493: a free pair is claimed by a write of HELD = 1 with the access's own agent ID; a held pair is freed by its
holder's write of HELD = 0; every other write is dropped with REASON CLAIM (3). -/
def Obligations.PairClaims : Prop :=
  ∀ s w p, Written s w .regIndClaim p → p < 4 → s.regs.wf = true →
    (bit (s.rd .regIndClaim p) 2 = false → bit w.data 2 = true → bits w.data 0 2 = w.agent →
      ∃ u : State, exec (.indClaim w) s = .next (u.okWrite w) ∧ u = { s with regs := u.regs } ∧ holds u p w.agent = true ∧
        ∀ q, q < 4 → q ≠ p → u.rd .regIndClaim q = s.rd .regIndClaim q) ∧
    (holds s p w.agent = true → bit w.data 2 = false →
      ∃ u : State, exec (.indClaim w) s = .next (u.okWrite w) ∧ u = { s with regs := u.regs } ∧ bit (u.rd .regIndClaim p) 2 = false ∧
        ∀ q, q < 4 → q ≠ p → u.rd .regIndClaim q = s.rd .regIndClaim q) ∧
    (¬(bit (s.rd .regIndClaim p) 2 = false ∧ bit w.data 2 = true ∧ bits w.data 0 2 = w.agent) →
      ¬(holds s p w.agent = true ∧ bit w.data 2 = false) →
      exec (.indClaim w) s = .next ((s.reportDrop 3 w.agent (canonOffset w.offset)).okWrite w) ∧
      (s.reportDrop 3 w.agent (canonOffset w.offset)).rd .regIndClaim p = s.rd .regIndClaim p ∧
      bits ((s.reportDrop 3 w.agent (canonOffset w.offset)).rd .regErr 0) 0 4 = 3)

/-- R478, R489, R490, R349, R529: an access that its domain does not take is GATED, unless an earlier row answers it; a parity fault
reloads the flop from its shadow, and with a bad shadow is FATAL on the set-up pages and else resets the register; the walker reports
what it finds; an agent's reset frees its pairs and latches. -/
def Obligations.RegisterFaults : Prop :=
  (∀ s agent offset, agent < 3 → portTakes s = true → readCode s { agent := agent, offset := offset, prot := true, parityOk := true } ≠ 0 →
    exec (.regAccessCeil agent offset) s = .next
      ((s.answer agent (readCode s { agent := agent, offset := offset, prot := true, parityOk := true }) 0).accessWakes)) ∧
  (∀ s agent offset, agent < 3 → portTakes s = true → readCode s { agent := agent, offset := offset, prot := true, parityOk := true } = 0 →
    s.fatal = false → s.errQ.length < 64 →
    ∃ u : State, exec (.regAccessCeil agent offset) s = .next ((u.answer agent 1 0).accessWakes) ∧
      u = { s with regs := u.regs, errQ := u.errQ } ∧ Logged s u (mkErr 3 1 0x4D 0 0 63 0 0 (canonOffset offset) agent)) ∧
  (∀ s target flop x, targetOf target = some x → awake s → s.regs.wf = true →
    ∃ t, exec (.regParityFault target flop false) s = .next t ∧ t = { s with regs := t.regs, errQ := t.errQ } ∧
      bit (t.rd .regShadowStat 0) 0 = true ∧ t.rd .regReloads 0 = s.rd .regReloads 0 + 1) ∧
  (∀ s target flop x, targetOf target = some x → awake s → (target / 0x1000 = 1 ∨ target / 0x1000 = 7) → s.regs.wf = true →
    ∃ t, exec (.regParityFault target flop true) s = .next t ∧ t.fatal = true ∧ t.acc = [] ∧ t.held = [] ∧ t.evOut = [] ∧
      bit (t.rd .errFatal 0) 0 = true ∧ bits (t.rd .errFatal 0) 2 16 = target % 2 ^ 16) ∧
  (∀ s target flop w, targetOf target = some (.is0 w) → awake s → s.errQ.length < 64 → s.regs.wf = true → s.is0.wf = true →
    ∃ t, exec (.regParityFault target flop true) s = .next t ∧
      t = { s with is0 := s.is0.put (16 * (w / 16) + w % 16) 0, regs := t.regs, errQ := t.errQ } ∧ t.is0.get w = 0 ∧
      bit (t.rd .regShadowStat 0) 1 = true ∧ Logged s t (mkErr 3 (targetDomain target) 0x47 0 0 63 0 0 target 1)) ∧
  (∀ s target x, targetOf target = some x → awake s → s.errQ.length < 64 → s.regs.wf = true →
    exec (.shadowScrub target .clean) s = .next s ∧
    (∃ t, exec (.shadowScrub target .corrected) s = .next t ∧ t = { s with regs := t.regs } ∧
      t.fld .regShadowStat 0 2 6 = (s.fld .regShadowStat 0 2 6 + 1) % 64) ∧
    (∃ t, exec (.shadowScrub target .uncorrectable) s = .next t ∧ t = { s with regs := t.regs, errQ := t.errQ } ∧
      bit (t.rd .regShadowStat 0) 1 = true ∧ Logged s t (mkErr 3 (targetDomain target) 0x47 0 0 63 0 0 target 0))) ∧
  (∀ s agent, agent < 3 → awake s → s.fld .admQStat 0 4 2 ≠ agent → s.regs.wf = true →
    ∃ t, exec (.agentReset agent) s = .next t ∧ t = { s with regs := t.regs, tbLatch := t.tbLatch, lastRead := t.lastRead } ∧
      (∀ p, p < 4 → holds t p agent = false) ∧ assocGet t.tbLatch agent = none ∧
      ∀ p b, p < 4 → b ≠ agent → holds s p b = true → holds t p b = true)

/-- R275, R280, R395, R454, R464, R468, R217, R431: the writes that act on the admin queue, the timebase, clocks, power,
fault injection and the federation. -/
def Obligations.SystemWrites : Prop :=
  (∀ s w, Written s w .admQCtl 0 → bit w.data 20 = true → bit w.data 4 = true → bit (s.rd .admQCtl 0) 4 = false →
    dropReason s .admQCtl (s.stored .admQCtl 0) (Reg.admQCtl.merge (s.stored .admQCtl 0) w.data) w.data = 0 → s.regs.wf = true →
    ∃ u : State, exec (.admQEnableSet w) s = .next (u.okWrite w) ∧ admState u = 1 ∧ u.fld .admQStat 0 4 2 = w.agent ∧ u.staged = [] ∧
      u.adm.f = 0 ∧ u.adm.q = 0 ∧ u.adm.piSeen = 0 ∧ u.adm.cmd = none ∧ bit (u.rd .admQCtl 0) 4 = true) ∧
  (∀ s w, Written s w .admQCtl 0 → bit w.data 20 = true → bit w.data 4 = false → bit (s.rd .admQCtl 0) 4 = true →
    dropReason s .admQCtl (s.stored .admQCtl 0) (Reg.admQCtl.merge (s.stored .admQCtl 0) w.data) w.data = 0 →
    1 ≤ admState s → admState s ≤ 3 → s.regs.wf = true →
    ∃ u : State, exec (.admQEnableClear w) s = .next (u.okWrite w) ∧ u.adm.cmd = s.adm.cmd ∧ u.adm.slotActive = false ∧
      (s.adm.cmd = none → admState u = 0 ∧ u.staged = []) ∧ (s.adm.cmd.isSome = true → admState u = 4)) ∧
  (∀ s w, Written s w .telTbAdj 0 → dropReason s .telTbAdj (s.stored .telTbAdj 0) (Reg.telTbAdj.merge (s.stored .telTbAdj 0) w.data) w.data = 0 →
    ∃ u : State, exec (.tbAdjWrite w) s = .next (u.okWrite w) ∧ u.timebase = s.timebase + w.data.signExtend 64 ∧ u.tbFrac = s.tbFrac ∧
      u.slots = s.slots ∧ u.ways = s.ways) ∧
  (∀ s w, Written s w .telTbRate 0 →
    dropReason s .telTbRate (s.stored .telTbRate 0) (Reg.telTbRate.merge (s.stored .telTbRate 0) w.data) w.data = 0 → s.regs.wf = true →
    ∃ u : State, exec (.tbRateWrite w) s = .next (u.okWrite w) ∧ u.rd .telTbRate 0 = w.data ∧ u.tbFrac = 0 ∧ u.timebase = s.timebase) ∧
  (∀ s w p, Written s w .clkPllCmd 0 →
    dropReason s .clkPllCmd (s.stored .clkPllCmd 0) (Reg.clkPllCmd.merge (s.stored .clkPllCmd 0) w.data) w.data = 0 →
    s.regs.wf = true → s.rd .clkPllCmd 0 = 0 →
    ∃ u : State, exec (.pllRestart w) s = .next (u.okWrite w) ∧ u = { s with regs := u.regs, plls := u.plls } ∧
      pllState u p = (if bit w.data (flag p) && bit w.data (16 + flag p) && (decide (pllState s p = 0) || decide (pllState s p = 4)) then 1
        else pllState s p)) ∧
  (∀ s w, Written s w .pwrCtl 0 →
    dropReason s .pwrCtl (s.stored .pwrCtl 0) (Reg.pwrCtl.merge (s.stored .pwrCtl 0) w.data) w.data = 0 → s.regs.wf = true →
    ∃ u : State, exec (.pLevelChange w) s = .next (u.okWrite w) ∧ u = { s with regs := u.regs, pchange := u.pchange } ∧ levelWanted u = bits w.data 0 2 ∧
      ((s.pchange.isSome = true ∨ s.mode = .rest ∨ s.restEnter = 2) → u.pchange = s.pchange ∧ inForce u = inForce s ∧ reqLevel u = reqLevel s) ∧
      (s.pchange = none → s.mode ≠ .rest → s.restEnter ≠ 2 → cluSwitching s = true → ¬(inForce s = bits w.data 0 2 ∧ reqLevel s = bits w.data 0 2) →
        inForce u = inForce s ∧ reqLevel u = reqLevel s ∧ bit (u.rd .pwrStat 0) 4 = true ∧
        u.pchange = some { target := bits w.data 0 2, up := false, due := s.nomNs, late := false, held := true }) ∧
      (s.pchange = none → s.mode ≠ .rest → s.restEnter ≠ 2 → cluSwitching s = false → ackLate s = false → bits w.data 0 2 < inForce s →
        reqLevel s ≠ bits w.data 0 2 → inForce u = inForce s ∧ reqLevel u = bits w.data 0 2 ∧ bit (u.rd .pwrStat 0) 4 = true ∧
        u.pchange = some { target := bits w.data 0 2, up := true, due := s.nomNs + ackCeilNs u, late := false, held := false }) ∧
      (s.pchange = none → s.mode ≠ .rest → s.restEnter ≠ 2 → cluSwitching s = false → ackLate s = false → inForce s < bits w.data 0 2 →
        inForce u = bits w.data 0 2 ∧ reqLevel u = bits w.data 0 2)) ∧
  (∀ s w, Written s w .clkGate 0 →
    dropReason s .clkGate (s.stored .clkGate 0) (Reg.clkGate.merge (s.stored .clkGate 0) w.data) w.data = 0 → s.regs.wf = true → s.mode ≠ .rest →
    ∃ u : State, exec (.clkGateWrite w) s = .next (u.okWrite w) ∧ u.rd .clkGate 0 = Reg.clkGate.merge (s.rd .clkGate 0) w.data ∧
      (∀ i, i < 25 → bit w.data i = true → bit (u.rd .clkGateStat 0) i = true) ∧
      (∀ i, i < 16 → bit w.data i = false → bit (u.rd .clkGateStat 0) i = bit (s.rd .clkGateStat 0) i) ∧
      (∀ i, 16 ≤ i → i < 25 → bit w.data i = false → bit (u.rd .clkGateStat 0) i = false) ∧ u.slots = s.slots ∧ (s.ctxWait = [] → u.ways = s.ways)) ∧
  (∀ s w i, Written s w .cluEccInj i → i < 16 →
    dropReason s .cluEccInj (s.stored .cluEccInj i) (Reg.cluEccInj.merge (s.stored .cluEccInj i) w.data) w.data = 0 → s.regs.wf = true →
    ∃ u : State, exec (.eccInj w) s = .next (u.okWrite w) ∧ u = { s with regs := u.regs } ∧
      u.rd .cluEccInj i = Reg.cluEccInj.merge (s.rd .cluEccInj i) w.data) ∧
  (∀ s w, Written s w .fedResync 0 →
    dropReason s .fedResync (s.stored .fedResync 0) (Reg.fedResync.merge (s.stored .fedResync 0) w.data) w.data = 0 → s.regs.wf = true →
    fedState s = 3 → heardPeers s ≠ [] → w.data.toNat = (heardPeers s).foldl (fun m x => max m x.epoch.toNat) 0 →
    (∀ x ∈ heardPeers s, x.epoch.toNat = w.data.toNat → x.hash = s.fed.hash) →
    ∃ u : State, exec (.fedResyncWrite w) s = .next (u.okWrite w) ∧ fedState u = 2 ∧ u.rd .fedEpoch 0 = w.data ∧ bit (u.rd .fedStat 0) (5 + ownMember s) = true ∧
      u.queues = s.queues) ∧
  (∀ s w, Written s w .fedResync 0 →
    dropReason s .fedResync (s.stored .fedResync 0) (Reg.fedResync.merge (s.stored .fedResync 0) w.data) w.data = 0 → s.regs.wf = true →
    fedState s ≠ 3 →
    ∃ u : State, exec (.fedResyncWrite w) s = .next (u.okWrite w) ∧ u = { s with regs := u.regs } ∧ u.rd .fedResync 0 = w.data)

/-- R383, R389, R504, R505, R543, R545, R551, R554, R555: the writes that act on the event matrix, the debug unit, the
mode and the test unit. R551, R554, R558: a run of MBIST ends with its results and leaves the tested macros zero; an
injected error inverts a bit of the unit's next beat, which its checker counts; a checker gains SYNC and loses it, the loss
counted and, on a link outside TEST, its beats in IDLE_ERR. Which commands fall in one EVM cycle, for R383, is the model's choice
(log entry 48). -/
def Obligations.UnitWrites : Prop :=
  (∀ s w i, Written s w .evmWflag i →
    dropReason s .evmWflag (s.stored .evmWflag i) (Reg.evmWflag.merge (s.stored .evmWflag i) w.data) w.data = 0 →
    exec (.evmWflagWrite w) s = .next
      ((((s.wr .evmWflag i (Reg.evmWflag.merge (s.rd .evmWflag i) w.data)).setsWin i).refreshEvm).okWrite w) ∧
      ∀ k, k < 16 → bit (Reg.evmWflag.merge (s.rd .evmWflag i) w.data) k = (if bit w.data (16 + k) then bit w.data k else bit (s.rd .evmWflag i) k)) ∧
  (∀ s w i, Written s w .evmLineCtl i →
    dropReason s .evmLineCtl (s.stored .evmLineCtl i) (Reg.evmLineCtl.merge (s.stored .evmLineCtl i) w.data) w.data = 0 → s.evm.regs.wf = true →
    ∃ v : State, exec (.evmLineCtlWrite w) s = .next ((v.refreshEvm).okWrite w) ∧ v = { s with evm := v.evm, evmPend := v.evmPend, lines := v.lines } ∧
      lineCtl v.evm (2 * i) = bits w.data 0 16 ∧ lineCtl v.evm (2 * i + 1) = bits w.data 16 16 ∧
      (lineOf v (2 * i)).masked = false ∧ (lineOf v (2 * i + 1)).masked = false ∧
      (∀ l, l ≠ 2 * i → l ≠ 2 * i + 1 → lineOf v l = lineOf s l)) ∧
  (∀ s w, Written s w .dbgMemCtl 0 → bit w.data 23 = true →
    dropReason s .dbgMemCtl (s.stored .dbgMemCtl 0) (Reg.dbgMemCtl.merge (s.stored .dbgMemCtl 0) w.data) w.data = 0 → s.regs.wf = true →
    ∃ u : State, exec (.dbgMemGo w) s = .next (u.okWrite w) ∧ (∃ m, PortsOnly { s with regs := m } u) ∧ u.rd .dbgMemStat 0 = 1 ∧
      bit (u.rd .dbgMemCtl 0) 23 = false ∧
      Offered u .debug (bit w.data 10) (dbgAddr s) (bits w.data 4 6 + 1) (if bit w.data 10 then (dbgBytes s).take (bits w.data 4 6 + 1) else [])) ∧
  (∀ s w, Written s w .dbgPoll 0 → bit w.data 12 = true →
    dropReason s .dbgPoll (s.stored .dbgPoll 0) (Reg.dbgPoll.merge (s.stored .dbgPoll 0) w.data) w.data = 0 →
    ∃ v : State, exec (.dbgPollGo w) s = .next ((v.kickPoll (bits w.data 0 12) true).okWrite w) ∧ v = { s with regs := v.regs } ∧
      (s.instState (bits w.data 0 12) = 0 ∨ s.mode = .configure ∨ s.mode = .test → v.kickPoll (bits w.data 0 12) true = v) ∧
      (bits w.data 0 12 = 0 → s.instState 0 ≠ 0 → s.mode ≠ .configure → s.mode ≠ .test → (v.kickPoll 0 true).adm.kick = true) ∧
      (s.instState (bits w.data 0 12) ≠ 0 → s.mode ≠ .configure → s.mode ≠ .test → canPoll v (bits w.data 0 12) = false →
        (pollOf (v.kickPoll (bits w.data 0 12) true) (bits w.data 0 12)).kept = true ∧
        (pollOf (v.kickPoll (bits w.data 0 12) true) (bits w.data 0 12)).keptDbg = true)) ∧
  (∀ s w, Written s w .glbMode 0 →
    dropReason s .glbMode (s.stored .glbMode 0) (Reg.glbMode.merge (s.stored .glbMode 0) w.data) w.data = 0 → s.ways.any (fun x => x.dirty) = false →
    (bits w.data 8 3 = 3 → s.mode = .configure → ∃ u : State, exec (.modeReqRun w) s = .next (u.okWrite w) ∧
      u = { s with regs := u.regs, modeNext := some .run }) ∧
    (bits w.data 8 3 = 2 → s.mode ≠ .configure → ∃ u : State, exec (.modeReqConfigure w) s = .next (u.okWrite w) ∧
      u = { s with regs := u.regs, modeNext := some .configure }) ∧
    (bits w.data 8 3 = 5 → s.mode = .configure → ∃ u : State, exec (.modeReqTest w) s = .next (u.okWrite w) ∧
      u = { s with regs := u.regs, modeNext := some .test }) ∧
    (bits w.data 8 3 = s.mode.code → bits w.data 8 3 = 3 → ∃ u : State, exec (.modeReqRun w) s = .next (u.okWrite w) ∧ u = { s with regs := u.regs })) ∧
  (∀ s w, Written s w .glbMode 0 → setupLocked s = false → modeReqBusy s (bits w.data 8 3) = true → bits w.data 8 3 = 3 →
    exec (.modeReqRun w) s = .next ((s.reportDrop 1 w.agent (canonOffset w.offset)).okWrite w)) ∧
  (∀ s w, Written s w .tstMbistCtl 0 → bit w.data 20 = true → s.mode = .test →
    dropReason s .tstMbistCtl (s.stored .tstMbistCtl 0) (Reg.tstMbistCtl.merge (s.stored .tstMbistCtl 0) w.data) w.data = 0 → s.regs.wf = true →
    ∃ u : State, exec (.mbistGo w) s = .next (u.okWrite w) ∧ u = { s with regs := u.regs, mbist := some (bits w.data 0 19, bit w.data 19) } ∧
      u.rd .tstMbistStat 0 = 1 ∧ bit (u.rd .tstMbistCtl 0) 20 = false) ∧
  (∀ s w, Written s w .tstCtl 0 →
    dropReason s .tstCtl (s.stored .tstCtl 0) (Reg.tstCtl.merge (s.stored .tstCtl 0) w.data) w.data = 0 → s.regs.wf = true →
    ∃ u : State, exec (.tstRun w) s = .next (u.okWrite w) ∧ bit (u.rd .tstCtl 0) 0 = bit w.data 0 ∧
      (bit w.data 0 = true → bit (s.rd .tstCtl 0) 0 = false → ∀ k, 16 ≤ k → k < 19 → bit (u.rd .tstUnitStat k) 0 = false) ∧
      (bit w.data 0 = false → bit (s.rd .tstCtl 0) 0 = true → u = { s with regs := u.regs } ∧ ∀ k, k < 16 → bit (u.rd .tstUnitStat k) 0 = false) ∧
      (bit w.data 0 = bit (s.rd .tstCtl 0) 0 → u = { s with regs := u.regs })) ∧
  (∀ s w i, Written s w .tstUnitCtl i → i < 19 → bit w.data 7 = true →
    dropReason s .tstUnitCtl (s.stored .tstUnitCtl i) (Reg.tstUnitCtl.merge (s.stored .tstUnitCtl i) w.data) w.data = 0 → s.regs.wf = true →
    bits w.data 0 7 = bits (s.rd .tstUnitCtl i) 0 7 →
    (s.mode ≠ .test → ∃ u : State, exec (.tstInj w) s = .next (u.okWrite w) ∧ u = { s with regs := u.regs } ∧ bit (u.rd .tstUnitCtl i) 7 = true) ∧
    (unitRuns s i = true → (16 ≤ i ∨ bits w.data 0 3 = 1) →
      ∃ u : State, exec (.tstInj w) s = .next (u.okWrite w) ∧ u = { s with regs := u.regs } ∧ bit (u.rd .tstUnitCtl i) 7 = true)) ∧
  (∀ (s : State) i, i < 16 → unitRuns s i = true → unitMode s i = 1 → unitGen s i = true → unitChk s i = true →
    s.suspect.contains 26 = false → (tunitOf s i).gen = (tunitOf s i).chk → s.regs.wf = true →
    ∃ t, s.portLoop i = t ∧ t = { s with regs := t.regs, tunits := t.tunits } ∧ bit (t.rd .tstUnitCtl i) 7 = false ∧
      (tunitOf t i).gen = (tunitOf t i).chk ∧
      (t.rd .tstUnitErrs i).toNat = min (2 ^ 32 - 1) ((s.rd .tstUnitErrs i).toNat + flag (bit (s.rd .tstUnitCtl i) 7))) ∧
  (∀ s sel repair, s.mbist = some (sel, repair) → s.mode = .test → s.fatal = false → s.regs.wf = true →
    ∃ t, exec (.mbistRunDone []) s = .next t ∧ t.mbist = none ∧ bit (t.rd .tstMbistStat 0) 0 = false ∧ bit (t.rd .tstMbistStat 0) 1 = true ∧
      (sel.testBit 16 = true → t.ways = []) ∧ (sel.testBit 17 = true → t.ckpt = []) ∧
      (sel.testBit 16 = false → t.ways = s.ways) ∧ (sel.testBit 17 = false → t.ckpt = s.ckpt)) ∧
  (∀ s u, u < 19 → linkChecks s u = true → s.regs.wf = true →
    ∃ t, exec (.syncGained u) s = .next t ∧ t = { s with regs := t.regs } ∧ bit (t.rd .tstUnitStat u) 0 = true) ∧
  (∀ s u, u < 19 → linkChecks s u = true → bit (s.rd .tstUnitStat u) 0 = true → s.regs.wf = true →
    ∃ t, exec (.syncLost u) s = .next t ∧ bit (t.rd .tstUnitStat u) 0 = false ∧
      t.fld .tstUnitStat u 8 8 = (s.fld .tstUnitStat u 8 8 + 1) % 256 ∧
      (s.mode ≠ .test → t = { s with regs := t.regs, fed := t.fed } ∧
        t.fld .fedLinkStat (u - 16) 16 16 = (s.fld .fedLinkStat (u - 16) 16 16 + 16) % 65536) ∧
      (s.mode = .test → t = { s with regs := t.regs, freeCtr := s.freeCtr + 1 }))

/-! ## Clocks, power, modes -/

/-- A monitor window of PLL p counts inside its tolerance (R452) is written out here: |count − 5,120| ≤ TOL. R451 to
R455, R458, R460, R450, R466, R267: what windows, lost taps, the lock ceiling, hung switches and a lost reference do; a switch
of a cluster's clock waits while a change of level is under way, in the order of arrival (log entry 47). -/
def Obligations.ClockMonitors : Prop :=
  (∀ s p count, awake s → pllState s p ≠ 0 → pllState s p ≠ 4 → s.regs.wf = true →
    let inside := count ≤ 5120 + max 1 (s.fld .clkPllCtl 0 0 4) ∧ 5120 ≤ count + max 1 (s.fld .clkPllCtl 0 0 4)
    (pllState s p ≠ 1 → inside → ∃ t, exec (.pllWindowEnd p count) s = .next t ∧ t = { s with regs := t.regs } ∧
      pllState t p = pllState s p ∧ t.fld .clkMon 0 (16 * flag p) 16 = count % 65536) ∧
    (pllState s p = 1 → ¬inside → ∃ t, exec (.pllWindowEnd p count) s = .next t ∧ t = { s with regs := t.regs, plls := t.plls } ∧
      pllState t p = 1 ∧ (pllOf t p).clean = 0) ∧
    (pllState s p = 1 → inside → (pllOf s p).clean + 1 < 4 →
      ∃ t, exec (.pllWindowEnd p count) s = .next t ∧ t = { s with regs := t.regs, plls := t.plls } ∧ pllState t p = 1 ∧
        (pllOf t p).clean = (pllOf s p).clean + 1) ∧
    (pllState s p = 1 → inside → 4 ≤ (pllOf s p).clean + 1 →
      ∃ t, exec (.pllWindowEnd p count) s = .next t ∧ t = { s with regs := t.regs, plls := t.plls, clkWait := t.clkWait } ∧
        (curSource s ≠ 0 → isPrimary s p = true → (pllOf s p).tripped = false → pllState t p = 2 ∧ pllState t (!p) = 3 ∧
          ∀ d, (d ∈ domainsOn s 0 ∨ d ∈ domainsOn s (1 + flag (!p))) →
            if switchWaits s d then srcOf t d = srcOf s d ∧ (d, false) ∈ t.clkWait else srcOf t d = 1 + flag p) ∧
        (curSource s ≠ 0 → (isPrimary s p = false ∨ (pllOf s p).tripped = true) → pllState t p = 3 ∧ t.clkWait = s.clkWait ∧
          isPrimary t p = false) ∧
        (curSource s = 0 → pllState t p = 2 ∧ ∀ d ∈ domainsOn s 0,
          if switchWaits s d then srcOf t d = 0 ∧ (d, false) ∈ t.clkWait else srcOf t d = 1 + flag p)) ∧
    (pllState s p = 2 → ¬inside → pllState s (!p) = 3 →
      ∃ t, exec (.pllWindowEnd p count) s = .next t ∧ t = { s with regs := t.regs, plls := t.plls, clkWait := t.clkWait } ∧
        pllState t p = 1 ∧ pllState t (!p) = 2 ∧ t.fld .clkStat 0 8 8 = (s.fld .clkStat 0 8 8 + 1) % 256 ∧
        ∀ d ∈ domainsOn s (1 + flag p),
          if switchWaits s d then srcOf t d = 1 + flag p ∧ (d, false) ∈ t.clkWait else srcOf t d = 1 + flag (!p))) ∧
  (∀ s p, awake s → pllState s p = 2 → s.regs.wf = true →
    ∃ t, exec (.pllTapLost p) s = .next t ∧ t = { s with regs := t.regs, plls := t.plls, muxes := t.muxes, clkWait := t.clkWait } ∧
      pllState t p = 1 ∧ t.fld .clkStat 0 8 8 = (s.fld .clkStat 0 8 8 + 1) % 256 ∧ (∀ d, d < 28 → srcOf t d = srcOf s d) ∧
      t.muxes = s.muxes ++ ((domainsOn s (1 + flag p)).filter (fun d => !switchWaits s d)).map (fun d =>
        { domain := d, since := s.nomNs, ceil := max 1 (s.fld .clkMuxCtl 0 0 8) }) ∧
      t.clkWait = s.clkWait ++ ((domainsOn s (1 + flag p)).filter (fun d => switchWaits s d)).map (fun d => (d, true))) ∧
  (∀ s p, awake s → pllState s p = 3 → s.regs.wf = true →
    ∃ t, exec (.pllTapLost p) s = .next t ∧ t = { s with regs := t.regs, plls := t.plls } ∧ pllState t p = 1) ∧
  (∀ s p, awake s → pllState s p = 1 → (pllOf s p).due ≤ s.nomNs → s.errQ.length < 64 → s.regs.wf = true →
    ∃ t, exec (.pllLockCeil p) s = .next t ∧ t = { s with regs := t.regs, errQ := t.errQ } ∧ pllState t p = 4 ∧
      (∀ d, d < 28 → srcOf t d = srcOf s d) ∧
      Logged s t (mkErr 3 0 0x48 0 0 63 0 0 (flag p) (s.fld .clkMon 0 (16 * flag p) 16))) ∧
  (∀ s, awake s → s.regs.wf = true →
    ∃ t, exec .refclkLost s = .next t ∧ t = { s with regs := t.regs, fatal := true, acc := [], held := [], evOut := [] } ∧
      bit (t.rd .errFatal 0) 1 = true ∧ ∀ r i, r.addr i ≠ Reg.errFatal.addr 0 → t.rd r i = s.rd r i) ∧
  (∀ s d x, 1 ≤ d → d < 28 → s.muxes.find? (fun y => y.domain == d) = some x → awake s → s.regs.wf = true →
    s.errQ.length < 64 → (∀ e ∈ s.errQ, e.code ≠ 0x38) → x.since + 10 * x.ceil ≤ s.nomNs →
    ∃ u : State, u = { s with regs := u.regs, muxes := s.muxes.filter (fun y => y.domain != d), suspect := d :: s.suspect.filter (· != d) } ∧
      srcOf u d = curSource s ∧ u.fld .clkStat 0 16 8 = (s.fld .clkStat 0 16 8 + 1) % 256 ∧
      (2 ≤ d → d ≤ 17 → exec (.muxHangCeil d) s = .next (u.forceClu (d - 2)).heldLevel) ∧
      (¬(2 ≤ d ∧ d ≤ 17) → ∃ v : State, v = { u with regs := v.regs, errQ := v.errQ } ∧ Logged u v (mkErr 0 d 0x38 0 0 63 0 0 0 0) ∧
        (d = 18 → exec (.muxHangCeil d) s = .next v.forceSch) ∧ (d = 20 → exec (.muxHangCeil d) s = .next v.forceAdm) ∧
        (d ≠ 18 → d ≠ 20 → d ≠ 22 → d ≠ 26 → exec (.muxHangCeil d) s = .next v) ∧
        (d = 22 → ∃ t, exec (.muxHangCeil d) s = .next t ∧ t = { v with timebase := t.timebase, nomNs := t.nomNs } ∧
          t.nomNs = max s.nomNs (x.since + 10 * (x.ceil + 4)) ∧
          t.timebase = s.timebase + BitVec.ofNat 64 (20 + (t.nomNs - x.since))) ∧
        (d = 26 → ∃ t, exec (.muxHangCeil d) s = .next t ∧ t = { v with regs := t.regs } ∧
          ∀ k, 16 ≤ k → k < 19 → bit (t.rd .tstUnitStat k) 0 = false))) ∧
  (∀ s d, d < 28 → awake s → s.muxes.any (fun x => x.domain == d) = false →
    exec (.suspectClear d) s = .next { s with suspect := s.suspect.filter (· != d) })

/-- R463 to R466, R468: an awaited toggle completes a change of level, an unawaited one clears ACK_LATE; a change
without its toggle ends at the level in force with ACK_LATE set; switches that waited for its end then begin, and a change
that waited for a switch begins when none is left (R466); a disabled cluster with nothing left to do stops. -/
def Obligations.PowerLevels : Prop :=
  (∀ s, awake s → s.pchange.all (fun c => c.held) = true → s.regs.wf = true →
    ∃ t, exec .pwAckToggle s = .next t ∧ t = { s with pwAck := !s.pwAck, regs := t.regs } ∧ ackLate t = false ∧ inForce t = inForce s ∧
      reqLevel t = reqLevel s) ∧
  (∀ s c, awake s → s.pchange = some c → c.held = false → c.late = false → c.target < 4 → s.restEnter ≠ 2 → levelWanted s = c.target →
    s.regs.wf = true →
    ∃ t, exec .pwAckToggle s = .next t ∧
      t = { s with pwAck := !s.pwAck, regs := t.regs, pchange := none, clkWait := [], muxes := t.muxes } ∧
      inForce t = (if c.up then c.target else inForce s) ∧ bit (t.rd .pwrStat 0) 4 = false ∧
      (s.clkWait = [] → t.muxes = s.muxes) ∧ (∀ d, s.clkWait = [(d, false)] → 1 ≤ d → d < 28 → srcOf t d = curSource s) ∧
      (∀ d, s.clkWait = [(d, true)] → t.muxes = s.muxes ++ [{ domain := d, since := s.nomNs, ceil := max 1 (s.fld .clkMuxCtl 0 0 8) }])) ∧
  (∀ s c, s.pchange = some c → c.held = true →
    exec .pwAckCeil s = .next s ∧ (cluSwitching s = true → s.heldLevel = s) ∧ (cluSwitching s = false → s.restEnter ≠ 2 →
      let v := ({ (s.setFld .pwrStat 0 4 1 0) with pchange := none } : State).pStart (levelWanted s)
      s.heldLevel = if v.pchange.isSome then v else v.pEnd (levelWanted s))) ∧
  (∀ s c, awake s → s.pchange = some c → c.held = false → c.due ≤ s.nomNs → s.restEnter ≠ 2 → levelWanted s = c.target → s.regs.wf = true →
    s.errQ.length < 64 →
    ∃ t, exec .pwAckCeil s = .next t ∧
      t = { s with regs := t.regs, errQ := t.errQ, pchange := none, clkWait := [], muxes := t.muxes } ∧ inForce t = inForce s ∧
      (s.clkWait = [] → t.muxes = s.muxes) ∧
      ackLate t = true ∧ bit (t.rd .pwrStat 0) 4 = false ∧ Logged s t (mkErr 3 0 0x49 0 0 63 0 0 c.target (inForce s))) ∧
  (∀ s n, n < 16 → awake s → cluEn s n = false → bit (s.rd .clkGateStat 0) n = true → s.slots.any (fun x => x.clu == n) = false →
    portBusy s n = false → s.regs.wf = true →
    ∃ t, exec (.clusterClockStop n) s = .next t ∧ (∃ m, PortsOnly { s with regs := m } t) ∧ bit (t.rd .clkGateStat 0) n = false ∧
      ∀ k, k ≠ n → bit (t.rd .clkGateStat 0) k = bit (s.rd .clkGateStat 0) k)

/-- R470 to R474, R292: REST ends at the idle condition or at WAIT_US; its entry gates every domain; a wake counts its
cause, starts both PLLs, restarts the enabled domains after 10 µs and enters RUN after 40 µs. -/
def Obligations.RestAndWake : Prop :=
  (∀ s c since, restCmd s = some c → s.idleSince = some since → running s = true → restIdle s = true → since + idleNs s ≤ s.nomNs →
    exec .restIdleMet s = .next { (s.admEnd true 0 0 0 0 0) with restEnter := 1 }) ∧
  (∀ s c, restCmd s = some c → awake s → c.due ≤ s.nomNs → exec .restTimeout s = .next (s.admEnd true 0x46 0 0 0 0)) ∧
  (∀ s, awake s → s.mode = .run → s.restEnter = 1 → admUnacked s = [] → s.pchange.isSome = true →
    exec .restEntry s = .next { s with restEnter := 2 }) ∧
  (∀ s, awake s → s.mode = .run → s.restEnter = 2 → s.pchange = none → s.acc = [] → s.held = [] → s.polls = [] →
    s.wakePend = none → s.regs.wf = true →
    ∃ t, exec .restEntry s = .next t ∧ t.mode = .rest ∧ t.restEnter = 0 ∧ t.restAt = s.nomNs ∧ t.pwRest = true ∧ t.evOut = [] ∧
      t.rd .clkGateStat 0 = 0 ∧ (∀ d, 1 ≤ d → d < 28 → srcOf t d = 0) ∧ pllState t false = 0 ∧ pllState t true = 0 ∧
      (∀ k, k < 3 → lstate t k = 0) ∧ t.queues = s.queues ∧ t.ways = s.ways ∧ t.is0 = s.is0 ∧ t.nomNs = s.nomNs) ∧
  (∀ s cmd cause, (cmd = .wake (.event 0) ∧ bit (s.rd .pwrWakeCtl 0) 8 = true ∧ cause = 0 ∨
      cmd = .wake (.event 1) ∧ bit (s.rd .pwrWakeCtl 0) 17 = true ∧ cause = 0 ∨ cmd = .wake .access ∧ cause = 1 ∨
      cmd = .wakeTimer ∧ s.fld .pwrWakeTmr 0 0 30 ≠ 0 ∧ s.restAt + 1000000 * s.fld .pwrWakeTmr 0 0 30 ≤ s.nomNs ∧ cause = 2) →
    awake s → s.mode = .rest → s.restEnter ≠ 2 → s.wakeAt = none → s.regs.wf = true →
    ∃ t, exec cmd s = .next t ∧ t = { s with regs := t.regs, plls := t.plls, pwRest := false, wakeAt := some s.nomNs } ∧
      pllState t false = 1 ∧ pllState t true = 1 ∧ t.fld .pwrWakes 0 0 16 = (s.fld .pwrWakes 0 0 16 + 1) % 65536 ∧
      t.fld .pwrWakes 0 16 2 = cause) ∧
  (∀ s at0, s.wakeAt = some at0 → awake s → s.mode = .rest → at0 + 10000 ≤ s.nomNs → s.rd .clkGateStat 0 = 0 → s.regs.wf = true →
    ∃ t, exec .wakeRestart s = .next t ∧ t.mode = .rest ∧ t.rd .clkGateStat 0 = s.rd .clkGate 0 ∧ (∀ d, 1 ≤ d → d < 28 → srcOf t d = 0) ∧
      t.adm.nextPoll = at0 + 20480 ∧ t.queues = s.queues ∧ t.ways = s.ways) ∧
  (∀ s at0, s.wakeAt = some at0 → awake s → s.mode = .rest → at0 + 40000 ≤ s.nomNs → s.rd .clkGateStat 0 ≠ 0 →
    ∃ t, exec .wakeRun s = .next t ∧ t.mode = .run ∧ t.wakeAt = none ∧ t.queues = s.queues ∧ t.ways = s.ways ∧ t.is0 = s.is0)

/-- R533, R542, R543, R545 to R548, R351, R263: rst_n low resets everything but ERR_FATAL and the pins; bring-up starts
both PLLs and ends in CONFIGURE with the macros' results noted; a requested mode is entered. R540, R382: the outputs take
their straps where the block does not run, and an event output follows its lines and the periods of their edges. -/
def Obligations.ModesAndReset : Prop :=
  (∀ s, ∃ t, exec .rstNFall s = .next t ∧ t.mode = .reset ∧ t.rstN = false ∧ t.fatal = false ∧ t.rd .errFatal 0 = s.rd .errFatal 0 ∧
    (∀ (r : Reg) i, r.addr i ≠ Reg.errFatal.addr 0 → t.rd r i = BitVec.ofNat 32 r.reset) ∧ t.acc = [] ∧ t.slots = [] ∧ t.ways = [] ∧
    t.queues = [] ∧ t.records = [] ∧ t.errQ = [] ∧ t.staged = [] ∧ t.timebase = 0 ∧ t.evIn = s.evIn ∧ t.pwAck = s.pwAck ∧
    t.pending = s.pending) ∧
  (∀ s, s.rstN = false → s.regs.wf = true → ∃ t, exec .rstNRise s = .next t ∧
    t = { s with rstN := true, mode := .bringup, regs := t.regs, plls := t.plls } ∧ pllState t false = 1 ∧ pllState t true = 1) ∧
  (∀ s faults, s.mode = .bringup → awake s → s.regs.wf = true →
    ∃ t, exec (.bringupEnd faults) s = .next t ∧ t.mode = .configure ∧ bit (t.rd .glbStat 0) 0 = true ∧ t.is0 = s.is0) ∧
  (∀ s (f : MacroFault), s.mode = .bringup → awake s → s.regs.wf = true → s.is6.wf = true → f.num < nMacro →
    ∃ t, exec (.bringupEnd [f]) s = .next t ∧ macroResult t f.num = (mbistResult f).1 ∧
      (4 ≤ f.num → f.num < 164 → ((mbistResult f).1 = 0 ∨ (mbistResult f).1 = 3) → outOfService t ((f.num - 4) / 10) = true)) ∧
  (∀ s, awake s → s.modeNext = some .run → ∃ t, exec .modeTransitionDone s = .next t ∧ t.mode = .run ∧ t.modeNext = none ∧
    t.queues = s.queues ∧ t.ways = s.ways ∧ t.is0 = s.is0) ∧
  (∀ s, awake s → s.modeNext = some .configure → s.mode ≠ .test →
    (s.polls = [] → exec .modeTransitionDone s = .next { s with mode := .configure, modeNext := none }) ∧
    (s.polls ≠ [] → exec .modeTransitionDone s = .next s)) ∧
  (∀ s, awake s → s.modeNext = some .configure → s.mode = .test →
    ∃ t, exec .modeTransitionDone s = .next t ∧ t.mode = .configure ∧ t.modeNext = none ∧ t.ways = [] ∧ t.tunits = [] ∧ t.queues = s.queues) ∧
  (∀ s, awake s → s.modeNext = some .test → s.ways.any (fun w => w.dirty) = false → s.ways.any (fun w => wbBusy s w.qid) = false →
    s.regs.wf = true →
    ∃ t, exec .modeTransitionDone s = .next t ∧ t.mode = .test ∧ t.modeNext = none ∧ (∀ k, k < 3 → lstate t k = 0) ∧
      t.ways = s.ways ∧ t.queues = s.queues) ∧
  (∀ s k n, (s.rstN = false ∨ s.mode = .bringup ∨ s.mode = .rest ∧ s.wakeAt = none ∨ s.fatal = true) →
    evOutPin s k = s.strapEvOut.getLsbD k ∧ evOutHopPin s k = 0 ∧ fpActivePin s n = false ∧
    (s.fatal = false ∨ s.rstN = false → pwReqPin s = 3) ∧
    (s.rstN = false ∨ s.mode = .rest ∧ s.fatal = false → mbistPins s = (s.strapTst.getLsbD 0, s.strapTst.getLsbD 1))) ∧
  (∀ s k l, eventPins s = true → l ∈ routedLines s → reaches s.evm l k = true → (lineOf s l).masked = false →
    ((lineOf s l).level = true → lineDirect s.evm l = false → evOutPin s k = true) ∧
    (∀ e, e ∈ s.evIn → feeds s.evm (256 + e.1) l = true → lineDirect s.evm l = true → evOutPin s k = true) ∧
    (∀ n, n ∈ s.pulseHigh → feeds s.evm n l = true → lineDirect s.evm l = true → evOutPin s k = true)) ∧
  (∀ s k h, eventPins s = true → k < 256 →
    evOutPin (s.sinkEdge k [h]) k = true ∧ h.2 ≤ evOutHopPin (s.sinkEdge k [h]) k ∧
    ((∀ e ∈ s.evOut, e.2.1 ≤ s.nomNs + 4 * evmCycleNs s) →
      outPeriods { s.sinkEdge k [h] with nomNs := s.nomNs + 4 * evmCycleNs s } k = []))

/-! ## The federation and the test unit -/

/-- R444 to R447, R536, R559: RX_OK sends TRAIN, and with RX_OK on both sides the link is up; ACK frames release what they
acknowledge; a link in far-end loopback sends a frame back unchanged (R556); else a frame with an uncorrectable word does nothing, and
one with a corrected word is logged and taken as it was sealed; an owed acknowledgement is sent; late frames are sent again, sixteen
times; a link that fails goes down, is counted and logged, and trains. -/
def Obligations.Links : Prop :=
  (∀ s k, k < 3 → awake s → lstate s k = 1 → (linkOf s k).rxOk = false → (linkOf s k).farOk = false →
    ∃ t, exec (.rxOk k) s = .next t ∧ t = { s with fed := t.fed, txFrames := t.txFrames } ∧ (linkOf t k).rxOk = true ∧
      t.txFrames = s.txFrames ++ [(k, sealFrame (frameHeader 1 0 (linkOf s k).rxSeq (ownMember s) ((linkOf s k).far.getD 0) false
        (fedEpoch s) [(72, 1, 1)] []) [])]) ∧
  (∀ s k, k < 3 → awake s → lstate s k = 1 → (linkOf s k).rxOk = false → (linkOf s k).farOk = true → s.regs.wf = true →
    ∃ t, exec (.rxOk k) s = .next t ∧ lstate t k = 2) ∧
  (∀ s k f, FrameSound s k 1 f → bit f.header 72 = true → lstate s k = 1 → s.regs.wf = true →
    ((linkOf s k).rxOk = false → exec (.train k f) s = .next (s.putLink { linkOf s k with farOk := true })) ∧
    ((linkOf s k).rxOk = true → ∃ t, exec (.train k f) s = .next t ∧ lstate t k = 2)) ∧
  (∀ s k f, FrameSound s k 1 f → (bit f.header 72 = false ∨ lstate s k = 2) →
    ∃ t, exec (.train k f) s = .next t ∧ t = { s with fed := t.fed, txFrames := t.txFrames } ∧ (bit f.header 72 = false → t = s)) ∧
  (∀ s k f, FrameSound s k 9 f → exec (.ack k f) s = .next s) ∧
  (∀ s k f i, k < 3 → awake s → lstate s k ≠ 0 → s.mode ≠ .test → bits f.header 0 8 = 9 → f.checks = (sealFrame f.header f.payload).checks →
    frameSound f = true →
    (linkOf s k).unacked.findIdx? (fun t => t.seq == bits f.header 16 8) = some i → (linkOf s k).waiting = [] →
    exec (.ack k f) s = .next (s.putLink { linkOf s k with unacked := (linkOf s k).unacked.drop (i + 1) })) ∧
  (∀ s k raw, k < 3 → farLoop s k = true →
    let t := { s with txFrames := s.txFrames ++ [(k, raw)] }
    exec (.train k raw) s = .next t ∧ exec (.ack k raw) s = .next t ∧ exec (.manifest k raw) s = .next t ∧
    exec (.heartbeat k raw) s = .next t ∧ exec (.time k raw) s = .next t ∧ exec (.config k raw) s = .next t ∧
    exec (.configAck k raw) s = .next t ∧ exec (.doorbell k raw) s = .next t ∧ exec (.fenceFrame k raw) s = .next t) ∧
  (∀ s k raw, k < 3 → farLoop s k = false → frameMark raw = .uncorrectable →
    exec (.train k raw) s = .next s ∧ exec (.ack k raw) s = .next s ∧ exec (.manifest k raw) s = .next s ∧
    exec (.heartbeat k raw) s = .next s ∧ exec (.time k raw) s = .next s ∧ exec (.config k raw) s = .next s ∧
    exec (.configAck k raw) s = .next s ∧ exec (.doorbell k raw) s = .next s ∧ exec (.fenceFrame k raw) s = .next s) ∧
  (∀ s k raw, k < 3 → awake s → lstate s k ≠ 0 → s.mode ≠ .test → frameMark raw ≠ .uncorrectable →
    bits (fixedFrame raw).header 0 8 = 9 → frameSound (fixedFrame raw) = true →
    exec (.ack k raw) s = exec (.ack k (sealFrame (fixedFrame raw).header (fixedFrame raw).payload)) (s.logFrameWords k raw)) ∧
  (∀ s k, k < 3 → s.fatal = false → lstate s k = 2 → (linkOf s k).ackOwed = true →
    ∃ t, exec (.ackSend k) s = .next t ∧ t = { s with fed := t.fed, txFrames := t.txFrames } ∧ (linkOf t k).ackOwed = false ∧
      t.txFrames = s.txFrames ++ [(k, sealFrame (frameHeader 9 0 (linkOf s k).rxSeq (ownMember s) ((linkOf s k).far.getD 0) false
        (fedEpoch s) [] []) [])]) ∧
  (∀ s k x, k < 3 → lateFrame s k = some x → x.resends < 16 →
    ∃ t, exec (.linkRetryCeil k) s = .next t ∧ t = { s with fed := t.fed, txFrames := t.txFrames, regs := t.regs, errQ := t.errQ } ∧
      t.txFrames = s.txFrames ++ (linkOf s k).unacked.map (fun y => (k, sealFrame y.header y.payload)) ∧
      (linkOf t k).unacked.map (fun y => y.resends) = (linkOf s k).unacked.map (fun y => y.resends + 1)) ∧
  (∀ s k cmd, k < 3 → awake s → lstate s k = 2 → s.regs.wf = true → s.errQ.length < 64 →
    (cmd = .linkIdleErrLimit k ∨ cmd = .linkRxKindZero k ∨ cmd = .linkResendLimit k ∧ ∃ x, lateFrame s k = some x ∧ 16 ≤ x.resends) →
    ∃ t, exec cmd s = .next t ∧ t = { s with fed := t.fed, regs := t.regs, errQ := t.errQ } ∧ lstate t k = 1 ∧
      (linkOf t k).rxOk = false ∧ (linkOf t k).farOk = false ∧
      t.fld .fedLinkStat k 8 8 = (s.fld .fedLinkStat k 8 8 + 1) % 256 ∧ Logged s t (mkErr 3 (23 + k) 0x4A 0 0 63 0 0 k 0))

/-- R421, R423, R425 to R435, R443: what a frame that is taken does beside the acknowledgement it is owed: a manifest is
stored, a heartbeat marks its sender heard, a TIME request is answered by the reference and an answer gives the offset
(a half nanosecond left open, log entry 1), a whole CONFIG waits to be applied, a DOORBELL reaches its queue, a FENCE
takes effect. Where the hashes differ the ownership tables are settled: a queue that two members claim stays with the lower number,
and one given up is homed where its new owner is (the table's way to the member is the model's choice, log entry 37). -/
def Obligations.FederationFrames : Prop :=
  (∀ s k f, FrameTaken s k 2 f → (fedState s = 0 ∨ fedState s = 3 ∨ fedState s = 4) → f.payload.length = 2 → s.is7.wf = true →
    ∃ t, exec (.manifest k f) s = .next t ∧ t = { s with fed := t.fed, is7 := t.is7 } ∧ (memberOf t (frameSrc f)).manifest = true ∧
      (∀ b j, b < 2 → j < 8 → t.is7.get (16 * frameSrc f + 8 * b + j) = BitVec.ofNat 32 (bits (f.payload.getD b 0) (32 * j) 32)) ∧
      (linkOf t k).ackOwed = true ∧ (linkOf t k).rxSeq = bits f.header 8 8) ∧
  (∀ s k f, FrameTaken s k 3 f → (fedState s = 0 ∨ fedState s = 1 ∨ fedState s = 4) →
    ∃ t, exec (.heartbeat k f) s = .next t ∧ t = { s with fed := t.fed } ∧ (memberOf t (frameSrc f)).heardAt = some s.nomNs ∧
      (memberOf t (frameSrc f)).epoch = BitVec.ofNat 32 (bits f.header 40 32) ∧ (memberOf t (frameSrc f)).state = bits f.header 80 3 ∧
      (memberOf t (frameSrc f)).hash = BitVec.ofNat 64 (bits f.header 128 64) ∧ (memberOf t (frameSrc f)).silent = false ∧
      (linkOf t k).ackOwed = true) ∧
  (∀ s k f, FrameTaken s k 3 f → (fedState s = 2 ∨ fedState s = 3 ∨ fedState s = 5) →
    ∃ u : State, u = { s with fed := u.fed } ∧ (memberOf u (frameSrc f)).heardAt = some s.nomNs ∧
      exec (.heartbeat k f) s = .next
        (((u.takeHeartbeat (frameSrc f) (bits f.header 80 3) (bits f.header 40 32)).settleOwners (frameSrc f) f.owners).heldCheck)) ∧
  (∀ s m tb, ((memberOf s m).hash = s.fed.hash ∨ fedState s = 3 ∨ tb = []) → s.settleOwners m tb = s) ∧
  (∀ s m q, s.queues.contains q = true → homedAway s q = false → ownMember s < m → State.settleOwner m s (q, m) = s) ∧
  (∀ s m q, s.queues.contains q = true → homedAway s q = false → m < ownMember s → ctxOf s q = none →
    assocGet s.fed.yielding q = none → fedState s ≠ 5 → s.regs.wf = true →
    ∃ t : State, State.settleOwner m s (q, m) = t ∧ homeOf t q = m ∧
      t.fld .fedStat 0 16 8 = (s.fld .fedStat 0 16 8 + 1) % 256 ∧ t.fed.hash = s.fed.hash ^^^ hashTerm q (ownMember s) ^^^ hashTerm q m) ∧
  (∀ s m q n, s.queues.contains q = true → homeOf s q = m → m ≠ ownMember s → n ≠ m → State.settleOwner m s (q, n) = s.giveOwner q n) ∧
  (∀ s q n, n ≠ ownMember s → s.giveOwner q n = { s with fed := (s.giveOwner q n).fed } ∧ homeOf (s.giveOwner q n) q = n ∧
    (s.giveOwner q n).fed.hash = s.fed.hash ^^^ hashTerm q (homeOf s q) ^^^ hashTerm q n) ∧
  (∀ s k f, FrameTaken s k 4 f → bit f.header 72 = false →
    ((members s).head? = some (ownMember s) → exec (.time k f) s =
      .next ((s.frameIn k f).sendTo 4 (frameSrc f) [(72, 1, 1), (80, 8, bits f.header 80 8)]
        [BitVec.ofNat 256 (bits ((f.payload.head?).getD 0) 0 64 + 2 ^ 64 * s.timebase.toNat + 2 ^ 128 * s.timebase.toNat)])) ∧
    ((members s).head? ≠ some (ownMember s) → exec (.time k f) s = .next (s.frameIn k f))) ∧
  (∀ s k f n t0 d, FrameTaken s k 4 f → bit f.header 72 = true → s.fed.timeReq = some (n, t0) → n = bits f.header 80 8 →
    t0.toNat = bits ((f.payload.head?).getD 0) 0 64 → s.regs.wf = true →
    d = (bits ((f.payload.head?).getD 0) 64 64 : Int) - (t0.toNat : Int) -
      ((s.timebase.toNat : Int) - (bits ((f.payload.head?).getD 0) 128 64 : Int)) →
    ∃ (t : State) (off : Int), exec (.time k f) s = .next t ∧ t = { s with fed := t.fed, regs := t.regs, freeCtr := s.freeCtr + 1 } ∧
      (2 * off = d ∨ 2 * off = d - 1 ∨ 2 * off = d + 1) ∧ t.fed.offset = BitVec.ofInt 64 off ∧ t.fed.timeReq = none ∧
      (bit (t.rd .fedStat 0) 13 = true ↔ max 1 (s.fld .fedCtl 0 11 10) < off.natAbs)) ∧
  (∀ s k f, FrameTaken s k 5 f → (fedState s = 2 ∨ fedState s = 5) → bits f.header 88 8 = 0 → bit f.header 96 = true → s.fed.remote = none →
    ∃ t, exec (.config k f) s = .next t ∧ t = { s with fed := t.fed } ∧
      t.fed.remote = some (configCmd s (frameSrc f) (bits f.header 72 16) f.payload) ∧ t.fed.inbox = s.fed.inbox) ∧
  (∀ s k f, FrameTaken s k 5 f → (fedState s ≠ 2 ∧ fedState s ≠ 5) → exec (.config k f) s = .next (s.frameIn k f)) ∧
  (∀ s k f c, FrameTaken s k 6 f → s.adm.cmd = some c → bits c.idx 0 16 = bits f.header 72 16 →
    exec (.configAck k f) s = .next ((s.frameIn k f).memberAnswered (frameSrc f) (some (bits f.header 88 8, bits f.header 96 8)))) ∧
  (∀ (s : State) m c st de, s.adm.cmd = some c → c.acks = [m] → c.bad = none → c.phase = .members →
    (st = 0 → s.memberAnswered m (some (st, de)) = (s.putCmd true (some { c with acks := [] })).afterMembers true { c with acks := [] }) ∧
    (st ≠ 0 → cOp c ≠ 0x84 → cOp c ≠ 0x85 → cOp c ≠ 0x91 → s.memberAnswered m (some (st, de)) =
      (s.putCmd true (some { c with acks := [], bad := some (m, st, de) })).admEnd true 0 0 0 0 0)) ∧
  (∀ s k f, FrameTaken s k 7 f → serves s = true →
    (s.queues.contains (bits f.header 72 22) = false → exec (.doorbell k f) s = .next (s.frameIn k f)) ∧
    (s.queues.contains (bits f.header 72 22) = true → homedAway s (bits f.header 72 22) = true → exec (.doorbell k f) s =
      .next ((s.frameIn k f).forwardDoorbell (bits f.header 72 22) (BitVec.ofNat 64 (bits f.header 96 64)))) ∧
    (s.queues.contains (bits f.header 72 22) = true → homedAway s (bits f.header 72 22) = false → exec (.doorbell k f) s =
      .next ((s.frameIn k f).takeRecord (bits f.header 72 22) (BitVec.ofNat 64 (bits f.header 96 64))))) ∧
  (∀ s k f ms out, FrameTaken s k 8 f → (fedState s = 2 ∨ fedState s = 5) → fedEpoch s < bits f.header 72 32 →
    ms = (List.range 4).filter (fun m => bit f.header (104 + m)) → ms.contains (ownMember s) = true →
    out = ((List.range 4).filter (fun m => bit f.header (108 + m))).filter (fun m => (members s).contains m) →
    exec (.fenceFrame k f) s = .next ((s.frameIn k f).applyFence (bits f.header 72 32) ms out)) ∧
  (∀ (s : State) e ms, e < 2 ^ 32 → s.regs.wf = true → ms = (List.range 4).filter (fun m => ms.contains m) →
    fedEpoch (s.applyFence e ms []) = e ∧ members (s.applyFence e ms []) = ms)

/-- R426, R434 to R437: a member's heartbeat step writes its witness line; a line of a member that is not heard is read,
and one that stays unchanged for FED_HB_CEIL finds it silent; a member without acknowledged witness writes fences
itself; a fenced member's queues are adopted; a founder founds at JOIN_CEIL. -/
def Obligations.Membership : Prop :=
  (∀ s, awake s → (fedState s = 2 ∨ fedState s = 3 ∨ fedState s = 5) → s.fed.nextHb ≤ s.nomNs →
    ∃ t, exec .heartbeatSend s = .next t ∧ t.fed.witnessCnt = (s.fed.witnessCnt + 1) % 2 ^ 32 ∧ t.fed.nextHb = s.nomNs + hbStepNs s ∧
      Offered t .witnessWrite true (witnessAddr s (ownMember s)) 64
        (bytesOfWords (BitVec.ofNat 64 ((s.fed.witnessCnt + 1) % 2 ^ 32 + 2 ^ 32 * fedEpoch s) :: List.replicate 7 0)) ∧
      t.regs = s.regs ∧ t.ways = s.ways ∧ t.slots = s.slots ∧ t.queues = s.queues) ∧
  (∀ s m, m < 4 → awake s → (fedState s = 2 ∨ fedState s = 5) → (members s).contains m = true → m ≠ ownMember s → heardNow s m = false →
    (memberOf s m).readAt = none → s.acc.any (fun a => a.purpose == .witnessRead m) = false →
    s.held.any (fun h => h.purpose == .witnessRead m) = false →
    ∃ t, exec (.witnessRead m) s = .next t ∧ PortsOnly { s with fed := t.fed } t ∧ (memberOf t m).readAt = some s.nomNs ∧
      Offered t (.witnessRead m) false (witnessAddr s m) 64 []) ∧
  (∀ s a m ans, s.access a.aid = some a → a.purpose = .witnessRead m → s.fatal = false → CleanAnswer a ans →
    ∃ u : State, exec (.witnessReadResponse a.aid ans) s = .next (u.witnessSeen m (some (leNat ((answerBytes a ans).take 4)))) ∧
      PortsOnly s u ∧ Released s u a.aid) ∧
  (∀ s a m, s.access a.aid = some a → a.purpose = .witnessRead m → s.fatal = false → a.due ≤ s.nomNs →
    ∃ u : State, exec (.witnessReadCeil a.aid) s = .next (u.witnessSeen m none) ∧ Quarantined s u a) ∧
  (∀ (s : State) m n, heardNow s m = false → (members s).contains m = true → (memberOf s m).witness = none → silentMembers s = [] →
    memberOf (s.witnessSeen m (some n)) m = { memberOf s m with witness := some (n, s.nomNs), silent := false }) ∧
  (∀ s, awake s → (fedState s = 2 ∨ fedState s = 3 ∨ fedState s = 5) → s.fed.witnessAck + hbCeilNs s / 2 ≤ s.nomNs → s.regs.wf = true →
    ∃ t, exec .selfFence s = .next t ∧ fedState t = 4 ∧ t.fed = { s.fed with fenced := true } ∧ serves t = false ∧
      t = { s with regs := t.regs, pollInst := t.pollInst, fed := t.fed }) ∧
  (∀ s m at0, m < 4 → (memberOf s m).adoptAt = some at0 → awake s → at0 ≤ s.nomNs → (fedState s = 2 ∨ fedState s = 5) →
    (∀ q ∈ s.queues, homeOf s q ≠ m) →
    exec (.adoptionStart m) s = .next (s.putMember { memberOf s m with adoptAt := none })) ∧
  (∀ s m at0 q n, m < 4 → (memberOf s m).adoptAt = some at0 → awake s → at0 ≤ s.nomNs → (fedState s = 2 ∨ fedState s = 5) →
    s.queues.filter (fun x => decide (homeOf s x = m)) = [q] → n = (members s).getD (q % max 1 (members s).length) (ownMember s) →
    ∃ t, exec (.adoptionStart m) s = .next t ∧ homeOf t q = n ∧ (n = ownMember s → assocGet t.adopting q = some m) ∧ t.queues = s.queues) ∧
  (∀ s c, admRuns s = true → joinCmd s = some c → c.due ≤ s.nomNs → s.fed.joinSeen = [] → bit (s.rd .fedCtl 0) 0 = true → s.regs.wf = true →
    ∃ u : State, exec .joinCeil s = .next (u.admEnd true 0 0 0 0 0) ∧ fedState u = 2 ∧ fedEpoch u = 1 ∧
      (members s = [] → members u = [ownMember s]) ∧ u.queues = s.queues) ∧
  (∀ s c, admRuns s = true → joinCmd s = some c → c.due ≤ s.nomNs → s.fed.joinSeen = [] → bit (s.rd .fedCtl 0) 0 = false →
    (∀ k, k < 3 → lstate s k ≠ 2) → exec .joinCeil s = .next ((s.setFedState 0).admEnd true 0x4A 5 0 0 0))

/-! ## Invariants -/

/-- The block right after rst_n rises (R543, R546): the invariants hold, bring-up runs with both PLLs starting, no
queue, access, record or error is there, and every register and every instance but IID 0 reads its reset value (R500).
-/
def Obligations.ResetState : Prop :=
  State.reset.mapsOk = true ∧ State.reset.errOk = true ∧ State.reset.creditsOk = true ∧ State.reset.resetOk = true ∧
  State.reset.handlesOk = true ∧ State.reset.pending = [] ∧ State.reset.mode = .bringup ∧ State.reset.rstN = true ∧
  State.reset.fatal = false ∧ pllState State.reset false = 1 ∧ pllState State.reset true = 1 ∧ State.reset.queues = [] ∧
  State.reset.acc = [] ∧ State.reset.slots = [] ∧ State.reset.errQ = [] ∧ State.reset.timebase = 0 ∧
  (∀ (r : Reg) i, State.reset.rd r i = BitVec.ofNat 32 r.reset) ∧
  (∀ iid, 1 ≤ iid → State.reset.instState iid = 0)

/-- Every step, whatever the command, keeps the register maps and tables in canonical form, at most 64 records waiting
for the error log (R359), no port above the credits of its channels (R517), and rst_n low exactly in RESET (R542, R543).
-/
def Obligations.InvariantsKept : Prop :=
  ∀ s t : State, s.mapsOk = true → s.errOk = true → s.creditsOk = true → s.resetOk = true → step s = .next t →
    t.mapsOk = true ∧ t.errOk = true ∧ t.creditsOk = true ∧ t.resetOk = true

/-- No command adds to the queue of waiting commands or takes from it: after a step on a queue that is not empty,
exactly its rest waits; a tick leaves it empty. -/
def Obligations.QueueKept : Prop :=
  ∀ s t : State, step s = .next t → t.pending = s.pending.tail
end

