-- ==== Sys2Proof/Laws/State.lean ====
section
/-! SUPPORT. The fields that each plain update of State leaves as they were, and those it sets. -/

section
set_option Elab.async false

namespace Sys2Proof.Machine

@[simp] theorem State.wr_pending (s : State) (r : Reg) (i : Nat) (v : W32) : (s.wr r i v).pending = s.pending := rfl
@[simp] theorem State.wr_timebase (s : State) (r : Reg) (i : Nat) (v : W32) : (s.wr r i v).timebase = s.timebase := rfl
@[simp] theorem State.wr_tbFrac (s : State) (r : Reg) (i : Nat) (v : W32) : (s.wr r i v).tbFrac = s.tbFrac := rfl
@[simp] theorem State.wr_tbStep (s : State) (r : Reg) (i : Nat) (v : W32) : (s.wr r i v).tbStep = s.tbStep := rfl
@[simp] theorem State.wr_nomNs (s : State) (r : Reg) (i : Nat) (v : W32) : (s.wr r i v).nomNs = s.nomNs := rfl
@[simp] theorem State.wr_tbLatch (s : State) (r : Reg) (i : Nat) (v : W32) : (s.wr r i v).tbLatch = s.tbLatch := rfl
@[simp] theorem State.wr_mode (s : State) (r : Reg) (i : Nat) (v : W32) : (s.wr r i v).mode = s.mode := rfl
@[simp] theorem State.wr_modeNext (s : State) (r : Reg) (i : Nat) (v : W32) : (s.wr r i v).modeNext = s.modeNext := rfl
@[simp] theorem State.wr_fatal (s : State) (r : Reg) (i : Nat) (v : W32) : (s.wr r i v).fatal = s.fatal := rfl
@[simp] theorem State.wr_rstN (s : State) (r : Reg) (i : Nat) (v : W32) : (s.wr r i v).rstN = s.rstN := rfl
@[simp] theorem State.wr_strapEvOut (s : State) (r : Reg) (i : Nat) (v : W32) : (s.wr r i v).strapEvOut = s.strapEvOut := rfl
@[simp] theorem State.wr_strapTst (s : State) (r : Reg) (i : Nat) (v : W32) : (s.wr r i v).strapTst = s.strapTst := rfl
@[simp] theorem State.wr_lastRead (s : State) (r : Reg) (i : Nat) (v : W32) : (s.wr r i v).lastRead = s.lastRead := rfl
@[simp] theorem State.wr_resp (s : State) (r : Reg) (i : Nat) (v : W32) : (s.wr r i v).resp = s.resp := rfl
@[simp] theorem State.wr_is0 (s : State) (r : Reg) (i : Nat) (v : W32) : (s.wr r i v).is0 = s.is0 := rfl
@[simp] theorem State.wr_evm (s : State) (r : Reg) (i : Nat) (v : W32) : (s.wr r i v).evm = s.evm := rfl
@[simp] theorem State.wr_evmPend (s : State) (r : Reg) (i : Nat) (v : W32) : (s.wr r i v).evmPend = s.evmPend := rfl
@[simp] theorem State.wr_is3 (s : State) (r : Reg) (i : Nat) (v : W32) : (s.wr r i v).is3 = s.is3 := rfl
@[simp] theorem State.wr_is4 (s : State) (r : Reg) (i : Nat) (v : W32) : (s.wr r i v).is4 = s.is4 := rfl
@[simp] theorem State.wr_is4Seen (s : State) (r : Reg) (i : Nat) (v : W32) : (s.wr r i v).is4Seen = s.is4Seen := rfl
@[simp] theorem State.wr_usedWays (s : State) (r : Reg) (i : Nat) (v : W32) : (s.wr r i v).usedWays = s.usedWays := rfl
@[simp] theorem State.wr_ctxZero (s : State) (r : Reg) (i : Nat) (v : W32) : (s.wr r i v).ctxZero = s.ctxZero := rfl
@[simp] theorem State.wr_is6 (s : State) (r : Reg) (i : Nat) (v : W32) : (s.wr r i v).is6 = s.is6 := rfl
@[simp] theorem State.wr_is7 (s : State) (r : Reg) (i : Nat) (v : W32) : (s.wr r i v).is7 = s.is7 := rfl
@[simp] theorem State.wr_staged (s : State) (r : Reg) (i : Nat) (v : W32) : (s.wr r i v).staged = s.staged := rfl
@[simp] theorem State.wr_adm (s : State) (r : Reg) (i : Nat) (v : W32) : (s.wr r i v).adm = s.adm := rfl
@[simp] theorem State.wr_commitPins (s : State) (r : Reg) (i : Nat) (v : W32) : (s.wr r i v).commitPins = s.commitPins := rfl
@[simp] theorem State.wr_lastSlots (s : State) (r : Reg) (i : Nat) (v : W32) : (s.wr r i v).lastSlots = s.lastSlots := rfl
@[simp] theorem State.wr_overrun (s : State) (r : Reg) (i : Nat) (v : W32) : (s.wr r i v).overrun = s.overrun := rfl
@[simp] theorem State.wr_queues (s : State) (r : Reg) (i : Nat) (v : W32) : (s.wr r i v).queues = s.queues := rfl
@[simp] theorem State.wr_ways (s : State) (r : Reg) (i : Nat) (v : W32) : (s.wr r i v).ways = s.ways := rfl
@[simp] theorem State.wr_ctxWait (s : State) (r : Reg) (i : Nat) (v : W32) : (s.wr r i v).ctxWait = s.ctxWait := rfl
@[simp] theorem State.wr_ctxRetry (s : State) (r : Reg) (i : Nat) (v : W32) : (s.wr r i v).ctxRetry = s.ctxRetry := rfl
@[simp] theorem State.wr_ctxWb (s : State) (r : Reg) (i : Nat) (v : W32) : (s.wr r i v).ctxWb = s.ctxWb := rfl
@[simp] theorem State.wr_polls (s : State) (r : Reg) (i : Nat) (v : W32) : (s.wr r i v).polls = s.polls := rfl
@[simp] theorem State.wr_pollInst (s : State) (r : Reg) (i : Nat) (v : W32) : (s.wr r i v).pollInst = s.pollInst := rfl
@[simp] theorem State.wr_pollBudget (s : State) (r : Reg) (i : Nat) (v : W32) : (s.wr r i v).pollBudget = s.pollBudget := rfl
@[simp] theorem State.wr_ready (s : State) (r : Reg) (i : Nat) (v : W32) : (s.wr r i v).ready = s.ready := rfl
@[simp] theorem State.wr_sched (s : State) (r : Reg) (i : Nat) (v : W32) : (s.wr r i v).sched = s.sched := rfl
@[simp] theorem State.wr_buckets (s : State) (r : Reg) (i : Nat) (v : W32) : (s.wr r i v).buckets = s.buckets := rfl
@[simp] theorem State.wr_promoCtr (s : State) (r : Reg) (i : Nat) (v : W32) : (s.wr r i v).promoCtr = s.promoCtr := rfl
@[simp] theorem State.wr_rereads (s : State) (r : Reg) (i : Nat) (v : W32) : (s.wr r i v).rereads = s.rereads := rfl
@[simp] theorem State.wr_slots (s : State) (r : Reg) (i : Nat) (v : W32) : (s.wr r i v).slots = s.slots := rfl
@[simp] theorem State.wr_ckpt (s : State) (r : Reg) (i : Nat) (v : W32) : (s.wr r i v).ckpt = s.ckpt := rfl
@[simp] theorem State.wr_records (s : State) (r : Reg) (i : Nat) (v : W32) : (s.wr r i v).records = s.records := rfl
@[simp] theorem State.wr_waitRecs (s : State) (r : Reg) (i : Nat) (v : W32) : (s.wr r i v).waitRecs = s.waitRecs := rfl
@[simp] theorem State.wr_moving (s : State) (r : Reg) (i : Nat) (v : W32) : (s.wr r i v).moving = s.moving := rfl
@[simp] theorem State.wr_bridge (s : State) (r : Reg) (i : Nat) (v : W32) : (s.wr r i v).bridge = s.bridge := rfl
@[simp] theorem State.wr_takeover (s : State) (r : Reg) (i : Nat) (v : W32) : (s.wr r i v).takeover = s.takeover := rfl
@[simp] theorem State.wr_acc (s : State) (r : Reg) (i : Nat) (v : W32) : (s.wr r i v).acc = s.acc := rfl
@[simp] theorem State.wr_quar (s : State) (r : Reg) (i : Nat) (v : W32) : (s.wr r i v).quar = s.quar := rfl
@[simp] theorem State.wr_held (s : State) (r : Reg) (i : Nat) (v : W32) : (s.wr r i v).held = s.held := rfl
@[simp] theorem State.wr_credits (s : State) (r : Reg) (i : Nat) (v : W32) : (s.wr r i v).credits = s.credits := rfl
@[simp] theorem State.wr_portActive (s : State) (r : Reg) (i : Nat) (v : W32) : (s.wr r i v).portActive = s.portActive := rfl
@[simp] theorem State.wr_arbs (s : State) (r : Reg) (i : Nat) (v : W32) : (s.wr r i v).arbs = s.arbs := rfl
@[simp] theorem State.wr_uWin (s : State) (r : Reg) (i : Nat) (v : W32) : (s.wr r i v).uWin = s.uWin := rfl
@[simp] theorem State.wr_turns (s : State) (r : Reg) (i : Nat) (v : W32) : (s.wr r i v).turns = s.turns := rfl
@[simp] theorem State.wr_suspect (s : State) (r : Reg) (i : Nat) (v : W32) : (s.wr r i v).suspect = s.suspect := rfl
@[simp] theorem State.wr_lateFlags (s : State) (r : Reg) (i : Nat) (v : W32) : (s.wr r i v).lateFlags = s.lateFlags := rfl
@[simp] theorem State.wr_errQ (s : State) (r : Reg) (i : Nat) (v : W32) : (s.wr r i v).errQ = s.errQ := rfl
@[simp] theorem State.wr_dirtyQ (s : State) (r : Reg) (i : Nat) (v : W32) : (s.wr r i v).dirtyQ = s.dirtyQ := rfl
@[simp] theorem State.wr_dirtyFilter (s : State) (r : Reg) (i : Nat) (v : W32) : (s.wr r i v).dirtyFilter = s.dirtyFilter := rfl
@[simp] theorem State.wr_dirtyPrev (s : State) (r : Reg) (i : Nat) (v : W32) : (s.wr r i v).dirtyPrev = s.dirtyPrev := rfl
@[simp] theorem State.wr_closing (s : State) (r : Reg) (i : Nat) (v : W32) : (s.wr r i v).closing = s.closing := rfl
@[simp] theorem State.wr_sweep (s : State) (r : Reg) (i : Nat) (v : W32) : (s.wr r i v).sweep = s.sweep := rfl
@[simp] theorem State.wr_heldPulses (s : State) (r : Reg) (i : Nat) (v : W32) : (s.wr r i v).heldPulses = s.heldPulses := rfl
@[simp] theorem State.wr_srcLevels (s : State) (r : Reg) (i : Nat) (v : W32) : (s.wr r i v).srcLevels = s.srcLevels := rfl
@[simp] theorem State.wr_pulseHigh (s : State) (r : Reg) (i : Nat) (v : W32) : (s.wr r i v).pulseHigh = s.pulseHigh := rfl
@[simp] theorem State.wr_flagSets (s : State) (r : Reg) (i : Nat) (v : W32) : (s.wr r i v).flagSets = s.flagSets := rfl
@[simp] theorem State.wr_evIn (s : State) (r : Reg) (i : Nat) (v : W32) : (s.wr r i v).evIn = s.evIn := rfl
@[simp] theorem State.wr_lines (s : State) (r : Reg) (i : Nat) (v : W32) : (s.wr r i v).lines = s.lines := rfl
@[simp] theorem State.wr_evOut (s : State) (r : Reg) (i : Nat) (v : W32) : (s.wr r i v).evOut = s.evOut := rfl
@[simp] theorem State.wr_timers (s : State) (r : Reg) (i : Nat) (v : W32) : (s.wr r i v).timers = s.timers := rfl
@[simp] theorem State.wr_thrPrev (s : State) (r : Reg) (i : Nat) (v : W32) : (s.wr r i v).thrPrev = s.thrPrev := rfl
@[simp] theorem State.wr_snaps (s : State) (r : Reg) (i : Nat) (v : W32) : (s.wr r i v).snaps = s.snaps := rfl
@[simp] theorem State.wr_copySeq (s : State) (r : Reg) (i : Nat) (v : W32) : (s.wr r i v).copySeq = s.copySeq := rfl
@[simp] theorem State.wr_occDue (s : State) (r : Reg) (i : Nat) (v : W32) : (s.wr r i v).occDue = s.occDue := rfl
@[simp] theorem State.wr_plls (s : State) (r : Reg) (i : Nat) (v : W32) : (s.wr r i v).plls = s.plls := rfl
@[simp] theorem State.wr_muxes (s : State) (r : Reg) (i : Nat) (v : W32) : (s.wr r i v).muxes = s.muxes := rfl
@[simp] theorem State.wr_clkWait (s : State) (r : Reg) (i : Nat) (v : W32) : (s.wr r i v).clkWait = s.clkWait := rfl
@[simp] theorem State.wr_pchange (s : State) (r : Reg) (i : Nat) (v : W32) : (s.wr r i v).pchange = s.pchange := rfl
@[simp] theorem State.wr_pwAck (s : State) (r : Reg) (i : Nat) (v : W32) : (s.wr r i v).pwAck = s.pwAck := rfl
@[simp] theorem State.wr_pwRest (s : State) (r : Reg) (i : Nat) (v : W32) : (s.wr r i v).pwRest = s.pwRest := rfl
@[simp] theorem State.wr_idleSince (s : State) (r : Reg) (i : Nat) (v : W32) : (s.wr r i v).idleSince = s.idleSince := rfl
@[simp] theorem State.wr_wakeAt (s : State) (r : Reg) (i : Nat) (v : W32) : (s.wr r i v).wakeAt = s.wakeAt := rfl
@[simp] theorem State.wr_restEnter (s : State) (r : Reg) (i : Nat) (v : W32) : (s.wr r i v).restEnter = s.restEnter := rfl
@[simp] theorem State.wr_restAt (s : State) (r : Reg) (i : Nat) (v : W32) : (s.wr r i v).restAt = s.restAt := rfl
@[simp] theorem State.wr_wakePend (s : State) (r : Reg) (i : Nat) (v : W32) : (s.wr r i v).wakePend = s.wakePend := rfl
@[simp] theorem State.wr_fed (s : State) (r : Reg) (i : Nat) (v : W32) : (s.wr r i v).fed = s.fed := rfl
@[simp] theorem State.wr_adopting (s : State) (r : Reg) (i : Nat) (v : W32) : (s.wr r i v).adopting = s.adopting := rfl
@[simp] theorem State.wr_adoptStop (s : State) (r : Reg) (i : Nat) (v : W32) : (s.wr r i v).adoptStop = s.adoptStop := rfl
@[simp] theorem State.wr_adoptDone (s : State) (r : Reg) (i : Nat) (v : W32) : (s.wr r i v).adoptDone = s.adoptDone := rfl
@[simp] theorem State.wr_cseqs (s : State) (r : Reg) (i : Nat) (v : W32) : (s.wr r i v).cseqs = s.cseqs := rfl
@[simp] theorem State.wr_txFrames (s : State) (r : Reg) (i : Nat) (v : W32) : (s.wr r i v).txFrames = s.txFrames := rfl
@[simp] theorem State.wr_idleOut (s : State) (r : Reg) (i : Nat) (v : W32) : (s.wr r i v).idleOut = s.idleOut := rfl
@[simp] theorem State.wr_tunits (s : State) (r : Reg) (i : Nat) (v : W32) : (s.wr r i v).tunits = s.tunits := rfl
@[simp] theorem State.wr_mbist (s : State) (r : Reg) (i : Nat) (v : W32) : (s.wr r i v).mbist = s.mbist := rfl
@[simp] theorem State.wr_nextAid (s : State) (r : Reg) (i : Nat) (v : W32) : (s.wr r i v).nextAid = s.nextAid := rfl
@[simp] theorem State.wr_freeCtr (s : State) (r : Reg) (i : Nat) (v : W32) : (s.wr r i v).freeCtr = s.freeCtr := rfl
@[simp] theorem State.setInst_pending (s : State) (iid w : Nat) (v : W32) : (s.setInst iid w v).pending = s.pending := rfl
@[simp] theorem State.setInst_timebase (s : State) (iid w : Nat) (v : W32) : (s.setInst iid w v).timebase = s.timebase := rfl
@[simp] theorem State.setInst_tbFrac (s : State) (iid w : Nat) (v : W32) : (s.setInst iid w v).tbFrac = s.tbFrac := rfl
@[simp] theorem State.setInst_tbStep (s : State) (iid w : Nat) (v : W32) : (s.setInst iid w v).tbStep = s.tbStep := rfl
@[simp] theorem State.setInst_nomNs (s : State) (iid w : Nat) (v : W32) : (s.setInst iid w v).nomNs = s.nomNs := rfl
@[simp] theorem State.setInst_tbLatch (s : State) (iid w : Nat) (v : W32) : (s.setInst iid w v).tbLatch = s.tbLatch := rfl
@[simp] theorem State.setInst_mode (s : State) (iid w : Nat) (v : W32) : (s.setInst iid w v).mode = s.mode := rfl
@[simp] theorem State.setInst_modeNext (s : State) (iid w : Nat) (v : W32) : (s.setInst iid w v).modeNext = s.modeNext := rfl
@[simp] theorem State.setInst_fatal (s : State) (iid w : Nat) (v : W32) : (s.setInst iid w v).fatal = s.fatal := rfl
@[simp] theorem State.setInst_rstN (s : State) (iid w : Nat) (v : W32) : (s.setInst iid w v).rstN = s.rstN := rfl
@[simp] theorem State.setInst_strapEvOut (s : State) (iid w : Nat) (v : W32) : (s.setInst iid w v).strapEvOut = s.strapEvOut := rfl
@[simp] theorem State.setInst_strapTst (s : State) (iid w : Nat) (v : W32) : (s.setInst iid w v).strapTst = s.strapTst := rfl
@[simp] theorem State.setInst_regs (s : State) (iid w : Nat) (v : W32) : (s.setInst iid w v).regs = s.regs := rfl
@[simp] theorem State.setInst_lastRead (s : State) (iid w : Nat) (v : W32) : (s.setInst iid w v).lastRead = s.lastRead := rfl
@[simp] theorem State.setInst_resp (s : State) (iid w : Nat) (v : W32) : (s.setInst iid w v).resp = s.resp := rfl
@[simp] theorem State.setInst_evm (s : State) (iid w : Nat) (v : W32) : (s.setInst iid w v).evm = s.evm := rfl
@[simp] theorem State.setInst_evmPend (s : State) (iid w : Nat) (v : W32) : (s.setInst iid w v).evmPend = s.evmPend := rfl
@[simp] theorem State.setInst_is3 (s : State) (iid w : Nat) (v : W32) : (s.setInst iid w v).is3 = s.is3 := rfl
@[simp] theorem State.setInst_is4 (s : State) (iid w : Nat) (v : W32) : (s.setInst iid w v).is4 = s.is4 := rfl
@[simp] theorem State.setInst_is4Seen (s : State) (iid w : Nat) (v : W32) : (s.setInst iid w v).is4Seen = s.is4Seen := rfl
@[simp] theorem State.setInst_usedWays (s : State) (iid w : Nat) (v : W32) : (s.setInst iid w v).usedWays = s.usedWays := rfl
@[simp] theorem State.setInst_ctxZero (s : State) (iid w : Nat) (v : W32) : (s.setInst iid w v).ctxZero = s.ctxZero := rfl
@[simp] theorem State.setInst_is6 (s : State) (iid w : Nat) (v : W32) : (s.setInst iid w v).is6 = s.is6 := rfl
@[simp] theorem State.setInst_is7 (s : State) (iid w : Nat) (v : W32) : (s.setInst iid w v).is7 = s.is7 := rfl
@[simp] theorem State.setInst_staged (s : State) (iid w : Nat) (v : W32) : (s.setInst iid w v).staged = s.staged := rfl
@[simp] theorem State.setInst_adm (s : State) (iid w : Nat) (v : W32) : (s.setInst iid w v).adm = s.adm := rfl
@[simp] theorem State.setInst_commitPins (s : State) (iid w : Nat) (v : W32) : (s.setInst iid w v).commitPins = s.commitPins := rfl
@[simp] theorem State.setInst_lastSlots (s : State) (iid w : Nat) (v : W32) : (s.setInst iid w v).lastSlots = s.lastSlots := rfl
@[simp] theorem State.setInst_overrun (s : State) (iid w : Nat) (v : W32) : (s.setInst iid w v).overrun = s.overrun := rfl
@[simp] theorem State.setInst_queues (s : State) (iid w : Nat) (v : W32) : (s.setInst iid w v).queues = s.queues := rfl
@[simp] theorem State.setInst_ways (s : State) (iid w : Nat) (v : W32) : (s.setInst iid w v).ways = s.ways := rfl
@[simp] theorem State.setInst_ctxWait (s : State) (iid w : Nat) (v : W32) : (s.setInst iid w v).ctxWait = s.ctxWait := rfl
@[simp] theorem State.setInst_ctxRetry (s : State) (iid w : Nat) (v : W32) : (s.setInst iid w v).ctxRetry = s.ctxRetry := rfl
@[simp] theorem State.setInst_ctxWb (s : State) (iid w : Nat) (v : W32) : (s.setInst iid w v).ctxWb = s.ctxWb := rfl
@[simp] theorem State.setInst_polls (s : State) (iid w : Nat) (v : W32) : (s.setInst iid w v).polls = s.polls := rfl
@[simp] theorem State.setInst_pollInst (s : State) (iid w : Nat) (v : W32) : (s.setInst iid w v).pollInst = s.pollInst := rfl
@[simp] theorem State.setInst_pollBudget (s : State) (iid w : Nat) (v : W32) : (s.setInst iid w v).pollBudget = s.pollBudget := rfl
@[simp] theorem State.setInst_ready (s : State) (iid w : Nat) (v : W32) : (s.setInst iid w v).ready = s.ready := rfl
@[simp] theorem State.setInst_sched (s : State) (iid w : Nat) (v : W32) : (s.setInst iid w v).sched = s.sched := rfl
@[simp] theorem State.setInst_buckets (s : State) (iid w : Nat) (v : W32) : (s.setInst iid w v).buckets = s.buckets := rfl
@[simp] theorem State.setInst_promoCtr (s : State) (iid w : Nat) (v : W32) : (s.setInst iid w v).promoCtr = s.promoCtr := rfl
@[simp] theorem State.setInst_rereads (s : State) (iid w : Nat) (v : W32) : (s.setInst iid w v).rereads = s.rereads := rfl
@[simp] theorem State.setInst_slots (s : State) (iid w : Nat) (v : W32) : (s.setInst iid w v).slots = s.slots := rfl
@[simp] theorem State.setInst_ckpt (s : State) (iid w : Nat) (v : W32) : (s.setInst iid w v).ckpt = s.ckpt := rfl
@[simp] theorem State.setInst_records (s : State) (iid w : Nat) (v : W32) : (s.setInst iid w v).records = s.records := rfl
@[simp] theorem State.setInst_waitRecs (s : State) (iid w : Nat) (v : W32) : (s.setInst iid w v).waitRecs = s.waitRecs := rfl
@[simp] theorem State.setInst_moving (s : State) (iid w : Nat) (v : W32) : (s.setInst iid w v).moving = s.moving := rfl
@[simp] theorem State.setInst_bridge (s : State) (iid w : Nat) (v : W32) : (s.setInst iid w v).bridge = s.bridge := rfl
@[simp] theorem State.setInst_takeover (s : State) (iid w : Nat) (v : W32) : (s.setInst iid w v).takeover = s.takeover := rfl
@[simp] theorem State.setInst_acc (s : State) (iid w : Nat) (v : W32) : (s.setInst iid w v).acc = s.acc := rfl
@[simp] theorem State.setInst_quar (s : State) (iid w : Nat) (v : W32) : (s.setInst iid w v).quar = s.quar := rfl
@[simp] theorem State.setInst_held (s : State) (iid w : Nat) (v : W32) : (s.setInst iid w v).held = s.held := rfl
@[simp] theorem State.setInst_credits (s : State) (iid w : Nat) (v : W32) : (s.setInst iid w v).credits = s.credits := rfl
@[simp] theorem State.setInst_portActive (s : State) (iid w : Nat) (v : W32) : (s.setInst iid w v).portActive = s.portActive := rfl
@[simp] theorem State.setInst_arbs (s : State) (iid w : Nat) (v : W32) : (s.setInst iid w v).arbs = s.arbs := rfl
@[simp] theorem State.setInst_uWin (s : State) (iid w : Nat) (v : W32) : (s.setInst iid w v).uWin = s.uWin := rfl
@[simp] theorem State.setInst_turns (s : State) (iid w : Nat) (v : W32) : (s.setInst iid w v).turns = s.turns := rfl
@[simp] theorem State.setInst_suspect (s : State) (iid w : Nat) (v : W32) : (s.setInst iid w v).suspect = s.suspect := rfl
@[simp] theorem State.setInst_lateFlags (s : State) (iid w : Nat) (v : W32) : (s.setInst iid w v).lateFlags = s.lateFlags := rfl
@[simp] theorem State.setInst_errQ (s : State) (iid w : Nat) (v : W32) : (s.setInst iid w v).errQ = s.errQ := rfl
@[simp] theorem State.setInst_dirtyQ (s : State) (iid w : Nat) (v : W32) : (s.setInst iid w v).dirtyQ = s.dirtyQ := rfl
@[simp] theorem State.setInst_dirtyFilter (s : State) (iid w : Nat) (v : W32) : (s.setInst iid w v).dirtyFilter = s.dirtyFilter := rfl
@[simp] theorem State.setInst_dirtyPrev (s : State) (iid w : Nat) (v : W32) : (s.setInst iid w v).dirtyPrev = s.dirtyPrev := rfl
@[simp] theorem State.setInst_closing (s : State) (iid w : Nat) (v : W32) : (s.setInst iid w v).closing = s.closing := rfl
@[simp] theorem State.setInst_sweep (s : State) (iid w : Nat) (v : W32) : (s.setInst iid w v).sweep = s.sweep := rfl
@[simp] theorem State.setInst_heldPulses (s : State) (iid w : Nat) (v : W32) : (s.setInst iid w v).heldPulses = s.heldPulses := rfl
@[simp] theorem State.setInst_srcLevels (s : State) (iid w : Nat) (v : W32) : (s.setInst iid w v).srcLevels = s.srcLevels := rfl
@[simp] theorem State.setInst_pulseHigh (s : State) (iid w : Nat) (v : W32) : (s.setInst iid w v).pulseHigh = s.pulseHigh := rfl
@[simp] theorem State.setInst_flagSets (s : State) (iid w : Nat) (v : W32) : (s.setInst iid w v).flagSets = s.flagSets := rfl
@[simp] theorem State.setInst_evIn (s : State) (iid w : Nat) (v : W32) : (s.setInst iid w v).evIn = s.evIn := rfl
@[simp] theorem State.setInst_lines (s : State) (iid w : Nat) (v : W32) : (s.setInst iid w v).lines = s.lines := rfl
@[simp] theorem State.setInst_evOut (s : State) (iid w : Nat) (v : W32) : (s.setInst iid w v).evOut = s.evOut := rfl
@[simp] theorem State.setInst_timers (s : State) (iid w : Nat) (v : W32) : (s.setInst iid w v).timers = s.timers := rfl
@[simp] theorem State.setInst_thrPrev (s : State) (iid w : Nat) (v : W32) : (s.setInst iid w v).thrPrev = s.thrPrev := rfl
@[simp] theorem State.setInst_snaps (s : State) (iid w : Nat) (v : W32) : (s.setInst iid w v).snaps = s.snaps := rfl
@[simp] theorem State.setInst_copySeq (s : State) (iid w : Nat) (v : W32) : (s.setInst iid w v).copySeq = s.copySeq := rfl
@[simp] theorem State.setInst_occDue (s : State) (iid w : Nat) (v : W32) : (s.setInst iid w v).occDue = s.occDue := rfl
@[simp] theorem State.setInst_plls (s : State) (iid w : Nat) (v : W32) : (s.setInst iid w v).plls = s.plls := rfl
@[simp] theorem State.setInst_muxes (s : State) (iid w : Nat) (v : W32) : (s.setInst iid w v).muxes = s.muxes := rfl
@[simp] theorem State.setInst_clkWait (s : State) (iid w : Nat) (v : W32) : (s.setInst iid w v).clkWait = s.clkWait := rfl
@[simp] theorem State.setInst_pchange (s : State) (iid w : Nat) (v : W32) : (s.setInst iid w v).pchange = s.pchange := rfl
@[simp] theorem State.setInst_pwAck (s : State) (iid w : Nat) (v : W32) : (s.setInst iid w v).pwAck = s.pwAck := rfl
@[simp] theorem State.setInst_pwRest (s : State) (iid w : Nat) (v : W32) : (s.setInst iid w v).pwRest = s.pwRest := rfl
@[simp] theorem State.setInst_idleSince (s : State) (iid w : Nat) (v : W32) : (s.setInst iid w v).idleSince = s.idleSince := rfl
@[simp] theorem State.setInst_wakeAt (s : State) (iid w : Nat) (v : W32) : (s.setInst iid w v).wakeAt = s.wakeAt := rfl
@[simp] theorem State.setInst_restEnter (s : State) (iid w : Nat) (v : W32) : (s.setInst iid w v).restEnter = s.restEnter := rfl
@[simp] theorem State.setInst_restAt (s : State) (iid w : Nat) (v : W32) : (s.setInst iid w v).restAt = s.restAt := rfl
@[simp] theorem State.setInst_wakePend (s : State) (iid w : Nat) (v : W32) : (s.setInst iid w v).wakePend = s.wakePend := rfl
@[simp] theorem State.setInst_fed (s : State) (iid w : Nat) (v : W32) : (s.setInst iid w v).fed = s.fed := rfl
@[simp] theorem State.setInst_adopting (s : State) (iid w : Nat) (v : W32) : (s.setInst iid w v).adopting = s.adopting := rfl
@[simp] theorem State.setInst_adoptStop (s : State) (iid w : Nat) (v : W32) : (s.setInst iid w v).adoptStop = s.adoptStop := rfl
@[simp] theorem State.setInst_adoptDone (s : State) (iid w : Nat) (v : W32) : (s.setInst iid w v).adoptDone = s.adoptDone := rfl
@[simp] theorem State.setInst_cseqs (s : State) (iid w : Nat) (v : W32) : (s.setInst iid w v).cseqs = s.cseqs := rfl
@[simp] theorem State.setInst_txFrames (s : State) (iid w : Nat) (v : W32) : (s.setInst iid w v).txFrames = s.txFrames := rfl
@[simp] theorem State.setInst_idleOut (s : State) (iid w : Nat) (v : W32) : (s.setInst iid w v).idleOut = s.idleOut := rfl
@[simp] theorem State.setInst_tunits (s : State) (iid w : Nat) (v : W32) : (s.setInst iid w v).tunits = s.tunits := rfl
@[simp] theorem State.setInst_mbist (s : State) (iid w : Nat) (v : W32) : (s.setInst iid w v).mbist = s.mbist := rfl
@[simp] theorem State.setInst_nextAid (s : State) (iid w : Nat) (v : W32) : (s.setInst iid w v).nextAid = s.nextAid := rfl
@[simp] theorem State.setInst_freeCtr (s : State) (iid w : Nat) (v : W32) : (s.setInst iid w v).freeCtr = s.freeCtr := rfl
@[simp] theorem State.putArb_pending (s : State) (x : Arb) : (s.putArb x).pending = s.pending := rfl
@[simp] theorem State.putArb_timebase (s : State) (x : Arb) : (s.putArb x).timebase = s.timebase := rfl
@[simp] theorem State.putArb_tbFrac (s : State) (x : Arb) : (s.putArb x).tbFrac = s.tbFrac := rfl
@[simp] theorem State.putArb_tbStep (s : State) (x : Arb) : (s.putArb x).tbStep = s.tbStep := rfl
@[simp] theorem State.putArb_nomNs (s : State) (x : Arb) : (s.putArb x).nomNs = s.nomNs := rfl
@[simp] theorem State.putArb_tbLatch (s : State) (x : Arb) : (s.putArb x).tbLatch = s.tbLatch := rfl
@[simp] theorem State.putArb_mode (s : State) (x : Arb) : (s.putArb x).mode = s.mode := rfl
@[simp] theorem State.putArb_modeNext (s : State) (x : Arb) : (s.putArb x).modeNext = s.modeNext := rfl
@[simp] theorem State.putArb_fatal (s : State) (x : Arb) : (s.putArb x).fatal = s.fatal := rfl
@[simp] theorem State.putArb_rstN (s : State) (x : Arb) : (s.putArb x).rstN = s.rstN := rfl
@[simp] theorem State.putArb_strapEvOut (s : State) (x : Arb) : (s.putArb x).strapEvOut = s.strapEvOut := rfl
@[simp] theorem State.putArb_strapTst (s : State) (x : Arb) : (s.putArb x).strapTst = s.strapTst := rfl
@[simp] theorem State.putArb_regs (s : State) (x : Arb) : (s.putArb x).regs = s.regs := rfl
@[simp] theorem State.putArb_lastRead (s : State) (x : Arb) : (s.putArb x).lastRead = s.lastRead := rfl
@[simp] theorem State.putArb_resp (s : State) (x : Arb) : (s.putArb x).resp = s.resp := rfl
@[simp] theorem State.putArb_is0 (s : State) (x : Arb) : (s.putArb x).is0 = s.is0 := rfl
@[simp] theorem State.putArb_evm (s : State) (x : Arb) : (s.putArb x).evm = s.evm := rfl
@[simp] theorem State.putArb_evmPend (s : State) (x : Arb) : (s.putArb x).evmPend = s.evmPend := rfl
@[simp] theorem State.putArb_is3 (s : State) (x : Arb) : (s.putArb x).is3 = s.is3 := rfl
@[simp] theorem State.putArb_is4 (s : State) (x : Arb) : (s.putArb x).is4 = s.is4 := rfl
@[simp] theorem State.putArb_is4Seen (s : State) (x : Arb) : (s.putArb x).is4Seen = s.is4Seen := rfl
@[simp] theorem State.putArb_usedWays (s : State) (x : Arb) : (s.putArb x).usedWays = s.usedWays := rfl
@[simp] theorem State.putArb_ctxZero (s : State) (x : Arb) : (s.putArb x).ctxZero = s.ctxZero := rfl
@[simp] theorem State.putArb_is6 (s : State) (x : Arb) : (s.putArb x).is6 = s.is6 := rfl
@[simp] theorem State.putArb_is7 (s : State) (x : Arb) : (s.putArb x).is7 = s.is7 := rfl
@[simp] theorem State.putArb_staged (s : State) (x : Arb) : (s.putArb x).staged = s.staged := rfl
@[simp] theorem State.putArb_adm (s : State) (x : Arb) : (s.putArb x).adm = s.adm := rfl
@[simp] theorem State.putArb_commitPins (s : State) (x : Arb) : (s.putArb x).commitPins = s.commitPins := rfl
@[simp] theorem State.putArb_lastSlots (s : State) (x : Arb) : (s.putArb x).lastSlots = s.lastSlots := rfl
@[simp] theorem State.putArb_overrun (s : State) (x : Arb) : (s.putArb x).overrun = s.overrun := rfl
@[simp] theorem State.putArb_queues (s : State) (x : Arb) : (s.putArb x).queues = s.queues := rfl
@[simp] theorem State.putArb_ways (s : State) (x : Arb) : (s.putArb x).ways = s.ways := rfl
@[simp] theorem State.putArb_ctxWait (s : State) (x : Arb) : (s.putArb x).ctxWait = s.ctxWait := rfl
@[simp] theorem State.putArb_ctxRetry (s : State) (x : Arb) : (s.putArb x).ctxRetry = s.ctxRetry := rfl
@[simp] theorem State.putArb_ctxWb (s : State) (x : Arb) : (s.putArb x).ctxWb = s.ctxWb := rfl
@[simp] theorem State.putArb_polls (s : State) (x : Arb) : (s.putArb x).polls = s.polls := rfl
@[simp] theorem State.putArb_pollInst (s : State) (x : Arb) : (s.putArb x).pollInst = s.pollInst := rfl
@[simp] theorem State.putArb_pollBudget (s : State) (x : Arb) : (s.putArb x).pollBudget = s.pollBudget := rfl
@[simp] theorem State.putArb_ready (s : State) (x : Arb) : (s.putArb x).ready = s.ready := rfl
@[simp] theorem State.putArb_sched (s : State) (x : Arb) : (s.putArb x).sched = s.sched := rfl
@[simp] theorem State.putArb_buckets (s : State) (x : Arb) : (s.putArb x).buckets = s.buckets := rfl
@[simp] theorem State.putArb_promoCtr (s : State) (x : Arb) : (s.putArb x).promoCtr = s.promoCtr := rfl
@[simp] theorem State.putArb_rereads (s : State) (x : Arb) : (s.putArb x).rereads = s.rereads := rfl
@[simp] theorem State.putArb_slots (s : State) (x : Arb) : (s.putArb x).slots = s.slots := rfl
@[simp] theorem State.putArb_ckpt (s : State) (x : Arb) : (s.putArb x).ckpt = s.ckpt := rfl
@[simp] theorem State.putArb_records (s : State) (x : Arb) : (s.putArb x).records = s.records := rfl
@[simp] theorem State.putArb_waitRecs (s : State) (x : Arb) : (s.putArb x).waitRecs = s.waitRecs := rfl
@[simp] theorem State.putArb_moving (s : State) (x : Arb) : (s.putArb x).moving = s.moving := rfl
@[simp] theorem State.putArb_bridge (s : State) (x : Arb) : (s.putArb x).bridge = s.bridge := rfl
@[simp] theorem State.putArb_takeover (s : State) (x : Arb) : (s.putArb x).takeover = s.takeover := rfl
@[simp] theorem State.putArb_acc (s : State) (x : Arb) : (s.putArb x).acc = s.acc := rfl
@[simp] theorem State.putArb_quar (s : State) (x : Arb) : (s.putArb x).quar = s.quar := rfl
@[simp] theorem State.putArb_held (s : State) (x : Arb) : (s.putArb x).held = s.held := rfl
@[simp] theorem State.putArb_credits (s : State) (x : Arb) : (s.putArb x).credits = s.credits := rfl
@[simp] theorem State.putArb_portActive (s : State) (x : Arb) : (s.putArb x).portActive = s.portActive := rfl
@[simp] theorem State.putArb_uWin (s : State) (x : Arb) : (s.putArb x).uWin = s.uWin := rfl
@[simp] theorem State.putArb_turns (s : State) (x : Arb) : (s.putArb x).turns = s.turns := rfl
@[simp] theorem State.putArb_suspect (s : State) (x : Arb) : (s.putArb x).suspect = s.suspect := rfl
@[simp] theorem State.putArb_lateFlags (s : State) (x : Arb) : (s.putArb x).lateFlags = s.lateFlags := rfl
@[simp] theorem State.putArb_errQ (s : State) (x : Arb) : (s.putArb x).errQ = s.errQ := rfl
@[simp] theorem State.putArb_dirtyQ (s : State) (x : Arb) : (s.putArb x).dirtyQ = s.dirtyQ := rfl
@[simp] theorem State.putArb_dirtyFilter (s : State) (x : Arb) : (s.putArb x).dirtyFilter = s.dirtyFilter := rfl
@[simp] theorem State.putArb_dirtyPrev (s : State) (x : Arb) : (s.putArb x).dirtyPrev = s.dirtyPrev := rfl
@[simp] theorem State.putArb_closing (s : State) (x : Arb) : (s.putArb x).closing = s.closing := rfl
@[simp] theorem State.putArb_sweep (s : State) (x : Arb) : (s.putArb x).sweep = s.sweep := rfl
@[simp] theorem State.putArb_heldPulses (s : State) (x : Arb) : (s.putArb x).heldPulses = s.heldPulses := rfl
@[simp] theorem State.putArb_srcLevels (s : State) (x : Arb) : (s.putArb x).srcLevels = s.srcLevels := rfl
@[simp] theorem State.putArb_pulseHigh (s : State) (x : Arb) : (s.putArb x).pulseHigh = s.pulseHigh := rfl
@[simp] theorem State.putArb_flagSets (s : State) (x : Arb) : (s.putArb x).flagSets = s.flagSets := rfl
@[simp] theorem State.putArb_evIn (s : State) (x : Arb) : (s.putArb x).evIn = s.evIn := rfl
@[simp] theorem State.putArb_lines (s : State) (x : Arb) : (s.putArb x).lines = s.lines := rfl
@[simp] theorem State.putArb_evOut (s : State) (x : Arb) : (s.putArb x).evOut = s.evOut := rfl
@[simp] theorem State.putArb_timers (s : State) (x : Arb) : (s.putArb x).timers = s.timers := rfl
@[simp] theorem State.putArb_thrPrev (s : State) (x : Arb) : (s.putArb x).thrPrev = s.thrPrev := rfl
@[simp] theorem State.putArb_snaps (s : State) (x : Arb) : (s.putArb x).snaps = s.snaps := rfl
@[simp] theorem State.putArb_copySeq (s : State) (x : Arb) : (s.putArb x).copySeq = s.copySeq := rfl
@[simp] theorem State.putArb_occDue (s : State) (x : Arb) : (s.putArb x).occDue = s.occDue := rfl
@[simp] theorem State.putArb_plls (s : State) (x : Arb) : (s.putArb x).plls = s.plls := rfl
@[simp] theorem State.putArb_muxes (s : State) (x : Arb) : (s.putArb x).muxes = s.muxes := rfl
@[simp] theorem State.putArb_clkWait (s : State) (x : Arb) : (s.putArb x).clkWait = s.clkWait := rfl
@[simp] theorem State.putArb_pchange (s : State) (x : Arb) : (s.putArb x).pchange = s.pchange := rfl
@[simp] theorem State.putArb_pwAck (s : State) (x : Arb) : (s.putArb x).pwAck = s.pwAck := rfl
@[simp] theorem State.putArb_pwRest (s : State) (x : Arb) : (s.putArb x).pwRest = s.pwRest := rfl
@[simp] theorem State.putArb_idleSince (s : State) (x : Arb) : (s.putArb x).idleSince = s.idleSince := rfl
@[simp] theorem State.putArb_wakeAt (s : State) (x : Arb) : (s.putArb x).wakeAt = s.wakeAt := rfl
@[simp] theorem State.putArb_restEnter (s : State) (x : Arb) : (s.putArb x).restEnter = s.restEnter := rfl
@[simp] theorem State.putArb_restAt (s : State) (x : Arb) : (s.putArb x).restAt = s.restAt := rfl
@[simp] theorem State.putArb_wakePend (s : State) (x : Arb) : (s.putArb x).wakePend = s.wakePend := rfl
@[simp] theorem State.putArb_fed (s : State) (x : Arb) : (s.putArb x).fed = s.fed := rfl
@[simp] theorem State.putArb_adopting (s : State) (x : Arb) : (s.putArb x).adopting = s.adopting := rfl
@[simp] theorem State.putArb_adoptStop (s : State) (x : Arb) : (s.putArb x).adoptStop = s.adoptStop := rfl
@[simp] theorem State.putArb_adoptDone (s : State) (x : Arb) : (s.putArb x).adoptDone = s.adoptDone := rfl
@[simp] theorem State.putArb_cseqs (s : State) (x : Arb) : (s.putArb x).cseqs = s.cseqs := rfl
@[simp] theorem State.putArb_txFrames (s : State) (x : Arb) : (s.putArb x).txFrames = s.txFrames := rfl
@[simp] theorem State.putArb_idleOut (s : State) (x : Arb) : (s.putArb x).idleOut = s.idleOut := rfl
@[simp] theorem State.putArb_tunits (s : State) (x : Arb) : (s.putArb x).tunits = s.tunits := rfl
@[simp] theorem State.putArb_mbist (s : State) (x : Arb) : (s.putArb x).mbist = s.mbist := rfl
@[simp] theorem State.putArb_nextAid (s : State) (x : Arb) : (s.putArb x).nextAid = s.nextAid := rfl
@[simp] theorem State.putArb_freeCtr (s : State) (x : Arb) : (s.putArb x).freeCtr = s.freeCtr := rfl
@[simp] theorem State.dropAccess_pending (s : State) (aid : Nat) : (s.dropAccess aid).pending = s.pending := rfl
@[simp] theorem State.dropAccess_timebase (s : State) (aid : Nat) : (s.dropAccess aid).timebase = s.timebase := rfl
@[simp] theorem State.dropAccess_tbFrac (s : State) (aid : Nat) : (s.dropAccess aid).tbFrac = s.tbFrac := rfl
@[simp] theorem State.dropAccess_tbStep (s : State) (aid : Nat) : (s.dropAccess aid).tbStep = s.tbStep := rfl
@[simp] theorem State.dropAccess_nomNs (s : State) (aid : Nat) : (s.dropAccess aid).nomNs = s.nomNs := rfl
@[simp] theorem State.dropAccess_tbLatch (s : State) (aid : Nat) : (s.dropAccess aid).tbLatch = s.tbLatch := rfl
@[simp] theorem State.dropAccess_mode (s : State) (aid : Nat) : (s.dropAccess aid).mode = s.mode := rfl
@[simp] theorem State.dropAccess_modeNext (s : State) (aid : Nat) : (s.dropAccess aid).modeNext = s.modeNext := rfl
@[simp] theorem State.dropAccess_fatal (s : State) (aid : Nat) : (s.dropAccess aid).fatal = s.fatal := rfl
@[simp] theorem State.dropAccess_rstN (s : State) (aid : Nat) : (s.dropAccess aid).rstN = s.rstN := rfl
@[simp] theorem State.dropAccess_strapEvOut (s : State) (aid : Nat) : (s.dropAccess aid).strapEvOut = s.strapEvOut := rfl
@[simp] theorem State.dropAccess_strapTst (s : State) (aid : Nat) : (s.dropAccess aid).strapTst = s.strapTst := rfl
@[simp] theorem State.dropAccess_regs (s : State) (aid : Nat) : (s.dropAccess aid).regs = s.regs := rfl
@[simp] theorem State.dropAccess_lastRead (s : State) (aid : Nat) : (s.dropAccess aid).lastRead = s.lastRead := rfl
@[simp] theorem State.dropAccess_resp (s : State) (aid : Nat) : (s.dropAccess aid).resp = s.resp := rfl
@[simp] theorem State.dropAccess_is0 (s : State) (aid : Nat) : (s.dropAccess aid).is0 = s.is0 := rfl
@[simp] theorem State.dropAccess_evm (s : State) (aid : Nat) : (s.dropAccess aid).evm = s.evm := rfl
@[simp] theorem State.dropAccess_evmPend (s : State) (aid : Nat) : (s.dropAccess aid).evmPend = s.evmPend := rfl
@[simp] theorem State.dropAccess_is3 (s : State) (aid : Nat) : (s.dropAccess aid).is3 = s.is3 := rfl
@[simp] theorem State.dropAccess_is4 (s : State) (aid : Nat) : (s.dropAccess aid).is4 = s.is4 := rfl
@[simp] theorem State.dropAccess_is4Seen (s : State) (aid : Nat) : (s.dropAccess aid).is4Seen = s.is4Seen := rfl
@[simp] theorem State.dropAccess_usedWays (s : State) (aid : Nat) : (s.dropAccess aid).usedWays = s.usedWays := rfl
@[simp] theorem State.dropAccess_ctxZero (s : State) (aid : Nat) : (s.dropAccess aid).ctxZero = s.ctxZero := rfl
@[simp] theorem State.dropAccess_is6 (s : State) (aid : Nat) : (s.dropAccess aid).is6 = s.is6 := rfl
@[simp] theorem State.dropAccess_is7 (s : State) (aid : Nat) : (s.dropAccess aid).is7 = s.is7 := rfl
@[simp] theorem State.dropAccess_staged (s : State) (aid : Nat) : (s.dropAccess aid).staged = s.staged := rfl
@[simp] theorem State.dropAccess_adm (s : State) (aid : Nat) : (s.dropAccess aid).adm = s.adm := rfl
@[simp] theorem State.dropAccess_commitPins (s : State) (aid : Nat) : (s.dropAccess aid).commitPins = s.commitPins := rfl
@[simp] theorem State.dropAccess_lastSlots (s : State) (aid : Nat) : (s.dropAccess aid).lastSlots = s.lastSlots := rfl
@[simp] theorem State.dropAccess_overrun (s : State) (aid : Nat) : (s.dropAccess aid).overrun = s.overrun := rfl
@[simp] theorem State.dropAccess_queues (s : State) (aid : Nat) : (s.dropAccess aid).queues = s.queues := rfl
@[simp] theorem State.dropAccess_ways (s : State) (aid : Nat) : (s.dropAccess aid).ways = s.ways := rfl
@[simp] theorem State.dropAccess_ctxWait (s : State) (aid : Nat) : (s.dropAccess aid).ctxWait = s.ctxWait := rfl
@[simp] theorem State.dropAccess_ctxRetry (s : State) (aid : Nat) : (s.dropAccess aid).ctxRetry = s.ctxRetry := rfl
@[simp] theorem State.dropAccess_ctxWb (s : State) (aid : Nat) : (s.dropAccess aid).ctxWb = s.ctxWb := rfl
@[simp] theorem State.dropAccess_polls (s : State) (aid : Nat) : (s.dropAccess aid).polls = s.polls := rfl
@[simp] theorem State.dropAccess_pollInst (s : State) (aid : Nat) : (s.dropAccess aid).pollInst = s.pollInst := rfl
@[simp] theorem State.dropAccess_pollBudget (s : State) (aid : Nat) : (s.dropAccess aid).pollBudget = s.pollBudget := rfl
@[simp] theorem State.dropAccess_ready (s : State) (aid : Nat) : (s.dropAccess aid).ready = s.ready := rfl
@[simp] theorem State.dropAccess_sched (s : State) (aid : Nat) : (s.dropAccess aid).sched = s.sched := rfl
@[simp] theorem State.dropAccess_buckets (s : State) (aid : Nat) : (s.dropAccess aid).buckets = s.buckets := rfl
@[simp] theorem State.dropAccess_promoCtr (s : State) (aid : Nat) : (s.dropAccess aid).promoCtr = s.promoCtr := rfl
@[simp] theorem State.dropAccess_rereads (s : State) (aid : Nat) : (s.dropAccess aid).rereads = s.rereads := rfl
@[simp] theorem State.dropAccess_slots (s : State) (aid : Nat) : (s.dropAccess aid).slots = s.slots := rfl
@[simp] theorem State.dropAccess_ckpt (s : State) (aid : Nat) : (s.dropAccess aid).ckpt = s.ckpt := rfl
@[simp] theorem State.dropAccess_records (s : State) (aid : Nat) : (s.dropAccess aid).records = s.records := rfl
@[simp] theorem State.dropAccess_waitRecs (s : State) (aid : Nat) : (s.dropAccess aid).waitRecs = s.waitRecs := rfl
@[simp] theorem State.dropAccess_moving (s : State) (aid : Nat) : (s.dropAccess aid).moving = s.moving := rfl
@[simp] theorem State.dropAccess_bridge (s : State) (aid : Nat) : (s.dropAccess aid).bridge = s.bridge := rfl
@[simp] theorem State.dropAccess_takeover (s : State) (aid : Nat) : (s.dropAccess aid).takeover = s.takeover := rfl
@[simp] theorem State.dropAccess_quar (s : State) (aid : Nat) : (s.dropAccess aid).quar = s.quar := rfl
@[simp] theorem State.dropAccess_held (s : State) (aid : Nat) : (s.dropAccess aid).held = s.held := rfl
@[simp] theorem State.dropAccess_credits (s : State) (aid : Nat) : (s.dropAccess aid).credits = s.credits := rfl
@[simp] theorem State.dropAccess_portActive (s : State) (aid : Nat) : (s.dropAccess aid).portActive = s.portActive := rfl
@[simp] theorem State.dropAccess_arbs (s : State) (aid : Nat) : (s.dropAccess aid).arbs = s.arbs := rfl
@[simp] theorem State.dropAccess_uWin (s : State) (aid : Nat) : (s.dropAccess aid).uWin = s.uWin := rfl
@[simp] theorem State.dropAccess_turns (s : State) (aid : Nat) : (s.dropAccess aid).turns = s.turns := rfl
@[simp] theorem State.dropAccess_suspect (s : State) (aid : Nat) : (s.dropAccess aid).suspect = s.suspect := rfl
@[simp] theorem State.dropAccess_lateFlags (s : State) (aid : Nat) : (s.dropAccess aid).lateFlags = s.lateFlags := rfl
@[simp] theorem State.dropAccess_errQ (s : State) (aid : Nat) : (s.dropAccess aid).errQ = s.errQ := rfl
@[simp] theorem State.dropAccess_dirtyQ (s : State) (aid : Nat) : (s.dropAccess aid).dirtyQ = s.dirtyQ := rfl
@[simp] theorem State.dropAccess_dirtyFilter (s : State) (aid : Nat) : (s.dropAccess aid).dirtyFilter = s.dirtyFilter := rfl
@[simp] theorem State.dropAccess_dirtyPrev (s : State) (aid : Nat) : (s.dropAccess aid).dirtyPrev = s.dirtyPrev := rfl
@[simp] theorem State.dropAccess_closing (s : State) (aid : Nat) : (s.dropAccess aid).closing = s.closing := rfl
@[simp] theorem State.dropAccess_sweep (s : State) (aid : Nat) : (s.dropAccess aid).sweep = s.sweep := rfl
@[simp] theorem State.dropAccess_heldPulses (s : State) (aid : Nat) : (s.dropAccess aid).heldPulses = s.heldPulses := rfl
@[simp] theorem State.dropAccess_srcLevels (s : State) (aid : Nat) : (s.dropAccess aid).srcLevels = s.srcLevels := rfl
@[simp] theorem State.dropAccess_pulseHigh (s : State) (aid : Nat) : (s.dropAccess aid).pulseHigh = s.pulseHigh := rfl
@[simp] theorem State.dropAccess_flagSets (s : State) (aid : Nat) : (s.dropAccess aid).flagSets = s.flagSets := rfl
@[simp] theorem State.dropAccess_evIn (s : State) (aid : Nat) : (s.dropAccess aid).evIn = s.evIn := rfl
@[simp] theorem State.dropAccess_lines (s : State) (aid : Nat) : (s.dropAccess aid).lines = s.lines := rfl
@[simp] theorem State.dropAccess_evOut (s : State) (aid : Nat) : (s.dropAccess aid).evOut = s.evOut := rfl
@[simp] theorem State.dropAccess_timers (s : State) (aid : Nat) : (s.dropAccess aid).timers = s.timers := rfl
@[simp] theorem State.dropAccess_thrPrev (s : State) (aid : Nat) : (s.dropAccess aid).thrPrev = s.thrPrev := rfl
@[simp] theorem State.dropAccess_snaps (s : State) (aid : Nat) : (s.dropAccess aid).snaps = s.snaps := rfl
@[simp] theorem State.dropAccess_copySeq (s : State) (aid : Nat) : (s.dropAccess aid).copySeq = s.copySeq := rfl
@[simp] theorem State.dropAccess_occDue (s : State) (aid : Nat) : (s.dropAccess aid).occDue = s.occDue := rfl
@[simp] theorem State.dropAccess_plls (s : State) (aid : Nat) : (s.dropAccess aid).plls = s.plls := rfl
@[simp] theorem State.dropAccess_muxes (s : State) (aid : Nat) : (s.dropAccess aid).muxes = s.muxes := rfl
@[simp] theorem State.dropAccess_clkWait (s : State) (aid : Nat) : (s.dropAccess aid).clkWait = s.clkWait := rfl
@[simp] theorem State.dropAccess_pchange (s : State) (aid : Nat) : (s.dropAccess aid).pchange = s.pchange := rfl
@[simp] theorem State.dropAccess_pwAck (s : State) (aid : Nat) : (s.dropAccess aid).pwAck = s.pwAck := rfl
@[simp] theorem State.dropAccess_pwRest (s : State) (aid : Nat) : (s.dropAccess aid).pwRest = s.pwRest := rfl
@[simp] theorem State.dropAccess_idleSince (s : State) (aid : Nat) : (s.dropAccess aid).idleSince = s.idleSince := rfl
@[simp] theorem State.dropAccess_wakeAt (s : State) (aid : Nat) : (s.dropAccess aid).wakeAt = s.wakeAt := rfl
@[simp] theorem State.dropAccess_restEnter (s : State) (aid : Nat) : (s.dropAccess aid).restEnter = s.restEnter := rfl
@[simp] theorem State.dropAccess_restAt (s : State) (aid : Nat) : (s.dropAccess aid).restAt = s.restAt := rfl
@[simp] theorem State.dropAccess_wakePend (s : State) (aid : Nat) : (s.dropAccess aid).wakePend = s.wakePend := rfl
@[simp] theorem State.dropAccess_fed (s : State) (aid : Nat) : (s.dropAccess aid).fed = s.fed := rfl
@[simp] theorem State.dropAccess_adopting (s : State) (aid : Nat) : (s.dropAccess aid).adopting = s.adopting := rfl
@[simp] theorem State.dropAccess_adoptStop (s : State) (aid : Nat) : (s.dropAccess aid).adoptStop = s.adoptStop := rfl
@[simp] theorem State.dropAccess_adoptDone (s : State) (aid : Nat) : (s.dropAccess aid).adoptDone = s.adoptDone := rfl
@[simp] theorem State.dropAccess_cseqs (s : State) (aid : Nat) : (s.dropAccess aid).cseqs = s.cseqs := rfl
@[simp] theorem State.dropAccess_txFrames (s : State) (aid : Nat) : (s.dropAccess aid).txFrames = s.txFrames := rfl
@[simp] theorem State.dropAccess_idleOut (s : State) (aid : Nat) : (s.dropAccess aid).idleOut = s.idleOut := rfl
@[simp] theorem State.dropAccess_tunits (s : State) (aid : Nat) : (s.dropAccess aid).tunits = s.tunits := rfl
@[simp] theorem State.dropAccess_mbist (s : State) (aid : Nat) : (s.dropAccess aid).mbist = s.mbist := rfl
@[simp] theorem State.dropAccess_nextAid (s : State) (aid : Nat) : (s.dropAccess aid).nextAid = s.nextAid := rfl
@[simp] theorem State.dropAccess_freeCtr (s : State) (aid : Nat) : (s.dropAccess aid).freeCtr = s.freeCtr := rfl
@[simp] theorem State.quarantine_pending (s : State) (a : Access) : (s.quarantine a).pending = s.pending := rfl
@[simp] theorem State.quarantine_timebase (s : State) (a : Access) : (s.quarantine a).timebase = s.timebase := rfl
@[simp] theorem State.quarantine_tbFrac (s : State) (a : Access) : (s.quarantine a).tbFrac = s.tbFrac := rfl
@[simp] theorem State.quarantine_tbStep (s : State) (a : Access) : (s.quarantine a).tbStep = s.tbStep := rfl
@[simp] theorem State.quarantine_nomNs (s : State) (a : Access) : (s.quarantine a).nomNs = s.nomNs := rfl
@[simp] theorem State.quarantine_tbLatch (s : State) (a : Access) : (s.quarantine a).tbLatch = s.tbLatch := rfl
@[simp] theorem State.quarantine_mode (s : State) (a : Access) : (s.quarantine a).mode = s.mode := rfl
@[simp] theorem State.quarantine_modeNext (s : State) (a : Access) : (s.quarantine a).modeNext = s.modeNext := rfl
@[simp] theorem State.quarantine_fatal (s : State) (a : Access) : (s.quarantine a).fatal = s.fatal := rfl
@[simp] theorem State.quarantine_rstN (s : State) (a : Access) : (s.quarantine a).rstN = s.rstN := rfl
@[simp] theorem State.quarantine_strapEvOut (s : State) (a : Access) : (s.quarantine a).strapEvOut = s.strapEvOut := rfl
@[simp] theorem State.quarantine_strapTst (s : State) (a : Access) : (s.quarantine a).strapTst = s.strapTst := rfl
@[simp] theorem State.quarantine_regs (s : State) (a : Access) : (s.quarantine a).regs = s.regs := rfl
@[simp] theorem State.quarantine_lastRead (s : State) (a : Access) : (s.quarantine a).lastRead = s.lastRead := rfl
@[simp] theorem State.quarantine_resp (s : State) (a : Access) : (s.quarantine a).resp = s.resp := rfl
@[simp] theorem State.quarantine_is0 (s : State) (a : Access) : (s.quarantine a).is0 = s.is0 := rfl
@[simp] theorem State.quarantine_evm (s : State) (a : Access) : (s.quarantine a).evm = s.evm := rfl
@[simp] theorem State.quarantine_evmPend (s : State) (a : Access) : (s.quarantine a).evmPend = s.evmPend := rfl
@[simp] theorem State.quarantine_is3 (s : State) (a : Access) : (s.quarantine a).is3 = s.is3 := rfl
@[simp] theorem State.quarantine_is4 (s : State) (a : Access) : (s.quarantine a).is4 = s.is4 := rfl
@[simp] theorem State.quarantine_is4Seen (s : State) (a : Access) : (s.quarantine a).is4Seen = s.is4Seen := rfl
@[simp] theorem State.quarantine_usedWays (s : State) (a : Access) : (s.quarantine a).usedWays = s.usedWays := rfl
@[simp] theorem State.quarantine_ctxZero (s : State) (a : Access) : (s.quarantine a).ctxZero = s.ctxZero := rfl
@[simp] theorem State.quarantine_is6 (s : State) (a : Access) : (s.quarantine a).is6 = s.is6 := rfl
@[simp] theorem State.quarantine_is7 (s : State) (a : Access) : (s.quarantine a).is7 = s.is7 := rfl
@[simp] theorem State.quarantine_staged (s : State) (a : Access) : (s.quarantine a).staged = s.staged := rfl
@[simp] theorem State.quarantine_adm (s : State) (a : Access) : (s.quarantine a).adm = s.adm := rfl
@[simp] theorem State.quarantine_commitPins (s : State) (a : Access) : (s.quarantine a).commitPins = s.commitPins := rfl
@[simp] theorem State.quarantine_lastSlots (s : State) (a : Access) : (s.quarantine a).lastSlots = s.lastSlots := rfl
@[simp] theorem State.quarantine_overrun (s : State) (a : Access) : (s.quarantine a).overrun = s.overrun := rfl
@[simp] theorem State.quarantine_queues (s : State) (a : Access) : (s.quarantine a).queues = s.queues := rfl
@[simp] theorem State.quarantine_ways (s : State) (a : Access) : (s.quarantine a).ways = s.ways := rfl
@[simp] theorem State.quarantine_ctxWait (s : State) (a : Access) : (s.quarantine a).ctxWait = s.ctxWait := rfl
@[simp] theorem State.quarantine_ctxRetry (s : State) (a : Access) : (s.quarantine a).ctxRetry = s.ctxRetry := rfl
@[simp] theorem State.quarantine_ctxWb (s : State) (a : Access) : (s.quarantine a).ctxWb = s.ctxWb := rfl
@[simp] theorem State.quarantine_polls (s : State) (a : Access) : (s.quarantine a).polls = s.polls := rfl
@[simp] theorem State.quarantine_pollInst (s : State) (a : Access) : (s.quarantine a).pollInst = s.pollInst := rfl
@[simp] theorem State.quarantine_pollBudget (s : State) (a : Access) : (s.quarantine a).pollBudget = s.pollBudget := rfl
@[simp] theorem State.quarantine_ready (s : State) (a : Access) : (s.quarantine a).ready = s.ready := rfl
@[simp] theorem State.quarantine_sched (s : State) (a : Access) : (s.quarantine a).sched = s.sched := rfl
@[simp] theorem State.quarantine_buckets (s : State) (a : Access) : (s.quarantine a).buckets = s.buckets := rfl
@[simp] theorem State.quarantine_promoCtr (s : State) (a : Access) : (s.quarantine a).promoCtr = s.promoCtr := rfl
@[simp] theorem State.quarantine_rereads (s : State) (a : Access) : (s.quarantine a).rereads = s.rereads := rfl
@[simp] theorem State.quarantine_slots (s : State) (a : Access) : (s.quarantine a).slots = s.slots := rfl
@[simp] theorem State.quarantine_ckpt (s : State) (a : Access) : (s.quarantine a).ckpt = s.ckpt := rfl
@[simp] theorem State.quarantine_records (s : State) (a : Access) : (s.quarantine a).records = s.records := rfl
@[simp] theorem State.quarantine_waitRecs (s : State) (a : Access) : (s.quarantine a).waitRecs = s.waitRecs := rfl
@[simp] theorem State.quarantine_moving (s : State) (a : Access) : (s.quarantine a).moving = s.moving := rfl
@[simp] theorem State.quarantine_bridge (s : State) (a : Access) : (s.quarantine a).bridge = s.bridge := rfl
@[simp] theorem State.quarantine_takeover (s : State) (a : Access) : (s.quarantine a).takeover = s.takeover := rfl
@[simp] theorem State.quarantine_held (s : State) (a : Access) : (s.quarantine a).held = s.held := rfl
@[simp] theorem State.quarantine_credits (s : State) (a : Access) : (s.quarantine a).credits = s.credits := rfl
@[simp] theorem State.quarantine_portActive (s : State) (a : Access) : (s.quarantine a).portActive = s.portActive := rfl
@[simp] theorem State.quarantine_arbs (s : State) (a : Access) : (s.quarantine a).arbs = s.arbs := rfl
@[simp] theorem State.quarantine_uWin (s : State) (a : Access) : (s.quarantine a).uWin = s.uWin := rfl
@[simp] theorem State.quarantine_turns (s : State) (a : Access) : (s.quarantine a).turns = s.turns := rfl
@[simp] theorem State.quarantine_suspect (s : State) (a : Access) : (s.quarantine a).suspect = s.suspect := rfl
@[simp] theorem State.quarantine_lateFlags (s : State) (a : Access) : (s.quarantine a).lateFlags = s.lateFlags := rfl
@[simp] theorem State.quarantine_errQ (s : State) (a : Access) : (s.quarantine a).errQ = s.errQ := rfl
@[simp] theorem State.quarantine_dirtyQ (s : State) (a : Access) : (s.quarantine a).dirtyQ = s.dirtyQ := rfl
@[simp] theorem State.quarantine_dirtyFilter (s : State) (a : Access) : (s.quarantine a).dirtyFilter = s.dirtyFilter := rfl
@[simp] theorem State.quarantine_dirtyPrev (s : State) (a : Access) : (s.quarantine a).dirtyPrev = s.dirtyPrev := rfl
@[simp] theorem State.quarantine_closing (s : State) (a : Access) : (s.quarantine a).closing = s.closing := rfl
@[simp] theorem State.quarantine_sweep (s : State) (a : Access) : (s.quarantine a).sweep = s.sweep := rfl
@[simp] theorem State.quarantine_heldPulses (s : State) (a : Access) : (s.quarantine a).heldPulses = s.heldPulses := rfl
@[simp] theorem State.quarantine_srcLevels (s : State) (a : Access) : (s.quarantine a).srcLevels = s.srcLevels := rfl
@[simp] theorem State.quarantine_pulseHigh (s : State) (a : Access) : (s.quarantine a).pulseHigh = s.pulseHigh := rfl
@[simp] theorem State.quarantine_flagSets (s : State) (a : Access) : (s.quarantine a).flagSets = s.flagSets := rfl
@[simp] theorem State.quarantine_evIn (s : State) (a : Access) : (s.quarantine a).evIn = s.evIn := rfl
@[simp] theorem State.quarantine_lines (s : State) (a : Access) : (s.quarantine a).lines = s.lines := rfl
@[simp] theorem State.quarantine_evOut (s : State) (a : Access) : (s.quarantine a).evOut = s.evOut := rfl
@[simp] theorem State.quarantine_timers (s : State) (a : Access) : (s.quarantine a).timers = s.timers := rfl
@[simp] theorem State.quarantine_thrPrev (s : State) (a : Access) : (s.quarantine a).thrPrev = s.thrPrev := rfl
@[simp] theorem State.quarantine_snaps (s : State) (a : Access) : (s.quarantine a).snaps = s.snaps := rfl
@[simp] theorem State.quarantine_copySeq (s : State) (a : Access) : (s.quarantine a).copySeq = s.copySeq := rfl
@[simp] theorem State.quarantine_occDue (s : State) (a : Access) : (s.quarantine a).occDue = s.occDue := rfl
@[simp] theorem State.quarantine_plls (s : State) (a : Access) : (s.quarantine a).plls = s.plls := rfl
@[simp] theorem State.quarantine_muxes (s : State) (a : Access) : (s.quarantine a).muxes = s.muxes := rfl
@[simp] theorem State.quarantine_clkWait (s : State) (a : Access) : (s.quarantine a).clkWait = s.clkWait := rfl
@[simp] theorem State.quarantine_pchange (s : State) (a : Access) : (s.quarantine a).pchange = s.pchange := rfl
@[simp] theorem State.quarantine_pwAck (s : State) (a : Access) : (s.quarantine a).pwAck = s.pwAck := rfl
@[simp] theorem State.quarantine_pwRest (s : State) (a : Access) : (s.quarantine a).pwRest = s.pwRest := rfl
@[simp] theorem State.quarantine_idleSince (s : State) (a : Access) : (s.quarantine a).idleSince = s.idleSince := rfl
@[simp] theorem State.quarantine_wakeAt (s : State) (a : Access) : (s.quarantine a).wakeAt = s.wakeAt := rfl
@[simp] theorem State.quarantine_restEnter (s : State) (a : Access) : (s.quarantine a).restEnter = s.restEnter := rfl
@[simp] theorem State.quarantine_restAt (s : State) (a : Access) : (s.quarantine a).restAt = s.restAt := rfl
@[simp] theorem State.quarantine_wakePend (s : State) (a : Access) : (s.quarantine a).wakePend = s.wakePend := rfl
@[simp] theorem State.quarantine_fed (s : State) (a : Access) : (s.quarantine a).fed = s.fed := rfl
@[simp] theorem State.quarantine_adopting (s : State) (a : Access) : (s.quarantine a).adopting = s.adopting := rfl
@[simp] theorem State.quarantine_adoptStop (s : State) (a : Access) : (s.quarantine a).adoptStop = s.adoptStop := rfl
@[simp] theorem State.quarantine_adoptDone (s : State) (a : Access) : (s.quarantine a).adoptDone = s.adoptDone := rfl
@[simp] theorem State.quarantine_cseqs (s : State) (a : Access) : (s.quarantine a).cseqs = s.cseqs := rfl
@[simp] theorem State.quarantine_txFrames (s : State) (a : Access) : (s.quarantine a).txFrames = s.txFrames := rfl
@[simp] theorem State.quarantine_idleOut (s : State) (a : Access) : (s.quarantine a).idleOut = s.idleOut := rfl
@[simp] theorem State.quarantine_tunits (s : State) (a : Access) : (s.quarantine a).tunits = s.tunits := rfl
@[simp] theorem State.quarantine_mbist (s : State) (a : Access) : (s.quarantine a).mbist = s.mbist := rfl
@[simp] theorem State.quarantine_nextAid (s : State) (a : Access) : (s.quarantine a).nextAid = s.nextAid := rfl
@[simp] theorem State.quarantine_freeCtr (s : State) (a : Access) : (s.quarantine a).freeCtr = s.freeCtr := rfl
@[simp] theorem State.setAdm_pending (s : State) (f : Adm → Adm) : (s.setAdm f).pending = s.pending := rfl
@[simp] theorem State.setAdm_timebase (s : State) (f : Adm → Adm) : (s.setAdm f).timebase = s.timebase := rfl
@[simp] theorem State.setAdm_tbFrac (s : State) (f : Adm → Adm) : (s.setAdm f).tbFrac = s.tbFrac := rfl
@[simp] theorem State.setAdm_tbStep (s : State) (f : Adm → Adm) : (s.setAdm f).tbStep = s.tbStep := rfl
@[simp] theorem State.setAdm_nomNs (s : State) (f : Adm → Adm) : (s.setAdm f).nomNs = s.nomNs := rfl
@[simp] theorem State.setAdm_tbLatch (s : State) (f : Adm → Adm) : (s.setAdm f).tbLatch = s.tbLatch := rfl
@[simp] theorem State.setAdm_mode (s : State) (f : Adm → Adm) : (s.setAdm f).mode = s.mode := rfl
@[simp] theorem State.setAdm_modeNext (s : State) (f : Adm → Adm) : (s.setAdm f).modeNext = s.modeNext := rfl
@[simp] theorem State.setAdm_fatal (s : State) (f : Adm → Adm) : (s.setAdm f).fatal = s.fatal := rfl
@[simp] theorem State.setAdm_rstN (s : State) (f : Adm → Adm) : (s.setAdm f).rstN = s.rstN := rfl
@[simp] theorem State.setAdm_strapEvOut (s : State) (f : Adm → Adm) : (s.setAdm f).strapEvOut = s.strapEvOut := rfl
@[simp] theorem State.setAdm_strapTst (s : State) (f : Adm → Adm) : (s.setAdm f).strapTst = s.strapTst := rfl
@[simp] theorem State.setAdm_regs (s : State) (f : Adm → Adm) : (s.setAdm f).regs = s.regs := rfl
@[simp] theorem State.setAdm_lastRead (s : State) (f : Adm → Adm) : (s.setAdm f).lastRead = s.lastRead := rfl
@[simp] theorem State.setAdm_resp (s : State) (f : Adm → Adm) : (s.setAdm f).resp = s.resp := rfl
@[simp] theorem State.setAdm_is0 (s : State) (f : Adm → Adm) : (s.setAdm f).is0 = s.is0 := rfl
@[simp] theorem State.setAdm_evm (s : State) (f : Adm → Adm) : (s.setAdm f).evm = s.evm := rfl
@[simp] theorem State.setAdm_evmPend (s : State) (f : Adm → Adm) : (s.setAdm f).evmPend = s.evmPend := rfl
@[simp] theorem State.setAdm_is3 (s : State) (f : Adm → Adm) : (s.setAdm f).is3 = s.is3 := rfl
@[simp] theorem State.setAdm_is4 (s : State) (f : Adm → Adm) : (s.setAdm f).is4 = s.is4 := rfl
@[simp] theorem State.setAdm_is4Seen (s : State) (f : Adm → Adm) : (s.setAdm f).is4Seen = s.is4Seen := rfl
@[simp] theorem State.setAdm_usedWays (s : State) (f : Adm → Adm) : (s.setAdm f).usedWays = s.usedWays := rfl
@[simp] theorem State.setAdm_ctxZero (s : State) (f : Adm → Adm) : (s.setAdm f).ctxZero = s.ctxZero := rfl
@[simp] theorem State.setAdm_is6 (s : State) (f : Adm → Adm) : (s.setAdm f).is6 = s.is6 := rfl
@[simp] theorem State.setAdm_is7 (s : State) (f : Adm → Adm) : (s.setAdm f).is7 = s.is7 := rfl
@[simp] theorem State.setAdm_staged (s : State) (f : Adm → Adm) : (s.setAdm f).staged = s.staged := rfl
@[simp] theorem State.setAdm_commitPins (s : State) (f : Adm → Adm) : (s.setAdm f).commitPins = s.commitPins := rfl
@[simp] theorem State.setAdm_lastSlots (s : State) (f : Adm → Adm) : (s.setAdm f).lastSlots = s.lastSlots := rfl
@[simp] theorem State.setAdm_overrun (s : State) (f : Adm → Adm) : (s.setAdm f).overrun = s.overrun := rfl
@[simp] theorem State.setAdm_queues (s : State) (f : Adm → Adm) : (s.setAdm f).queues = s.queues := rfl
@[simp] theorem State.setAdm_ways (s : State) (f : Adm → Adm) : (s.setAdm f).ways = s.ways := rfl
@[simp] theorem State.setAdm_ctxWait (s : State) (f : Adm → Adm) : (s.setAdm f).ctxWait = s.ctxWait := rfl
@[simp] theorem State.setAdm_ctxRetry (s : State) (f : Adm → Adm) : (s.setAdm f).ctxRetry = s.ctxRetry := rfl
@[simp] theorem State.setAdm_ctxWb (s : State) (f : Adm → Adm) : (s.setAdm f).ctxWb = s.ctxWb := rfl
@[simp] theorem State.setAdm_polls (s : State) (f : Adm → Adm) : (s.setAdm f).polls = s.polls := rfl
@[simp] theorem State.setAdm_pollInst (s : State) (f : Adm → Adm) : (s.setAdm f).pollInst = s.pollInst := rfl
@[simp] theorem State.setAdm_pollBudget (s : State) (f : Adm → Adm) : (s.setAdm f).pollBudget = s.pollBudget := rfl
@[simp] theorem State.setAdm_ready (s : State) (f : Adm → Adm) : (s.setAdm f).ready = s.ready := rfl
@[simp] theorem State.setAdm_sched (s : State) (f : Adm → Adm) : (s.setAdm f).sched = s.sched := rfl
@[simp] theorem State.setAdm_buckets (s : State) (f : Adm → Adm) : (s.setAdm f).buckets = s.buckets := rfl
@[simp] theorem State.setAdm_promoCtr (s : State) (f : Adm → Adm) : (s.setAdm f).promoCtr = s.promoCtr := rfl
@[simp] theorem State.setAdm_rereads (s : State) (f : Adm → Adm) : (s.setAdm f).rereads = s.rereads := rfl
@[simp] theorem State.setAdm_slots (s : State) (f : Adm → Adm) : (s.setAdm f).slots = s.slots := rfl
@[simp] theorem State.setAdm_ckpt (s : State) (f : Adm → Adm) : (s.setAdm f).ckpt = s.ckpt := rfl
@[simp] theorem State.setAdm_records (s : State) (f : Adm → Adm) : (s.setAdm f).records = s.records := rfl
@[simp] theorem State.setAdm_waitRecs (s : State) (f : Adm → Adm) : (s.setAdm f).waitRecs = s.waitRecs := rfl
@[simp] theorem State.setAdm_moving (s : State) (f : Adm → Adm) : (s.setAdm f).moving = s.moving := rfl
@[simp] theorem State.setAdm_bridge (s : State) (f : Adm → Adm) : (s.setAdm f).bridge = s.bridge := rfl
@[simp] theorem State.setAdm_takeover (s : State) (f : Adm → Adm) : (s.setAdm f).takeover = s.takeover := rfl
@[simp] theorem State.setAdm_acc (s : State) (f : Adm → Adm) : (s.setAdm f).acc = s.acc := rfl
@[simp] theorem State.setAdm_quar (s : State) (f : Adm → Adm) : (s.setAdm f).quar = s.quar := rfl
@[simp] theorem State.setAdm_held (s : State) (f : Adm → Adm) : (s.setAdm f).held = s.held := rfl
@[simp] theorem State.setAdm_credits (s : State) (f : Adm → Adm) : (s.setAdm f).credits = s.credits := rfl
@[simp] theorem State.setAdm_portActive (s : State) (f : Adm → Adm) : (s.setAdm f).portActive = s.portActive := rfl
@[simp] theorem State.setAdm_arbs (s : State) (f : Adm → Adm) : (s.setAdm f).arbs = s.arbs := rfl
@[simp] theorem State.setAdm_uWin (s : State) (f : Adm → Adm) : (s.setAdm f).uWin = s.uWin := rfl
@[simp] theorem State.setAdm_turns (s : State) (f : Adm → Adm) : (s.setAdm f).turns = s.turns := rfl
@[simp] theorem State.setAdm_suspect (s : State) (f : Adm → Adm) : (s.setAdm f).suspect = s.suspect := rfl
@[simp] theorem State.setAdm_lateFlags (s : State) (f : Adm → Adm) : (s.setAdm f).lateFlags = s.lateFlags := rfl
@[simp] theorem State.setAdm_errQ (s : State) (f : Adm → Adm) : (s.setAdm f).errQ = s.errQ := rfl
@[simp] theorem State.setAdm_dirtyQ (s : State) (f : Adm → Adm) : (s.setAdm f).dirtyQ = s.dirtyQ := rfl
@[simp] theorem State.setAdm_dirtyFilter (s : State) (f : Adm → Adm) : (s.setAdm f).dirtyFilter = s.dirtyFilter := rfl
@[simp] theorem State.setAdm_dirtyPrev (s : State) (f : Adm → Adm) : (s.setAdm f).dirtyPrev = s.dirtyPrev := rfl
@[simp] theorem State.setAdm_closing (s : State) (f : Adm → Adm) : (s.setAdm f).closing = s.closing := rfl
@[simp] theorem State.setAdm_sweep (s : State) (f : Adm → Adm) : (s.setAdm f).sweep = s.sweep := rfl
@[simp] theorem State.setAdm_heldPulses (s : State) (f : Adm → Adm) : (s.setAdm f).heldPulses = s.heldPulses := rfl
@[simp] theorem State.setAdm_srcLevels (s : State) (f : Adm → Adm) : (s.setAdm f).srcLevels = s.srcLevels := rfl
@[simp] theorem State.setAdm_pulseHigh (s : State) (f : Adm → Adm) : (s.setAdm f).pulseHigh = s.pulseHigh := rfl
@[simp] theorem State.setAdm_flagSets (s : State) (f : Adm → Adm) : (s.setAdm f).flagSets = s.flagSets := rfl
@[simp] theorem State.setAdm_evIn (s : State) (f : Adm → Adm) : (s.setAdm f).evIn = s.evIn := rfl
@[simp] theorem State.setAdm_lines (s : State) (f : Adm → Adm) : (s.setAdm f).lines = s.lines := rfl
@[simp] theorem State.setAdm_evOut (s : State) (f : Adm → Adm) : (s.setAdm f).evOut = s.evOut := rfl
@[simp] theorem State.setAdm_timers (s : State) (f : Adm → Adm) : (s.setAdm f).timers = s.timers := rfl
@[simp] theorem State.setAdm_thrPrev (s : State) (f : Adm → Adm) : (s.setAdm f).thrPrev = s.thrPrev := rfl
@[simp] theorem State.setAdm_snaps (s : State) (f : Adm → Adm) : (s.setAdm f).snaps = s.snaps := rfl
@[simp] theorem State.setAdm_copySeq (s : State) (f : Adm → Adm) : (s.setAdm f).copySeq = s.copySeq := rfl
@[simp] theorem State.setAdm_occDue (s : State) (f : Adm → Adm) : (s.setAdm f).occDue = s.occDue := rfl
@[simp] theorem State.setAdm_plls (s : State) (f : Adm → Adm) : (s.setAdm f).plls = s.plls := rfl
@[simp] theorem State.setAdm_muxes (s : State) (f : Adm → Adm) : (s.setAdm f).muxes = s.muxes := rfl
@[simp] theorem State.setAdm_clkWait (s : State) (f : Adm → Adm) : (s.setAdm f).clkWait = s.clkWait := rfl
@[simp] theorem State.setAdm_pchange (s : State) (f : Adm → Adm) : (s.setAdm f).pchange = s.pchange := rfl
@[simp] theorem State.setAdm_pwAck (s : State) (f : Adm → Adm) : (s.setAdm f).pwAck = s.pwAck := rfl
@[simp] theorem State.setAdm_pwRest (s : State) (f : Adm → Adm) : (s.setAdm f).pwRest = s.pwRest := rfl
@[simp] theorem State.setAdm_idleSince (s : State) (f : Adm → Adm) : (s.setAdm f).idleSince = s.idleSince := rfl
@[simp] theorem State.setAdm_wakeAt (s : State) (f : Adm → Adm) : (s.setAdm f).wakeAt = s.wakeAt := rfl
@[simp] theorem State.setAdm_restEnter (s : State) (f : Adm → Adm) : (s.setAdm f).restEnter = s.restEnter := rfl
@[simp] theorem State.setAdm_restAt (s : State) (f : Adm → Adm) : (s.setAdm f).restAt = s.restAt := rfl
@[simp] theorem State.setAdm_wakePend (s : State) (f : Adm → Adm) : (s.setAdm f).wakePend = s.wakePend := rfl
@[simp] theorem State.setAdm_fed (s : State) (f : Adm → Adm) : (s.setAdm f).fed = s.fed := rfl
@[simp] theorem State.setAdm_adopting (s : State) (f : Adm → Adm) : (s.setAdm f).adopting = s.adopting := rfl
@[simp] theorem State.setAdm_adoptStop (s : State) (f : Adm → Adm) : (s.setAdm f).adoptStop = s.adoptStop := rfl
@[simp] theorem State.setAdm_adoptDone (s : State) (f : Adm → Adm) : (s.setAdm f).adoptDone = s.adoptDone := rfl
@[simp] theorem State.setAdm_cseqs (s : State) (f : Adm → Adm) : (s.setAdm f).cseqs = s.cseqs := rfl
@[simp] theorem State.setAdm_txFrames (s : State) (f : Adm → Adm) : (s.setAdm f).txFrames = s.txFrames := rfl
@[simp] theorem State.setAdm_idleOut (s : State) (f : Adm → Adm) : (s.setAdm f).idleOut = s.idleOut := rfl
@[simp] theorem State.setAdm_tunits (s : State) (f : Adm → Adm) : (s.setAdm f).tunits = s.tunits := rfl
@[simp] theorem State.setAdm_mbist (s : State) (f : Adm → Adm) : (s.setAdm f).mbist = s.mbist := rfl
@[simp] theorem State.setAdm_nextAid (s : State) (f : Adm → Adm) : (s.setAdm f).nextAid = s.nextAid := rfl
@[simp] theorem State.setAdm_freeCtr (s : State) (f : Adm → Adm) : (s.setAdm f).freeCtr = s.freeCtr := rfl
@[simp] theorem State.updSlot_pending (s : State) (c i : Nat) (f : Slot → Slot) : (s.updSlot c i f).pending = s.pending := rfl
@[simp] theorem State.updSlot_timebase (s : State) (c i : Nat) (f : Slot → Slot) : (s.updSlot c i f).timebase = s.timebase := rfl
@[simp] theorem State.updSlot_tbFrac (s : State) (c i : Nat) (f : Slot → Slot) : (s.updSlot c i f).tbFrac = s.tbFrac := rfl
@[simp] theorem State.updSlot_tbStep (s : State) (c i : Nat) (f : Slot → Slot) : (s.updSlot c i f).tbStep = s.tbStep := rfl
@[simp] theorem State.updSlot_nomNs (s : State) (c i : Nat) (f : Slot → Slot) : (s.updSlot c i f).nomNs = s.nomNs := rfl
@[simp] theorem State.updSlot_tbLatch (s : State) (c i : Nat) (f : Slot → Slot) : (s.updSlot c i f).tbLatch = s.tbLatch := rfl
@[simp] theorem State.updSlot_mode (s : State) (c i : Nat) (f : Slot → Slot) : (s.updSlot c i f).mode = s.mode := rfl
@[simp] theorem State.updSlot_modeNext (s : State) (c i : Nat) (f : Slot → Slot) : (s.updSlot c i f).modeNext = s.modeNext := rfl
@[simp] theorem State.updSlot_fatal (s : State) (c i : Nat) (f : Slot → Slot) : (s.updSlot c i f).fatal = s.fatal := rfl
@[simp] theorem State.updSlot_rstN (s : State) (c i : Nat) (f : Slot → Slot) : (s.updSlot c i f).rstN = s.rstN := rfl
@[simp] theorem State.updSlot_strapEvOut (s : State) (c i : Nat) (f : Slot → Slot) : (s.updSlot c i f).strapEvOut = s.strapEvOut := rfl
@[simp] theorem State.updSlot_strapTst (s : State) (c i : Nat) (f : Slot → Slot) : (s.updSlot c i f).strapTst = s.strapTst := rfl
@[simp] theorem State.updSlot_regs (s : State) (c i : Nat) (f : Slot → Slot) : (s.updSlot c i f).regs = s.regs := rfl
@[simp] theorem State.updSlot_lastRead (s : State) (c i : Nat) (f : Slot → Slot) : (s.updSlot c i f).lastRead = s.lastRead := rfl
@[simp] theorem State.updSlot_resp (s : State) (c i : Nat) (f : Slot → Slot) : (s.updSlot c i f).resp = s.resp := rfl
@[simp] theorem State.updSlot_is0 (s : State) (c i : Nat) (f : Slot → Slot) : (s.updSlot c i f).is0 = s.is0 := rfl
@[simp] theorem State.updSlot_evm (s : State) (c i : Nat) (f : Slot → Slot) : (s.updSlot c i f).evm = s.evm := rfl
@[simp] theorem State.updSlot_evmPend (s : State) (c i : Nat) (f : Slot → Slot) : (s.updSlot c i f).evmPend = s.evmPend := rfl
@[simp] theorem State.updSlot_is3 (s : State) (c i : Nat) (f : Slot → Slot) : (s.updSlot c i f).is3 = s.is3 := rfl
@[simp] theorem State.updSlot_is4 (s : State) (c i : Nat) (f : Slot → Slot) : (s.updSlot c i f).is4 = s.is4 := rfl
@[simp] theorem State.updSlot_is4Seen (s : State) (c i : Nat) (f : Slot → Slot) : (s.updSlot c i f).is4Seen = s.is4Seen := rfl
@[simp] theorem State.updSlot_usedWays (s : State) (c i : Nat) (f : Slot → Slot) : (s.updSlot c i f).usedWays = s.usedWays := rfl
@[simp] theorem State.updSlot_ctxZero (s : State) (c i : Nat) (f : Slot → Slot) : (s.updSlot c i f).ctxZero = s.ctxZero := rfl
@[simp] theorem State.updSlot_is6 (s : State) (c i : Nat) (f : Slot → Slot) : (s.updSlot c i f).is6 = s.is6 := rfl
@[simp] theorem State.updSlot_is7 (s : State) (c i : Nat) (f : Slot → Slot) : (s.updSlot c i f).is7 = s.is7 := rfl
@[simp] theorem State.updSlot_staged (s : State) (c i : Nat) (f : Slot → Slot) : (s.updSlot c i f).staged = s.staged := rfl
@[simp] theorem State.updSlot_adm (s : State) (c i : Nat) (f : Slot → Slot) : (s.updSlot c i f).adm = s.adm := rfl
@[simp] theorem State.updSlot_commitPins (s : State) (c i : Nat) (f : Slot → Slot) : (s.updSlot c i f).commitPins = s.commitPins := rfl
@[simp] theorem State.updSlot_lastSlots (s : State) (c i : Nat) (f : Slot → Slot) : (s.updSlot c i f).lastSlots = s.lastSlots := rfl
@[simp] theorem State.updSlot_overrun (s : State) (c i : Nat) (f : Slot → Slot) : (s.updSlot c i f).overrun = s.overrun := rfl
@[simp] theorem State.updSlot_queues (s : State) (c i : Nat) (f : Slot → Slot) : (s.updSlot c i f).queues = s.queues := rfl
@[simp] theorem State.updSlot_ways (s : State) (c i : Nat) (f : Slot → Slot) : (s.updSlot c i f).ways = s.ways := rfl
@[simp] theorem State.updSlot_ctxWait (s : State) (c i : Nat) (f : Slot → Slot) : (s.updSlot c i f).ctxWait = s.ctxWait := rfl
@[simp] theorem State.updSlot_ctxRetry (s : State) (c i : Nat) (f : Slot → Slot) : (s.updSlot c i f).ctxRetry = s.ctxRetry := rfl
@[simp] theorem State.updSlot_ctxWb (s : State) (c i : Nat) (f : Slot → Slot) : (s.updSlot c i f).ctxWb = s.ctxWb := rfl
@[simp] theorem State.updSlot_polls (s : State) (c i : Nat) (f : Slot → Slot) : (s.updSlot c i f).polls = s.polls := rfl
@[simp] theorem State.updSlot_pollInst (s : State) (c i : Nat) (f : Slot → Slot) : (s.updSlot c i f).pollInst = s.pollInst := rfl
@[simp] theorem State.updSlot_pollBudget (s : State) (c i : Nat) (f : Slot → Slot) : (s.updSlot c i f).pollBudget = s.pollBudget := rfl
@[simp] theorem State.updSlot_ready (s : State) (c i : Nat) (f : Slot → Slot) : (s.updSlot c i f).ready = s.ready := rfl
@[simp] theorem State.updSlot_sched (s : State) (c i : Nat) (f : Slot → Slot) : (s.updSlot c i f).sched = s.sched := rfl
@[simp] theorem State.updSlot_buckets (s : State) (c i : Nat) (f : Slot → Slot) : (s.updSlot c i f).buckets = s.buckets := rfl
@[simp] theorem State.updSlot_promoCtr (s : State) (c i : Nat) (f : Slot → Slot) : (s.updSlot c i f).promoCtr = s.promoCtr := rfl
@[simp] theorem State.updSlot_rereads (s : State) (c i : Nat) (f : Slot → Slot) : (s.updSlot c i f).rereads = s.rereads := rfl
@[simp] theorem State.updSlot_ckpt (s : State) (c i : Nat) (f : Slot → Slot) : (s.updSlot c i f).ckpt = s.ckpt := rfl
@[simp] theorem State.updSlot_records (s : State) (c i : Nat) (f : Slot → Slot) : (s.updSlot c i f).records = s.records := rfl
@[simp] theorem State.updSlot_waitRecs (s : State) (c i : Nat) (f : Slot → Slot) : (s.updSlot c i f).waitRecs = s.waitRecs := rfl
@[simp] theorem State.updSlot_moving (s : State) (c i : Nat) (f : Slot → Slot) : (s.updSlot c i f).moving = s.moving := rfl
@[simp] theorem State.updSlot_bridge (s : State) (c i : Nat) (f : Slot → Slot) : (s.updSlot c i f).bridge = s.bridge := rfl
@[simp] theorem State.updSlot_takeover (s : State) (c i : Nat) (f : Slot → Slot) : (s.updSlot c i f).takeover = s.takeover := rfl
@[simp] theorem State.updSlot_acc (s : State) (c i : Nat) (f : Slot → Slot) : (s.updSlot c i f).acc = s.acc := rfl
@[simp] theorem State.updSlot_quar (s : State) (c i : Nat) (f : Slot → Slot) : (s.updSlot c i f).quar = s.quar := rfl
@[simp] theorem State.updSlot_held (s : State) (c i : Nat) (f : Slot → Slot) : (s.updSlot c i f).held = s.held := rfl
@[simp] theorem State.updSlot_credits (s : State) (c i : Nat) (f : Slot → Slot) : (s.updSlot c i f).credits = s.credits := rfl
@[simp] theorem State.updSlot_portActive (s : State) (c i : Nat) (f : Slot → Slot) : (s.updSlot c i f).portActive = s.portActive := rfl
@[simp] theorem State.updSlot_arbs (s : State) (c i : Nat) (f : Slot → Slot) : (s.updSlot c i f).arbs = s.arbs := rfl
@[simp] theorem State.updSlot_uWin (s : State) (c i : Nat) (f : Slot → Slot) : (s.updSlot c i f).uWin = s.uWin := rfl
@[simp] theorem State.updSlot_turns (s : State) (c i : Nat) (f : Slot → Slot) : (s.updSlot c i f).turns = s.turns := rfl
@[simp] theorem State.updSlot_suspect (s : State) (c i : Nat) (f : Slot → Slot) : (s.updSlot c i f).suspect = s.suspect := rfl
@[simp] theorem State.updSlot_lateFlags (s : State) (c i : Nat) (f : Slot → Slot) : (s.updSlot c i f).lateFlags = s.lateFlags := rfl
@[simp] theorem State.updSlot_errQ (s : State) (c i : Nat) (f : Slot → Slot) : (s.updSlot c i f).errQ = s.errQ := rfl
@[simp] theorem State.updSlot_dirtyQ (s : State) (c i : Nat) (f : Slot → Slot) : (s.updSlot c i f).dirtyQ = s.dirtyQ := rfl
@[simp] theorem State.updSlot_dirtyFilter (s : State) (c i : Nat) (f : Slot → Slot) : (s.updSlot c i f).dirtyFilter = s.dirtyFilter := rfl
@[simp] theorem State.updSlot_dirtyPrev (s : State) (c i : Nat) (f : Slot → Slot) : (s.updSlot c i f).dirtyPrev = s.dirtyPrev := rfl
@[simp] theorem State.updSlot_closing (s : State) (c i : Nat) (f : Slot → Slot) : (s.updSlot c i f).closing = s.closing := rfl
@[simp] theorem State.updSlot_sweep (s : State) (c i : Nat) (f : Slot → Slot) : (s.updSlot c i f).sweep = s.sweep := rfl
@[simp] theorem State.updSlot_heldPulses (s : State) (c i : Nat) (f : Slot → Slot) : (s.updSlot c i f).heldPulses = s.heldPulses := rfl
@[simp] theorem State.updSlot_srcLevels (s : State) (c i : Nat) (f : Slot → Slot) : (s.updSlot c i f).srcLevels = s.srcLevels := rfl
@[simp] theorem State.updSlot_pulseHigh (s : State) (c i : Nat) (f : Slot → Slot) : (s.updSlot c i f).pulseHigh = s.pulseHigh := rfl
@[simp] theorem State.updSlot_flagSets (s : State) (c i : Nat) (f : Slot → Slot) : (s.updSlot c i f).flagSets = s.flagSets := rfl
@[simp] theorem State.updSlot_evIn (s : State) (c i : Nat) (f : Slot → Slot) : (s.updSlot c i f).evIn = s.evIn := rfl
@[simp] theorem State.updSlot_lines (s : State) (c i : Nat) (f : Slot → Slot) : (s.updSlot c i f).lines = s.lines := rfl
@[simp] theorem State.updSlot_evOut (s : State) (c i : Nat) (f : Slot → Slot) : (s.updSlot c i f).evOut = s.evOut := rfl
@[simp] theorem State.updSlot_timers (s : State) (c i : Nat) (f : Slot → Slot) : (s.updSlot c i f).timers = s.timers := rfl
@[simp] theorem State.updSlot_thrPrev (s : State) (c i : Nat) (f : Slot → Slot) : (s.updSlot c i f).thrPrev = s.thrPrev := rfl
@[simp] theorem State.updSlot_snaps (s : State) (c i : Nat) (f : Slot → Slot) : (s.updSlot c i f).snaps = s.snaps := rfl
@[simp] theorem State.updSlot_copySeq (s : State) (c i : Nat) (f : Slot → Slot) : (s.updSlot c i f).copySeq = s.copySeq := rfl
@[simp] theorem State.updSlot_occDue (s : State) (c i : Nat) (f : Slot → Slot) : (s.updSlot c i f).occDue = s.occDue := rfl
@[simp] theorem State.updSlot_plls (s : State) (c i : Nat) (f : Slot → Slot) : (s.updSlot c i f).plls = s.plls := rfl
@[simp] theorem State.updSlot_muxes (s : State) (c i : Nat) (f : Slot → Slot) : (s.updSlot c i f).muxes = s.muxes := rfl
@[simp] theorem State.updSlot_clkWait (s : State) (c i : Nat) (f : Slot → Slot) : (s.updSlot c i f).clkWait = s.clkWait := rfl
@[simp] theorem State.updSlot_pchange (s : State) (c i : Nat) (f : Slot → Slot) : (s.updSlot c i f).pchange = s.pchange := rfl
@[simp] theorem State.updSlot_pwAck (s : State) (c i : Nat) (f : Slot → Slot) : (s.updSlot c i f).pwAck = s.pwAck := rfl
@[simp] theorem State.updSlot_pwRest (s : State) (c i : Nat) (f : Slot → Slot) : (s.updSlot c i f).pwRest = s.pwRest := rfl
@[simp] theorem State.updSlot_idleSince (s : State) (c i : Nat) (f : Slot → Slot) : (s.updSlot c i f).idleSince = s.idleSince := rfl
@[simp] theorem State.updSlot_wakeAt (s : State) (c i : Nat) (f : Slot → Slot) : (s.updSlot c i f).wakeAt = s.wakeAt := rfl
@[simp] theorem State.updSlot_restEnter (s : State) (c i : Nat) (f : Slot → Slot) : (s.updSlot c i f).restEnter = s.restEnter := rfl
@[simp] theorem State.updSlot_restAt (s : State) (c i : Nat) (f : Slot → Slot) : (s.updSlot c i f).restAt = s.restAt := rfl
@[simp] theorem State.updSlot_wakePend (s : State) (c i : Nat) (f : Slot → Slot) : (s.updSlot c i f).wakePend = s.wakePend := rfl
@[simp] theorem State.updSlot_fed (s : State) (c i : Nat) (f : Slot → Slot) : (s.updSlot c i f).fed = s.fed := rfl
@[simp] theorem State.updSlot_adopting (s : State) (c i : Nat) (f : Slot → Slot) : (s.updSlot c i f).adopting = s.adopting := rfl
@[simp] theorem State.updSlot_adoptStop (s : State) (c i : Nat) (f : Slot → Slot) : (s.updSlot c i f).adoptStop = s.adoptStop := rfl
@[simp] theorem State.updSlot_adoptDone (s : State) (c i : Nat) (f : Slot → Slot) : (s.updSlot c i f).adoptDone = s.adoptDone := rfl
@[simp] theorem State.updSlot_cseqs (s : State) (c i : Nat) (f : Slot → Slot) : (s.updSlot c i f).cseqs = s.cseqs := rfl
@[simp] theorem State.updSlot_txFrames (s : State) (c i : Nat) (f : Slot → Slot) : (s.updSlot c i f).txFrames = s.txFrames := rfl
@[simp] theorem State.updSlot_idleOut (s : State) (c i : Nat) (f : Slot → Slot) : (s.updSlot c i f).idleOut = s.idleOut := rfl
@[simp] theorem State.updSlot_tunits (s : State) (c i : Nat) (f : Slot → Slot) : (s.updSlot c i f).tunits = s.tunits := rfl
@[simp] theorem State.updSlot_mbist (s : State) (c i : Nat) (f : Slot → Slot) : (s.updSlot c i f).mbist = s.mbist := rfl
@[simp] theorem State.updSlot_nextAid (s : State) (c i : Nat) (f : Slot → Slot) : (s.updSlot c i f).nextAid = s.nextAid := rfl
@[simp] theorem State.updSlot_freeCtr (s : State) (c i : Nat) (f : Slot → Slot) : (s.updSlot c i f).freeCtr = s.freeCtr := rfl
@[simp] theorem State.putBucket_pending (s : State) (b : Bucket) : (s.putBucket b).pending = s.pending := rfl
@[simp] theorem State.putBucket_timebase (s : State) (b : Bucket) : (s.putBucket b).timebase = s.timebase := rfl
@[simp] theorem State.putBucket_tbFrac (s : State) (b : Bucket) : (s.putBucket b).tbFrac = s.tbFrac := rfl
@[simp] theorem State.putBucket_tbStep (s : State) (b : Bucket) : (s.putBucket b).tbStep = s.tbStep := rfl
@[simp] theorem State.putBucket_nomNs (s : State) (b : Bucket) : (s.putBucket b).nomNs = s.nomNs := rfl
@[simp] theorem State.putBucket_tbLatch (s : State) (b : Bucket) : (s.putBucket b).tbLatch = s.tbLatch := rfl
@[simp] theorem State.putBucket_mode (s : State) (b : Bucket) : (s.putBucket b).mode = s.mode := rfl
@[simp] theorem State.putBucket_modeNext (s : State) (b : Bucket) : (s.putBucket b).modeNext = s.modeNext := rfl
@[simp] theorem State.putBucket_fatal (s : State) (b : Bucket) : (s.putBucket b).fatal = s.fatal := rfl
@[simp] theorem State.putBucket_rstN (s : State) (b : Bucket) : (s.putBucket b).rstN = s.rstN := rfl
@[simp] theorem State.putBucket_strapEvOut (s : State) (b : Bucket) : (s.putBucket b).strapEvOut = s.strapEvOut := rfl
@[simp] theorem State.putBucket_strapTst (s : State) (b : Bucket) : (s.putBucket b).strapTst = s.strapTst := rfl
@[simp] theorem State.putBucket_regs (s : State) (b : Bucket) : (s.putBucket b).regs = s.regs := rfl
@[simp] theorem State.putBucket_lastRead (s : State) (b : Bucket) : (s.putBucket b).lastRead = s.lastRead := rfl
@[simp] theorem State.putBucket_resp (s : State) (b : Bucket) : (s.putBucket b).resp = s.resp := rfl
@[simp] theorem State.putBucket_is0 (s : State) (b : Bucket) : (s.putBucket b).is0 = s.is0 := rfl
@[simp] theorem State.putBucket_evm (s : State) (b : Bucket) : (s.putBucket b).evm = s.evm := rfl
@[simp] theorem State.putBucket_evmPend (s : State) (b : Bucket) : (s.putBucket b).evmPend = s.evmPend := rfl
@[simp] theorem State.putBucket_is3 (s : State) (b : Bucket) : (s.putBucket b).is3 = s.is3 := rfl
@[simp] theorem State.putBucket_is4 (s : State) (b : Bucket) : (s.putBucket b).is4 = s.is4 := rfl
@[simp] theorem State.putBucket_is4Seen (s : State) (b : Bucket) : (s.putBucket b).is4Seen = s.is4Seen := rfl
@[simp] theorem State.putBucket_usedWays (s : State) (b : Bucket) : (s.putBucket b).usedWays = s.usedWays := rfl
@[simp] theorem State.putBucket_ctxZero (s : State) (b : Bucket) : (s.putBucket b).ctxZero = s.ctxZero := rfl
@[simp] theorem State.putBucket_is6 (s : State) (b : Bucket) : (s.putBucket b).is6 = s.is6 := rfl
@[simp] theorem State.putBucket_is7 (s : State) (b : Bucket) : (s.putBucket b).is7 = s.is7 := rfl
@[simp] theorem State.putBucket_staged (s : State) (b : Bucket) : (s.putBucket b).staged = s.staged := rfl
@[simp] theorem State.putBucket_adm (s : State) (b : Bucket) : (s.putBucket b).adm = s.adm := rfl
@[simp] theorem State.putBucket_commitPins (s : State) (b : Bucket) : (s.putBucket b).commitPins = s.commitPins := rfl
@[simp] theorem State.putBucket_lastSlots (s : State) (b : Bucket) : (s.putBucket b).lastSlots = s.lastSlots := rfl
@[simp] theorem State.putBucket_overrun (s : State) (b : Bucket) : (s.putBucket b).overrun = s.overrun := rfl
@[simp] theorem State.putBucket_queues (s : State) (b : Bucket) : (s.putBucket b).queues = s.queues := rfl
@[simp] theorem State.putBucket_ways (s : State) (b : Bucket) : (s.putBucket b).ways = s.ways := rfl
@[simp] theorem State.putBucket_ctxWait (s : State) (b : Bucket) : (s.putBucket b).ctxWait = s.ctxWait := rfl
@[simp] theorem State.putBucket_ctxRetry (s : State) (b : Bucket) : (s.putBucket b).ctxRetry = s.ctxRetry := rfl
@[simp] theorem State.putBucket_ctxWb (s : State) (b : Bucket) : (s.putBucket b).ctxWb = s.ctxWb := rfl
@[simp] theorem State.putBucket_polls (s : State) (b : Bucket) : (s.putBucket b).polls = s.polls := rfl
@[simp] theorem State.putBucket_pollInst (s : State) (b : Bucket) : (s.putBucket b).pollInst = s.pollInst := rfl
@[simp] theorem State.putBucket_pollBudget (s : State) (b : Bucket) : (s.putBucket b).pollBudget = s.pollBudget := rfl
@[simp] theorem State.putBucket_ready (s : State) (b : Bucket) : (s.putBucket b).ready = s.ready := rfl
@[simp] theorem State.putBucket_sched (s : State) (b : Bucket) : (s.putBucket b).sched = s.sched := rfl
@[simp] theorem State.putBucket_promoCtr (s : State) (b : Bucket) : (s.putBucket b).promoCtr = s.promoCtr := rfl
@[simp] theorem State.putBucket_rereads (s : State) (b : Bucket) : (s.putBucket b).rereads = s.rereads := rfl
@[simp] theorem State.putBucket_slots (s : State) (b : Bucket) : (s.putBucket b).slots = s.slots := rfl
@[simp] theorem State.putBucket_ckpt (s : State) (b : Bucket) : (s.putBucket b).ckpt = s.ckpt := rfl
@[simp] theorem State.putBucket_records (s : State) (b : Bucket) : (s.putBucket b).records = s.records := rfl
@[simp] theorem State.putBucket_waitRecs (s : State) (b : Bucket) : (s.putBucket b).waitRecs = s.waitRecs := rfl
@[simp] theorem State.putBucket_moving (s : State) (b : Bucket) : (s.putBucket b).moving = s.moving := rfl
@[simp] theorem State.putBucket_bridge (s : State) (b : Bucket) : (s.putBucket b).bridge = s.bridge := rfl
@[simp] theorem State.putBucket_takeover (s : State) (b : Bucket) : (s.putBucket b).takeover = s.takeover := rfl
@[simp] theorem State.putBucket_acc (s : State) (b : Bucket) : (s.putBucket b).acc = s.acc := rfl
@[simp] theorem State.putBucket_quar (s : State) (b : Bucket) : (s.putBucket b).quar = s.quar := rfl
@[simp] theorem State.putBucket_held (s : State) (b : Bucket) : (s.putBucket b).held = s.held := rfl
@[simp] theorem State.putBucket_credits (s : State) (b : Bucket) : (s.putBucket b).credits = s.credits := rfl
@[simp] theorem State.putBucket_portActive (s : State) (b : Bucket) : (s.putBucket b).portActive = s.portActive := rfl
@[simp] theorem State.putBucket_arbs (s : State) (b : Bucket) : (s.putBucket b).arbs = s.arbs := rfl
@[simp] theorem State.putBucket_uWin (s : State) (b : Bucket) : (s.putBucket b).uWin = s.uWin := rfl
@[simp] theorem State.putBucket_turns (s : State) (b : Bucket) : (s.putBucket b).turns = s.turns := rfl
@[simp] theorem State.putBucket_suspect (s : State) (b : Bucket) : (s.putBucket b).suspect = s.suspect := rfl
@[simp] theorem State.putBucket_lateFlags (s : State) (b : Bucket) : (s.putBucket b).lateFlags = s.lateFlags := rfl
@[simp] theorem State.putBucket_errQ (s : State) (b : Bucket) : (s.putBucket b).errQ = s.errQ := rfl
@[simp] theorem State.putBucket_dirtyQ (s : State) (b : Bucket) : (s.putBucket b).dirtyQ = s.dirtyQ := rfl
@[simp] theorem State.putBucket_dirtyFilter (s : State) (b : Bucket) : (s.putBucket b).dirtyFilter = s.dirtyFilter := rfl
@[simp] theorem State.putBucket_dirtyPrev (s : State) (b : Bucket) : (s.putBucket b).dirtyPrev = s.dirtyPrev := rfl
@[simp] theorem State.putBucket_closing (s : State) (b : Bucket) : (s.putBucket b).closing = s.closing := rfl
@[simp] theorem State.putBucket_sweep (s : State) (b : Bucket) : (s.putBucket b).sweep = s.sweep := rfl
@[simp] theorem State.putBucket_heldPulses (s : State) (b : Bucket) : (s.putBucket b).heldPulses = s.heldPulses := rfl
@[simp] theorem State.putBucket_srcLevels (s : State) (b : Bucket) : (s.putBucket b).srcLevels = s.srcLevels := rfl
@[simp] theorem State.putBucket_pulseHigh (s : State) (b : Bucket) : (s.putBucket b).pulseHigh = s.pulseHigh := rfl
@[simp] theorem State.putBucket_flagSets (s : State) (b : Bucket) : (s.putBucket b).flagSets = s.flagSets := rfl
@[simp] theorem State.putBucket_evIn (s : State) (b : Bucket) : (s.putBucket b).evIn = s.evIn := rfl
@[simp] theorem State.putBucket_lines (s : State) (b : Bucket) : (s.putBucket b).lines = s.lines := rfl
@[simp] theorem State.putBucket_evOut (s : State) (b : Bucket) : (s.putBucket b).evOut = s.evOut := rfl
@[simp] theorem State.putBucket_timers (s : State) (b : Bucket) : (s.putBucket b).timers = s.timers := rfl
@[simp] theorem State.putBucket_thrPrev (s : State) (b : Bucket) : (s.putBucket b).thrPrev = s.thrPrev := rfl
@[simp] theorem State.putBucket_snaps (s : State) (b : Bucket) : (s.putBucket b).snaps = s.snaps := rfl
@[simp] theorem State.putBucket_copySeq (s : State) (b : Bucket) : (s.putBucket b).copySeq = s.copySeq := rfl
@[simp] theorem State.putBucket_occDue (s : State) (b : Bucket) : (s.putBucket b).occDue = s.occDue := rfl
@[simp] theorem State.putBucket_plls (s : State) (b : Bucket) : (s.putBucket b).plls = s.plls := rfl
@[simp] theorem State.putBucket_muxes (s : State) (b : Bucket) : (s.putBucket b).muxes = s.muxes := rfl
@[simp] theorem State.putBucket_clkWait (s : State) (b : Bucket) : (s.putBucket b).clkWait = s.clkWait := rfl
@[simp] theorem State.putBucket_pchange (s : State) (b : Bucket) : (s.putBucket b).pchange = s.pchange := rfl
@[simp] theorem State.putBucket_pwAck (s : State) (b : Bucket) : (s.putBucket b).pwAck = s.pwAck := rfl
@[simp] theorem State.putBucket_pwRest (s : State) (b : Bucket) : (s.putBucket b).pwRest = s.pwRest := rfl
@[simp] theorem State.putBucket_idleSince (s : State) (b : Bucket) : (s.putBucket b).idleSince = s.idleSince := rfl
@[simp] theorem State.putBucket_wakeAt (s : State) (b : Bucket) : (s.putBucket b).wakeAt = s.wakeAt := rfl
@[simp] theorem State.putBucket_restEnter (s : State) (b : Bucket) : (s.putBucket b).restEnter = s.restEnter := rfl
@[simp] theorem State.putBucket_restAt (s : State) (b : Bucket) : (s.putBucket b).restAt = s.restAt := rfl
@[simp] theorem State.putBucket_wakePend (s : State) (b : Bucket) : (s.putBucket b).wakePend = s.wakePend := rfl
@[simp] theorem State.putBucket_fed (s : State) (b : Bucket) : (s.putBucket b).fed = s.fed := rfl
@[simp] theorem State.putBucket_adopting (s : State) (b : Bucket) : (s.putBucket b).adopting = s.adopting := rfl
@[simp] theorem State.putBucket_adoptStop (s : State) (b : Bucket) : (s.putBucket b).adoptStop = s.adoptStop := rfl
@[simp] theorem State.putBucket_adoptDone (s : State) (b : Bucket) : (s.putBucket b).adoptDone = s.adoptDone := rfl
@[simp] theorem State.putBucket_cseqs (s : State) (b : Bucket) : (s.putBucket b).cseqs = s.cseqs := rfl
@[simp] theorem State.putBucket_txFrames (s : State) (b : Bucket) : (s.putBucket b).txFrames = s.txFrames := rfl
@[simp] theorem State.putBucket_idleOut (s : State) (b : Bucket) : (s.putBucket b).idleOut = s.idleOut := rfl
@[simp] theorem State.putBucket_tunits (s : State) (b : Bucket) : (s.putBucket b).tunits = s.tunits := rfl
@[simp] theorem State.putBucket_mbist (s : State) (b : Bucket) : (s.putBucket b).mbist = s.mbist := rfl
@[simp] theorem State.putBucket_nextAid (s : State) (b : Bucket) : (s.putBucket b).nextAid = s.nextAid := rfl
@[simp] theorem State.putBucket_freeCtr (s : State) (b : Bucket) : (s.putBucket b).freeCtr = s.freeCtr := rfl
@[simp] theorem State.putPoll_pending (s : State) (p : PollInst) : (s.putPoll p).pending = s.pending := rfl
@[simp] theorem State.putPoll_timebase (s : State) (p : PollInst) : (s.putPoll p).timebase = s.timebase := rfl
@[simp] theorem State.putPoll_tbFrac (s : State) (p : PollInst) : (s.putPoll p).tbFrac = s.tbFrac := rfl
@[simp] theorem State.putPoll_tbStep (s : State) (p : PollInst) : (s.putPoll p).tbStep = s.tbStep := rfl
@[simp] theorem State.putPoll_nomNs (s : State) (p : PollInst) : (s.putPoll p).nomNs = s.nomNs := rfl
@[simp] theorem State.putPoll_tbLatch (s : State) (p : PollInst) : (s.putPoll p).tbLatch = s.tbLatch := rfl
@[simp] theorem State.putPoll_mode (s : State) (p : PollInst) : (s.putPoll p).mode = s.mode := rfl
@[simp] theorem State.putPoll_modeNext (s : State) (p : PollInst) : (s.putPoll p).modeNext = s.modeNext := rfl
@[simp] theorem State.putPoll_fatal (s : State) (p : PollInst) : (s.putPoll p).fatal = s.fatal := rfl
@[simp] theorem State.putPoll_rstN (s : State) (p : PollInst) : (s.putPoll p).rstN = s.rstN := rfl
@[simp] theorem State.putPoll_strapEvOut (s : State) (p : PollInst) : (s.putPoll p).strapEvOut = s.strapEvOut := rfl
@[simp] theorem State.putPoll_strapTst (s : State) (p : PollInst) : (s.putPoll p).strapTst = s.strapTst := rfl
@[simp] theorem State.putPoll_regs (s : State) (p : PollInst) : (s.putPoll p).regs = s.regs := rfl
@[simp] theorem State.putPoll_lastRead (s : State) (p : PollInst) : (s.putPoll p).lastRead = s.lastRead := rfl
@[simp] theorem State.putPoll_resp (s : State) (p : PollInst) : (s.putPoll p).resp = s.resp := rfl
@[simp] theorem State.putPoll_is0 (s : State) (p : PollInst) : (s.putPoll p).is0 = s.is0 := rfl
@[simp] theorem State.putPoll_evm (s : State) (p : PollInst) : (s.putPoll p).evm = s.evm := rfl
@[simp] theorem State.putPoll_evmPend (s : State) (p : PollInst) : (s.putPoll p).evmPend = s.evmPend := rfl
@[simp] theorem State.putPoll_is3 (s : State) (p : PollInst) : (s.putPoll p).is3 = s.is3 := rfl
@[simp] theorem State.putPoll_is4 (s : State) (p : PollInst) : (s.putPoll p).is4 = s.is4 := rfl
@[simp] theorem State.putPoll_is4Seen (s : State) (p : PollInst) : (s.putPoll p).is4Seen = s.is4Seen := rfl
@[simp] theorem State.putPoll_usedWays (s : State) (p : PollInst) : (s.putPoll p).usedWays = s.usedWays := rfl
@[simp] theorem State.putPoll_ctxZero (s : State) (p : PollInst) : (s.putPoll p).ctxZero = s.ctxZero := rfl
@[simp] theorem State.putPoll_is6 (s : State) (p : PollInst) : (s.putPoll p).is6 = s.is6 := rfl
@[simp] theorem State.putPoll_is7 (s : State) (p : PollInst) : (s.putPoll p).is7 = s.is7 := rfl
@[simp] theorem State.putPoll_staged (s : State) (p : PollInst) : (s.putPoll p).staged = s.staged := rfl
@[simp] theorem State.putPoll_adm (s : State) (p : PollInst) : (s.putPoll p).adm = s.adm := rfl
@[simp] theorem State.putPoll_commitPins (s : State) (p : PollInst) : (s.putPoll p).commitPins = s.commitPins := rfl
@[simp] theorem State.putPoll_lastSlots (s : State) (p : PollInst) : (s.putPoll p).lastSlots = s.lastSlots := rfl
@[simp] theorem State.putPoll_overrun (s : State) (p : PollInst) : (s.putPoll p).overrun = s.overrun := rfl
@[simp] theorem State.putPoll_queues (s : State) (p : PollInst) : (s.putPoll p).queues = s.queues := rfl
@[simp] theorem State.putPoll_ways (s : State) (p : PollInst) : (s.putPoll p).ways = s.ways := rfl
@[simp] theorem State.putPoll_ctxWait (s : State) (p : PollInst) : (s.putPoll p).ctxWait = s.ctxWait := rfl
@[simp] theorem State.putPoll_ctxRetry (s : State) (p : PollInst) : (s.putPoll p).ctxRetry = s.ctxRetry := rfl
@[simp] theorem State.putPoll_ctxWb (s : State) (p : PollInst) : (s.putPoll p).ctxWb = s.ctxWb := rfl
@[simp] theorem State.putPoll_polls (s : State) (p : PollInst) : (s.putPoll p).polls = s.polls := rfl
@[simp] theorem State.putPoll_pollBudget (s : State) (p : PollInst) : (s.putPoll p).pollBudget = s.pollBudget := rfl
@[simp] theorem State.putPoll_ready (s : State) (p : PollInst) : (s.putPoll p).ready = s.ready := rfl
@[simp] theorem State.putPoll_sched (s : State) (p : PollInst) : (s.putPoll p).sched = s.sched := rfl
@[simp] theorem State.putPoll_buckets (s : State) (p : PollInst) : (s.putPoll p).buckets = s.buckets := rfl
@[simp] theorem State.putPoll_promoCtr (s : State) (p : PollInst) : (s.putPoll p).promoCtr = s.promoCtr := rfl
@[simp] theorem State.putPoll_rereads (s : State) (p : PollInst) : (s.putPoll p).rereads = s.rereads := rfl
@[simp] theorem State.putPoll_slots (s : State) (p : PollInst) : (s.putPoll p).slots = s.slots := rfl
@[simp] theorem State.putPoll_ckpt (s : State) (p : PollInst) : (s.putPoll p).ckpt = s.ckpt := rfl
@[simp] theorem State.putPoll_records (s : State) (p : PollInst) : (s.putPoll p).records = s.records := rfl
@[simp] theorem State.putPoll_waitRecs (s : State) (p : PollInst) : (s.putPoll p).waitRecs = s.waitRecs := rfl
@[simp] theorem State.putPoll_moving (s : State) (p : PollInst) : (s.putPoll p).moving = s.moving := rfl
@[simp] theorem State.putPoll_bridge (s : State) (p : PollInst) : (s.putPoll p).bridge = s.bridge := rfl
@[simp] theorem State.putPoll_takeover (s : State) (p : PollInst) : (s.putPoll p).takeover = s.takeover := rfl
@[simp] theorem State.putPoll_acc (s : State) (p : PollInst) : (s.putPoll p).acc = s.acc := rfl
@[simp] theorem State.putPoll_quar (s : State) (p : PollInst) : (s.putPoll p).quar = s.quar := rfl
@[simp] theorem State.putPoll_held (s : State) (p : PollInst) : (s.putPoll p).held = s.held := rfl
@[simp] theorem State.putPoll_credits (s : State) (p : PollInst) : (s.putPoll p).credits = s.credits := rfl
@[simp] theorem State.putPoll_portActive (s : State) (p : PollInst) : (s.putPoll p).portActive = s.portActive := rfl
@[simp] theorem State.putPoll_arbs (s : State) (p : PollInst) : (s.putPoll p).arbs = s.arbs := rfl
@[simp] theorem State.putPoll_uWin (s : State) (p : PollInst) : (s.putPoll p).uWin = s.uWin := rfl
@[simp] theorem State.putPoll_turns (s : State) (p : PollInst) : (s.putPoll p).turns = s.turns := rfl
@[simp] theorem State.putPoll_suspect (s : State) (p : PollInst) : (s.putPoll p).suspect = s.suspect := rfl
@[simp] theorem State.putPoll_lateFlags (s : State) (p : PollInst) : (s.putPoll p).lateFlags = s.lateFlags := rfl
@[simp] theorem State.putPoll_errQ (s : State) (p : PollInst) : (s.putPoll p).errQ = s.errQ := rfl
@[simp] theorem State.putPoll_dirtyQ (s : State) (p : PollInst) : (s.putPoll p).dirtyQ = s.dirtyQ := rfl
@[simp] theorem State.putPoll_dirtyFilter (s : State) (p : PollInst) : (s.putPoll p).dirtyFilter = s.dirtyFilter := rfl
@[simp] theorem State.putPoll_dirtyPrev (s : State) (p : PollInst) : (s.putPoll p).dirtyPrev = s.dirtyPrev := rfl
@[simp] theorem State.putPoll_closing (s : State) (p : PollInst) : (s.putPoll p).closing = s.closing := rfl
@[simp] theorem State.putPoll_sweep (s : State) (p : PollInst) : (s.putPoll p).sweep = s.sweep := rfl
@[simp] theorem State.putPoll_heldPulses (s : State) (p : PollInst) : (s.putPoll p).heldPulses = s.heldPulses := rfl
@[simp] theorem State.putPoll_srcLevels (s : State) (p : PollInst) : (s.putPoll p).srcLevels = s.srcLevels := rfl
@[simp] theorem State.putPoll_pulseHigh (s : State) (p : PollInst) : (s.putPoll p).pulseHigh = s.pulseHigh := rfl
@[simp] theorem State.putPoll_flagSets (s : State) (p : PollInst) : (s.putPoll p).flagSets = s.flagSets := rfl
@[simp] theorem State.putPoll_evIn (s : State) (p : PollInst) : (s.putPoll p).evIn = s.evIn := rfl
@[simp] theorem State.putPoll_lines (s : State) (p : PollInst) : (s.putPoll p).lines = s.lines := rfl
@[simp] theorem State.putPoll_evOut (s : State) (p : PollInst) : (s.putPoll p).evOut = s.evOut := rfl
@[simp] theorem State.putPoll_timers (s : State) (p : PollInst) : (s.putPoll p).timers = s.timers := rfl
@[simp] theorem State.putPoll_thrPrev (s : State) (p : PollInst) : (s.putPoll p).thrPrev = s.thrPrev := rfl
@[simp] theorem State.putPoll_snaps (s : State) (p : PollInst) : (s.putPoll p).snaps = s.snaps := rfl
@[simp] theorem State.putPoll_copySeq (s : State) (p : PollInst) : (s.putPoll p).copySeq = s.copySeq := rfl
@[simp] theorem State.putPoll_occDue (s : State) (p : PollInst) : (s.putPoll p).occDue = s.occDue := rfl
@[simp] theorem State.putPoll_plls (s : State) (p : PollInst) : (s.putPoll p).plls = s.plls := rfl
@[simp] theorem State.putPoll_muxes (s : State) (p : PollInst) : (s.putPoll p).muxes = s.muxes := rfl
@[simp] theorem State.putPoll_clkWait (s : State) (p : PollInst) : (s.putPoll p).clkWait = s.clkWait := rfl
@[simp] theorem State.putPoll_pchange (s : State) (p : PollInst) : (s.putPoll p).pchange = s.pchange := rfl
@[simp] theorem State.putPoll_pwAck (s : State) (p : PollInst) : (s.putPoll p).pwAck = s.pwAck := rfl
@[simp] theorem State.putPoll_pwRest (s : State) (p : PollInst) : (s.putPoll p).pwRest = s.pwRest := rfl
@[simp] theorem State.putPoll_idleSince (s : State) (p : PollInst) : (s.putPoll p).idleSince = s.idleSince := rfl
@[simp] theorem State.putPoll_wakeAt (s : State) (p : PollInst) : (s.putPoll p).wakeAt = s.wakeAt := rfl
@[simp] theorem State.putPoll_restEnter (s : State) (p : PollInst) : (s.putPoll p).restEnter = s.restEnter := rfl
@[simp] theorem State.putPoll_restAt (s : State) (p : PollInst) : (s.putPoll p).restAt = s.restAt := rfl
@[simp] theorem State.putPoll_wakePend (s : State) (p : PollInst) : (s.putPoll p).wakePend = s.wakePend := rfl
@[simp] theorem State.putPoll_fed (s : State) (p : PollInst) : (s.putPoll p).fed = s.fed := rfl
@[simp] theorem State.putPoll_adopting (s : State) (p : PollInst) : (s.putPoll p).adopting = s.adopting := rfl
@[simp] theorem State.putPoll_adoptStop (s : State) (p : PollInst) : (s.putPoll p).adoptStop = s.adoptStop := rfl
@[simp] theorem State.putPoll_adoptDone (s : State) (p : PollInst) : (s.putPoll p).adoptDone = s.adoptDone := rfl
@[simp] theorem State.putPoll_cseqs (s : State) (p : PollInst) : (s.putPoll p).cseqs = s.cseqs := rfl
@[simp] theorem State.putPoll_txFrames (s : State) (p : PollInst) : (s.putPoll p).txFrames = s.txFrames := rfl
@[simp] theorem State.putPoll_idleOut (s : State) (p : PollInst) : (s.putPoll p).idleOut = s.idleOut := rfl
@[simp] theorem State.putPoll_tunits (s : State) (p : PollInst) : (s.putPoll p).tunits = s.tunits := rfl
@[simp] theorem State.putPoll_mbist (s : State) (p : PollInst) : (s.putPoll p).mbist = s.mbist := rfl
@[simp] theorem State.putPoll_nextAid (s : State) (p : PollInst) : (s.putPoll p).nextAid = s.nextAid := rfl
@[simp] theorem State.putPoll_freeCtr (s : State) (p : PollInst) : (s.putPoll p).freeCtr = s.freeCtr := rfl
@[simp] theorem State.putLink_pending (s : State) (l : Link) : (s.putLink l).pending = s.pending := rfl
@[simp] theorem State.putLink_timebase (s : State) (l : Link) : (s.putLink l).timebase = s.timebase := rfl
@[simp] theorem State.putLink_tbFrac (s : State) (l : Link) : (s.putLink l).tbFrac = s.tbFrac := rfl
@[simp] theorem State.putLink_tbStep (s : State) (l : Link) : (s.putLink l).tbStep = s.tbStep := rfl
@[simp] theorem State.putLink_nomNs (s : State) (l : Link) : (s.putLink l).nomNs = s.nomNs := rfl
@[simp] theorem State.putLink_tbLatch (s : State) (l : Link) : (s.putLink l).tbLatch = s.tbLatch := rfl
@[simp] theorem State.putLink_mode (s : State) (l : Link) : (s.putLink l).mode = s.mode := rfl
@[simp] theorem State.putLink_modeNext (s : State) (l : Link) : (s.putLink l).modeNext = s.modeNext := rfl
@[simp] theorem State.putLink_fatal (s : State) (l : Link) : (s.putLink l).fatal = s.fatal := rfl
@[simp] theorem State.putLink_rstN (s : State) (l : Link) : (s.putLink l).rstN = s.rstN := rfl
@[simp] theorem State.putLink_strapEvOut (s : State) (l : Link) : (s.putLink l).strapEvOut = s.strapEvOut := rfl
@[simp] theorem State.putLink_strapTst (s : State) (l : Link) : (s.putLink l).strapTst = s.strapTst := rfl
@[simp] theorem State.putLink_regs (s : State) (l : Link) : (s.putLink l).regs = s.regs := rfl
@[simp] theorem State.putLink_lastRead (s : State) (l : Link) : (s.putLink l).lastRead = s.lastRead := rfl
@[simp] theorem State.putLink_resp (s : State) (l : Link) : (s.putLink l).resp = s.resp := rfl
@[simp] theorem State.putLink_is0 (s : State) (l : Link) : (s.putLink l).is0 = s.is0 := rfl
@[simp] theorem State.putLink_evm (s : State) (l : Link) : (s.putLink l).evm = s.evm := rfl
@[simp] theorem State.putLink_evmPend (s : State) (l : Link) : (s.putLink l).evmPend = s.evmPend := rfl
@[simp] theorem State.putLink_is3 (s : State) (l : Link) : (s.putLink l).is3 = s.is3 := rfl
@[simp] theorem State.putLink_is4 (s : State) (l : Link) : (s.putLink l).is4 = s.is4 := rfl
@[simp] theorem State.putLink_is4Seen (s : State) (l : Link) : (s.putLink l).is4Seen = s.is4Seen := rfl
@[simp] theorem State.putLink_usedWays (s : State) (l : Link) : (s.putLink l).usedWays = s.usedWays := rfl
@[simp] theorem State.putLink_ctxZero (s : State) (l : Link) : (s.putLink l).ctxZero = s.ctxZero := rfl
@[simp] theorem State.putLink_is6 (s : State) (l : Link) : (s.putLink l).is6 = s.is6 := rfl
@[simp] theorem State.putLink_is7 (s : State) (l : Link) : (s.putLink l).is7 = s.is7 := rfl
@[simp] theorem State.putLink_staged (s : State) (l : Link) : (s.putLink l).staged = s.staged := rfl
@[simp] theorem State.putLink_adm (s : State) (l : Link) : (s.putLink l).adm = s.adm := rfl
@[simp] theorem State.putLink_commitPins (s : State) (l : Link) : (s.putLink l).commitPins = s.commitPins := rfl
@[simp] theorem State.putLink_lastSlots (s : State) (l : Link) : (s.putLink l).lastSlots = s.lastSlots := rfl
@[simp] theorem State.putLink_overrun (s : State) (l : Link) : (s.putLink l).overrun = s.overrun := rfl
@[simp] theorem State.putLink_queues (s : State) (l : Link) : (s.putLink l).queues = s.queues := rfl
@[simp] theorem State.putLink_ways (s : State) (l : Link) : (s.putLink l).ways = s.ways := rfl
@[simp] theorem State.putLink_ctxWait (s : State) (l : Link) : (s.putLink l).ctxWait = s.ctxWait := rfl
@[simp] theorem State.putLink_ctxRetry (s : State) (l : Link) : (s.putLink l).ctxRetry = s.ctxRetry := rfl
@[simp] theorem State.putLink_ctxWb (s : State) (l : Link) : (s.putLink l).ctxWb = s.ctxWb := rfl
@[simp] theorem State.putLink_polls (s : State) (l : Link) : (s.putLink l).polls = s.polls := rfl
@[simp] theorem State.putLink_pollInst (s : State) (l : Link) : (s.putLink l).pollInst = s.pollInst := rfl
@[simp] theorem State.putLink_pollBudget (s : State) (l : Link) : (s.putLink l).pollBudget = s.pollBudget := rfl
@[simp] theorem State.putLink_ready (s : State) (l : Link) : (s.putLink l).ready = s.ready := rfl
@[simp] theorem State.putLink_sched (s : State) (l : Link) : (s.putLink l).sched = s.sched := rfl
@[simp] theorem State.putLink_buckets (s : State) (l : Link) : (s.putLink l).buckets = s.buckets := rfl
@[simp] theorem State.putLink_promoCtr (s : State) (l : Link) : (s.putLink l).promoCtr = s.promoCtr := rfl
@[simp] theorem State.putLink_rereads (s : State) (l : Link) : (s.putLink l).rereads = s.rereads := rfl
@[simp] theorem State.putLink_slots (s : State) (l : Link) : (s.putLink l).slots = s.slots := rfl
@[simp] theorem State.putLink_ckpt (s : State) (l : Link) : (s.putLink l).ckpt = s.ckpt := rfl
@[simp] theorem State.putLink_records (s : State) (l : Link) : (s.putLink l).records = s.records := rfl
@[simp] theorem State.putLink_waitRecs (s : State) (l : Link) : (s.putLink l).waitRecs = s.waitRecs := rfl
@[simp] theorem State.putLink_moving (s : State) (l : Link) : (s.putLink l).moving = s.moving := rfl
@[simp] theorem State.putLink_bridge (s : State) (l : Link) : (s.putLink l).bridge = s.bridge := rfl
@[simp] theorem State.putLink_takeover (s : State) (l : Link) : (s.putLink l).takeover = s.takeover := rfl
@[simp] theorem State.putLink_acc (s : State) (l : Link) : (s.putLink l).acc = s.acc := rfl
@[simp] theorem State.putLink_quar (s : State) (l : Link) : (s.putLink l).quar = s.quar := rfl
@[simp] theorem State.putLink_held (s : State) (l : Link) : (s.putLink l).held = s.held := rfl
@[simp] theorem State.putLink_credits (s : State) (l : Link) : (s.putLink l).credits = s.credits := rfl
@[simp] theorem State.putLink_portActive (s : State) (l : Link) : (s.putLink l).portActive = s.portActive := rfl
@[simp] theorem State.putLink_arbs (s : State) (l : Link) : (s.putLink l).arbs = s.arbs := rfl
@[simp] theorem State.putLink_uWin (s : State) (l : Link) : (s.putLink l).uWin = s.uWin := rfl
@[simp] theorem State.putLink_turns (s : State) (l : Link) : (s.putLink l).turns = s.turns := rfl
@[simp] theorem State.putLink_suspect (s : State) (l : Link) : (s.putLink l).suspect = s.suspect := rfl
@[simp] theorem State.putLink_lateFlags (s : State) (l : Link) : (s.putLink l).lateFlags = s.lateFlags := rfl
@[simp] theorem State.putLink_errQ (s : State) (l : Link) : (s.putLink l).errQ = s.errQ := rfl
@[simp] theorem State.putLink_dirtyQ (s : State) (l : Link) : (s.putLink l).dirtyQ = s.dirtyQ := rfl
@[simp] theorem State.putLink_dirtyFilter (s : State) (l : Link) : (s.putLink l).dirtyFilter = s.dirtyFilter := rfl
@[simp] theorem State.putLink_dirtyPrev (s : State) (l : Link) : (s.putLink l).dirtyPrev = s.dirtyPrev := rfl
@[simp] theorem State.putLink_closing (s : State) (l : Link) : (s.putLink l).closing = s.closing := rfl
@[simp] theorem State.putLink_sweep (s : State) (l : Link) : (s.putLink l).sweep = s.sweep := rfl
@[simp] theorem State.putLink_heldPulses (s : State) (l : Link) : (s.putLink l).heldPulses = s.heldPulses := rfl
@[simp] theorem State.putLink_srcLevels (s : State) (l : Link) : (s.putLink l).srcLevels = s.srcLevels := rfl
@[simp] theorem State.putLink_pulseHigh (s : State) (l : Link) : (s.putLink l).pulseHigh = s.pulseHigh := rfl
@[simp] theorem State.putLink_flagSets (s : State) (l : Link) : (s.putLink l).flagSets = s.flagSets := rfl
@[simp] theorem State.putLink_evIn (s : State) (l : Link) : (s.putLink l).evIn = s.evIn := rfl
@[simp] theorem State.putLink_lines (s : State) (l : Link) : (s.putLink l).lines = s.lines := rfl
@[simp] theorem State.putLink_evOut (s : State) (l : Link) : (s.putLink l).evOut = s.evOut := rfl
@[simp] theorem State.putLink_timers (s : State) (l : Link) : (s.putLink l).timers = s.timers := rfl
@[simp] theorem State.putLink_thrPrev (s : State) (l : Link) : (s.putLink l).thrPrev = s.thrPrev := rfl
@[simp] theorem State.putLink_snaps (s : State) (l : Link) : (s.putLink l).snaps = s.snaps := rfl
@[simp] theorem State.putLink_copySeq (s : State) (l : Link) : (s.putLink l).copySeq = s.copySeq := rfl
@[simp] theorem State.putLink_occDue (s : State) (l : Link) : (s.putLink l).occDue = s.occDue := rfl
@[simp] theorem State.putLink_plls (s : State) (l : Link) : (s.putLink l).plls = s.plls := rfl
@[simp] theorem State.putLink_muxes (s : State) (l : Link) : (s.putLink l).muxes = s.muxes := rfl
@[simp] theorem State.putLink_clkWait (s : State) (l : Link) : (s.putLink l).clkWait = s.clkWait := rfl
@[simp] theorem State.putLink_pchange (s : State) (l : Link) : (s.putLink l).pchange = s.pchange := rfl
@[simp] theorem State.putLink_pwAck (s : State) (l : Link) : (s.putLink l).pwAck = s.pwAck := rfl
@[simp] theorem State.putLink_pwRest (s : State) (l : Link) : (s.putLink l).pwRest = s.pwRest := rfl
@[simp] theorem State.putLink_idleSince (s : State) (l : Link) : (s.putLink l).idleSince = s.idleSince := rfl
@[simp] theorem State.putLink_wakeAt (s : State) (l : Link) : (s.putLink l).wakeAt = s.wakeAt := rfl
@[simp] theorem State.putLink_restEnter (s : State) (l : Link) : (s.putLink l).restEnter = s.restEnter := rfl
@[simp] theorem State.putLink_restAt (s : State) (l : Link) : (s.putLink l).restAt = s.restAt := rfl
@[simp] theorem State.putLink_wakePend (s : State) (l : Link) : (s.putLink l).wakePend = s.wakePend := rfl
@[simp] theorem State.putLink_adopting (s : State) (l : Link) : (s.putLink l).adopting = s.adopting := rfl
@[simp] theorem State.putLink_adoptStop (s : State) (l : Link) : (s.putLink l).adoptStop = s.adoptStop := rfl
@[simp] theorem State.putLink_adoptDone (s : State) (l : Link) : (s.putLink l).adoptDone = s.adoptDone := rfl
@[simp] theorem State.putLink_cseqs (s : State) (l : Link) : (s.putLink l).cseqs = s.cseqs := rfl
@[simp] theorem State.putLink_txFrames (s : State) (l : Link) : (s.putLink l).txFrames = s.txFrames := rfl
@[simp] theorem State.putLink_idleOut (s : State) (l : Link) : (s.putLink l).idleOut = s.idleOut := rfl
@[simp] theorem State.putLink_tunits (s : State) (l : Link) : (s.putLink l).tunits = s.tunits := rfl
@[simp] theorem State.putLink_mbist (s : State) (l : Link) : (s.putLink l).mbist = s.mbist := rfl
@[simp] theorem State.putLink_nextAid (s : State) (l : Link) : (s.putLink l).nextAid = s.nextAid := rfl
@[simp] theorem State.putLink_freeCtr (s : State) (l : Link) : (s.putLink l).freeCtr = s.freeCtr := rfl
@[simp] theorem State.setCtx_pending (s : State) (q : Nat) (c : QCtx) : (s.setCtx q c).pending = s.pending := rfl
@[simp] theorem State.setCtx_timebase (s : State) (q : Nat) (c : QCtx) : (s.setCtx q c).timebase = s.timebase := rfl
@[simp] theorem State.setCtx_tbFrac (s : State) (q : Nat) (c : QCtx) : (s.setCtx q c).tbFrac = s.tbFrac := rfl
@[simp] theorem State.setCtx_tbStep (s : State) (q : Nat) (c : QCtx) : (s.setCtx q c).tbStep = s.tbStep := rfl
@[simp] theorem State.setCtx_nomNs (s : State) (q : Nat) (c : QCtx) : (s.setCtx q c).nomNs = s.nomNs := rfl
@[simp] theorem State.setCtx_tbLatch (s : State) (q : Nat) (c : QCtx) : (s.setCtx q c).tbLatch = s.tbLatch := rfl
@[simp] theorem State.setCtx_mode (s : State) (q : Nat) (c : QCtx) : (s.setCtx q c).mode = s.mode := rfl
@[simp] theorem State.setCtx_modeNext (s : State) (q : Nat) (c : QCtx) : (s.setCtx q c).modeNext = s.modeNext := rfl
@[simp] theorem State.setCtx_fatal (s : State) (q : Nat) (c : QCtx) : (s.setCtx q c).fatal = s.fatal := rfl
@[simp] theorem State.setCtx_rstN (s : State) (q : Nat) (c : QCtx) : (s.setCtx q c).rstN = s.rstN := rfl
@[simp] theorem State.setCtx_strapEvOut (s : State) (q : Nat) (c : QCtx) : (s.setCtx q c).strapEvOut = s.strapEvOut := rfl
@[simp] theorem State.setCtx_strapTst (s : State) (q : Nat) (c : QCtx) : (s.setCtx q c).strapTst = s.strapTst := rfl
@[simp] theorem State.setCtx_regs (s : State) (q : Nat) (c : QCtx) : (s.setCtx q c).regs = s.regs := rfl
@[simp] theorem State.setCtx_lastRead (s : State) (q : Nat) (c : QCtx) : (s.setCtx q c).lastRead = s.lastRead := rfl
@[simp] theorem State.setCtx_resp (s : State) (q : Nat) (c : QCtx) : (s.setCtx q c).resp = s.resp := rfl
@[simp] theorem State.setCtx_is0 (s : State) (q : Nat) (c : QCtx) : (s.setCtx q c).is0 = s.is0 := rfl
@[simp] theorem State.setCtx_evm (s : State) (q : Nat) (c : QCtx) : (s.setCtx q c).evm = s.evm := rfl
@[simp] theorem State.setCtx_evmPend (s : State) (q : Nat) (c : QCtx) : (s.setCtx q c).evmPend = s.evmPend := rfl
@[simp] theorem State.setCtx_is3 (s : State) (q : Nat) (c : QCtx) : (s.setCtx q c).is3 = s.is3 := rfl
@[simp] theorem State.setCtx_is4 (s : State) (q : Nat) (c : QCtx) : (s.setCtx q c).is4 = s.is4 := rfl
@[simp] theorem State.setCtx_is4Seen (s : State) (q : Nat) (c : QCtx) : (s.setCtx q c).is4Seen = s.is4Seen := rfl
@[simp] theorem State.setCtx_usedWays (s : State) (q : Nat) (c : QCtx) : (s.setCtx q c).usedWays = s.usedWays := rfl
@[simp] theorem State.setCtx_ctxZero (s : State) (q : Nat) (c : QCtx) : (s.setCtx q c).ctxZero = s.ctxZero := rfl
@[simp] theorem State.setCtx_is6 (s : State) (q : Nat) (c : QCtx) : (s.setCtx q c).is6 = s.is6 := rfl
@[simp] theorem State.setCtx_is7 (s : State) (q : Nat) (c : QCtx) : (s.setCtx q c).is7 = s.is7 := rfl
@[simp] theorem State.setCtx_staged (s : State) (q : Nat) (c : QCtx) : (s.setCtx q c).staged = s.staged := rfl
@[simp] theorem State.setCtx_adm (s : State) (q : Nat) (c : QCtx) : (s.setCtx q c).adm = s.adm := rfl
@[simp] theorem State.setCtx_commitPins (s : State) (q : Nat) (c : QCtx) : (s.setCtx q c).commitPins = s.commitPins := rfl
@[simp] theorem State.setCtx_lastSlots (s : State) (q : Nat) (c : QCtx) : (s.setCtx q c).lastSlots = s.lastSlots := rfl
@[simp] theorem State.setCtx_overrun (s : State) (q : Nat) (c : QCtx) : (s.setCtx q c).overrun = s.overrun := rfl
@[simp] theorem State.setCtx_queues (s : State) (q : Nat) (c : QCtx) : (s.setCtx q c).queues = s.queues := rfl
@[simp] theorem State.setCtx_ctxWait (s : State) (q : Nat) (c : QCtx) : (s.setCtx q c).ctxWait = s.ctxWait := rfl
@[simp] theorem State.setCtx_ctxRetry (s : State) (q : Nat) (c : QCtx) : (s.setCtx q c).ctxRetry = s.ctxRetry := rfl
@[simp] theorem State.setCtx_ctxWb (s : State) (q : Nat) (c : QCtx) : (s.setCtx q c).ctxWb = s.ctxWb := rfl
@[simp] theorem State.setCtx_polls (s : State) (q : Nat) (c : QCtx) : (s.setCtx q c).polls = s.polls := rfl
@[simp] theorem State.setCtx_pollInst (s : State) (q : Nat) (c : QCtx) : (s.setCtx q c).pollInst = s.pollInst := rfl
@[simp] theorem State.setCtx_pollBudget (s : State) (q : Nat) (c : QCtx) : (s.setCtx q c).pollBudget = s.pollBudget := rfl
@[simp] theorem State.setCtx_ready (s : State) (q : Nat) (c : QCtx) : (s.setCtx q c).ready = s.ready := rfl
@[simp] theorem State.setCtx_sched (s : State) (q : Nat) (c : QCtx) : (s.setCtx q c).sched = s.sched := rfl
@[simp] theorem State.setCtx_buckets (s : State) (q : Nat) (c : QCtx) : (s.setCtx q c).buckets = s.buckets := rfl
@[simp] theorem State.setCtx_promoCtr (s : State) (q : Nat) (c : QCtx) : (s.setCtx q c).promoCtr = s.promoCtr := rfl
@[simp] theorem State.setCtx_rereads (s : State) (q : Nat) (c : QCtx) : (s.setCtx q c).rereads = s.rereads := rfl
@[simp] theorem State.setCtx_slots (s : State) (q : Nat) (c : QCtx) : (s.setCtx q c).slots = s.slots := rfl
@[simp] theorem State.setCtx_ckpt (s : State) (q : Nat) (c : QCtx) : (s.setCtx q c).ckpt = s.ckpt := rfl
@[simp] theorem State.setCtx_records (s : State) (q : Nat) (c : QCtx) : (s.setCtx q c).records = s.records := rfl
@[simp] theorem State.setCtx_waitRecs (s : State) (q : Nat) (c : QCtx) : (s.setCtx q c).waitRecs = s.waitRecs := rfl
@[simp] theorem State.setCtx_moving (s : State) (q : Nat) (c : QCtx) : (s.setCtx q c).moving = s.moving := rfl
@[simp] theorem State.setCtx_bridge (s : State) (q : Nat) (c : QCtx) : (s.setCtx q c).bridge = s.bridge := rfl
@[simp] theorem State.setCtx_takeover (s : State) (q : Nat) (c : QCtx) : (s.setCtx q c).takeover = s.takeover := rfl
@[simp] theorem State.setCtx_acc (s : State) (q : Nat) (c : QCtx) : (s.setCtx q c).acc = s.acc := rfl
@[simp] theorem State.setCtx_quar (s : State) (q : Nat) (c : QCtx) : (s.setCtx q c).quar = s.quar := rfl
@[simp] theorem State.setCtx_held (s : State) (q : Nat) (c : QCtx) : (s.setCtx q c).held = s.held := rfl
@[simp] theorem State.setCtx_credits (s : State) (q : Nat) (c : QCtx) : (s.setCtx q c).credits = s.credits := rfl
@[simp] theorem State.setCtx_portActive (s : State) (q : Nat) (c : QCtx) : (s.setCtx q c).portActive = s.portActive := rfl
@[simp] theorem State.setCtx_arbs (s : State) (q : Nat) (c : QCtx) : (s.setCtx q c).arbs = s.arbs := rfl
@[simp] theorem State.setCtx_uWin (s : State) (q : Nat) (c : QCtx) : (s.setCtx q c).uWin = s.uWin := rfl
@[simp] theorem State.setCtx_turns (s : State) (q : Nat) (c : QCtx) : (s.setCtx q c).turns = s.turns := rfl
@[simp] theorem State.setCtx_suspect (s : State) (q : Nat) (c : QCtx) : (s.setCtx q c).suspect = s.suspect := rfl
@[simp] theorem State.setCtx_lateFlags (s : State) (q : Nat) (c : QCtx) : (s.setCtx q c).lateFlags = s.lateFlags := rfl
@[simp] theorem State.setCtx_errQ (s : State) (q : Nat) (c : QCtx) : (s.setCtx q c).errQ = s.errQ := rfl
@[simp] theorem State.setCtx_dirtyQ (s : State) (q : Nat) (c : QCtx) : (s.setCtx q c).dirtyQ = s.dirtyQ := rfl
@[simp] theorem State.setCtx_dirtyFilter (s : State) (q : Nat) (c : QCtx) : (s.setCtx q c).dirtyFilter = s.dirtyFilter := rfl
@[simp] theorem State.setCtx_dirtyPrev (s : State) (q : Nat) (c : QCtx) : (s.setCtx q c).dirtyPrev = s.dirtyPrev := rfl
@[simp] theorem State.setCtx_closing (s : State) (q : Nat) (c : QCtx) : (s.setCtx q c).closing = s.closing := rfl
@[simp] theorem State.setCtx_sweep (s : State) (q : Nat) (c : QCtx) : (s.setCtx q c).sweep = s.sweep := rfl
@[simp] theorem State.setCtx_heldPulses (s : State) (q : Nat) (c : QCtx) : (s.setCtx q c).heldPulses = s.heldPulses := rfl
@[simp] theorem State.setCtx_srcLevels (s : State) (q : Nat) (c : QCtx) : (s.setCtx q c).srcLevels = s.srcLevels := rfl
@[simp] theorem State.setCtx_pulseHigh (s : State) (q : Nat) (c : QCtx) : (s.setCtx q c).pulseHigh = s.pulseHigh := rfl
@[simp] theorem State.setCtx_flagSets (s : State) (q : Nat) (c : QCtx) : (s.setCtx q c).flagSets = s.flagSets := rfl
@[simp] theorem State.setCtx_evIn (s : State) (q : Nat) (c : QCtx) : (s.setCtx q c).evIn = s.evIn := rfl
@[simp] theorem State.setCtx_lines (s : State) (q : Nat) (c : QCtx) : (s.setCtx q c).lines = s.lines := rfl
@[simp] theorem State.setCtx_evOut (s : State) (q : Nat) (c : QCtx) : (s.setCtx q c).evOut = s.evOut := rfl
@[simp] theorem State.setCtx_timers (s : State) (q : Nat) (c : QCtx) : (s.setCtx q c).timers = s.timers := rfl
@[simp] theorem State.setCtx_thrPrev (s : State) (q : Nat) (c : QCtx) : (s.setCtx q c).thrPrev = s.thrPrev := rfl
@[simp] theorem State.setCtx_snaps (s : State) (q : Nat) (c : QCtx) : (s.setCtx q c).snaps = s.snaps := rfl
@[simp] theorem State.setCtx_copySeq (s : State) (q : Nat) (c : QCtx) : (s.setCtx q c).copySeq = s.copySeq := rfl
@[simp] theorem State.setCtx_occDue (s : State) (q : Nat) (c : QCtx) : (s.setCtx q c).occDue = s.occDue := rfl
@[simp] theorem State.setCtx_plls (s : State) (q : Nat) (c : QCtx) : (s.setCtx q c).plls = s.plls := rfl
@[simp] theorem State.setCtx_muxes (s : State) (q : Nat) (c : QCtx) : (s.setCtx q c).muxes = s.muxes := rfl
@[simp] theorem State.setCtx_clkWait (s : State) (q : Nat) (c : QCtx) : (s.setCtx q c).clkWait = s.clkWait := rfl
@[simp] theorem State.setCtx_pchange (s : State) (q : Nat) (c : QCtx) : (s.setCtx q c).pchange = s.pchange := rfl
@[simp] theorem State.setCtx_pwAck (s : State) (q : Nat) (c : QCtx) : (s.setCtx q c).pwAck = s.pwAck := rfl
@[simp] theorem State.setCtx_pwRest (s : State) (q : Nat) (c : QCtx) : (s.setCtx q c).pwRest = s.pwRest := rfl
@[simp] theorem State.setCtx_idleSince (s : State) (q : Nat) (c : QCtx) : (s.setCtx q c).idleSince = s.idleSince := rfl
@[simp] theorem State.setCtx_wakeAt (s : State) (q : Nat) (c : QCtx) : (s.setCtx q c).wakeAt = s.wakeAt := rfl
@[simp] theorem State.setCtx_restEnter (s : State) (q : Nat) (c : QCtx) : (s.setCtx q c).restEnter = s.restEnter := rfl
@[simp] theorem State.setCtx_restAt (s : State) (q : Nat) (c : QCtx) : (s.setCtx q c).restAt = s.restAt := rfl
@[simp] theorem State.setCtx_wakePend (s : State) (q : Nat) (c : QCtx) : (s.setCtx q c).wakePend = s.wakePend := rfl
@[simp] theorem State.setCtx_fed (s : State) (q : Nat) (c : QCtx) : (s.setCtx q c).fed = s.fed := rfl
@[simp] theorem State.setCtx_adopting (s : State) (q : Nat) (c : QCtx) : (s.setCtx q c).adopting = s.adopting := rfl
@[simp] theorem State.setCtx_adoptStop (s : State) (q : Nat) (c : QCtx) : (s.setCtx q c).adoptStop = s.adoptStop := rfl
@[simp] theorem State.setCtx_adoptDone (s : State) (q : Nat) (c : QCtx) : (s.setCtx q c).adoptDone = s.adoptDone := rfl
@[simp] theorem State.setCtx_cseqs (s : State) (q : Nat) (c : QCtx) : (s.setCtx q c).cseqs = s.cseqs := rfl
@[simp] theorem State.setCtx_txFrames (s : State) (q : Nat) (c : QCtx) : (s.setCtx q c).txFrames = s.txFrames := rfl
@[simp] theorem State.setCtx_idleOut (s : State) (q : Nat) (c : QCtx) : (s.setCtx q c).idleOut = s.idleOut := rfl
@[simp] theorem State.setCtx_tunits (s : State) (q : Nat) (c : QCtx) : (s.setCtx q c).tunits = s.tunits := rfl
@[simp] theorem State.setCtx_mbist (s : State) (q : Nat) (c : QCtx) : (s.setCtx q c).mbist = s.mbist := rfl
@[simp] theorem State.setCtx_nextAid (s : State) (q : Nat) (c : QCtx) : (s.setCtx q c).nextAid = s.nextAid := rfl
@[simp] theorem State.setCtx_freeCtr (s : State) (q : Nat) (c : QCtx) : (s.setCtx q c).freeCtr = s.freeCtr := rfl

end Sys2Proof.Machine

end
end

