-- ==== Sys2Proof/Laws/Ops.lean ====
section
/-! SUPPORT. What the shared operations can change: each lemma names every field that its operation may touch. -/

namespace Sys2Proof.Machine

/-- A field write touches the registers only. -/
theorem State.setFld_frame (s : State) (r : Reg) (i lo len v : Nat) : ∃ m, s.setFld r i lo len v = { s with regs := m } := ⟨_, rfl⟩

/-- An S-class event touches the registers only. -/
theorem State.sEvent_frame (s : State) (r : Reg) (i : Nat) (f : W32 → W32) : ∃ m, s.sEvent r i f = { s with regs := m } := ⟨_, rfl⟩

/-- A lost record touches the registers only. -/
theorem State.loseErr_frame (s : State) (q : W32) : ∃ m, s.loseErr q = { s with regs := m } := by
  unfold State.loseErr
  split
  · exact ⟨_, rfl⟩
  · exact ⟨_, rfl⟩

/-- Logging a fault touches the registers (SEQ and what is lost) and the pending records. -/
theorem State.logErr_frame (s : State) (e : ErrRec) : ∃ m q, s.logErr e = { s with regs := m, errQ := q } := by
  have go : ∀ (t : State) (q : W32) (n : List ErrRec), (∃ m, t = { s with regs := m }) →
      ∃ m q', (if 64 ≤ t.errQ.length then t.loseErr q else { t with errQ := n }) = { s with regs := m, errQ := q' } := by
    rintro _ q n ⟨m, rfl⟩
    split
    · obtain ⟨m', h⟩ := State.loseErr_frame { s with regs := m } q
      exact ⟨m', s.errQ, h⟩
    · exact ⟨_, _, rfl⟩
  unfold State.logErr
  dsimp only
  split
  · exact ⟨s.regs, _, rfl⟩
  · exact go _ _ _ ⟨_, rfl⟩

/-- A pulse touches the pulses held for delivery only. -/
theorem State.pulse_frame (s : State) (n hop : Nat) : ∃ p, s.pulse n hop = { s with heldPulses := p } := ⟨_, rfl⟩

/-! Arbiters. -/

/-- A grant touches the arbiters only. -/
theorem State.grantAmong_frame (s : State) (a r : Nat) (cs ws : List Nat) (f : Nat → Nat) :
    ∃ x, s.grantAmong a r cs ws f = { s with arbs := x } := by
  unfold State.grantAmong State.arbGrant
  dsimp only
  generalize arbDecide s a r _ _ f _ = d
  cases d with
  | none => exact ⟨_, rfl⟩
  | some x => exact ⟨_, rfl⟩

/-- So does an access to a context bank. -/
theorem State.bankAccess_frame (s : State) (q r : Nat) : ∃ x, s.bankAccess q r = { s with arbs := x } := ⟨_, rfl⟩

/-- And a context bank's grant. -/
theorem State.bankGrant_frame (s : State) (a : Nat) : ∃ x, s.bankGrant a = { s with arbs := x } := by
  unfold State.bankGrant
  dsimp only
  split
  · exact ⟨_, rfl⟩
  · rename_i r _
    obtain ⟨x, e⟩ := State.grantAmong_frame s a r (raisedAt s a) [] (bankPrio s)
    rw [e]
    exact ⟨_, rfl⟩

/-- Raising the requests of the waiting accesses touches the arbiters only. -/
theorem State.raiseWaits_frame (s : State) : ∃ x, s.raiseWaits = { s with arbs := x } := by
  have go : ∀ (hs : List Held) (t : State), ∃ x, hs.foldl (fun t h =>
      let t1 := match heldPort t h, portRequester h.purpose h.write with
        | some p, some r => t.raiseAt p r
        | _, _ => t
      match admRequester h.purpose with
      | some r => t1.raiseAt 33 r
      | none => t1) t = { t with arbs := x } := by
    intro hs
    induction hs with
    | nil => intro t; exact ⟨_, rfl⟩
    | cons h hs ih =>
      intro t
      rw [List.foldl_cons]
      obtain ⟨x, e⟩ := ih _
      rw [e]
      generalize heldPort t h = p
      generalize portRequester h.purpose h.write = r
      generalize admRequester h.purpose = m
      cases p <;> cases r <;> cases m <;> exact ⟨_, rfl⟩
  exact go _ s

/-- A grant to the emergency requester touches the arbiters only. -/
theorem State.grantEmergency_frame (s : State) (a : Nat) (b : Bool) : ∃ x, s.grantEmergency a b = { s with arbs := x } := ⟨_, rfl⟩

/-- Counting a granted access touches the arbiters only. -/
theorem State.countGrant_frame (s : State) (p : Nat) (h : Held) (hs : List Held) : ∃ x, s.countGrant p h hs = { s with arbs := x } := by
  have step : ∀ t u : State, (∃ x, t = { s with arbs := x }) → (∃ x, u = { t with arbs := x }) → ∃ x, u = { s with arbs := x } := by
    rintro _ _ ⟨_, rfl⟩ ⟨y, rfl⟩
    exact ⟨y, rfl⟩
  unfold State.countGrant
  extract_lets reqs here s1 adm
  have h1 : ∃ x, s1 = { s with arbs := x } := by
    unfold s1
    clear_value here reqs
    split
    · exact State.grantAmong_frame ..
    · split
      · exact State.grantEmergency_frame ..
      · exact ⟨s.arbs, rfl⟩
  clear_value adm s1
  split
  · split
    · exact step _ _ h1 (State.grantAmong_frame ..)
    · exact step _ _ h1 (State.grantEmergency_frame ..)
  · exact h1

/-! Accesses. -/

/-- The outstanding access that a waiting one becomes: all it asked for, with the bytes it has at its issue. -/
def Carries (s : State) (h : Held) (a : Access) : Prop :=
  a.purpose = h.purpose ∧ a.write = h.write ∧ a.addr = h.addr ∧ a.len = h.len ∧ a.iid = h.iid ∧ a.data = bytesAtIssue s h

@[simp] theorem bytesAtIssue_plain (s : State) (h : Held) (hf : h.form = false) : bytesAtIssue s h = h.data := by
  unfold bytesAtIssue
  simp [hf]

/-- The greatest of some distances depends on what the list holds alone. -/
theorem foldl_max_congr (f : W32 → Nat) {l m : List W32} (h : ∀ i, i ∈ l ↔ i ∈ m) :
    l.foldl (fun k i => max k (f i)) 0 = m.foldl (fun k i => max k (f i)) 0 := by
  have up : ∀ (l : List W32) (k : Nat), k ≤ l.foldl (fun k i => max k (f i)) k ∧
      ∀ i ∈ l, f i ≤ l.foldl (fun k i => max k (f i)) k := by
    intro l
    induction l with
    | nil => intro k; simp
    | cons a l ih =>
      intro k
      have := ih (max k (f a))
      refine ⟨by simp only [List.foldl_cons]; omega, ?_⟩
      intro i hi
      simp only [List.foldl_cons]
      rcases List.mem_cons.1 hi with e | e
      · subst e; omega
      · exact this.2 i e
  have low : ∀ (l : List W32) (k b : Nat), k ≤ b → (∀ i ∈ l, f i ≤ b) → l.foldl (fun k i => max k (f i)) k ≤ b := by
    intro l
    induction l with
    | nil => intro k b hk _; simpa using hk
    | cons a l ih =>
      intro k b hk hb
      simp only [List.foldl_cons]
      exact ih _ _ (by have := hb a (by simp); omega) (fun i hi => hb i (by simp [hi]))
  exact Nat.le_antisymm (low l 0 _ (Nat.zero_le _) (fun i hi => (up m 0).2 i ((h i).1 hi)))
    (low m 0 _ (Nat.zero_le _) (fun i hi => (up l 0).2 i ((h i).2 hi)))

/-- The admin notice depends on the admin queue, the registers and on which of its records wait or are outstanding. -/
theorem admNoticeWord_congr {s t : State} (ha : t.adm = s.adm) (hg : t.regs = s.regs) (hu : ∀ i, i ∈ admUnacked t ↔ i ∈ admUnacked s) :
    admNoticeWord t = admNoticeWord s := by
  have hc : admCi t = admCi s := by
    unfold admCi
    rw [ha, foldl_max_congr (fun i => (s.adm.q - i).toNat) hu]
  unfold admNoticeWord admState State.fld State.rd
  rw [hc, ha, hg]

/-- The bytes of an access at its issue depend on the contexts, the admin queue and on which records wait or are outstanding. -/
theorem bytesAtIssue_congr {s t : State} (hw : t.ways = s.ways) (ha : t.adm = s.adm) (hg : t.regs = s.regs)
    (hu : ∀ i, i ∈ admUnacked t ↔ i ∈ admUnacked s) (hr : ∀ q i, i ∈ unackedRing t q ↔ i ∈ unackedRing s q) (h : Held) :
    bytesAtIssue t h = bytesAtIssue s h := by
  have hc : ∀ q, ctxOf t q = ctxOf s q := by intro q; unfold ctxOf wayOf; rw [hw]
  have hn : ∀ q c, noticeCi t q c = noticeCi s q c := by
    intro q c
    unfold noticeCi
    rw [foldl_max_congr (fun i => (c.q - i).toNat) (hr q)]
  unfold bytesAtIssue
  simp only [hc, hn, admNoticeWord_congr ha hg hu]

/-- An issued access is the last one outstanding, with the handle that was next; credits change too. -/
theorem State.issueAt_frame (s : State) (p : Nat) (h : Held) (holder : Nat) (u : Bool) (sp : List (Nat × Nat × Nat)) (b n : Nat) :
    ∃ a c, s.issueAt p h holder u sp b n = { s with acc := s.acc ++ [a], nextAid := s.nextAid + 1, credits := c } ∧
      a.aid = s.nextAid ∧ a.port = p ∧ Carries s h a ∧ a.due = s.nomNs + a.ceilNs :=
  ⟨_, _, rfl, rfl, rfl, ⟨rfl, rfl, rfl, rfl, rfl, rfl⟩, rfl⟩

/-- What a run of grants does: arbiters and credits change, and each access that waited still waits or is outstanding, under a
handle of its own. -/
def Granted (s t : State) : Prop :=
  ∃ r a w c, t = { s with arbs := r, acc := s.acc ++ a, held := w, nextAid := s.nextAid + a.length, credits := c } ∧
    (∀ x ∈ a, s.nextAid ≤ x.aid ∧ x.aid < s.nextAid + a.length) ∧ a.length + w.length = s.held.length ∧ w ⊆ s.held ∧
    (∀ h ∈ s.held, h ∈ w ∨ ∃ x ∈ a, Carries s h x) ∧ ∀ x ∈ a, ∃ h ∈ s.held, Carries s h x

theorem Granted.refl (s : State) : Granted s s :=
  ⟨s.arbs, [], s.held, s.credits, by simp, by simp, by simp, by simp, fun _ h => .inl h, by simp⟩

/-- What the accesses of some purposes say, whether they wait or are outstanding. -/
theorem Granted.purposes {s t : State} (h : Granted s t) (f : Purpose → Option W32) (i : W32) :
    i ∈ t.acc.filterMap (fun a => f a.purpose) ++ t.held.filterMap (fun k => f k.purpose) ↔
      i ∈ s.acc.filterMap (fun a => f a.purpose) ++ s.held.filterMap (fun k => f k.purpose) := by
  obtain ⟨r, a, w, c, rfl, _, _, h3, h4, h5⟩ := h
  simp only [List.filterMap_append, List.mem_append, List.mem_filterMap]
  constructor
  · rintro ((h | ⟨x, hx, e⟩) | ⟨x, hx, e⟩)
    · exact .inl h
    · obtain ⟨k, hk, hc⟩ := h5 x hx
      rw [hc.1] at e
      exact .inr ⟨k, hk, e⟩
    · exact .inr ⟨x, h3 hx, e⟩
  · rintro (h | ⟨x, hx, e⟩)
    · exact .inl (.inl h)
    · rcases h4 x hx with hw | ⟨y, hy, hc⟩
      · exact .inr ⟨x, hw, e⟩
      · rw [← hc.1] at e
        exact .inl (.inr ⟨y, hy, e⟩)

/-- The same records wait or are outstanding after grants. -/
theorem Granted.unacked {s t : State} (h : Granted s t) (q : Nat) (i : W32) : i ∈ unackedRing t q ↔ i ∈ unackedRing s q :=
  h.purposes (fun u => match u with | .record r j 0 _ _ => if r = q then some j else none | _ => none) i

/-- The same admin records too. -/
theorem Granted.admUnacked {s t : State} (h : Granted s t) (i : W32) : i ∈ admUnacked t ↔ i ∈ admUnacked s := by
  have hp := h.purposes (fun u => match u with | .admRecord i => some i | _ => none) i
  obtain ⟨r, a, w, c, rfl, _⟩ := h
  unfold Machine.admUnacked
  simp only [List.mem_filter]
  exact and_congr hp Iff.rfl

/-- One waiting access less, of a purpose that says nothing, leaves what they say. -/
theorem erase_purposes (l : List Held) (h : Held) (f : Purpose → Option W32) (hf : f h.purpose = none) (acc : List W32) (i : W32) :
    i ∈ acc ++ (l.erase h).filterMap (fun k => f k.purpose) ↔ i ∈ acc ++ l.filterMap (fun k => f k.purpose) := by
  simp only [List.mem_append, List.mem_filterMap]
  refine or_congr Iff.rfl ⟨fun ⟨k, hk, he⟩ => ⟨k, List.erase_subset hk, he⟩, fun ⟨k, hk, he⟩ => ⟨k, ?_, he⟩⟩
  refine (List.mem_erase_of_ne ?_).2 hk
  rintro rfl
  rw [hf] at he
  cases he

/-- An access carries the same once it no longer waits. -/
theorem bytesAtIssue_erase (s : State) (h : Held) (x : List Arb) :
    bytesAtIssue { s with arbs := x, held := s.held.erase h } h = bytesAtIssue s h := by
  cases hpu : h.purpose with
  | notice q =>
    refine bytesAtIssue_congr (s := s) (t := { s with arbs := x, held := s.held.erase h }) rfl rfl rfl (fun i => ?_) (fun q i => ?_) h
    · unfold admUnacked
      simp only [List.mem_filter]
      exact and_congr (erase_purposes s.held h (fun u => match u with | .admRecord j => some j | _ => none) (by rw [hpu]) _ i) Iff.rfl
    · exact erase_purposes s.held h
        (fun u => match u with | .record r j 0 _ _ => if r = q then some j else none | _ => none) (by rw [hpu]) _ i
  | admNotice =>
    refine bytesAtIssue_congr (s := s) (t := { s with arbs := x, held := s.held.erase h }) rfl rfl rfl (fun i => ?_) (fun q i => ?_) h
    · unfold admUnacked
      simp only [List.mem_filter]
      exact and_congr (erase_purposes s.held h (fun u => match u with | .admRecord j => some j | _ => none) (by rw [hpu]) _ i) Iff.rfl
    · exact erase_purposes s.held h
        (fun u => match u with | .record r j 0 _ _ => if r = q then some j else none | _ => none) (by rw [hpu]) _ i
  | _ => simp only [bytesAtIssue, hpu]

/-- What a waiting access carries at its issue is the same before and after grants. -/
theorem Granted.bytes {s t : State} (g : Granted s t) (h : Held) : bytesAtIssue t h = bytesAtIssue s h := by
  refine bytesAtIssue_congr ?_ ?_ ?_ g.admUnacked g.unacked h <;>
  · obtain ⟨r, a, w, c, rfl, _⟩ := g
    rfl

theorem Granted.carries {s t : State} (g : Granted s t) {h : Held} {a : Access} (k : Carries t h a) : Carries s h a := by
  obtain ⟨k1, k2, k3, k4, k5, k6⟩ := k
  exact ⟨k1, k2, k3, k4, k5, k6.trans (g.bytes h)⟩

theorem Granted.trans {s t u : State} (h : Granted s t) (k : Granted t u) : Granted s u := by
  have g := h
  obtain ⟨r, a, w, c, rfl, h1, h2, h3, h4, h5⟩ := h
  obtain ⟨r', a', w', c', rfl, k1, k2, k3, k4, k5⟩ := k
  refine ⟨r', a ++ a', w', c', by simp [Nat.add_assoc], ?_, ?_, fun x hx => h3 (k3 hx), ?_, ?_⟩
  · intro x hx
    simp only [List.mem_append, List.length_append] at hx ⊢
    rcases hx with hx | hx
    · have := h1 x hx; omega
    · have := k1 x hx; dsimp only at this; omega
  · simp only [List.length_append] at *; omega
  · intro x hx
    rcases h4 x hx with hw | ⟨y, hy, hc⟩
    · rcases k4 x hw with hw' | ⟨y, hy, hc⟩
      · exact .inl hw'
      · exact .inr ⟨y, by simp [hy], g.carries hc⟩
    · exact .inr ⟨y, by simp [hy], hc⟩
  · intro x hx
    rcases List.mem_append.1 hx with hx | hx
    · exact h5 x hx
    · obtain ⟨k, hk, hc⟩ := k5 x hx
      exact ⟨k, h3 hk, g.carries hc⟩

/-- The arbiters of the later state do not matter. -/
theorem Granted.arbs {s t : State} (h : Granted s t) (x : List Arb) : Granted s { t with arbs := x } := by
  obtain ⟨r, a, w, c, rfl, h1, h2, h3, h4, h5⟩ := h
  exact ⟨x, a, w, c, rfl, h1, h2, h3, h4, h5⟩

theorem portPick_mem {s : State} {p : Nat} {hs : List Held} {h : Held} (e : portPick s p hs = some h) : h ∈ hs := by
  unfold portPick at e
  split at e
  · rename_i k hk
    cases e
    exact List.mem_of_find?_eq_some hk
  · cases hb : bestOf s p (portPrio s p) (hs.filterMap (fun h => portRequester h.purpose h.write)) with
    | none => rw [hb] at e; cases e
    | some r =>
      rw [hb] at e
      exact List.mem_of_find?_eq_some e

theorem unitHeads_subset (hs : List Held) : unitHeads hs ⊆ hs := by
  induction hs with
  | nil => simp [unitHeads]
  | cons h hs ih =>
    intro x hx
    simp only [unitHeads, List.mem_cons, List.mem_filter] at hx ⊢
    rcases hx with hx | ⟨hx, _⟩
    · exact .inl hx
    · exact .inr (ih hx)

/-- One more grant. -/
theorem State.grantNext_granted (s : State) : Granted s s.grantNext := by
  unfold State.grantNext
  dsimp only
  split
  · exact Granted.refl s
  · rename_i p _
    split
    · exact Granted.refl s
    · rename_i h hp
      have hm : h ∈ s.held := by
        have h1 := portPick_mem hp
        simp only [contenders, readyHeads, List.mem_filter] at h1
        exact unitHeads_subset _ h1.1.1.1
      obtain ⟨x, e⟩ := State.countGrant_frame s p h (readyHeads s)
      rw [e]
      obtain ⟨a, c, e1, ha, _, hc, _⟩ :=
        State.issueAt_frame { s with arbs := x, held := s.held.erase h } p h h.holder h.classU [] (beatsNow h) (beatsLater h)
      obtain ⟨y, e2⟩ := State.raiseWaits_frame (State.issueAt { s with arbs := x, held := s.held.erase h } p h h.holder h.classU []
        (beatsNow h) (beatsLater h))
      rw [e2, e1]
      have hb : Carries s h a := by
        obtain ⟨k1, k2, k3, k4, k5, k6⟩ := hc
        exact ⟨k1, k2, k3, k4, k5, k6.trans (bytesAtIssue_erase s h x)⟩
      refine Granted.arbs ⟨x, [a], s.held.erase h, c, rfl, ?_, ?_, List.erase_subset, ?_, ?_⟩ y
      · intro z hz
        simp only [List.mem_singleton] at hz
        subst hz
        have : z.aid = s.nextAid := ha
        simp only [List.length_singleton]
        omega
      · have := List.length_erase_of_mem hm
        have : 0 < s.held.length := List.length_pos_of_mem hm
        simp only [List.length_singleton]
        omega
      · intro k hk
        by_cases hkh : k = h
        · subst hkh
          exact .inr ⟨a, by simp, hb⟩
        · exact .inl ((List.mem_erase_of_ne hkh).2 hk)
      · intro z hz
        simp only [List.mem_singleton] at hz
        subst hz
        exact ⟨h, hm, hb⟩

/-- Any number of grants. -/
theorem State.pump_granted (n : Nat) (s : State) : Granted s (s.pump n) := by
  induction n generalizing s with
  | zero => exact Granted.refl s
  | succ n ih => exact (State.grantNext_granted s).trans (ih _)

/-- A service access joins those that wait, and grants follow; in the FATAL state nothing happens. -/
theorem State.service_granted (s : State) (h : Held) :
    (s.fatal = true ∧ s.service h = s) ∨ (s.fatal = false ∧ Granted { s with held := s.held ++ [h] } (s.service h)) := by
  unfold State.service
  split
  · exact .inl ⟨by assumption, rfl⟩
  · refine .inr ⟨by simp_all, ?_⟩
    obtain ⟨x, e⟩ := State.raiseWaits_frame { s with held := s.held ++ [h] }
    rw [e]
    exact Granted.trans (Granted.arbs (Granted.refl _) x) (State.pump_granted _ _)

/-- The fields that a service access touches. -/
theorem State.service_frame (s : State) (h : Held) :
    ∃ r a w n c, s.service h = { s with arbs := r, acc := s.acc ++ a, held := w, nextAid := s.nextAid + n, credits := c } ∧ a.length = n := by
  rcases State.service_granted s h with ⟨_, e⟩ | ⟨_, r, a, w, c, e, _⟩
  · exact ⟨s.arbs, [], s.held, 0, s.credits, by rw [e]; simp, rfl⟩
  · exact ⟨r, a, w, a.length, c, e, rfl⟩

/-- A port that rises or falls touches the active ports, credits and the ports of held accesses. -/
theorem State.refreshPort_frame (s : State) (k : Nat) :
    ∃ p c w, s.refreshPort k = { s with portActive := p, credits := c, held := w } := by
  unfold State.refreshPort
  split
  · split
    · exact ⟨_, _, _, rfl⟩
    · exact ⟨_, _, s.held, rfl⟩
  · split
    · exact ⟨_, _, _, rfl⟩
    · exact ⟨_, _, _, rfl⟩

/-- The same for every port. -/
theorem State.refreshPorts_frame (s : State) :
    ∃ p c w, s.refreshPorts = { s with portActive := p, credits := c, held := w } := by
  have go : ∀ (ks : List Nat) (t : State), ∃ p c w,
      ks.foldl (fun t n => t.refreshPort n) t = { t with portActive := p, credits := c, held := w } := by
    intro ks
    induction ks with
    | nil => intro t; exact ⟨_, _, _, rfl⟩
    | cons k ks ih =>
      intro t
      obtain ⟨p, c, w, e⟩ := State.refreshPort_frame t k
      obtain ⟨p', c', w', e'⟩ := ih (t.refreshPort k)
      exact ⟨p', c', w', by rw [List.foldl_cons, e', e]⟩
  exact go _ s

/-- Draining held accesses touches ports, credits, arbiters, accesses, those held and handles. -/
theorem State.drainHeld_frame (s : State) :
    ∃ p r a w n c, s.drainHeld =
      { s with portActive := p, arbs := r, acc := s.acc ++ a, held := w, nextAid := s.nextAid + n, credits := c } ∧ a.length = n := by
  obtain ⟨p, c, w, e⟩ := State.refreshPorts_frame s
  unfold State.drainHeld
  dsimp only
  split
  · exact ⟨p, s.arbs, [], [], 0, c, by rw [e]; simp, rfl⟩
  · obtain ⟨r, a, w', c', e', _⟩ := State.pump_granted s.refreshPorts.held.length s.refreshPorts
    exact ⟨p, r, a, w', a.length, c', by rw [e', e], rfl⟩

end Sys2Proof.Machine
end

