-- ==== Sys2Proof/Laws/Ports.lean ====
section
/-! SUPPORT. What the operations on accesses leave as it was, in the terms of the statements. -/

namespace Sys2Proof.Machine

theorem PortsOnly.refl (s : State) : PortsOnly s s := ⟨_, _, _, _, _, _, rfl⟩

theorem PortsOnly.trans {s t u : State} (h : PortsOnly s t) (k : PortsOnly t u) : PortsOnly s u := by
  obtain ⟨_, _, _, _, _, _, rfl⟩ := h
  obtain ⟨_, _, _, _, _, _, rfl⟩ := k
  exact ⟨_, _, _, _, _, _, rfl⟩

theorem PortsOnly.service (s : State) (h : Held) : PortsOnly s (s.service h) := by
  obtain ⟨r, a, w, n, c, e, _⟩ := State.service_frame s h
  rw [e]
  exact ⟨_, _, _, _, _, _, rfl⟩

theorem PortsOnly.granted {s t : State} (h : Granted s t) : PortsOnly s t := by
  obtain ⟨r, a, w, c, rfl, _⟩ := h
  exact ⟨_, _, _, _, _, _, rfl⟩

theorem PortsOnly.bankAccess (s : State) (q r : Nat) : PortsOnly s (s.bankAccess q r) := by
  obtain ⟨x, e⟩ := State.bankAccess_frame s q r
  rw [e]
  exact ⟨_, _, _, _, _, _, rfl⟩

theorem PortsOnly.drainHeld (s : State) : PortsOnly s s.drainHeld := by
  obtain ⟨p, r, a, w, n, c, e, _⟩ := State.drainHeld_frame s
  rw [e]
  exact ⟨_, _, _, _, _, _, rfl⟩

theorem PortsOnly.dropAccess (s : State) (aid : Nat) : PortsOnly s (s.dropAccess aid) := ⟨_, _, _, _, _, _, rfl⟩

theorem PortsOnly.dropDrain (s : State) (aid : Nat) : PortsOnly s (s.dropAccess aid).drainHeld :=
  (PortsOnly.dropAccess s aid).trans (PortsOnly.drainHeld _)

theorem PortsOnly.serviceAgain (s : State) (a : Access) (k : Nat) : PortsOnly s (s.serviceAgain a k) := PortsOnly.service _ _

theorem PortsOnly.reissue (s : State) (a : Access) : PortsOnly s (s.reissue a) := PortsOnly.service _ _

/-- A quarantined access stands last in the quarantine; the rest is the ports'. -/
theorem PortsOnly.quarantineDrain (s : State) (a : Access) :
    PortsOnly { s with quar := s.quar ++ [{ acc := a, freeAt := s.nomNs + 2 * a.ceilNs }] } (s.quarantine a).drainHeld := by
  refine PortsOnly.trans ?_ (PortsOnly.drainHeld _)
  exact ⟨_, _, _, _, _, _, rfl⟩

theorem Released.dropDrain (s : State) (aid : Nat) : Released s (s.dropAccess aid).drainHeld aid := by
  obtain ⟨p, r, a, w, n, c, e, _⟩ := State.drainHeld_frame (s.dropAccess aid)
  rw [e]
  exact ⟨a, rfl⟩

theorem Released.quarantineDrain (s : State) (a : Access) : Released s (s.quarantine a).drainHeld a.aid := by
  obtain ⟨p, r, b, w, n, c, e, _⟩ := State.drainHeld_frame (s.quarantine a)
  rw [e]
  exact ⟨b, rfl⟩

/-- More accesses are only added by a service. -/
theorem Released.service {s t : State} {aid : Nat} (h : Released s t aid) (k : Held) : Released s (t.service k) aid := by
  obtain ⟨r, a, w, n, c, e, _⟩ := State.service_frame t k
  obtain ⟨more, hm⟩ := h
  exact ⟨more ++ a, by rw [e]; simp [hm]⟩

theorem Released.congr {s t u : State} {aid : Nat} (h : Released s t aid) (e : u.acc = t.acc) : Released s u aid := by
  obtain ⟨more, hm⟩ := h
  exact ⟨more, by rw [e, hm]⟩

/-- What is offered stays so through grants, where what waits for it would carry its bytes if it were issued now. -/
theorem Offered.granted {s t : State} {u : Purpose} {w : Bool} {a l : Nat} {d : List Byte} (h : Offered s u w a l d) (g : Granted s t)
    (hp : ∀ x ∈ s.held, x.purpose = u → bytesAtIssue s x = x.data) : Offered t u w a l d := by
  obtain ⟨r, b, v, c, rfl, _, _, _, hk, _⟩ := g
  rcases h with ⟨x, hx, hq⟩ | ⟨x, hx, h1, h2, h3, h4, h5⟩
  · exact .inl ⟨x, by simp [hx], hq⟩
  · rcases hk x hx with hw | ⟨y, hy, k1, k2, k3, k4, _, k6⟩
    · exact .inr ⟨x, hw, h1, h2, h3, h4, h5⟩
    · exact .inl ⟨y, by simp [hy], k1.trans h1, k2.trans h2, k3.trans h3, k4.trans h4, (k6.trans (hp x hx h1)).trans h5⟩

/-- An access that a unit issues is outstanding or waits, unless the block is in the FATAL state. -/
theorem Offered.service (s : State) (h : Held) (hf : s.fatal = false)
    (hp : bytesAtIssue { s with held := s.held ++ [h] } h = h.data) :
    Offered (s.service h) h.purpose h.write h.addr h.len h.data := by
  rcases State.service_granted s h with ⟨e, _⟩ | ⟨_, g⟩
  · rw [hf] at e; cases e
  · obtain ⟨r, b, v, c, e, _, _, _, hk, _⟩ := g
    rw [e]
    rcases hk h (by simp) with hw | ⟨y, hy, k1, k2, k3, k4, _, k6⟩
    · exact .inr ⟨h, hw, rfl, rfl, rfl, rfl, rfl⟩
    · exact .inl ⟨y, by simp [hy], k1, k2, k3, k4, k6.trans hp⟩

theorem Offered.congr {s t : State} {u : Purpose} {w : Bool} {a l : Nat} {d : List Byte} (h : Offered s u w a l d)
    (ea : t.acc = s.acc) (eh : t.held = s.held) : Offered t u w a l d := by
  unfold Offered
  rw [ea, eh]
  exact h

/-- A further service keeps what is offered. -/
theorem Offered.mono {s : State} {u : Purpose} {w : Bool} {a l : Nat} {d : List Byte} (h : Offered s u w a l d) (k : Held)
    (hp : ∀ x ∈ s.held ++ [k], x.purpose = u → bytesAtIssue { s with held := s.held ++ [k] } x = x.data) :
    Offered (s.service k) u w a l d := by
  rcases State.service_granted s k with ⟨_, e⟩ | ⟨_, g⟩
  · rw [e]; exact h
  · refine Offered.granted (s := { s with held := s.held ++ [k] }) ?_ g hp
    rcases h with ⟨x, hx, hq⟩ | ⟨x, hx, hq⟩
    · exact .inl ⟨x, hx, hq⟩
    · exact .inr ⟨x, by simp [hx], hq⟩

/-- A sound answer lands without a trace in the registers and logs. -/
theorem State.land_clean (s : State) {a : Access} {ans : Answer} (h : CleanAnswer a ans) (site qid slot clu : Nat) :
    s.land a ans.words site qid slot clu = (s, answerBytes a ans, (readBytes a.addr a.len ans.words).2) := by
  unfold State.land
  rw [h.2.1, h.2.2.1]
  rfl

end Sys2Proof.Machine
end

