-- ==== Sys2Proof/Laws/WordMap.lean ====
section
/-! SUPPORT. Word maps: what a write leaves to read, and that every operation keeps the canonical form. -/

namespace Sys2Proof.Machine

/-- The parts of the canonical form. -/
theorem WordMap.wfFrom_cons (lo a : Nat) (x : W32) (r : WordMap) :
    WordMap.wfFrom lo ((a, x) :: r) = true ↔ lo ≤ a ∧ x ≠ 0 ∧ WordMap.wfFrom (a + 1) r = true := by
  simp only [WordMap.wfFrom, Bool.and_eq_true, decide_eq_true_eq, and_assoc]

/-- A lower bound may be lowered. -/
theorem WordMap.wfFrom_mono (m : WordMap) (lo hi : Nat) (h : lo ≤ hi) (w : WordMap.wfFrom hi m = true) :
    WordMap.wfFrom lo m = true := by
  cases m with
  | nil => rfl
  | cons p r =>
    obtain ⟨a, x⟩ := p
    rw [WordMap.wfFrom_cons] at w ⊢
    exact ⟨by omega, w.2⟩

/-- A word below the bound is not listed. -/
theorem WordMap.get_below (m : WordMap) (lo k : Nat) (hk : k < lo) (w : WordMap.wfFrom lo m = true) :
    WordMap.get m k = 0 := by
  induction m generalizing lo with
  | nil => rfl
  | cons p r ih =>
    obtain ⟨a, x⟩ := p
    rw [WordMap.wfFrom_cons] at w
    rw [WordMap.get, if_neg (by omega)]
    exact ih (a + 1) (by omega) w.2.2

/-- The value written is the value read. -/
theorem WordMap.get_put_same (m : WordMap) (lo k : Nat) (v : W32) (w : WordMap.wfFrom lo m = true) :
    WordMap.get (WordMap.put m k v) k = v := by
  induction m generalizing lo with
  | nil =>
    rw [WordMap.put]
    split
    · rename_i hv; rw [hv]; rfl
    · rw [WordMap.get, if_pos rfl]
  | cons p r ih =>
    obtain ⟨a, x⟩ := p
    have w' := w
    rw [WordMap.wfFrom_cons] at w
    rw [WordMap.put]
    split
    · rename_i hk
      split
      · rename_i hv
        rw [hv, WordMap.get, if_neg (by omega)]
        exact WordMap.get_below r (a + 1) k (by omega) w.2.2
      · rw [WordMap.get, if_pos rfl]
    · split
      · rename_i h1 h2
        split
        · rename_i hv
          rw [hv]
          exact WordMap.get_below r (a + 1) k (by omega) w.2.2
        · rw [WordMap.get, if_pos rfl]
      · rw [WordMap.get, if_neg (by omega)]
        exact ih (a + 1) w.2.2

/-- Every other word reads as before. -/
theorem WordMap.get_put_other (m : WordMap) (k j : Nat) (v : W32) (h : j ≠ k) :
    WordMap.get (WordMap.put m k v) j = WordMap.get m j := by
  have hk : k ≠ j := fun e => h e.symm
  induction m with
  | nil =>
    rw [WordMap.put]
    split
    · rfl
    · exact if_neg hk
  | cons p r ih =>
    obtain ⟨a, x⟩ := p
    rw [WordMap.put]
    split
    · split
      · rfl
      · exact if_neg hk
    · split
      · rename_i h1 h2
        have ha : a ≠ j := by omega
        split
        · exact (if_neg ha).symm
        · exact (if_neg hk).trans (if_neg ha).symm
      · simp only [WordMap.get, ih]

/-- A write at or above the bound keeps the canonical form. -/
theorem WordMap.wfFrom_put (m : WordMap) (lo k : Nat) (v : W32) (hk : lo ≤ k) (w : WordMap.wfFrom lo m = true) :
    WordMap.wfFrom lo (WordMap.put m k v) = true := by
  induction m generalizing lo with
  | nil =>
    rw [WordMap.put]
    split
    · rfl
    · rename_i hv
      rw [WordMap.wfFrom_cons]
      exact ⟨hk, hv, rfl⟩
  | cons p r ih =>
    obtain ⟨a, x⟩ := p
    have w' := w
    rw [WordMap.wfFrom_cons] at w
    rw [WordMap.put]
    split
    · split
      · exact w'
      · rename_i h1 hv
        rw [WordMap.wfFrom_cons, WordMap.wfFrom_cons]
        exact ⟨hk, hv, by omega, w.2⟩
    · split
      · rename_i h1 h2
        split
        · exact WordMap.wfFrom_mono r lo (a + 1) (by omega) w.2.2
        · rename_i hv
          subst h2
          rw [WordMap.wfFrom_cons]
          exact ⟨hk, hv, w.2.2⟩
      · rw [WordMap.wfFrom_cons]
        exact ⟨w.1, w.2.1, ih (a + 1) (by omega) w.2.2⟩

/-- A write keeps the canonical form. -/
theorem WordMap.wf_put (m : WordMap) (k : Nat) (v : W32) (w : WordMap.wf m = true) : WordMap.wf (WordMap.put m k v) = true :=
  WordMap.wfFrom_put m 0 k v (Nat.zero_le k) w

/-- Writes of consecutive words keep it. -/
theorem WordMap.wf_putAll (vs : List W32) (m : WordMap) (k : Nat) (w : WordMap.wf m = true) :
    WordMap.wf (WordMap.putAll m k vs) = true := by
  induction vs generalizing m k with
  | nil => exact w
  | cons v vs ih => exact ih _ _ (WordMap.wf_put m k v w)

/-- Dropping entries keeps it. -/
theorem WordMap.wfFrom_filter (f : Nat × W32 → Bool) (m : WordMap) (lo : Nat) (w : WordMap.wfFrom lo m = true) :
    WordMap.wfFrom lo (m.filter f) = true := by
  induction m generalizing lo with
  | nil => rfl
  | cons p r ih =>
    obtain ⟨a, x⟩ := p
    rw [WordMap.wfFrom_cons] at w
    rw [List.filter_cons]
    split
    · rw [WordMap.wfFrom_cons]
      exact ⟨w.1, w.2.1, ih (a + 1) w.2.2⟩
    · exact WordMap.wfFrom_mono _ lo (a + 1) (by omega) (ih (a + 1) w.2.2)

/-- Clearing a stretch of words keeps it. -/
theorem WordMap.wf_clear (m : WordMap) (lo n : Nat) (w : WordMap.wf m = true) : WordMap.wf (WordMap.clear m lo n) = true :=
  WordMap.wfFrom_filter _ m 0 w

/-- The register written reads as written. -/
theorem State.rd_wr_same (s : State) (r : Reg) (i : Nat) (v : W32) (w : s.regs.wf = true) : (s.wr r i v).rd r i = v := by
  simp only [State.rd, State.wr, WordMap.get_put_same s.regs 0 (r.addr i) _ w, BitVec.xor_assoc, BitVec.xor_self, BitVec.xor_zero]

/-- Every other register reads as before. -/
theorem State.rd_wr_other (s : State) (r q : Reg) (i j : Nat) (v : W32) (h : q.addr j ≠ r.addr i) :
    (s.wr r i v).rd q j = s.rd q j := by
  simp only [State.rd, State.wr, WordMap.get_put_other _ _ _ _ h]

end Sys2Proof.Machine
end

