-- ==== Sys2Proof/Laws/Bits.lean ====
section
/-! SUPPORT. Bit fields: what a field reads after it, or another, is replaced, and registers whose fields are. -/

namespace Sys2Proof.Machine

theorem bit_eq {n : Nat} (w : BitVec n) (i : Nat) : bit w i = w.getLsbD i := by
  unfold bit
  rw [BitVec.getLsbD, Nat.testBit_eq_decide_div_mod_eq]

theorem testBit_bits {n : Nat} (w : BitVec n) (lo len i : Nat) : (bits w lo len).testBit i = (decide (i < len) && w.getLsbD (lo + i)) := by
  unfold bits
  rw [Nat.testBit_mod_two_pow, Nat.testBit_div_two_pow, BitVec.getLsbD, Nat.add_comm]

theorem bits_lt {n : Nat} (w : BitVec n) (lo len : Nat) : bits w lo len < 2 ^ len := Nat.mod_lt _ (Nat.two_pow_pos len)

/-- Splitting a number around a field. -/
theorem split_field (x lo len : Nat) : x = x / 2 ^ (lo + len) * 2 ^ (lo + len) + x / 2 ^ lo % 2 ^ len * 2 ^ lo + x % 2 ^ lo := by
  have h1 := Nat.div_add_mod x (2 ^ lo)
  have h2 := Nat.div_add_mod (x / 2 ^ lo) (2 ^ len)
  rw [Nat.div_div_eq_div_mul, ← Nat.pow_add] at h2
  have h3 : x / 2 ^ (lo + len) * 2 ^ (lo + len) = 2 ^ lo * (2 ^ len * (x / 2 ^ (lo + len))) := by rw [Nat.pow_add]; ring
  rw [h3]
  have h4 : 2 ^ lo * (x / 2 ^ lo) = 2 ^ lo * (2 ^ len * (x / 2 ^ (lo + len))) + x / 2 ^ lo % 2 ^ len * 2 ^ lo := by
    conv_lhs => rw [← h2]
    ring
  omega

/-- The number with its field replaced, bit by bit. -/
theorem testBit_replace (x lo len v i : Nat) :
    (x - x / 2 ^ lo % 2 ^ len * 2 ^ lo + v % 2 ^ len * 2 ^ lo).testBit i =
      if lo ≤ i ∧ i < lo + len then v.testBit (i - lo) else x.testBit i := by
  have e := split_field x lo len
  have h1 : x - x / 2 ^ lo % 2 ^ len * 2 ^ lo + v % 2 ^ len * 2 ^ lo =
      2 ^ lo * (2 ^ len * (x / 2 ^ (lo + len)) + v % 2 ^ len) + x % 2 ^ lo := by
    have : 2 ^ lo * (2 ^ len * (x / 2 ^ (lo + len)) + v % 2 ^ len) = x / 2 ^ (lo + len) * 2 ^ (lo + len) + v % 2 ^ len * 2 ^ lo := by
      rw [Nat.pow_add]; ring
    omega
  rw [h1, Nat.testBit_two_pow_mul_add _ (Nat.mod_lt _ (Nat.two_pow_pos lo))]
  by_cases hi : i < lo
  · rw [if_pos hi, if_neg (by omega), Nat.testBit_mod_two_pow]
    simp [hi]
  · rw [if_neg hi, Nat.testBit_two_pow_mul_add _ (Nat.mod_lt _ (Nat.two_pow_pos len))]
    by_cases hj : i - lo < len
    · rw [if_pos hj, if_pos (by omega), Nat.testBit_mod_two_pow]
      simp [hj]
    · rw [if_neg hj, if_neg (by omega), Nat.testBit_div_two_pow]
      congr 1
      omega

theorem withBits_getLsbD {n : Nat} (w : BitVec n) (lo len v i : Nat) (h : lo + len ≤ n) :
    (withBits w lo len v).getLsbD i = if lo ≤ i ∧ i < lo + len then v.testBit (i - lo) else w.getLsbD i := by
  unfold withBits
  rw [BitVec.getLsbD_ofNat, testBit_replace]
  by_cases hi : i < n
  · simp [hi, BitVec.getLsbD]
  · rw [BitVec.getLsbD_of_ge w i (by omega)]
    simp [hi]
    intros
    omega

/-- A field replaced reads as the value given, at its width. -/
theorem bits_withBits {n : Nat} (w : BitVec n) (lo len v : Nat) (h : lo + len ≤ n) : bits (withBits w lo len v) lo len = v % 2 ^ len := by
  apply Nat.eq_of_testBit_eq
  intro i
  rw [testBit_bits, withBits_getLsbD _ _ _ _ _ h, Nat.testBit_mod_two_pow]
  by_cases hi : i < len
  · simp [hi]
  · simp [hi]

/-- A field apart from the one replaced reads as before. -/
theorem bits_withBits_ne {n : Nat} (w : BitVec n) (lo len v a k : Nat) (h : lo + len ≤ n) (d : a + k ≤ lo ∨ lo + len ≤ a) :
    bits (withBits w lo len v) a k = bits w a k := by
  apply Nat.eq_of_testBit_eq
  intro i
  rw [testBit_bits, testBit_bits]
  by_cases hi : i < k
  · rw [withBits_getLsbD _ _ _ _ _ h, if_neg (by omega)]
  · simp [hi]

theorem bit_withBits {n : Nat} (w : BitVec n) (lo len v i : Nat) (h : lo + len ≤ n) :
    bit (withBits w lo len v) i = if lo ≤ i ∧ i < lo + len then v.testBit (i - lo) else bit w i := by
  rw [bit_eq, withBits_getLsbD _ _ _ _ _ h, bit_eq]

/-- The one bit of a field of one bit. -/
theorem bit_withBits_one {n : Nat} (w : BitVec n) (i : Nat) (b : Bool) (h : i + 1 ≤ n) : bit (withBits w i 1 (flag b)) i = b := by
  rw [bit_withBits _ _ _ _ _ h, if_pos (by omega)]
  cases b <;> simp [flag]

theorem bit_eq_bits {n : Nat} (w : BitVec n) (i : Nat) : bit w i = decide (bits w i 1 = 1) := rfl

/-- A field of a register replaced reads as the value given. -/
theorem State.fld_setFld (s : State) (r : Reg) (i lo len v : Nat) (w : s.regs.wf = true) (h : lo + len ≤ 32) :
    (s.setFld r i lo len v).fld r i lo len = v % 2 ^ len := by
  unfold State.fld State.setFld
  rw [State.rd_wr_same _ _ _ _ w, bits_withBits _ _ _ _ h]

theorem State.rd_setFld (s : State) (r : Reg) (i lo len v : Nat) (w : s.regs.wf = true) :
    (s.setFld r i lo len v).rd r i = withBits (s.rd r i) lo len v := State.rd_wr_same _ _ _ _ w

theorem State.fld_bump (s : State) (r : Reg) (i lo len k : Nat) (w : s.regs.wf = true) (h : lo + len ≤ 32) :
    (s.bump r i lo len k).fld r i lo len = (s.fld r i lo len + k) % 2 ^ len := State.fld_setFld s r i lo len _ w h

/-- What a status register reads after an event: its fields as the event leaves them, and some SEQ. -/
theorem State.rd_sEvent (s : State) (r : Reg) (i : Nat) (f : W32 → W32) (w : s.regs.wf = true) :
    ∃ n, (s.sEvent r i f).rd r i = withBits (f (s.rd r i)) 24 8 n := ⟨_, State.rd_wr_same _ _ _ _ w⟩

/-- A bit of a status register below its SEQ after an event. -/
theorem State.bit_sEvent (s : State) (r : Reg) (i k : Nat) (f : W32 → W32) (w : s.regs.wf = true) (h : k < 24) :
    bit ((s.sEvent r i f).rd r i) k = bit (f (s.rd r i)) k := by
  obtain ⟨n, e⟩ := State.rd_sEvent s r i f w
  rw [e, bit_withBits _ _ _ _ _ (by omega), if_neg (by omega)]

theorem State.bits_sEvent (s : State) (r : Reg) (i lo len : Nat) (f : W32 → W32) (w : s.regs.wf = true) (h : lo + len ≤ 24) :
    bits ((s.sEvent r i f).rd r i) lo len = bits (f (s.rd r i)) lo len := by
  obtain ⟨n, e⟩ := State.rd_sEvent s r i f w
  rw [e, bits_withBits_ne _ _ _ _ _ _ (by omega) (by omega)]

/-- Another register is as it was. -/
theorem State.rd_sEvent_ne (s : State) (r q : Reg) (i j : Nat) (f : W32 → W32) (h : q.addr j ≠ r.addr i) :
    (s.sEvent r i f).rd q j = s.rd q j := State.rd_wr_other _ _ _ _ _ _ h

theorem State.wf_wr (s : State) (r : Reg) (i : Nat) (v : W32) (w : s.regs.wf = true) : (s.wr r i v).regs.wf = true := WordMap.wf_put _ _ _ w

theorem State.wf_sEvent (s : State) (r : Reg) (i : Nat) (f : W32 → W32) (w : s.regs.wf = true) : (s.sEvent r i f).regs.wf = true :=
  WordMap.wf_put _ _ _ w

/-- A lost record: LOG_LOST is set, and ERR_LOST_SEQ keeps the first number lost (11 R358). -/
theorem State.loseErr_stat (s : State) (q : W32) (w : s.regs.wf = true) :
    bit ((s.loseErr q).rd .errLogStat 0) 0 = true ∧
    (s.loseErr q).rd .errLostSeq 0 = if bit (s.rd .errLogStat 0) 0 then s.rd .errLostSeq 0 else q := by
  by_cases h : bit (s.rd .errLogStat 0) 0 = true
  · have e : s.loseErr q = s.sEvent .errLogStat 0 (fun w => withBits w 0 1 1) := by unfold State.loseErr; rw [if_pos h]
    rw [e, if_pos h, State.bit_sEvent _ _ _ _ _ w (by omega), bit_withBits _ _ _ _ _ (by omega),
      State.rd_sEvent_ne _ _ _ _ _ _ (by decide)]
    exact ⟨rfl, rfl⟩
  · have e : s.loseErr q = (s.wr .errLostSeq 0 q).sEvent .errLogStat 0 (fun w => withBits w 0 1 1) := by unfold State.loseErr; rw [if_neg h]
    rw [e, if_neg h, State.bit_sEvent _ _ _ _ _ (State.wf_wr _ _ _ _ w) (by omega), bit_withBits _ _ _ _ _ (by omega),
      State.rd_sEvent_ne _ _ _ _ _ _ (by decide), State.rd_wr_same _ _ _ _ w]
    exact ⟨rfl, rfl⟩

/-- Logging a fault where fewer than 64 records are pending. -/
theorem State.logErr_room (s : State) (e : ErrRec) (h : s.errQ.length < 64) (hc : 1 < e.cls) :
    s.logErr e = { (s.wr .errNextSeq 0 (if s.rd .errNextSeq 0 + 1 = 0 then 1 else s.rd .errNextSeq 0 + 1)) with
      errQ := s.errQ ++ [{ e with seq := s.rd .errNextSeq 0, time := s.timebase, count := 1 }] } := by
  unfold State.logErr
  rw [if_neg (by simp; omega)]
  dsimp only
  rw [if_neg (show ¬ 64 ≤ (s.wr .errNextSeq 0 _).errQ.length from by change ¬ 64 ≤ s.errQ.length; omega)]
  rfl

/-- It is queued with the next SEQ. -/
theorem Logged.logErr (s : State) (e : ErrRec) (h : s.errQ.length < 64) (hc : 1 < e.cls) : Logged s (s.logErr e) e := by
  rw [State.logErr_room s e h hc]
  rfl

/-- What a pulse leaves depends on the pulses held alone. -/
theorem State.pulse_congr (s u : State) (n k : Nat) (h : u.heldPulses = s.heldPulses) :
    u.pulse n k = { u with heldPulses := (s.pulse n k).heldPulses } := by
  unfold State.pulse
  rw [h]

/-- A merged pulse leaves the sources of the pulses held as they were. -/
theorem mergePulse_sources (n k : Nat) (l : List (Nat × Nat × Nat)) : (mergePulse n k l).map (·.1) = l.map (·.1) := by
  induction l with
  | nil => rfl
  | cons p ps ih =>
    unfold mergePulse
    split
    · rfl
    · rw [List.map_cons, List.map_cons, ih]

/-- A pulse is held for delivery. -/
theorem State.pulse_held (s : State) (n k : Nat) : (s.pulse n k).heldPulses.any (fun p => p.1 == n) = true := by
  have hm : ∀ l : List (Nat × Nat × Nat), l.any (fun p => p.1 == n) = (l.map (·.1)).any (· == n) := by intro l; simp [List.any_map, Function.comp_def]
  unfold State.pulse
  dsimp only
  split
  · simp
  · rename_i h
    rw [hm, mergePulse_sources, ← hm]
    cases hf : s.heldPulses.filter (fun p => p.1 == n) with
    | nil => rw [hf] at h; simp at h
    | cons x xs =>
      have hx : x ∈ s.heldPulses.filter (fun p => p.1 == n) := by rw [hf]; exact List.mem_cons_self
      exact List.any_eq_true.mpr ⟨x, (List.mem_filter.mp hx).1, (List.mem_filter.mp hx).2⟩

/-! The instance table. -/

theorem State.inst_setInst (s : State) (iid w : Nat) (v : W32) (h : s.is0.wf = true) : (s.setInst iid w v).inst iid w = v :=
  WordMap.get_put_same _ 0 _ _ h

theorem State.inst_setInst_ne (s : State) (i w j x : Nat) (v : W32) (h : 16 * j + x ≠ 16 * i + w) :
    (s.setInst i w v).inst j x = s.inst j x := WordMap.get_put_other _ _ _ _ h

theorem State.is0_setInst_wf (s : State) (iid w : Nat) (v : W32) (h : s.is0.wf = true) : (s.setInst iid w v).is0.wf = true :=
  WordMap.wf_put _ _ _ h

theorem State.is0_setInst_get (s : State) (iid w k : Nat) (v : W32) (h : k ≠ 16 * iid + w) :
    (s.setInst iid w v).is0.get k = s.is0.get k := WordMap.get_put_other _ _ _ _ h

theorem State.instFld_setInstFld (s : State) (iid w lo len v : Nat) (h : s.is0.wf = true) (l : lo + len ≤ 32) :
    (s.setInstFld iid w lo len v).instFld iid w lo len = v % 2 ^ len := by
  unfold State.instFld State.setInstFld
  rw [State.inst_setInst _ _ _ _ h, bits_withBits _ _ _ _ l]

theorem State.instFld_setInstFld_ne (s : State) (iid w lo len v a k : Nat) (h : s.is0.wf = true) (l : lo + len ≤ 32)
    (d : a + k ≤ lo ∨ lo + len ≤ a) : (s.setInstFld iid w lo len v).instFld iid w a k = s.instFld iid w a k := by
  unfold State.instFld State.setInstFld
  rw [State.inst_setInst _ _ _ _ h, bits_withBits_ne _ _ _ _ _ _ l d]

/-- A field of 32 bits is the word. -/
theorem instFld_word (s : State) (iid w : Nat) : s.instFld iid w 0 32 = (s.inst iid w).toNat := by
  unfold State.instFld bits
  rw [Nat.pow_zero, Nat.div_one, Nat.mod_eq_of_lt (s.inst iid w).isLt]

theorem access_aid {s : State} {aid : Nat} {a : Access} (h : s.access aid = some a) : a.aid = aid := by
  simpa using List.find?_some h

/-- What answering an access and draining leaves: the ports' own fields. -/
theorem State.dropDrain_eq (s : State) (aid : Nat) : ∃ p r b w n c, (s.dropAccess aid).drainHeld =
    { s with portActive := p, arbs := r, acc := b, held := w, nextAid := n, credits := c } := by
  obtain ⟨p, r, b, w, n, c, e, _⟩ := State.drainHeld_frame (s.dropAccess aid)
  exact ⟨p, r, _, w, _, c, e⟩

/-- What quarantining an access and draining leaves. -/
theorem State.quarantineDrain_eq (s : State) (a : Access) : ∃ p r b w n c, (s.quarantine a).drainHeld =
    { s with portActive := p, arbs := r, acc := b, held := w, nextAid := n, credits := c,
             quar := s.quar ++ [{ acc := a, freeAt := s.nomNs + 2 * a.ceilNs }] } := by
  obtain ⟨p, r, b, w, n, c, e, _⟩ := State.drainHeld_frame (s.quarantine a)
  exact ⟨p, r, _, w, _, c, e⟩

end Sys2Proof.Machine
end

