-- ==== Sys2Proof/Laws/Frames.lean ====
section
/-! SUPPORT. What the keyed records of State read after they are replaced, and the frames of the units' operations. -/

namespace Sys2Proof.Machine

/-- A record found under a key has the key. -/
theorem find_key {α : Type} (k : α → Nat) (n : Nat) (xs : List α) (d : α) (hd : k d = n) :
    k ((xs.find? (fun x => k x == n)).getD d) = n := by
  cases h : xs.find? (fun x => k x == n) with
  | none => simpa using hd
  | some x => simpa using List.find?_some h

theorem pollOf_iid (s : State) (i : Nat) : (pollOf s i).iid = i := find_key PollInst.iid i s.pollInst _ rfl

theorem arbOf_num (s : State) (a : Nat) : (arbOf s a).num = a := find_key Arb.num a s.arbs _ rfl

theorem pollOf_putPoll (s : State) (p : PollInst) : pollOf (s.putPoll p) p.iid = p := by simp [pollOf, State.putPoll]

theorem arbOf_putArb (s : State) (x : Arb) : arbOf (s.putArb x) x.num = x := by simp [arbOf, State.putArb]

/-- Finding what `upd` has changed under the same test. -/
theorem find_upd {α : Type} (p : α → Bool) (f : α → α) (hf : ∀ x, p x = true → p (f x) = true) (xs : List α) :
    (upd p f xs).find? p = (xs.find? p).map f := by
  unfold upd
  induction xs with
  | nil => rfl
  | cons x xs ih =>
    by_cases h : p x = true
    · simp [h, hf x h]
    · simp [h, ih]

/-- Finding under a test that `upd`'s change leaves false. -/
theorem find_upd_ne {α : Type} (p q : α → Bool) (f : α → α) (hq : ∀ x, p x = true → q x = false ∧ q (f x) = false) (xs : List α) :
    (upd p f xs).find? q = xs.find? q := by
  unfold upd
  induction xs with
  | nil => rfl
  | cons x xs ih =>
    by_cases h : p x = true
    · simp [h, hq x h, ih]
    · by_cases h' : q x = true
      · simp [h, h']
      · simp [h, h', ih]

/-- A context put in the place of a resident one is read back. -/
theorem ctxOf_setCtx (s : State) (q : Nat) (c : QCtx) (h : (ctxOf s q).isSome = true) : ctxOf (s.setCtx q c) q = some c := by
  unfold ctxOf wayOf at *
  unfold State.setCtx
  dsimp only
  rw [find_upd (fun w : Way => w.qid == q) (fun w => { w with ctx := c, dirty := true }) (fun x hx => hx)]
  cases e : s.ways.find? (fun w => w.qid == q) with
  | none => rw [e] at h; simp at h
  | some w => rfl

/-- Another queue's context stays as it is. -/
theorem ctxOf_setCtx_ne (s : State) (q r : Nat) (c : QCtx) (h : r ≠ q) : ctxOf (s.setCtx q c) r = ctxOf s r := by
  unfold ctxOf wayOf State.setCtx
  dsimp only
  rw [find_upd_ne (fun w : Way => w.qid == q) (fun w => w.qid == r) (fun w => { w with ctx := c, dirty := true }) (fun x hx => by
    have : x.qid = q := by simpa using hx
    simp [this, Ne.symm h])]

/-- The frame of a change of a context: its way only. -/
theorem State.setCtx_frame (s : State) (q : Nat) (c : QCtx) : ∃ w, s.setCtx q c = { s with ways := w } := ⟨_, rfl⟩

theorem ctxOf_updCtx (s : State) (q : Nat) (f : QCtx → QCtx) : ctxOf (s.updCtx q f) q = (ctxOf s q).map f := by
  unfold State.updCtx
  cases e : ctxOf s q with
  | none => simpa using e
  | some c => simpa using ctxOf_setCtx s q (f c) (by rw [e]; rfl)

theorem State.updCtx_frame (s : State) (q : Nat) (f : QCtx → QCtx) : ∃ w, s.updCtx q f = { s with ways := w } := by
  unfold State.updCtx
  split
  · exact ⟨_, rfl⟩
  · exact ⟨_, rfl⟩

/-- A slot changed by f is found changed. -/
theorem slotAt_updSlot (s : State) (clu idx : Nat) (f : Slot → Slot) (hf : ∀ x, (f x).clu = x.clu ∧ (f x).idx = x.idx) :
    slotAt (s.updSlot clu idx f) clu idx = (slotAt s clu idx).map f := by
  unfold slotAt State.updSlot
  exact find_upd (fun x : Slot => x.clu == clu && x.idx == idx) f (fun x hx => by simpa [hf x] using hx) s.slots

/-- A logged write touches the dirty log's queue and filter, the overflow flag, its counter and its pulse. -/
theorem State.logDirty_frame (s : State) (iid addr : Nat) :
    ∃ i r h q f, s.logDirty iid addr = { s with is0 := i, regs := r, heldPulses := h, dirtyQ := q, dirtyFilter := f } := by
  unfold State.logDirty
  split
  · exact ⟨_, _, _, _, _, rfl⟩
  · dsimp only
    split
    · exact ⟨_, _, _, _, _, rfl⟩
    · split
      · obtain ⟨p, e⟩ := State.pulse_frame ((s.setInstFld iid 13 11 1 1).bump .insDlogStat 0 16 16 1) 148 0
        rw [e]
        exact ⟨_, _, _, _, _, rfl⟩
      · exact ⟨_, _, _, _, _, rfl⟩

/-- What a notice may change in a context: its notice fields. -/
def QCtx.core (c : QCtx) : QCtx := { c with noticeBusy := 0, noticeKept := 0, nseq := 0, pendingCnt := 0 }

/-- Every queue's context is there in t as it is in s, but for its notice fields. -/
def KeepsCtx (s t : State) : Prop := ∀ q, (ctxOf t q).map QCtx.core = (ctxOf s q).map QCtx.core

theorem KeepsCtx.refl (s : State) : KeepsCtx s s := fun _ => rfl

theorem KeepsCtx.trans {s t u : State} (h : KeepsCtx s t) (k : KeepsCtx t u) : KeepsCtx s u := fun q => (k q).trans (h q)

theorem KeepsCtx.ofWays {s t : State} (h : t.ways = s.ways) : KeepsCtx s t := fun q => by simp [ctxOf, wayOf, h]

/-- A context replaced by one with the same core. -/
theorem KeepsCtx.setCtx (s : State) (q : Nat) (c d : QCtx) (h : ctxOf s q = some c) (e : d.core = c.core) : KeepsCtx s (s.setCtx q d) := by
  intro r
  by_cases hr : r = q
  · subst hr; rw [ctxOf_setCtx s r d (by rw [h]; rfl), h]; simp [e]
  · rw [ctxOf_setCtx_ne s q r d hr]

theorem KeepsCtx.service (s : State) (h : Held) : KeepsCtx s (s.service h) := by
  obtain ⟨_, _, _, _, _, e, _⟩ := State.service_frame s h
  exact KeepsCtx.ofWays (by rw [e])

theorem KeepsCtx.bankAccess (s : State) (q r : Nat) : KeepsCtx s (s.bankAccess q r) := by
  obtain ⟨x, e⟩ := State.bankAccess_frame s q r
  exact KeepsCtx.ofWays (by rw [e])

theorem KeepsCtx.noticeTrigger (s : State) (q : Nat) : KeepsCtx s (s.noticeTrigger q) := by
  unfold State.noticeTrigger
  cases e : ctxOf s q with
  | none => exact KeepsCtx.refl s
  | some c =>
    dsimp only
    split
    · exact KeepsCtx.refl s
    · split
      · exact KeepsCtx.setCtx s q c _ e rfl
      · refine KeepsCtx.trans ?_ (KeepsCtx.service _ _)
        refine KeepsCtx.trans ?_ (KeepsCtx.bankAccess _ _ _)
        exact KeepsCtx.setCtx s q c _ e rfl

theorem KeepsCtx.writeBack (s : State) (w : Way) : KeepsCtx s (s.writeBack w) := by
  unfold State.writeBack
  dsimp only
  split
  · exact KeepsCtx.refl s
  · refine KeepsCtx.trans (KeepsCtx.trans ?_ (KeepsCtx.bankAccess _ _ _)) (KeepsCtx.service _ _)
    split
    · exact KeepsCtx.refl s
    · exact KeepsCtx.ofWays rfl

theorem KeepsCtx.evict (s : State) (w : Way) : KeepsCtx s (s.evict w) := by
  unfold State.evict
  refine KeepsCtx.trans ?_ (KeepsCtx.writeBack _ _)
  split
  · exact KeepsCtx.refl s
  · exact KeepsCtx.noticeTrigger s _

theorem KeepsCtx.startFetch (s : State) (q : Nat) : KeepsCtx s (s.startFetch q) := by
  unfold State.startFetch State.fetchCtx
  extract_lets issued fetch
  have hi : KeepsCtx s issued := KeepsCtx.service s _
  have hf : KeepsCtx s fetch := hi.trans (KeepsCtx.ofWays rfl)
  clear_value fetch issued
  split
  · exact KeepsCtx.refl s
  · split
    · exact hf
    · split
      · split
        · exact hf
        · split
          · exact KeepsCtx.refl s
          · exact KeepsCtx.evict s _
      · exact KeepsCtx.refl s

theorem KeepsCtx.fold {α : Type} (f : State → α → State) (hf : ∀ t x, KeepsCtx t (f t x)) (xs : List α) (s : State) :
    KeepsCtx s (xs.foldl f s) := by
  induction xs generalizing s with
  | nil => exact KeepsCtx.refl s
  | cons x xs ih => exact (hf s x).trans (ih (f s x))

theorem KeepsCtx.pumpCtx (s : State) : KeepsCtx s s.pumpCtx := by
  unfold State.pumpCtx
  generalize s.ctxWait = xs
  revert s
  induction xs with
  | nil => intro s; exact KeepsCtx.refl s
  | cons x xs ih => intro s; exact (KeepsCtx.startFetch s x.1).trans (ih _)

theorem KeepsCtx.noteFull (s : State) (clu : Nat) : KeepsCtx s (s.noteFull clu) := by
  unfold State.noteFull
  dsimp only
  split
  · split
    · exact KeepsCtx.refl s
    · exact KeepsCtx.ofWays rfl
  · split
    · exact KeepsCtx.ofWays rfl
    · exact KeepsCtx.refl s

theorem KeepsCtx.freeSlot (s : State) (clu idx : Nat) : KeepsCtx s (s.freeSlot clu idx) := by
  unfold State.freeSlot
  refine KeepsCtx.trans ?_ (KeepsCtx.pumpCtx _)
  refine KeepsCtx.trans ?_ (KeepsCtx.noteFull _ _)
  exact KeepsCtx.ofWays rfl

theorem KeepsCtx.endBind (s : State) (x : Slot) : KeepsCtx s (s.endBind x) := by
  unfold State.endBind
  exact KeepsCtx.trans (KeepsCtx.ofWays (by rfl)) (KeepsCtx.freeSlot _ _ _)

/-- Its readiness is no part of a queue's context. -/
theorem ctxOf_notReady (s : State) (q r : Nat) : ctxOf (s.notReady q) r = ctxOf s r := rfl

/-- Ending binds clears the queue's re-read count, beside what the ends themselves do. -/
theorem ctxOf_endBinds (s : State) (q : Nat) (xs : List Slot) :
    ctxOf (s.endBinds q xs) q = (ctxOf (xs.foldl (fun t x => t.endBind x) s) q).map (fun c => { c with reread := 0 }) := by
  unfold State.endBinds
  rw [ctxOf_updCtx]
  rfl

/-- A queue that enters ERROR: what its context then says (02 R80, R82). -/
theorem enterError_ctx (s : State) (qid : Nat) (idx : W32) (cause cp dom slot clu : Nat) (c : QCtx) (h : ctxOf s qid = some c) :
    ∃ d, ctxOf (s.enterError qid idx cause cp dom slot clu) qid = some d ∧ d.state = qError ∧ d.errIndex = idx ∧
      d.errCause = BitVec.ofNat 8 cause ∧ d.errDepth = 0 ∧ d.errChainPos = BitVec.ofNat 16 cp ∧ d.piSeen = c.piSeen ∧ d.q = c.q ∧ d.f = c.f := by
  unfold State.enterError
  rw [h]
  dsimp only
  have hk : KeepsCtx s ((earlySlots s qid).foldl (fun t x => t.endBind x) s) := KeepsCtx.fold _ (fun t x => KeepsCtx.endBind t x) _ s
  generalize hu : (earlySlots s qid).foldl (fun t x => t.endBind x) s = u at hk
  have hd : ∃ d, ctxOf ((s.discardEarly qid).notReady qid) qid = some d ∧ d.piSeen = c.piSeen ∧ d.q = c.q ∧ d.f = c.f := by
    have h1 := hk qid
    rw [h] at h1
    cases hc : ctxOf u qid with
    | none => rw [hc] at h1; simp at h1
    | some e =>
      rw [hc] at h1
      have h2 : e.core = c.core := by simpa using h1
      refine ⟨{ e with reread := 0 }, ?_, ?_, ?_, ?_⟩
      · rw [ctxOf_notReady, State.discardEarly, ctxOf_endBinds, hu, hc]
        rfl
      · have h3 := congrArg QCtx.piSeen h2; exact h3
      · have h3 := congrArg QCtx.q h2; exact h3
      · have h3 := congrArg QCtx.f h2; exact h3
  generalize (s.discardEarly qid).notReady qid = v at hd ⊢
  obtain ⟨d, hd, h1, h2, h3⟩ := hd
  rw [hd]
  simp only [Option.getD]
  set e : QCtx := { d with state := qError, errIndex := idx, errCause := BitVec.ofNat 8 cause, errDepth := 0,
                                     errChainPos := BitVec.ofNat 16 cp, contained := if telOn s then d.contained + 1 else d.contained } with he
  have hw := ctxOf_setCtx v qid e (by rw [hd]; rfl)
  obtain ⟨m, q, e1⟩ := State.logErr_frame (v.setCtx qid e) (mkErr 2 dom cause d.iid.toNat qid slot clu 0 idx.toNat cp)
  rw [e1]
  set x : State := { (v.setCtx qid e) with regs := m, errQ := q } with hx
  obtain ⟨p, e2⟩ := State.pulse_frame x (8 * d.home.toNat + 2) 0
  rw [e2]
  have hk2 : KeepsCtx (v.setCtx qid e) ((({ x with heldPulses := p } : State).addIs3 (instCtr d.iid.toNat + 7) 1).noticeTrigger qid) := by
    refine KeepsCtx.trans ?_ (KeepsCtx.noticeTrigger _ _)
    apply KeepsCtx.ofWays
    unfold State.addIs3
    split
    · rfl
    · rfl
  have h5 := hk2 qid
  rw [hw] at h5
  cases h6 : ctxOf ((({ x with heldPulses := p } : State).addIs3 (instCtr d.iid.toNat + 7) 1).noticeTrigger qid) qid with
  | none => rw [h6] at h5; simp at h5
  | some g =>
    rw [h6] at h5
    have h7 : g.core = e.core := by simpa using h5
    have a1 := congrArg QCtx.state h7
    have a2 := congrArg QCtx.errIndex h7
    have a3 := congrArg QCtx.errCause h7
    have a4 := congrArg QCtx.errDepth h7
    have a5 := congrArg QCtx.errChainPos h7
    have a6 := (congrArg QCtx.piSeen h7).trans h1
    have a7 := (congrArg QCtx.q h7).trans h2
    have a8 := (congrArg QCtx.f h7).trans h3
    exact ⟨g, rfl, a1, a2, a3, a4, a5, a6, a7, a8⟩

end Sys2Proof.Machine
end

