-- ==== Sys2Proof/Laws/Keeps.lean ====
section
/-! SUPPORT. What every function of the model keeps: the queue of waiting commands, the canonical form of the register
maps, the bounds of the error log's queue and of the credits, and rst_n with RESET. -/

section
set_option Elab.async false

namespace Sys2Proof.Machine

/-- t keeps what every step keeps of s. -/
structure Keeps (s t : State) : Prop where
  pending : t.pending = s.pending
  maps : s.mapsOk = true → t.mapsOk = true
  err : s.errOk = true → t.errOk = true
  credits : s.creditsOk = true → t.creditsOk = true
  rstN : t.rstN = s.rstN
  reset : s.resetOk = true → t.resetOk = true

theorem Keeps.refl (s : State) : Keeps s s := ⟨rfl, id, id, id, rfl, id⟩

theorem Keeps.trans {s t u : State} (h : Keeps s t) (k : Keeps t u) : Keeps s u :=
  ⟨k.pending.trans h.pending, k.maps ∘ h.maps, k.err ∘ h.err, k.credits ∘ h.credits, k.rstN.trans h.rstN, k.reset ∘ h.reset⟩

/-- An update of fields that no clause reads. -/
theorem Keeps.same {s t u : State} (h : Keeps s t) (e1 : u.pending = t.pending) (e2 : u.mode = t.mode) (e3 : u.rstN = t.rstN)
    (e4 : u.regs = t.regs) (e5 : u.is0 = t.is0) (e6 : u.evm = t.evm) (e7 : u.evmPend = t.evmPend) (e8 : u.is3 = t.is3)
    (e9 : u.is4 = t.is4) (e10 : u.is6 = t.is6) (e11 : u.is7 = t.is7) (e12 : u.errQ = t.errQ) (e13 : u.credits = t.credits)
    (e14 : u.is4Seen = t.is4Seen) :
    Keeps s u := by
  refine h.trans ⟨e1, ?_, ?_, ?_, e3, by simp only [State.resetOk, e2, e3, imp_self]⟩
  · intro k; simpa only [State.mapsOk, e4, e5, e6, e7, e8, e9, e10, e11, e14] using k
  · intro k; simpa only [State.errOk, e12] using k
  · intro k; simpa only [State.creditsOk, e13] using k

/-- A choice, by cases. -/
theorem Keeps.ite {s t u : State} {c : Prop} [Decidable c] (h : Keeps s t) (k : Keeps s u) : Keeps s (if c then t else u) := by
  split <;> assumption

/-- The same update over a list. -/
theorem Keeps.foldl {α : Type} {s t : State} {f : State → α → State} {xs : List α} (h : Keeps s t)
    (hf : ∀ u x, Keeps s u → Keeps s (f u x)) : Keeps s (xs.foldl f t) := by
  induction xs generalizing t with
  | nil => exact h
  | cons x xs ih => exact ih (hf _ _ h)

/-- The same for the first of a pair. -/
theorem Keeps.foldlFst {α β : Type} {s : State} {p : State × β} {f : State × β → α → State × β} {xs : List α} (h : Keeps s p.1)
    (hf : ∀ q x, Keeps s q.1 → Keeps s (f q x).1) : Keeps s (xs.foldl f p).1 := by
  induction xs generalizing p with
  | nil => exact h
  | cons x xs ih => exact ih (hf _ _ h)

/-- The first of a pair. -/
theorem Keeps.fst {α : Type} {s t : State} {p : State × α} {b : α} (e : p = (t, b)) (h : Keeps s p.1) : Keeps s t := by
  subst e; exact h

/-- The state that an option holds. -/
def KeepsOpt (s : State) (o : Option State) : Prop := ∀ t, o = some t → Keeps s t

theorem KeepsOpt.none {s : State} : KeepsOpt s none := by intro t e; cases e

theorem KeepsOpt.some {s t : State} (h : Keeps s t) : KeepsOpt s (some t) := by intro u e; cases e; exact h

theorem KeepsOpt.ite {s : State} {t u : Option State} {c : Prop} [Decidable c] (h : KeepsOpt s t) (k : KeepsOpt s u) :
    KeepsOpt s (if c then t else u) := by
  split <;> assumption

theorem KeepsOpt.out {s t : State} {o : Option State} (e : o = Option.some t) (h : KeepsOpt s o) : Keeps s t := h t e

theorem KeepsOpt.map {s : State} {o : Option State} {f : State → State} (h : KeepsOpt s o) (hf : ∀ t, Keeps s t → Keeps s (f t)) :
    KeepsOpt s (o.map f) := by
  cases o with
  | none => exact .none
  | some t => exact .some (hf t (h t rfl))

theorem KeepsOpt.mapOf {α : Type} {s : State} {o : Option α} {f : α → State} (hf : ∀ x, Keeps s (f x)) : KeepsOpt s (o.map f) := by
  cases o with
  | none => exact .none
  | some x => exact .some (hf x)

theorem KeepsOpt.getD {s t : State} {o : Option State} (h : KeepsOpt s o) (k : Keeps s t) : Keeps s (o.getD t) := by
  cases o with
  | none => exact k
  | some u => exact h u rfl

/-- A next state keeps it. -/
def KeepsOut (s : State) (o : Out) : Prop := ∀ t, o = .next t → Keeps s t

theorem KeepsOut.next {s t : State} (h : Keeps s t) : KeepsOut s (.next t) := by
  intro u e; cases e; exact h

theorem KeepsOut.fault {s : State} {f : Fault} : KeepsOut s (.fault f) := by intro u e; cases e

theorem KeepsOut.refused {s : State} {r : Refusal} : KeepsOut s (.refused r) := by intro u e; cases e

theorem KeepsOut.ite {s : State} {t u : Out} {c : Prop} [Decidable c] (h : KeepsOut s t) (k : KeepsOut s u) :
    KeepsOut s (if c then t else u) := by
  split <;> assumption

/-! Updates of the fields that the clauses read. -/

theorem Keeps.wr {s t : State} (h : Keeps s t) (r : Reg) (i : Nat) (v : W32) : Keeps s (t.wr r i v) := by
  refine h.trans ⟨rfl, ?_, id, id, rfl, id⟩
  simp only [State.mapsOk, State.wr, Bool.and_eq_true]
  intro k
  have := WordMap.wf_put t.regs (r.addr i) (v ^^^ BitVec.ofNat 32 r.reset)
  tauto

/-- An update of one of the maps to one that is in canonical form too. -/
theorem Keeps.upd {s t u : State} (h : Keeps s t) (e1 : u.pending = t.pending) (e2 : u.mode = t.mode) (e3 : u.rstN = t.rstN)
    (e4 : t.mapsOk = true → u.mapsOk = true) (e5 : u.errQ = t.errQ) (e6 : u.credits = t.credits) : Keeps s u := by
  refine h.trans ⟨e1, e4, ?_, ?_, e3, by simp only [State.resetOk, e2, e3, imp_self]⟩
  · intro k; simpa only [State.errOk, e5] using k
  · intro k; simpa only [State.creditsOk, e6] using k

/-- A mode other than RESET, while rst_n is high. -/
theorem Keeps.modeTo {s t : State} (h : Keeps s t) (m : Mode) (hm : m ≠ .reset) (hr : t.rstN = true) : Keeps s { t with mode := m } :=
  h.trans ⟨rfl, id, id, id, rfl, fun _ => by simp [State.resetOk, hm, hr]⟩

theorem Keeps.is0 {s t : State} (h : Keeps s t) (m : WordMap) (hm : t.is0.wf = true → m.wf = true) : Keeps s { t with is0 := m } :=
  h.upd rfl rfl rfl (by simp only [State.mapsOk, Bool.and_eq_true]; tauto) rfl rfl
theorem Keeps.is3 {s t : State} (h : Keeps s t) (m : WordMap) (hm : t.is3.wf = true → m.wf = true) : Keeps s { t with is3 := m } :=
  h.upd rfl rfl rfl (by simp only [State.mapsOk, Bool.and_eq_true]; tauto) rfl rfl
theorem Keeps.is4 {s t : State} (h : Keeps s t) (m : WordMap) (hm : t.is4.wf = true → m.wf = true) : Keeps s { t with is4 := m } :=
  h.upd rfl rfl rfl (by simp only [State.mapsOk, Bool.and_eq_true]; tauto) rfl rfl
theorem Keeps.is4s {s t : State} (h : Keeps s t) (m n : WordMap) (hm : t.is4.wf = true → m.wf = true)
    (hn : t.is4Seen.wf = true → n.wf = true) : Keeps s { t with is4 := m, is4Seen := n } :=
  h.upd rfl rfl rfl (by simp only [State.mapsOk, Bool.and_eq_true]; tauto) rfl rfl
theorem Keeps.is6 {s t : State} (h : Keeps s t) (m : WordMap) (hm : t.is6.wf = true → m.wf = true) : Keeps s { t with is6 := m } :=
  h.upd rfl rfl rfl (by simp only [State.mapsOk, Bool.and_eq_true]; tauto) rfl rfl
theorem Keeps.is7 {s t : State} (h : Keeps s t) (m : WordMap) (hm : t.is7.wf = true → m.wf = true) : Keeps s { t with is7 := m } :=
  h.upd rfl rfl rfl (by simp only [State.mapsOk, Bool.and_eq_true]; tauto) rfl rfl

/-- A bank of the event matrix in canonical form. -/
def EvmBank.ok (b : EvmBank) : Bool := b.is1.wf && b.is2.wf && b.regs.wf

theorem Keeps.evms {s t : State} (h : Keeps s t) (b c : EvmBank) (hb : t.evm.ok = true → t.evmPend.ok = true → b.ok = true)
    (hc : t.evm.ok = true → t.evmPend.ok = true → c.ok = true) : Keeps s { t with evm := b, evmPend := c } :=
  h.upd rfl rfl rfl (by simp only [State.mapsOk, EvmBank.ok, Bool.and_eq_true] at *; tauto) rfl rfl

/-- The same with banks made from those of another state that keeps it too. -/
theorem Keeps.evmsOf {s t u : State} (h : Keeps s t) (hu : Keeps s u) (b c : EvmBank) (hb : u.evm.ok = true → u.evmPend.ok = true → b.ok = true)
    (hc : u.evm.ok = true → u.evmPend.ok = true → c.ok = true) : Keeps s { t with evm := b, evmPend := c } := by
  refine ⟨h.pending, ?_, h.err, h.credits, h.rstN, h.reset⟩
  intro k
  have h1 := h.maps k
  have h2 := hu.maps k
  simp only [State.mapsOk, EvmBank.ok, Bool.and_eq_true] at *
  tauto

/-- An update of the credits within their bounds. -/
theorem Keeps.creditsTo {s t u : State} (h : Keeps s t) (e1 : u.pending = t.pending) (e2 : u.mode = t.mode) (e3 : u.rstN = t.rstN)
    (e4 : u.mapsOk = t.mapsOk) (e5 : u.errQ = t.errQ) (e6 : t.creditsOk = true → u.creditsOk = true) : Keeps s u := by
  refine h.trans ⟨e1, ?_, ?_, e6, e3, by simp only [State.resetOk, e2, e3, imp_self]⟩
  · intro k; rwa [e4]
  · intro k; simpa only [State.errOk, e5] using k

theorem assocDel_ok {s : State} (n : Nat) (h : s.creditsOk = true) :
    (assocDel s.credits n).all (fun c => decide (c.2.1 ≤ 64) && decide (c.2.2.1 ≤ 64) && decide (c.2.2.2 ≤ 256)) = true := by
  simp only [State.creditsOk, List.all_eq_true] at h ⊢
  intro x hx
  exact h x (List.mem_filter.mp hx).1

theorem assocPut_ok {s : State} (n : Nat) (v : Nat × Nat × Nat) (h : s.creditsOk = true) (hv : v.1 ≤ 64 ∧ v.2.1 ≤ 64 ∧ v.2.2 ≤ 256) :
    (assocPut s.credits n v).all (fun c => decide (c.2.1 ≤ 64) && decide (c.2.2.1 ≤ 64) && decide (c.2.2.2 ≤ 256)) = true := by
  simp only [State.creditsOk, List.all_eq_true] at h ⊢
  intro x hx
  simp only [assocPut, List.mem_cons, List.mem_filter] at hx
  obtain rfl | hx := hx
  · simp [hv]
  · exact h x hx.1

theorem creditsOf_ok {s : State} (n : Nat) (h : s.creditsOk = true) :
    (creditsOf s n).1 ≤ 64 ∧ (creditsOf s n).2.1 ≤ 64 ∧ (creditsOf s n).2.2 ≤ 256 := by
  unfold creditsOf assocGet
  cases e : s.credits.find? (fun x => x.1 == n) with
  | none => simp
  | some x =>
    simp only [State.creditsOk, List.all_eq_true] at h
    have := h x (List.mem_of_find?_eq_some e)
    simpa [and_assoc] using this

/-- A record update of fields that no clause reads. -/
theorem Keeps.of {s t : State} {timebase' : W64} {tbFrac' : Int} {tbStep' : Nat} {nomNs' : Nat} {tbLatch' : List (Nat × W32)} {modeNext' :
    Option Mode} {fatal' : Bool} {strapEvOut' : BitVec 256} {strapTst' : BitVec 2} {lastRead' : List (Nat × Nat × Nat)} {resp' : Option
    Resp} {usedWays' : List Nat} {ctxZero' : Bool} {staged' : List (W64 × W64)} {adm' : Adm} {commitPins' : List Nat} {lastSlots' : List
    (Nat × List W64)} {overrun' : List Nat} {queues' : List Nat} {ways' : List Way} {ctxWait' : List (Nat × CtxWork)} {ctxRetry' : List (Nat
    × Nat)} {ctxWb' : List (Nat × Nat)} {polls' : List Poll} {pollInst' : List PollInst} {pollBudget' : Int} {ready' : List Ready} {sched' :
    List Sched} {buckets' : List Bucket} {promoCtr' : Nat} {rereads' : List Reread} {slots' : List Slot} {ckpt' : List Ckpt} {records' :
    List Record} {waitRecs' : List Record} {moving' : List (Nat × Slot)} {bridge' : List (Nat × Nat × Nat)} {takeover' : List (Nat × Nat ×
    Nat)} {acc' : List Access} {quar' : List Quar} {held' : List Held} {portActive' : List Nat} {arbs' : List Arb} {uWin' : List (Nat × List
    Bool)} {turns' : List (Nat × Nat)} {suspect' : List Nat} {lateFlags' : List (Nat × Nat)} {dirtyQ' : List DirtyRec} {dirtyFilter' : List
    DirtyKey} {dirtyPrev' : List (Nat × Nat)} {closing' : List (Nat × Bool)} {sweep' : List Nat} {heldPulses' : List (Nat × Nat × Nat)}
    {srcLevels' : List Nat} {pulseHigh' : List Nat} {flagSets' : List (Nat × Nat)} {evIn' : List (Nat × Nat)} {lines' : List Line} {evOut' :
    List (Nat × Nat × Nat)} {timers' : List Timer} {thrPrev' : List (Nat × W32)} {snaps' : List Snap} {copySeq' : W32} {occDue' : Nat}
    {plls' : Pll × Pll} {muxes' : List Mux} {clkWait' : List (Nat × Bool)} {pchange' : Option PChange} {pwAck' : Bool} {pwRest' : Bool}
    {idleSince' : Option Nat} {wakeAt' : Option Nat} {restEnter' : Nat} {restAt' : Nat} {wakePend' : Option Nat} {fed' : Fed} {adopting' :
    List (Nat × Nat)} {adoptStop' : List (Nat × W32)} {adoptDone' : List (Nat × W32)} {cseqs' : List (Nat × Nat)} {txFrames' : List (Nat ×
    RawFrame)} {idleOut' : List (Nat × BitVec 256 × List Byte)} {tunits' : List TUnit} {mbist' : Option (Nat × Bool)} {nextAid' : Nat}
    {freeCtr' : Nat} (h : Keeps s t) :
    Keeps s (State.mk t.pending timebase' tbFrac' tbStep' nomNs' tbLatch' t.mode modeNext' fatal' t.rstN strapEvOut' strapTst' t.regs
        lastRead' resp' t.is0 t.evm t.evmPend t.is3 t.is4 t.is4Seen usedWays' ctxZero' t.is6 t.is7 staged' adm' commitPins' lastSlots'
        overrun' queues' ways' ctxWait' ctxRetry' ctxWb' polls' pollInst' pollBudget' ready' sched' buckets' promoCtr' rereads' slots' ckpt'
        records' waitRecs' moving' bridge' takeover' acc' quar' held' t.credits portActive' arbs' uWin' turns' suspect' lateFlags' t.errQ
        dirtyQ' dirtyFilter' dirtyPrev' closing' sweep' heldPulses' srcLevels' pulseHigh' flagSets' evIn' lines' evOut' timers' thrPrev'
        snaps' copySeq' occDue' plls' muxes' clkWait' pchange' pwAck' pwRest' idleSince' wakeAt' restEnter' restAt' wakePend' fed' adopting'
        adoptStop' adoptDone' cseqs' txFrames' idleOut' tunits' mbist' nextAid' freeCtr') :=
  h.same rfl rfl rfl rfl rfl rfl rfl rfl rfl rfl rfl rfl rfl rfl

/-- The same, into a mode other than RESET, while rst_n is high. -/
theorem Keeps.ofMode {s t : State} {mode' : Mode} {timebase' : W64} {tbFrac' : Int} {tbStep' : Nat} {nomNs' : Nat} {tbLatch' : List (Nat ×
    W32)} {modeNext' : Option Mode} {fatal' : Bool} {strapEvOut' : BitVec 256} {strapTst' : BitVec 2} {lastRead' : List (Nat × Nat × Nat)}
    {resp' : Option Resp} {usedWays' : List Nat} {ctxZero' : Bool} {staged' : List (W64 × W64)} {adm' : Adm} {commitPins' : List Nat}
    {lastSlots' : List (Nat × List W64)} {overrun' : List Nat} {queues' : List Nat} {ways' : List Way} {ctxWait' : List (Nat × CtxWork)}
    {ctxRetry' : List (Nat × Nat)} {ctxWb' : List (Nat × Nat)} {polls' : List Poll} {pollInst' : List PollInst} {pollBudget' : Int} {ready'
    : List Ready} {sched' : List Sched} {buckets' : List Bucket} {promoCtr' : Nat} {rereads' : List Reread} {slots' : List Slot} {ckpt' :
    List Ckpt} {records' : List Record} {waitRecs' : List Record} {moving' : List (Nat × Slot)} {bridge' : List (Nat × Nat × Nat)}
    {takeover' : List (Nat × Nat × Nat)} {acc' : List Access} {quar' : List Quar} {held' : List Held} {portActive' : List Nat} {arbs' : List
    Arb} {uWin' : List (Nat × List Bool)} {turns' : List (Nat × Nat)} {suspect' : List Nat} {lateFlags' : List (Nat × Nat)} {dirtyQ' : List
    DirtyRec} {dirtyFilter' : List DirtyKey} {dirtyPrev' : List (Nat × Nat)} {closing' : List (Nat × Bool)} {sweep' : List Nat} {heldPulses'
    : List (Nat × Nat × Nat)} {srcLevels' : List Nat} {pulseHigh' : List Nat} {flagSets' : List (Nat × Nat)} {evIn' : List (Nat × Nat)}
    {lines' : List Line} {evOut' : List (Nat × Nat × Nat)} {timers' : List Timer} {thrPrev' : List (Nat × W32)} {snaps' : List Snap}
    {copySeq' : W32} {occDue' : Nat} {plls' : Pll × Pll} {muxes' : List Mux} {clkWait' : List (Nat × Bool)} {pchange' : Option PChange}
    {pwAck' : Bool} {pwRest' : Bool} {idleSince' : Option Nat} {wakeAt' : Option Nat} {restEnter' : Nat} {restAt' : Nat} {wakePend' : Option
    Nat} {fed' : Fed} {adopting' : List (Nat × Nat)} {adoptStop' : List (Nat × W32)} {adoptDone' : List (Nat × W32)} {cseqs' : List (Nat ×
    Nat)} {txFrames' : List (Nat × RawFrame)} {idleOut' : List (Nat × BitVec 256 × List Byte)} {tunits' : List TUnit} {mbist' : Option (Nat
    × Bool)} {nextAid' : Nat} {freeCtr' : Nat} (h : Keeps s t) (hm : mode' ≠ .reset) (hr : s.rstN = true) :
    Keeps s (State.mk t.pending timebase' tbFrac' tbStep' nomNs' tbLatch' mode' modeNext' fatal' t.rstN strapEvOut' strapTst' t.regs
        lastRead' resp' t.is0 t.evm t.evmPend t.is3 t.is4 t.is4Seen usedWays' ctxZero' t.is6 t.is7 staged' adm' commitPins' lastSlots'
        overrun' queues' ways' ctxWait' ctxRetry' ctxWb' polls' pollInst' pollBudget' ready' sched' buckets' promoCtr' rereads' slots' ckpt'
        records' waitRecs' moving' bridge' takeover' acc' quar' held' t.credits portActive' arbs' uWin' turns' suspect' lateFlags' t.errQ
        dirtyQ' dirtyFilter' dirtyPrev' closing' sweep' heldPulses' srcLevels' pulseHigh' flagSets' evIn' lines' evOut' timers' thrPrev'
        snaps' copySeq' occDue' plls' muxes' clkWait' pchange' pwAck' pwRest' idleSince' wakeAt' restEnter' restAt' wakePend' fed' adopting'
        adoptStop' adoptDone' cseqs' txFrames' idleOut' tunits' mbist' nextAid' freeCtr') :=
  (Keeps.modeTo h mode' hm (h.rstN.trans hr)).same rfl rfl rfl rfl rfl rfl rfl rfl rfl rfl rfl rfl rfl rfl

end Sys2Proof.Machine
end
end

