-- ==== Sys2Proof/Laws/KeepsOps.lean ====
section
/-! SUPPORT. Keeps, function by function: the operations, the queues, the admin processor, the arbiters, the event matrix, polls.
Each lemma unfolds its function once and applies the lemma of every function that it calls. -/

section
set_option Elab.async false

namespace Sys2Proof.Machine

/-! Machine/Ops.lean. -/

theorem Keeps.setFld {k₀ : State} {s : State} (hk₀ : Keeps k₀ s) (r : Reg) (i : Nat) (lo : Nat) (len : Nat) (v : Nat) : Keeps k₀
    (Machine.State.setFld s r i lo len v) := by
  unfold Machine.State.setFld
  try dsimp only
  repeat' first | (with_reducible first | assumption | apply Keeps.wr | fail_if_no_progress apply Keeps.of)

theorem Keeps.bump {k₀ : State} {s : State} (hk₀ : Keeps k₀ s) (r : Reg) (i : Nat) (lo : Nat) (len : Nat) (k : Nat) : Keeps k₀
    (Machine.State.bump s r i lo len k) := by
  unfold Machine.State.bump
  try dsimp only
  repeat' first | (with_reducible first | assumption | apply Keeps.setFld)

theorem Keeps.bumpSat {k₀ : State} {s : State} (hk₀ : Keeps k₀ s) (r : Reg) (i : Nat) (lo : Nat) (len : Nat) (k : Nat) : Keeps k₀
    (Machine.State.bumpSat s r i lo len k) := by
  unfold Machine.State.bumpSat
  try dsimp only
  repeat' first | (with_reducible first | assumption | apply Keeps.setFld)

theorem Keeps.sEvent {k₀ : State} {s : State} (hk₀ : Keeps k₀ s) (r : Reg) (i : Nat) (f : W32 → W32) : Keeps k₀ (Machine.State.sEvent s r i
    f) := by
  unfold Machine.State.sEvent
  try dsimp only
  repeat' first | (with_reducible first | assumption | (intro _) | apply Keeps.wr | fail_if_no_progress apply Keeps.of)

theorem Keeps.loseErr {k₀ : State} {s : State} (hk₀ : Keeps k₀ s) (seq : W32) : Keeps k₀ (Machine.State.loseErr s seq) := by
  unfold Machine.State.loseErr
  try dsimp only
  repeat' first | (with_reducible first | assumption | (intro _) | apply Keeps.wr | apply Keeps.sEvent | apply Keeps.ite |
                                  fail_if_no_progress apply Keeps.of) | split

theorem Keeps.logErr {k₀ : State} {s : State} (hk₀ : Keeps k₀ s) (e : ErrRec) : Keeps k₀ (Machine.State.logErr s e) := by
  unfold State.logErr
  dsimp only
  refine Keeps.ite (hk₀.trans ⟨rfl, id, ?_, id, rfl, id⟩) ?_
  · simp [State.errOk, Machine.upd]
  · generalize (if s.rd .errNextSeq 0 + 1 = 0 then 1 else s.rd .errNextSeq 0 + 1) = v
    split
    · exact Keeps.loseErr (Keeps.wr hk₀ ..) _
    · rename_i h
      refine (Keeps.wr hk₀ .errNextSeq 0 v).trans ⟨rfl, id, ?_, id, rfl, id⟩
      simp only [State.errOk, List.length_append, List.length_singleton, decide_eq_true_eq]
      omega

theorem Keeps.pulse {k₀ : State} {s : State} (hk₀ : Keeps k₀ s) (src : Nat) (hop : Nat) : Keeps k₀ (Machine.State.pulse s src hop) := by
  unfold Machine.State.pulse
  try dsimp only
  repeat' first | (with_reducible first | assumption | (intro _) | apply Keeps.ite | fail_if_no_progress apply Keeps.of) | split

theorem Keeps.setInst {k₀ : State} {s : State} (hk₀ : Keeps k₀ s) (iid : Nat) (w : Nat) (v : W32) : Keeps k₀ (Machine.State.setInst s iid w
    v) := by
  exact Keeps.is0 hk₀ _ (fun w => WordMap.wf_put _ _ _ w)

theorem Keeps.setInstFld {k₀ : State} {s : State} (hk₀ : Keeps k₀ s) (iid : Nat) (w : Nat) (lo : Nat) (len : Nat) (v : Nat) : Keeps k₀
    (Machine.State.setInstFld s iid w lo len v) := by
  unfold Machine.State.setInstFld
  try dsimp only
  repeat' first | (with_reducible first | assumption | apply Keeps.setInst | fail_if_no_progress apply Keeps.of)

theorem Keeps.addIs3 {k₀ : State} {s : State} (hk₀ : Keeps k₀ s) (w : Nat) (k : Nat) : Keeps k₀ (Machine.State.addIs3 s w k) := by
  unfold State.addIs3
  exact Keeps.ite hk₀ (Keeps.is3 hk₀ _ (fun w => WordMap.wf_put _ _ _ w))

theorem Keeps.addIs3w {k₀ : State} {s : State} (hk₀ : Keeps k₀ s) (w : Nat) (k : Nat) : Keeps k₀ (Machine.State.addIs3w s w k) := by
  unfold State.addIs3w
  exact Keeps.ite hk₀ (Keeps.is3 hk₀ _ (fun w => WordMap.wf_put _ _ _ (WordMap.wf_put _ _ _ w)))

theorem Keeps.putArb {k₀ : State} {s : State} (hk₀ : Keeps k₀ s) (x : Arb) : Keeps k₀ (Machine.State.putArb s x) := by
  unfold Machine.State.putArb
  try dsimp only
  repeat' first | (with_reducible first | assumption | (intro _) | fail_if_no_progress apply Keeps.of)

theorem Keeps.arbGrant {k₀ : State} {s : State} (hk₀ : Keeps k₀ s) (a : Nat) (w : Nat) (cands : List Nat) (still : List Nat) (prio : Nat →
    Nat) (stampOf : Nat → Nat) : KeepsOpt k₀ (Machine.State.arbGrant s a w cands still prio stampOf) := by
  unfold Machine.State.arbGrant
  try dsimp only
  repeat' first | (with_reducible first | assumption | (intro _) | apply KeepsOpt.some | exact KeepsOpt.none | apply Keeps.putArb |
                                  apply Keeps.stampOf | apply KeepsOpt.mapOf)

theorem Keeps.grantAmong {k₀ : State} {s : State} (hk₀ : Keeps k₀ s) (a : Nat) (r : Nat) (cands : List Nat) (waits : List Nat) (prio : Nat →
    Nat) : Keeps k₀ (Machine.State.grantAmong s a r cands waits prio) := by
  unfold Machine.State.grantAmong
  try dsimp only
  repeat' first | (with_reducible first | assumption | (intro _) | refine KeepsOpt.out (by assumption) (Keeps.arbGrant ?_ ..) |
                                  apply Keeps.arbGrant | apply KeepsOpt.getD | apply KeepsOpt.ite | apply KeepsOpt.some |
                                  exact KeepsOpt.none | refine KeepsOpt.out (by assumption) ?_)

theorem Keeps.raiseAt {k₀ : State} {s : State} (hk₀ : Keeps k₀ s) (a : Nat) (r : Nat) : Keeps k₀ (Machine.State.raiseAt s a r) := by
  unfold Machine.State.raiseAt
  try dsimp only
  repeat' first | (with_reducible first | assumption | apply Keeps.putArb)

theorem Keeps.dropRequest {k₀ : State} {s : State} (hk₀ : Keeps k₀ s) (a : Nat) (r : Nat) : Keeps k₀ (Machine.State.dropRequest s a r) := by
  unfold Machine.State.dropRequest
  try dsimp only
  repeat' first | (with_reducible first | assumption | (intro _) | apply Keeps.putArb | apply Keeps.ite |
                                  fail_if_no_progress apply Keeps.of) | split

theorem Keeps.bankWait {k₀ : State} {s : State} (hk₀ : Keeps k₀ s) (a : Nat) (r : Nat) (again : Bool) : Keeps k₀ (Machine.State.bankWait s a
    r again) := by
  unfold Machine.State.bankWait
  try dsimp only
  repeat' first | (with_reducible first | assumption | apply Keeps.putArb | apply Keeps.ite | fail_if_no_progress apply Keeps.of) | split

theorem Keeps.bankAccess {k₀ : State} {s : State} (hk₀ : Keeps k₀ s) (qid : Nat) (r : Nat) : Keeps k₀ (Machine.State.bankAccess s qid r) :=
    by
  unfold Machine.State.bankAccess
  try dsimp only
  repeat' first | (with_reducible first | assumption | apply Keeps.bankWait)

theorem Keeps.bankGrant {k₀ : State} {s : State} (hk₀ : Keeps k₀ s) (a : Nat) : Keeps k₀ (Machine.State.bankGrant s a) := by
  unfold Machine.State.bankGrant
  try dsimp only
  repeat' first | (with_reducible first | assumption | (intro _) | apply Keeps.putArb | apply Keeps.grantAmong | apply Keeps.ite |
                                  fail_if_no_progress apply Keeps.of) | split

theorem Keeps.bankGrants {k₀ : State} {s : State} (hk₀ : Keeps k₀ s) : Keeps k₀ (Machine.State.bankGrants s) := by
  unfold Machine.State.bankGrants
  try dsimp only
  repeat' first | (with_reducible first | assumption | (intro _) | apply Keeps.bankGrant | apply Keeps.foldl | apply Keeps.foldlFst)

theorem Keeps.grantEmergency {k₀ : State} {s : State} (hk₀ : Keeps k₀ s) (a : Nat) (others : Bool) : Keeps k₀ (Machine.State.grantEmergency
    s a others) := by
  unfold Machine.State.grantEmergency
  try dsimp only
  repeat' first | (with_reducible first | assumption | apply Keeps.putArb | fail_if_no_progress apply Keeps.of)

theorem Keeps.issueAt {k₀ : State} {s : State} (hk₀ : Keeps k₀ s) (p : Nat) (h : Held) (holder : Nat) (classU : Bool) (spans : List (Nat ×
    Nat × Nat)) (beats : Nat) (toSend : Nat) : Keeps k₀ (Machine.State.issueAt s p h holder classU spans beats toSend) := by
  unfold State.issueAt
  dsimp only
  refine hk₀.creditsTo rfl rfl rfl rfl rfl ?_
  intro h2
  have h3 := creditsOf_ok p h2
  unfold takeCredit
  refine assocPut_ok _ _ h2 ?_
  split <;> dsimp only <;> omega

theorem Keeps.raiseWaits {k₀ : State} {s : State} (hk₀ : Keeps k₀ s) : Keeps k₀ (Machine.State.raiseWaits s) := by
  unfold Machine.State.raiseWaits
  try dsimp only
  repeat' first | (with_reducible first | assumption | (intro _) | apply Keeps.raiseAt | apply Keeps.foldl | apply Keeps.foldlFst |
                                  fail_if_no_progress apply Keeps.of) | split

theorem Keeps.countGrant {k₀ : State} {s : State} (hk₀ : Keeps k₀ s) (p : Nat) (h : Held) (hs : List Held) : Keeps k₀
    (Machine.State.countGrant s p h hs) := by
  unfold Machine.State.countGrant
  try dsimp only
  repeat' first | (with_reducible first | assumption | (intro _) | apply Keeps.grantAmong | apply Keeps.grantEmergency | apply Keeps.ite |
                                  fail_if_no_progress apply Keeps.of) | split

theorem Keeps.grantNext {k₀ : State} {s : State} (hk₀ : Keeps k₀ s) : Keeps k₀ (Machine.State.grantNext s) := by
  unfold Machine.State.grantNext
  try dsimp only
  repeat' first | (with_reducible first | assumption | (intro _) | apply Keeps.issueAt | apply Keeps.raiseWaits | apply Keeps.countGrant |
                                  fail_if_no_progress apply Keeps.of) | split

theorem Keeps.pump {k₀ : State} {s : State} (hk₀ : Keeps k₀ s) (n₀ : Nat) : Keeps k₀ (Machine.State.pump s n₀) := by
  induction n₀ generalizing s with
  | zero =>
    unfold Machine.State.pump; try dsimp only
    repeat' first | (with_reducible first | assumption | apply ih | apply Keeps.grantNext) | split
  | succ n₀ ih =>
    unfold Machine.State.pump; try dsimp only
    repeat' first | (with_reducible first | assumption | apply ih | apply Keeps.grantNext) | split

theorem Keeps.service {k₀ : State} {s : State} (hk₀ : Keeps k₀ s) (h : Held) : Keeps k₀ (Machine.State.service s h) := by
  unfold Machine.State.service
  try dsimp only
  repeat' first | (with_reducible first | assumption | apply Keeps.raiseWaits | apply Keeps.pump | apply Keeps.ite |
                                  fail_if_no_progress apply Keeps.of) | split

theorem Keeps.refreshPort {k₀ : State} {s : State} (hk₀ : Keeps k₀ s) (n : Nat) : Keeps k₀ (Machine.State.refreshPort s n) := by
  unfold State.refreshPort
  dsimp only
  refine Keeps.ite (Keeps.ite hk₀ ?_) (Keeps.ite ?_ hk₀)
  · exact hk₀.creditsTo rfl rfl rfl rfl rfl (assocDel_ok n)
  · exact hk₀.creditsTo rfl rfl rfl rfl rfl (assocDel_ok n)

theorem Keeps.refreshPorts {k₀ : State} {s : State} (hk₀ : Keeps k₀ s) : Keeps k₀ (Machine.State.refreshPorts s) := by
  unfold Machine.State.refreshPorts
  try dsimp only
  repeat' first | (with_reducible first | assumption | (intro _) | apply Keeps.refreshPort | apply Keeps.foldl | apply Keeps.foldlFst)

theorem Keeps.drainHeld {k₀ : State} {s : State} (hk₀ : Keeps k₀ s) : Keeps k₀ (Machine.State.drainHeld s) := by
  unfold Machine.State.drainHeld
  try dsimp only
  repeat' first | (with_reducible first | assumption | apply Keeps.pump | apply Keeps.refreshPorts | apply Keeps.ite |
                                  fail_if_no_progress apply Keeps.of) | split

theorem Keeps.dropAccess {k₀ : State} {s : State} (hk₀ : Keeps k₀ s) (aid : Nat) : Keeps k₀ (Machine.State.dropAccess s aid) := by
  unfold Machine.State.dropAccess
  try dsimp only
  repeat' first | (with_reducible first | assumption | (intro _) | fail_if_no_progress apply Keeps.of)

theorem Keeps.quarantine {k₀ : State} {s : State} (hk₀ : Keeps k₀ s) (a : Access) : Keeps k₀ (Machine.State.quarantine s a) := by
  unfold Machine.State.quarantine
  try dsimp only
  repeat' first | (with_reducible first | assumption | apply Keeps.dropAccess | fail_if_no_progress apply Keeps.of)

theorem Keeps.readEnds {k₀ : State} {s : State} (hk₀ : Keeps k₀ s) (a : Access) (ans : Answer) : Keeps k₀ (Machine.State.readEnds s a ans)
    := by
  unfold Machine.State.readEnds
  try dsimp only
  repeat' first | (with_reducible first | assumption | apply Keeps.dropAccess | apply Keeps.quarantine | apply Keeps.ite) | split

theorem Keeps.serviceAgain {k₀ : State} {s : State} (hk₀ : Keeps k₀ s) (a : Access) (key : Nat) : Keeps k₀ (Machine.State.serviceAgain s a
    key) := by
  unfold Machine.State.serviceAgain
  try dsimp only
  repeat' first | (with_reducible first | assumption | apply Keeps.service | apply Keeps.ite) | split

theorem Keeps.reissue {k₀ : State} {s : State} (hk₀ : Keeps k₀ s) (a : Access) : Keeps k₀ (Machine.State.reissue s a) := by
  unfold Machine.State.reissue
  try dsimp only
  repeat' first | (with_reducible first | assumption | apply Keeps.service | apply Keeps.ite | fail_if_no_progress apply Keeps.of) | split

theorem Keeps.correctedErr {k₀ : State} {s : State} (hk₀ : Keeps k₀ s) (code : Nat) (domain : Nat) (iid : Nat) (qid : Nat) (arg0 : Nat) :
    Keeps k₀ (Machine.correctedErr s code domain iid qid arg0) := by
  unfold Machine.correctedErr
  try dsimp only
  repeat' first | (with_reducible first | assumption | apply Keeps.logErr)

theorem Keeps.touch {k₀ : State} {s : State} (hk₀ : Keeps k₀ s) (qid : Nat) : Keeps k₀ (Machine.State.touch s qid) := by
  unfold Machine.State.touch
  try dsimp only
  repeat' first | (with_reducible first | assumption | (intro _) | apply Keeps.ite | fail_if_no_progress apply Keeps.of) | split

theorem Keeps.setCtx {k₀ : State} {s : State} (hk₀ : Keeps k₀ s) (qid : Nat) (c : QCtx) : Keeps k₀ (Machine.State.setCtx s qid c) := by
  unfold Machine.State.setCtx
  try dsimp only
  repeat' first | (with_reducible first | assumption | (intro _) | fail_if_no_progress apply Keeps.of)

theorem Keeps.updCtx {k₀ : State} {s : State} (hk₀ : Keeps k₀ s) (qid : Nat) (f : QCtx → QCtx) : Keeps k₀ (Machine.State.updCtx s qid f) :=
    by
  unfold Machine.State.updCtx
  try dsimp only
  repeat' first | (with_reducible first | assumption | apply Keeps.setCtx | fail_if_no_progress apply Keeps.of) | split

theorem Keeps.countCtx {k₀ : State} {s : State} (hk₀ : Keeps k₀ s) (qid : Nat) (f : QCtx → QCtx) : Keeps k₀ (Machine.State.countCtx s qid f)
    := by
  unfold Machine.State.countCtx
  try dsimp only
  repeat' first | (with_reducible first | assumption | (intro _) | apply Keeps.bankAccess | apply Keeps.updCtx | apply Keeps.ite) | split

theorem Keeps.placeWay {k₀ : State} {s : State} (hk₀ : Keeps k₀ s) (qid : Nat) (k : Nat) (c : QCtx) (dirty : Bool) : Keeps k₀
    (Machine.State.placeWay s qid k c dirty) := by
  unfold Machine.State.placeWay
  try dsimp only
  repeat' first | (with_reducible first | assumption | (intro _) | apply Keeps.bankAccess | fail_if_no_progress apply Keeps.of)

theorem Keeps.addrTaken {k₀ : State} {s : State} (hk₀ : Keeps k₀ s) (qid : Nat) : Keeps k₀ (Machine.State.addrTaken s qid) := by
  unfold Machine.State.addrTaken
  try dsimp only
  repeat' first | (with_reducible first | assumption | (intro _) | apply Keeps.setCtx | apply Keeps.ite |
                                  fail_if_no_progress apply Keeps.of) | split

theorem Keeps.noticeTrigger {k₀ : State} {s : State} (hk₀ : Keeps k₀ s) (qid : Nat) : Keeps k₀ (Machine.State.noticeTrigger s qid) := by
  unfold Machine.State.noticeTrigger
  try dsimp only
  repeat' first | (with_reducible first | assumption | apply Keeps.bankAccess | apply Keeps.service | apply Keeps.setCtx | apply Keeps.ite |
                                  fail_if_no_progress apply Keeps.of) | split

theorem Keeps.writeBack {k₀ : State} {s : State} (hk₀ : Keeps k₀ s) (w : Way) : Keeps k₀ (Machine.State.writeBack s w) := by
  unfold Machine.State.writeBack
  try dsimp only
  repeat' first | (with_reducible first | assumption | apply Keeps.bankAccess | apply Keeps.service | apply Keeps.ite |
                                  fail_if_no_progress apply Keeps.of) | split

theorem Keeps.evict {k₀ : State} {s : State} (hk₀ : Keeps k₀ s) (w : Way) : Keeps k₀ (Machine.State.evict s w) := by
  unfold Machine.State.evict
  try dsimp only
  repeat' first | (with_reducible first | assumption | apply Keeps.noticeTrigger | apply Keeps.writeBack | apply Keeps.ite) | split

theorem Keeps.fetchCtx {k₀ : State} {s : State} (hk₀ : Keeps k₀ s) (qid : Nat) (again : Bool) : Keeps k₀ (Machine.State.fetchCtx s qid
    again) := by
  unfold Machine.State.fetchCtx
  try dsimp only
  repeat' first | (with_reducible first | assumption | apply Keeps.bump | apply Keeps.service | apply Keeps.evict | apply Keeps.ite |
                                  fail_if_no_progress apply Keeps.of) | split

theorem Keeps.startFetch {k₀ : State} {s : State} (hk₀ : Keeps k₀ s) (qid : Nat) : Keeps k₀ (Machine.State.startFetch s qid) := by
  unfold Machine.State.startFetch
  try dsimp only
  repeat' first | (with_reducible first | assumption | apply Keeps.fetchCtx)

theorem Keeps.awaitCtx {k₀ : State} {s : State} (hk₀ : Keeps k₀ s) (qid : Nat) (w : CtxWork) : Keeps k₀ (Machine.State.awaitCtx s qid w) :=
    by
  unfold Machine.State.awaitCtx
  try dsimp only
  repeat' first | (with_reducible first | assumption | apply Keeps.startFetch | fail_if_no_progress apply Keeps.of)

theorem Keeps.pumpCtx {k₀ : State} {s : State} (hk₀ : Keeps k₀ s) : Keeps k₀ (Machine.State.pumpCtx s) := by
  unfold Machine.State.pumpCtx
  try dsimp only
  repeat' first | (with_reducible first | assumption | (intro _) | apply Keeps.startFetch | apply Keeps.foldl | apply Keeps.foldlFst)

theorem Keeps.lookup {k₀ : State} {s : State} (hk₀ : Keeps k₀ s) (qid : Nat) (r : Nat) : Keeps k₀ (Machine.State.lookup s qid r) := by
  unfold Machine.State.lookup
  try dsimp only
  repeat' first | (with_reducible first | assumption | apply Keeps.bump | apply Keeps.bankAccess | apply Keeps.touch)

theorem Keeps.hit {k₀ : State} {s : State} (hk₀ : Keeps k₀ s) (qid : Nat) : Keeps k₀ (Machine.State.hit s qid) := by
  unfold Machine.State.hit
  try dsimp only
  repeat' first | (with_reducible first | assumption | apply Keeps.lookup)

theorem Keeps.fetchForNotices {k₀ : State} {s : State} (hk₀ : Keeps k₀ s) : Keeps k₀ (Machine.State.fetchForNotices s) := by
  unfold Machine.State.fetchForNotices
  try dsimp only
  repeat' first | (with_reducible first | assumption | (intro _) | apply Keeps.awaitCtx | apply Keeps.foldl | apply Keeps.foldlFst |
                                  apply Keeps.ite | fail_if_no_progress apply Keeps.of) | split

/-! Machine/Queues.lean. -/

theorem Keeps.updSlot {k₀ : State} {s : State} (hk₀ : Keeps k₀ s) (clu : Nat) (idx : Nat) (f : Slot → Slot) : Keeps k₀
    (Machine.State.updSlot s clu idx f) := by
  unfold Machine.State.updSlot
  try dsimp only
  repeat' first | (with_reducible first | assumption | (intro _) | fail_if_no_progress apply Keeps.of)

theorem Keeps.putSched {k₀ : State} {s : State} (hk₀ : Keeps k₀ s) (x : Sched) : Keeps k₀ (Machine.State.putSched s x) := by
  unfold Machine.State.putSched
  try dsimp only
  repeat' first | (with_reducible first | assumption | (intro _) | fail_if_no_progress apply Keeps.of)

theorem Keeps.addDef {k₀ : State} {s : State} (hk₀ : Keeps k₀ s) (clu : Nat) (iid : Nat) (d : Int) : Keeps k₀ (Machine.State.addDef s clu
    iid d) := by
  unfold Machine.State.addDef
  try dsimp only
  repeat' first | (with_reducible first | assumption | apply Keeps.putSched | fail_if_no_progress apply Keeps.of)

theorem Keeps.noteFull {k₀ : State} {s : State} (hk₀ : Keeps k₀ s) (clu : Nat) : Keeps k₀ (Machine.State.noteFull s clu) := by
  unfold Machine.State.noteFull
  try dsimp only
  repeat' first | (with_reducible first | assumption | apply Keeps.putSched | apply Keeps.ite | fail_if_no_progress apply Keeps.of) | split

theorem Keeps.orphanReads {k₀ : State} {s : State} (hk₀ : Keeps k₀ s) (clu : Nat) (idx : Nat) : Keeps k₀ (Machine.State.orphanReads s clu
    idx) := by
  unfold Machine.State.orphanReads
  try dsimp only
  repeat' first | (with_reducible first | assumption | (intro _) | fail_if_no_progress apply Keeps.of) | split

theorem Keeps.freeSlot {k₀ : State} {s : State} (hk₀ : Keeps k₀ s) (clu : Nat) (idx : Nat) : Keeps k₀ (Machine.State.freeSlot s clu idx) :=
    by
  unfold Machine.State.freeSlot
  try dsimp only
  repeat' first | (with_reducible first | assumption | (intro _) | apply Keeps.pumpCtx | apply Keeps.noteFull |
                                  fail_if_no_progress apply Keeps.of)

theorem Keeps.endBind {k₀ : State} {s : State} (hk₀ : Keeps k₀ s) (x : Slot) : Keeps k₀ (Machine.State.endBind s x) := by
  unfold Machine.State.endBind
  try dsimp only
  repeat' first | (with_reducible first | assumption | apply Keeps.addDef | apply Keeps.orphanReads | apply Keeps.freeSlot)

theorem Keeps.endBinds {k₀ : State} {s : State} (hk₀ : Keeps k₀ s) (qid : Nat) (xs : List Slot) : Keeps k₀ (Machine.State.endBinds s qid xs)
    := by
  unfold Machine.State.endBinds
  try dsimp only
  repeat' first | (with_reducible first | assumption | (intro _) | apply Keeps.updCtx | apply Keeps.endBind | apply Keeps.foldl |
                                  apply Keeps.foldlFst | fail_if_no_progress apply Keeps.of) | split

theorem Keeps.discardEarly {k₀ : State} {s : State} (hk₀ : Keeps k₀ s) (qid : Nat) : Keeps k₀ (Machine.State.discardEarly s qid) := by
  unfold Machine.State.discardEarly
  try dsimp only
  repeat' first | (with_reducible first | assumption | apply Keeps.endBinds)

theorem Keeps.endUnproofed {k₀ : State} {s : State} (hk₀ : Keeps k₀ s) (qid : Nat) : Keeps k₀ (Machine.State.endUnproofed s qid) := by
  unfold Machine.State.endUnproofed
  try dsimp only
  repeat' first | (with_reducible first | assumption | (intro _) | apply Keeps.endBinds | fail_if_no_progress apply Keeps.of) | split

theorem Keeps.notReady {k₀ : State} {s : State} (hk₀ : Keeps k₀ s) (qid : Nat) : Keeps k₀ (Machine.State.notReady s qid) := by
  unfold Machine.State.notReady
  try dsimp only
  repeat' first | (with_reducible first | assumption | (intro _) | fail_if_no_progress apply Keeps.of) | split

theorem Keeps.forgetReady {k₀ : State} {s : State} (hk₀ : Keeps k₀ s) (qid : Nat) : Keeps k₀ (Machine.State.forgetReady s qid) := by
  unfold Machine.State.forgetReady
  try dsimp only
  repeat' first | (with_reducible first | assumption | (intro _) | fail_if_no_progress apply Keeps.of)

theorem Keeps.addReady {k₀ : State} {s : State} (hk₀ : Keeps k₀ s) (qid : Nat) (resume : Bool) : Keeps k₀ (Machine.State.addReady s qid
    resume) := by
  unfold Machine.State.addReady
  try dsimp only
  repeat' first | (with_reducible first | assumption | (intro _) | apply Keeps.ite | fail_if_no_progress apply Keeps.of) | split

theorem Keeps.clearResume {k₀ : State} {s : State} (hk₀ : Keeps k₀ s) (qid : Nat) : Keeps k₀ (Machine.State.clearResume s qid) := by
  unfold Machine.State.clearResume
  try dsimp only
  repeat' first | (with_reducible first | assumption | (intro _) | fail_if_no_progress apply Keeps.of)

theorem Keeps.markReady {k₀ : State} {s : State} (hk₀ : Keeps k₀ s) (qid : Nat) : Keeps k₀ (Machine.State.markReady s qid) := by
  unfold Machine.State.markReady
  try dsimp only
  repeat' first | (with_reducible first | assumption | apply Keeps.setCtx | apply Keeps.addReady | apply Keeps.ite |
                                  fail_if_no_progress apply Keeps.of) | split

theorem Keeps.idleNotice {k₀ : State} {s : State} (hk₀ : Keeps k₀ s) (qid : Nat) : Keeps k₀ (Machine.State.idleNotice s qid) := by
  unfold Machine.State.idleNotice
  try dsimp only
  repeat' first | (with_reducible first | assumption | apply Keeps.noticeTrigger | apply Keeps.ite | fail_if_no_progress apply Keeps.of) |
                                  split

theorem Keeps.checkIdle {k₀ : State} {s : State} (hk₀ : Keeps k₀ s) (qid : Nat) : Keeps k₀ (Machine.State.checkIdle s qid) := by
  unfold Machine.State.checkIdle
  try dsimp only
  repeat' first | (with_reducible first | assumption | apply Keeps.setCtx | apply Keeps.notReady | apply Keeps.idleNotice |
                                  apply Keeps.ite | fail_if_no_progress apply Keeps.of) | split

theorem Keeps.enterError {k₀ : State} {s : State} (hk₀ : Keeps k₀ s) (qid : Nat) (idx : W32) (cause : Nat) (chainPos : Nat) (domain : Nat)
    (slot : Nat) (clu : Nat) : Keeps k₀ (Machine.State.enterError s qid idx cause chainPos domain slot clu) := by
  unfold Machine.State.enterError
  try dsimp only
  repeat' first | (with_reducible first | assumption | apply Keeps.logErr | apply Keeps.pulse | apply Keeps.addIs3 | apply Keeps.setCtx |
                                  apply Keeps.noticeTrigger | apply Keeps.discardEarly | apply Keeps.notReady | apply Keeps.ite |
                                  fail_if_no_progress apply Keeps.of) | split

theorem Keeps.furtherError {k₀ : State} {s : State} (hk₀ : Keeps k₀ s) (qid : Nat) (cause : Nat) : Keeps k₀ (Machine.State.furtherError s
    qid cause) := by
  unfold Machine.State.furtherError
  try dsimp only
  repeat' first | (with_reducible first | assumption | (intro _) | apply Keeps.updCtx | apply Keeps.ite |
                                  fail_if_no_progress apply Keeps.of) | split

theorem Keeps.latchError {k₀ : State} {s : State} (hk₀ : Keeps k₀ s) (qid : Nat) (idx : W32) (cause : Nat) (chainPos : Nat) : Keeps k₀
    (Machine.State.latchError s qid idx cause chainPos) := by
  unfold Machine.State.latchError
  try dsimp only
  repeat' first | (with_reducible first | assumption | (intro _) | apply Keeps.updCtx | fail_if_no_progress apply Keeps.of)

theorem Keeps.overrunAt {k₀ : State} {s : State} (hk₀ : Keeps k₀ s) (qid : Nat) (c : QCtx) : Keeps k₀ (Machine.State.overrunAt s qid c) :=
    by
  unfold Machine.State.overrunAt
  try dsimp only
  repeat' first | (with_reducible first | assumption | apply Keeps.enterError | apply Keeps.furtherError | apply Keeps.latchError |
                                  apply Keeps.ite) | split

theorem Keeps.placeRecord {k₀ : State} {s : State} (hk₀ : Keeps k₀ s) (r : Record) : Keeps k₀ (Machine.State.placeRecord s r) := by
  unfold Machine.State.placeRecord
  try dsimp only
  repeat' first | (with_reducible first | assumption | (intro _) | apply Keeps.updCtx | apply Keeps.ite |
                                  fail_if_no_progress apply Keeps.of) | split

theorem Keeps.leaveError {k₀ : State} {s : State} (hk₀ : Keeps k₀ s) (qid : Nat) : Keeps k₀ (Machine.State.leaveError s qid) := by
  unfold Machine.State.leaveError
  try dsimp only
  repeat' first | (with_reducible first | assumption | (intro _) | apply Keeps.updCtx | apply Keeps.markReady | apply Keeps.checkIdle |
                                  fail_if_no_progress apply Keeps.of)

theorem Keeps.haltResume {k₀ : State} {s : State} (hk₀ : Keeps k₀ s) (qid : Nat) (c : QCtx) : Keeps k₀ (Machine.State.haltResume s qid c) :=
    by
  unfold Machine.State.haltResume
  try dsimp only
  repeat' first | (with_reducible first | assumption | (intro _) | apply Keeps.updSlot | apply Keeps.orphanReads | apply Keeps.endBind |
                                  apply Keeps.clearResume | apply Keeps.foldl | apply Keeps.foldlFst | fail_if_no_progress apply Keeps.of) |
                                  split

theorem Keeps.rereadLink {k₀ : State} {s : State} (hk₀ : Keeps k₀ s) (x : Slot) (resume : Bool) : Keeps k₀ (Machine.State.rereadLink s x
    resume) := by
  unfold Machine.State.rereadLink
  try dsimp only
  repeat' first | (with_reducible first | assumption | (intro _) | apply Keeps.service | apply Keeps.updSlot |
                                  fail_if_no_progress apply Keeps.of) | split

theorem Keeps.leaveOverrun {k₀ : State} {s : State} (hk₀ : Keeps k₀ s) (qid : Nat) (c : QCtx) : Keeps k₀ (Machine.State.leaveOverrun s qid
    c) := by
  unfold Machine.State.leaveOverrun
  try dsimp only
  repeat' first | (with_reducible first | assumption | (intro _) | apply Keeps.updCtx | apply Keeps.leaveError | apply Keeps.haltResume |
                                  apply Keeps.rereadLink | fail_if_no_progress apply Keeps.of) | split

theorem Keeps.resumeQ {k₀ : State} {s : State} (hk₀ : Keeps k₀ s) (qid : Nat) : Keeps k₀ (Machine.State.resumeQ s qid) := by
  unfold Machine.State.resumeQ
  try dsimp only
  repeat' first | (with_reducible first | assumption | (intro _) | apply Keeps.updCtx | apply Keeps.addReady | apply Keeps.haltResume |
                                  apply Keeps.rereadLink | apply Keeps.leaveOverrun | apply Keeps.ite |
                                  fail_if_no_progress apply Keeps.of) | split

theorem Keeps.storeRecord {k₀ : State} {s : State} (hk₀ : Keeps k₀ s) (r : Record) : Keeps k₀ (Machine.State.storeRecord s r) := by
  unfold Machine.State.storeRecord
  try dsimp only
  repeat' first | (with_reducible first | assumption | apply Keeps.placeRecord | apply Keeps.ite | fail_if_no_progress apply Keeps.of) |
                                  split

theorem Keeps.abandonQ {k₀ : State} {s : State} (hk₀ : Keeps k₀ s) (qid : Nat) : Keeps k₀ (Machine.State.abandonQ s qid) := by
  unfold Machine.State.abandonQ
  try dsimp only
  repeat' first | (with_reducible first | assumption | (intro _) | apply Keeps.updCtx | apply Keeps.freeSlot | apply Keeps.leaveError |
                                  apply Keeps.haltResume | apply Keeps.leaveOverrun | apply Keeps.storeRecord | apply Keeps.foldl |
                                  apply Keeps.foldlFst | apply Keeps.ite | fail_if_no_progress apply Keeps.of) | split

theorem Keeps.toggles {k₀ : State} {s : State} (hk₀ : Keeps k₀ s) (qid : Nat) (rt : Bool) (at' : Bool) : Keeps k₀ (Machine.State.toggles s
    qid rt at') := by
  unfold Machine.State.toggles
  try dsimp only
  repeat' first | (with_reducible first | assumption | apply Keeps.setCtx | apply Keeps.resumeQ | apply Keeps.abandonQ | apply Keeps.ite |
                                  fail_if_no_progress apply Keeps.of) | split

theorem Keeps.countIgnored {k₀ : State} {s : State} (hk₀ : Keeps k₀ s) (iid : Nat) (rec : W64) : Keeps k₀ (Machine.State.countIgnored s iid
    rec) := by
  unfold Machine.State.countIgnored
  try dsimp only
  repeat' first | (with_reducible first | assumption | apply Keeps.addIs3 | apply Keeps.ite) | split

theorem Keeps.applyRecord {k₀ : State} {s : State} (hk₀ : Keeps k₀ s) (qid : Nat) (rec : W64) : Keeps k₀ (Machine.State.applyRecord s qid
    rec) := by
  unfold Machine.State.applyRecord
  try dsimp only
  repeat' first | (with_reducible first | assumption | apply Keeps.setCtx | apply Keeps.markReady | apply Keeps.overrunAt |
                                  apply Keeps.toggles | apply Keeps.countIgnored | apply Keeps.drainTo | apply Keeps.ite |
                                  fail_if_no_progress apply Keeps.of) | split

theorem Keeps.stopResume {k₀ : State} {s : State} (hk₀ : Keeps k₀ s) (qid : Nat) : Keeps k₀ (Machine.State.stopResume s qid) := by
  unfold Machine.State.stopResume
  try dsimp only
  repeat' first | (with_reducible first | assumption | (intro _) | apply Keeps.updCtx | apply Keeps.haltResume | apply Keeps.ite |
                                  fail_if_no_progress apply Keeps.of) | split

theorem Keeps.startDrain {k₀ : State} {s : State} (hk₀ : Keeps k₀ s) (qid : Nat) (target : Nat) (byQuiesce : Bool) : Keeps k₀
    (Machine.State.startDrain s qid target byQuiesce) := by
  unfold Machine.State.startDrain
  try dsimp only
  repeat' first | (with_reducible first | assumption | (intro _) | apply Keeps.updCtx | apply Keeps.endUnproofed | apply Keeps.notReady |
                                  apply Keeps.stopResume | apply Keeps.drainTo | fail_if_no_progress apply Keeps.of)

theorem Keeps.unpause {k₀ : State} {s : State} (hk₀ : Keeps k₀ s) (qid : Nat) : Keeps k₀ (Machine.State.unpause s qid) := by
  unfold Machine.State.unpause
  try dsimp only
  repeat' first | (with_reducible first | assumption | (intro _) | apply Keeps.updCtx | apply Keeps.markReady | apply Keeps.idleNotice |
                                  fail_if_no_progress apply Keeps.of)

theorem Keeps.land {k₀ : State} {s : State} (hk₀ : Keeps k₀ s) (a : Access) (words : List (W64 × Byte)) (site : Nat) (qid : Nat) (slot :
    Nat) (clu : Nat) : Keeps k₀ (Machine.State.land s a words site qid slot clu).1 := by
  unfold Machine.State.land
  try dsimp only
  repeat' first | (with_reducible first | assumption | (intro _) | apply Keeps.bump | apply Keeps.logErr | apply Keeps.foldl |
                                  apply Keeps.foldlFst | apply Keeps.ite) | split

theorem Keeps.landOrphan {k₀ : State} {s : State} (hk₀ : Keeps k₀ s) (a : Access) (ans : Answer) : Keeps k₀ (Machine.State.landOrphan s a
    ans) := by
  unfold Machine.State.landOrphan
  try dsimp only
  repeat' first | (with_reducible first | assumption | refine Keeps.fst (by assumption) (Keeps.land ?_ ..) | apply Keeps.land |
                                  apply Keeps.ite | fail_if_no_progress apply Keeps.of) | split

/-! Machine/Arb.lean. -/

theorem Keeps.portGrant {k₀ : State} {s : State} (hk₀ : Keeps k₀ s) (p : Nat) (w : Nat) (losers : List Nat) : KeepsOpt k₀
    (Machine.State.portGrant s p w losers) := by
  unfold Machine.State.portGrant
  try dsimp only
  repeat' first | (with_reducible first | assumption | (intro _) | apply KeepsOpt.some | exact KeepsOpt.none |
                                  refine KeepsOpt.out (by assumption) (Keeps.arbGrant ?_ ..) | apply Keeps.arbGrant)

theorem Keeps.cutOff {k₀ : State} {s : State} (hk₀ : Keeps k₀ s) (a : Nat) (r : Nat) (ps : Nat) : Keeps k₀ (Machine.State.cutOff s a r ps)
    := by
  unfold Machine.State.cutOff
  try dsimp only
  repeat' first | (with_reducible first | assumption | apply Keeps.bump | apply Keeps.putArb | apply Keeps.ite |
                                  fail_if_no_progress apply Keeps.of) | split

/-! Machine/FedOps.lean. -/

theorem Keeps.putLink {k₀ : State} {s : State} (hk₀ : Keeps k₀ s) (l : Link) : Keeps k₀ (Machine.State.putLink s l) := by
  unfold Machine.State.putLink
  try dsimp only
  repeat' first | (with_reducible first | assumption | (intro _) | fail_if_no_progress apply Keeps.of)

theorem Keeps.emitFrame {k₀ : State} {s : State} (hk₀ : Keeps k₀ s) (k : Nat) (type : Nat) (dst : Nat) (relayed : Bool) (src : Nat) (fields
    : List (Nat × Nat × Nat)) (payload : List (BitVec 256)) : Keeps k₀ (Machine.State.emitFrame s k type dst relayed src fields payload) :=
    by
  unfold Machine.State.emitFrame
  try dsimp only
  repeat' first | (with_reducible first | assumption | apply Keeps.putLink | apply Keeps.ite | fail_if_no_progress apply Keeps.of) | split

theorem Keeps.sendFrame {k₀ : State} {s : State} (hk₀ : Keeps k₀ s) (k : Nat) (type : Nat) (dst : Nat) (relayed : Bool) (src : Nat) (fields
    : List (Nat × Nat × Nat)) (payload : List (BitVec 256)) : Keeps k₀ (Machine.State.sendFrame s k type dst relayed src fields payload) :=
    by
  unfold Machine.State.sendFrame
  try dsimp only
  repeat' first | (with_reducible first | assumption | apply Keeps.putLink | apply Keeps.emitFrame | apply Keeps.ite |
                                  fail_if_no_progress apply Keeps.of) | split

theorem Keeps.sendTo {k₀ : State} {s : State} (hk₀ : Keeps k₀ s) (type : Nat) (dst : Nat) (fields : List (Nat × Nat × Nat)) (payload : List
    (BitVec 256)) : Keeps k₀ (Machine.State.sendTo s type dst fields payload) := by
  unfold Machine.State.sendTo
  try dsimp only
  repeat' first | (with_reducible first | assumption | apply Keeps.sendFrame | fail_if_no_progress apply Keeps.of) | split

theorem Keeps.pumpLink {k₀ : State} {s : State} (hk₀ : Keeps k₀ s) (k : Nat) (n₀ : Nat) : Keeps k₀ (Machine.State.pumpLink s k n₀) := by
  induction n₀ generalizing s k with
  | zero =>
    unfold Machine.State.pumpLink; try dsimp only
    repeat' first | (with_reducible first | assumption | apply ih | apply Keeps.putLink | apply Keeps.emitFrame | apply Keeps.ite |
                                    fail_if_no_progress apply Keeps.of) | split
  | succ n₀ ih =>
    unfold Machine.State.pumpLink; try dsimp only
    repeat' first | (with_reducible first | assumption | apply ih | apply Keeps.putLink | apply Keeps.emitFrame | apply Keeps.ite |
                                    fail_if_no_progress apply Keeps.of) | split

theorem Keeps.takeAck {k₀ : State} {s : State} (hk₀ : Keeps k₀ s) (k : Nat) (ackSeq : Nat) : Keeps k₀ (Machine.State.takeAck s k ackSeq) :=
    by
  unfold Machine.State.takeAck
  try dsimp only
  repeat' first | (with_reducible first | assumption | (intro _) | apply Keeps.putLink | apply Keeps.pumpLink |
                                  fail_if_no_progress apply Keeps.of) | split

theorem Keeps.logFrameWords {k₀ : State} {s : State} (hk₀ : Keeps k₀ s) (k : Nat) (raw : RawFrame) : Keeps k₀ (Machine.State.logFrameWords s
    k raw) := by
  unfold Machine.State.logFrameWords
  try dsimp only
  repeat' first | (with_reducible first | assumption | (intro _) | apply Keeps.logErr | apply Keeps.foldl | apply Keeps.foldlFst)

theorem Keeps.rxFrame {k₀ : State} {s : State} (hk₀ : Keeps k₀ s) (k : Nat) (type : Nat) (raw : RawFrame) : Keeps k₀ (Machine.State.rxFrame
    s k type raw).1 := by
  unfold Machine.State.rxFrame
  try dsimp only
  repeat' first | (with_reducible first | assumption | (intro _) | apply Keeps.putLink | apply Keeps.sendFrame | apply Keeps.takeAck |
                                  apply Keeps.logFrameWords | apply Keeps.ite | fail_if_no_progress apply Keeps.of) | split

theorem Keeps.forwardDoorbell {k₀ : State} {s : State} (hk₀ : Keeps k₀ s) (qid : Nat) (rec : W64) : Keeps k₀ (Machine.State.forwardDoorbell
    s qid rec) := by
  unfold Machine.State.forwardDoorbell
  try dsimp only
  repeat' first | (with_reducible first | assumption | apply Keeps.sendTo | apply Keeps.ite) | split

theorem Keeps.flipHash {k₀ : State} {s : State} (hk₀ : Keeps k₀ s) (qid : Nat) (member : Nat) : Keeps k₀ (Machine.State.flipHash s qid
    member) := by
  unfold Machine.State.flipHash
  try dsimp only
  repeat' first | (with_reducible first | assumption | fail_if_no_progress apply Keeps.of)

theorem Keeps.putMember {k₀ : State} {s : State} (hk₀ : Keeps k₀ s) (x : Member) : Keeps k₀ (Machine.State.putMember s x) := by
  unfold Machine.State.putMember
  try dsimp only
  repeat' first | (with_reducible first | assumption | (intro _) | fail_if_no_progress apply Keeps.of)

theorem Keeps.setSync {k₀ : State} {s : State} (hk₀ : Keeps k₀ s) (u : Nat) (v : Bool) : Keeps k₀ (Machine.State.setSync s u v) := by
  unfold Machine.State.setSync
  try dsimp only
  repeat' first | (with_reducible first | assumption | apply Keeps.setFld)

theorem Keeps.linkTrain {k₀ : State} {s : State} (hk₀ : Keeps k₀ s) (k : Nat) : Keeps k₀ (Machine.State.linkTrain s k) := by
  unfold Machine.State.linkTrain
  try dsimp only
  repeat' first | (with_reducible first | assumption | apply Keeps.setFld | apply Keeps.putLink | apply Keeps.setSync |
                                  fail_if_no_progress apply Keeps.of)

theorem Keeps.linkDown {k₀ : State} {s : State} (hk₀ : Keeps k₀ s) (k : Nat) : Keeps k₀ (Machine.State.linkDown s k) := by
  unfold Machine.State.linkDown
  try dsimp only
  repeat' first | (with_reducible first | assumption | apply Keeps.bump | apply Keeps.logErr | apply Keeps.linkTrain | apply Keeps.ite) |
                                  split

theorem Keeps.linkStop {k₀ : State} {s : State} (hk₀ : Keeps k₀ s) (k : Nat) : Keeps k₀ (Machine.State.linkStop s k) := by
  unfold Machine.State.linkStop
  try dsimp only
  repeat' first | (with_reducible first | assumption | apply Keeps.setFld | apply Keeps.bump | apply Keeps.putLink | apply Keeps.setSync |
                                  apply Keeps.ite | fail_if_no_progress apply Keeps.of) | split

theorem Keeps.linkTrained {k₀ : State} {s : State} (hk₀ : Keeps k₀ s) (k : Nat) : Keeps k₀ (Machine.State.linkTrained s k) := by
  unfold Machine.State.linkTrained
  try dsimp only
  repeat' first | (with_reducible first | assumption | (intro _) | apply Keeps.setFld | apply Keeps.putLink | apply Keeps.pumpLink |
                                  fail_if_no_progress apply Keeps.of)

theorem Keeps.startLinks {k₀ : State} {s : State} (hk₀ : Keeps k₀ s) : Keeps k₀ (Machine.State.startLinks s) := by
  unfold Machine.State.startLinks
  try dsimp only
  repeat' first | (with_reducible first | assumption | (intro _) | apply Keeps.linkTrain | apply Keeps.foldl | apply Keeps.foldlFst |
                                  apply Keeps.ite) | split

theorem Keeps.stopLinks {k₀ : State} {s : State} (hk₀ : Keeps k₀ s) : Keeps k₀ (Machine.State.stopLinks s) := by
  unfold Machine.State.stopLinks
  try dsimp only
  repeat' first | (with_reducible first | assumption | (intro _) | apply Keeps.linkStop | apply Keeps.foldl | apply Keeps.foldlFst)

/-! Machine/TestOps.lean. -/

theorem Keeps.unitErrors {k₀ : State} {s : State} (hk₀ : Keeps k₀ s) (u : Nat) (n : Nat) : Keeps k₀ (Machine.State.unitErrors s u n) := by
  unfold Machine.State.unitErrors
  try dsimp only
  repeat' first | (with_reducible first | assumption | apply Keeps.bumpSat | apply Keeps.ite) | split

theorem Keeps.putTunit {k₀ : State} {s : State} (hk₀ : Keeps k₀ s) (t : TUnit) : Keeps k₀ (Machine.State.putTunit s t) := by
  unfold Machine.State.putTunit
  try dsimp only
  repeat' first | (with_reducible first | assumption | (intro _) | fail_if_no_progress apply Keeps.of)

theorem Keeps.testWrite {k₀ : State} {s : State} (hk₀ : Keeps k₀ s) (t : TUnit) : Keeps k₀ (Machine.State.testWrite s t) := by
  unfold Machine.State.testWrite
  try dsimp only
  repeat' first | (with_reducible first | assumption | apply Keeps.setFld | apply Keeps.service | apply Keeps.putTunit | apply Keeps.ite |
                                  fail_if_no_progress apply Keeps.of) | split

theorem Keeps.testGo {k₀ : State} {s : State} (hk₀ : Keeps k₀ s) (u : Nat) : Keeps k₀ (Machine.State.testGo s u) := by
  unfold Machine.State.testGo
  try dsimp only
  repeat' first | (with_reducible first | assumption | apply Keeps.service | apply Keeps.putTunit | apply Keeps.testWrite |
                                  apply Keeps.ite) | split

theorem Keeps.testStep {k₀ : State} {s : State} (hk₀ : Keeps k₀ s) (u : Nat) : Keeps k₀ (Machine.State.testStep s u) := by
  unfold Machine.State.testStep
  try dsimp only
  repeat' first | (with_reducible first | assumption | apply Keeps.putTunit | apply Keeps.testGo | apply Keeps.ite |
                                  fail_if_no_progress apply Keeps.of) | split

theorem Keeps.testFault {k₀ : State} {s : State} (hk₀ : Keeps k₀ s) (u : Nat) (write : Bool) : Keeps k₀ (Machine.State.testFault s u write)
    := by
  unfold Machine.State.testFault
  try dsimp only
  repeat' first | (with_reducible first | assumption | apply Keeps.bump | apply Keeps.putTunit | apply Keeps.testStep | apply Keeps.ite |
                                  fail_if_no_progress apply Keeps.of) | split

theorem Keeps.testData {k₀ : State} {s : State} (hk₀ : Keeps k₀ s) (u : Nat) (words : List W64) : Keeps k₀ (Machine.State.testData s u
    words) := by
  unfold Machine.State.testData
  try dsimp only
  repeat' first | (with_reducible first | assumption | apply Keeps.unitErrors | apply Keeps.putTunit | apply Keeps.testStep |
                                  fail_if_no_progress apply Keeps.of) | split

theorem Keeps.linkCheck {k₀ : State} {s : State} (hk₀ : Keeps k₀ s) (u : Nat) (beat : List Byte) : Keeps k₀ (Machine.State.linkCheck s u
    beat) := by
  unfold Machine.State.linkCheck
  try dsimp only
  repeat' first | (with_reducible first | assumption | apply Keeps.bump | apply Keeps.setSync | apply Keeps.unitErrors |
                                  apply Keeps.putTunit | apply Keeps.ite | fail_if_no_progress apply Keeps.of) | split

theorem Keeps.genBeat {k₀ : State} {s : State} (hk₀ : Keeps k₀ s) (u : Nat) (n : Nat) : Keeps k₀ (Machine.State.genBeat s u n).1 := by
  unfold Machine.State.genBeat
  try dsimp only
  repeat' first | (with_reducible first | assumption | apply Keeps.setFld | apply Keeps.putTunit | apply Keeps.ite |
                                  fail_if_no_progress apply Keeps.of) | split

theorem Keeps.portLoop {k₀ : State} {s : State} (hk₀ : Keeps k₀ s) (u : Nat) : Keeps k₀ (Machine.State.portLoop s u) := by
  unfold Machine.State.portLoop
  try dsimp only
  repeat' first | (with_reducible first | assumption | apply Keeps.unitErrors | apply Keeps.putTunit |
                                  refine Keeps.fst (by assumption) (Keeps.genBeat ?_ ..) | apply Keeps.genBeat | apply Keeps.ite |
                                  fail_if_no_progress apply Keeps.of) | split

theorem Keeps.driveIdle {k₀ : State} {s : State} (hk₀ : Keeps k₀ s) (k : Nat) (b : BitVec 256) : Keeps k₀ (Machine.State.driveIdle s k b) :=
    by
  unfold Machine.State.driveIdle
  try dsimp only
  repeat' first | (with_reducible first | assumption | fail_if_no_progress apply Keeps.of)

theorem Keeps.linkBeat {k₀ : State} {s : State} (hk₀ : Keeps k₀ s) (k : Nat) : Keeps k₀ (Machine.State.linkBeat s k) := by
  unfold Machine.State.linkBeat
  try dsimp only
  repeat' first | (with_reducible first | assumption | apply Keeps.putLink | apply Keeps.linkCheck |
                                  refine Keeps.fst (by assumption) (Keeps.genBeat ?_ ..) | apply Keeps.genBeat | apply Keeps.driveIdle |
                                  apply Keeps.ite | fail_if_no_progress apply Keeps.of) | split

theorem Keeps.idleBeat {k₀ : State} {s : State} (hk₀ : Keeps k₀ s) (k : Nat) : Keeps k₀ (Machine.State.idleBeat s k) := by
  unfold Machine.State.idleBeat
  try dsimp only
  repeat' first | (with_reducible first | assumption | (intro _) | apply Keeps.bump | apply Keeps.putLink | apply Keeps.linkDown |
                                  apply Keeps.ite | fail_if_no_progress apply Keeps.of) | split

theorem Keeps.patternBeats {k₀ : State} {s : State} (hk₀ : Keeps k₀ s) : Keeps k₀ (Machine.State.patternBeats s) := by
  unfold Machine.State.patternBeats
  try dsimp only
  repeat' first | (with_reducible first | assumption | (intro _) | apply Keeps.portLoop | apply Keeps.linkBeat | apply Keeps.idleBeat |
                                  apply Keeps.foldl | apply Keeps.foldlFst | fail_if_no_progress apply Keeps.of)

theorem Keeps.unitStart {k₀ : State} {s : State} (hk₀ : Keeps k₀ s) (u : Nat) : Keeps k₀ (Machine.State.unitStart s u) := by
  unfold Machine.State.unitStart
  try dsimp only
  repeat' first | (with_reducible first | assumption | apply Keeps.setSync | apply Keeps.putTunit | apply Keeps.testGo | apply Keeps.ite) |
                                  split

theorem Keeps.unitClear {k₀ : State} {s : State} (hk₀ : Keeps k₀ s) (u : Nat) : Keeps k₀ (Machine.State.unitClear s u) := by
  unfold Machine.State.unitClear
  try dsimp only
  repeat' first | (with_reducible first | assumption | apply Keeps.wr)

theorem Keeps.unitsStop {k₀ : State} {s : State} (hk₀ : Keeps k₀ s) : Keeps k₀ (Machine.State.unitsStop s) := by
  unfold Machine.State.unitsStop
  try dsimp only
  repeat' first | (with_reducible first | assumption | (intro _) | apply Keeps.setFld | apply Keeps.setSync | apply Keeps.foldl |
                                  apply Keeps.foldlFst | fail_if_no_progress apply Keeps.of) | split

theorem Keeps.setDbgBytes {k₀ : State} {s : State} (hk₀ : Keeps k₀ s) (bs : List Byte) : Keeps k₀ (Machine.State.setDbgBytes s bs) := by
  unfold Machine.State.setDbgBytes
  try dsimp only
  repeat' first | (with_reducible first | assumption | (intro _) | apply Keeps.wr | apply Keeps.foldl | apply Keeps.foldlFst)

theorem Keeps.dbgGo {k₀ : State} {s : State} (hk₀ : Keeps k₀ s) : Keeps k₀ (Machine.State.dbgGo s) := by
  unfold Machine.State.dbgGo
  try dsimp only
  repeat' first | (with_reducible first | assumption | apply Keeps.wr | apply Keeps.service | apply Keeps.ite |
                                  fail_if_no_progress apply Keeps.of) | split

theorem Keeps.dbgError {k₀ : State} {s : State} (hk₀ : Keeps k₀ s) (code : BitVec 6) : Keeps k₀ (Machine.State.dbgError s code) := by
  unfold Machine.State.dbgError
  try dsimp only
  repeat' first | (with_reducible first | assumption | apply Keeps.wr)

theorem Keeps.dbgAnswer {k₀ : State} {s : State} (hk₀ : Keeps k₀ s) (bs : List Byte) : Keeps k₀ (Machine.State.dbgAnswer s bs) := by
  unfold Machine.State.dbgAnswer
  try dsimp only
  repeat' first | (with_reducible first | assumption | apply Keeps.wr | apply Keeps.setDbgBytes)

/-! Machine/Dirty.lean. -/

theorem Keeps.logDirty {k₀ : State} {s : State} (hk₀ : Keeps k₀ s) (iid : Nat) (addr : Nat) : Keeps k₀ (Machine.State.logDirty s iid addr)
    := by
  unfold Machine.State.logDirty
  try dsimp only
  repeat' first | (with_reducible first | assumption | (intro _) | apply Keeps.bump | apply Keeps.pulse | apply Keeps.setInstFld |
                                  apply Keeps.ite | fail_if_no_progress apply Keeps.of) | split

theorem Keeps.logPage {k₀ : State} {s : State} (hk₀ : Keeps k₀ s) (a : Access) : Keeps k₀ (Machine.State.logPage s a) := by
  unfold Machine.State.logPage
  try dsimp only
  repeat' first | (with_reducible first | assumption | apply Keeps.logDirty | apply Keeps.ite) | split

theorem Keeps.execDirtyLogRecordWrite {k₀ : State} {s : State} (hk₀ : Keeps k₀ s) : KeepsOut k₀ (Machine.execDirtyLogRecordWrite s) := by
  unfold Machine.execDirtyLogRecordWrite
  try dsimp only
  repeat' first | (with_reducible first | assumption | apply KeepsOut.next | exact KeepsOut.fault | apply Keeps.pulse |
                                  apply Keeps.setInst | apply Keeps.setInstFld | apply Keeps.service | apply KeepsOut.ite |
                                  apply Keeps.ite | fail_if_no_progress apply Keeps.of) | split

/-! Machine/EvmOps.lean. -/

theorem Keeps.putLine {k₀ : State} {s : State} (hk₀ : Keeps k₀ s) (x : Line) : Keeps k₀ (Machine.State.putLine s x) := by
  unfold Machine.State.putLine
  try dsimp only
  repeat' first | (with_reducible first | assumption | (intro _) | fail_if_no_progress apply Keeps.of)

theorem Keeps.putWaitFlag {k₀ : State} {s : State} (hk₀ : Keeps k₀ s) (f : Nat) (v : Bool) : Keeps k₀ (Machine.State.putWaitFlag s f v) :=
    by
  unfold Machine.State.putWaitFlag
  try dsimp only
  repeat' first | (with_reducible first | assumption | apply Keeps.setFld)

theorem Keeps.setWaitFlag {k₀ : State} {s : State} (hk₀ : Keeps k₀ s) (f : Nat) : Keeps k₀ (Machine.State.setWaitFlag s f) := by
  unfold Machine.State.setWaitFlag
  try dsimp only
  repeat' first | (with_reducible first | assumption | (intro _) | apply Keeps.putWaitFlag | fail_if_no_progress apply Keeps.of)

theorem Keeps.clearWaitFlag {k₀ : State} {s : State} (hk₀ : Keeps k₀ s) (f : Nat) : Keeps k₀ (Machine.State.clearWaitFlag s f) := by
  unfold Machine.State.clearWaitFlag
  try dsimp only
  repeat' first | (with_reducible first | assumption | apply Keeps.putWaitFlag | apply Keeps.ite) | split

theorem Keeps.setsWin {k₀ : State} {s : State} (hk₀ : Keeps k₀ s) (i : Nat) : Keeps k₀ (Machine.State.setsWin s i) := by
  unfold Machine.State.setsWin
  try dsimp only
  repeat' first | (with_reducible first | assumption | (intro _) | apply Keeps.putWaitFlag | apply Keeps.foldl | apply Keeps.foldlFst)

/-! Machine/AdmOps.lean. -/

theorem Keeps.setAdm {k₀ : State} {s : State} (hk₀ : Keeps k₀ s) (f : Adm → Adm) : Keeps k₀ (Machine.State.setAdm s f) := by
  unfold Machine.State.setAdm
  try dsimp only
  repeat' first | (with_reducible first | assumption | fail_if_no_progress apply Keeps.of)

theorem Keeps.admNotice {k₀ : State} {s : State} (hk₀ : Keeps k₀ s) : Keeps k₀ (Machine.State.admNotice s) := by
  unfold Machine.State.admNotice
  try dsimp only
  repeat' first | (with_reducible first | assumption | (intro _) | apply Keeps.service | apply Keeps.setAdm | apply Keeps.ite |
                                  fail_if_no_progress apply Keeps.of) | split

theorem Keeps.admNoticeAcked {k₀ : State} {s : State} (hk₀ : Keeps k₀ s) : Keeps k₀ (Machine.State.admNoticeAcked s) := by
  unfold Machine.State.admNoticeAcked
  try dsimp only
  repeat' first | (with_reducible first | assumption | (intro _) | apply Keeps.setAdm | apply Keeps.admNotice | apply Keeps.ite |
                                  fail_if_no_progress apply Keeps.of) | split

theorem Keeps.discardStaged {k₀ : State} {s : State} (hk₀ : Keeps k₀ s) : Keeps k₀ (Machine.State.discardStaged s) := by
  unfold Machine.State.discardStaged
  try dsimp only
  repeat' first | (with_reducible first | assumption | apply Keeps.setFld | apply Keeps.bump | apply Keeps.ite |
                                  fail_if_no_progress apply Keeps.of) | split

theorem Keeps.dropAdmSlot {k₀ : State} {s : State} (hk₀ : Keeps k₀ s) : Keeps k₀ (Machine.State.dropAdmSlot s) := by
  unfold Machine.State.dropAdmSlot
  try dsimp only
  repeat' first | (with_reducible first | assumption | (intro _) | fail_if_no_progress apply Keeps.of)

theorem Keeps.emptyCommit {k₀ : State} {s : State} (hk₀ : Keeps k₀ s) : Keeps k₀ (Machine.State.emptyCommit s) := by
  unfold Machine.State.emptyCommit
  try dsimp only
  repeat' first | (with_reducible first | assumption | apply Keeps.ite | fail_if_no_progress apply Keeps.of) | split

theorem Keeps.admError {k₀ : State} {s : State} (hk₀ : Keeps k₀ s) (cause : Nat) (idx : W32) : Keeps k₀ (Machine.State.admError s cause idx)
    := by
  unfold Machine.State.admError
  try dsimp only
  repeat' first | (with_reducible first | assumption | apply Keeps.wr | apply Keeps.setFld | apply Keeps.logErr | apply Keeps.admNotice |
                                  apply Keeps.discardStaged | apply Keeps.dropAdmSlot | apply Keeps.emptyCommit)

theorem Keeps.admFurther {k₀ : State} {s : State} (hk₀ : Keeps k₀ s) (cause : Nat) : Keeps k₀ (Machine.State.admFurther s cause) := by
  unfold Machine.State.admFurther
  try dsimp only
  repeat' first | (with_reducible first | assumption | apply Keeps.setFld | apply Keeps.bumpSat)

theorem Keeps.admPump {k₀ : State} {s : State} (hk₀ : Keeps k₀ s) : Keeps k₀ (Machine.State.admPump s) := by
  unfold Machine.State.admPump
  try dsimp only
  repeat' first | (with_reducible first | assumption | (intro _) | apply Keeps.setFld | apply Keeps.service | apply Keeps.setAdm |
                                  apply Keeps.ite | fail_if_no_progress apply Keeps.of) | split

theorem Keeps.admResume {k₀ : State} {s : State} (hk₀ : Keeps k₀ s) : Keeps k₀ (Machine.State.admResume s) := by
  unfold Machine.State.admResume
  try dsimp only
  repeat' first | (with_reducible first | assumption | (intro _) | apply Keeps.setFld | apply Keeps.service | apply Keeps.setAdm |
                                  apply Keeps.dropAdmSlot | apply Keeps.admPump | apply Keeps.ite | fail_if_no_progress apply Keeps.of) |
                                  split

theorem Keeps.admRecord {k₀ : State} {s : State} (hk₀ : Keeps k₀ s) (idx : W32) (words : List W64) : Keeps k₀ (Machine.State.admRecord s idx
    words) := by
  unfold Machine.State.admRecord
  try dsimp only
  repeat' first | (with_reducible first | assumption | (intro _) | apply Keeps.wr | apply Keeps.service | apply Keeps.setAdm |
                                  fail_if_no_progress apply Keeps.of)

theorem Keeps.admAbandon {k₀ : State} {s : State} (hk₀ : Keeps k₀ s) : Keeps k₀ (Machine.State.admAbandon s) := by
  unfold Machine.State.admAbandon
  try dsimp only
  repeat' first | (with_reducible first | assumption | (intro _) | apply Keeps.setFld | apply Keeps.setAdm | apply Keeps.dropAdmSlot |
                                  apply Keeps.admPump | apply Keeps.admResume | apply Keeps.admRecord | apply Keeps.ite |
                                  fail_if_no_progress apply Keeps.of) | split

theorem Keeps.admDoorbell {k₀ : State} {s : State} (hk₀ : Keeps k₀ s) (rec : W64) : Keeps k₀ (Machine.State.admDoorbell s rec) := by
  unfold Machine.State.admDoorbell
  try dsimp only
  repeat' first | (with_reducible first | assumption | (intro _) | apply Keeps.countIgnored | apply Keeps.setAdm | apply Keeps.admError |
                                  apply Keeps.admFurther | apply Keeps.admPump | apply Keeps.admResume | apply Keeps.admAbandon |
                                  apply Keeps.ite | fail_if_no_progress apply Keeps.of) | split

theorem Keeps.putCmd {k₀ : State} {s : State} (hk₀ : Keeps k₀ s) (own : Bool) (c : Option AdmCmd) : Keeps k₀ (Machine.State.putCmd s own c)
    := by
  unfold Machine.State.putCmd
  try dsimp only
  repeat' first | (with_reducible first | assumption | apply Keeps.ite | fail_if_no_progress apply Keeps.of) | split

theorem Keeps.epochNext {k₀ : State} {s : State} (hk₀ : Keeps k₀ s) : Keeps k₀ (Machine.State.epochNext s) := by
  unfold Machine.State.epochNext
  try dsimp only
  repeat' first | (with_reducible first | assumption | apply Keeps.wr | apply Keeps.ite) | split

theorem Keeps.sendConfig {k₀ : State} {s : State} (hk₀ : Keeps k₀ s) (c : AdmCmd) (items : List (W64 × W64)) (m : Nat) : Keeps k₀
    (Machine.State.sendConfig s c items m) := by
  unfold Machine.State.sendConfig
  try dsimp only
  repeat' first | (with_reducible first | assumption | (intro _) | apply Keeps.sendTo | apply Keeps.foldl | apply Keeps.foldlFst)

theorem Keeps.nextRemote {k₀ : State} {s : State} (hk₀ : Keeps k₀ s) : Keeps k₀ (Machine.State.nextRemote s) := by
  unfold Machine.State.nextRemote
  try dsimp only
  repeat' first | (with_reducible first | assumption | fail_if_no_progress apply Keeps.of)

theorem Keeps.admEnd {k₀ : State} {s : State} (hk₀ : Keeps k₀ s) (own : Bool) (status : Nat) (detail : Nat) (w1 : Nat) (w2 : Nat) (w5 : Nat)
    : Keeps k₀ (Machine.State.admEnd s own status detail w1 w2 w5) := by
  unfold Machine.State.admEnd
  try dsimp only
  repeat' first | (with_reducible first | assumption | (intro _) | apply Keeps.wr | apply Keeps.setFld | apply Keeps.sendTo |
                                  apply Keeps.setAdm | apply Keeps.discardStaged | apply Keeps.admPump | apply Keeps.admRecord |
                                  apply Keeps.putCmd | apply Keeps.epochNext | apply Keeps.nextRemote | apply Keeps.ite |
                                  fail_if_no_progress apply Keeps.of) | split

theorem Keeps.dropQueue {k₀ : State} {s : State} (hk₀ : Keeps k₀ s) (qid : Nat) : Keeps k₀ (Machine.State.dropQueue s qid) := by
  unfold Machine.State.dropQueue
  try dsimp only
  repeat' first | (with_reducible first | assumption | (intro _) | apply Keeps.orphanReads | apply Keeps.freeSlot |
                                  apply Keeps.forgetReady | apply Keeps.flipHash | apply Keeps.foldl | apply Keeps.foldlFst |
                                  fail_if_no_progress apply Keeps.of)

theorem Keeps.startDestroy {k₀ : State} {s : State} (hk₀ : Keeps k₀ s) (qid : Nat) : Keeps k₀ (Machine.State.startDestroy s qid) := by
  unfold Machine.State.startDestroy
  try dsimp only
  repeat' first | (with_reducible first | assumption | apply Keeps.setCtx | apply Keeps.startDrain | apply Keeps.drainTo | apply Keeps.ite |
                                  fail_if_no_progress apply Keeps.of) | split

theorem Keeps.closeEpoch {k₀ : State} {s : State} (hk₀ : Keeps k₀ s) (iid : Nat) : Keeps k₀ (Machine.State.closeEpoch s iid) := by
  unfold Machine.State.closeEpoch
  try dsimp only
  repeat' first | (with_reducible first | assumption | (intro _) | apply Keeps.setInstFld | fail_if_no_progress apply Keeps.of)

theorem Keeps.epochEnd {k₀ : State} {s : State} (hk₀ : Keeps k₀ s) (iid : Nat) : Keeps k₀ (Machine.State.epochEnd s iid) := by
  unfold Machine.State.epochEnd
  try dsimp only
  repeat' first | (with_reducible first | assumption | (intro _) | apply Keeps.setFld | apply Keeps.setInstFld |
                                  fail_if_no_progress apply Keeps.of)

theorem Keeps.logStops {k₀ : State} {s : State} (hk₀ : Keeps k₀ s) (iid : Nat) : Keeps k₀ (Machine.State.logStops s iid) := by
  unfold Machine.State.logStops
  try dsimp only
  repeat' first | (with_reducible first | assumption | apply Keeps.setFld | apply Keeps.setInstFld | apply Keeps.ite) | split

theorem Keeps.zeroInst {k₀ : State} {s : State} (hk₀ : Keeps k₀ s) (iid : Nat) : Keeps k₀ (Machine.State.zeroInst s iid) := by
  exact Keeps.is3 hk₀ _ (fun w => WordMap.wf_clear _ _ _ (WordMap.wf_clear _ _ _ (WordMap.wf_clear _ _ _ w)))

theorem Keeps.instanceEnd {k₀ : State} {s : State} (hk₀ : Keeps k₀ s) (iid : Nat) (gone : Bool) : Keeps k₀ (Machine.State.instanceEnd s iid
    gone) := by
  unfold State.instanceEnd
  dsimp only
  refine Keeps.ite (Keeps.setFld ?_ ..) (Keeps.setInstFld (Keeps.of (Keeps.zeroInst hk₀ iid)) ..)
  refine (Keeps.is0 (Keeps.zeroInst hk₀ iid) ((s.zeroInst iid).is0.clear (16 * iid) 16) (WordMap.wf_clear _ _ _)).same ?_ ?_ ?_ ?_ ?_ ?_ ?_
      ?_ ?_ ?_ ?_ ?_ ?_ ?_ <;> rfl

theorem Keeps.closeQueue {k₀ : State} {s : State} (hk₀ : Keeps k₀ s) (qid : Nat) : Keeps k₀ (Machine.State.closeQueue s qid) := by
  unfold Machine.State.closeQueue
  try dsimp only
  repeat' first | (with_reducible first | assumption | apply Keeps.awaitCtx | apply Keeps.dropQueue | apply Keeps.startDestroy |
                                  apply Keeps.ite) | split

theorem Keeps.closeEnd {k₀ : State} {s : State} (hk₀ : Keeps k₀ s) (own : Bool) (c : AdmCmd) : Keeps k₀ (Machine.State.closeEnd s own c) :=
    by
  unfold Machine.State.closeEnd
  try dsimp only
  repeat' first | (with_reducible first | assumption | (intro _) | apply Keeps.admEnd | apply Keeps.instanceEnd | apply Keeps.ite) | split

theorem Keeps.closeStep {k₀ : State} {s : State} (hk₀ : Keeps k₀ s) (own : Bool) (c : AdmCmd) (n₀ : Nat) : Keeps k₀ (Machine.State.closeStep
    s own c n₀) := by
  induction n₀ generalizing s own c with
  | zero =>
    unfold Machine.State.closeStep; try dsimp only
    repeat' first | (with_reducible first | assumption | apply ih | (intro _) | apply Keeps.setFld | apply Keeps.putCmd |
                                    apply Keeps.closeEpoch | apply Keeps.epochEnd | apply Keeps.logStops | apply Keeps.closeQueue |
                                    apply Keeps.closeEnd | apply Keeps.goOn | apply Keeps.foldl | apply Keeps.foldlFst | apply Keeps.ite |
                                    fail_if_no_progress apply Keeps.of) | split
  | succ n₀ ih =>
    unfold Machine.State.closeStep; try dsimp only
    repeat' first | (with_reducible first | assumption | apply ih | (intro _) | apply Keeps.setFld | apply Keeps.putCmd |
                                    apply Keeps.closeEpoch | apply Keeps.epochEnd | apply Keeps.logStops | apply Keeps.closeQueue |
                                    apply Keeps.closeEnd | apply Keeps.goOn | apply Keeps.foldl | apply Keeps.foldlFst | apply Keeps.ite |
                                    fail_if_no_progress apply Keeps.of) | split

theorem Keeps.harvestStep {k₀ : State} {s : State} (hk₀ : Keeps k₀ s) (own : Bool) (c : AdmCmd) (n₀ : Nat) : Keeps k₀
    (Machine.State.harvestStep s own c n₀) := by
  induction n₀ generalizing s own c with
  | zero =>
    unfold Machine.State.harvestStep; try dsimp only
    repeat' first | (with_reducible first | assumption | apply ih | (intro _) | apply Keeps.putCmd | apply Keeps.admEnd |
                                    apply Keeps.closeEpoch | apply Keeps.epochEnd | apply Keeps.logStops | apply Keeps.goOn |
                                    apply Keeps.ite | fail_if_no_progress apply Keeps.of) | split
  | succ n₀ ih =>
    unfold Machine.State.harvestStep; try dsimp only
    repeat' first | (with_reducible first | assumption | apply ih | (intro _) | apply Keeps.putCmd | apply Keeps.admEnd |
                                    apply Keeps.closeEpoch | apply Keeps.epochEnd | apply Keeps.logStops | apply Keeps.goOn |
                                    apply Keeps.ite | fail_if_no_progress apply Keeps.of) | split

theorem Keeps.admCheckOne {k₀ : State} {s : State} (hk₀ : Keeps k₀ s) (own : Bool) : Keeps k₀ (Machine.State.admCheckOne s own) := by
  unfold Machine.State.admCheckOne
  try dsimp only
  repeat' first | (with_reducible first | assumption | (intro _) | apply Keeps.setInstFld | apply Keeps.admEnd | apply Keeps.closeStep |
                                  apply Keeps.harvestStep | apply Keeps.ite | fail_if_no_progress apply Keeps.of) | split

theorem Keeps.admCheck {k₀ : State} {s : State} (hk₀ : Keeps k₀ s) : Keeps k₀ (Machine.State.admCheck s) := by
  unfold Machine.State.admCheck
  try dsimp only
  repeat' first | (with_reducible first | assumption | apply Keeps.admCheckOne)

/-! Machine/Admin.lean. -/

theorem Keeps.execAdminDoorbellRead {k₀ : State} {s : State} (hk₀ : Keeps k₀ s) : KeepsOut k₀ (Machine.execAdminDoorbellRead s) := by
  unfold Machine.execAdminDoorbellRead
  try dsimp only
  repeat' first | (with_reducible first | assumption | (intro _) | apply KeepsOut.next | exact KeepsOut.fault | apply Keeps.service |
                                  apply Keeps.setAdm | apply Keeps.admDoorbell | apply KeepsOut.ite | apply Keeps.ite |
                                  fail_if_no_progress apply Keeps.of) | split

theorem Keeps.admAgain {k₀ : State} {s : State} (hk₀ : Keeps k₀ s) (a : Access) (code : BitVec 6) : Keeps k₀ (Machine.State.admAgain s a
    code) := by
  unfold Machine.State.admAgain
  try dsimp only
  repeat' first | (with_reducible first | assumption | apply Keeps.logErr | apply Keeps.serviceAgain)

theorem Keeps.admRead {k₀ : State} {s : State} (hk₀ : Keeps k₀ s) (a : Access) (ans : Answer) (k : State → List Byte → State) (hk_k : ∀ a0
    a1, Keeps k₀ a0 → Keeps k₀ (k a0 a1)) : Keeps k₀ (Machine.State.admRead s a ans k) := by
  unfold Machine.State.admRead
  try dsimp only
  repeat' first | (with_reducible first | assumption | (intro _) | apply hk_k | apply Keeps.drainHeld | apply Keeps.readEnds |
                                  refine Keeps.fst (by assumption) (Keeps.land ?_ ..) | apply Keeps.land | apply Keeps.admAgain |
                                  apply Keeps.ite | fail_if_no_progress apply Keeps.of) | split

theorem Keeps.execAdminDoorbellResponse {k₀ : State} (aid : Nat) (ans : Answer) {s : State} (hk₀ : Keeps k₀ s) : KeepsOut k₀
    (Machine.execAdminDoorbellResponse aid ans s) := by
  unfold Machine.execAdminDoorbellResponse
  try dsimp only
  repeat' first | (with_reducible first | assumption | (intro _) | apply KeepsOut.next | exact KeepsOut.fault | apply Keeps.setAdm |
                                  apply Keeps.admDoorbell | apply Keeps.admRead | apply KeepsOut.ite | apply Keeps.ite |
                                  fail_if_no_progress apply Keeps.of) | split

theorem Keeps.admMalformed {k₀ : State} {s : State} (hk₀ : Keeps k₀ s) (cause : Nat) : Keeps k₀ (Machine.State.admMalformed s cause) := by
  unfold Machine.State.admMalformed
  try dsimp only
  repeat' first | (with_reducible first | assumption | apply Keeps.admError | apply Keeps.admFurther | apply Keeps.ite) | split

theorem Keeps.admSlotRead {k₀ : State} {s : State} (hk₀ : Keeps k₀ s) (ws : List W64) : Keeps k₀ (Machine.State.admSlotRead s ws) := by
  unfold Machine.State.admSlotRead
  try dsimp only
  repeat' first | (with_reducible first | assumption | (intro _) | apply Keeps.setFld | apply Keeps.setAdm | apply Keeps.admMalformed |
                                  apply Keeps.ite | fail_if_no_progress apply Keeps.of) | split

theorem Keeps.execAdminSlotReadResponse {k₀ : State} (aid : Nat) (ans : Answer) {s : State} (hk₀ : Keeps k₀ s) : KeepsOut k₀
    (Machine.execAdminSlotReadResponse aid ans s) := by
  unfold Machine.execAdminSlotReadResponse
  try dsimp only
  repeat' first | (with_reducible first | assumption | (intro _) | apply KeepsOut.next | exact KeepsOut.fault | apply Keeps.drainHeld |
                                  apply Keeps.readEnds | apply Keeps.landOrphan | apply Keeps.admRead | apply Keeps.admSlotRead |
                                  apply KeepsOut.ite | apply Keeps.ite | fail_if_no_progress apply Keeps.of) | split

theorem Keeps.execAdminSlotReread {k₀ : State} {s : State} (hk₀ : Keeps k₀ s) : KeepsOut k₀ (Machine.execAdminSlotReread s) := by
  unfold Machine.execAdminSlotReread
  try dsimp only
  repeat' first | (with_reducible first | assumption | (intro _) | apply KeepsOut.next | exact KeepsOut.fault | apply Keeps.service |
                                  apply Keeps.setAdm | apply KeepsOut.ite | apply Keeps.ite | fail_if_no_progress apply Keeps.of) | split

theorem Keeps.admGiveUp {k₀ : State} {s : State} (hk₀ : Keeps k₀ s) (a : Access) (code : BitVec 6) : Keeps k₀ (Machine.State.admGiveUp s a
    code) := by
  unfold Machine.State.admGiveUp
  try dsimp only
  repeat' first | (with_reducible first | assumption | apply Keeps.logErr | apply Keeps.admRecord | fail_if_no_progress apply Keeps.of) |
                                  split

theorem Keeps.execAdminRecordAck {k₀ : State} (aid : Nat) (code : BitVec 6) {s : State} (hk₀ : Keeps k₀ s) : KeepsOut k₀
    (Machine.execAdminRecordAck aid code s) := by
  unfold Machine.execAdminRecordAck
  try dsimp only
  repeat' first | (with_reducible first | assumption | apply KeepsOut.next | exact KeepsOut.fault | apply Keeps.pulse |
                                  apply Keeps.drainHeld | apply Keeps.dropAccess | apply Keeps.admNotice | apply Keeps.admRecord |
                                  apply Keeps.admAgain | apply Keeps.admGiveUp | apply KeepsOut.ite | apply Keeps.ite |
                                  fail_if_no_progress apply Keeps.of) | split

theorem Keeps.errGiveUp {k₀ : State} {s : State} (hk₀ : Keeps k₀ s) (seq : W32) : Keeps k₀ (Machine.State.errGiveUp s seq) := by
  unfold Machine.State.errGiveUp
  try dsimp only
  repeat' first | (with_reducible first | assumption | (intro _) | apply Keeps.sEvent | apply Keeps.loseErr |
                                  fail_if_no_progress apply Keeps.of)

theorem Keeps.errAgain {k₀ : State} {s : State} (hk₀ : Keeps k₀ s) (a : Access) : Keeps k₀ (Machine.State.errAgain s a) := by
  unfold Machine.State.errAgain
  try dsimp only
  repeat' first | (with_reducible first | assumption | apply Keeps.serviceAgain | apply Keeps.errGiveUp | apply Keeps.ite |
                                  fail_if_no_progress apply Keeps.of) | split

theorem Keeps.execAdmMemCeil {k₀ : State} (aid : Nat) {s : State} (hk₀ : Keeps k₀ s) : KeepsOut k₀ (Machine.execAdmMemCeil aid s) := by
  unfold Machine.execAdmMemCeil
  try dsimp only
  repeat' first | (with_reducible first | assumption | apply KeepsOut.next | exact KeepsOut.fault | apply Keeps.drainHeld |
                                  apply Keeps.quarantine | apply Keeps.admAgain | apply Keeps.errAgain | apply KeepsOut.ite |
                                  apply Keeps.ite | fail_if_no_progress apply Keeps.of) | split

/-! Machine/Poll.lean. -/

theorem Keeps.putPoll {k₀ : State} {s : State} (hk₀ : Keeps k₀ s) (p : PollInst) : Keeps k₀ (Machine.State.putPoll s p) := by
  unfold Machine.State.putPoll
  try dsimp only
  repeat' first | (with_reducible first | assumption | (intro _) | fail_if_no_progress apply Keeps.of)

theorem Keeps.dueNow {k₀ : State} {s : State} (hk₀ : Keeps k₀ s) (iid : Nat) : Keeps k₀ (Machine.State.dueNow s iid) := by
  unfold Machine.State.dueNow
  try dsimp only
  repeat' first | (with_reducible first | assumption | apply Keeps.putPoll | fail_if_no_progress apply Keeps.of)

theorem Keeps.pollsFallDue {k₀ : State} {s : State} (hk₀ : Keeps k₀ s) : Keeps k₀ (Machine.State.pollsFallDue s) := by
  unfold Machine.State.pollsFallDue
  try dsimp only
  repeat' first | (with_reducible first | assumption | (intro _) | apply Keeps.ite | fail_if_no_progress apply Keeps.of) | split

theorem Keeps.fullScanNext {k₀ : State} {s : State} (hk₀ : Keeps k₀ s) (iid : Nat) : Keeps k₀ (Machine.State.fullScanNext s iid) := by
  unfold Machine.State.fullScanNext
  try dsimp only
  repeat' first | (with_reducible first | assumption | apply Keeps.putPoll | fail_if_no_progress apply Keeps.of)

theorem Keeps.beginPoll {k₀ : State} {s : State} (hk₀ : Keeps k₀ s) (iid : Nat) (dbg : Bool) : Keeps k₀ (Machine.State.beginPoll s iid dbg)
    := by
  unfold Machine.State.beginPoll
  try dsimp only
  repeat' first | (with_reducible first | assumption | apply Keeps.putPoll | apply Keeps.ite | fail_if_no_progress apply Keeps.of) | split

theorem Keeps.kickInst {k₀ : State} {s : State} (hk₀ : Keeps k₀ s) (iid : Nat) (dbg : Bool) : Keeps k₀ (Machine.State.kickInst s iid dbg) :=
    by
  unfold Machine.State.kickInst
  try dsimp only
  repeat' first | (with_reducible first | assumption | apply Keeps.putPoll | apply Keeps.beginPoll | apply Keeps.ite |
                                  fail_if_no_progress apply Keeps.of) | split

theorem Keeps.execPollDue {k₀ : State} (iid : Nat) {s : State} (hk₀ : Keeps k₀ s) : KeepsOut k₀ (Machine.execPollDue iid s) := by
  unfold Machine.execPollDue
  try dsimp only
  repeat' first | (with_reducible first | assumption | apply KeepsOut.next | exact KeepsOut.fault | apply Keeps.beginPoll |
                                  apply KeepsOut.ite | apply Keeps.ite) | split

theorem Keeps.updPoll {k₀ : State} {s : State} (hk₀ : Keeps k₀ s) (iid : Nat) (f : Poll → Poll) : Keeps k₀ (Machine.State.updPoll s iid f)
    := by
  unfold Machine.State.updPoll
  try dsimp only
  repeat' first | (with_reducible first | assumption | (intro _) | fail_if_no_progress apply Keeps.of)

theorem Keeps.execPollAccessIssue {k₀ : State} (iid : Nat) {s : State} (hk₀ : Keeps k₀ s) : KeepsOut k₀ (Machine.execPollAccessIssue iid s)
    := by
  unfold Machine.execPollAccessIssue
  try dsimp only
  repeat' first | (with_reducible first | assumption | (intro _) | apply KeepsOut.next | exact KeepsOut.fault | apply Keeps.putArb |
                                  refine KeepsOpt.out (by assumption) (Keeps.arbGrant ?_ ..) | apply Keeps.arbGrant | apply Keeps.service |
                                  apply Keeps.updPoll | apply Keeps.stampOf | apply KeepsOpt.map | apply KeepsOpt.getD |
                                  apply KeepsOpt.ite | apply KeepsOpt.some | exact KeepsOpt.none | refine KeepsOpt.out (by assumption) ?_ |
                                  apply KeepsOut.ite | apply Keeps.ite | fail_if_no_progress apply Keeps.of) | split

theorem Keeps.settlePoll {k₀ : State} {s : State} (hk₀ : Keeps k₀ s) (iid : Nat) : Keeps k₀ (Machine.State.settlePoll s iid) := by
  unfold Machine.State.settlePoll
  try dsimp only
  repeat' first | (with_reducible first | assumption | (intro _) | apply Keeps.dropRequest | apply Keeps.admCheck | apply Keeps.putPoll |
                                  apply Keeps.fullScanNext | apply Keeps.ite | fail_if_no_progress apply Keeps.of) | split

theorem Keeps.pollStep {k₀ : State} {s : State} (hk₀ : Keeps k₀ s) (iid : Nat) (more : List Purpose) : Keeps k₀ (Machine.State.pollStep s
    iid more) := by
  unfold Machine.State.pollStep
  try dsimp only
  repeat' first | (with_reducible first | assumption | (intro _) | apply Keeps.updPoll | apply Keeps.settlePoll | apply Keeps.ite |
                                  fail_if_no_progress apply Keeps.of) | split

theorem Keeps.pollFail {k₀ : State} {s : State} (hk₀ : Keeps k₀ s) (iid : Nat) : Keeps k₀ (Machine.State.pollFail s iid) := by
  unfold Machine.State.pollFail
  try dsimp only
  repeat' first | (with_reducible first | assumption | (intro _) | apply Keeps.dropRequest | apply Keeps.updPoll | apply Keeps.settlePoll |
                                  fail_if_no_progress apply Keeps.of) | split

theorem Keeps.pollError {k₀ : State} {s : State} (hk₀ : Keeps k₀ s) (a : Access) (code : BitVec 6) : Keeps k₀ (Machine.State.pollError s a
    code) := by
  unfold Machine.State.pollError
  try dsimp only
  repeat' first | (with_reducible first | assumption | apply Keeps.logErr | apply Keeps.pollFail | apply Keeps.ite) | split

theorem Keeps.pollAnswer {k₀ : State} {s : State} (hk₀ : Keeps k₀ s) (a : Access) (ans : Answer) (k : State → List Byte → State) (hk_k : ∀
    a0 a1, Keeps k₀ a0 → Keeps k₀ (k a0 a1)) : Keeps k₀ (Machine.State.pollAnswer s a ans k) := by
  unfold Machine.State.pollAnswer
  try dsimp only
  repeat' first | (with_reducible first | assumption | (intro _) | apply hk_k | apply Keeps.logErr | apply Keeps.drainHeld |
                                  apply Keeps.readEnds | refine Keeps.fst (by assumption) (Keeps.land ?_ ..) | apply Keeps.land |
                                  apply Keeps.logPage | apply Keeps.pollFail | apply Keeps.pollError | apply Keeps.ite |
                                  fail_if_no_progress apply Keeps.of) | split

theorem Keeps.lateSwap {k₀ : State} {s : State} (hk₀ : Keeps k₀ s) (aid : Nat) : Keeps k₀ (Machine.State.lateSwap s aid) := by
  unfold Machine.State.lateSwap
  try dsimp only
  repeat' first | (with_reducible first | assumption | (intro _) | apply Keeps.logPage | apply Keeps.ite |
                                  fail_if_no_progress apply Keeps.of) | split

theorem Keeps.execRootSwapResponse {k₀ : State} (aid : Nat) (ans : Answer) {s : State} (hk₀ : Keeps k₀ s) : KeepsOut k₀
    (Machine.execRootSwapResponse aid ans s) := by
  unfold Machine.execRootSwapResponse
  try dsimp only
  repeat' first | (with_reducible first | assumption | (intro _) | apply KeepsOut.next | exact KeepsOut.fault | apply Keeps.pollStep |
                                  apply Keeps.pollAnswer | apply Keeps.lateSwap | apply KeepsOut.ite | apply Keeps.ite |
                                  fail_if_no_progress apply Keeps.of) | split

theorem Keeps.execLeafSwapResponse {k₀ : State} (aid : Nat) (ans : Answer) {s : State} (hk₀ : Keeps k₀ s) : KeepsOut k₀
    (Machine.execLeafSwapResponse aid ans s) := by
  unfold Machine.execLeafSwapResponse
  try dsimp only
  repeat' first | (with_reducible first | assumption | (intro _) | apply KeepsOut.next | exact KeepsOut.fault | apply Keeps.pollStep |
                                  apply Keeps.pollAnswer | apply Keeps.lateSwap | apply KeepsOut.ite | apply Keeps.ite |
                                  fail_if_no_progress apply Keeps.of) | split

theorem Keeps.takeRecord {k₀ : State} {s : State} (hk₀ : Keeps k₀ s) (qid : Nat) (rec : W64) : Keeps k₀ (Machine.State.takeRecord s qid rec)
    := by
  unfold Machine.State.takeRecord
  try dsimp only
  repeat' first | (with_reducible first | assumption | apply Keeps.awaitCtx | apply Keeps.hit | apply Keeps.applyRecord | apply Keeps.ite) |
                                  split

theorem Keeps.lineRecord {k₀ : State} {s : State} (hk₀ : Keeps k₀ s) (iid : Nat) (q : Nat) (rec : W64) : Keeps k₀ (Machine.State.lineRecord
    s iid q rec) := by
  unfold Machine.State.lineRecord
  try dsimp only
  repeat' first | (with_reducible first | assumption | apply Keeps.countIgnored | apply Keeps.forwardDoorbell | apply Keeps.takeRecord |
                                  apply Keeps.ite) | split

theorem Keeps.execDoorbellLineReadResponse {k₀ : State} (aid : Nat) (ans : Answer) {s : State} (hk₀ : Keeps k₀ s) : KeepsOut k₀
    (Machine.execDoorbellLineReadResponse aid ans s) := by
  unfold Machine.execDoorbellLineReadResponse
  try dsimp only
  repeat' first | (with_reducible first | assumption | (intro _) | apply KeepsOut.next | exact KeepsOut.fault | apply Keeps.pollStep |
                                  apply Keeps.pollAnswer | apply Keeps.lineRecord | apply Keeps.foldl | apply Keeps.foldlFst |
                                  apply KeepsOut.ite | apply Keeps.ite | fail_if_no_progress apply Keeps.of) | split

theorem Keeps.execPollAccessCeil {k₀ : State} (aid : Nat) {s : State} (hk₀ : Keeps k₀ s) : KeepsOut k₀ (Machine.execPollAccessCeil aid s) :=
    by
  unfold Machine.execPollAccessCeil
  try dsimp only
  repeat' first | (with_reducible first | assumption | apply KeepsOut.next | exact KeepsOut.fault | apply Keeps.logErr |
                                  apply Keeps.drainHeld | apply Keeps.quarantine | apply Keeps.logPage | apply Keeps.pollFail |
                                  apply KeepsOut.ite | apply Keeps.ite | fail_if_no_progress apply Keeps.of) | split

/-! Machine/Sched.lean. -/

theorem Keeps.putBucket {k₀ : State} {s : State} (hk₀ : Keeps k₀ s) (b : Bucket) : Keeps k₀ (Machine.State.putBucket s b) := by
  unfold Machine.State.putBucket
  try dsimp only
  repeat' first | (with_reducible first | assumption | (intro _) | fail_if_no_progress apply Keeps.of)

theorem Keeps.debit {k₀ : State} {s : State} (hk₀ : Keeps k₀ s) (iid : Nat) (cost : Nat) : Keeps k₀ (Machine.State.debit s iid cost) := by
  unfold Machine.State.debit
  try dsimp only
  repeat' first | (with_reducible first | assumption | apply Keeps.putBucket | apply Keeps.ite | fail_if_no_progress apply Keeps.of) | split

theorem Keeps.endVisit {k₀ : State} {s : State} (hk₀ : Keeps k₀ s) (home : Nat) (clu : Nat) (cls : Nat) (iid : Nat) : Keeps k₀
    (Machine.State.endVisit s home clu cls iid) := by
  unfold Machine.State.endVisit
  try dsimp only
  repeat' first | (with_reducible first | assumption | (intro _) | apply Keeps.putSched | apply Keeps.addDef |
                                  refine Keeps.fst (by assumption) (Keeps.visits ?_ ..) | apply Keeps.visits | apply Keeps.ite |
                                  fail_if_no_progress apply Keeps.of) | split

theorem Keeps.beginVisit {k₀ : State} {s : State} (hk₀ : Keeps k₀ s) (home : Nat) (cls : Nat) (iid : Nat) : Keeps k₀
    (Machine.State.beginVisit s home cls iid) := by
  unfold Machine.State.beginVisit
  try dsimp only
  repeat' first | (with_reducible first | assumption | (intro _) | apply Keeps.putSched | apply Keeps.addDef |
                                  refine Keeps.fst (by assumption) (Keeps.visits ?_ ..) | apply Keeps.visits |
                                  fail_if_no_progress apply Keeps.of)

theorem Keeps.visits {k₀ : State} {s : State} (hk₀ : Keeps k₀ s) (home : Nat) (clu : Nat) (cls : Nat) (n₀ : List Nat) : Keeps k₀
    (Machine.State.visits s home clu cls n₀).1 := by
  induction n₀ generalizing s home clu cls with
  | nil =>
    unfold Machine.State.visits; try dsimp only
    repeat' first | (with_reducible first | assumption | apply ih | (intro _) | apply Keeps.bump | apply Keeps.endVisit |
                                    apply Keeps.beginVisit | apply Keeps.ite) | split
  | cons n₀ ns ih =>
    unfold Machine.State.visits; try dsimp only
    repeat' first | (with_reducible first | assumption | apply ih | (intro _) | apply Keeps.bump | apply Keeps.endVisit |
                                    apply Keeps.beginVisit | apply Keeps.ite) | split

theorem Keeps.rotate {k₀ : State} {s : State} (hk₀ : Keeps k₀ s) (home : Nat) (clu : Nat) (cls : Nat) : Keeps k₀ (Machine.State.rotate s
    home clu cls).1 := by
  unfold Machine.State.rotate
  try dsimp only
  repeat' first | (with_reducible first | assumption | (intro _) | apply Keeps.endVisit |
                                  refine Keeps.fst (by assumption) (Keeps.visits ?_ ..) | apply Keeps.visits | apply Keeps.ite |
                                  fail_if_no_progress apply Keeps.of) | split

theorem Keeps.endVisits {k₀ : State} {s : State} (hk₀ : Keeps k₀ s) (home : Nat) : Keeps k₀ (Machine.State.endVisits s home) := by
  unfold Machine.State.endVisits
  try dsimp only
  repeat' first | (with_reducible first | assumption | (intro _) | apply Keeps.endVisit |
                                  refine Keeps.fst (by assumption) (Keeps.visits ?_ ..) | apply Keeps.visits | apply Keeps.foldl |
                                  apply Keeps.foldlFst | apply Keeps.ite) | split

theorem Keeps.settleVisits {k₀ : State} {s : State} (hk₀ : Keeps k₀ s) : Keeps k₀ (Machine.State.settleVisits s) := by
  unfold Machine.State.settleVisits
  try dsimp only
  repeat' first | (with_reducible first | assumption | (intro _) | refine Keeps.fst (by assumption) (Keeps.visits ?_ ..) |
                                  apply Keeps.visits | apply Keeps.endVisits | apply Keeps.foldl | apply Keeps.foldlFst | apply Keeps.ite) |
                                  split

theorem Keeps.chooseBind {k₀ : State} {s : State} (hk₀ : Keeps k₀ s) (home : Nat) (clu : Nat) : Keeps k₀ (Machine.State.chooseBind s home
    clu).1 := by
  unfold Machine.State.chooseBind
  try dsimp only
  repeat' first | (with_reducible first | assumption | (intro _) | refine Keeps.fst (by assumption) (Keeps.rotate ?_ ..) |
                                  apply Keeps.rotate | apply Keeps.foldl | apply Keeps.foldlFst | fail_if_no_progress apply Keeps.of) |
                                  split

theorem Keeps.bindTo {k₀ : State} {s : State} (hk₀ : Keeps k₀ s) (qid : Nat) (rot : Nat) (home : Nat) (clu : Nat) (idx : Nat) : Keeps k₀
    (Machine.State.bindTo s qid rot home clu idx) := by
  unfold Machine.State.bindTo
  try dsimp only
  repeat' first | (with_reducible first | assumption | (intro _) | apply Keeps.service | apply Keeps.lookup | apply Keeps.putSched |
                                  apply Keeps.addDef | apply Keeps.noteFull | apply Keeps.endVisits | fail_if_no_progress apply Keeps.of) |
                                  split

theorem Keeps.fetchReady {k₀ : State} {s : State} (hk₀ : Keeps k₀ s) : Keeps k₀ (Machine.State.fetchReady s) := by
  unfold Machine.State.fetchReady
  try dsimp only
  repeat' first | (with_reducible first | assumption | (intro _) | apply Keeps.awaitCtx | apply Keeps.foldl | apply Keeps.foldlFst |
                                  apply Keeps.ite) | split

theorem Keeps.execBind {k₀ : State} (home : Nat) (clu : Nat) (slot : Nat) {s : State} (hk₀ : Keeps k₀ s) : KeepsOut k₀ (Machine.execBind
    home clu slot s) := by
  unfold Machine.execBind
  try dsimp only
  repeat' first | (with_reducible first | assumption | apply KeepsOut.next | exact KeepsOut.fault |
                                  refine Keeps.fst (by assumption) (Keeps.chooseBind ?_ ..) | apply Keeps.chooseBind | apply Keeps.bindTo |
                                  apply Keeps.fetchReady | apply KeepsOut.ite | apply Keeps.ite | fail_if_no_progress apply Keeps.of) |
                                  split

theorem Keeps.execPromotion {k₀ : State} (qid : Nat) {s : State} (hk₀ : Keeps k₀ s) : KeepsOut k₀ (Machine.execPromotion qid s) := by
  unfold Machine.execPromotion
  try dsimp only
  repeat' first | (with_reducible first | assumption | (intro _) | apply KeepsOut.next | exact KeepsOut.fault | apply Keeps.bump |
                                  apply Keeps.pulse | apply KeepsOut.ite | apply Keeps.ite | fail_if_no_progress apply Keeps.of) | split

end Sys2Proof.Machine
end
end

