-- ==== Sys2Proof/Laws/KeepsRun.lean ====
section
/-! SUPPORT. Keeps, function by function: descriptors and their accesses, records, telemetry, events, clocks and modes.
Each lemma unfolds its function once and applies the lemma of every function that it calls. -/

section
set_option Elab.async false

namespace Sys2Proof.Machine

/-! Machine/Desc.lean. -/

theorem Keeps.putCkpt {k₀ : State} {s : State} (hk₀ : Keeps k₀ s) (k : Ckpt) : Keeps k₀ (Machine.State.putCkpt s k) := by
  unfold Machine.State.putCkpt
  try dsimp only
  repeat' first | (with_reducible first | assumption | (intro _) | apply Keeps.updSlot | fail_if_no_progress apply Keeps.of) | split

theorem Keeps.fedCkpt {k₀ : State} {s : State} (hk₀ : Keeps k₀ s) (x : Slot) : Keeps k₀ (Machine.State.fedCkpt s x) := by
  unfold Machine.State.fedCkpt
  try dsimp only
  repeat' first | (with_reducible first | assumption | apply Keeps.service | apply Keeps.ite | fail_if_no_progress apply Keeps.of) | split

theorem Keeps.stampDone {k₀ : State} {s : State} (hk₀ : Keeps k₀ s) (clu : Nat) (idx : Nat) : Keeps k₀ (Machine.State.stampDone s clu idx)
    := by
  unfold Machine.State.stampDone
  try dsimp only
  repeat' first | (with_reducible first | assumption | (intro _) | apply Keeps.updSlot)

theorem Keeps.keepRecord {k₀ : State} {s : State} (hk₀ : Keeps k₀ s) (clu : Nat) (idx : Nat) (r : Record) : Keeps k₀
    (Machine.State.keepRecord s clu idx r) := by
  unfold Machine.State.keepRecord
  try dsimp only
  repeat' first | (with_reducible first | assumption | (intro _) | apply Keeps.updSlot | apply Keeps.placeRecord | apply Keeps.ite |
                                  fail_if_no_progress apply Keeps.of) | split

theorem Keeps.accept {k₀ : State} {s : State} (hk₀ : Keeps k₀ s) (x : Slot) : Keeps k₀ (Machine.State.accept s x) := by
  unfold Machine.State.accept
  try dsimp only
  repeat' first | (with_reducible first | assumption | (intro _) | apply Keeps.bump | apply Keeps.updCtx | apply Keeps.updSlot |
                                  apply Keeps.addDef | apply Keeps.debit | apply Keeps.putCkpt | apply Keeps.fedCkpt | apply Keeps.ite |
                                  fail_if_no_progress apply Keeps.of) | split

theorem Keeps.noteSlot {k₀ : State} {s : State} (hk₀ : Keeps k₀ s) (qid : Nat) (ws : List W64) : Keeps k₀ (Machine.State.noteSlot s qid ws)
    := by
  unfold Machine.State.noteSlot
  try dsimp only
  repeat' first | (with_reducible first | assumption | fail_if_no_progress apply Keeps.of)

theorem Keeps.malformed {k₀ : State} {s : State} (hk₀ : Keeps k₀ s) (x : Slot) (cause : Nat) : Keeps k₀ (Machine.State.malformed s x cause)
    := by
  unfold Machine.State.malformed
  try dsimp only
  repeat' first | (with_reducible first | assumption | (intro _) | apply Keeps.updSlot | apply Keeps.endBind | apply Keeps.discardEarly |
                                  apply Keeps.enterError | apply Keeps.furtherError | apply Keeps.latchError | apply Keeps.ite |
                                  fail_if_no_progress apply Keeps.of) | split

theorem Keeps.acceptReady {k₀ : State} {s : State} (hk₀ : Keeps k₀ s) (qid : Nat) (n₀ : Nat) : Keeps k₀ (Machine.State.acceptReady s qid n₀)
    := by
  induction n₀ generalizing s qid with
  | zero =>
    unfold Machine.State.acceptReady; try dsimp only
    repeat' first | (with_reducible first | assumption | apply ih | (intro _) | apply Keeps.accept | apply Keeps.noteSlot |
                                    apply Keeps.malformed | apply Keeps.ite | fail_if_no_progress apply Keeps.of) | split
  | succ n₀ ih =>
    unfold Machine.State.acceptReady; try dsimp only
    repeat' first | (with_reducible first | assumption | apply ih | (intro _) | apply Keeps.accept | apply Keeps.noteSlot |
                                    apply Keeps.malformed | apply Keeps.ite | fail_if_no_progress apply Keeps.of) | split

theorem Keeps.acceptChains {k₀ : State} {s : State} (hk₀ : Keeps k₀ s) (qid : Nat) : Keeps k₀ (Machine.State.acceptChains s qid) := by
  unfold Machine.State.acceptChains
  try dsimp only
  repeat' first | (with_reducible first | assumption | (intro _) | apply Keeps.accept | apply Keeps.foldl | apply Keeps.foldlFst |
                                  apply Keeps.ite) | split

theorem Keeps.acceptMore {k₀ : State} {s : State} (hk₀ : Keeps k₀ s) (qid : Nat) : Keeps k₀ (Machine.State.acceptMore s qid) := by
  unfold Machine.State.acceptMore
  try dsimp only
  repeat' first | (with_reducible first | assumption | apply Keeps.acceptReady | apply Keeps.acceptChains)

theorem Keeps.releaseDone {k₀ : State} {s : State} (hk₀ : Keeps k₀ s) (clu : Nat) (idx : Nat) : Keeps k₀ (Machine.State.releaseDone s clu
    idx) := by
  unfold Machine.State.releaseDone
  try dsimp only
  repeat' first | (with_reducible first | assumption | apply Keeps.freeSlot | apply Keeps.acceptMore | apply Keeps.ite |
                                  fail_if_no_progress apply Keeps.of) | split

theorem Keeps.endChain {k₀ : State} {s : State} (hk₀ : Keeps k₀ s) (x : Slot) (ch : Chain) (closed : Bool) : Keeps k₀
    (Machine.State.endChain s x ch closed) := by
  unfold Machine.State.endChain
  try dsimp only
  repeat' first | (with_reducible first | assumption | (intro _) | apply Keeps.updSlot | apply Keeps.keepRecord | apply Keeps.releaseDone |
                                  fail_if_no_progress apply Keeps.of)

theorem Keeps.placeHeld {k₀ : State} {s : State} (hk₀ : Keeps k₀ s) (x : Slot) (ch : Chain) (closed : Bool) : Keeps k₀
    (Machine.State.placeHeld s x ch closed) := by
  unfold Machine.State.placeHeld
  try dsimp only
  repeat' first | (with_reducible first | assumption | apply Keeps.keepRecord | fail_if_no_progress apply Keeps.of) | split

theorem Keeps.closeTail {k₀ : State} {s : State} (hk₀ : Keeps k₀ s) (x : Slot) : Keeps k₀ (Machine.State.closeTail s x) := by
  unfold Machine.State.closeTail
  try dsimp only
  repeat' first | (with_reducible first | assumption | apply Keeps.orphanReads | apply Keeps.endChain | apply Keeps.placeHeld |
                                  fail_if_no_progress apply Keeps.of) | split

theorem Keeps.goOn {k₀ : State} {s : State} (hk₀ : Keeps k₀ s) (x : Slot) : Keeps k₀ (Machine.State.goOn s x) := by
  unfold Machine.State.goOn
  try dsimp only
  repeat' first | (with_reducible first | assumption | (intro _) | apply Keeps.updSlot | fail_if_no_progress apply Keeps.of)

theorem Keeps.takeAppend {k₀ : State} {s : State} (hk₀ : Keeps k₀ s) (x : Slot) (addr : Nat) (count : Nat) : Keeps k₀
    (Machine.State.takeAppend s x addr count) := by
  unfold Machine.State.takeAppend
  try dsimp only
  repeat' first | (with_reducible first | assumption | apply Keeps.service | apply Keeps.placeHeld | apply Keeps.goOn |
                                  fail_if_no_progress apply Keeps.of) | split

theorem Keeps.chainNext {k₀ : State} {s : State} (hk₀ : Keeps k₀ s) (x : Slot) (ch : Chain) : Keeps k₀ (Machine.State.chainNext s x ch) :=
    by
  unfold Machine.State.chainNext
  try dsimp only
  repeat' first | (with_reducible first | assumption | apply Keeps.service | apply Keeps.closeTail | apply Keeps.goOn | apply Keeps.ite |
                                  fail_if_no_progress apply Keeps.of) | split

theorem Keeps.finish {k₀ : State} {s : State} (hk₀ : Keeps k₀ s) (clu : Nat) (idx : Nat) : Keeps k₀ (Machine.State.finish s clu idx) := by
  unfold Machine.State.finish
  try dsimp only
  repeat' first | (with_reducible first | assumption | (intro _) | apply Keeps.updSlot | apply Keeps.keepRecord | apply Keeps.releaseDone |
                                  apply Keeps.endChain | apply Keeps.chainNext | apply Keeps.ite | fail_if_no_progress apply Keeps.of) |
                                  split

theorem Keeps.takeRecordOut {k₀ : State} {s : State} (hk₀ : Keeps k₀ s) (r : Record) : Keeps k₀ (Machine.State.takeRecordOut s r) := by
  unfold Machine.State.takeRecordOut
  try dsimp only
  repeat' first | (with_reducible first | assumption | (intro _) | apply Keeps.ite | fail_if_no_progress apply Keeps.of) | split

theorem Keeps.pumpStore {k₀ : State} {s : State} (hk₀ : Keeps k₀ s) : Keeps k₀ (Machine.State.pumpStore s) := by
  unfold Machine.State.pumpStore
  try dsimp only
  repeat' first | (with_reducible first | assumption | (intro _) | apply Keeps.updSlot | apply Keeps.placeRecord |
                                  apply Keeps.acceptChains | apply Keeps.releaseDone | fail_if_no_progress apply Keeps.of) | split

theorem Keeps.notWhole {k₀ : State} {s : State} (hk₀ : Keeps k₀ s) (x : Slot) (ws : List W64) (torn : Bool) : Keeps k₀
    (Machine.State.notWhole s x ws torn) := by
  unfold Machine.State.notWhole
  try dsimp only
  repeat' first | (with_reducible first | assumption | (intro _) | apply Keeps.updCtx | apply Keeps.endBind | apply Keeps.ite |
                                  fail_if_no_progress apply Keeps.of) | split

theorem Keeps.errorEnds {k₀ : State} {s : State} (hk₀ : Keeps k₀ s) (qid : Nat) : Keeps k₀ (Machine.State.errorEnds s qid) := by
  unfold Machine.State.errorEnds
  try dsimp only
  repeat' first | (with_reducible first | assumption | (intro _) | apply Keeps.updCtx | apply Keeps.clearResume | apply Keeps.markReady |
                                  fail_if_no_progress apply Keeps.of)

theorem Keeps.proofSlot {k₀ : State} {s : State} (hk₀ : Keeps k₀ s) (x : Slot) (ws : List W64) : Keeps k₀ (Machine.State.proofSlot s x ws)
    := by
  unfold Machine.State.proofSlot
  try dsimp only
  repeat' first | (with_reducible first | assumption | (intro _) | apply Keeps.updSlot | apply Keeps.accept | apply Keeps.noteSlot |
                                  apply Keeps.malformed | apply Keeps.acceptReady | apply Keeps.errorEnds | apply Keeps.ite |
                                  fail_if_no_progress apply Keeps.of) | split

theorem Keeps.wholeSlot {k₀ : State} {s : State} (hk₀ : Keeps k₀ s) (x : Slot) (ws : List W64) : Keeps k₀ (Machine.State.wholeSlot s x ws)
    := by
  unfold Machine.State.wholeSlot
  try dsimp only
  repeat' first | (with_reducible first | assumption | apply Keeps.proofSlot)

theorem Keeps.skipDone {k₀ : State} {s : State} (hk₀ : Keeps k₀ s) (qid : Nat) (n₀ : Nat) : Keeps k₀ (Machine.State.skipDone s qid n₀) := by
  induction n₀ generalizing s qid with
  | zero =>
    unfold Machine.State.skipDone; try dsimp only
    repeat' first | (with_reducible first | assumption | apply ih | (intro _) | apply Keeps.updCtx | apply Keeps.ite |
                                    fail_if_no_progress apply Keeps.of) | split
  | succ n₀ ih =>
    unfold Machine.State.skipDone; try dsimp only
    repeat' first | (with_reducible first | assumption | apply ih | (intro _) | apply Keeps.updCtx | apply Keeps.ite |
                                    fail_if_no_progress apply Keeps.of) | split

theorem Keeps.adoptEnds {k₀ : State} {s : State} (hk₀ : Keeps k₀ s) (qid : Nat) : Keeps k₀ (Machine.State.adoptEnds s qid) := by
  unfold Machine.State.adoptEnds
  try dsimp only
  repeat' first | (with_reducible first | assumption | apply Keeps.noticeTrigger | fail_if_no_progress apply Keeps.of)

theorem Keeps.adoptSlot {k₀ : State} {s : State} (hk₀ : Keeps k₀ s) (x : Slot) (c : QCtx) (m : Nat) (ws : List W64) : Keeps k₀
    (Machine.State.adoptSlot s x c m ws) := by
  unfold Machine.State.adoptSlot
  try dsimp only
  repeat' first | (with_reducible first | assumption | (intro _) | apply Keeps.service | apply Keeps.updCtx | apply Keeps.updSlot |
                                  apply Keeps.endBind | apply Keeps.markReady | apply Keeps.checkIdle | apply Keeps.notWhole |
                                  apply Keeps.skipDone | apply Keeps.adoptEnds | apply Keeps.ite | fail_if_no_progress apply Keeps.of) |
                                  split

theorem Keeps.adoptCheck {k₀ : State} {s : State} (hk₀ : Keeps k₀ s) (qid : Nat) : Keeps k₀ (Machine.State.adoptCheck s qid) := by
  unfold Machine.State.adoptCheck
  try dsimp only
  repeat' first | (with_reducible first | assumption | apply Keeps.adoptEnds | apply Keeps.ite | fail_if_no_progress apply Keeps.of) | split

theorem Keeps.adoptChecks {k₀ : State} {s : State} (hk₀ : Keeps k₀ s) : Keeps k₀ (Machine.State.adoptChecks s) := by
  unfold Machine.State.adoptChecks
  try dsimp only
  repeat' first | (with_reducible first | assumption | (intro _) | apply Keeps.adoptCheck | apply Keeps.foldl | apply Keeps.foldlFst)

theorem Keeps.adoptEntry {k₀ : State} {s : State} (hk₀ : Keeps k₀ s) (x : Slot) (n : Nat) (ws : List W64) : Keeps k₀
    (Machine.State.adoptEntry s x n ws) := by
  unfold Machine.State.adoptEntry
  try dsimp only
  repeat' first | (with_reducible first | assumption | apply Keeps.service | apply Keeps.hit | apply Keeps.proofSlot | apply Keeps.ite |
                                  fail_if_no_progress apply Keeps.of) | split

theorem Keeps.seekStep {k₀ : State} {s : State} (hk₀ : Keeps k₀ s) (x : Slot) (ch : Chain) : Keeps k₀ (Machine.State.seekStep s x ch) := by
  unfold Machine.State.seekStep
  try dsimp only
  repeat' first | (with_reducible first | assumption | (intro _) | apply Keeps.service | apply Keeps.updSlot | apply Keeps.ite |
                                  fail_if_no_progress apply Keeps.of) | split

theorem Keeps.readAgain {k₀ : State} {s : State} (hk₀ : Keeps k₀ s) (a : Access) : Keeps k₀ (Machine.State.readAgain s a) := by
  unfold Machine.State.readAgain
  try dsimp only
  repeat' first | (with_reducible first | assumption | apply Keeps.serviceAgain)

theorem Keeps.parkOn {k₀ : State} {s : State} (hk₀ : Keeps k₀ s) (x : Slot) : Keeps k₀ (Machine.State.parkOn s x) := by
  unfold Machine.State.parkOn
  try dsimp only
  repeat' first | (with_reducible first | assumption | (intro _) | apply Keeps.updSlot | apply Keeps.ite |
                                  fail_if_no_progress apply Keeps.of) | split

theorem Keeps.execSlotReadResponse {k₀ : State} (aid : Nat) (ans : Answer) {s : State} (hk₀ : Keeps k₀ s) : KeepsOut k₀
    (Machine.execSlotReadResponse aid ans s) := by
  unfold Machine.execSlotReadResponse
  try dsimp only
  repeat' first | (with_reducible first | assumption | (intro _) | apply KeepsOut.next | exact KeepsOut.fault | apply Keeps.drainHeld |
                                  apply Keeps.readEnds | refine Keeps.fst (by assumption) (Keeps.land ?_ ..) | apply Keeps.land |
                                  apply Keeps.landOrphan | apply Keeps.closeTail | apply Keeps.chainNext | apply Keeps.notWhole |
                                  apply Keeps.wholeSlot | apply Keeps.adoptSlot | apply Keeps.readAgain | apply Keeps.parkOn |
                                  apply KeepsOut.ite | apply Keeps.ite | fail_if_no_progress apply Keeps.of) | split

theorem Keeps.execTailLineReadResponse {k₀ : State} (aid : Nat) (ans : Answer) {s : State} (hk₀ : Keeps k₀ s) : KeepsOut k₀
    (Machine.execTailLineReadResponse aid ans s) := by
  unfold Machine.execTailLineReadResponse
  try dsimp only
  repeat' first | (with_reducible first | assumption | (intro _) | apply KeepsOut.next | exact KeepsOut.fault | apply Keeps.service |
                                  apply Keeps.drainHeld | apply Keeps.readEnds | apply Keeps.updSlot |
                                  refine Keeps.fst (by assumption) (Keeps.land ?_ ..) | apply Keeps.land | apply Keeps.landOrphan |
                                  apply Keeps.closeTail | apply Keeps.takeAppend | apply Keeps.seekStep | apply Keeps.readAgain |
                                  apply Keeps.parkOn | apply KeepsOut.ite | apply Keeps.ite | fail_if_no_progress apply Keeps.of) | split

theorem Keeps.execParkTest {k₀ : State} (clu : Nat) (slot : Nat) {s : State} (hk₀ : Keeps k₀ s) : KeepsOut k₀ (Machine.execParkTest clu slot
    s) := by
  unfold Machine.execParkTest
  try dsimp only
  repeat' first | (with_reducible first | assumption | (intro _) | apply KeepsOut.next | exact KeepsOut.fault | apply Keeps.service |
                                  apply Keeps.updSlot | apply KeepsOut.ite | apply Keeps.ite | fail_if_no_progress apply Keeps.of) | split

theorem Keeps.execParkCeil {k₀ : State} (clu : Nat) (slot : Nat) {s : State} (hk₀ : Keeps k₀ s) : KeepsOut k₀ (Machine.execParkCeil clu slot
    s) := by
  unfold Machine.execParkCeil
  try dsimp only
  repeat' first | (with_reducible first | assumption | apply KeepsOut.next | exact KeepsOut.fault | apply Keeps.logErr |
                                  apply Keeps.closeTail | apply KeepsOut.ite | apply Keeps.ite | fail_if_no_progress apply Keeps.of) | split

theorem Keeps.execSlotReread {k₀ : State} (qid : Nat) {s : State} (hk₀ : Keeps k₀ s) : KeepsOut k₀ (Machine.execSlotReread qid s) := by
  unfold Machine.execSlotReread
  try dsimp only
  repeat' first | (with_reducible first | assumption | (intro _) | apply KeepsOut.next | exact KeepsOut.fault | apply Keeps.service |
                                  apply Keeps.addReady | apply Keeps.markReady | apply KeepsOut.ite | apply Keeps.ite |
                                  fail_if_no_progress apply Keeps.of) | split

theorem Keeps.execTornCeilReached {k₀ : State} (qid : Nat) {s : State} (hk₀ : Keeps k₀ s) : KeepsOut k₀ (Machine.execTornCeilReached qid s)
    := by
  unfold Machine.execTornCeilReached
  try dsimp only
  repeat' first | (with_reducible first | assumption | (intro _) | apply KeepsOut.next | exact KeepsOut.fault | apply Keeps.enterError |
                                  apply Keeps.furtherError | apply Keeps.noteSlot | apply Keeps.malformed | apply KeepsOut.ite |
                                  apply Keeps.ite | fail_if_no_progress apply Keeps.of) | split

theorem Keeps.execSlotReadCeil {k₀ : State} (aid : Nat) {s : State} (hk₀ : Keeps k₀ s) : KeepsOut k₀ (Machine.execSlotReadCeil aid s) := by
  unfold Machine.execSlotReadCeil
  try dsimp only
  repeat' first | (with_reducible first | assumption | apply KeepsOut.next | exact KeepsOut.fault | apply Keeps.drainHeld |
                                  apply Keeps.quarantine | apply Keeps.readAgain | apply KeepsOut.ite | apply Keeps.ite |
                                  fail_if_no_progress apply Keeps.of) | split

/-! Machine/Data.lean. -/

theorem Keeps.execPoolLineGrant {k₀ : State} (clu : Nat) {s : State} (hk₀ : Keeps k₀ s) : KeepsOut k₀ (Machine.execPoolLineGrant clu s) :=
    by
  unfold Machine.execPoolLineGrant
  try dsimp only
  repeat' first | (with_reducible first | assumption | (intro _) | apply KeepsOut.next | exact KeepsOut.fault | apply Keeps.updSlot |
                                  apply KeepsOut.ite | apply Keeps.ite | fail_if_no_progress apply Keeps.of) | split

/-! Machine/Replay.lean. -/

theorem Keeps.dropWrites {k₀ : State} {s : State} (hk₀ : Keeps k₀ s) (x : Slot) (num : Nat) : Keeps k₀ (Machine.State.dropWrites s x num) :=
    by
  unfold Machine.State.dropWrites
  try dsimp only
  repeat' first | (with_reducible first | assumption | (intro _) | fail_if_no_progress apply Keeps.of)

theorem Keeps.dropReads {k₀ : State} {s : State} (hk₀ : Keeps k₀ s) (x : Slot) (num : Nat) : Keeps k₀ (Machine.State.dropReads s x num) :=
    by
  unfold Machine.State.dropReads
  try dsimp only
  repeat' first | (with_reducible first | assumption | (intro _) | fail_if_no_progress apply Keeps.of)

theorem Keeps.dropAttempt {k₀ : State} {s : State} (hk₀ : Keeps k₀ s) (clu : Nat) (idx : Nat) (num : Nat) : Keeps k₀
    (Machine.State.dropAttempt s clu idx num) := by
  unfold Machine.State.dropAttempt
  try dsimp only
  repeat' first | (with_reducible first | assumption | (intro _) | apply Keeps.updSlot | apply Keeps.dropWrites | apply Keeps.dropReads |
                                  apply Keeps.ite | fail_if_no_progress apply Keeps.of) | split

theorem Keeps.countReplays {k₀ : State} {s : State} (hk₀ : Keeps k₀ s) (clu : Nat) (idx : Nat) (n : Nat) : Keeps k₀
    (Machine.State.countReplays s clu idx n) := by
  unfold Machine.State.countReplays
  try dsimp only
  repeat' first | (with_reducible first | assumption | (intro _) | apply Keeps.bump | apply Keeps.pulse | apply Keeps.addIs3 |
                                  apply Keeps.countCtx | apply Keeps.updSlot | apply Keeps.foldl | apply Keeps.foldlFst |
                                  fail_if_no_progress apply Keeps.of) | split

theorem Keeps.beginAttempt {k₀ : State} {s : State} (hk₀ : Keeps k₀ s) (clu : Nat) (idx : Nat) (num : Nat) : Keeps k₀
    (Machine.State.beginAttempt s clu idx num) := by
  unfold Machine.State.beginAttempt
  try dsimp only
  repeat' first | (with_reducible first | assumption | (intro _) | apply Keeps.updSlot | apply Keeps.countReplays |
                                  fail_if_no_progress apply Keeps.of)

theorem Keeps.settle {k₀ : State} {s : State} (hk₀ : Keeps k₀ s) (clu : Nat) (idx : Nat) : Keeps k₀ (Machine.State.settle s clu idx) := by
  unfold Machine.State.settle
  try dsimp only
  repeat' first | (with_reducible first | assumption | (intro _) | apply Keeps.updSlot | apply Keeps.orphanReads | apply Keeps.finish |
                                  apply Keeps.ite | fail_if_no_progress apply Keeps.of) | split

theorem Keeps.dropLoaves {k₀ : State} {s : State} (hk₀ : Keeps k₀ s) (x : Slot) (n : Nat) : Keeps k₀ (Machine.State.dropLoaves s x n) := by
  unfold Machine.State.dropLoaves
  try dsimp only
  repeat' first | (with_reducible first | assumption | (intro _) | apply Keeps.updSlot | apply Keeps.dropWrites | apply Keeps.dropReads |
                                  apply Keeps.foldl | apply Keeps.foldlFst | apply Keeps.ite | fail_if_no_progress apply Keeps.of) | split

theorem Keeps.dropFrom {k₀ : State} {s : State} (hk₀ : Keeps k₀ s) (x : Slot) (num : Nat) : Keeps k₀ (Machine.State.dropFrom s x num) := by
  unfold Machine.State.dropFrom
  try dsimp only
  repeat' first | (with_reducible first | assumption | (intro _) | apply Keeps.settle | apply Keeps.dropLoaves)

theorem Keeps.endWith {k₀ : State} {s : State} (hk₀ : Keeps k₀ s) (clu : Nat) (idx : Nat) (status : Nat) (detail : BitVec 6) (w5 : Nat) (bad
    : Option Nat) : Keeps k₀ (Machine.State.endWith s clu idx status detail w5 bad) := by
  unfold Machine.State.endWith
  try dsimp only
  repeat' first | (with_reducible first | assumption | (intro _) | apply Keeps.logErr | apply Keeps.updSlot | apply Keeps.settle |
                                  apply Keeps.dropLoaves | apply Keeps.dropFrom | apply Keeps.ite | fail_if_no_progress apply Keeps.of) |
                                  split

theorem Keeps.endCut {k₀ : State} {s : State} (hk₀ : Keeps k₀ s) (clu : Nat) (idx : Nat) (p : Nat) (status : Nat) (detail : BitVec 6) (w5 :
    Nat) : Keeps k₀ (Machine.State.endCut s clu idx p status detail w5) := by
  unfold Machine.State.endCut
  try dsimp only
  repeat' first | (with_reducible first | assumption | (intro _) | apply Keeps.bump | apply Keeps.updSlot | apply Keeps.settle |
                                  apply Keeps.dropLoaves | fail_if_no_progress apply Keeps.of) | split

theorem Keeps.walkFault {k₀ : State} {s : State} (hk₀ : Keeps k₀ s) (clu : Nat) (idx : Nat) : Keeps k₀ (Machine.State.walkFault s clu idx)
    := by
  unfold Machine.State.walkFault
  try dsimp only
  repeat' first | (with_reducible first | assumption | (intro _) | apply Keeps.endCut | apply Keeps.ite |
                                  fail_if_no_progress apply Keeps.of) | split

theorem Keeps.logReplay {k₀ : State} {s : State} (hk₀ : Keeps k₀ s) (x : Slot) (code : Nat) (detail : BitVec 8) (arg1 : Nat) : Keeps k₀
    (Machine.State.logReplay s x code detail arg1) := by
  unfold Machine.State.logReplay
  try dsimp only
  repeat' first | (with_reducible first | assumption | apply Keeps.logErr)

theorem Keeps.internalFault {k₀ : State} {s : State} (hk₀ : Keeps k₀ s) (clu : Nat) (idx : Nat) (num : Nat) (code : Nat) : Keeps k₀
    (Machine.State.internalFault s clu idx num code) := by
  unfold Machine.State.internalFault
  try dsimp only
  repeat' first | (with_reducible first | assumption | (intro _) | apply Keeps.updSlot | apply Keeps.dropAttempt |
                                  apply Keeps.beginAttempt | apply Keeps.dropFrom | apply Keeps.logReplay | apply Keeps.ite |
                                  fail_if_no_progress apply Keeps.of) | split

theorem Keeps.fabricFault {k₀ : State} {s : State} (hk₀ : Keeps k₀ s) (clu : Nat) (idx : Nat) (num : Nat) (code : Nat) (read : Bool) (detail
    : BitVec 6) (addr : Nat) : Keeps k₀ (Machine.State.fabricFault s clu idx num code read detail addr) := by
  unfold Machine.State.fabricFault
  try dsimp only
  repeat' first | (with_reducible first | assumption | (intro _) | apply Keeps.updSlot | apply Keeps.dropAttempt |
                                  apply Keeps.beginAttempt | apply Keeps.dropFrom | apply Keeps.logReplay | apply Keeps.ite |
                                  fail_if_no_progress apply Keeps.of) | split

theorem Keeps.execReplayBackoffEnd {k₀ : State} (clu : Nat) (slot : Nat) (loaf : Nat) {s : State} (hk₀ : Keeps k₀ s) : KeepsOut k₀
    (Machine.execReplayBackoffEnd clu slot loaf s) := by
  unfold Machine.execReplayBackoffEnd
  try dsimp only
  repeat' first | (with_reducible first | assumption | (intro _) | apply KeepsOut.next | exact KeepsOut.fault | apply Keeps.updSlot |
                                  apply Keeps.beginAttempt | apply KeepsOut.ite | apply Keeps.ite | fail_if_no_progress apply Keeps.of) |
                                  split

theorem Keeps.execFabMaxExceeded {k₀ : State} (clu : Nat) (slot : Nat) {s : State} (hk₀ : Keeps k₀ s) : KeepsOut k₀
    (Machine.execFabMaxExceeded clu slot s) := by
  unfold Machine.execFabMaxExceeded
  try dsimp only
  repeat' first | (with_reducible first | assumption | apply KeepsOut.next | exact KeepsOut.fault | apply Keeps.bump | apply Keeps.endWith |
                                  apply KeepsOut.ite | apply Keeps.ite | fail_if_no_progress apply Keeps.of) | split

theorem Keeps.execReleaseLimit {k₀ : State} (clu : Nat) (slot : Nat) {s : State} (hk₀ : Keeps k₀ s) : KeepsOut k₀ (Machine.execReleaseLimit
    clu slot s) := by
  unfold Machine.execReleaseLimit
  try dsimp only
  repeat' first | (with_reducible first | assumption | apply KeepsOut.next | exact KeepsOut.fault | apply Keeps.endWith |
                                  apply KeepsOut.ite | apply Keeps.ite | fail_if_no_progress apply Keeps.of) | split

theorem Keeps.goOutOfService {k₀ : State} {s : State} (hk₀ : Keeps k₀ s) (clu : Nat) (cause : Nat) : Keeps k₀ (Machine.State.goOutOfService
    s clu cause) := by
  unfold Machine.State.goOutOfService
  try dsimp only
  repeat' first | (with_reducible first | assumption | (intro _) | apply Keeps.setFld | apply Keeps.logErr | apply Keeps.foldl |
                                  apply Keeps.foldlFst | apply Keeps.ite | fail_if_no_progress apply Keeps.of) | split

theorem Keeps.retireSlot {k₀ : State} {s : State} (hk₀ : Keeps k₀ s) (x : Slot) (code : Nat) : Keeps k₀ (Machine.State.retireSlot s x code)
    := by
  unfold Machine.State.retireSlot
  try dsimp only
  repeat' first | (with_reducible first | assumption | apply Keeps.setFld | apply Keeps.logErr | apply Keeps.pulse | apply Keeps.noteFull |
                                  apply Keeps.goOutOfService | apply Keeps.ite) | split

theorem Keeps.placeMoved {k₀ : State} {s : State} (hk₀ : Keeps k₀ s) (y : Slot) (clu : Nat) (idx : Nat) (bridged : Bool) : Keeps k₀
    (Machine.State.placeMoved s y clu idx bridged) := by
  unfold Machine.State.placeMoved
  try dsimp only
  repeat' first | (with_reducible first | assumption | (intro _) | apply Keeps.setFld | apply Keeps.noteFull | apply Keeps.putCkpt |
                                  apply Keeps.countReplays | apply Keeps.settle | apply Keeps.ite | fail_if_no_progress apply Keeps.of) |
                                  split

theorem Keeps.endLost {k₀ : State} {s : State} (hk₀ : Keeps k₀ s) (x : Slot) (code : Nat) : Keeps k₀ (Machine.State.endLost s x code) := by
  unfold Machine.State.endLost
  try dsimp only
  repeat' first | (with_reducible first | assumption | (intro _) | apply Keeps.logErr | apply Keeps.updSlot | apply Keeps.endWith |
                                  fail_if_no_progress apply Keeps.of)

theorem Keeps.moveAway {k₀ : State} {s : State} (hk₀ : Keeps k₀ s) (clu : Nat) (idx : Nat) : Keeps k₀ (Machine.State.moveAway s clu idx) :=
    by
  unfold Machine.State.moveAway
  try dsimp only
  repeat' first | (with_reducible first | assumption | (intro _) | apply Keeps.setFld | apply Keeps.bump | apply Keeps.placeMoved |
                                  apply Keeps.endLost | apply Keeps.ite | fail_if_no_progress apply Keeps.of) | split

theorem Keeps.leaveNow {k₀ : State} {s : State} (hk₀ : Keeps k₀ s) (clu : Nat) (idx : Nat) : Keeps k₀ (Machine.State.leaveNow s clu idx) :=
    by
  unfold Machine.State.leaveNow
  try dsimp only
  repeat' first | (with_reducible first | assumption | apply Keeps.moveAway | apply Keeps.ite | fail_if_no_progress apply Keeps.of) | split

theorem Keeps.execSlotRetired {k₀ : State} (clu : Nat) (slot : Nat) {s : State} (hk₀ : Keeps k₀ s) : KeepsOut k₀ (Machine.execSlotRetired
    clu slot s) := by
  unfold Machine.execSlotRetired
  try dsimp only
  repeat' first | (with_reducible first | assumption | (intro _) | apply KeepsOut.next | exact KeepsOut.fault | apply Keeps.updSlot |
                                  apply Keeps.orphanReads | apply Keeps.dropWrites | apply Keeps.dropReads | apply Keeps.retireSlot |
                                  apply Keeps.leaveNow | apply Keeps.foldl | apply Keeps.foldlFst | apply KeepsOut.ite | apply Keeps.ite |
                                  fail_if_no_progress apply Keeps.of) | split

theorem Keeps.execDescriptorPlaced {k₀ : State} (clu : Nat) {s : State} (hk₀ : Keeps k₀ s) : KeepsOut k₀ (Machine.execDescriptorPlaced clu
    s) := by
  unfold Machine.execDescriptorPlaced
  try dsimp only
  repeat' first | (with_reducible first | assumption | (intro _) | apply KeepsOut.next | exact KeepsOut.fault | apply Keeps.placeMoved |
                                  apply KeepsOut.ite | apply Keeps.ite | fail_if_no_progress apply Keeps.of) | split

theorem Keeps.settleMoving {k₀ : State} {s : State} (hk₀ : Keeps k₀ s) (n₀ : Nat) : Keeps k₀ (Machine.State.settleMoving s n₀) := by
  induction n₀ generalizing s with
  | zero =>
    unfold Machine.State.settleMoving; try dsimp only
    repeat' first | (with_reducible first | assumption | apply ih | (intro _) | apply Keeps.placeRecord | apply Keeps.foldl |
                                    apply Keeps.foldlFst | fail_if_no_progress apply Keeps.of) | split
  | succ n₀ ih =>
    unfold Machine.State.settleMoving; try dsimp only
    repeat' first | (with_reducible first | assumption | apply ih | (intro _) | apply Keeps.placeRecord | apply Keeps.foldl |
                                    apply Keeps.foldlFst | fail_if_no_progress apply Keeps.of) | split

theorem Keeps.execStoreBridgeTransfer {k₀ : State} {s : State} (hk₀ : Keeps k₀ s) : KeepsOut k₀ (Machine.execStoreBridgeTransfer s) := by
  unfold Machine.execStoreBridgeTransfer
  try dsimp only
  repeat' first | (with_reducible first | assumption | apply KeepsOut.next | exact KeepsOut.fault | apply KeepsOut.ite | apply Keeps.ite |
                                  fail_if_no_progress apply Keeps.of) | split

theorem Keeps.restartSlot {k₀ : State} {s : State} (hk₀ : Keeps k₀ s) (x : Slot) : Keeps k₀ (Machine.State.restartSlot s x) := by
  unfold Machine.State.restartSlot
  try dsimp only
  repeat' first | (with_reducible first | assumption | (intro _) | apply Keeps.updSlot | apply Keeps.dropAttempt |
                                  apply Keeps.countReplays | apply Keeps.settle | apply Keeps.dropLoaves | apply Keeps.endLost |
                                  apply Keeps.foldl | apply Keeps.foldlFst | apply Keeps.ite | fail_if_no_progress apply Keeps.of) | split

theorem Keeps.restartCluster {k₀ : State} {s : State} (hk₀ : Keeps k₀ s) (clu : Nat) : Keeps k₀ (Machine.State.restartCluster s clu) := by
  unfold Machine.State.restartCluster
  try dsimp only
  repeat' first | (with_reducible first | assumption | (intro _) | apply Keeps.restartSlot | apply Keeps.foldl | apply Keeps.foldlFst)

theorem Keeps.slotFault {k₀ : State} {s : State} (hk₀ : Keeps k₀ s) (x : Slot) : Keeps k₀ (Machine.State.slotFault s x) := by
  unfold Machine.State.slotFault
  try dsimp only
  repeat' first | (with_reducible first | assumption | (intro _) | apply Keeps.updSlot | apply Keeps.dropAttempt | apply Keeps.logReplay |
                                  apply Keeps.restartSlot | apply Keeps.foldl | apply Keeps.foldlFst | apply Keeps.ite |
                                  fail_if_no_progress apply Keeps.of) | split

/-! Machine/Move.lean. -/

theorem Keeps.resumeFrom {k₀ : State} {s : State} (hk₀ : Keeps k₀ s) (x : Slot) (ws : List W64) : Keeps k₀ (Machine.State.resumeFrom s x ws)
    := by
  unfold Machine.State.resumeFrom
  try dsimp only
  repeat' first | (with_reducible first | assumption | (intro _) | apply Keeps.updSlot | apply Keeps.putCkpt | apply Keeps.fedCkpt |
                                  apply Keeps.endWith | apply Keeps.ite | fail_if_no_progress apply Keeps.of) | split

theorem Keeps.beginData {k₀ : State} (k : OpKind) (clu : Nat) (slot : Nat) {s : State} (hk₀ : Keeps k₀ s) : KeepsOut k₀ (Machine.beginData k
    clu slot s) := by
  unfold Machine.beginData
  try dsimp only
  repeat' first | (with_reducible first | assumption | (intro _) | apply KeepsOut.next | exact KeepsOut.fault | apply Keeps.updSlot |
                                  apply Keeps.resumeFrom | apply KeepsOut.ite | apply Keeps.ite | fail_if_no_progress apply Keeps.of) |
                                  split

theorem Keeps.execCopy {k₀ : State} (clu : Nat) (slot : Nat) {s : State} (hk₀ : Keeps k₀ s) : KeepsOut k₀ (Machine.execCopy clu slot s) :=
    by
  unfold Machine.execCopy
  try dsimp only
  repeat' first | (with_reducible first | assumption | apply KeepsOut.next | exact KeepsOut.fault | apply Keeps.beginData)

theorem Keeps.execGather {k₀ : State} (clu : Nat) (slot : Nat) {s : State} (hk₀ : Keeps k₀ s) : KeepsOut k₀ (Machine.execGather clu slot s)
    := by
  unfold Machine.execGather
  try dsimp only
  repeat' first | (with_reducible first | assumption | apply KeepsOut.next | exact KeepsOut.fault | apply Keeps.beginData)

theorem Keeps.execScatter {k₀ : State} (clu : Nat) (slot : Nat) {s : State} (hk₀ : Keeps k₀ s) : KeepsOut k₀ (Machine.execScatter clu slot
    s) := by
  unfold Machine.execScatter
  try dsimp only
  repeat' first | (with_reducible first | assumption | apply KeepsOut.next | exact KeepsOut.fault | apply Keeps.beginData)

theorem Keeps.execSglist {k₀ : State} (clu : Nat) (slot : Nat) {s : State} (hk₀ : Keeps k₀ s) : KeepsOut k₀ (Machine.execSglist clu slot s)
    := by
  unfold Machine.execSglist
  try dsimp only
  repeat' first | (with_reducible first | assumption | apply KeepsOut.next | exact KeepsOut.fault | apply Keeps.beginData)

theorem Keeps.execFill {k₀ : State} (clu : Nat) (slot : Nat) {s : State} (hk₀ : Keeps k₀ s) : KeepsOut k₀ (Machine.execFill clu slot s) :=
    by
  unfold Machine.execFill
  try dsimp only
  repeat' first | (with_reducible first | assumption | apply KeepsOut.next | exact KeepsOut.fault | apply Keeps.beginData)

theorem Keeps.execCheck {k₀ : State} (clu : Nat) (slot : Nat) {s : State} (hk₀ : Keeps k₀ s) : KeepsOut k₀ (Machine.execCheck clu slot s) :=
    by
  unfold Machine.execCheck
  try dsimp only
  repeat' first | (with_reducible first | assumption | apply KeepsOut.next | exact KeepsOut.fault | apply Keeps.beginData)

theorem Keeps.execPiInsert {k₀ : State} (clu : Nat) (slot : Nat) {s : State} (hk₀ : Keeps k₀ s) : KeepsOut k₀ (Machine.execPiInsert clu slot
    s) := by
  unfold Machine.execPiInsert
  try dsimp only
  repeat' first | (with_reducible first | assumption | apply KeepsOut.next | exact KeepsOut.fault | apply Keeps.beginData)

theorem Keeps.execPiStrip {k₀ : State} (clu : Nat) (slot : Nat) {s : State} (hk₀ : Keeps k₀ s) : KeepsOut k₀ (Machine.execPiStrip clu slot
    s) := by
  unfold Machine.execPiStrip
  try dsimp only
  repeat' first | (with_reducible first | assumption | apply KeepsOut.next | exact KeepsOut.fault | apply Keeps.beginData)

theorem Keeps.execPiVerify {k₀ : State} (clu : Nat) (slot : Nat) {s : State} (hk₀ : Keeps k₀ s) : KeepsOut k₀ (Machine.execPiVerify clu slot
    s) := by
  unfold Machine.execPiVerify
  try dsimp only
  repeat' first | (with_reducible first | assumption | apply KeepsOut.next | exact KeepsOut.fault | apply Keeps.beginData)

theorem Keeps.execLink {k₀ : State} (clu : Nat) (slot : Nat) {s : State} (hk₀ : Keeps k₀ s) : KeepsOut k₀ (Machine.execLink clu slot s) :=
    by
  unfold Machine.execLink
  try dsimp only
  repeat' first | (with_reducible first | assumption | (intro _) | apply KeepsOut.next | exact KeepsOut.fault | apply Keeps.service |
                                  apply Keeps.updSlot | apply Keeps.seekStep | apply KeepsOut.ite | apply Keeps.ite |
                                  fail_if_no_progress apply Keeps.of) | split

theorem Keeps.execFence {k₀ : State} (clu : Nat) (slot : Nat) {s : State} (hk₀ : Keeps k₀ s) : KeepsOut k₀ (Machine.execFence clu slot s) :=
    by
  unfold Machine.execFence
  try dsimp only
  repeat' first | (with_reducible first | assumption | (intro _) | apply KeepsOut.next | exact KeepsOut.fault | apply Keeps.updSlot |
                                  apply KeepsOut.ite | apply Keeps.ite | fail_if_no_progress apply Keeps.of) | split

theorem Keeps.execFenceComplete {k₀ : State} (clu : Nat) (slot : Nat) {s : State} (hk₀ : Keeps k₀ s) : KeepsOut k₀
    (Machine.execFenceComplete clu slot s) := by
  unfold Machine.execFenceComplete
  try dsimp only
  repeat' first | (with_reducible first | assumption | apply KeepsOut.next | exact KeepsOut.fault | apply Keeps.finish |
                                  apply KeepsOut.ite | apply Keeps.ite | fail_if_no_progress apply Keeps.of) | split

theorem Keeps.execSignal {k₀ : State} (clu : Nat) (slot : Nat) {s : State} (hk₀ : Keeps k₀ s) : KeepsOut k₀ (Machine.execSignal clu slot s)
    := by
  unfold Machine.execSignal
  try dsimp only
  repeat' first | (with_reducible first | assumption | (intro _) | apply KeepsOut.next | exact KeepsOut.fault | apply Keeps.updSlot |
                                  apply KeepsOut.ite | apply Keeps.ite | fail_if_no_progress apply Keeps.of) | split

theorem Keeps.execSignalPulse {k₀ : State} (clu : Nat) (slot : Nat) {s : State} (hk₀ : Keeps k₀ s) : KeepsOut k₀ (Machine.execSignalPulse
    clu slot s) := by
  unfold Machine.execSignalPulse
  try dsimp only
  repeat' first | (with_reducible first | assumption | apply KeepsOut.next | exact KeepsOut.fault | apply Keeps.pulse | apply Keeps.finish |
                                  apply KeepsOut.ite | apply Keeps.ite | fail_if_no_progress apply Keeps.of) | split

theorem Keeps.execWait {k₀ : State} (clu : Nat) (slot : Nat) {s : State} (hk₀ : Keeps k₀ s) : KeepsOut k₀ (Machine.execWait clu slot s) :=
    by
  unfold Machine.execWait
  try dsimp only
  repeat' first | (with_reducible first | assumption | (intro _) | apply KeepsOut.next | exact KeepsOut.fault | apply Keeps.updSlot |
                                  apply KeepsOut.ite | apply Keeps.ite | fail_if_no_progress apply Keeps.of) | split

theorem Keeps.clearSeenFlag {k₀ : State} {s : State} (hk₀ : Keeps k₀ s) (clu : Nat) (f : Nat) : Keeps k₀ (Machine.State.clearSeenFlag s clu
    f) := by
  unfold Machine.State.clearSeenFlag
  try dsimp only
  repeat' first | (with_reducible first | assumption | (intro _) | apply Keeps.clearWaitFlag | fail_if_no_progress apply Keeps.of)

theorem Keeps.execWaitFlagSeen {k₀ : State} (clu : Nat) (f : Nat) {s : State} (hk₀ : Keeps k₀ s) : KeepsOut k₀ (Machine.execWaitFlagSeen clu
    f s) := by
  unfold Machine.execWaitFlagSeen
  try dsimp only
  repeat' first | (with_reducible first | assumption | (intro _) | apply KeepsOut.next | exact KeepsOut.fault | apply Keeps.finish |
                                  apply Keeps.clearSeenFlag | apply Keeps.foldl | apply Keeps.foldlFst | apply KeepsOut.ite |
                                  apply Keeps.ite | fail_if_no_progress apply Keeps.of) | split

theorem Keeps.execWaitTimeout {k₀ : State} (clu : Nat) (slot : Nat) {s : State} (hk₀ : Keeps k₀ s) : KeepsOut k₀ (Machine.execWaitTimeout
    clu slot s) := by
  unfold Machine.execWaitTimeout
  try dsimp only
  repeat' first | (with_reducible first | assumption | (intro _) | apply KeepsOut.next | exact KeepsOut.fault | apply Keeps.updSlot |
                                  apply Keeps.finish | apply KeepsOut.ite | apply Keeps.ite | fail_if_no_progress apply Keeps.of) | split

theorem Keeps.execNop {k₀ : State} (clu : Nat) (slot : Nat) {s : State} (hk₀ : Keeps k₀ s) : KeepsOut k₀ (Machine.execNop clu slot s) := by
  unfold Machine.execNop
  try dsimp only
  repeat' first | (with_reducible first | assumption | apply KeepsOut.next | exact KeepsOut.fault | apply Keeps.finish |
                                  apply KeepsOut.ite | apply Keeps.ite | fail_if_no_progress apply Keeps.of) | split

theorem Keeps.issueData {k₀ : State} {s : State} (hk₀ : Keeps k₀ s) (x : Slot) (h : Held) (spans : List (Nat × Nat × Nat)) (losers : List
    Nat) : KeepsOpt k₀ (Machine.State.issueData s x h spans losers) := by
  unfold Machine.State.issueData
  try dsimp only
  repeat' first | (with_reducible first | assumption | (intro _) | apply KeepsOpt.some | exact KeepsOpt.none | apply Keeps.issueAt |
                                  refine KeepsOpt.out (by assumption) (Keeps.portGrant ?_ ..) | apply Keeps.portGrant | apply KeepsOpt.map |
                                  apply KeepsOpt.ite | apply Keeps.ite | apply KeepsOpt.mapOf) | split

theorem Keeps.tookTurn {k₀ : State} {s : State} (hk₀ : Keeps k₀ s) (key : Nat) (idx : Nat) : Keeps k₀ (Machine.State.tookTurn s key idx) :=
    by
  unfold Machine.State.tookTurn
  try dsimp only
  repeat' first | (with_reducible first | assumption | fail_if_no_progress apply Keeps.of)

theorem Keeps.execLensHoldExpiry {k₀ : State} (clu : Nat) (slot : Nat) {s : State} (hk₀ : Keeps k₀ s) : KeepsOut k₀
    (Machine.execLensHoldExpiry clu slot s) := by
  unfold Machine.execLensHoldExpiry
  try dsimp only
  repeat' first | (with_reducible first | assumption | (intro _) | apply KeepsOut.next | exact KeepsOut.fault | apply Keeps.bump |
                                  apply Keeps.updSlot | apply KeepsOut.ite | apply Keeps.ite | fail_if_no_progress apply Keeps.of) | split

theorem Keeps.issueRead {k₀ : State} {s : State} (hk₀ : Keeps k₀ s) (x : Slot) (k : ResKind) (h : Held) (spans : List (Nat × Nat × Nat))
    (losers : List Nat) (rows : Nat → List Lines) (f : Slot → Slot) : Keeps k₀ (Machine.State.issueRead s x k h spans losers rows f) := by
  unfold Machine.State.issueRead
  try dsimp only
  repeat' first | (with_reducible first | assumption | (intro _) | apply Keeps.updSlot |
                                  refine KeepsOpt.out (by assumption) (Keeps.issueData ?_ ..) | apply Keeps.issueData |
                                  apply Keeps.tookTurn | apply KeepsOpt.ite | apply KeepsOpt.some | exact KeepsOpt.none |
                                  refine KeepsOpt.out (by assumption) ?_ | apply Keeps.ite | fail_if_no_progress apply Keeps.of) | split

theorem Keeps.dataRead {k₀ : State} {s : State} (hk₀ : Keeps k₀ s) (x : Slot) (losers : List Nat) : Keeps k₀ (Machine.State.dataRead s x
    losers) := by
  unfold Machine.State.dataRead
  try dsimp only
  repeat' first | (with_reducible first | assumption | (intro _) | apply Keeps.updSlot | apply Keeps.issueRead | apply Keeps.ite |
                                  fail_if_no_progress apply Keeps.of) | split

theorem Keeps.tableRead {k₀ : State} {s : State} (hk₀ : Keeps k₀ s) (x : Slot) (losers : List Nat) : Keeps k₀ (Machine.State.tableRead s x
    losers) := by
  unfold Machine.State.tableRead
  try dsimp only
  repeat' first | (with_reducible first | assumption | (intro _) | apply Keeps.issueRead | fail_if_no_progress apply Keeps.of) | split

theorem Keeps.lensStep {k₀ : State} {s : State} (hk₀ : Keeps k₀ s) (x : Slot) : Keeps k₀ (Machine.State.lensStep s x).1 := by
  unfold Machine.State.lensStep
  try dsimp only
  repeat' first | (with_reducible first | assumption | (intro _) | apply Keeps.bump | apply Keeps.updSlot | apply Keeps.tookTurn |
                                  apply Keeps.ite | fail_if_no_progress apply Keeps.of) | split

theorem Keeps.execReadRequestIssue {k₀ : State} (clu : Nat) (slot : Nat) (table : Bool) (losers : List Nat) {s : State} (hk₀ : Keeps k₀ s) :
    KeepsOut k₀ (Machine.execReadRequestIssue clu slot table losers s) := by
  unfold Machine.execReadRequestIssue
  try dsimp only
  repeat' first | (with_reducible first | assumption | (intro _) | apply KeepsOut.next | exact KeepsOut.fault | apply Keeps.updSlot |
                                  apply Keeps.settle | apply Keeps.walkFault | apply Keeps.slotFault | apply Keeps.dataRead |
                                  apply Keeps.tableRead | refine Keeps.fst (by assumption) (Keeps.lensStep ?_ ..) | apply Keeps.lensStep |
                                  apply KeepsOut.ite | apply Keeps.ite | fail_if_no_progress apply Keeps.of) | split

theorem Keeps.dataWrite {k₀ : State} {s : State} (hk₀ : Keeps k₀ s) (x : Slot) (losers : List Nat) : Keeps k₀ (Machine.State.dataWrite s x
    losers) := by
  unfold Machine.State.dataWrite
  try dsimp only
  repeat' first | (with_reducible first | assumption | (intro _) | apply Keeps.updSlot |
                                  refine KeepsOpt.out (by assumption) (Keeps.issueData ?_ ..) | apply Keeps.issueData |
                                  apply Keeps.tookTurn | apply KeepsOpt.ite | apply KeepsOpt.some | exact KeepsOpt.none |
                                  refine KeepsOpt.out (by assumption) ?_ | apply Keeps.ite | fail_if_no_progress apply Keeps.of) | split

theorem Keeps.execWriteRequestIssue {k₀ : State} (clu : Nat) (slot : Nat) (losers : List Nat) {s : State} (hk₀ : Keeps k₀ s) : KeepsOut k₀
    (Machine.execWriteRequestIssue clu slot losers s) := by
  unfold Machine.execWriteRequestIssue
  try dsimp only
  repeat' first | (with_reducible first | assumption | (intro _) | apply KeepsOut.next | exact KeepsOut.fault | apply Keeps.updSlot |
                                  apply Keeps.settle | apply Keeps.walkFault | apply Keeps.slotFault |
                                  refine Keeps.fst (by assumption) (Keeps.lensStep ?_ ..) | apply Keeps.lensStep | apply Keeps.dataWrite |
                                  apply KeepsOut.ite | apply Keeps.ite | fail_if_no_progress apply Keeps.of) | split

/-! Machine/Beats.lean. -/

theorem Keeps.injDone {k₀ : State} {s : State} (hk₀ : Keeps k₀ s) (clu : Nat) : Keeps k₀ (Machine.State.injDone s clu) := by
  unfold Machine.State.injDone
  try dsimp only
  repeat' first | (with_reducible first | assumption | apply Keeps.setFld)

theorem Keeps.stampRead {k₀ : State} {s : State} (hk₀ : Keeps k₀ s) (x : Slot) : Keeps k₀ (Machine.State.stampRead s x) := by
  unfold Machine.State.stampRead
  try dsimp only
  repeat' first | (with_reducible first | assumption | apply Keeps.stampDone | apply Keeps.ite) | split

theorem Keeps.logCorrected {k₀ : State} {s : State} (hk₀ : Keeps k₀ s) (x : Slot) (l : Loaf) (ws : List (Frag × Nat)) : Keeps k₀
    (Machine.State.logCorrected s x l ws) := by
  unfold Machine.State.logCorrected
  try dsimp only
  repeat' first | (with_reducible first | assumption | (intro _) | apply Keeps.bump | apply Keeps.logErr | apply Keeps.foldl |
                                  apply Keeps.foldlFst | fail_if_no_progress apply Keeps.of)

theorem Keeps.packLines {k₀ : State} {s : State} (hk₀ : Keeps k₀ s) (x : Slot) (num : Nat) (fs : List Frag) : Keeps k₀
    (Machine.State.packLines s x num fs) := by
  unfold Machine.State.packLines
  try dsimp only
  repeat' first | (with_reducible first | assumption | (intro _) | apply Keeps.bump | apply Keeps.updSlot | apply Keeps.internalFault |
                                  apply Keeps.logCorrected | apply Keeps.ite | fail_if_no_progress apply Keeps.of) | split

theorem Keeps.landData {k₀ : State} {s : State} (hk₀ : Keeps k₀ s) (x : Slot) (num : Nat) (a : Access) (words : List (W64 × Byte)) : Keeps
    k₀ (Machine.State.landData s x num a words) := by
  unfold Machine.State.landData
  try dsimp only
  repeat' first | (with_reducible first | assumption | (intro _) | apply Keeps.updSlot | apply Keeps.injDone | apply Keeps.stampRead |
                                  apply Keeps.logCorrected | apply Keeps.packLines | apply Keeps.ite | fail_if_no_progress apply Keeps.of) |
                                  split

theorem Keeps.freeRead {k₀ : State} {s : State} (hk₀ : Keeps k₀ s) (x : Slot) (num : Nat) (a : Access) : Keeps k₀ (Machine.State.freeRead s
    x num a) := by
  unfold Machine.State.freeRead
  try dsimp only
  repeat' first | (with_reducible first | assumption | (intro _) | apply Keeps.updSlot | fail_if_no_progress apply Keeps.of)

theorem Keeps.freeTable {k₀ : State} {s : State} (hk₀ : Keeps k₀ s) (x : Slot) (first : Nat) : Keeps k₀ (Machine.State.freeTable s x first)
    := by
  unfold Machine.State.freeTable
  try dsimp only
  repeat' first | (with_reducible first | assumption | (intro _) | apply Keeps.updSlot | fail_if_no_progress apply Keeps.of)

theorem Keeps.settleOf {k₀ : State} {s : State} (hk₀ : Keeps k₀ s) (qid : Nat) (idx : W32) (pos : Nat) : Keeps k₀ (Machine.State.settleOf s
    qid idx pos) := by
  unfold Machine.State.settleOf
  try dsimp only
  repeat' first | (with_reducible first | assumption | (intro _) | apply Keeps.settle | apply Keeps.settleMoving |
                                  fail_if_no_progress apply Keeps.of) | split

theorem Keeps.readFault {k₀ : State} {s : State} (hk₀ : Keeps k₀ s) (x : Slot) (num : Nat) (a : Access) (code : Nat) (detail : BitVec 6) :
    Keeps k₀ (Machine.State.readFault s x num a code detail) := by
  unfold Machine.State.readFault
  try dsimp only
  repeat' first | (with_reducible first | assumption | apply Keeps.fabricFault | apply Keeps.freeRead)

theorem Keeps.dataAnswer {k₀ : State} {s : State} (hk₀ : Keeps k₀ s) (x : Slot) (num : Nat) (a : Access) (ans : Answer) : Keeps k₀
    (Machine.State.dataAnswer s x num a ans) := by
  unfold Machine.State.dataAnswer
  try dsimp only
  repeat' first | (with_reducible first | assumption | apply Keeps.logErr | refine Keeps.fst (by assumption) (Keeps.land ?_ ..) |
                                  apply Keeps.land | apply Keeps.settle | apply Keeps.endWith | apply Keeps.stampRead |
                                  apply Keeps.landData | apply Keeps.readFault | apply Keeps.ite | fail_if_no_progress apply Keeps.of) |
                                  split

theorem Keeps.tableAnswer {k₀ : State} {s0 : State} (hk₀ : Keeps k₀ s0) (x : Slot) (first : Nat) (a : Access) (ans : Answer) : Keeps k₀
    (Machine.State.tableAnswer s0 x first a ans) := by
  unfold Machine.State.tableAnswer
  try dsimp only
  repeat' first | (with_reducible first | assumption | (intro _) | apply Keeps.updSlot |
                                  refine Keeps.fst (by assumption) (Keeps.land ?_ ..) | apply Keeps.land | apply Keeps.settle |
                                  apply Keeps.endWith | apply Keeps.walkFault | apply Keeps.fabricFault | apply Keeps.freeTable |
                                  apply Keeps.ite | fail_if_no_progress apply Keeps.of) | split

theorem Keeps.relEval {k₀ : State} {s : State} (hk₀ : Keeps k₀ s) (clu : Nat) (idx : Nat) : Keeps k₀ (Machine.State.relEval s clu idx) := by
  unfold Machine.State.relEval
  try dsimp only
  repeat' first | (with_reducible first | assumption | (intro _) | apply Keeps.updSlot | apply Keeps.countReplays | apply Keeps.endWith |
                                  apply Keeps.logReplay | apply Keeps.ite | fail_if_no_progress apply Keeps.of) | split

theorem Keeps.dataWriteAnswer {k₀ : State} {s : State} (hk₀ : Keeps k₀ s) (x : Slot) (num : Nat) (a : Access) (code0 : BitVec 6) : Keeps k₀
    (Machine.State.dataWriteAnswer s x num a code0) := by
  unfold Machine.State.dataWriteAnswer
  try dsimp only
  repeat' first | (with_reducible first | assumption | (intro _) | apply Keeps.updSlot | apply Keeps.stampDone | apply Keeps.settle |
                                  apply Keeps.dropFrom | apply Keeps.endWith | apply Keeps.fabricFault | apply Keeps.leaveNow |
                                  apply Keeps.relEval | apply Keeps.ite | fail_if_no_progress apply Keeps.of) | split

theorem Keeps.execDataReadCeil {k₀ : State} (aid : Nat) {s : State} (hk₀ : Keeps k₀ s) : KeepsOut k₀ (Machine.execDataReadCeil aid s) := by
  unfold Machine.execDataReadCeil
  try dsimp only
  repeat' first | (with_reducible first | assumption | apply KeepsOut.next | exact KeepsOut.fault | apply Keeps.drainHeld |
                                  apply Keeps.quarantine | apply Keeps.fabricFault | apply Keeps.freeTable | apply Keeps.settleOf |
                                  apply Keeps.readFault | apply KeepsOut.ite | apply Keeps.ite | fail_if_no_progress apply Keeps.of) | split

theorem Keeps.execDataWriteCeil {k₀ : State} (aid : Nat) {s : State} (hk₀ : Keeps k₀ s) : KeepsOut k₀ (Machine.execDataWriteCeil aid s) :=
    by
  unfold Machine.execDataWriteCeil
  try dsimp only
  repeat' first | (with_reducible first | assumption | apply KeepsOut.next | exact KeepsOut.fault | apply Keeps.drainHeld |
                                  apply Keeps.quarantine | apply Keeps.logDirty | apply Keeps.fedCkpt | apply Keeps.endWith |
                                  apply Keeps.fabricFault | apply Keeps.settleOf | apply KeepsOut.ite | apply Keeps.ite |
                                  fail_if_no_progress apply Keeps.of) | split

theorem Keeps.sendLine {k₀ : State} {s : State} (hk₀ : Keeps k₀ s) (aid : Nat) (bytes : List Byte) : Keeps k₀ (Machine.State.sendLine s aid
    bytes) := by
  unfold State.sendLine
  dsimp only
  split
  · exact hk₀
  · rename_i n _
    refine hk₀.creditsTo rfl rfl rfl rfl rfl ?_
    intro h
    have h3 := creditsOf_ok (s := s) n h
    exact assocPut_ok (s := s) _ _ h (by dsimp only; omega)

theorem Keeps.correctedLines {k₀ : State} {s : State} (hk₀ : Keeps k₀ s) (x : Slot) (l : Loaf) (ps : List Nat) : Keeps k₀
    (Machine.State.correctedLines s x l ps) := by
  unfold Machine.State.correctedLines
  try dsimp only
  repeat' first | (with_reducible first | assumption | apply Keeps.logCorrected)

theorem Keeps.lineFault {k₀ : State} {s : State} (hk₀ : Keeps k₀ s) (x : Slot) (l : Loaf) (ps : List Nat) : KeepsOpt k₀
    (Machine.State.lineFault s x l ps) := by
  unfold Machine.State.lineFault
  try dsimp only
  repeat' first | (with_reducible first | assumption | (intro _) | apply KeepsOpt.some | exact KeepsOpt.none | apply Keeps.bump |
                                  apply Keeps.logErr | apply Keeps.updSlot | apply Keeps.endWith | apply Keeps.internalFault |
                                  apply Keeps.foldl | apply Keeps.foldlFst | apply KeepsOpt.ite | apply Keeps.ite |
                                  fail_if_no_progress apply Keeps.of) | split

theorem Keeps.beatFault {k₀ : State} {s : State} (hk₀ : Keeps k₀ s) (x : Slot) (l : Loaf) (ps : List Nat) : KeepsOpt k₀
    (Machine.State.beatFault s x l ps) := by
  unfold Machine.State.beatFault
  try dsimp only
  repeat' first | (with_reducible first | assumption | apply KeepsOpt.some | exact KeepsOpt.none | apply Keeps.bump |
                                  apply Keeps.internalFault | apply Keeps.injDone |
                                  refine KeepsOpt.out (by assumption) (Keeps.lineFault ?_ ..) | apply Keeps.lineFault | apply KeepsOpt.ite |
                                  apply Keeps.ite | fail_if_no_progress apply Keeps.of) | split

theorem Keeps.piMismatch {k₀ : State} {s : State} (hk₀ : Keeps k₀ s) (x : Slot) (f : Nat) (det : Nat) : Keeps k₀ (Machine.State.piMismatch s
    x f det) := by
  unfold Machine.State.piMismatch
  try dsimp only
  repeat' first | (with_reducible first | assumption | apply Keeps.endCut)

theorem Keeps.passBeat {k₀ : State} {s : State} (hk₀ : Keeps k₀ s) (x : Slot) (l : Loaf) (ps : List Nat) (held : Bool) : Keeps k₀
    (Machine.State.passBeat s x l ps held) := by
  unfold Machine.State.passBeat
  try dsimp only
  repeat' first | (with_reducible first | assumption | (intro _) | apply Keeps.updSlot | apply Keeps.correctedLines |
                                  refine KeepsOpt.out (by assumption) (Keeps.beatFault ?_ ..) | apply Keeps.beatFault |
                                  apply Keeps.piMismatch | apply KeepsOpt.getD | apply KeepsOpt.ite | apply KeepsOpt.some |
                                  exact KeepsOpt.none | refine KeepsOpt.out (by assumption) ?_ | apply Keeps.ite |
                                  fail_if_no_progress apply Keeps.of) | split

theorem Keeps.writeBeat {k₀ : State} {s : State} (hk₀ : Keeps k₀ s) (x : Slot) (l : Loaf) (a : Access) : Keeps k₀ (Machine.State.writeBeat s
    x l a) := by
  unfold Machine.State.writeBeat
  try dsimp only
  repeat' first | (with_reducible first | assumption | (intro _) | apply Keeps.updSlot | apply Keeps.sendLine | apply Keeps.correctedLines |
                                  refine KeepsOpt.out (by assumption) (Keeps.beatFault ?_ ..) | apply Keeps.beatFault |
                                  apply Keeps.piMismatch | apply KeepsOpt.getD | apply KeepsOpt.ite | apply KeepsOpt.some |
                                  exact KeepsOpt.none | refine KeepsOpt.out (by assumption) ?_ | apply Keeps.foldl | apply Keeps.foldlFst |
                                  apply Keeps.ite | fail_if_no_progress apply Keeps.of) | split

theorem Keeps.runLine {k₀ : State} {s : State} (hk₀ : Keeps k₀ s) (aid : Nat) : Keeps k₀ (Machine.State.runLine s aid) := by
  unfold Machine.State.runLine
  try dsimp only
  repeat' first | (with_reducible first | assumption | (intro _) | apply Keeps.sendLine)

theorem Keeps.runBeat {k₀ : State} {s : State} (hk₀ : Keeps k₀ s) (x : Slot) (j : BeatJob) : Keeps k₀ (Machine.State.runBeat s x j) := by
  unfold Machine.State.runBeat
  try dsimp only
  repeat' first | (with_reducible first | assumption | apply Keeps.passBeat | apply Keeps.writeBeat | apply Keeps.runLine |
                                  fail_if_no_progress apply Keeps.of) | split

theorem Keeps.pushWindow {k₀ : State} {s : State} (hk₀ : Keeps k₀ s) (clu : Nat) (u : Bool) : Keeps k₀ (Machine.State.pushWindow s clu u) :=
    by
  unfold Machine.State.pushWindow
  try dsimp only
  repeat' first | (with_reducible first | assumption | fail_if_no_progress apply Keeps.of)

theorem Keeps.tickLockouts {k₀ : State} {s : State} (hk₀ : Keeps k₀ s) (a : Nat) : Keeps k₀ (Machine.State.tickLockouts s a) := by
  unfold Machine.State.tickLockouts
  try dsimp only
  repeat' first | (with_reducible first | assumption | (intro _) | apply Keeps.putArb | fail_if_no_progress apply Keeps.of)

theorem Keeps.dropRequests {k₀ : State} {s : State} (hk₀ : Keeps k₀ s) (a : Nat) (asks : List Nat) : Keeps k₀ (Machine.State.dropRequests s
    a asks) := by
  unfold Machine.State.dropRequests
  try dsimp only
  repeat' first | (with_reducible first | assumption | (intro _) | apply Keeps.putArb | apply Keeps.ite |
                                  fail_if_no_progress apply Keeps.of) | split

theorem Keeps.readStoreLine {k₀ : State} {s : State} (hk₀ : Keeps k₀ s) (clu : Nat) (idx : Nat) (left : Nat) : Keeps k₀
    (Machine.State.readStoreLine s clu idx left) := by
  unfold Machine.State.readStoreLine
  try dsimp only
  repeat' first | (with_reducible first | assumption | apply Keeps.correctedLines |
                                  refine KeepsOpt.out (by assumption) (Keeps.lineFault ?_ ..) | apply Keeps.lineFault |
                                  apply KeepsOpt.getD | apply KeepsOpt.ite | apply KeepsOpt.some | exact KeepsOpt.none |
                                  refine KeepsOpt.out (by assumption) ?_ | fail_if_no_progress apply Keeps.of) | split

theorem Keeps.takeoverBeat {k₀ : State} {s0 : State} (hk₀ : Keeps k₀ s0) (clu : Nat) (t : Nat × Nat × Nat) : Keeps k₀
    (Machine.State.takeoverBeat s0 clu t) := by
  unfold Machine.State.takeoverBeat
  try dsimp only
  repeat' first | (with_reducible first | assumption | apply Keeps.putArb | apply Keeps.readStoreLine | apply Keeps.ite |
                                  fail_if_no_progress apply Keeps.of) | split

theorem Keeps.beatOf {k₀ : State} {s : State} (hk₀ : Keeps k₀ s) (clu : Nat) (i : Nat) (j : BeatJob) : Keeps k₀ (Machine.State.beatOf s clu
    i j) := by
  unfold Machine.State.beatOf
  try dsimp only
  repeat' first | (with_reducible first | assumption | apply Keeps.slotFault | apply Keeps.runLine | apply Keeps.runBeat | apply Keeps.ite |
                                  fail_if_no_progress apply Keeps.of) | split

theorem Keeps.execDatapathBeat {k₀ : State} (clu : Nat) {s : State} (hk₀ : Keeps k₀ s) : KeepsOut k₀ (Machine.execDatapathBeat clu s) := by
  unfold Machine.execDatapathBeat
  try dsimp only
  repeat' first | (with_reducible first | assumption | (intro _) | apply KeepsOut.next | exact KeepsOut.fault | apply Keeps.bump |
                                  apply Keeps.putArb | refine KeepsOpt.out (by assumption) (Keeps.arbGrant ?_ ..) | apply Keeps.arbGrant |
                                  apply Keeps.pushWindow | apply Keeps.tickLockouts | apply Keeps.dropRequests | apply Keeps.takeoverBeat |
                                  apply Keeps.beatOf | apply KeepsOpt.map | apply KeepsOpt.getD | apply KeepsOpt.ite | apply KeepsOpt.some |
                                  exact KeepsOpt.none | refine KeepsOpt.out (by assumption) ?_ | apply KeepsOut.ite | apply Keeps.ite |
                                  fail_if_no_progress apply Keeps.of) | split

theorem Keeps.execLoafRelease {k₀ : State} (clu : Nat) (slot : Nat) {s : State} (hk₀ : Keeps k₀ s) : KeepsOut k₀ (Machine.execLoafRelease
    clu slot s) := by
  unfold Machine.execLoafRelease
  try dsimp only
  repeat' first | (with_reducible first | assumption | (intro _) | apply KeepsOut.next | exact KeepsOut.fault | apply Keeps.updSlot |
                                  apply Keeps.slotFault | apply KeepsOut.ite | apply Keeps.ite | fail_if_no_progress apply Keeps.of) | split

theorem Keeps.commitLoaf {k₀ : State} {s : State} (hk₀ : Keeps k₀ s) (x : Slot) (l : Loaf) : Keeps k₀ (Machine.State.commitLoaf s x l) := by
  unfold Machine.State.commitLoaf
  try dsimp only
  repeat' first | (with_reducible first | assumption | (intro _) | apply Keeps.wr | apply Keeps.addIs3w | apply Keeps.countCtx |
                                  apply Keeps.updSlot | apply Keeps.putCkpt | apply Keeps.fedCkpt | apply Keeps.settle |
                                  apply Keeps.walkFault | apply Keeps.packLines | apply Keeps.ite | fail_if_no_progress apply Keeps.of) |
                                  split

theorem Keeps.execCheckpointStored {k₀ : State} (clu : Nat) (slot : Nat) {s : State} (hk₀ : Keeps k₀ s) : KeepsOut k₀
    (Machine.execCheckpointStored clu slot s) := by
  unfold Machine.execCheckpointStored
  try dsimp only
  repeat' first | (with_reducible first | assumption | apply KeepsOut.next | exact KeepsOut.fault | apply Keeps.slotFault |
                                  apply Keeps.commitLoaf | apply KeepsOut.ite | apply Keeps.ite | fail_if_no_progress apply Keeps.of) |
                                  split

theorem Keeps.execCkptCeil {k₀ : State} (clu : Nat) (slot : Nat) {s : State} (hk₀ : Keeps k₀ s) : KeepsOut k₀ (Machine.execCkptCeil clu slot
    s) := by
  unfold Machine.execCkptCeil
  try dsimp only
  repeat' first | (with_reducible first | assumption | apply KeepsOut.next | exact KeepsOut.fault | apply Keeps.logErr |
                                  apply KeepsOut.ite | apply Keeps.ite | fail_if_no_progress apply Keeps.of) | split

/-! Machine/Records.lean. -/

theorem Keeps.enterHistogram {k₀ : State} {s : State} (hk₀ : Keeps k₀ s) (iid : Nat) (r : Record) : Keeps k₀ (Machine.State.enterHistogram s
    iid r) := by
  unfold Machine.State.enterHistogram
  try dsimp only
  repeat' first | (with_reducible first | assumption | apply Keeps.bump | apply Keeps.addIs3 | apply Keeps.addIs3w | apply Keeps.ite) |
                                  split

theorem Keeps.traceLost {k₀ : State} {s : State} (hk₀ : Keeps k₀ s) (k : Nat) : Keeps k₀ (Machine.State.traceLost s k) := by
  unfold Machine.State.traceLost
  try dsimp only
  repeat' first | (with_reducible first | assumption | apply Keeps.addIs3)

theorem Keeps.traceOne {k₀ : State} {s : State} (hk₀ : Keeps k₀ s) (r : Record) (k : Nat) : Keeps k₀ (Machine.State.traceOne s r k) := by
  unfold Machine.State.traceOne
  try dsimp only
  repeat' first | (with_reducible first | assumption | apply Keeps.addIs3 | apply Keeps.service | apply Keeps.traceLost | apply Keeps.ite) |
                                  split

theorem Keeps.traceRecord {k₀ : State} {s : State} (hk₀ : Keeps k₀ s) (r : Record) : Keeps k₀ (Machine.State.traceRecord s r) := by
  unfold Machine.State.traceRecord
  try dsimp only
  repeat' first | (with_reducible first | assumption | (intro _) | apply Keeps.traceOne | apply Keeps.foldl | apply Keeps.foldlFst |
                                  apply Keeps.ite) | split

theorem Keeps.recordIssued {k₀ : State} {s : State} (hk₀ : Keeps k₀ s) (r : Record) : Keeps k₀ (Machine.State.recordIssued s r) := by
  unfold Machine.State.recordIssued
  try dsimp only
  repeat' first | (with_reducible first | assumption | (intro _) | apply Keeps.setFld | apply Keeps.pulse | apply Keeps.addIs3 |
                                  apply Keeps.addIs3w | apply Keeps.bankAccess | apply Keeps.updCtx | apply Keeps.countCtx |
                                  apply Keeps.freeSlot | apply Keeps.checkIdle | apply Keeps.admCheck | apply Keeps.acceptMore |
                                  apply Keeps.releaseDone | apply Keeps.takeRecordOut | apply Keeps.pumpStore | apply Keeps.skipDone |
                                  apply Keeps.settleMoving | apply Keeps.enterHistogram | apply Keeps.traceRecord | apply Keeps.ite |
                                  fail_if_no_progress apply Keeps.of) | split

theorem Keeps.needCtx {k₀ : State} {s : State} (hk₀ : Keeps k₀ s) (qid : Nat) : Keeps k₀ (Machine.State.needCtx s qid) := by
  unfold Machine.State.needCtx
  try dsimp only
  repeat' first | (with_reducible first | assumption | (intro _) | apply Keeps.awaitCtx | apply Keeps.ite) | split

theorem Keeps.execCompletionRecord {k₀ : State} (qid : Nat) {s : State} (hk₀ : Keeps k₀ s) : KeepsOut k₀ (Machine.execCompletionRecord qid
    s) := by
  unfold Machine.execCompletionRecord
  try dsimp only
  repeat' first | (with_reducible first | assumption | apply KeepsOut.next | exact KeepsOut.fault | apply Keeps.service |
                                  apply Keeps.recordIssued | apply Keeps.needCtx | apply KeepsOut.ite | apply Keeps.ite |
                                  fail_if_no_progress apply Keeps.of) | split

theorem Keeps.execAbandonedRecord {k₀ : State} (qid : Nat) {s : State} (hk₀ : Keeps k₀ s) : KeepsOut k₀ (Machine.execAbandonedRecord qid s)
    := by
  unfold Machine.execAbandonedRecord
  try dsimp only
  repeat' first | (with_reducible first | assumption | apply KeepsOut.next | exact KeepsOut.fault | apply Keeps.service |
                                  apply Keeps.recordIssued | apply Keeps.needCtx | apply KeepsOut.ite | apply Keeps.ite |
                                  fail_if_no_progress apply Keeps.of) | split

theorem Keeps.recordAcked {k₀ : State} {s : State} (hk₀ : Keeps k₀ s) (qid : Nat) (ring : Bool) (noticeNow : Bool) : Keeps k₀
    (Machine.State.recordAcked s qid ring noticeNow) := by
  unfold Machine.State.recordAcked
  try dsimp only
  repeat' first | (with_reducible first | assumption | apply Keeps.setCtx | apply Keeps.noticeTrigger | apply Keeps.ite |
                                  fail_if_no_progress apply Keeps.of) | split

theorem Keeps.recordAckAt {k₀ : State} {s : State} (hk₀ : Keeps k₀ s) (qid : Nat) (idx : W32) (chainPos : Nat) (noticeNow : Bool) : Keeps k₀
    (Machine.State.recordAckAt s qid idx chainPos noticeNow) := by
  unfold Machine.State.recordAckAt
  try dsimp only
  repeat' first | (with_reducible first | assumption | apply Keeps.awaitCtx | apply Keeps.lookup | apply Keeps.recordAcked |
                                  apply Keeps.ite) | split

theorem Keeps.noticeAcked {k₀ : State} {s : State} (hk₀ : Keeps k₀ s) (qid : Nat) : Keeps k₀ (Machine.State.noticeAcked s qid) := by
  unfold Machine.State.noticeAcked
  try dsimp only
  repeat' first | (with_reducible first | assumption | apply Keeps.setCtx | apply Keeps.noticeTrigger | apply Keeps.ite |
                                  fail_if_no_progress apply Keeps.of) | split

theorem Keeps.noticeAckAt {k₀ : State} {s : State} (hk₀ : Keeps k₀ s) (qid : Nat) : Keeps k₀ (Machine.State.noticeAckAt s qid) := by
  unfold Machine.State.noticeAckAt
  try dsimp only
  repeat' first | (with_reducible first | assumption | apply Keeps.awaitCtx | apply Keeps.lookup | apply Keeps.noticeAcked |
                                  apply Keeps.ite) | split

theorem Keeps.writeAcked {k₀ : State} {s : State} (hk₀ : Keeps k₀ s) (u : Purpose) : Keeps k₀ (Machine.State.writeAcked s u) := by
  unfold Machine.State.writeAcked
  try dsimp only
  repeat' first | (with_reducible first | assumption | apply Keeps.recordAckAt | apply Keeps.noticeAckAt |
                                  fail_if_no_progress apply Keeps.of) | split

theorem Keeps.giveUp {k₀ : State} {s : State} (hk₀ : Keeps k₀ s) (a : Access) (code : BitVec 6) : Keeps k₀ (Machine.State.giveUp s a code)
    := by
  unfold Machine.State.giveUp
  try dsimp only
  repeat' first | (with_reducible first | assumption | apply Keeps.logErr | apply Keeps.writeAcked | apply Keeps.ite |
                                  fail_if_no_progress apply Keeps.of) | split

theorem Keeps.recordAgain {k₀ : State} {s : State} (hk₀ : Keeps k₀ s) (a : Access) (code : BitVec 6) : Keeps k₀ (Machine.State.recordAgain s
    a code) := by
  unfold Machine.State.recordAgain
  try dsimp only
  repeat' first | (with_reducible first | assumption | apply Keeps.serviceAgain | apply Keeps.giveUp | apply Keeps.ite |
                                  fail_if_no_progress apply Keeps.of) | split

theorem Keeps.recordAnswer {k₀ : State} {s : State} (hk₀ : Keeps k₀ s) (a : Access) (code0 : BitVec 6) : Keeps k₀
    (Machine.State.recordAnswer s a code0) := by
  unfold Machine.State.recordAnswer
  try dsimp only
  repeat' first | (with_reducible first | assumption | apply Keeps.drainHeld | apply Keeps.dropAccess | apply Keeps.logDirty |
                                  apply Keeps.writeAcked | apply Keeps.giveUp | apply Keeps.recordAgain | apply Keeps.ite) | split

theorem Keeps.execCompletionRecordAck {k₀ : State} (aid : Nat) (code : BitVec 6) {s : State} (hk₀ : Keeps k₀ s) : KeepsOut k₀
    (Machine.execCompletionRecordAck aid code s) := by
  unfold Machine.execCompletionRecordAck
  try dsimp only
  repeat' first | (with_reducible first | assumption | apply KeepsOut.next | exact KeepsOut.fault | apply Keeps.recordAnswer |
                                  apply KeepsOut.ite | apply Keeps.ite | fail_if_no_progress apply Keeps.of) | split

theorem Keeps.execNoticeAck {k₀ : State} (aid : Nat) (code : BitVec 6) {s : State} (hk₀ : Keeps k₀ s) : KeepsOut k₀ (Machine.execNoticeAck
    aid code s) := by
  unfold Machine.execNoticeAck
  try dsimp only
  repeat' first | (with_reducible first | assumption | apply KeepsOut.next | exact KeepsOut.fault | apply Keeps.recordAnswer |
                                  apply KeepsOut.ite | apply Keeps.ite | fail_if_no_progress apply Keeps.of) | split

theorem Keeps.execNoticeDelayExpiry {k₀ : State} (qid : Nat) {s : State} (hk₀ : Keeps k₀ s) : KeepsOut k₀ (Machine.execNoticeDelayExpiry qid
    s) := by
  unfold Machine.execNoticeDelayExpiry
  try dsimp only
  repeat' first | (with_reducible first | assumption | apply KeepsOut.next | exact KeepsOut.fault | apply Keeps.noticeTrigger |
                                  apply KeepsOut.ite | apply Keeps.ite | fail_if_no_progress apply Keeps.of) | split

theorem Keeps.execRecordWriteCeil {k₀ : State} (aid : Nat) {s : State} (hk₀ : Keeps k₀ s) : KeepsOut k₀ (Machine.execRecordWriteCeil aid s)
    := by
  unfold Machine.execRecordWriteCeil
  try dsimp only
  repeat' first | (with_reducible first | assumption | apply KeepsOut.next | exact KeepsOut.fault | apply Keeps.drainHeld |
                                  apply Keeps.quarantine | apply Keeps.logDirty | apply Keeps.recordAgain | apply KeepsOut.ite |
                                  apply Keeps.ite | fail_if_no_progress apply Keeps.of) | split

theorem Keeps.execRecordGiveUp {k₀ : State} (aid : Nat) (code : BitVec 6) {s : State} (hk₀ : Keeps k₀ s) : KeepsOut k₀
    (Machine.execRecordGiveUp aid code s) := by
  unfold Machine.execRecordGiveUp
  try dsimp only
  repeat' first | (with_reducible first | assumption | apply KeepsOut.next | exact KeepsOut.fault | apply Keeps.drainHeld |
                                  apply Keeps.dropAccess | apply Keeps.quarantine | apply Keeps.logDirty | apply Keeps.giveUp |
                                  apply KeepsOut.ite | apply Keeps.ite | fail_if_no_progress apply Keeps.of) | split

/-! Machine/Telemetry.lean. -/

theorem Keeps.restartMax {k₀ : State} {s : State} (hk₀ : Keeps k₀ s) : Keeps k₀ (Machine.State.restartMax s) := by
  refine Keeps.is3 hk₀ _ ?_
  intro w
  refine List.foldlRecOn (motive := fun m => WordMap.wf m = true) _ _ w ?_
  intro m hm p _
  refine List.foldlRecOn (motive := fun m => WordMap.wf m = true) _ _ hm ?_
  intro n hn k _
  exact WordMap.wf_put _ _ _ hn

theorem Keeps.takeCopy {k₀ : State} {s : State} (hk₀ : Keeps k₀ s) (set : Nat) (iid : Nat) (qid : Nat) (c : Option QCtx) (absent : Bool) :
    Keeps k₀ (Machine.State.takeCopy s set iid qid c absent).1 := by
  unfold Machine.State.takeCopy
  try dsimp only
  repeat' first | (with_reducible first | assumption | apply Keeps.restartMax | apply Keeps.ite | fail_if_no_progress apply Keeps.of) |
                                  split

theorem Keeps.putSnap {k₀ : State} {s : State} (hk₀ : Keeps k₀ s) (k : Nat) (x : Option Snap) : Keeps k₀ (Machine.State.putSnap s k x) := by
  unfold Machine.State.putSnap
  try dsimp only
  repeat' first | (with_reducible first | assumption | (intro _) | fail_if_no_progress apply Keeps.of)

theorem Keeps.snapCopy {k₀ : State} {s : State} (hk₀ : Keeps k₀ s) (k : Nat) (key : Nat) (ws : List W32) (c : Option QCtx) (absent : Bool) :
    Keeps k₀ (Machine.State.snapCopy s k key ws c absent) := by
  unfold Machine.State.snapCopy
  try dsimp only
  repeat' first | (with_reducible first | assumption | (intro _) | apply Keeps.service |
                                  refine Keeps.fst (by assumption) (Keeps.takeCopy ?_ ..) | apply Keeps.takeCopy | apply Keeps.putSnap |
                                  apply Keeps.foldl | apply Keeps.foldlFst | fail_if_no_progress apply Keeps.of) | split

theorem Keeps.snapshot {k₀ : State} {s : State} (hk₀ : Keeps k₀ s) (k : Nat) (key : Nat) : Keeps k₀ (Machine.State.snapshot s k key) := by
  unfold Machine.State.snapshot
  try dsimp only
  repeat' first | (with_reducible first | assumption | apply Keeps.bump | apply Keeps.awaitCtx | apply Keeps.putSnap |
                                  apply Keeps.snapCopy | apply Keeps.ite | fail_if_no_progress apply Keeps.of) | split

theorem Keeps.snapWaits {k₀ : State} {s : State} (hk₀ : Keeps k₀ s) (x : Snap) : Keeps k₀ (Machine.State.snapWaits s x) := by
  unfold Machine.State.snapWaits
  try dsimp only
  repeat' first | (with_reducible first | assumption | (intro _) | apply Keeps.awaitCtx | apply Keeps.snapCopy | apply Keeps.ite |
                                  fail_if_no_progress apply Keeps.of) | split

theorem Keeps.snapAck {k₀ : State} {s : State} (hk₀ : Keeps k₀ s) (k : Nat) (header : Bool) : Keeps k₀ (Machine.State.snapAck s k header) :=
    by
  unfold Machine.State.snapAck
  try dsimp only
  repeat' first | (with_reducible first | assumption | apply Keeps.service | apply Keeps.putSnap | apply Keeps.ite |
                                  fail_if_no_progress apply Keeps.of) | split

theorem Keeps.snapDrop {k₀ : State} {s : State} (hk₀ : Keeps k₀ s) (k : Nat) : Keeps k₀ (Machine.State.snapDrop s k) := by
  unfold Machine.State.snapDrop
  try dsimp only
  repeat' first | (with_reducible first | assumption | (intro _) | apply Keeps.putSnap | fail_if_no_progress apply Keeps.of) | split

theorem Keeps.telGiveUp {k₀ : State} {s : State} (hk₀ : Keeps k₀ s) (u : Purpose) : Keeps k₀ (Machine.State.telGiveUp s u) := by
  unfold Machine.State.telGiveUp
  try dsimp only
  repeat' first | (with_reducible first | assumption | apply Keeps.traceLost | apply Keeps.snapDrop | fail_if_no_progress apply Keeps.of) |
                                  split

theorem Keeps.execTelemetryWriteCeil {k₀ : State} (aid : Nat) {s : State} (hk₀ : Keeps k₀ s) : KeepsOut k₀ (Machine.execTelemetryWriteCeil
    aid s) := by
  unfold Machine.execTelemetryWriteCeil
  try dsimp only
  repeat' first | (with_reducible first | assumption | apply KeepsOut.next | exact KeepsOut.fault | apply Keeps.drainHeld |
                                  apply Keeps.quarantine | apply Keeps.telGiveUp | apply KeepsOut.ite | apply Keeps.ite |
                                  fail_if_no_progress apply Keeps.of) | split

theorem Keeps.samplePort {k₀ : State} {s : State} (hk₀ : Keeps k₀ s) (p : Nat) : Keeps k₀ (Machine.State.samplePort s p) := by
  unfold State.samplePort
  dsimp only
  refine Keeps.addIs3 (Keeps.foldl hk₀ ?_) ..
  intro u x h
  exact Keeps.addIs3w (Keeps.is3 h _ (fun w => WordMap.wf_put _ _ _ (WordMap.wf_put _ _ _ w))) ..

theorem Keeps.setThr {k₀ : State} {s : State} (hk₀ : Keeps k₀ s) (t : Nat) (v : Bool) : Keeps k₀ (Machine.State.setThr s t v) := by
  exact Keeps.is3 hk₀ _ (WordMap.wf_put _ _ _)

theorem Keeps.evalThr {k₀ : State} {s : State} (hk₀ : Keeps k₀ s) (t : Nat) (sample : Bool) : Keeps k₀ (Machine.State.evalThr s t sample) :=
    by
  unfold Machine.State.evalThr
  try dsimp only
  repeat' first | (with_reducible first | assumption | apply Keeps.setThr | apply Keeps.ite | fail_if_no_progress apply Keeps.of) | split

theorem Keeps.execOccupancySample {k₀ : State} {s : State} (hk₀ : Keeps k₀ s) : KeepsOut k₀ (Machine.execOccupancySample s) := by
  unfold Machine.execOccupancySample
  try dsimp only
  repeat' first | (with_reducible first | assumption | (intro _) | apply KeepsOut.next | exact KeepsOut.fault | apply Keeps.samplePort |
                                  apply Keeps.evalThr | apply Keeps.foldl | apply Keeps.foldlFst | apply KeepsOut.ite | apply Keeps.ite |
                                  fail_if_no_progress apply Keeps.of) | split

theorem Keeps.execThresholdEval {k₀ : State} (t : Nat) {s : State} (hk₀ : Keeps k₀ s) : KeepsOut k₀ (Machine.execThresholdEval t s) := by
  unfold Machine.execThresholdEval
  try dsimp only
  repeat' first | (with_reducible first | assumption | apply KeepsOut.next | exact KeepsOut.fault | apply Keeps.evalThr |
                                  apply KeepsOut.ite | apply Keeps.ite) | split

theorem Keeps.putTimer {k₀ : State} {s : State} (hk₀ : Keeps k₀ s) (t : Timer) : Keeps k₀ (Machine.State.putTimer s t) := by
  unfold Machine.State.putTimer
  try dsimp only
  repeat' first | (with_reducible first | assumption | (intro _) | apply Keeps.ite | fail_if_no_progress apply Keeps.of) | split

theorem Keeps.timerEdge {k₀ : State} {s : State} (hk₀ : Keeps k₀ s) (k : Nat) (high : Bool) : Keeps k₀ (Machine.State.timerEdge s k high) :=
    by
  unfold Machine.State.timerEdge
  try dsimp only
  repeat' first | (with_reducible first | assumption | apply Keeps.putTimer | apply Keeps.ite) | split

theorem Keeps.timerGate {k₀ : State} {s : State} (hk₀ : Keeps k₀ s) (k : Nat) (high : Bool) : Keeps k₀ (Machine.State.timerGate s k high) :=
    by
  unfold Machine.State.timerGate
  try dsimp only
  repeat' first | (with_reducible first | assumption | apply Keeps.putTimer | apply Keeps.ite | fail_if_no_progress apply Keeps.of) | split

theorem Keeps.timerModeSet {k₀ : State} {s : State} (hk₀ : Keeps k₀ s) (k : Nat) : Keeps k₀ (Machine.State.timerModeSet s k) := by
  unfold Machine.State.timerModeSet
  try dsimp only
  repeat' first | (with_reducible first | assumption | apply Keeps.putTimer | apply Keeps.ite) | split

theorem Keeps.execIntervalTimerExpiry {k₀ : State} (k : Nat) {s : State} (hk₀ : Keeps k₀ s) : KeepsOut k₀ (Machine.execIntervalTimerExpiry k
    s) := by
  unfold Machine.execIntervalTimerExpiry
  try dsimp only
  repeat' first | (with_reducible first | assumption | apply KeepsOut.next | exact KeepsOut.fault | apply Keeps.pulse |
                                  apply Keeps.putTimer | apply KeepsOut.ite | apply Keeps.ite | fail_if_no_progress apply Keeps.of) | split

/-! Machine/Events.lean. -/

theorem Keeps.lineFlag {k₀ : State} {s : State} (hk₀ : Keeps k₀ s) (l : Nat) (edge : Bool) : Keeps k₀ (Machine.State.lineFlag s l edge) :=
    by
  unfold Machine.State.lineFlag
  try dsimp only
  repeat' first | (with_reducible first | assumption | (intro _) | apply Keeps.sEvent | apply Keeps.ite |
                                  fail_if_no_progress apply Keeps.of) | split

theorem Keeps.lineLevel {k₀ : State} {s : State} (hk₀ : Keeps k₀ s) (l : Nat) (v : Bool) : Keeps k₀ (Machine.State.lineLevel s l v) := by
  unfold Machine.State.lineLevel
  try dsimp only
  repeat' first | (with_reducible first | assumption | (intro _) | apply Keeps.putLine | apply Keeps.setWaitFlag | apply Keeps.lineFlag |
                                  apply Keeps.foldl | apply Keeps.foldlFst | apply Keeps.ite | fail_if_no_progress apply Keeps.of) | split

theorem Keeps.gateTimers {k₀ : State} {s : State} (hk₀ : Keeps k₀ s) : Keeps k₀ (Machine.State.gateTimers s) := by
  unfold Machine.State.gateTimers
  try dsimp only
  repeat' first | (with_reducible first | assumption | (intro _) | apply Keeps.timerGate | apply Keeps.foldl | apply Keeps.foldlFst |
                                  apply Keeps.ite) | split

theorem Keeps.refreshEvm {k₀ : State} {s : State} (hk₀ : Keeps k₀ s) : Keeps k₀ (Machine.State.refreshEvm s) := by
  unfold Machine.State.refreshEvm
  try dsimp only
  repeat' first | (with_reducible first | assumption | (intro _) | apply Keeps.pulse | apply Keeps.lineLevel | apply Keeps.gateTimers |
                                  apply Keeps.foldl | apply Keeps.foldlFst | apply Keeps.ite | fail_if_no_progress apply Keeps.of) | split

theorem Keeps.reroute {k₀ : State} {s : State} (hk₀ : Keeps k₀ s) (f : State → State) (hk_f : ∀ a0, Keeps k₀ a0 → Keeps k₀ (f a0)) : Keeps
    k₀ (Machine.State.reroute s f) := by
  unfold Machine.State.reroute
  try dsimp only
  repeat' first | (with_reducible first | assumption | (intro _) | apply hk_f | apply Keeps.refreshEvm | fail_if_no_progress apply Keeps.of)

theorem Keeps.kickQueue {k₀ : State} {s : State} (hk₀ : Keeps k₀ s) (qid : Nat) : Keeps k₀ (Machine.State.kickQueue s qid) := by
  unfold Machine.State.kickQueue
  try dsimp only
  repeat' first | (with_reducible first | assumption | apply Keeps.awaitCtx | apply Keeps.hit | apply Keeps.markReady | apply Keeps.ite) |
                                  split

theorem Keeps.kickPoll {k₀ : State} {s : State} (hk₀ : Keeps k₀ s) (iid : Nat) (dbg : Bool) : Keeps k₀ (Machine.State.kickPoll s iid dbg) :=
    by
  unfold Machine.State.kickPoll
  try dsimp only
  repeat' first | (with_reducible first | assumption | (intro _) | apply Keeps.setAdm | apply Keeps.kickInst | apply Keeps.ite |
                                  fail_if_no_progress apply Keeps.of) | split

theorem Keeps.kickSlot {k₀ : State} {s : State} (hk₀ : Keeps k₀ s) (k : Nat) : Keeps k₀ (Machine.State.kickSlot s k) := by
  unfold Machine.State.kickSlot
  try dsimp only
  repeat' first | (with_reducible first | assumption | apply Keeps.kickQueue | apply Keeps.kickPoll | apply Keeps.ite) | split

theorem Keeps.sinkEdge {k₀ : State} {s : State} (hk₀ : Keeps k₀ s) (k : Nat) (ls : List (Nat × Nat)) : Keeps k₀ (Machine.State.sinkEdge s k
    ls) := by
  unfold Machine.State.sinkEdge
  try dsimp only
  repeat' first | (with_reducible first | assumption | (intro _) | apply Keeps.setWaitFlag | apply Keeps.snapshot | apply Keeps.timerEdge |
                                  apply Keeps.kickSlot | apply Keeps.foldl | apply Keeps.foldlFst | apply Keeps.ite |
                                  fail_if_no_progress apply Keeps.of) | split

theorem Keeps.countLine {k₀ : State} {s : State} (hk₀ : Keeps k₀ s) (w : Nat) (k : Nat) : Keeps k₀ (Machine.State.countLine s w k) := by
  exact Keeps.is3 hk₀ _ (WordMap.wf_put _ _ _)

theorem Keeps.deliverEdges {k₀ : State} {s : State} (hk₀ : Keeps k₀ s) (ls : List (Nat × Nat)) : Keeps k₀ (Machine.State.deliverEdges s ls)
    := by
  unfold Machine.State.deliverEdges
  try dsimp only
  repeat' first | (with_reducible first | assumption | (intro _) | apply Keeps.lineFlag | apply Keeps.sinkEdge | apply Keeps.countLine |
                                  apply Keeps.foldl | apply Keeps.foldlFst | apply Keeps.ite) | split

theorem Keeps.openWindow {k₀ : State} {s : State} (hk₀ : Keeps k₀ s) (l : Nat) (t : Nat) : Keeps k₀ (Machine.State.openWindow s l t) := by
  unfold Machine.State.openWindow
  try dsimp only
  repeat' first | (with_reducible first | assumption | apply Keeps.putLine | fail_if_no_progress apply Keeps.of)

theorem Keeps.lineEdge {k₀ : State} {s : State} (hk₀ : Keeps k₀ s) (l : Nat) (n : Nat) (extra : Nat) (h : Nat) : Keeps k₀
    (Machine.State.lineEdge s l n extra h).1 := by
  unfold Machine.State.lineEdge
  try dsimp only
  repeat' first | (with_reducible first | assumption | (intro _) | apply Keeps.setFld | apply Keeps.sEvent | apply Keeps.putLine |
                                  apply Keeps.countLine | apply Keeps.openWindow | apply Keeps.ite | fail_if_no_progress apply Keeps.of) |
                                  split

theorem Keeps.takeDue {k₀ : State} {s : State} (hk₀ : Keeps k₀ s) (c : Nat) : Keeps k₀ (Machine.State.takeDue s c).1 := by
  unfold Machine.State.takeDue
  try dsimp only
  repeat' first | (with_reducible first | assumption | (intro _) | apply Keeps.putLine | apply Keeps.openWindow | apply Keeps.foldl |
                                  apply Keeps.foldlFst | apply Keeps.ite | fail_if_no_progress apply Keeps.of) | split

theorem Keeps.settleDue {k₀ : State} {s : State} (hk₀ : Keeps k₀ s) (n₀ : Nat) : Keeps k₀ (Machine.State.settleDue s n₀) := by
  induction n₀ generalizing s with
  | zero =>
    unfold Machine.State.settleDue; try dsimp only
    repeat' first | (with_reducible first | assumption | apply ih | (intro _) | apply Keeps.deliverEdges |
                                    refine Keeps.fst (by assumption) (Keeps.takeDue ?_ ..) | apply Keeps.takeDue | apply Keeps.ite |
                                    fail_if_no_progress apply Keeps.of) | split
  | succ n₀ ih =>
    unfold Machine.State.settleDue; try dsimp only
    repeat' first | (with_reducible first | assumption | apply ih | (intro _) | apply Keeps.deliverEdges |
                                    refine Keeps.fst (by assumption) (Keeps.takeDue ?_ ..) | apply Keeps.takeDue | apply Keeps.ite |
                                    fail_if_no_progress apply Keeps.of) | split

theorem Keeps.takePulses {k₀ : State} {s : State} (hk₀ : Keeps k₀ s) (ns : List Nat) : Keeps k₀ (Machine.State.takePulses s ns) := by
  unfold Machine.State.takePulses
  try dsimp only
  repeat' first | (with_reducible first | assumption | (intro _) | apply Keeps.foldl | apply Keeps.foldlFst |
                                  fail_if_no_progress apply Keeps.of)

theorem Keeps.pulseLevels {k₀ : State} {s : State} (hk₀ : Keeps k₀ s) (ns : List Nat) : Keeps k₀ (Machine.State.pulseLevels s ns) := by
  unfold Machine.State.pulseLevels
  try dsimp only
  repeat' first | (with_reducible first | assumption | (intro _) | apply Keeps.lineLevel | apply Keeps.gateTimers | apply Keeps.foldl |
                                  apply Keeps.foldlFst | apply Keeps.ite | fail_if_no_progress apply Keeps.of) | split

theorem Keeps.execEvmSourcePulse {k₀ : State} (sources : List Nat) {s : State} (hk₀ : Keeps k₀ s) : KeepsOut k₀ (Machine.execEvmSourcePulse
    sources s) := by
  unfold Machine.execEvmSourcePulse
  try dsimp only
  repeat' first | (with_reducible first | assumption | (intro _) | apply KeepsOut.next | exact KeepsOut.fault | apply Keeps.hit |
                                  apply Keeps.refreshEvm | apply Keeps.deliverEdges |
                                  refine Keeps.fst (by assumption) (Keeps.lineEdge ?_ ..) | apply Keeps.lineEdge |
                                  refine Keeps.fst (by assumption) (Keeps.takeDue ?_ ..) | apply Keeps.takeDue | apply Keeps.settleDue |
                                  apply Keeps.takePulses | apply Keeps.pulseLevels | apply Keeps.foldl | apply Keeps.foldlFst |
                                  apply KeepsOut.ite | apply Keeps.ite | fail_if_no_progress apply Keeps.of) | split

theorem Keeps.execRateMergedEdge {k₀ : State} (line : Nat) {s : State} (hk₀ : Keeps k₀ s) : KeepsOut k₀ (Machine.execRateMergedEdge line s)
    := by
  unfold Machine.execRateMergedEdge
  try dsimp only
  repeat' first | (with_reducible first | assumption | (intro _) | apply KeepsOut.next | exact KeepsOut.fault | apply Keeps.deliverEdges |
                                  refine Keeps.fst (by assumption) (Keeps.takeDue ?_ ..) | apply Keeps.takeDue | apply Keeps.settleDue |
                                  apply KeepsOut.ite | apply Keeps.ite | fail_if_no_progress apply Keeps.of) | split

theorem Keeps.execStuckCeil {k₀ : State} (line : Nat) {s : State} (hk₀ : Keeps k₀ s) : KeepsOut k₀ (Machine.execStuckCeil line s) := by
  unfold Machine.execStuckCeil
  try dsimp only
  repeat' first | (with_reducible first | assumption | apply KeepsOut.next | exact KeepsOut.fault | apply Keeps.logErr |
                                  apply Keeps.putLine | apply Keeps.refreshEvm | apply KeepsOut.ite | apply Keeps.ite |
                                  fail_if_no_progress apply Keeps.of) | split

theorem Keeps.execEvInFall {k₀ : State} (i : Nat) {s : State} (hk₀ : Keeps k₀ s) : KeepsOut k₀ (Machine.execEvInFall i s) := by
  unfold Machine.execEvInFall
  try dsimp only
  repeat' first | (with_reducible first | assumption | (intro _) | apply KeepsOut.next | exact KeepsOut.fault | apply Keeps.refreshEvm |
                                  apply KeepsOut.ite | apply Keeps.ite | fail_if_no_progress apply Keeps.of) | split

theorem Keeps.lineWritten {k₀ : State} {s : State} (hk₀ : Keeps k₀ s) (l : Nat) (wasDirect : Bool) : Keeps k₀ (Machine.State.lineWritten s l
    wasDirect) := by
  unfold Machine.State.lineWritten
  try dsimp only
  repeat' first | (with_reducible first | assumption | apply Keeps.putLine | apply Keeps.ite | fail_if_no_progress apply Keeps.of) | split

/-! Machine/Logs.lean. -/

theorem Keeps.execErrorLogWrite {k₀ : State} {s : State} (hk₀ : Keeps k₀ s) : KeepsOut k₀ (Machine.execErrorLogWrite s) := by
  unfold Machine.execErrorLogWrite
  split
  · exact KeepsOut.next hk₀
  · rename_i e rest he
    have h1 : Keeps k₀ { s with errQ := rest } := by
      refine hk₀.trans ⟨rfl, id, ?_, id, rfl, id⟩
      simp only [State.errOk, he, List.length_cons, decide_eq_true_eq]
      omega
    dsimp only
    refine KeepsOut.ite (KeepsOut.next hk₀) (KeepsOut.ite (KeepsOut.next (Keeps.ite hk₀ (Keeps.service h1 _))) (KeepsOut.next (Keeps.loseErr
        h1 _)))

theorem Keeps.execErrorLogAck {k₀ : State} (aid : Nat) (code : BitVec 6) {s : State} (hk₀ : Keeps k₀ s) : KeepsOut k₀
    (Machine.execErrorLogAck aid code s) := by
  unfold Machine.execErrorLogAck
  try dsimp only
  repeat' first | (with_reducible first | assumption | (intro _) | apply KeepsOut.next | exact KeepsOut.fault | apply Keeps.sEvent |
                                  apply Keeps.pulse | apply Keeps.drainHeld | apply Keeps.dropAccess | apply Keeps.errGiveUp |
                                  apply Keeps.errAgain | apply KeepsOut.ite | apply Keeps.ite | fail_if_no_progress apply Keeps.of) | split

theorem Keeps.execFilterSweepDone {k₀ : State} {s : State} (hk₀ : Keeps k₀ s) : KeepsOut k₀ (Machine.execFilterSweepDone s) := by
  unfold Machine.execFilterSweepDone
  try dsimp only
  repeat' first | (with_reducible first | assumption | (intro _) | apply KeepsOut.next | exact KeepsOut.fault | apply Keeps.setFld |
                                  apply Keeps.admCheck | apply KeepsOut.ite | apply Keeps.ite | fail_if_no_progress apply Keeps.of) | split

/-! Machine/Clocks.lean. -/

theorem Keeps.setSrc {k₀ : State} {s : State} (hk₀ : Keeps k₀ s) (d : Nat) (v : Nat) : Keeps k₀ (Machine.State.setSrc s d v) := by
  unfold Machine.State.setSrc
  try dsimp only
  repeat' first | (with_reducible first | assumption | apply Keeps.setFld | apply Keeps.ite) | split

theorem Keeps.setPll {k₀ : State} {s : State} (hk₀ : Keeps k₀ s) (p : Bool) (v : Nat) : Keeps k₀ (Machine.State.setPll s p v) := by
  unfold Machine.State.setPll
  try dsimp only
  repeat' first | (with_reducible first | assumption | apply Keeps.setFld)

theorem Keeps.putPll {k₀ : State} {s : State} (hk₀ : Keeps k₀ s) (p : Bool) (x : Pll) : Keeps k₀ (Machine.State.putPll s p x) := by
  unfold Machine.State.putPll
  try dsimp only
  repeat' first | (with_reducible first | assumption | apply Keeps.ite | fail_if_no_progress apply Keeps.of) | split

theorem Keeps.switchOne {k₀ : State} {s : State} (hk₀ : Keeps k₀ s) (target : Nat) (hang : Bool) (d : Nat) : Keeps k₀
    (Machine.State.switchOne s target hang d) := by
  unfold Machine.State.switchOne
  try dsimp only
  repeat' first | (with_reducible first | assumption | apply Keeps.setSrc | apply Keeps.ite | fail_if_no_progress apply Keeps.of) | split

theorem Keeps.pllStart {k₀ : State} {s : State} (hk₀ : Keeps k₀ s) (p : Bool) (tripped : Bool) : Keeps k₀ (Machine.State.pllStart s p
    tripped) := by
  unfold Machine.State.pllStart
  try dsimp only
  repeat' first | (with_reducible first | assumption | apply Keeps.setPll | apply Keeps.putPll)

theorem Keeps.pllJudged {k₀ : State} {s : State} (hk₀ : Keeps k₀ s) (p : Bool) : Keeps k₀ (Machine.State.pllJudged s p) := by
  unfold Machine.State.pllJudged
  try dsimp only
  repeat' first | (with_reducible first | assumption | (intro _) | apply Keeps.setFld | apply Keeps.setPll | apply Keeps.switchOne |
                                  apply Keeps.foldl | apply Keeps.foldlFst | apply Keeps.ite) | split

theorem Keeps.pllTrip {k₀ : State} {s : State} (hk₀ : Keeps k₀ s) (p : Bool) (hang : Bool) : Keeps k₀ (Machine.State.pllTrip s p hang) := by
  unfold Machine.State.pllTrip
  try dsimp only
  repeat' first | (with_reducible first | assumption | (intro _) | apply Keeps.bump | apply Keeps.setPll | apply Keeps.switchOne |
                                  apply Keeps.pllStart | apply Keeps.foldl | apply Keeps.foldlFst | apply Keeps.ite) | split

theorem Keeps.execPllWindowEnd {k₀ : State} (p : Bool) (count : Nat) {s : State} (hk₀ : Keeps k₀ s) : KeepsOut k₀ (Machine.execPllWindowEnd
    p count s) := by
  unfold Machine.execPllWindowEnd
  try dsimp only
  repeat' first | (with_reducible first | assumption | apply KeepsOut.next | exact KeepsOut.fault | apply Keeps.setFld |
                                  apply Keeps.putPll | apply Keeps.pllJudged | apply Keeps.pllTrip | apply KeepsOut.ite | apply Keeps.ite |
                                  fail_if_no_progress apply Keeps.of) | split

theorem Keeps.execPllTapLost {k₀ : State} (p : Bool) {s : State} (hk₀ : Keeps k₀ s) : KeepsOut k₀ (Machine.execPllTapLost p s) := by
  unfold Machine.execPllTapLost
  try dsimp only
  repeat' first | (with_reducible first | assumption | apply KeepsOut.next | exact KeepsOut.fault | apply Keeps.pllTrip |
                                  apply KeepsOut.ite | apply Keeps.ite) | split

theorem Keeps.execPllLockCeil {k₀ : State} (p : Bool) {s : State} (hk₀ : Keeps k₀ s) : KeepsOut k₀ (Machine.execPllLockCeil p s) := by
  unfold Machine.execPllLockCeil
  try dsimp only
  repeat' first | (with_reducible first | assumption | apply KeepsOut.next | exact KeepsOut.fault | apply Keeps.logErr |
                                  apply Keeps.setPll | apply KeepsOut.ite | apply Keeps.ite) | split

theorem Keeps.pllCmd {k₀ : State} {s : State} (hk₀ : Keeps k₀ s) (v : Nat) : Keeps k₀ (Machine.State.pllCmd s v) := by
  unfold Machine.State.pllCmd
  try dsimp only
  repeat' first | (with_reducible first | assumption | (intro _) | apply Keeps.pllStart | apply Keeps.ite) | split

theorem Keeps.pWait {k₀ : State} {s : State} (hk₀ : Keeps k₀ s) (target : Nat) (up : Bool) (late : Bool) : Keeps k₀ (Machine.State.pWait s
    target up late) := by
  unfold Machine.State.pWait
  try dsimp only
  repeat' first | (with_reducible first | assumption | apply Keeps.setFld | fail_if_no_progress apply Keeps.of)

theorem Keeps.pHold {k₀ : State} {s : State} (hk₀ : Keeps k₀ s) (target : Nat) : Keeps k₀ (Machine.State.pHold s target) := by
  unfold Machine.State.pHold
  try dsimp only
  repeat' first | (with_reducible first | assumption | apply Keeps.setFld | fail_if_no_progress apply Keeps.of)

theorem Keeps.pRun {k₀ : State} {s : State} (hk₀ : Keeps k₀ s) (t : Nat) : Keeps k₀ (Machine.State.pRun s t) := by
  unfold Machine.State.pRun
  try dsimp only
  repeat' first | (with_reducible first | assumption | apply Keeps.setFld | apply Keeps.pWait | apply Keeps.ite) | split

theorem Keeps.pStart {k₀ : State} {s : State} (hk₀ : Keeps k₀ s) (t : Nat) : Keeps k₀ (Machine.State.pStart s t) := by
  unfold Machine.State.pStart
  try dsimp only
  repeat' first | (with_reducible first | assumption | apply Keeps.pWait | apply Keeps.pHold | apply Keeps.pRun | apply Keeps.ite) | split

theorem Keeps.trackIdle {k₀ : State} {s : State} (hk₀ : Keeps k₀ s) : Keeps k₀ (Machine.State.trackIdle s) := by
  unfold Machine.State.trackIdle
  try dsimp only
  repeat' first | (with_reducible first | assumption | apply Keeps.ite | fail_if_no_progress apply Keeps.of) | split

theorem Keeps.startWake {k₀ : State} {s : State} (hk₀ : Keeps k₀ s) (cause : Nat) : Keeps k₀ (Machine.State.startWake s cause) := by
  unfold Machine.State.startWake
  try dsimp only
  repeat' first | (with_reducible first | assumption | apply Keeps.setFld | apply Keeps.bump | apply Keeps.pllStart |
                                  fail_if_no_progress apply Keeps.of)

theorem Keeps.enterRest {k₀ : State} {s : State} (hk₀ : Keeps k₀ s) (hr : k₀.rstN = true) : Keeps k₀ (State.enterRest s) := by
  unfold State.enterRest
  have h2 : Keeps k₀ (((((s.stopLinks.wr .clkSrcLo 0 3).wr .clkSrcHi 0 0).setPll false 0).setPll true 0).wr .clkGateStat 0 0) :=
    Keeps.wr (Keeps.setPll (Keeps.setPll (Keeps.wr (Keeps.wr (Keeps.stopLinks hk₀) ..) ..) ..) ..) ..
  dsimp only
  revert h2
  generalize ((((s.stopLinks.wr .clkSrcLo 0 3).wr .clkSrcHi 0 0).setPll false 0).setPll true 0).wr .clkGateStat 0 0 = u
  intro h2
  split
  · with_reducible apply Keeps.startWake
    with_reducible apply Keeps.refreshPorts
    with_reducible apply Keeps.ofMode h2 (by decide) hr
  · with_reducible apply Keeps.refreshPorts
    with_reducible apply Keeps.ofMode h2 (by decide) hr

theorem Keeps.restStep {k₀ : State} {s : State} (hk₀ : Keeps k₀ s) (hr : k₀.rstN = true) : Keeps k₀ (State.restStep s) := by
  unfold State.restStep
  exact Keeps.ite (Keeps.enterRest hk₀ hr) hk₀

theorem Keeps.pEnd {k₀ : State} {s : State} (hk₀ : Keeps k₀ s) (hr : k₀.rstN = true) (was : Nat) : Keeps k₀ (State.pEnd s was) := by
  unfold State.pEnd
  have h0 : Keeps k₀ { (s.setFld .pwrStat 0 4 1 0) with pchange := none, clkWait := [] } := Keeps.of (Keeps.setFld hk₀ ..)
  have h1 := Keeps.foldl (f := fun (t : State) (w : Nat × Bool) => t.switchOne (curSource s) w.2 w.1) (xs := s.clkWait) h0
    (fun u w h => Keeps.switchOne h ..)
  dsimp only at h1 ⊢
  exact Keeps.ite (Keeps.restStep (Keeps.ite h1 (Keeps.pStart h1 _)) hr) (Keeps.ite h1 (Keeps.pStart h1 _))

theorem Keeps.levelWritten {k₀ : State} {s : State} (hk₀ : Keeps k₀ s) : Keeps k₀ (Machine.State.levelWritten s) := by
  unfold Machine.State.levelWritten
  try dsimp only
  repeat' first | (with_reducible first | assumption | apply Keeps.pStart | apply Keeps.ite) | split

theorem Keeps.heldLevel {k₀ : State} {s : State} (hk₀ : Keeps k₀ s) (hr : k₀.rstN = true) : Keeps k₀ (State.heldLevel s) := by
  unfold State.heldLevel
  have h1 : Keeps k₀ { (s.setFld .pwrStat 0 4 1 0) with pchange := none } := Keeps.of (Keeps.setFld hk₀ ..)
  split
  · dsimp only at h1 ⊢
    exact Keeps.ite hk₀ (Keeps.ite (Keeps.pStart h1 _) (Keeps.pEnd (Keeps.pStart h1 _) hr _))
  · exact hk₀

theorem Keeps.execPwAckToggle {k₀ : State} {s : State} (hk₀ : Keeps k₀ s) : KeepsOut k₀ (Machine.execPwAckToggle s) := by
  unfold Machine.execPwAckToggle
  dsimp only
  have h1 : Keeps k₀ { s with pwAck := !s.pwAck } := Keeps.of hk₀
  by_cases hf : (s.fatal || !s.rstN) = true
  · rw [if_pos hf]; exact KeepsOut.next h1
  · rw [if_neg hf]
    have hr : k₀.rstN = true := by rw [← hk₀.rstN]; simp at hf; exact hf.2
    split
    · exact KeepsOut.next (Keeps.setFld h1 ..)
    · have h2 : ∀ t, Keeps k₀ (({ ({ s with pwAck := !s.pwAck } : State).setFld .pwrStat 0 5 1 0 with pchange := none } : State).pRun t) :=
        fun t => Keeps.pRun (Keeps.of (Keeps.setFld h1 ..)) t
      refine KeepsOut.ite (KeepsOut.next (Keeps.setFld h1 ..)) (KeepsOut.ite (KeepsOut.next (Keeps.ite (h2 _) (Keeps.pEnd (h2 _) hr _)))
          (KeepsOut.ite (KeepsOut.next (Keeps.pEnd (Keeps.setFld h1 ..) hr _))
        (KeepsOut.next (Keeps.pEnd h1 hr _))))

theorem Keeps.execPwAckCeil {k₀ : State} {s : State} (hk₀ : Keeps k₀ s) : KeepsOut k₀ (Machine.execPwAckCeil s) := by
  unfold Machine.execPwAckCeil
  split
  · exact KeepsOut.next hk₀
  · rename_i c _
    by_cases hf : (s.fatal || !s.rstN || c.held || decide (s.nomNs < c.due)) = true
    · rw [if_pos hf]; exact KeepsOut.next hk₀
    · rw [if_neg hf]
      have hr : k₀.rstN = true := by rw [← hk₀.rstN]; simp at hf; exact hf.1.1.2
      have h1 : Keeps k₀ ((s.logErr (mkErr 3 0 0x49 0 0 63 0 0 c.target (inForce s))).setFld .pwrStat 0 5 1 1) := Keeps.setFld (Keeps.logErr
          hk₀ _) ..
      dsimp only
      revert h1
      generalize (s.logErr (mkErr 3 0 0x49 0 0 63 0 0 c.target (inForce s))).setFld .pwrStat 0 5 1 1 = u
      intro h1
      have h2 : Keeps k₀ (State.pRun { (u.setFld .pwrStat 0 4 1 0) with pchange := none } 3) := Keeps.pRun (Keeps.of (Keeps.setFld h1 ..)) _
      exact KeepsOut.ite (KeepsOut.next (Keeps.ite h2 (Keeps.pEnd h2 hr _))) (KeepsOut.next (Keeps.pEnd h1 hr _))

theorem Keeps.forcedAccess {k₀ : State} {s : State} (hk₀ : Keeps k₀ s) (a : Access) : Keeps k₀ (Machine.State.forcedAccess s a) := by
  unfold Machine.State.forcedAccess
  try dsimp only
  repeat' first | (with_reducible first | assumption | apply Keeps.logErr | apply Keeps.quarantine | apply Keeps.reissue |
                                  apply Keeps.logPage | apply Keeps.settle | apply Keeps.freeTable | apply Keeps.settleOf |
                                  apply Keeps.pollFail | fail_if_no_progress apply Keeps.of) | split

theorem Keeps.forcedLines {k₀ : State} {s : State} (hk₀ : Keeps k₀ s) (a : Access) : Keeps k₀ (Machine.State.forcedLines s a) := by
  unfold Machine.State.forcedLines
  try dsimp only
  repeat' first | (with_reducible first | assumption | apply Keeps.freeRead | fail_if_no_progress apply Keeps.of) | split

theorem Keeps.forceClu {k₀ : State} {s : State} (hk₀ : Keeps k₀ s) (n : Nat) : Keeps k₀ (Machine.State.forceClu s n) := by
  unfold Machine.State.forceClu
  try dsimp only
  repeat' first | (with_reducible first | assumption | (intro _) | apply Keeps.logErr | apply Keeps.leaveNow | apply Keeps.restartCluster |
                                  apply Keeps.forcedAccess | apply Keeps.forcedLines | apply Keeps.foldl | apply Keeps.foldlFst)

theorem Keeps.forceSch {k₀ : State} {s : State} (hk₀ : Keeps k₀ s) : Keeps k₀ (Machine.State.forceSch s) := by
  unfold Machine.State.forceSch
  try dsimp only
  repeat' first | (with_reducible first | assumption | (intro _) | apply Keeps.logErr | apply Keeps.drainHeld | apply Keeps.quarantine |
                                  apply Keeps.endBind | apply Keeps.markReady | apply Keeps.logPage | apply Keeps.pollFail |
                                  apply Keeps.foldl | apply Keeps.foldlFst)

theorem Keeps.forceAdm {k₀ : State} {s : State} (hk₀ : Keeps k₀ s) : Keeps k₀ (Machine.State.forceAdm s) := by
  unfold Machine.State.forceAdm
  try dsimp only
  repeat' first | (with_reducible first | assumption | (intro _) | apply Keeps.quarantine | apply Keeps.admAgain | apply Keeps.errAgain |
                                  apply Keeps.foldl | apply Keeps.foldlFst | fail_if_no_progress apply Keeps.of) | split

theorem Keeps.execMuxHangCeil {k₀ : State} (d : Nat) {s : State} (hk₀ : Keeps k₀ s) : KeepsOut k₀ (Machine.execMuxHangCeil d s) := by
  unfold Machine.execMuxHangCeil
  refine KeepsOut.ite KeepsOut.fault ?_
  split
  · exact KeepsOut.next hk₀
  · rename_i x _
    by_cases hf : (s.fatal || !s.rstN || decide (s.nomNs < x.since + 10 * x.ceil)) = true
    · rw [if_pos hf]; exact KeepsOut.next hk₀
    · rw [if_neg hf]
      have hr : k₀.rstN = true := by rw [← hk₀.rstN]; simp at hf; exact hf.1.2
      dsimp only
      repeat' first | (with_reducible first | assumption | (intro _) | apply KeepsOut.next | apply Keeps.bump | apply Keeps.logErr |
                                      apply Keeps.setSync | apply Keeps.setSrc | apply Keeps.heldLevel | apply Keeps.forceClu |
                                      apply Keeps.forceSch | apply Keeps.forceAdm | apply Keeps.foldl | apply Keeps.foldlFst |
                                      apply KeepsOut.ite | apply Keeps.ite | fail_if_no_progress apply Keeps.of) | split

theorem Keeps.execSuspectClear {k₀ : State} (d : Nat) {s : State} (hk₀ : Keeps k₀ s) : KeepsOut k₀ (Machine.execSuspectClear d s) := by
  unfold Machine.execSuspectClear
  try dsimp only
  repeat' first | (with_reducible first | assumption | (intro _) | apply KeepsOut.next | exact KeepsOut.fault | apply KeepsOut.ite |
                                  apply Keeps.ite | fail_if_no_progress apply Keeps.of) | split

theorem Keeps.gateOne {k₀ : State} {s : State} (hk₀ : Keeps k₀ s) (i : Nat) : Keeps k₀ (Machine.State.gateOne s i) := by
  unfold Machine.State.gateOne
  try dsimp only
  repeat' first | (with_reducible first | assumption | (intro _) | apply Keeps.setFld | apply Keeps.linkTrain | apply Keeps.linkStop |
                                  apply Keeps.unitsStop | apply Keeps.setSrc | apply Keeps.ite | fail_if_no_progress apply Keeps.of) | split

theorem Keeps.gateWritten {k₀ : State} {s : State} (hk₀ : Keeps k₀ s) : Keeps k₀ (Machine.State.gateWritten s) := by
  unfold Machine.State.gateWritten
  try dsimp only
  repeat' first | (with_reducible first | assumption | (intro _) | apply Keeps.drainHeld | apply Keeps.pumpCtx | apply Keeps.gateOne |
                                  apply Keeps.foldl | apply Keeps.foldlFst | apply Keeps.ite) | split

theorem Keeps.execClusterClockStop {k₀ : State} (n : Nat) {s : State} (hk₀ : Keeps k₀ s) : KeepsOut k₀ (Machine.execClusterClockStop n s) :=
    by
  unfold Machine.execClusterClockStop
  try dsimp only
  repeat' first | (with_reducible first | assumption | (intro _) | apply KeepsOut.next | exact KeepsOut.fault | apply Keeps.setFld |
                                  apply Keeps.drainHeld | apply KeepsOut.ite | apply Keeps.ite) | split

theorem Keeps.execRestIdleMet {k₀ : State} {s : State} (hk₀ : Keeps k₀ s) : KeepsOut k₀ (Machine.execRestIdleMet s) := by
  unfold Machine.execRestIdleMet
  try dsimp only
  repeat' first | (with_reducible first | assumption | apply KeepsOut.next | exact KeepsOut.fault | apply Keeps.admEnd |
                                  apply KeepsOut.ite | apply Keeps.ite | fail_if_no_progress apply Keeps.of) | split

theorem Keeps.execRestTimeout {k₀ : State} {s : State} (hk₀ : Keeps k₀ s) : KeepsOut k₀ (Machine.execRestTimeout s) := by
  unfold Machine.execRestTimeout
  try dsimp only
  repeat' first | (with_reducible first | assumption | apply KeepsOut.next | exact KeepsOut.fault | apply Keeps.admEnd |
                                  apply KeepsOut.ite | apply Keeps.ite | fail_if_no_progress apply Keeps.of) | split

theorem Keeps.execRestEntry {k₀ : State} {s : State} (hk₀ : Keeps k₀ s) : KeepsOut k₀ (Machine.execRestEntry s) := by
  unfold Machine.execRestEntry
  by_cases hf : (s.fatal || !s.rstN || decide (s.mode ≠ .run)) = true
  · rw [if_pos hf]; exact KeepsOut.next hk₀
  · rw [if_neg hf]
    have hr : k₀.rstN = true := by rw [← hk₀.rstN]; simp at hf; exact hf.1.2
    have h1 : Keeps k₀ { s with restEnter := 2 } := Keeps.of hk₀
    dsimp only
    exact KeepsOut.ite (KeepsOut.ite (KeepsOut.next hk₀) (KeepsOut.next (Keeps.restStep (Keeps.ite h1 (Keeps.pStart h1 _)) hr)))
      (KeepsOut.next (Keeps.restStep hk₀ hr))

theorem Keeps.wakeBy {k₀ : State} {s : State} (hk₀ : Keeps k₀ s) (cause : Nat) : Keeps k₀ (Machine.State.wakeBy s cause) := by
  unfold Machine.State.wakeBy
  try dsimp only
  repeat' first | (with_reducible first | assumption | apply Keeps.startWake | apply Keeps.ite | fail_if_no_progress apply Keeps.of) | split

theorem Keeps.execEvInEdge {k₀ : State} (i : Nat) (hop : BitVec 3) {s : State} (hk₀ : Keeps k₀ s) : KeepsOut k₀ (Machine.execEvInEdge i hop
    s) := by
  unfold Machine.execEvInEdge
  try dsimp only
  repeat' first | (with_reducible first | assumption | (intro _) | apply KeepsOut.next | exact KeepsOut.fault | apply Keeps.pulse |
                                  apply Keeps.refreshEvm | apply Keeps.wakeBy | apply KeepsOut.ite | apply Keeps.ite |
                                  fail_if_no_progress apply Keeps.of) | split

theorem Keeps.execWake {k₀ : State} (c : WakeCause) {s : State} (hk₀ : Keeps k₀ s) : KeepsOut k₀ (Machine.execWake c s) := by
  unfold Machine.execWake
  try dsimp only
  repeat' first | (with_reducible first | assumption | apply KeepsOut.next | exact KeepsOut.fault | apply Keeps.wakeBy |
                                  apply KeepsOut.ite | apply Keeps.ite | fail_if_no_progress apply Keeps.of) | split

theorem Keeps.execWakeTimer {k₀ : State} {s : State} (hk₀ : Keeps k₀ s) : KeepsOut k₀ (Machine.execWakeTimer s) := by
  unfold Machine.execWakeTimer
  try dsimp only
  repeat' first | (with_reducible first | assumption | apply KeepsOut.next | exact KeepsOut.fault | apply Keeps.wakeBy |
                                  apply KeepsOut.ite | apply Keeps.ite) | split

theorem Keeps.execWakeRestart {k₀ : State} {s : State} (hk₀ : Keeps k₀ s) : KeepsOut k₀ (Machine.execWakeRestart s) := by
  unfold Machine.execWakeRestart
  try dsimp only
  repeat' first | (with_reducible first | assumption | (intro _) | apply KeepsOut.next | exact KeepsOut.fault | apply Keeps.wr |
                                  apply Keeps.drainHeld | apply Keeps.startLinks | apply Keeps.setAdm | apply Keeps.putPoll |
                                  apply Keeps.foldl | apply Keeps.foldlFst | apply KeepsOut.ite | apply Keeps.ite |
                                  fail_if_no_progress apply Keeps.of) | split

theorem Keeps.execWakeRun {k₀ : State} {s : State} (hk₀ : Keeps k₀ s) : KeepsOut k₀ (Machine.execWakeRun s) := by
  unfold Machine.execWakeRun
  split
  · exact KeepsOut.next hk₀
  · rename_i t _
    by_cases hf : s.mode ≠ .rest ∨ s.fatal ∨ !s.rstN ∨ s.nomNs < t + 40000 ∨ s.rd .clkGateStat 0 = 0
    · rw [if_pos hf]; exact KeepsOut.next hk₀
    · rw [if_neg hf]
      have hr : s.rstN = true := by simp only [not_or] at hf; simpa using hf.2.2.1
      have h1 : Keeps k₀ { s with mode := .run, wakeAt := none } :=
        (Keeps.modeTo hk₀ .run (by decide) hr).same rfl rfl rfl rfl rfl rfl rfl rfl rfl rfl rfl rfl rfl rfl
      exact KeepsOut.next (Keeps.refreshEvm (Keeps.admPump (Keeps.drainHeld (Keeps.levelWritten h1))))

theorem Keeps.goFatal {k₀ : State} {s : State} (hk₀ : Keeps k₀ s) (f : W32 → W32) : Keeps k₀ (Machine.State.goFatal s f) := by
  unfold Machine.State.goFatal
  try dsimp only
  repeat' first | (with_reducible first | assumption | (intro _) | apply Keeps.sEvent | fail_if_no_progress apply Keeps.of)

theorem Keeps.execRefclkLost {k₀ : State} {s : State} (hk₀ : Keeps k₀ s) : KeepsOut k₀ (Machine.execRefclkLost s) := by
  unfold Machine.execRefclkLost
  try dsimp only
  repeat' first | (with_reducible first | assumption | (intro _) | apply KeepsOut.next | exact KeepsOut.fault | apply Keeps.goFatal |
                                  apply KeepsOut.ite | apply Keeps.ite | fail_if_no_progress apply Keeps.of) | split

/-! Machine/Modes.lean. -/

theorem Keeps.noteMacro {k₀ : State} {s : State} (hk₀ : Keeps k₀ s) (f : MacroFault) : Keeps k₀ (Machine.State.noteMacro s f) := by
  unfold State.noteMacro
  dsimp only
  exact Keeps.ite hk₀ (Keeps.is6 hk₀ _ (fun w => WordMap.wf_put _ _ _ (WordMap.wf_put _ _ _ w)))

theorem Keeps.bistOut {k₀ : State} {s : State} (hk₀ : Keeps k₀ s) (n : Nat) : Keeps k₀ (Machine.State.bistOut s n) := by
  unfold Machine.State.bistOut
  try dsimp only
  repeat' first | (with_reducible first | assumption | (intro _) | apply Keeps.setFld | apply Keeps.ite) | split

theorem Keeps.bringupEnd {k₀ : State} {s : State} (hk₀ : Keeps k₀ s) (hr : k₀.rstN = true) (faults : List MacroFault) :
    Keeps k₀ (State.bringupEnd s faults) := by
  unfold State.bringupEnd
  dsimp only
  have h1 : Keeps k₀ (faults.foldl (fun t f => t.noteMacro f) s) := Keeps.foldl hk₀ (fun u x h => Keeps.noteMacro h x)
  generalize faults.foldl (fun t f => t.noteMacro f) s = u at h1 ⊢
  have h2 : Keeps k₀ (((List.range 16).filter (fun n => domainFailed u (2 + n))).foldl (fun t n => t.bistOut n) u) :=
    Keeps.foldl h1 (fun u x h => Keeps.bistOut h x)
  have h3 := Keeps.setFld (Keeps.foldl (f := fun t d => t.logErr (mkErr 3 d 0x4C 0 0 63 0 0 d
    ((macrosFailed u).filter (fun m => macroDomain m == d)).length)) (xs := (List.range 32).filter (fun d =>
      decide (((macrosFailed u).filter (fun m => macroDomain m == d)).length ≠ 0))) h2 (fun u x h => Keeps.logErr h _)) .glbStat 0 0 1 1
  exact Keeps.refreshEvm (Keeps.modeTo h3 .configure (by decide) (h3.rstN.trans hr))

theorem Keeps.execBringupEnd {k₀ : State} (faults : List MacroFault) {s : State} (hk₀ : Keeps k₀ s) : KeepsOut k₀ (Machine.execBringupEnd
    faults s) := by
  unfold Machine.execBringupEnd
  by_cases hf : s.mode ≠ .bringup ∨ s.fatal ∨ !s.rstN
  · rw [if_pos hf]; exact KeepsOut.next hk₀
  · rw [if_neg hf]
    have hr : k₀.rstN = true := by rw [← hk₀.rstN]; simp only [not_or] at hf; simpa using hf.2.2
    exact KeepsOut.next (Keeps.bringupEnd hk₀ hr faults)

theorem Keeps.bringupCeil {k₀ : State} {s : State} (hk₀ : Keeps k₀ s) (hr : k₀.rstN = true) : Keeps k₀ (State.bringupCeil s) := by
  unfold State.bringupCeil
  exact Keeps.ite (Keeps.bringupEnd (Keeps.of hk₀) hr _) hk₀

theorem Keeps.flushWays {k₀ : State} {s : State} (hk₀ : Keeps k₀ s) : Keeps k₀ (Machine.State.flushWays s) := by
  unfold Machine.State.flushWays
  try dsimp only
  repeat' first | (with_reducible first | assumption | (intro _) | apply Keeps.evict | apply Keeps.foldl | apply Keeps.foldlFst)

theorem Keeps.modeRequested {k₀ : State} {s : State} (hk₀ : Keeps k₀ s) (v : Nat) : Keeps k₀ (Machine.State.modeRequested s v) := by
  unfold Machine.State.modeRequested
  try dsimp only
  repeat' first | (with_reducible first | assumption | apply Keeps.flushWays | apply Keeps.ite | fail_if_no_progress apply Keeps.of) | split

theorem Keeps.execModeTransitionDone {k₀ : State} {s : State} (hk₀ : Keeps k₀ s) : KeepsOut k₀ (Machine.execModeTransitionDone s) := by
  unfold Machine.execModeTransitionDone
  by_cases hf : (s.fatal || !s.rstN) = true
  · rw [if_pos hf]; exact KeepsOut.next hk₀
  · rw [if_neg hf]
    have hr : s.rstN = true := by simp at hf; exact hf.2
    have hr0 : k₀.rstN = true := by rw [← hk₀.rstN]; exact hr
    have hm : ∀ m, m ≠ .reset → Keeps k₀ { s with mode := m, modeNext := none } := fun m h =>
      (Keeps.modeTo hk₀ m h hr).same rfl rfl rfl rfl rfl rfl rfl rfl rfl rfl rfl rfl rfl rfl
    split
    · dsimp only
      with_reducible apply KeepsOut.next
      with_reducible apply Keeps.refreshEvm
      with_reducible apply Keeps.admPump
      with_reducible apply Keeps.drainHeld
      with_reducible refine Keeps.foldl (hm .run (by decide)) ?_
      intro u x h
      exact Keeps.ite h (Keeps.dueNow h x)
    · with_reducible apply KeepsOut.ite
      · have h1 := Keeps.unitsStop hk₀
        dsimp only
        revert h1
        generalize s.unitsStop = u
        intro h1
        with_reducible apply KeepsOut.next
        with_reducible apply Keeps.admPump
        with_reducible apply Keeps.pumpCtx
        with_reducible apply Keeps.drainHeld
        with_reducible apply Keeps.startLinks
        exact Keeps.ofMode (mode' := .configure) (t := { u with is4 := [], is4Seen := [] }) (Keeps.is4s h1 [] [] (fun _ => rfl) (fun _ =>
            rfl)) (by decide) hr0
      · with_reducible apply KeepsOut.ite
        · exact KeepsOut.next hk₀
        · with_reducible apply KeepsOut.next
          exact hm .configure (by decide)
    · with_reducible apply KeepsOut.ite
      · exact KeepsOut.next (Keeps.flushWays hk₀)
      · have h1 := Keeps.stopLinks hk₀
        revert h1
        generalize s.stopLinks = u
        intro h1
        with_reducible apply KeepsOut.next
        exact Keeps.ofMode h1 (by decide) hr0
    · exact KeepsOut.next hk₀

end Sys2Proof.Machine
end
end

