-- ==== Sys2Proof/Laws/KeepsReg.lean ====
section
/-! SUPPORT. Keeps, function by function: registers, admin commands, instances, the federation, contexts, test, answers and the tick.
Each lemma unfolds its function once and applies the lemma of every function that it calls. -/

section
set_option Elab.async false

namespace Sys2Proof.Machine

/-! Machine/CtxOps.lean. -/

theorem Keeps.ctxAgain {k₀ : State} {s : State} (hk₀ : Keeps k₀ s) (a : Access) (resp : BitVec 6) : Keeps k₀ (Machine.State.ctxAgain s a
    resp) := by
  unfold Machine.State.ctxAgain
  try dsimp only
  repeat' first | (with_reducible first | assumption | apply Keeps.logErr | apply Keeps.serviceAgain | fail_if_no_progress apply Keeps.of) |
                                  split

theorem Keeps.rescanned {k₀ : State} {t : State} (hk₀ : Keeps k₀ t) (s : State) : Keeps k₀ (Machine.State.rescanned t s) := by
  unfold Machine.State.rescanned
  try dsimp only
  repeat' first | (with_reducible first | assumption | (intro _) | apply Keeps.fullScanNext | apply Keeps.foldl | apply Keeps.foldlFst |
                                  apply Keeps.ite) | split

theorem Keeps.setFedState {k₀ : State} {s : State} (hk₀ : Keeps k₀ s) (v : Nat) : Keeps k₀ (Machine.State.setFedState s v) := by
  unfold Machine.State.setFedState
  try dsimp only
  repeat' first | (with_reducible first | assumption | apply Keeps.setFld | apply Keeps.rescanned)

theorem Keeps.setMembers {k₀ : State} {s : State} (hk₀ : Keeps k₀ s) (mask : Nat) : Keeps k₀ (Machine.State.setMembers s mask) := by
  unfold Machine.State.setMembers
  try dsimp only
  repeat' first | (with_reducible first | assumption | apply Keeps.setFld | apply Keeps.rescanned)

theorem Keeps.enterMember {k₀ : State} {s : State} (hk₀ : Keeps k₀ s) : Keeps k₀ (Machine.State.enterMember s) := by
  unfold Machine.State.enterMember
  try dsimp only
  repeat' first | (with_reducible first | assumption | (intro _) | apply Keeps.setFld | apply Keeps.writeBack | apply Keeps.rescanned |
                                  apply Keeps.foldl | apply Keeps.foldlFst | apply Keeps.ite | fail_if_no_progress apply Keeps.of) | split

theorem Keeps.heldCheck {k₀ : State} {s : State} (hk₀ : Keeps k₀ s) : Keeps k₀ (Machine.State.heldCheck s) := by
  unfold Machine.State.heldCheck
  try dsimp only
  repeat' first | (with_reducible first | assumption | (intro _) | apply Keeps.wr | apply Keeps.enterMember | apply Keeps.foldl |
                                  apply Keeps.foldlFst | apply Keeps.ite) | split

/-! Machine/RegOps.lean. -/

theorem EvmBank.ok_iff (b : EvmBank) : b.ok = true ↔ (b.is1.wf = true ∧ b.is2.wf = true) ∧ b.regs.wf = true := by
  simp only [EvmBank.ok, Bool.and_eq_true]

theorem EvmBank.putReg_ok {b : EvmBank} (h : b.ok = true) (r : Reg) (i : Nat) (v : W32) : (b.putReg r i v).ok = true := by
  rw [EvmBank.ok_iff] at h ⊢
  exact ⟨h.1, WordMap.wf_put _ _ _ h.2⟩

theorem EvmBank.apply_ok {b : EvmBank} (h : b.ok = true) (x : W64 × W64) : (b.apply x).ok = true := by
  unfold EvmBank.apply
  dsimp only
  split
  · rw [EvmBank.ok_iff] at h ⊢
    exact ⟨⟨WordMap.wf_put _ _ _ h.1.1, h.1.2⟩, h.2⟩
  · split
    · rw [EvmBank.ok_iff] at h ⊢
      exact ⟨⟨h.1.1, WordMap.wf_put _ _ _ h.1.2⟩, h.2⟩
    · split
      · split
        · exact EvmBank.putReg_ok h ..
        · exact h
      · exact h

theorem EvmBank.applies_ok (xs : List (W64 × W64)) {b : EvmBank} (h : b.ok = true) : (xs.foldl (fun b x => b.apply x) b).ok = true :=
  List.foldlRecOn (motive := fun b => EvmBank.ok b = true) xs _ h (fun _ h x _ => EvmBank.apply_ok h x)

theorem Keeps.putReg {k₀ : State} {s : State} (hk₀ : Keeps k₀ s) (r : Reg) (i : Nat) (v : W32) : Keeps k₀ (Machine.State.putReg s r i v) := by
  unfold Machine.State.putReg
  with_reducible apply Keeps.ite
  · exact Keeps.evms hk₀ _ _ (fun h _ => EvmBank.putReg_ok h ..) (fun _ h => EvmBank.putReg_ok h ..)
  · exact Keeps.wr hk₀ ..

theorem Keeps.reportDrop {k₀ : State} {s : State} (hk₀ : Keeps k₀ s) (reason : Nat) (agent : Nat) (off : Nat) : Keeps k₀
    (Machine.State.reportDrop s reason agent off) := by
  unfold Machine.State.reportDrop
  try dsimp only
  repeat' first | (with_reducible first | assumption | (intro _) | apply Keeps.bump | apply Keeps.sEvent |
                                  fail_if_no_progress apply Keeps.of)

theorem Keeps.tbAdd {k₀ : State} {s : State} (hk₀ : Keeps k₀ s) (v : W64) : Keeps k₀ (Machine.State.tbAdd s v) := by
  unfold Machine.State.tbAdd
  try dsimp only
  repeat' first | (with_reducible first | assumption | apply Keeps.ite | fail_if_no_progress apply Keeps.of) | split

theorem Keeps.tbLoad {k₀ : State} {s : State} (hk₀ : Keeps k₀ s) (v : W64) : Keeps k₀ (Machine.State.tbLoad s v) := by
  unfold Machine.State.tbLoad
  try dsimp only
  repeat' first | (with_reducible first | assumption | fail_if_no_progress apply Keeps.of)

theorem Keeps.tbRate {k₀ : State} {s : State} (hk₀ : Keeps k₀ s) (v : W32) : Keeps k₀ (Machine.State.tbRate s v) := by
  unfold Machine.State.tbRate
  try dsimp only
  repeat' first | (with_reducible first | assumption | apply Keeps.wr | fail_if_no_progress apply Keeps.of)

theorem Keeps.admEnableSet {k₀ : State} {s : State} (hk₀ : Keeps k₀ s) (agent : Nat) : Keeps k₀ (Machine.State.admEnableSet s agent) := by
  unfold Machine.State.admEnableSet
  try dsimp only
  repeat' first | (with_reducible first | assumption | apply Keeps.setFld | apply Keeps.discardStaged | fail_if_no_progress apply Keeps.of)

theorem Keeps.admForget {k₀ : State} {s : State} (hk₀ : Keeps k₀ s) : Keeps k₀ (Machine.State.admForget s) := by
  unfold Machine.State.admForget
  try dsimp only
  repeat' first | (with_reducible first | assumption | (intro _) | apply Keeps.setAdm | apply Keeps.admDoorbell |
                                  fail_if_no_progress apply Keeps.of) | split

theorem Keeps.admEnableClear {k₀ : State} {s : State} (hk₀ : Keeps k₀ s) : Keeps k₀ (Machine.State.admEnableClear s) := by
  unfold Machine.State.admEnableClear
  try dsimp only
  repeat' first | (with_reducible first | assumption | apply Keeps.setFld | apply Keeps.discardStaged | apply Keeps.admForget |
                                  apply Keeps.ite) | split

theorem Keeps.unitWritten {k₀ : State} {s : State} (hk₀ : Keeps k₀ s) (u : Nat) (old : W32) (new : W32) : Keeps k₀
    (Machine.State.unitWritten s u old new) := by
  unfold Machine.State.unitWritten
  try dsimp only
  repeat' first | (with_reducible first | assumption | (intro _) | apply Keeps.testGo | apply Keeps.unitStart | apply Keeps.unitClear |
                                  apply Keeps.ite) | split

theorem Keeps.runWritten {k₀ : State} {s : State} (hk₀ : Keeps k₀ s) (old : W32) (new : W32) : Keeps k₀ (Machine.State.runWritten s old new)
    := by
  unfold Machine.State.runWritten
  try dsimp only
  repeat' first | (with_reducible first | assumption | (intro _) | apply Keeps.setSync | apply Keeps.unitStart | apply Keeps.foldl |
                                  apply Keeps.foldlFst | apply Keeps.ite) | split

theorem Keeps.mbistStart {k₀ : State} {s : State} (hk₀ : Keeps k₀ s) : Keeps k₀ (Machine.State.mbistStart s) := by
  unfold Machine.State.mbistStart
  try dsimp only
  repeat' first | (with_reducible first | assumption | apply Keeps.wr | apply Keeps.setFld | fail_if_no_progress apply Keeps.of)

theorem Keeps.linePair {k₀ : State} {s : State} (hk₀ : Keeps k₀ s) (old : EvmBank) (i : Nat) (mask : W32) : Keeps k₀ (Machine.State.linePair
    s old i mask) := by
  unfold Machine.State.linePair
  try dsimp only
  repeat' first | (with_reducible first | assumption | (intro _) | apply Keeps.lineWritten | apply Keeps.ite) | split

theorem Keeps.regStore {k₀ : State} {s : State} (hk₀ : Keeps k₀ s) (r : Reg) (i : Nat) (old : W32) (new : W32) (agent : Nat) : Keeps k₀
    (Machine.State.regStore s r i old new agent) := by
  unfold Machine.State.regStore
  try dsimp only
  repeat' first | (with_reducible first | assumption | (intro _) | apply Keeps.wr | apply Keeps.setFld | apply Keeps.dbgGo |
                                  apply Keeps.setsWin | apply Keeps.fullScanNext | apply Keeps.refreshEvm | apply Keeps.kickPoll |
                                  apply Keeps.pllCmd | apply Keeps.levelWritten | apply Keeps.gateWritten | apply Keeps.modeRequested |
                                  apply Keeps.heldCheck | apply Keeps.putReg | apply Keeps.tbAdd | apply Keeps.tbRate |
                                  apply Keeps.admEnableSet | apply Keeps.admEnableClear | apply Keeps.unitWritten | apply Keeps.runWritten |
                                  apply Keeps.mbistStart | apply Keeps.linePair | apply Keeps.foldl | apply Keeps.foldlFst |
                                  apply Keeps.ite | fail_if_no_progress apply Keeps.of) | split

theorem Keeps.seqClear {k₀ : State} {s : State} (hk₀ : Keeps k₀ s) (r : Reg) (i : Nat) (data : W32) : Keeps k₀ (Machine.State.seqClear s r i
    data) := by
  unfold Machine.State.seqClear
  try dsimp only
  repeat' first | (with_reducible first | assumption | apply Keeps.wr | apply Keeps.refreshEvm | apply Keeps.ite) | split

theorem Keeps.putInst {k₀ : State} {s : State} (hk₀ : Keeps k₀ s) (iid : Nat) (w : Nat) (v : W32) : Keeps k₀ (Machine.State.putInst s iid w
    v) := by
  unfold Machine.State.putInst
  try dsimp only
  repeat' first | (with_reducible first | assumption | apply Keeps.setInst | apply Keeps.putBucket | apply Keeps.dueNow | apply Keeps.ite |
                                  fail_if_no_progress apply Keeps.of) | split

theorem Keeps.applyItem {k₀ : State} {s : State} (hk₀ : Keeps k₀ s) (x : W64 × W64) : Keeps k₀ (Machine.State.applyItem s x) := by
  unfold Machine.State.applyItem
  try dsimp only
  repeat' first | (with_reducible first | assumption | (intro _) | apply Keeps.updCtx | apply Keeps.regStore | apply Keeps.putInst |
                                  apply Keeps.ite | fail_if_no_progress apply Keeps.of) | split

theorem Keeps.swapItem {k₀ : State} (old : EvmBank) {s : State} (hk₀ : Keeps k₀ s) (x : W64 × W64) : Keeps k₀ (Machine.State.swapItem old s
    x) := by
  unfold Machine.State.swapItem
  try dsimp only
  repeat' first | (with_reducible first | assumption | apply Keeps.wr | apply Keeps.setsWin | apply Keeps.linePair | apply Keeps.ite |
                                  fail_if_no_progress apply Keeps.of) | split

theorem Keeps.applyEvm {k₀ : State} {s : State} (hk₀ : Keeps k₀ s) (xs : List (W64 × W64)) : Keeps k₀ (Machine.State.applyEvm s xs) := by
  unfold Machine.State.applyEvm
  dsimp only
  with_reducible apply Keeps.ite hk₀
  with_reducible refine Keeps.reroute hk₀ _ (fun a h0 => ?_)
  with_reducible refine Keeps.foldl (Keeps.evmsOf h0 hk₀ _ _ ?_ ?_) (fun u x h => Keeps.swapItem _ h x)
  · exact fun h _ => EvmBank.applies_ok _ h
  · exact fun h _ => EvmBank.applies_ok _ h

/-! Machine/AdminCmds.lean. -/

theorem Keeps.beginCmd {k₀ : State} (op : Nat) (run : State → Bool → AdmCmd → State) {s : State} (hk₀ : Keeps k₀ s) (hk_run : ∀ a0 a1 a2,
    Keeps k₀ a0 → Keeps k₀ (run a0 a1 a2)) : KeepsOut k₀ (Machine.beginCmd op run s) := by
  unfold Machine.beginCmd
  try dsimp only
  repeat' first | (with_reducible first | assumption | (intro _) | apply hk_run | apply KeepsOut.next | exact KeepsOut.fault |
                                  fail_if_no_progress apply Keeps.of) | split

theorem Keeps.admRefuse {k₀ : State} {s : State} (hk₀ : Keeps k₀ s) (own : Bool) (status : Nat) (w5 : Nat) : Keeps k₀
    (Machine.State.admRefuse s own status w5) := by
  unfold Machine.State.admRefuse
  try dsimp only
  repeat' first | (with_reducible first | assumption | apply Keeps.admEnd)

theorem Keeps.toMembers {k₀ : State} {s : State} (hk₀ : Keeps k₀ s) (own : Bool) (c : AdmCmd) (items : List (W64 × W64)) (eff : State → Bool
    → AdmCmd → State) (hk_eff : ∀ a0 a1 a2, Keeps k₀ a0 → Keeps k₀ (eff a0 a1 a2)) : Keeps k₀ (Machine.State.toMembers s own c items eff) :=
    by
  unfold Machine.State.toMembers
  try dsimp only
  repeat' first | (with_reducible first | assumption | (intro _) | apply hk_eff | apply Keeps.putCmd | apply Keeps.sendConfig |
                                  apply Keeps.foldl | apply Keeps.foldlFst | fail_if_no_progress apply Keeps.of) | split

theorem Keeps.waitQuiesce {k₀ : State} {s : State} (hk₀ : Keeps k₀ s) (own : Bool) (c : AdmCmd) : Keeps k₀ (Machine.State.waitQuiesce s own
    c) := by
  unfold Machine.State.waitQuiesce
  try dsimp only
  repeat' first | (with_reducible first | assumption | apply Keeps.putCmd | fail_if_no_progress apply Keeps.of)

theorem Keeps.needQueue {k₀ : State} {s : State} (hk₀ : Keeps k₀ s) (own : Bool) (c : AdmCmd) (qid : Nat) (k : State → QCtx → State) (hk_k :
    ∀ a0 a1, Keeps k₀ a0 → Keeps k₀ (k a0 a1)) : Keeps k₀ (Machine.State.needQueue s own c qid k) := by
  unfold Machine.State.needQueue
  try dsimp only
  repeat' first | (with_reducible first | assumption | (intro _) | apply hk_k | apply Keeps.awaitCtx | apply Keeps.lookup |
                                  apply Keeps.putCmd | fail_if_no_progress apply Keeps.of) | split

theorem Keeps.readPiece {k₀ : State} {s : State} (hk₀ : Keeps k₀ s) (c : AdmCmd) (ofs : Nat) : Keeps k₀ (Machine.State.readPiece s c ofs) :=
    by
  unfold Machine.State.readPiece
  try dsimp only
  repeat' first | (with_reducible first | assumption | apply Keeps.service)

theorem Keeps.withList {k₀ : State} {s : State} (hk₀ : Keeps k₀ s) (own : Bool) (c : AdmCmd) (k : State → Bool → AdmCmd → State) (hk_k : ∀
    a0 a1 a2, Keeps k₀ a0 → Keeps k₀ (k a0 a1 a2)) : Keeps k₀ (Machine.State.withList s own c k) := by
  unfold Machine.State.withList
  try dsimp only
  repeat' first | (with_reducible first | assumption | (intro _) | apply hk_k | apply Keeps.putCmd | apply Keeps.readPiece |
                                  apply Keeps.ite | fail_if_no_progress apply Keeps.of) | split

theorem Keeps.createInst {k₀ : State} {s : State} (hk₀ : Keeps k₀ s) (own : Bool) (c : AdmCmd) : Keeps k₀ (Machine.State.createInst s own c)
    := by
  unfold Machine.State.createInst
  try dsimp only
  repeat' first | (with_reducible first | assumption | (intro _) | apply Keeps.setFld | apply Keeps.setInst | apply Keeps.admEnd |
                                  apply Keeps.dueNow | apply Keeps.foldl | apply Keeps.foldlFst | apply Keeps.ite |
                                  fail_if_no_progress apply Keeps.of) | split

theorem Keeps.createInstImage {k₀ : State} {s : State} (hk₀ : Keeps k₀ s) (own : Bool) (c : AdmCmd) : Keeps k₀
    (Machine.State.createInstImage s own c) := by
  unfold Machine.State.createInstImage
  try dsimp only
  repeat' first | (with_reducible first | assumption | (intro _) | apply Keeps.admRefuse | apply Keeps.toMembers | apply Keeps.createInst |
                                  apply Keeps.ite | fail_if_no_progress apply Keeps.of) | split

theorem Keeps.beginCreateInst {k₀ : State} {s : State} (hk₀ : Keeps k₀ s) (own : Bool) (c : AdmCmd) : Keeps k₀
    (Machine.State.beginCreateInst s own c) := by
  unfold Machine.State.beginCreateInst
  try dsimp only
  repeat' first | (with_reducible first | assumption | (intro _) | apply Keeps.admRefuse | apply Keeps.withList |
                                  apply Keeps.createInstImage | apply Keeps.ite | fail_if_no_progress apply Keeps.of) | split

theorem Keeps.modifyInst {k₀ : State} {s : State} (hk₀ : Keeps k₀ s) (own : Bool) (c : AdmCmd) : Keeps k₀ (Machine.State.modifyInst s own c)
    := by
  unfold Machine.State.modifyInst
  try dsimp only
  repeat' first | (with_reducible first | assumption | (intro _) | apply Keeps.admEnd | apply Keeps.putInst | apply Keeps.ite |
                                  fail_if_no_progress apply Keeps.of) | split

theorem Keeps.modifyInstImage {k₀ : State} {s : State} (hk₀ : Keeps k₀ s) (own : Bool) (c : AdmCmd) : Keeps k₀
    (Machine.State.modifyInstImage s own c) := by
  unfold Machine.State.modifyInstImage
  try dsimp only
  repeat' first | (with_reducible first | assumption | (intro _) | apply Keeps.toMembers | apply Keeps.modifyInst)

theorem Keeps.beginModifyInst {k₀ : State} {s : State} (hk₀ : Keeps k₀ s) (own : Bool) (c : AdmCmd) : Keeps k₀
    (Machine.State.beginModifyInst s own c) := by
  unfold Machine.State.beginModifyInst
  try dsimp only
  repeat' first | (with_reducible first | assumption | (intro _) | apply Keeps.admRefuse | apply Keeps.withList |
                                  apply Keeps.modifyInstImage | apply Keeps.ite | fail_if_no_progress apply Keeps.of) | split

theorem Keeps.closeChains {k₀ : State} {s : State} (hk₀ : Keeps k₀ s) (qid : Nat) : Keeps k₀ (Machine.State.closeChains s qid) := by
  unfold Machine.State.closeChains
  try dsimp only
  repeat' first | (with_reducible first | assumption | (intro _) | apply Keeps.updSlot | apply Keeps.closeTail | apply Keeps.foldl |
                                  apply Keeps.foldlFst | fail_if_no_progress apply Keeps.of) | split

theorem Keeps.quiesceQueue {k₀ : State} {s : State} (hk₀ : Keeps k₀ s) (qid : Nat) : Keeps k₀ (Machine.State.quiesceQueue s qid) := by
  unfold Machine.State.quiesceQueue
  try dsimp only
  repeat' first | (with_reducible first | assumption | apply Keeps.endUnproofed | apply Keeps.notReady | apply Keeps.stopResume |
                                  apply Keeps.startDrain | apply Keeps.closeChains | apply Keeps.ite | fail_if_no_progress apply Keeps.of) |
                                  split

theorem Keeps.eachQueue {k₀ : State} {s : State} (hk₀ : Keeps k₀ s) (iid : Nat) (f : State → Nat → State) (w : CtxWork) (hk_f : ∀ a0 a1,
    Keeps k₀ a0 → Keeps k₀ (f a0 a1)) : Keeps k₀ (Machine.State.eachQueue s iid f w) := by
  unfold Machine.State.eachQueue
  try dsimp only
  repeat' first | (with_reducible first | assumption | (intro _) | apply hk_f | apply Keeps.awaitCtx | apply Keeps.foldl |
                                  apply Keeps.foldlFst | apply Keeps.ite) | split

theorem Keeps.releaseQueue {k₀ : State} {s : State} (hk₀ : Keeps k₀ s) (qid : Nat) : Keeps k₀ (Machine.State.releaseQueue s qid) := by
  unfold Machine.State.releaseQueue
  try dsimp only
  repeat' first | (with_reducible first | assumption | apply Keeps.setCtx | apply Keeps.resumeQ | apply Keeps.abandonQ |
                                  apply Keeps.unpause | apply Keeps.ite | fail_if_no_progress apply Keeps.of) | split

theorem Keeps.quiesceInst {k₀ : State} {s : State} (hk₀ : Keeps k₀ s) (own : Bool) (c : AdmCmd) : Keeps k₀ (Machine.State.quiesceInst s own
    c) := by
  unfold Machine.State.quiesceInst
  try dsimp only
  repeat' first | (with_reducible first | assumption | (intro _) | apply Keeps.setInstFld | apply Keeps.admEnd | apply Keeps.admRefuse |
                                  apply Keeps.waitQuiesce | apply Keeps.quiesceQueue | apply Keeps.eachQueue | apply Keeps.ite) | split

theorem Keeps.releaseInst {k₀ : State} {s : State} (hk₀ : Keeps k₀ s) (own : Bool) (c : AdmCmd) : Keeps k₀ (Machine.State.releaseInst s own
    c) := by
  unfold Machine.State.releaseInst
  try dsimp only
  repeat' first | (with_reducible first | assumption | (intro _) | apply Keeps.setInstFld | apply Keeps.admCheck | apply Keeps.admRefuse |
                                  apply Keeps.waitQuiesce | apply Keeps.eachQueue | apply Keeps.releaseQueue | apply Keeps.ite) | split

theorem Keeps.beginQuiesce {k₀ : State} {s : State} (hk₀ : Keeps k₀ s) (own : Bool) (c : AdmCmd) : Keeps k₀ (Machine.State.beginQuiesce s
    own c) := by
  unfold Machine.State.beginQuiesce
  try dsimp only
  repeat' first | (with_reducible first | assumption | (intro _) | apply Keeps.admRefuse | apply Keeps.toMembers | apply Keeps.quiesceInst |
                                  apply Keeps.releaseInst | apply Keeps.ite) | split

theorem Keeps.squashChain {k₀ : State} {s : State} (hk₀ : Keeps k₀ s) (x : Slot) : Keeps k₀ (Machine.State.squashChain s x) := by
  unfold Machine.State.squashChain
  try dsimp only
  repeat' first | (with_reducible first | assumption | (intro _) | apply Keeps.updSlot | apply Keeps.orphanReads | apply Keeps.endChain |
                                  apply Keeps.placeHeld | fail_if_no_progress apply Keeps.of) | split

theorem Keeps.squashSlot {k₀ : State} {s : State} (hk₀ : Keeps k₀ s) (x : Slot) : Keeps k₀ (Machine.State.squashSlot s x) := by
  unfold Machine.State.squashSlot
  try dsimp only
  repeat' first | (with_reducible first | assumption | (intro _) | apply Keeps.updSlot | apply Keeps.orphanReads | apply Keeps.finish |
                                  apply Keeps.settle | apply Keeps.dropLoaves | apply Keeps.squashChain | apply Keeps.ite |
                                  fail_if_no_progress apply Keeps.of) | split

theorem Keeps.squashAll {k₀ : State} {s : State} (hk₀ : Keeps k₀ s) (iid : Nat) : Keeps k₀ (Machine.State.squashAll s iid) := by
  unfold Machine.State.squashAll
  try dsimp only
  repeat' first | (with_reducible first | assumption | (intro _) | apply Keeps.endBind | apply Keeps.settleMoving | apply Keeps.squashSlot |
                                  apply Keeps.foldl | apply Keeps.foldlFst | apply Keeps.ite | fail_if_no_progress apply Keeps.of) | split

theorem Keeps.squashInst {k₀ : State} {s : State} (hk₀ : Keeps k₀ s) (own : Bool) (c : AdmCmd) : Keeps k₀ (Machine.State.squashInst s own c)
    := by
  unfold Machine.State.squashInst
  try dsimp only
  repeat' first | (with_reducible first | assumption | (intro _) | apply Keeps.setInstFld | apply Keeps.putCmd | apply Keeps.admCheck |
                                  apply Keeps.admRefuse | apply Keeps.squashAll | apply Keeps.ite | fail_if_no_progress apply Keeps.of) |
                                  split

theorem Keeps.beginSquash {k₀ : State} {s : State} (hk₀ : Keeps k₀ s) (own : Bool) (c : AdmCmd) : Keeps k₀ (Machine.State.beginSquash s own
    c) := by
  unfold Machine.State.beginSquash
  try dsimp only
  repeat' first | (with_reducible first | assumption | (intro _) | apply Keeps.admRefuse | apply Keeps.toMembers | apply Keeps.squashInst |
                                  apply Keeps.ite) | split

theorem Keeps.closeInst {k₀ : State} {s : State} (hk₀ : Keeps k₀ s) (own : Bool) (c : AdmCmd) : Keeps k₀ (Machine.State.closeInst s own c)
    := by
  unfold Machine.State.closeInst
  try dsimp only
  repeat' first | (with_reducible first | assumption | apply Keeps.putCmd | apply Keeps.closeStep | fail_if_no_progress apply Keeps.of)

theorem Keeps.beginClose {k₀ : State} {s : State} (hk₀ : Keeps k₀ s) (own : Bool) (c : AdmCmd) : Keeps k₀ (Machine.State.beginClose s own c)
    := by
  unfold Machine.State.beginClose
  try dsimp only
  repeat' first | (with_reducible first | assumption | (intro _) | apply Keeps.setInstFld | apply Keeps.admRefuse | apply Keeps.toMembers |
                                  apply Keeps.closeInst | apply Keeps.ite | fail_if_no_progress apply Keeps.of) | split

theorem Keeps.createQueue {k₀ : State} {s : State} (hk₀ : Keeps k₀ s) (own : Bool) (c : AdmCmd) : Keeps k₀ (Machine.State.createQueue s own
    c) := by
  unfold Machine.State.createQueue
  try dsimp only
  repeat' first | (with_reducible first | assumption | (intro _) | apply Keeps.placeWay | apply Keeps.evict | apply Keeps.flipHash |
                                  apply Keeps.putCmd | apply Keeps.admEnd | apply Keeps.ite | fail_if_no_progress apply Keeps.of) | split

theorem Keeps.beginCreateQueue {k₀ : State} {s : State} (hk₀ : Keeps k₀ s) (own : Bool) (c : AdmCmd) : Keeps k₀
    (Machine.State.beginCreateQueue s own c) := by
  unfold Machine.State.beginCreateQueue
  try dsimp only
  repeat' first | (with_reducible first | assumption | (intro _) | apply Keeps.admRefuse | apply Keeps.toMembers | apply Keeps.createQueue |
                                  apply Keeps.drainTo | apply Keeps.ite | fail_if_no_progress apply Keeps.of) | split

theorem Keeps.modifyEffect {k₀ : State} {s : State} (hk₀ : Keeps k₀ s) (c : AdmCmd) : Keeps k₀ (Machine.State.modifyEffect s c) := by
  unfold Machine.State.modifyEffect
  try dsimp only
  repeat' first | (with_reducible first | assumption | (intro _) | apply Keeps.updCtx | apply Keeps.addrTaken | apply Keeps.startDrain |
                                  apply Keeps.unpause | apply Keeps.foldl | apply Keeps.foldlFst | apply Keeps.ite) | split

theorem Keeps.modifyQueue {k₀ : State} {s : State} (hk₀ : Keeps k₀ s) (own : Bool) (c : AdmCmd) : Keeps k₀ (Machine.State.modifyQueue s own
    c) := by
  unfold Machine.State.modifyQueue
  try dsimp only
  repeat' first | (with_reducible first | assumption | apply Keeps.admEnd | apply Keeps.waitQuiesce | apply Keeps.modifyEffect |
                                  apply Keeps.ite) | split

theorem Keeps.onQueue {k₀ : State} {s : State} (hk₀ : Keeps k₀ s) (own : Bool) (c0 : AdmCmd) (check : QCtx → Option (Nat × Nat)) (eff :
    State → Bool → AdmCmd → State) (hk_eff : ∀ a0 a1 a2, Keeps k₀ a0 → Keeps k₀ (eff a0 a1 a2)) : Keeps k₀ (Machine.State.onQueue s own c0
    check eff) := by
  unfold Machine.State.onQueue
  try dsimp only
  repeat' first | (with_reducible first | assumption | (intro _) | apply hk_eff | apply Keeps.admRefuse | apply Keeps.toMembers |
                                  apply Keeps.needQueue | apply Keeps.ite | fail_if_no_progress apply Keeps.of) | split

theorem Keeps.beginModifyQueue {k₀ : State} {s : State} (hk₀ : Keeps k₀ s) (own : Bool) (c : AdmCmd) : Keeps k₀
    (Machine.State.beginModifyQueue s own c) := by
  unfold Machine.State.beginModifyQueue
  try dsimp only
  repeat' first | (with_reducible first | assumption | (intro _) | apply Keeps.modifyQueue | apply Keeps.onQueue | apply Keeps.ite) | split

theorem Keeps.destroyQueue {k₀ : State} {s : State} (hk₀ : Keeps k₀ s) (own : Bool) (c : AdmCmd) : Keeps k₀ (Machine.State.destroyQueue s
    own c) := by
  unfold Machine.State.destroyQueue
  try dsimp only
  repeat' first | (with_reducible first | assumption | apply Keeps.admEnd | apply Keeps.dropQueue | apply Keeps.startDestroy |
                                  apply Keeps.waitQuiesce | apply Keeps.ite) | split

theorem Keeps.beginDestroyQueue {k₀ : State} {s : State} (hk₀ : Keeps k₀ s) (own : Bool) (c : AdmCmd) : Keeps k₀
    (Machine.State.beginDestroyQueue s own c) := by
  unfold Machine.State.beginDestroyQueue
  try dsimp only
  repeat' first | (with_reducible first | assumption | (intro _) | apply Keeps.onQueue | apply Keeps.destroyQueue | apply Keeps.drainTo |
                                  apply Keeps.ite) | split

theorem Keeps.moveEffect {k₀ : State} {s : State} (hk₀ : Keeps k₀ s) (c : AdmCmd) : Keeps k₀ (Machine.State.moveEffect s c) := by
  unfold Machine.State.moveEffect
  try dsimp only
  repeat' first | (with_reducible first | assumption | (intro _) | apply Keeps.updCtx | apply Keeps.startDrain |
                                  fail_if_no_progress apply Keeps.of) | split

theorem Keeps.moveQueue {k₀ : State} {s : State} (hk₀ : Keeps k₀ s) (own : Bool) (c : AdmCmd) : Keeps k₀ (Machine.State.moveQueue s own c)
    := by
  unfold Machine.State.moveQueue
  try dsimp only
  repeat' first | (with_reducible first | assumption | apply Keeps.admEnd | apply Keeps.waitQuiesce | apply Keeps.moveEffect |
                                  apply Keeps.ite) | split

theorem Keeps.beginMoveQueue {k₀ : State} {s : State} (hk₀ : Keeps k₀ s) (own : Bool) (c : AdmCmd) : Keeps k₀ (Machine.State.beginMoveQueue
    s own c) := by
  unfold Machine.State.beginMoveQueue
  try dsimp only
  repeat' first | (with_reducible first | assumption | (intro _) | apply Keeps.onQueue | apply Keeps.moveQueue)

theorem Keeps.adoptCommand {k₀ : State} {s : State} (hk₀ : Keeps k₀ s) (qid : Nat) (c : AdmCmd) : Keeps k₀ (Machine.State.adoptCommand s qid
    c) := by
  unfold Machine.State.adoptCommand
  try dsimp only
  repeat' first | (with_reducible first | assumption | apply Keeps.startDestroy | apply Keeps.modifyEffect | apply Keeps.moveEffect |
                                  apply Keeps.ite | fail_if_no_progress apply Keeps.of) | split

theorem Keeps.stageItems {k₀ : State} {s : State} (hk₀ : Keeps k₀ s) (own : Bool) (c : AdmCmd) : Keeps k₀ (Machine.State.stageItems s own c)
    := by
  unfold Machine.State.stageItems
  try dsimp only
  repeat' first | (with_reducible first | assumption | apply Keeps.admEnd | fail_if_no_progress apply Keeps.of) | split

theorem Keeps.beginStage {k₀ : State} {s : State} (hk₀ : Keeps k₀ s) (own : Bool) (c : AdmCmd) : Keeps k₀ (Machine.State.beginStage s own c)
    := by
  unfold Machine.State.beginStage
  try dsimp only
  repeat' first | (with_reducible first | assumption | (intro _) | apply Keeps.admRefuse | apply Keeps.withList | apply Keeps.stageItems |
                                  apply Keeps.ite | fail_if_no_progress apply Keeps.of) | split

theorem Keeps.evmItems {k₀ : State} {s : State} (hk₀ : Keeps k₀ s) (own : Bool) (c : AdmCmd) : Keeps k₀ (Machine.State.evmItems s own c) :=
    by
  unfold Machine.State.evmItems
  try dsimp only
  repeat' first | (with_reducible first | assumption | (intro _) | apply Keeps.admEnd | apply Keeps.applyItem | apply Keeps.applyEvm |
                                  apply Keeps.foldl | apply Keeps.foldlFst | fail_if_no_progress apply Keeps.of) | split

theorem Keeps.beginEvm {k₀ : State} {s : State} (hk₀ : Keeps k₀ s) (own : Bool) (c : AdmCmd) : Keeps k₀ (Machine.State.beginEvm s own c) :=
    by
  unfold Machine.State.beginEvm
  try dsimp only
  repeat' first | (with_reducible first | assumption | (intro _) | apply Keeps.withList | apply Keeps.evmItems |
                                  fail_if_no_progress apply Keeps.of)

theorem Keeps.pinStep {k₀ : State} {s : State} (hk₀ : Keeps k₀ s) (own : Bool) (c : AdmCmd) : Keeps k₀ (Machine.State.pinStep s own c) := by
  unfold Machine.State.pinStep
  try dsimp only
  repeat' first | (with_reducible first | assumption | (intro _) | apply Keeps.awaitCtx | apply Keeps.lookup | apply Keeps.putCmd |
                                  apply Keeps.foldl | apply Keeps.foldlFst | apply Keeps.ite | fail_if_no_progress apply Keeps.of) | split

theorem Keeps.commitPin {k₀ : State} {s : State} (hk₀ : Keeps k₀ s) (own : Bool) (c : AdmCmd) : Keeps k₀ (Machine.State.commitPin s own c)
    := by
  unfold Machine.State.commitPin
  try dsimp only
  repeat' first | (with_reducible first | assumption | apply Keeps.pinStep | fail_if_no_progress apply Keeps.of)

theorem Keeps.unpin {k₀ : State} {s : State} (hk₀ : Keeps k₀ s) (own : Bool) (c : AdmCmd) : Keeps k₀ (Machine.State.unpin s own c) := by
  unfold Machine.State.unpin
  try dsimp only
  repeat' first | (with_reducible first | assumption | apply Keeps.setFld | apply Keeps.pumpCtx | apply Keeps.ite |
                                  fail_if_no_progress apply Keeps.of) | split

theorem Keeps.commitApply {k₀ : State} {s : State} (hk₀ : Keeps k₀ s) (own : Bool) (c : AdmCmd) (pinch : Bool) : Keeps k₀
    (Machine.State.commitApply s own c pinch) := by
  unfold Machine.State.commitApply
  try dsimp only
  repeat' first | (with_reducible first | assumption | (intro _) | apply Keeps.bump | apply Keeps.addrTaken | apply Keeps.admEnd |
                                  apply Keeps.applyItem | apply Keeps.applyEvm | apply Keeps.unpin | apply Keeps.foldl |
                                  apply Keeps.foldlFst | apply Keeps.ite | fail_if_no_progress apply Keeps.of) | split

theorem Keeps.beginCommit {k₀ : State} {s : State} (hk₀ : Keeps k₀ s) (own : Bool) (c : AdmCmd) : Keeps k₀ (Machine.State.beginCommit s own
    c) := by
  unfold Machine.State.beginCommit
  try dsimp only
  repeat' first | (with_reducible first | assumption | (intro _) | apply Keeps.setFld | apply Keeps.discardStaged | apply Keeps.admEnd |
                                  apply Keeps.toMembers | apply Keeps.commitPin | apply Keeps.ite | fail_if_no_progress apply Keeps.of) |
                                  split

theorem Keeps.execQuietPoint {k₀ : State} {s : State} (hk₀ : Keeps k₀ s) : KeepsOut k₀ (Machine.execQuietPoint s) := by
  unfold Machine.execQuietPoint
  try dsimp only
  repeat' first | (with_reducible first | assumption | (intro _) | apply KeepsOut.next | exact KeepsOut.fault | apply Keeps.commitApply |
                                  fail_if_no_progress apply Keeps.of) | split

theorem Keeps.execCommitCeil {k₀ : State} {s : State} (hk₀ : Keeps k₀ s) : KeepsOut k₀ (Machine.execCommitCeil s) := by
  unfold Machine.execCommitCeil
  try dsimp only
  repeat' first | (with_reducible first | assumption | (intro _) | apply KeepsOut.next | exact KeepsOut.fault | apply Keeps.commitApply |
                                  fail_if_no_progress apply Keeps.of) | split

theorem Keeps.beginLog {k₀ : State} {s : State} (hk₀ : Keeps k₀ s) (own : Bool) (c : AdmCmd) : Keeps k₀ (Machine.State.beginLog s own c) :=
    by
  unfold Machine.State.beginLog
  try dsimp only
  repeat' first | (with_reducible first | assumption | (intro _) | apply Keeps.setFld | apply Keeps.setInst | apply Keeps.admEnd |
                                  apply Keeps.admRefuse | apply Keeps.ite | fail_if_no_progress apply Keeps.of) | split

theorem Keeps.beginHarvest {k₀ : State} {s : State} (hk₀ : Keeps k₀ s) (own : Bool) (c : AdmCmd) : Keeps k₀ (Machine.State.beginHarvest s
    own c) := by
  unfold Machine.State.beginHarvest
  try dsimp only
  repeat' first | (with_reducible first | assumption | apply Keeps.putCmd | apply Keeps.harvestStep | apply Keeps.admRefuse |
                                  apply Keeps.ite | fail_if_no_progress apply Keeps.of) | split

theorem Keeps.setTimebase {k₀ : State} {s : State} (hk₀ : Keeps k₀ s) (own : Bool) (c : AdmCmd) : Keeps k₀ (Machine.State.setTimebase s own
    c) := by
  unfold Machine.State.setTimebase
  try dsimp only
  repeat' first | (with_reducible first | assumption | apply Keeps.admEnd | apply Keeps.tbAdd | apply Keeps.tbLoad | apply Keeps.tbRate |
                                  apply Keeps.ite) | split

theorem Keeps.beginRest {k₀ : State} {s : State} (hk₀ : Keeps k₀ s) (own : Bool) (c : AdmCmd) : Keeps k₀ (Machine.State.beginRest s own c)
    := by
  unfold Machine.State.beginRest
  try dsimp only
  repeat' first | (with_reducible first | assumption | apply Keeps.putCmd | apply Keeps.trackIdle | apply Keeps.admRefuse |
                                  apply Keeps.ite | fail_if_no_progress apply Keeps.of) | split

theorem Keeps.readCopy {k₀ : State} {s : State} (hk₀ : Keeps k₀ s) (own : Bool) (c : AdmCmd) (q : Option QCtx) : Keeps k₀
    (Machine.State.readCopy s own c q) := by
  unfold Machine.State.readCopy
  try dsimp only
  repeat' first | (with_reducible first | assumption | (intro _) | apply Keeps.service | apply Keeps.putCmd |
                                  refine Keeps.fst (by assumption) (Keeps.takeCopy ?_ ..) | apply Keeps.takeCopy | apply Keeps.foldl |
                                  apply Keeps.foldlFst | fail_if_no_progress apply Keeps.of) | split

theorem Keeps.beginTelemetry {k₀ : State} {s : State} (hk₀ : Keeps k₀ s) (own : Bool) (c : AdmCmd) : Keeps k₀ (Machine.State.beginTelemetry
    s own c) := by
  unfold Machine.State.beginTelemetry
  try dsimp only
  repeat' first | (with_reducible first | assumption | (intro _) | apply Keeps.admRefuse | apply Keeps.needQueue | apply Keeps.readCopy |
                                  apply Keeps.ite) | split

theorem Keeps.copyAnswered {k₀ : State} {s : State} (hk₀ : Keeps k₀ s) (header : Bool) : Keeps k₀ (Machine.State.copyAnswered s header) :=
    by
  unfold Machine.State.copyAnswered
  try dsimp only
  repeat' first | (with_reducible first | assumption | apply Keeps.service | apply Keeps.putCmd | apply Keeps.admEnd | apply Keeps.ite |
                                  fail_if_no_progress apply Keeps.of) | split

theorem Keeps.execCreateInstance {k₀ : State} {s : State} (hk₀ : Keeps k₀ s) : KeepsOut k₀ (Machine.execCreateInstance s) := by
  unfold Machine.execCreateInstance
  try dsimp only
  repeat' first | (with_reducible first | assumption | (intro _) | apply KeepsOut.next | exact KeepsOut.fault | apply Keeps.beginCmd |
                                  apply Keeps.beginCreateInst)

theorem Keeps.execModifyInstance {k₀ : State} {s : State} (hk₀ : Keeps k₀ s) : KeepsOut k₀ (Machine.execModifyInstance s) := by
  unfold Machine.execModifyInstance
  try dsimp only
  repeat' first | (with_reducible first | assumption | (intro _) | apply KeepsOut.next | exact KeepsOut.fault | apply Keeps.beginCmd |
                                  apply Keeps.beginModifyInst)

theorem Keeps.execQuiesceInstance {k₀ : State} {s : State} (hk₀ : Keeps k₀ s) : KeepsOut k₀ (Machine.execQuiesceInstance s) := by
  unfold Machine.execQuiesceInstance
  try dsimp only
  repeat' first | (with_reducible first | assumption | (intro _) | apply KeepsOut.next | exact KeepsOut.fault | apply Keeps.beginCmd |
                                  apply Keeps.beginQuiesce)

theorem Keeps.execDrainOrSquash {k₀ : State} {s : State} (hk₀ : Keeps k₀ s) : KeepsOut k₀ (Machine.execDrainOrSquash s) := by
  unfold Machine.execDrainOrSquash
  try dsimp only
  repeat' first | (with_reducible first | assumption | (intro _) | apply KeepsOut.next | exact KeepsOut.fault | apply Keeps.beginCmd |
                                  apply Keeps.beginSquash)

theorem Keeps.execResetInstance {k₀ : State} {s : State} (hk₀ : Keeps k₀ s) : KeepsOut k₀ (Machine.execResetInstance s) := by
  unfold Machine.execResetInstance
  try dsimp only
  repeat' first | (with_reducible first | assumption | (intro _) | apply KeepsOut.next | exact KeepsOut.fault | apply Keeps.beginCmd |
                                  apply Keeps.beginClose)

theorem Keeps.execDestroyInstance {k₀ : State} {s : State} (hk₀ : Keeps k₀ s) : KeepsOut k₀ (Machine.execDestroyInstance s) := by
  unfold Machine.execDestroyInstance
  try dsimp only
  repeat' first | (with_reducible first | assumption | (intro _) | apply KeepsOut.next | exact KeepsOut.fault | apply Keeps.beginCmd |
                                  apply Keeps.beginClose)

theorem Keeps.execCreateQueue {k₀ : State} {s : State} (hk₀ : Keeps k₀ s) : KeepsOut k₀ (Machine.execCreateQueue s) := by
  unfold Machine.execCreateQueue
  try dsimp only
  repeat' first | (with_reducible first | assumption | (intro _) | apply KeepsOut.next | exact KeepsOut.fault | apply Keeps.beginCmd |
                                  apply Keeps.createQueue | apply Keeps.beginCreateQueue | fail_if_no_progress apply Keeps.of) | split

theorem Keeps.execModifyQueue {k₀ : State} {s : State} (hk₀ : Keeps k₀ s) : KeepsOut k₀ (Machine.execModifyQueue s) := by
  unfold Machine.execModifyQueue
  try dsimp only
  repeat' first | (with_reducible first | assumption | (intro _) | apply KeepsOut.next | exact KeepsOut.fault | apply Keeps.beginCmd |
                                  apply Keeps.beginModifyQueue)

theorem Keeps.execDestroyQueue {k₀ : State} {s : State} (hk₀ : Keeps k₀ s) : KeepsOut k₀ (Machine.execDestroyQueue s) := by
  unfold Machine.execDestroyQueue
  try dsimp only
  repeat' first | (with_reducible first | assumption | (intro _) | apply KeepsOut.next | exact KeepsOut.fault | apply Keeps.beginCmd |
                                  apply Keeps.beginDestroyQueue)

theorem Keeps.execMoveQueue {k₀ : State} {s : State} (hk₀ : Keeps k₀ s) : KeepsOut k₀ (Machine.execMoveQueue s) := by
  unfold Machine.execMoveQueue
  try dsimp only
  repeat' first | (with_reducible first | assumption | (intro _) | apply KeepsOut.next | exact KeepsOut.fault | apply Keeps.beginCmd |
                                  apply Keeps.beginMoveQueue)

theorem Keeps.execStage {k₀ : State} {s : State} (hk₀ : Keeps k₀ s) : KeepsOut k₀ (Machine.execStage s) := by
  unfold Machine.execStage
  try dsimp only
  repeat' first | (with_reducible first | assumption | (intro _) | apply KeepsOut.next | exact KeepsOut.fault | apply Keeps.beginCmd |
                                  apply Keeps.beginStage)

theorem Keeps.execCommit {k₀ : State} {s : State} (hk₀ : Keeps k₀ s) : KeepsOut k₀ (Machine.execCommit s) := by
  unfold Machine.execCommit
  try dsimp only
  repeat' first | (with_reducible first | assumption | (intro _) | apply KeepsOut.next | exact KeepsOut.fault | apply Keeps.beginCmd |
                                  apply Keeps.beginCommit)

theorem Keeps.execStartDirtyLog {k₀ : State} {s : State} (hk₀ : Keeps k₀ s) : KeepsOut k₀ (Machine.execStartDirtyLog s) := by
  unfold Machine.execStartDirtyLog
  try dsimp only
  repeat' first | (with_reducible first | assumption | (intro _) | apply KeepsOut.next | exact KeepsOut.fault | apply Keeps.beginCmd |
                                  apply Keeps.beginLog)

theorem Keeps.execHarvestDirtyLog {k₀ : State} {s : State} (hk₀ : Keeps k₀ s) : KeepsOut k₀ (Machine.execHarvestDirtyLog s) := by
  unfold Machine.execHarvestDirtyLog
  try dsimp only
  repeat' first | (with_reducible first | assumption | (intro _) | apply KeepsOut.next | exact KeepsOut.fault | apply Keeps.beginCmd |
                                  apply Keeps.beginHarvest)

theorem Keeps.execStopDirtyLog {k₀ : State} {s : State} (hk₀ : Keeps k₀ s) : KeepsOut k₀ (Machine.execStopDirtyLog s) := by
  unfold Machine.execStopDirtyLog
  try dsimp only
  repeat' first | (with_reducible first | assumption | (intro _) | apply KeepsOut.next | exact KeepsOut.fault | apply Keeps.beginCmd |
                                  apply Keeps.beginHarvest)

theorem Keeps.execEvmUpdate {k₀ : State} {s : State} (hk₀ : Keeps k₀ s) : KeepsOut k₀ (Machine.execEvmUpdate s) := by
  unfold Machine.execEvmUpdate
  try dsimp only
  repeat' first | (with_reducible first | assumption | (intro _) | apply KeepsOut.next | exact KeepsOut.fault | apply Keeps.beginCmd |
                                  apply Keeps.beginEvm)

theorem Keeps.execSetTimebase {k₀ : State} {s : State} (hk₀ : Keeps k₀ s) : KeepsOut k₀ (Machine.execSetTimebase s) := by
  unfold Machine.execSetTimebase
  try dsimp only
  repeat' first | (with_reducible first | assumption | (intro _) | apply KeepsOut.next | exact KeepsOut.fault | apply Keeps.beginCmd |
                                  apply Keeps.setTimebase)

theorem Keeps.execRest {k₀ : State} {s : State} (hk₀ : Keeps k₀ s) : KeepsOut k₀ (Machine.execRest s) := by
  unfold Machine.execRest
  try dsimp only
  repeat' first | (with_reducible first | assumption | (intro _) | apply KeepsOut.next | exact KeepsOut.fault | apply Keeps.beginCmd |
                                  apply Keeps.beginRest)

theorem Keeps.execReadTelemetry {k₀ : State} {s : State} (hk₀ : Keeps k₀ s) : KeepsOut k₀ (Machine.execReadTelemetry s) := by
  unfold Machine.execReadTelemetry
  try dsimp only
  repeat' first | (with_reducible first | assumption | (intro _) | apply KeepsOut.next | exact KeepsOut.fault | apply Keeps.beginCmd |
                                  apply Keeps.beginTelemetry)

theorem Keeps.listRead {k₀ : State} {s : State} (hk₀ : Keeps k₀ s) (c : AdmCmd) (bs : List Byte) : Keeps k₀ (Machine.State.listRead s c bs)
    := by
  unfold Machine.State.listRead
  try dsimp only
  repeat' first | (with_reducible first | assumption | apply Keeps.putCmd | apply Keeps.createInstImage | apply Keeps.modifyInstImage |
                                  apply Keeps.stageItems | apply Keeps.evmItems | apply Keeps.ite | fail_if_no_progress apply Keeps.of) |
                                  split

theorem Keeps.execImageReadResponse {k₀ : State} (aid : Nat) (ans : Answer) {s : State} (hk₀ : Keeps k₀ s) : KeepsOut k₀
    (Machine.execImageReadResponse aid ans s) := by
  unfold Machine.execImageReadResponse
  try dsimp only
  repeat' first | (with_reducible first | assumption | (intro _) | apply KeepsOut.next | exact KeepsOut.fault | apply Keeps.drainHeld |
                                  apply Keeps.readEnds | apply Keeps.putCmd | apply Keeps.admEnd | apply Keeps.admRead |
                                  apply Keeps.readPiece | apply Keeps.listRead | apply KeepsOut.ite | apply Keeps.ite |
                                  fail_if_no_progress apply Keeps.of) | split

theorem Keeps.admContext {k₀ : State} {s : State} (hk₀ : Keeps k₀ s) (own : Bool) : Keeps k₀ (Machine.State.admContext s own) := by
  unfold Machine.State.admContext
  try dsimp only
  repeat' first | (with_reducible first | assumption | apply Keeps.putCmd | apply Keeps.createQueue | apply Keeps.beginModifyQueue |
                                  apply Keeps.beginDestroyQueue | apply Keeps.beginMoveQueue | apply Keeps.pinStep |
                                  apply Keeps.beginTelemetry | apply Keeps.ite | fail_if_no_progress apply Keeps.of) | split

theorem Keeps.afterMembers {k₀ : State} {s : State} (hk₀ : Keeps k₀ s) (own : Bool) (c : AdmCmd) : Keeps k₀ (Machine.State.afterMembers s
    own c) := by
  unfold Machine.State.afterMembers
  try dsimp only
  repeat' first | (with_reducible first | assumption | apply Keeps.setInstFld | apply Keeps.discardStaged | apply Keeps.admEnd |
                                  apply Keeps.createInst | apply Keeps.modifyInst | apply Keeps.quiesceInst | apply Keeps.releaseInst |
                                  apply Keeps.squashInst | apply Keeps.closeInst | apply Keeps.createQueue | apply Keeps.modifyQueue |
                                  apply Keeps.destroyQueue | apply Keeps.moveQueue | apply Keeps.commitPin | apply Keeps.unpin |
                                  apply Keeps.ite | fail_if_no_progress apply Keeps.of) | split

theorem Keeps.memberAnswered {k₀ : State} {s : State} (hk₀ : Keeps k₀ s) (m : Nat) (r : Option (Nat × Nat)) : Keeps k₀
    (Machine.State.memberAnswered s m r) := by
  unfold Machine.State.memberAnswered
  try dsimp only
  repeat' first | (with_reducible first | assumption | apply Keeps.putCmd | apply Keeps.afterMembers | apply Keeps.ite |
                                  fail_if_no_progress apply Keeps.of) | split

/-! Machine/Instances.lean. -/

theorem Keeps.heartbeatOn {k₀ : State} {s : State} (hk₀ : Keeps k₀ s) (k : Nat) : Keeps k₀ (Machine.State.heartbeatOn s k) := by
  unfold Machine.State.heartbeatOn
  try dsimp only
  repeat' first | (with_reducible first | assumption | (intro _) | apply Keeps.sendFrame | fail_if_no_progress apply Keeps.of) | split

theorem Keeps.heartbeats {k₀ : State} {s : State} (hk₀ : Keeps k₀ s) : Keeps k₀ (Machine.State.heartbeats s) := by
  unfold Machine.State.heartbeats
  try dsimp only
  repeat' first | (with_reducible first | assumption | (intro _) | apply Keeps.heartbeatOn | apply Keeps.foldl | apply Keeps.foldlFst |
                                  apply Keeps.ite) | split

theorem Keeps.leaveCheck {k₀ : State} {s : State} (hk₀ : Keeps k₀ s) : Keeps k₀ (Machine.State.leaveCheck s) := by
  unfold Machine.State.leaveCheck
  try dsimp only
  repeat' first | (with_reducible first | assumption | apply Keeps.wr | apply Keeps.admEnd | apply Keeps.setFedState |
                                  apply Keeps.setMembers | apply Keeps.heartbeats | apply Keeps.ite) | split

theorem Keeps.takeLatched {k₀ : State} {s : State} (hk₀ : Keeps k₀ s) (qid : Nat) (c : QCtx) : Keeps k₀ (Machine.State.takeLatched s qid c)
    := by
  unfold Machine.State.takeLatched
  try dsimp only
  repeat' first | (with_reducible first | assumption | apply Keeps.setCtx | apply Keeps.enterError | fail_if_no_progress apply Keeps.of)

theorem Keeps.handOver {k₀ : State} {s0 : State} (hk₀ : Keeps k₀ s0) (qid : Nat) (c0 : QCtx) : Keeps k₀ (Machine.State.handOver s0 qid c0)
    := by
  unfold Machine.State.handOver
  try dsimp only
  repeat' first | (with_reducible first | assumption | (intro _) | apply Keeps.setCtx | apply Keeps.writeBack | apply Keeps.forgetReady |
                                  apply Keeps.flipHash | apply Keeps.leaveCheck | apply Keeps.takeLatched | apply Keeps.drainTo |
                                  apply Keeps.ite | fail_if_no_progress apply Keeps.of) | split

theorem Keeps.yieldDone {k₀ : State} {s : State} (hk₀ : Keeps k₀ s) (qid : Nat) (m : Nat) : Keeps k₀ (Machine.State.yieldDone s qid m) := by
  unfold Machine.State.yieldDone
  try dsimp only
  repeat' first | (with_reducible first | assumption | (intro _) | apply Keeps.bump | apply Keeps.forgetReady | apply Keeps.flipHash |
                                  apply Keeps.leaveCheck | fail_if_no_progress apply Keeps.of)

theorem Keeps.drainDone {k₀ : State} {s : State} (hk₀ : Keeps k₀ s) (own : Bool) (qid : Nat) : Keeps k₀ (Machine.State.drainDone s own qid)
    := by
  unfold Machine.State.drainDone
  try dsimp only
  repeat' first | (with_reducible first | assumption | apply Keeps.admEnd | apply Keeps.ite | fail_if_no_progress apply Keeps.of) | split

theorem Keeps.drainTo {k₀ : State} {s : State} (hk₀ : Keeps k₀ s) (qid : Nat) (c : QCtx) : Keeps k₀ (Machine.State.drainTo s qid c) := by
  unfold Machine.State.drainTo
  try dsimp only
  repeat' first | (with_reducible first | assumption | apply Keeps.setCtx | apply Keeps.markReady | apply Keeps.idleNotice |
                                  apply Keeps.dropQueue | apply Keeps.leaveCheck | apply Keeps.takeLatched | apply Keeps.handOver |
                                  apply Keeps.yieldDone | apply Keeps.ite | fail_if_no_progress apply Keeps.of) | split

theorem Keeps.execQueueDrainEnd {k₀ : State} (qid : Nat) {s : State} (hk₀ : Keeps k₀ s) : KeepsOut k₀ (Machine.execQueueDrainEnd qid s) :=
    by
  unfold Machine.execQueueDrainEnd
  try dsimp only
  repeat' first | (with_reducible first | assumption | apply KeepsOut.next | exact KeepsOut.fault | apply Keeps.admCheck |
                                  apply Keeps.drainDone | apply Keeps.drainTo | apply KeepsOut.ite | apply Keeps.ite |
                                  fail_if_no_progress apply Keeps.of) | split

theorem Keeps.execInstanceQuiet {k₀ : State} (iid : Nat) {s : State} (hk₀ : Keeps k₀ s) : KeepsOut k₀ (Machine.execInstanceQuiet iid s) :=
    by
  unfold Machine.execInstanceQuiet
  try dsimp only
  repeat' first | (with_reducible first | assumption | (intro _) | apply KeepsOut.next | exact KeepsOut.fault | apply Keeps.setInstFld |
                                  apply Keeps.admEnd | apply KeepsOut.ite | apply Keeps.ite) | split

theorem Keeps.execQuiesceTimeout {k₀ : State} {s : State} (hk₀ : Keeps k₀ s) : KeepsOut k₀ (Machine.execQuiesceTimeout s) := by
  unfold Machine.execQuiesceTimeout
  try dsimp only
  repeat' first | (with_reducible first | assumption | (intro _) | apply KeepsOut.next | exact KeepsOut.fault | apply Keeps.admEnd |
                                  apply KeepsOut.ite | apply Keeps.ite | fail_if_no_progress apply Keeps.of) | split

/-! Machine/Fed.lean. -/

theorem Keeps.learnFar {k₀ : State} {s : State} (hk₀ : Keeps k₀ s) (k : Nat) (f : RawFrame) : Keeps k₀ (Machine.State.learnFar s k f) := by
  unfold Machine.State.learnFar
  try dsimp only
  repeat' first | (with_reducible first | assumption | apply Keeps.putLink | apply Keeps.ite | fail_if_no_progress apply Keeps.of) | split

theorem Keeps.sendManifest {k₀ : State} {s : State} (hk₀ : Keeps k₀ s) (k : Nat) (dst : Nat) : Keeps k₀ (Machine.State.sendManifest s k dst)
    := by
  unfold Machine.State.sendManifest
  exact Keeps.sendFrame hk₀ ..

theorem Keeps.joinManifest {k₀ : State} {s : State} (hk₀ : Keeps k₀ s) (k : Nat) : Keeps k₀ (Machine.State.joinManifest s k) := by
  unfold Machine.State.joinManifest
  try dsimp only
  repeat' first | (with_reducible first | assumption | apply Keeps.sendManifest)

theorem Keeps.giveOwner {k₀ : State} {s : State} (hk₀ : Keeps k₀ s) (qid : Nat) (n : Nat) : Keeps k₀ (Machine.State.giveOwner s qid n) := by
  unfold Machine.State.giveOwner
  try dsimp only
  repeat' first | (with_reducible first | assumption | apply Keeps.awaitCtx | apply Keeps.flipHash | apply Keeps.ite |
                                  fail_if_no_progress apply Keeps.of) | split

theorem Keeps.newOwner {k₀ : State} {s : State} (hk₀ : Keeps k₀ s) (qid : Nat) (n : Nat) : Keeps k₀ (Machine.State.newOwner s qid n) := by
  unfold Machine.State.newOwner
  try dsimp only
  repeat' first | (with_reducible first | assumption | apply Keeps.awaitCtx | apply Keeps.flipHash | apply Keeps.ite |
                                  fail_if_no_progress apply Keeps.of) | split

theorem Keeps.takeTable {k₀ : State} {s : State} (hk₀ : Keeps k₀ s) : Keeps k₀ (Machine.State.takeTable s) := by
  unfold Machine.State.takeTable
  try dsimp only
  repeat' first | (with_reducible first | assumption | (intro _) | apply Keeps.giveOwner | apply Keeps.newOwner | apply Keeps.foldl |
                                  apply Keeps.foldlFst | apply Keeps.ite | fail_if_no_progress apply Keeps.of) | split

theorem Keeps.joinFail {k₀ : State} {s : State} (hk₀ : Keeps k₀ s) (status : Nat) (reason : Nat) : Keeps k₀ (Machine.State.joinFail s status
    reason) := by
  unfold Machine.State.joinFail
  try dsimp only
  repeat' first | (with_reducible first | assumption | apply Keeps.admEnd | apply Keeps.setFedState)

theorem Keeps.joinStep {k₀ : State} {s : State} (hk₀ : Keeps k₀ s) : Keeps k₀ (Machine.State.joinStep s) := by
  unfold Machine.State.joinStep
  try dsimp only
  repeat' first | (with_reducible first | assumption | (intro _) | apply Keeps.wr | apply Keeps.admEnd | apply Keeps.setFedState |
                                  apply Keeps.setMembers | apply Keeps.enterMember | apply Keeps.takeTable | apply Keeps.joinFail |
                                  apply Keeps.ite | fail_if_no_progress apply Keeps.of) | split

theorem Keeps.answerJoiner {k₀ : State} {s : State} (hk₀ : Keeps k₀ s) (k : Nat) (joiner : Nat) : Keeps k₀ (Machine.State.answerJoiner s k
    joiner) := by
  unfold Machine.State.answerJoiner
  try dsimp only
  repeat' first | (with_reducible first | assumption | (intro _) | apply Keeps.sendFrame | apply Keeps.sendManifest | apply Keeps.foldl |
                                  apply Keeps.foldlFst)

theorem Keeps.answerWaiting {k₀ : State} {s : State} (hk₀ : Keeps k₀ s) : Keeps k₀ (Machine.State.answerWaiting s) := by
  unfold Machine.State.answerWaiting
  try dsimp only
  repeat' first | (with_reducible first | assumption | (intro _) | apply Keeps.answerJoiner | apply Keeps.foldl | apply Keeps.foldlFst |
                                  apply Keeps.ite | fail_if_no_progress apply Keeps.of) | split

theorem learnFar_is7 (s : State) (k : Nat) (f : RawFrame) : (s.learnFar k f).is7 = s.is7 := by
  unfold State.learnFar
  split <;> rfl

theorem Keeps.execManifest {k₀ : State} (k : Nat) (raw : RawFrame) {s : State} (hk₀ : Keeps k₀ s) : KeepsOut k₀ (Machine.execManifest k raw
    s) := by
  unfold Machine.execManifest
  with_reducible apply KeepsOut.ite KeepsOut.fault
  have h0 := Keeps.rxFrame hk₀ k 2 raw
  dsimp only
  generalize fixedFrame raw = f
  split
  · rename_i s1 e
    rw [e] at h0
    exact KeepsOut.next h0
  · rename_i s1 e
    rw [e] at h0
    have h1 : ∀ ws, Keeps k₀ { (s1.learnFar k f) with is7 := s1.is7.putAll (16 * frameSrc f) ws } := fun ws =>
      Keeps.is7 (Keeps.learnFar h0 k f) _ (fun w => WordMap.wf_putAll _ _ _ (by rwa [learnFar_is7] at w))
    try dsimp only
    repeat' first | (with_reducible first | assumption | (intro _) | apply KeepsOut.ite | apply KeepsOut.next | apply Keeps.joinStep |
                                    apply Keeps.answerWaiting | apply Keeps.putMember | apply h1 | fail_if_no_progress apply Keeps.of) |
                                    split

theorem Keeps.beginJoin {k₀ : State} {s : State} (hk₀ : Keeps k₀ s) (own : Bool) (c : AdmCmd) : Keeps k₀ (Machine.State.beginJoin s own c)
    := by
  unfold Machine.State.beginJoin
  try dsimp only
  repeat' first | (with_reducible first | assumption | (intro _) | apply Keeps.setFld | apply Keeps.putCmd | apply Keeps.setFedState |
                                  apply Keeps.setMembers | apply Keeps.admRefuse | apply Keeps.joinManifest | apply Keeps.foldl |
                                  apply Keeps.foldlFst | apply Keeps.ite | fail_if_no_progress apply Keeps.of) | split

theorem Keeps.leaveQueue {k₀ : State} {s : State} (hk₀ : Keeps k₀ s) (qid : Nat) : Keeps k₀ (Machine.State.leaveQueue s qid) := by
  unfold Machine.State.leaveQueue
  try dsimp only
  repeat' first | (with_reducible first | assumption | apply Keeps.setCtx | apply Keeps.startDrain | apply Keeps.drainTo | apply Keeps.ite |
                                  fail_if_no_progress apply Keeps.of) | split

theorem Keeps.beginLeave {k₀ : State} {s : State} (hk₀ : Keeps k₀ s) (own : Bool) (c : AdmCmd) : Keeps k₀ (Machine.State.beginLeave s own c)
    := by
  unfold Machine.State.beginLeave
  try dsimp only
  repeat' first | (with_reducible first | assumption | (intro _) | apply Keeps.awaitCtx | apply Keeps.putCmd | apply Keeps.setFedState |
                                  apply Keeps.admRefuse | apply Keeps.leaveCheck | apply Keeps.leaveQueue | apply Keeps.foldl |
                                  apply Keeps.foldlFst | apply Keeps.ite | fail_if_no_progress apply Keeps.of) | split

theorem Keeps.execFedJoin {k₀ : State} {s : State} (hk₀ : Keeps k₀ s) : KeepsOut k₀ (Machine.execFedJoin s) := by
  unfold Machine.execFedJoin
  try dsimp only
  repeat' first | (with_reducible first | assumption | (intro _) | apply KeepsOut.next | exact KeepsOut.fault | apply Keeps.beginCmd |
                                  apply Keeps.beginJoin)

theorem Keeps.execFedLeave {k₀ : State} {s : State} (hk₀ : Keeps k₀ s) : KeepsOut k₀ (Machine.execFedLeave s) := by
  unfold Machine.execFedLeave
  try dsimp only
  repeat' first | (with_reducible first | assumption | (intro _) | apply KeepsOut.next | exact KeepsOut.fault | apply Keeps.beginCmd |
                                  apply Keeps.beginLeave)

theorem Keeps.execJoinCeil {k₀ : State} {s : State} (hk₀ : Keeps k₀ s) : KeepsOut k₀ (Machine.execJoinCeil s) := by
  unfold Machine.execJoinCeil
  try dsimp only
  repeat' first | (with_reducible first | assumption | (intro _) | apply KeepsOut.next | exact KeepsOut.fault | apply Keeps.wr |
                                  apply Keeps.admEnd | apply Keeps.enterMember | apply Keeps.joinFail | apply KeepsOut.ite |
                                  apply Keeps.ite | fail_if_no_progress apply Keeps.of) | split

theorem Keeps.linkUp {k₀ : State} {s : State} (hk₀ : Keeps k₀ s) (k : Nat) : Keeps k₀ (Machine.State.linkUp s k) := by
  unfold Machine.State.linkUp
  try dsimp only
  repeat' first | (with_reducible first | assumption | apply Keeps.linkTrained | apply Keeps.joinManifest | apply Keeps.ite |
                                  fail_if_no_progress apply Keeps.of) | split

theorem Keeps.sendTrain {k₀ : State} {s : State} (hk₀ : Keeps k₀ s) (k : Nat) : Keeps k₀ (Machine.State.sendTrain s k) := by
  unfold Machine.State.sendTrain
  try dsimp only
  repeat' first | (with_reducible first | assumption | apply Keeps.emitFrame)

theorem Keeps.execTrain {k₀ : State} (k : Nat) (raw : RawFrame) {s : State} (hk₀ : Keeps k₀ s) : KeepsOut k₀ (Machine.execTrain k raw s) :=
    by
  unfold Machine.execTrain
  try dsimp only
  repeat' first | (with_reducible first | assumption | apply KeepsOut.next | exact KeepsOut.fault | apply Keeps.putLink |
                                  refine Keeps.fst (by assumption) (Keeps.rxFrame ?_ ..) | apply Keeps.rxFrame | apply Keeps.linkUp |
                                  apply Keeps.sendTrain | apply KeepsOut.ite | apply Keeps.ite | fail_if_no_progress apply Keeps.of) | split

theorem Keeps.execRxOk {k₀ : State} (k : Nat) {s : State} (hk₀ : Keeps k₀ s) : KeepsOut k₀ (Machine.execRxOk k s) := by
  unfold Machine.execRxOk
  try dsimp only
  repeat' first | (with_reducible first | assumption | apply KeepsOut.next | exact KeepsOut.fault | apply Keeps.putLink |
                                  apply Keeps.linkUp | apply Keeps.sendTrain | apply KeepsOut.ite | apply Keeps.ite |
                                  fail_if_no_progress apply Keeps.of) | split

theorem Keeps.execAck {k₀ : State} (k : Nat) (raw : RawFrame) {s : State} (hk₀ : Keeps k₀ s) : KeepsOut k₀ (Machine.execAck k raw s) := by
  unfold Machine.execAck
  try dsimp only
  repeat' first | (with_reducible first | assumption | apply KeepsOut.next | exact KeepsOut.fault |
                                  refine Keeps.fst (by assumption) (Keeps.rxFrame ?_ ..) | apply Keeps.rxFrame | apply KeepsOut.ite |
                                  apply Keeps.ite) | split

theorem Keeps.execAckSend {k₀ : State} (k : Nat) {s : State} (hk₀ : Keeps k₀ s) : KeepsOut k₀ (Machine.execAckSend k s) := by
  unfold Machine.execAckSend
  try dsimp only
  repeat' first | (with_reducible first | assumption | apply KeepsOut.next | exact KeepsOut.fault | apply Keeps.emitFrame |
                                  apply KeepsOut.ite | apply Keeps.ite) | split

theorem Keeps.execLinkRetryCeil {k₀ : State} (k : Nat) {s : State} (hk₀ : Keeps k₀ s) : KeepsOut k₀ (Machine.execLinkRetryCeil k s) := by
  unfold Machine.execLinkRetryCeil
  try dsimp only
  repeat' first | (with_reducible first | assumption | (intro _) | apply KeepsOut.next | exact KeepsOut.fault | apply Keeps.logErr |
                                  apply Keeps.putLink | apply KeepsOut.ite | apply Keeps.ite | fail_if_no_progress apply Keeps.of) | split

theorem Keeps.execLinkResendLimit {k₀ : State} (k : Nat) {s : State} (hk₀ : Keeps k₀ s) : KeepsOut k₀ (Machine.execLinkResendLimit k s) :=
    by
  unfold Machine.execLinkResendLimit
  try dsimp only
  repeat' first | (with_reducible first | assumption | apply KeepsOut.next | exact KeepsOut.fault | apply Keeps.linkDown |
                                  apply KeepsOut.ite | apply Keeps.ite | fail_if_no_progress apply Keeps.of) | split

theorem Keeps.execLinkIdleErrLimit {k₀ : State} (k : Nat) {s : State} (hk₀ : Keeps k₀ s) : KeepsOut k₀ (Machine.execLinkIdleErrLimit k s) :=
    by
  unfold Machine.execLinkIdleErrLimit
  try dsimp only
  repeat' first | (with_reducible first | assumption | apply KeepsOut.next | exact KeepsOut.fault | apply Keeps.bump |
                                  apply Keeps.linkDown | apply KeepsOut.ite | apply Keeps.ite) | split

theorem Keeps.execLinkRxKindZero {k₀ : State} (k : Nat) {s : State} (hk₀ : Keeps k₀ s) : KeepsOut k₀ (Machine.execLinkRxKindZero k s) := by
  unfold Machine.execLinkRxKindZero
  try dsimp only
  repeat' first | (with_reducible first | assumption | apply KeepsOut.next | exact KeepsOut.fault | apply Keeps.linkDown |
                                  apply KeepsOut.ite | apply Keeps.ite) | split

theorem Keeps.applyFence {k₀ : State} {s0 : State} (hk₀ : Keeps k₀ s0) (epoch : Nat) (ms : List Nat) (out : List Nat) : Keeps k₀
    (Machine.State.applyFence s0 epoch ms out) := by
  unfold Machine.State.applyFence
  try dsimp only
  repeat' first | (with_reducible first | assumption | (intro _) | apply Keeps.wr | apply Keeps.logErr | apply Keeps.putMember |
                                  apply Keeps.setMembers | apply Keeps.memberAnswered | apply Keeps.foldl | apply Keeps.foldlFst |
                                  fail_if_no_progress apply Keeps.of)

theorem Keeps.fenceNow {k₀ : State} {s : State} (hk₀ : Keeps k₀ s) : Keeps k₀ (Machine.State.fenceNow s) := by
  unfold Machine.State.fenceNow
  try dsimp only
  repeat' first | (with_reducible first | assumption | (intro _) | apply Keeps.sendTo | apply Keeps.applyFence | apply Keeps.foldl |
                                  apply Keeps.foldlFst | apply Keeps.ite) | split

theorem Keeps.execFenceFrame {k₀ : State} (k : Nat) (raw : RawFrame) {s : State} (hk₀ : Keeps k₀ s) : KeepsOut k₀ (Machine.execFenceFrame k
    raw s) := by
  unfold Machine.execFenceFrame
  try dsimp only
  repeat' first | (with_reducible first | assumption | (intro _) | apply KeepsOut.next | exact KeepsOut.fault |
                                  refine Keeps.fst (by assumption) (Keeps.rxFrame ?_ ..) | apply Keeps.rxFrame | apply Keeps.applyFence |
                                  apply KeepsOut.ite | apply Keeps.ite | fail_if_no_progress apply Keeps.of) | split

theorem Keeps.execSelfFence {k₀ : State} {s : State} (hk₀ : Keeps k₀ s) : KeepsOut k₀ (Machine.execSelfFence s) := by
  unfold Machine.execSelfFence
  try dsimp only
  repeat' first | (with_reducible first | assumption | apply KeepsOut.next | exact KeepsOut.fault | apply Keeps.setFedState |
                                  apply KeepsOut.ite | apply Keeps.ite | fail_if_no_progress apply Keeps.of) | split

theorem Keeps.execAdoptionStart {k₀ : State} (m : Nat) {s : State} (hk₀ : Keeps k₀ s) : KeepsOut k₀ (Machine.execAdoptionStart m s) := by
  unfold Machine.execAdoptionStart
  try dsimp only
  repeat' first | (with_reducible first | assumption | (intro _) | apply KeepsOut.next | exact KeepsOut.fault | apply Keeps.awaitCtx |
                                  apply Keeps.flipHash | apply Keeps.putMember | apply Keeps.foldl | apply Keeps.foldlFst |
                                  apply KeepsOut.ite | apply Keeps.ite | fail_if_no_progress apply Keeps.of) | split

theorem Keeps.execHeartbeatSend {k₀ : State} {s : State} (hk₀ : Keeps k₀ s) : KeepsOut k₀ (Machine.execHeartbeatSend s) := by
  unfold Machine.execHeartbeatSend
  try dsimp only
  repeat' first | (with_reducible first | assumption | apply KeepsOut.next | exact KeepsOut.fault | apply Keeps.service |
                                  apply Keeps.sendTo | apply Keeps.heartbeats | apply KeepsOut.ite | apply Keeps.ite |
                                  fail_if_no_progress apply Keeps.of) | split

theorem Keeps.yieldQueue {k₀ : State} {s : State} (hk₀ : Keeps k₀ s) (qid : Nat) (m : Nat) : Keeps k₀ (Machine.State.yieldQueue s qid m) :=
    by
  unfold Machine.State.yieldQueue
  try dsimp only
  repeat' first | (with_reducible first | assumption | apply Keeps.yieldDone | apply Keeps.leaveQueue | apply Keeps.ite |
                                  fail_if_no_progress apply Keeps.of) | split

theorem Keeps.settleOwner {k₀ : State} (m : Nat) {s : State} (hk₀ : Keeps k₀ s) (e : Nat × Nat) : Keeps k₀ (Machine.State.settleOwner m s e)
    := by
  unfold Machine.State.settleOwner
  try dsimp only
  repeat' first | (with_reducible first | assumption | apply Keeps.giveOwner | apply Keeps.newOwner | apply Keeps.yieldQueue |
                                  apply Keeps.ite) | split

theorem Keeps.settleOwners {k₀ : State} {s : State} (hk₀ : Keeps k₀ s) (m : Nat) (table : List (Nat × Nat)) : Keeps k₀
    (Machine.State.settleOwners s m table) := by
  unfold Machine.State.settleOwners
  try dsimp only
  repeat' first | (with_reducible first | assumption | (intro _) | apply Keeps.settleOwner | apply Keeps.foldl | apply Keeps.foldlFst |
                                  apply Keeps.ite) | split

theorem Keeps.inherit {k₀ : State} {s : State} (hk₀ : Keeps k₀ s) (m : Nat) : Keeps k₀ (Machine.State.inherit s m) := by
  unfold Machine.State.inherit
  try dsimp only
  repeat' first | (with_reducible first | assumption | (intro _) | apply Keeps.giveOwner | apply Keeps.foldl | apply Keeps.foldlFst)

theorem Keeps.takeHeartbeat {k₀ : State} {s : State} (hk₀ : Keeps k₀ s) (m : Nat) (st : Nat) (epoch : Nat) : Keeps k₀
    (Machine.State.takeHeartbeat s m st epoch) := by
  unfold Machine.State.takeHeartbeat
  try dsimp only
  repeat' first | (with_reducible first | assumption | (intro _) | apply Keeps.wr | apply Keeps.setFedState | apply Keeps.setMembers |
                                  apply Keeps.inherit | apply Keeps.ite) | split

theorem Keeps.execHeartbeat {k₀ : State} (k : Nat) (raw : RawFrame) {s : State} (hk₀ : Keeps k₀ s) : KeepsOut k₀ (Machine.execHeartbeat k
    raw s) := by
  unfold Machine.execHeartbeat
  try dsimp only
  repeat' first | (with_reducible first | assumption | (intro _) | apply KeepsOut.next | exact KeepsOut.fault |
                                  refine Keeps.fst (by assumption) (Keeps.rxFrame ?_ ..) | apply Keeps.rxFrame | apply Keeps.putMember |
                                  apply Keeps.heldCheck | apply Keeps.learnFar | apply Keeps.settleOwners | apply Keeps.takeHeartbeat |
                                  apply Keeps.foldl | apply Keeps.foldlFst | apply KeepsOut.ite | apply Keeps.ite |
                                  fail_if_no_progress apply Keeps.of) | split

theorem Keeps.execTime {k₀ : State} (k : Nat) (raw : RawFrame) {s : State} (hk₀ : Keeps k₀ s) : KeepsOut k₀ (Machine.execTime k raw s) := by
  unfold Machine.execTime
  try dsimp only
  repeat' first | (with_reducible first | assumption | apply KeepsOut.next | exact KeepsOut.fault | apply Keeps.setFld |
                                  apply Keeps.sendTo | refine Keeps.fst (by assumption) (Keeps.rxFrame ?_ ..) | apply Keeps.rxFrame |
                                  apply KeepsOut.ite | apply Keeps.ite | fail_if_no_progress apply Keeps.of) | split

theorem Keeps.execWitnessRead {k₀ : State} (m : Nat) {s : State} (hk₀ : Keeps k₀ s) : KeepsOut k₀ (Machine.execWitnessRead m s) := by
  unfold Machine.execWitnessRead
  try dsimp only
  repeat' first | (with_reducible first | assumption | (intro _) | apply KeepsOut.next | exact KeepsOut.fault | apply Keeps.service |
                                  apply Keeps.putMember | apply KeepsOut.ite | apply Keeps.ite | fail_if_no_progress apply Keeps.of) | split

theorem Keeps.witnessSeen {k₀ : State} {s : State} (hk₀ : Keeps k₀ s) (m : Nat) (count : Option Nat) : Keeps k₀ (Machine.State.witnessSeen s
    m count) := by
  unfold Machine.State.witnessSeen
  try dsimp only
  repeat' first | (with_reducible first | assumption | apply Keeps.putMember | apply Keeps.fenceNow | apply Keeps.ite |
                                  fail_if_no_progress apply Keeps.of) | split

theorem Keeps.execWitnessReadResponse {k₀ : State} (aid : Nat) (ans : Answer) {s : State} (hk₀ : Keeps k₀ s) : KeepsOut k₀
    (Machine.execWitnessReadResponse aid ans s) := by
  unfold Machine.execWitnessReadResponse
  try dsimp only
  repeat' first | (with_reducible first | assumption | apply KeepsOut.next | exact KeepsOut.fault | apply Keeps.drainHeld |
                                  apply Keeps.readEnds | refine Keeps.fst (by assumption) (Keeps.land ?_ ..) | apply Keeps.land |
                                  apply Keeps.witnessSeen | apply KeepsOut.ite | apply Keeps.ite | fail_if_no_progress apply Keeps.of) |
                                  split

theorem Keeps.execWitnessReadCeil {k₀ : State} (aid : Nat) {s : State} (hk₀ : Keeps k₀ s) : KeepsOut k₀ (Machine.execWitnessReadCeil aid s)
    := by
  unfold Machine.execWitnessReadCeil
  try dsimp only
  repeat' first | (with_reducible first | assumption | apply KeepsOut.next | exact KeepsOut.fault | apply Keeps.drainHeld |
                                  apply Keeps.quarantine | apply Keeps.witnessSeen | apply KeepsOut.ite | apply Keeps.ite |
                                  fail_if_no_progress apply Keeps.of) | split

theorem Keeps.execConfig {k₀ : State} (k : Nat) (raw : RawFrame) {s : State} (hk₀ : Keeps k₀ s) : KeepsOut k₀ (Machine.execConfig k raw s)
    := by
  unfold Machine.execConfig
  try dsimp only
  repeat' first | (with_reducible first | assumption | (intro _) | apply KeepsOut.next | exact KeepsOut.fault |
                                  refine Keeps.fst (by assumption) (Keeps.rxFrame ?_ ..) | apply Keeps.rxFrame | apply KeepsOut.ite |
                                  apply Keeps.ite | fail_if_no_progress apply Keeps.of) | split

theorem Keeps.execConfigAck {k₀ : State} (k : Nat) (raw : RawFrame) {s : State} (hk₀ : Keeps k₀ s) : KeepsOut k₀ (Machine.execConfigAck k
    raw s) := by
  unfold Machine.execConfigAck
  try dsimp only
  repeat' first | (with_reducible first | assumption | apply KeepsOut.next | exact KeepsOut.fault |
                                  refine Keeps.fst (by assumption) (Keeps.rxFrame ?_ ..) | apply Keeps.rxFrame |
                                  apply Keeps.memberAnswered | apply KeepsOut.ite | apply Keeps.ite | fail_if_no_progress apply Keeps.of) |
                                  split

theorem Keeps.execDoorbell {k₀ : State} (k : Nat) (raw : RawFrame) {s : State} (hk₀ : Keeps k₀ s) : KeepsOut k₀ (Machine.execDoorbell k raw
    s) := by
  unfold Machine.execDoorbell
  try dsimp only
  repeat' first | (with_reducible first | assumption | apply KeepsOut.next | exact KeepsOut.fault |
                                  refine Keeps.fst (by assumption) (Keeps.rxFrame ?_ ..) | apply Keeps.rxFrame |
                                  apply Keeps.forwardDoorbell | apply Keeps.takeRecord | apply KeepsOut.ite | apply Keeps.ite |
                                  fail_if_no_progress apply Keeps.of) | split

/-! Machine/Ctx.lean. -/

theorem Keeps.adoptCtx {k₀ : State} {s : State} (hk₀ : Keeps k₀ s) (qid : Nat) : Keeps k₀ (Machine.State.adoptCtx s qid) := by
  unfold Machine.State.adoptCtx
  try dsimp only
  repeat' first | (with_reducible first | assumption | (intro _) | apply Keeps.setCtx | apply Keeps.writeBack | apply Keeps.markReady |
                                  apply Keeps.adoptCheck | apply Keeps.fullScanNext | apply Keeps.quiesceQueue | apply Keeps.adoptCommand |
                                  apply Keeps.admContext | apply Keeps.foldl | apply Keeps.foldlFst | apply Keeps.ite |
                                  fail_if_no_progress apply Keeps.of) | split

theorem Keeps.runWork {k₀ : State} {s : State} (hk₀ : Keeps k₀ s) (qid : Nat) (w : CtxWork) : Keeps k₀ (Machine.State.runWork s qid w) := by
  unfold Machine.State.runWork
  try dsimp only
  repeat' first | (with_reducible first | assumption | apply Keeps.markReady | apply Keeps.applyRecord | apply Keeps.startDestroy |
                                  apply Keeps.admCheck | apply Keeps.recordAcked | apply Keeps.noticeAcked | apply Keeps.snapWaits |
                                  apply Keeps.quiesceQueue | apply Keeps.releaseQueue | apply Keeps.admContext | apply Keeps.leaveQueue |
                                  apply Keeps.adoptCtx | apply Keeps.ite | fail_if_no_progress apply Keeps.of) | split

theorem Keeps.ctxArrived {k₀ : State} {s : State} (hk₀ : Keeps k₀ s) (qid : Nat) : Keeps k₀ (Machine.State.ctxArrived s qid) := by
  unfold Machine.State.ctxArrived
  try dsimp only
  repeat' first | (with_reducible first | assumption | (intro _) | apply Keeps.markReady | apply Keeps.runWork | apply Keeps.foldl |
                                  apply Keeps.foldlFst | fail_if_no_progress apply Keeps.of)

theorem Keeps.placeFetched {k₀ : State} {s : State} (hk₀ : Keeps k₀ s) (qid : Nat) (c : QCtx) : Keeps k₀ (Machine.State.placeFetched s qid
    c) := by
  unfold Machine.State.placeFetched
  try dsimp only
  repeat' first | (with_reducible first | assumption | (intro _) | apply Keeps.placeWay | apply Keeps.startFetch | apply Keeps.ctxArrived |
                                  apply Keeps.ite | fail_if_no_progress apply Keeps.of) | split

theorem Keeps.execCtxFetchResponse {k₀ : State} (aid : Nat) (ans : Answer) {s : State} (hk₀ : Keeps k₀ s) : KeepsOut k₀
    (Machine.execCtxFetchResponse aid ans s) := by
  unfold Machine.execCtxFetchResponse
  try dsimp only
  repeat' first | (with_reducible first | assumption | apply KeepsOut.next | exact KeepsOut.fault | apply Keeps.logErr |
                                  apply Keeps.drainHeld | apply Keeps.readEnds | refine Keeps.fst (by assumption) (Keeps.land ?_ ..) |
                                  apply Keeps.land | apply Keeps.ctxAgain | apply Keeps.placeFetched | apply KeepsOut.ite |
                                  apply Keeps.ite | fail_if_no_progress apply Keeps.of) | split

theorem Keeps.writtenBack {k₀ : State} {s : State} (hk₀ : Keeps k₀ s) (qid : Nat) (data : List Byte) : Keeps k₀ (Machine.State.writtenBack s
    qid data) := by
  unfold Machine.State.writtenBack
  try dsimp only
  repeat' first | (with_reducible first | assumption | (intro _) | apply Keeps.pumpCtx | apply Keeps.createQueue | apply Keeps.ite |
                                  fail_if_no_progress apply Keeps.of) | split

theorem Keeps.execCtxWriteBackAck {k₀ : State} (aid : Nat) (code : BitVec 6) {s : State} (hk₀ : Keeps k₀ s) : KeepsOut k₀
    (Machine.execCtxWriteBackAck aid code s) := by
  unfold Machine.execCtxWriteBackAck
  try dsimp only
  repeat' first | (with_reducible first | assumption | (intro _) | apply KeepsOut.next | exact KeepsOut.fault | apply Keeps.logErr |
                                  apply Keeps.drainHeld | apply Keeps.dropAccess | apply Keeps.ctxAgain | apply Keeps.writtenBack |
                                  apply KeepsOut.ite | apply Keeps.ite | fail_if_no_progress apply Keeps.of) | split

theorem Keeps.execCtxFetchCeil {k₀ : State} (qid : Nat) {s : State} (hk₀ : Keeps k₀ s) : KeepsOut k₀ (Machine.execCtxFetchCeil qid s) := by
  unfold Machine.execCtxFetchCeil
  try dsimp only
  repeat' first | (with_reducible first | assumption | (intro _) | apply KeepsOut.next | exact KeepsOut.fault | apply Keeps.drainHeld |
                                  apply Keeps.quarantine | apply Keeps.writeBack | apply Keeps.fetchCtx | apply Keeps.ctxAgain |
                                  apply KeepsOut.ite | apply Keeps.ite | fail_if_no_progress apply Keeps.of) | split

theorem Keeps.execContextWriteBack {k₀ : State} (qid : Nat) {s : State} (hk₀ : Keeps k₀ s) : KeepsOut k₀ (Machine.execContextWriteBack qid
    s) := by
  unfold Machine.execContextWriteBack
  try dsimp only
  repeat' first | (with_reducible first | assumption | apply KeepsOut.next | exact KeepsOut.fault | apply Keeps.writeBack |
                                  apply KeepsOut.ite | apply Keeps.ite | fail_if_no_progress apply Keeps.of) | split

/-! Machine/RegPort.lean. -/

theorem Keeps.answer {k₀ : State} {s : State} (hk₀ : Keeps k₀ s) (agent : Nat) (code : Nat) (data : W32) : Keeps k₀ (Machine.State.answer s
    agent code data) := by
  unfold Machine.State.answer
  try dsimp only
  repeat' first | (with_reducible first | assumption | apply Keeps.ite | fail_if_no_progress apply Keeps.of) | split

theorem Keeps.is0Write {k₀ : State} {s : State} (hk₀ : Keeps k₀ s) (x : Nat) (data : W32) (agent : Nat) (off : Nat) : Keeps k₀
    (Machine.State.is0Write s x data agent off) := by
  unfold Machine.State.is0Write
  try dsimp only
  repeat' first | (with_reducible first | assumption | apply Keeps.reportDrop | apply Keeps.putInst | apply Keeps.ite) | split

theorem Keeps.is12Write {k₀ : State} {s : State} (hk₀ : Keeps k₀ s) (second : Bool) (x : Nat) (data : W32) : Keeps k₀
    (Machine.State.is12Write s second x data) := by
  unfold Machine.State.is12Write
  with_reducible apply Keeps.ite hk₀
  dsimp only
  have hb : ∀ b : EvmBank, b.ok = true → EvmBank.ok (if second then { b with is2 := b.is2.put x data } else { b with is1 := b.is1.put x data
      }) = true := by
    intro b h
    rw [EvmBank.ok_iff] at h
    split
    · exact (EvmBank.ok_iff _).mpr ⟨⟨h.1.1, WordMap.wf_put _ _ _ h.1.2⟩, h.2⟩
    · exact (EvmBank.ok_iff _).mpr ⟨⟨WordMap.wf_put _ _ _ h.1.1, h.1.2⟩, h.2⟩
  exact Keeps.reroute hk₀ _ (fun a h0 => Keeps.evms h0 _ _ (fun h _ => hb _ h) (fun _ h => hb _ h))

theorem Keeps.putIs3 {k₀ : State} {s : State} (hk₀ : Keeps k₀ s) (w : Nat) (v : W32) : Keeps k₀ (Machine.State.putIs3 s w v) := by
  exact Keeps.is3 hk₀ _ (WordMap.wf_put _ _ _)

theorem Keeps.traceWrite {k₀ : State} {s : State} (hk₀ : Keeps k₀ s) (k : Nat) (w : Nat) (data : W32) (agent : Nat) (off : Nat) : Keeps k₀
    (Machine.State.traceWrite s k w data agent off) := by
  unfold Machine.State.traceWrite
  try dsimp only
  repeat' first | (with_reducible first | assumption | apply Keeps.reportDrop | apply Keeps.putIs3 | apply Keeps.ite) | split

theorem Keeps.thrWrite {k₀ : State} {s : State} (hk₀ : Keeps k₀ s) (t : Nat) (w : Nat) (data : W32) : Keeps k₀ (Machine.State.thrWrite s t w
    data) := by
  unfold Machine.State.thrWrite
  try dsimp only
  repeat' first | (with_reducible first | assumption | apply Keeps.setThr | apply Keeps.putIs3 | apply Keeps.ite |
                                  fail_if_no_progress apply Keeps.of) | split

theorem Keeps.is3Write {k₀ : State} {s : State} (hk₀ : Keeps k₀ s) (x : Nat) (data : W32) (agent : Nat) (off : Nat) : Keeps k₀
    (Machine.State.is3Write s x data agent off) := by
  unfold Machine.State.is3Write
  try dsimp only
  repeat' first | (with_reducible first | assumption | apply Keeps.timerGate | apply Keeps.timerModeSet | apply Keeps.refreshEvm |
                                  apply Keeps.putIs3 | apply Keeps.traceWrite | apply Keeps.thrWrite | apply Keeps.ite) | split

theorem Keeps.indStore {k₀ : State} {s : State} (hk₀ : Keeps k₀ s) (sp : Nat) (x : Nat) (w : RegWrite) (off : Nat) : Keeps k₀
    (Machine.State.indStore s sp x w off) := by
  unfold Machine.State.indStore
  try dsimp only
  repeat' first | (with_reducible first | assumption | exact Keeps.is4s hk₀ _ _ (WordMap.wf_put _ _ _) (WordMap.wf_put _ _ _) |
                                  exact Keeps.is6 hk₀ _ (WordMap.wf_put _ _ _) | apply Keeps.is0Write | apply Keeps.is12Write |
                                  apply Keeps.is3Write | apply Keeps.ite | fail_if_no_progress apply Keeps.of) | split

theorem Keeps.indAdvance {k₀ : State} {s : State} (hk₀ : Keeps k₀ s) (p : Nat) : Keeps k₀ (Machine.State.indAdvance s p) := by
  unfold Machine.State.indAdvance
  try dsimp only
  repeat' first | (with_reducible first | assumption | apply Keeps.setFld)

theorem Keeps.indWrite {k₀ : State} {s : State} (hk₀ : Keeps k₀ s) (p : Nat) (w : RegWrite) (off : Nat) : Keeps k₀ (Machine.State.indWrite s
    p w off) := by
  unfold Machine.State.indWrite
  try dsimp only
  repeat' first | (with_reducible first | assumption | apply Keeps.indStore | apply Keeps.indAdvance)

theorem Keeps.claimWrite {k₀ : State} {s : State} (hk₀ : Keeps k₀ s) (p : Nat) (agent : Nat) (data : W32) (off : Nat) : Keeps k₀
    (Machine.State.claimWrite s p agent data off) := by
  unfold Machine.State.claimWrite
  try dsimp only
  repeat' first | (with_reducible first | assumption | apply Keeps.wr | apply Keeps.reportDrop | apply Keeps.ite) | split

theorem Keeps.lockWrite {k₀ : State} {s : State} (hk₀ : Keeps k₀ s) (agent : Nat) (data : W32) (off : Nat) : Keeps k₀
    (Machine.State.lockWrite s agent data off) := by
  unfold Machine.State.lockWrite
  try dsimp only
  repeat' first | (with_reducible first | assumption | apply Keeps.wr | apply Keeps.reportDrop | apply Keeps.ite) | split

theorem Keeps.writeOk {k₀ : State} {s : State} (hk₀ : Keeps k₀ s) (w : RegWrite) (off : Nat) : Keeps k₀ (Machine.State.writeOk s w off) :=
    by
  unfold Machine.State.writeOk
  try dsimp only
  repeat' first | (with_reducible first | assumption | apply Keeps.wr | apply Keeps.reportDrop | apply Keeps.regStore |
                                  apply Keeps.seqClear | apply Keeps.indWrite | apply Keeps.claimWrite | apply Keeps.lockWrite |
                                  apply Keeps.ite | fail_if_no_progress apply Keeps.of) | split

theorem Keeps.accessWakes {k₀ : State} {s : State} (hk₀ : Keeps k₀ s) : Keeps k₀ (Machine.State.accessWakes s) := by
  unfold Machine.State.accessWakes
  try dsimp only
  repeat' first | (with_reducible first | assumption | apply Keeps.wakeBy)

theorem Keeps.regWrite {k₀ : State} {s : State} (hk₀ : Keeps k₀ s) (w : RegWrite) : Keeps k₀ (Machine.State.regWrite s w) := by
  unfold Machine.State.regWrite
  try dsimp only
  repeat' first | (with_reducible first | assumption | apply Keeps.answer | apply Keeps.writeOk | apply Keeps.accessWakes |
                                  apply Keeps.ite) | split

theorem Keeps.regRead {k₀ : State} {s : State} (hk₀ : Keeps k₀ s) (r : RegRead) (data : W32) (f : State → State) (hk_f : ∀ a0, Keeps k₀ a0 →
    Keeps k₀ (f a0)) : Keeps k₀ (Machine.State.regRead s r data f) := by
  unfold Machine.State.regRead
  try dsimp only
  repeat' first | (with_reducible first | assumption | (intro _) | apply hk_f | apply Keeps.answer | apply Keeps.accessWakes |
                                  apply Keeps.ite) | split

theorem Keeps.writeRow {k₀ : State} (w : RegWrite) (mine : Bool) {s : State} (hk₀ : Keeps k₀ s) : KeepsOut k₀ (Machine.writeRow w mine s) :=
    by
  unfold Machine.writeRow
  try dsimp only
  repeat' first | (with_reducible first | assumption | apply KeepsOut.next | exact KeepsOut.fault | apply Keeps.regWrite |
                                  apply KeepsOut.ite | apply Keeps.ite) | split

theorem Keeps.execRegisterWrite {k₀ : State} (w : RegWrite) {s : State} (hk₀ : Keeps k₀ s) : KeepsOut k₀ (Machine.execRegisterWrite w s) :=
    by
  unfold Machine.execRegisterWrite
  try dsimp only
  repeat' first | (with_reducible first | assumption | apply KeepsOut.next | exact KeepsOut.fault | apply Keeps.writeRow)

theorem Keeps.execSeqWriteBack {k₀ : State} (w : RegWrite) {s : State} (hk₀ : Keeps k₀ s) : KeepsOut k₀ (Machine.execSeqWriteBack w s) := by
  unfold Machine.execSeqWriteBack
  try dsimp only
  repeat' first | (with_reducible first | assumption | apply KeepsOut.next | exact KeepsOut.fault | apply Keeps.writeRow)

theorem Keeps.execErrFatalWriteBack {k₀ : State} (w : RegWrite) {s : State} (hk₀ : Keeps k₀ s) : KeepsOut k₀ (Machine.execErrFatalWriteBack
    w s) := by
  unfold Machine.execErrFatalWriteBack
  try dsimp only
  repeat' first | (with_reducible first | assumption | apply KeepsOut.next | exact KeepsOut.fault | apply Keeps.writeRow)

theorem Keeps.execLockSetup {k₀ : State} (w : RegWrite) {s : State} (hk₀ : Keeps k₀ s) : KeepsOut k₀ (Machine.execLockSetup w s) := by
  unfold Machine.execLockSetup
  try dsimp only
  repeat' first | (with_reducible first | assumption | apply KeepsOut.next | exact KeepsOut.fault | apply Keeps.writeRow)

theorem Keeps.execIndClaim {k₀ : State} (w : RegWrite) {s : State} (hk₀ : Keeps k₀ s) : KeepsOut k₀ (Machine.execIndClaim w s) := by
  unfold Machine.execIndClaim
  try dsimp only
  repeat' first | (with_reducible first | assumption | apply KeepsOut.next | exact KeepsOut.fault | apply Keeps.writeRow)

theorem Keeps.execIndDataWrite {k₀ : State} (w : RegWrite) {s : State} (hk₀ : Keeps k₀ s) : KeepsOut k₀ (Machine.execIndDataWrite w s) := by
  unfold Machine.execIndDataWrite
  try dsimp only
  repeat' first | (with_reducible first | assumption | apply KeepsOut.next | exact KeepsOut.fault | apply Keeps.writeRow)

theorem Keeps.execTbAdjWrite {k₀ : State} (w : RegWrite) {s : State} (hk₀ : Keeps k₀ s) : KeepsOut k₀ (Machine.execTbAdjWrite w s) := by
  unfold Machine.execTbAdjWrite
  try dsimp only
  repeat' first | (with_reducible first | assumption | apply KeepsOut.next | exact KeepsOut.fault | apply Keeps.writeRow)

theorem Keeps.execTbRateWrite {k₀ : State} (w : RegWrite) {s : State} (hk₀ : Keeps k₀ s) : KeepsOut k₀ (Machine.execTbRateWrite w s) := by
  unfold Machine.execTbRateWrite
  try dsimp only
  repeat' first | (with_reducible first | assumption | apply KeepsOut.next | exact KeepsOut.fault | apply Keeps.writeRow)

theorem Keeps.execAdmQEnableSet {k₀ : State} (w : RegWrite) {s : State} (hk₀ : Keeps k₀ s) : KeepsOut k₀ (Machine.execAdmQEnableSet w s) :=
    by
  unfold Machine.execAdmQEnableSet
  try dsimp only
  repeat' first | (with_reducible first | assumption | apply KeepsOut.next | exact KeepsOut.fault | apply Keeps.writeRow)

theorem Keeps.execAdmQEnableClear {k₀ : State} (w : RegWrite) {s : State} (hk₀ : Keeps k₀ s) : KeepsOut k₀ (Machine.execAdmQEnableClear w s)
    := by
  unfold Machine.execAdmQEnableClear
  try dsimp only
  repeat' first | (with_reducible first | assumption | apply KeepsOut.next | exact KeepsOut.fault | apply Keeps.writeRow)

theorem Keeps.execEccInj {k₀ : State} (w : RegWrite) {s : State} (hk₀ : Keeps k₀ s) : KeepsOut k₀ (Machine.execEccInj w s) := by
  unfold Machine.execEccInj
  try dsimp only
  repeat' first | (with_reducible first | assumption | apply KeepsOut.next | exact KeepsOut.fault | apply Keeps.writeRow)

theorem Keeps.execEvmWflagWrite {k₀ : State} (w : RegWrite) {s : State} (hk₀ : Keeps k₀ s) : KeepsOut k₀ (Machine.execEvmWflagWrite w s) :=
    by
  unfold Machine.execEvmWflagWrite
  try dsimp only
  repeat' first | (with_reducible first | assumption | apply KeepsOut.next | exact KeepsOut.fault | apply Keeps.writeRow)

theorem Keeps.execEvmLineCtlWrite {k₀ : State} (w : RegWrite) {s : State} (hk₀ : Keeps k₀ s) : KeepsOut k₀ (Machine.execEvmLineCtlWrite w s)
    := by
  unfold Machine.execEvmLineCtlWrite
  try dsimp only
  repeat' first | (with_reducible first | assumption | apply KeepsOut.next | exact KeepsOut.fault | apply Keeps.writeRow)

theorem Keeps.execFedResyncWrite {k₀ : State} (w : RegWrite) {s : State} (hk₀ : Keeps k₀ s) : KeepsOut k₀ (Machine.execFedResyncWrite w s)
    := by
  unfold Machine.execFedResyncWrite
  try dsimp only
  repeat' first | (with_reducible first | assumption | apply KeepsOut.next | exact KeepsOut.fault | apply Keeps.writeRow)

theorem Keeps.execDbgMemGo {k₀ : State} (w : RegWrite) {s : State} (hk₀ : Keeps k₀ s) : KeepsOut k₀ (Machine.execDbgMemGo w s) := by
  unfold Machine.execDbgMemGo
  try dsimp only
  repeat' first | (with_reducible first | assumption | apply KeepsOut.next | exact KeepsOut.fault | apply Keeps.writeRow)

theorem Keeps.execDbgPollGo {k₀ : State} (w : RegWrite) {s : State} (hk₀ : Keeps k₀ s) : KeepsOut k₀ (Machine.execDbgPollGo w s) := by
  unfold Machine.execDbgPollGo
  try dsimp only
  repeat' first | (with_reducible first | assumption | apply KeepsOut.next | exact KeepsOut.fault | apply Keeps.writeRow)

theorem Keeps.execPllRestart {k₀ : State} (w : RegWrite) {s : State} (hk₀ : Keeps k₀ s) : KeepsOut k₀ (Machine.execPllRestart w s) := by
  unfold Machine.execPllRestart
  try dsimp only
  repeat' first | (with_reducible first | assumption | apply KeepsOut.next | exact KeepsOut.fault | apply Keeps.writeRow)

theorem Keeps.execPLevelChange {k₀ : State} (w : RegWrite) {s : State} (hk₀ : Keeps k₀ s) : KeepsOut k₀ (Machine.execPLevelChange w s) := by
  unfold Machine.execPLevelChange
  try dsimp only
  repeat' first | (with_reducible first | assumption | apply KeepsOut.next | exact KeepsOut.fault | apply Keeps.writeRow)

theorem Keeps.execClkGateWrite {k₀ : State} (w : RegWrite) {s : State} (hk₀ : Keeps k₀ s) : KeepsOut k₀ (Machine.execClkGateWrite w s) := by
  unfold Machine.execClkGateWrite
  try dsimp only
  repeat' first | (with_reducible first | assumption | apply KeepsOut.next | exact KeepsOut.fault | apply Keeps.writeRow)

theorem Keeps.execModeReqRun {k₀ : State} (w : RegWrite) {s : State} (hk₀ : Keeps k₀ s) : KeepsOut k₀ (Machine.execModeReqRun w s) := by
  unfold Machine.execModeReqRun
  try dsimp only
  repeat' first | (with_reducible first | assumption | apply KeepsOut.next | exact KeepsOut.fault | apply Keeps.writeRow)

theorem Keeps.execModeReqConfigure {k₀ : State} (w : RegWrite) {s : State} (hk₀ : Keeps k₀ s) : KeepsOut k₀ (Machine.execModeReqConfigure w
    s) := by
  unfold Machine.execModeReqConfigure
  try dsimp only
  repeat' first | (with_reducible first | assumption | apply KeepsOut.next | exact KeepsOut.fault | apply Keeps.writeRow)

theorem Keeps.execModeReqTest {k₀ : State} (w : RegWrite) {s : State} (hk₀ : Keeps k₀ s) : KeepsOut k₀ (Machine.execModeReqTest w s) := by
  unfold Machine.execModeReqTest
  try dsimp only
  repeat' first | (with_reducible first | assumption | apply KeepsOut.next | exact KeepsOut.fault | apply Keeps.writeRow)

theorem Keeps.execMbistGo {k₀ : State} (w : RegWrite) {s : State} (hk₀ : Keeps k₀ s) : KeepsOut k₀ (Machine.execMbistGo w s) := by
  unfold Machine.execMbistGo
  try dsimp only
  repeat' first | (with_reducible first | assumption | apply KeepsOut.next | exact KeepsOut.fault | apply Keeps.writeRow)

theorem Keeps.execTstRun {k₀ : State} (w : RegWrite) {s : State} (hk₀ : Keeps k₀ s) : KeepsOut k₀ (Machine.execTstRun w s) := by
  unfold Machine.execTstRun
  try dsimp only
  repeat' first | (with_reducible first | assumption | apply KeepsOut.next | exact KeepsOut.fault | apply Keeps.writeRow)

theorem Keeps.execTstInj {k₀ : State} (w : RegWrite) {s : State} (hk₀ : Keeps k₀ s) : KeepsOut k₀ (Machine.execTstInj w s) := by
  unfold Machine.execTstInj
  try dsimp only
  repeat' first | (with_reducible first | assumption | apply KeepsOut.next | exact KeepsOut.fault | apply Keeps.writeRow)

theorem Keeps.execIndDataRead {k₀ : State} (r : RegRead) {s : State} (hk₀ : Keeps k₀ s) : KeepsOut k₀ (Machine.execIndDataRead r s) := by
  unfold Machine.execIndDataRead
  try dsimp only
  repeat' first | (with_reducible first | assumption | (intro _) | apply KeepsOut.next | exact KeepsOut.fault | apply Keeps.indAdvance |
                                  apply Keeps.regRead | apply KeepsOut.ite | apply Keeps.ite | fail_if_no_progress apply Keeps.of) | split

theorem Keeps.execTbLoRead {k₀ : State} (r : RegRead) {s : State} (hk₀ : Keeps k₀ s) : KeepsOut k₀ (Machine.execTbLoRead r s) := by
  unfold Machine.execTbLoRead
  try dsimp only
  repeat' first | (with_reducible first | assumption | (intro _) | apply KeepsOut.next | exact KeepsOut.fault | apply Keeps.regRead |
                                  apply KeepsOut.ite | apply Keeps.ite | fail_if_no_progress apply Keeps.of) | split

theorem Keeps.noteRead {k₀ : State} {s : State} (hk₀ : Keeps k₀ s) (agent : Nat) (off : Nat) (v : W32) : Keeps k₀ (Machine.State.noteRead s
    agent off v) := by
  unfold Machine.State.noteRead
  try dsimp only
  repeat' first | (with_reducible first | assumption | (intro _) | apply Keeps.ite | fail_if_no_progress apply Keeps.of) | split

theorem Keeps.execSClassRead {k₀ : State} (r : RegRead) {s : State} (hk₀ : Keeps k₀ s) : KeepsOut k₀ (Machine.execSClassRead r s) := by
  unfold Machine.execSClassRead
  try dsimp only
  repeat' first | (with_reducible first | assumption | (intro _) | apply KeepsOut.next | exact KeepsOut.fault | apply Keeps.regRead |
                                  apply Keeps.noteRead | apply KeepsOut.ite | apply Keeps.ite) | split

theorem Keeps.execRegAccessCeil {k₀ : State} (agent : Nat) (offset : Nat) {s : State} (hk₀ : Keeps k₀ s) : KeepsOut k₀
    (Machine.execRegAccessCeil agent offset s) := by
  unfold Machine.execRegAccessCeil
  try dsimp only
  repeat' first | (with_reducible first | assumption | apply KeepsOut.next | exact KeepsOut.fault | apply Keeps.logErr |
                                  apply Keeps.answer | apply Keeps.accessWakes | apply KeepsOut.ite | apply Keeps.ite) | split

theorem Keeps.putTarget {k₀ : State} {s : State} (hk₀ : Keeps k₀ s) (x : Target) (v : W32) : Keeps k₀ (Machine.State.putTarget s x v) := by
  unfold Machine.State.putTarget
  try dsimp only
  repeat' first | (with_reducible first | assumption | apply Keeps.setInst | apply Keeps.refreshEvm | apply Keeps.putReg |
                                  apply Keeps.is12Write | fail_if_no_progress apply Keeps.of) | split

theorem Keeps.shadowEvent {k₀ : State} {s : State} (hk₀ : Keeps k₀ s) (k : Nat) (a : Nat) : Keeps k₀ (Machine.State.shadowEvent s k a) := by
  unfold Machine.State.shadowEvent
  try dsimp only
  repeat' first | (with_reducible first | assumption | (intro _) | apply Keeps.sEvent | fail_if_no_progress apply Keeps.of)

theorem Keeps.execRegParityFault {k₀ : State} (target : Nat) (flop : W32) (shadowBad : Bool) {s : State} (hk₀ : Keeps k₀ s) : KeepsOut k₀
    (Machine.execRegParityFault target flop shadowBad s) := by
  unfold Machine.execRegParityFault
  try dsimp only
  repeat' first | (with_reducible first | assumption | (intro _) | apply KeepsOut.next | exact KeepsOut.fault | apply Keeps.reset |
                                  apply Keeps.bump | apply Keeps.logErr | apply Keeps.goFatal | apply Keeps.putTarget |
                                  apply Keeps.shadowEvent | apply KeepsOut.ite | apply Keeps.ite | fail_if_no_progress apply Keeps.of) |
                                  split

theorem Keeps.execShadowScrub {k₀ : State} (target : Nat) (found : EccMark) {s : State} (hk₀ : Keeps k₀ s) : KeepsOut k₀
    (Machine.execShadowScrub target found s) := by
  unfold Machine.execShadowScrub
  try dsimp only
  repeat' first | (with_reducible first | assumption | apply KeepsOut.next | exact KeepsOut.fault | apply Keeps.bump | apply Keeps.logErr |
                                  apply Keeps.shadowEvent | apply KeepsOut.ite | apply Keeps.ite | fail_if_no_progress apply Keeps.of) |
                                  split

theorem Keeps.admSilence {k₀ : State} {s : State} (hk₀ : Keeps k₀ s) : Keeps k₀ (Machine.State.admSilence s) := by
  unfold Machine.State.admSilence
  try dsimp only
  repeat' first | (with_reducible first | assumption | apply Keeps.putCmd | apply Keeps.admEnd | apply Keeps.unpin | apply Keeps.ite |
                                  fail_if_no_progress apply Keeps.of) | split

theorem Keeps.admOwnerReset {k₀ : State} {s : State} (hk₀ : Keeps k₀ s) : Keeps k₀ (Machine.State.admOwnerReset s) := by
  unfold Machine.State.admOwnerReset
  try dsimp only
  repeat' first | (with_reducible first | assumption | apply Keeps.setFld | apply Keeps.discardStaged | apply Keeps.admForget |
                                  apply Keeps.admSilence | apply Keeps.ite) | split

theorem Keeps.execAgentReset {k₀ : State} (agent : Nat) {s : State} (hk₀ : Keeps k₀ s) : KeepsOut k₀ (Machine.execAgentReset agent s) := by
  unfold Machine.execAgentReset
  try dsimp only
  repeat' first | (with_reducible first | assumption | (intro _) | apply KeepsOut.next | exact KeepsOut.fault | apply Keeps.wr |
                                  apply Keeps.admOwnerReset | apply Keeps.foldl | apply Keeps.foldlFst | apply KeepsOut.ite |
                                  apply Keeps.ite | fail_if_no_progress apply Keeps.of) | split

/-! Machine/Test.lean. -/

theorem Keeps.failMacro {k₀ : State} {s : State} (hk₀ : Keeps k₀ s) (f : MacroFault) : Keeps k₀ (Machine.State.failMacro s f) := by
  unfold State.failMacro
  dsimp only
  exact Keeps.ite hk₀ (Keeps.is6 hk₀ _ (fun w => WordMap.wf_put _ _ _ (WordMap.wf_put _ _ _ w)))

theorem Keeps.passMacro {k₀ : State} {s : State} (hk₀ : Keeps k₀ s) (m : Nat) : Keeps k₀ (Machine.State.passMacro s m) := by
  unfold State.passMacro
  exact Keeps.ite hk₀ (Keeps.is6 hk₀ _ (fun w => WordMap.wf_put _ _ _ (WordMap.wf_put _ _ _ w)))

theorem Keeps.mbistRecords {k₀ : State} {s : State} (hk₀ : Keeps k₀ s) (sel : Nat) (repair : Bool) (faults : List MacroFault) : Keeps k₀
    (Machine.State.mbistRecords s sel repair faults) := by
  unfold Machine.State.mbistRecords
  try dsimp only
  repeat' first | (with_reducible first | assumption | (intro _) | apply Keeps.noteMacro | apply Keeps.failMacro | apply Keeps.passMacro |
                                  apply Keeps.foldl | apply Keeps.foldlFst | apply Keeps.ite) | split

theorem Keeps.mbistZero {k₀ : State} {s : State} (hk₀ : Keeps k₀ s) (sel : Nat) : Keeps k₀ (Machine.State.mbistZero s sel) := by
  unfold Machine.State.mbistZero
  have h1 : Keeps k₀ { s with ways := [], usedWays := [], is4 := [], ctxZero := true } :=
    Keeps.of (t := { s with is4 := [] }) (Keeps.is4 hk₀ [] (fun _ => rfl))
  have h2 := Keeps.ite (c := sel.testBit 16 = true) h1 hk₀
  exact Keeps.ite (Keeps.of h2) h2

theorem Keeps.execMbistRunDone {k₀ : State} (faults : List MacroFault) {s : State} (hk₀ : Keeps k₀ s) : KeepsOut k₀
    (Machine.execMbistRunDone faults s) := by
  unfold Machine.execMbistRunDone
  try dsimp only
  repeat' first | (with_reducible first | assumption | (intro _) | apply KeepsOut.next | exact KeepsOut.fault | apply Keeps.wr |
                                  apply Keeps.mbistRecords | apply Keeps.mbistZero | apply KeepsOut.ite | apply Keeps.ite |
                                  fail_if_no_progress apply Keeps.of) | split

theorem Keeps.execSyncGained {k₀ : State} (u : Nat) {s : State} (hk₀ : Keeps k₀ s) : KeepsOut k₀ (Machine.execSyncGained u s) := by
  unfold Machine.execSyncGained
  try dsimp only
  repeat' first | (with_reducible first | assumption | apply KeepsOut.next | exact KeepsOut.fault | apply Keeps.setSync |
                                  apply KeepsOut.ite | apply Keeps.ite) | split

theorem Keeps.execSyncLost {k₀ : State} (u : Nat) {s : State} (hk₀ : Keeps k₀ s) : KeepsOut k₀ (Machine.execSyncLost u s) := by
  unfold Machine.execSyncLost
  try dsimp only
  repeat' first | (with_reducible first | assumption | apply KeepsOut.next | exact KeepsOut.fault | apply Keeps.bump | apply Keeps.putLink |
                                  apply Keeps.setSync | apply Keeps.unitErrors | apply KeepsOut.ite | apply Keeps.ite |
                                  fail_if_no_progress apply Keeps.of) | split

theorem Keeps.testEnds {k₀ : State} {s : State} (hk₀ : Keeps k₀ s) (a : Access) (u : Nat) : Keeps k₀ (Machine.State.testEnds s a u) := by
  unfold Machine.State.testEnds
  try dsimp only
  repeat' first | (with_reducible first | assumption | apply Keeps.drainHeld | apply Keeps.quarantine | apply Keeps.logDirty |
                                  apply Keeps.testFault | apply Keeps.ite) | split

theorem Keeps.execTstRequestCeil {k₀ : State} (aid : Nat) {s : State} (hk₀ : Keeps k₀ s) : KeepsOut k₀ (Machine.execTstRequestCeil aid s) :=
    by
  unfold Machine.execTstRequestCeil
  try dsimp only
  repeat' first | (with_reducible first | assumption | apply KeepsOut.next | exact KeepsOut.fault | apply Keeps.testEnds |
                                  apply KeepsOut.ite | apply Keeps.ite | fail_if_no_progress apply Keeps.of) | split

theorem Keeps.dbgTimeout {k₀ : State} {s : State} (hk₀ : Keeps k₀ s) (a : Access) : Keeps k₀ (Machine.State.dbgTimeout s a) := by
  unfold Machine.State.dbgTimeout
  try dsimp only
  repeat' first | (with_reducible first | assumption | apply Keeps.wr | apply Keeps.drainHeld | apply Keeps.quarantine)

theorem Keeps.execDbgMemCeil {k₀ : State} (aid : Nat) {s : State} (hk₀ : Keeps k₀ s) : KeepsOut k₀ (Machine.execDbgMemCeil aid s) := by
  unfold Machine.execDbgMemCeil
  try dsimp only
  repeat' first | (with_reducible first | assumption | apply KeepsOut.next | exact KeepsOut.fault | apply Keeps.logDirty |
                                  apply Keeps.dbgTimeout | apply KeepsOut.ite | apply Keeps.ite | fail_if_no_progress apply Keeps.of) |
                                  split

/-! Machine/Answers.lean. -/

theorem Keeps.ceilEffect {k₀ : State} {s : State} (hk₀ : Keeps k₀ s) (a : Access) : Keeps k₀ (Machine.State.ceilEffect s a) := by
  unfold Machine.State.ceilEffect
  try dsimp only
  repeat' first | (with_reducible first | assumption | apply Keeps.logErr | apply Keeps.admNotice | apply Keeps.admRecord |
                                  apply Keeps.admDoorbell | apply Keeps.admAgain | apply Keeps.errAgain | apply Keeps.testFault |
                                  apply Keeps.dbgError | apply Keeps.fedCkpt | apply Keeps.readAgain | apply Keeps.settleOf |
                                  apply Keeps.recordAgain | apply Keeps.telGiveUp | apply Keeps.pollFail | apply Keeps.ctxAgain |
                                  apply Keeps.witnessSeen | fail_if_no_progress apply Keeps.of) | split

theorem Keeps.stampOf {k₀ : State} {s : State} (hk₀ : Keeps k₀ s) (q : Nat) (i : W32) (p : Nat) : Keeps k₀ (Machine.State.stampOf s q i p)
    := by
  unfold Machine.State.stampOf
  try dsimp only
  repeat' first | (with_reducible first | assumption | (intro _) | fail_if_no_progress apply Keeps.of)

theorem Keeps.execWriteAck {k₀ : State} (aid : Nat) (code0 : BitVec 6) {s : State} (hk₀ : Keeps k₀ s) : KeepsOut k₀ (Machine.execWriteAck
    aid code0 s) := by
  unfold Machine.execWriteAck
  try dsimp only
  repeat' first | (with_reducible first | assumption | apply KeepsOut.next | exact KeepsOut.fault | apply Keeps.wr | apply Keeps.drainHeld |
                                  apply Keeps.dropAccess | apply Keeps.quarantine | apply Keeps.logDirty | apply Keeps.admNotice |
                                  apply Keeps.admNoticeAcked | apply Keeps.admCheck | apply Keeps.admAgain | apply Keeps.admGiveUp |
                                  apply Keeps.testStep | apply Keeps.testFault | apply Keeps.dbgError | apply Keeps.fedCkpt |
                                  apply Keeps.settleOf | apply Keeps.dataWriteAnswer | apply Keeps.snapAck | apply Keeps.telGiveUp |
                                  apply Keeps.copyAnswered | apply Keeps.stampOf | apply KeepsOut.ite | apply Keeps.ite |
                                  fail_if_no_progress apply Keeps.of) | split

theorem Keeps.dbgRead {k₀ : State} {s : State} (hk₀ : Keeps k₀ s) (a : Access) (ans : Answer) : Keeps k₀ (Machine.State.dbgRead s a ans) :=
    by
  unfold Machine.State.dbgRead
  try dsimp only
  repeat' first | (with_reducible first | assumption | refine Keeps.fst (by assumption) (Keeps.land ?_ ..) | apply Keeps.land |
                                  apply Keeps.dbgAnswer | fail_if_no_progress apply Keeps.of) | split

theorem Keeps.lateRead {k₀ : State} {s : State} (hk₀ : Keeps k₀ s) (a : Access) (ans : Answer) (q : Nat) (i : W32) (p : Nat) : Keeps k₀
    (Machine.State.lateRead s a ans q i p) := by
  unfold Machine.State.lateRead
  try dsimp only
  repeat' first | (with_reducible first | assumption | apply Keeps.landOrphan | apply Keeps.stampRead | apply Keeps.settleOf |
                                  fail_if_no_progress apply Keeps.of) | split

theorem Keeps.execReadResponse {k₀ : State} (aid : Nat) (ans : Answer) {s : State} (hk₀ : Keeps k₀ s) : KeepsOut k₀
    (Machine.execReadResponse aid ans s) := by
  unfold Machine.execReadResponse
  try dsimp only
  repeat' first | (with_reducible first | assumption | apply KeepsOut.next | exact KeepsOut.fault | apply Keeps.drainHeld |
                                  apply Keeps.quarantine | apply Keeps.readEnds | refine Keeps.fst (by assumption) (Keeps.land ?_ ..) |
                                  apply Keeps.land | apply Keeps.testFault | apply Keeps.testData | apply Keeps.dbgError |
                                  apply Keeps.adoptEntry | apply Keeps.readAgain | apply Keeps.dataAnswer | apply Keeps.tableAnswer |
                                  apply Keeps.dbgRead | apply Keeps.lateRead | apply KeepsOut.ite | apply Keeps.ite |
                                  fail_if_no_progress apply Keeps.of) | split

theorem Keeps.unIssue {k₀ : State} {s : State} (hk₀ : Keeps k₀ s) (a : Access) : Keeps k₀ (Machine.State.unIssue s a) := by
  refine (Keeps.dropAccess hk₀ a.aid).creditsTo rfl rfl rfl rfl rfl ?_
  intro h
  have h3 := creditsOf_ok (s := s) a.port h
  refine assocPut_ok (s := s) _ _ h ?_
  split <;> dsimp only <;> omega

theorem Keeps.writeAnew {k₀ : State} {s : State} (hk₀ : Keeps k₀ s) (clu : Nat) (idx : Nat) (num : Nat) (a : Access) : Keeps k₀
    (Machine.State.writeAnew s clu idx num a) := by
  unfold Machine.State.writeAnew
  try dsimp only
  repeat' first | (with_reducible first | assumption | (intro _) | apply Keeps.updSlot | fail_if_no_progress apply Keeps.of)

theorem Keeps.notIssued {k₀ : State} {s : State} (hk₀ : Keeps k₀ s) (a : Access) (fault : State → Slot → Nat → Bool → State) (service :
    State → State) (hk_fault : ∀ a0 a1 a2 a3, Keeps k₀ a0 → Keeps k₀ (fault a0 a1 a2 a3)) (hk_service : ∀ a0, Keeps k₀ a0 → Keeps k₀
    (service a0)) : Keeps k₀ (Machine.State.notIssued s a fault service) := by
  unfold Machine.State.notIssued
  try dsimp only
  repeat' first | (with_reducible first | assumption | (intro _) | apply hk_fault | apply hk_service | apply Keeps.service |
                                  apply Keeps.freeRead | apply Keeps.freeTable | apply Keeps.writeAnew | apply Keeps.ite |
                                  fail_if_no_progress apply Keeps.of) | split

theorem Keeps.beatFaultAt {k₀ : State} (a : Access) {s : State} (hk₀ : Keeps k₀ s) (x : Slot) (num : Nat) (read : Bool) : Keeps k₀
    (Machine.beatFaultAt a s x num read) := by
  unfold Machine.beatFaultAt
  try dsimp only
  repeat' first | (with_reducible first | assumption | apply Keeps.fabricFault)

theorem Keeps.execBeatCeil {k₀ : State} (aid : Nat) (w : BeatWait) {s : State} (hk₀ : Keeps k₀ s) : KeepsOut k₀ (Machine.execBeatCeil aid w
    s) := by
  unfold Machine.execBeatCeil
  try dsimp only
  repeat' first | (with_reducible first | assumption | (intro _) | apply KeepsOut.next | exact KeepsOut.fault | apply Keeps.drainHeld |
                                  apply Keeps.quarantine | apply Keeps.logDirty | apply Keeps.logPage | apply Keeps.ceilEffect |
                                  apply Keeps.unIssue | apply Keeps.notIssued | apply Keeps.beatFaultAt | apply KeepsOut.ite |
                                  apply Keeps.ite | fail_if_no_progress apply Keeps.of) | split

theorem Keeps.logCutoff {k₀ : State} {s : State} (hk₀ : Keeps k₀ s) (a : Nat) (r : Nat) : Keeps k₀ (Machine.State.logCutoff s a r) := by
  unfold Machine.State.logCutoff
  try dsimp only
  repeat' first | (with_reducible first | assumption | apply Keeps.logErr)

theorem Keeps.cutFaultAt {k₀ : State} {s : State} (hk₀ : Keeps k₀ s) (x : Slot) (num : Nat) (b : Bool) :
    Keeps k₀ (Machine.cutFaultAt s x num b) := by
  unfold Machine.cutFaultAt
  exact Keeps.internalFault hk₀ ..

theorem Keeps.cutService {k₀ : State} {s : State} (hk₀ : Keeps k₀ s) (a : Access) (port : Nat) (req : Nat) : Keeps k₀
    (Machine.State.cutService s a port req) := by
  unfold Machine.State.cutService
  dsimp only
  have h1 := Keeps.logCutoff hk₀ port req
  revert h1
  generalize s.logCutoff port req = u
  intro h1
  generalize a.purpose = p
  cases p <;> dsimp only <;> first
    | with_reducible assumption
    | with_reducible apply Keeps.serviceAgain h1
    | with_reducible apply Keeps.errAgain h1
    | with_reducible apply Keeps.recordAgain h1
    | with_reducible apply Keeps.pollFail h1
    | with_reducible apply Keeps.settleOf h1

theorem Keeps.cutPort {k₀ : State} {s : State} (hk₀ : Keeps k₀ s) (p : Nat) (req : Nat) : Keeps k₀ (Machine.State.cutPort s p req) := by
  unfold Machine.State.cutPort
  try dsimp only
  repeat' first | (with_reducible first | assumption | (intro _) | apply Keeps.drainHeld | apply Keeps.cutOff | apply Keeps.unIssue |
                                  apply Keeps.notIssued | apply Keeps.logCutoff | apply Keeps.cutFaultAt | apply Keeps.cutService |
                                  apply Keeps.ite | fail_if_no_progress apply Keeps.of) | split

theorem Keeps.cutPoll {k₀ : State} {s : State} (hk₀ : Keeps k₀ s) (e : Nat) : Keeps k₀ (Machine.State.cutPoll s e) := by
  unfold Machine.State.cutPoll
  try dsimp only
  repeat' first | (with_reducible first | assumption | (intro _) | apply Keeps.drainHeld | apply Keeps.quarantine | apply Keeps.logPage |
                                  apply Keeps.cutOff | apply Keeps.pollFail | apply Keeps.logCutoff | fail_if_no_progress apply Keeps.of) |
                                  split

theorem Keeps.cutAdmin {k₀ : State} {s : State} (hk₀ : Keeps k₀ s) (r : Nat) : Keeps k₀ (Machine.State.cutAdmin s r) := by
  unfold Machine.State.cutAdmin
  try dsimp only
  repeat' first | (with_reducible first | assumption | (intro _) | apply Keeps.drainHeld | apply Keeps.quarantine | apply Keeps.reissue |
                                  apply Keeps.cutOff | apply Keeps.logCutoff | fail_if_no_progress apply Keeps.of) | split

theorem Keeps.cutBeat {k₀ : State} {s : State} (hk₀ : Keeps k₀ s) (clu : Nat) (i : Nat) : Keeps k₀ (Machine.State.cutBeat s clu i) := by
  unfold Machine.State.cutBeat
  try dsimp only
  repeat' first | (with_reducible first | assumption | (intro _) | apply Keeps.cutOff | apply Keeps.internalFault | apply Keeps.logCutoff |
                                  apply Keeps.ite | fail_if_no_progress apply Keeps.of) | split

theorem Keeps.execHoldCeil {k₀ : State} (arb : Nat) (req : Nat) {s : State} (hk₀ : Keeps k₀ s) : KeepsOut k₀ (Machine.execHoldCeil arb req
    s) := by
  unfold Machine.execHoldCeil
  try dsimp only
  repeat' first | (with_reducible first | assumption | apply KeepsOut.next | exact KeepsOut.fault | apply Keeps.bankWait |
                                  apply Keeps.cutOff | apply Keeps.logCutoff | apply Keeps.cutPort | apply Keeps.cutPoll |
                                  apply Keeps.cutAdmin | apply Keeps.cutBeat | apply KeepsOut.ite | apply Keeps.ite) | split

theorem Keeps.nextOf {k₀ : State} {o : Out} (h : KeepsOut k₀ o) : ∀ t ∈ Machine.nextOf o, Keeps k₀ t := by
  intro t ht
  cases o <;> simp only [Machine.nextOf, List.mem_singleton, List.not_mem_nil] at ht
  exact h t (by rw [ht])

/-- Each round that an arbiter may hold now keeps it. -/
theorem Keeps.roundsOf {k₀ : State} {s : State} (hk₀ : Keeps k₀ s) (a r : Nat) : ∀ t ∈ Machine.roundsOf s a r, Keeps k₀ t := by
  intro t ht
  unfold Machine.roundsOf at ht
  split at ht
  · dsimp only at ht
    rw [List.mem_cons] at ht
    obtain rfl | ht := ht
    · exact Keeps.grantNext hk₀
    · obtain ⟨i, _, h⟩ := List.mem_flatMap.mp ht
      rw [List.mem_append, List.mem_append] at h
      obtain (h | h) | h := h
      · exact Keeps.nextOf (Keeps.execReadRequestIssue _ _ _ _ hk₀) t h
      · exact Keeps.nextOf (Keeps.execReadRequestIssue _ _ _ _ hk₀) t h
      · exact Keeps.nextOf (Keeps.execWriteRequestIssue _ _ _ hk₀) t h
  · split at ht
    · rw [List.mem_singleton] at ht; subst ht; exact Keeps.bankGrant hk₀ a
    · split at ht
      · obtain ⟨p, _, h⟩ := List.mem_flatMap.mp ht
        exact Keeps.nextOf (Keeps.execPollAccessIssue _ hk₀) t h
      · split at ht
        · rw [List.mem_singleton] at ht; subst ht; exact Keeps.grantNext hk₀
        · exact Keeps.nextOf (Keeps.execDatapathBeat _ hk₀) t ht

theorem Keeps.execForcedWin {k₀ : State} (a : Nat) (r : Nat) {s : State} (hk₀ : Keeps k₀ s) : KeepsOut k₀ (Machine.execForcedWin a r s) := by
  unfold Machine.execForcedWin
  with_reducible apply KeepsOut.ite KeepsOut.fault
  dsimp only
  refine KeepsOut.ite (KeepsOut.next hk₀) (KeepsOut.next ?_)
  cases e : (Machine.roundsOf s a r).find? (fun t => (reqOf (arbOf t a) r).forced) with
  | none => exact hk₀
  | some t => exact Keeps.roundsOf hk₀ a r t (List.mem_of_find?_eq_some e)

theorem Keeps.execQuarantineEnd {k₀ : State} (aid : Nat) {s : State} (hk₀ : Keeps k₀ s) : KeepsOut k₀ (Machine.execQuarantineEnd aid s) :=
    by
  unfold Machine.execQuarantineEnd
  try dsimp only
  repeat' first | (with_reducible first | assumption | (intro _) | apply KeepsOut.next | exact KeepsOut.fault | apply Keeps.drainHeld |
                                  apply Keeps.logPage | apply Keeps.settleOf | apply KeepsOut.ite | apply Keeps.ite |
                                  fail_if_no_progress apply Keeps.of) | split

theorem Keeps.execFabricCredit {k₀ : State} (port : Nat) (chan : CreditChan) {s : State} (hk₀ : Keeps k₀ s) : KeepsOut k₀
    (Machine.execFabricCredit port chan s) := by
  unfold Machine.execFabricCredit
  refine KeepsOut.ite KeepsOut.fault (KeepsOut.ite (KeepsOut.next hk₀) (KeepsOut.next (Keeps.drainHeld ?_)))
  refine hk₀.creditsTo rfl rfl rfl rfl rfl ?_
  intro h
  have h3 := creditsOf_ok (s := s) port h
  refine assocPut_ok (s := s) _ _ h ?_
  cases chan <;> simp only [creditMore] <;> omega

/-! Machine/Tick.lean. -/

theorem Keeps.tickTimebase {k₀ : State} {s : State} (hk₀ : Keeps k₀ s) (dt : Nat) : Keeps k₀ (Machine.State.tickTimebase s dt) := by
  unfold Machine.State.tickTimebase
  try dsimp only
  repeat' first | (with_reducible first | assumption | apply Keeps.ite | fail_if_no_progress apply Keeps.of) | split

theorem Keeps.telStands {k₀ : State} {s : State} (hk₀ : Keeps k₀ s) (dt : Nat) : Keeps k₀ (Machine.State.telStands s dt) := by
  unfold Machine.State.telStands
  try dsimp only
  repeat' first | (with_reducible first | assumption | (intro _) | apply Keeps.ite | fail_if_no_progress apply Keeps.of) | split

theorem Keeps.tickCounts {k₀ : State} {s : State} (hk₀ : Keeps k₀ s) (dt : Nat) : Keeps k₀ (Machine.State.tickCounts s dt) := by
  unfold Machine.State.tickCounts
  try dsimp only
  repeat' first | (with_reducible first | assumption | apply Keeps.telStands | apply Keeps.ite | fail_if_no_progress apply Keeps.of) | split

theorem Keeps.tickDue {k₀ : State} {s : State} (hk₀ : Keeps k₀ s) : Keeps k₀ (Machine.State.tickDue s) := by
  unfold Machine.State.tickDue
  try dsimp only
  repeat' first | (with_reducible first | assumption | apply Keeps.settleVisits | apply Keeps.pollsFallDue | apply Keeps.ite |
                                  fail_if_no_progress apply Keeps.of) | split

theorem Keeps.dropStreams {k₀ : State} {s : State} (hk₀ : Keeps k₀ s) : Keeps k₀ (Machine.State.dropStreams s) := by
  unfold Machine.State.dropStreams
  try dsimp only
  repeat' first | (with_reducible first | assumption | (intro _) | apply Keeps.dropRequest | apply Keeps.foldl | apply Keeps.foldlFst |
                                  apply Keeps.ite) | split

theorem Keeps.tickWaits {k₀ : State} {s : State} (hk₀ : Keeps k₀ s) (hr : k₀.rstN = true) : Keeps k₀ (State.tickWaits s) := by
  unfold State.tickWaits
  have h1 : Keeps k₀ (if running s then s.fetchForNotices.adoptChecks else s) := Keeps.ite (Keeps.adoptChecks (Keeps.fetchForNotices hk₀)) hk₀
  dsimp only
  generalize (if running s then s.fetchForNotices.adoptChecks else s) = u at h1 ⊢
  have h2 := Keeps.dropStreams (Keeps.bringupCeil (Keeps.answerWaiting (Keeps.foldl (f := fun t x => State.snapWaits t x) (xs := u.snaps) h1
    (fun v x h => Keeps.snapWaits h x))) hr)
  exact Keeps.ite (Keeps.bankGrants h2) h2

theorem Keeps.tick {k₀ : State} {s : State} (hk₀ : Keeps k₀ s) : Keeps k₀ (Machine.State.tick s) := by
  unfold Machine.State.tick
  by_cases hf : (!s.rstN) = true
  · rw [if_pos hf]; exact hk₀
  · rw [if_neg hf]
    have hr : k₀.rstN = true := by rw [← hk₀.rstN]; simpa using hf
    have h1 := Keeps.tickTimebase hk₀ (tickNs s)
    exact Keeps.ite (Keeps.of h1) (Keeps.patternBeats (Keeps.refreshEvm (Keeps.trackIdle (Keeps.drainHeld (Keeps.tickWaits (Keeps.tickDue
      (Keeps.tickCounts h1 _)) hr)))))

end Sys2Proof.Machine
end
end

