-- ==== Sys2Proof/Laws/KeepsExec.lean ====
section
/-! SUPPORT. What every command but the two edges of rst_n keeps, and a tick. -/

section
set_option Elab.async false

namespace Sys2Proof.Machine

/-- Every command but RST_N_FALL and RST_N_RISE keeps what every step keeps. -/
theorem exec_keeps (c : Instr) (s : State) (h1 : c ≠ .rstNFall) (h2 : c ≠ .rstNRise) : KeepsOut s (exec c s) := by
  cases c with
  | createInstance => exact Keeps.execCreateInstance (Keeps.refl s)
  | modifyInstance => exact Keeps.execModifyInstance (Keeps.refl s)
  | quiesceInstance => exact Keeps.execQuiesceInstance (Keeps.refl s)
  | drainOrSquash => exact Keeps.execDrainOrSquash (Keeps.refl s)
  | resetInstance => exact Keeps.execResetInstance (Keeps.refl s)
  | destroyInstance => exact Keeps.execDestroyInstance (Keeps.refl s)
  | createQueue => exact Keeps.execCreateQueue (Keeps.refl s)
  | modifyQueue => exact Keeps.execModifyQueue (Keeps.refl s)
  | destroyQueue => exact Keeps.execDestroyQueue (Keeps.refl s)
  | moveQueue => exact Keeps.execMoveQueue (Keeps.refl s)
  | stage => exact Keeps.execStage (Keeps.refl s)
  | commit => exact Keeps.execCommit (Keeps.refl s)
  | startDirtyLog => exact Keeps.execStartDirtyLog (Keeps.refl s)
  | harvestDirtyLog => exact Keeps.execHarvestDirtyLog (Keeps.refl s)
  | stopDirtyLog => exact Keeps.execStopDirtyLog (Keeps.refl s)
  | evmUpdate => exact Keeps.execEvmUpdate (Keeps.refl s)
  | setTimebase => exact Keeps.execSetTimebase (Keeps.refl s)
  | fedJoin => exact Keeps.execFedJoin (Keeps.refl s)
  | fedLeave => exact Keeps.execFedLeave (Keeps.refl s)
  | rest => exact Keeps.execRest (Keeps.refl s)
  | readTelemetry => exact Keeps.execReadTelemetry (Keeps.refl s)
  | adminDoorbellRead => exact Keeps.execAdminDoorbellRead (Keeps.refl s)
  | adminDoorbellResponse a b => exact Keeps.execAdminDoorbellResponse a b (Keeps.refl s)
  | adminSlotReadResponse a b => exact Keeps.execAdminSlotReadResponse a b (Keeps.refl s)
  | adminRecordAck a b => exact Keeps.execAdminRecordAck a b (Keeps.refl s)
  | admMemCeil a => exact Keeps.execAdmMemCeil a (Keeps.refl s)
  | pollDue a => exact Keeps.execPollDue a (Keeps.refl s)
  | rootSwapResponse a b => exact Keeps.execRootSwapResponse a b (Keeps.refl s)
  | leafSwapResponse a b => exact Keeps.execLeafSwapResponse a b (Keeps.refl s)
  | doorbellLineReadResponse a b => exact Keeps.execDoorbellLineReadResponse a b (Keeps.refl s)
  | pollAccessCeil a => exact Keeps.execPollAccessCeil a (Keeps.refl s)
  | ctxFetchResponse a b => exact Keeps.execCtxFetchResponse a b (Keeps.refl s)
  | ctxFetchCeil a => exact Keeps.execCtxFetchCeil a (Keeps.refl s)
  | ctxWriteBackAck a b => exact Keeps.execCtxWriteBackAck a b (Keeps.refl s)
  | contextWriteBack a => exact Keeps.execContextWriteBack a (Keeps.refl s)
  | bind a b c => exact Keeps.execBind a b c (Keeps.refl s)
  | promotion a => exact Keeps.execPromotion a (Keeps.refl s)
  | slotReadResponse a b =>
    change KeepsOut s (Machine.execSlotReadResponse a b s)
    with_reducible exact Keeps.execSlotReadResponse a b (Keeps.refl s)
  | slotReread a => exact Keeps.execSlotReread a (Keeps.refl s)
  | tornCeilReached a => exact Keeps.execTornCeilReached a (Keeps.refl s)
  | slotReadCeil a => exact Keeps.execSlotReadCeil a (Keeps.refl s)
  | copy a b => exact Keeps.execCopy a b (Keeps.refl s)
  | gather a b => exact Keeps.execGather a b (Keeps.refl s)
  | scatter a b => exact Keeps.execScatter a b (Keeps.refl s)
  | sglist a b => exact Keeps.execSglist a b (Keeps.refl s)
  | fill a b => exact Keeps.execFill a b (Keeps.refl s)
  | check a b => exact Keeps.execCheck a b (Keeps.refl s)
  | piInsert a b => exact Keeps.execPiInsert a b (Keeps.refl s)
  | piStrip a b => exact Keeps.execPiStrip a b (Keeps.refl s)
  | piVerify a b => exact Keeps.execPiVerify a b (Keeps.refl s)
  | link a b => exact Keeps.execLink a b (Keeps.refl s)
  | fence a b => exact Keeps.execFence a b (Keeps.refl s)
  | fenceComplete a b => exact Keeps.execFenceComplete a b (Keeps.refl s)
  | signal a b => exact Keeps.execSignal a b (Keeps.refl s)
  | signalPulse a b => exact Keeps.execSignalPulse a b (Keeps.refl s)
  | wait a b => exact Keeps.execWait a b (Keeps.refl s)
  | waitFlagSeen a b => exact Keeps.execWaitFlagSeen a b (Keeps.refl s)
  | waitTimeout a b => exact Keeps.execWaitTimeout a b (Keeps.refl s)
  | nop a b => exact Keeps.execNop a b (Keeps.refl s)
  | parkTest a b => exact Keeps.execParkTest a b (Keeps.refl s)
  | parkCeil a b => exact Keeps.execParkCeil a b (Keeps.refl s)
  | poolLineGrant a => exact Keeps.execPoolLineGrant a (Keeps.refl s)
  | readRequestIssue a b c d => exact Keeps.execReadRequestIssue a b c d (Keeps.refl s)
  | writeRequestIssue a b c => exact Keeps.execWriteRequestIssue a b c (Keeps.refl s)
  | lensHoldExpiry a b => exact Keeps.execLensHoldExpiry a b (Keeps.refl s)
  | readResponse a b =>
    change KeepsOut s (Machine.execReadResponse a b s)
    with_reducible exact Keeps.execReadResponse a b (Keeps.refl s)
  | writeAck a b =>
    change KeepsOut s (Machine.execWriteAck a b s)
    with_reducible exact Keeps.execWriteAck a b (Keeps.refl s)
  | dataReadCeil a => exact Keeps.execDataReadCeil a (Keeps.refl s)
  | dataWriteCeil a => exact Keeps.execDataWriteCeil a (Keeps.refl s)
  | recordWriteCeil a => exact Keeps.execRecordWriteCeil a (Keeps.refl s)
  | recordGiveUp a b => exact Keeps.execRecordGiveUp a b (Keeps.refl s)
  | beatCeil a b => exact Keeps.execBeatCeil a b (Keeps.refl s)
  | holdCeil a b => exact Keeps.execHoldCeil a b (Keeps.refl s)
  | forcedWin a b => exact Keeps.execForcedWin a b (Keeps.refl s)
  | quarantineEnd a => exact Keeps.execQuarantineEnd a (Keeps.refl s)
  | replayBackoffEnd a b c => exact Keeps.execReplayBackoffEnd a b c (Keeps.refl s)
  | fabMaxExceeded a b => exact Keeps.execFabMaxExceeded a b (Keeps.refl s)
  | releaseLimit a b => exact Keeps.execReleaseLimit a b (Keeps.refl s)
  | slotRetired a b => exact Keeps.execSlotRetired a b (Keeps.refl s)
  | descriptorPlaced a => exact Keeps.execDescriptorPlaced a (Keeps.refl s)
  | storeBridgeTransfer => exact Keeps.execStoreBridgeTransfer (Keeps.refl s)
  | loafRelease a b => exact Keeps.execLoafRelease a b (Keeps.refl s)
  | checkpointStored a b => exact Keeps.execCheckpointStored a b (Keeps.refl s)
  | ckptCeil a b => exact Keeps.execCkptCeil a b (Keeps.refl s)
  | completionRecord a => exact Keeps.execCompletionRecord a (Keeps.refl s)
  | abandonedRecord a => exact Keeps.execAbandonedRecord a (Keeps.refl s)
  | completionRecordAck a b => exact Keeps.execCompletionRecordAck a b (Keeps.refl s)
  | noticeDelayExpiry a => exact Keeps.execNoticeDelayExpiry a (Keeps.refl s)
  | noticeAck a b => exact Keeps.execNoticeAck a b (Keeps.refl s)
  | instanceQuiet a => exact Keeps.execInstanceQuiet a (Keeps.refl s)
  | quiesceTimeout => exact Keeps.execQuiesceTimeout (Keeps.refl s)
  | queueDrainEnd a => exact Keeps.execQueueDrainEnd a (Keeps.refl s)
  | errorLogWrite => exact Keeps.execErrorLogWrite (Keeps.refl s)
  | errorLogAck a b => exact Keeps.execErrorLogAck a b (Keeps.refl s)
  | dirtyLogRecordWrite => exact Keeps.execDirtyLogRecordWrite (Keeps.refl s)
  | filterSweepDone => exact Keeps.execFilterSweepDone (Keeps.refl s)
  | occupancySample => exact Keeps.execOccupancySample (Keeps.refl s)
  | thresholdEval a => exact Keeps.execThresholdEval a (Keeps.refl s)
  | intervalTimerExpiry a => exact Keeps.execIntervalTimerExpiry a (Keeps.refl s)
  | evInEdge a b => exact Keeps.execEvInEdge a b (Keeps.refl s)
  | evmSourcePulse a => exact Keeps.execEvmSourcePulse a (Keeps.refl s)
  | rateMergedEdge a => exact Keeps.execRateMergedEdge a (Keeps.refl s)
  | stuckCeil a => exact Keeps.execStuckCeil a (Keeps.refl s)
  | refclkLost => exact Keeps.execRefclkLost (Keeps.refl s)
  | pllWindowEnd a b => exact Keeps.execPllWindowEnd a b (Keeps.refl s)
  | pllTapLost a => exact Keeps.execPllTapLost a (Keeps.refl s)
  | pllLockCeil a => exact Keeps.execPllLockCeil a (Keeps.refl s)
  | muxHangCeil a => exact Keeps.execMuxHangCeil a (Keeps.refl s)
  | suspectClear a => exact Keeps.execSuspectClear a (Keeps.refl s)
  | pwAckToggle => exact Keeps.execPwAckToggle (Keeps.refl s)
  | pwAckCeil => exact Keeps.execPwAckCeil (Keeps.refl s)
  | pLevelChange a => exact Keeps.execPLevelChange a (Keeps.refl s)
  | clkGateWrite a => exact Keeps.execClkGateWrite a (Keeps.refl s)
  | clusterClockStop a => exact Keeps.execClusterClockStop a (Keeps.refl s)
  | restIdleMet => exact Keeps.execRestIdleMet (Keeps.refl s)
  | restTimeout => exact Keeps.execRestTimeout (Keeps.refl s)
  | restEntry => exact Keeps.execRestEntry (Keeps.refl s)
  | wake a => exact Keeps.execWake a (Keeps.refl s)
  | wakeTimer => exact Keeps.execWakeTimer (Keeps.refl s)
  | wakeRun => exact Keeps.execWakeRun (Keeps.refl s)
  | rstNFall => exact absurd rfl h1
  | rstNRise => exact absurd rfl h2
  | bringupEnd a => exact Keeps.execBringupEnd a (Keeps.refl s)
  | modeReqRun a => exact Keeps.execModeReqRun a (Keeps.refl s)
  | modeReqConfigure a => exact Keeps.execModeReqConfigure a (Keeps.refl s)
  | modeReqTest a => exact Keeps.execModeReqTest a (Keeps.refl s)
  | modeTransitionDone => exact Keeps.execModeTransitionDone (Keeps.refl s)
  | registerWrite a => exact Keeps.execRegisterWrite a (Keeps.refl s)
  | seqWriteBack a => exact Keeps.execSeqWriteBack a (Keeps.refl s)
  | errFatalWriteBack a => exact Keeps.execErrFatalWriteBack a (Keeps.refl s)
  | lockSetup a => exact Keeps.execLockSetup a (Keeps.refl s)
  | indClaim a => exact Keeps.execIndClaim a (Keeps.refl s)
  | indDataRead a => exact Keeps.execIndDataRead a (Keeps.refl s)
  | indDataWrite a => exact Keeps.execIndDataWrite a (Keeps.refl s)
  | tbLoRead a => exact Keeps.execTbLoRead a (Keeps.refl s)
  | tbAdjWrite a => exact Keeps.execTbAdjWrite a (Keeps.refl s)
  | tbRateWrite a => exact Keeps.execTbRateWrite a (Keeps.refl s)
  | admQEnableSet a => exact Keeps.execAdmQEnableSet a (Keeps.refl s)
  | admQEnableClear a => exact Keeps.execAdmQEnableClear a (Keeps.refl s)
  | eccInj a => exact Keeps.execEccInj a (Keeps.refl s)
  | evmWflagWrite a => exact Keeps.execEvmWflagWrite a (Keeps.refl s)
  | evmLineCtlWrite a => exact Keeps.execEvmLineCtlWrite a (Keeps.refl s)
  | fedResyncWrite a => exact Keeps.execFedResyncWrite a (Keeps.refl s)
  | dbgMemGo a => exact Keeps.execDbgMemGo a (Keeps.refl s)
  | dbgPollGo a => exact Keeps.execDbgPollGo a (Keeps.refl s)
  | pllRestart a => exact Keeps.execPllRestart a (Keeps.refl s)
  | mbistGo a => exact Keeps.execMbistGo a (Keeps.refl s)
  | mbistRunDone a => exact Keeps.execMbistRunDone a (Keeps.refl s)
  | tstRun a => exact Keeps.execTstRun a (Keeps.refl s)
  | tstInj a => exact Keeps.execTstInj a (Keeps.refl s)
  | regAccessCeil a b => exact Keeps.execRegAccessCeil a b (Keeps.refl s)
  | regParityFault a b c => exact Keeps.execRegParityFault a b c (Keeps.refl s)
  | shadowScrub a b => exact Keeps.execShadowScrub a b (Keeps.refl s)
  | agentReset a => exact Keeps.execAgentReset a (Keeps.refl s)
  | fabricCredit a b => exact Keeps.execFabricCredit a b (Keeps.refl s)
  | train a b => exact Keeps.execTrain a b (Keeps.refl s)
  | manifest a b => exact Keeps.execManifest a b (Keeps.refl s)
  | heartbeat a b => exact Keeps.execHeartbeat a b (Keeps.refl s)
  | time a b => exact Keeps.execTime a b (Keeps.refl s)
  | config a b => exact Keeps.execConfig a b (Keeps.refl s)
  | configAck a b => exact Keeps.execConfigAck a b (Keeps.refl s)
  | doorbell a b => exact Keeps.execDoorbell a b (Keeps.refl s)
  | fenceFrame a b => exact Keeps.execFenceFrame a b (Keeps.refl s)
  | ack a b => exact Keeps.execAck a b (Keeps.refl s)
  | heartbeatSend => exact Keeps.execHeartbeatSend (Keeps.refl s)
  | witnessRead a => exact Keeps.execWitnessRead a (Keeps.refl s)
  | witnessReadResponse a b => exact Keeps.execWitnessReadResponse a b (Keeps.refl s)
  | selfFence => exact Keeps.execSelfFence (Keeps.refl s)
  | adoptionStart a => exact Keeps.execAdoptionStart a (Keeps.refl s)
  | joinCeil => exact Keeps.execJoinCeil (Keeps.refl s)
  | linkRetryCeil a => exact Keeps.execLinkRetryCeil a (Keeps.refl s)
  | linkResendLimit a => exact Keeps.execLinkResendLimit a (Keeps.refl s)
  | linkIdleErrLimit a => exact Keeps.execLinkIdleErrLimit a (Keeps.refl s)
  | linkRxKindZero a => exact Keeps.execLinkRxKindZero a (Keeps.refl s)
  | tailLineReadResponse a b =>
    change KeepsOut s (Machine.execTailLineReadResponse a b s)
    with_reducible exact Keeps.execTailLineReadResponse a b (Keeps.refl s)
  | imageReadResponse a b => exact Keeps.execImageReadResponse a b (Keeps.refl s)
  | adminSlotReread => exact Keeps.execAdminSlotReread (Keeps.refl s)
  | quietPoint => exact Keeps.execQuietPoint (Keeps.refl s)
  | commitCeil => exact Keeps.execCommitCeil (Keeps.refl s)
  | telemetryWriteCeil a => exact Keeps.execTelemetryWriteCeil a (Keeps.refl s)
  | dbgMemCeil a => exact Keeps.execDbgMemCeil a (Keeps.refl s)
  | tstRequestCeil a => exact Keeps.execTstRequestCeil a (Keeps.refl s)
  | witnessReadCeil a => exact Keeps.execWitnessReadCeil a (Keeps.refl s)
  | ackSend a => exact Keeps.execAckSend a (Keeps.refl s)
  | rxOk a => exact Keeps.execRxOk a (Keeps.refl s)
  | syncGained a => exact Keeps.execSyncGained a (Keeps.refl s)
  | syncLost a => exact Keeps.execSyncLost a (Keeps.refl s)
  | evInFall a => exact Keeps.execEvInFall a (Keeps.refl s)
  | wakeRestart => exact Keeps.execWakeRestart (Keeps.refl s)
  | pollAccessIssue a => exact Keeps.execPollAccessIssue a (Keeps.refl s)
  | datapathBeat a => exact Keeps.execDatapathBeat a (Keeps.refl s)
  | sClassRead a => exact Keeps.execSClassRead a (Keeps.refl s)

/-- A tick keeps it. -/
theorem tick_keeps (s : State) : Keeps s s.tick := Keeps.tick (Keeps.refl s)

end Sys2Proof.Machine
end
end

