-- ==== Sys2Proof/Laws/PerInstr.lean ====
section
/-! SUPPORT. Per command: a well-formed command names only units that the block has. -/

namespace Sys2Proof

/-- A unit that a command names. -/
inductive UnitRef where
  | cluster (n : Nat)
  | channel (n : Nat)
  | queue (n : Nat)
  | inst (n : Nat)
  | link (n : Nat)
  | member (n : Nat)
  | testUnit (n : Nat)
  | agent (n : Nat)
  | line (n : Nat)
  | threshold (n : Nat)
  | timer (n : Nat)
  | domain (n : Nat)
  | requester (arb n : Nat)
  deriving DecidableEq, Repr

/-- The block has the unit: 16 clusters with 32 channels and two Mirrors each, 2^22 queues, 4,096 instances, 3 links, 4 members,
19 test units, 3 agents, 256 lines, 64 thresholds, 32 interval timers, 28 domains. -/
def UnitRef.present : UnitRef → Bool
  | .cluster n => decide (n < 16)
  | .channel n => decide (n < 34)
  | .queue n => decide (n < 2 ^ 22)
  | .inst n => decide (n < 4096)
  | .link n => decide (n < 3)
  | .member n => decide (n < 4)
  | .testUnit n => decide (n < 19)
  | .agent n => decide (n < 3)
  | .line n => decide (n < 256)
  | .threshold n => decide (n < 64)
  | .timer n => decide (n < 32)
  | .domain n => decide (n < 28)
  | .requester a n => decide (n < requesters a)

/-- The units that a command names. -/
def Instr.units : Instr → List UnitRef
  | .createInstance => []
  | .modifyInstance => []
  | .quiesceInstance => []
  | .drainOrSquash => []
  | .resetInstance => []
  | .destroyInstance => []
  | .createQueue => []
  | .modifyQueue => []
  | .destroyQueue => []
  | .moveQueue => []
  | .stage => []
  | .commit => []
  | .startDirtyLog => []
  | .harvestDirtyLog => []
  | .stopDirtyLog => []
  | .evmUpdate => []
  | .setTimebase => []
  | .fedJoin => []
  | .fedLeave => []
  | .rest => []
  | .readTelemetry => []
  | .adminDoorbellRead => []
  | .adminDoorbellResponse _ _ => []
  | .adminSlotReadResponse _ _ => []
  | .adminRecordAck _ _ => []
  | .admMemCeil _ => []
  | .pollDue iid => [.inst iid]
  | .rootSwapResponse _ _ => []
  | .leafSwapResponse _ _ => []
  | .doorbellLineReadResponse _ _ => []
  | .pollAccessCeil _ => []
  | .ctxFetchResponse _ _ => []
  | .ctxFetchCeil qid => [.queue qid]
  | .ctxWriteBackAck _ _ => []
  | .contextWriteBack qid => [.queue qid]
  | .bind home clu slot => [.cluster home, .cluster clu, .channel slot]
  | .promotion qid => [.queue qid]
  | .slotReadResponse _ _ => []
  | .slotReread qid => [.queue qid]
  | .tornCeilReached qid => [.queue qid]
  | .slotReadCeil _ => []
  | .copy clu slot => [.cluster clu, .channel slot]
  | .gather clu slot => [.cluster clu, .channel slot]
  | .scatter clu slot => [.cluster clu, .channel slot]
  | .sglist clu slot => [.cluster clu, .channel slot]
  | .fill clu slot => [.cluster clu, .channel slot]
  | .check clu slot => [.cluster clu, .channel slot]
  | .piInsert clu slot => [.cluster clu, .channel slot]
  | .piStrip clu slot => [.cluster clu, .channel slot]
  | .piVerify clu slot => [.cluster clu, .channel slot]
  | .link clu slot => [.cluster clu, .channel slot]
  | .fence clu slot => [.cluster clu, .channel slot]
  | .fenceComplete clu slot => [.cluster clu, .channel slot]
  | .signal clu slot => [.cluster clu, .channel slot]
  | .signalPulse clu slot => [.cluster clu, .channel slot]
  | .wait clu slot => [.cluster clu, .channel slot]
  | .waitFlagSeen clu _ => [.cluster clu]
  | .waitTimeout clu slot => [.cluster clu, .channel slot]
  | .nop clu slot => [.cluster clu, .channel slot]
  | .parkTest clu slot => [.cluster clu, .channel slot]
  | .parkCeil clu slot => [.cluster clu, .channel slot]
  | .poolLineGrant clu => [.cluster clu]
  | .readRequestIssue clu slot _ _ => [.cluster clu, .channel slot]
  | .writeRequestIssue clu slot _ => [.cluster clu, .channel slot]
  | .lensHoldExpiry clu slot => [.cluster clu, .channel slot]
  | .readResponse _ _ => []
  | .writeAck _ _ => []
  | .dataReadCeil _ => []
  | .dataWriteCeil _ => []
  | .recordWriteCeil _ => []
  | .recordGiveUp _ _ => []
  | .beatCeil _ _ => []
  | .holdCeil arb req => [.requester arb req]
  | .forcedWin arb req => [.requester arb req]
  | .quarantineEnd _ => []
  | .replayBackoffEnd clu slot _ => [.cluster clu, .channel slot]
  | .fabMaxExceeded clu slot => [.cluster clu, .channel slot]
  | .releaseLimit clu slot => [.cluster clu, .channel slot]
  | .slotRetired clu slot => [.cluster clu, .channel slot]
  | .descriptorPlaced clu => [.cluster clu]
  | .storeBridgeTransfer => []
  | .loafRelease clu slot => [.cluster clu, .channel slot]
  | .checkpointStored clu slot => [.cluster clu, .channel slot]
  | .ckptCeil clu slot => [.cluster clu, .channel slot]
  | .completionRecord qid => [.queue qid]
  | .abandonedRecord qid => [.queue qid]
  | .completionRecordAck _ _ => []
  | .noticeDelayExpiry qid => [.queue qid]
  | .noticeAck _ _ => []
  | .instanceQuiet iid => [.inst iid]
  | .quiesceTimeout => []
  | .queueDrainEnd qid => [.queue qid]
  | .errorLogWrite => []
  | .errorLogAck _ _ => []
  | .dirtyLogRecordWrite => []
  | .filterSweepDone => []
  | .occupancySample => []
  | .thresholdEval t => [.threshold t]
  | .intervalTimerExpiry k => [.timer k]
  | .evInEdge i _ => [.line i]
  | .evmSourcePulse _ => []
  | .rateMergedEdge line => [.line line]
  | .stuckCeil line => [.line line]
  | .refclkLost => []
  | .pllWindowEnd _ _ => []
  | .pllTapLost _ => []
  | .pllLockCeil _ => []
  | .muxHangCeil domain => [.domain domain]
  | .suspectClear domain => [.domain domain]
  | .pwAckToggle => []
  | .pwAckCeil => []
  | .pLevelChange w => [.agent w.agent]
  | .clkGateWrite w => [.agent w.agent]
  | .clusterClockStop clu => [.cluster clu]
  | .restIdleMet => []
  | .restTimeout => []
  | .restEntry => []
  | .wake _ => []
  | .wakeTimer => []
  | .wakeRun => []
  | .rstNFall => []
  | .rstNRise => []
  | .bringupEnd _ => []
  | .modeReqRun w => [.agent w.agent]
  | .modeReqConfigure w => [.agent w.agent]
  | .modeReqTest w => [.agent w.agent]
  | .modeTransitionDone => []
  | .registerWrite w => [.agent w.agent]
  | .seqWriteBack w => [.agent w.agent]
  | .errFatalWriteBack w => [.agent w.agent]
  | .lockSetup w => [.agent w.agent]
  | .indClaim w => [.agent w.agent]
  | .indDataRead r => [.agent r.agent]
  | .indDataWrite w => [.agent w.agent]
  | .tbLoRead r => [.agent r.agent]
  | .tbAdjWrite w => [.agent w.agent]
  | .tbRateWrite w => [.agent w.agent]
  | .admQEnableSet w => [.agent w.agent]
  | .admQEnableClear w => [.agent w.agent]
  | .eccInj w => [.agent w.agent]
  | .evmWflagWrite w => [.agent w.agent]
  | .evmLineCtlWrite w => [.agent w.agent]
  | .fedResyncWrite w => [.agent w.agent]
  | .dbgMemGo w => [.agent w.agent]
  | .dbgPollGo w => [.agent w.agent]
  | .pllRestart w => [.agent w.agent]
  | .mbistGo w => [.agent w.agent]
  | .mbistRunDone _ => []
  | .tstRun w => [.agent w.agent]
  | .tstInj w => [.agent w.agent]
  | .regAccessCeil agent _ => [.agent agent]
  | .regParityFault _ _ _ => []
  | .shadowScrub _ _ => []
  | .agentReset agent => [.agent agent]
  | .fabricCredit port _ => [.cluster port]
  | .train lk _ => [.link lk]
  | .manifest lk _ => [.link lk]
  | .heartbeat lk _ => [.link lk]
  | .time lk _ => [.link lk]
  | .config lk _ => [.link lk]
  | .configAck lk _ => [.link lk]
  | .doorbell lk _ => [.link lk]
  | .fenceFrame lk _ => [.link lk]
  | .ack lk _ => [.link lk]
  | .heartbeatSend => []
  | .witnessRead member => [.member member]
  | .witnessReadResponse _ _ => []
  | .selfFence => []
  | .adoptionStart member => [.member member]
  | .joinCeil => []
  | .linkRetryCeil lk => [.link lk]
  | .linkResendLimit lk => [.link lk]
  | .linkIdleErrLimit lk => [.link lk]
  | .linkRxKindZero lk => [.link lk]
  | .tailLineReadResponse _ _ => []
  | .imageReadResponse _ _ => []
  | .adminSlotReread => []
  | .quietPoint => []
  | .commitCeil => []
  | .telemetryWriteCeil _ => []
  | .dbgMemCeil _ => []
  | .tstRequestCeil _ => []
  | .witnessReadCeil _ => []
  | .ackSend lk => [.link lk]
  | .rxOk lk => [.link lk]
  | .syncGained unit => [.testUnit unit]
  | .syncLost unit => [.testUnit unit]
  | .evInFall i => [.line i]
  | .wakeRestart => []
  | .pollAccessIssue iid => [.inst iid]
  | .datapathBeat clu => [.cluster clu]
  | .sClassRead r => [.agent r.agent]

end Sys2Proof

section
set_option Elab.async false

namespace Sys2Proof.Laws.NamesUnits

open Sys2Proof

/-- A well-formed command names units that exist. -/
def Statement (i : Instr) : Prop := i.wf = true → ∀ n ∈ i.units, n.present = true

theorem createInstance : Statement Instr.createInstance := by intro h n hn; simp [Instr.units] at hn
theorem modifyInstance : Statement Instr.modifyInstance := by intro h n hn; simp [Instr.units] at hn
theorem quiesceInstance : Statement Instr.quiesceInstance := by intro h n hn; simp [Instr.units] at hn
theorem drainOrSquash : Statement Instr.drainOrSquash := by intro h n hn; simp [Instr.units] at hn
theorem resetInstance : Statement Instr.resetInstance := by intro h n hn; simp [Instr.units] at hn
theorem destroyInstance : Statement Instr.destroyInstance := by intro h n hn; simp [Instr.units] at hn
theorem createQueue : Statement Instr.createQueue := by intro h n hn; simp [Instr.units] at hn
theorem modifyQueue : Statement Instr.modifyQueue := by intro h n hn; simp [Instr.units] at hn
theorem destroyQueue : Statement Instr.destroyQueue := by intro h n hn; simp [Instr.units] at hn
theorem moveQueue : Statement Instr.moveQueue := by intro h n hn; simp [Instr.units] at hn
theorem stage : Statement Instr.stage := by intro h n hn; simp [Instr.units] at hn
theorem commit : Statement Instr.commit := by intro h n hn; simp [Instr.units] at hn
theorem startDirtyLog : Statement Instr.startDirtyLog := by intro h n hn; simp [Instr.units] at hn
theorem harvestDirtyLog : Statement Instr.harvestDirtyLog := by intro h n hn; simp [Instr.units] at hn
theorem stopDirtyLog : Statement Instr.stopDirtyLog := by intro h n hn; simp [Instr.units] at hn
theorem evmUpdate : Statement Instr.evmUpdate := by intro h n hn; simp [Instr.units] at hn
theorem setTimebase : Statement Instr.setTimebase := by intro h n hn; simp [Instr.units] at hn
theorem fedJoin : Statement Instr.fedJoin := by intro h n hn; simp [Instr.units] at hn
theorem fedLeave : Statement Instr.fedLeave := by intro h n hn; simp [Instr.units] at hn
theorem rest : Statement Instr.rest := by intro h n hn; simp [Instr.units] at hn
theorem readTelemetry : Statement Instr.readTelemetry := by intro h n hn; simp [Instr.units] at hn
theorem adminDoorbellRead : Statement Instr.adminDoorbellRead := by intro h n hn; simp [Instr.units] at hn
theorem adminDoorbellResponse (aid : Nat) (ans : Answer) : Statement (Instr.adminDoorbellResponse aid ans) := by intro h n hn; simp [Instr.units] at hn
theorem adminSlotReadResponse (aid : Nat) (ans : Answer) : Statement (Instr.adminSlotReadResponse aid ans) := by intro h n hn; simp [Instr.units] at hn
theorem adminRecordAck (aid : Nat) (code : BitVec 6) : Statement (Instr.adminRecordAck aid code) := by intro h n hn; simp [Instr.units] at hn
theorem admMemCeil (aid : Nat) : Statement (Instr.admMemCeil aid) := by intro h n hn; simp [Instr.units] at hn
theorem pollDue (iid : Nat) : Statement (Instr.pollDue iid) := by intro h n hn; simp_all [Instr.units, Instr.wf, UnitRef.present]
theorem rootSwapResponse (aid : Nat) (ans : Answer) : Statement (Instr.rootSwapResponse aid ans) := by intro h n hn; simp [Instr.units] at hn
theorem leafSwapResponse (aid : Nat) (ans : Answer) : Statement (Instr.leafSwapResponse aid ans) := by intro h n hn; simp [Instr.units] at hn
theorem doorbellLineReadResponse (aid : Nat) (ans : Answer) : Statement (Instr.doorbellLineReadResponse aid ans) := by intro h n hn; simp [Instr.units] at hn
theorem pollAccessCeil (aid : Nat) : Statement (Instr.pollAccessCeil aid) := by intro h n hn; simp [Instr.units] at hn
theorem ctxFetchResponse (aid : Nat) (ans : Answer) : Statement (Instr.ctxFetchResponse aid ans) := by intro h n hn; simp [Instr.units] at hn
theorem ctxFetchCeil (qid : Nat) : Statement (Instr.ctxFetchCeil qid) := by intro h n hn; simp_all [Instr.units, Instr.wf, UnitRef.present]
theorem ctxWriteBackAck (aid : Nat) (code : BitVec 6) : Statement (Instr.ctxWriteBackAck aid code) := by intro h n hn; simp [Instr.units] at hn
theorem contextWriteBack (qid : Nat) : Statement (Instr.contextWriteBack qid) := by intro h n hn; simp_all [Instr.units, Instr.wf, UnitRef.present]
theorem bind (home : Nat) (clu : Nat) (slot : Nat) : Statement (Instr.bind home clu slot) := by
  intro h n hn
  simp only [Instr.units, List.mem_cons, List.not_mem_nil, or_false] at hn
  simp only [Instr.wf, Bool.and_eq_true, decide_eq_true_eq] at h
  rcases hn with rfl | rfl | rfl <;> (simp only [UnitRef.present, decide_eq_true_eq]; omega)
theorem promotion (qid : Nat) : Statement (Instr.promotion qid) := by intro h n hn; simp_all [Instr.units, Instr.wf, UnitRef.present]
theorem slotReadResponse (aid : Nat) (ans : Answer) : Statement (Instr.slotReadResponse aid ans) := by intro h n hn; simp [Instr.units] at hn
theorem slotReread (qid : Nat) : Statement (Instr.slotReread qid) := by intro h n hn; simp_all [Instr.units, Instr.wf, UnitRef.present]
theorem tornCeilReached (qid : Nat) : Statement (Instr.tornCeilReached qid) := by intro h n hn; simp_all [Instr.units, Instr.wf, UnitRef.present]
theorem slotReadCeil (aid : Nat) : Statement (Instr.slotReadCeil aid) := by intro h n hn; simp [Instr.units] at hn
theorem copy (clu : Nat) (slot : Nat) : Statement (Instr.copy clu slot) := by
  intro h n hn
  simp only [Instr.units, List.mem_cons, List.not_mem_nil, or_false] at hn
  simp only [Instr.wf, Bool.and_eq_true, decide_eq_true_eq] at h
  rcases hn with rfl | rfl <;> (simp only [UnitRef.present, decide_eq_true_eq]; omega)
theorem gather (clu : Nat) (slot : Nat) : Statement (Instr.gather clu slot) := by
  intro h n hn
  simp only [Instr.units, List.mem_cons, List.not_mem_nil, or_false] at hn
  simp only [Instr.wf, Bool.and_eq_true, decide_eq_true_eq] at h
  rcases hn with rfl | rfl <;> (simp only [UnitRef.present, decide_eq_true_eq]; omega)
theorem scatter (clu : Nat) (slot : Nat) : Statement (Instr.scatter clu slot) := by
  intro h n hn
  simp only [Instr.units, List.mem_cons, List.not_mem_nil, or_false] at hn
  simp only [Instr.wf, Bool.and_eq_true, decide_eq_true_eq] at h
  rcases hn with rfl | rfl <;> (simp only [UnitRef.present, decide_eq_true_eq]; omega)
theorem sglist (clu : Nat) (slot : Nat) : Statement (Instr.sglist clu slot) := by
  intro h n hn
  simp only [Instr.units, List.mem_cons, List.not_mem_nil, or_false] at hn
  simp only [Instr.wf, Bool.and_eq_true, decide_eq_true_eq] at h
  rcases hn with rfl | rfl <;> (simp only [UnitRef.present, decide_eq_true_eq]; omega)
theorem fill (clu : Nat) (slot : Nat) : Statement (Instr.fill clu slot) := by
  intro h n hn
  simp only [Instr.units, List.mem_cons, List.not_mem_nil, or_false] at hn
  simp only [Instr.wf, Bool.and_eq_true, decide_eq_true_eq] at h
  rcases hn with rfl | rfl <;> (simp only [UnitRef.present, decide_eq_true_eq]; omega)
theorem check (clu : Nat) (slot : Nat) : Statement (Instr.check clu slot) := by
  intro h n hn
  simp only [Instr.units, List.mem_cons, List.not_mem_nil, or_false] at hn
  simp only [Instr.wf, Bool.and_eq_true, decide_eq_true_eq] at h
  rcases hn with rfl | rfl <;> (simp only [UnitRef.present, decide_eq_true_eq]; omega)
theorem piInsert (clu : Nat) (slot : Nat) : Statement (Instr.piInsert clu slot) := by
  intro h n hn
  simp only [Instr.units, List.mem_cons, List.not_mem_nil, or_false] at hn
  simp only [Instr.wf, Bool.and_eq_true, decide_eq_true_eq] at h
  rcases hn with rfl | rfl <;> (simp only [UnitRef.present, decide_eq_true_eq]; omega)
theorem piStrip (clu : Nat) (slot : Nat) : Statement (Instr.piStrip clu slot) := by
  intro h n hn
  simp only [Instr.units, List.mem_cons, List.not_mem_nil, or_false] at hn
  simp only [Instr.wf, Bool.and_eq_true, decide_eq_true_eq] at h
  rcases hn with rfl | rfl <;> (simp only [UnitRef.present, decide_eq_true_eq]; omega)
theorem piVerify (clu : Nat) (slot : Nat) : Statement (Instr.piVerify clu slot) := by
  intro h n hn
  simp only [Instr.units, List.mem_cons, List.not_mem_nil, or_false] at hn
  simp only [Instr.wf, Bool.and_eq_true, decide_eq_true_eq] at h
  rcases hn with rfl | rfl <;> (simp only [UnitRef.present, decide_eq_true_eq]; omega)
theorem link (clu : Nat) (slot : Nat) : Statement (Instr.link clu slot) := by
  intro h n hn
  simp only [Instr.units, List.mem_cons, List.not_mem_nil, or_false] at hn
  simp only [Instr.wf, Bool.and_eq_true, decide_eq_true_eq] at h
  rcases hn with rfl | rfl <;> (simp only [UnitRef.present, decide_eq_true_eq]; omega)
theorem fence (clu : Nat) (slot : Nat) : Statement (Instr.fence clu slot) := by
  intro h n hn
  simp only [Instr.units, List.mem_cons, List.not_mem_nil, or_false] at hn
  simp only [Instr.wf, Bool.and_eq_true, decide_eq_true_eq] at h
  rcases hn with rfl | rfl <;> (simp only [UnitRef.present, decide_eq_true_eq]; omega)
theorem fenceComplete (clu : Nat) (slot : Nat) : Statement (Instr.fenceComplete clu slot) := by
  intro h n hn
  simp only [Instr.units, List.mem_cons, List.not_mem_nil, or_false] at hn
  simp only [Instr.wf, Bool.and_eq_true, decide_eq_true_eq] at h
  rcases hn with rfl | rfl <;> (simp only [UnitRef.present, decide_eq_true_eq]; omega)
theorem signal (clu : Nat) (slot : Nat) : Statement (Instr.signal clu slot) := by
  intro h n hn
  simp only [Instr.units, List.mem_cons, List.not_mem_nil, or_false] at hn
  simp only [Instr.wf, Bool.and_eq_true, decide_eq_true_eq] at h
  rcases hn with rfl | rfl <;> (simp only [UnitRef.present, decide_eq_true_eq]; omega)
theorem signalPulse (clu : Nat) (slot : Nat) : Statement (Instr.signalPulse clu slot) := by
  intro h n hn
  simp only [Instr.units, List.mem_cons, List.not_mem_nil, or_false] at hn
  simp only [Instr.wf, Bool.and_eq_true, decide_eq_true_eq] at h
  rcases hn with rfl | rfl <;> (simp only [UnitRef.present, decide_eq_true_eq]; omega)
theorem wait (clu : Nat) (slot : Nat) : Statement (Instr.wait clu slot) := by
  intro h n hn
  simp only [Instr.units, List.mem_cons, List.not_mem_nil, or_false] at hn
  simp only [Instr.wf, Bool.and_eq_true, decide_eq_true_eq] at h
  rcases hn with rfl | rfl <;> (simp only [UnitRef.present, decide_eq_true_eq]; omega)
theorem waitFlagSeen (clu : Nat) (flag : Nat) : Statement (Instr.waitFlagSeen clu flag) := by intro h n hn; simp_all [Instr.units, Instr.wf, UnitRef.present]
theorem waitTimeout (clu : Nat) (slot : Nat) : Statement (Instr.waitTimeout clu slot) := by
  intro h n hn
  simp only [Instr.units, List.mem_cons, List.not_mem_nil, or_false] at hn
  simp only [Instr.wf, Bool.and_eq_true, decide_eq_true_eq] at h
  rcases hn with rfl | rfl <;> (simp only [UnitRef.present, decide_eq_true_eq]; omega)
theorem nop (clu : Nat) (slot : Nat) : Statement (Instr.nop clu slot) := by
  intro h n hn
  simp only [Instr.units, List.mem_cons, List.not_mem_nil, or_false] at hn
  simp only [Instr.wf, Bool.and_eq_true, decide_eq_true_eq] at h
  rcases hn with rfl | rfl <;> (simp only [UnitRef.present, decide_eq_true_eq]; omega)
theorem parkTest (clu : Nat) (slot : Nat) : Statement (Instr.parkTest clu slot) := by
  intro h n hn
  simp only [Instr.units, List.mem_cons, List.not_mem_nil, or_false] at hn
  simp only [Instr.wf, Bool.and_eq_true, decide_eq_true_eq] at h
  rcases hn with rfl | rfl <;> (simp only [UnitRef.present, decide_eq_true_eq]; omega)
theorem parkCeil (clu : Nat) (slot : Nat) : Statement (Instr.parkCeil clu slot) := by
  intro h n hn
  simp only [Instr.units, List.mem_cons, List.not_mem_nil, or_false] at hn
  simp only [Instr.wf, Bool.and_eq_true, decide_eq_true_eq] at h
  rcases hn with rfl | rfl <;> (simp only [UnitRef.present, decide_eq_true_eq]; omega)
theorem poolLineGrant (clu : Nat) : Statement (Instr.poolLineGrant clu) := by intro h n hn; simp_all [Instr.units, Instr.wf, UnitRef.present]
theorem readRequestIssue (clu : Nat) (slot : Nat) (table : Bool) (losers : List Nat) : Statement (Instr.readRequestIssue clu slot table losers) := by
  intro h n hn
  simp only [Instr.units, List.mem_cons, List.not_mem_nil, or_false] at hn
  simp only [Instr.wf, Bool.and_eq_true, decide_eq_true_eq] at h
  rcases hn with rfl | rfl <;> (simp only [UnitRef.present, decide_eq_true_eq]; omega)
theorem writeRequestIssue (clu : Nat) (slot : Nat) (losers : List Nat) : Statement (Instr.writeRequestIssue clu slot losers) := by
  intro h n hn
  simp only [Instr.units, List.mem_cons, List.not_mem_nil, or_false] at hn
  simp only [Instr.wf, Bool.and_eq_true, decide_eq_true_eq] at h
  rcases hn with rfl | rfl <;> (simp only [UnitRef.present, decide_eq_true_eq]; omega)
theorem lensHoldExpiry (clu : Nat) (slot : Nat) : Statement (Instr.lensHoldExpiry clu slot) := by
  intro h n hn
  simp only [Instr.units, List.mem_cons, List.not_mem_nil, or_false] at hn
  simp only [Instr.wf, Bool.and_eq_true, decide_eq_true_eq] at h
  rcases hn with rfl | rfl <;> (simp only [UnitRef.present, decide_eq_true_eq]; omega)
theorem readResponse (aid : Nat) (ans : Answer) : Statement (Instr.readResponse aid ans) := by intro h n hn; simp [Instr.units] at hn
theorem writeAck (aid : Nat) (code : BitVec 6) : Statement (Instr.writeAck aid code) := by intro h n hn; simp [Instr.units] at hn
theorem dataReadCeil (aid : Nat) : Statement (Instr.dataReadCeil aid) := by intro h n hn; simp [Instr.units] at hn
theorem dataWriteCeil (aid : Nat) : Statement (Instr.dataWriteCeil aid) := by intro h n hn; simp [Instr.units] at hn
theorem recordWriteCeil (aid : Nat) : Statement (Instr.recordWriteCeil aid) := by intro h n hn; simp [Instr.units] at hn
theorem recordGiveUp (aid : Nat) (code : BitVec 6) : Statement (Instr.recordGiveUp aid code) := by intro h n hn; simp [Instr.units] at hn
theorem beatCeil (aid : Nat) (wait : BeatWait) : Statement (Instr.beatCeil aid wait) := by intro h n hn; simp [Instr.units] at hn
theorem holdCeil (arb : Nat) (req : Nat) : Statement (Instr.holdCeil arb req) := by intro h n hn; simp_all [Instr.units, Instr.wf, UnitRef.present]
theorem forcedWin (arb : Nat) (req : Nat) : Statement (Instr.forcedWin arb req) := by intro h n hn; simp_all [Instr.units, Instr.wf, UnitRef.present]
theorem quarantineEnd (aid : Nat) : Statement (Instr.quarantineEnd aid) := by intro h n hn; simp [Instr.units] at hn
theorem replayBackoffEnd (clu : Nat) (slot : Nat) (loaf : Nat) : Statement (Instr.replayBackoffEnd clu slot loaf) := by
  intro h n hn
  simp only [Instr.units, List.mem_cons, List.not_mem_nil, or_false] at hn
  simp only [Instr.wf, Bool.and_eq_true, decide_eq_true_eq] at h
  rcases hn with rfl | rfl <;> (simp only [UnitRef.present, decide_eq_true_eq]; omega)
theorem fabMaxExceeded (clu : Nat) (slot : Nat) : Statement (Instr.fabMaxExceeded clu slot) := by
  intro h n hn
  simp only [Instr.units, List.mem_cons, List.not_mem_nil, or_false] at hn
  simp only [Instr.wf, Bool.and_eq_true, decide_eq_true_eq] at h
  rcases hn with rfl | rfl <;> (simp only [UnitRef.present, decide_eq_true_eq]; omega)
theorem releaseLimit (clu : Nat) (slot : Nat) : Statement (Instr.releaseLimit clu slot) := by
  intro h n hn
  simp only [Instr.units, List.mem_cons, List.not_mem_nil, or_false] at hn
  simp only [Instr.wf, Bool.and_eq_true, decide_eq_true_eq] at h
  rcases hn with rfl | rfl <;> (simp only [UnitRef.present, decide_eq_true_eq]; omega)
theorem slotRetired (clu : Nat) (slot : Nat) : Statement (Instr.slotRetired clu slot) := by
  intro h n hn
  simp only [Instr.units, List.mem_cons, List.not_mem_nil, or_false] at hn
  simp only [Instr.wf, Bool.and_eq_true, decide_eq_true_eq] at h
  rcases hn with rfl | rfl <;> (simp only [UnitRef.present, decide_eq_true_eq]; omega)
theorem descriptorPlaced (clu : Nat) : Statement (Instr.descriptorPlaced clu) := by intro h n hn; simp_all [Instr.units, Instr.wf, UnitRef.present]
theorem storeBridgeTransfer : Statement Instr.storeBridgeTransfer := by intro h n hn; simp [Instr.units] at hn
theorem loafRelease (clu : Nat) (slot : Nat) : Statement (Instr.loafRelease clu slot) := by
  intro h n hn
  simp only [Instr.units, List.mem_cons, List.not_mem_nil, or_false] at hn
  simp only [Instr.wf, Bool.and_eq_true, decide_eq_true_eq] at h
  rcases hn with rfl | rfl <;> (simp only [UnitRef.present, decide_eq_true_eq]; omega)
theorem checkpointStored (clu : Nat) (slot : Nat) : Statement (Instr.checkpointStored clu slot) := by
  intro h n hn
  simp only [Instr.units, List.mem_cons, List.not_mem_nil, or_false] at hn
  simp only [Instr.wf, Bool.and_eq_true, decide_eq_true_eq] at h
  rcases hn with rfl | rfl <;> (simp only [UnitRef.present, decide_eq_true_eq]; omega)
theorem ckptCeil (clu : Nat) (slot : Nat) : Statement (Instr.ckptCeil clu slot) := by
  intro h n hn
  simp only [Instr.units, List.mem_cons, List.not_mem_nil, or_false] at hn
  simp only [Instr.wf, Bool.and_eq_true, decide_eq_true_eq] at h
  rcases hn with rfl | rfl <;> (simp only [UnitRef.present, decide_eq_true_eq]; omega)
theorem completionRecord (qid : Nat) : Statement (Instr.completionRecord qid) := by intro h n hn; simp_all [Instr.units, Instr.wf, UnitRef.present]
theorem abandonedRecord (qid : Nat) : Statement (Instr.abandonedRecord qid) := by intro h n hn; simp_all [Instr.units, Instr.wf, UnitRef.present]
theorem completionRecordAck (aid : Nat) (code : BitVec 6) : Statement (Instr.completionRecordAck aid code) := by intro h n hn; simp [Instr.units] at hn
theorem noticeDelayExpiry (qid : Nat) : Statement (Instr.noticeDelayExpiry qid) := by intro h n hn; simp_all [Instr.units, Instr.wf, UnitRef.present]
theorem noticeAck (aid : Nat) (code : BitVec 6) : Statement (Instr.noticeAck aid code) := by intro h n hn; simp [Instr.units] at hn
theorem instanceQuiet (iid : Nat) : Statement (Instr.instanceQuiet iid) := by intro h n hn; simp_all [Instr.units, Instr.wf, UnitRef.present]
theorem quiesceTimeout : Statement Instr.quiesceTimeout := by intro h n hn; simp [Instr.units] at hn
theorem queueDrainEnd (qid : Nat) : Statement (Instr.queueDrainEnd qid) := by intro h n hn; simp_all [Instr.units, Instr.wf, UnitRef.present]
theorem errorLogWrite : Statement Instr.errorLogWrite := by intro h n hn; simp [Instr.units] at hn
theorem errorLogAck (aid : Nat) (code : BitVec 6) : Statement (Instr.errorLogAck aid code) := by intro h n hn; simp [Instr.units] at hn
theorem dirtyLogRecordWrite : Statement Instr.dirtyLogRecordWrite := by intro h n hn; simp [Instr.units] at hn
theorem filterSweepDone : Statement Instr.filterSweepDone := by intro h n hn; simp [Instr.units] at hn
theorem occupancySample : Statement Instr.occupancySample := by intro h n hn; simp [Instr.units] at hn
theorem thresholdEval (t : Nat) : Statement (Instr.thresholdEval t) := by intro h n hn; simp_all [Instr.units, Instr.wf, UnitRef.present]
theorem intervalTimerExpiry (k : Nat) : Statement (Instr.intervalTimerExpiry k) := by intro h n hn; simp_all [Instr.units, Instr.wf, UnitRef.present]
theorem evInEdge (i : Nat) (hop : BitVec 3) : Statement (Instr.evInEdge i hop) := by intro h n hn; simp_all [Instr.units, Instr.wf, UnitRef.present]
theorem evmSourcePulse (sources : List Nat) : Statement (Instr.evmSourcePulse sources) := by intro h n hn; simp [Instr.units] at hn
theorem rateMergedEdge (line : Nat) : Statement (Instr.rateMergedEdge line) := by intro h n hn; simp_all [Instr.units, Instr.wf, UnitRef.present]
theorem stuckCeil (line : Nat) : Statement (Instr.stuckCeil line) := by intro h n hn; simp_all [Instr.units, Instr.wf, UnitRef.present]
theorem refclkLost : Statement Instr.refclkLost := by intro h n hn; simp [Instr.units] at hn
theorem pllWindowEnd (pll : Bool) (count : Nat) : Statement (Instr.pllWindowEnd pll count) := by intro h n hn; simp [Instr.units] at hn
theorem pllTapLost (pll : Bool) : Statement (Instr.pllTapLost pll) := by intro h n hn; simp [Instr.units] at hn
theorem pllLockCeil (pll : Bool) : Statement (Instr.pllLockCeil pll) := by intro h n hn; simp [Instr.units] at hn
theorem muxHangCeil (domain : Nat) : Statement (Instr.muxHangCeil domain) := by intro h n hn; simp_all [Instr.units, Instr.wf, UnitRef.present]
theorem suspectClear (domain : Nat) : Statement (Instr.suspectClear domain) := by intro h n hn; simp_all [Instr.units, Instr.wf, UnitRef.present]
theorem pwAckToggle : Statement Instr.pwAckToggle := by intro h n hn; simp [Instr.units] at hn
theorem pwAckCeil : Statement Instr.pwAckCeil := by intro h n hn; simp [Instr.units] at hn
theorem pLevelChange (w : RegWrite) : Statement (Instr.pLevelChange w) := by intro h n hn; simp_all [Instr.units, Instr.wf, UnitRef.present, RegWrite.wf]
theorem clkGateWrite (w : RegWrite) : Statement (Instr.clkGateWrite w) := by intro h n hn; simp_all [Instr.units, Instr.wf, UnitRef.present, RegWrite.wf]
theorem clusterClockStop (clu : Nat) : Statement (Instr.clusterClockStop clu) := by intro h n hn; simp_all [Instr.units, Instr.wf, UnitRef.present]
theorem restIdleMet : Statement Instr.restIdleMet := by intro h n hn; simp [Instr.units] at hn
theorem restTimeout : Statement Instr.restTimeout := by intro h n hn; simp [Instr.units] at hn
theorem restEntry : Statement Instr.restEntry := by intro h n hn; simp [Instr.units] at hn
theorem wake (cause : WakeCause) : Statement (Instr.wake cause) := by intro h n hn; simp [Instr.units] at hn
theorem wakeTimer : Statement Instr.wakeTimer := by intro h n hn; simp [Instr.units] at hn
theorem wakeRun : Statement Instr.wakeRun := by intro h n hn; simp [Instr.units] at hn
theorem rstNFall : Statement Instr.rstNFall := by intro h n hn; simp [Instr.units] at hn
theorem rstNRise : Statement Instr.rstNRise := by intro h n hn; simp [Instr.units] at hn
theorem bringupEnd (faults : List MacroFault) : Statement (Instr.bringupEnd faults) := by intro h n hn; simp [Instr.units] at hn
theorem modeReqRun (w : RegWrite) : Statement (Instr.modeReqRun w) := by intro h n hn; simp_all [Instr.units, Instr.wf, UnitRef.present, RegWrite.wf]
theorem modeReqConfigure (w : RegWrite) : Statement (Instr.modeReqConfigure w) := by intro h n hn; simp_all [Instr.units, Instr.wf, UnitRef.present, RegWrite.wf]
theorem modeReqTest (w : RegWrite) : Statement (Instr.modeReqTest w) := by intro h n hn; simp_all [Instr.units, Instr.wf, UnitRef.present, RegWrite.wf]
theorem modeTransitionDone : Statement Instr.modeTransitionDone := by intro h n hn; simp [Instr.units] at hn
theorem registerWrite (w : RegWrite) : Statement (Instr.registerWrite w) := by intro h n hn; simp_all [Instr.units, Instr.wf, UnitRef.present, RegWrite.wf]
theorem seqWriteBack (w : RegWrite) : Statement (Instr.seqWriteBack w) := by intro h n hn; simp_all [Instr.units, Instr.wf, UnitRef.present, RegWrite.wf]
theorem errFatalWriteBack (w : RegWrite) : Statement (Instr.errFatalWriteBack w) := by intro h n hn; simp_all [Instr.units, Instr.wf, UnitRef.present, RegWrite.wf]
theorem lockSetup (w : RegWrite) : Statement (Instr.lockSetup w) := by intro h n hn; simp_all [Instr.units, Instr.wf, UnitRef.present, RegWrite.wf]
theorem indClaim (w : RegWrite) : Statement (Instr.indClaim w) := by intro h n hn; simp_all [Instr.units, Instr.wf, UnitRef.present, RegWrite.wf]
theorem indDataRead (r : RegRead) : Statement (Instr.indDataRead r) := by intro h n hn; simp_all [Instr.units, Instr.wf, UnitRef.present, RegRead.wf]
theorem indDataWrite (w : RegWrite) : Statement (Instr.indDataWrite w) := by intro h n hn; simp_all [Instr.units, Instr.wf, UnitRef.present, RegWrite.wf]
theorem tbLoRead (r : RegRead) : Statement (Instr.tbLoRead r) := by intro h n hn; simp_all [Instr.units, Instr.wf, UnitRef.present, RegRead.wf]
theorem tbAdjWrite (w : RegWrite) : Statement (Instr.tbAdjWrite w) := by intro h n hn; simp_all [Instr.units, Instr.wf, UnitRef.present, RegWrite.wf]
theorem tbRateWrite (w : RegWrite) : Statement (Instr.tbRateWrite w) := by intro h n hn; simp_all [Instr.units, Instr.wf, UnitRef.present, RegWrite.wf]
theorem admQEnableSet (w : RegWrite) : Statement (Instr.admQEnableSet w) := by intro h n hn; simp_all [Instr.units, Instr.wf, UnitRef.present, RegWrite.wf]
theorem admQEnableClear (w : RegWrite) : Statement (Instr.admQEnableClear w) := by intro h n hn; simp_all [Instr.units, Instr.wf, UnitRef.present, RegWrite.wf]
theorem eccInj (w : RegWrite) : Statement (Instr.eccInj w) := by intro h n hn; simp_all [Instr.units, Instr.wf, UnitRef.present, RegWrite.wf]
theorem evmWflagWrite (w : RegWrite) : Statement (Instr.evmWflagWrite w) := by intro h n hn; simp_all [Instr.units, Instr.wf, UnitRef.present, RegWrite.wf]
theorem evmLineCtlWrite (w : RegWrite) : Statement (Instr.evmLineCtlWrite w) := by intro h n hn; simp_all [Instr.units, Instr.wf, UnitRef.present, RegWrite.wf]
theorem fedResyncWrite (w : RegWrite) : Statement (Instr.fedResyncWrite w) := by intro h n hn; simp_all [Instr.units, Instr.wf, UnitRef.present, RegWrite.wf]
theorem dbgMemGo (w : RegWrite) : Statement (Instr.dbgMemGo w) := by intro h n hn; simp_all [Instr.units, Instr.wf, UnitRef.present, RegWrite.wf]
theorem dbgPollGo (w : RegWrite) : Statement (Instr.dbgPollGo w) := by intro h n hn; simp_all [Instr.units, Instr.wf, UnitRef.present, RegWrite.wf]
theorem pllRestart (w : RegWrite) : Statement (Instr.pllRestart w) := by intro h n hn; simp_all [Instr.units, Instr.wf, UnitRef.present, RegWrite.wf]
theorem mbistGo (w : RegWrite) : Statement (Instr.mbistGo w) := by intro h n hn; simp_all [Instr.units, Instr.wf, UnitRef.present, RegWrite.wf]
theorem mbistRunDone (faults : List MacroFault) : Statement (Instr.mbistRunDone faults) := by intro h n hn; simp [Instr.units] at hn
theorem tstRun (w : RegWrite) : Statement (Instr.tstRun w) := by intro h n hn; simp_all [Instr.units, Instr.wf, UnitRef.present, RegWrite.wf]
theorem tstInj (w : RegWrite) : Statement (Instr.tstInj w) := by intro h n hn; simp_all [Instr.units, Instr.wf, UnitRef.present, RegWrite.wf]
theorem regAccessCeil (agent : Nat) (offset : Nat) : Statement (Instr.regAccessCeil agent offset) := by intro h n hn; simp_all [Instr.units, Instr.wf, UnitRef.present]
theorem regParityFault (target : Nat) (flop : W32) (shadowBad : Bool) : Statement (Instr.regParityFault target flop shadowBad) := by intro h n hn; simp [Instr.units] at hn
theorem shadowScrub (target : Nat) (found : EccMark) : Statement (Instr.shadowScrub target found) := by intro h n hn; simp [Instr.units] at hn
theorem agentReset (agent : Nat) : Statement (Instr.agentReset agent) := by intro h n hn; simp_all [Instr.units, Instr.wf, UnitRef.present]
theorem fabricCredit (port : Nat) (chan : CreditChan) : Statement (Instr.fabricCredit port chan) := by intro h n hn; simp_all [Instr.units, Instr.wf, UnitRef.present]
theorem train (lk : Nat) (f : RawFrame) : Statement (Instr.train lk f) := by intro h n hn; simp_all [Instr.units, Instr.wf, UnitRef.present]
theorem manifest (lk : Nat) (f : RawFrame) : Statement (Instr.manifest lk f) := by intro h n hn; simp_all [Instr.units, Instr.wf, UnitRef.present]
theorem heartbeat (lk : Nat) (f : RawFrame) : Statement (Instr.heartbeat lk f) := by intro h n hn; simp_all [Instr.units, Instr.wf, UnitRef.present]
theorem time (lk : Nat) (f : RawFrame) : Statement (Instr.time lk f) := by intro h n hn; simp_all [Instr.units, Instr.wf, UnitRef.present]
theorem config (lk : Nat) (f : RawFrame) : Statement (Instr.config lk f) := by intro h n hn; simp_all [Instr.units, Instr.wf, UnitRef.present]
theorem configAck (lk : Nat) (f : RawFrame) : Statement (Instr.configAck lk f) := by intro h n hn; simp_all [Instr.units, Instr.wf, UnitRef.present]
theorem doorbell (lk : Nat) (f : RawFrame) : Statement (Instr.doorbell lk f) := by intro h n hn; simp_all [Instr.units, Instr.wf, UnitRef.present]
theorem fenceFrame (lk : Nat) (f : RawFrame) : Statement (Instr.fenceFrame lk f) := by intro h n hn; simp_all [Instr.units, Instr.wf, UnitRef.present]
theorem ack (lk : Nat) (f : RawFrame) : Statement (Instr.ack lk f) := by intro h n hn; simp_all [Instr.units, Instr.wf, UnitRef.present]
theorem heartbeatSend : Statement Instr.heartbeatSend := by intro h n hn; simp [Instr.units] at hn
theorem witnessRead (member : Nat) : Statement (Instr.witnessRead member) := by intro h n hn; simp_all [Instr.units, Instr.wf, UnitRef.present]
theorem witnessReadResponse (aid : Nat) (ans : Answer) : Statement (Instr.witnessReadResponse aid ans) := by intro h n hn; simp [Instr.units] at hn
theorem selfFence : Statement Instr.selfFence := by intro h n hn; simp [Instr.units] at hn
theorem adoptionStart (member : Nat) : Statement (Instr.adoptionStart member) := by intro h n hn; simp_all [Instr.units, Instr.wf, UnitRef.present]
theorem joinCeil : Statement Instr.joinCeil := by intro h n hn; simp [Instr.units] at hn
theorem linkRetryCeil (lk : Nat) : Statement (Instr.linkRetryCeil lk) := by intro h n hn; simp_all [Instr.units, Instr.wf, UnitRef.present]
theorem linkResendLimit (lk : Nat) : Statement (Instr.linkResendLimit lk) := by intro h n hn; simp_all [Instr.units, Instr.wf, UnitRef.present]
theorem linkIdleErrLimit (lk : Nat) : Statement (Instr.linkIdleErrLimit lk) := by intro h n hn; simp_all [Instr.units, Instr.wf, UnitRef.present]
theorem linkRxKindZero (lk : Nat) : Statement (Instr.linkRxKindZero lk) := by intro h n hn; simp_all [Instr.units, Instr.wf, UnitRef.present]
theorem tailLineReadResponse (aid : Nat) (ans : Answer) : Statement (Instr.tailLineReadResponse aid ans) := by intro h n hn; simp [Instr.units] at hn
theorem imageReadResponse (aid : Nat) (ans : Answer) : Statement (Instr.imageReadResponse aid ans) := by intro h n hn; simp [Instr.units] at hn
theorem adminSlotReread : Statement Instr.adminSlotReread := by intro h n hn; simp [Instr.units] at hn
theorem quietPoint : Statement Instr.quietPoint := by intro h n hn; simp [Instr.units] at hn
theorem commitCeil : Statement Instr.commitCeil := by intro h n hn; simp [Instr.units] at hn
theorem telemetryWriteCeil (aid : Nat) : Statement (Instr.telemetryWriteCeil aid) := by intro h n hn; simp [Instr.units] at hn
theorem dbgMemCeil (aid : Nat) : Statement (Instr.dbgMemCeil aid) := by intro h n hn; simp [Instr.units] at hn
theorem tstRequestCeil (aid : Nat) : Statement (Instr.tstRequestCeil aid) := by intro h n hn; simp [Instr.units] at hn
theorem witnessReadCeil (aid : Nat) : Statement (Instr.witnessReadCeil aid) := by intro h n hn; simp [Instr.units] at hn
theorem ackSend (lk : Nat) : Statement (Instr.ackSend lk) := by intro h n hn; simp_all [Instr.units, Instr.wf, UnitRef.present]
theorem rxOk (lk : Nat) : Statement (Instr.rxOk lk) := by intro h n hn; simp_all [Instr.units, Instr.wf, UnitRef.present]
theorem syncGained (unit : Nat) : Statement (Instr.syncGained unit) := by intro h n hn; simp_all [Instr.units, Instr.wf, UnitRef.present]
theorem syncLost (unit : Nat) : Statement (Instr.syncLost unit) := by intro h n hn; simp_all [Instr.units, Instr.wf, UnitRef.present]
theorem evInFall (i : Nat) : Statement (Instr.evInFall i) := by intro h n hn; simp_all [Instr.units, Instr.wf, UnitRef.present]
theorem wakeRestart : Statement Instr.wakeRestart := by intro h n hn; simp [Instr.units] at hn
theorem pollAccessIssue (iid : Nat) : Statement (Instr.pollAccessIssue iid) := by intro h n hn; simp_all [Instr.units, Instr.wf, UnitRef.present]
theorem datapathBeat (clu : Nat) : Statement (Instr.datapathBeat clu) := by intro h n hn; simp_all [Instr.units, Instr.wf, UnitRef.present]
theorem sClassRead (r : RegRead) : Statement (Instr.sClassRead r) := by intro h n hn; simp_all [Instr.units, Instr.wf, UnitRef.present, RegRead.wf]

end Sys2Proof.Laws.NamesUnits

end
end

