-- ==== Sys2Proof/Tests/Slice0.lean ====
section
/-! SUPPORT. The author's own tests: ill-formed commands that WellFormed refuses, values worked out in the manual, and for
every statement with hypotheses a concrete state and operands that meet them. -/

namespace Sys2Proof.Tests

open Sys2Proof Sys2Proof.Machine

-- One theorem at a time: the kernel's evaluations would otherwise wait on each other, each in a thread of its own.
set_option Elab.async false

/-! Small states. -/

/-- RUN with every clock on. -/
def runs : State := (({ State.reset with mode := .run } : State).wr .clkGate 0 0x1FFFFFF).wr .clkGateStat 0 0x1FFFFFF

/-- A live context of a ring of 16 slots, with three more slots announced. -/
def ctx0 : QCtx :=
  { QCtx.ofWords [] with state := qActive, ringBase := 0x10000, noticeAddr := 0x2000, piSeen := 3, noticeThresh := 1 }

/-- A resident context of queue q. -/
def withCtx (s : State) (q : Nat) (c : QCtx) : State :=
  { s with queues := q :: s.queues, ways := { qid := q, way := 0, age := 0, dirty := false, wbFault := false, ctx := c } :: s.ways }

/-- An outstanding access of handle 0 whose ceiling has passed. -/
def acc0 (u : Purpose) (w : Bool) : Access :=
  { aid := 0, port := 0, tag := 0, write := w, purpose := u, addr := 0x1000, len := 64, attrs := sharedAttrs State.reset 0,
    data := [], toSend := 0, due := 0, ceilNs := 50000, expiries := 0, iid := 0, poisoned := false, spans := [],
    holder := 34, classU := false, key := 0, checks := [], rob := (0, 0) }

/-- The state with it. -/
def withAcc (s : State) (a : Access) : State := { s with acc := [a], nextAid := 1 }

/-- A GOOD answer with a line of sound words. -/
def good (ws : List W64) : Answer := { code := 0, words := soundWords ws }

/-- A line of zeros. -/
def zeros : Answer := good (List.replicate 8 0)

/-- A descriptor of an opcode with a transfer of 64 B from 0x4000 to 0x8000, written for lap 1. -/
def desc (op : Nat) : List W64 :=
  [pack [(0, 8, op), (56, 8, 1)], 0x4000, 0x8000, 64, 0, 0, 0, pack [(56, 8, 1)]]

/-- Channel 0 of cluster 0 on queue 16 of IID 1. -/
def slot0 (op : Nat) (ph : Phase) : Slot :=
  { newSlot 0 0 16 1 0 0 (sharedAttrs State.reset 1) 64 with desc := desc op, phase := ph, walkEnd := 64 }

/-- The state with it bound. -/
def withSlot (s : State) (x : Slot) : State := { s with slots := [x] }

/-- RUN with queue 16 resident. -/
def runsQ : State := withCtx runs 16 ctx0


/-! Ill-formed commands. -/

def badAnswer : Answer := { code := 0, words := [] }
def badWrite : RegWrite := { agent := 3, offset := 0, data := 0, prot := false, parityOk := true }
def badRead : RegRead := { agent := 0, offset := 0x10000, prot := false, parityOk := true }
def badFrame : RawFrame := { header := 0, payload := [], checks := [] }
def badFault : MacroFault := { num := 0, rows := [2, 1], passes := true, finished := true }

theorem test_wf_refuses_answers :
    ∀ i ∈ [Instr.adminDoorbellResponse 0 badAnswer, .adminSlotReadResponse 0 badAnswer, .rootSwapResponse 0 badAnswer,
      .leafSwapResponse 0 badAnswer, .doorbellLineReadResponse 0 badAnswer, .ctxFetchResponse 0 badAnswer, .slotReadResponse 0 badAnswer,
      .readResponse 0 badAnswer, .witnessReadResponse 0 badAnswer, .tailLineReadResponse 0 badAnswer, .imageReadResponse 0 badAnswer,
      .readResponse 0 { code := 0, words := soundWords [0] }], i.wf = false := by decide +kernel

theorem test_wf_refuses_accesses :
    ∀ i ∈ [Instr.pLevelChange badWrite, .clkGateWrite badWrite, .modeReqRun badWrite, .modeReqConfigure badWrite, .modeReqTest badWrite,
      .registerWrite badWrite, .seqWriteBack badWrite, .errFatalWriteBack badWrite, .lockSetup badWrite, .indClaim badWrite,
      .indDataRead badRead, .indDataWrite badWrite, .tbLoRead badRead, .tbAdjWrite badWrite, .tbRateWrite badWrite, .admQEnableSet badWrite,
      .admQEnableClear badWrite, .eccInj badWrite, .evmWflagWrite badWrite, .evmLineCtlWrite badWrite, .fedResyncWrite badWrite,
      .dbgMemGo badWrite, .dbgPollGo badWrite, .pllRestart badWrite, .mbistGo badWrite, .tstRun badWrite, .tstInj badWrite,
      .sClassRead badRead, .registerWrite { badWrite with agent := 0, offset := 2 }, .regAccessCeil 3 0, .regAccessCeil 0 0x10000,
      .agentReset 3], i.wf = false := by decide +kernel

theorem test_wf_refuses_slots :
    (∀ f ∈ [Instr.copy, .gather, .scatter, .sglist, .fill, .check, .piInsert, .piStrip, .piVerify, .link, .fence, .fenceComplete, .signal,
      .signalPulse, .wait, .waitTimeout, .nop, .parkTest, .parkCeil, .lensHoldExpiry, .fabMaxExceeded, .releaseLimit, .slotRetired,
      .loafRelease, .checkpointStored, .ckptCeil], (f 16 0).wf = false ∧ (f 15 34).wf = false ∧ (f 15 33).wf = true) ∧
    (∀ i ∈ [Instr.bind 16 0 0, .bind 0 16 0, .bind 0 0 32, .waitFlagSeen 16 0, .waitFlagSeen 0 64, .poolLineGrant 16,
      .readRequestIssue 16 0 false [], .readRequestIssue 0 34 false [], .readRequestIssue 0 0 false [7], .writeRequestIssue 16 0 [],
      .writeRequestIssue 0 34 [], .writeRequestIssue 0 0 [7], .replayBackoffEnd 16 0 0, .replayBackoffEnd 0 34 0, .descriptorPlaced 16,
      .datapathBeat 16, .clusterClockStop 16, .fabricCredit 16 .rq], i.wf = false) := by decide +kernel

theorem test_wf_refuses_units :
    ∀ i ∈ [Instr.pollDue 4096, .instanceQuiet 4096, .pollAccessIssue 4096, .ctxFetchCeil 4194304, .contextWriteBack 4194304,
      .promotion 4194304, .slotReread 4194304, .tornCeilReached 4194304, .completionRecord 4194304, .abandonedRecord 4194304,
      .noticeDelayExpiry 4194304, .queueDrainEnd 4194304, .holdCeil 31 7, .holdCeil 50 0, .forcedWin 32 16, .forcedWin 33 3, .forcedWin 49 34,
      .thresholdEval 64, .intervalTimerExpiry 32, .evInEdge 256 0, .evInFall 256, .evmSourcePulse [0, 512], .rateMergedEdge 256,
      .stuckCeil 256, .pllWindowEnd false 65536, .muxHangCeil 0, .muxHangCeil 28, .suspectClear 28, .wake (.event 2), .bringupEnd [badFault],
      .bringupEnd [{ badFault with rows := [65536] }], .mbistRunDone [badFault], .syncGained 19, .syncLost 19, .witnessRead 4,
      .adoptionStart 4], i.wf = false := by decide +kernel

theorem test_wf_refuses_links :
    (∀ f ∈ [Instr.train, .manifest, .heartbeat, .time, .config, .configAck, .doorbell, .fenceFrame, .ack],
      (f 3 (sealFrame 0 [])).wf = false ∧ (f 2 badFrame).wf = false ∧ (f 2 (sealFrame 0 [])).wf = true) ∧
    (∀ f ∈ [Instr.linkRetryCeil, .linkResendLimit, .linkIdleErrLimit, .linkRxKindZero, .ackSend, .rxOk], (f 3).wf = false ∧ (f 2).wf = true) ∧
    (∀ f ∈ [Instr.manifest, .heartbeat], ∀ w ∈ [([(4194303, 3)], true), ([(4194304, 3)], false), ([(0, 4)], false)],
      (f 0 { sealFrame 0 [] with owners := w.1 }).wf = w.2) := by
  decide +kernel

/-! Values of the manual. -/

/-- ASCII "123456789" (R12). -/
def digits : List Byte := [0x31, 0x32, 0x33, 0x34, 0x35, 0x36, 0x37, 0x38, 0x39]

/-- R12 and the table of R199. -/
theorem test_check_values :
    CheckCode.crc16.of digits = 0xD0DB ∧ CheckCode.crc32c.of digits = 0xE3069283 ∧ CheckCode.crc64.of digits = 0xAE8B14860A799888 ∧
    CheckCode.crc16.bytesOf 0xD0DB = [0xD0, 0xDB] ∧ CheckCode.crc32c.bytesOf 0xE3069283 = [0x83, 0x92, 0x06, 0xE3] ∧
    CheckCode.crc64.bytesOf 0xAE8B14860A799888 = [0x88, 0x98, 0x79, 0x0A, 0x86, 0x14, 0x8B, 0xAE] := by decide +kernel

/-- R203: a block of zeros has the T10 guard 0. -/
theorem test_zero_guard : CheckCode.crc16.of (List.replicate 512 0) = 0 := by
  have h : ∀ n, (List.replicate n (0 : Byte)).foldl (fun r b => CheckCode.crc16.byte r b) 0 = 0 := by
    intro n
    induction n with
    | zero => rfl
    | succ n ih => rw [List.replicate_succ, List.foldl_cons, show CheckCode.crc16.byte 0 0 = 0 by decide +kernel, ih]
  simp only [CheckCode.of, CheckCode.reg, CheckCode.init, h]
  rfl


/-! Witnesses of the statements' hypotheses, by statement. -/

/-- An error record, and a state that logs. -/
def errRec (n : W32) : ErrRec := { mkErr 3 0 0x41 0 0 63 0 0 0 0 with seq := n }
def logs (n : W32) : State := { runs.wr .errLogCtl 0 1 with errQ := [errRec n] }

theorem test_witness_StepRunsFront :
    ({ State.reset with pending := [.pwAckToggle, .nop 0 0] } : State).pending = .pwAckToggle :: [.nop 0 0] := by decide +kernel

theorem test_witness_IdleTick :
    (({ State.reset with rstN := false } : State).pending = [] ∧ ({ State.reset with rstN := false } : State).rstN = false) ∧
    (runs.pending = [] ∧ runs.rstN = true ∧ tbHangs runs = false ∧ ratePpb runs = 0 ∧ -1000000000 < runs.tbFrac ∧
      runs.tbFrac < 1000000000) ∧
    tbHangs { runs with muxes := [{ domain := 22, since := 0, ceil := 64 }] } = true := by decide +kernel

theorem test_witness_WellFormedCommandsRun :
    (Instr.bind 15 15 31).wf = true ∧ exec (.poolLineGrant 16) State.reset = .fault .noSuchUnit := ⟨by decide +kernel, rfl⟩

theorem test_witness_ErrorLogRecords :
    ((logs 64).errQ = errRec 64 :: [] ∧ admRuns (logs 64) = true ∧ bit ((logs 64).rd .errLogCtl 0) 0 = true ∧
      ((errRec 64).seq - (logs 64).rd .errLogCons 0).toNat < errRing (logs 64)) ∧
    (errRing (logs 65) ≤ ((errRec 65).seq - (logs 65).rd .errLogCons 0).toNat ∧ (logs 65).regs.wf = true ∧
      admRuns (logs 65) = true ∧ bit ((logs 65).rd .errLogCtl 0) 0 = true) ∧
    (∀ device, (withAcc runs (acc0 (.errLog 5 device) true)).fatal = false ∧ codeSeen 0 = 0 ∧
      (withAcc runs (acc0 (.errLog 5 device) true)).access 0 = some (acc0 (.errLog 5 device) true) ∧
      (withAcc runs (acc0 (.errLog 5 device) true)).regs.wf = true) := by decide +kernel

theorem test_witness_DirtyLogRecords :
    (({ runs with dirtyQ := [⟨4095, true, true, 0⟩] } : State).dirtyQ = [⟨4095, true, true, 0⟩] ∧ runs.fatal = false ∧
      runs.is0.wf = true) ∧
    (({ runs with sweep := [7, 3] } : State).sweep.reverse = 3 :: [7] ∧ runs.fatal = false ∧ runs.rstN = true) := by decide +kernel

/-- Threshold k in a mode with limit 8 and hysteresis 2 on counter 0x1000, and timer k that runs to time 0. -/
def thr (k mode : Nat) : State :=
  { runs with is3 := [(0x69000 + 4 * k, BitVec.ofNat 32 (0x1000 + mode * 2 ^ 20)), (0x69000 + 4 * k + 1, 8), (0x69000 + 4 * k + 2, 2)] }
def tim (k mode : Nat) : State :=
  { runs with timers := [{ num := k, ends := some 0, paused := none }],
              is3 := WordMap.put [] (0x69100 + 2 * k + 1) (BitVec.ofNat 32 mode) }

/-- The occupancy sampler runs. -/
def samples : State := runs.wr .telOccCtl 0 0x100000

theorem test_witness_TelemetryEvents :
    (telOn samples = true ∧ samples.fatal = false ∧
      samples.rstN = true ∧ bit (samples.rd .telOccCtl 0) 20 = true ∧
      samples.occDue ≤ samples.nomNs ∧
      samples.is3.wf = true ∧ inService samples 15 = true) ∧
    (∀ m : Fin 4, telOn (thr 63 m) = true ∧ (thr 63 m).fatal = false ∧ (thr 63 m).rstN = true ∧ (thr 63 m).is3.wf = true ∧
      bits (thrWord (thr 63 m) 63 0) 20 2 = m) ∧
    (∀ m : Fin 4, telOn (tim 31 m) = true ∧ (tim 31 m).fatal = false ∧ (tim 31 m).rstN = true ∧
      (timerOf (tim 31 m) 31).ends = some 0 ∧ 0 ≤ (tim 31 m).nomNs ∧ timerMode (tim 31 m) 31 = m) := by decide +kernel

/-- Source n routed to synchronous line 255, with no rate window. -/
def routed (n : Nat) : State :=
  { runs with evm := ⟨[(8 * n + 7, 0x80000000)], [], [(Reg.evmCtl.at 0, 16)]⟩,
              heldPulses := [(n, 1, 5)],
              lines := [{ num := 255, level := false, masked := false, since := 0, window := 0, defer := none }] }
def deferred : State := { runs with lines := [{ num := 255, level := false, masked := false, since := 0, window := 0, defer := some 3 }] }
/-- Direct line 255 asserted by input 255 since time 0, beyond its ceiling. -/
def stuck : State :=
  ({ runs with evm := ⟨[(8 * 511 + 7, 0x80000000)], [], [(Reg.evmLineCtl.at 127, 0x20000000)]⟩,
               evIn := [(255, 0)], nomNs := 0 } : State).refreshEvm
def stuckLate : State := { stuck with nomNs := stuckNs stuck 255 }

theorem test_witness_EventInputs :
    (runs.evIn.any (fun e => e.1 == 255) = false ∧ evmOn runs = true ∧ evmOn State.reset = false) ∧
    (∀ n ∈ [128, 511], evmOn (routed n) = true ∧ (routed n).refreshEvm = routed n ∧ (routed n).heldPulses = [(n, 1, 5)] ∧
      routedLines (routed n) = [255] ∧ lineDirect (routed n).evm 255 = false ∧ feeds (routed n).evm n 255 = true ∧
      (lineOf (routed n) 255).masked = false ∧ (lineOf (routed n) 255).defer = none ∧ (lineOf (routed n) 255).window ≤ (routed n).nomNs ∧
      minGap (routed n) = 0 ∧ (routed n).is3.wf = true) ∧ (pulseOnly 128 = true ∧ pulseOnly 511 = false) ∧
    (evmOn deferred = true ∧ (lineOf deferred 255).defer = some 3 ∧ (lineOf deferred 255).window ≤ deferred.nomNs ∧
      lineDirect deferred.evm 255 = false ∧ (lineOf deferred 255).masked = false) ∧
    (evmOn stuckLate = true ∧ stuckLate.refreshEvm = stuckLate ∧ (lineOf stuckLate 255).level = true ∧
      (lineOf stuckLate 255).masked = false ∧ (lineOf stuckLate 255).since + stuckNs stuckLate 255 ≤ stuckLate.nomNs) := by
  decide +kernel

/-- RUN with the last instance live. -/
def live : State := { runs with is0 := [(13, 1), (16 * 4095 + 2, 16), (16 * 4095 + 3, 0x00100010), (16 * 4095 + 8, 1), (16 * 4095 + 13, 1)] }
def due : State :=
  { live with pollInst := [{ iid := 4095, nextDue := some 0, fullDue := false, kept := false, keptDbg := false, fell := none }] }
def kicked : State :=
  { live with pollInst := [{ iid := 4095, nextDue := none, fullDue := false, kept := true, keptDbg := true, fell := none }] }

theorem test_witness_PollsBegin :
    (4095 < 4096 ∧ mayBegin due 4095 = true ∧ freeEngine due = some 0 ∧ (pollDue due (pollOf due 4095)).isSome = true ∧
      (pollOf due 4095).nextDue = some 0 ∧ 0 ≤ due.nomNs ∧ pollIv due 4095 ≠ 0 ∧ (pollOf due 4095).fell = none) ∧
    (mayBegin kicked 4095 = true ∧ freeEngine kicked = some 0 ∧ (pollDue kicked (pollOf kicked 4095)).isSome = true) ∧
    pollDue live (pollOf live 4095) = none := by decide +kernel

/-- A poll of IID 4095, and RUN with it and a credit on every port. -/
def poll (u : Purpose) (dbg : Bool) : Poll :=
  { iid := 4095, engine := 0, scan := false, full := false, stamp := 0, waiting := [u], active := 0, failed := false, debug := dbg }
def polls (u : Purpose) (dbg : Bool) : State :=
  { live with polls := [poll u dbg], credits := (List.range 16).map (fun n => (n, 1, 1, 8)), portActive := List.range 16 }

theorem test_witness_PollAccessesIssue :
    (∀ u ∈ [Purpose.root 4095, .leaf 4095 63, .doorbell 4095 63 63],
      (polls u false).polls = [poll u false] ∧ (poll u false).iid < 4096 ∧ (poll u false).waiting = [u] ∧ (poll u false).debug = false ∧
      (polls u false).fatal = false ∧ 0 < (polls u false).pollBudget ∧ (arbOf (polls u false) 32).reqs = [] ∧
      (portNow (polls u false) (pollAccess (polls u false) (poll u false) u)).isSome = true) ∧
    ((poll (.root 4095) true).waiting = [.root 4095] ∧ (poll (.root 4095) true).debug = true ∧
      (portNow (polls (.root 4095) true) (pollAccess (polls (.root 4095) true) (poll (.root 4095) true) (.root 4095))).isSome = true) := by
  decide +kernel

/-- A poll whose one access is outstanding. -/
def asked (u : Purpose) : State :=
  { withAcc live { acc0 u false with len := match u with | .doorbell _ _ _ => 64 | _ => 8 } with
    polls := [{ poll u false with waiting := [], active := 1 }] }

theorem test_witness_PollAnswers :
    (∀ u ∈ [Purpose.root 4095, .leaf 4095 63, .doorbell 4095 63 63], ∃ a, (asked u).access 0 = some a ∧ a.purpose = u ∧
      (asked u).fatal = false ∧ CleanAnswer a zeros ∧ a.attrs.swap = false ∧
      ∃ p, pollIn (asked u) 4095 = some p ∧ p.failed = false ∧ p.full = false ∧ p.active ≠ 0) ∧
    (∃ p, pollIn { live with polls := [{ poll (.root 4095) false with waiting := [], failed := true }] } 4095 = some p ∧ p.active = 0 ∧
      p.waiting = [] ∧ p.failed = true) ∧
    (qidSpan live 4095 ≤ 16 ∧ 15 < qidSpan live 4095 ∧ live.queues.contains (qbase live 4095 + 15) = false) ∧
    ((withCtx live 16 ctx0).queues.contains (qbase live 4095 + 0) = true ∧ homedAway (withCtx live 16 ctx0) 16 = false ∧
      ctxOf (withCtx live 16 ctx0) 16 = some ctx0 ∧ 0 < qidSpan (withCtx live 16 ctx0) 4095) ∧
    (({ live with queues := [16] } : State).queues.contains 16 = true ∧ homedAway { live with queues := [16] } 16 = false ∧
      ctxOf { live with queues := [16] } 16 = none) ∧
    homedAway { live with queues := [16], fed := { live.fed with owners := [(16, 3)] } } 16 = true := by
  refine ⟨?_, ⟨_, rfl, by decide +kernel⟩, by decide +kernel, by decide +kernel, by decide +kernel, by decide +kernel⟩
  intro u hu
  simp only [List.mem_cons, List.not_mem_nil, or_false] at hu
  obtain rfl | rfl | rfl := hu
  all_goals exact ⟨_, rfl, rfl, rfl, by unfold CleanAnswer; decide +kernel, rfl, _, rfl, by decide +kernel⟩

/-- A doorbell record of generation g with producer index n. -/
def rec (n g : Nat) : W64 := pack [(0, 32, n), (56, 8, g)]

theorem test_witness_DoorbellRecords :
    (ctxOf runsQ 16 = some ctx0 ∧ bits (rec 4 1) 56 8 ≠ ctx0.dbGen.toNat ∧ ctx0.state = qActive) ∧
    ({ ctx0 with state := qDraining, drainTo := 1 } : QCtx).drainTo = 1 ∧
    (bits (rec 20 0) 56 8 = ctx0.dbGen.toNat ∧ (rec 20 0).setWidth 32 ≠ ctx0.piSeen ∧
      ctx0.depth < ((rec 20 0).setWidth 32 - ctx0.piSeen).toNat) ∧
    (bits (rec 16 0) 56 8 = ctx0.dbGen.toNat ∧ ((rec 16 0).setWidth 32 - ctx0.piSeen).toNat ≤ ctx0.depth ∧
      ((rec 16 0).setWidth 32 - ctx0.q).toNat ≤ ctx0.depth) := by decide +kernel

/-- An access of handle 0 that has expired n times before. -/
def late (u : Purpose) (w : Bool) (n : Nat) : State := withAcc runs { acc0 u w with expiries := n }

theorem test_witness_ExpiredAccessesAgain :
    (∀ u ∈ [Purpose.slot 0 0, .tail 15 31, .parkSlot 0 0, .admDoorbell, .dirtyLog 1 true], ∃ a, (late u false 0).access 0 = some a ∧
      (late u false 0).fatal = false ∧ expired (late u false 0) a = true ∧ a.purpose = u) ∧
    (unitOf .admSlot = 4 ∧ ∀ q d, Purpose.admSlot ≠ .errLog q d) ∧
    (∀ n ∈ [14, 15], ∃ a, (late (.errLog 7 true) true n).access 0 = some a ∧ expired (late (.errLog 7 true) true n) a = true ∧
      a.purpose = .errLog 7 true ∧ a.expiries = n ∧ (late (.errLog 7 true) true n).regs.wf = true) ∧
    (∃ a, (late (.ctxFetch 4194303) false 0).acc.find?
        (fun a => (decide (a.purpose = .ctxFetch 4194303) || decide (a.purpose = .ctxWriteBack 4194303)) && expired (late (.ctxFetch 4194303) false 0) a) =
        some a ∧ (late (.ctxFetch 4194303) false 0).fatal = false ∧ (late (.ctxFetch 4194303) false 0).rstN = true) ∧
    (∃ a, (late (.notice 16) true 14).access 0 = some a ∧ expired (late (.notice 16) true 14) a = true ∧
      isRecordWrite a.purpose = true ∧ a.expiries + 1 < 16) := by
  refine ⟨?_, ⟨rfl, nofun⟩, ?_, ⟨_, rfl, by decide +kernel⟩, ⟨_, rfl, by decide +kernel⟩⟩
  · intro u hu
    simp only [List.mem_cons, List.not_mem_nil, or_false] at hu
    obtain rfl | rfl | rfl | rfl | rfl := hu
    all_goals exact ⟨_, rfl, by decide +kernel⟩
  · intro n hn
    simp only [List.mem_cons, List.not_mem_nil, or_false] at hn
    obtain rfl | rfl := hn
    all_goals exact ⟨_, rfl, by decide +kernel⟩

/-- The same with channel 0 of cluster 0 moving, its first loaf begun and released or not. -/
def loaf0 (rel : Bool) : Loaf := { newLoaf 0 0 64 true 0 with released := rel, releases := flag rel }
def lateX (u : Purpose) (w rel : Bool) : State :=
  { late u w 0 with slots := [{ slot0 1 .moving with loaves := [loaf0 rel], cutB := 64, cutNum := 1 }] }

theorem test_witness_ExpiredAccessesAbandoned :
    (∀ u ∈ [Purpose.root 4095, .leaf 1 63, .doorbell 1 63 63, .trace 7, .snap 15 false, .debug, .test 15 64, .witnessRead 3,
        .oldRead 16 0 0 1, .fedCkpt, .witnessWrite], ∃ a, (late u false 0).access 0 = some a ∧ (late u false 0).fatal = false ∧
      expired (late u false 0) a = true ∧ a.purpose = u ∧ a.write = false) ∧
    (unitOf (.leaf 1 63) = 1 ∧ ∃ p, pollIn (asked (.root 4095)) 4095 = some p ∧ p.active ≤ 1) ∧
    (telOn (late (.trace 7) true 0) = true ∧ (late (.trace 7) true 0).is3.wf = true ∧ (late .debug true 0).regs.wf = true) ∧
    (∀ u ∈ [Purpose.data 0 0 0, .table 0 0 0 1], ∃ a x, (lateX u false false).access 0 = some a ∧ a.write = false ∧
      a.purpose = u ∧ slotAt (lateX u false false) 0 0 = some x ∧ expired (lateX u false false) a = true) ∧
    (∀ rel, ∃ a x l, (lateX (.write 0 0 0) true rel).access 0 = some a ∧ a.purpose = .write 0 0 0 ∧
      slotAt (lateX (.write 0 0 0) true rel) 0 0 = some x ∧ loafOf x 0 = some l ∧ l.released = rel) := by
  refine ⟨?_, ⟨rfl, _, rfl, by decide +kernel⟩, by decide +kernel, ?_, ?_⟩
  · intro u hu
    simp only [List.mem_cons, List.not_mem_nil, or_false] at hu
    obtain rfl | rfl | rfl | rfl | rfl | rfl | rfl | rfl | rfl | rfl | rfl := hu
    all_goals exact ⟨_, rfl, by decide +kernel⟩
  · intro u hu
    simp only [List.mem_cons, List.not_mem_nil, or_false] at hu
    obtain rfl | rfl := hu
    all_goals exact ⟨_, _, rfl, rfl, rfl, rfl, by decide +kernel⟩
  · intro rel
    cases rel
    all_goals exact ⟨_, _, _, rfl, rfl, rfl, rfl, rfl⟩

/-- A fetch of queue 16's context under way, with the queue known; its set empty, or full of four other contexts. -/
def fetching : State := { withAcc runs { acc0 (.ctxFetch 16) false with len := 128, ceilNs := 20000 } with queues := [16] }
def fullSet (dirty : Bool) : State :=
  { fetching with ways := (List.range 4).map (fun k =>
      { qid := 16 + 4096 * (k + 1), way := k, age := k, dirty := dirty, wbFault := false, ctx := { ctx0 with state := qIdle } }) }
/-- Queue 16 federated with a changed context, and its write-back under way. -/
def fedQ : State :=
  { (runs.wr .fedStat 0 (BitVec.ofNat 32 (8 + 32))) with
    queues := [16], ways := [{ qid := 16, way := 0, age := 0, dirty := true, wbFault := false, ctx := ctx0 }] }
def writingBack : State :=
  withAcc { runsQ with fed := runsQ.fed } { acc0 (.ctxWriteBack 16) true with len := 128, data := bytesOfWords ctx0.toWords }

theorem test_witness_ContextTransfers :
    (∃ a, fetching.access 0 = some a ∧ a.purpose = .ctxFetch 16 ∧ fetching.fatal = false ∧
      CleanAnswer a (good (List.replicate 16 0)) ∧ fetching.queues.contains 16 = true ∧ homedAway fetching 16 = false ∧
      freeWay fetching 16 = some 0) ∧
    (∀ d, ∃ a, (fullSet d).access 0 = some a ∧ a.purpose = .ctxFetch 16 ∧ CleanAnswer a (good (List.replicate 16 0)) ∧
      freeWay (fullSet d) 16 = none ∧ (victim (fullSet d) 16).map (·.dirty) = some d) ∧
    (codeSeen 0x1F ≠ 0 ∧ codeRetryable (codeSeen 0x1F) = true ∧ codeRetryable (codeSeen 0x20) = false ∧ codeSeen 0x20 ≠ 0) ∧
    (∃ w, victim { fullSet true with acc := [] } 16 = some w ∧ w.dirty = true ∧ wbBusy { fullSet true with acc := [] } w.qid = false ∧
      wayOf { fullSet true with acc := [] } 16 = none ∧ fetchBusy { fullSet true with acc := [] } 16 = false) ∧
    ({ fetching with ctxWait := [(16, .kick)] } : State).ctxWait = [(16, .kick)] ∧
    (∃ a, writingBack.access 0 = some a ∧ a.purpose = .ctxWriteBack 16 ∧ writingBack.fatal = false ∧ codeSeen 0 = 0 ∧
      writingBack.ctxWait = [] ∧ writingBack.adm.cmd = none ∧ writingBack.fed.remote = none) ∧
    (∃ w, wayOf fedQ 16 = some w ∧ fedQ.fatal = false ∧ fedQ.rstN = true ∧ federated fedQ = true ∧ serves fedQ = true ∧ ctxOn fedQ = true ∧ w.dirty = true ∧
      w.wbFault = false ∧ wbBusy fedQ 16 = false ∧ homedAway fedQ 16 = false ∧ w.ctx.pendingCnt = 0 ∧ assocGet fedQ.ctxWb 16 = none) := by
  refine ⟨⟨_, rfl, rfl, rfl, by unfold CleanAnswer; decide +kernel, by decide +kernel⟩, ?_, by decide +kernel, ⟨_, rfl, by decide +kernel⟩, rfl,
    ⟨_, rfl, by decide +kernel⟩, ⟨_, rfl, by decide +kernel⟩⟩
  intro d
  cases d
  all_goals exact ⟨_, rfl, rfl, by unfold CleanAnswer; decide +kernel, by decide +kernel⟩

/-- RUN with IID 1 live and of weight 1, and queue 16 of it resident, active and ready; eligible for all of SCH_BIND_CEIL. -/
def ready16 : Ready := { qid := 16, live := true, iid := 1, home := 0, qClass := 0, elig := 100000, promoted := none, resume := false }
def serves1 : State := { runs with is0 := [(13, 1), (16 + 2, 16), (16 + 3, 16), (16 + 9, 1), (16 + 13, 1)] }
def sched1 : State := { withCtx serves1 16 { ctx0 with iid := 1 } with ready := [ready16] }

theorem test_witness_SchedulerChoice :
    ((sched1.chooseBind 0 0).2.map (·.1)) = some 16 ∧
    (eligible sched1 ready16 0 = true ∧ ctxOf sched1 16 = some { ctx0 with iid := 1 }) ∧
    (∃ r ∈ ({ sched1 with ready := [{ ready16 with promoted := some 0 }] } : State).ready, r.promoted.isSome = true ∧
      eligible { sched1 with ready := [{ ready16 with promoted := some 0 }] } r 0 = true ∧
      ∃ cls, cls < 4 ∧ inRotation { sched1 with ready := [{ ready16 with promoted := some 0 }] } 0 cls r = true) ∧
    (running sched1 = true ∧ (freeChannels sched1.fetchReady 0).contains 31 = true ∧ clusterTakes sched1.fetchReady 0 = true ∧
      ((sched1.fetchReady.chooseBind 0 0).2.map (·.1)) = some 16 ∧ ctxOf (sched1.fetchReady.chooseBind 0 0).1 16 = some { ctx0 with iid := 1 } ∧
      (sched1.fetchReady.chooseBind 0 0).1.fatal = false) ∧
    (sched1.ready.find? (fun r => r.qid == 16) = some ready16 ∧ ready16.promoted = none ∧ bindCeilNs sched1 ≤ ready16.elig ∧
      eligible sched1 ready16 (schedCluster sched1 ctx0.home.toNat) = true ∧ sched1.regs.wf = true) ∧
    (serves1.ready = [] ∧ -(2 : Int) ^ 39 ≤ defOf serves1 0 1) := by
  refine ⟨by decide +kernel, by decide +kernel, ⟨_, List.mem_singleton.2 rfl, by decide +kernel, by decide +kernel,
    0, by decide +kernel, by decide +kernel⟩, by decide +kernel, by decide +kernel, by decide +kernel⟩

/-- A slot read under way for queue 16, ring slot 0, whose words have the GEN and SEAL given. -/
def reading : State := { withAcc runsQ (acc0 (.slot 0 0) false) with slots := [slot0 1 .slotRead] }
def words (g s : Nat) : List W64 := [pack [(56, 8, g)], 0, 0, 0, 0, 0, 0, pack [(56, 8, s)]]
/-- A re-read whose interval has passed, one at its ceiling, and a chain's channel. -/
def again (due cause : Option Nat) : Reread := { qid := 16, idx := 0, count := 16, due := due, cause := cause, clu := 0, slot := 0, words := [] }
def chain0 : Chain :=
  { linkDesc := desc 0x10, linkFetch := 0, linkAttrs := sharedAttrs State.reset 1, linkUnsync := false, linkStep := 0, segAddr := 0x9000, segCount := 1, segPos := 0, pos := 1, written := 0,
    heldRec := some (desc 1), closing := false, seek := 0 }

theorem test_witness_SlotSorting :
    (∀ gs ∈ [((0 : Nat), (1 : Nat)), (1, 0), (1, 1)], ∃ a x c, reading.access 0 = some a ∧ a.purpose = .slot 0 0 ∧ reading.fatal = false ∧
      CleanAnswer a (good (words gs.1 gs.2)) ∧ slotAt reading 0 0 = some x ∧ ctxOf reading x.qid = some c ∧
      (x.chain.map (·.seek)).getD 0 = 0 ∧ adoptedFrom reading x.qid = none ∧ genOf c.depth x.slotIdx = 1 ∧
      dGen (wordsOfBytes (answerBytes a (good (words gs.1 gs.2)))) = gs.1 ∧
      dSeal (wordsOfBytes (answerBytes a (good (words gs.1 gs.2)))) = gs.2) ∧
    codeSeen 0x3F ≠ 0 ∧
    (tornCeil runs = 16 ∧ (slot0 1 .slotRead).chain = none) ∧
    (∃ r, ({ runsQ with rereads := [again (some 0) none] } : State).rereads.find?
        (fun r => r.qid == 16 && (r.due.map (fun d => decide (d ≤ runsQ.nomNs))).getD false) = some r ∧ running runsQ = true ∧
      serves runsQ = true ∧ ctxOf runsQ 16 = some ctx0 ∧ (chans runsQ 16) = []) ∧
    (∃ x ch, (chans { runsQ with slots := [{ slot0 1 .slotRead with chain := some chain0 }] } 16).find?
        (fun x => decide (x.slotIdx = 0) && x.chain.isSome) = some x ∧ x.chain = some ch) ∧
    (∃ r, spentReread { runsQ with rereads := [again none (some 1)] } 16 ctx0 = some r ∧
      ctx0.f = r.idx ∧ ctx0.state ≠ qError) := by
  refine ⟨?_, by decide +kernel, by decide +kernel, ⟨_, rfl, by decide +kernel⟩, ⟨_, _, rfl, rfl⟩, ⟨_, rfl, by decide +kernel⟩⟩
  intro gs hg
  simp only [List.mem_cons, List.not_mem_nil, or_false] at hg
  obtain rfl | rfl | rfl := hg
  all_goals exact ⟨_, _, _, rfl, rfl, rfl, by unfold CleanAnswer; decide +kernel, rfl, rfl, by decide +kernel⟩

/-- Queue 16 with a slot bound, in a phase. -/
def bound (x : Slot) : State := { runsQ with slots := [x] }

theorem test_witness_Acceptance :
    ctxOf (bound (slot0 1 .proofed)) 16 = some ctx0 ∧ slotAt (bound (slot0 1 .proofed)) 0 0 = some (slot0 1 .proofed) ∧
    (slot0 1 .proofed).chain = none ∧ ctx0.state ≠ qError ∧ federated (bound (slot0 1 .proofed)) = false ∧
    (bound (slot0 1 .proofed)).regs.wf = true := by decide +kernel

/-- A chain at its tail, and parked. -/
def tailX (ph : Phase) : Slot := { slot0 1 ph with chain := some chain0 }
def tails : State := { withAcc runsQ (acc0 (.tail 0 0) false) with slots := [tailX .chainTail] }

theorem test_witness_TailLines :
    (∃ a x, tails.access 0 = some a ∧ a.purpose = .tail 0 0 ∧ tails.fatal = false ∧ CleanAnswer a (good (List.replicate 8 3)) ∧
      slotAt tails 0 0 = some x ∧ x.chain = some chain0 ∧ chain0.seek = 0 ∧ ctxOf tails x.qid = some ctx0 ∧ x.phase = .chainTail ∧
      chain0.closing = false ∧ bit (wd (wordsOfBytes (answerBytes a (good (List.replicate 8 3)))) 0) 0 = true ∧
      bit (wd (wordsOfBytes (answerBytes a (good (List.replicate 8 3)))) 0) 1 = true ∧
      1 ≤ (ctx0.piSeen - (x.slotIdx + 1)).toNat ∧ (ctx0.piSeen - (x.slotIdx + 1)).toNat ≤ ctx0.depth) ∧
    (slotAt tails 0 0 = some (tailX .chainTail) ∧ (tailX .chainTail).chain = some chain0 ∧ chain0.heldRec = some (desc 1)) ∧
    (chans (bound (tailX .chainTail)) 16 = [tailX .chainTail] ∧ (bound (tailX .chainTail)).ctxWait = [] ∧
      (tailX .chainTail).kept = [] ∧ (bound (tailX .chainTail)).records.length < 1023 ∧ (tailX .chainTail).idx < 32) ∧
    (slotAt (bound (tailX (.parked 0 0))) 0 0 = some (tailX (.parked 0 0)) ∧ running (bound (tailX (.parked 0 0))) = true ∧
      serves (bound (tailX (.parked 0 0))) = true ∧ 0 ≤ (bound (tailX (.parked 0 0))).nomNs ∧
      (bound (tailX (.parked 0 0))).acc = [] ∧ (bound (tailX (.parked 0 0))).held = []) ∧
    (0 + parkCeilNs { bound (tailX (.parked 0 0)) with nomNs := 1000000 } ≤ 1000000 ∧
      slotAt (bound (tailX .expired)) 0 0 = some (tailX .expired) ∧ running (bound (tailX .expired)) = true) := by
  refine ⟨⟨_, _, rfl, rfl, rfl, by unfold CleanAnswer; decide +kernel, rfl, by decide +kernel⟩, by decide +kernel, by decide +kernel,
    by decide +kernel, by decide +kernel⟩

theorem test_witness_DataOpcodesBegin :
    (∀ op ∈ [1, 2, 3, 4, 5, 6, 8, 9, 10], running (bound (slot0 op .accepted)) = true ∧
      slotAt (bound (slot0 op .accepted)) 0 0 = some (slot0 op .accepted) ∧ (slot0 op .accepted).phase = .accepted ∧
      (slot0 op .accepted).resume = none ∧ (slot0 op .accepted).loaves = [] ∧ (dKind (slot0 op .accepted).desc).isData = true) ∧
    (mayCut (bound (slot0 1 .accepted)) (slot0 1 .moving) = true ∧
      (slot0 1 .moving).cutB < (loafRange (slot0 1 .moving) (slot0 1 .moving).cutB).1) := by decide +kernel

theorem test_witness_ControlOpcodesBegin :
    (∀ op ∈ [0x10, 0x11, 0x12, 0x13, 0x14], running (bound (slot0 op .accepted)) = true ∧
      slotAt (bound (slot0 op .accepted)) 0 0 = some (slot0 op .accepted) ∧ serves (bound (slot0 op .accepted)) = true ∧
      chans (bound (slot0 op .accepted)) 16 = [slot0 op .accepted] ∧ (slot0 op .accepted).chain = none ∧
      (bound (slot0 op .accepted)).ctxWait = [] ∧ (bound (slot0 op .accepted)).records.length < 1024 ∧
      (ctxOf (bound (slot0 op .accepted)) 16).isSome = true ∧ (slot0 op .accepted).status = 0 ∧ (slot0 op .accepted).resume = none) ∧
    ([0x10, 0x11, 0x12, 0x13, 0x14].map (fun op => dKind (desc op))) = [.link, .fence, .signal, .wait, .nop] := by decide +kernel

/-- WAIT flag f is set, and a WAIT on flag 0 holds its channel until time 1. -/
def waits (f : Nat) : State := (bound (slot0 0x13 (.waiting 1))).setWaitFlag f
/-- The same when its time has passed, and one that saw its flag before a clear. -/
def waited : State := bound (slot0 0x13 (.waiting 0))
def sawIt : State := { bound (slot0 0x13 (.waiting 1)) with lateFlags := [(0, 0)] }

theorem test_witness_ControlOpcodesEnd :
    (∀ op ∈ [0x11, 0x12], ∀ ph ∈ [Phase.fencing, .signalling], running (bound (slot0 op ph)) = true ∧
      slotAt (bound (slot0 op ph)) 0 0 = some (slot0 op ph) ∧ chans (bound (slot0 op ph)) 16 = [slot0 op ph] ∧
      (bound (slot0 op ph)).ctxWait = [] ∧ (bound (slot0 op ph)).records.length < 1024 ∧ earlierOpen (bound (slot0 op ph)) (slot0 op ph) = false ∧
      (slot0 op ph).status = 0) ∧
    earlierOpen (bound { slot0 0x11 .fencing with slotIdx := 1 }) { slot0 0x11 .fencing with slotIdx := 1 } = true ∧
    (waitFlag (waits 0) 0 = true ∧ (waits 0).slots.filter (waitsOn 0 0) = [slot0 0x13 (.waiting 1)] ∧
      waitLasts (waits 0) (slot0 0x13 (.waiting 1)) = true ∧ sawFlag sawIt (slot0 0x13 (.waiting 1)) = true ∧ waitFlag sawIt 0 = false ∧ (waits 0).regs.wf = true ∧
      running (waits 0) = true ∧ waitFlag (waits 63) 63 = true ∧ waitFlag (waits 63) 0 = false) ∧
    (0 ≤ waited.nomNs ∧ slotAt waited 0 0 = some (slot0 0x13 (.waiting 0)) ∧
      ∀ x ∈ waited.slots, waitsOn 0 0 x = true ∧ waitLasts waited x = false) := by decide +kernel

/-- Queue 16's COPY, its first loaf begun as given, on cluster 0 with credits and tags. -/
def moveX (op : Nat) (l : Loaf) : Slot := { slot0 op .moving with loaves := [l], cutB := 64, cutNum := 1 }
def moves (op : Nat) (l : Loaf) : State := { bound (moveX op l) with credits := [(0, 1, 1, 1)], portActive := [0] }
/-- A GATHER of 16 elements of 4 B that has read no index yet. -/
def gatherX : Slot :=
  { slot0 2 .moving with desc := [pack [(0, 8, 2), (56, 8, 1)], 0x4000, 0x8000, 0x6000, pack [(0, 24, 15), (24, 12, 3)], 16, 0, 0] }
def gathers : State := { bound gatherX with credits := [(0, 1, 0, 0)], portActive := [0] }

/-- The same with a second channel that has a read of its own. -/
def pair1 (l : Loaf) : Slot := { moveX 1 l with idx := 1 }
def pairs (l : Loaf) : State := { moves 1 l with slots := [moveX 1 l, pair1 l] }

theorem test_witness_ReadRequests :
    (slotAt (moves 1 (loaf0 false)) 0 0 = some (moveX 1 (loaf0 false)) ∧
      (moves 1 (loaf0 false)).updSlot 0 0 (fun _ => moveX 1 (loaf0 false)) = moves 1 (loaf0 false) ∧
      stateFault (moveX 1 (loaf0 false)) = false ∧
      mayIssue (moves 1 (loaf0 false)) (moveX 1 (loaf0 false)) = true ∧ hasStore (desc 1) = false ∧ dKind (desc 1) = .copy ∧
      readWork (moves 1 (loaf0 false)) (moveX 1 (loaf0 false)) [loaf0 false] = some (loaf0 false, 0, 64) ∧
      nextRequest (srcSide (desc 1)) [] (transferLen (desc 1)) 0 64 = some ([(0, 0x4000, 64)], 64) ∧
      entriesFresh (moveX 1 (loaf0 false)) 0 64 = true ∧
      portReady (moves 1 (loaf0 false)) (moveX 1 (loaf0 false)) false = true ∧
      hasTurn (moves 1 (loaf0 false)) 0 (moveX 1 (loaf0 false)) (readable (moves 1 (loaf0 false))) = true ∧
      (reserve (moves 1 (loaf0 false)) (moveX 1 (loaf0 false)) .data (linesTouched 0x4000 64) false).2 = some (1, 0) ∧
      ((moves 1 (loaf0 false)).portGrant 0 0 []).isSome = true) ∧
    (slotAt (pairs (loaf0 false)) 0 1 = some (pair1 (loaf0 false)) ∧
      (pairs (loaf0 false)).updSlot 0 1 (fun _ => pair1 (loaf0 false)) = pairs (loaf0 false) ∧
      mayIssue (pairs (loaf0 false)) (pair1 (loaf0 false)) = true ∧ readCut (pairs (loaf0 false)) (pair1 (loaf0 false)) = pair1 (loaf0 false) ∧
      hasTurn (pairs (loaf0 false)) 0 (pair1 (loaf0 false)) (readable (pairs (loaf0 false))) = false) ∧
    (slotAt gathers 0 0 = some gatherX ∧ mayIssue gathers gatherX = true ∧ gatherX.status = 0 ∧ gatherX.nextBackoff = none ∧
      stateFault gatherX = false ∧ hasTurn gathers 0 gatherX (readable gathers) = true ∧
      (reserve gathers gatherX .table (linesTouched 0x6000 32) (hasStore gatherX.desc)).2 = some (1, 0) ∧
      tableBase gatherX.desc = 0x6000 ∧ entryWidth gatherX.desc = 2 ∧
      portReady gathers gatherX false = true ∧ tableNext gathers gatherX = some (0, 16) ∧ (gathers.portGrant 0 0 []).isSome = true) := by
  decide +kernel

theorem test_witness_WriteRequests :
    slotAt (moves 1 (loaf0 false)) 0 0 = some (moveX 1 (loaf0 false)) ∧
    (moves 1 (loaf0 false)).updSlot 0 0 (fun _ => moveX 1 (loaf0 false)) = moves 1 (loaf0 false) ∧
    mayIssue (moves 1 (loaf0 false)) (moveX 1 (loaf0 false)) = true ∧ (dKind (desc 1)).noDest = false ∧ dKind (desc 1) ≠ .scatter ∧
    stateFault (moveX 1 (loaf0 false)) = false ∧
    writeWork (moveX 1 (loaf0 false)) [loaf0 false] = some (loaf0 false) ∧ readsNothing (desc 1) (loaf0 false) = false ∧
    (moves 1 (loaf0 false)).acc = [] ∧ (nextWrite (moveX 1 (loaf0 false)) (loaf0 false) true 4).2 = some [(0, 0x8000, 64)] ∧
    hasTurn (moves 1 (loaf0 false)) 1 (moveX 1 (loaf0 false)) (writable (moves 1 (loaf0 false))) = true ∧
    portReady (moves 1 (loaf0 false)) (moveX 1 (loaf0 false)) true = true ∧ ((moves 1 (loaf0 false)).portGrant 0 1 [6]).isSome = true := by
  decide +kernel

/-- An open request of Lens, and a reservation that waits for pool lines. -/
def lensX : Slot := { gatherX with lens := some { start := 0x4000, stop := 0x4003, loaf := 0, spans := [(0, 0x4000, 4)] } }
def poolX : Slot := { moveX 1 (loaf0 false) with poolWait := [(.data, 1920, 7)] }

theorem test_witness_LensAndPool :
    (slotAt (bound lensX) 0 0 = some lensX ∧ running (bound lensX) = true ∧ lensX.lens.isSome = true ∧ (bound lensX).regs.wf = true) ∧
    (oldestWait (bound poolX) 0 = some (0, .data, 1920, 7) ∧ slotAt (bound poolX) 0 poolX.idx = some poolX ∧
      poolUsed (bound poolX) 0 + 1920 ≤ 1920 ∧ (bound poolX).fatal = false) := by decide +kernel

/-- Channel 0 with an access of its own outstanding. -/
def waiting (u : Purpose) (w : Bool) (x : Slot) : State :=
  { withAcc runsQ { acc0 u w with spans := [(0, 0x1000, 64)], holder := 0 } with slots := [x] }

theorem test_witness_DataReadAnswers :
    (∃ a, (waiting (.data 0 0 0) false (moveX 1 (loaf0 false))).access 0 = some a ∧ a.purpose = .data 0 0 0 ∧ a.write = false ∧
      slotAt (waiting (.data 0 0 0) false (moveX 1 (loaf0 false))) 0 0 = some (moveX 1 (loaf0 false)) ∧ CleanAnswer a zeros) ∧
    (∃ a, (waiting (.table 0 0 0 16) false gatherX).access 0 = some a ∧ a.purpose = .table 0 0 0 16 ∧ a.write = false ∧
      slotAt (waiting (.table 0 0 0 16) false gatherX) 0 0 = some gatherX ∧ CleanAnswer a zeros) ∧
    (loafOf (moveX 1 (loaf0 false)) 0 = some (loaf0 false) ∧ hasStore (desc 1) = false ∧
      injects (bound (moveX 1 (loaf0 false))) 0 0 = false ∧ injects (bound (moveX 1 (loaf0 false))) 0 2 = false ∧ (dKind (desc 1)).noDest = false) := by
  exact ⟨⟨_, rfl, rfl, rfl, rfl, by unfold CleanAnswer; decide +kernel⟩, ⟨_, rfl, rfl, rfl, rfl, by unfold CleanAnswer; decide +kernel⟩,
    by decide +kernel⟩

theorem test_witness_WriteAnswers :
    (∀ rel, ∃ a, (waiting (.write 0 0 0) true (moveX 1 (loaf0 rel))).access 0 = some a ∧ a.purpose = .write 0 0 0 ∧ a.write = true ∧
      a.toSend = 0 ∧ slotAt (waiting (.write 0 0 0) true (moveX 1 (loaf0 rel))) 0 0 = some (moveX 1 (loaf0 rel)) ∧
      isReleased (moveX 1 (loaf0 rel)) 0 = rel) ∧
    (∀ u ∈ [Purpose.trace 7, .fedCkpt, .witnessWrite], ∃ a, (waiting u true (moveX 1 (loaf0 false))).access 0 = some a ∧ a.purpose = u ∧
      a.write = true ∧ a.toSend = 0 ∧ a.iid = 0) ∧
    (codeSeen 0 = 0 ∧ codeRetryable (codeSeen 1) = true ∧ codeSeen 1 ≠ 0 ∧ codeRetryable (codeSeen 0x3F) = false ∧ codeSeen 0x3F ≠ 0) := by
  refine ⟨?_, ?_, by decide +kernel⟩
  · intro rel
    cases rel
    all_goals exact ⟨_, rfl, rfl, rfl, rfl, rfl, rfl⟩
  · intro u hu
    simp only [List.mem_cons, List.not_mem_nil, or_false] at hu
    obtain rfl | rfl | rfl := hu
    all_goals exact ⟨_, rfl, rfl, rfl, rfl, rfl⟩

/-- A beat of a write of loaf 0, whose bytes are here, is offered; and a record's with no slot bound. -/
def held0 : Loaf :=
  { loaf0 false with readB := 64, writeB := 64, frags := [{ walkB := 0, words := soundWords (List.replicate 8 0), ofs := 0, len := 64, copy := [] }] }
def beats : State :=
  { withAcc (moves 1 held0) { acc0 (.write 0 0 0) true with spans := [(0, 0x1000, 64)], holder := 0, toSend := 1 } with slots := [moveX 1 held0] }
def recBeats : State :=
  { withAcc (moves 1 held0) { acc0 (.record 16 0 0 false false) true with holder := 33, toSend := 1 } with slots := [] }

theorem test_witness_DatapathBeats :
    (running beats = true ∧ beats.takeover = [] ∧ (arbOf beats 34).reqs = [] ∧
      (List.range 34).filterMap (fun i => (slotJob beats 0 i).map (fun j => (i, j))) = [(0, BeatJob.write 0 0, 0)]) ∧
    (slotAt recBeats 0 33 = none ∧
      (List.range 34).filterMap (fun i => (slotJob recBeats 0 i).map (fun j => (i, j))) = [(33, BeatJob.line 0, 1)]) ∧
    ((List.range 34).filterMap (fun i => (slotJob runsQ 15 i).map (fun j => (i, j))) = [] ∧ runsQ.takeover = []) ∧
    (beats.access 0).isSome = true := by decide +kernel

/-- A loaf of a DST_NI COPY whose verify pass is done; a loaf ready to commit. -/
def niX : Slot :=
  { moveX 1 { held0 with passB := 64, stored := true } with desc := [pack [(0, 8, 1), (11, 1, 1), (56, 8, 1)], 0x4000, 0x8000, 64, 0, 0, 0, 0] }
def doneX : Slot := moveX 1 { held0 with passB := 64 }

theorem test_witness_LoavesCommit :
    (slotAt (bound niX) 0 0 = some niX ∧ niX.loaves.head? = some { held0 with passB := 64, stored := true } ∧ niX.phase = .moving ∧
      stalled niX = false ∧ dDstNi niX.desc = true ∧ verifyPositions niX { held0 with passB := 64, stored := true } = [] ∧
      srcBytes niX.desc 64 64 = 0 ∧ storeAway (bound niX) 0 0 = false) ∧
    (slotAt (bound doneX) 0 0 = some doneX ∧ doneX.loaves.head? = some { held0 with passB := 64 } ∧
      commitReady (bound doneX) doneX { held0 with passB := 64 } = true ∧ stateFault doneX = false ∧ stateFault niX = false ∧ federated (bound doneX) = false) := by decide +kernel

/-- A loaf in a backoff that has passed. -/
def waitX : Slot := moveX 1 { loaf0 false with backoff := some 0, fab := 1 }

theorem test_witness_Replays :
    (slotAt (bound (moveX 1 (loaf0 false))) 0 0 = some (moveX 1 (loaf0 false)) ∧ stalled (moveX 1 (loaf0 false)) = false ∧
      loafOf (moveX 1 (loaf0 false)) 0 = some (loaf0 false) ∧ (moveX 1 (loaf0 false)).phase ≠ .ending) ∧
    (∀ n ∈ [15, 16], ({ loaf0 false with fab := n } : Loaf).fab = n ∧ (n + 1 ≤ fabMax runs 0 ↔ n = 15)) ∧
    (backoffNs runs 0 1 ≠ 0 ∧ backoffNs (runs.wr .cluReplayCtl 0 16) 0 1 = 0 ∧ 1 ≤ fabMax (runs.wr .cluReplayCtl 0 16) 0) ∧
    (slotAt (bound waitX) 0 0 = some waitX ∧ loafOf waitX 0 = some { loaf0 false with backoff := some 0, fab := 1 } ∧
      running (bound waitX) = true ∧ 0 ≤ (bound waitX).nomNs ∧ (bound waitX).regs.wf = true) ∧
    (loafOf { slot0 1 .moving with nextBackoff := some 0 } 0 = none ∧ ({ slot0 1 .moving with nextBackoff := some 0 } : Slot).cutNum = 0) ∧
    (∀ n ∈ [2, 3], ({ loaf0 false with internal := n } : Loaf).internal = n) := by decide +kernel

/-- A descriptor past FAB_MAX, one past its releases, one whose slot is retired; one that waits for its adopter. -/
def overX : Slot := { moveX 1 (loaf0 false) with fabOver := some (true, 0x3D, 0x4000) }
def relX : Slot := { moveX 1 (loaf0 true) with relOver := some (1, 0x8000) }
def retX (k : Nat) : Slot := { moveX 1 (loaf0 false) with idx := k, retireBy := some 0x21 }
def adopts : State := (bound (slot0 1 .leaving)).wr .cluMirrorStat 0 3
def goneX : Slot := { slot0 1 .leaving with copyBad := true }
def goneS : State := { bound goneX with ckpt := [{ ckptOf goneX with copy0 := [(3, 0)], copy1 := [(3, 0)] }] }
def placed : State := { runsQ with moving := [(15, slot0 1 .moving)] }

theorem test_witness_DescriptorsEndOrMove :
    (slotAt (bound overX) 0 0 = some overX ∧ overX.fabOver = some (true, 0x3D, 0x4000) ∧ (bound overX).regs.wf = true) ∧
    (slotAt (bound relX) 0 0 = some relX ∧ relX.relOver = some (1, 0x8000)) ∧
    ((moveX 1 (loaf0 false)).phase ≠ .ending ∧ running (bound overX) = true) ∧
    (∀ k ∈ [0, 33], slotAt (bound (retX k)) 0 k = some (retX k) ∧ (retX k).retireBy = some 0x21) ∧
    (slotAt adopts 0 0 = some (slot0 1 .leaving) ∧ moveTarget
        { adopts with ckpt := adopts.ckpt.filter (fun k => !(k.clu == 0 && k.idx == 0)),
                      slots := adopts.slots.filter (fun y => !(y.clu == 0 && y.idx == 0)) } 0 0 = some (1, none)) ∧
    (ckptGone adopts (slot0 1 .leaving) = false ∧ slotAt goneS 0 0 = some goneX ∧ ckptGone goneS goneX = true) ∧
    (placed.moving.find? (fun m => m.1 == 15 && !m.2.squashed) = some (15, slot0 1 .moving) ∧ freeChannels placed 15 = 0 :: (List.range 32).tail ∧
      running placed = true) := by decide +kernel

/-- A candidate one round short of WAIT_LIMIT at an arbiter. -/
def losing (a r : Nat) : State :=
  { runs with arbs := [{ num := a, round := 9, reqs := [{ idx := r, stamp := 1, wait := waitLimit runs a - 1, forced := false, lockout := 0, raised := true }],
                         emBarred := false, emRun := 0, won := 0, waiting := [] }] }

theorem test_witness_ArbiterLimits :
    (∀ ar ∈ [((0 : Nat), (6 : Nat)), (15, 0), (32, 15), (33, 2), (34, 33), (49, 0)], ar.2 < arbSize ar.1 ∧ (losing ar.1 ar.2).fatal = false ∧
      (ar.1 < 16 ∨ 32 ≤ ar.1) ∧ (reqOf (arbOf (losing ar.1 ar.2) ar.1) ar.2).raised = true ∧
      waitLimit (losing ar.1 ar.2) ar.1 ≤ (reqOf (arbOf (losing ar.1 ar.2) ar.1) ar.2).wait + 1 ∧
      lockedOut (losing ar.1 ar.2) ar.1 (reqOf (arbOf (losing ar.1 ar.2) ar.1) ar.2) = false) ∧
    (6 < arbSize 16 ∧ 6 < arbSize 31 ∧ lockedOut runs 16 (reqOf (arbOf runs 16) 6) = false ∧ runs.fatal = false ∧ runs.rstN = true) ∧
    (lockedOut runs 31 (reqOf (arbOf runs 31) 6) = false ∧ runs.regs.wf = true) := by decide +kernel

/-- A tag in quarantine until now. -/
def quarantined : State := { runs with quar := [{ acc := acc0 (.root 1) false, freeAt := 0 }] }

theorem test_witness_TagsAndCreditsReturn :
    (∃ q, quarantined.quar.find? (fun q => q.acc.aid == 0) = some q ∧ quarantined.fatal = false ∧ quarantined.rstN = true ∧
      q.freeAt ≤ quarantined.nomNs ∧ ∀ d i p n, q.acc.purpose ≠ .oldWrite d i p n) ∧
    (({ runs with portActive := [15] } : State).portActive.contains 15 = true ∧ runs.fatal = false) ∧
    runs.portActive.contains 15 = false := by
  exact ⟨⟨_, rfl, rfl, rfl, by decide +kernel, nofun⟩, by decide +kernel, by decide +kernel⟩

theorem test_witness_BeatCeilings :
    (∃ a, (late (.slot 0 0) false 0).access 0 = some a ∧ (late (.slot 0 0) false 0).fatal = false ∧ a.purpose = .slot 0 0 ∧
      offered (late (.slot 0 0) false 0) a = true ∧ a.write = false ∧ a.attrs.swap = false) ∧
    (∃ a x, beats.access 0 = some a ∧ beats.fatal = false ∧ a.purpose = .write 0 0 0 ∧ slotAt beats 0 0 = some x ∧ isReleased x 0 = false ∧
      a.toSend ≠ 0 ∧ x.clu = 0 ∧ x.idx = 0) ∧
    (∃ a x, (lateX (.data 0 0 0) false false).access 0 = some a ∧ a.write = false ∧ a.attrs.swap = false ∧ a.purpose = .data 0 0 0 ∧
      slotAt (lateX (.data 0 0 0) false false) 0 0 = some x ∧ x.clu = 0 ∧ x.idx = 0) := by
  exact ⟨⟨_, rfl, rfl, rfl, by decide +kernel⟩, ⟨_, _, rfl, rfl, rfl, rfl, by decide +kernel⟩, ⟨_, _, rfl, rfl, rfl, rfl, rfl, rfl, rfl⟩⟩

/-- Queue 16's next record, of a descriptor or abandoned, waits; two timestamps n ns apart. -/
def record0 (ab : Bool) (n : Nat) : Record :=
  { qid := 16, idx := 0, chainPos := 0, addr := 0x10000, words := [0, 0, 0, 0, BitVec.ofNat 64 n, 0, 0, 0], clu := 0,
    slot := if ab then 63 else 31, cls := 0, noticeNow := false, abandoned := ab, fetchStep := 0, doneStep := 0,
    attrs := sharedAttrs State.reset 1 }
def records (ab : Bool) : State := { runsQ with records := [record0 ab 0], credits := [(0, 1, 1, 1)], portActive := [0] }

theorem test_witness_RecordsIssue :
    (∀ ab, running (records ab) = true ∧ serves (records ab) = true ∧ nextRecord (records ab) 16 = some (record0 ab 0) ∧
      ctxOf (records ab) 16 = some ctx0 ∧ (records ab).adoptDone = [] ∧ ((record0 ab 0).slot < 32 ∨ (record0 ab 0).slot = 63) ∧
      ((record0 ab 0).abandoned = false → (portNow (records ab) (recordHeld (records ab) (record0 ab 0))).isSome = true) ∧
      (records ab).is3.wf = true ∧ (record0 ab 0).chainPos = 0) ∧
    (running runsQ = true ∧ nextRecord runsQ 16 = none) ∧
    (telOn runs = true ∧ telOn State.reset = false) ∧
    ([127, 128, 16383, 16384, 2097151, 2097152].map histBin = [0, 1, 7, 8, 14, 15]) ∧
    (record0 false 0).fetchStep ≠ ({ record0 false 0 with doneStep := 1 } : Record).doneStep := by decide +kernel

theorem test_witness_Notices :
    (ctxOf runsQ 16 = some ctx0 ∧ runsQ.fatal = false ∧ ctx0.noticeAddr ≠ 0 ∧ ctx0.noticeBusy = 0 ∧ ctx0.noticeKept = 0 ∧
      running runsQ = true) ∧
    (ctxOf (withCtx runs 4194303 { ctx0 with noticeBusy := 1 }) 4194303 = some { ctx0 with noticeBusy := 1 } ∧
      ctxOf (withCtx runs 16 { ctx0 with noticeKept := 1 }) 16 = some { ctx0 with noticeKept := 1 } ∧
      ctxOf (withCtx runs 16 { ctx0 with noticeAddr := 0 }) 16 = some { ctx0 with noticeAddr := 0 }) ∧
    (({ ctx0 with pendingCnt := 1, noticeDelay := 1 } : QCtx).noticeDelay ≠ 0 ∧ noticeLate runsQ { ctx0 with pendingCnt := 1, noticeDelay := 1 } = true) ∧
    (({ ctx0 with noticeThresh := 2 } : QCtx).pendingCnt.toNat + 1 < ({ ctx0 with noticeThresh := 2 } : QCtx).noticeThresh.toNat) ∧
    (∀ u ∈ [Purpose.record 16 0 0 false false, .notice 16], ∃ a, (late u true 14).access 0 = some a ∧ a.purpose = u ∧
      (late u true 14).fatal = false ∧ a.toSend = 0 ∧ a.expiries + 1 < 16 ∧ isRecordWrite a.purpose = true) ∧
    (codeSeen 0 = 0 ∧ codeRetryable (codeSeen 0x1F) = true ∧ codeRetryable (codeSeen 0x20) = false ∧ codeSeen 0x20 ≠ 0 ∧
      runsQ.queues.contains 16 = true ∧ (late (.notice 16) true 14).errQ.length < 64) := by
  refine ⟨by decide +kernel, by decide +kernel, by decide +kernel, by decide +kernel, ?_, by decide +kernel⟩
  intro u hu
  simp only [List.mem_cons, List.not_mem_nil, or_false] at hu
  obtain rfl | rfl := hu
  all_goals exact ⟨_, rfl, by decide +kernel⟩

/-- An admin command of an opcode and a word 1, in a phase; RUN with it in progress, IID 1 in a state. -/
def cmd (op w1 : Nat) (ph : AdmPhase) : AdmCmd :=
  { newCmd runs [pack [(0, 8, op), (56, 8, 1)], BitVec.ofNat 64 w1, 0x3000, 0, 0, 0, 0, pack [(56, 8, 1)]] 0 none with phase := ph }
def commands (c : AdmCmd) (st : Nat) : State :=
  { serves1 with is0 := [(13, 1), (16 + 2, 16), (16 + 3, 0x00100010)].append (if st = 0 then [] else [(16 + 13, BitVec.ofNat 32 st)]),
                 adm := { serves1.adm with cmd := some c } }
/-- Queue 16 draining towards a target. -/
def drains (t : BitVec 2) : State := withCtx serves1 16 { ctx0 with state := qDraining, drainTo := t, prior := qActive, newHome := 15 }

theorem test_witness_InstanceDrains :
    (admRuns { serves1 with is0 := [(16 + 13, 2)] } = true ∧ ({ serves1 with is0 := [(16 + 13, 2)] } : State).instState 1 = 2 ∧
      instQuiet { serves1 with is0 := [(16 + 13, 2)] } 1 = true ∧ ({ serves1 with is0 := [(16 + 13, 2)] } : State).is0.wf = true ∧
      quiesceCmd { serves1 with is0 := [(16 + 13, 2)] } true 1 = none ∧ quiesceCmd { serves1 with is0 := [(16 + 13, 2)] } false 1 = none) ∧
    (quiesceCmd (commands (cmd 0x82 1 .waiting) 2) true 1 = some (cmd 0x82 1 .waiting) ∧ (cmd 0x82 1 .waiting).acks = [] ∧
      (cmd 0x82 1 .waiting).sender = none ∧ (commands (cmd 0x82 1 .waiting) 2).fed.remote = none ∧
      (commands (cmd 0x82 1 .waiting) 2).instState 1 = 2 ∧ instQuiet (commands (cmd 0x82 1 .waiting) 2) 1 = true ∧
      admRuns (commands (cmd 0x82 1 .waiting) 2) = true) ∧
    (∀ op ∈ [0x82, 0x89, 0x8A, 0x8B], ceilCmd (commands (cmd op 0x10000001 .waiting) 2) true = some (cmd op 0x10000001 .waiting)) ∧
    (∀ t : Fin 3, ctxOf (drains (BitVec.ofNat 2 t)) 16 =
        some { ctx0 with state := qDraining, drainTo := BitVec.ofNat 2 t, prior := qActive, newHome := 15 } ∧
      admRuns (drains (BitVec.ofNat 2 t)) = true ∧
      drained (drains (BitVec.ofNat 2 t)) 16 { ctx0 with state := qDraining, drainTo := BitVec.ofNat 2 t, prior := qActive, newHome := 15 } = true ∧
      (drains (BitVec.ofNat 2 t)).adm.cmd = none ∧ (drains (BitVec.ofNat 2 t)).fed.remote = none ∧
      (drains (BitVec.ofNat 2 t)).overrun.contains 16 = false ∧ (drains (BitVec.ofNat 2 t)).instState ctx0.iid.toNat < 2 ∧
      (drains (BitVec.ofNat 2 t)).fed.leaving.contains 16 = false ∧ chans (drains (BitVec.ofNat 2 t)) 16 = [] ∧
      fedState (drains (BitVec.ofNat 2 t)) ≠ 5) := by decide +kernel

/-- Admin queue 0 enabled in a state. -/
def adm (st : Nat) : State := (runs.wr .admQStat 0 (BitVec.ofNat 32 st)).wr .admPoll 0 1
/-- The same with a slot read, or a record, outstanding. -/
def admAsked (st : Nat) (u : Purpose) : State := withAcc (adm st) { acc0 u false with len := match u with | .admDoorbell => 8 | _ => 64 }
/-- A sound slot of a command. -/
def admWords (op : Nat) : Answer := good [pack [(0, 8, op), (56, 8, 1)], 0, 0, 0, 0, 0, 0, pack [(56, 8, 1)]]

theorem test_witness_AdminRecords :
    ((commands (cmd 0x90 0 .proofed) 1).adm.cmd = some (cmd 0x90 0 .proofed) ∧ (cmd 0x90 0 .proofed).sender = none ∧
      (cmd 0x90 0 .proofed).bad = none ∧ (cmd 0x90 0 .proofed).silent = false ∧ (commands (cmd 0x90 0 .proofed) 1).fatal = false ∧
      (commands (cmd 0x90 0 .proofed) 1).regs.wf = true ∧ admState ((commands (cmd 0x90 0 .proofed) 1).wr .admQStat 0 4) = 4) ∧
    (∀ st ∈ [1, 3], admRuns (adm st) = true ∧ admState (adm st) = st ∧ (adm st).adm.dbActive = false ∧ admPollNs (adm st) ≠ 0 ∧
      (adm st).adm.nextPoll ≤ (adm st).nomNs) ∧
    (∃ a, (admAsked 1 .admDoorbell).access a.aid = some a ∧ a.purpose = .admDoorbell ∧ (admAsked 1 .admDoorbell).fatal = false ∧
      CleanAnswer a zeros) ∧
    (admState (adm 1) = 1 ∧ (adm 1).adm.cmd = none ∧ (adm 1).adm.slotActive = false ∧ (adm 1).adm.rereadDue = none ∧
      bits (rec 16 0) 56 8 = (adm 1).fld .admQCtl 0 5 8 ∧ ((rec 16 0).setWidth 32 - (adm 1).adm.piSeen).toNat ≤ admDepth (adm 1) ∧
      ((rec 16 0).setWidth 32 - (adm 1).adm.q).toNat ≤ admDepth (adm 1) ∧ (rec 16 0).setWidth 32 ≠ (adm 1).adm.piSeen ∧
      (adm 1).adm.f ≠ (rec 16 0).setWidth 32 ∧ (adm 1).regs.wf = true) ∧
    (∃ a, (admAsked 2 .admSlot).access a.aid = some a ∧ a.purpose = .admSlot ∧ CleanAnswer a (admWords 0xB1) ∧
      admState (admAsked 2 .admSlot) = 2 ∧ (admAsked 2 .admSlot).regs.wf = true ∧
      dGen (wordsOfBytes (answerBytes a (admWords 0xB1))) = genOf (admDepth (admAsked 2 .admSlot)) (admAsked 2 .admSlot).adm.f ∧
      dSeal (wordsOfBytes (answerBytes a (admWords 0xB1))) = genOf (admDepth (admAsked 2 .admSlot)) (admAsked 2 .admSlot).adm.f ∧
      admProofCause (wordsOfBytes (answerBytes a (admWords 0xB1))) = 0 ∧ admProofCause (wordsOfBytes (answerBytes a (admWords 0x01))) ≠ 0 ∧
      dGen (wordsOfBytes (answerBytes a zeros)) ≠ genOf (admDepth (admAsked 2 .admSlot)) (admAsked 2 .admSlot).adm.f ∧
      (admAsked 2 .admSlot).adm.reread < tornCeil (admAsked 2 .admSlot)) ∧
    (({ adm 2 with adm := { (adm 2).adm with rereadDue := some 0 } } : State).adm.rereadDue = some 0 ∧ 0 ≤ (adm 2).nomNs) ∧
    (∃ a, (admAsked 2 (.admRecord 0)).access a.aid = some a ∧ a.purpose = .admRecord 0) ∧
    (admNoticeAddr ((adm 1).wr .admNoticeLo 0 8) ≠ 0 ∧ ((adm 1).wr .admNoticeLo 0 8).adm.noticeBusy = false) := by
  refine ⟨by decide +kernel, by decide +kernel, ⟨{ acc0 .admDoorbell false with len := 8 }, rfl, rfl,
    rfl, by unfold CleanAnswer; decide +kernel⟩, by decide +kernel, ⟨acc0 .admSlot false, rfl, rfl, by unfold CleanAnswer; decide +kernel,
    by decide +kernel⟩, by decide +kernel, ⟨acc0 (.admRecord 0) false, rfl, rfl⟩, by decide +kernel⟩

/-- A proofed command of words 0 to 3. -/
def cmdOf4 (w0 w1 w2 w3 : Nat) : AdmCmd :=
  { cmd 0 0 .proofed with words := [BitVec.ofNat 64 w0, BitVec.ofNat 64 w1, BitVec.ofNat 64 w2, BitVec.ofNat 64 w3, 0, 0, 0, 0] }
/-- The same with the command's image or list read. -/
def listed (op w1 st : Nat) : State := withAcc (commands (cmd op w1 (.image [])) st) (acc0 (.admImage 0) false)
/-- An image that claims n queues. -/
def image (n : Nat) : Answer := good [0, BitVec.ofNat 64 (n * 2 ^ 32 + 64), 0, 0, 0, 0, 0, 0]
/-- The same command in a state whose queues are gone. -/
def empties (op w1 st : Nat) : State := { commands (cmd op w1 .proofed) st with queues := [], ways := [] }

theorem test_witness_InstanceCommands :
    ((∀ op ∈ [0x80, 0x81, 0x84], ∀ iid ∈ [1, 4095], ∀ st ∈ [0, 1, 5], Proofed (commands (cmd op iid .proofed) st) op (cmd op iid .proofed)) ∧
      (commands (cmd 0x80 1 .proofed) 0).instState 1 = 0 ∧ (commands (cmd 0x80 1 .proofed) 5).instState 1 = 5 ∧
      (commands (cmd 0x80 4095 .proofed) 1).instState 4095 = 0) ∧
    (∀ op ∈ [0x80, 0x81], ∃ a, (listed op 1 0).access a.aid = some a ∧ a.purpose = .admImage 0 ∧ (listed op 1 0).fatal = false ∧
      CleanAnswer a (image 32768) ∧ CleanAnswer a (image 32769) ∧ (listed op 1 0).adm.cmd = some (cmd op 1 (.image [])) ∧
      (listRange (cmd op 1 (.image []))).2 ≤ ([] ++ answerBytes a (image 32768)).length ∧ fedOthers (listed op 1 0) = [] ∧
      (listed op 1 0).is0.wf = true ∧
      (List.range 16).find? (fun w => imageBad { cmd op 1 (.image []) with
        image := wordsOfBytes ([] ++ answerBytes a (image 32768)), items := [] } w) = none ∧
      imageClash (listed op 1 0) { cmd op 1 (.image []) with image := wordsOfBytes ([] ++ answerBytes a (image 32768)), items := [] } = false ∧
      (List.range 16).find? (fun w => imageBad { cmd op 1 (.image []) with
        image := wordsOfBytes ([] ++ answerBytes a (image 32769)), items := [] } w) = some 3) ∧
    (codeSeen 0x20 ≠ 0 ∧ codeRetryable (codeSeen 0x20) = false) ∧
    (Proofed (empties 0x82 1 1) 0x82 (cmd 0x82 1 .proofed) ∧ cFlag (cmd 0x82 1 .proofed) 0 = false ∧ (empties 0x82 1 1).instState 1 = 1 ∧
      ownQueues (empties 0x82 1 1) 1 = [] ∧ (empties 0x82 1 1).is0.wf = true) ∧
    (∀ st ∈ [1, 5], Proofed (commands (cmdOf4 0x10082 1 0 0) st) 0x82 (cmdOf4 0x10082 1 0 0) ∧ cFlag (cmdOf4 0x10082 1 0 0) 0 = true ∧
      (commands (cmdOf4 0x10082 1 0 0) st).instState 1 = st) ∧
    (∀ st ∈ [2, 3], Proofed (empties 0x83 1 st) 0x83 (cmd 0x83 1 .proofed) ∧ (empties 0x83 1 st).instState 1 = st ∧
      instRuns (empties 0x83 1 st) 1 = false ∧ instRecords (empties 0x83 1 st) 1 = false ∧ (∀ x ∈ (empties 0x83 1 st).slots, x.iid ≠ 1) ∧
      (∀ m ∈ (empties 0x83 1 st).moving, m.2.squashed = false) ∧ underCeil (empties 0x82 1 1) (cmd 0x82 1 .proofed) ≠ cmd 0x82 1 .proofed ∧
      (empties 0x83 1 st).fed.remote = none ∧ (empties 0x83 1 st).is0.wf = true) ∧
    (∀ op ∈ [0x84, 0x85], ∀ st ∈ [1, 3], Proofed (empties op 1 st) op (cmd op 1 .proofed) ∧ (empties op 1 st).instState 1 = st ∧
      instInFlight (empties op 1 st) 1 = 0 ∧ (empties op 1 st).polls.any (fun p => p.iid == 1) = false ∧
      instQueues (empties op 1 st) 1 = [] ∧ logOn (empties op 1 st) 1 = false ∧ (empties op 1 st).is0.wf = true) := by
  refine ⟨by unfold Proofed; decide +kernel, ?_, by decide +kernel, by unfold Proofed; decide +kernel, by unfold Proofed; decide +kernel,
    by unfold Proofed; decide +kernel, by unfold Proofed; decide +kernel⟩
  intro op h
  simp only [List.mem_cons, List.not_mem_nil, or_false] at h
  obtain rfl | rfl := h
  all_goals exact ⟨acc0 (.admImage 0) false, rfl, rfl, rfl, by unfold CleanAnswer; decide +kernel⟩

/-- Queue 16 of IID 1 in a state of its own, and a queue command on it in progress. -/
def queueCmd (w1 : Nat) (op : Nat) (q : BitVec 3) : State :=
  withCtx { commands (cmd op w1 .proofed) 1 with queues := [], ways := [] } 16 { ctx0 with iid := 1, state := q }

theorem test_witness_QueueCommands :
    (∀ lq ∈ [0, 15], Proofed (empties 0x88 (1 + lq * 4096) 1) 0x88 (cmd 0x88 (1 + lq * 4096) .proofed) ∧
      (empties 0x88 (1 + lq * 4096) 1).instState 1 = 1 ∧
      (empties 0x88 (1 + lq * 4096) 1).queues.contains (newQid (empties 0x88 (1 + lq * 4096) 1) (cmd 0x88 (1 + lq * 4096) .proofed)) = false ∧
      bits (wd (cmd 0x88 (1 + lq * 4096) .proofed).words 1) 31 4 ≤ 12 ∧
      0x3000 % (64 * 2 ^ (bits (wd (cmd 0x88 (1 + lq * 4096) .proofed).words 1) 31 4 + 4)) = 0 ∧
      bits (wd (cmd 0x88 (1 + lq * 4096) .proofed).words 1) 12 15 <
        min ((empties 0x88 (1 + lq * 4096) 1).instFld 1 3 16 16) (qidSpan (empties 0x88 (1 + lq * 4096) 1) 1) ∧
      freeWay (empties 0x88 (1 + lq * 4096) 1) (newQid (empties 0x88 (1 + lq * 4096) 1) (cmd 0x88 (1 + lq * 4096) .proofed)) = some 0) ∧
    (∀ lg ∈ [3, 13], Proofed (empties 0x88 (1 + lg * 2 ^ 31) 1) 0x88 (cmd 0x88 (1 + lg * 2 ^ 31) .proofed) ∧
      (empties 0x88 (1 + lg * 2 ^ 31) 1).instState 1 = 1 ∧
      (empties 0x88 (1 + lg * 2 ^ 31) 1).queues.contains (newQid (empties 0x88 (1 + lg * 2 ^ 31) 1) (cmd 0x88 (1 + lg * 2 ^ 31) .proofed)) = false ∧
      bits (wd (cmd 0x88 (1 + lg * 2 ^ 31) .proofed).words 1) 31 4 = lg ∧ 0x3000 % (64 * 2 ^ (3 + 4)) ≠ 0) ∧
    (Proofed (empties 0x88 1 0) 0x88 (cmd 0x88 1 .proofed) ∧ (empties 0x88 1 0).instState 1 = 0) ∧
    (∀ op ∈ [0x89, 0x8A, 0x8B], ∀ req ∈ [0, 2], ∀ q : Fin 4, ∀ c ∈ [cmd op (16 + req * 2 ^ 28) .proofed],
      Proofed (queueCmd (16 + req * 2 ^ 28) op (BitVec.ofNat 3 q)) op c ∧ cQid c = 16 ∧
      (queueCmd (16 + req * 2 ^ 28) op (BitVec.ofNat 3 q)).queues.contains 16 = true ∧
      homedAway (queueCmd (16 + req * 2 ^ 28) op (BitVec.ofNat 3 q)) 16 = false ∧
      ctxOf (queueCmd (16 + req * 2 ^ 28) op (BitVec.ofNat 3 q)) 16 = some { ctx0 with iid := 1, state := BitVec.ofNat 3 q } ∧
      bits (wd c.words 1) 28 2 = req ∧ chans (queueCmd (16 + req * 2 ^ 28) op (BitVec.ofNat 3 q)) 16 = []) ∧
    (qIdle ≠ qPaused ∧ qIdle ≠ qDraining) ∧
    (Proofed (empties 0x8A 4194303 1) 0x8A (cmd 0x8A 4194303 .proofed) ∧ (empties 0x8A 4194303 1).queues.contains 4194303 = false) ∧
    (outOfService ((queueCmd 16 0x8B qIdle).wr .cluMirrorStat 0 16) 0 = true ∧ outOfService (queueCmd 16 0x8B qIdle) 15 = false ∧
      Proofed ((queueCmd 16 0x8B qIdle).wr .cluMirrorStat 0 16) 0x8B (cmd 0x8B 16 .proofed)) := by
  refine ⟨by unfold Proofed; decide +kernel, by unfold Proofed; decide +kernel, by unfold Proofed; decide +kernel,
    by unfold Proofed; decide +kernel, by decide +kernel, by unfold Proofed; decide +kernel, by unfold Proofed; decide +kernel⟩

/-- A list of n items of 16 B whose words repeat one item. -/
def items (a d : W64) : Answer := good [a, d, a, d, a, d, a, d]
/-- STAGE, COMMIT or EVM_UPDATE of a list of four items, its list read. -/
def lists (op w2 : Nat) : State :=
  withAcc (commands { cmdOf4 op 0x1000 w2 0 with phase := .image [] } 1) (acc0 (.admImage 0) false)
/-- A COMMIT of one item that waits for a quiet point. -/
def waitsQuiet (xs : List (W64 × W64)) : State :=
  commands { cmdOf4 0x91 0 0 0 with phase := .quietPoint, items := xs, clusters := [0] } 1
/-- An item for word 8 (group 4) of IID 1. -/
def item1 : W64 × W64 := (pack [(0, 32, 16 + 8), (32, 4, 1)], pack [(0, 32, 5), (32, 32, 0xFF)])

theorem test_witness_StagedCommands :
    ((∀ op ∈ [0x90, 0x91, 0xA0, 0x10091], Proofed (commands (cmdOf4 op 0x1000 3 0) 1) (op % 256) (cmdOf4 op 0x1000 3 0)) ∧
      cFlag (cmdOf4 0x10091 0x1000 3 0) 0 = true ∧ cFlag (cmdOf4 0x91 0x1000 3 0) 0 = false ∧
      ({ commands (cmdOf4 0x90 0x1000 3 0) 1 with staged := List.replicate 252 item1 } : State).staged.length + (bits (3 : W64) 0 8 + 1) = 256 ∧
      256 < ({ commands (cmdOf4 0x90 0x1000 3 0) 1 with staged := List.replicate 253 item1 } : State).staged.length + (bits (3 : W64) 0 8 + 1)) ∧
    (∀ op ∈ [0x90, 0xA0], (lists op 3).access 0 = some (acc0 (.admImage 0) false) ∧ (lists op 3).fatal = false ∧
      CleanAnswer (acc0 (.admImage 0) false) (items item1.1 item1.2) ∧
      CleanAnswer (acc0 (.admImage 0) false) (items (pack [(32, 4, 3)]) 0) ∧
      (listRange { cmdOf4 op 0x1000 3 0 with phase := .image [] }).2 ≤
        ([] ++ answerBytes (acc0 (.admImage 0) false) (items item1.1 item1.2)).length) ∧
    (firstBadItem (lists 0x90 3) false [] 0 (itemsOf ([] ++ answerBytes (acc0 (.admImage 0) false) (items item1.1 item1.2))) = none ∧
      (firstBadItem (lists 0x90 3) false [] 0 (itemsOf ([] ++ answerBytes (acc0 (.admImage 0) false) zeros))).isSome = true ∧
      firstBadItem (lists 0xA0 3) true [] 0
        (itemsOf ([] ++ answerBytes (acc0 (.admImage 0) false) (items (pack [(32, 4, 3)]) 0))) = none ∧
      itemsOf ([] ++ answerBytes (acc0 (.admImage 0) false) (items (pack [(32, 4, 3)]) 0)) ≠ [] ∧
      (itemsOf ([] ++ answerBytes (acc0 (.admImage 0) false) (items (pack [(32, 4, 3)]) 0))).all itemEvm = true) ∧
    ((firstStale (commands (cmdOf4 0x91 0 0 0) 0) 0 [item1]).isSome = true ∧ firstStale (commands (cmdOf4 0x91 0 0 0) 1) 0 [] = none ∧
      (commands (cmdOf4 0x91 0 0 0) 1).staged = [] ∧ (commands (cmdOf4 0x91 0 0 0) 1).regs.wf = true) ∧
    (∃ c, commitWaiting (waitsQuiet [item1]) true = some c ∧ quietNow (waitsQuiet [item1]) c = true ∧ c.due ≤ (waitsQuiet [item1]).nomNs ∧
      c.sender = none ∧ c.acks = [] ∧ c.items = [item1] ∧ itemSpace item1 = 1 ∧ (waitsQuiet [item1]).is0.wf = true) := by
  refine ⟨by unfold Proofed; decide +kernel, by unfold CleanAnswer; decide +kernel, by decide +kernel, by decide +kernel,
    ⟨_, rfl, by decide +kernel⟩⟩

/-- Dirty log of IID 1 on. -/
def logged (op : Nat) : State := { empties op 1 1 with is0 := (empties op 1 1).is0.put (16 + 13) 9 }

theorem test_witness_OtherCommands :
    (Proofed (empties 0x98 1 1) 0x98 (cmd 0x98 1 .proofed) ∧ (empties 0x98 1 1).instState 1 ≠ 0 ∧ logOn (empties 0x98 1 1) 1 = false ∧
      (empties 0x98 1 1).is0.wf = true ∧ 0x3000 % 4096 = 0) ∧
    (∀ op ∈ [0x98, 0x99, 0x9A], Proofed (logged op) op (cmd op 1 .proofed) ∧ (logged op).instState 1 ≠ 0 ∧ logOn (logged op) 1 = true ∧
      (logged op).is0.wf = true ∧ (logged op).sweep.contains 1 = false ∧ (∀ r ∈ (logged op).dirtyQ, r.iid ≠ 1) ∧ (logged op).acc = [] ∧
      (logged op).held = []) ∧
    (∀ f ∈ [0, 1, 2, 4, 7], Proofed (commands (cmdOf4 (0xA8 + f * 65536) 5 0x10000 0) 1) 0xA8 (cmdOf4 (0xA8 + f * 65536) 5 0x10000 0) ∧
      (commands (cmdOf4 (0xA8 + f * 65536) 5 0x10000 0) 1).regs.wf = true) ∧
    (∀ f ∈ [0, 4, 2, 3], Proofed ((empties 0xB0 3 1).wr .fedStat 0 (BitVec.ofNat 32 (f * 4))) 0xB0 (cmd 0xB0 3 .proofed) ∧
      fedState ((empties 0xB0 3 1).wr .fedStat 0 (BitVec.ofNat 32 (f * 4))) = f ∧
      ((empties 0xB0 3 1).wr .fedStat 0 (BitVec.ofNat 32 (f * 4))).regs.wf = true) ∧
    (Proofed ((empties 0xB1 3 1).wr .fedStat 0 40) 0xB1 (cmd 0xB1 3 .proofed) ∧ fedState ((empties 0xB1 3 1).wr .fedStat 0 40) = 2 ∧
      (empties 0xB1 3 1).mode = .run ∧
      (members ((empties 0xB1 3 1).wr .fedStat 0 40)).any (fun m => decide (m ≠ ownMember ((empties 0xB1 3 1).wr .fedStat 0 40))) = false ∧
      fedState (empties 0xB1 3 1) ≠ 2 ∧ Proofed (empties 0xB1 3 1) 0xB1 (cmd 0xB1 3 .proofed)) ∧
    (Proofed (empties 0xB8 3 1) 0xB8 (cmd 0xB8 3 .proofed) ∧ Proofed { empties 0xB8 3 1 with mode := .configure } 0xB8 (cmd 0xB8 3 .proofed)) ∧
    (∀ set ∈ [0, 1, 2], Proofed (commands (cmdOf4 0xB9 0x1000 (1 + set * 4096) 0) 1) 0xB9 (cmdOf4 0xB9 0x1000 (1 + set * 4096) 0) ∧
      bits (wd (cmdOf4 0xB9 0x1000 (1 + set * 4096) 0).words 2) 12 4 = set ∧
      (commands (cmdOf4 0xB9 0x1000 (1 + set * 4096) 0) 1).instState 1 = 1) := by
  refine ⟨by unfold Proofed; decide +kernel, by unfold Proofed; decide +kernel, by unfold Proofed; decide +kernel,
    by unfold Proofed; decide +kernel, by unfold Proofed; decide +kernel, by unfold Proofed; decide +kernel, by unfold Proofed; decide +kernel⟩

/-- A sound protected write of a register by agent 0, and a sound read by an agent. -/
def put (r : Reg) (i : Nat) (v : W32) : RegWrite := { agent := 0, offset := r.addr i, data := v, prot := true, parityOk := true }
def ask (agent offset : Nat) : RegRead := { agent := agent, offset := offset, prot := false, parityOk := true }
/-- Pair p is held by an agent; its WORD, SPACE and STRIDE. -/
def paired (p agent a : Nat) : State := (runs.wr .regIndClaim p (BitVec.ofNat 32 (4 + agent))).wr .regIndAddr p (BitVec.ofNat 32 a)

theorem test_witness_RegisterWrites :
    (portTakes runs = true ∧ writeCode runs { put .clkGate 0 0 with parityOk := false } ≠ 0) ∧
    (Written (runs.wr .regLock 0 1) (put .clkMuxCtl 0 9) .clkMuxCtl 0 ∧ Reg.clkMuxCtl.sBits = 0 ∧ Reg.clkMuxCtl.pBits ≠ 0 ∧
      Reg.clkMuxCtl.base ≠ Reg.regIndClaim.base ∧
      dropReason (runs.wr .regLock 0 1) .clkMuxCtl ((runs.wr .regLock 0 1).stored .clkMuxCtl 0)
        (Reg.clkMuxCtl.merge ((runs.wr .regLock 0 1).stored .clkMuxCtl 0) 9) 9 = 2) ∧
    (Written runs (put .clkMuxCtl 0 9) .clkMuxCtl 0 ∧ actionRegs.contains Reg.clkMuxCtl.base = false ∧
      dropReason runs .clkMuxCtl (runs.stored .clkMuxCtl 0) (Reg.clkMuxCtl.merge (runs.stored .clkMuxCtl 0) 9) 9 = 0 ∧
      runs.regs.wf = true ∧ runs.evm.regs.wf = true) ∧
    (Written runs (put .evmSetOwner 7 9) .evmSetOwner 7 ∧ Reg.evmSetOwner.sBits = 0 ∧
      dropReason runs .evmSetOwner (runs.stored .evmSetOwner 7) (Reg.evmSetOwner.merge (runs.stored .evmSetOwner 7) 9) 9 = 0) ∧
    (Written (runs.wr .regErr 0 0x05000003) (put .regErr 0 0x05000001) .regErr 0 ∧ Reg.regErr.sBits ≠ 0 ∧
      bits (0x05000001 : W32) 24 8 = bits ((runs.wr .regErr 0 0x05000003).rd .regErr 0) 24 8 ∧
      bits (0x06000001 : W32) 24 8 ≠ bits ((runs.wr .regErr 0 0x05000003).rd .regErr 0) 24 8) ∧
    (Written runs (put .errFatal 0 0) .errFatal 0 ∧ bits (0 : W32) 24 8 = bits (runs.rd .errFatal 0) 24 8) := by
  unfold Written; decide +kernel

theorem test_witness_RegisterReads :
    (∀ a : Fin 3, ∀ off ∈ [Reg.regErr.addr 0, Reg.clkGate.addr 0, 0x0FFC], ReadTaken runs (ask a off) ∧
      reaches' off .telTbLo = false ∧ reaches' off .regIndData = false) ∧
    (reachesS (canonOffset (Reg.regErr.addr 0)) = true ∧ reachesS (canonOffset (Reg.clkGate.addr 0)) = false) ∧
    (portTakes runs = true ∧ readCode runs { ask 0 Reg.regErr.base with parityOk := false } ≠ 0) ∧
    (∀ p : Fin 4, ReadTaken (paired p 2 0) (ask 2 (Reg.regIndData.addr p)) ∧ dataPair (canonOffset (Reg.regIndData.addr p)) = some p ∧
      (paired p 2 0).regs.wf = true) ∧
    (∀ p : Fin 4, ∀ w ∈ [0, 65532], Written (paired p 0 w) (put .regIndData p 5) .regIndData p ∧ indSpace (paired p 0 w) p = 0 ∧
      indWord (paired p 0 w) p = w ∧ w < 65536 ∧ w % 16 < 13 ∧ setupLocked (paired p 0 w) = false) ∧
    (∀ w ∈ [0, 65532], Written { paired 0 0 w with mode := .configure } (put .regIndData 0 5) .regIndData 0 ∧
      refusing { paired 0 0 w with mode := .configure } = false ∧ (paired 0 0 w).is0.wf = true) := by
  unfold Written ReadTaken; decide +kernel

theorem test_witness_TimebaseReads :
    ∀ a : Fin 3, ReadTaken runs (ask a (Reg.telTbLo.addr 0)) ∧ reaches' (Reg.telTbLo.addr 0) .telTbLo = true ∧
      ReadTaken { runs with tbLatch := [(a.val, 7)] } (ask a (Reg.telTbHi.addr 0)) ∧ reaches' (Reg.telTbHi.addr 0) .telTbHi = true ∧
      assocGet ({ runs with tbLatch := [(a.val, 7)] } : State).tbLatch a = some 7 := by
  unfold ReadTaken; decide +kernel

theorem test_witness_LockSetup :
    (∃ t, exec .rstNFall runs = .next t) ∧
    (portTakes runs = true ∧ reaches' (Reg.regLock.addr 0) .regLock = true ∧ runs.fatal = false ∧ runs.mode ≠ .bringup ∧ runs.mode ≠ .rest) ∧
    (Written runs (put .regLock 0 1) .regLock 0 ∧ setupLocked runs = false ∧ bit (1 : W32) 0 = true) ∧
    (Written (runs.wr .regLock 0 1) (put .regLock 0 1) .regLock 0 ∧ setupLocked (runs.wr .regLock 0 1) = true ∧
      (runs.wr .regLock 0 1).regs.wf = true) ∧
    (Written runs (put .regLock 0 0) .regLock 0 ∧ bit (0 : W32) 0 = false) :=
  ⟨⟨_, rfl⟩, by decide +kernel, by unfold Written; decide +kernel, by unfold Written; decide +kernel, by unfold Written; decide +kernel⟩

theorem test_witness_PairClaims :
    ∀ p : Fin 4,
      (Written runs (put .regIndClaim p 4) .regIndClaim p ∧ runs.regs.wf = true ∧ bit (runs.rd .regIndClaim p) 2 = false ∧
        bit (4 : W32) 2 = true ∧ bits (4 : W32) 0 2 = 0) ∧
      (Written (paired p 0 0) (put .regIndClaim p 0) .regIndClaim p ∧ (paired p 0 0).regs.wf = true ∧ holds (paired p 0 0) p 0 = true ∧
        bit (0 : W32) 2 = false) ∧
      (Written (paired p 2 0) (put .regIndClaim p 0) .regIndClaim p ∧ (paired p 2 0).regs.wf = true ∧ holds (paired p 2 0) p 0 = false ∧
        bit ((paired p 2 0).rd .regIndClaim p) 2 = true) := by
  unfold Written; decide +kernel

theorem test_witness_RegisterFaults :
    (portTakes runs = true ∧ runs.fatal = false ∧ runs.errQ.length < 64 ∧ awake runs ∧ runs.regs.wf = true ∧ runs.is0.wf = true) ∧
    (∀ t ∈ [Reg.clkMuxCtl.addr 0, Reg.tstCtl.addr 0, 0x10000, 0x1FFFC, 0x20000, 0x20FFF, 0x30000, 0x30FFF], (targetOf t).isSome = true) ∧
    (Reg.clkMuxCtl.addr 0 / 0x1000 = 1 ∧ Reg.tstCtl.addr 0 / 0x1000 = 7 ∧
      targetOf 0x10000 = some (.is0 0) ∧ targetOf 0x1FFFC = some (.is0 65532)) ∧
    (∀ a : Fin 3, ∀ p : Fin 4, runs.fld .admQStat 0 4 2 = 0 ∧ (a.val ≠ 0 → runs.fld .admQStat 0 4 2 ≠ a) ∧ holds (paired p a 0) p a = true) := by
  unfold awake; decide +kernel

/-- A write of data that nothing keeps from register r's instance i. -/
def takes (s : State) (r : Reg) (i : Nat) (v : W32) : Prop :=
  Written s (put r i v) r i ∧ dropReason s r (s.stored r i) (r.merge (s.stored r i) v) v = 0 ∧ s.regs.wf = true ∧ s.evm.regs.wf = true
/-- The admin queue enabled in CONFIGURE, with a command in progress or none. -/
def queueOn (c : Option AdmCmd) (st : Nat) : State :=
  { (State.reset.wr .admQCtl 0 0x100010).wr .admQStat 0 (BitVec.ofNat 32 st) with mode := .configure, adm := { State.reset.adm with cmd := c } }
/-- The admin queue disabled in CONFIGURE; an admin command. -/
def disabled : State := { State.reset with mode := .configure }
def admCmd0 : AdmCmd := newCmd State.reset [] 0 none
/-- A HELD member 0 that hears member 3 at epoch 9. -/
def member3 : Member :=
  { num := 3, heardAt := some 0, listedAt := none, readAt := none, witness := none, silent := false, adoptAt := none, epoch := 9, hash := 0,
    state := 2, manifest := true }
def heldBack : State := ({ runs with fed := { runs.fed with members := [member3], hash := 0 } } : State).wr .fedStat 0 12

/-- PLL A in a state, B in another; a clock of domain d that hangs. -/
def pllsIn (a b : Nat) : State := runs.wr .clkStat 0 (BitVec.ofNat 32 (a + 8 * b))
def hangs (d : Nat) : State := { pllsIn 2 3 with muxes := [{ domain := d, since := 0, ceil := 64 }], nomNs := 640 }

theorem test_witness_SystemWrites :
    (takes disabled .admQCtl 0 0x100010 ∧ bit (0x100010 : W32) 20 = true ∧ bit (0x100010 : W32) 4 = true ∧
      bit (disabled.rd .admQCtl 0) 4 = false) ∧
    (∀ st ∈ [1, 3], ∀ c ∈ [none, some admCmd0], takes (queueOn c st) .admQCtl 0 0x100000 ∧ bit (0x100000 : W32) 4 = false ∧
      bit ((queueOn c st).rd .admQCtl 0) 4 = true ∧ admState (queueOn c st) = st) ∧
    takes runs .telTbAdj 0 0xFFFFFFFF ∧ takes runs .telTbRate 0 0x10001 ∧
    (takes runs .clkPllCmd 0 0x30003 ∧ runs.rd .clkPllCmd 0 = 0) ∧
    (takes (runs.wr .pwrStat 0 3) .pwrCtl 0 2 ∧ (runs.wr .pwrStat 0 3).pchange = none ∧ (runs.wr .pwrStat 0 3).restEnter ≠ 2 ∧
      ackLate (runs.wr .pwrStat 0 3) = false ∧ bits (2 : W32) 0 2 < inForce (runs.wr .pwrStat 0 3) ∧ reqLevel (runs.wr .pwrStat 0 3) ≠ 2) ∧
    (takes (runs.wr .pwrStat 0 0) .pwrCtl 0 3 ∧ inForce (runs.wr .pwrStat 0 0) < bits (3 : W32) 0 2 ∧
      takes { runs with pchange := some { target := 1, up := true, due := 9, late := false, held := false } } .pwrCtl 0 3) ∧
    (takes (hangs 17) .pwrCtl 0 2 ∧ (hangs 17).pchange = none ∧ (hangs 17).restEnter ≠ 2 ∧ cluSwitching (hangs 17) = true ∧
      inForce (hangs 17) ≠ 2 ∧ cluSwitching (runs.wr .pwrStat 0 0) = false) ∧
    takes runs .clkGate 0 0x1FF8001 ∧ (takes runs .cluEccInj 0 1 ∧ takes runs .cluEccInj 15 1) ∧
    (takes heldBack .fedResync 0 9 ∧ fedState heldBack = 3 ∧ heardPeers heldBack ≠ [] ∧
      (9 : W32).toNat = (heardPeers heldBack).foldl (fun m x => max m x.epoch.toNat) 0 ∧
      ∀ x ∈ heardPeers heldBack, x.epoch.toNat = (9 : W32).toNat → x.hash = heldBack.fed.hash) ∧
    (takes runs .fedResync 0 9 ∧ fedState runs ≠ 3) := by
  refine ⟨?_, ?_, ?_, ?_, ?_, ?_, ?_, ?_, ?_, ?_, ?_, ?_⟩
  all_goals unfold takes Written; decide +kernel

/-- TEST, with runs of the test unit, unit u in PRBS with generator, checker and INJ. -/
def tests (u : Nat) : State := ({ runs with mode := .test } : State).wr .tstCtl 0 1 |>.wr .tstUnitCtl u 0x61

theorem test_witness_UnitWrites :
    takes runs .evmWflag 0 0x10001 ∧ (takes runs .evmLineCtl 0 0xFFFF0001 ∧ takes runs .evmLineCtl 127 1) ∧
    (takes runs .dbgMemCtl 0 0x800400 ∧ bit (0x800400 : W32) 23 = true) ∧
    (takes runs .dbgPoll 0 0x1001 ∧ bit (0x1001 : W32) 12 = true ∧ runs.instState 1 = 0 ∧ serves1.instState 1 ≠ 0 ∧
      takes { serves1 with mode := .configure } .dbgPoll 0 0x1001 ∧ canPoll { serves1 with mode := .configure } 1 = false) ∧
    (takes { runs with mode := .configure } .glbMode 0 0x300 ∧ takes runs .glbMode 0 0x200 ∧ takes { runs with mode := .configure } .glbMode 0 0x500 ∧
      takes runs .glbMode 0 0x300 ∧ runs.ways.any (fun x => x.dirty) = false ∧ bits (0x300 : W32) 8 3 = runs.mode.code) ∧
    (Written { runs with modeNext := some .configure } (put .glbMode 0 0x300) .glbMode 0 ∧
      setupLocked { runs with modeNext := some .configure } = false ∧ modeReqBusy { runs with modeNext := some .configure } 3 = true) ∧
    (takes (tests 0) .tstMbistCtl 0 0x110000 ∧ (tests 0).mode = .test) ∧
    (takes (tests 0) .tstCtl 0 0 ∧ takes ((tests 0).wr .tstCtl 0 0) .tstCtl 0 1 ∧ takes (tests 0) .tstCtl 0 1) ∧
    (∀ u ∈ [0, 15], takes (tests u) .tstUnitCtl u 0xE1 ∧ bits (0xE1 : W32) 0 7 = bits ((tests u).rd .tstUnitCtl u) 0 7 ∧
      unitRuns (tests u) u = true ∧ bits (0xE1 : W32) 0 3 = 1 ∧ (tests u).suspect.contains 26 = false ∧ unitMode (tests u) u = 1 ∧
      unitGen (tests u) u = true ∧ unitChk (tests u) u = true ∧ (tunitOf (tests u) u).gen = (tunitOf (tests u) u).chk ∧ (tests u).regs.wf = true) ∧
    (∀ u ∈ [0, 18], takes { runs with mode := .configure } .tstUnitCtl u 0x98 ∧ bits (0x98 : W32) 0 7 = bits (runs.rd .tstUnitCtl u) 0 7 ∧ bit (0x98 : W32) 7 = true) ∧
    ({ tests 0 with mbist := some (0x30000, true) }).mbist = some (0x30000, true) ∧
    (∀ u ∈ [16, 18], linkChecks (tests u) u = true ∧ linkChecks (runs.wr .fedLinkStat (u - 16) 2) u = true ∧
      bit (((tests u).wr .tstUnitStat u 1).rd .tstUnitStat u) 0 = true ∧ linkChecks ((tests u).wr .tstUnitStat u 1) u = true) := by
  refine ⟨?_, ?_, ?_, ?_, ?_, ?_, ?_, ?_, ?_, ?_, rfl, ?_⟩
  all_goals first | unfold takes Written; decide +kernel | unfold Written; decide +kernel | decide +kernel

/-- A change of level to 1 that waits for its toggle. -/
def changes (up : Bool) : State :=
  { runs.wr .pwrCtl 0 1 with pchange := some { target := 1, up := up, due := 0, late := false, held := false } }
/-- One that waits for a hung switch of domain d. -/
def heldFor (d : Nat) : State := { hangs d with pchange := some { target := 1, up := false, due := 0, late := false, held := true } }

theorem test_witness_ClockMonitors :
    (∀ a ∈ [1, 2, 3], awake (pllsIn a 3) ∧ pllState (pllsIn a 3) false = a ∧ (pllsIn a 3).regs.wf = true) ∧
    (pllState (pllsIn 2 3) true = 3 ∧ curSource (pllsIn 1 3) = 0 ∧ curSource (pllsIn 1 2) ≠ 0) ∧
    (switchWaits (changes true) 17 = true ∧ switchWaits (changes true) 18 = false ∧ switchWaits runs 2 = false ∧
      17 ∈ domainsOn (changes true) 0) ∧
    (∀ n : Fin 3, (pllOf ({ pllsIn 1 3 with plls := ({ due := 9, clean := n, tripped := false }, { due := 9, clean := 0, tripped := false }) }) false).clean + 1 < 4) ∧
    (pllOf ({ pllsIn 1 3 with plls := ({ due := 0, clean := 3, tripped := false }, { due := 9, clean := 0, tripped := false }) }) false).clean + 1 = 4 ∧
    ((pllOf ({ pllsIn 1 3 with plls := ({ due := 0, clean := 3, tripped := false }, { due := 9, clean := 0, tripped := false }) }) false).due ≤ (pllsIn 1 3).nomNs ∧
      runs.fld .clkPllCtl 0 0 4 = 8 ∧ 5112 ≤ 5120 + max 1 8 ∧ 5120 ≤ 5112 + max 1 8 ∧ ¬(5120 ≤ 5111 + max 1 8) ∧ runs.errQ = []) ∧
    (∀ d ∈ [1, 2, 17, 18, 20, 22, 26, 27], ∃ x, (hangs d).muxes.find? (fun y => y.domain == d) = some x ∧ awake (hangs d) ∧
      (hangs d).regs.wf = true ∧ (hangs d).errQ.length < 64 ∧ ∀ e ∈ (hangs d).errQ, e.code ≠ 0x38) ∧
    (runs.muxes.any (fun x => x.domain == 27) = false) := by
  refine ⟨by unfold awake; decide +kernel, by decide +kernel, by decide +kernel, by decide +kernel, by decide +kernel, by decide +kernel, ?_,
    by decide +kernel⟩
  intro d h
  refine ⟨{ domain := d, since := 0, ceil := 64 }, ?_, ?_⟩
  · simp [hangs]
  · revert d; unfold awake; decide +kernel

theorem test_witness_PowerLevels :
    (awake runs ∧ runs.pchange = none ∧ runs.regs.wf = true) ∧
    (∀ d ∈ [17, 18], awake (heldFor d) ∧ (heldFor d).pchange.all (fun c => c.held) = true ∧ (heldFor d).restEnter ≠ 2 ∧
      cluSwitching (heldFor d) = decide (d = 17)) ∧
    (∀ w ∈ [[], [(27, false)], [(1, true)]], (changes true).clkWait = [] ∧ ({ changes true with clkWait := w } : State).pchange.isSome = true) ∧
    (∀ up : Bool, awake (changes up) ∧ (changes up).pchange = some { target := 1, up := up, due := 0, late := false, held := false } ∧
      (changes up).restEnter ≠ 2 ∧ levelWanted (changes up) = 1 ∧ (changes up).regs.wf = true ∧ 0 ≤ (changes up).nomNs ∧
      (changes up).errQ.length < 64) ∧
    (∀ n ∈ [0, 15], cluEn (runs.wr .clkGate 0 0) n = false ∧ bit ((runs.wr .clkGate 0 0).rd .clkGateStat 0) n = true ∧
      (runs.wr .clkGate 0 0).slots.any (fun x => x.clu == n) = false ∧ portBusy (runs.wr .clkGate 0 0) n = false ∧
      (runs.wr .clkGate 0 0).regs.wf = true) := by unfold awake; decide +kernel

/-- REST in progress; the block in REST, and a wake begun. -/
def resting : State := { serves1 with adm := { serves1.adm with cmd := some (cmd 0xB8 0 .waiting) }, idleSince := some 0, nomNs := 10000000 }
def inRest (wake : Option Nat) : State :=
  { ((State.reset.wr .clkGate 0 0x1FFFFFF).wr .pwrWakeCtl 0 0x20100).wr .pwrWakeTmr 0 1 with mode := .rest, nomNs := 1000000, wakeAt := wake }

theorem test_witness_RestAndWake :
    (restCmd resting = some (cmd 0xB8 0 .waiting) ∧ resting.idleSince = some 0 ∧ running resting = true ∧ restIdle resting = true ∧
      idleNs resting ≤ resting.nomNs ∧ awake resting ∧ (cmd 0xB8 0 .waiting).due ≤ resting.nomNs) ∧
    (({ runs with restEnter := 1, pchange := some { target := 1, up := true, due := 0, late := false, held := false } } : State).pchange.isSome = true ∧
      admUnacked { runs with restEnter := 1 } = [] ∧ awake runs ∧ runs.mode = .run ∧ runs.acc = [] ∧ runs.held = [] ∧ runs.polls = [] ∧
      runs.wakePend = none ∧ runs.regs.wf = true) ∧
    (awake (inRest none) ∧ (inRest none).mode = .rest ∧ (inRest none).restEnter ≠ 2 ∧ (inRest none).wakeAt = none ∧
      (inRest none).regs.wf = true ∧ bit ((inRest none).rd .pwrWakeCtl 0) 8 = true ∧ bit ((inRest none).rd .pwrWakeCtl 0) 17 = true ∧
      (inRest none).fld .pwrWakeTmr 0 0 30 ≠ 0 ∧ (inRest none).restAt + 1000000 * (inRest none).fld .pwrWakeTmr 0 0 30 ≤ (inRest none).nomNs) ∧
    (∀ g : Fin 2, (inRest (some 0)).wakeAt = some 0 ∧ 40000 ≤ (inRest (some 0)).nomNs ∧
      ((inRest (some 0)).wr .clkGateStat 0 (BitVec.ofNat 32 g)).rd .clkGateStat 0 = BitVec.ofNat 32 g ∧
      ((inRest (some 0)).wr .clkGateStat 0 (BitVec.ofNat 32 g)).regs.wf = true) := by
  unfold awake; decide +kernel

/-- What bring-up found in a macro. -/
def fault (n : Nat) (ok : Bool) : MacroFault := { num := n, rows := [0, 1, 2], passes := ok, finished := ok }
def brings : State := { runs with mode := .bringup }
/-- A mode on its way. -/
def turns (m n : Mode) : State := { runs with mode := m, modeNext := some n }

/-- Input 255 is high and drives external output 255 by line 255, direct or synchronous. -/
def drives (d : Bool) : State :=
  ({ runs with evm := ⟨[(8 * 511 + 7, 0x80000000)], [(16 * 255 + 7, 0x80000000)], [(Reg.evmLineCtl.at 127, if d then 0x20000000 else 0)]⟩,
               evIn := [(255, 0)] } : State).refreshEvm

theorem test_witness_ModesAndReset :
    (({ runs with rstN := false } : State).rstN = false ∧ runs.regs.wf = true) ∧
    ((fault 163 true).num < nMacro) ∧
    (brings.mode = .bringup ∧ awake brings ∧ brings.regs.wf = true ∧ brings.is6.wf = true ∧
      (fault 4 false).num = 4 ∧ ((mbistResult (fault 163 false)).1 = 0 ∨ (mbistResult (fault 163 false)).1 = 3)) ∧
    (∀ m ∈ [Mode.configure, .run, .test], ∀ n ∈ [Mode.configure, .run, .test], awake (turns m n) ∧ (turns m n).mode = m ∧
      (turns m n).modeNext = some n) ∧
    ((∀ s ∈ [{ runs with rstN := false }, brings, { runs with mode := .rest }, { runs with fatal := true }], s.rstN = false ∨ s.mode = .bringup ∨
      s.mode = .rest ∧ s.wakeAt = none ∨ s.fatal = true) ∧ ({ runs with mode := .rest } : State).fatal = false ∧ ({ runs with fatal := true } : State).rstN = true) ∧
    (∀ d : Bool, eventPins (drives d) = true ∧ 255 ∈ routedLines (drives d) ∧ reaches (drives d).evm 255 255 = true ∧
      (lineOf (drives d) 255).masked = false ∧ (lineOf (drives d) 255).level = true ∧ lineDirect (drives d).evm 255 = d ∧
      (255, 0) ∈ (drives d).evIn ∧ feeds (drives d).evm (256 + 255) 255 = true ∧ (drives d).evOut = []) ∧
    ((turns .run .configure).polls = [] ∧ ({ polls (.root 1) false with modeNext := some .configure } : State).polls ≠ [] ∧
      (turns .configure .test).ways = [] ∧ (turns .configure .test).regs.wf = true) := by
  refine ⟨by decide +kernel, by show 163 < nMacro; unfold nMacro; omega, by unfold awake; decide +kernel, by unfold awake; decide +kernel,
    by decide +kernel, by decide +kernel, by decide +kernel⟩

/-- A frame whose check is right, from member 1 to member 0, with SEQ and ACK 1. -/
def frame (type : Nat) (fields : List (Nat × Nat × Nat)) (payload : List (BitVec 256)) : RawFrame :=
  sealFrame (frameHeader type 1 1 1 0 false 5 fields payload) payload
/-- Link k in a state; with a frame of it that waits to be acknowledged; this member in a state of the federation. -/
def linked (k st : Nat) (rx far owed : Bool) : State :=
  ({ runs with fed := { runs.fed with links := [{ linkOf runs k with rxOk := rx, farOk := far, ackOwed := owed }] } } : State).wr
    .fedLinkStat k (BitVec.ofNat 32 st)
def unacked (k n : Nat) : State :=
  let t := linked k 2 true true true
  { t with fed := { t.fed with links :=
      [{ linkOf t k with unacked := [{ seq := 1, header := 0, payload := [], due := 0, resends := n }] }] } }
def fedIn (st : Nat) : State := (linked 2 2 true true false).wr .fedStat 0 (BitVec.ofNat 32 (4 * st + 96))

/-- An ACK whose words all have two check bits inverted, or whose first word has one. -/
def twoBits : RawFrame := { frame 9 [] [] with checks := (frame 9 [] []).checks.map (· ^^^ 3) }
def oneBit : RawFrame := { frame 9 [] [] with checks := ((frame 9 [] []).checks.zipIdx).map (fun p => if p.2 = 0 then p.1 ^^^ 1 else p.1) }

theorem test_witness_Links :
    (∀ k ∈ [0, 2], farLoop ((tests (16 + k)).wr .tstUnitCtl (16 + k) 0x23) k = true ∧ farLoop (tests (16 + k)) k = false ∧ farLoop runs k = false) ∧
    (frameMark twoBits = .uncorrectable ∧ frameMark oneBit = .corrected ∧ frameCorrected oneBit = 1 ∧
      bits (fixedFrame oneBit).header 0 8 = 9 ∧ frameSound (fixedFrame oneBit) = true) ∧
    (∀ k ∈ [0, 2], ∀ far : Bool, awake (linked k 1 false far false) ∧ lstate (linked k 1 false far false) k = 1 ∧
      (linkOf (linked k 1 false far false) k).rxOk = false ∧ (linkOf (linked k 1 false far false) k).farOk = far ∧
      (linked k 1 false far false).regs.wf = true) ∧
    (∀ k ∈ [0, 2], ∀ rx : Bool, ∀ st ∈ [1, 2], FrameSound (linked k st rx false false) k 1 (frame 1 [(72, 1, 1)] []) ∧
      FrameSound (linked k st rx false false) k 1 (frame 1 [] []) ∧ FrameSound (linked k st rx false false) k 9 (frame 9 [] []) ∧
      bit (frame 1 [(72, 1, 1)] []).header 72 = true ∧ bit (frame 1 [] []).header 72 = false ∧ lstate (linked k st rx false false) k = st ∧
      (linkOf (linked k st rx false false) k).rxOk = rx) ∧
    (∀ k ∈ [0, 2], ∀ n ∈ [0, 15, 16], awake (unacked k n) ∧ lstate (unacked k n) k = 2 ∧ (unacked k n).mode ≠ .test ∧
      bits (frame 9 [] []).header 0 8 = 9 ∧ frameSound (frame 9 [] []) = true ∧
      (linkOf (unacked k n) k).unacked.findIdx? (fun t => t.seq == bits (frame 9 [] []).header 16 8) = some 0 ∧
      (linkOf (unacked k n) k).waiting = [] ∧ (linkOf (unacked k n) k).ackOwed = true ∧
      (lateFrame (unacked k n) k).any (fun x => x.resends == n) = true ∧ (unacked k n).regs.wf = true ∧ (unacked k n).errQ.length < 64) := by
  refine ⟨by decide +kernel, by decide +kernel, by unfold awake; decide +kernel, by unfold FrameSound; decide +kernel,
    by unfold awake; decide +kernel⟩

/-- A TIME answer to request 9 of time t0, three times of 64 bits. -/
def times (t0 t1 t2 : Nat) : RawFrame := frame 4 [(72, 1, 1), (80, 8, 9)] [BitVec.ofNat 256 (t0 + 2 ^ 64 * t1 + 2 ^ 128 * t2)]
def asksTime : State := { fedIn 2 with fed := { (fedIn 2).fed with timeReq := some (9, 100) } }
/-- An own command that waits for member 1's answer, or for it alone. -/
def acking (ph : AdmPhase) : State :=
  { fedIn 2 with adm := { (fedIn 2).adm with cmd := some { cmd 0x84 1 ph with acks := [1] } } }
/-- Queue 16 homed here or on member 1. -/
def homed (away : Bool) : State :=
  let t := withCtx (fedIn 2) 16 ctx0
  { t with fed := { t.fed with owners := if away then [(16, 1)] else [] } }

/-- Member 1, whose queue 16 has no context here. -/
def second : State :=
  let t := (fedIn 2).wr .fedStat 0 105
  { t with queues := [16], fed := { t.fed with owners := [(16, 1)] } }

/-- A MANIFEST of two beats, whose check is taken in three parts. -/
def manifest2 : RawFrame := sealFrame 0x91c55f7700000000000000000000000000000000000000000000050102010102 [1, 2]
theorem test_manifest2_check :
    CheckCode.crc32c.reg CheckCode.crc32c.init (leBytes 32 (manifest2.header.toNat % 2 ^ 224)) = 140086297 ∧
    CheckCode.crc32c.reg 140086297 (leBytes 32 (1 : BitVec 256).toNat) = 2771996386 ∧
    CheckCode.crc32c.reg 2771996386 (leBytes 32 (2 : BitVec 256).toNat) = 1849335944 ∧
    (1849335944 ^^^ CheckCode.crc32c.init : W64).setWidth 32 = BitVec.ofNat 32 (bits manifest2.header 224 32) := by decide +kernel
theorem test_manifest2_sound : frameSound manifest2 = true := by
  obtain ⟨h1, h2, h3, h4⟩ := test_manifest2_check
  have h : crc32c (leBytes 32 (manifest2.header.toNat % 2 ^ 224) ++ manifest2.payload.flatMap (fun b => leBytes 32 b.toNat)) =
      BitVec.ofNat 32 (bits manifest2.header 224 32) := by
    rw [← h4, ← h3, ← h2, ← h1]
    simp [crc32c, CheckCode.of, CheckCode.reg, manifest2, sealFrame, List.foldl_append]
  simp only [frameSound, h, Bool.and_eq_true, decide_eq_true_eq]
  exact ⟨by decide +kernel, by decide +kernel⟩
theorem test_manifest2_taken (st : Nat) (h : st ∈ [0, 3, 4]) : FrameTaken (fedIn st) 2 2 manifest2 := by
  refine ⟨⟨?_, ?_, ?_, ?_, ?_, ?_, ?_, test_manifest2_sound, ?_⟩, ?_, ?_⟩
  all_goals revert st; decide +kernel

theorem test_witness_FederationFrames :
    (∀ st ∈ [0, 3, 4], FrameTaken (fedIn st) 2 2 manifest2 ∧ fedState (fedIn st) = st ∧ (fedIn st).is7.wf = true) ∧
    (∀ st ∈ [0, 1, 2, 3, 4, 5], FrameTaken (fedIn st) 2 3 (frame 3 [] []) ∧ fedState (fedIn st) = st) ∧
    (FrameTaken (fedIn 2) 2 4 (frame 4 [] [9]) ∧ bit (frame 4 [] [9]).header 72 = false ∧
      (members (fedIn 2)).head? = some (ownMember (fedIn 2)) ∧
      FrameTaken ((fedIn 2).wr .fedStat 0 72) 2 4 (frame 4 [] [9]) ∧
      (members ((fedIn 2).wr .fedStat 0 72)).head? ≠ some (ownMember ((fedIn 2).wr .fedStat 0 72))) ∧
    (FrameTaken asksTime 2 4 (times 100 3000 40) ∧ bit (times 100 3000 40).header 72 = true ∧ asksTime.fed.timeReq = some (9, 100) ∧
      9 = bits (times 100 3000 40).header 80 8 ∧ (100 : W64).toNat = bits (((times 100 3000 40).payload.head?).getD 0) 0 64 ∧
      asksTime.regs.wf = true) ∧
    (∀ st ∈ [2, 5], FrameTaken (fedIn st) 2 5 (frame 5 [(96, 1, 1)] [1]) ∧ bits (frame 5 [(96, 1, 1)] [1]).header 88 8 = 0 ∧
      bit (frame 5 [(96, 1, 1)] [1]).header 96 = true ∧ (fedIn st).fed.remote = none) ∧
    ((homed false).queues.contains 16 = true ∧ homedAway (homed false) 16 = false ∧ homeOf (homed true) 16 = 1 ∧
      1 ≠ ownMember (homed true) ∧ (2 : Nat) ≠ 1 ∧ ownMember (homed false) < 3 ∧ 2 ≠ ownMember (homed true)) ∧
    (0 < ownMember second ∧ second.queues.contains 16 = true ∧ homedAway second 16 = false ∧ ctxOf second 16 = none ∧
      assocGet second.fed.yielding 16 = none ∧ fedState second ≠ 5 ∧ second.regs.wf = true) ∧
    FrameTaken (fedIn 3) 2 5 (frame 5 [(96, 1, 1)] [1]) ∧
    (FrameTaken (acking .members) 2 6 (frame 6 [] []) ∧ (acking .members).adm.cmd.any (fun c => bits c.idx 0 16 == bits (frame 6 [] []).header 72 16) = true ∧
      (acking .members).adm.cmd.any (fun c => c.acks == [1] && c.bad == none && c.phase == .members) = true) ∧
    (∀ away : Bool, FrameTaken (homed away) 2 7 (frame 7 [(72, 22, 16)] []) ∧ serves (homed away) = true ∧
      bits (frame 7 [(72, 22, 16)] []).header 72 22 = 16 ∧ (homed away).queues.contains 16 = true ∧ homedAway (homed away) 16 = away ∧
      (homed away).queues.contains (bits (frame 7 [(72, 22, 4194303)] []).header 72 22) = false) ∧
    (∀ st ∈ [2, 5], FrameTaken (fedIn st) 2 8 (frame 8 [(72, 32, 4294967295), (104, 4, 1), (108, 4, 2)] []) ∧
      fedEpoch (fedIn st) < bits (frame 8 [(72, 32, 4294967295), (104, 4, 1), (108, 4, 2)] []).header 72 32 ∧
      ((List.range 4).filter (fun m => bit (frame 8 [(72, 32, 4294967295), (104, 4, 1), (108, 4, 2)] []).header (104 + m))).contains
        (ownMember (fedIn st)) = true) ∧
    (4294967295 < 2 ^ 32 ∧ [0, 3] = (List.range 4).filter (fun m => [0, 3].contains m)) := by
  refine ⟨fun st h => ⟨test_manifest2_taken st h, ?_⟩, ?_, ?_, ?_, ?_, ?_, ?_, ?_, ?_, ?_, ?_, ?_⟩
  · revert st; decide +kernel
  all_goals first | decide +kernel | (unfold FrameTaken FrameSound; decide +kernel)

/-- A late access for the witness of member 1. -/
def witnessing : State := { withAcc (fedIn 2) { acc0 (.witnessRead 1) false with due := 0 } with nomNs := 0 }
/-- Member 1 known as x says, with queue 16 homed there. -/
def knows (x : Member) : State :=
  let t := homed true
  { t with fed := { t.fed with members := [x] } }
def fenced1 : Member := { member3 with num := 1, heardAt := none, adoptAt := some 0 }
/-- FED_JOIN at its ceiling, as a founder or not. -/
def joins (founder : Nat) : State :=
  ({ runs with adm := { runs.adm with cmd := some { cmd 0xB0 0 .waiting with due := 0 } } } : State).wr .fedCtl 0 (BitVec.ofNat 32 founder)

theorem test_witness_Membership :
    (∀ st ∈ [2, 3, 5], awake (fedIn st) ∧ fedState (fedIn st) = st ∧ (fedIn st).fed.nextHb ≤ (fedIn st).nomNs ∧ (fedIn st).regs.wf = true) ∧
    (∀ st ∈ [2, 5], (members (fedIn st)).contains 1 = true ∧ 1 ≠ ownMember (fedIn st) ∧ heardNow (fedIn st) 1 = false ∧
      (memberOf (fedIn st) 1).readAt = none ∧ (memberOf (fedIn st) 1).witness = none ∧ silentMembers (fedIn st) = [] ∧
      (fedIn st).acc = [] ∧ (fedIn st).held = []) ∧
    (∃ a, witnessing.access a.aid = some a ∧ a.purpose = .witnessRead 1 ∧ witnessing.fatal = false ∧ CleanAnswer a zeros ∧
      a.due ≤ witnessing.nomNs) ∧
    (({ fedIn 2 with nomNs := 1000000000 } : State).fed.witnessAck + hbCeilNs { fedIn 2 with nomNs := 1000000000 } / 2 ≤ 1000000000) ∧
    ((memberOf (knows fenced1) 1).adoptAt = some 0 ∧ awake (knows fenced1) ∧ fedState (knows fenced1) = 2 ∧
      (knows fenced1).queues.filter (fun x => decide (homeOf (knows fenced1) x = 1)) = [16] ∧
      (memberOf (knows { fenced1 with num := 3 }) 3).adoptAt = some 0 ∧ ∀ q ∈ (knows { fenced1 with num := 3 }).queues,
        homeOf (knows { fenced1 with num := 3 }) q ≠ 3) ∧
    (∀ f : Fin 2, admRuns (joins f) = true ∧ (joinCmd (joins f)).any (fun c => decide (c.due ≤ (joins f).nomNs)) = true ∧
      (joins f).fed.joinSeen = [] ∧ bit ((joins f).rd .fedCtl 0) 0 = decide (f = 1) ∧ (joins f).regs.wf = true ∧
      lstate (joins f) 0 ≠ 2 ∧ lstate (joins f) 1 ≠ 2 ∧ lstate (joins f) 2 ≠ 2) := by
  refine ⟨?_, ?_, ⟨{ acc0 (.witnessRead 1) false with due := 0 }, rfl, rfl, rfl, ?_⟩, ?_, ?_, ?_⟩
  all_goals first | decide +kernel | (unfold awake; decide +kernel) | (unfold CleanAnswer; decide +kernel)

/-! Witnesses of the further cases of the statements: those that the theorems above do not meet. -/

theorem test_witness_IdleTick_bringup :
    ({ runs with mode := .bringup, nomNs := 3999990 } : State).pending = [] ∧ runs.rstN = true ∧ runs.fatal = false ∧
    4000000 ≤ ({ runs with mode := .bringup, nomNs := 3999990 } : State).nomNs + tickNs { runs with mode := .bringup, nomNs := 3999990 } ∧
    ({ runs with mode := .bringup, nomNs := 3999989 } : State).nomNs + tickNs { runs with mode := .bringup, nomNs := 3999989 } < 4000000 := by
  decide +kernel

/-- The write of the error record, and the state with the port that it needs. -/
def errHeld (s : State) : Held :=
  admAccess s (.errLog 64 true) true (errBase s + 64 * (64 % errRing s)) 64 (bytesOfWords (errWords (errRec 64)))
def logsOn : State := { logs 64 with credits := [(0, 1, 1, 8)], portActive := [0] }

theorem test_witness_ErrorLogRecords_ports :
    (∀ s ∈ [logs 64, logsOn], s.errQ = errRec 64 :: [] ∧ admRuns s = true ∧ bit (s.rd .errLogCtl 0) 0 = true ∧
      ((errRec 64).seq - s.rd .errLogCons 0).toNat < errRing s ∧ s.held = [] ∧ s.arbs = [] ∧
      errHeld s = admAccess s (.errLog (errRec 64).seq (decide ((errRec 64).cls = 3))) true
        (errBase s + 64 * ((errRec 64).seq.toNat % errRing s)) 64 (bytesOfWords (errWords (errRec 64)))) ∧
    portNow (logs 64) (errHeld (logs 64)) = none ∧ (portNow logsOn (errHeld logsOn)).isSome = true := by decide +kernel

/-- Input 255 is an enabled wake source in REST, EVM's clock gated; two lines with deferred edges due in one cycle. -/
def evWakes (k : Nat) : State :=
  { (State.reset.wr .pwrWakeCtl 0 (BitVec.ofNat 32 (511 * 2 ^ (9 * k)))) with mode := .rest, nomNs := 1000000 }
def dueLine (n : Nat) : Line := { num := n, level := false, masked := false, since := 0, window := 0, defer := some 3 }
def twoDue : State := { runs with lines := [dueLine 0, dueLine 255] }

theorem test_witness_EventInputs_cycles :
    (runs.mode ≠ .rest ∧ runs.restEnter ≠ 2 ∧ wakeEn runs 0 = false ∧ wakeEn runs 1 = false) ∧
    (∀ k ∈ [0, 1], (evWakes k).evIn.any (fun e => e.1 == 255) = false ∧ (evWakes k).fatal = false ∧ (evWakes k).rstN = true ∧
      (evWakes k).mode = .rest ∧ (evWakes k).restEnter ≠ 2 ∧ (evWakes k).wakeAt = none ∧ wakeEn (evWakes k) k = true ∧
      (evWakes k).fld .pwrWakeCtl 0 (9 * k) 8 = 255 ∧ evmOn (evWakes k) = false ∧
      evmOn ({ evWakes k with evIn := (255, 7) :: (evWakes k).evIn }.startWake 0) = false) ∧
    (∀ n ∈ [128, 511], dueLines (routed n) = []) ∧
    (dueLines deferred = [lineOf deferred 255] ∧ evmCycle deferred (lineOf deferred 255).window = evmCycle deferred deferred.nomNs) ∧
    (evmOn twoDue = true ∧ dueLines twoDue = [lineOf twoDue 0, lineOf twoDue 255] ∧ (lineOf twoDue 0).defer = some 3 ∧
      (lineOf twoDue 255).defer = some 3 ∧ (lineOf twoDue 0).masked = false ∧ (lineOf twoDue 255).masked = false ∧
      ∀ l ∈ [0, 255], evmCycle twoDue (lineOf twoDue l).window = evmCycle twoDue twoDue.nomNs) := by decide +kernel

/-- CTX gated while a fetch's answer comes. -/
def ctxGated : State := fetching.wr .clkGateStat 0 0

theorem test_witness_ContextTransfers_gated :
    (ctxOn fetching = true ∧ ctxOn (fullSet true) = true ∧ ctxOn ctxGated = false ∧ ∃ a, ctxGated.access 0 = some a ∧ a.purpose = .ctxFetch 16) ∧
    (∀ l : Bool, ({ code := 0x1F, words := [], last := l } : Answer).last = l) ∧
    (∃ w, victim { fullSet true with acc := [] } 16 = some w ∧ w.ctx.pendingCnt = 0) := by
  exact ⟨⟨by decide +kernel, by decide +kernel, by decide +kernel, _, rfl, rfl⟩, by decide +kernel, ⟨_, rfl, by decide +kernel⟩⟩

/-- Queue 16 with its first slot read early by one channel. -/
def earlyQ : State := { runsQ with slots := [slot0 1 .slotRead] }

theorem test_witness_SchedulerChoice_early :
    ((earlySlots earlyQ 16).any (fun x => decide (x.slotIdx = ctx0.f + BitVec.ofNat 32 0)) = true ∧ (earlySlots earlyQ 16).length = 1 ∧
      (earlySlots earlyQ 16).any (fun x => decide (x.slotIdx = ctx0.f + BitVec.ofNat 32 1)) = false) ∧
    (State.reset.ready = [] ∧ ({ sched1 with ready := [{ ready16 with resume := true }] } : State).ready ≠ []) := by decide +kernel

theorem test_witness_Alone :
    (∀ op ∈ [0x11, 0x12, 0x14], Alone (bound (slot0 op .fencing)) (slot0 op .fencing)) ∧ Alone (waits 0) (slot0 0x13 (.waiting 1)) ∧
    Alone waited (slot0 0x13 (.waiting 0)) ∧ Alone sawIt (slot0 0x13 (.waiting 1)) := by unfold Alone; decide +kernel

theorem test_witness_WriteAnswers_old :
    ∃ a, (waiting (.oldWrite 16 0 0 1) true (moveX 1 (loaf0 false))).access 0 = some a ∧ a.purpose = .oldWrite 16 0 0 1 ∧ a.write = true ∧
      a.toSend = 0 ∧ a.iid = 0 ∧ (waiting (.oldWrite 16 0 0 1) true (moveX 1 (loaf0 false))).fatal = false := ⟨_, rfl, rfl, rfl, rfl, rfl, rfl⟩

/-- Requesters 0 and r raised at arbiter a, 0 ahead of r, which is one round short of WAIT_LIMIT. -/
def bankRound (a r : Nat) : State :=
  { runs with arbs := [{ num := a, round := 9, reqs := [{ idx := 0, stamp := 0, wait := 0, forced := false, lockout := 0, raised := true },
                           { idx := r, stamp := 9, wait := waitLimit runs a - 1, forced := false, lockout := 0, raised := true }],
                         emBarred := false, emRun := 0, won := 0, waiting := [0, r] }] }

theorem test_witness_ArbiterLimits_banks :
    (∃ x, arbDecide (bankRound 34 33) 34 0 [0, 33] [] (fun _ => 0) (fun _ => 9) = some x ∧ ∃ r ∈ [0, 33], r ≠ 0 ∧
      waitLimit (bankRound 34 33) 34 ≤ (raisedReq (arbOf (bankRound 34 33) 34) 9 r).wait + 1) ∧
    (∀ ar ∈ [((0 : Nat), (6 : Nat)), (15, 0), (16, 6), (31, 6), (32, 15), (33, 2), (34, 33), (49, 0)],
      (reqOf (arbOf (losing ar.1 ar.2) ar.1) ar.2).forced = false ∧ ar.2 < arbSize ar.1) ∧
    (∀ a ∈ [16, 31], (bankRound a 6).fatal = false ∧ (reqOf (arbOf (bankRound a 6) a) 6).raised = true ∧
      (reqOf (arbOf (bankRound a 6) a) 6).forced = false ∧ lockedOut (bankRound a 6) a (reqOf (arbOf (bankRound a 6) a) 6) = false ∧
      lockedOut (bankRound a 6) a (reqOf (arbOf (bankRound a 6) a) 0) = false ∧
      bestOf (bankRound a 6) a (bankPrio (bankRound a 6)) (raisedAt (bankRound a 6) a) = some 0 ∧
      waitLimit (bankRound a 6) a ≤ (reqOf (arbOf (bankRound a 6) a) 6).wait + 1) := by
  refine ⟨⟨_, rfl, 33, by decide +kernel, by decide +kernel, by decide +kernel⟩, by decide +kernel, by decide +kernel⟩

theorem test_witness_BeatCeilings_records :
    ∃ a, (late (.record 16 0 0 false false) true 14).access 0 = some a ∧ (late (.record 16 0 0 false false) true 14).fatal = false ∧
      isRecordWrite a.purpose = true ∧ a.write = true := ⟨_, rfl, rfl, rfl, rfl⟩

theorem test_witness_RecordsIssue_stored : ∀ ab, record0 ab 0 ∈ (records ab).records := by decide +kernel

/-- A notice of queue 16 that waits to be issued. -/
def noticeHeld : State :=
  { runsQ with held := [{ admAccess runs (.notice 16) true 0x2000 8 [] with form := true }] }

theorem test_witness_Notices_held : noticeWaits noticeHeld 16 = true ∧ noticeWaits runsQ 16 = false := by decide +kernel

theorem test_witness_InstanceDrains_ctx :
    ctxOn (drains 0) = true ∧ assocGet (drains 2).fed.yielding 16 = none ∧ qActive ≠ qPaused := by decide +kernel

theorem test_witness_AdminRecords_free :
    ((adm 1).wr .admNoticeLo 0 8).held = [] ∧ admState ((adm 1).wr .admNoticeLo 0 8) ≠ 3 ∧ ((adm 1).wr .admNoticeLo 0 8).fatal = false := by
  decide +kernel

theorem test_witness_StagedCommands_stage :
    ∃ c, commitWaiting (waitsQuiet [item1]) true = some c ∧ c.stage ≠ 1 := ⟨_, rfl, by decide +kernel⟩

theorem test_witness_Registers_hangs :
    hangCuts runs (canonOffset (Reg.regLock.addr 0)) = false ∧
    (∀ a ∈ [0, 2], readCode runs { agent := a, offset := Reg.clkMuxCtl.addr 0, prot := true, parityOk := true } = 0) ∧
    readCode (hangs 1) { agent := 0, offset := Reg.clkMuxCtl.addr 0, prot := true, parityOk := true } ≠ 0 := by decide +kernel

/-- A kick of IID 1 where it cannot be polled now: its poll is in progress. -/
def busyPoll : State := { serves1 with polls := [{ poll (.root 1) false with iid := 1 }] }

theorem test_witness_UnitWrites_kicks :
    (takes serves1 .dbgPoll 0 0x1000 ∧ serves1.instState 0 ≠ 0 ∧ serves1.mode ≠ .configure ∧ serves1.mode ≠ .test ∧
      bits (0x1000 : W32) 0 12 = 0 ∧ bit (0x1000 : W32) 12 = true) ∧
    (takes busyPoll .dbgPoll 0 0x1001 ∧ busyPoll.instState 1 ≠ 0 ∧ canPoll busyPoll 1 = false ∧ bits (0x1001 : W32) 0 12 = 1) ∧
    (∀ m ∈ [Mode.configure, .test], takes { serves1 with mode := m } .dbgPoll 0 0x1001) := by
  refine ⟨?_, ?_, ?_⟩
  all_goals unfold takes Written; decide +kernel

/-- PLL A starting with three clean windows while the domains run on B; A has tripped before, or B is the primary. -/
def judging (trip : Bool) : State :=
  { pllsIn 1 2 with plls := ({ due := 9, clean := 3, tripped := trip }, { due := 9, clean := 0, tripped := false }) }

theorem test_witness_ClockMonitors_primary :
    (∀ trip : Bool, awake (judging trip) ∧ pllState (judging trip) false = 1 ∧ (judging trip).regs.wf = true ∧ curSource (judging trip) ≠ 0 ∧
      isPrimary (judging trip) false = true ∧ (pllOf (judging trip) false).tripped = trip ∧ 4 ≤ (pllOf (judging trip) false).clean + 1) ∧
    isPrimary ((judging false).wr .clkStat 0 (BitVec.ofNat 32 (1 + 16 + 128))) false = false ∧
    (∀ d ∈ [1, 2, 17, 18, 20, 22, 26, 27], ∃ x, (hangs d).muxes.find? (fun y => y.domain == d) = some x ∧
      x.since + 10 * x.ceil ≤ (hangs d).nomNs) := by
  refine ⟨by unfold awake; decide +kernel, by decide +kernel, fun d h => ⟨{ domain := d, since := 0, ceil := 64 }, ?_, ?_⟩⟩
  · simp [hangs]
  · revert d; decide +kernel

/-- Direct line 255 fed by the pulse-only source 128, in its pulse cycle. -/
def pulsing : State :=
  { runs with evm := ⟨[(8 * 128 + 7, 0x80000000)], [(16 * 255 + 7, 0x80000000)], [(Reg.evmLineCtl.at 127, 0x20000000)]⟩, pulseHigh := [128] }

theorem test_witness_ModesAndReset_pulse :
    eventPins pulsing = true ∧ 255 ∈ routedLines pulsing ∧ reaches pulsing.evm 255 255 = true ∧ (lineOf pulsing 255).masked = false ∧
    128 ∈ pulsing.pulseHigh ∧ feeds pulsing.evm 128 255 = true ∧ lineDirect pulsing.evm 255 = true := by decide +kernel

theorem test_witness_FederationFrames_answers :
    (∀ op ∈ [0x80, 0x84], ∃ c, ({ acking .members with adm := { (acking .members).adm with cmd := some { cmd op 1 .members with acks := [1] } } } : State).adm.cmd
        = some c ∧ c.acks = [1] ∧ c.bad = none ∧ c.phase = .members) ∧
    cOp (cmd 0x80 1 .members) ≠ 0x84 ∧ cOp (cmd 0x80 1 .members) ≠ 0x85 ∧ cOp (cmd 0x80 1 .members) ≠ 0x91 := by
  refine ⟨?_, by decide +kernel⟩
  intro op h
  simp only [List.mem_cons, List.not_mem_nil, or_false] at h
  obtain rfl | rfl := h
  all_goals exact ⟨_, rfl, rfl, rfl, rfl⟩

theorem test_witness_InvariantsKept :
    runs.mapsOk = true ∧ runs.errOk = true ∧ runs.creditsOk = true ∧ runs.resetOk = true ∧
      ∃ t, step { runs with pending := [.pwAckToggle] } = .next t := by
  exact ⟨by decide +kernel, by decide +kernel, by decide +kernel, by decide +kernel, _, rfl⟩

theorem test_witness_QueueKept : ∃ t, step { runs with pending := [.pwAckToggle, .restEntry] } = .next t := ⟨_, rfl⟩

/-! Outputs of the boundary. -/

/-- The write of the manual's example "one read and one write on FP2" (18): strobes of 40 bytes at …0400, one beat, the last. -/
theorem test_wd_strb :
    let a := { acc0 (.write 0 0 0) true with addr := 0x4000000400, len := 40 }
    wdStrb (a, 0) = 0x000000FFFFFFFFFF ∧ wdLast (a, 0) = true := by decide +kernel

/-- Even parity over a response (18 R528): two ones are even by themselves, three take the parity bit. -/
theorem test_rsp_parity : rspParPin ⟨1, 0, 1⟩ = false ∧ rspParPin ⟨1, 1, 1⟩ = true := by decide

end Sys2Proof.Tests
end

section
/-! PROOFS. The words of a queue context and the ways that hold it (01 R19, 17 R503). -/

namespace Sys2Proof.Machine

/-! Words of fields. -/

/-- The fields of a word lie one above the other from bit b on, within 64 bits. -/
def fieldsRise (b : Nat) : List (Nat × Nat × Nat) → Bool
  | [] => decide (b ≤ 64)
  | (lo, len, _) :: fs => decide (b ≤ lo) && fieldsRise (lo + len) fs

/-- The value given to the field [lo + len − 1 : lo]. -/
def fieldGiven (fs : List (Nat × Nat × Nat)) (lo len : Nat) : Option Nat :=
  (fs.find? (fun f => f.1 == lo && f.2.1 == len)).map (·.2.2)

theorem fieldsRise_cons {b lo len v : Nat} {fs : List (Nat × Nat × Nat)} :
    fieldsRise b ((lo, len, v) :: fs) = true ↔ b ≤ lo ∧ fieldsRise (lo + len) fs = true := by
  simp [fieldsRise]

/-- Fields from bit b on leave the bits below clear. -/
theorem packNat_testBit_below {b i : Nat} {fs : List (Nat × Nat × Nat)} (h : fieldsRise b fs = true) (hi : i < b) :
    (packNat fs).testBit i = false := by
  suffices hd : 2 ^ b ∣ packNat fs by
    obtain ⟨k, e⟩ := hd
    rw [e, Nat.testBit_two_pow_mul]
    simp [hi]
  clear hi
  induction fs generalizing b with
  | nil => simp [packNat]
  | cons f fs ih =>
    obtain ⟨lo, len, v⟩ := f
    obtain ⟨hb, hr⟩ := fieldsRise_cons.1 h
    exact dvd_add (Dvd.dvd.mul_left (pow_dvd_pow 2 hb) _) ((pow_dvd_pow 2 (by omega)).trans (ih hr))

/-- A word of fields, bit by bit, at its lowest field and above it. -/
theorem packNat_cons_testBit {lo len v i : Nat} {fs : List (Nat × Nat × Nat)} (h : fieldsRise (lo + len) fs = true) :
    (packNat ((lo, len, v) :: fs)).testBit i =
      if i < lo + len then (decide (lo ≤ i) && v.testBit (i - lo)) else (packNat fs).testBit i := by
  have hlow : v % 2 ^ len * 2 ^ lo < 2 ^ (lo + len) := by
    rw [Nat.add_comm lo len, Nat.pow_add]
    exact Nat.mul_lt_mul_of_pos_right (Nat.mod_lt _ (Nat.two_pow_pos len)) (Nat.two_pow_pos lo)
  obtain ⟨k, hk⟩ : 2 ^ (lo + len) ∣ packNat fs := by
    refine Nat.dvd_of_mod_eq_zero (Nat.eq_of_testBit_eq fun j => ?_)
    rw [Nat.testBit_mod_two_pow, Nat.zero_testBit]
    by_cases hj : j < lo + len
    · simp [packNat_testBit_below h hj]
    · simp [hj]
  rw [packNat, hk, Nat.add_comm, Nat.testBit_two_pow_mul_add _ hlow]
  by_cases hi : i < lo + len
  · rw [if_pos hi, if_pos hi, Nat.testBit_mul_two_pow, Nat.testBit_mod_two_pow]
    by_cases hl : lo ≤ i
    · simp [hl, show i - lo < len by omega]
    · simp [hl]
  · rw [if_neg hi, if_neg hi, Nat.testBit_two_pow_mul]
    simp [show lo + len ≤ i by omega]

/-- A field that is given lies above the bits before the first and within the word. -/
theorem fieldGiven_within {b lo len v : Nat} {fs : List (Nat × Nat × Nat)} (h : fieldsRise b fs = true)
    (hv : fieldGiven fs lo len = some v) : b ≤ lo ∧ lo + len ≤ 64 := by
  have top : ∀ (gs : List (Nat × Nat × Nat)) (c : Nat), fieldsRise c gs = true → c ≤ 64 := by
    intro gs
    induction gs with
    | nil => intro c hc; simpa [fieldsRise] using hc
    | cons g gs ih =>
      intro c hc
      have := ih _ (fieldsRise_cons.1 hc).2
      have := (fieldsRise_cons.1 hc).1
      omega
  induction fs generalizing b with
  | nil => simp [fieldGiven] at hv
  | cons f fs ih =>
    obtain ⟨lo', len', v'⟩ := f
    obtain ⟨hb, hr⟩ := fieldsRise_cons.1 h
    by_cases e : lo' = lo ∧ len' = len
    · obtain ⟨rfl, rfl⟩ := e
      exact ⟨hb, top _ _ hr⟩
    · have := ih hr (by simpa [fieldGiven, List.find?_cons, e] using hv)
      omega

/-- A field reads as the value given to it, bit by bit. -/
theorem packNat_testBit_field {b lo len v i : Nat} {fs : List (Nat × Nat × Nat)} (h : fieldsRise b fs = true)
    (hv : fieldGiven fs lo len = some v) (hi : i < len) : (packNat fs).testBit (lo + i) = v.testBit i := by
  induction fs generalizing b with
  | nil => simp [fieldGiven] at hv
  | cons f fs ih =>
    obtain ⟨lo', len', v'⟩ := f
    obtain ⟨_, hr⟩ := fieldsRise_cons.1 h
    rw [packNat_cons_testBit hr]
    by_cases e : lo' = lo ∧ len' = len
    · obtain ⟨rfl, rfl⟩ := e
      obtain rfl : v' = v := by simpa [fieldGiven] using hv
      simp [hi]
    · have ht : fieldGiven fs lo len = some v := by simpa [fieldGiven, List.find?_cons, e] using hv
      rw [if_neg (by have := (fieldGiven_within hr ht).1; omega)]
      exact ih hr ht

/-- A field of a packed word is the value that it was packed with. -/
theorem fieldOf_pack {lo len : Nat} {fs : List (Nat × Nat × Nat)} (h : fieldsRise 0 fs = true)
    (hs : (fieldGiven fs lo len).isSome = true) : fieldOf (pack fs) lo len = BitVec.ofNat len ((fieldGiven fs lo len).getD 0) := by
  obtain ⟨v, hv⟩ := Option.isSome_iff_exists.1 hs
  have hw := (fieldGiven_within h hv).2
  apply BitVec.eq_of_getLsbD_eq
  intro i hi
  have hp : (packNat fs % 2 ^ 64).testBit (lo + i) = v.testBit i := by
    rw [Nat.testBit_mod_two_pow, packNat_testBit_field h hv hi]
    simp [show lo + i < 64 by omega]
  rw [fieldOf, pack, BitVec.toNat_ofNat, BitVec.getLsbD_ofNat, BitVec.getLsbD_ofNat, Nat.testBit_div_two_pow, Nat.add_comm i lo, hp, hv]
  rfl

/-- The four words of a value of 256 bits are the value. -/
theorem extract_append_256 (v : BitVec 256) :
    v.extractLsb' 192 64 ++ v.extractLsb' 128 64 ++ v.extractLsb' 64 64 ++ v.extractLsb' 0 64 = v := by
  rw [BitVec.extractLsb'_append_extractLsb'_eq_extractLsb' (by rfl), BitVec.extractLsb'_append_extractLsb'_eq_extractLsb' (by rfl),
    BitVec.extractLsb'_append_extractLsb'_eq_extractLsb' (by rfl)]
  exact BitVec.extractLsb'_eq_self

/-- A context is what its words hold (17 R503). -/
theorem QCtx.ofWords_toWords (c : QCtx) : QCtx.ofWords c.toWords = c := by
  simp only [QCtx.ofWords, QCtx.toWords, wd, List.getD_cons_zero, List.getD_cons_succ, extract_append_256]
  simp [fieldOf_pack, fieldsRise, fieldGiven]

/-! Words and their bytes (00 R4). -/

theorem leBytes_length (n v : Nat) : (leBytes n v).length = n := by
  induction n generalizing v with
  | zero => rfl
  | succ n ih => simp [leBytes, ih]

theorem leNat_leBytes (n v : Nat) : leNat (leBytes n v) = v % 256 ^ n := by
  induction n generalizing v with
  | zero => simp [leBytes, leNat, Nat.mod_one]
  | succ n ih =>
    have hs : v % 256 ^ (n + 1) = v % 256 + 256 * (v / 256 % 256 ^ n) := by rw [Nat.pow_succ', Nat.mod_mul]
    rw [leBytes, leNat, ih, BitVec.toNat_ofNat, hs]

theorem wordOfBytes (w : W64) : BitVec.ofNat 64 (leNat (leBytes 8 w.toNat)) = w := by
  rw [leNat_leBytes, Nat.mod_eq_of_lt (show w.toNat < 256 ^ 8 from w.isLt), BitVec.ofNat_toNat, BitVec.setWidth_eq]

/-- Pieces of k elements of a list that begins with one. -/
theorem chunksOf_append {α : Type} {k f : Nat} {xs ys : List α} (hx : xs.length = k) (hk : 0 < k) :
    chunksOf k (f + 1) (xs ++ ys) = xs :: chunksOf k f ys := by
  have hne : (xs ++ ys).isEmpty = false := by
    cases xs with
    | nil => simp at hx; omega
    | cons x xs => rfl
  rw [chunksOf, hne]
  simp [← hx]

theorem chunksOf_bytesOfWords (ws : List W64) (f : Nat) (hf : ws.length < f) :
    chunksOf 8 f (bytesOfWords ws) = ws.map (fun w => leBytes 8 w.toNat) := by
  induction ws generalizing f with
  | nil =>
    obtain ⟨g, rfl⟩ := Nat.exists_eq_add_one_of_ne_zero (Nat.ne_of_gt hf)
    rfl
  | cons w ws ih =>
    obtain ⟨g, rfl⟩ := Nat.exists_eq_add_one_of_ne_zero (Nat.ne_of_gt (Nat.zero_lt_of_lt hf))
    have hb : bytesOfWords (w :: ws) = leBytes 8 w.toNat ++ bytesOfWords ws := rfl
    rw [hb, chunksOf_append (leBytes_length 8 _) (by decide), ih g (by simpa using hf)]
    rfl

theorem bytesOfWords_length (ws : List W64) : (bytesOfWords ws).length = 8 * ws.length := by
  induction ws with
  | nil => rfl
  | cons w ws ih =>
    have hb : bytesOfWords (w :: ws) = leBytes 8 w.toNat ++ bytesOfWords ws := rfl
    rw [hb, List.length_append, leBytes_length, ih, List.length_cons]
    omega

/-- Words written as bytes are read back (00 R4). -/
theorem wordsOfBytes_bytesOfWords (ws : List W64) : wordsOfBytes (bytesOfWords ws) = ws := by
  rw [wordsOfBytes, bytesOfWords_length, chunksOf_bytesOfWords ws _ (by omega), List.map_map]
  exact (List.map_congr_left fun w _ => wordOfBytes w).trans (List.map_id' ws)

/-! Ways of the context cache. -/

/-- A placed context is in its way, the youngest of its set (01 R19). -/
theorem wayOf_placeWay (s : State) (qid k : Nat) (c : QCtx) (d : Bool) :
    wayOf (s.placeWay qid k c d) qid = some { qid := qid, way := k, age := 0, dirty := d, wbFault := false, ctx := c } := by
  simp [wayOf, State.placeWay]

/-- A change of ways that leaves their queues and contexts leaves what every queue's context reads. -/
theorem find_ctx_upd (p : Way → Bool) (f : Way → Way) (hf : ∀ w, (f w).qid = w.qid ∧ (f w).ctx = w.ctx) (ws : List Way) (r : Nat) :
    ((upd p f ws).find? (fun w => w.qid == r)).map (·.ctx) = (ws.find? (fun w => w.qid == r)).map (·.ctx) := by
  unfold upd
  induction ws with
  | nil => rfl
  | cons w ws ih =>
    have hq : (if p w then f w else w).qid = w.qid ∧ (if p w then f w else w).ctx = w.ctx := by
      split
      · exact hf w
      · exact ⟨rfl, rfl⟩
    by_cases h : w.qid = r
    · simp [hq.1, hq.2, h]
    · simpa [hq.1, h] using ih

/-- Another queue's context reads as before. -/
theorem ctxOf_placeWay_ne (s : State) (qid k : Nat) (c : QCtx) (d : Bool) (r : Nat) (h : r ≠ qid) :
    ctxOf (s.placeWay qid k c d) r = ctxOf s r := by
  have hn : (qid == r) = false := by simpa using Ne.symm h
  unfold ctxOf wayOf State.placeWay
  rw [List.find?_cons, hn]
  exact find_ctx_upd _ (fun x => { x with age := x.age + 1 }) (fun _ => ⟨rfl, rfl⟩) s.ways r

/-- Settles O14: each part is a fact about the cache's ways, the packing of fields or the bytes of words. -/
theorem contextWords : Obligations.ContextWords :=
  ⟨wayOf_placeWay, ctxOf_placeWay_ne, QCtx.ofWords_toWords, fun _ => rfl, wordsOfBytes_bytesOfWords⟩

end Sys2Proof.Machine
end

section
/-! PROOFS. Accesses that are asked for again: what an expiry or an answer leaves, and that an access asked for is offered whatever
else the ports grant. -/

namespace Sys2Proof.Machine

/-- An access is outstanding, or waits with the bytes that it is to carry (Offered, but for a notice still to be formed). -/
def Asked (t : State) (u : Purpose) (w : Bool) (addr len : Nat) (data : List Byte) : Prop :=
  (∃ a ∈ t.acc, a.purpose = u ∧ a.write = w ∧ a.addr = addr ∧ a.len = len ∧ a.data = data) ∨
  (∃ h ∈ t.held, h.form = false ∧ h.purpose = u ∧ h.write = w ∧ h.addr = addr ∧ h.len = len ∧ h.data = data)

section
variable {s t : State} {u : Purpose} {w : Bool} {addr len : Nat} {data : List Byte}

theorem Asked.offered (k : Asked s u w addr len data) : Offered s u w addr len data :=
  k.imp_right fun ⟨x, hx, _, hq⟩ => ⟨x, hx, hq⟩

theorem Asked.congr (k : Asked s u w addr len data) (ea : t.acc = s.acc) (eh : t.held = s.held) : Asked t u w addr len data := by
  unfold Asked
  rw [ea, eh]
  exact k

/-- Grants leave what is asked for waiting, or issue it as it is. -/
theorem Asked.granted (k : Asked s u w addr len data) (g : Granted s t) : Asked t u w addr len data := by
  obtain ⟨r, b, v, c, rfl, _, _, _, hg, _⟩ := g
  rcases k with ⟨a, ha, hq⟩ | ⟨x, hx, hf, h1, h2, h3, h4, h5⟩
  · exact .inl ⟨a, by simp [ha], hq⟩
  · rcases hg x hx with hw | ⟨y, hy, k1, k2, k3, k4, _, k6⟩
    · exact .inr ⟨x, hw, hf, h1, h2, h3, h4, h5⟩
    · exact .inl ⟨y, by simp [hy], k1.trans h1, k2.trans h2, k3.trans h3, k4.trans h4, (k6.trans (bytesAtIssue_plain s x hf)).trans h5⟩

/-- A service access is asked for, unless the block is in the FATAL state. -/
theorem Asked.service {h : Held} (hf : s.fatal = false) (hp : h.form = false) :
    Asked (s.service h) h.purpose h.write h.addr h.len h.data := by
  rcases State.service_granted s h with ⟨e, _⟩ | ⟨_, g⟩
  · rw [hf] at e; cases e
  · exact Asked.granted (s := { s with held := s.held ++ [h] }) (.inr ⟨h, by simp, hp, rfl, rfl, rfl, rfl, rfl⟩) g

/-- An access that is issued again is asked for as it was. -/
theorem Asked.serviceAgain (a : Access) (k : Nat) (hf : s.fatal = false) :
    Asked (s.serviceAgain a k) a.purpose a.write a.addr a.len a.data := Asked.service hf rfl

/-- It stays so as others are asked for. -/
theorem Asked.mono (k : Asked s u w addr len data) (o : Held) : Asked (s.service o) u w addr len data := by
  rcases State.service_granted s o with ⟨_, e⟩ | ⟨_, g⟩
  · rw [e]; exact k
  · exact Asked.granted (s := { s with held := s.held ++ [o] }) (k.imp_right fun ⟨x, hx, hq⟩ => ⟨x, by simp [hx], hq⟩) g

/-- A port that rises or falls changes no more of a waiting access than its port. -/
theorem Asked.refreshPort (k : Asked s u w addr len data) (n : Nat) : Asked (s.refreshPort n) u w addr len data := by
  unfold State.refreshPort
  split
  · split
    · exact k
    · exact k
  · split
    · refine k.imp_right fun ⟨x, hx, hq⟩ => ⟨_, List.mem_map_of_mem hx, ?_⟩
      split
      · exact hq
      · exact hq
    · exact k

theorem Asked.refreshPorts (k : Asked s u w addr len data) : Asked s.refreshPorts u w addr len data := by
  unfold State.refreshPorts
  generalize List.range 16 = ns
  induction ns generalizing s with
  | nil => exact k
  | cons n ns ih => exact ih (k.refreshPort n)

/-- Outside the FATAL state the ports' grants keep what is asked for. -/
theorem Asked.drainHeld (k : Asked s u w addr len data) (hf : s.fatal = false) : Asked s.drainHeld u w addr len data := by
  obtain ⟨_, _, _, e⟩ := State.refreshPorts_frame s
  have hr : s.refreshPorts.fatal = false := by rw [e]; exact hf
  unfold State.drainHeld
  dsimp only
  rw [if_neg (by simp [hr])]
  exact k.refreshPorts.granted (State.pump_granted _ _)

end

/-! What an access's answer or expiry leaves. -/

@[simp] theorem State.drainHeld_fatal (s : State) : s.drainHeld.fatal = s.fatal := by
  obtain ⟨_, _, _, _, _, _, e, _⟩ := State.drainHeld_frame s
  rw [e]

theorem Quarantined.drain (s : State) (a : Access) : Quarantined s (s.quarantine a).drainHeld a := by
  obtain ⟨_, _, _, _, _, _, e⟩ := State.quarantineDrain_eq s a
  exact ⟨by rw [e], Released.quarantineDrain s a⟩

theorem Quarantined.congr {s t u : State} {a : Access} (h : Quarantined s t a) (eq : u.quar = t.quar) (ea : u.acc = t.acc) :
    Quarantined s u a := ⟨eq.trans h.1, h.2.congr ea⟩

theorem Quarantined.service {s t : State} {a : Access} (h : Quarantined s t a) (k : Held) : Quarantined s (t.service k) a := by
  obtain ⟨_, _, _, _, _, e, _⟩ := State.service_frame t k
  refine ⟨?_, h.2.service k⟩
  rw [e]
  exact h.1

theorem Quarantined.logErr {s t : State} {a : Access} (h : Quarantined s t a) (e : ErrRec) : Quarantined s (t.logErr e) a := by
  obtain ⟨_, _, e⟩ := State.logErr_frame t e
  exact h.congr (by rw [e]) (by rw [e])

theorem Quarantined.drainHeld {s t : State} {a : Access} (h : Quarantined s t a) : Quarantined s t.drainHeld a := by
  obtain ⟨_, _, b, _, _, _, e, _⟩ := State.drainHeld_frame t
  obtain ⟨more, hm⟩ := h.2
  rw [e]
  exact ⟨h.1, more ++ b, by simp [hm]⟩

theorem Released.logErr {s t : State} {aid : Nat} (h : Released s t aid) (e : ErrRec) : Released s (t.logErr e) aid := by
  obtain ⟨_, _, e⟩ := State.logErr_frame t e
  exact h.congr (by rw [e])

@[simp] theorem State.logErr_fatal (s : State) (e : ErrRec) : (s.logErr e).fatal = s.fatal := by
  obtain ⟨_, _, e⟩ := State.logErr_frame s e
  rw [e]

/-- The access's tag is quarantined, and the access is issued again as it was (01 R32). -/
def AskedAgain (s t : State) (a : Access) : Prop :=
  Quarantined s t a ∧ Offered t a.purpose a.write a.addr a.len a.data

/-- An access whose tag is quarantined is issued again. -/
theorem State.quarantine_serviceAgain {s t : State} {a : Access} {k : Nat} (hf : s.fatal = false)
    (ht : t = (s.quarantine a).drainHeld.serviceAgain a k) : AskedAgain s t a ∧ PortsOnly { s with quar := t.quar } t := by
  have hq : Quarantined s t a := by
    rw [ht]
    exact (Quarantined.drain s a).service _
  have ho : Offered t a.purpose a.write a.addr a.len a.data := by
    rw [ht]
    exact (Asked.serviceAgain a k (by simpa using hf)).offered
  refine ⟨⟨hq, ho⟩, ?_⟩
  rw [hq.1, ht]
  exact (PortsOnly.quarantineDrain s a).trans (PortsOnly.serviceAgain _ a k)

/-- What stands answered or quarantined in u is issued again, with a record. -/
theorem State.logErr_serviceAgain {s u t : State} {a : Access} {e : ErrRec} {k : Nat} (hu : PortsOnly { s with quar := u.quar } u)
    (hf : s.fatal = false) (ht : t = (u.logErr e).serviceAgain a k) :
    Offered t a.purpose a.write a.addr a.len a.data ∧ t.quar = u.quar ∧ (∀ n, Released s u n → Released s t n) ∧
      PortsOnly { s with quar := t.quar, errQ := t.errQ, regs := t.regs } t := by
  have hfu : (u.logErr e).fatal = false := by
    rw [State.logErr_fatal]
    obtain ⟨_, _, _, _, _, _, e1⟩ := hu
    rw [e1]
    exact hf
  refine ⟨ht ▸ (Asked.serviceAgain a k hfu).offered, ?_, fun n hn => ht ▸ (hn.logErr e).service _, ?_⟩
  all_goals
    obtain ⟨_, _, e2⟩ := State.logErr_frame u e
    obtain ⟨_, _, _, _, _, _, e3⟩ := PortsOnly.serviceAgain (u.logErr e) a k
    rw [ht, e3, e2]
  · obtain ⟨_, _, _, _, _, _, e1⟩ := hu
    rw [e1]
    exact ⟨_, _, _, _, _, _, rfl⟩

/-- An access whose tag is quarantined is issued again, with its expiry logged. -/
theorem State.quarantine_logErr_serviceAgain {s t : State} {a : Access} {e : ErrRec} {k : Nat} (hf : s.fatal = false)
    (ht : t = ((s.quarantine a).drainHeld.logErr e).serviceAgain a k) :
    AskedAgain s t a ∧ PortsOnly { s with quar := t.quar, errQ := t.errQ, regs := t.regs } t := by
  have hq := Quarantined.drain s a
  have hu : PortsOnly { s with quar := (s.quarantine a).drainHeld.quar } (s.quarantine a).drainHeld := by
    rw [hq.1]
    exact PortsOnly.quarantineDrain s a
  obtain ⟨ho, hk, hr, hp⟩ := State.logErr_serviceAgain hu hf ht
  exact ⟨⟨⟨hk.trans hq.1, hr _ hq.2⟩, ho⟩, hp⟩

/-! O12, a clause for each kind of access. -/

theorem slotReadCeil_again (s : State) (aid : Nat) (a : Access) (c k : Nat) (ha : s.access aid = some a) (hf : s.fatal = false)
    (hx : expired s a = true) (hp : a.purpose = .slot c k ∨ a.purpose = .tail c k ∨ a.purpose = .parkSlot c k) :
    exec (.slotReadCeil aid) s = .next ((s.quarantine a).drainHeld.serviceAgain a 0) := by
  show execSlotReadCeil aid s = _
  unfold execSlotReadCeil State.readAgain
  rcases hp with h | h | h
  all_goals simp [ha, hf, hx, h]

theorem admMemCeil_again (s : State) (aid : Nat) (a : Access) (ha : s.access aid = some a) (hf : s.fatal = false)
    (hx : expired s a = true) (hp : isAdmin a.purpose = true) (he : ∀ q d, a.purpose ≠ .errLog q d) :
    exec (.admMemCeil aid) s = .next ((s.quarantine a).drainHeld.admAgain a 0) := by
  show execAdmMemCeil aid s = _
  unfold execAdmMemCeil
  simp only [ha, hf, hx, hp, Bool.not_true, Bool.or_false, Bool.false_eq_true, if_false]

theorem admMemCeil_errLog (s : State) (aid : Nat) (a : Access) (q : W32) (d : Bool) (ha : s.access aid = some a) (hf : s.fatal = false)
    (hx : expired s a = true) (hp : a.purpose = .errLog q d) :
    exec (.admMemCeil aid) s = .next (if 16 ≤ a.expiries + 1 then (s.quarantine a).drainHeld.errGiveUp q
      else (s.quarantine a).drainHeld.serviceAgain a 0) := by
  show execAdmMemCeil aid s = _
  unfold execAdmMemCeil State.errAgain
  simp [ha, hf, hx, hp, isAdmin]

/-- A given-up error-log write shows in ERR_LOG_STAT: LOG_LOST and, in bit 1, that it was given up (11 R358, R362). -/
theorem State.errGiveUp_stat (s : State) (q : W32) (w : s.regs.wf = true) :
    bit ((s.errGiveUp q).rd .errLogStat 0) 0 = true ∧ bit ((s.errGiveUp q).rd .errLogStat 0) 1 = true := by
  have hl := State.loseErr_stat s q w
  have hw : (s.loseErr q).regs.wf = true := by
    unfold State.loseErr
    split
    · exact State.wf_sEvent _ _ _ _ w
    · exact State.wf_sEvent _ _ _ _ (State.wf_wr _ _ _ _ w)
  unfold State.errGiveUp
  rw [State.bit_sEvent _ _ _ _ _ hw (by omega), State.bit_sEvent _ _ _ _ _ hw (by omega), bit_withBits _ _ _ _ _ (by omega),
    bit_withBits _ _ _ _ _ (by omega)]
  exact ⟨hl.1, rfl⟩

theorem State.errGiveUp_frame (s : State) (q : W32) : ∃ m, s.errGiveUp q = { s with regs := m } := by
  obtain ⟨_, e⟩ := State.loseErr_frame s q
  unfold State.errGiveUp
  rw [e]
  exact ⟨_, rfl⟩

/-- The give-up of an error-log write at its sixteenth expiry. -/
theorem admMemCeil_errGiveUp (s : State) (a : Access) (q : W32) (w : s.regs.wf = true) :
    ∃ t, t = (s.quarantine a).drainHeld.errGiveUp q ∧ Quarantined s t a ∧ PortsOnly { s with quar := t.quar, regs := t.regs } t ∧
      bit (t.rd .errLogStat 0) 0 = true ∧ bit (t.rd .errLogStat 0) 1 = true := by
  obtain ⟨_, _, _, _, _, _, e⟩ := State.quarantineDrain_eq s a
  obtain ⟨_, e'⟩ := State.errGiveUp_frame (s.quarantine a).drainHeld q
  refine ⟨_, rfl, (Quarantined.drain s a).congr (by rw [e']) (by rw [e']), ?_, State.errGiveUp_stat _ q (by rw [e]; exact w)⟩
  rw [e', e]
  exact ⟨_, _, _, _, _, _, rfl⟩

theorem ctxFetchCeil_again (s : State) (qid : Nat) (a : Access) (hq : qid < 2 ^ 22) (hw : awake s)
    (ha : s.acc.find? (fun a => (decide (a.purpose = .ctxFetch qid) || decide (a.purpose = .ctxWriteBack qid)) && expired s a) = some a) :
    exec (.ctxFetchCeil qid) s = .next ((s.quarantine a).drainHeld.ctxAgain a 0) := by
  show execCtxFetchCeil qid s = _
  unfold execCtxFetchCeil
  rw [if_neg (by omega), if_neg (by simp [hw.1, hw.2])]
  simp only [ha]

theorem recordWriteCeil_again (s : State) (aid : Nat) (a : Access) (ha : s.access aid = some a) (hf : s.fatal = false)
    (hx : expired s a = true) (hp : isRecordWrite a.purpose = true) (he : a.expiries + 1 < 16) :
    exec (.recordWriteCeil aid) s = .next
      ((((s.logDirty a.iid a.addr).quarantine a).serviceAgain { a with toSend := 0 } (recordQueue a.purpose)).drainHeld) := by
  show execRecordWriteCeil aid s = _
  unfold execRecordWriteCeil State.recordAgain
  simp [ha, hf, hx, hp, show ¬ 16 ≤ a.expiries + 1 by omega]

theorem State.serviceAgain_fatal (s : State) (a : Access) (k : Nat) : (s.serviceAgain a k).fatal = s.fatal := by
  obtain ⟨_, _, _, _, _, _, e⟩ := PortsOnly.serviceAgain s a k
  rw [e]

/-- The quarantined write is asked for again, and the ports are drained. -/
theorem recordAgain_asked {s t : State} {a : Access} {k : Nat} (hf : s.fatal = false)
    (ht : t = (((s.logDirty a.iid a.addr).quarantine a).serviceAgain { a with toSend := 0 } k).drainHeld) :
    AskedAgain s t a ∧ PortsOnly { s with quar := t.quar, dirtyQ := t.dirtyQ, dirtyFilter := t.dirtyFilter, is0 := t.is0,
                                          regs := t.regs, heldPulses := t.heldPulses } t := by
  generalize hu : (s.logDirty a.iid a.addr).quarantine a = u at ht
  have hp : PortsOnly u t := by
    rw [ht]
    exact (PortsOnly.serviceAgain _ _ _).trans (PortsOnly.drainHeld _)
  obtain ⟨_, _, _, _, _, e⟩ := State.logDirty_frame s a.iid a.addr
  have hq : Quarantined s u a := by
    rw [← hu, e]
    exact ⟨rfl, [], by simp [State.quarantine, State.dropAccess]⟩
  have hfu : u.fatal = false := by
    rw [← hu, e]
    exact hf
  refine ⟨⟨?_, ?_⟩, ?_⟩
  · rw [ht]
    exact (hq.service _).drainHeld
  · rw [ht]
    exact (((Asked.serviceAgain (s := u) { a with toSend := 0 } k hfu).drainHeld ((State.serviceAgain_fatal u _ k).trans hfu)).offered)
  · obtain ⟨_, _, _, _, _, _, e1⟩ := hp
    rw [e1, ← hu, e]
    exact ⟨_, _, _, _, _, _, rfl⟩

/-- Settles O12: every kind of access is issued again by one of three shapes, as it stands, with its expiry logged, or as a write whose
page is logged; an error-log write is given up at its sixteenth expiry. -/
theorem expiredAccessesAgain : Obligations.ExpiredAccessesAgain := by
  refine ⟨?_, ?_, ?_, ?_, ?_, ?_⟩
  · intro s aid a c k ha hf hx hp
    obtain ⟨⟨hq, ho⟩, hports⟩ := State.quarantine_serviceAgain (k := 0) hf rfl
    exact ⟨_, slotReadCeil_again s aid a c k ha hf hx hp, hq, ho, hports⟩
  · intro s aid a ha hf hx hp he
    obtain ⟨⟨hq, ho⟩, hports⟩ := State.quarantine_logErr_serviceAgain hf rfl
    exact ⟨_, admMemCeil_again s aid a ha hf hx hp he, hq, ho, hports⟩
  · intro s aid a q d ha hf hx hp hn
    obtain ⟨⟨hq, ho⟩, hports⟩ := State.quarantine_serviceAgain (k := 0) hf rfl
    refine ⟨_, (admMemCeil_errLog s aid a q d ha hf hx hp).trans (by rw [if_neg (by omega)]), hq, ho, hports⟩
  · intro s aid a q d ha hf hx hp hn hw
    obtain ⟨_, rfl, ht⟩ := admMemCeil_errGiveUp s a q hw
    exact ⟨_, (admMemCeil_errLog s aid a q d ha hf hx hp).trans (by rw [if_pos hn]), ht⟩
  · intro s qid a hq hw ha
    obtain ⟨⟨hq', ho⟩, hports⟩ := State.quarantine_logErr_serviceAgain hw.1 rfl
    exact ⟨_, ctxFetchCeil_again s qid a hq hw ha, hq', ho, hports⟩
  · intro s aid a ha hf hx hp hn
    obtain ⟨⟨hq, ho⟩, hports⟩ := recordAgain_asked hf rfl
    exact ⟨_, recordWriteCeil_again s aid a ha hf hx hp hn, hq, ho, hports⟩

end Sys2Proof.Machine
end

section
/-! PROOFS. The context cache at work: fetches, replaced ways and write-backs (01 R19, R32; 11 R562, R566). -/

namespace Sys2Proof.Machine

/-! A read that is answered. -/

theorem State.readEnds_drop {s : State} {a : Access} {ans : Answer} (h : codeSeen ans.code = 0 ∨ ans.last = true) :
    s.readEnds a ans = s.dropAccess a.aid := by
  unfold State.readEnds
  rw [if_neg]
  rintro ⟨h0, hl⟩
  rcases h with h | h
  · exact h0 h
  · simp [h] at hl

theorem State.readEnds_quarantine {s : State} {a : Access} {ans : Answer} (h : codeSeen ans.code ≠ 0) (hl : ans.last = false) :
    s.readEnds a ans = s.quarantine a := if_pos ⟨h, hl⟩

/-- An answered read is no longer outstanding; its tag is free, or quarantined where a beat that ends it with an error is not its last
(18 R522). -/
theorem State.readEnds_drain (s : State) (a : Access) (ans : Answer) :
    Released s (s.readEnds a ans).drainHeld a.aid ∧
    PortsOnly { s with quar := (s.readEnds a ans).drainHeld.quar } (s.readEnds a ans).drainHeld ∧
    ((codeSeen ans.code = 0 ∨ ans.last = true) → (s.readEnds a ans).drainHeld.quar = s.quar) ∧
    (codeSeen ans.code ≠ 0 → ans.last = false → Quarantined s (s.readEnds a ans).drainHeld a) := by
  by_cases h : codeSeen ans.code = 0 ∨ ans.last = true
  · rw [State.readEnds_drop h]
    have hp := PortsOnly.dropDrain s a.aid
    have hq : (s.dropAccess a.aid).drainHeld.quar = s.quar := by
      obtain ⟨_, _, _, _, _, _, e⟩ := hp
      rw [e]
    refine ⟨Released.dropDrain s a.aid, by rw [hq]; exact hp, fun _ => hq, fun h0 hl => ?_⟩
    rcases h with h | h
    · exact absurd h h0
    · simp [h] at hl
  · obtain ⟨h0, hl⟩ := not_or.1 h
    rw [State.readEnds_quarantine h0 (by simpa using hl)]
    have hq := Quarantined.drain s a
    exact ⟨hq.2, by rw [hq.1]; exact PortsOnly.quarantineDrain s a, fun h' => absurd h' h, fun _ _ => hq⟩

/-! A fetched context finds its place. -/

/-- Whose instance lands a sound answer makes no difference. -/
theorem State.land_clean_of {s : State} {a b : Access} {ans : Answer} (h : CleanAnswer a ans) (ha : b.addr = a.addr) (hl : b.len = a.len)
    (site qid slot clu : Nat) :
    s.land b ans.words site qid slot clu = (s, answerBytes a ans, (readBytes a.addr a.len ans.words).2) := by
  have e : s.land b ans.words site qid slot clu = (s, (readBytes b.addr b.len ans.words).1, (readBytes b.addr b.len ans.words).2) :=
    s.land_clean (a := b) (by unfold CleanAnswer; rw [ha, hl]; exact h) site qid slot clu
  rw [e, ha, hl]
  rfl

/-- A sound answer to a fetch, once its tag is free: the context is placed. -/
theorem ctxFetchResponse_clean {s : State} {aid : Nat} {a : Access} {ans : Answer} {qid : Nat} (ha : s.access aid = some a)
    (hp : a.purpose = .ctxFetch qid) (hf : s.fatal = false) (hc : ctxOn s = true) (hans : CleanAnswer a ans) :
    exec (.ctxFetchResponse aid ans) s = .next ((s.dropAccess a.aid).drainHeld.placeFetched qid
      (QCtx.fetched (wordsOfBytes (answerBytes a ans)))) := by
  show execCtxFetchResponse aid ans s = _
  unfold execCtxFetchResponse
  obtain ⟨h0, _, _, hm⟩ := id hans
  simp only [ha, hp, hf, hc, h0, State.readEnds_drop (.inl h0), State.land_clean_of hans, hm, ne_eq, not_true_eq_false, if_false,
    Bool.not_true, Bool.or_false, Bool.false_eq_true]

/-- A fetch that met a non-retryable error: the record and the time of its retry (11 R566). -/
def State.fetchFailed (s : State) (qid : Nat) (retry : Nat) (e : ErrRec) : State :=
  { s.logErr e with ctxRetry := assocPut s.ctxRetry qid retry }

theorem State.fetchFailed_eq (s : State) (qid retry : Nat) (e : ErrRec) : ∃ m q, s.fetchFailed qid retry e =
    { s with regs := m, errQ := q, ctxRetry := assocPut s.ctxRetry qid retry } := by
  obtain ⟨m, q, h⟩ := State.logErr_frame s e
  exact ⟨m, q, by rw [State.fetchFailed, h]⟩

/-- An answer to a fetch that brings an error. -/
theorem ctxFetchResponse_error {s : State} {aid : Nat} {a : Access} {ans : Answer} {qid : Nat} (ha : s.access aid = some a)
    (hp : a.purpose = .ctxFetch qid) (hf : s.fatal = false) (hc : ctxOn s = true) (h0 : codeSeen ans.code ≠ 0) :
    exec (.ctxFetchResponse aid ans) s = .next (
      if codeRetryable (codeSeen ans.code) then (s.readEnds a ans).drainHeld.ctxAgain a (codeSeen ans.code)
      else (s.readEnds a ans).drainHeld.fetchFailed qid (s.nomNs + fetchCeilNs s)
        (ctxErr s a qid 3 0x4E (codeSeen ans.code) (codeSeen ans.code).toNat)) := by
  show execCtxFetchResponse aid ans s = _
  unfold execCtxFetchResponse
  simp only [ha, hp, hf, hc, Bool.not_true, Bool.or_false, Bool.false_eq_true, if_false, if_pos h0]
  split
  · rfl
  · rfl

section
variable {u : State} {qid : Nat} {c : QCtx} (hq : u.queues.contains qid = true) (hm : homedAway u qid = false)
include hq hm

theorem State.placeFetched_free {k : Nat} (hk : freeWay u qid = some k) :
    u.placeFetched qid c = (u.placeWay qid k c false).ctxArrived qid := by
  unfold State.placeFetched
  rw [hq, hm, hk]
  rfl

/-- With no way free the victim gives its place, or is written back first; where everything is pinned the fetch waits. -/
theorem State.placeFetched_full (hk : freeWay u qid = none) :
    u.placeFetched qid c = match victim u qid with
      | some w =>
        if w.dirty then u.startFetch qid
        else (({ u with ways := u.ways.filter (fun v => v.qid != w.qid) } : State).placeWay qid w.way c false).ctxArrived qid
      | none => u := by
  unfold State.placeFetched
  rw [hq, hm, hk]
  cases hv : victim u qid with
  | none => rfl
  | some w => cases hd : w.dirty <;> simp [hd]

end

/-- What the ports change leaves where a context belongs. -/
theorem PortsOnly.ctxPlace {s u : State} (h : PortsOnly s u) (qid : Nat) :
    u.queues = s.queues ∧ homedAway u qid = homedAway s qid ∧ freeWay u qid = freeWay s qid := by
  obtain ⟨_, _, _, _, _, _, rfl⟩ := h
  exact ⟨rfl, rfl, rfl⟩

/-- A full set's dirty victim is written back, to make room. -/
theorem State.startFetch_evict {s : State} {qid : Nat} {w : Way} (hn : wayOf s qid = none) (hb : fetchBusy s qid = false)
    (hq : s.queues.contains qid = true) (hk : freeWay s qid = none) (hv : victim s qid = some w) (hd : w.dirty = true)
    (hw : wbBusy s w.qid = false) (hc : ctxOn s = true) : s.startFetch qid = s.evict w := by
  unfold State.startFetch State.fetchCtx
  simp only [hn, hb, hq, hk, hv, hd, hw, hc]
  rfl

theorem State.evict_quiet {s : State} {w : Way} (h : w.ctx.pendingCnt = 0) : s.evict w = s.writeBack w := by
  unfold State.evict
  rw [if_pos h]

/-- The least by a measure is in the list and has the least measure. -/
theorem leastBy_some {α : Type} {f : α → Nat} {xs : List α} {x : α} (h : leastBy f xs = some x) :
    x ∈ xs ∧ ∀ y ∈ xs, f x ≤ f y := by
  induction xs generalizing x with
  | nil => cases h
  | cons z zs ih =>
    unfold leastBy at h
    cases hz : leastBy f zs with
    | none =>
      have hnil : zs = [] := by
        cases zs with
        | nil => rfl
        | cons y ys =>
          unfold leastBy at hz
          split at hz
          · cases hz
          · split at hz <;> cases hz
      rw [hz] at h
      cases h
      simp [hnil]
    | some y =>
      obtain ⟨hy, hmin⟩ := ih hz
      rw [hz] at h
      dsimp only at h
      split at h
      · cases h
        refine ⟨List.mem_cons_self, fun v hv => ?_⟩
        rcases List.mem_cons.1 hv with rfl | hv
        · exact le_rfl
        · exact le_trans (by assumption) (hmin v hv)
      · cases h
        refine ⟨List.mem_cons_of_mem _ hy, fun v hv => ?_⟩
        rcases List.mem_cons.1 hv with rfl | hv
        · omega
        · exact hmin v hv

/-- The victim of a set is its least recently used way that nothing pins (01 R19). -/
theorem victim_spec {s : State} {qid : Nat} {w : Way} (h : victim s qid = some w) :
    pinned s w.qid = false ∧ sameSet w.qid qid = true ∧ w ∈ s.ways ∧
    ∀ v ∈ s.ways, sameSet v.qid qid = true → pinned s v.qid = false → v.age < 4 → w.age < 4 → v.age ≤ w.age := by
  obtain ⟨hw, hmin⟩ := leastBy_some h
  simp only [List.mem_filter, Bool.and_eq_true, Bool.not_eq_true'] at hw hmin
  obtain ⟨hm, hs, hp⟩ := hw
  refine ⟨hp, hs, hm, fun v hv hvs hvp h1 h2 => ?_⟩
  have := hmin v ⟨hv, hvs, hvp⟩
  omega

/-! Write-backs. -/

theorem assocGet_assocPut {β : Type} (xs : List (Nat × β)) (k : Nat) (v : β) : assocGet (assocPut xs k v) k = some v := by
  simp [assocGet, assocPut]

/-- A way whose write-back of `data` for queue qid is acknowledged: it is clean where its context has not changed since (01 R19). -/
def Way.acked (qid : Nat) (data : List Byte) (w : Way) : Way :=
  if w.qid = qid then { w with wbFault := false, dirty := w.dirty && decide (data ≠ bytesOfWords w.ctx.toWords) } else w

theorem Way.acked_qid (qid : Nat) (data : List Byte) (w : Way) : (w.acked qid data).qid = w.qid := by
  unfold Way.acked
  split
  · rfl
  · rfl

theorem Way.acked_ctx (qid : Nat) (data : List Byte) (w : Way) : (w.acked qid data).ctx = w.ctx := by
  unfold Way.acked
  split
  · rfl
  · rfl

theorem State.pumpCtx_idle {s : State} (hw : s.ctxWait = []) : s.pumpCtx = s := by
  unfold State.pumpCtx
  rw [hw]
  rfl

theorem createWaits_none {s : State} (hc : s.adm.cmd = none) : createWaits s true = none := by
  simp [createWaits, cmdOf, hc]

/-- Where nothing waits for a way of the cache, an acknowledged write-back does no more to its way. -/
theorem State.writtenBack_eq {s : State} {qid : Nat} {data : List Byte} (hw : s.ctxWait = []) (hc : s.adm.cmd = none) :
    s.writtenBack qid data = { s with ways := s.ways.map (Way.acked qid data) } := by
  unfold State.writtenBack
  dsimp only
  rw [State.pumpCtx_idle (by exact hw), createWaits_none (by exact hc)]
  rfl

/-- A queue's way is found among ways that are changed but for their queues. -/
theorem find_map_qid (f : Way → Way) (hf : ∀ w, (f w).qid = w.qid) (ws : List Way) (r : Nat) :
    (ws.map f).find? (fun w => w.qid == r) = (ws.find? (fun w => w.qid == r)).map f := by
  rw [List.find?_map]
  congr 2
  funext w
  simp [hf]

/-- The acknowledgement of a write-back, where nothing waits for a way of the cache. -/
theorem ctxWriteBackAck_good {s : State} {aid : Nat} {a : Access} {code : BitVec 6} {qid : Nat} (ha : s.access aid = some a)
    (hp : a.purpose = .ctxWriteBack qid) (hf : s.fatal = false) (h0 : codeSeen code = 0) :
    exec (.ctxWriteBackAck aid code) s = .next ((s.dropAccess a.aid).drainHeld.writtenBack qid a.data) := by
  show execCtxWriteBackAck aid code s = _
  unfold execCtxWriteBackAck
  simp [ha, hp, hf, h0, access_aid ha]

/-- A write-back that met a non-retryable error: the record, the marked way and the time of its retry (11 R566). -/
def State.wbFailed (s : State) (qid : Nat) (retry : Nat) (e : ErrRec) : State :=
  { s.logErr e with
    ways := upd (fun w => w.qid == qid) (fun w => { w with wbFault := true, dirty := true }) (s.logErr e).ways,
    ctxRetry := assocPut (s.logErr e).ctxRetry qid retry }

theorem State.wbFailed_eq (s : State) (qid retry : Nat) (e : ErrRec) : ∃ m q, s.wbFailed qid retry e =
    { s with regs := m, errQ := q, ctxRetry := assocPut s.ctxRetry qid retry,
             ways := upd (fun w => w.qid == qid) (fun w => { w with wbFault := true, dirty := true }) s.ways } := by
  obtain ⟨m, q, h⟩ := State.logErr_frame s e
  exact ⟨m, q, by rw [State.wbFailed, h]⟩

theorem ctxWriteBackAck_device {s : State} {aid : Nat} {a : Access} {code : BitVec 6} {qid : Nat} (ha : s.access aid = some a)
    (hp : a.purpose = .ctxWriteBack qid) (hf : s.fatal = false) (h0 : codeSeen code ≠ 0) (hr : codeRetryable (codeSeen code) = false) :
    exec (.ctxWriteBackAck aid code) s = .next ((s.dropAccess a.aid).drainHeld.wbFailed qid (s.nomNs + fetchCeilNs s)
      (ctxErr s a qid 3 0x4F (codeSeen code) (codeSeen code).toNat)) := by
  show execCtxWriteBackAck aid code s = _
  unfold execCtxWriteBackAck
  simp only [ha, hp, hf, h0, hr, access_aid ha, if_false, Bool.false_eq_true]
  rfl

/-- R422: the write-back of a changed context begins, and the queue's next one is due from now. -/
theorem contextWriteBack_begins {s : State} {qid : Nat} {w : Way} (hq : qid < 2 ^ 22) (hw : wayOf s qid = some w) (ha : awake s)
    (hfed : federated s = true) (hs : serves s = true) (hd : w.dirty = true) (hb : w.wbFault = false) (hwb : wbBusy s qid = false)
    (hm : homedAway s qid = false)
    (hdue : ∀ d, assocGet s.ctxWb qid = some d → d + 1000 * max 1 (s.fld .fedCtl 0 21 11) ≤ s.nomNs) :
    exec (.contextWriteBack qid) s = .next (({ s with ctxWb := assocPut s.ctxWb qid s.nomNs } : State).writeBack w) := by
  show execContextWriteBack qid s = _
  unfold execContextWriteBack
  rw [if_neg (by omega)]
  simp only [hw, hfed, hs, hd, hb, hwb, hm, ha.1, ha.2]
  cases hg : assocGet s.ctxWb qid with
  | none => simp
  | some d => simp [hdue d hg]

/-- What a write-back asks for. -/
theorem State.writeBack_asks {s t : State} {qid : Nat} {w : Way} (hw : wayOf s qid = some w) (hf : s.fatal = false) (hc : ctxOn s = true)
    (hb : assocGet s.ctxWb qid = some s.nomNs) (ht : t = s.writeBack w) :
    Offered t (.ctxWriteBack qid) true (ctxAddr s qid) 128 (bytesOfWords w.ctx.toWords) ∧
    assocGet t.ctxWb qid = some s.nomNs ∧ PortsOnly { s with ctxWb := t.ctxWb } t := by
  obtain rfl : w.qid = qid := by simpa using List.find?_some hw
  have hx : w.ctx = (ctxOf s w.qid).getD w.ctx := by
    rw [ctxOf, hw]
    rfl
  obtain ⟨m, hm, ht⟩ : ∃ m, assocGet m w.qid = some s.nomNs ∧ t = ((({ s with ctxWb := m } : State).bankAccess w.qid 5).service
      (mkHeld (.ctxWriteBack w.qid) w.qid true (ctxAddr s w.qid) 128 (sharedAttrs s 0) (bytesOfWords w.ctx.toWords) 0)) := by
    unfold State.writeBack at ht
    rw [if_neg (by simp [hc])] at ht
    dsimp only at ht
    split at ht
    · exact ⟨s.ctxWb, hb, by rw [hx]; exact ht⟩
    · exact ⟨assocPut s.ctxWb w.qid s.nomNs, assocGet_assocPut _ _ _, by rw [hx]; exact ht⟩
  have hp : PortsOnly { s with ctxWb := m } t := by
    rw [ht]
    exact (PortsOnly.bankAccess _ _ _).trans (PortsOnly.service _ _)
  have hwb : t.ctxWb = m := by
    obtain ⟨_, _, _, _, _, _, e⟩ := hp
    rw [e]
  refine ⟨?_, hwb ▸ hm, hwb ▸ hp⟩
  rw [ht]
  exact (Asked.service (s := ({ s with ctxWb := m } : State).bankAccess w.qid 5) hf rfl).offered

/-- Settles O15: answers to fetches by what they bring, the choice of the victim, and write-backs as they begin and are answered. -/
theorem contextTransfers : Obligations.ContextTransfers := by
  refine ⟨?_, ?_, ?_, ?_, ?_, ?_, ?_, ?_, ?_, ?_, ?_⟩
  · intro s aid a ans qid k ha hp hf hc hans hq hm hk
    have hu := PortsOnly.dropDrain s a.aid
    obtain ⟨eq, em, ek⟩ := hu.ctxPlace qid
    exact ⟨_, (ctxFetchResponse_clean ha hp hf hc hans).trans (congrArg _ (State.placeFetched_free (by rw [eq, hq]) (em.trans hm)
      (ek.trans hk))), Released.dropDrain s a.aid, hu⟩
  · intro s aid a ans qid ha hp hf hc hans hq hm hk
    have hu := PortsOnly.dropDrain s a.aid
    obtain ⟨eq, em, ek⟩ := hu.ctxPlace qid
    have he := (ctxFetchResponse_clean ha hp hf hc hans).trans (congrArg Host.Outcome.next
      (State.placeFetched_full (by rw [eq]; exact hq) (em.trans hm) (ek.trans hk)))
    refine ⟨_, Released.dropDrain s a.aid, hu, fun w hv hd => ?_, fun w hv hd => ?_, fun hv => ?_⟩
    · rw [he, hv]
      simp [hd]
    · rw [he, hv]
      simp [hd]
    · rw [he, hv]
  · intro s qid w hn hb hq hk hv hd hw hc
    exact ⟨State.startFetch_evict hn hb hq hk hv hd hw hc, State.evict_quiet⟩
  · intro s qid w hv
    exact victim_spec hv
  · intro s aid a ans qid ha hp hf hc h0 hr
    obtain ⟨hrel, hports, hsame, hquar⟩ := State.readEnds_drain s a ans
    obtain ⟨ho, hk, hrt, ht⟩ := State.logErr_serviceAgain hports hf rfl
    refine ⟨_, (ctxFetchResponse_error ha hp hf hc h0).trans (by rw [if_pos hr]; rfl), hrt _ hrel, ho, fun hl => hk.trans (hsame (.inr hl)),
      fun hl => ⟨hk.trans (hquar h0 hl).1, hrt _ hrel⟩, ht⟩
  · intro s aid a ans qid ha hp hf hc h0 hr
    obtain ⟨hrel, hports, -, -⟩ := State.readEnds_drain s a ans
    refine ⟨_, (ctxFetchResponse_error ha hp hf hc h0).trans (by rw [if_neg (by simp [hr])]), ?_⟩
    generalize (s.readEnds a ans).drainHeld = u at *
    obtain ⟨_, _, e⟩ := State.fetchFailed_eq u qid (s.nomNs + fetchCeilNs s) (ctxErr s a qid 3 0x4E (codeSeen ans.code)
      (codeSeen ans.code).toNat)
    rw [e]
    generalize u.quar = q at hports
    obtain ⟨_, _, _, _, _, _, rfl⟩ := hports
    exact ⟨hrel, assocGet_assocPut _ _ _, _, _, _, _, _, _, rfl⟩
  · intro s aid a ans qid ha hp hc
    show execCtxFetchResponse aid ans s = _
    simp [execCtxFetchResponse, ha, hp, hc]
  · intro s qid w hw
    simp [State.ctxArrived, hw]
  · intro s aid a code qid ha hp hf h0 hw hc _
    have hu := PortsOnly.dropDrain s a.aid
    have hrel := Released.dropDrain s a.aid
    have ht := ctxWriteBackAck_good ha hp hf h0
    generalize (s.dropAccess a.aid).drainHeld = u at *
    obtain ⟨_, _, _, _, _, _, rfl⟩ := hu
    refine ⟨_, ht.trans (congrArg _ (State.writtenBack_eq (by exact hw) (by exact hc))), hrel, ⟨_, _, _, _, _, _, rfl⟩, ?_, fun r => ?_⟩
    · refine (find_map_qid _ (Way.acked_qid qid a.data) s.ways qid).trans (Option.map_congr fun w hw' => ?_)
      exact if_pos (by simpa using List.find?_some hw')
    · refine (congrArg _ (find_map_qid _ (Way.acked_qid qid a.data) s.ways r)).trans ?_
      simp [ctxOf, wayOf, Way.acked_ctx, Function.comp_def]
  · intro s aid a code qid ha hp hf h0 hr
    have hu := PortsOnly.dropDrain s a.aid
    have hrel := Released.dropDrain s a.aid
    refine ⟨_, ctxWriteBackAck_device ha hp hf h0 hr, ?_⟩
    generalize (s.dropAccess a.aid).drainHeld = u at *
    obtain ⟨_, _, e⟩ := State.wbFailed_eq u qid (s.nomNs + fetchCeilNs s) (ctxErr s a qid 3 0x4F (codeSeen code) (codeSeen code).toNat)
    rw [e]
    obtain ⟨_, _, _, _, _, _, rfl⟩ := hu
    exact ⟨hrel, find_upd (fun w : Way => w.qid == qid) (fun w => { w with wbFault := true, dirty := true }) (fun _ h => h) s.ways,
      assocGet_assocPut _ _ _, _, _, _, _, _, _, rfl⟩
  · intro s qid w hq hw ha hfed hs hd hb hwb hm hc hdue
    obtain ⟨ho, hg, hports⟩ := State.writeBack_asks (s := { s with ctxWb := assocPut s.ctxWb qid s.nomNs }) hw ha.1 hc
      (assocGet_assocPut _ _ _) rfl
    exact ⟨_, contextWriteBack_begins hq hw ha hfed hs hd hb hwb hm hdue, ho, hg, hports⟩

end Sys2Proof.Machine
end

section
/-! PROOFS. The check byte of a word (06 R213 to R215, R257). -/

namespace Sys2Proof.Machine

theorem bit_xor {n : Nat} (a b : BitVec n) (i : Nat) : bit (a ^^^ b) i = (bit a i ^^ bit b i) := by
  simp only [bit_eq, BitVec.getLsbD_xor]

/-- A word without an error. -/
theorem xor_no_error {n : Nat} (x : BitVec n) : x ^^^ 0 = x := BitVec.xor_zero

/-- The positions of the set bits of a sum of words add up. -/
theorem secdedXor_xor (d e : W64) : secdedXor (d ^^^ e) = secdedXor d ^^^ secdedXor e := by
  have go : ∀ (ps : List (Nat × Nat)) (x y : Nat),
      ps.foldl (fun s p => if bit (d ^^^ e) p.2 then s ^^^ p.1 else s) (x ^^^ y) =
        ps.foldl (fun s p => if bit d p.2 then s ^^^ p.1 else s) x ^^^ ps.foldl (fun s p => if bit e p.2 then s ^^^ p.1 else s) y := by
    intro ps
    induction ps with
    | nil => intro x y; rfl
    | cons p ps ih =>
      intro x y
      simp only [List.foldl_cons]
      rw [← ih]
      congr 1
      rw [bit_xor]
      cases bit d p.2 <;> cases bit e p.2 <;> simp [Nat.xor_comm, Nat.xor_left_comm]
  exact go _ 0 0

theorem secdedXor_lt (d : W64) : secdedXor d < 128 := by
  have go : ∀ (ps : List (Nat × Nat)) (x : Nat), x < 2 ^ 7 → (∀ p ∈ ps, p.1 < 2 ^ 7) →
      ps.foldl (fun s p => if bit d p.2 then s ^^^ p.1 else s) x < 2 ^ 7 := by
    intro ps
    induction ps with
    | nil => intro x hx _; exact hx
    | cons p ps ih =>
      intro x hx hp
      refine ih _ (?_ : (if bit d p.2 then x ^^^ p.1 else x) < 2 ^ 7) (fun q hq => hp q (List.mem_cons_of_mem _ hq))
      split
      · exact Nat.xor_lt_two_pow hx (hp p List.mem_cons_self)
      · exact hx
  exact go _ 0 (by decide) (by decide +kernel)

/-- Parities add up. -/
theorem oddParity_xor {n : Nat} (a b : BitVec n) : oddParity (a ^^^ b) = (oddParity a ^^ oddParity b) := by
  have go : ∀ (is : List Nat) (x y : Bool), is.foldl (fun p i => p ^^ bit (a ^^^ b) i) (x ^^ y) =
      (is.foldl (fun p i => p ^^ bit a i) x ^^ is.foldl (fun p i => p ^^ bit b i) y) := by
    intro is
    induction is with
    | nil => intro x y; rfl
    | cons i is ih =>
      intro x y
      simp only [List.foldl_cons]
      rw [← ih, bit_xor]
      congr 1
      cases x <;> cases y <;> cases bit a i <;> cases bit b i <;> rfl
  exact go _ false false

/-- The eighth check bit makes the parity of a word with its check bits even (06 R214). -/
theorem oddParity_check (d : W64) : oddParity (secdedCheck d) = oddParity d := by
  have h : ∀ x < 128, ∀ b : Bool, oddParity (BitVec.ofNat 8 (x + 128 * flag b)) = (oddParity (BitVec.ofNat 7 x) ^^ b) := by
    decide +kernel
  rw [secdedCheck, h _ (secdedXor_lt d)]
  cases oddParity d <;> cases oddParity (BitVec.ofNat 7 (secdedXor d)) <;> rfl

theorem secdedCheck_low (d : W64) : (secdedCheck d).toNat % 128 = secdedXor d := by
  have := secdedXor_lt d
  rw [secdedCheck, BitVec.toNat_ofNat]
  omega

/-- The syndrome of a word with its check byte, either with an error, is that of the error alone (06 R215). -/
theorem secdedSyndrome_error (d e : W64) (f : Byte) :
    secdedSyndrome (d ^^^ e) (secdedCheck d ^^^ f) = secdedSyndrome e f := by
  unfold secdedSyndrome
  rw [secdedXor_xor, BitVec.toNat_xor, show (128 : Nat) = 2 ^ 7 from rfl, Nat.xor_mod_two_pow, show (2 ^ 7 : Nat) = 128 from rfl,
    secdedCheck_low, Nat.xor_comm (secdedXor d) (secdedXor e), Nat.xor_assoc, ← Nat.xor_assoc (secdedXor d), Nat.xor_self, Nat.zero_xor]

theorem oddParity_error (d e : W64) (f : Byte) :
    (oddParity (d ^^^ e) ^^ oddParity (secdedCheck d ^^^ f)) = (oddParity e ^^ oddParity f) := by
  rw [oddParity_xor, oddParity_xor, oddParity_check]
  cases oddParity d <;> cases oddParity e <;> cases oddParity f <;> rfl

/-- A word with the bit flipped that stands at position n, or as it is where a check bit stands there (06 R215). -/
def flippedAt (w : W64) (n : Nat) : W64 :=
  match secdedPositions.findIdx? (· == n) with
  | some i => w ^^^ BitVec.ofNat 64 (2 ^ i)
  | none => w

theorem flippedAt_data {n i : Nat} (w : W64) (h : secdedPositions.findIdx? (· == n) = some i) :
    flippedAt w n = w ^^^ BitVec.ofNat 64 (2 ^ i) := by
  unfold flippedAt
  rw [h]

theorem flippedAt_check {n : Nat} (w : W64) (h : secdedPositions.findIdx? (· == n) = none) : flippedAt w n = w := by
  unfold flippedAt
  rw [h]

/-- What decoding makes of an error e in the data and f in the check byte depends on the error alone. -/
theorem secdedDecode_error (d e : W64) (f : Byte) :
    secdedDecode (d ^^^ e) (secdedCheck d ^^^ f) =
      if secdedSyndrome e f = 0 then (d ^^^ e, if oddParity e ^^ oddParity f then .corrected else .clean)
      else if (oddParity e ^^ oddParity f) && decide (secdedSyndrome e f ≤ 71) then
        (flippedAt (d ^^^ e) (secdedSyndrome e f), .corrected)
      else (d ^^^ e, .uncorrectable) := by
  unfold secdedDecode
  simp only [secdedSyndrome_error, oddParity_error]
  rfl

/-- The syndrome of one flipped data bit is its position. -/
theorem secdedSyndrome_data : ∀ i < 64, secdedSyndrome (BitVec.ofNat 64 (2 ^ i)) 0 ≠ 0 ∧ secdedSyndrome (BitVec.ofNat 64 (2 ^ i)) 0 ≤ 71 ∧
    secdedPositions.findIdx? (· == secdedSyndrome (BitVec.ofNat 64 (2 ^ i)) 0) = some i ∧ oddParity (BitVec.ofNat 64 (2 ^ i)) = true := by
  decide +kernel

theorem secdedSyndrome_zero : secdedSyndrome 0 0 = 0 := by decide +kernel

theorem secdedSyndrome_three : secdedSyndrome 0 3 ≠ 0 := by decide +kernel

theorem oddParity_zero : oddParity (0 : W64) = false := by decide +kernel

theorem oddParity_zero_check : oddParity (0 : Byte) = false := by decide +kernel

theorem oddParity_three_check : oddParity (3 : Byte) = false := by decide +kernel

theorem secdedDecode_clean (d : W64) : secdedDecode d (secdedCheck d) = (d, .clean) := by
  have h := secdedDecode_error d 0 0
  rw [xor_no_error, xor_no_error, if_pos secdedSyndrome_zero, oddParity_zero, oddParity_zero_check] at h
  exact h

theorem secdedDecode_inverted (d : W64) : (secdedDecode d (secdedCheck d ^^^ 3)).2 = .uncorrectable := by
  have h := secdedDecode_error d 0 3
  rw [xor_no_error, if_neg secdedSyndrome_three, oddParity_zero, oddParity_three_check] at h
  rw [h]
  rfl

theorem secdedDecode_data (d : W64) (i : Nat) (hi : i < 64) :
    secdedDecode (d ^^^ BitVec.ofNat 64 (2 ^ i)) (secdedCheck d) = (d, .corrected) := by
  obtain ⟨h0, hle, hx, hp⟩ := secdedSyndrome_data i hi
  have h := secdedDecode_error d (BitVec.ofNat 64 (2 ^ i)) 0
  rw [xor_no_error, if_neg h0, if_pos (by rw [hp, oddParity_zero_check, decide_eq_true hle]; rfl), flippedAt_data _ hx, BitVec.xor_assoc,
    BitVec.xor_self] at h
  exact h.trans (by rw [BitVec.xor_zero])

theorem secdedDecode_check (d : W64) (j : Nat) (hj : j < 8) :
    secdedDecode d (secdedCheck d ^^^ BitVec.ofNat 8 (2 ^ j)) = (d, .corrected) := by
  have hs : ∀ j < 8, (secdedSyndrome 0 (BitVec.ofNat 8 (2 ^ j)) = 0 ∨ secdedSyndrome 0 (BitVec.ofNat 8 (2 ^ j)) ≤ 71) ∧
      secdedPositions.findIdx? (· == secdedSyndrome 0 (BitVec.ofNat 8 (2 ^ j))) = none ∧
      (oddParity (0 : W64) ^^ oddParity (BitVec.ofNat 8 (2 ^ j))) = true := by
    decide +kernel
  obtain ⟨hle, hx, hp⟩ := hs j hj
  have h := secdedDecode_error d 0 (BitVec.ofNat 8 (2 ^ j))
  rw [xor_no_error, hp, flippedAt_check _ hx] at h
  rw [h]
  split
  · rfl
  · rw [if_pos (by simpa using hle.resolve_left (by assumption))]

theorem secdedDecode_double (d : W64) (i k : Nat) (hi : i < 64) (hk : k < 64) (hn : i ≠ k) :
    (secdedDecode (d ^^^ BitVec.ofNat 64 (2 ^ i) ^^^ BitVec.ofNat 64 (2 ^ k)) (secdedCheck d)).2 = .uncorrectable := by
  obtain ⟨_, _, hx, hp⟩ := secdedSyndrome_data i hi
  obtain ⟨_, _, hy, hq⟩ := secdedSyndrome_data k hk
  have h := secdedDecode_error d (BitVec.ofNat 64 (2 ^ i) ^^^ BitVec.ofNat 64 (2 ^ k)) 0
  have hs : secdedSyndrome (BitVec.ofNat 64 (2 ^ i) ^^^ BitVec.ofNat 64 (2 ^ k)) 0 ≠ 0 := by
    intro h0
    have e : secdedXor (BitVec.ofNat 64 (2 ^ i)) = secdedXor (BitVec.ofNat 64 (2 ^ k)) := by
      rw [secdedSyndrome, secdedXor_xor] at h0
      exact Nat.xor_eq_zero_iff.1 (by simpa using h0)
    unfold secdedSyndrome at hx hy
    rw [e] at hx
    exact hn (Option.some.inj (hx.symm.trans hy))
  rw [xor_no_error, if_neg hs, oddParity_xor, hp, hq] at h
  rw [BitVec.xor_assoc, h]
  rfl

/-- The check byte of a word: what one and two errors make of it (06 R213 to R215, R257). -/
theorem secdedDecode_errors (d : W64) (c : Byte) (hc : c = secdedCheck d) :
    secdedDecode d c = (d, .clean) ∧ (secdedDecode d (c ^^^ 3)).2 = .uncorrectable ∧
    (∀ i, i < 64 → secdedDecode (d ^^^ BitVec.ofNat 64 (2 ^ i)) c = (d, .corrected)) ∧
    (∀ j, j < 8 → secdedDecode d (c ^^^ BitVec.ofNat 8 (2 ^ j)) = (d, .corrected)) ∧
    (∀ i k, i < 64 → k < 64 → i ≠ k →
      (secdedDecode (d ^^^ BitVec.ofNat 64 (2 ^ i) ^^^ BitVec.ofNat 64 (2 ^ k)) c).2 = .uncorrectable) := by
  subst hc
  exact ⟨secdedDecode_clean d, secdedDecode_inverted d, secdedDecode_data d, secdedDecode_check d, secdedDecode_double d⟩

end Sys2Proof.Machine
end

section
/-! PROOFS. Answers to data and table reads (03 R120; 04 R151; 05 R159; 18 R521, R522). -/

namespace Sys2Proof.Machine

/-- A slot found at a place stands there. -/
theorem slotAt_place {s : State} {c i : Nat} {x : Slot} (h : slotAt s c i = some x) : x.clu = c ∧ x.idx = i := by
  simpa using List.find?_some h

theorem slotAt_of_slots {s u : State} (h : u.slots = s.slots) (c i : Nat) : slotAt u c i = slotAt s c i := by
  rw [slotAt, slotAt, h]

/-- A completion timestamp is the slot's own (01 R30). -/
theorem slotAt_stampDone {s : State} {c i : Nat} {x : Slot} (h : slotAt s c i = some x) :
    slotAt (s.stampDone c i) c i = some (stampedDone s x) := by
  rw [State.stampDone, slotAt_updSlot s c i (stampedDone s) (fun _ => ⟨rfl, rfl⟩), h]
  rfl

theorem State.stampRead_of_dest (s : State) {x : Slot} (h : (dKind x.desc).noDest = false) : s.stampRead x = s := by
  rw [State.stampRead, h]
  rfl

theorem State.stampRead_of_noDest (s : State) {x : Slot} (h : (dKind x.desc).noDest = true) :
    s.stampRead x = s.stampDone x.clu x.idx := by
  rw [State.stampRead, h]
  rfl

/-- What the ports change leaves the slots as they are. -/
theorem PortsOnly.slots {s u : State} (h : PortsOnly s u) : u.slots = s.slots := by
  obtain ⟨_, _, _, _, _, _, rfl⟩ := h
  rfl

/-- A state that only the ports have changed, with the slots changed in both. -/
theorem PortsOnly.updSlots {s u : State} (h : PortsOnly s u) (t : List Slot) : PortsOnly { s with slots := t } { u with slots := t } := by
  obtain ⟨_, _, _, _, _, _, rfl⟩ := h
  exact ⟨_, _, _, _, _, _, rfl⟩

/-! An answer to a data read. -/

/-- The answer to a data read goes to the slot that waits for it. -/
theorem readResponse_data {s : State} {aid : Nat} {a : Access} {ans : Answer} {c i n : Nat} {x : Slot} (ha : s.access aid = some a)
    (hp : a.purpose = .data c i n) (hw : a.write = false) (hf : s.fatal = false)
    (hx : slotAt (s.readEnds a ans).drainHeld c i = some x) :
    exec (.readResponse aid ans) s = .next ((s.readEnds a ans).drainHeld.dataAnswer x n a ans) := by
  show execReadResponse aid ans s = _
  unfold execReadResponse
  simp only [ha, hp, hw, hf, hx, Bool.or_false, Bool.false_eq_true, if_false]

theorem State.dataAnswer_clean (u : State) (x : Slot) (n : Nat) {a : Access} {ans : Answer} (h : CleanAnswer a ans) :
    u.dataAnswer x n a ans = (u.landData x n a ans.words).settle x.clu x.idx := by
  obtain ⟨h0, _, _, hm⟩ := id h
  unfold State.dataAnswer
  simp only [h0, ne_eq, not_true_eq_false, if_false, u.land_clean h, hm]

theorem State.dataAnswer_retryable (u : State) (x : Slot) (n : Nat) (a : Access) {ans : Answer} (h0 : codeSeen ans.code ≠ 0)
    (hr : codeRetryable (codeSeen ans.code) = true) :
    u.dataAnswer x n a ans = (u.stampRead x).readFault x n a 0x26 (codeSeen ans.code) := by
  unfold State.dataAnswer
  rw [if_pos h0, if_pos hr]

theorem State.dataAnswer_fatal (u : State) (x : Slot) (n : Nat) (a : Access) {ans : Answer} (h0 : codeSeen ans.code ≠ 0)
    (hr : codeRetryable (codeSeen ans.code) = false) :
    u.dataAnswer x n a ans = (u.stampRead x).endWith x.clu x.idx 7 (codeSeen ans.code) a.addr (some n) := by
  unfold State.dataAnswer
  rw [if_pos h0, hr]
  rfl

/-- Sound bytes of a loaf without a store, with no fault to inject, stand in its landing lines (05 R159). -/
theorem State.landData_plain {s : State} {x : Slot} (n : Nat) (a : Access) (words : List (W64 × Byte)) (hs : hasStore x.desc = false)
    (h0 : injects s x.clu 0 = false) (h2 : injects s x.clu 2 = false) (hd : (dKind x.desc).noDest = false) :
    s.landData x n a words = s.updSlot x.clu x.idx (fun y =>
      (y.updLoaf n (fun l => { l with frags := l.frags ++ fragsOf a.addr words a.spans (dSrcNi x.desc) })).pack) := by
  unfold State.landData
  cases hl : loafOf x n with
  | none =>
    simp only [h0, h2, Bool.or_false, Bool.false_eq_true, if_false, Bool.not_false, if_true]
    exact State.stampRead_of_dest _ hd
  | some l =>
    simp only [hs, h0, h2, Bool.false_and, Bool.or_false, Bool.false_eq_true, if_false, Bool.not_false, if_true]
    exact State.stampRead_of_dest _ hd

theorem Slot.pack_of_noStore {x : Slot} (h : hasStore x.desc = false) : x.pack = x := by
  unfold Slot.pack
  rw [h]
  cases x.loaves <;> rfl

theorem Slot.pack_place (x : Slot) : x.pack.clu = x.clu ∧ x.pack.idx = x.idx := by
  unfold Slot.pack
  split
  · split
    · exact ⟨rfl, rfl⟩
    · exact ⟨rfl, rfl⟩
  · exact ⟨rfl, rfl⟩

theorem loafOf_updLoaf {x : Slot} {n : Nat} {l : Loaf} (f : Loaf → Loaf) (hf : ∀ m, (f m).num = m.num) (h : loafOf x n = some l) :
    loafOf (x.updLoaf n f) n = some (f l) := by
  have e := find_upd (fun l : Loaf => l.num == n) f (fun m hm => by rw [hf]; exact hm) x.loaves
  rw [loafOf] at h
  rw [h] at e
  exact e

theorem landData_lands {s : State} {x : Slot} {n : Nat} {a : Access} {words : List (W64 × Byte)} {l : Loaf}
    (hx : slotAt s x.clu x.idx = some x) (hl : loafOf x n = some l) (hs : hasStore x.desc = false) (h0 : injects s x.clu 0 = false)
    (h2 : injects s x.clu 2 = false) (hd : (dKind x.desc).noDest = false) :
    ∃ (y : Slot) (m : Loaf), slotAt (s.landData x n a words) x.clu x.idx = some y ∧ loafOf y n = some m ∧
      m.frags = l.frags ++ fragsOf a.addr words a.spans (dSrcNi x.desc) ∧
      s.landData x n a words = { s with slots := (s.landData x n a words).slots } := by
  let add : Loaf → Loaf := fun l => { l with frags := l.frags ++ fragsOf a.addr words a.spans (dSrcNi x.desc) }
  rw [State.landData_plain n a words hs h0 h2 hd]
  refine ⟨x.updLoaf n add, add l, ?_, loafOf_updLoaf add (fun _ => rfl) hl, rfl, rfl⟩
  rw [slotAt_updSlot s x.clu x.idx _ (fun y => Slot.pack_place (y.updLoaf n add)), hx]
  exact congrArg some (Slot.pack_of_noStore (x := x.updLoaf n add) hs)

/-! An answer to a table read. -/

theorem readResponse_table {s : State} {aid : Nat} {a : Access} {ans : Answer} {c i f n : Nat} {x : Slot} (ha : s.access aid = some a)
    (hp : a.purpose = .table c i f n) (hw : a.write = false) (hf : s.fatal = false)
    (hx : slotAt (s.readEnds a ans).drainHeld c i = some x) :
    exec (.readResponse aid ans) s = .next ((s.readEnds a ans).drainHeld.tableAnswer x f a ans) := by
  show execReadResponse aid ans s = _
  unfold execReadResponse
  simp only [ha, hp, hw, hf, hx, Bool.or_false, Bool.false_eq_true, if_false]

/-- The entries that a slot takes of a table read: those it does not hold, or is to read again. -/
def Slot.taken (x : Slot) (f : Nat) (bytes : List Byte) : Entries :=
  (entriesOf x.desc f bytes).filter (fun e => (entryOf x.entries e.1).isNone || x.stale.contains e.1)

/-- A slot with the entries of a table read. -/
def Slot.withEntries (es : Entries) (y : Slot) : Slot :=
  Slot.extend { y with
    entries := dropIf (fun e => es.any (fun k => k.1 == e.1)) y.entries ++ es,
    stale := dropIf (fun k => es.any (fun e => e.1 == k)) y.stale }

theorem State.tableAnswer_clean (u : State) (x : Slot) (f : Nat) {a : Access} {ans : Answer} (h : CleanAnswer a ans) :
    u.tableAnswer x f a ans =
      (((u.freeTable x f).updSlot x.clu x.idx (Slot.withEntries (x.taken f (answerBytes a ans)))).walkFault x.clu x.idx).settle x.clu x.idx := by
  obtain ⟨h0, _, _, hm⟩ := id h
  unfold State.tableAnswer
  simp only [h0, ne_eq, not_true_eq_false, if_false, State.land_clean _ h, hm]
  rfl

theorem slotAt_freeTable {u : State} {c i : Nat} {x : Slot} (h : slotAt u c i = some x) (hc : x.clu = c) (hi : x.idx = i) (f : Nat) :
    slotAt (u.freeTable x f) c i = some { x with lines := dropIf (fun r => r.ofTable f) x.lines } := by
  subst hc hi
  exact (slotAt_updSlot u x.clu x.idx (fun y => { y with lines := dropIf (fun r => r.ofTable f) y.lines }) (fun _ => ⟨rfl, rfl⟩)).trans
    (by rw [h]; rfl)

/-- Settles O26: an answered read's tag is free, or quarantined, in `readEnds_drain`; then each kind of answer has its own lemma. -/
theorem dataReadAnswers : Obligations.DataReadAnswers := by
  unfold Obligations.DataReadAnswers
  refine ⟨?_, secdedDecode_errors, fun s x hx => ⟨s.stampRead_of_dest, fun hd => ?_⟩, ?_, ?_⟩
  · intro s aid a ans c i n x ha hp hw hf hx hc hi
    obtain ⟨hrel, hports, hsame, hquar⟩ := s.readEnds_drain a ans
    have hu : slotAt (s.readEnds a ans).drainHeld c i = some x := by
      rw [slotAt_of_slots (s := s) hports.slots, hx]
    have hexec := readResponse_data ha hp hw hf hu
    refine ⟨_, hrel, hports, hsame, fun h0 hl => (hquar h0 hl).1, fun h => ?_, fun h0 hr => ?_, fun h0 hr => ?_⟩
    · rw [hexec, State.dataAnswer_clean _ x n h, hc, hi]
    · rw [hexec, State.dataAnswer_retryable _ x n a h0 hr]
    · rw [hexec, State.dataAnswer_fatal _ x n a h0 hr, hc, hi]
  · rw [s.stampRead_of_noDest hd]
    exact slotAt_stampDone hx
  · intro s aid a ans c i f n x es ha hp hw hf hx hans hes
    obtain ⟨hc, hi⟩ := slotAt_place hx
    obtain ⟨hrel, hports, hsame, _⟩ := s.readEnds_drain a ans
    have hq := hsame (.inl hans.1)
    have hu : slotAt (s.readEnds a ans).drainHeld c i = some x := by
      rw [slotAt_of_slots (s := s) hports.slots, hx]
    have hexec := readResponse_table ha hp hw hf hu
    generalize (s.readEnds a ans).drainHeld = u at *
    refine ⟨(u.freeTable x f).updSlot c i (Slot.withEntries es), hrel, ?_, ?_, ?_⟩
    · rw [hq] at hports
      exact hports.updSlots _
    · rw [hexec, State.tableAnswer_clean _ x f hans, hc, hi, hes]
      rfl
    · rw [slotAt_updSlot _ c i (Slot.withEntries es) (fun _ => ⟨rfl, rfl⟩), slotAt_freeTable hu hc hi]
      rfl
  · intro s x n a words l hx hl hs h0 h2 hd
    exact landData_lands hx hl hs h0 h2 hd

end Sys2Proof.Machine
end

section
/-! PROOFS. Answers to writes (05 R183, R191; 08 R246, R252; 14 R436). -/

namespace Sys2Proof.Machine

/-- The write's page is logged, and its ID is free (10 R336). -/
def State.writeEnds (s : State) (a : Access) : State := ((s.logDirty a.iid a.addr).dropAccess a.aid).drainHeld

/-- An answered write is no longer outstanding; beyond the ports only the dirty log changes. -/
theorem State.writeEnds_drain (s : State) (a : Access) :
    Released s (s.writeEnds a) a.aid ∧
    PortsOnly { s with dirtyQ := (s.writeEnds a).dirtyQ, dirtyFilter := (s.writeEnds a).dirtyFilter, is0 := (s.writeEnds a).is0,
                       regs := (s.writeEnds a).regs, heldPulses := (s.writeEnds a).heldPulses } (s.writeEnds a) ∧
    (s.writeEnds a).slots = s.slots := by
  obtain ⟨i, r, h, q, f, e⟩ := State.logDirty_frame s a.iid a.addr
  have hr := Released.dropDrain (s.logDirty a.iid a.addr) a.aid
  have hp := PortsOnly.dropDrain (s.logDirty a.iid a.addr) a.aid
  rw [← State.writeEnds] at hr hp
  generalize s.writeEnds a = u at *
  rw [e] at hr hp
  obtain ⟨_, _, _, _, _, _, rfl⟩ := hp
  exact ⟨hr, ⟨_, _, _, _, _, _, rfl⟩, rfl⟩

/-- Instance 0 has no dirty log (10 R336). -/
theorem State.logDirty_zero (s : State) (addr : Nat) : s.logDirty 0 addr = s := by
  unfold State.logDirty
  rw [if_pos (.inl rfl)]

theorem State.writeEnds_zero (s : State) {a : Access} (h : a.iid = 0) :
    Released s (s.writeEnds a) a.aid ∧ PortsOnly s (s.writeEnds a) := by
  rw [State.writeEnds, h, State.logDirty_zero]
  exact ⟨Released.dropDrain s a.aid, PortsOnly.dropDrain s a.aid⟩

/-- A member's witness time starts anew (14 R436). -/
def State.witnessAcked (u : State) : State := { u with fed := { u.fed with witnessAck := u.nomNs } }

theorem State.witnessAcked_acc (u : State) : u.witnessAcked.acc = u.acc := rfl

/-- Beyond the ports only the witness time changes. -/
theorem PortsOnly.witnessAcked {s u : State} (h : PortsOnly s u) :
    u.witnessAcked.fed.witnessAck = s.nomNs ∧ PortsOnly { s with fed := u.witnessAcked.fed } u.witnessAcked := by
  obtain ⟨_, _, _, _, _, _, rfl⟩ := h
  exact ⟨rfl, _, _, _, _, _, _, rfl⟩

/-- The answer to a write of a loaf before its release (08 R252). -/
theorem State.dataWriteAnswer_unreleased (s : State) {x : Slot} {n : Nat} (a : Access) (code : BitVec 6) (h : isReleased x n = false) :
    s.dataWriteAnswer x n a code =
      if codeSeen code = 0 then (((s.stampDone x.clu x.idx).relEval x.clu x.idx).settle x.clu x.idx).leaveNow x.clu x.idx
      else if codeRetryable (codeSeen code) then s.fabricFault x.clu x.idx n 0x26 false (codeSeen code) a.addr
      else s.endWith x.clu x.idx 8 (codeSeen code) a.addr (some n) := by
  unfold State.dataWriteAnswer
  cases hl : loafOf x n with
  | none => rfl
  | some l =>
    have hr : l.released = false := by
      rw [isReleased, hl] at h
      exact h
    simp only [hr, Bool.false_eq_true, if_false]

/-- After its release a write that fails for good ends the descriptor with status 9 (05 R191). -/
theorem State.dataWriteAnswer_released (s : State) {x : Slot} {n : Nat} (a : Access) {code : BitVec 6} (h : isReleased x n = true)
    (h0 : codeSeen code ≠ 0) (hc : codeRetryable (codeSeen code) = false) :
    s.dataWriteAnswer x n a code = s.endWith x.clu x.idx 9 (codeSeen code) a.addr (some n) := by
  unfold State.dataWriteAnswer
  cases hl : loafOf x n with
  | none =>
    rw [isReleased, hl] at h
    cases h
  | some l =>
    have hr : l.released = true := by
      rw [isReleased, hl] at h
      exact h
    simp only [hr, hc, if_neg h0, Bool.false_and, Bool.false_eq_true, if_false, if_true]

section
variable {s : State} {aid : Nat} {a : Access} (code : BitVec 6) (ha : s.access aid = some a) (hw : a.write = true) (ht : a.toSend = 0)
  (hf : s.fatal = false)
include ha hw ht hf

/-- The answer to a data write goes to the slot that it belongs to. -/
theorem writeAck_write {c i n : Nat} {x : Slot} (hp : a.purpose = .write c i n) (hx : slotAt s c i = some x) :
    exec (.writeAck aid code) s = .next ((s.writeEnds a).dataWriteAnswer x n a code) := by
  have hu : slotAt (s.writeEnds a) c i = some x := by rw [slotAt_of_slots (s.writeEnds_drain a).2.2, hx]
  obtain rfl := access_aid ha
  show execWriteAck a.aid code s = _
  unfold execWriteAck
  unfold State.writeEnds at hu ⊢
  simp only [ha, hp, hw, ht, hf, hu, ne_eq, not_true_eq_false, decide_false, Bool.not_true, Bool.or_false, Bool.false_eq_true, if_false]

theorem writeAck_trace {k : Nat} (hp : a.purpose = .trace k) (hc : codeSeen code = 0) :
    exec (.writeAck aid code) s = .next (s.writeEnds a) := by
  obtain rfl := access_aid ha
  show execWriteAck a.aid code s = _
  unfold execWriteAck
  simp only [ha, hp, hw, ht, hf, hc, ne_eq, not_true_eq_false, decide_false, decide_true, Bool.not_true, Bool.or_false, Bool.false_eq_true,
    if_false, if_true]
  rfl

theorem writeAck_fedCkpt (hp : a.purpose = .fedCkpt) : exec (.writeAck aid code) s = .next (s.writeEnds a) := by
  obtain rfl := access_aid ha
  show execWriteAck a.aid code s = _
  unfold execWriteAck
  simp only [ha, hp, hw, ht, hf, ne_eq, not_true_eq_false, decide_false, Bool.not_true, Bool.or_false, Bool.false_eq_true, if_false]
  rfl

theorem writeAck_witness (hp : a.purpose = .witnessWrite) (hc : codeSeen code = 0) :
    exec (.writeAck aid code) s =
      .next (s.writeEnds a).witnessAcked := by
  obtain rfl := access_aid ha
  show execWriteAck a.aid code s = _
  unfold execWriteAck State.witnessAcked State.writeEnds
  simp only [ha, hp, hw, ht, hf, hc, ne_eq, not_true_eq_false, decide_false, decide_true, Bool.not_true, Bool.or_false, Bool.false_eq_true,
    if_false, if_true]

theorem writeAck_old {q : Nat} {i : W32} {p k : Nat} (hp : a.purpose = .oldWrite q i p k) (hc : codeSeen code = 0) :
    exec (.writeAck aid code) s = .next (((s.writeEnds a).stampOf q i p).settleOf q i p) := by
  obtain rfl := access_aid ha
  show execWriteAck a.aid code s = _
  unfold execWriteAck
  simp only [ha, hp, hw, ht, hf, hc, ne_eq, not_true_eq_false, decide_false, decide_true, Bool.not_true, Bool.or_false, Bool.false_eq_true,
    if_false, if_true]
  rfl

end

/-- Settles O27: a write's ID is free in `writeEnds`; then each kind of write has its own lemma. -/
theorem writeAnswers : Obligations.WriteAnswers := by
  unfold Obligations.WriteAnswers
  refine ⟨?_, ?_, ?_, ?_, ?_, fun s clu idx x => slotAt_stampDone⟩
  · intro s aid a code c i n x ha hp hw ht hf hx hc hi hr
    have hexec := writeAck_write code ha hw ht hf hp hx
    obtain ⟨hrel, hports, _⟩ := s.writeEnds_drain a
    rw [State.dataWriteAnswer_unreleased _ a code hr, hc, hi] at hexec
    refine ⟨_, hrel, hports, fun h => ?_, fun h0 h => ?_, fun h0 h => ?_⟩
    · rw [hexec, if_pos h]
    · rw [hexec, if_neg h0, if_pos h]
    · rw [hexec, if_neg h0, if_neg (Bool.eq_false_iff.1 h)]
  · intro s aid a code c i n x ha hp hw ht hf hx hc hi hr h0 h
    have hexec := writeAck_write code ha hw ht hf hp hx
    obtain ⟨hrel, _, hslots⟩ := s.writeEnds_drain a
    rw [State.dataWriteAnswer_released _ a hr h0 h, hc, hi] at hexec
    exact ⟨_, hrel, hexec, hslots⟩
  · rintro s aid a code ha hw ht hf hc h0 (⟨k, hp⟩ | hp)
    · exact ⟨_, writeAck_trace code ha hw ht hf hp hc, s.writeEnds_zero h0⟩
    · exact ⟨_, writeAck_fedCkpt code ha hw ht hf hp, s.writeEnds_zero h0⟩
  · intro s aid a code ha hw ht hf hc h0 hp
    obtain ⟨hrel, hports⟩ := s.writeEnds_zero h0
    exact ⟨_, writeAck_witness code ha hw ht hf hp hc, hrel.congr (State.witnessAcked_acc _), hports.witnessAcked⟩
  · intro s aid a code q i p k ha hw ht hf hc h0 hp
    exact ⟨_, writeAck_old code ha hw ht hf hp hc, s.writeEnds_zero h0⟩

end Sys2Proof.Machine
end

section
/-! PROOFS. Completion records: their issue in order, and what telemetry takes from them (01 R28; 03 R117, R123; 13 R400, R401). -/

namespace Sys2Proof.Machine

/-! What the issue of a record may touch. -/

/-- Between the two states only the record store, contexts, telemetry, registers, source pulses and ports change, and what is asked for
stays so. -/
structure IssueStep (s t : State) : Prop where
  frame : ∃ e w m g p, PortsOnly { s with records := e, ways := w, is3 := m, regs := g, heldPulses := p } t
  asked : ∀ u w a l d, Asked s u w a l d → Asked t u w a l d

/-- An issue step that leaves the record store and the contexts. -/
structure TelemetryStep (s t : State) : Prop extends IssueStep s t where
  records : t.records = s.records
  ways : t.ways = s.ways

theorem ctxOf_of_ways {s t : State} (h : t.ways = s.ways) (q : Nat) : ctxOf t q = ctxOf s q := by
  rw [ctxOf, ctxOf, wayOf, wayOf, h]

section
variable {s t u : State}

theorem IssueStep.trans (h : IssueStep s t) (k : IssueStep t u) : IssueStep s u := by
  refine ⟨?_, fun _ _ _ _ _ a => k.asked _ _ _ _ _ (h.asked _ _ _ _ _ a)⟩
  obtain ⟨_, _, _, _, _, _, _, _, _, _, _, rfl⟩ := h.frame
  obtain ⟨_, _, _, _, _, _, _, _, _, _, _, rfl⟩ := k.frame
  exact ⟨_, _, _, _, _, _, _, _, _, _, _, rfl⟩

theorem IssueStep.ports (h : IssueStep s t) :
    PortsOnly { s with records := t.records, ways := t.ways, is3 := t.is3, regs := t.regs, heldPulses := t.heldPulses } t := by
  obtain ⟨_, _, _, _, _, _, _, _, _, _, _, rfl⟩ := h.frame
  exact ⟨_, _, _, _, _, _, rfl⟩

theorem IssueStep.adoptDone (h : IssueStep s t) : t.adoptDone = s.adoptDone := by
  obtain ⟨_, _, _, _, _, _, _, _, _, _, _, rfl⟩ := h.frame
  rfl

/-- A step that changes contexts, the record store, telemetry, registers or pulses alone. -/
theorem IssueStep.of_fields (s : State) (e : List Record) (w : List Way) (m : WordMap) (g : WordMap) (p : List (Nat × Nat × Nat)) :
    IssueStep s { s with records := e, ways := w, is3 := m, regs := g, heldPulses := p } :=
  ⟨⟨e, w, m, g, p, .refl _⟩, fun _ _ _ _ _ a => a.congr rfl rfl⟩

theorem IssueStep.updCtx (s : State) (q : Nat) (f : QCtx → QCtx) : IssueStep s (s.updCtx q f) := by
  obtain ⟨w, e⟩ := State.updCtx_frame s q f
  rw [e]
  exact .of_fields s s.records w s.is3 s.regs s.heldPulses

theorem TelemetryStep.refl (s : State) : TelemetryStep s s :=
  ⟨.of_fields s s.records s.ways s.is3 s.regs s.heldPulses, rfl, rfl⟩

theorem TelemetryStep.trans (h : TelemetryStep s t) (k : TelemetryStep t u) : TelemetryStep s u :=
  ⟨h.toIssueStep.trans k.toIssueStep, k.records.trans h.records, k.ways.trans h.ways⟩

theorem TelemetryStep.ctxOf (h : TelemetryStep s t) (q : Nat) : ctxOf t q = ctxOf s q := ctxOf_of_ways h.ways q

theorem TelemetryStep.addIs3 (s : State) (w k : Nat) : TelemetryStep s (s.addIs3 w k) := by
  unfold State.addIs3
  split
  · exact .refl s
  · exact ⟨.of_fields s s.records s.ways _ s.regs s.heldPulses, rfl, rfl⟩

theorem TelemetryStep.addIs3w (s : State) (w k : Nat) : TelemetryStep s (s.addIs3w w k) := by
  unfold State.addIs3w
  split
  · exact .refl s
  · exact ⟨.of_fields s s.records s.ways _ s.regs s.heldPulses, rfl, rfl⟩

theorem TelemetryStep.bump (s : State) (r : Reg) (i lo len k : Nat) : TelemetryStep s (s.bump r i lo len k) :=
  ⟨.of_fields s s.records s.ways s.is3 _ s.heldPulses, rfl, rfl⟩

theorem TelemetryStep.pulse (s : State) (n hop : Nat) : TelemetryStep s (s.pulse n hop) :=
  ⟨.of_fields s s.records s.ways s.is3 s.regs _, rfl, rfl⟩

theorem TelemetryStep.bankAccess (s : State) (q r : Nat) : TelemetryStep s (s.bankAccess q r) :=
  ⟨⟨⟨s.records, s.ways, s.is3, s.regs, s.heldPulses, .bankAccess s q r⟩, fun _ _ _ _ _ a => a.congr rfl rfl⟩, rfl, rfl⟩

theorem TelemetryStep.service (s : State) (k : Held) : TelemetryStep s (s.service k) := by
  have h := PortsOnly.service s k
  refine ⟨⟨⟨s.records, s.ways, s.is3, s.regs, s.heldPulses, h⟩, fun _ _ _ _ _ a => a.mono k⟩, ?_, ?_⟩
  · obtain ⟨_, _, _, _, _, _, e⟩ := h
    rw [e]
  · obtain ⟨_, _, _, _, _, _, e⟩ := h
    rw [e]

theorem TelemetryStep.enterHistogram (s : State) (iid : Nat) (r : Record) : TelemetryStep s (s.enterHistogram iid r) := by
  unfold State.enterHistogram
  split
  · exact .refl s
  · split
    · exact .bump s ..
    · exact (TelemetryStep.addIs3 s ..).trans (.addIs3w _ ..)

theorem TelemetryStep.traceOne (s : State) (r : Record) (k : Nat) : TelemetryStep s (s.traceOne r k) := by
  unfold State.traceOne
  dsimp only
  split
  · exact .refl s
  · split
    · exact .addIs3 s ..
    · exact (TelemetryStep.addIs3 s ..).trans (.service _ _)

theorem TelemetryStep.traceRecord (s : State) (r : Record) : TelemetryStep s (s.traceRecord r) := by
  unfold State.traceRecord
  split
  · exact List.foldlRecOn _ _ (.refl s) fun t ht k _ => ht.trans (.traceOne t r k)
  · exact .refl s

end

/-! The stages of an issue. -/

/-- The counters of an issued record: descriptors, and those that ended contained (13 R402). -/
def State.recordCounted (s : State) (r : Record) (iid : Nat) : State :=
  let t := (s.addIs3w (instCtr iid + 4) 1).countCtx r.qid (fun c => { c with descs := c.descs + 1 })
  if bits (wd r.words 0) 8 8 ≤ 2 then t
  else (t.addIs3 (instCtr iid + 7) 1).countCtx r.qid (fun c => { c with contained := c.contained + 1 })

/-- Histogram, trace and the pulse of a status other than 0 take an issued record. -/
def State.recordNoted (s : State) (r : Record) (iid : Nat) : State :=
  let t := (s.enterHistogram iid r).traceRecord r
  if r.abandoned || decide (bits (wd r.words 0) 8 8 = 0) then t else t.pulse (8 * r.clu + 1) 0

/-- No slot of an adopted queue is to be passed. -/
theorem State.skipDone_nothing {s : State} (h : s.adoptDone = []) (q n : Nat) : s.skipDone q n = s := by
  cases n with
  | zero => rfl
  | succ n =>
    rw [State.skipDone]
    cases ctxOf s q with
    | none => rfl
    | some c =>
      dsimp only
      rw [if_neg (by rw [h]; exact Bool.false_ne_true)]

theorem State.takeRecordOut_stored {s : State} {r : Record} (h : r ∈ s.records) :
    s.takeRecordOut r = { s with records := s.records.erase r } := if_pos (by simpa using h)

/-- The entry of an issued record is free, and Q moves on (01 R28). -/
def State.recordPassed (s : State) (r : Record) : State :=
  (s.takeRecordOut r).updCtx r.qid (fun c => { c with q := c.q + 1, winDone := c.winDone >>> 1 })

theorem State.recordPassed_spec {s : State} {r : Record} {c : QCtx} (hr : r ∈ s.records) (hc : ctxOf s r.qid = some c) :
    IssueStep s (s.recordPassed r) ∧ (s.recordPassed r).records = s.records.erase r ∧
      ctxOf (s.recordPassed r) r.qid = some { c with q := c.q + 1, winDone := c.winDone >>> 1 } := by
  have ht := State.takeRecordOut_stored hr
  have hw : (s.takeRecordOut r).ways = s.ways := by rw [ht]
  obtain ⟨w, hu⟩ := State.updCtx_frame (s.takeRecordOut r) r.qid (fun c => { c with q := c.q + 1, winDone := c.winDone >>> 1 })
  refine ⟨IssueStep.trans ?_ (.updCtx _ _ _), ?_, ?_⟩
  · rw [ht]
    exact .of_fields s _ s.ways s.is3 s.regs s.heldPulses
  · rw [State.recordPassed, hu, ht]
  · rw [State.recordPassed, ctxOf_updCtx, ctxOf_of_ways hw, hc]
    rfl

theorem telOn_recordPassed {s : State} {r : Record} (hr : r ∈ s.records) : telOn (s.recordPassed r) = telOn s := by
  obtain ⟨w, hu⟩ := State.updCtx_frame (s.takeRecordOut r) r.qid (fun c => { c with q := c.q + 1, winDone := c.winDone >>> 1 })
  rw [State.recordPassed, hu, State.takeRecordOut_stored hr]
  rfl

/-- The stages of an issue before its channel and queue go on. -/
def State.recordStages (s : State) (r : Record) : State :=
  (((s.recordPassed r).recordCounted r (iidOfQueue s r.qid)).recordNoted r (iidOfQueue s r.qid)).bankAccess r.qid 2

/-- A ring record that no Mirror waits for is issued in these stages. -/
theorem State.recordIssued_stages {s : State} {r : Record} (h0 : r.chainPos = 0) (hs : r.slot < 32 ∨ r.slot = 63)
    (hd : (s.recordPassed r).adoptDone = []) :
    s.recordIssued r =
      ((((((s.recordStages r).releaseDone r.clu r.slot).acceptMore r.qid).pumpStore).settleMoving 1).checkIdle r.qid).admCheck := by
  have hm : (decide (32 ≤ r.slot) && decide (r.slot < 34)) = false := by
    simp only [Bool.and_eq_false_iff, decide_eq_false_iff_not]
    omega
  have hk := State.skipDone_nothing hd r.qid 65536
  unfold State.recordPassed at hk
  unfold State.recordIssued State.recordStages State.recordPassed State.recordNoted State.recordCounted
  simp only [h0, hm, hk, Bool.false_and, Bool.false_eq_true, if_false, if_true]

theorem telOn_addIs3w (s : State) (w k : Nat) : telOn (s.addIs3w w k) = telOn s := by
  unfold State.addIs3w
  split
  · rfl
  · rfl

/-- A context's counters change where telemetry runs. -/
theorem State.countCtx_spec {s : State} {q : Nat} {c : QCtx} (h : ctxOf s q = some c) (f : QCtx → QCtx) :
    IssueStep s (s.countCtx q f) ∧ (s.countCtx q f).records = s.records ∧
      ctxOf (s.countCtx q f) q = some (if telOn s then f c else c) := by
  unfold State.countCtx
  split
  · have hb := TelemetryStep.bankAccess s q 6
    obtain ⟨w, e⟩ := State.updCtx_frame (s.bankAccess q 6) q f
    exact ⟨hb.toIssueStep.trans (.updCtx _ q f), by rw [e]; exact hb.records, by rw [ctxOf_updCtx, hb.ctxOf, h]; rfl⟩
  · exact ⟨(TelemetryStep.refl s).toIssueStep, rfl, h⟩

theorem State.recordCounted_spec {s : State} {r : Record} {c : QCtx} (h : ctxOf s r.qid = some c) (iid : Nat) :
    IssueStep s (s.recordCounted r iid) ∧ (s.recordCounted r iid).records = s.records ∧
      ∃ k, ctxOf (s.recordCounted r iid) r.qid =
        some { c with descs := if telOn s then c.descs + 1 else c.descs, contained := k } := by
  have h1 := TelemetryStep.addIs3w s (instCtr iid + 4) 1
  obtain ⟨hs, hr, hc⟩ := State.countCtx_spec ((h1.ctxOf r.qid).trans h) (fun c => { c with descs := c.descs + 1 })
  rw [telOn_addIs3w] at hc
  unfold State.recordCounted
  generalize (s.addIs3w (instCtr iid + 4) 1).countCtx r.qid (fun c => { c with descs := c.descs + 1 }) = t at *
  have ht := h1.toIssueStep.trans hs
  have htr := hr.trans h1.records
  have hd : ctxOf t r.qid = some { c with descs := if telOn s then c.descs + 1 else c.descs } := hc.trans (by
    cases telOn s with
    | false => rfl
    | true => rfl)
  dsimp only
  split
  · exact ⟨ht, htr, c.contained, hd⟩
  · have h2 := TelemetryStep.addIs3 t (instCtr iid + 7) 1
    obtain ⟨ks, kr, kc⟩ := State.countCtx_spec ((h2.ctxOf r.qid).trans hd) (fun c => { c with contained := c.contained + 1 })
    refine ⟨ht.trans (h2.toIssueStep.trans ks), kr.trans (h2.records.trans htr), ?_⟩
    generalize telOn (t.addIs3 (instCtr iid + 7) 1) = b at kc
    cases b with
    | false => exact ⟨c.contained, kc⟩
    | true => exact ⟨c.contained + 1, kc⟩

theorem TelemetryStep.recordNoted (s : State) (r : Record) (iid : Nat) : TelemetryStep s (s.recordNoted r iid) := by
  have h := (TelemetryStep.enterHistogram s iid r).trans (.traceRecord _ r)
  unfold State.recordNoted
  dsimp only
  split
  · exact h
  · exact h.trans (.pulse _ _ _)

/-- What the stages of an issue leave. -/
theorem State.recordStages_spec {s : State} {r : Record} {c : QCtx} (hr : r ∈ s.records) (hc : ctxOf s r.qid = some c) :
    IssueStep s (s.recordStages r) ∧ (s.recordStages r).records = s.records.erase r ∧
      ∃ k, ctxOf (s.recordStages r) r.qid =
        some { c with q := c.q + 1, winDone := c.winDone >>> 1, descs := if telOn s then c.descs + 1 else c.descs, contained := k } := by
  obtain ⟨h1, r1, c1⟩ := State.recordPassed_spec hr hc
  obtain ⟨h2, r2, k, c2⟩ := State.recordCounted_spec c1 (iidOfQueue s r.qid)
  have h3 := (TelemetryStep.recordNoted ((s.recordPassed r).recordCounted r (iidOfQueue s r.qid)) r (iidOfQueue s r.qid)).trans
    (.bankAccess _ r.qid 2)
  refine ⟨h1.trans (h2.trans h3.toIssueStep), h3.records.trans (r2.trans r1), k, (h3.ctxOf r.qid).trans (c2.trans ?_)⟩
  rw [telOn_recordPassed hr]

/-! The commands. -/

theorem fatal_of_running {s : State} (h : running s = true) : s.fatal = false := by
  simp only [running, Bool.and_eq_true, Bool.not_eq_true'] at h
  obtain ⟨⟨⟨⟨⟨_, hf⟩, _⟩, _⟩, _⟩, _⟩ := h
  exact hf

theorem completionRecord_issues {s : State} {qid : Nat} {r : Record} (hq : qid < 2 ^ 22) (hr : running s = true) (hs : serves s = true)
    (hn : nextRecord s qid = some r) (ha : r.abandoned = false) (hp : (portNow s (recordHeld s r)).isSome = true) :
    exec (.completionRecord qid) s = .next ((s.service (recordHeld s r)).recordIssued r) := by
  show execCompletionRecord qid s = _
  unfold execCompletionRecord
  rw [if_neg (Nat.not_le.2 hq)]
  simp only [hn, hr, hs, ha, hp, Bool.not_false, Bool.and_self, if_true]

theorem abandonedRecord_issues {s : State} {qid : Nat} {r : Record} (hq : qid < 2 ^ 22) (hr : running s = true) (hs : serves s = true)
    (hn : nextRecord s qid = some r) (ha : r.abandoned = true) :
    exec (.abandonedRecord qid) s = .next ((s.service (recordHeld s r)).recordIssued r) := by
  show execAbandonedRecord qid s = _
  unfold execAbandonedRecord
  rw [if_neg (Nat.not_le.2 hq)]
  simp only [hn, hr, hs, ha, Bool.and_self, if_true]

/-- The wrong row does not issue a record. -/
theorem recordRow_idle {s : State} {qid : Nat} {r : Record} (hq : qid < 2 ^ 22) (hn : nextRecord s qid = some r) :
    exec (if r.abandoned then .completionRecord qid else .abandonedRecord qid) s = .next s := by
  have hq' := Nat.not_le.2 hq
  cases ha : r.abandoned with
  | false =>
    show execAbandonedRecord qid s = _
    unfold execAbandonedRecord
    rw [if_neg hq']
    simp only [hn, ha, Bool.and_false, Bool.false_eq_true, if_false]
  | true =>
    show execCompletionRecord qid s = _
    unfold execCompletionRecord
    rw [if_neg hq']
    simp only [hn, ha, Bool.not_true, Bool.and_false, Bool.false_and, Bool.false_eq_true, if_false]

/-- With no record to issue the rows see to it that the context is there. -/
theorem recordRow_none {s : State} {qid : Nat} (hq : qid < 2 ^ 22) (hr : running s = true) (hn : nextRecord s qid = none) :
    exec (.completionRecord qid) s = .next (s.needCtx qid) ∧ exec (.abandonedRecord qid) s = .next (s.needCtx qid) := by
  have hq' := Nat.not_le.2 hq
  constructor
  · show execCompletionRecord qid s = _
    unfold execCompletionRecord
    rw [if_neg hq']
    simp only [hn, hr, if_true]
  · show execAbandonedRecord qid s = _
    unfold execAbandonedRecord
    rw [if_neg hq']
    simp only [hn, hr, if_true]

/-! Histograms (13 R400, R401). -/

/-- The bins double in width from 128 ns on. -/
theorem histBin_bounds (l : Nat) :
    histBin l < 16 ∧ (histBin l = 0 ↔ l < 128) ∧ (histBin l = 15 ↔ 2097152 ≤ l) ∧
    (∀ b, 1 ≤ b → b ≤ 14 → (histBin l = b ↔ 2 ^ (b + 6) ≤ l ∧ l < 2 ^ (b + 7))) := by
  unfold histBin
  by_cases h1 : l < 128
  · rw [if_pos h1]
    have hp (b : Nat) (hb : 1 ≤ b) : 2 ^ 7 ≤ 2 ^ (b + 6) := Nat.pow_le_pow_right (by decide) (by omega)
    refine ⟨by decide, by simp [h1], by omega, fun b hb _ => ?_⟩
    have := hp b hb
    omega
  · rw [if_neg h1]
    by_cases h2 : 2097152 ≤ l
    · rw [if_pos h2]
      refine ⟨by decide, by omega, by simp [h2], fun b _ hb => ?_⟩
      have : 2 ^ (b + 7) ≤ 2 ^ 21 := Nat.pow_le_pow_right (by decide) (by omega)
      omega
    · rw [if_neg h2]
      have h0 : l ≠ 0 := by omega
      have hlo : 7 ≤ Nat.log2 l := (Nat.le_log2 h0).2 (by omega)
      have hhi : Nat.log2 l < 21 := (Nat.log2_lt h0).2 (by omega)
      refine ⟨by omega, by omega, by omega, fun b hb _ => ?_⟩
      rw [← Nat.le_log2 h0, ← Nat.log2_lt h0]
      omega

/-- A histogram's bins and sums stand in different words. -/
theorem binWord_lt {iid l : Nat} (cls : BitVec 2) (h : iid < 4096) : 0x20000 + 64 * iid + 16 * cls.toNat + histBin l < 0x60000 := by
  have := (histBin_bounds l).1
  have := cls.isLt
  omega

theorem enterHistogram_off {s : State} {r : Record} (iid : Nat) (h : telOn s = false ∨ r.abandoned = true) : s.enterHistogram iid r = s := by
  unfold State.enterHistogram
  rw [if_pos]
  rcases h with h | h
  · rw [h]
    rfl
  · rw [h, Bool.or_true]

theorem enterHistogram_stepped {s : State} {r : Record} (iid : Nat) (ht : telOn s = true) (ha : r.abandoned = false)
    (hs : r.fetchStep ≠ r.doneStep) : s.enterHistogram iid r = s.bump .telStat 0 0 16 1 := by
  unfold State.enterHistogram
  rw [ht, ha, if_pos hs]
  rfl

/-- The latency that a record's timestamps give (13 R400). -/
def latencyOf (r : Record) : Nat := (bits (wd r.words 4) 0 48 + 2 ^ 48 - bits (wd r.words 3) 0 48) % 2 ^ 48

theorem State.addIs3_on {s : State} (h : telOn s = true) (w k : Nat) :
    s.addIs3 w k = { s with is3 := s.is3.put w (BitVec.ofNat 32 ((s.is3.get w).toNat + k)) } := by
  unfold State.addIs3
  rw [h]
  rfl

theorem State.addIs3w_frame (s : State) (w k : Nat) : s.addIs3w w k = { s with is3 := (s.addIs3w w k).is3 } := by
  unfold State.addIs3w
  split
  · rfl
  · rfl

/-- A 64-bit counter leaves the words below it. -/
theorem State.addIs3w_below (s : State) {w j : Nat} (k : Nat) (h : j < w) : (s.addIs3w w k).is3.get j = s.is3.get j := by
  unfold State.addIs3w
  split
  · rfl
  · dsimp only
    rw [WordMap.get_put_other _ _ _ _ (by omega), WordMap.get_put_other _ _ _ _ (by omega)]

theorem enterHistogram_counts {s : State} {r : Record} {iid : Nat} (ht : telOn s = true) (ha : r.abandoned = false)
    (hs : r.fetchStep = r.doneStep) (hw : s.is3.wf = true) (hi : iid < 4096) :
    (s.enterHistogram iid r).is3.get (0x20000 + 64 * iid + 16 * r.cls.toNat + histBin (latencyOf r)) =
        s.is3.get (0x20000 + 64 * iid + 16 * r.cls.toNat + histBin (latencyOf r)) + 1 ∧
      s.enterHistogram iid r = { s with is3 := (s.enterHistogram iid r).is3 } := by
  have hlt := binWord_lt (l := latencyOf r) r.cls hi
  have he : s.enterHistogram iid r =
      (s.addIs3 (0x20000 + 64 * iid + 16 * r.cls.toNat + histBin (latencyOf r)) 1).addIs3w (0x60000 + 8 * iid + 2 * r.cls.toNat) (latencyOf r) := by
    unfold State.enterHistogram
    rw [ht, ha, if_neg (not_not.2 hs)]
    rfl
  rw [he]
  generalize 0x20000 + 64 * iid + 16 * r.cls.toNat + histBin (latencyOf r) = b at *
  constructor
  · rw [State.addIs3w_below _ _ (by omega), State.addIs3_on ht]
    dsimp only
    rw [WordMap.get_put_same _ 0 _ _ hw, BitVec.ofNat_add, BitVec.ofNat_toNat, BitVec.setWidth_eq]
    rfl
  · rw [State.addIs3w_frame, State.addIs3_on ht]

/-! The obligation. -/

/-- A record that is issued in its turn: its write is asked for, then Q, the counters and the store go on. -/
theorem recordIssued_spec {s : State} {r : Record} {c : QCtx} (hf : s.fatal = false) (hc : ctxOf s r.qid = some c) (h0 : r.chainPos = 0)
    (hr : r ∈ s.records) (hd : s.adoptDone = []) (hs : r.slot < 32 ∨ r.slot = 63) :
    ∃ (u : State) (k : _), (s.service (recordHeld s r)).recordIssued r =
        ((((((u.releaseDone r.clu r.slot).acceptMore r.qid).pumpStore).settleMoving 1).checkIdle r.qid).admCheck) ∧
      Offered u (.record r.qid r.idx 0 r.noticeNow r.abandoned) true r.addr 64 (bytesOfWords r.words) ∧ IssueStep s u ∧
      u.records = s.records.erase r ∧ ctxOf u r.qid =
        some { c with q := c.q + 1, winDone := c.winDone >>> 1, descs := if telOn s then c.descs + 1 else c.descs, contained := k } := by
  have hask : Asked (s.service (recordHeld s r)) (.record r.qid r.idx 0 r.noticeNow r.abandoned) true r.addr 64 (bytesOfWords r.words) := by
    rw [← h0]
    exact Asked.service hf rfl
  have hv := TelemetryStep.service s (recordHeld s r)
  have ht : telOn (s.service (recordHeld s r)) = telOn s := by
    obtain ⟨_, _, _, _, _, _, e⟩ := PortsOnly.service s (recordHeld s r)
    rw [e]
    rfl
  generalize s.service (recordHeld s r) = t at *
  have hr' : r ∈ t.records := by rw [hv.records]; exact hr
  have hc' := (hv.ctxOf r.qid).trans hc
  obtain ⟨hu, hrec, k, hctx⟩ := State.recordStages_spec hr' hc'
  have hpass := (State.recordPassed_spec hr' hc').1.adoptDone.trans (hv.adoptDone.trans hd)
  rw [hv.records] at hrec
  rw [ht] at hctx
  exact ⟨_, k, State.recordIssued_stages h0 hs hpass, (hu.asked _ _ _ _ _ hask).offered, hv.toIssueStep.trans hu, hrec, hctx⟩

/-- Settles O35: `recordIssued_spec` says what an issue leaves, `histBin_bounds` and `enterHistogram_counts` where its latency is
counted. -/
theorem recordsIssue : Obligations.RecordsIssue := by
  unfold Obligations.RecordsIssue
  refine ⟨?_, fun s qid => recordRow_none, fun s qid r => recordRow_idle, ?_, ?_, ?_⟩
  · rintro s qid r c hq hr hs hn hc rfl h0 hmem hd hslot hport _
    obtain ⟨u, k, hu, hoff, hstep, hrec, hctx⟩ := recordIssued_spec (fatal_of_running hr) hc h0 hmem hd hslot
    refine ⟨u, _, ?_, hoff, hrec, hctx, rfl, rfl, rfl, rfl, fun h => ?_, fun h => ?_, hstep.ports⟩
    · rw [← hu]
      cases ha : r.abandoned with
      | false => exact completionRecord_issues hq hr hs hn ha (hport ha)
      | true => exact abandonedRecord_issues hq hr hs hn ha
    · exact if_pos h
    · exact if_neg (Bool.eq_false_iff.1 h)
  · intro s iid r ht ha hs hw hi
    obtain ⟨hbin, hframe⟩ := enterHistogram_counts ht ha hs hw hi
    obtain ⟨hlt, h0, h15, hb⟩ := histBin_bounds (latencyOf r)
    exact ⟨_, rfl, hbin, hlt, h0, h15, hb, hframe⟩
  · exact fun s iid r => enterHistogram_stepped iid
  · exact fun s iid r => enterHistogram_off iid

end Sys2Proof.Machine
end

section
/-! PROOFS. The poller: what it keeps of an instance, and the beginning of a poll (02 R59, R60, R63). -/

namespace Sys2Proof.Machine

/-- What is found under another key than that of the element put in front of a keyed list. -/
theorem find_put_ne {α : Type} (k : α → Nat) (x : α) (xs : List α) {j : Nat} (h : j ≠ k x) :
    (x :: xs.filter (fun y => k y != k x)).find? (fun y => k y == j) = xs.find? (fun y => k y == j) := by
  have hx : (k x == j) = false := by simpa using h.symm
  rw [List.find?_cons_of_neg (by simp [hx]), List.find?_filter]
  congr 1
  funext y
  by_cases hy : k y = j
  · simp [hy, h]
  · simp [hy]

/-! What is read of an instance's poll, and of the poll in progress, once either is replaced. -/

theorem pollOf_putPoll_ne {s : State} {p : PollInst} {j : Nat} (h : j ≠ p.iid) : pollOf (s.putPoll p) j = pollOf s j := by
  unfold pollOf State.putPoll
  rw [find_put_ne PollInst.iid p s.pollInst h]

theorem pollIn_updPoll {s : State} {iid : Nat} {f : Poll → Poll} (hf : ∀ p, (f p).iid = p.iid) :
    pollIn (s.updPoll iid f) iid = (pollIn s iid).map f :=
  find_upd (fun p : Poll => p.iid == iid) f (fun p hp => by simpa [hf] using hp) s.polls

/-- What the poller keeps of an instance whose poll begins: the next one falls due an interval later (02 R60, R63). -/
def nextPoll (s : State) (iid : Nat) : PollInst :=
  { pollOf s iid with nextDue := if pollIv s iid = 0 then none else some (s.nomNs + effInterval s iid),
                      fullDue := false, kept := false, keptDbg := false, fell := none }

theorem nextPoll_iid (s : State) (iid : Nat) : (nextPoll s iid).iid = iid := pollOf_iid s iid

/-- The poll that begins in an engine, in the mode in force, with its stamp (02 R59, R60; 07 R238). -/
def begunPoll (s : State) (iid engine stamp : Nat) (dbg : Bool) : Poll :=
  { iid := iid, engine := engine, scan := scanMode s, full := (pollOf s iid).fullDue, stamp := stamp, waiting := [.root iid],
    active := 0, failed := false, debug := dbg }

theorem State.beginPoll_eq {s : State} {iid e : Nat} {x : Nat × Nat} (dbg : Bool) (he : freeEngine s = some e)
    (hx : pollDue s (pollOf s iid) = some x) :
    s.beginPoll iid dbg = { (s.putPoll (nextPoll s iid)) with polls := s.polls ++ [begunPoll s iid e x.2 dbg] } := by
  unfold State.beginPoll
  rw [he]
  simp only [hx]
  rfl

theorem pollDue_begins {s : State} {iid : Nat} (hi : iid < 4096) (hm : mayBegin s iid = true) :
    exec (.pollDue iid) s = .next (s.beginPoll iid (pollOf s iid).keptDbg) := by
  show execPollDue iid s = _
  rw [execPollDue, if_neg (by omega), if_pos hm]

theorem pollDue_waits {s : State} {iid : Nat} (hi : iid < 4096) (hm : mayBegin s iid = false) :
    exec (.pollDue iid) s = .next s := by
  show execPollDue iid s = _
  rw [execPollDue, if_neg (by omega), if_neg (by simp [hm])]

theorem fallDue_iid (s : State) (t : Nat) (p : PollInst) : (fallDue s t p).iid = p.iid := by
  unfold fallDue
  split
  · rfl
  · rfl

/-- What the end of its interval makes of an instance (02 R63). -/
def State.elapsed (s : State) (p : PollInst) : PollInst :=
  match p.nextDue with
  | some t => if t ≤ s.nomNs ∧ pollIv s p.iid ≠ 0 then fallDue s t p else p
  | none => p

theorem State.elapsed_iid (s : State) (p : PollInst) : (s.elapsed p).iid = p.iid := by
  unfold State.elapsed
  split
  · split
    · exact fallDue_iid s _ p
    · rfl
  · rfl

theorem State.pollsFallDue_eq (s : State) : s.pollsFallDue = { s with pollInst := s.pollInst.map s.elapsed } := rfl

/-- A poll whose interval has passed has fallen due at its end, and nothing else of the instance's changes (02 R63). -/
theorem pollOf_pollsFallDue {s : State} {iid t : Nat} (ht : (pollOf s iid).nextDue = some t) (hd : t ≤ s.nomNs)
    (hv : pollIv s iid ≠ 0) (hf : (pollOf s iid).fell = none) :
    pollOf s.pollsFallDue iid = { pollOf s iid with fell := some (t, (arbOf s 32).round) } := by
  obtain ⟨p, hp⟩ : ∃ p, s.pollInst.find? (fun p => p.iid == iid) = some p := by
    cases hp : s.pollInst.find? (fun p => p.iid == iid) with
    | none => simp [pollOf, hp] at ht
    | some p => exact ⟨p, rfl⟩
  obtain rfl : p.iid = iid := by simpa using List.find?_some hp
  have e : pollOf s p.iid = p := by simp [pollOf, hp]
  rw [e] at ht hf ⊢
  have hk : (fun q : PollInst => q.iid == p.iid) ∘ s.elapsed = fun q => q.iid == p.iid := by
    funext q
    simp [State.elapsed_iid]
  rw [pollOf, State.pollsFallDue_eq, List.find?_map, hk, hp]
  simp [State.elapsed, fallDue, ht, hd, hv, hf]

/-- Settles O8: a due poll begins with the fields of `begunPoll`, and leaves `nextPoll` for the instance. -/
theorem pollsBegin : Obligations.PollsBegin := by
  refine ⟨?_, ?_, fun s iid t => pollOf_pollsFallDue⟩
  · intro s iid e x hi hm he hx
    have hb := State.beginPoll_eq (pollOf s iid).keptDbg he hx
    have hn : ∀ j, pollOf (s.beginPoll iid (pollOf s iid).keptDbg) j = pollOf (s.putPoll (nextPoll s iid)) j := by
      rw [hb]
      exact fun j => rfl
    have hp : pollOf (s.beginPoll iid (pollOf s iid).keptDbg) iid = nextPoll s iid := by
      have h := pollOf_putPoll s (nextPoll s iid)
      rwa [nextPoll_iid, ← hn] at h
    refine ⟨_, begunPoll s iid e x.2 (pollOf s iid).keptDbg, pollDue_begins hi hm, hb.trans ?_, rfl, rfl, rfl, rfl, rfl, rfl, rfl, rfl,
      ?_, ?_, ?_, ?_, fun j hj => ?_⟩
    · rw [hb]
      rfl
    · rw [hp]
      rfl
    · rw [hp]
      rfl
    · rw [hp]
      rfl
    · rw [hp]
      rfl
    · rw [hn, pollOf_putPoll_ne (by rwa [nextPoll_iid])]
  · exact fun s iid hi hd => pollDue_waits hi (by simp [mayBegin, hd])

end Sys2Proof.Machine
end

section
/-! PROOFS. The accesses of a poll (02 R55, R56, R64; 07 R244). -/

namespace Sys2Proof.Machine

/-- A requester that no arbiter's state knows is not locked out (07 R242). -/
theorem lockedOut_unknown {s : State} {a : Nat} {x : Arb} (hx : x.reqs = []) (r : Nat) : lockedOut s a (reqOf x r) = false := by
  simp [lockedOut, reqOf, hx]

/-- The one candidate of an arbiter that has no other requester is granted (07 R239). -/
theorem State.arbGrant_lone {s : State} {a : Nat} (h : (arbOf s a).reqs = []) (w : Nat) (prio stampOf : Nat → Nat) :
    ∃ x, s.arbGrant a w [w] [] prio stampOf = some (s.putArb x) := by
  have hq : ∀ x : Arb, x.reqs = [] → (raisedReq x (stampOf w) w).idx = w ∧ lockedOut s a (raisedReq x (stampOf w) w) = false := by
    intro x hx
    simp [lockedOut, raisedReq, reqOf, hx]
  unfold State.arbGrant arbDecide
  simp [h, ranksFirst, leastBy, hq]

/-- Where the access of a poll goes (02 R47, R51, R55). -/
theorem pollAccess_root (s : State) (p : Poll) (i : Nat) :
    (pollAccess s p (.root i)).addr = sumBase s p.iid ∧ (pollAccess s p (.root i)).len = 8 ∧
      (pollAccess s p (.root i)).attrs.swap = !p.scan := ⟨rfl, rfl, rfl⟩

theorem pollAccess_leaf (s : State) (p : Poll) (i k : Nat) :
    (pollAccess s p (.leaf i k)).addr = sumBase s p.iid + 64 + 8 * k ∧ (pollAccess s p (.leaf i k)).len = 8 ∧
      (pollAccess s p (.leaf i k)).attrs.swap = !p.scan := ⟨rfl, rfl, rfl⟩

theorem pollAccess_doorbell (s : State) (p : Poll) (i k j : Nat) :
    (pollAccess s p (.doorbell i k j)).addr = dbBase s p.iid + 4096 * k + 64 * j ∧ (pollAccess s p (.doorbell i k j)).len = 64 ∧
      (pollAccess s p (.doorbell i k j)).attrs.swap = false := ⟨rfl, rfl, rfl⟩

/-- Every access of a poll is a read of its purpose, with no data, whose bytes are fixed when it is asked for. -/
theorem pollAccess_read (s : State) (p : Poll) (u : Purpose) :
    (pollAccess s p u).purpose = u ∧ (pollAccess s p u).write = false ∧ (pollAccess s p u).data = [] ∧ (pollAccess s p u).form = false := by
  unfold pollAccess
  split
  · exact ⟨rfl, rfl, rfl, rfl⟩
  · exact ⟨rfl, rfl, rfl, rfl⟩
  · exact ⟨rfl, rfl, rfl, rfl⟩

/-- A granted poll takes its next waiting access, charged `cost`, and asks for it (02 R64). -/
def State.pollIssued (t : State) (p : Poll) (us : List Purpose) (cost : Int) (h : Held) : State :=
  (({ t with pollBudget := t.pollBudget - cost } : State).updPoll p.iid (fun q => { q with waiting := us, active := q.active + 1 })).service h

section
variable {s : State} {p : Poll} {u : Purpose} {us : List Purpose} (hp : s.polls = [p]) (hi : p.iid < 4096) (hw : p.waiting = u :: us)
  (hf : s.fatal = false) (hn : (portNow s (pollAccess s p u)).isSome = true)
include hp hi hw hf hn

/-- The budget is positive, and the one poll has the arbiter (02 R64). -/
theorem pollAccessIssue_charged (hd : p.debug = false) (hb : 0 < s.pollBudget) (hr : (arbOf s 32).reqs = []) :
    ∃ x, exec (.pollAccessIssue p.iid) s =
      .next ((s.putArb x).pollIssued p us (1000 * ((pollAccess s p u).len : Int)) (pollAccess s p u)) := by
  obtain ⟨x, hx⟩ := State.arbGrant_lone hr p.engine (fun _ => 4) (fun e => ((s.polls.find? (fun q => q.engine == e)).map (·.stamp)).getD 0)
  have hnn : (portNow s (pollAccess s p u)).isNone = false := by simpa using hn
  refine ⟨x, ?_⟩
  show execPollAccessIssue p.iid s = _
  unfold execPollAccessIssue
  rw [if_neg (by omega), if_neg (by simp [hf]), show pollIn s p.iid = some p by simp [pollIn, hp]]
  have hc : (s.polls.filter (fun q => !q.debug && decide (q.waiting ≠ []) && !lockedOut s 32 (reqOf (arbOf s 32) q.engine))).map
      (·.engine) = [p.engine] := by simp [hp, hd, hw, lockedOut_unknown hr]
  simp only [hw, hc, hd, hx, hnn, Bool.not_false, Bool.true_and, Bool.false_or, decide_eq_true_eq, Bool.false_eq_true, if_false,
    if_neg (show ¬ s.pollBudget ≤ 0 by omega), List.contains_cons, BEq.rfl, Bool.true_or, Bool.not_true]
  rfl

/-- The poll of a debug trigger goes as the arbiter's emergency requester, and is not charged (07 R244, 17 R505). -/
theorem pollAccessIssue_debug (hd : p.debug = true) :
    ∃ x, exec (.pollAccessIssue p.iid) s = .next ((s.putArb x).pollIssued p us 0 (pollAccess s p u)) := by
  have hnn : (portNow s (pollAccess s p u)).isNone = false := by simpa using hn
  have hc : (s.polls.filter (fun q => !q.debug && decide (q.waiting ≠ []) && !lockedOut s 32 (reqOf (arbOf s 32) q.engine))).map
      (·.engine) = [] := by simp [hp, hd]
  refine ⟨{ arbOf s 32 with emBarred := false }, ?_⟩
  show execPollAccessIssue p.iid s = _
  unfold execPollAccessIssue
  rw [if_neg (by omega), if_neg (by simp [hf]), show pollIn s p.iid = some p by simp [pollIn, hp]]
  simp only [hw, hc, hd, hnn, Bool.not_true, Bool.false_and, Bool.or_false, Bool.false_eq_true, if_false, if_true, List.isEmpty_nil,
    Bool.or_true]
  rw [State.pollIssued, Int.sub_zero]

end

/-- What the issue leaves: the budget charged, the poll's access taken out, and the access asked for. -/
theorem State.pollIssued_spec {s : State} {x : Arb} {p : Poll} {u : Purpose} {us : List Purpose} {cost : Int}
    (hp : s.polls = [p]) (hf : s.fatal = false) {t : State} (ht : t = (s.putArb x).pollIssued p us cost (pollAccess s p u)) :
    t.pollBudget = s.pollBudget - cost ∧ t.polls = [{ p with waiting := us, active := p.active + 1 }] ∧
      PortsOnly { s with pollBudget := t.pollBudget, polls := t.polls } t ∧
      Offered t u false (pollAccess s p u).addr (pollAccess s p u).len [] := by
  obtain ⟨h1, h2, h3, h4⟩ := pollAccess_read s p u
  have ho := Asked.service (s := (({ (s.putArb x) with pollBudget := s.pollBudget - cost } : State).updPoll p.iid
    (fun q => { q with waiting := us, active := q.active + 1 }))) hf h4
  rw [h1, h2, h3] at ho
  have hs := PortsOnly.service (({ (s.putArb x) with pollBudget := s.pollBudget - cost } : State).updPoll p.iid
    (fun q => { q with waiting := us, active := q.active + 1 })) (pollAccess s p u)
  have hu : upd (fun q : Poll => q.iid == p.iid) (fun q => { q with waiting := us, active := q.active + 1 }) s.polls =
      [{ p with waiting := us, active := p.active + 1 }] := by simp [upd, hp]
  obtain ⟨_, _, _, _, _, _, e⟩ := hs
  rw [e] at ho
  rw [ht, State.pollIssued, show (s.putArb x).pollBudget = s.pollBudget from rfl, e]
  exact ⟨rfl, hu, ⟨_, _, _, _, _, _, rfl⟩, ho.offered⟩

/-- Settles O9: the issue leaves what `State.pollIssued_spec` says, with the charge or without. -/
theorem pollAccessesIssue : Obligations.PollAccessesIssue := by
  refine ⟨?_, ?_⟩
  · intro s p u us hp hi hw hd hf hb hr hn
    obtain ⟨x, hx⟩ := pollAccessIssue_charged hp hi hw hf hn hd hb hr
    obtain ⟨hbud, hpoll, hports, ho⟩ := State.pollIssued_spec hp hf rfl
    refine ⟨_, hx, hbud, hpoll, hports, ho, ?_, ?_, ?_⟩
    · rintro i rfl
      exact pollAccess_root s p i
    · rintro i k rfl
      exact pollAccess_leaf s p i k
    · rintro i k j rfl
      exact pollAccess_doorbell s p i k j
  · intro s p u us hp hi hw hd hf hn
    obtain ⟨x, hx⟩ := pollAccessIssue_debug hp hi hw hf hn hd
    obtain ⟨hbud, hpoll, hports, ho⟩ := State.pollIssued_spec hp hf rfl
    rw [Int.sub_zero] at hbud
    rw [hbud] at hports
    exact ⟨_, hx, hbud, hpoll, hports, ho⟩

end Sys2Proof.Machine
end

section
/-! PROOFS. The answers of a poll's accesses, its end, and the records of a doorbell line (02 R49 to R60). -/

namespace Sys2Proof.Machine

/-- The access of a poll is answered, and its page logged (10 R336, R339). -/
def State.pollAnswered (s : State) (a : Access) : State := (s.dropAccess a.aid).drainHeld.logPage a

theorem State.pollAnswered_spec (s : State) (a : Access) :
    Released s (s.pollAnswered a) a.aid ∧ (s.pollAnswered a).polls = s.polls ∧
      PortsOnly { s with dirtyQ := (s.pollAnswered a).dirtyQ, dirtyFilter := (s.pollAnswered a).dirtyFilter, is0 := (s.pollAnswered a).is0,
                         regs := (s.pollAnswered a).regs, heldPulses := (s.pollAnswered a).heldPulses } (s.pollAnswered a) := by
  obtain ⟨_, _, _, _, _, _, e⟩ := State.dropDrain_eq s a.aid
  have hr := Released.dropDrain s a.aid
  unfold State.pollAnswered State.logPage
  split
  · obtain ⟨_, _, _, _, _, e1⟩ := State.logDirty_frame (s.dropAccess a.aid).drainHeld a.iid a.addr
    refine ⟨hr.congr (by rw [e1]), ?_, ?_⟩
    · rw [e1, e]
    · rw [e1, e]
      exact ⟨_, _, _, _, _, _, rfl⟩
  · refine ⟨hr, ?_, ?_⟩
    · rw [e]
    · rw [e]
      exact ⟨_, _, _, _, _, _, rfl⟩

theorem State.pollAnswer_clean {s : State} {a : Access} {ans : Answer} (h : CleanAnswer a ans) (k : State → List Byte → State) :
    s.pollAnswer a ans k = k (s.pollAnswered a) (answerBytes a ans) := by
  have h0 : codeSeen ans.code = 0 := h.1
  unfold State.pollAnswer
  rw [State.readEnds_drop (.inl h0)]
  dsimp only
  rw [if_neg (by simp [h0]), State.land_clean _ h, if_neg h.2.2.2]
  rfl

/-- The poll whose access has come to its end, with the accesses that its answer brings in front. -/
def Poll.answered (more : List Purpose) (q : Poll) : Poll :=
  { q with active := q.active - 1, waiting := if q.failed then [] else more ++ q.waiting }

/-- What a sound summary word leaves before the poll settles: the access answered, and what it brings waiting (02 R55, R60). -/
theorem State.pollAnswered_updPoll {s : State} {a : Access} {iid : Nat} {p : Poll} (more : List Purpose) (hp : pollIn s iid = some p)
    (hf : p.failed = false) {u : State} (hu : u = (s.pollAnswered a).updPoll iid (Poll.answered more)) :
    Released s u a.aid ∧ pollIn u iid = some { p with active := p.active - 1, waiting := more ++ p.waiting } ∧
      PortsOnly { s with polls := u.polls, dirtyQ := u.dirtyQ, dirtyFilter := u.dirtyFilter, is0 := u.is0, regs := u.regs,
                         heldPulses := u.heldPulses } u := by
  obtain ⟨hr, hq, hport⟩ := State.pollAnswered_spec s a
  refine ⟨hr.congr (by rw [hu]; rfl), ?_, ?_⟩
  · have hin : pollIn (s.pollAnswered a) iid = some p := by rwa [pollIn, hq]
    rw [hu, pollIn_updPoll (f := Poll.answered more) (fun _ => rfl), hin]
    simp [Poll.answered, hf]
  · obtain ⟨_, _, _, _, _, _, e⟩ := hport
    rw [hu, State.updPoll, e]
    exact ⟨_, _, _, _, _, _, rfl⟩

theorem pollIn_pollAnswered (s : State) (a : Access) (iid : Nat) : pollIn (s.pollAnswered a) iid = pollIn s iid := by
  rw [pollIn, (State.pollAnswered_spec s a).2.1, pollIn]

section
variable {s : State} {aid : Nat} {ans : Answer} {a : Access} {p : Poll} {iid : Nat} (ha : s.access aid = some a)
  (hf : s.fatal = false) (hc : CleanAnswer a ans) (hp : pollIn s iid = some p)
include ha hf hc hp

/-- A sound root word: a leaf access for each set bit, and for every leaf in a full scan (02 R55, R60). -/
theorem rootSwapResponse_clean (hu : a.purpose = .root iid) :
    exec (.rootSwapResponse aid ans) s = .next ((s.pollAnswered a).pollStep iid
      (((List.range 64).filter (fun k => p.full || bit (BitVec.ofNat 64 (leNat (answerBytes a ans))) k)).map (fun k => .leaf iid k))) := by
  show execRootSwapResponse aid ans s = _
  simp only [execRootSwapResponse, ha, hu, hf, Bool.false_eq_true, if_false, State.pollAnswer_clean hc, pollIn_pollAnswered, hp,
    Option.map_some, Option.getD_some]

/-- A sound leaf word outside a full scan: the line of each set bit (02 R55). -/
theorem leafSwapResponse_clean {k : Nat} (hu : a.purpose = .leaf iid k) (hl : p.full = false) :
    exec (.leafSwapResponse aid ans) s = .next ((s.pollAnswered a).pollStep iid
      (((List.range 64).filter (fun j => bit (BitVec.ofNat 64 (leNat (answerBytes a ans))) j)).map (fun j => .doorbell iid k j))) := by
  show execLeafSwapResponse aid ans s = _
  simp only [execLeafSwapResponse, ha, hu, hf, Bool.false_eq_true, if_false, State.pollAnswer_clean hc, pollIn_pollAnswered, hp,
    Option.map_some, Option.getD_some, hl, Bool.false_and, Bool.or_false]

/-- A sound doorbell line: its eight records in turn (02 R49, R50). -/
theorem doorbellLineReadResponse_clean {k j : Nat} (hu : a.purpose = .doorbell iid k j) (hl : p.failed = false) :
    exec (.doorbellLineReadResponse aid ans) s = .next (((List.range 8).foldl (fun v r => v.lineRecord iid (512 * k + 8 * j + r)
      (wd (wordsOfBytes (answerBytes a ans)) r)) (s.pollAnswered a)).pollStep iid []) := by
  show execDoorbellLineReadResponse aid ans s = _
  simp only [execDoorbellLineReadResponse, ha, hu, hf, Bool.false_eq_true, if_false, State.pollAnswer_clean hc, pollIn_pollAnswered, hp,
    Option.map_some, Option.getD_some, hl]

end

/-- Where no write or Swap is answered, no page is logged. -/
theorem State.pollAnswered_read {s : State} {a : Access} (hs : a.attrs.swap = false) (hw : a.write = false) :
    s.pollAnswered a = (s.dropAccess a.aid).drainHeld := by
  simp [State.pollAnswered, State.logPage, hs, hw]

/-! The end of a poll. -/

theorem State.settlePoll_goesOn {s : State} {iid : Nat} {p : Poll} (hp : pollIn s iid = some p) (h : p.active ≠ 0 ∨ p.waiting ≠ []) :
    s.settlePoll iid = s := by
  unfold State.settlePoll
  rw [hp]
  exact if_neg (by tauto)

/-- The poll is gone and its engine asks for nothing more. -/
def State.pollGone (s : State) (iid : Nat) (p : Poll) : State :=
  { (s.dropRequest 32 p.engine) with polls := s.polls.filter (fun q => q.iid != iid) }

/-- A kick that was kept falls due (02 R63), and after a failed poll the next one is a full scan (02 R60). -/
def State.pollAfter (t s : State) (iid : Nat) (p : Poll) : State :=
  let s1 := if (pollOf s iid).kept then t.putPoll (fallDue s s.nomNs (pollOf s iid)) else t
  if p.failed then s1.fullScanNext iid else s1

theorem State.settlePoll_ends {s : State} {iid : Nat} {p : Poll} (hp : pollIn s iid = some p) (h0 : p.active = 0) (hw : p.waiting = []) :
    s.settlePoll iid = ((s.pollGone iid p).pollAfter s iid p).admCheck := by
  unfold State.settlePoll
  rw [hp]
  dsimp only
  rw [if_pos ⟨h0, hw⟩]
  rfl

theorem State.pollGone_frame (s : State) (iid : Nat) (p : Poll) :
    ∃ r, s.pollGone iid p = { s with arbs := r, polls := s.polls.filter (fun q => q.iid != iid) } := by
  unfold State.pollGone State.dropRequest
  dsimp only
  split
  · exact ⟨_, rfl⟩
  · exact ⟨_, rfl⟩

theorem State.pollAfter_frame (t s : State) (iid : Nat) (p : Poll) : ∃ i, t.pollAfter s iid p = { t with pollInst := i } := by
  unfold State.pollAfter
  dsimp only
  split
  · split
    · exact ⟨_, rfl⟩
    · exact ⟨_, rfl⟩
  · split
    · exact ⟨_, rfl⟩
    · exact ⟨_, rfl⟩

/-- After a failed poll the next one is a full scan. -/
theorem State.pollAfter_failed (t s : State) {iid : Nat} {p : Poll} (hp : p.failed = true) :
    (pollOf (t.pollAfter s iid p) iid).fullDue = true := by
  unfold State.pollAfter State.fullScanNext
  dsimp only
  rw [if_pos hp]
  generalize (if (pollOf s iid).kept then t.putPoll (fallDue s s.nomNs (pollOf s iid)) else t) = v
  have h := pollOf_putPoll v { pollOf v iid with fullDue := true }
  rw [show ({ pollOf v iid with fullDue := true } : PollInst).iid = iid from pollOf_iid v iid] at h
  rw [h]

/-! The records of a doorbell line. -/

theorem State.lineRecord_noQueue {s : State} {iid q : Nat} {rec : W64}
    (h : qidSpan s iid ≤ q ∨ s.queues.contains (qbase s iid + q) = false) : s.lineRecord iid q rec = s.countIgnored iid rec := by
  refine if_pos ?_
  rcases h with h | h
  · simp [Nat.not_lt.2 h]
  · rw [h, Bool.not_false, Bool.or_true]

/-- The record of an existing queue goes to the queue's home (02 R50, 14 R421). -/
theorem State.lineRecord_queue {s : State} {iid q : Nat} {rec : W64} (hq : q < qidSpan s iid)
    (hc : s.queues.contains (qbase s iid + q) = true) :
    s.lineRecord iid q rec =
      if homedAway s (qbase s iid + q) then s.forwardDoorbell (qbase s iid + q) rec else s.takeRecord (qbase s iid + q) rec := by
  unfold State.lineRecord
  dsimp only
  rw [if_neg (by rw [hc, decide_eq_true hq]; decide)]

/-- Settles O10: the answers of `rootSwapResponse_clean`, `leafSwapResponse_clean` and `doorbellLineReadResponse_clean`, what they leave
by `State.pollAnswered_updPoll`, and the end of a poll by `State.settlePoll_ends`. -/
theorem pollAnswers : Obligations.PollAnswers := by
  refine ⟨?_, ?_, fun s iid p => State.settlePoll_goesOn, ?_, ?_, ?_, ?_, ?_, ?_, ?_⟩
  · intro s aid ans a p iid ha hu hf hc hp hl
    obtain ⟨hr, hin, hports⟩ := State.pollAnswered_updPoll (a := a) _ hp hl rfl
    exact ⟨_, _, rootSwapResponse_clean ha hf hc hp hu, hr, rfl, hin, hports⟩
  · intro s aid ans a p iid k ha hu hf hc hp hl hfull
    obtain ⟨hr, hin, hports⟩ := State.pollAnswered_updPoll (a := a) _ hp hl rfl
    exact ⟨_, _, leafSwapResponse_clean ha hf hc hp hu hfull, hr, rfl, hin, hports⟩
  · intro s iid p hp h0 hw
    obtain ⟨_, e⟩ := State.pollGone_frame s iid p
    obtain ⟨_, e'⟩ := State.pollAfter_frame (s.pollGone iid p) s iid p
    refine ⟨_, State.settlePoll_ends hp h0 hw, ?_, State.pollAfter_failed _ s, ?_⟩
    · rw [e', e]
      simp [pollIn]
    · rw [e', e]
  · intro s aid ans a p iid k j ha hu hf hc hs hw hp hl
    rw [doorbellLineReadResponse_clean ha hf hc hp hu hl, State.pollAnswered_read hs hw]
    exact ⟨_, rfl, Released.dropDrain s a.aid, PortsOnly.dropDrain s a.aid⟩
  · exact fun s iid q rec => State.lineRecord_noQueue
  · intro s iid q rec hq hc hh
    rw [State.lineRecord_queue hq hc, if_pos hh]
  · intro s iid q rec hq hc hh w hw
    rw [State.lineRecord_queue hq hc, if_neg (by simp [hh]), State.takeRecord, if_pos (by simp [hw])]
  · intro s iid q rec hq hc hh hn
    rw [State.lineRecord_queue hq hc, if_neg (by simp [hh]), State.takeRecord, if_neg (by simp [hn])]
  · exact fun s iid => if_pos rfl

end Sys2Proof.Machine
end

section
/-! PROOFS. Readiness, and the doorbell records that a queue takes (02 R45 to R50). -/

namespace Sys2Proof.Machine

/-- A queue that is neither draining, absent nor in ERROR. -/
theorem QCtx.inService {c : QCtx} (h : c.state = qIdle ∨ c.state = qActive) :
    c.state ≠ qAbsent ∧ c.state ≠ qDraining ∧ c.state ≠ qError := by
  rcases h with h | h
  · rw [h]; decide
  · rw [h]; decide

/-! Readiness. -/

theorem State.addReady_frame (s : State) (qid : Nat) (b : Bool) : ∃ r, s.addReady qid b = { s with ready := r } := by
  unfold State.addReady
  dsimp only
  split
  · exact ⟨_, rfl⟩
  · exact ⟨_, rfl⟩

theorem State.addReady_live (s : State) (qid : Nat) (b : Bool) : (s.addReady qid b).ready.any (fun r => r.qid == qid && r.live) = true := by
  unfold State.addReady
  dsimp only
  split
  · rename_i h
    obtain ⟨r, hr, hq⟩ := List.any_eq_true.1 h
    refine List.any_eq_true.2 ⟨_, List.mem_map_of_mem hr, ?_⟩
    simp [hq]
  · simp

/-- The queue is made ready, and is ACTIVE (02 R50). -/
def State.active (s : State) (qid : Nat) (c : QCtx) : State :=
  { ((s.setCtx qid { c with state := qActive }).addReady qid false) with idleSince := none }

theorem State.markReady_inService {s : State} {qid : Nat} {c : QCtx} (hc : ctxOf s qid = some c) (hs : c.state = qIdle ∨ c.state = qActive) :
    s.markReady qid = if c.piSeen = c.f ∧ isAdopting s qid = false then s else s.active qid c := by
  obtain ⟨h0, h4, h5⟩ := QCtx.inService hs
  have hd : (decide (c.state = qIdle) || decide (c.state = qActive)) = true := by simpa using hs
  unfold State.markReady
  rw [hc]
  dsimp only
  by_cases h : c.piSeen = c.f ∧ isAdopting s qid = false
  · rw [if_pos h, if_neg (by simp [h.1, h.2]), if_neg (by simp [adoptsOn, h.2])]
  · rw [if_neg h, if_pos (by rw [hd]; simpa [imp_iff_not_or] using h)]
    rfl

theorem State.active_spec {s : State} {qid : Nat} {c : QCtx} (hc : ctxOf s qid = some c) :
    ctxOf (s.active qid c) qid = some { c with state := qActive } ∧ (∀ r, r ≠ qid → ctxOf (s.active qid c) r = ctxOf s r) ∧
      (s.active qid c).ready.any (fun r => r.qid == qid && r.live) = true ∧
      s.active qid c = { s with ways := (s.active qid c).ways, ready := (s.active qid c).ready, idleSince := none } := by
  obtain ⟨_, e⟩ := State.addReady_frame (s.setCtx qid { c with state := qActive }) qid false
  have hw : (s.active qid c).ways = (s.setCtx qid { c with state := qActive }).ways := by rw [State.active, e]
  refine ⟨?_, fun r hr => ?_, State.addReady_live _ qid false, ?_⟩
  · rw [ctxOf_of_ways hw, ctxOf_setCtx s qid _ (by simp [hc])]
  · rw [ctxOf_of_ways hw, ctxOf_setCtx_ne s qid r _ hr]
  · unfold State.active
    rw [e]
    rfl

/-! Records of a queue. -/

theorem toNat_sub_eq_zero {n : Nat} {a b : BitVec n} : (a - b).toNat = 0 ↔ a = b := by
  rw [← BitVec.toNat_zero, BitVec.toNat_inj, BitVec.sub_eq_iff_eq_add, BitVec.zero_add]

/-- The toggles of a record, as its queue then has them seen (02 R46). -/
def QCtx.toggled (c : QCtx) (rec : W64) : QCtx :=
  { c with resumeSeen := BitVec.ofNat 1 (bits rec 48 1), abandonSeen := BitVec.ofNat 1 (bits rec 49 1) }

/-- The producer index of a record runs past the ring (02 R45). -/
abbrev QCtx.overrunBy (c : QCtx) (rec : W64) : Prop :=
  (rec.setWidth 32 - c.piSeen).toNat ≠ 0 ∧ (c.depth < (rec.setWidth 32 - c.piSeen).toNat ∨ c.depth < (rec.setWidth 32 - c.q).toNat)

theorem State.applyRecord_ignored {s : State} {qid : Nat} {rec : W64} {c : QCtx} (hc : ctxOf s qid = some c)
    (h : c.state = qAbsent ∨ (c.state = qDraining ∧ c.drainTo = 1) ∨ bits rec 56 8 ≠ c.dbGen.toNat) :
    s.applyRecord qid rec = s.countIgnored c.iid.toNat rec := by
  unfold State.applyRecord
  rw [hc]
  dsimp only
  split
  · rfl
  · rename_i hn
    rcases h with h | h | h
    · simp [h] at hn
    · simp [h] at hn
    · rw [if_pos h]

/-- The queue's context takes the record's producer index and toggles. -/
def State.recordSeen (s : State) (qid : Nat) (c : QCtx) (rec : W64) : State :=
  if (rec.setWidth 32 - c.piSeen).toNat = 0 then s.setCtx qid (c.toggled rec)
  else (s.setCtx qid (c.toggled rec)).setCtx qid { c.toggled rec with piSeen := rec.setWidth 32 }

theorem State.recordSeen_spec {s : State} {qid : Nat} {c : QCtx} (rec : W64) (hc : ctxOf s qid = some c) :
    ctxOf (s.recordSeen qid c rec) qid = some { c.toggled rec with piSeen := rec.setWidth 32 } ∧
      (∀ r, r ≠ qid → ctxOf (s.recordSeen qid c rec) r = ctxOf s r) ∧ s.recordSeen qid c rec = { s with ways := (s.recordSeen qid c rec).ways } := by
  have h1 : ctxOf (s.setCtx qid (c.toggled rec)) qid = some (c.toggled rec) := ctxOf_setCtx s qid _ (by simp [hc])
  unfold State.recordSeen
  split
  · rename_i h0
    have hp : c.piSeen = rec.setWidth 32 := (toNat_sub_eq_zero.1 h0).symm
    refine ⟨?_, fun r hr => ctxOf_setCtx_ne s qid r _ hr, rfl⟩
    rw [h1, ← hp]
    rfl
  · refine ⟨ctxOf_setCtx _ qid _ (by rw [h1]; rfl), fun r hr => ?_, rfl⟩
    rw [ctxOf_setCtx_ne _ qid r _ hr, ctxOf_setCtx_ne s qid r _ hr]

section
variable {s : State} {qid : Nat} {rec : W64} {c : QCtx} (hc : ctxOf s qid = some c) (hs : c.state = qIdle ∨ c.state = qActive)
  (hg : bits rec 56 8 = c.dbGen.toNat)
include hc hs hg

/-- A record of a queue in service either overruns its ring, or gives its producer index and toggles (02 R45, R50). -/
theorem State.applyRecord_inService :
    s.applyRecord qid rec = if c.overrunBy rec then (s.setCtx qid (c.toggled rec)).overrunAt qid (c.toggled rec)
      else (s.recordSeen qid c rec).markReady qid := by
  obtain ⟨h0, h4, h5⟩ := QCtx.inService hs
  unfold State.applyRecord
  rw [hc]
  dsimp only
  rw [if_neg (by simp [h0, h4]), if_neg (by simp [hg]), if_neg (show ¬ decide (c.state = qError) = true by simpa using h5)]
  rfl

end

/-- A DB_OVERRUN of a queue that neither drains nor is in ERROR (02 R45). -/
theorem State.overrunAt_enters (s : State) {qid : Nat} {c : QCtx} (h4 : c.state ≠ qDraining) (h5 : c.state ≠ qError) :
    s.overrunAt qid c = s.enterError qid (c.q + BitVec.ofNat 32 c.depth) 3 0 18 63 0 := by
  unfold State.overrunAt
  dsimp only
  rw [if_neg h5, if_neg h4]

/-- Settles O11: `State.applyRecord_ignored`, and the two ways of `State.applyRecord_inService`. -/
theorem doorbellRecords : Obligations.DoorbellRecords := by
  refine ⟨fun s qid rec c => State.applyRecord_ignored, ?_, ?_⟩
  · intro s qid rec c hc hs hg hne hover
    obtain ⟨h0, h4, h5⟩ := QCtx.inService hs
    have h1 : ctxOf (s.setCtx qid (c.toggled rec)) qid = some (c.toggled rec) := ctxOf_setCtx s qid _ (by simp [hc])
    have ho : c.overrunBy rec := ⟨fun h => hne (toNat_sub_eq_zero.1 h), hover⟩
    have e : s.applyRecord qid rec = _ :=
      (State.applyRecord_inService hc hs hg).trans ((if_pos ho).trans (State.overrunAt_enters _ h4 h5))
    obtain ⟨d, hd, hst, hidx, hcause, hdepth, hpos, hpi, -, -⟩ := enterError_ctx _ qid _ 3 0 18 63 0 _ h1
    exact ⟨_, d, e, hd, hst, hidx, hcause, hdepth, hpos, hpi⟩
  · intro s qid rec c hc hs hg hp hq
    obtain ⟨hseen, hother, hframe⟩ := State.recordSeen_spec rec hc
    have e : s.applyRecord qid rec = _ := (State.applyRecord_inService hc hs hg).trans ((if_neg (by omega)).trans
      (State.markReady_inService hseen hs))
    have ha : isAdopting (s.recordSeen qid c rec) qid = isAdopting s qid := by rw [hframe]; rfl
    rw [ha] at e
    by_cases h : rec.setWidth 32 = c.f ∧ isAdopting s qid = false
    · refine ⟨_, _, e.trans (if_pos h), hseen, rfl, (if_pos h).symm, fun hn => absurd h.1 hn, hother, ?_⟩
      rw [hframe]
    · obtain ⟨hctx, hoth, hlive, hfr⟩ := State.active_spec hseen
      refine ⟨_, _, e.trans (if_neg h), hctx, rfl, (if_neg h).symm, fun _ => hlive, fun r hr => (hoth r hr).trans (hother r hr), ?_⟩
      rw [hfr, hframe]

end Sys2Proof.Machine
end

section
/-! PROOFS. Reads of channels: slots that are not whole, re-reads and the ceiling (02 R65 to R68). -/

namespace Sys2Proof.Machine

/-! What ends a bind leaves: the fetches that a freed slot lets begin touch no slot, record or re-read. -/

/-- t is s but for the contexts and their write-backs, the accesses and what they go through, and registers. -/
def FetchStep (s t : State) : Prop :=
  ∃ w b a h n c r g, t = { s with ways := w, ctxWb := b, acc := a, held := h, nextAid := n, credits := c, arbs := r, regs := g }

theorem FetchStep.refl (s : State) : FetchStep s s := ⟨_, _, _, _, _, _, _, _, rfl⟩

theorem FetchStep.trans {s t u : State} (h : FetchStep s t) (k : FetchStep t u) : FetchStep s u := by
  obtain ⟨_, _, _, _, _, _, _, _, rfl⟩ := h
  obtain ⟨_, _, _, _, _, _, _, _, rfl⟩ := k
  exact ⟨_, _, _, _, _, _, _, _, rfl⟩

theorem FetchStep.service (s : State) (h : Held) : FetchStep s (s.service h) := by
  obtain ⟨_, _, _, _, _, e, _⟩ := State.service_frame s h
  rw [e]
  exact ⟨_, _, _, _, _, _, _, _, rfl⟩

theorem FetchStep.setCtx (s : State) (q : Nat) (c : QCtx) : FetchStep s (s.setCtx q c) := ⟨_, _, _, _, _, _, _, _, rfl⟩

theorem FetchStep.bankAccess (s : State) (q r : Nat) : FetchStep s (s.bankAccess q r) := ⟨_, _, _, _, _, _, _, _, rfl⟩

theorem FetchStep.noticeTrigger (s : State) (q : Nat) : FetchStep s (s.noticeTrigger q) := by
  unfold State.noticeTrigger
  split
  · exact FetchStep.refl s
  · dsimp only
    split
    · exact FetchStep.refl s
    · split
      · exact FetchStep.setCtx s q _
      · exact ((FetchStep.setCtx s q _).trans (FetchStep.bankAccess _ q 3)).trans (FetchStep.service _ _)

theorem FetchStep.writeBack (s : State) (w : Way) : FetchStep s (s.writeBack w) := by
  unfold State.writeBack
  dsimp only
  split
  · exact FetchStep.refl s
  · refine FetchStep.trans ?_ (FetchStep.service _ _)
    split
    · exact FetchStep.bankAccess s _ 5
    · exact ⟨_, _, _, _, _, _, _, _, rfl⟩

theorem FetchStep.evict (s : State) (w : Way) : FetchStep s (s.evict w) := by
  unfold State.evict
  refine FetchStep.trans ?_ (FetchStep.writeBack _ w)
  split
  · exact FetchStep.refl s
  · exact FetchStep.noticeTrigger s _

theorem FetchStep.startFetch (s : State) (q : Nat) : FetchStep s (s.startFetch q) := by
  unfold State.startFetch State.fetchCtx
  extract_lets issued fetch
  have hf : FetchStep s fetch := (FetchStep.service s _).trans ⟨_, _, _, _, _, _, _, _, rfl⟩
  clear_value fetch issued
  split
  · exact FetchStep.refl s
  · split
    · exact hf
    · split
      · split
        · exact hf
        · split
          · exact FetchStep.refl s
          · exact FetchStep.evict s _
      · exact FetchStep.refl s

theorem FetchStep.pumpCtx (s : State) : FetchStep s s.pumpCtx := by
  unfold State.pumpCtx
  generalize s.ctxWait = xs
  induction xs generalizing s with
  | nil => exact FetchStep.refl s
  | cons x xs ih => exact (FetchStep.startFetch s x.1).trans (ih _)

theorem State.noteFull_frame (s : State) (clu : Nat) : ∃ d, s.noteFull clu = { s with sched := d } := by
  unfold State.noteFull
  dsimp only
  split
  · split
    · exact ⟨_, rfl⟩
    · exact ⟨_, rfl⟩
  · split
    · exact ⟨_, rfl⟩
    · exact ⟨_, rfl⟩

/-- The slots other than that of a place. -/
def otherSlots (xs : List Slot) (clu idx : Nat) : List Slot := xs.filter (fun y => !(y.clu == clu && y.idx == idx))

/-- A freed slot is gone; what waits for contexts is tried again. -/
theorem State.freeSlot_frame (s : State) (clu idx : Nat) :
    ∃ d, FetchStep { s with slots := otherSlots s.slots clu idx, sched := d } (s.freeSlot clu idx) := by
  obtain ⟨d, e⟩ := State.noteFull_frame { s with slots := otherSlots s.slots clu idx } clu
  refine ⟨d, ?_⟩
  have h := FetchStep.pumpCtx (({ s with slots := otherSlots s.slots clu idx } : State).noteFull clu)
  rw [e] at h
  unfold State.freeSlot
  rw [← otherSlots, e]
  exact h

theorem State.endBind_frame (s : State) (x : Slot) :
    ∃ d, FetchStep { s with slots := otherSlots s.slots x.clu x.idx, sched := d } (s.endBind x) := by
  obtain ⟨d, h⟩ := State.freeSlot_frame ((s.addDef x.rotHome x.iid x.estCost).orphanReads x.clu x.idx) x.clu x.idx
  exact ⟨d, FetchStep.trans ⟨_, _, _, _, _, _, _, _, rfl⟩ h⟩

theorem slotAt_otherSlots {t : State} {xs : List Slot} {clu idx : Nat} (h : t.slots = otherSlots xs clu idx) : slotAt t clu idx = none := by
  simp only [slotAt, h, otherSlots, List.find?_filter, List.find?_eq_none]
  intro y _
  cases (y.clu == clu && y.idx == idx)
  · decide
  · decide

/-! A slot as it is read. -/

theorem Chain.seek_zero {ch : Chain} (h : ch.seek = 0) : { ch with seek := 0 } = ch := by rw [← h]

/-- A channel that does not seek is as it was found. -/
theorem Slot.found_of_no_seek {x : Slot} (h : (x.chain.map (·.seek)).getD 0 = 0) :
    { x with chain := x.chain.map (fun ch => { ch with seek := 0 }) } = x := by
  have e : x.chain.map (fun ch => { ch with seek := 0 }) = x.chain := by
    cases hc : x.chain with
    | none => rfl
    | some ch => rw [Option.map_some, Chain.seek_zero (by simpa [hc] using h)]
  rw [e]

/-- What is asked for again after its answer or its error. -/
theorem State.readEnds_readAgain {s t : State} {a : Access} (ans : Answer) (hf : s.fatal = false)
    (ht : t = (s.readEnds a ans).drainHeld.readAgain a) :
    Released s t a.aid ∧ Offered t a.purpose a.write a.addr a.len a.data ∧ PortsOnly { s with quar := t.quar } t := by
  obtain ⟨hr, hports, -⟩ := State.readEnds_drain s a ans
  generalize (s.readEnds a ans).drainHeld = u at hr hports ht
  obtain ⟨_, _, _, _, _, _, e⟩ := hports
  have hfu : u.fatal = false := by
    rw [e]
    exact hf
  refine ⟨ht ▸ hr.service _, ht ▸ (Asked.serviceAgain a 0 hfu).offered, ?_⟩
  obtain ⟨_, _, _, _, _, _, e'⟩ := PortsOnly.serviceAgain u a 0
  rw [ht, State.readAgain, e', e]
  exact ⟨_, _, _, _, _, _, rfl⟩

section
variable {s : State} {aid : Nat} {a : Access} {ans : Answer} {clu idx : Nat} {x : Slot} (ha : s.access aid = some a)
  (hp : a.purpose = .slot clu idx) (hf : s.fatal = false) (hx : slotAt s clu idx = some x)
include ha hp hf hx

/-- A sound answer is sorted by its GEN and SEAL (02 R65). -/
theorem slotReadResponse_sorts {c : QCtx} (hans : CleanAnswer a ans) (hc : ctxOf s x.qid = some c) (hk : (x.chain.map (·.seek)).getD 0 = 0)
    (had : adoptedFrom s x.qid = none ∨ x.chain.isSome = true) {u : State} (hu : u = (s.dropAccess a.aid).drainHeld) {ws : List W64}
    (hws : ws = wordsOfBytes (answerBytes a ans)) :
    exec (.slotReadResponse aid ans) s = .next (if dGen ws ≠ genOf c.depth x.slotIdx then u.notWhole x ws false
      else if dSeal ws ≠ genOf c.depth x.slotIdx then u.notWhole x ws true else u.wholeSlot x ws) := by
  have h0 : codeSeen ans.code = 0 := hans.1
  obtain ⟨_, _, _, _, _, _, e⟩ := State.dropDrain_eq s a.aid
  have hx' : slotAt u clu idx = some x := by rw [hu, e]; exact hx
  have hc' : ctxOf u x.qid = some c := by rw [hu, e]; exact hc
  have had' : adoptedFrom u x.qid = none ∨ x.chain.isSome = true := by rw [hu, e]; exact had
  show execSlotReadResponse aid ans s = _
  unfold execSlotReadResponse
  simp only [ha, hf, hp, Bool.false_eq_true, if_false, State.readEnds_drop (.inl h0), ← hu, hx', h0, ne_eq, not_true_eq_false,
    State.land_clean _ hans, hans.2.2.2, hc', hk, false_and, ← hws, Slot.found_of_no_seek hk]
  split
  · rename_i hm hn
    simp [hm, hn] at had'
  · split
    · rfl
    · split
      · rfl
      · rfl

/-- An answer that is no data has the slot read again (01 R32). -/
theorem slotReadResponse_error (h0 : codeSeen ans.code ≠ 0) :
    exec (.slotReadResponse aid ans) s = .next ((s.readEnds a ans).drainHeld.readAgain a) := by
  obtain ⟨hr, hports, hfu⟩ := State.readEnds_drain s a ans
  have hx' : slotAt (s.readEnds a ans).drainHeld clu idx = some x := by
    obtain ⟨_, _, _, _, _, _, e⟩ := hports
    rw [e]
    exact hx
  show execSlotReadResponse aid ans s = _
  unfold execSlotReadResponse
  simp only [ha, hf, hp, Bool.false_eq_true, if_false, hx', if_pos h0]

end

/-! Slots that are not whole (02 R66, R67). -/

/-- How often a slot has been read again. -/
def rereadCount (s : State) (x : Slot) : Nat :=
  ((s.rereads.find? (fun r => r.qid == x.qid && decide (r.idx = x.slotIdx))).map (·.count)).getD 0

/-- What is kept of a slot that was not whole: when it is read again, or why it is not (02 R66, R67). -/
def notWholeReread (s : State) (x : Slot) (ws : List W64) (torn : Bool) : Reread :=
  let spent := decide (tornCeil s ≤ rereadCount s x)
  { qid := x.qid, idx := x.slotIdx, count := if spent then rereadCount s x else rereadCount s x + 1,
    due := if spent then none else some (s.nomNs + effInterval s x.iid),
    cause := if spent then some (if torn then 1 else 2) else none, clu := x.clu, slot := x.idx, words := ws }

theorem State.notWhole_eq (s : State) (x : Slot) (ws : List W64) (torn : Bool) :
    ∃ (w : List Way) (t : State),
      t = { s with ways := w, rereads := notWholeReread s x ws torn :: s.rereads.filter (fun y => !(y.qid == x.qid && decide (y.idx = x.slotIdx))) } ∧
      s.notWhole x ws torn = if x.chain.isNone then t.endBind x else t := by
  unfold State.notWhole
  extract_lets old n spent r s1 isF s2
  have hr : r = notWholeReread s x ws torn := rfl
  obtain ⟨w, hw⟩ : ∃ w, s2 = { s1 with ways := w } := by
    unfold s2
    split
    · exact State.updCtx_frame _ _ _
    · exact ⟨_, rfl⟩
  refine ⟨w, s2, ?_, rfl⟩
  rw [hw, ← hr]

/-- The ring slot's channel is free, and the re-read stands first. -/
theorem State.notWhole_spec (s : State) (x : Slot) (ws : List W64) (torn : Bool) :
    (s.notWhole x ws torn).rereads.head? = some (notWholeReread s x ws torn) ∧
      (x.chain = none → slotAt (s.notWhole x ws torn) x.clu x.idx = none) := by
  obtain ⟨w, t, ht, e⟩ := State.notWhole_eq s x ws torn
  obtain ⟨_, _, _, _, _, _, _, _, _, hb⟩ := State.endBind_frame t x
  cases hc : x.chain with
  | none =>
    rw [e, hc, Option.isNone_none, if_pos rfl, hb]
    refine ⟨?_, fun _ => slotAt_otherSlots rfl⟩
    rw [ht]
    rfl
  | some ch =>
    rw [e, hc, Option.isNone_some, if_neg (by decide), ht]
    exact ⟨rfl, nofun⟩

/-! Re-reads whose interval has passed (02 R66). -/

/-- The interval of a re-read has passed. -/
def Reread.isDue (s : State) (r : Reread) : Bool := (r.due.map (fun d => decide (d ≤ s.nomNs))).getD false

/-- The re-read of a slot of a queue waits for no interval any more. -/
def State.rereadTaken (s : State) (qid : Nat) (r : Reread) : State :=
  { s with rereads := upd (fun y => y.qid == qid && decide (y.idx = r.idx)) (fun y => { y with due := none }) s.rereads }

theorem State.rereadTaken_due {s : State} {qid : Nat} {r y : Reread} (hy : y ∈ (s.rereadTaken qid r).rereads) (hq : y.qid = qid)
    (hi : y.idx = r.idx) : y.due = none := by
  obtain ⟨z, -, rfl⟩ := List.mem_map.1 hy
  by_cases h : (z.qid == qid && decide (z.idx = r.idx)) = true
  · rw [if_pos h]
  · rw [if_neg h] at hq hi
    simp [hq, hi] at h

/-- The channel of the LINK in whose chain a re-read's descriptor lies. -/
def rereadLinkOf (s : State) (qid : Nat) (r : Reread) : Option Slot :=
  (chans s qid).find? (fun x => decide (x.slotIdx = r.idx) && x.chain.isSome)

/-- The re-read goes on: by its chain's channel, else by a bind of its queue, as a RESUME's where the queue is in ERROR. -/
def State.rereadGoes (s : State) (qid : Nat) (r : Reread) : State :=
  match rereadLinkOf s qid r with
  | some x => s.service (chainRead s x (.slot x.clu x.idx) ((x.chain.map (fun k => k.segAddr + 64 * k.segPos)).getD 0))
  | none =>
    if (match ctxOf s qid with | some c => decide (c.state = qError) | none => false) then s.addReady qid true else s.markReady qid

section
variable {s : State} {qid : Nat} {r : Reread} (hq : qid < 2 ^ 22) (hr : s.rereads.find? (fun r => r.qid == qid && r.isDue s) = some r)
  (hrun : running s = true) (hs : serves s = true)
include hq hr hrun hs

/-- The re-read goes on: on its chain's channel, or by a bind of its queue. -/
theorem slotReread_eq : exec (.slotReread qid) s =
    .next ((s.rereadTaken qid r).rereadGoes qid r) := by
  have hd : s.rereads.find? (fun r => r.qid == qid && (match r.due with | some t => decide (t ≤ s.nomNs) | none => false)) = some r := by
    rw [← hr]
    congr 1
    funext y
    unfold Reread.isDue
    cases y.due with
    | none => rfl
    | some t => rfl
  show execSlotReread qid s = _
  unfold execSlotReread
  rw [if_neg (by omega)]
  split
  · rename_i h
    exact absurd (h.symm.trans hd) nofun
  · rename_i y h
    obtain rfl : y = r := Option.some.inj (h.symm.trans hd)
    rw [if_neg (by simp [hrun, hs])]
    unfold State.rereadGoes
    rw [show rereadLinkOf (s.rereadTaken qid y) qid y = (chans s qid).find? (fun x => decide (x.slotIdx = y.idx) && x.chain.isSome) from rfl]
    generalize hx : (chans s qid).find? (fun x => decide (x.slotIdx = y.idx) && x.chain.isSome) = o
    cases o with
    | some x => rfl
    | none => rfl

end

/-! The ceiling of re-reads (02 R67). -/

/-- Its last read is what the scheduler and an ABANDONED record then know of a ring slot at the ceiling. -/
def State.rereadSpent (s : State) (qid : Nat) (r : Reread) : State :=
  ({ s with rereads := s.rereads.filter (fun y => !(y.qid == qid && decide (y.idx = r.idx))) } : State).noteSlot qid r.words

theorem tornCeilReached_ring {s : State} {qid : Nat} {r : Reread} {c : QCtx} (hq : qid < 2 ^ 22) (hc : ctxOf s qid = some c)
    (hr : spentReread s qid c = some r) (hrun : running s = true) (hs : c.state ≠ qError) (hl : rereadLinkOf s qid r = none) :
    exec (.tornCeilReached qid) s =
      .next ((s.rereadSpent qid r).enterError qid r.idx (r.cause.getD 2) 0 (2 + r.clu) r.slot r.clu) := by
  show execTornCeilReached qid s = _
  unfold execTornCeilReached
  rw [if_neg (by omega), hc]
  dsimp only
  rw [hr]
  dsimp only
  rw [if_neg (by simp [hrun]), ← rereadLinkOf, hl]
  dsimp only
  rw [if_neg hs]
  rfl

/-- The read of a chain's channel is asked for. -/
theorem chainRead_offered {s : State} (hf : s.fatal = false) (t : State) (x : Slot) (u : Purpose) (addr : Nat) :
    Offered (s.service (chainRead t x u addr)) u false addr 64 [] :=
  (Asked.service (s := s) (h := chainRead t x u addr) hf rfl).offered

/-- Settles O17: `slotReadResponse_sorts`, `slotReadResponse_error`, `State.notWhole_spec`, `slotReread_eq` and `tornCeilReached_ring`,
clause by clause. -/
theorem slotSorting : Obligations.SlotSorting := by
  refine ⟨?_, ?_, ?_, ?_, ?_⟩
  · intro s aid a ans clu idx x c ha hp hf hans hx hc hk had
    have e := slotReadResponse_sorts ha hp hf hx hans hc hk had rfl rfl
    refine ⟨_, Released.dropDrain s a.aid, PortsOnly.dropDrain s a.aid, fun h => ?_, fun h h' => ?_, fun h h' => ?_⟩
    · rw [e, if_pos h]
    · rw [e, if_neg (not_not.2 h), if_pos h']
    · rw [e, if_neg (not_not.2 h), if_neg (not_not.2 h')]
  · intro s aid a ans clu idx x ha hp hf h0 hx
    exact ⟨_, slotReadResponse_error ha hp hf hx h0, State.readEnds_readAgain ans hf rfl⟩
  · intro s x ws torn n hn
    obtain rfl : n = rereadCount s x := hn
    obtain ⟨hr, hs⟩ := State.notWhole_spec s x ws torn
    refine ⟨_, hr, rfl, rfl, fun h => ?_, fun h => ?_, hs⟩
    · simp [notWholeReread, Nat.not_le.2 h]
    · simp [notWholeReread, h]
  · intro s qid r hq hr hrun hs
    have e := slotReread_eq hq hr hrun hs
    refine ⟨s.rereadTaken qid r, rfl, fun y hy => State.rereadTaken_due hy, fun x ch hx hch => ?_, fun hx c hc => ?_⟩
    · have hx' : rereadLinkOf (s.rereadTaken qid r) qid r = some x := hx
      rw [State.rereadGoes, hx'] at e
      simp only [hch, Option.map_some, Option.getD_some] at e
      have hf : (s.rereadTaken qid r).fatal = false := fatal_of_running hrun
      exact ⟨_, e, PortsOnly.service _ _, chainRead_offered hf _ _ _ _⟩
    · have hx' : rereadLinkOf (s.rereadTaken qid r) qid r = none := hx
      have hc' : ctxOf (s.rereadTaken qid r) qid = some c := hc
      rw [State.rereadGoes, hx', hc'] at e
      simpa only [decide_eq_true_eq] using e
  · intro s qid r c hq hc hr hrun hF hs hl
    obtain ⟨d, hd, h1, h2, h3, h4, h5, -, h6, h7⟩ := enterError_ctx (s.rereadSpent qid r) qid r.idx (r.cause.getD 2) 0 (2 + r.clu) r.slot r.clu c hc
    exact ⟨_, d, tornCeilReached_ring hq hc hr hrun hs hl, hd, h1, h2, h3, h4, h5, h7, h6⟩

end Sys2Proof.Machine
end

section
/-! PROOFS. Acceptance (02 R68, 07 R222, R223, 08 R250). -/

namespace Sys2Proof.Machine

/-! Channels' slots. -/

/-- A slot that f leaves in its place is found as f makes it. -/
theorem slotAt_updSlot_at {s : State} {clu idx : Nat} {f : Slot → Slot} (hf : ∀ x, x.clu = clu → x.idx = idx → (f x).clu = clu ∧ (f x).idx = idx) :
    slotAt (s.updSlot clu idx f) clu idx = (slotAt s clu idx).map f :=
  find_upd (fun x : Slot => x.clu == clu && x.idx == idx) f
    (fun x hx => by
      obtain ⟨h1, h2⟩ : x.clu = clu ∧ x.idx = idx := by simpa using hx
      simpa using hf x h1 h2) s.slots

/-- A slot put in the place of another is found there. -/
theorem slotAt_updSlot_put {s : State} {clu idx : Nat} {x y : Slot} (hx : slotAt s clu idx = some x) (hc : y.clu = clu) (hi : y.idx = idx) :
    slotAt (s.updSlot clu idx (fun _ => y)) clu idx = some y := by
  rw [slotAt_updSlot_at (fun _ _ _ => ⟨hc, hi⟩), hx, Option.map_some]

/-! Registers of clusters lie above the shared pages (17 R498). -/

theorem Reg.addr_clustered_ne {r q : Reg} (hr : r.clustered = true) (hq : q.clustered = false) (hs : q.at 0 < 0x8000)
    (n : Nat) : q.addr 0 ≠ r.addr n := by
  have hb : 0x8000 ≤ r.base := by simpa [Reg.clustered] using hr
  have hn : r.base ≤ r.addr n := by
    rw [Reg.addr, if_pos hr, Reg.ofClu]
    omega
  have hq0 : q.addr 0 = q.at 0 := by simp [Reg.addr, hq]
  omega

theorem bits_word (w : W32) : bits w 0 32 = w.toNat := by
  rw [bits, Nat.pow_zero, Nat.div_one, Nat.mod_eq_of_lt w.isLt]

/-- A counter that is its whole register. -/
theorem State.rd_bump_word {s : State} {r : Reg} {i k : Nat} (hw : s.regs.wf = true) :
    (s.bump r i 0 32 k).rd r i = s.rd r i + BitVec.ofNat 32 k := by
  rw [State.bump, State.rd_setFld _ _ _ _ _ _ hw]
  have h := bits_withBits (s.rd r i) 0 32 (s.fld r i 0 32 + k) (by omega)
  rw [bits_word, State.fld, bits_word] at h
  rw [State.fld, bits_word]
  exact BitVec.eq_of_toNat_eq (by rw [h, BitVec.toNat_add, BitVec.toNat_ofNat, Nat.add_mod_mod])

/-! Deficits. -/

theorem schedOf_putSched (s : State) (x : Sched) : schedOf (s.putSched x) x.clu = x := by simp [schedOf, State.putSched]

theorem schedOf_clu (s : State) (n : Nat) : (schedOf s n).clu = n := find_key Sched.clu n s.sched _ rfl

theorem defOf_of_sched {s t : State} (h : t.sched = s.sched) (clu iid : Nat) : defOf t clu iid = defOf s clu iid := by
  unfold defOf schedOf
  rw [h]

/-- A changed deficit stays within its limits (07 R225). -/
theorem defOf_addDef (s : State) (clu iid : Nat) (d : Int) :
    defOf (s.addDef clu iid d) clu iid = max (-(2 : Int) ^ 39) (min (defLimit s clu iid) (defOf s clu iid + d)) := by
  unfold State.addDef
  dsimp only
  generalize max (-(2 : Int) ^ 39) (min (defLimit s clu iid) (defOf s clu iid + d)) = v
  have h := schedOf_putSched s { schedOf s clu with defs := assocPut (schedOf s clu).defs iid v }
  rw [show ({ schedOf s clu with defs := assocPut (schedOf s clu).defs iid v } : Sched).clu = clu from schedOf_clu s clu] at h
  rw [defOf, h, assocGet_assocPut, Option.getD_some]

/-! An accepted descriptor. -/

/-- The slot of an accepted descriptor (02 R68, 08 R250). -/
def acceptedSlot (s : State) (x : Slot) (c : QCtx) : Slot :=
  { x with
      phase := .accepted, status := 0, cls := effClass x.desc (classCap s x.iid),
      attrs := queueAttrs s c (effClass x.desc (classCap s x.iid)), walkEnd := walkLen x.desc,
      fold := (dChkSel x.desc).init, piRef := BitVec.ofNat 64 (dRefTag x.desc),
      piGuard := if dPiFmt x.desc then CheckCode.crc64.init else 0,
      cutB := 0, cutNum := 0, loaves := [], lines := [], grant := [], poolWait := [], entries := [], stale := [],
      lens := none, lensReady := [], nextFab := 0, nextBackoff := none, detail := 0, w5 := 0, bytes := 0, commits := 0, replays := 0,
      retireBy := none, fabOver := none, relOver := none, piBlk := 0, piOfs := 0, piTuple := [], squashed := false, stateBad := false,
      copyBad := false, resumed := false }

/-- The context of a queue whose next ring slot is accepted: F passes it, and its cost is the estimate of the next (07 R224). -/
def QCtx.passed (c : QCtx) (cost : Nat) (reread : Byte) : QCtx :=
  { c with f := c.f + 1, estCost := BitVec.ofNat 32 (min cost (2 ^ 32 - 1)), reread := reread }

/-- Its cost is charged, in place of the estimate. -/
def State.charged (s : State) (x : Slot) (c : QCtx) : State :=
  ((s.updSlot x.clu x.idx (fun _ => acceptedSlot s x c)).debit x.iid (costOf x.desc)).addDef x.rotHome x.iid
    ((x.estCost : Int) - (costOf x.desc : Int))

/-- F passes the ring slot. -/
def State.slotPassed (s : State) (x : Slot) : State :=
  let t := s.updCtx x.qid (fun c => c.passed (costOf x.desc)
    (BitVec.ofNat 8 (((s.rereads.find? (fun r => r.qid == x.qid && decide (r.idx = c.f + 1))).map (·.count)).getD 0)))
  { t with rereads := t.rereads.filter (fun r => !(r.qid == x.qid && decide (r.idx = x.slotIdx))) }

theorem State.accept_ring {s : State} {x : Slot} {c : QCtx} (hc : ctxOf s x.qid = some c) (hr : x.chain = none) :
    s.accept x = ((((s.charged x c).slotPassed x).putCkpt (ckptOf (acceptedSlot s x c))).bump .cluStarts x.clu 0 32 1).fedCkpt
      (acceptedSlot s x c) := by
  have hn : x.chain.isNone = true := by rw [hr]; rfl
  unfold State.accept
  rw [hc]
  simp only [hn, if_true]
  rfl

/-- What the charge changes: the slot, its instance's buckets, and the deficit of its rotation. -/
theorem State.charged_frame (s : State) (x : Slot) (c : QCtx) :
    ∃ b d, s.charged x c = { (s.updSlot x.clu x.idx (fun _ => acceptedSlot s x c)) with buckets := b, sched := d } := ⟨_, _, rfl⟩

theorem State.slotPassed_frame (s : State) (x : Slot) : ∃ w r, s.slotPassed x = { s with ways := w, rereads := r } := by
  obtain ⟨w, e⟩ := State.updCtx_frame s x.qid (fun c => c.passed (costOf x.desc)
    (BitVec.ofNat 8 (((s.rereads.find? (fun r => r.qid == x.qid && decide (r.idx = c.f + 1))).map (·.count)).getD 0)))
  exact ⟨w, _, by rw [State.slotPassed, e]⟩

theorem ctxOf_slotPassed {s : State} {x : Slot} {c : QCtx} (hc : ctxOf s x.qid = some c) :
    ∃ r, ctxOf (s.slotPassed x) x.qid = some (c.passed (costOf x.desc) r) := by
  have h := ctxOf_updCtx s x.qid (fun c => c.passed (costOf x.desc)
    (BitVec.ofNat 8 (((s.rereads.find? (fun r => r.qid == x.qid && decide (r.idx = c.f + 1))).map (·.count)).getD 0)))
  rw [hc] at h
  exact ⟨_, h⟩

/-- A checkpoint's fields, without its stored words. -/
def Ckpt.bare (k : Ckpt) : Ckpt := { k with copy0 := [], copy1 := [] }

/-- A stored checkpoint stands first in the table; the slot's words or copies may prove in error when they are read (08 R249). -/
theorem State.putCkpt_spec {s : State} {k : Ckpt} {x : Slot} (hx : slotAt s k.clu k.idx = some x) :
    (∃ b b', slotAt (s.putCkpt k) k.clu k.idx = some { x with copyBad := b, stateBad := b' }) ∧
      (∃ e, (s.putCkpt k).ckpt.head? = some e ∧ e.bare = k.bare) ∧
      ∃ y p n, s.putCkpt k = { s with slots := y, ckpt := p, freeCtr := n } := by
  refine ⟨⟨Config.upset (s.freeCtr + 2), x.stateBad || Config.upset (s.freeCtr + 3), ?_⟩, ⟨_, rfl, rfl⟩, _, _, _, rfl⟩
  have h := slotAt_updSlot s k.clu k.idx
    (fun y => { y with copyBad := Config.upset (s.freeCtr + 2), stateBad := y.stateBad || Config.upset (s.freeCtr + 3) }) (fun _ => ⟨rfl, rfl⟩)
  rw [hx] at h
  exact h

/-- A block that is not federated writes no federation checkpoint (14 R439). -/
theorem State.fedCkpt_alone {s : State} (h : federated s = false) (x : Slot) : s.fedCkpt x = s := by
  simp [State.fedCkpt, h]

theorem federated_of_fedStat {s t : State} (h : t.rd .fedStat 0 = s.rd .fedStat 0) : federated t = federated s := by
  unfold federated fedState State.fld
  rw [h]

/-- Where the block is not federated, acceptance ends with its checkpoint stored and the start counted. -/
def State.acceptedAt (s : State) (x : Slot) (c : QCtx) : State := ((s.charged x c).slotPassed x).putCkpt (ckptOf (acceptedSlot s x c))

theorem State.acceptedAt_spec {s : State} {x : Slot} {c : QCtx} (hc : ctxOf s x.qid = some c) (hx : slotAt s x.clu x.idx = some x) :
    (∃ b b', slotAt (s.acceptedAt x c) x.clu x.idx = some { acceptedSlot s x c with copyBad := b, stateBad := b' }) ∧
      (∃ n, ctxOf (s.acceptedAt x c) x.qid = some (c.passed (costOf x.desc) n)) ∧
      (∃ k, (s.acceptedAt x c).ckpt.head? = some k ∧ k.bare = (ckptOf (acceptedSlot s x c)).bare) ∧
      (s.acceptedAt x c).sched = (s.charged x c).sched ∧
      ∃ b d w r y p n, s.acceptedAt x c = { s with buckets := b, sched := d, ways := w, rereads := r, slots := y, ckpt := p, freeCtr := n } := by
  obtain ⟨b, d, e1⟩ := State.charged_frame s x c
  obtain ⟨w, r, e2⟩ := State.slotPassed_frame (s.charged x c) x
  obtain ⟨n, hctx⟩ := ctxOf_slotPassed (s := s.charged x c) (x := x) (c := c) (by rw [e1]; exact hc)
  have hs : slotAt ((s.charged x c).slotPassed x) x.clu x.idx = some (acceptedSlot s x c) := by
    rw [e2, e1]
    exact slotAt_updSlot_put hx rfl rfl
  obtain ⟨hy, hk, ys, p, m, e3⟩ := State.putCkpt_spec (k := ckptOf (acceptedSlot s x c)) hs
  refine ⟨hy, ⟨n, ?_⟩, hk, ?_, ?_⟩
  · rw [State.acceptedAt, e3]
    exact hctx
  · rw [State.acceptedAt, e3, e2]
  · rw [State.acceptedAt, e3, e2, e1]
    exact ⟨_, _, _, _, _, _, _, rfl⟩

/-- The deficit of a rotation, charged within its limits (07 R223, R225). -/
theorem defOf_charged (s : State) (x : Slot) (c : QCtx) :
    defOf (s.charged x c) x.rotHome x.iid = max (-(2 : Int) ^ 39)
      (min (defLimit s x.rotHome x.iid) (defOf s x.rotHome x.iid + ((x.estCost : Int) - (costOf x.desc : Int)))) :=
  defOf_addDef _ x.rotHome x.iid _

theorem toNat_cost (n : Nat) : (BitVec.ofNat 32 (min n (2 ^ 32 - 1))).toNat = min n (2 ^ 32 - 1) := by
  rw [BitVec.toNat_ofNat, Nat.mod_eq_of_lt (by omega)]

/-- Settles O18: acceptance leaves what `State.acceptedAt_spec` and `defOf_charged` say, and counts the cluster's start. -/
theorem acceptance : Obligations.Acceptance := by
  intro s x c hc hx hr hfed hw
  obtain ⟨⟨b, b', hy⟩, ⟨n, hctx⟩, ⟨k, hk, hbare⟩, hsched, _, _, _, _, _, _, _, e⟩ := State.acceptedAt_spec hc hx
  have hdef := defOf_charged s x c
  have hacc : s.accept x = (s.acceptedAt x c).bump .cluStarts x.clu 0 32 1 := by
    rw [State.accept_ring hc hr, State.fedCkpt_alone]
    · rfl
    · rw [← hfed]
      refine federated_of_fedStat ((State.rd_wr_other _ _ _ _ _ _ (Reg.addr_clustered_ne rfl rfl (by decide) _)).trans ?_)
      rw [← State.acceptedAt, e]
      rfl
  have hregs : (s.acceptedAt x c).regs = s.regs := by rw [e]
  rw [hacc]
  refine ⟨_, _, hy, rfl, rfl, rfl, rfl, rfl, rfl, rfl, rfl, rfl, rfl, hctx, rfl, rfl, rfl, toNat_cost _, ⟨k, hk, hbare⟩, ?_, ?_, ?_, ?_⟩
  · rw [State.rd_bump_word (by rw [hregs]; exact hw), State.rd, hregs]
    rfl
  · exact (defOf_of_sched hsched x.rotHome x.iid).trans hdef
  · show (s.acceptedAt x c).acc = s.acc
    rw [e]
  · show (s.acceptedAt x c).records = s.records
    rw [e]

end Sys2Proof.Machine
end

section
/-! PROOFS. Records that go to the store, and tails of chains (02 R69 to R76). -/

namespace Sys2Proof.Machine

/-! Words of a record (03 R117). -/

/-- A field of a packed word, as a number. -/
theorem bits_pack {lo len v : Nat} {fs : List (Nat × Nat × Nat)} (h : fieldsRise 0 fs = true) (hv : fieldGiven fs lo len = some v) :
    bits (pack fs) lo len = v % 2 ^ len := by
  have e := congrArg BitVec.toNat (fieldOf_pack h (show (fieldGiven fs lo len).isSome = true by rw [hv]; rfl))
  rw [hv, Option.getD_some, fieldOf, BitVec.toNat_ofNat, BitVec.toNat_ofNat] at e
  exact e

/-- What the first word of a record says. -/
theorem recordWords_head (op status detail cls replays : Nat) (closed : Bool) (tag gen : Nat) (w1 w2 : W64) (ft dt : BitVec 48) (loaves : Nat)
    (w5 w6 : W64) :
    let w := wd (recordWords op status detail cls replays closed tag gen w1 w2 ft dt loaves w5 w6) 0
    bits w 0 8 = op % 2 ^ 8 ∧ bits w 8 8 = status % 2 ^ 8 ∧ bits w 32 16 = tag % 2 ^ 16 ∧ bit w 26 = true ∧ bit w 28 = closed ∧
      bits w 56 8 = gen % 2 ^ 8 := by
  intro w
  refine ⟨bits_pack rfl rfl, bits_pack rfl rfl, bits_pack rfl rfl, ?_, ?_, bits_pack rfl rfl⟩
  · rw [bit_eq_bits, show bits w 26 1 = 1 % 2 ^ 1 from bits_pack rfl rfl]
    rfl
  · rw [bit_eq_bits, show bits w 28 1 = flag closed % 2 ^ 1 from bits_pack rfl rfl]
    cases closed
    · rfl
    · rfl

/-- A slot changed in its place. -/
theorem slotAt_changed {s : State} {clu idx : Nat} {x : Slot} {f : Slot → Slot} (hx : slotAt s clu idx = some x)
    (hf : ∀ y, (f y).clu = y.clu ∧ (f y).idx = y.idx) : slotAt (s.updSlot clu idx f) clu idx = some (f x) := by
  rw [slotAt_updSlot s clu idx f hf, hx, Option.map_some]

/-! The record store (17 R503). -/

/-- A record placed in the store, and what its queue's window shows of it. -/
theorem State.placeRecord_frame (s : State) (r : Record) : ∃ w, s.placeRecord r = { s with records := s.records ++ [r], ways := w } := by
  obtain ⟨w, e⟩ := State.updCtx_frame { s with records := s.records ++ [r] } r.qid
    (fun c => if r.chainPos = 0 then { c with winDone := c.winDone ||| BitVec.ofNat 16 (2 ^ (r.idx - c.q).toNat) } else c)
  exact ⟨w, e⟩

/-- A placed record leaves its queue's ring where it lies. -/
theorem ctxOf_placeRecord {s : State} {r : Record} {c : QCtx} (hc : ctxOf s r.qid = some c) :
    ∃ d, ctxOf (s.placeRecord r) r.qid = some d ∧ ∀ i, slotAddr d i = slotAddr c i := by
  have h : ctxOf (s.placeRecord r) r.qid = (ctxOf s r.qid).map _ := ctxOf_updCtx { s with records := s.records ++ [r] } r.qid _
  rw [hc, Option.map_some] at h
  refine ⟨_, h, fun i => ?_⟩
  split
  · rfl
  · rfl

theorem State.keepRecord_stored {s : State} {clu idx : Nat} {x : Slot} (hx : slotAt s clu idx = some x) (hk : x.kept = [])
    (hw : s.waitRecs = []) (hl : s.records.length < 1024) (r : Record) : s.keepRecord clu idx r = s.placeRecord r := by
  unfold State.keepRecord
  rw [if_pos]
  simp [storeRoom, hl, hx, hk, hw]

/-- With the store full, the channel keeps its record. -/
theorem State.keepRecord_full {s : State} (hl : 1024 ≤ s.records.length) (clu idx : Nat) (r : Record) :
    s.keepRecord clu idx r = s.updSlot clu idx (fun x => { x with kept := x.kept ++ [r] }) := by
  unfold State.keepRecord
  rw [if_neg]
  simp [storeRoom, Nat.not_lt.2 hl]

/-! A queue of one channel, whose descriptor ends. -/

/-- What every slot of the queue is once its only one has been replaced. -/
theorem chans_put {s : State} {x y z : Slot} (h : chans s x.qid = [x]) (hz : z ∈ chans (s.updSlot x.clu x.idx (fun _ => y)) x.qid) : z = y := by
  obtain ⟨hm, hq⟩ := List.mem_filter.1 hz
  obtain ⟨w, hw, rfl⟩ := List.mem_map.1 hm
  dsimp only at hq ⊢
  by_cases hp : (w.clu == x.clu && w.idx == x.idx) = true
  · rw [if_pos hp]
  · rw [if_neg hp] at hq ⊢
    have hmem : w ∈ chans s x.qid := List.mem_filter.2 ⟨hw, hq⟩
    rw [h, List.mem_singleton] at hmem
    simp [hmem] at hp

/-- Nothing is accepted of a queue none of whose channels is proofed. -/
theorem State.acceptMore_idle {s : State} {qid : Nat} (h : ∀ z ∈ chans s qid, z.phase ≠ .proofed) : s.acceptMore qid = s := by
  have h1 : (chans s qid).filter (fun x => x.chain.isSome && decide (x.phase = .proofed)) = [] :=
    List.filter_eq_nil_iff.2 fun z hz => by simp [h z hz]
  have h2 : ∀ c : QCtx, (chans s qid).find? (fun x => x.chain.isNone && decide (x.phase = .proofed) && decide (x.slotIdx = c.f)) = none :=
    fun c => List.find?_eq_none.2 fun z hz => by simp [h z hz]
  have h3 : s.acceptChains qid = s := by
    rw [State.acceptChains, h1]
    rfl
  rw [State.acceptMore, h3, State.acceptReady]
  cases ctxOf s qid with
  | none => rfl
  | some c => simp only [h2]

/-- A freed slot where nothing waits for a context. -/
theorem State.freeSlot_quiet {s : State} (hw : s.ctxWait = []) (clu idx : Nat) :
    ∃ d, s.freeSlot clu idx = { s with slots := otherSlots s.slots clu idx, sched := d } := by
  obtain ⟨d, e⟩ := State.noteFull_frame { s with slots := otherSlots s.slots clu idx } clu
  refine ⟨d, ?_⟩
  unfold State.freeSlot
  rw [← otherSlots, e]
  exact State.pumpCtx_idle hw

/-- The one channel of a queue is done: a channel of a cluster is free, a Mirror stays (01 R28, 08 R262). -/
theorem State.releaseDone_lone {s : State} {clu idx : Nat} {y : Slot} (hy : slotAt s clu idx = some y) (hp : y.phase = .finished)
    (hc : y.chain = none) (hk : y.kept = []) (hall : ∀ z ∈ chans s y.qid, z = y) (hw : s.ctxWait = []) :
    ∃ d, s.releaseDone clu idx = if idx < 32 then { s with slots := otherSlots s.slots clu idx, sched := d } else s := by
  obtain ⟨d, e⟩ := State.freeSlot_quiet hw clu idx
  obtain ⟨hyc, hyi⟩ := slotAt_place hy
  refine ⟨d, ?_⟩
  unfold State.releaseDone
  rw [hy]
  dsimp only
  rw [if_pos (by simp [hp, hc, hk])]
  split
  · rw [e, State.acceptMore_idle]
    intro z hz
    obtain ⟨hm, hq⟩ := List.mem_filter.1 hz
    obtain ⟨hs, hn⟩ := List.mem_filter.1 hm
    obtain rfl := hall z (List.mem_filter.2 ⟨hs, hq⟩)
    simp [hyc, hyi] at hn
  · refine State.acceptMore_idle fun z hz => ?_
    rw [hall z hz, hp]
    decide

/-! Other places. -/

theorem slotAt_updSlot_ne {s : State} {clu idx c i : Nat} {f : Slot → Slot} (hf : ∀ x, x.clu = clu → x.idx = idx → (f x).clu = clu ∧ (f x).idx = idx)
    (h : ¬ (c = clu ∧ i = idx)) : slotAt (s.updSlot clu idx f) c i = slotAt s c i := by
  refine find_upd_ne _ (fun x : Slot => x.clu == c && x.idx == i) f (fun x hx => ?_) s.slots
  obtain ⟨h1, h2⟩ : x.clu = clu ∧ x.idx = idx := by simpa using hx
  obtain ⟨k1, k2⟩ := hf x h1 h2
  simp only [h1, h2, k1, k2, Bool.and_eq_false_iff, beq_eq_false_iff_ne]
  have hn : clu ≠ c ∨ idx ≠ i := by omega
  exact ⟨hn, hn⟩

theorem slotAt_otherSlots_ne {s t : State} {clu idx c i : Nat} (ht : t.slots = otherSlots s.slots clu idx) (h : ¬ (c = clu ∧ i = idx)) :
    slotAt t c i = slotAt s c i := by
  unfold slotAt
  rw [ht, otherSlots, List.find?_filter]
  congr 1
  funext y
  by_cases hy : y.clu = c ∧ y.idx = i
  · simp [hy.1, hy.2]
    omega
  · have hf : (y.clu == c && y.idx == i) = false := by simpa using hy
    simp [hf]

/-! The end of a ring descriptor that its queue runs alone. -/

/-- The slot of a descriptor that is done, stamped where its end is its completion (01 R30). -/
def finishedSlot (s : State) (x : Slot) : Slot :=
  { (if (dKind x.desc).isData && (decide (x.doneStep ≠ 0) || decide (x.doneTs ≠ 0)) then x else stampedDone s x) with
    phase := .finished, lines := [], grant := [], poolWait := [] }

theorem finishedSlot_spec (s : State) (x : Slot) : let y := finishedSlot s x
    y.phase = .finished ∧ y.chain = x.chain ∧ y.kept = x.kept ∧ y.clu = x.clu ∧ y.idx = x.idx ∧ y.qid = x.qid ∧ y.slotIdx = x.slotIdx ∧
      y.desc = x.desc ∧ y.status = x.status := by
  unfold finishedSlot
  split
  · exact ⟨rfl, rfl, rfl, rfl, rfl, rfl, rfl, rfl, rfl⟩
  · exact ⟨rfl, rfl, rfl, rfl, rfl, rfl, rfl, rfl, rfl⟩

/-- The channel shows its descriptor done, and its WAIT's late sight of a flag is over. -/
def State.slotDone (s : State) (x : Slot) : State :=
  { (s.updSlot x.clu x.idx (fun _ => finishedSlot s x)) with lateFlags := s.lateFlags.filter (fun p => decide (p ≠ (x.clu, x.idx))) }

/-- Its record. -/
def doneRecord (s : State) (x : Slot) : Record :=
  recordOf (s.slotDone x) (finishedSlot s x) ((finishedSlot s x).recordWords false) 0 (recordAddr (s.slotDone x) (finishedSlot s x))

theorem State.finish_ring {s : State} {clu idx : Nat} {x : Slot} (hx : slotAt s clu idx = some x) (hc : x.chain = none) :
    s.finish clu idx = ((s.slotDone x).keepRecord clu idx (doneRecord s x)).releaseDone clu idx := by
  obtain ⟨rfl, rfl⟩ := slotAt_place hx
  unfold State.finish
  rw [hx]
  dsimp only
  rw [hc]
  rfl

theorem recordAddr_slotDone (s : State) (x : Slot) : recordAddr (s.slotDone x) (finishedSlot s x) = recordAddr s x := by
  obtain ⟨-, hc, -, -, -, hq, hi, -⟩ := finishedSlot_spec s x
  unfold recordAddr
  rw [hc, hq, hi]
  rfl

/-- The record names its descriptor and its channel (03 R117). -/
theorem doneRecord_spec {s : State} {x : Slot} (hs : x.status < 2 ^ 8) : let r := doneRecord s x
    r.qid = x.qid ∧ r.idx = x.slotIdx ∧ r.chainPos = 0 ∧ r.addr = recordAddr s x ∧ r.clu = x.clu ∧ r.slot = x.idx ∧
      bits (wd r.words 0) 0 8 = dOpcode x.desc ∧ bits (wd r.words 0) 8 8 = x.status ∧ bits (wd r.words 0) 32 16 = dTag x.desc ∧
      bit (wd r.words 0) 26 = true ∧ bits (wd r.words 0) 56 8 = dGen x.desc := by
  intro r
  obtain ⟨-, -, -, hc, hi, hq, hn, hd, ht⟩ := finishedSlot_spec s x
  obtain ⟨h0, h8, h32, h26, -, h56⟩ := recordWords_head (dOpcode (finishedSlot s x).desc) (finishedSlot s x).status _ _ _ false
    (dTag (finishedSlot s x).desc) (dGen (finishedSlot s x).desc) _ _ _ _ _ _ _
  refine ⟨hq, hn, rfl, recordAddr_slotDone s x, hc, hi, h0.trans ?_, h8.trans ?_, h32.trans ?_, h26, h56.trans ?_⟩
  · rw [hd]
    exact Nat.mod_eq_of_lt (bits_lt _ _ _)
  · rw [ht, Nat.mod_eq_of_lt hs]
  · rw [hd]
    exact Nat.mod_eq_of_lt (bits_lt _ _ _)
  · rw [hd]
    exact Nat.mod_eq_of_lt (bits_lt _ _ _)

/-- A descriptor that its queue runs alone is done (`Finishes`), and nothing else follows. -/
theorem State.finish_alone {s : State} {x : Slot} (h : Alone s x) (hs : x.status < 2 ^ 8) :
    ∃ t, s.finish x.clu x.idx = t ∧ Finishes s t x x.status ∧ t.lateFlags = s.lateFlags.filter (fun p => decide (p ≠ (x.clu, x.idx))) ∧
      t = { s with slots := t.slots, records := t.records, ways := t.ways, sched := t.sched, lateFlags := t.lateFlags } := by
  obtain ⟨hch, hx, hc, hk, hw, hcw, hl, -⟩ := h
  obtain ⟨hph, hyc, hyk, hyclu, hyidx, hyq, -⟩ := finishedSlot_spec s x
  have hplace : ∀ z : Slot, z.clu = x.clu → z.idx = x.idx → (finishedSlot s x).clu = x.clu ∧ (finishedSlot s x).idx = x.idx :=
    fun _ _ _ => ⟨hyclu, hyidx⟩
  have hy : slotAt (s.slotDone x) x.clu x.idx = some (finishedSlot s x) := slotAt_updSlot_put hx hyclu hyidx
  have hother : ∀ c i, ¬ (c = x.clu ∧ i = x.idx) → slotAt (s.slotDone x) c i = slotAt s c i := fun c i => slotAt_updSlot_ne hplace
  obtain ⟨w, e⟩ := State.placeRecord_frame (s.slotDone x) (doneRecord s x)
  have hfin := State.finish_ring hx hc
  rw [State.keepRecord_stored hy (hyk.trans hk) hw hl, e] at hfin
  have hall : ∀ z ∈ chans { s.slotDone x with records := s.records ++ [doneRecord s x], ways := w } (finishedSlot s x).qid,
      z = finishedSlot s x := by
    intro z hz
    rw [hyq] at hz
    exact chans_put hch hz
  obtain ⟨d, hd⟩ := State.releaseDone_lone (s := { s.slotDone x with records := s.records ++ [doneRecord s x], ways := w }) hy hph
    (hyc.trans hc) (hyk.trans hk) hall hcw
  have hr := doneRecord_spec (s := s) hs
  rw [hfin.trans hd]
  by_cases h32 : x.idx < 32
  · rw [if_pos h32]
    refine ⟨_, rfl, ⟨fun _ => slotAt_otherSlots rfl, fun h => absurd h32 (by omega), fun c i hn => ?_, doneRecord s x, rfl, hr⟩, rfl, rfl⟩
    exact (slotAt_otherSlots_ne rfl hn).trans (hother c i hn)
  · rw [if_neg h32]
    exact ⟨_, rfl, ⟨fun h => absurd h h32, fun _ => ⟨_, hy, hph⟩, hother, doneRecord s x, rfl, hr⟩, rfl, rfl⟩

/-! Tails (02 R69, R73 to R76). -/

/-- The record that a segment's last channel holds until its tail is decided (02 R75). -/
def heldRecord (s : State) (x : Slot) (ch : Chain) (ws : List W64) (closed : Bool) : Record :=
  recordOf s x (withTailClosed ws closed) ch.pos (ch.segAddr + 64 * ch.segPos)

/-- What a kept record changes: the store and the queue's window, or what its channel keeps. -/
theorem State.keepRecord_slot {s : State} {clu idx : Nat} {x : Slot} (hx : slotAt s clu idx = some x) (r : Record) :
    ∃ k sl rs w, s.keepRecord clu idx r = { s with slots := sl, records := rs, ways := w } ∧
      slotAt (s.keepRecord clu idx r) clu idx = some { x with kept := k } := by
  unfold State.keepRecord
  split
  · obtain ⟨w, e⟩ := State.placeRecord_frame s r
    rw [e]
    exact ⟨x.kept, _, _, _, rfl, hx⟩
  · refine ⟨x.kept ++ [r], _, _, _, rfl, ?_⟩
    exact slotAt_changed hx (fun _ => ⟨rfl, rfl⟩)

theorem State.placeHeld_none {ch : Chain} (s : State) (x : Slot) (closed : Bool) (h : ch.heldRec = none) : s.placeHeld x ch closed = s := by
  rw [State.placeHeld, h]

theorem State.placeHeld_some {ch : Chain} {ws : List W64} (s : State) (x : Slot) (closed : Bool) (h : ch.heldRec = some ws) :
    s.placeHeld x ch closed = s.keepRecord x.clu x.idx (heldRecord s x ch ws closed) := by
  rw [State.placeHeld, h]
  rfl

theorem State.placeHeld_slot {s : State} {x : Slot} (hx : slotAt s x.clu x.idx = some x) (ch : Chain) (closed : Bool) :
    ∃ k sl rs w, s.placeHeld x ch closed = { s with slots := sl, records := rs, ways := w } ∧
      slotAt (s.placeHeld x ch closed) x.clu x.idx = some { x with kept := k } := by
  cases h : ch.heldRec with
  | none =>
    rw [State.placeHeld_none s x closed h]
    exact ⟨x.kept, _, _, _, rfl, hx⟩
  | some ws =>
    rw [State.placeHeld_some s x closed h]
    exact State.keepRecord_slot hx _

/-- The channel goes on with what it keeps. -/
theorem slotAt_goOn {t : State} {x z : Slot} (hz : slotAt t x.clu x.idx = some z) :
    slotAt (t.goOn x) x.clu x.idx = some { x with kept := z.kept } := by
  rw [State.goOn, slotAt_updSlot_at (f := fun y : Slot => { x with kept := y.kept }) (fun _ _ _ => ⟨rfl, rfl⟩), hz, Option.map_some]

/-- The channel of a chain that follows its append (02 R73). -/
def appendedSlot (x : Slot) (ch : Chain) (addr count : Nat) : Slot :=
  { x with chain := some { ch with segAddr := addr, segCount := count, segPos := 0, pos := ch.pos + 1, heldRec := none }, phase := .slotRead }

/-- A record that an append lets go: the store has it, or the full store leaves it with its channel. -/
theorem State.placeHeld_keeps {s : State} {x : Slot} {ch : Chain} {ws : List W64} {closed : Bool} (hx : slotAt s x.clu x.idx = some x)
    (h : ch.heldRec = some ws) :
    (s.records.length < 1024 → x.kept = [] → s.waitRecs = [] → (s.placeHeld x ch closed).records = s.records ++ [heldRecord s x ch ws closed] ∧
      slotAt (s.placeHeld x ch closed) x.clu x.idx = some x) ∧
    (1024 ≤ s.records.length → (s.placeHeld x ch closed).records = s.records ∧
      slotAt (s.placeHeld x ch closed) x.clu x.idx = some { x with kept := x.kept ++ [heldRecord s x ch ws closed] }) := by
  rw [State.placeHeld_some s x closed h]
  refine ⟨fun hl hk hw => ?_, fun hl => ?_⟩
  · obtain ⟨w, e⟩ := State.placeRecord_frame s (heldRecord s x ch ws closed)
    rw [State.keepRecord_stored hx hk hw hl, e]
    exact ⟨rfl, hx⟩
  · rw [State.keepRecord_full hl]
    refine ⟨rfl, ?_⟩
    exact slotAt_changed hx (fun _ => ⟨rfl, rfl⟩)

theorem State.takeAppend_eq {s : State} {x : Slot} {ch : Chain} (hc : x.chain = some ch) (addr count : Nat) :
    s.takeAppend x addr count = ((s.placeHeld x ch false).goOn (appendedSlot x ch addr count)).service
      (chainRead s (appendedSlot x ch addr count) (.slot x.clu x.idx) addr) := by
  rw [State.takeAppend, hc]
  rfl


/-- A LINK whose chain has ended, with no record kept. -/
def endedLink (s : State) (x : Slot) (ch : Chain) : Slot := { linkSlot s x ch with kept := [] }

/-- Its own record (03 R108). -/
def linkRecord (s : State) (x : Slot) (ch : Chain) (closed : Bool) : Record :=
  let t := s.updSlot x.clu x.idx (fun _ => endedLink s x ch)
  recordOf t (endedLink s x ch) ((endedLink s x ch).recordWords closed) 0 (recordAddr t (endedLink s x ch))

theorem linkRecord_spec {s : State} {x : Slot} {c : QCtx} (ch : Chain) (closed : Bool) (hc : ctxOf s x.qid = some c) :
    let l := linkRecord s x ch closed
    l.qid = x.qid ∧ l.idx = x.slotIdx ∧ l.chainPos = 0 ∧ l.addr = slotAddr c x.slotIdx ∧ bit (wd l.words 0) 28 = closed ∧
      wd l.words 5 = BitVec.ofNat 64 ch.written := by
  obtain ⟨-, -, -, -, h28, -⟩ := recordWords_head (dOpcode ch.linkDesc) (endedLink s x ch).status _ _ _ closed
    (dTag ch.linkDesc) (dGen ch.linkDesc) _ _ _ _ _ _ _
  have ha : recordAddr (s.updSlot x.clu x.idx (fun _ => endedLink s x ch)) (endedLink s x ch) = slotAddr c x.slotIdx := by
    show (match ctxOf s x.qid with | some c => slotAddr c x.slotIdx | none => 0) = _
    rw [hc]
  exact ⟨rfl, rfl, rfl, ha, h28, rfl⟩

/-- The chain of a queue's only channel ends: the LINK's record goes to the store, and the channel is free. -/
theorem State.endChain_lone {s : State} {x : Slot} (hx : slotAt s x.clu x.idx = some x) (hch : chans s x.qid = [x]) (hk : x.kept = [])
    (hw : s.waitRecs = []) (hcw : s.ctxWait = []) (hl : s.records.length < 1024) (h32 : x.idx < 32) (ch : Chain) (closed : Bool) :
    (s.endChain x ch closed).records = s.records ++ [linkRecord s x ch closed] ∧ slotAt (s.endChain x ch closed) x.clu x.idx = none := by
  have hput : slotAt (s.updSlot x.clu x.idx (fun _ => endedLink s x ch)) x.clu x.idx = some (endedLink s x ch) := slotAt_updSlot_put hx rfl rfl
  have he : s.endChain x ch closed =
      ((s.updSlot x.clu x.idx (fun _ => endedLink s x ch)).keepRecord x.clu x.idx (linkRecord s x ch closed)).releaseDone x.clu x.idx := by
    rw [State.endChain, hx, Option.map_some, Option.getD_some, hk]
    rfl
  obtain ⟨w, e⟩ := State.placeRecord_frame (s.updSlot x.clu x.idx (fun _ => endedLink s x ch)) (linkRecord s x ch closed)
  obtain ⟨d, hd⟩ := State.releaseDone_lone
    (s := { s.updSlot x.clu x.idx (fun _ => endedLink s x ch) with records := s.records ++ [linkRecord s x ch closed], ways := w })
    hput rfl rfl rfl (fun z hz => chans_put hch hz) hcw
  rw [he, State.keepRecord_stored hput rfl hw hl, e]
  refine ⟨(congrArg State.records hd).trans ?_, (congrArg (fun t => slotAt t x.clu x.idx) hd).trans ?_⟩
  · rw [if_pos h32]
  · rw [if_pos h32]
    exact slotAt_otherSlots rfl

/-- A queue's only channel closes its chain's tail: the held record goes to the store, then the LINK's. -/
theorem State.closeTail_lone {s : State} {x : Slot} {ch : Chain} {ws : List W64} (hc : x.chain = some ch) (hh : ch.heldRec = some ws)
    (hx : slotAt s x.clu x.idx = some x) (hch : chans s x.qid = [x]) (hk : x.kept = []) (hw : s.waitRecs = []) (hcw : s.ctxWait = [])
    (hl : s.records.length < 1023) (h32 : x.idx < 32) :
    (s.closeTail x).records = s.records ++ [heldRecord s x ch ws true,
        linkRecord ((s.placeRecord (heldRecord s x ch ws true)).orphanReads x.clu x.idx) x ch true] ∧
      slotAt (s.closeTail x) x.clu x.idx = none := by
  obtain ⟨w, e⟩ := State.placeRecord_frame s (heldRecord s x ch ws true)
  have hp : s.closeTail x = ((s.placeRecord (heldRecord s x ch ws true)).orphanReads x.clu x.idx).endChain x ch true := by
    rw [State.closeTail, hc]
    dsimp only
    rw [State.placeHeld_some s x true hh, State.keepRecord_stored hx hk hw (by omega)]
  have hlen : (s.records ++ [heldRecord s x ch ws true]).length < 1024 := by
    rw [List.length_append, List.length_singleton]
    omega
  rw [hp, e]
  obtain ⟨h1, h2⟩ := State.endChain_lone
    (s := ({ s with records := s.records ++ [heldRecord s x ch ws true], ways := w } : State).orphanReads x.clu x.idx)
    hx hch hk hw hcw hlen h32 ch true
  exact ⟨h1.trans (List.append_assoc s.records [_] [_]), h2⟩

theorem State.parkOn_slot {s : State} {x : Slot} {since next : Nat} (hx : slotAt s x.clu x.idx = some x) (hp : x.phase = .parked since next) :
    slotAt (s.parkOn x) x.clu x.idx = some { x with
      phase := if since + parkCeilNs s ≤ s.nomNs then .expired else .parked since (s.nomNs + effInterval s x.iid) } := by
  unfold State.parkOn
  rw [hp]
  dsimp only
  exact slotAt_changed hx (fun _ => ⟨rfl, rfl⟩)


/-- The slot of a channel that parks, or is parked again. -/
def parkedSlot (s : State) (x : Slot) : Slot :=
  { x with phase := .parked (match x.phase with | .parked t _ => t | _ => s.nomNs) (s.nomNs + effInterval s x.iid) }

/-- The channel of an open tail parks, and looks at the next ring slot where the doorbell covers it (02 R73). -/
def State.parks (s : State) (x : Slot) : State :=
  let t := s.updSlot x.clu x.idx (fun _ => parkedSlot s x)
  match ctxOf s x.qid with
  | none => t
  | some c =>
    if 1 ≤ (c.piSeen - (x.slotIdx + 1)).toNat ∧ (c.piSeen - (x.slotIdx + 1)).toNat ≤ c.depth then
      t.service (chainRead t (parkedSlot s x) (.parkSlot x.clu x.idx) (slotAddr c (x.slotIdx + 1)))
    else t.parkOn (parkedSlot s x)

section
variable {s : State} {aid : Nat} {a : Access} {ans : Answer} {clu idx : Nat} {x : Slot} {ch : Chain} {w : W64} (ha : s.access aid = some a)
  (hp : a.purpose = .tail clu idx) (hf : s.fatal = false) (hans : CleanAnswer a ans) (hx : slotAt s clu idx = some x)
  (hc : x.chain = some ch) (hk : ch.seek = 0) (hw : w = wd (wordsOfBytes (answerBytes a ans)) 0) {u : State}
  (hu : u = (s.dropAccess a.aid).drainHeld)
include ha hp hf hans hx hc hk hw hu

/-- A sound tail line is followed, closes the tail, or parks the channel (02 R69, R75). -/
theorem tailLineReadResponse_says : exec (.tailLineReadResponse aid ans) s = .next (
    if ch.closing then u.closeTail x
    else if bit w 0 = false then u.takeAppend x (bits w 6 58 * 64) (bits w 2 4 + 1)
    else if bit w 1 = false then u.closeTail x
    else u.parks x) := by
  have h0 : codeSeen ans.code = 0 := hans.1
  obtain ⟨_, _, _, _, _, _, e⟩ := State.dropDrain_eq s a.aid
  have hx' : slotAt u clu idx = some x := by rw [hu, e]; exact hx
  obtain ⟨rfl, rfl⟩ := slotAt_place hx
  have hclose : (x.chain.map (·.closing)).getD false = ch.closing := by rw [hc, Option.map_some, Option.getD_some]
  have hseek : (x.chain.map (·.seek)).getD 0 = 0 := by rw [hc, Option.map_some, Option.getD_some, hk]
  have hctx : ∀ f, ctxOf (u.updSlot x.clu x.idx f) x.qid = ctxOf u x.qid := fun _ => rfl
  show execTailLineReadResponse aid ans s = _
  unfold execTailLineReadResponse
  simp only [ha, hf, hp, Bool.false_eq_true, if_false, State.readEnds_drop (.inl h0), ← hu, hx', h0, ne_eq, not_true_eq_false,
    State.land_clean _ hans, hans.2.2.2, hclose, hseek, false_and, ← hw]
  cases ch.closing with
  | true => rfl
  | false =>
    cases bit w 0 with
    | false => rfl
    | true =>
      cases bit w 1 with
      | false => rfl
      | true =>
        unfold State.parks
        simp only [Bool.false_eq_true, if_false, Bool.not_true, Bool.true_eq_false, hctx]
        cases ctxOf u x.qid with
        | none => rfl
        | some c =>
          dsimp only
          split
          · rfl
          · rfl

end

/-- The parked channel's look at the next ring slot. -/
theorem State.parks_looks {s : State} {x : Slot} {c : QCtx} (hf : s.fatal = false) (hx : slotAt s x.clu x.idx = some x)
    (hc : ctxOf s x.qid = some c) (h1 : 1 ≤ (c.piSeen - (x.slotIdx + 1)).toNat)
    (h2 : (c.piSeen - (x.slotIdx + 1)).toNat ≤ c.depth) :
    slotAt (s.parks x) x.clu x.idx = some (parkedSlot s x) ∧
      Offered (s.parks x) (.parkSlot x.clu x.idx) false (slotAddr c (x.slotIdx + 1)) 64 [] ∧
      PortsOnly { s with slots := (s.parks x).slots } (s.parks x) := by
  obtain ⟨t, ht⟩ : ∃ t, t = s.updSlot x.clu x.idx (fun _ => parkedSlot s x) := ⟨_, rfl⟩
  have hput : slotAt t x.clu x.idx = some (parkedSlot s x) := ht ▸ slotAt_updSlot_put hx rfl rfl
  have hft : t.fatal = false := ht ▸ hf
  have e : s.parks x = t.service (chainRead t (parkedSlot s x) (.parkSlot x.clu x.idx) (slotAddr c (x.slotIdx + 1))) := by
    unfold State.parks
    simp only [← ht, hc]
    rw [if_pos ⟨h1, h2⟩]
  have hports := PortsOnly.service t (chainRead t (parkedSlot s x) (.parkSlot x.clu x.idx) (slotAddr c (x.slotIdx + 1)))
  rw [e, PortsOnly.slots hports]
  refine ⟨(slotAt_of_slots (PortsOnly.slots hports) _ _).trans hput, chainRead_offered hft _ _ _ _, ?_⟩
  rw [show ({ s with slots := t.slots } : State) = t by rw [ht]; rfl]
  exact hports

theorem PortsOnly.kept {s t : State} {sl : List Slot} {rs : List Record} {w : List Way}
    (h : PortsOnly { s with slots := sl, records := rs, ways := w } t) :
    PortsOnly { s with slots := t.slots, records := t.records, ways := t.ways } t := by
  obtain ⟨_, _, _, _, _, _, rfl⟩ := h
  exact ⟨_, _, _, _, _, _, rfl⟩

/-- An append's first descriptor is asked for, on a channel that keeps what waits for the store (02 R73). -/
theorem State.takeAppend_spec {s : State} {x z : Slot} {ch : Chain} (hc : x.chain = some ch) (hf : s.fatal = false)
    (hz : slotAt (s.placeHeld x ch false) x.clu x.idx = some z) (hx : slotAt s x.clu x.idx = some x) (addr count : Nat) :
    slotAt (s.takeAppend x addr count) x.clu x.idx = some { appendedSlot x ch addr count with kept := z.kept } ∧
      Offered (s.takeAppend x addr count) (.slot x.clu x.idx) false addr 64 [] ∧
      (s.takeAppend x addr count).records = (s.placeHeld x ch false).records ∧
      ∃ t, s.takeAppend x addr count = t ∧ PortsOnly { s with slots := t.slots, records := t.records, ways := t.ways } t := by
  obtain ⟨_, sl, rs, w, e, -⟩ := State.placeHeld_slot hx ch false
  obtain ⟨t, ht⟩ : ∃ t, t = (s.placeHeld x ch false).goOn (appendedSlot x ch addr count) := ⟨_, rfl⟩
  have hslot : slotAt t x.clu x.idx = some { appendedSlot x ch addr count with kept := z.kept } :=
    ht ▸ slotAt_goOn (x := appendedSlot x ch addr count) hz
  have hrec : t.records = (s.placeHeld x ch false).records := ht ▸ rfl
  have hft : t.fatal = false := by rw [ht, e]; exact hf
  have hframe : t = { s with slots := t.slots, records := rs, ways := w } := by rw [ht, e]; rfl
  have hports := PortsOnly.service t (chainRead s (appendedSlot x ch addr count) (.slot x.clu x.idx) addr)
  rw [State.takeAppend_eq hc, ← ht]
  refine ⟨(slotAt_of_slots (PortsOnly.slots hports) _ _).trans hslot, chainRead_offered hft _ _ _ _, ?_, _, rfl, ?_⟩
  · obtain ⟨_, _, _, _, _, _, e'⟩ := hports
    rw [e']
    exact hrec
  · rw [hframe] at hports ⊢
    exact hports.kept

/-- Once per interval a parked channel's test reads its tail (02 R73). -/
theorem parkTest_reads {s : State} {clu idx since next : Nat} {x : Slot} {ch : Chain} (hclu : clu < 16) (hidx : idx < 34)
    (hx : slotAt s clu idx = some x) (hp : x.phase = .parked since next) (hc : x.chain = some ch) (hrun : running s = true)
    (hs : serves s = true) (hn : next ≤ s.nomNs)
    (ha : s.acc.any (fun a => decide (a.purpose = .tail clu idx) || decide (a.purpose = .parkSlot clu idx)) = false)
    (hh : s.held.any (fun h => decide (h.purpose = .tail clu idx) || decide (h.purpose = .parkSlot clu idx)) = false) :
    exec (.parkTest clu idx) s = .next
      ((s.updSlot clu idx (fun y => { y with phase := .parked since (s.nomNs + effInterval s x.iid) })).service
        (chainRead s x (.tail clu idx) (ch.segAddr + 64 * ch.segCount))) := by
  show execParkTest clu idx s = _
  unfold execParkTest
  rw [if_neg (by simp; omega), hx]
  dsimp only
  simp only [hp, hc, ha, hh, hrun, hs, hn, decide_true, Bool.not_false, Bool.and_self, if_true]

/-- Settles O19: `tailLineReadResponse_says`, `State.takeAppend_spec`, `State.closeTail_lone`, `parkTest_reads`, `State.parkOn_slot`, and the
park ceiling's log entry. -/
theorem tailLines : Obligations.TailLines := by
  refine ⟨?_, ?_, ?_, ?_, ?_, ?_⟩
  · intro s aid a ans clu idx x ch w c ha hp hf hans hx hc hk hctx hw
    obtain ⟨_, _, _, _, _, _, e⟩ := State.dropDrain_eq s a.aid
    have hsays := tailLineReadResponse_says ha hp hf hans hx hc hk hw rfl
    refine ⟨_, Released.dropDrain s a.aid, PortsOnly.dropDrain s a.aid, fun h => ?_, fun h h0 => ?_, fun h h0 h1 => ?_, fun h h0 h1 hph hd1 hd2 => ?_⟩
    · rw [hsays, if_pos h]
    · rw [hsays, h, if_neg (by decide), if_pos h0]
    · rw [hsays, h, if_neg (by decide), h0, if_neg (by decide), if_pos h1]
    · rw [h, if_neg (by decide), h0, if_neg (by decide), h1, if_neg (by decide)] at hsays
      obtain ⟨rfl, rfl⟩ := slotAt_place hx
      have hpk : parkedSlot (s.dropAccess a.aid).drainHeld x = { x with phase := .parked s.nomNs (s.nomNs + effInterval s x.iid) } := by
        rw [e, parkedSlot, hph]
        rfl
      generalize hu : (s.dropAccess a.aid).drainHeld = u at *
      have hfu : u.fatal = false := by rw [e]; exact hf
      have hxu : slotAt u x.clu x.idx = some x := by rw [e]; exact hx
      have hcu : ctxOf u x.qid = some c := by rw [e]; exact hctx
      have hl := State.parks_looks hfu hxu hcu hd1 hd2
      rw [hpk] at hl
      exact ⟨_, hsays, hl⟩
  · intro s x ch addr count hc hf hx
    obtain ⟨k, sl, rs, w, -, hz⟩ := State.placeHeld_slot hx ch false
    obtain ⟨h1, h2, h3, t, rfl, h4⟩ := State.takeAppend_spec hc hf hz hx addr count
    refine ⟨_, _, rfl, h1, rfl, rfl, h2, fun hn => ?_, fun ws hws => ⟨heldRecord s x ch ws false, rfl, rfl, rfl, ?_, ?_⟩, h4⟩
    · rw [h3, State.placeHeld_none s x false hn]
    · intro hl hk hw
      obtain ⟨hr, hs⟩ := (State.placeHeld_keeps (closed := false) hx hws).1 hl hk hw
      rw [hz] at hs
      exact ⟨h3.trans hr, (congrArg Slot.kept (Option.some.inj hs)).trans hk⟩
    · intro hl
      obtain ⟨hr, hs⟩ := (State.placeHeld_keeps (closed := false) hx hws).2 hl
      rw [hz] at hs
      exact ⟨h3.trans hr, congrArg Slot.kept (Option.some.inj hs)⟩
  · intro s x ch ws c hc hh hx hch hk hw hcw hctx hl h32
    obtain ⟨h1, h2⟩ := State.closeTail_lone hc hh hx hch hk hw hcw hl h32
    obtain ⟨d, hd, haddr⟩ := ctxOf_placeRecord (r := heldRecord s x ch ws true) hctx
    obtain ⟨k1, k2, k3, k4, k5, k6⟩ :=
      linkRecord_spec (s := (s.placeRecord (heldRecord s x ch ws true)).orphanReads x.clu x.idx) (x := x) ch true hd
    exact ⟨_, _, _, rfl, h1, h2, rfl, rfl, rfl, rfl, rfl, k1, k2, k3, k4.trans (haddr _), k5, k6⟩
  · intro s clu idx x ch since next hclu hidx hx hp hc hrun hs hn ha hh
    obtain ⟨t, ht⟩ : ∃ t, t = s.updSlot clu idx (fun y => { y with phase := .parked since (s.nomNs + effInterval s x.iid) }) := ⟨_, rfl⟩
    have hsl : slotAt t clu idx = some { x with phase := .parked since (s.nomNs + effInterval s x.iid) } := by
      rw [ht]
      exact slotAt_changed hx (fun _ => ⟨rfl, rfl⟩)
    have hft : t.fatal = false := ht ▸ fatal_of_running hrun
    have hframe : ({ s with slots := t.slots } : State) = t := by rw [ht]; rfl
    have e := parkTest_reads hclu hidx hx hp hc hrun hs hn ha hh
    have hports := PortsOnly.service t (chainRead s x (.tail clu idx) (ch.segAddr + 64 * ch.segCount))
    rw [← ht] at e
    refine ⟨_, e, (slotAt_of_slots hports.slots _ _).trans hsl, chainRead_offered hft _ _ _ _, ?_⟩
    rw [hports.slots, hframe]
    exact hports
  · intro s x since next hx hp
    exact State.parkOn_slot hx hp
  · intro s clu idx x hclu hidx hx hp hrun
    obtain ⟨r, q, e⟩ := State.logErr_frame s (mkErr 0 (2 + clu) 0x35 x.iid x.qid idx clu 0 x.slotIdx.toNat ((x.chain.map (·.pos)).getD 0))
    refine ⟨_, ?_, ?_, rfl⟩
    · show execParkCeil clu idx s = _
      unfold execParkCeil
      rw [if_neg (by simp; omega), hx]
      dsimp only
      rw [if_pos (by simp [hrun, hp])]
    · rw [e]

end Sys2Proof.Machine
end

section
/-! PROOFS. The control opcodes begin (03 R108 to R112). -/

namespace Sys2Proof.Machine

/-- A place of a slot is one of the block's. -/
theorem slotPlace {clu slot : Nat} (hclu : clu < 16) (hslot : slot < 34) : ¬ (16 ≤ clu || 34 ≤ slot) = true := by
  simp
  omega

/-- The chain of a LINK that begins with its first segment (02 R69, 03 R108). -/
def firstChain (x : Slot) : Chain :=
  { linkDesc := x.desc, linkFetch := x.fetchTs.setWidth 64, linkAttrs := x.attrs, linkUnsync := x.unsynced, linkStep := x.fetchStep,
    segAddr := (wd x.desc 1).toNat, segCount := bits (wd x.desc 2) 0 4 + 1, segPos := 0, pos := 1, written := 0, heldRec := none,
    closing := false, seek := 0 }

section
variable {s : State} {clu slot : Nat} {x : Slot} (hclu : clu < 16) (hslot : slot < 34) (hrun : running s = true)
  (hx : slotAt s clu slot = some x) (hp : x.phase = .accepted)

include hx hp hrun in
/-- The accepted descriptor of a slot, by its opcode. -/
theorem acceptedOn_of {k : OpKind} (hk : dKind x.desc = k) : acceptedOn s clu slot k = some x := by
  simp [acceptedOn, hx, hp, hk, hrun]

include hclu hslot hrun hx hp

/-- An accepted FENCE holds its channel (03 R127). -/
theorem fence_holds (hk : dKind x.desc = .fence) : exec (.fence clu slot) s = .next (s.updSlot clu slot (fun _ => { x with phase := .fencing })) := by
  show execFence clu slot s = _
  rw [execFence, if_neg (slotPlace hclu hslot), acceptedOn_of hrun hx hp hk]

/-- An accepted SIGNAL holds its channel (03 R110). -/
theorem signal_holds (hk : dKind x.desc = .signal) :
    exec (.signal clu slot) s = .next (s.updSlot clu slot (fun _ => { x with phase := .signalling })) := by
  show execSignal clu slot s = _
  rw [execSignal, if_neg (slotPlace hclu hslot), acceptedOn_of hrun hx hp hk]

/-- An accepted WAIT holds its channel until WAIT_US has passed (03 R111, R112). -/
theorem wait_holds (hk : dKind x.desc = .wait) : exec (.wait clu slot) s =
    .next (s.updSlot clu slot (fun _ => { x with phase := .waiting (s.nomNs + 1000 * bits (wd x.desc 2) 0 22) })) := by
  show execWait clu slot s = _
  rw [execWait, if_neg (slotPlace hclu hslot), acceptedOn_of hrun hx hp hk]

/-- An accepted NOP is done (03 R109). -/
theorem nop_finishes (hk : dKind x.desc = .nop) : exec (.nop clu slot) s = .next (s.finish clu slot) := by
  show execNop clu slot s = _
  rw [execNop, if_neg (slotPlace hclu hslot), acceptedOn_of hrun hx hp hk]

/-- An accepted LINK's channel reads the first descriptor of its chain's first segment (02 R69). -/
theorem link_reads (hs : serves s = true) (hr : x.resume = none) (hk : dKind x.desc = .link) : exec (.link clu slot) s =
    .next ((s.updSlot clu slot (fun _ => { x with chain := some (firstChain x), phase := .slotRead })).service
      (chainRead s { x with chain := some (firstChain x), phase := .slotRead } (.slot clu slot) (wd x.desc 1).toNat)) := by
  have hseek : (x.resume.map (fun ws => bits (wd ws 1) 0 16)).getD 0 = 0 := by rw [hr, Option.map_none, Option.getD_none]
  show execLink clu slot s = _
  rw [execLink, if_neg (slotPlace hclu hslot), if_pos hs, acceptedOn_of hrun hx hp hk]
  dsimp only
  rw [hseek, if_neg (not_not.2 rfl)]
  rfl

end

/-- Settles O21: the equations of the opcodes, a slot put in its place, and `State.finish_alone` for NOP. -/
theorem controlOpcodesBegin : Obligations.ControlOpcodesBegin := by
  refine ⟨?_, ?_, ?_⟩
  · intro s clu slot x hclu hslot hrun hx hp
    obtain ⟨rfl, rfl⟩ := slotAt_place hx
    exact ⟨_, _, _, fence_holds hclu hslot hrun hx hp, slotAt_updSlot_put hx rfl rfl, rfl, signal_holds hclu hslot hrun hx hp,
      slotAt_updSlot_put hx rfl rfl, rfl, wait_holds hclu hslot hrun hx hp, slotAt_updSlot_put hx rfl rfl, rfl⟩
  · intro s clu slot x hclu hslot hrun hx hp hal hst hk
    obtain ⟨rfl, rfl⟩ := slotAt_place hx
    obtain ⟨t, e, hfin, hrest⟩ := State.finish_alone hal (hst ▸ Nat.two_pow_pos 8)
    rw [hst] at hfin
    exact ⟨t, (nop_finishes hclu hslot hrun hx hp hk).trans (congrArg _ e), hfin, hrest⟩
  · intro s clu slot x hclu hslot hrun hs hx hp hr hk
    obtain ⟨rfl, rfl⟩ := slotAt_place hx
    obtain ⟨t, ht⟩ : ∃ t, t = s.updSlot x.clu x.idx (fun _ => { x with chain := some (firstChain x), phase := .slotRead }) := ⟨_, rfl⟩
    have hsl : slotAt t x.clu x.idx = some { x with chain := some (firstChain x), phase := .slotRead } := ht ▸ slotAt_updSlot_put hx rfl rfl
    have hft : t.fatal = false := ht ▸ fatal_of_running hrun
    have hframe : ({ s with slots := t.slots } : State) = t := by rw [ht]; rfl
    have e := link_reads hclu hslot hrun hx hp hs hr hk
    have hports := PortsOnly.service t
      (chainRead s { x with chain := some (firstChain x), phase := .slotRead } (.slot x.clu x.idx) (wd x.desc 1).toNat)
    rw [← ht] at e
    refine ⟨_, _, firstChain x, e, (slotAt_of_slots hports.slots _ _).trans hsl, rfl, rfl, rfl, rfl, rfl, rfl, rfl, rfl, rfl, rfl,
      chainRead_offered hft _ _ _ _, ?_⟩
    rw [hports.slots, hframe]
    exact hports

end Sys2Proof.Machine
end

section
/-! PROOFS. The queue commands (09 R292, R294; 02 R38, R40, R79). -/

namespace Sys2Proof.Machine

/-! A command in progress (09 R278). -/

theorem cmdReady_spec {s : State} {own : Bool} {op : Nat} {c : AdmCmd} (h : cmdReady s own op = some c) :
    cmdOf s own = some c ∧ c.phase = .proofed := by
  unfold cmdReady at h
  split at h
  · split at h
    · rename_i d hd hp
      obtain rfl := Option.some.inj h
      simp only [Bool.and_eq_true, decide_eq_true_eq] at hp
      exact ⟨hd, hp.1.1⟩
    · nomatch h
  · nomatch h

section
variable {s : State} {op : Nat} {c : AdmCmd} (h : Proofed s op c)
include h

/-- Its row begins it. -/
theorem Proofed.begins (run : State → Bool → AdmCmd → State) : beginCmd op run s = .next (run s true c) := by
  rw [beginCmd, h.1]

theorem Proofed.createWaits : createWaits s true = none := by
  obtain ⟨hc, hp⟩ := cmdReady_spec h.1
  rw [Machine.createWaits, hc, Option.filter, if_neg (by simp [hp])]

/-- No other member is told. -/
theorem Proofed.toMembers {t : State} (ht : fedOthers t = fedOthers s) (d : AdmCmd) (items : List (W64 × W64))
    (eff : State → Bool → AdmCmd → State) : t.toMembers true d items eff = eff t true d := by
  have hm : toldMembers t true = [] := ht.trans h.2.2.2
  rw [State.toMembers, hm]

end

/-! QUIESCE_CEIL (09 R293). -/

theorem quiesceCeilNs_pos (s : State) : 0 < quiesceCeilNs s := by
  unfold quiesceCeilNs clamp
  omega

theorem underCeil_words (s : State) (c : AdmCmd) : (underCeil s c).words = c.words := by
  unfold underCeil
  split
  · rfl
  · rfl

theorem cQid_underCeil (s : State) (c : AdmCmd) : cQid (underCeil s c) = cQid c := by rw [cQid, underCeil_words, ← cQid]

theorem underCeil_due (s : State) (c : AdmCmd) : (underCeil s c).due ≠ 0 := by
  have hp := quiesceCeilNs_pos s
  unfold underCeil
  split
  · dsimp only
    omega
  · assumption

/-- The ceiling runs from the command's beginning. -/
theorem underCeil_again (s t : State) (c : AdmCmd) : underCeil t (underCeil s c) = underCeil s c := by
  rw [underCeil, if_neg (underCeil_due s c)]

/-! What a command changes for its queue. -/

/-- t is s but for the context of queue `qid`, its readiness, re-reads, overrun and notices, and counts and banks of the context cache. -/
def QueueStep (qid : Nat) (s t : State) : Prop :=
  (∀ n, n ≠ qid → ctxOf t n = ctxOf s n) ∧
    ∃ w r d o h g a, t = { s with ways := w, ready := r, rereads := d, overrun := o, held := h, regs := g, arbs := a }

theorem QueueStep.trans {qid : Nat} {s t u : State} (h : QueueStep qid s t) (k : QueueStep qid t u) : QueueStep qid s u := by
  obtain ⟨h1, _, _, _, _, _, _, _, rfl⟩ := h
  obtain ⟨k1, _, _, _, _, _, _, _, rfl⟩ := k
  exact ⟨fun n hn => (k1 n hn).trans (h1 n hn), _, _, _, _, _, _, _, rfl⟩

theorem QueueStep.refl (qid : Nat) (s : State) : QueueStep qid s s := ⟨fun _ _ => rfl, _, _, _, _, _, _, _, rfl⟩

theorem QueueStep.setCtx (s : State) (qid : Nat) (c : QCtx) : QueueStep qid s (s.setCtx qid c) :=
  ⟨fun n hn => ctxOf_setCtx_ne s qid n c hn, _, _, _, _, _, _, _, rfl⟩

theorem QueueStep.updCtx (s : State) (qid : Nat) (f : QCtx → QCtx) : QueueStep qid s (s.updCtx qid f) := by
  unfold State.updCtx
  split
  · exact QueueStep.refl qid s
  · exact QueueStep.setCtx s qid _

theorem QueueStep.slots {qid : Nat} {s t : State} (h : QueueStep qid s t) : t.slots = s.slots := by
  obtain ⟨-, _, _, _, _, _, _, _, rfl⟩ := h
  rfl

theorem QueueStep.is0 {qid : Nat} {s t : State} (h : QueueStep qid s t) : t.is0 = s.is0 := by
  obtain ⟨-, _, _, _, _, _, _, _, rfl⟩ := h
  rfl

theorem QueueStep.queues {qid : Nat} {s t : State} (h : QueueStep qid s t) : t.queues = s.queues := by
  obtain ⟨-, _, _, _, _, _, _, _, rfl⟩ := h
  rfl

theorem QueueStep.adm {qid : Nat} {s t : State} (h : QueueStep qid s t) : t.adm = s.adm := by
  obtain ⟨-, _, _, _, _, _, _, _, rfl⟩ := h
  rfl

theorem QueueStep.chans {qid : Nat} {s t : State} (h : QueueStep qid s t) (n : Nat) : chans t n = chans s n :=
  congrArg (List.filter _) h.slots

/-- A lookup leaves every context. -/
theorem ctxOf_touch (s : State) (qid n : Nat) : ctxOf (s.touch qid) n = ctxOf s n := by
  unfold State.touch
  split
  · rfl
  · refine find_ctx_upd _ _ (fun w => ?_) s.ways n
    split
    · exact ⟨rfl, rfl⟩
    · split
      · exact ⟨rfl, rfl⟩
      · exact ⟨rfl, rfl⟩

theorem State.lookup_frame (s : State) (qid r : Nat) :
    ∃ w a, s.lookup qid r = { (s.bump .ctxHits 0 0 32 1) with ways := w, arbs := a } := by
  have ht : ∃ w, (s.bump .ctxHits 0 0 32 1).touch qid = { (s.bump .ctxHits 0 0 32 1) with ways := w } := by
    unfold State.touch
    split
    · exact ⟨_, rfl⟩
    · exact ⟨_, rfl⟩
  obtain ⟨w, e⟩ := ht
  unfold State.lookup
  rw [e]
  exact ⟨_, _, rfl⟩

theorem ctxOf_lookup (s : State) (qid r n : Nat) : ctxOf (s.lookup qid r) n = ctxOf s n := ctxOf_touch (s.bump .ctxHits 0 0 32 1) qid n

theorem QueueStep.lookup (s : State) (qid r : Nat) : QueueStep qid s (s.lookup qid r) := by
  obtain ⟨w, a, e⟩ := State.lookup_frame s qid r
  refine ⟨fun n _ => ctxOf_lookup s qid r n, ?_⟩
  rw [e]
  exact ⟨_, _, _, _, _, _, _, rfl⟩

theorem State.rd_lookup_fedStat (s : State) (qid r : Nat) : (s.lookup qid r).rd .fedStat 0 = s.rd .fedStat 0 := by
  obtain ⟨w, a, e⟩ := State.lookup_frame s qid r
  rw [e]
  exact State.rd_wr_other _ _ _ _ _ _ (by decide)

theorem ownMember_of_fedStat {s t : State} (h : t.rd .fedStat 0 = s.rd .fedStat 0) : ownMember t = ownMember s := by
  unfold ownMember State.fld
  rw [h]

theorem fedOthers_of_fedStat {s t : State} (h : t.rd .fedStat 0 = s.rd .fedStat 0) : fedOthers t = fedOthers s := by
  unfold fedOthers fedState members State.fld
  rw [h, ownMember_of_fedStat h]

theorem homedAway_lookup (s : State) (qid r n : Nat) : homedAway (s.lookup qid r) n = homedAway s n := by
  have ho := ownMember_of_fedStat (State.rd_lookup_fedStat s qid r)
  obtain ⟨w, a, e⟩ := State.lookup_frame s qid r
  have hw : (s.lookup qid r).fed = s.fed := by rw [e]; rfl
  unfold homedAway homeOf
  rw [ho, hw]

/-! A command on a queue of this member whose context is resident (14 R423). -/

section
variable {s : State} {op : Nat} {c : AdmCmd} {q : QCtx} (h : Proofed s op c) (hq : s.queues.contains (cQid c) = true)
  (hh : homedAway s (cQid c) = false) (hc : ctxOf s (cQid c) = some q)
include h hq hh hc

omit h in
/-- It ends at once with the STATUS and W5 of its check. -/
theorem State.onQueue_refused {check : QCtx → Option (Nat × Nat)} {st w5 : Nat} (hr : check q = some (st, w5))
    (eff : State → Bool → AdmCmd → State) : s.onQueue true c check eff = (s.lookup (cQid c) 4).admEnd true st 0 0 0 w5 := by
  unfold State.onQueue State.needQueue
  simp only [cQid_underCeil, hq, hh, hc, hr, Bool.not_true, Bool.false_eq_true, if_false, State.admRefuse]

/-- Its check passed, it takes effect. -/
theorem Proofed.onQueue_goes {check : QCtx → Option (Nat × Nat)} (hr : check q = none) (eff : State → Bool → AdmCmd → State) :
    s.onQueue true c check eff = eff (s.lookup (cQid c) 4) true (underCeil s c) := by
  have hm := h.toMembers (fedOthers_of_fedStat (State.rd_lookup_fedStat s (cQid c) 4)) (underCeil s c) []
  unfold State.onQueue State.needQueue
  simp only [cQid_underCeil, hq, hh, hc, hr, Bool.not_true, Bool.false_eq_true, if_false, hm]

end

/-! CREATE_QUEUE (02 R40). -/

/-- The queue exists, with its context in a way of its set (01 R19). -/
def State.queueCreated (s : State) (c : AdmCmd) (k : Nat) : State :=
  (({ s with queues := newQid s c :: s.queues }).flipHash (newQid s c) (ownMember s)).placeWay (newQid s c) k (newContext s c (ownMember s)) true

theorem State.queueCreated_frame (s : State) (c : AdmCmd) (k : Nat) :
    ∃ w u a f, s.queueCreated c k = { s with queues := newQid s c :: s.queues, ways := w, usedWays := u, arbs := a, fed := f } :=
  ⟨_, _, _, _, rfl⟩

section
variable {s : State} {c : AdmCmd} (h : Proofed s 0x88 c)
include h

theorem Proofed.createQueue : exec .createQueue s = .next (s.beginCreateQueue true c) := by
  show execCreateQueue s = _
  rw [execCreateQueue, h.createWaits]
  exact h.begins _

/-- CREATE_QUEUE of no instance. -/
theorem createQueue_noInstance (hi : s.instState (cIid c) = 0) : exec .createQueue s = .next (s.admEnd true 0x40 0 0 0 0) := by
  rw [h.createQueue, State.beginCreateQueue, if_pos hi]
  rfl

variable (hi : s.instState (cIid c) ≠ 0) (hn : s.queues.contains (newQid s c) = false)
include hi hn

/-- CREATE_QUEUE of a new queue of an instance, by its parameters (09 R292). -/
theorem createQueue_checks : s.beginCreateQueue true c =
    if 12 < bits (wd c.words 1) 31 4 then s.admRefuse true 0x44 17
    else if (wd c.words 2).toNat % (64 * 2 ^ (bits (wd c.words 1) 31 4 + 4)) ≠ 0 then s.admRefuse true 0x44 18
    else if min (s.instFld (cIid c) 3 16 16) (qidSpan s (cIid c)) ≤ bits (wd c.words 1) 12 15 then s.admRefuse true 0x45 0
    else s.createQueue true c := by
  unfold State.beginCreateQueue
  dsimp only
  rw [if_neg hi, hn, Bool.and_false, if_neg (by decide), h.toMembers rfl]

omit hi hn in
/-- It takes a free way of its set. -/
theorem createQueue_takesWay {k : Nat} (hk : freeWay s (newQid s c) = some k) :
    s.createQueue true c = (s.queueCreated c k).admEnd true 0 0 (newQid s c) 0 0 := by
  obtain ⟨-, hs, -, -⟩ := h
  unfold State.createQueue
  simp only [hs, hk, Option.isSome_none, Bool.false_eq_true, if_false, Option.getD_none]
  rfl

end

theorem newContext_idle {s : State} {c : AdmCmd} (n : Nat) (hi : s.instState (cIid c) = 1) : (newContext s c n).state = qIdle := by
  simp [newContext, hi]

/-! MODIFY_QUEUE (09 R294). -/

/-- A queue's context taken through a list of changes. -/
theorem foldl_updCtx {α : Type} {s : State} {qid : Nat} {c : QCtx} (hc : ctxOf s qid = some c) (f : α → QCtx → QCtx) (ps : List α) :
    let t := ps.foldl (fun t p => t.updCtx qid (f p)) s
    ctxOf t qid = some (ps.foldl (fun c p => f p c) c) ∧ QueueStep qid s t := by
  induction ps generalizing s c with
  | nil => exact ⟨hc, QueueStep.refl qid s⟩
  | cons p ps ih =>
    have h1 : ctxOf (s.updCtx qid (f p)) qid = some (f p c) := by rw [ctxOf_updCtx, hc, Option.map_some]
    obtain ⟨h2, h3⟩ := ih h1
    exact ⟨h2, (QueueStep.updCtx s qid (f p)).trans h3⟩

/-- The words that MODIFY_QUEUE brings, and the parameters that it selects. -/
def paramNew (c : AdmCmd) (p : Nat) : W32 := BitVec.ofNat 32 (bits (wd c.words (3 + p / 2)) (32 * (p % 2)) 32)

def paramsSelected (c : AdmCmd) : List Nat := (List.range 4).filter (fun p => bit (wd c.words 1) (24 + p))

/-- The context with the selected parameters. -/
def QCtx.modified (q : QCtx) (c : AdmCmd) : QCtx := (paramsSelected c).foldl (fun q p => q.setParam p (paramNew c p)) q

/-- What a parameter word leaves of a context (17 R503). -/
theorem QCtx.setParam_keeps (q : QCtx) (p : Nat) (v : W32) : let r := q.setParam p v
    r.state = q.state ∧ r.f = q.f ∧ r.q = q.q ∧ r.piSeen = q.piSeen ∧ r.ringBase = q.ringBase ∧ r.home = q.home := by
  unfold QCtx.setParam
  dsimp only
  split
  · exact ⟨rfl, rfl, rfl, rfl, rfl, rfl⟩
  · split
    · exact ⟨rfl, rfl, rfl, rfl, rfl, rfl⟩
    · split
      · exact ⟨rfl, rfl, rfl, rfl, rfl, rfl⟩
      · exact ⟨rfl, rfl, rfl, rfl, rfl, rfl⟩

theorem QCtx.modified_keeps (q : QCtx) (c : AdmCmd) : let r := q.modified c
    r.state = q.state ∧ r.f = q.f ∧ r.q = q.q ∧ r.piSeen = q.piSeen ∧ r.ringBase = q.ringBase ∧ r.home = q.home := by
  unfold QCtx.modified
  generalize paramsSelected c = ps
  induction ps generalizing q with
  | nil => exact ⟨rfl, rfl, rfl, rfl, rfl, rfl⟩
  | cons p ps ih =>
    obtain ⟨h1, h2, h3, h4, h5, h6⟩ := q.setParam_keeps p (paramNew c p)
    obtain ⟨k1, k2, k3, k4, k5, k6⟩ := ih (q.setParam p (paramNew c p))
    exact ⟨k1.trans h1, k2.trans h2, k3.trans h3, k4.trans h4, k5.trans h5, k6.trans h6⟩

/-- Each of the last two parameter words, where it is selected, brings its fields. -/
theorem QCtx.modified_fields (q : QCtx) (c : AdmCmd) : let r := q.modified c
    r.noticeThresh = (if bit (wd c.words 1) 27 then BitVec.ofNat 16 ((paramNew c 3).toNat / 2 ^ 0 % 2 ^ 16) else q.noticeThresh) ∧
      r.noticeDelay = (if bit (wd c.words 1) 26 then BitVec.ofNat 20 ((paramNew c 2).toNat / 2 ^ 0 % 2 ^ 20) else q.noticeDelay) ∧
      r.overlapM1 = (if bit (wd c.words 1) 26 then BitVec.ofNat 4 ((paramNew c 2).toNat / 2 ^ 20 % 2 ^ 4) else q.overlapM1) ∧
      r.qClass = (if bit (wd c.words 1) 26 then BitVec.ofNat 2 ((paramNew c 2).toNat / 2 ^ 24 % 2 ^ 2) else q.qClass) := by
  have e : q.modified c = [0, 1, 2, 3].foldl (fun q p => if bit (wd c.words 1) (24 + p) then q.setParam p (paramNew c p) else q) q := by
    rw [QCtx.modified, paramsSelected, List.foldl_filter]
    rfl
  simp only [e, List.foldl_cons, List.foldl_nil, apply_ite QCtx.noticeThresh, apply_ite QCtx.noticeDelay, apply_ite QCtx.overlapM1,
    apply_ite QCtx.qClass]
  refine ⟨?_, ?_, ?_, ?_⟩
  · simp [QCtx.setParam, QCtx.setNoticeDelay, apply_ite QCtx.noticeThresh]
  · simp [QCtx.setParam, QCtx.setNoticeDelay, apply_ite QCtx.noticeDelay]
  · simp [QCtx.setParam, QCtx.setNoticeDelay, apply_ite QCtx.overlapM1]
  · simp [QCtx.setParam, QCtx.setNoticeDelay, apply_ite QCtx.qClass]

/-- A field of a parameter word is the field of the command's word. -/
theorem paramNew_field {c : AdmCmd} {p lo len : Nat} (h : lo + len ≤ 32) :
    BitVec.ofNat len ((paramNew c p).toNat / 2 ^ lo % 2 ^ len) = fieldOf (wd c.words (3 + p / 2)) (32 * (p % 2) + lo) len := by
  refine BitVec.eq_of_toNat_eq (Nat.eq_of_testBit_eq fun i => ?_)
  simp only [fieldOf, paramNew, bits, BitVec.toNat_ofNat, Nat.testBit_mod_two_pow, Nat.testBit_div_two_pow]
  by_cases hi : i < len
  · simp [hi, show i + lo < 32 by omega, Nat.add_assoc, Nat.add_comm lo]
  · simp [hi]

/-- What an address of 0 does changes nothing but the queue's notices (03 R129). -/
theorem State.addrTaken_spec {s : State} {qid : Nat} {c : QCtx} (hc : ctxOf s qid = some c) :
    QueueStep qid s (s.addrTaken qid) ∧
      ∃ p k b n, ctxOf (s.addrTaken qid) qid = some { c with pendingCnt := p, noticeKept := k, noticeBusy := b, nseq := n } := by
  unfold State.addrTaken
  rw [hc]
  dsimp only
  split
  · exact ⟨QueueStep.refl qid s, _, _, _, _, hc⟩
  · refine ⟨QueueStep.trans ⟨fun _ _ => rfl, _, _, _, _, _, _, _, rfl⟩ (QueueStep.setCtx _ qid _), _, _, _, _, ctxOf_setCtx _ qid _ ?_⟩
    show (ctxOf s qid).isSome = true
    rw [hc]
    rfl

/-- MODIFY_QUEUE's effect where it asks for no pause and no resume. -/
theorem State.modifyEffect_spec {s : State} {c : AdmCmd} {q : QCtx} (hc : ctxOf s (cQid c) = some q) (hp : pauseReq c = 0) :
    QueueStep (cQid c) s (s.modifyEffect c) ∧
      ∃ p k b n, ctxOf (s.modifyEffect c) (cQid c) =
        some { q.modified c with pendingCnt := p, noticeKept := k, noticeBusy := b, nseq := n } := by
  obtain ⟨h1, h2⟩ := foldl_updCtx hc (fun p q => q.setParam p (paramNew c p)) (paramsSelected c)
  obtain ⟨k1, k2⟩ := State.addrTaken_spec h1
  have e : s.modifyEffect c =
      ((paramsSelected c).foldl (fun t p => t.updCtx (cQid c) (fun q => q.setParam p (paramNew c p))) s).addrTaken (cQid c) := by
    unfold State.modifyEffect
    dsimp only
    rw [if_neg (by omega), if_pos hp]
    rfl
  rw [e]
  exact ⟨h2.trans k1, k2⟩

/-! Draining of a queue without channels (02 R79). -/

section
variable {s : State} {qid : Nat} {c : QCtx} (hn : chans s qid = []) (hc : ctxOf s qid = some c)
include hn hc

/-- No channel reads for its RESUME. -/
theorem State.stopResume_idle : QueueStep qid s (s.stopResume qid) ∧ ∃ p, ctxOf (s.stopResume qid) qid = some { c with resumePend := p } := by
  have hh : s.haltResume qid c = { s.clearResume qid with
      rereads := (s.clearResume qid).rereads.filter (fun r => !(r.qid == qid && decide (r.idx = c.errIndex))) } := by
    have hch : chans ({ s.clearResume qid with
        rereads := (s.clearResume qid).rereads.filter (fun r => !(r.qid == qid && decide (r.idx = c.errIndex))) } : State) qid = [] := hn
    unfold State.haltResume errLink earlySlots
    dsimp only
    rw [hch]
    rfl
  unfold State.stopResume
  rw [hc]
  dsimp only
  split
  · rw [hh]
    refine ⟨QueueStep.trans ⟨fun _ _ => rfl, _, _, _, _, _, _, _, rfl⟩ (QueueStep.updCtx _ qid _), 1, ?_⟩
    rw [ctxOf_updCtx]
    show (ctxOf s qid).map _ = _
    rw [hc, Option.map_some]
  · exact ⟨QueueStep.refl qid s, c.resumePend, hc⟩

/-- And none reads a ring slot. -/
theorem State.endUnproofed_idle : QueueStep qid s (s.endUnproofed qid) ∧ ctxOf (s.endUnproofed qid) qid = some { c with reread := 0 } := by
  unfold State.endUnproofed State.endBinds earlySlots
  rw [hc, hn]
  refine ⟨QueueStep.trans ⟨fun _ _ => rfl, _, _, _, _, _, _, _, rfl⟩ (QueueStep.updCtx _ qid _), ?_⟩
  dsimp only
  rw [ctxOf_updCtx]
  show (ctxOf s qid).map _ = _
  rw [hc, Option.map_some]

theorem State.startDrain_idle (target : Nat) (byQ : Bool) : QueueStep qid s (s.startDrain qid target byQ) ∧
    ∃ p, ctxOf (s.startDrain qid target byQ) qid = some { c with
      resumePend := p, reread := 0, state := qDraining, drainTo := BitVec.ofNat 2 target, prior := c.state,
      byQuiesce := BitVec.ofNat 1 (flag byQ) } := by
  obtain ⟨h1, p, hp⟩ := State.stopResume_idle hn hc
  obtain ⟨h2, hr⟩ := State.endUnproofed_idle ((h1.chans qid).trans hn) hp
  unfold State.startDrain
  dsimp only
  generalize (s.stopResume qid).endUnproofed qid = t at *
  refine ⟨((h1.trans h2).trans ⟨fun _ _ => rfl, _, _, _, _, _, _, _, rfl⟩).trans (QueueStep.updCtx _ qid _), p, ?_⟩
  rw [ctxOf_updCtx]
  show (ctxOf t qid).map _ = _
  rw [hr, Option.map_some]

end

/-- A queue without channels drains toward its new home. -/
theorem State.moveEffect_idle {s : State} {c : AdmCmd} {q : QCtx} (hn : chans s (cQid c) = []) (hc : ctxOf s (cQid c) = some q) :
    QueueStep (cQid c) s (s.moveEffect c) ∧ ∃ p, ctxOf (s.moveEffect c) (cQid c) = some { q with
      resumePend := p, reread := 0, state := qDraining, drainTo := 2, prior := q.state,
      byQuiesce := BitVec.ofNat 1 (flag (decide (q.byQuiesce = 1))), newHome := fieldOf (wd c.words 1) 24 4 } := by
  obtain ⟨hstep, p, hr⟩ := State.startDrain_idle hn hc 2 (decide (q.byQuiesce = 1))
  unfold State.moveEffect
  simp only [hc]
  refine ⟨hstep.trans (QueueStep.updCtx _ _ _), p, ?_⟩
  rw [ctxOf_updCtx, hr, Option.map_some]
  rfl

/-! The commands on a queue at home (09 R292, R294). -/

theorem State.onQueue_absent {s : State} {c : AdmCmd} (hq : s.queues.contains (cQid c) = false) (check : QCtx → Option (Nat × Nat))
    (eff : State → Bool → AdmCmd → State) : s.onQueue true c check eff = s.admRefuse true 0x41 0 := by
  unfold State.onQueue
  simp only [cQid_underCeil, hq, Bool.not_false, if_true]

/-- The command waits under its ceiling, which runs from its beginning (09 R293). -/
theorem State.waitQuiesce_underCeil (s t : State) (c : AdmCmd) : t.waitQuiesce true (underCeil s c) =
    { t with adm := { t.adm with cmd := some { underCeil s c with phase := .waiting } } } := by
  rw [State.waitQuiesce, underCeil_again]
  rfl

section
variable {s : State} {c : AdmCmd} {q : QCtx} (hq : s.queues.contains (cQid c) = true) (hh : homedAway s (cQid c) = false)
  (hc : ctxOf s (cQid c) = some q)
include hq hh hc

/-- MODIFY_QUEUE of parameters alone. -/
theorem modifyQueue_params (h : Proofed s 0x89 c) (hp : pauseReq c = 0) :
    exec .modifyQueue s = .next (((s.lookup (cQid c) 4).modifyEffect (underCeil s c)).admEnd true 0 0 0 0 0) := by
  have hp' : pauseReq (underCeil s c) = 0 := by rw [pauseReq, underCeil_words]; exact hp
  have hr : pauseRefused c q = false := by simp [pauseRefused, hp]
  show execModifyQueue s = _
  rw [execModifyQueue, h.begins, State.beginModifyQueue, h.onQueue_goes hq hh hc (by rw [hr, if_neg (by decide)]),
    State.modifyQueue, cQid_underCeil, homedAway_lookup, hh, if_neg (by decide), if_neg (by omega)]

/-- MODIFY_QUEUE's resume of a queue that is not PAUSED. -/
theorem modifyQueue_notPaused (h : Proofed s 0x89 c) (hp : pauseReq c = 2) (hs : q.state ≠ qPaused) :
    exec .modifyQueue s = .next ((s.lookup (cQid c) 4).admEnd true 0x43 0 0 0 (queueCode q)) := by
  have hr : pauseRefused c q = true := by simp [pauseRefused, hp, hs]
  show execModifyQueue s = _
  rw [execModifyQueue, h.begins, State.beginModifyQueue, State.onQueue_refused hq hh hc (if_pos hr)]

/-- DESTROY_QUEUE of a queue that does not drain: it drains to ABSENT (02 R79). -/
theorem destroyQueue_drains (h : Proofed s 0x8A c) (hs : q.state ≠ qDraining) : exec .destroyQueue s =
    .next (((s.lookup (cQid c) 4).startDrain (cQid c) 1 false).waitQuiesce true (underCeil s c)) := by
  show execDestroyQueue s = _
  rw [execDestroyQueue, h.begins, State.beginDestroyQueue, h.onQueue_goes hq hh hc (if_neg (fun k => hs k.1)),
    State.destroyQueue, cQid_underCeil, homedAway_lookup, hh, if_neg (by decide), State.startDestroy, ctxOf_lookup, hc]
  dsimp only
  rw [if_neg hs]

variable (h : Proofed s 0x8B c) (hs : q.state = qIdle ∨ q.state = qActive ∨ q.state = qPaused)
include h hs

/-- MOVE_QUEUE to a cluster that is out of service. -/
theorem moveQueue_refused (ho : outOfService s (bits (wd c.words 1) 24 4) = true) :
    exec .moveQueue s = .next ((s.lookup (cQid c) 4).admEnd true 0x44 0 0 0 17) := by
  show execMoveQueue s = _
  rw [execMoveQueue, h.begins, State.beginMoveQueue, State.onQueue_refused hq hh hc
    (show moveRefused s c q = some (0x44, 17) by rw [moveRefused, if_neg (not_not.2 hs), if_pos ho])]

/-- MOVE_QUEUE drains its queue toward its new home (02 R79). -/
theorem moveQueue_drains (ho : outOfService s (bits (wd c.words 1) 24 4) = false) : exec .moveQueue s =
    .next (((s.lookup (cQid c) 4).moveEffect (underCeil s c)).waitQuiesce true (underCeil s c)) := by
  show execMoveQueue s = _
  rw [execMoveQueue, h.begins, State.beginMoveQueue, h.onQueue_goes hq hh hc
    (show moveRefused s c q = none by rw [moveRefused, if_neg (not_not.2 hs), if_neg (by simp [ho])]), State.moveQueue, cQid_underCeil, homedAway_lookup, hh, if_neg (by decide)]

end

/-- Settles O40: a new queue's context in its way, parameters (`QCtx.modified_keeps`, `QCtx.modified_fields`), and drains
(`State.startDrain_idle`). -/
theorem queueCommands : Obligations.QueueCommands := by
  refine ⟨?_, ?_, ?_, ?_, ?_, ?_, ?_, ?_⟩
  · intro s c k h hi hn hd hb hl hk
    obtain ⟨_, _, _, _, e⟩ := State.queueCreated_frame s c k
    refine ⟨s.queueCreated c k, ?_, by rw [e], ?_, fun r hr => ctxOf_placeWay_ne _ _ k _ true r hr, newContext_idle _, by rw [e], by rw [e]⟩
    · rw [h.createQueue, createQueue_checks h hi hn, if_neg (by omega), if_neg (not_not.2 hb), if_neg (by omega),
        createQueue_takesWay h hk]
    · rw [ctxOf, State.queueCreated, wayOf_placeWay, Option.map_some]
  · intro s c h hi
    exact createQueue_noInstance h hi
  · intro s c h hi hn
    refine ⟨fun hd => ?_, fun hd hb => ?_⟩
    · rw [h.createQueue, createQueue_checks h hi hn, if_pos hd]
      rfl
    · rw [h.createQueue, createQueue_checks h hi hn, if_neg (by omega), if_pos hb]
      rfl
  · intro s c q h hq hh hc hp
    have hlook := QueueStep.lookup s (cQid c) 4
    have hid := cQid_underCeil s c
    have hctx : ctxOf (s.lookup (cQid c) 4) (cQid (underCeil s c)) = some q := by rw [ctxOf_lookup, hid, hc]
    obtain ⟨hstep, p, k, b, n, hr⟩ := State.modifyEffect_spec hctx (by rw [pauseReq, underCeil_words]; exact hp)
    have hm : q.modified (underCeil s c) = q.modified c := by simp only [QCtx.modified, paramsSelected, paramNew, underCeil_words]
    rw [hid] at hstep hr
    rw [hm] at hr
    have hall := hlook.trans hstep
    obtain ⟨k1, k2, k3, k4, k5, k6⟩ := q.modified_keeps c
    obtain ⟨f1, f2, f3, f4⟩ := q.modified_fields c
    rw [paramNew_field (by decide)] at f1 f2 f3 f4
    exact ⟨_, _, modifyQueue_params hq hh hc h hp, hr, f1, f2, f3, f4, k1, k2, k3, k4, k5, k6, hall.1, hall.slots, hall.is0⟩
  · intro s c q h hq hh hc hp hs
    exact ⟨_, modifyQueue_notPaused hq hh hc h hp hs, (ctxOf_lookup s _ 4 _).trans hc⟩
  · intro s c h hq
    show execDestroyQueue s = _
    rw [execDestroyQueue, h.begins, State.beginDestroyQueue, State.onQueue_absent hq]
    rfl
  · intro s c q h hq hh hc hs hn
    have hlook := QueueStep.lookup s (cQid c) 4
    obtain ⟨hstep, p, hr⟩ := State.startDrain_idle ((hlook.chans _).trans hn) ((ctxOf_lookup s _ 4 _).trans hc) 1 false
    have hall := hlook.trans hstep
    have e := destroyQueue_drains hq hh hc h hs
    rw [State.waitQuiesce_underCeil, hall.adm] at e
    generalize (s.lookup (cQid c) 4).startDrain (cQid c) 1 false = u at *
    exact ⟨_, _, e, hr, rfl, rfl, rfl, rfl, rfl, rfl, hall.1, hall.queues, hall.slots⟩
  · intro s c q h hq hh hc hs hn
    have hlook := QueueStep.lookup s (cQid c) 4
    refine ⟨fun ho => ⟨_, moveQueue_refused hq hh hc h hs ho, (ctxOf_lookup s _ 4 _).trans hc⟩, fun ho => ?_⟩
    have hid := cQid_underCeil s c
    have hn' : chans (s.lookup (cQid c) 4) (cQid (underCeil s c)) = [] := by rw [hlook.chans, hid, hn]
    have hc' : ctxOf (s.lookup (cQid c) 4) (cQid (underCeil s c)) = some q := by rw [ctxOf_lookup, hid, hc]
    obtain ⟨hstep, p, hr⟩ := State.moveEffect_idle hn' hc'
    rw [hid] at hstep hr
    rw [underCeil_words] at hr
    have hall := hlook.trans hstep
    have e := moveQueue_drains hq hh hc h hs ho
    rw [State.waitQuiesce_underCeil, hall.adm] at e
    generalize (s.lookup (cQid c) 4).moveEffect (underCeil s c) = u at *
    exact ⟨_, _, e, hr, rfl, rfl, rfl, rfl, rfl, rfl, hall.1⟩

end Sys2Proof.Machine
end

section
/-! PROOFS. The data opcodes begin (03 R97 to R106; 04 R140, R142). -/

namespace Sys2Proof.Machine

/-! The cut of a loaf. -/

/-- Packing a store touches the loaves and the buffer lines of its slot only (05 R170). -/
theorem Slot.pack_frame (x : Slot) : ∃ ls rs, x.pack = { x with loaves := ls, lines := rs } := by
  unfold Slot.pack
  split
  · split
    · exact ⟨_, _, rfl⟩
    · exact ⟨_, _, rfl⟩
  · exact ⟨_, _, rfl⟩

/-- The one loaf of a slot holds its store, where it has one, once that is packed. -/
theorem Slot.pack_lone {x : Slot} {l : Loaf} (h : x.loaves = [l]) :
    ∃ b rs, x.pack = { x with loaves := [{ l with stored := b }], lines := rs } := by
  cases hs : hasStore x.desc with
  | false => exact ⟨l.stored, x.lines, by rw [Slot.pack_of_noStore hs, ← h]⟩
  | true => exact ⟨true, dropIf (fun r => r.ofLoaf l.num && landedAll x.desc l r.firstB r.lastB) x.lines,
      by simp [Slot.pack, h, hs, Slot.updLoaf, upd]⟩

/-- A cut touches the loaves, the lines of the store and where the next cut begins. -/
theorem cutNext_frame (s : State) (x : Slot) :
    ∃ ls rs b n f, cutNext s x = { x with loaves := ls, lines := rs, cutB := b, cutNum := n, nextFab := f } := by
  unfold cutNext
  dsimp only
  split
  · exact ⟨_, _, _, _, _, rfl⟩
  · split
    · exact ⟨_, _, _, _, _, rfl⟩
    · obtain ⟨ls, rs, e⟩ := Slot.pack_frame { x with
        loaves := x.loaves ++ [newLoaf x.cutNum x.cutB (loafRange x x.cutB).1 (loafRange x x.cutB).2 x.nextFab],
        cutB := (loafRange x x.cutB).1, cutNum := x.cutNum + 1, nextFab := 0 }
      exact ⟨ls, rs, _, _, _, e⟩

/-- The first loaf of a walk, cut as far as its entries are known (04 R142). -/
theorem cutNext_first {s : State} {x : Slot} (h : x.loaves = []) (hm : mayCut s x = true) (hb : x.cutB < (loafRange x x.cutB).1) :
    ∃ b rs, cutNext s x = { x with
      loaves := [{ newLoaf x.cutNum x.cutB (loafRange x x.cutB).1 (loafRange x x.cutB).2 x.nextFab with stored := b }], lines := rs,
      cutB := (loafRange x x.cutB).1, cutNum := x.cutNum + 1, nextFab := 0 } := by
  unfold cutNext
  dsimp only
  rw [hm, Bool.not_true, if_neg Bool.false_ne_true, if_neg (Nat.not_le.2 hb), h]
  exact Slot.pack_lone rfl

/-- On a contiguous side a loaf ends with its page, or with the walk (04 R140). -/
theorem loafEnd_contig {a len b : Nat} (es : Entries) (cnt : Nat) (prev : Option Nat) (hb : b < len) :
    ∃ e, loafEnd (.contig a) es len b cnt prev = (e, true) ∧ b < e ∧ e ≤ len ∧ e - b ≤ 4096 ∧
      (∀ p, b ≤ p → p < e → (a + p) / 4096 = (a + b) / 4096) ∧ (e = len ∨ (a + e) % 4096 = 0) := by
  have hpage : 0 < 4096 - (a + b) % 4096 := Nat.sub_pos_of_lt (Nat.mod_lt _ (by decide))
  refine ⟨min len (b + (4096 - (a + b) % 4096)), rfl, by omega, by omega, by omega, fun p hp hpe => by omega, by omega⟩

/-! An accepted descriptor begins to move. -/

/-- The slot of an accepted data descriptor once it has begun. -/
def begunSlot (s : State) (x : Slot) : Slot := cutNext s { x with phase := .moving }

theorem begunSlot_frame (s : State) (x : Slot) :
    ∃ ls rs b n f, begunSlot s x = { x with phase := .moving, loaves := ls, lines := rs, cutB := b, cutNum := n, nextFab := f } :=
  cutNext_frame s { x with phase := .moving }

/-- What every data opcode does with its accepted descriptor (04 R142). -/
theorem beginData_cuts {s : State} {clu slot : Nat} {x : Slot} (hclu : clu < 16) (hslot : slot < 34) (hrun : running s = true)
    (hx : slotAt s clu slot = some x) (hp : x.phase = .accepted) (hr : x.resume = none) {k : OpKind} (hk : dKind x.desc = k) :
    beginData k clu slot s = .next (s.updSlot clu slot (fun _ => begunSlot s x)) := by
  rw [beginData, if_neg (slotPlace hclu hslot), acceptedOn_of hrun hx hp hk]
  dsimp only
  split
  · rfl
  · rename_i ws h
    rw [hr] at h
    cases h

/-- Settles O20: the nine opcodes begin alike (`beginData_cuts`); a contiguous loaf ends with its page (`loafEnd_contig`). -/
theorem dataOpcodesBegin : Obligations.DataOpcodesBegin := by
  refine ⟨?_, fun a len b cnt es prev => loafEnd_contig es cnt prev⟩
  intro s clu slot x hclu hslot hrun hx hp hr hl
  obtain ⟨rfl, rfl⟩ := slotAt_place hx
  obtain ⟨ls, rs, b, n, f, e⟩ := begunSlot_frame s x
  have hplace : (begunSlot s x).clu = x.clu ∧ (begunSlot s x).idx = x.idx := by rw [e]; exact ⟨rfl, rfl⟩
  have begins : ∀ {k : OpKind}, dKind x.desc = k →
      beginData k x.clu x.idx s = .next (s.updSlot x.clu x.idx (fun _ => begunSlot s x)) := beginData_cuts hclu hslot hrun hx hp hr
  refine ⟨s.updSlot x.clu x.idx (fun _ => begunSlot s x), begunSlot s x, begins, begins, begins, begins, begins, begins, begins, begins,
    begins, slotAt_updSlot_put hx hplace.1 hplace.2, by rw [e], by rw [e], by rw [e], by rw [e], by rw [e], by rw [e], by rw [e],
    by rw [e], fun c i => slotAt_updSlot_ne fun _ _ _ => hplace, rfl, fun hm hb => ?_⟩
  obtain ⟨st, rs', e'⟩ := cutNext_first (x := { x with phase := .moving }) hl hm hb
  rw [begunSlot, e']
  exact ⟨_, rfl, rfl, rfl, rfl, rfl, rfl, rfl, rfl, rfl⟩

end Sys2Proof.Machine
end

section
/-! PROOFS. The control opcodes end (03 R110, R112, R113, R127; 12 R383). -/

namespace Sys2Proof.Machine

/-! WAIT flags (12 R383). -/

/-- A WAIT flag put at a value reads as it. -/
theorem waitFlag_putWaitFlag {s : State} (hw : s.regs.wf = true) (f : Nat) (v : Bool) : waitFlag (s.putWaitFlag f v) f = v := by
  rw [waitFlag, State.putWaitFlag, State.rd_setFld _ _ _ _ _ _ hw, bit_withBits_one _ _ _ (by omega)]

/-- The other WAIT flags stay as they are, in the same word and in the others. -/
theorem waitFlag_putWaitFlag_ne {s : State} (hw : s.regs.wf = true) {f g : Nat} (h : g ≠ f) (v : Bool) :
    waitFlag (s.putWaitFlag f v) g = waitFlag s g := by
  unfold waitFlag State.putWaitFlag
  by_cases hi : g / 16 = f / 16
  · rw [hi, State.rd_setFld _ _ _ _ _ _ hw, bit_withBits _ _ _ _ _ (by omega), if_neg (by omega)]
  · have ha : Reg.addr .evmWflag (g / 16) ≠ Reg.addr .evmWflag (f / 16) := by
      simp only [Reg.addr, Reg.clustered, Reg.at, Reg.evmWflag]
      simpa using hi
    rw [State.setFld, State.rd_wr_other _ _ _ _ _ _ ha]

/-- A clear leaves a flag set where a direct line holds it (03 R113, 12 R383), and touches no other. -/
theorem State.clearWaitFlag_spec {s : State} (hw : s.regs.wf = true) (f : Nat) : ∃ m, s.clearWaitFlag f = { s with regs := m } ∧
    waitFlag (s.clearWaitFlag f) f = (waitFlag s f && flagHeld s f) ∧ ∀ g, g ≠ f → waitFlag (s.clearWaitFlag f) g = waitFlag s g := by
  unfold State.clearWaitFlag
  cases flagHeld s f with
  | true => exact ⟨s.regs, rfl, (Bool.and_true _).symm, fun _ _ => rfl⟩
  | false => exact ⟨_, rfl, (waitFlag_putWaitFlag hw f false).trans (Bool.and_false _).symm, fun g h => waitFlag_putWaitFlag_ne hw h false⟩

/-! A descriptor that its queue runs alone ends beside other changes. -/

/-- Its end is the same whatever the registers, the pulses and the late sights of flags are (`State.finish_alone`). -/
theorem State.finish_beside {s : State} {x : Slot} (h : Alone s x) (hs : x.status = 0) (m : WordMap) (p : List (Nat × Nat × Nat))
    (l : List (Nat × Nat)) : ∃ t, ({ s with regs := m, heldPulses := p, lateFlags := l } : State).finish x.clu x.idx = t ∧
      Finishes s t x 0 ∧ t.lateFlags = l.filter (fun p => decide (p ≠ (x.clu, x.idx))) ∧
      t = { s with slots := t.slots, records := t.records, ways := t.ways, sched := t.sched, regs := m, heldPulses := p,
                   lateFlags := t.lateFlags } := by
  obtain ⟨t, e, hf, hl, ht⟩ := State.finish_alone (s := { s with regs := m, heldPulses := p, lateFlags := l }) h (hs ▸ Nat.two_pow_pos 8)
  rw [hs] at hf
  exact ⟨t, e, hf, hl, ht⟩

/-- The channels of a queue, once one slot is changed but for its queue. -/
theorem chans_updSlot (s : State) (clu idx : Nat) {f : Slot → Slot} (hf : ∀ y, (f y).qid = y.qid) (qid : Nat) :
    chans (s.updSlot clu idx f) qid = upd (fun y => y.clu == clu && y.idx == idx) f (chans s qid) := by
  have hq : ∀ y : Slot, (if (y.clu == clu && y.idx == idx) = true then f y else y).qid = y.qid := by
    intro y
    split
    · exact hf y
    · rfl
  simp only [chans, State.updSlot, upd, List.filter_map, Function.comp_def, hq]

/-- A status put on it leaves it alone. -/
theorem Alone.withStatus {s : State} {x : Slot} (h : Alone s x) (n : Nat) :
    Alone (s.updSlot x.clu x.idx (fun y => { y with status := n })) { x with status := n } := by
  obtain ⟨hch, hx, hc, hk, hrest⟩ := h
  refine ⟨?_, slotAt_changed hx fun _ => ⟨rfl, rfl⟩, hc, hk, hrest⟩
  refine (chans_updSlot s x.clu x.idx (f := fun y => { y with status := n }) (fun _ => rfl) x.qid).trans ?_
  simp [hch, upd]

/-- It ends with the status put on it. -/
theorem Finishes.withStatus {s t : State} {x : Slot} {n st : Nat}
    (h : Finishes (s.updSlot x.clu x.idx (fun y => { y with status := n })) t { x with status := n } st) : Finishes s t x st := by
  obtain ⟨hfree, hstay, hother, hrec⟩ := h
  exact ⟨hfree, hstay, fun c i hn => (hother c i hn).trans (slotAt_updSlot_ne (fun _ h1 h2 => ⟨h1, h2⟩) hn), hrec⟩

/-! FENCE and SIGNAL (03 R110, R127). -/

section
variable {s : State} {clu slot : Nat} {x : Slot} (hclu : clu < 16) (hslot : slot < 34)
  (hx : slotAt s clu slot = some x)
include hclu hslot hx

theorem fenceComplete_done (hrun : running s = true) (hp : x.phase = .fencing) (ho : earlierOpen s x = false) :
    exec (.fenceComplete clu slot) s = .next (s.finish clu slot) := by
  show execFenceComplete clu slot s = _
  rw [execFenceComplete, if_neg (slotPlace hclu hslot), hx]
  simp [hrun, hp, ho]

theorem signalPulse_done (hrun : running s = true) (hp : x.phase = .signalling) (ho : earlierOpen s x = false) :
    exec (.signalPulse clu slot) s = .next ((s.pulse (128 + bits (wd x.desc 1) 0 4) 0).finish clu slot) := by
  show execSignalPulse clu slot s = _
  rw [execSignalPulse, if_neg (slotPlace hclu hslot), hx]
  simp [hrun, hp, ho]

/-- Both wait for the records before theirs. -/
theorem fence_signal_wait (ho : earlierOpen s x = true) :
    exec (.fenceComplete clu slot) s = .next s ∧ exec (.signalPulse clu slot) s = .next s := by
  constructor
  · show execFenceComplete clu slot s = _
    rw [execFenceComplete, if_neg (slotPlace hclu hslot), hx]
    simp [ho]
  · show execSignalPulse clu slot s = _
    rw [execSignalPulse, if_neg (slotPlace hclu hslot), hx]
    simp [ho]

/-! WAIT (03 R112, R113). -/

theorem waitTimeout_expires {due : Nat} (hrun : running s = true) (hp : x.phase = .waiting due) (hd : due ≤ s.nomNs) :
    exec (.waitTimeout clu slot) s = .next ((s.updSlot clu slot (fun y => { y with status := 0x0A })).finish clu slot) := by
  show execWaitTimeout clu slot s = _
  rw [execWaitTimeout, if_neg (slotPlace hclu hslot), hx]
  simp [hp, hrun, hd]

end

/-- The WAITs of a cluster on a flag that complete with OK now. -/
def waitsSeen (s : State) (clu f : Nat) : List Slot :=
  s.slots.filter (fun x => waitsOn clu f x && waitLasts s x && (waitFlag s f || sawFlag s x))

/-- The state in which they do: their late sights of the flag are over, and it is cleared where one of them says so. -/
def State.flagTaken (s : State) (clu f : Nat) (ws : List Slot) : State :=
  let s0 := { s with lateFlags := s.lateFlags.filter (fun p => !ws.any (fun x => decide (p = (x.clu, x.idx)))) }
  if waitFlag s f && ws.any (fun x => dFlagB0 x.desc) then s0.clearSeenFlag clu f else s0

theorem waitFlagSeen_eq {s : State} {clu f : Nat} (hclu : clu < 16) (hf : f < 64) (hrun : running s = true) :
    exec (.waitFlagSeen clu f) s =
      .next ((waitsSeen s clu f).foldl (fun t x => t.finish clu x.idx) (s.flagTaken clu f (waitsSeen s clu f))) := by
  show execWaitFlagSeen clu f s = _
  rw [execWaitFlagSeen, if_neg (by simp; omega), if_neg (by simp [hrun])]
  rfl

/-- The one WAIT of a cluster on a flag completes once it sees it, before its time has passed. -/
theorem waitsSeen_lone {s : State} {clu f : Nat} {x : Slot} (h : s.slots.filter (waitsOn clu f) = [x])
    (hs : waitFlag s f = true ∨ sawFlag s x = true) (hl : waitLasts s x = true) : waitsSeen s clu f = [x] := by
  have hseen : (waitFlag s f || sawFlag s x) = true := by simpa using hs
  have hsplit : waitsSeen s clu f = (s.slots.filter (waitsOn clu f)).filter (fun x => waitLasts s x && (waitFlag s f || sawFlag s x)) := by
    rw [waitsSeen, List.filter_filter]
    congr 1
    funext y
    rw [Bool.and_assoc, Bool.and_comm]
  rw [hsplit, h, List.filter_cons, hl, hseen]
  rfl

theorem waitsSeen_none {s : State} {clu f : Nat} (h : ∀ x ∈ s.slots, waitsOn clu f x = true → waitLasts s x = false) :
    waitsSeen s clu f = [] := by
  refine List.filter_eq_nil_iff.2 fun x hx hs => ?_
  simp only [Bool.and_eq_true] at hs
  simp [h x hx hs.1.1] at hs

/-- A cleared flag counts as seen by the WAITs on it in other clusters (log entry 45). -/
theorem State.clearSeenFlag_late (s : State) {clu f : Nat} {y : Slot} (hy : y ∈ s.slots) (hc : y.clu ≠ clu) (hw : waitsOn y.clu f y = true) :
    (y.clu, y.idx) ∈ (s.clearSeenFlag clu f).lateFlags := by
  have hmem : (y.clu, y.idx) ∈ (s.slots.filter (fun y => decide (y.clu ≠ clu) && waitsOn y.clu f y)).map (fun y => (y.clu, y.idx)) :=
    List.mem_map.2 ⟨y, List.mem_filter.2 ⟨hy, by simp [hc, hw]⟩, rfl⟩
  by_cases hl : (y.clu, y.idx) ∈ s.lateFlags
  · exact List.mem_append_left _ hl
  · exact List.mem_append_right _ (List.mem_filter.2 ⟨hmem, by simp [hl]⟩)

/-- What the one WAIT that completes leaves of the flags: its own flag is clear where it says so and nothing holds it. -/
theorem State.flagTaken_lone {s : State} {clu f : Nat} {x : Slot} (hw : s.regs.wf = true) :
    ∃ m l, s.flagTaken clu f [x] = { s with regs := m, lateFlags := l } ∧
      waitFlag { s with regs := m } f = (waitFlag s f && !(dFlagB0 x.desc && !flagHeld s f)) ∧
      (∀ g, g ≠ f → waitFlag { s with regs := m } g = waitFlag s g) ∧
      (waitFlag s f = true → dFlagB0 x.desc = true → ∀ y ∈ s.slots, y.clu ≠ clu → waitsOn y.clu f y = true → (y.clu, y.idx) ∈ l) := by
  unfold State.flagTaken
  dsimp only
  generalize s.lateFlags.filter _ = k
  rw [List.any_cons, List.any_nil, Bool.or_false]
  by_cases hc : (waitFlag s f && dFlagB0 x.desc) = true
  · obtain ⟨hset, hb⟩ := Bool.and_eq_true_iff.1 hc
    obtain ⟨m, e, hm, hn⟩ := State.clearWaitFlag_spec (s := { s with lateFlags := k }) hw f
    rw [if_pos hc]
    refine ⟨m, _, by rw [State.clearSeenFlag, e], ?_, fun g hg => ?_, fun _ _ y hy hyc hyw => ?_⟩
    · rw [e] at hm
      rw [hb, Bool.true_and, Bool.not_not]
      exact hm
    · have := hn g hg
      rw [e] at this
      exact this
    · exact State.clearSeenFlag_late { s with lateFlags := k } hy hyc hyw
  · rw [if_neg hc]
    refine ⟨s.regs, k, rfl, ?_, fun _ _ => rfl, fun hset hb => absurd (Bool.and_eq_true_iff.2 ⟨hset, hb⟩) hc⟩
    show waitFlag s f = _
    cases hset : waitFlag s f with
    | false => rfl
    | true =>
      have hb : dFlagB0 x.desc = false := by simpa [hset] using hc
      rw [hb]
      rfl

/-- Settles O22: what each row does with its descriptor, and `State.finish_beside` for the end of one that its queue runs alone. -/
theorem controlOpcodesEnd : Obligations.ControlOpcodesEnd := by
  refine ⟨?_, ?_, ?_, ?_, ?_, ?_⟩
  · intro s clu slot x hclu hslot hrun hx hp hal ho hs _
    obtain ⟨rfl, rfl⟩ := slotAt_place hx
    obtain ⟨t, e, hrest⟩ := State.finish_beside hal hs s.regs s.heldPulses s.lateFlags
    exact ⟨t, (fenceComplete_done hclu hslot hx hrun hp ho).trans (congrArg _ e), hrest⟩
  · intro s clu slot x hclu hslot hrun hx hp hal ho hs _
    obtain ⟨rfl, rfl⟩ := slotAt_place hx
    have hheld := State.pulse_held s (128 + bits (wd x.desc 1) 0 4) 0
    obtain ⟨t, e, hfin, hlate, ht⟩ :=
      State.finish_beside hal hs s.regs (s.pulse (128 + bits (wd x.desc 1) 0 4) 0).heldPulses s.lateFlags
    refine ⟨t, (signalPulse_done hclu hslot hx hrun hp ho).trans (congrArg _ e), hfin, ?_, hlate, ?_⟩
    · rw [ht]
      exact hheld
    · rw [ht]
  · intro s clu slot x hclu hslot _ hx _ ho
    exact fence_signal_wait hclu hslot hx ho
  · intro s clu f x hclu hf hrun hsee hlast hlone hal hs _ hw
    have hmem : x ∈ s.slots.filter (waitsOn clu f) := by rw [hlone]; exact List.mem_singleton.2 rfl
    obtain rfl : x.clu = clu := by
      have h := (List.mem_filter.1 hmem).2
      simp only [waitsOn, Bool.and_eq_true, decide_eq_true_eq] at h
      exact h.1.1
    have hexec := waitFlagSeen_eq hclu hf hrun
    obtain ⟨m, l, e1, hflag, hother, hlate⟩ := State.flagTaken_lone (clu := x.clu) (f := f) (x := x) hw
    obtain ⟨t, e, hfin, hl, ht⟩ := State.finish_beside hal hs m s.heldPulses l
    rw [waitsSeen_lone hlone hsee hlast, List.foldl_cons, List.foldl_nil, e1] at hexec
    have hflags : ∀ g, waitFlag t g = waitFlag { s with regs := m } g := fun g => by rw [ht]; rfl
    refine ⟨t, hexec.trans (congrArg _ e), hfin, (hflags f).trans hflag, fun g _ hg => (hflags g).trans (hother g hg),
      fun hset hb y hy hyc hyw => ?_, by rw [ht]⟩
    rw [sawFlag, hl, List.contains_iff_mem]
    refine List.mem_filter.2 ⟨hlate hset hb y hy hyc hyw, ?_⟩
    simp [hyc]
  · intro s clu f hclu hf hrun hnone
    rw [waitFlagSeen_eq hclu hf hrun, waitsSeen_none hnone]
    simp [State.flagTaken]
  · intro s clu slot x due hclu hslot hrun hx hp hal hd _
    obtain ⟨rfl, rfl⟩ := slotAt_place hx
    obtain ⟨t, e, hfin, hlate, ht⟩ := State.finish_alone (hal.withStatus 0x0A) (show 0x0A < 2 ^ 8 by decide)
    exact ⟨t, (waitTimeout_expires hclu hslot hx hrun hp hd).trans (congrArg _ e), hfin.withStatus, hlate, ht⟩

end Sys2Proof.Machine
end

section
/-! PROOFS. Descriptors that end with a status, slots that are retired, and descriptors that move (03 R122; 05 R191; 08 R251, R259 to
R266). -/

namespace Sys2Proof.Machine

/-! The end of a descriptor with a status (03 R122). -/

/-- Loaves whose attempts are dropped leave all but the outstanding accesses. -/
theorem State.dropAttempts_frame (x : Slot) (ls : List Loaf) (s : State) :
    ∃ a, ls.foldl (fun t l => (t.dropWrites x l.num).dropReads x l.num) s = { s with acc := a } := by
  induction ls generalizing s with
  | nil => exact ⟨s.acc, rfl⟩
  | cons l ls ih =>
    obtain ⟨a, e⟩ := ih ((s.dropWrites x l.num).dropReads x l.num)
    exact ⟨a, e⟩

/-- Dropped loaves are gone from their slot, with the requests of Lens and the lines that were theirs. -/
def Slot.without (y : Slot) (kept : Nat) (gone : List Loaf) : Slot :=
  { y with loaves := y.loaves.take kept,
           lens := if y.lens.toList.any (fun r => gone.any (fun l => l.num == r.loaf)) then none else y.lens,
           lensReady := dropIf (fun r => gone.any (fun l => l.num == r.loaf)) y.lensReady,
           lines := dropIf (fun r => gone.any (fun l => r.ofLoaf l.num)) y.lines }

theorem State.dropLoaves_eq (s : State) (x : Slot) (n : Nat) :
    ∃ a, s.dropLoaves x n = ({ s with acc := a } : State).updSlot x.clu x.idx (fun y => y.without n (x.loaves.drop n)) := by
  obtain ⟨a, e⟩ := State.dropAttempts_frame x (x.loaves.drop n) s
  refine ⟨a, ?_⟩
  unfold State.dropLoaves
  dsimp only
  rw [e]
  rfl

/-- What a descriptor that ends with a status shows: it issues nothing more. -/
def Slot.endedWith (y : Slot) (status : Nat) (detail : BitVec 6) (w5 : Nat) : Slot :=
  { y with
    phase := .ending, status := status, detail := detail, w5 := BitVec.ofNat 64 w5, fabOver := none, relOver := none,
    retireBy := none, nextBackoff := none, grant := [], poolWait := [], lens := none, lensReady := [] }

/-- The faults from outside are logged as CONTAINED (11 R356). -/
def State.logContained (s : State) (x : Slot) (clu idx status : Nat) (detail : BitVec 6) (w5 : Nat) : State :=
  if 7 ≤ status ∧ status ≤ 9 then
    s.logErr (mkErr 2 (2 + clu) (0x15 + status) x.iid x.qid idx clu (detail.setWidth 8) x.slotIdx.toNat w5)
  else s

/-- The loaves of an ending descriptor that may still commit. -/
def loavesKept (x : Slot) (bad : Option Nat) : Nat := (x.loaves.takeWhile (fun l => fullyRequested x l && decide (some l.num ≠ bad))).length

/-- The state in which a descriptor has ended, before it is looked at whether it is done. -/
def State.ended (s : State) (x : Slot) (status : Nat) (detail : BitVec 6) (w5 : Nat) (bad : Option Nat) : State :=
  ((s.logContained x x.clu x.idx status detail w5).dropLoaves x (loavesKept x bad)).updSlot x.clu x.idx (·.endedWith status detail w5)

theorem State.endWith_eq {s : State} {x : Slot} (hx : slotAt s x.clu x.idx = some x) (hp : x.phase ≠ .ending) (status : Nat)
    (detail : BitVec 6) (w5 : Nat) (bad : Option Nat) :
    s.endWith x.clu x.idx status detail w5 bad = (s.ended x status detail w5 bad).settle x.clu x.idx := by
  unfold State.endWith
  rw [hx]
  dsimp only
  rw [if_neg hp]
  rfl

theorem State.logContained_frame (s : State) (x : Slot) (clu idx status : Nat) (detail : BitVec 6) (w5 : Nat) :
    ∃ m q, s.logContained x clu idx status detail w5 = { s with regs := m, errQ := q } := by
  unfold State.logContained
  split
  · exact State.logErr_frame s _
  · exact ⟨_, _, rfl⟩

/-- The ended descriptor stands in its slot; of the error log only its record is new. -/
theorem State.ended_spec {s : State} {x : Slot} (hx : slotAt s x.clu x.idx = some x) (status : Nat) (detail : BitVec 6) (w5 : Nat)
    (bad : Option Nat) : ∃ gone, slotAt (s.ended x status detail w5 bad) x.clu x.idx =
        some ((x.without (loavesKept x bad) gone).endedWith status detail w5) ∧
      (s.ended x status detail w5 bad).errQ = (s.logContained x x.clu x.idx status detail w5).errQ := by
  obtain ⟨m, q, e⟩ := State.logContained_frame s x x.clu x.idx status detail w5
  obtain ⟨a, ed⟩ := State.dropLoaves_eq (s.logContained x x.clu x.idx status detail w5) x (loavesKept x bad)
  have hlog : slotAt (s.logContained x x.clu x.idx status detail w5) x.clu x.idx = some x := by rw [e]; exact hx
  refine ⟨x.loaves.drop (loavesKept x bad), ?_, ?_⟩
  · rw [State.ended, ed]
    exact slotAt_changed (slotAt_changed hlog fun _ => ⟨rfl, rfl⟩) fun _ => ⟨rfl, rfl⟩
  · rw [State.ended, ed]
    rfl

/-- Past FAB_MAX (08 R259). -/
theorem fabMaxExceeded_ends {s : State} {clu slot : Nat} {x : Slot} {read : Bool} {detail : BitVec 6} {addr : Nat} (hclu : clu < 16)
    (hslot : slot < 34) (hrun : running s = true) (hx : slotAt s clu slot = some x) (hf : x.fabOver = some (read, detail, addr)) :
    exec (.fabMaxExceeded clu slot) s =
      .next ((s.bump .cluReplayStat clu 24 8 1).endWith clu slot (if read then 7 else 8) detail addr none) := by
  show execFabMaxExceeded clu slot s = _
  rw [execFabMaxExceeded, if_neg (slotPlace hclu hslot), hx, Option.bind_some, hf]
  exact if_pos hrun

/-- A retryable error in the fourth release (05 R191). -/
theorem releaseLimit_ends {s : State} {clu slot : Nat} {x : Slot} {detail : BitVec 6} {addr : Nat} (hclu : clu < 16) (hslot : slot < 34)
    (hrun : running s = true) (hx : slotAt s clu slot = some x) (hr : x.relOver = some (detail, addr)) :
    exec (.releaseLimit clu slot) s = .next (s.endWith clu slot 9 detail addr (x.loaves.head?.map (·.num))) := by
  show execReleaseLimit clu slot s = _
  rw [execReleaseLimit, if_neg (slotPlace hclu hslot), hx]
  dsimp only
  rw [hr]
  exact if_pos hrun

/-! A retired slot stays retired (08 R262). -/

/-- From s to t the registers stay in canonical form, and the slot stays retired. -/
def KeepsRetired (clu idx : Nat) (s t : State) : Prop :=
  s.regs.wf = true → t.regs.wf = true ∧ (slotRetired s clu idx = true → slotRetired t clu idx = true)

section
variable {clu idx : Nat} {s t u : State}

theorem KeepsRetired.of_regs (h : t.regs = s.regs) : KeepsRetired clu idx s t := by
  intro hw
  simp only [slotRetired, State.rd, h]
  exact ⟨hw, id⟩

theorem KeepsRetired.trans (h : KeepsRetired clu idx s t) (k : KeepsRetired clu idx t u) : KeepsRetired clu idx s u := fun hw =>
  have ht := h hw
  have hu := k ht.1
  ⟨hu.1, hu.2 ∘ ht.2⟩

/-- A write of a register that is no cluster's. -/
theorem KeepsRetired.wr_shared (s : State) {r : Reg} (v : W32) (hq : r.clustered = false) (hs : r.at 0 < 0x8000) :
    KeepsRetired clu idx s (s.wr r 0 v) := by
  intro hw
  refine ⟨State.wf_wr _ _ _ _ hw, ?_⟩
  simp only [slotRetired, State.rd_wr_other _ _ _ _ _ v (Reg.addr_clustered_ne (r := .cluRetired) rfl hq hs clu).symm,
    State.rd_wr_other _ _ _ _ _ v (Reg.addr_clustered_ne (r := .cluMirrorStat) rfl hq hs clu).symm]
  exact id

theorem cluRetired_addr_ne (c n : Nat) : Reg.addr .cluRetired c ≠ Reg.addr .cluMirrorStat n := by
  simp [Reg.addr, Reg.clustered, Reg.ofClu, Reg.cluRetired, Reg.cluMirrorStat]
  omega

theorem cluMirrorStat_addr_ne {c n : Nat} (h : c ≠ n) : Reg.addr .cluMirrorStat c ≠ Reg.addr .cluMirrorStat n := by
  simp [Reg.addr, Reg.clustered, Reg.ofClu, Reg.cluMirrorStat]
  omega

/-- A field of CLUn_MIRROR_STAT other than RETIRED. -/
theorem KeepsRetired.setMirror (s : State) (n : Nat) {lo len : Nat} (v : Nat) (hidx : idx < 34) (hlo : 2 ≤ lo) (hl : lo + len ≤ 32) :
    KeepsRetired clu idx s (s.setFld .cluMirrorStat n lo len v) := by
  intro hw
  refine ⟨State.wf_wr _ _ _ _ hw, ?_⟩
  unfold slotRetired
  split
  · rw [State.setFld, State.rd_wr_other _ _ _ _ _ _ (cluRetired_addr_ne clu n)]
    exact id
  · by_cases hn : clu = n
    · subst hn
      rw [State.rd_setFld _ _ _ _ _ _ hw, bit_withBits _ _ _ _ _ hl, if_neg (by omega)]
      exact id
    · rw [State.setFld, State.rd_wr_other _ _ _ _ _ _ (cluMirrorStat_addr_ne hn)]
      exact id

theorem KeepsRetired.loseErr (s : State) (q : W32) : KeepsRetired clu idx s (s.loseErr q) := by
  unfold State.loseErr
  dsimp only
  split
  · exact .wr_shared _ _ rfl (by decide)
  · exact KeepsRetired.trans (.wr_shared _ _ rfl (by decide)) (.wr_shared _ _ rfl (by decide))

theorem KeepsRetired.logErr (s : State) (e : ErrRec) : KeepsRetired clu idx s (s.logErr e) := by
  unfold State.logErr
  dsimp only
  split
  · exact .of_regs rfl
  · generalize (if s.rd .errNextSeq 0 + 1 = 0 then 1 else s.rd .errNextSeq 0 + 1) = v
    have hseq : KeepsRetired clu idx s (s.wr .errNextSeq 0 v) := .wr_shared _ _ rfl (by decide)
    split
    · exact hseq.trans (.loseErr _ _)
    · exact hseq.trans (.of_regs rfl)

end

/-- New adopters of clusters out of service touch the registers only. -/
theorem adoptersSet_frame (ns : List Nat) (s : State) :
    ∃ m, ns.foldl (fun t n => t.setFld .cluMirrorStat n 5 4 ((adopterOf t n).getD n)) s = { s with regs := m } := by
  induction ns generalizing s with
  | nil => exact ⟨s.regs, rfl⟩
  | cons n ns ih =>
    obtain ⟨m, e⟩ := ih (s.setFld .cluMirrorStat n 5 4 ((adopterOf s n).getD n))
    exact ⟨m, e⟩

theorem KeepsRetired.adopters {clu idx : Nat} (hidx : idx < 34) (ns : List Nat) (s : State) :
    KeepsRetired clu idx s (ns.foldl (fun t n => t.setFld .cluMirrorStat n 5 4 ((adopterOf t n).getD n)) s) := by
  induction ns generalizing s with
  | nil => exact .of_regs rfl
  | cons n ns ih => exact KeepsRetired.trans (.setMirror s n _ hidx (by decide) (by decide)) (ih _)

/-- A cluster that goes out of service (08 R263) keeps its retired slots, and touches the registers, what waits to be placed, and the log. -/
theorem State.goOutOfService_spec (s : State) (n cause : Nat) : (∃ m v q, s.goOutOfService n cause = { s with regs := m, moving := v, errQ := q }) ∧
    ∀ clu idx, idx < 34 → KeepsRetired clu idx s (s.goOutOfService n cause) := by
  unfold State.goOutOfService
  split
  · exact ⟨⟨_, _, _, rfl⟩, fun _ _ _ => .of_regs rfl⟩
  · extract_lets s1 ad s2 s3 s4
    obtain ⟨m, e3⟩ : ∃ m, s3 = { s2 with regs := m } := adoptersSet_frame _ s2
    obtain ⟨m', q, e⟩ := State.logErr_frame s4 (mkErr 3 (2 + n) 0x41 0 0 63 0 0 cause (ad.getD 0xFF))
    refine ⟨⟨m', s4.moving, q, ?_⟩, fun clu idx hidx => ?_⟩
    · rw [e]
      simp only [s4, e3]
      rfl
    · have h1 : KeepsRetired clu idx s s1 := .setMirror s n 1 hidx (by decide) (by decide)
      have h2 : KeepsRetired clu idx s1 s2 := KeepsRetired.trans (.setMirror s1 n _ hidx (by decide) (by decide))
        (.setMirror _ n _ hidx (by decide) (by decide))
      have h3 : KeepsRetired clu idx s2 s3 := .adopters hidx _ s2
      have h4 : KeepsRetired clu idx s3 s4 := .of_regs rfl
      exact ((h1.trans h2).trans (h3.trans h4)).trans (.logErr _ _)

/-- The mark of a retired slot. -/
def State.markRetired (s : State) (x : Slot) : State :=
  if x.idx < 32 then s.setFld .cluRetired x.clu x.idx 1 1 else s.setFld .cluMirrorStat x.clu (x.idx - 32) 1 1

theorem State.markRetired_spec {s : State} {x : Slot} (hw : s.regs.wf = true) (hidx : x.idx < 34) :
    (∃ m, s.markRetired x = { s with regs := m }) ∧ (s.markRetired x).regs.wf = true ∧ slotRetired (s.markRetired x) x.clu x.idx = true := by
  unfold State.markRetired slotRetired
  split
  · refine ⟨⟨_, rfl⟩, State.wf_wr _ _ _ _ hw, ?_⟩
    rw [State.rd_setFld _ _ _ _ _ _ hw, bit_withBits _ _ _ _ _ (by omega), if_pos (by omega), Nat.sub_self]
    rfl
  · refine ⟨⟨_, rfl⟩, State.wf_wr _ _ _ _ hw, ?_⟩
    rw [State.rd_setFld _ _ _ _ _ _ hw, bit_withBits _ _ _ _ _ (by omega), if_pos (by omega), Nat.sub_self]
    rfl

/-- A retired slot is marked so, whatever becomes of its cluster; slots, accesses and contexts are as they were (08 R262, R263). -/
theorem State.retireSlot_spec {s : State} {x : Slot} (hw : s.regs.wf = true) (hidx : x.idx < 34) (code : Nat) :
    (∃ m q p d v, s.retireSlot x code = { s with regs := m, errQ := q, heldPulses := p, sched := d, moving := v }) ∧
      slotRetired (s.retireSlot x code) x.clu x.idx = true := by
  obtain ⟨⟨m1, e1⟩, hw1, hr1⟩ := State.markRetired_spec hw hidx
  unfold State.retireSlot
  rw [← State.markRetired]
  extract_lets s1 s2 s3
  have h12 : KeepsRetired x.clu x.idx (s.markRetired x) s2 :=
    KeepsRetired.trans (.logErr _ (mkErr 3 (2 + x.clu) 0x40 x.iid x.qid x.idx x.clu 0 x.idx code)) (.of_regs rfl)
  obtain ⟨m2, q2, e2⟩ := State.logErr_frame (s.markRetired x) (mkErr 3 (2 + x.clu) 0x40 x.iid x.qid x.idx x.clu 0 x.idx code)
  obtain ⟨d, e3⟩ : ∃ d, s3 = { s2 with sched := d } := State.noteFull_frame s2 x.clu
  have h13 : KeepsRetired x.clu x.idx (s.markRetired x) s3 := h12.trans (.of_regs (by rw [e3]))
  have hframe : ∃ m q p d, s3 = { s with regs := m, errQ := q, heldPulses := p, sched := d } := by
    rw [e3]
    simp only [s2, s1]
    rw [e2, e1]
    exact ⟨_, _, _, _, rfl⟩
  obtain ⟨m, q, p, d', e⟩ := hframe
  have out : ∀ cause, (∃ m q p d v, s3.goOutOfService x.clu cause = { s with regs := m, errQ := q, heldPulses := p, sched := d, moving := v }) ∧
      slotRetired (s3.goOutOfService x.clu cause) x.clu x.idx = true := by
    intro cause
    obtain ⟨⟨m', v, q', eo⟩, hk⟩ := State.goOutOfService_spec s3 x.clu cause
    refine ⟨⟨m', q', p, d', v, by rw [eo, e]⟩, ?_⟩
    exact ((h13.trans (hk x.clu x.idx hidx)) hw1).2 hr1
  split
  · exact out 1
  · split
    · exact out 3
    · exact ⟨⟨m, q, p, d', s.moving, e⟩, (h13 hw1).2 hr1⟩

/-! A descriptor leaves its retired slot (08 R260 to R266). -/

/-- The state in which a retired slot's descriptor has stopped: what was not released is dropped. -/
def State.slotStops (s : State) (x : Slot) (code : Nat) : State :=
  (((x.loaves.filter (fun l => !l.released)).foldl (fun t l => (t.dropWrites x l.num).dropReads x l.num) (s.retireSlot x code)).orphanReads
    x.clu x.idx).updSlot x.clu x.idx (fun y => { y with phase := .leaving, retireBy := none })

theorem slotRetired_stops {s : State} {clu slot code : Nat} {x : Slot} (hclu : clu < 16) (hslot : slot < 34) (hrun : running s = true)
    (hx : slotAt s clu slot = some x) (hr : x.retireBy = some code) :
    exec (.slotRetired clu slot) s = .next ((s.slotStops x code).leaveNow clu slot) := by
  obtain ⟨rfl, rfl⟩ := slotAt_place hx
  show execSlotRetired x.clu x.idx s = _
  rw [execSlotRetired, if_neg (slotPlace hclu hslot), hx]
  dsimp only
  rw [hr]
  exact if_neg (by simp [hrun])

theorem State.slotStops_spec {s : State} {x : Slot} (hx : slotAt s x.clu x.idx = some x) (hw : s.regs.wf = true) (hidx : x.idx < 34)
    (code : Nat) : slotAt (s.slotStops x code) x.clu x.idx = some { x with phase := .leaving, retireBy := none } ∧
      slotRetired (s.slotStops x code) x.clu x.idx = true ∧
      ∀ c i, ¬ (c = x.clu ∧ i = x.idx) → slotAt (s.slotStops x code) c i = slotAt s c i := by
  obtain ⟨⟨m, q, p, d, v, e⟩, hr⟩ := State.retireSlot_spec hw hidx code
  obtain ⟨a, ed⟩ := State.dropAttempts_frame x (x.loaves.filter (fun l => !l.released)) (s.retireSlot x code)
  unfold State.slotStops
  rw [ed]
  have hs : (s.retireSlot x code).slots = s.slots := by rw [e]
  exact ⟨slotAt_changed ((slotAt_of_slots hs _ _).trans hx) (fun _ => ⟨rfl, rfl⟩), hr,
    fun c i hn => (slotAt_updSlot_ne (f := fun y => { y with phase := .leaving, retireBy := none }) (fun _ h1 h2 => ⟨h1, h2⟩) hn).trans
      (slotAt_of_slots hs c i)⟩

/-- A descriptor that leaves waits for the writes of a released loaf (08 R266). -/
theorem State.leaveNow_leaving {s : State} {clu idx : Nat} {x : Slot} (hx : slotAt s clu idx = some x) (hp : x.phase = .leaving) :
    s.leaveNow clu idx = if moveWaits s x then s else s.moveAway clu idx := by
  unfold State.leaveNow
  rw [hx]
  cases hm : moveWaits s x with
  | true => simp [hm]
  | false => simp [hp, hm]

/-- The state that a descriptor has left, with its slot and its checkpoint free. -/
def State.vacated (s : State) (clu idx : Nat) : State :=
  { s with ckpt := s.ckpt.filter (fun k => !(k.clu == clu && k.idx == idx)), slots := otherSlots s.slots clu idx }

theorem State.moveAway_lost {s : State} {clu idx : Nat} {x : Slot} (hx : slotAt s clu idx = some x) (hg : ckptGone s x = true) :
    s.moveAway clu idx = s.endLost x 0x43 := by
  unfold State.moveAway
  rw [hx]
  exact if_pos hg

/-- A descriptor whose target is another cluster waits there for a place (08 R261, R264). -/
theorem State.moveAway_adopted {s : State} {clu idx m : Nat} {x : Slot} (hidx : idx < 32) (hx : slotAt s clu idx = some x)
    (hg : ckptGone s x = false) (ht : moveTarget (s.vacated clu idx) clu idx = some (m, none)) :
    s.moveAway clu idx = { ((s.vacated clu idx).bump .cluReplayStat clu 16 8 1) with moving := s.moving ++ [(m, x.leave)] } := by
  unfold State.moveAway
  rw [hx]
  dsimp only
  rw [hg, if_neg Bool.false_ne_true, if_pos hidx]
  change (match moveTarget (s.vacated clu idx) clu idx with | none => _ | some (m, some k) => _ | some (m, none) => _) = _
  rw [ht]
  rfl

/-! A descriptor that waited is placed (08 R264). -/

theorem descriptorPlaced_takes {s : State} {clu k : Nat} {y : Slot} {ks : List Nat} (hclu : clu < 16) (hrun : running s = true)
    (hm : s.moving.find? (fun m => m.1 == clu && !m.2.squashed) = some (clu, y)) (hk : freeChannels s clu = k :: ks) :
    exec (.descriptorPlaced clu) s = .next (({ s with moving := s.moving.erase (clu, y) } : State).placeMoved y clu k true) := by
  show execDescriptorPlaced clu s = _
  rw [execDescriptorPlaced, if_neg (by omega), hm]
  dsimp only
  rw [hk]
  exact if_pos hrun

theorem State.pulses_frame {α : Type} (src hop : Nat) (xs : List α) (s : State) :
    ∃ p, xs.foldl (fun t _ => t.pulse src hop) s = { s with heldPulses := p } := by
  induction xs generalizing s with
  | nil => exact ⟨_, rfl⟩
  | cons x xs ih =>
    obtain ⟨p, e⟩ := ih (s.pulse src hop)
    exact ⟨p, e⟩

theorem State.addIs3_frame (s : State) (w k : Nat) : ∃ m, s.addIs3 w k = { s with is3 := m } := by
  unfold State.addIs3
  split
  · exact ⟨_, rfl⟩
  · exact ⟨_, rfl⟩

theorem State.countCtx_frame (s : State) (q : Nat) (f : QCtx → QCtx) : ∃ a w, s.countCtx q f = { s with arbs := a, ways := w } := by
  unfold State.countCtx
  split
  · obtain ⟨a, ea⟩ := State.bankAccess_frame s q 6
    obtain ⟨w, ew⟩ := State.updCtx_frame (s.bankAccess q 6) q f
    exact ⟨a, w, by rw [ew, ea]⟩
  · exact ⟨_, _, rfl⟩

/-- Counted replays stand in the slot, in registers, counters and pulses (08 R269). -/
theorem State.countReplays_frame {s : State} {clu idx : Nat} {x : Slot} (hx : slotAt s clu idx = some x) (n : Nat) :
    ∃ m i a w p, s.countReplays clu idx n = { (s.updSlot clu idx (fun y => { y with replays := y.replays + n })) with
      regs := m, is3 := i, arbs := a, ways := w, heldPulses := p } := by
  unfold State.countReplays
  rw [hx]
  dsimp only
  generalize s.updSlot clu idx (fun y => { y with replays := y.replays + n }) = t
  obtain ⟨i, e1⟩ := State.addIs3_frame (t.bump .cluReplayStat clu 0 16 n) (instCtr x.iid + 6) n
  obtain ⟨a, w, e2⟩ := State.countCtx_frame ((t.bump .cluReplayStat clu 0 16 n).addIs3 (instCtr x.iid + 6) n) x.qid
    (fun c => { c with replays := c.replays + BitVec.ofNat 16 n })
  obtain ⟨p, e3⟩ := State.pulses_frame (8 * clu) 0 (List.range n) _
  rw [e3, e2, e1]
  exact ⟨_, _, _, _, _, rfl⟩

/-- A moved descriptor on its new slot. -/
def Slot.movedTo (y : Slot) (clu idx : Nat) : Slot := { y with clu := clu, idx := idx }

/-- The loaves of a moved descriptor whose attempts begin again. -/
def replayed (y : Slot) : Nat := (y.loaves.filter (fun l => !l.released)).length

/-- The state in which a moved descriptor has its slot, with its store on the bridge. -/
def State.arrives (s : State) (x : Slot) : State :=
  { s with slots := x :: s.slots,
           bridge := if storeLines x = 0 then s.bridge else s.bridge ++ [(x.clu, x.idx, storeLines x)] }

/-- A moved descriptor stands on its new slot, which is a channel, with its replays counted and its checkpoint stored. -/
theorem State.placeMoved_spec (s : State) (y : Slot) {clu idx : Nat} (hidx : idx < 32) :
    ∃ (u : State) (b b' : Bool) (k : Ckpt), s.placeMoved y clu idx true = u.settle clu idx ∧
      slotAt u clu idx = some { y.movedTo clu idx with replays := y.replays + replayed y, copyBad := b, stateBad := b' } ∧
      u.ckpt.head? = some k ∧ k.bare = (ckptOf (y.movedTo clu idx)).bare ∧ u.moving = s.moving := by
  obtain ⟨t, ht⟩ : ∃ t, t = s.arrives (y.movedTo clu idx) := ⟨_, rfl⟩
  obtain ⟨d, ed⟩ := State.noteFull_frame t clu
  have hx : slotAt (t.noteFull clu) clu idx = some (y.movedTo clu idx) := by
    rw [ed, ht]
    simp [slotAt, Slot.movedTo, State.arrives]
  obtain ⟨m, i, a, w, p, er⟩ := State.countReplays_frame hx (replayed y)
  have hr : slotAt ((t.noteFull clu).countReplays clu idx (replayed y)) clu idx =
      some { y.movedTo clu idx with replays := y.replays + replayed y } := by
    rw [er]
    exact slotAt_changed hx fun _ => ⟨rfl, rfl⟩
  obtain ⟨⟨b, b', hb⟩, ⟨k, hk, hbare⟩, _, _, _, ep⟩ := State.putCkpt_spec (k := ckptOf (y.movedTo clu idx)) hr
  refine ⟨_, b, b', k, ?_, hb, hk, hbare, ?_⟩
  · unfold State.placeMoved
    dsimp only
    rw [if_pos hidx, ht]
    simp only [Bool.or_true, if_true, Bool.not_true, Bool.or_false, decide_eq_true_eq]
    rfl
  · rw [ep, er, ed, ht]
    rfl

/-- Settles O31: what each row does, the spec of each state that it leaves (`State.ended_spec`, `State.slotStops_spec`,
`State.placeMoved_spec`), and the branches of `State.moveAway`. -/
theorem descriptorsEndOrMove : Obligations.DescriptorsEndOrMove := by
  refine ⟨?_, ?_, ?_, ?_, fun _ _ _ _ => State.moveAway_lost, ?_, ?_, ?_, ?_⟩
  · intro s clu slot x read detail addr hclu hslot hrun hx hf hw
    exact ⟨_, fabMaxExceeded_ends hclu hslot hrun hx hf, State.fld_bump s _ _ _ _ _ hw (by decide), rfl⟩
  · intro s clu slot x detail addr hclu hslot hrun hx hr
    exact releaseLimit_ends hclu hslot hrun hx hr
  · intro s clu idx status detail w5 bad x hx hp
    obtain ⟨rfl, rfl⟩ := slotAt_place hx
    obtain ⟨gone, hy, hq⟩ := State.ended_spec hx status detail w5 bad
    refine ⟨_, _, State.endWith_eq hx hp status detail w5 bad, hy, rfl, rfl, rfl, rfl, rfl, rfl, rfl, rfl, rfl, fun h7 h9 => ?_, fun h7 => ?_⟩
    · rw [hq, State.logContained, if_pos ⟨h7, h9⟩]
    · rw [hq, State.logContained, if_neg (by omega)]
  · intro s clu slot x code hclu hslot hrun hx hr hw
    obtain ⟨rfl, rfl⟩ := slotAt_place hx
    obtain ⟨hy, hret, hother⟩ := State.slotStops_spec hx hw hslot code
    refine ⟨_, _, ?_, hy, rfl, rfl, rfl, hret, hother⟩
    rw [slotRetired_stops hclu hslot hrun hx hr, State.leaveNow_leaving hy rfl]
  · intro s clu idx x m hidx hx hg ht
    exact ⟨_, State.moveAway_adopted hidx hx hg ht, rfl, slotAt_otherSlots rfl, rfl⟩
  · intro s clu y k ks hclu hrun hm hk
    exact descriptorPlaced_takes hclu hrun hm hk
  · intro s y clu idx hidx
    obtain ⟨u, b, b', k, e, hx, hk, hbare, hm⟩ := State.placeMoved_spec s y hidx
    exact ⟨u, _, k, e, hx, rfl, hk, hbare, hm⟩
  · intro s hrun
    exact ⟨_, if_pos hrun, rfl⟩

end Sys2Proof.Machine
end

section
/-! PROOFS. Notices, their acknowledgements, and records given up (03 R129 to R132; 11 R362, R562). -/

namespace Sys2Proof.Machine

/-! A notice trigger, branch by branch (03 R131, R132). -/

section
variable {s : State} {qid : Nat} {c : QCtx}

/-- The context of a queue whose notice is asked for. -/
def QCtx.noticed (c : QCtx) : QCtx :=
  { c with noticeBusy := 1, noticeKept := 0, nseq := BitVec.ofNat 8 (nseqNext c.nseq.toNat), pendingCnt := 0 }

/-- The write of a notice, as its trigger forms it. -/
def noticeHeld (s : State) (qid : Nat) (c : QCtx) : Held :=
  { mkHeld (.notice qid) qid true c.noticeAddr.toNat 8
      { sharedAttrs s c.iid.toNat with tphEn := decide (c.tphEn = 1), tphSt := c.tphSt, tphPh := c.tphPh }
      (leBytes 8 (noticeWord (noticeCi s qid c) c (nseqNext c.nseq.toNat)).toNat) c.iid.toNat with
    form := true }

theorem State.noticeTrigger_noAddr (hc : ctxOf s qid = some c) (h0 : c.noticeAddr = 0) : s.noticeTrigger qid = s := by
  simp [State.noticeTrigger, hc, h0]

theorem State.noticeTrigger_waits (hw : noticeWaits s qid = true) : s.noticeTrigger qid = s := by
  unfold State.noticeTrigger
  cases ctxOf s qid with
  | none => rfl
  | some c => simp [hw]

theorem State.noticeTrigger_inFlight (hc : ctxOf s qid = some c) (h0 : c.noticeAddr ≠ 0) (hb : c.noticeBusy = 1)
    (hw : noticeWaits s qid = false) : s.noticeTrigger qid = s.setCtx qid { c with noticeKept := 1 } := by
  unfold State.noticeTrigger
  rw [hc]
  dsimp only
  rw [if_neg (by simpa [hw] using h0), if_pos hb]

theorem State.noticeTrigger_asks (hc : ctxOf s qid = some c) (h0 : c.noticeAddr ≠ 0) (hb : c.noticeBusy = 0)
    (hw : noticeWaits s qid = false) :
    s.noticeTrigger qid = ((s.setCtx qid c.noticed).bankAccess qid 3).service (noticeHeld s qid c) := by
  unfold State.noticeTrigger
  rw [hc]
  dsimp only
  rw [if_neg (by simpa [hw] using h0), if_neg (by simp [hb])]
  rfl

end

/-! The notice that is asked for. -/

/-- The sequence of the next notice is a byte other than 0: one more, but for the last (03 R130). -/
theorem nseqNext_byte (n : BitVec 8) : (BitVec.ofNat 8 (nseqNext n.toNat)).toNat = nseqNext n.toNat ∧
    BitVec.ofNat 8 (nseqNext n.toNat) ≠ 0 ∧ (n ≠ 0xFF → BitVec.ofNat 8 (nseqNext n.toNat) = n + 1) := by
  revert n
  decide

/-- A waiting notice is no ring record. -/
theorem unackedRing_notice (s : State) {h : Held} {q : Nat} (hp : h.purpose = .notice q) (qid : Nat) :
    unackedRing { s with held := s.held ++ [h] } qid = unackedRing s qid := by
  simp [unackedRing, hp]

/-- The word of a notice is the same in the context that its trigger leaves: Q, STATE and ERR_INDEX stand there. -/
theorem noticeWord_noticed {s t : State} {qid : Nat} (hu : unackedRing t qid = unackedRing s qid) (c : QCtx) (n : Nat) :
    noticeWord (noticeCi t qid c.noticed) c.noticed n = noticeWord (noticeCi s qid c) c n := by
  unfold noticeWord noticeCi
  rw [hu]
  rfl

/-- A waiting notice is formed with the CI, the state and the sequence of its queue's context. -/
theorem bytesAtIssue_notice {s : State} {h : Held} {qid : Nat} {c : QCtx} (hf : h.form = true) (hp : h.purpose = .notice qid)
    (hc : ctxOf s qid = some c) : bytesAtIssue s h = leBytes 8 (noticeWord (noticeCi s qid c) c c.nseq.toNat).toNat := by
  simp [bytesAtIssue, hf, hp, hc]

/-- Issued at once, a notice carries what its trigger formed. -/
theorem bytesAtIssue_noticeHeld {s t : State} {qid : Nat} {c : QCtx} (ha : t.acc = s.acc) (hh : t.held = s.held)
    (hc : ctxOf t qid = some c.noticed) :
    bytesAtIssue { t with held := t.held ++ [noticeHeld s qid c] } (noticeHeld s qid c) = (noticeHeld s qid c).data := by
  have hu : unackedRing { t with held := t.held ++ [noticeHeld s qid c] } qid = unackedRing s qid :=
    (unackedRing_notice t (q := qid) rfl qid).trans (by unfold unackedRing; rw [ha, hh])
  have hd : ctxOf { t with held := t.held ++ [noticeHeld s qid c] } qid = some c.noticed := hc
  rw [bytesAtIssue_notice rfl rfl hd, noticeWord_noticed hu, QCtx.noticed, (nseqNext_byte c.nseq).1]
  rfl

/-- A trigger with no notice in flight asks for one, with the next sequence, and PENDING reads 0. -/
theorem State.noticeTrigger_spec {s : State} {qid : Nat} {c : QCtx} (hc : ctxOf s qid = some c) (hf : s.fatal = false)
    (h0 : c.noticeAddr ≠ 0) (hb : c.noticeBusy = 0) (hw : noticeWaits s qid = false) :
    ctxOf (s.noticeTrigger qid) qid = some c.noticed ∧
      Offered (s.noticeTrigger qid) (.notice qid) true c.noticeAddr.toNat 8 (noticeHeld s qid c).data ∧
      PortsOnly { s with ways := (s.noticeTrigger qid).ways } (s.noticeTrigger qid) := by
  rw [State.noticeTrigger_asks hc h0 hb hw]
  obtain ⟨x, hx⟩ := State.bankAccess_frame (s.setCtx qid c.noticed) qid 3
  have hd : ctxOf ((s.setCtx qid c.noticed).bankAccess qid 3) qid = some c.noticed := by
    rw [hx]
    exact ctxOf_setCtx s qid c.noticed (by rw [hc]; rfl)
  have ha : ((s.setCtx qid c.noticed).bankAccess qid 3).acc = s.acc := by rw [hx]; rfl
  have hh : ((s.setCtx qid c.noticed).bankAccess qid 3).held = s.held := by rw [hx]; rfl
  have hft : ((s.setCtx qid c.noticed).bankAccess qid 3).fatal = false := by rw [hx]; exact hf
  have hp := (PortsOnly.bankAccess (s.setCtx qid c.noticed) qid 3).trans (PortsOnly.service _ (noticeHeld s qid c))
  have ho := Offered.service _ (noticeHeld s qid c) hft (bytesAtIssue_noticeHeld ha hh hd)
  obtain ⟨_, _, _, _, _, _, e⟩ := hp
  have hways : (((s.setCtx qid c.noticed).bankAccess qid 3).service (noticeHeld s qid c)).ways = (s.setCtx qid c.noticed).ways := by
    rw [e]
  refine ⟨?_, ho, ?_⟩
  · exact (ctxOf_of_ways hways qid).trans (ctxOf_setCtx s qid c.noticed (by rw [hc]; rfl))
  · rw [hways, e]
    exact ⟨_, _, _, _, _, _, rfl⟩

/-! Acknowledgements, branch by branch (03 R131, R132). -/

section
variable {s : State} {qid : Nat} {c : QCtx}

theorem State.recordAcked_waits (hw : noticeWaits s qid = true) (ring nn : Bool) : s.recordAcked qid ring nn = s := by
  unfold State.recordAcked
  cases ctxOf s qid with
  | none => rfl
  | some c => simp [hw]

/-- A ring record below the threshold counts in PENDING, and triggers no notice. -/
theorem State.recordAcked_counts (hc : ctxOf s qid = some c) (h0 : c.noticeAddr ≠ 0) (hw : noticeWaits s qid = false)
    (ht : c.pendingCnt.toNat + 1 < c.noticeThresh.toNat) :
    s.recordAcked qid true false = s.setCtx qid { c with
      pendingCnt := c.pendingCnt + 1, ntcDue := if c.pendingCnt = 0 then noticeDue s c.noticeDelay.toNat else c.ntcDue } := by
  have hmin : min 0xFFFF (c.pendingCnt.toNat + 1) = c.pendingCnt.toNat + 1 := by
    have := c.noticeThresh.isLt
    omega
  have hp : BitVec.ofNat 16 (c.pendingCnt.toNat + 1) = c.pendingCnt + 1 := by
    apply BitVec.eq_of_toNat_eq
    simp
  unfold State.recordAcked
  rw [hc]
  dsimp only
  rw [if_neg h0, if_neg (by simp [hw]), if_neg (by simp), hmin, hp, if_neg (by simp; omega)]

theorem State.noticeAcked_alone (hc : ctxOf s qid = some c) (hk : c.noticeKept = 0) :
    s.noticeAcked qid = s.setCtx qid { c with noticeBusy := 0 } := by
  simp [State.noticeAcked, hc, hk]

theorem State.noticeAcked_kept (hc : ctxOf s qid = some c) (hk : c.noticeKept = 1) :
    s.noticeAcked qid = (s.setCtx qid { c with noticeBusy := 0 }).noticeTrigger qid := by
  simp [State.noticeAcked, hc, hk]

theorem State.acksAt_resident (hq : s.queues.contains qid = true) (hc : ctxOf s qid = some c) (i : W32) (p : Nat) (nn : Bool) :
    s.recordAckAt qid i p nn = (s.lookup qid 2).recordAcked qid (decide (p = 0)) nn ∧
      s.noticeAckAt qid = (s.lookup qid 3).noticeAcked qid := by
  unfold State.recordAckAt State.noticeAckAt
  rw [hq, hc]
  exact ⟨rfl, rfl⟩

theorem noticeDelayExpiry_triggers (hq : qid < 2 ^ 22) (hc : ctxOf s qid = some c) (hr : running s = true) (hp : c.pendingCnt ≠ 0)
    (hd : c.noticeDelay ≠ 0) (hl : noticeLate s c = true) : exec (.noticeDelayExpiry qid) s = .next (s.noticeTrigger qid) := by
  show execNoticeDelayExpiry qid s = _
  unfold execNoticeDelayExpiry
  rw [if_neg (by omega), hc]
  exact if_pos (by rw [hr, hl, decide_eq_true hp, decide_eq_true hd]; rfl)

end

/-! The answer to a record's or a notice's write (11 R362, R562). -/

/-- The state in which a write is answered: its page is logged, and its ID is free (10 R336). -/
def State.writeAnswered (s : State) (a : Access) : State := (s.logDirty a.iid a.addr).dropAccess a.aid

/-- The write is no longer outstanding; beyond the ports only the dirty log changes. -/
theorem State.writeAnswered_spec (s : State) (a : Access) : Released s (s.writeAnswered a) a.aid ∧
    PortsOnly { s with dirtyQ := (s.writeAnswered a).dirtyQ, dirtyFilter := (s.writeAnswered a).dirtyFilter, is0 := (s.writeAnswered a).is0,
                       regs := (s.writeAnswered a).regs, heldPulses := (s.writeAnswered a).heldPulses } (s.writeAnswered a) ∧
    (s.writeAnswered a).fatal = s.fatal := by
  obtain ⟨i, r, h, q, f, e⟩ := State.logDirty_frame s a.iid a.addr
  unfold State.writeAnswered
  rw [e]
  exact ⟨⟨[], by simp [State.dropAccess]⟩, ⟨_, _, _, _, _, _, rfl⟩, rfl⟩

section
variable {s : State} {a : Access} {code : BitVec 6}

theorem State.recordAnswer_ok (h0 : codeSeen code = 0) :
    s.recordAnswer a code = ((s.writeAnswered a).writeAcked a.purpose).drainHeld := by
  unfold State.recordAnswer
  dsimp only
  rw [if_pos h0]
  rfl

theorem State.recordAnswer_retries (h0 : codeSeen code ≠ 0) (hr : codeRetryable (codeSeen code) = true) (hx : a.expiries + 1 < 16) :
    s.recordAnswer a code = ((s.writeAnswered a).serviceAgain { a with toSend := 0 } (recordQueue a.purpose)).drainHeld := by
  unfold State.recordAnswer State.recordAgain
  dsimp only
  rw [if_neg h0, if_pos hr, if_neg (by omega)]
  rfl

theorem completionRecordAck_answers {aid q p : Nat} {i : W32} {nn ab : Bool} (ha : s.access aid = some a)
    (hp : a.purpose = .record q i p nn ab) (hf : s.fatal = false) (ht : a.toSend = 0) :
    exec (.completionRecordAck aid code) s = .next (s.recordAnswer a code) := by
  show execCompletionRecordAck aid code s = _
  simp [execCompletionRecordAck, ha, hp, hf, ht]

theorem noticeAck_answers {aid q : Nat} (ha : s.access aid = some a) (hp : a.purpose = .notice q) (hf : s.fatal = false) :
    exec (.noticeAck aid code) s = .next (s.recordAnswer a code) := by
  show execNoticeAck aid code s = _
  simp [execNoticeAck, ha, hp, hf]

/-- A write that draws a retryable error is asked for again as it was. -/
theorem serviceAgain_drained (k : Nat) (hf : s.fatal = false) :
    Offered (s.serviceAgain { a with toSend := 0 } k).drainHeld a.purpose a.write a.addr a.len a.data ∧
      PortsOnly s (s.serviceAgain { a with toSend := 0 } k).drainHeld :=
  ⟨((Asked.serviceAgain { a with toSend := 0 } k hf).drainHeld ((State.serviceAgain_fatal s _ k).trans hf)).offered,
    (PortsOnly.serviceAgain s _ k).trans (PortsOnly.drainHeld _)⟩

/-- A record or notice that is given up is logged as DEVICE 0x46, and counts as acknowledged. -/
theorem State.giveUp_logs (s : State) {a : Access} (hp : isRecordWrite a.purpose = true) (code : BitVec 6) :
    ∃ e, s.giveUp a code = (s.logErr e).writeAcked a.purpose ∧ e.code = 0x46 ∧ e.cls = 3 := by
  unfold State.giveUp
  cases h : a.purpose with
  | record q i p nn ab => exact ⟨_, rfl, rfl, rfl⟩
  | notice q => exact ⟨_, rfl, rfl, rfl⟩
  | _ => simp [h, isRecordWrite] at hp

theorem recordGiveUp_refused {aid : Nat} (ha : s.access aid = some a) (hp : isRecordWrite a.purpose = true) (hf : s.fatal = false)
    (h0 : codeSeen code ≠ 0) (hr : codeRetryable (codeSeen code) = false) :
    exec (.recordGiveUp aid code) s = .next (((s.writeAnswered a).giveUp a (codeSeen code)).drainHeld) := by
  obtain rfl := access_aid ha
  show execRecordGiveUp a.aid code s = _
  rw [execRecordGiveUp, ha]
  dsimp only
  rw [if_neg (by simp [hf, hp]), if_pos (by simpa [hr] using h0)]
  rfl

end

/-- Settles O36: a trigger's notice (`State.noticeTrigger_spec`), the branches of an acknowledgement, and what follows the answer to a
write (`State.writeAnswered_spec`). -/
theorem notices : Obligations.Notices := by
  refine ⟨?_, fun _ _ _ hc h0 hb hw => State.noticeTrigger_inFlight hc h0 hb hw, fun _ _ _ hc h0 => State.noticeTrigger_noAddr hc h0,
    fun _ _ ring nn hw => ⟨State.noticeTrigger_waits hw, State.recordAcked_waits hw ring nn⟩,
    fun _ _ _ hq hc hr hp hd hl => noticeDelayExpiry_triggers hq hc hr hp hd hl, fun _ _ _ hc hk => State.noticeAcked_alone hc hk,
    fun _ _ _ hc hk => State.noticeAcked_kept hc hk, ?_, ?_, ?_, fun _ _ i p nn _ hq hc => State.acksAt_resident hq hc i p nn, ?_⟩
  · intro s qid c hc hf h0 hb hw
    obtain ⟨hd, ho, hp⟩ := State.noticeTrigger_spec hc hf h0 hb hw
    obtain ⟨hn, hne, hnext⟩ := nseqNext_byte c.nseq
    refine ⟨_, c.noticed, rfl, hd, rfl, hne, hnext, ?_, hp⟩
    show Offered _ _ _ _ _ (leBytes 8 (noticeWord _ c (BitVec.ofNat 8 (nseqNext c.nseq.toNat)).toNat).toNat)
    rw [hn]
    exact ho
  · intro s qid c nn hc h0 ht hnn hw
    subst hnn
    rw [State.recordAcked_counts hc h0 hw ht]
    exact ⟨_, _, rfl, ctxOf_setCtx s qid _ (by rw [hc]; rfl), rfl, rfl, rfl⟩
  · intro s aid a code q i p nn ab ha hp hf ht
    obtain ⟨hrel, hports, hfatal⟩ := State.writeAnswered_spec s a
    refine ⟨s.writeAnswered a, hrel, hports, fun h0 => ?_, fun h0 hr hx => ?_⟩
    · rw [completionRecordAck_answers ha hp hf ht, State.recordAnswer_ok h0, hp]
      rfl
    · exact ⟨_, (completionRecordAck_answers ha hp hf ht).trans (congrArg _ (State.recordAnswer_retries h0 hr hx)),
        serviceAgain_drained _ (hfatal.trans hf)⟩
  · intro s aid a code q ha hp hf h0
    obtain ⟨hrel, hports, _⟩ := State.writeAnswered_spec s a
    refine ⟨s.writeAnswered a, hrel, ?_, hports⟩
    rw [noticeAck_answers ha hp hf, State.recordAnswer_ok h0, hp]
    rfl
  · intro s aid a code ha hp hf h0 hr
    obtain ⟨hrel, hports, _⟩ := State.writeAnswered_spec s a
    obtain ⟨e, he, hcode, hcls⟩ := State.giveUp_logs (s.writeAnswered a) hp (codeSeen code)
    obtain ⟨m, l, hv⟩ := State.logErr_frame (s.writeAnswered a) e
    refine ⟨s.writeAnswered a, (s.writeAnswered a).logErr e, ?_, hrel, ?_, hports, fun hroom => ?_⟩
    · rw [recordGiveUp_refused ha hp hf h0 hr, he]
    · rw [hv]
    · rw [State.logErr_room _ e hroom (by omega)]
      exact ⟨_, rfl, hcode, hcls, rfl⟩

end Sys2Proof.Machine
end

section
/-! PROOFS. Read requests (04 R146, R148; 05 R162 to R168, R182). -/

namespace Sys2Proof.Machine

/-! A request that has won its port (05 R164, 18 R517). -/

/-- The grant of a port arbiter changes arbiters alone. -/
theorem State.portGrant_frame {s g : State} {p w : Nat} {losers : List Nat} (h : s.portGrant p w losers = some g) :
    ∃ r, g = { s with arbs := r } := by
  obtain ⟨x, -, hx⟩ := Option.map_eq_some_iff.1 h
  exact ⟨_, hx.symm⟩

/-- A reservation touches the slot's grants and waits only. -/
theorem reserve_frame {s : State} {x y : Slot} {k : ResKind} {n : Nat} {poolOnly : Bool} {o : Option (Nat × Nat)}
    (h : reserve s x k n poolOnly = (y, o)) : ∃ g w, y = { x with grant := g, poolWait := w } := by
  obtain rfl : (reserve s x k n poolOnly).1 = y := congrArg Prod.fst h
  unfold reserve
  extract_lets part need g took
  split
  · exact ⟨_, _, rfl⟩
  · split
    · exact ⟨_, _, rfl⟩
    · split
      · exact ⟨_, _, rfl⟩
      · dsimp only
        split
        · exact ⟨_, _, rfl⟩
        · exact ⟨_, _, rfl⟩

/-- Access a is request h of slot x as state s issues it: it carries what h asks for, under the next handle, and its ceiling starts. -/
structure IssuedAs (s : State) (x : Slot) (h : Held) (spans : List (Nat × Nat × Nat)) (a : Access) : Prop where
  aid : a.aid = s.nextAid
  port : a.port = x.clu
  write : a.write = h.write
  purpose : a.purpose = h.purpose
  addr : a.addr = h.addr
  len : a.len = h.len
  attrs : a.attrs = h.attrs
  spans : a.spans = spans
  due : a.due = s.nomNs + ceilingOf s x.clu h.write h.purpose

theorem State.issueData_issues {s g : State} {x : Slot} {h : Held} {losers : List Nat}
    (hg : s.portGrant x.clu (if h.write then 1 else 0) losers = some g) (spans : List (Nat × Nat × Nat)) :
    ∃ t a r, s.issueData x h spans losers = some t ∧ IssuedAs s x h spans a ∧
      t = { s with arbs := r, acc := s.acc ++ [a], nextAid := s.nextAid + 1, credits := takeCredit s x.clu h.write 0 } := by
  obtain ⟨r, rfl⟩ := State.portGrant_frame hg
  refine ⟨({ s with arbs := r } : State).issueAt x.clu h x.idx (decide (x.cls = 0)) spans 0 (if h.write then linesTouched h.addr h.len else 0),
    _, r, ?_, ?_, rfl⟩
  · rw [State.issueData, hg]
    rfl
  · exact ⟨rfl, rfl, rfl, rfl, rfl, rfl, rfl, rfl, rfl⟩

/-- State u is s once slot x has had its turn to read: read a is outstanding and has taken a credit, and z stands in the slot's place. -/
structure ReadServed (s u : State) (x z : Slot) (a : Access) : Prop where
  acc : u.acc = s.acc ++ [a]
  credits : creditsOf u x.clu = ((creditsOf s x.clu).1 - 1, (creditsOf s x.clu).2)
  slot : slotAt u x.clu x.idx = some z
  turns : u.turns = assocPut s.turns (3 * x.clu) x.idx
  others : ∀ c i, ¬(c = x.clu ∧ i = x.idx) → slotAt u c i = slotAt s c i
  ports : PortsOnly { s with slots := u.slots, regs := u.regs, turns := u.turns } u

/-- An issued read leaves its slot served once the slot is put in its place and its turn noted. -/
theorem ReadServed.of_issued {s : State} {x z : Slot} (a : Access) (r : List Arb) (hx : slotAt s x.clu x.idx = some x) (hc : z.clu = x.clu)
    (hi : z.idx = x.idx) :
    ReadServed s ((({ s with arbs := r, acc := s.acc ++ [a], nextAid := s.nextAid + 1, credits := takeCredit s x.clu false 0 } : State).updSlot
      x.clu x.idx (fun _ => z)).tookTurn (3 * x.clu) x.idx) x z a where
  acc := rfl
  credits := congrArg (Option.getD · (0, 0, 0)) (assocGet_assocPut _ _ _)
  slot := slotAt_updSlot_put hx hc hi
  turns := rfl
  others _ _ h := slotAt_updSlot_ne (s := s) (fun _ _ _ => ⟨hc, hi⟩) h
  ports := ⟨_, _, _, _, _, _, rfl⟩

/-! A read in its turn (05 R164, R165). -/

section
variable {s g : State} {x y : Slot} {k : ResKind} {h : Held} {losers : List Nat} {rows : Nat → List Lines} {f : Slot → Slot}
  {part pool : Nat}

theorem State.issueRead_passedBy (ht : hasTurn s (3 * x.clu) x (readable s) = false) (spans : List (Nat × Nat × Nat)) :
    s.issueRead x k h spans losers rows f = s := by
  rw [State.issueRead, ht, Bool.not_false, Bool.or_true, if_pos rfl]

/-- A read whose lines are reserved and whose port is won is issued, and its lines stand behind those of the slot; f marks it as taken. -/
theorem State.issueRead_serves (hx : slotAt s x.clu x.idx = some x) (hw : h.write = false) (hp : portReady s x false = true)
    (ht : hasTurn s (3 * x.clu) x (readable s) = true)
    (hr : reserve s x k (linesTouched h.addr h.len) (hasStore x.desc) = (y, some (part, pool)))
    (hg : s.portGrant x.clu 0 losers = some g) (hf : ∀ v, (f v).clu = v.clu ∧ (f v).idx = v.idx ∧ (f v).lines = v.lines)
    (spans : List (Nat × Nat × Nat)) :
    ∃ a z, IssuedAs s x h spans a ∧ z.lines = x.lines ++ rows part ∧ ReadServed s (s.issueRead x k h spans losers rows f) x z a := by
  obtain ⟨t, a, r, hissue, ha, rfl⟩ := State.issueData_issues (h := h) (by rw [hw]; exact hg) spans
  obtain ⟨gr, wt, rfl⟩ := reserve_frame hr
  obtain ⟨hc, hi, hl⟩ := hf { x with grant := gr, poolWait := wt, lines := x.lines ++ rows part }
  refine ⟨a, _, ha, hl, ?_⟩
  rw [State.issueRead, hp, ht, if_neg (by decide), hr]
  dsimp only
  rw [hissue, hw]
  exact ReadServed.of_issued a r hx hc hi

end

/-! The data read of a slot without a store (05 R162, R166). -/

section
variable {s : State} {x : Slot}

theorem reserveCapt_noStore (hs : hasStore x.desc = false) (l : Loaf) : reserveCapt s x l = (x, true) := by
  have hn : captLines x.desc l = 0 := by rw [captLines, hs, Bool.not_false, if_pos rfl]
  rw [reserveCapt, hn, if_pos (Nat.zero_le _)]

/-- Prism's next request is the read wanted, where no entry of its own table must be read again first (04 R151). -/
theorem readWanted_prism {l : Loaf} {b stop after : Nat} {spans : List (Nat × Nat × Nat)} (hk : dKind x.desc ≠ .gather)
    (hwork : readWork s x x.loaves = some (l, b, stop))
    (hreq : nextRequest (srcSide x.desc) x.entries (transferLen x.desc) b stop = some (spans, after))
    (hfresh : tableOfDest x.desc = true ∨ entriesFresh x b after = true) :
    readWanted s x = some (l.num, spans, (spanRange spans).1, (spanRange spans).2, after) := by
  rw [readWanted, if_neg hk, hwork]
  dsimp only
  rw [hreq]
  dsimp only
  rw [if_neg (by simpa [Classical.or_iff_not_imp_left] using hfresh)]

theorem State.dataRead_wanted {num addr len after : Nat} {spans : List (Nat × Nat × Nat)} (hk : dKind x.desc ≠ .gather)
    (hs : hasStore x.desc = false) (hx : s.updSlot x.clu x.idx (fun _ => x) = s)
    (hw : readWanted s x = some (num, spans, addr, len, after)) (losers : List Nat) :
    s.dataRead x losers = s.issueRead x .data (dataHeld x (.data x.clu x.idx num) false addr len (dataAttrs x false)) spans losers
      (readLines num addr len spans) (fun z => z.updLoaf num (fun m => { m with readB := max m.readB after })) := by
  rw [State.dataRead, hw]
  dsimp only
  rw [reserveCapt_noStore hs]
  dsimp only
  rw [hx]
  simp only [if_neg hk]

theorem State.dataRead_passedBy (hk : dKind x.desc ≠ .gather) (hs : hasStore x.desc = false) (hx : s.updSlot x.clu x.idx (fun _ => x) = s)
    (ht : hasTurn s (3 * x.clu) x (readable s) = false) (losers : List Nat) : s.dataRead x losers = s := by
  cases hw : readWanted s x with
  | none => rw [State.dataRead, hw]
  | some w => rw [State.dataRead_wanted hk hs hx hw, State.issueRead_passedBy ht]

/-! The table read of a slot (04 R146, R148). -/

/-- The request of a table read: n entries from entry k on, with the attributes of a read that may be repeated (05 R182). -/
def tableHeld (x : Slot) (k n : Nat) : Held :=
  dataHeld x (.table x.clu x.idx k n) false (tableBase x.desc + k * entryWidth x.desc) (n * entryWidth x.desc)
    { x.attrs with ns := false, tphEn := false, tphSt := 0, tphPh := 0, cls := x.cls, idem := true }

theorem State.tableRead_next {k n : Nat} (h0 : x.status = 0) (hb : x.nextBackoff = none) (hn : tableNext s x = some (k, n))
    (losers : List Nat) :
    s.tableRead x losers = s.issueRead x .table (tableHeld x k n) [] losers
      (tableLines k (linesTouched (tableHeld x k n).addr (tableHeld x k n).len)) id := by
  have hw : tableWanted s x = some (k, n, (tableHeld x k n).addr, (tableHeld x k n).len) := by
    rw [tableWanted, h0, hb, hn]
    rfl
  rw [State.tableRead, hw]
  rfl

theorem State.tableRead_passedBy (ht : hasTurn s (3 * x.clu) x (readable s) = false) (losers : List Nat) : s.tableRead x losers = s := by
  unfold State.tableRead
  split
  · rfl
  · exact State.issueRead_passedBy ht _

/-! READ_REQUEST_ISSUE of a slot that may issue. -/

theorem readCut_of_readWork {w : Loaf × Nat × Nat} (h : readWork s x x.loaves = some w) : readCut s x = x := by
  rw [readCut, h]
  rfl

variable (hc : x.clu < 16) (hi : x.idx < 34) (hx : slotAt s x.clu x.idx = some x) (hf : stateFault x = false) (hm : mayIssue s x = true)
include hc hi hx hf hm

theorem readRequestIssue_table (losers : List Nat) :
    exec (.readRequestIssue x.clu x.idx true losers) s = .next (s.tableRead x losers) := by
  have hunit : (decide (16 ≤ x.clu) || decide (34 ≤ x.idx)) = false := by simp [hc, hi]
  show execReadRequestIssue _ _ _ _ _ = _
  simp [execReadRequestIssue, hunit, hx, hf, hm]

theorem readRequestIssue_data (hk : dKind x.desc ≠ .gather) (hcut : readCut s x = x) (hput : s.updSlot x.clu x.idx (fun _ => x) = s)
    (losers : List Nat) :
    exec (.readRequestIssue x.clu x.idx false losers) s = .next (((s.dataRead x losers).walkFault x.clu x.idx).settle x.clu x.idx) := by
  have hunit : (decide (16 ≤ x.clu) || decide (34 ≤ x.idx)) = false := by simp [hc, hi]
  show execReadRequestIssue _ _ _ _ _ = _
  simp [execReadRequestIssue, hunit, hx, hf, hm, hk, hcut, hput]

end

/-! The buffer lines of a read (05 R165, R168). -/

theorem readLines_length (num addr len : Nat) (spans : List (Nat × Nat × Nat)) (part : Nat) :
    (readLines num addr len spans part).length = linesTouched addr len := by
  rw [readLines, List.length_map, List.length_range]

theorem readLines_partition {num addr len part : Nat} {spans : List (Nat × Nat × Nat)} {r : Lines}
    (hr : r ∈ (readLines num addr len spans part).take part) : r.part = 1 ∧ r.pool = 0 := by
  rw [readLines, ← List.map_take, List.take_range] at hr
  obtain ⟨i, hi, rfl⟩ := List.mem_map.1 hr
  have hlt : i < part := by
    rw [List.mem_range] at hi
    omega
  exact ⟨if_pos hlt, if_pos hlt⟩

theorem readLines_pool {num addr len part : Nat} {spans : List (Nat × Nat × Nat)} {r : Lines}
    (hr : r ∈ (readLines num addr len spans part).drop part) : r.part = 0 ∧ r.pool = 1 := by
  rw [readLines, ← List.map_drop, List.range_eq_range', List.drop_range'] at hr
  obtain ⟨i, hi, rfl⟩ := List.mem_map.1 hr
  have hge : ¬ i < part := by
    rw [List.mem_range'_1] at hi
    omega
  exact ⟨if_neg hge, if_neg hge⟩

/-- The least of the first bounds and the greatest of the last, both taken from one position, lie on its two sides. -/
theorem foldl_min_le_foldl_max (vs : List (Nat × Nat)) (m : Nat) :
    vs.foldl (fun m v => min m v.1) m ≤ vs.foldl (fun m v => max m v.2) m := by
  have hmin : vs.foldl (fun m v => min m v.1) m ≤ m :=
    List.foldlRecOn (motive := (· ≤ m)) vs _ le_rfl fun b h v _ => (min_le_left b v.1).trans h
  have hmax : m ≤ vs.foldl (fun m v => max m v.2) m :=
    List.foldlRecOn (motive := (m ≤ ·)) vs _ le_rfl fun b h v _ => h.trans (le_max_left b v.2)
  exact hmin.trans hmax

theorem readLines_positions {num addr len part : Nat} {spans : List (Nat × Nat × Nat)} {r : Lines}
    (hr : r ∈ readLines num addr len spans part) : r.loaf = num ∧ r.table = false ∧ r.firstB ≤ r.lastB := by
  obtain ⟨i, -, rfl⟩ := List.mem_map.1 hr
  exact ⟨rfl, rfl, foldl_min_le_foldl_max _ _⟩

/-- Settles O23: what a slot in its turn issues is in `State.issueRead_serves`, for the data read that `State.dataRead_wanted` names and the
table read of `State.tableRead_next`. -/
theorem readRequests : Obligations.ReadRequests := by
  refine ⟨?_, fun num addr len spans part => ⟨readLines_length .., fun _ => readLines_partition, fun _ => readLines_pool,
    fun _ => readLines_positions⟩, ?_, ?_⟩
  · intro s clu slot x l b stop spans after losers y part pool g hc hi hx hput hf hm hk hs hwork hreq hfresh hp ht hr hg
    obtain ⟨rfl, rfl⟩ := slotAt_place hx
    have hread := State.dataRead_wanted hk hs hput (readWanted_prism hk hwork hreq hfresh) losers
    obtain ⟨a, z, ha, hl, hu⟩ := State.issueRead_serves (k := .data) (rows := readLines l.num (spanRange spans).1 (spanRange spans).2 spans)
      (h := dataHeld x (.data x.clu x.idx l.num) false (spanRange spans).1 (spanRange spans).2 (dataAttrs x false))
      (f := fun v => v.updLoaf l.num (fun m => { m with readB := max m.readB after })) hx rfl hp ht (by rw [hs]; exact hr) hg
      (fun _ => ⟨rfl, rfl, rfl⟩) spans
    rw [← hread] at hu
    exact ⟨_, a, z, readRequestIssue_data hc hi hx hf hm hk (readCut_of_readWork hwork) hput losers, hu.acc, ha.aid, ha.port, ha.write,
      ha.purpose, ha.addr, ha.len, ha.spans, ha.attrs, ha.due, hu.credits, hu.slot, hl, hu.turns, hu.others, hu.ports⟩
  · intro s clu slot x losers hc hi hx hput hf hm hk hs hcut ht
    obtain ⟨rfl, rfl⟩ := slotAt_place hx
    rw [readRequestIssue_data hc hi hx hf hm hk hcut hput, State.dataRead_passedBy hk hs hput ht, readRequestIssue_table hc hi hx hf hm,
      State.tableRead_passedBy ht]
    exact ⟨rfl, rfl⟩
  · intro s clu slot x k n losers g y part pool hc hi hx hf hm h0 hb hp ht hn hr hg
    obtain ⟨rfl, rfl⟩ := slotAt_place hx
    obtain ⟨a, z, ha, hl, hu⟩ := State.issueRead_serves (h := tableHeld x k n) (f := id)
      (rows := tableLines k (linesTouched (tableHeld x k n).addr (tableHeld x k n).len)) hx rfl hp ht hr hg (fun _ => ⟨rfl, rfl, rfl⟩) []
    rw [← State.tableRead_next h0 hb hn] at hu
    exact ⟨_, a, z, readRequestIssue_table hc hi hx hf hm losers, hu.acc, ha.aid, ha.port, ha.write, ha.purpose, ha.addr, ha.len, hu.credits,
      hu.slot, hl, hu.turns, hu.others, hu.ports⟩

end Sys2Proof.Machine
end

section
/-! PROOFS. The hold of Lens, and lines of the pool (04 R157, 05 R171). -/

namespace Sys2Proof.Machine

/-- The open request of Lens stands behind those that are ready (04 R156). -/
theorem closeLens_open {x : Slot} {r : LensReq} (h : x.lens = some r) :
    closeLens x = ({ x with lens := none, lensReady := x.lensReady ++ [r] }, 1) := by
  rw [closeLens, h]

theorem closeLens_place (x : Slot) : (closeLens x).1.clu = x.clu ∧ (closeLens x).1.idx = x.idx := by
  unfold closeLens
  split
  · exact ⟨rfl, rfl⟩
  · exact ⟨rfl, rfl⟩

theorem lensHoldExpiry_open {s : State} {clu slot : Nat} {x : Slot} (hc : clu < 16) (hi : slot < 34) (hrun : running s = true)
    (hx : slotAt s clu slot = some x) (hl : x.lens.isSome = true) :
    exec (.lensHoldExpiry clu slot) s = .next ((s.updSlot clu slot (fun y => (closeLens y).1)).bump .cluLensReqs clu 0 32 1) := by
  have hunit : (decide (16 ≤ clu) || decide (34 ≤ slot)) = false := by simp [hc, hi]
  show execLensHoldExpiry _ _ _ = _
  simp [execLensHoldExpiry, hunit, hx, hrun, hl]

/-- The slot once its oldest wait for pool lines is granted. -/
def Slot.poolGranted (k : ResKind) (need : Nat) (x : Slot) : Slot :=
  { x with grant := (k, need) :: x.grant, poolWait := x.poolWait.filter (fun w => w.1 != k) }

theorem poolLineGrant_oldest {s : State} {clu i need place : Nat} {k : ResKind} (hc : clu < 16) (hf : s.fatal = false)
    (hw : oldestWait s clu = some (i, k, need, place)) (hfit : poolUsed s clu + need ≤ 1920) :
    exec (.poolLineGrant clu) s = .next (s.updSlot clu i (Slot.poolGranted k need)) := by
  show execPoolLineGrant _ _ = _
  rw [execPoolLineGrant, if_neg (by omega), hw]
  dsimp only
  rw [if_pos (by simp [hf, hfit])]
  rfl

/-- Settles O25: the request that `closeLens_open` closes is counted, and the wait that is granted is the least by its place (`leastBy_some`). -/
theorem lensAndPool : Obligations.LensAndPool := by
  refine ⟨?_, ?_⟩
  · intro s clu slot x r hc hi hrun hx hl hw
    refine ⟨_, lensHoldExpiry_open hc hi hrun hx (by rw [hl]; rfl), ?_, State.rd_bump_word hw, rfl⟩
    have hput := slotAt_changed (f := fun y => (closeLens y).1) hx closeLens_place
    rw [closeLens_open hl] at hput
    exact hput
  · intro s clu i k need place x hc hf hw hx hfit
    obtain ⟨-, hleast⟩ := leastBy_some hw
    exact ⟨_, poolLineGrant_oldest hc hf hw hfit, slotAt_changed (f := Slot.poolGranted k need) hx fun _ => ⟨rfl, rfl⟩, hleast,
      fun _ _ => slotAt_updSlot_ne (f := Slot.poolGranted k need) fun _ hyc hyi => ⟨hyc, hyi⟩, rfl⟩

end Sys2Proof.Machine
end

section
/-! PROOFS. Quarantined tags and returned credits (05 R173; 18 R517, R519). -/

namespace Sys2Proof.Machine

theorem assocGet_assocPut_ne {β : Type} {xs : List (Nat × β)} {k n : Nat} {v : β} (h : n ≠ k) :
    assocGet (assocPut xs k v) n = assocGet xs n := by
  unfold assocGet assocPut
  rw [List.find?_cons_of_neg (by simpa using Ne.symm h), List.find?_filter]
  congr 2
  funext x
  by_cases hx : x.1 = n
  · simp [hx, h]
  · simp [hx]

theorem creditsOf_put (s : State) (p : Nat) (c : Nat × Nat × Nat) : creditsOf { s with credits := assocPut s.credits p c } p = c :=
  congrArg (Option.getD · (0, 0, 0)) (assocGet_assocPut _ _ _)

theorem creditsOf_put_ne {s : State} {p n : Nat} (c : Nat × Nat × Nat) (h : n ≠ p) :
    creditsOf { s with credits := assocPut s.credits p c } n = creditsOf s n :=
  congrArg (Option.getD · (0, 0, 0)) (assocGet_assocPut_ne h)

/-- State t is s but for what a logged page may enter (10 R339): the dirty log's queue and filter, its flag and counter, and its pulse. -/
def PageLogged (s t : State) : Prop := ∃ i r h q f, t = { s with is0 := i, regs := r, heldPulses := h, dirtyQ := q, dirtyFilter := f }

theorem PageLogged.refl (s : State) : PageLogged s s := ⟨_, _, _, _, _, rfl⟩

theorem PageLogged.logDirty (s : State) (iid addr : Nat) : PageLogged s (s.logDirty iid addr) := State.logDirty_frame s iid addr

theorem PageLogged.logPage (s : State) (a : Access) : PageLogged s (s.logPage a) := by
  unfold State.logPage
  split
  · exact PageLogged.logDirty s a.iid a.addr
  · exact PageLogged.refl s

/-- The quarantine without one handle. -/
def State.unquarantine (s : State) (aid : Nat) : State := { s with quar := s.quar.filter (fun x => x.acc.aid != aid) }

theorem quarantineEnd_frees {s : State} {aid : Nat} {q : Quar} (hq : s.quar.find? (fun q => q.acc.aid == aid) = some q) (hw : awake s)
    (hd : q.freeAt ≤ s.nomNs) (hp : ∀ d i p n, q.acc.purpose ≠ .oldWrite d i p n) :
    exec (.quarantineEnd aid) s = .next ((s.unquarantine aid).logPage q.acc).drainHeld := by
  have hdue : (s.fatal || !s.rstN || decide (s.nomNs < q.freeAt)) = false := by simp [hw.1, hw.2, hd]
  show execQuarantineEnd aid s = _
  unfold execQuarantineEnd
  rw [hq]
  dsimp only
  rw [hdue, if_neg (by decide)]
  split
  · next h => exact absurd h (hp _ _ _ _)
  · rfl

theorem fabricCredit_returns {s : State} {p : Nat} (ch : CreditChan) (hp : p < 16) (hf : s.fatal = false) (ha : s.portActive.contains p = true) :
    exec (.fabricCredit p ch) s =
      .next ({ s with credits := assocPut s.credits p (creditMore ch (creditsOf s p)) } : State).drainHeld := by
  show execFabricCredit p ch s = _
  rw [execFabricCredit, if_neg (by omega), hf, ha, if_neg (by decide)]

theorem fabricCredit_ignored {s : State} {p : Nat} (ch : CreditChan) (hp : p < 16) (ha : s.portActive.contains p = false) :
    exec (.fabricCredit p ch) s = .next s := by
  show execFabricCredit p ch s = _
  rw [execFabricCredit, if_neg (by omega), ha, Bool.not_false, Bool.or_true, if_pos rfl]

/-- Settles O33: the quarantine's end and a credit's return, each with what it leaves; `creditMore` adds one on its own channel. -/
theorem tagsAndCreditsReturn : Obligations.TagsAndCreditsReturn := by
  refine ⟨?_, ?_, fun s p ch hp ha => fabricCredit_ignored ch hp ha⟩
  · intro s aid q hq hw hd hp
    obtain ⟨_, _, _, _, _, hl⟩ := PageLogged.logPage (s.unquarantine aid) q.acc
    obtain ⟨_, _, _, _, _, _, ht⟩ := PortsOnly.drainHeld ((s.unquarantine aid).logPage q.acc)
    rw [hl] at ht
    refine ⟨_, quarantineEnd_frees hq hw hd hp, ?_, ?_⟩
    all_goals rw [hl, ht]
    · rfl
    · exact ⟨_, _, _, _, _, _, rfl⟩
  · intro s p ch hp hf ha
    refine ⟨_, fabricCredit_returns ch hp hf ha, rfl, fun n hn => creditsOf_put_ne _ hn, ?_⟩
    rw [creditsOf_put]
    cases ch with
    | rq => rfl
    | wq => rfl
    | wd => rfl

end Sys2Proof.Machine
end

section
/-! PROOFS. Write requests (05 R160, R164 to R166, R182). -/

namespace Sys2Proof.Machine

/-- State u is s once slot x has had its turn to write: write a is outstanding and has taken a request credit, and z stands in the slot's
place. -/
structure WriteServed (s u : State) (x z : Slot) (a : Access) : Prop where
  acc : u.acc = s.acc ++ [a]
  data : a.data = []
  toSend : a.toSend = linesTouched a.addr a.len
  credits : creditsOf u x.clu = ((creditsOf s x.clu).1, (creditsOf s x.clu).2.1 - 1, (creditsOf s x.clu).2.2)
  slot : slotAt u x.clu x.idx = some z
  turns : u.turns = assocPut s.turns (3 * x.clu + 1) x.idx
  others : ∀ c i, ¬(c = x.clu ∧ i = x.idx) → slotAt u c i = slotAt s c i
  ports : PortsOnly { s with slots := u.slots, regs := u.regs, turns := u.turns } u

section
variable {s g : State} {x : Slot} {l m : Loaf} {spans : List (Nat × Nat × Nat)}

/-- The request of a data write of loaf n. -/
def writeHeld (x : Slot) (n : Nat) (spans : List (Nat × Nat × Nat)) : Held :=
  dataHeld x (.write x.clu x.idx n) true (spanRange spans).1 (spanRange spans).2 (dataAttrs x true)

/-- It is issued: its lines are left to the datapath arbiter. -/
def State.writeIssued (s : State) (x : Slot) (n : Nat) (spans : List (Nat × Nat × Nat)) : State :=
  s.issueAt x.clu (writeHeld x n spans) x.idx (decide (x.cls = 0)) spans 0 (linesTouched (spanRange spans).1 (spanRange spans).2)

/-- Where a loaf's write is next, no loaf is cut. -/
theorem writeCut_of_writeWork (hwork : writeWork x x.loaves = some l) : writeCut s x = x := by
  rw [writeCut, hwork]
  rfl

/-- Prism's next write of a loaf is the write wanted, as far ahead of the first loaf as R166 lets it. -/
theorem writeWanted_prism (hk : dKind x.desc ≠ .scatter) (hwork : writeWork x x.loaves = some l)
    (hnext : nextWrite x l (!s.acc.any (ownWrite x.clu x.idx l.num)) 4 = (m, some spans))
    (hahead : readsNothing x.desc l = true → isHead x l.num = false →
      fillLines x + linesTouched (spanRange spans).1 (spanRange spans).2 ≤ 64 + poolMax s x.clu) :
    writeWanted s x = some (l.num, m, some (spans, (spanRange spans).1, (spanRange spans).2)) := by
  rw [writeWanted, if_neg hk, hwork]
  dsimp only
  rw [hnext]
  dsimp only
  rw [if_neg]
  simpa [and_assoc] using hahead

theorem writeRequestIssue_data (hc : x.clu < 16) (hi : x.idx < 34) (hx : slotAt s x.clu x.idx = some x) (hf : stateFault x = false)
    (hm : mayIssue s x = true) (hd : (dKind x.desc).noDest = false) (hk : dKind x.desc ≠ .scatter) (hcut : writeCut s x = x)
    (hput : s.updSlot x.clu x.idx (fun _ => x) = s) (losers : List Nat) :
    exec (.writeRequestIssue x.clu x.idx losers) s = .next (((s.dataWrite x losers).walkFault x.clu x.idx).settle x.clu x.idx) := by
  have hunit : (decide (16 ≤ x.clu) || decide (34 ≤ x.idx)) = false := by simp [hc, hi]
  show execWriteRequestIssue _ _ _ _ = _
  simp [execWriteRequestIssue, hunit, hx, hf, hm, hd, hk, hcut, hput]

/-- A write whose port is won is issued with its lines left to send, and its loaf stands as the request leaves it. -/
theorem State.dataWrite_serves {losers : List Nat} {num : Nat} (hx : slotAt s x.clu x.idx = some x) (hk : dKind x.desc ≠ .scatter)
    (hw : writeWanted s x = some (num, m, some (spans, (spanRange spans).1, (spanRange spans).2))) (hp : portReady s x true = true)
    (ht : hasTurn s (3 * x.clu + 1) x (writable s) = true) (hg : s.portGrant x.clu 1 losers = some g) :
    ∃ a, IssuedAs s x (writeHeld x num spans) spans a ∧ WriteServed s (s.dataWrite x losers) x (x.updLoaf num (fun _ => m)) a := by
  obtain ⟨r, rfl⟩ := State.portGrant_frame hg
  have hissue : s.issueData x (writeHeld x num spans) spans losers = some (({ s with arbs := r } : State).writeIssued x num spans) :=
    congrArg (Option.map _) hg
  have hserve : s.dataWrite x losers = ((({ s with arbs := r } : State).writeIssued x num spans).updSlot x.clu x.idx (fun z =>
      z.updLoaf num (fun _ => m))).tookTurn (3 * x.clu + 1) x.idx := by
    rw [State.dataWrite, hw]
    dsimp only
    rw [hp, ht, if_neg (by decide), ← writeHeld, hissue]
    simp only [if_neg hk]
  rw [hserve]
  exact ⟨_, ⟨rfl, rfl, rfl, rfl, rfl, rfl, rfl, rfl, rfl⟩, {
    acc := rfl, data := rfl, toSend := rfl, turns := rfl
    credits := congrArg (Option.getD · (0, 0, 0)) (assocGet_assocPut _ _ _)
    slot := slotAt_changed (f := fun z : Slot => z.updLoaf num (fun _ => m)) hx fun _ => ⟨rfl, rfl⟩
    others := fun _ _ => slotAt_updSlot_ne (f := fun z : Slot => z.updLoaf num (fun _ => m)) fun _ hyc hyi => ⟨hyc, hyi⟩
    ports := ⟨_, _, _, _, _, _, rfl⟩ }⟩

end

/-- Settles O24: a slot in its turn issues the write that `writeWanted_prism` names, and leaves what `State.dataWrite_serves` says. -/
theorem writeRequests : Obligations.WriteRequests := by
  intro s clu slot x l m spans losers g hc hi hx hput hf hm hd hk hwork hnext hahead hp ht hg
  obtain ⟨rfl, rfl⟩ := slotAt_place hx
  obtain ⟨a, ha, hu⟩ := State.dataWrite_serves hx hk (writeWanted_prism hk hwork hnext hahead) hp ht hg
  refine ⟨_, a, writeRequestIssue_data hc hi hx hf hm hd hk (writeCut_of_writeWork hwork) hput losers, hu.acc, ha.aid, ha.port, ha.write,
    ha.purpose, ha.addr, ha.len, ha.spans, hu.data, ?_, ha.attrs, ha.due, hu.credits, hu.slot, hu.turns, hu.others, hu.ports⟩
  rw [hu.toSend, ha.addr, ha.len]
  rfl

end Sys2Proof.Machine
end

section
/-! PROOFS. A cycle of a datapath arbiter (05 R160, R176 to R180; 07 R234 to R239). -/

namespace Sys2Proof.Machine

theorem uWindow_pushWindow (s : State) (clu : Nat) (b : Bool) : uWindow (s.pushWindow clu b) clu = (b :: uWindow s clu).take 1024 :=
  congrArg (Option.getD · []) (assocGet_assocPut _ _ _)

theorem arbOf_putArb_at {s : State} {a : Nat} {x : Arb} (h : x.num = a) : arbOf (s.putArb x) a = x := by
  subst h
  exact arbOf_putArb s x

/-- An arbiter that takes the place of another with no request in it. -/
theorem reqs_putArb_at {s : State} {a : Nat} {x : Arb} (h : x.num = a) (hx : x.reqs = []) : (arbOf (s.putArb x) a).reqs = [] := by
  rw [arbOf_putArb_at h, hx]

/-- A requester that no arbiter's state knows is the best of its own. -/
theorem bestOf_lone {s : State} {a : Nat} (h : (arbOf s a).reqs = []) (prio : Nat → Nat) (r : Nat) : bestOf s a prio [r] = some r := by
  simp [bestOf, ranksFirst, leastBy, raisedReq, reqOf, h]

/-- An arbiter's cycle as it begins: lockouts run on, and requests that have ended are dropped (07 R240, R242). -/
def State.cycleBegun (s : State) (a : Nat) (asks : List Nat) : State := (s.tickLockouts a).dropRequests a asks

theorem State.cycleBegun_frame (s : State) (a : Nat) (asks : List Nat) : ∃ r, s.cycleBegun a asks = { s with arbs := r } := ⟨_, rfl⟩

/-- Where no request stood, none stands. -/
theorem State.cycleBegun_idle {s : State} {a : Nat} (h : (arbOf s a).reqs = []) (asks : List Nat) :
    (arbOf (s.cycleBegun a asks) a).reqs = [] := by
  have ht : (arbOf (s.tickLockouts a) a).reqs = [] := reqs_putArb_at (arbOf_num s a) (by rw [h]; rfl)
  exact reqs_putArb_at (arbOf_num _ a) (by rw [ht]; rfl)

/-- Class U has had its share of the window, and another class asks (07 R234). -/
def shareTaken (s : State) (clu c : Nat) : Bool := decide (512 ≤ ((uWindow s clu).filter (fun b => b)).length) && decide (c ≠ 0)

/-- The cycle in which slot i alone offers a beat, of class c, up to its grant: it is counted where class U is barred. -/
def State.loneRound (s : State) (clu i c : Nat) : State :=
  if shareTaken s clu c then (s.cycleBegun (34 + clu) [i]).bump .cluDpaStat clu 0 16 1 else s.cycleBegun (34 + clu) [i]

theorem State.loneRound_frame (s : State) (clu i c : Nat) : ∃ m r, s.loneRound clu i c = { s with regs := m, arbs := r } ∧
    (c = 0 ∨ ((uWindow s clu).filter (fun b => b)).length < 512 → m = s.regs) := by
  unfold State.loneRound
  split
  · next h =>
    simp only [shareTaken, Bool.and_eq_true, decide_eq_true_eq] at h
    exact ⟨_, _, rfl, fun hn => by omega⟩
  · exact ⟨_, _, rfl, fun _ => rfl⟩

/-! What the granted slot does with its beat. -/

theorem State.beatOf_line (s : State) (clu i aid : Nat) : s.beatOf clu i (.line aid) = s.runLine aid := by
  rw [State.beatOf]

/-- A bound slot whose channel state is sound runs the job that it offered. -/
theorem State.beatOf_bound {s : State} {clu i : Nat} {x : Slot} (j : BeatJob) (hx : slotAt s clu i = some x) (hf : stateFault x = false) :
    s.beatOf clu i j = s.runBeat x j := by
  cases j with
  | line aid => exact State.beatOf_line s clu i aid
  | _ => simp only [State.beatOf, hx, hf, Bool.false_eq_true, if_false]

section
variable {s : State} {clu : Nat} (hc : clu < 16) (hrun : running s = true) (ht : s.takeover = []) (hr : (arbOf s (34 + clu)).reqs = [])
include hc hrun ht hr

/-- The one slot that offers a beat is granted it. -/
theorem datapathBeat_lone {i c : Nat} {j : BeatJob}
    (hj : (List.range 34).filterMap (fun i => (slotJob s clu i).map (fun j => (i, j))) = [(i, j, c)]) :
    ∃ x, exec (.datapathBeat clu) s = .next ((((s.loneRound clu i c).putArb x).pushWindow clu (decide (c = 0))).beatOf clu i j) := by
  have h0 : (arbOf (s.cycleBegun (34 + clu) [i]) (34 + clu)).reqs = [] := State.cycleBegun_idle hr [i]
  have htake : (s.cycleBegun (34 + clu) [i]).takeover = [] := ht
  have hwin : uWindow (s.cycleBegun (34 + clu) [i]) clu = uWindow s clu := rfl
  have hfree : [(i, j, c)].filter (fun k => !lockedOut (s.cycleBegun (34 + clu) [i]) (34 + clu)
      (reqOf (arbOf (s.cycleBegun (34 + clu) [i]) (34 + clu)) k.1)) = [(i, j, c)] := by
    simp [lockedOut_unknown h0]
  have hcands : [(i, j, c)].filter (fun k => !(shareTaken s clu c && decide (k.2.2 = 0))) = [(i, j, c)] := by
    by_cases hz : c = 0
    · simp [shareTaken, hz]
    · simp [hz]
  have hstill : [(i, j, c)].filter (fun k => !([(i, j, c)].contains k)) = [] := by simp
  have h1 : (arbOf (s.loneRound clu i c) (34 + clu)).reqs = [] := by
    unfold State.loneRound
    split
    · exact h0
    · exact h0
  choose x hx using State.arbGrant_lone h1 i
  show ∃ x, execDatapathBeat clu s = _
  rw [execDatapathBeat, if_neg (by omega), hrun, if_neg (by decide)]
  dsimp only
  rw [hj]
  simp only [List.map_cons, List.map_nil]
  rw [← State.cycleBegun]
  simp only [hfree, htake, hwin, List.find?_nil, List.any_cons, List.any_nil, Bool.or_false]
  rw [← shareTaken, ← State.loneRound]
  simp only [hcands, hstill, List.map_cons, List.map_nil, bestOf_lone h1, hx, List.find?_cons, beq_self_eq_true]
  simp only [List.any_cons, List.any_nil, Bool.or_false, decide_not, Bool.and_not_self, Bool.false_eq_true, if_false]
  exact ⟨_, rfl⟩

omit hr in
/-- Where no slot offers a beat, the cycle passes. -/
theorem datapathBeat_idle (hj : (List.range 34).filterMap (fun i => (slotJob s clu i).map (fun j => (i, j))) = []) :
    ∃ x, exec (.datapathBeat clu) s = .next (((s.cycleBegun (34 + clu) []).putArb x).pushWindow clu false) := by
  have htake : (s.cycleBegun (34 + clu) []).takeover = [] := ht
  show ∃ x, execDatapathBeat clu s = _
  rw [execDatapathBeat, if_neg (by omega), hrun, if_neg (by decide)]
  dsimp only
  rw [hj]
  simp only [List.map_nil]
  rw [← State.cycleBegun]
  simp only [htake, List.find?_nil, List.any_nil, List.filter_nil, Bool.and_false, Bool.false_eq_true, if_false, List.map_nil]
  exact ⟨_, rfl⟩

end

/-! A line leaves (05 R160; 18 R517). -/

/-- A line of an outstanding write leaves for one credit of its port. -/
theorem State.sendLine_outstanding {s : State} {aid : Nat} {a : Access} (ha : s.access aid = some a) (bytes : List Byte) :
    (s.sendLine aid bytes).access aid = some (a.sent bytes) ∧
      creditsOf (s.sendLine aid bytes) a.port = ((creditsOf s a.port).1, (creditsOf s a.port).2.1, (creditsOf s a.port).2.2 - 1) := by
  have hfind : (s.acc ++ s.quar.map (·.acc)).find? (fun a => a.aid == aid) = some a := by
    rw [List.find?_append, ← State.access, ha]
    rfl
  rw [State.sendLine, hfind]
  refine ⟨?_, creditsOf_put _ _ _⟩
  show (upd _ _ _).find? _ = _
  rw [find_upd (fun a : Access => a.aid == aid) (Access.sent bytes) (fun x hx => hx), ← State.access, ha]
  rfl

/-- Settles O28: the cycles of `datapathBeat_lone` and `datapathBeat_idle`, and the line of `State.sendLine_outstanding`. -/
theorem datapathBeats : Obligations.DatapathBeats := by
  refine ⟨?_, ?_, ?_⟩
  · intro s clu i j c hc hrun ht hr hj
    obtain ⟨x, hx⟩ := datapathBeat_lone hc hrun ht hr hj
    obtain ⟨m, r, hround, hregs⟩ := State.loneRound_frame s clu i c
    rw [hround] at hx
    refine ⟨(({ s with regs := m, arbs := r } : State).putArb x).pushWindow clu (decide (c = 0)), rfl, hregs, uWindow_pushWindow _ _ _,
      fun y hy hf => hx.trans (congrArg _ (State.beatOf_bound j hy hf)), fun aid haid => hx.trans ?_⟩
    rw [haid, State.beatOf_line]
  · intro s clu hc hrun ht hr hj
    obtain ⟨x, hx⟩ := datapathBeat_idle hc hrun ht hj
    obtain ⟨r, hcycle⟩ := State.cycleBegun_frame s (34 + clu) []
    rw [hcycle] at hx
    exact ⟨_, hx, rfl, uWindow_pushWindow _ _ _⟩
  · intro s aid a bytes ha
    obtain ⟨hb, hcredits⟩ := State.sendLine_outstanding ha bytes
    exact ⟨_, hb, rfl, rfl, rfl, hcredits⟩

end Sys2Proof.Machine
end

section
/-! PROOFS. Accesses that expire and are abandoned (01 R32, 02 R60, 05 R173, R191; 08 R252; 13 R415, R416; 14 R435; 17 R504; 19 R555). -/

namespace Sys2Proof.Machine

/-! The tag of an expired access (05 R173). -/

theorem PortsOnly.quarantined (s : State) (a : Access) :
    PortsOnly { s with quar := (s.quarantine a).drainHeld.quar } (s.quarantine a).drainHeld := by
  rw [(Quarantined.drain s a).1]
  exact PortsOnly.quarantineDrain s a

theorem slotAt_quarantined (s : State) (a : Access) (c i : Nat) : slotAt (s.quarantine a).drainHeld c i = slotAt s c i :=
  slotAt_of_slots (PortsOnly.quarantineDrain s a).slots c i

theorem State.quarantineDrain_dirtyQ (s : State) (a : Access) : (s.quarantine a).drainHeld.dirtyQ = s.dirtyQ := by
  obtain ⟨_, _, _, _, _, _, e⟩ := State.quarantineDrain_eq s a
  rw [e]

theorem PageLogged.write (s : State) (a : Access) : PageLogged s (if a.write then s.logDirty a.iid a.addr else s) := by
  split
  · exact PageLogged.logDirty s a.iid a.addr
  · exact PageLogged.refl s

/-- A quarantined access whose page is logged first. -/
theorem Quarantined.paged {s t u : State} {a : Access} (h : PageLogged s t) (hu : u = (t.quarantine a).drainHeld) :
    Quarantined s u a ∧ PortsOnly { s with quar := u.quar, dirtyQ := u.dirtyQ, dirtyFilter := u.dirtyFilter, is0 := u.is0, regs := u.regs,
                                           heldPulses := u.heldPulses } u := by
  obtain ⟨_, _, _, _, _, rfl⟩ := h
  have hq := hu ▸ Quarantined.drain _ a
  refine ⟨⟨hq.1, hq.2⟩, ?_⟩
  obtain ⟨_, _, _, _, _, _, e⟩ := State.quarantineDrain_eq _ a
  rw [hu, e]
  exact ⟨_, _, _, _, _, _, rfl⟩

/-! The poller's accesses (02 R60). -/

/-- An expired poll access: its page is logged, its tag quarantined and the expiry logged. -/
def State.pollExpired (s : State) (a : Access) : State :=
  ((s.logPage a).quarantine a).drainHeld.logErr (mkErr 0 18 0x32 a.iid 0 63 0 0 a.addr 0)

theorem pollAccessCeil_fails {s : State} {aid : Nat} {a : Access} (ha : s.access aid = some a) (hf : s.fatal = false) (hx : expired s a = true)
    (hu : unitOf a.purpose = 1) : exec (.pollAccessCeil aid) s = .next ((s.pollExpired a).pollFail a.iid) := by
  show execPollAccessCeil aid s = _
  rw [execPollAccessCeil, ha]
  simp only [hf, hx, hu, ne_eq, not_true_eq_false, Bool.not_true, Bool.or_self, decide_false]
  rfl

theorem State.pollExpired_spec {s u : State} {a : Access} (hu : u = s.pollExpired a) : Quarantined s u a ∧
    (a.write = false → a.attrs.swap = false → u.dirtyQ = s.dirtyQ) ∧
      PortsOnly { s with quar := u.quar, errQ := u.errQ, regs := u.regs, dirtyQ := u.dirtyQ, dirtyFilter := u.dirtyFilter,
                         is0 := u.is0, heldPulses := u.heldPulses } u := by
  obtain ⟨hq, hports⟩ := Quarantined.paged (a := a) (PageLogged.logPage s a) rfl
  have hdirty := State.quarantineDrain_dirtyQ (s.logPage a) a
  unfold State.pollExpired at hu
  generalize ((s.logPage a).quarantine a).drainHeld = v at hq hports hdirty hu
  obtain ⟨_, _, e⟩ := State.logErr_frame v (mkErr 0 18 0x32 a.iid 0 63 0 0 a.addr 0)
  refine ⟨hu ▸ hq.logErr _, fun hw hs => ?_, ?_⟩
  · have hpage : s.logPage a = s := by simp [State.logPage, hw, hs]
    rw [hu, e, ← hpage]
    exact hdirty
  · rw [hu, e]
    obtain ⟨_, _, _, _, _, _, e'⟩ := hports
    rw [e']
    exact ⟨_, _, _, _, _, _, rfl⟩

/-- The poll without the access that failed. -/
def Poll.afterFault (p : Poll) : Poll := { p with active := p.active - 1, waiting := [], failed := true }

theorem State.dropRequest_frame (s : State) (a r : Nat) : ∃ x, s.dropRequest a r = { s with arbs := x } := by
  unfold State.dropRequest
  dsimp only
  split
  · exact ⟨_, rfl⟩
  · exact ⟨_, rfl⟩

/-- A poll with no other access under way ends at the failure of its own, and the next one is a full scan. -/
theorem State.pollFail_ends {s : State} {iid : Nat} {p : Poll} (hp : pollIn s iid = some p) (ha : p.active ≤ 1) :
    ∃ v : State, s.pollFail iid = v.admCheck ∧ pollIn v iid = none ∧ (pollOf v iid).fullDue = true ∧
      v = { s with polls := v.polls, pollInst := v.pollInst, arbs := v.arbs } := by
  obtain ⟨x, hx⟩ := State.dropRequest_frame s 32 p.engine
  generalize ht : ({ s with arbs := x } : State).updPoll iid Poll.afterFault = t
  have hin : pollIn t iid = some p.afterFault := by
    rw [← ht, pollIn_updPoll (f := Poll.afterFault) (fun _ => rfl)]
    exact congrArg (Option.map Poll.afterFault) hp
  have hfail : s.pollFail iid = t.settlePoll iid := by
    rw [State.pollFail, hp]
    dsimp only
    rw [hx, ← ht]
    rfl
  obtain ⟨y, hgone⟩ := State.pollGone_frame t iid p.afterFault
  obtain ⟨i, hafter⟩ := State.pollAfter_frame (t.pollGone iid p.afterFault) t iid p.afterFault
  refine ⟨_, hfail.trans (State.settlePoll_ends hin (by simp only [Poll.afterFault]; omega) rfl), ?_, State.pollAfter_failed _ _ rfl, ?_⟩
  · rw [hafter, hgone]
    simp [pollIn]
  · rw [hafter, hgone, ← ht]
    rfl

/-! Telemetry's writes (13 R415, R416). -/

theorem telemetryWriteCeil_givesUp {s : State} {aid : Nat} {a : Access} (ha : s.access aid = some a) (hf : s.fatal = false)
    (hx : expired s a = true) (hu : unitOf a.purpose = 3) :
    exec (.telemetryWriteCeil aid) s = .next ((s.quarantine a).drainHeld.telGiveUp a.purpose) := by
  show execTelemetryWriteCeil aid s = _
  rw [execTelemetryWriteCeil, ha]
  simp [hf, hx, hu]

/-- A trace record that is given up is counted lost. -/
theorem State.traceLost_counts {s : State} (k : Nat) (ht : telOn s = true) (hw : s.is3.wf = true) :
    (s.traceLost k).is3.get (0x69300 + 8 * k + 4) = s.is3.get (0x69300 + 8 * k + 4) + 1 := by
  rw [State.traceLost, State.addIs3_on ht]
  refine (WordMap.get_put_same _ 0 _ _ hw).trans ?_
  rw [BitVec.ofNat_add, BitVec.ofNat_toNat, BitVec.setWidth_eq]
  rfl

/-- A snapshot that is given up is gone, and no other. -/
theorem State.snapDrop_snaps (s : State) (k : Nat) : snapOf (s.snapDrop k) k = none ∧ ∀ j, j ≠ k → snapOf (s.snapDrop k) j = snapOf s j := by
  refine ⟨?_, fun j hj => ?_⟩
  · show ([] ++ s.snaps.filter (fun y : Snap => y.num != k)).find? _ = none
    simp
  · show ([] ++ s.snaps.filter (fun y : Snap => y.num != k)).find? _ = _
    rw [List.nil_append, List.find?_filter, snapOf]
    congr 1
    funext y
    by_cases hy : y.num = j
    · simp [hy, hj]
    · simp [hy]

/-! The debug access, test requests and witness reads (17 R504; 19 R555; 14 R435). -/

section
variable {s : State} {aid : Nat} {a : Access} (ha : s.access aid = some a) (hf : s.fatal = false) (hx : expired s a = true)
include ha hf hx

theorem dbgMemCeil_ends (hp : a.purpose = .debug) :
    exec (.dbgMemCeil aid) s = .next ((if a.write then s.logDirty a.iid a.addr else s).dbgTimeout a) := by
  show execDbgMemCeil aid s = _
  simp [execDbgMemCeil, ha, hf, hx, hp]

theorem tstRequestCeil_ends {n o : Nat} (hp : a.purpose = .test n o) :
    exec (.tstRequestCeil aid) s =
      .next ((((if a.write then s.logDirty a.iid a.addr else s).quarantine a).drainHeld).testFault n a.write) := by
  show execTstRequestCeil aid s = _
  simp [execTstRequestCeil, ha, hf, hx, hp, State.testEnds]

theorem witnessReadCeil_unchanged {m : Nat} (hp : a.purpose = .witnessRead m) :
    exec (.witnessReadCeil aid) s = .next ((s.quarantine a).drainHeld.witnessSeen m none) := by
  show execWitnessReadCeil aid s = _
  simp [execWitnessReadCeil, ha, hf, hx, hp]

/-! Reads and writes of descriptors (01 R32; 05 R191; 08 R252). -/

theorem dataReadCeil_data {c i n : Nat} {x : Slot} (hr : a.write = false) (hp : a.purpose = .data c i n) (hs : slotAt s c i = some x) :
    exec (.dataReadCeil aid) s = .next ((s.quarantine a).drainHeld.readFault x n a 0x27 0x3D) := by
  show execDataReadCeil aid s = _
  simp [execDataReadCeil, ha, hf, hx, hr, hp, slotAt_quarantined, hs]

theorem dataReadCeil_table {c i f n : Nat} {x : Slot} (hr : a.write = false) (hp : a.purpose = .table c i f n) (hs : slotAt s c i = some x) :
    exec (.dataReadCeil aid) s =
      .next (((s.quarantine a).drainHeld.freeTable x f).fabricFault c i (tableLoaf x f) 0x27 true 0x3D a.addr) := by
  show execDataReadCeil aid s = _
  simp [execDataReadCeil, ha, hf, hx, hr, hp, slotAt_quarantined, hs]

theorem dataReadCeil_old {q p k : Nat} {i : W32} (hr : a.write = false) (hp : a.purpose = .oldRead q i p k) :
    exec (.dataReadCeil aid) s = .next ((s.quarantine a).drainHeld.settleOf q i p) := by
  show execDataReadCeil aid s = _
  simp [execDataReadCeil, ha, hf, hx, hr, hp]

theorem dataWriteCeil_unawaited (hp : a.purpose = .fedCkpt ∨ a.purpose = .witnessWrite) :
    exec (.dataWriteCeil aid) s = .next (s.quarantine a).drainHeld := by
  show execDataWriteCeil aid s = _
  rcases hp with h | h
  · simp [execDataWriteCeil, ha, hf, hx, h]
  · simp [execDataWriteCeil, ha, hf, hx, h]

/-- A write of a loaf is quarantined as one of a dropped attempt, poisoned where its loaf is not released (08 R257). -/
def lateWrite (x : Slot) (n : Nat) (l : Loaf) (a : Access) : Access :=
  { a with purpose := .oldWrite x.qid x.slotIdx (chainPosOf x) n, poisoned := decide (a.toSend ≠ 0) && !l.released }

theorem dataWriteCeil_loaf {c i n : Nat} {x : Slot} {l : Loaf} (hp : a.purpose = .write c i n) (hs : slotAt s c i = some x)
    (hl : loafOf x n = some l) : ∃ u, u = ((s.logDirty a.iid a.addr).quarantine (lateWrite x n l a)).drainHeld ∧
      exec (.dataWriteCeil aid) s =
        .next (if l.released then u.endWith c i 9 0x3D a.addr (some n) else u.fabricFault c i n 0x27 false 0x3D a.addr) := by
  refine ⟨_, rfl, ?_⟩
  show execDataWriteCeil aid s = _
  simp [execDataWriteCeil, ha, hf, hx, hp, hs, hl, lateWrite]

end

theorem State.wf_logDirty (s : State) (iid addr : Nat) (hw : s.regs.wf = true) : (s.logDirty iid addr).regs.wf = true := by
  unfold State.logDirty
  split
  · exact hw
  · dsimp only
    split
    · exact hw
    · split
      · exact State.wf_wr _ _ _ _ hw
      · exact hw

/-- A debug access that expires ends with TIMEOUT. -/
theorem State.dbgTimeout_spec {s t u : State} {a : Access} (h : PageLogged s t) (hw : t.regs.wf = true) (hu : u = t.dbgTimeout a) :
    Quarantined s u a ∧ u.rd .dbgMemStat 0 = 2 ∧
      PortsOnly { s with quar := u.quar, dirtyQ := u.dirtyQ, dirtyFilter := u.dirtyFilter, is0 := u.is0, regs := u.regs,
                         heldPulses := u.heldPulses } u := by
  obtain ⟨hq, hports⟩ := Quarantined.paged (a := a) h rfl
  have hwf : (t.quarantine a).drainHeld.regs.wf = true := by
    obtain ⟨_, _, _, _, _, _, e⟩ := State.quarantineDrain_eq t a
    rw [e]
    exact hw
  unfold State.dbgTimeout at hu
  generalize (t.quarantine a).drainHeld = v at hq hports hwf hu
  subst hu
  refine ⟨hq.congr rfl rfl, State.rd_wr_same v _ _ _ hwf, ?_⟩
  obtain ⟨_, _, _, _, _, _, e⟩ := hports
  rw [e]
  exact ⟨_, _, _, _, _, _, rfl⟩

/-- A trace write that expires. -/
theorem State.traceGivenUp_spec {s t : State} {a : Access} {k : Nat} (ht : t = (s.quarantine a).drainHeld.traceLost k) :
    Quarantined s t a ∧ PortsOnly { s with quar := t.quar, is3 := t.is3 } t ∧
      (telOn s = true → s.is3.wf = true → t.is3.get (0x69300 + 8 * k + 4) = s.is3.get (0x69300 + 8 * k + 4) + 1) := by
  obtain ⟨_, e⟩ := State.addIs3_frame (s.quarantine a).drainHeld (0x69300 + 8 * k + 4) 1
  obtain ⟨_, _, _, _, _, _, e'⟩ := State.quarantineDrain_eq s a
  refine ⟨?_, ?_, fun hon hw => ?_⟩
  · exact (Quarantined.drain s a).congr (by rw [ht, State.traceLost, e]) (by rw [ht, State.traceLost, e])
  · rw [ht, State.traceLost, e, e']
    exact ⟨_, _, _, _, _, _, rfl⟩
  · rw [ht, State.traceLost_counts k (by rw [e']; exact hon) (by rw [e']; exact hw), e']

/-- A snapshot write that expires: its copy is dropped, so its other writes are taken as they come. -/
theorem State.snapGivenUp_spec {s t : State} {a : Access} {k : Nat} (ht : t = (s.quarantine a).drainHeld.snapDrop k) :
    t.quar = s.quar ++ [{ acc := a, freeAt := s.nomNs + 2 * a.ceilNs }] ∧ snapOf t k = none ∧ (∀ j, j ≠ k → snapOf t j = snapOf s j) ∧
      PortsOnly { s with quar := t.quar, snaps := t.snaps } t := by
  have hq := Quarantined.drain s a
  have hports := PortsOnly.quarantineDrain s a
  generalize (s.quarantine a).drainHeld = v at hq hports ht
  subst ht
  obtain ⟨hnone, hothers⟩ := State.snapDrop_snaps v k
  refine ⟨hq.1, hnone, fun j hj => (hothers j hj).trans ?_, ?_⟩
  all_goals
    obtain ⟨_, _, _, _, _, _, e⟩ := hports
    rw [e]
  · rfl
  · exact ⟨_, _, _, _, _, _, rfl⟩

/-- A table read that expires: its lines are free. -/
theorem State.tableExpired_spec {s u : State} {a : Access} {c i f : Nat} {x : Slot} (hs : slotAt s c i = some x)
    (hu : u = (s.quarantine a).drainHeld.freeTable x f) :
    Quarantined s u a ∧ slotAt u c i = some { x with lines := dropIf (fun r => r.ofTable f) x.lines } ∧
      (∀ d j, ¬(d = c ∧ j = i) → slotAt u d j = slotAt s d j) ∧ PortsOnly { s with quar := u.quar, slots := u.slots } u := by
  obtain ⟨hc, hi⟩ := slotAt_place hs
  have hq := Quarantined.drain s a
  have hports := PortsOnly.quarantineDrain s a
  have hslots := slotAt_quarantined s a
  generalize (s.quarantine a).drainHeld = v at hq hports hslots hu
  subst hu
  refine ⟨hq.congr rfl rfl, slotAt_freeTable ((hslots c i).trans hs) hc hi f, fun d j h => ?_, ?_⟩
  · subst hc hi
    exact (slotAt_updSlot_ne (f := fun y : Slot => { y with lines := dropIf (fun r => r.ofTable f) y.lines })
      (fun _ hyc hyi => ⟨hyc, hyi⟩) h).trans (hslots d j)
  · obtain ⟨_, _, _, _, _, _, e⟩ := hports
    rw [e]
    exact ⟨_, _, _, _, _, _, rfl⟩

/-- Settles O13: each row's equation, and what it leaves: the tag quarantined in `Quarantined.drain` or, with a page logged, in
`Quarantined.paged`; a failed poll's end is `State.pollFail_ends`. -/
theorem expiredAccessesAbandoned : Obligations.ExpiredAccessesAbandoned := by
  refine ⟨?_, fun s iid p => State.pollFail_ends, ?_, ?_, ?_, ?_, ?_, ?_, ?_, ?_, ?_, ?_⟩
  · intro s aid a ha hf hx hu
    exact ⟨_, pollAccessCeil_fails ha hf hx hu, State.pollExpired_spec rfl⟩
  · intro s aid a k ha hf hx hp
    have hgive := telemetryWriteCeil_givesUp ha hf hx (by rw [hp]; rfl)
    rw [hp] at hgive
    exact ⟨_, hgive, State.traceGivenUp_spec rfl⟩
  · intro s aid a k h ha hf hx hp
    have hgive := telemetryWriteCeil_givesUp ha hf hx (by rw [hp]; rfl)
    rw [hp] at hgive
    exact ⟨_, hgive, State.snapGivenUp_spec rfl⟩
  · intro s aid a ha hf hx hp hw
    refine ⟨_, dbgMemCeil_ends ha hf hx hp, State.dbgTimeout_spec (PageLogged.write s a) ?_ rfl⟩
    split
    · exact State.wf_logDirty s _ _ hw
    · exact hw
  · intro s aid a n o ha hf hx hp
    exact ⟨_, tstRequestCeil_ends ha hf hx hp, Quarantined.paged (PageLogged.write s a) rfl⟩
  · intro s aid a m ha hf hx hp
    exact ⟨_, witnessReadCeil_unchanged ha hf hx hp, Quarantined.drain s a, PortsOnly.quarantined s a⟩
  · intro s aid a c i n x ha hf hx hr hp hs
    exact ⟨_, dataReadCeil_data ha hf hx hr hp hs, Quarantined.drain s a, PortsOnly.quarantined s a⟩
  · intro s aid a c i f n x ha hf hx hr hp hs
    exact ⟨_, dataReadCeil_table ha hf hx hr hp hs, State.tableExpired_spec hs rfl⟩
  · intro s aid a q i p k ha hf hx hr hp
    exact ⟨_, dataReadCeil_old ha hf hx hr hp, Quarantined.drain s a, PortsOnly.quarantined s a⟩
  · intro s aid a c i n x l ha hf hx hp hs hl
    obtain ⟨u, hu, hexec⟩ := dataWriteCeil_loaf ha hf hx hp hs hl
    obtain ⟨⟨hquar, hrel⟩, hports⟩ := Quarantined.paged (PageLogged.logDirty s a.iid a.addr) hu
    exact ⟨u, hexec, hrel, ⟨_, hquar, rfl, rfl, rfl, rfl⟩, hports⟩
  · intro s aid a ha hf hx hp
    exact ⟨_, dataWriteCeil_unawaited ha hf hx hp, Quarantined.drain s a, PortsOnly.quarantined s a⟩

end Sys2Proof.Machine
end

section
/-! PROOFS. A commit whose next loaf has an uncorrectable landing line (05 R170; 06 R216; 08 R246). -/

namespace Sys2Proof.Machine

theorem closeLens_phase (x : Slot) : (closeLens x).1.phase = x.phase := by
  unfold closeLens
  split
  · rfl
  · rfl

/-! With the record store full, a descriptor that is done stays on its slot with its record (17 R503). -/

/-- The record store is full, and the slot at a place holds a descriptor that is not ending. -/
def PastEnd (s : State) (c i : Nat) : Prop := 1024 ≤ s.records.length ∧ ∃ y, slotAt s c i = some y ∧ y.phase ≠ .ending

section
variable {s : State} {c i : Nat} {x z : Slot}

/-- A record that its slot keeps keeps the slot from being freed. -/
theorem PastEnd.keepRelease (hl : 1024 ≤ s.records.length) (hz : slotAt s c i = some z) (hp : z.phase ≠ .ending) (r : Record) :
    PastEnd ((s.keepRecord c i r).releaseDone c i) c i := by
  have hkept : slotAt (s.keepRecord c i r) c i = some { z with kept := z.kept ++ [r] } := by
    rw [State.keepRecord_full hl]
    exact slotAt_changed hz fun _ => ⟨rfl, rfl⟩
  have hstays : (s.keepRecord c i r).releaseDone c i = s.keepRecord c i r := by
    rw [State.releaseDone, hkept]
    exact if_neg (by simp)
  rw [hstays]
  refine ⟨?_, _, hkept, hp⟩
  rw [State.keepRecord_full hl]
  exact hl

theorem State.keepRecord_stays (hl : 1024 ≤ s.records.length) (hz : slotAt s c i = some z) (r : Record) :
    1024 ≤ (s.keepRecord c i r).records.length ∧ ∃ w, slotAt (s.keepRecord c i r) c i = some w := by
  rw [State.keepRecord_full hl]
  exact ⟨hl, _, slotAt_changed hz fun _ => ⟨rfl, rfl⟩⟩

theorem State.placeHeld_stays (hl : 1024 ≤ s.records.length) (hz : slotAt s x.clu x.idx = some z) (ch : Chain) (closed : Bool) :
    1024 ≤ (s.placeHeld x ch closed).records.length ∧ ∃ w, slotAt (s.placeHeld x ch closed) x.clu x.idx = some w := by
  cases h : ch.heldRec with
  | none =>
    rw [State.placeHeld_none s x closed h]
    exact ⟨hl, z, hz⟩
  | some ws =>
    rw [State.placeHeld_some s x closed h]
    exact State.keepRecord_stays hl hz _

theorem PastEnd.endChain (hl : 1024 ≤ s.records.length) (hz : slotAt s x.clu x.idx = some z) (ch : Chain) (closed : Bool) :
    PastEnd (s.endChain x ch closed) x.clu x.idx :=
  PastEnd.keepRelease (s := s.updSlot x.clu x.idx (fun _ => { linkSlot s x ch with kept := ((slotAt s x.clu x.idx).map (·.kept)).getD [] }))
    hl (slotAt_updSlot_put hz rfl rfl) (fun h => by cases h) _

/-- A channel that goes on with its chain reads on. -/
theorem PastEnd.goOnService (hl : 1024 ≤ s.records.length) (hz : slotAt s x.clu x.idx = some z) (hp : x.phase ≠ .ending) (h : Held) :
    PastEnd ((s.goOn x).service h) x.clu x.idx := by
  obtain ⟨_, _, _, _, _, _, e⟩ := PortsOnly.service (s.goOn x) h
  rw [e]
  exact ⟨hl, _, slotAt_goOn hz, hp⟩

theorem PastEnd.chainNext (hl : 1024 ≤ s.records.length) (hz : slotAt s x.clu x.idx = some z) (ch : Chain) :
    PastEnd (s.chainNext x ch) x.clu x.idx := by
  unfold State.chainNext
  split
  · exact PastEnd.goOnService (x := { x with chain := some { ch with segPos := ch.segPos + 1, pos := ch.pos + 1 }, phase := .slotRead })
      hl hz (fun h => by cases h) _
  · split
    · obtain ⟨hl', w, hw⟩ := State.placeHeld_stays (x := { x with chain := some ch, phase := .chainTail }) hl hz ch true
      exact PastEnd.endChain (x := { x with chain := some ch, phase := .chainTail })
        (s := (s.placeHeld { x with chain := some ch, phase := .chainTail } ch true).orphanReads x.clu x.idx) hl' hw ch true
    · exact PastEnd.goOnService (x := { x with chain := some ch, phase := .chainTail }) hl hz (fun h => by cases h) _

/-- The record of a chain descriptor that is done. -/
def recordAtEnd (s : State) (x : Slot) (ch : Chain) (closed : Bool) : Record :=
  recordOf (s.slotDone x) (finishedSlot s x) ((finishedSlot s x).recordWords closed) ch.pos (recordAddr (s.slotDone x) (finishedSlot s x))

/-- A descriptor that is done keeps its slot, or its chain goes on there. -/
theorem PastEnd.finish (hl : 1024 ≤ s.records.length) (hx : slotAt s c i = some x) : PastEnd (s.finish c i) c i := by
  obtain ⟨rfl, rfl⟩ := slotAt_place hx
  obtain ⟨hph, -, -, hc, hi, -⟩ := finishedSlot_spec s x
  have hdone : slotAt (s.slotDone x) x.clu x.idx = some (finishedSlot s x) := slotAt_updSlot_put hx hc hi
  have hl' : 1024 ≤ (s.slotDone x).records.length := hl
  cases hch : x.chain with
  | none =>
    rw [State.finish_ring hx hch]
    exact PastEnd.keepRelease hl' hdone (by rw [hph]; decide) _
  | some ch =>
    have hkept : ∀ r, 1024 ≤ ((s.slotDone x).keepRecord x.clu x.idx r).records.length ∧
        ∃ w, slotAt ((s.slotDone x).keepRecord x.clu x.idx r) (finishedSlot s x).clu (finishedSlot s x).idx = some w := by
      intro r
      rw [hc, hi]
      exact State.keepRecord_stays hl' hdone r
    have hplace : PastEnd (s.finish x.clu x.idx) (finishedSlot s x).clu (finishedSlot s x).idx := by
      unfold State.finish
      rw [hx]
      dsimp only
      rw [hch]
      dsimp only
      split
      · obtain ⟨h1, w, h2⟩ := hkept (recordAtEnd s x ch (decide (ch.segCount ≤ ch.segPos + 1)))
        exact PastEnd.endChain h1 h2 _ _
      · split
        · exact PastEnd.chainNext (s := s.slotDone x) (x := finishedSlot s x) hl' (by rw [hc, hi]; exact hdone) _
        · obtain ⟨h1, w, h2⟩ := hkept (recordAtEnd s x ch false)
          exact PastEnd.chainNext h1 h2 _
    rw [hc, hi] at hplace
    exact hplace

/-- What is settled stays as it is, or is done with its slot kept. -/
theorem State.settle_or (hl : 1024 ≤ s.records.length) : s.settle c i = s ∨ PastEnd (s.settle c i) c i := by
  unfold State.settle
  split
  · exact .inl rfl
  · next x hx =>
    split
    · extract_lets done k bad ready
      by_cases h : (done && ready) = true
      · rw [if_pos h]
        exact .inr (PastEnd.finish (s := (s.updSlot c i _).orphanReads c i) hl
          (slotAt_changed hx fun y => ⟨by cases bad <;> rfl, by cases bad <;> rfl⟩))
      · exact .inl (if_neg h)
    · split
      · exact .inr (PastEnd.finish hl hx)
      · exact .inl rfl
    · exact .inl rfl

theorem PastEnd.settle (h : PastEnd s c i) : PastEnd (s.settle c i) c i := by
  rcases State.settle_or h.1 with e | e
  · rwa [e]
  · exact e

/-- A walk that ends at a faulty element leaves its slot as far from an end. -/
theorem PastEnd.endCut (h : PastEnd s c i) (p status : Nat) (detail : BitVec 6) (w5 : Nat) :
    PastEnd (s.endCut c i p status detail w5) c i := by
  obtain ⟨hl, x, hx, hp⟩ := h
  obtain ⟨rfl, rfl⟩ := slotAt_place hx
  obtain ⟨a, e⟩ := State.dropLoaves_eq s x (x.loaves.filter (fun l => decide (l.b0 < p))).length
  have hl1 : 1024 ≤ (s.dropLoaves x (x.loaves.filter (fun l => decide (l.b0 < p))).length).records.length := by
    rw [e]
    exact hl
  have hx1 : ∃ y, slotAt (s.dropLoaves x (x.loaves.filter (fun l => decide (l.b0 < p))).length) x.clu x.idx = some y ∧ y.phase = x.phase := by
    rw [e]
    exact ⟨_, slotAt_changed (s := { s with acc := a }) hx fun _ => ⟨rfl, rfl⟩, rfl⟩
  obtain ⟨y, hy, hph⟩ := hx1
  unfold State.endCut
  rw [hx]
  exact PastEnd.settle ⟨hl1, _, slotAt_changed (s := State.bump _ _ _ _ _ _) hy fun z => closeLens_place z, by
    show (closeLens y).1.phase ≠ .ending
    rwa [closeLens_phase, hph]⟩

theorem State.walkFault_or (hl : 1024 ≤ s.records.length) : s.walkFault c i = s ∨ PastEnd (s.walkFault c i) c i := by
  unfold State.walkFault
  split
  · exact .inl rfl
  · next x hx =>
    split
    · exact .inl rfl
    · next p st det w5 hbad =>
      by_cases hm : x.phase = .moving
      · have hcut := PastEnd.endCut ⟨hl, x, hx, by simp [hm]⟩ p st (BitVec.ofNat 6 det) w5
        refine (ite_eq_or_eq _ _ _).symm.imp_right fun e => ?_
        rwa [e]
      · exact .inl (if_neg (by simp [hm]))

/-- A slot that is ending after its settling, with the store full, was so before. -/
theorem settled_unchanged (hl : 1024 ≤ s.records.length) (hy : ∀ y, slotAt ((s.walkFault c i).settle c i) c i = some y → y.phase = .ending) :
    (s.walkFault c i).settle c i = s := by
  have hnot : ¬ PastEnd ((s.walkFault c i).settle c i) c i := fun ⟨_, y, h, hp⟩ => hp (hy y h)
  rcases State.walkFault_or (c := c) (i := i) hl with e | e
  · rw [e] at hnot ⊢
    exact (State.settle_or hl).resolve_right hnot
  · exact absurd e.settle hnot

end

/-- The commit point of a slot's first loaf (08 R246). -/
theorem checkpointStored_commits {s : State} {x : Slot} {l : Loaf} {clu slot : Nat} (hclu : clu < 16) (hidx : slot < 34)
    (hx : slotAt s clu slot = some x) (hl : x.loaves.head? = some l)
    (hrun : running s = true) (hready : commitReady s x l = true) (hfault : stateFault x = false) :
    exec (.checkpointStored clu slot) s = .next (s.commitLoaf x l) := by
  show execCheckpointStored clu slot s = _
  rw [execCheckpointStored, if_neg (slotPlace hclu hidx), hx]
  simp [hl, hrun, hready, hfault]

/-! A descriptor that is ending: a landing line of its second loaf has an uncorrectable word. -/

/-- The loaf that commits. -/
def committingLoaf : Loaf :=
  { newLoaf 0 0 64 true 0 with readB := 64, writeB := 64, passB := 64, released := true, releases := 1, stored := true }

/-- The loaf behind it: two bits of its word at walk position 64 are inverted. -/
def damagedLoaf : Loaf :=
  { newLoaf 1 64 128 true 0 with readB := 128, writeB := 128, frags := [{ walkB := 64, words := [(0, 3)], ofs := 0, len := 8, copy := [] }] }

/-- A COPY with DST_NI of 128 bytes that ended with status 8; both loaves may still commit. -/
def endingCopy : Slot :=
  { newSlot 0 0 16 1 0 0 (sharedAttrs State.reset 1) 64 with
    phase := .ending, status := 8, desc := [pack [(0, 8, 1), (11, 1, 1), (56, 8, 1)], 0x4000, 0x8000, 128, 0, 0, 0, 0],
    walkEnd := 128, cutB := 128, cutNum := 2, loaves := [committingLoaf, damagedLoaf] }

/-- An entry of the record store. -/
def storedRecord : Record :=
  { qid := 17, idx := 0, chainPos := 0, addr := 0, words := [], clu := 1, slot := 0, cls := 0, noticeNow := false, abandoned := false,
    fetchStep := 0, doneStep := 0, attrs := sharedAttrs State.reset 1 }

/-- The last read of its second loaf is still to be answered. -/
def openRead : Access :=
  { aid := 0, port := 0, tag := 0, write := false, purpose := .data 0 0 1, addr := 0x4040, len := 64, attrs := sharedAttrs State.reset 1,
    data := [], toSend := 0, due := 0, ceilNs := 0, expiries := 0, iid := 1, key := 0, poisoned := false, checks := [], spans := [],
    holder := 0, classU := false, rob := (0, 0) }

/-- Its state; the record store is full. -/
def endingState : State :=
  { ((({ State.reset with mode := .run } : State).wr .clkGate 0 0x1FFFFFF).wr .clkGateStat 0 0x1FFFFFF) with
    slots := [endingCopy], records := List.replicate 1024 storedRecord, acc := [openRead], nextAid := 1 }

/-- Its first loaf may commit. -/
theorem endingState_commits : running endingState = true ∧ slotAt endingState 0 0 = some endingCopy ∧
    commitReady endingState endingCopy committingLoaf = true ∧ stateFault endingCopy = false ∧ federated endingState = false := by
  decide +kernel

/-- With the commit its second loaf is dropped: the packing of its lines finds the word. -/
theorem endingState_committed :
    (slotAt (endingState.commitLoaf endingCopy committingLoaf) 0 0).map (fun y => (y.phase, y.loaves)) = some (.ending, []) := by
  decide +kernel

/-- Refutes O29: the commit of a loaf drops the next one as well where an uncorrectable word stands in a landing line of that one
and the descriptor is ending (05 R170, 06 R216), so the slot's list does not go down by the committed loaf alone. -/
theorem not_loavesCommit : ¬ Obligations.LoavesCommit := by
  unfold Obligations.LoavesCommit
  rintro ⟨-, hcommit, -⟩
  obtain ⟨hrun, hslot, hready, hfault, hfed⟩ := endingState_commits
  obtain ⟨u, y, hexec, hy, -, -, hnums, -, -, hframe, -⟩ :=
    hcommit endingState 0 0 endingCopy committingLoaf (by decide) (by decide) hrun hslot rfl rfl rfl hready hfault hfed
  have hresult : (u.walkFault 0 0).settle 0 0 = endingState.commitLoaf endingCopy committingLoaf := by
    rw [checkpointStored_commits (by decide) (by decide) hslot rfl hrun hready hfault] at hexec
    exact (Host.Outcome.next.inj hexec).symm
  obtain ⟨z, hz, hshow⟩ := Option.map_eq_some_iff.1 endingState_committed
  obtain ⟨hphase, hloaves⟩ := Prod.mk.inj hshow
  rw [← hresult] at hz
  have hfull : 1024 ≤ u.records.length := by
    rw [hframe]
    exact (List.length_replicate ..).ge
  rw [settled_unchanged hfull fun w hw => by rw [hz] at hw; exact Option.some.inj hw ▸ hphase, hy] at hz
  rw [Option.some.inj hz, hloaves] at hnums
  exact absurd hnums (by decide)

end Sys2Proof.Machine
end

section
/-! PROOFS. Rounds of an arbiter, forced wins, and cut-offs at a context bank (07 R238 to R242). -/

namespace Sys2Proof.Machine

/-! Requesters of an arbiter. -/

/-- What is found, where all that the test picks are one element of the list. -/
theorem find_only {α : Type} {p : α → Bool} {xs : List α} {x : α} (hx : x ∈ xs) (hp : p x = true) (h : ∀ y ∈ xs, p y = true → y = x) :
    xs.find? p = some x := by
  cases hf : xs.find? p with
  | none => exact absurd hp (List.find?_eq_none.1 hf x hx)
  | some y => rw [h y (List.mem_of_find?_eq_some hf) (List.find?_some hf)]

theorem reqOf_idx (x : Arb) (r : Nat) : (reqOf x r).idx = r := find_key Requester.idx r x.reqs _ rfl

theorem reqOf_only {x : Arb} {r : Nat} {q : Requester} (hq : q ∈ x.reqs) (hr : q.idx = r) (h : ∀ y ∈ x.reqs, y.idx = r → y = q) :
    reqOf x r = q := by
  rw [reqOf, find_only hq (by simpa using hr) (fun y hy e => h y hy (by simpa using e)), Option.getD_some]

/-- A requester whose request is raised is one of those that the arbiter knows. -/
theorem reqOf_mem {x : Arb} {r : Nat} (h : (reqOf x r).raised = true) : reqOf x r ∈ x.reqs := by
  unfold reqOf at h ⊢
  cases hf : x.reqs.find? (fun q => q.idx == r) with
  | none =>
    rw [hf] at h
    cases h
  | some q => exact List.mem_of_find?_eq_some hf

/-- Requesters left out leave the others. -/
theorem reqOf_filter {x : Arb} {p : Requester → Bool} {r : Nat} (h : ∀ q : Requester, q.idx = r → p q = true) :
    reqOf { x with reqs := x.reqs.filter p } r = reqOf x r := by
  have hp : (fun q : Requester => decide (p q = true ∧ (q.idx == r) = true)) = fun q => q.idx == r := by
    funext q
    by_cases hq : q.idx = r
    · simp [h q hq, hq]
    · simp [hq]
  unfold reqOf
  rw [List.find?_filter, hp]

theorem reqOf_putReq_same (x : Arb) (q : Requester) : reqOf (x.putReq q) q.idx = q := by
  simp [reqOf, Arb.putReq]

theorem reqOf_putReq_ne {x : Arb} {q : Requester} {r : Nat} (h : r ≠ q.idx) : reqOf (x.putReq q) r = reqOf x r :=
  congrArg (Option.getD · _) (find_put_ne Requester.idx q x.reqs h)

/-- A request that is raised keeps its number, its counter and its lockout; it stands raised (07 R238). -/
theorem raisedReq_spec (x : Arb) (stamp r : Nat) : ∃ n, raisedReq x stamp r = { reqOf x r with raised := true, stamp := n } := by
  unfold raisedReq
  dsimp only
  split
  · next h => exact ⟨(reqOf x r).stamp, by rw [← h]⟩
  · exact ⟨stamp, rfl⟩

@[simp] theorem raisedReq_idx (x : Arb) (stamp r : Nat) : (raisedReq x stamp r).idx = r := by
  obtain ⟨n, e⟩ := raisedReq_spec x stamp r
  rw [e]
  exact reqOf_idx x r

theorem raisedReq_of_raised {x : Arb} {r : Nat} (h : (reqOf x r).raised = true) (stamp : Nat) : raisedReq x stamp r = reqOf x r :=
  if_pos h

theorem raisedReq_congr {x y : Arb} {r : Nat} (h : reqOf y r = reqOf x r) (stamp : Nat) : raisedReq y stamp r = raisedReq x stamp r := by
  rw [raisedReq, h, raisedReq]

theorem lockedOut_raisedReq (s : State) (a : Nat) (x : Arb) (stamp r : Nat) :
    lockedOut s a (raisedReq x stamp r) = lockedOut s a (reqOf x r) := by
  obtain ⟨n, e⟩ := raisedReq_spec x stamp r
  rw [e]
  rfl

theorem arbOf_putArb_ne {s : State} {x : Arb} {b : Nat} (h : b ≠ x.num) : arbOf (s.putArb x) b = arbOf s b :=
  congrArg (Option.getD · _) (find_put_ne Arb.num x s.arbs h)

theorem reqOf_mem_raisedAt {s : State} {a r : Nat} (h : (reqOf (arbOf s a) r).raised = true)
    (hl : lockedOut s a (reqOf (arbOf s a) r) = false) : r ∈ raisedAt s a :=
  List.mem_map.2 ⟨_, List.mem_filter.2 ⟨reqOf_mem h, by simp [h, hl]⟩, reqOf_idx _ r⟩

/-! The rank of a request (07 R239). -/

section
variable {x : Arb} {prio : Nat → Nat} (hprio : ∀ r, prio r < 8)
include hprio

theorem rankKey_lt (q : Requester) : rankKey x prio q < 16 * 1024 * 64 := by
  have := hprio q.idx
  unfold rankKey
  split
  · omega
  · omega

/-- What ranks first is one of the list, and no other ranks before it. -/
theorem ranksFirst_some {qs : List Requester} {b : Requester} (h : ranksFirst x prio qs = some b) :
    b ∈ qs ∧ ∀ q ∈ qs, rankKey x prio q ≤ rankKey x prio b := by
  obtain ⟨hb, hleast⟩ := leastBy_some h
  refine ⟨hb, fun q hq => ?_⟩
  have := hleast q hq
  have := rankKey_lt (x := x) hprio q
  have := rankKey_lt (x := x) hprio b
  omega

end

/-- Requests of two requesters never rank alike: the lower number ranks first among equals. -/
theorem rankKey_ne {x : Arb} {prio : Nat → Nat} {p q : Requester} (hp : p.idx < 64) (hq : q.idx < 64) (h : p.idx ≠ q.idx) :
    rankKey x prio p ≠ rankKey x prio q := by
  unfold rankKey
  generalize (if p.forced then 8 else prio p.idx) = m
  generalize (if q.forced then 8 else prio q.idx) = n
  omega

theorem leastBy_eq_none {α : Type} {f : α → Nat} {xs : List α} (h : leastBy f xs = none) : xs = [] := by
  cases xs with
  | nil => rfl
  | cons x xs =>
    unfold leastBy at h
    split at h
    · cases h
    · split at h
      · cases h
      · cases h

/-- A request that ranks before all others of a list ranks first in it. -/
theorem ranksFirst_of_before {x : Arb} {prio : Nat → Nat} (hprio : ∀ r, prio r < 8) {q : Requester} {qs : List Requester}
    (h : ∀ p ∈ qs, rankKey x prio p < rankKey x prio q) : ranksFirst x prio (q :: qs) = some q := by
  cases hf : ranksFirst x prio (q :: qs) with
  | none => cases leastBy_eq_none hf
  | some b =>
    obtain ⟨hb, hbest⟩ := ranksFirst_some hprio hf
    rcases List.mem_cons.1 hb with e | hmem
    · rw [e]
    · have := h b hmem
      have := hbest q List.mem_cons_self
      omega

/-! One decision (07 R239, R240). -/

/-- An arbiter without the requests that have ended; lockouts run on. -/
def keptArb (s : State) (a : Nat) (cands still : List Nat) : Arb :=
  { arbOf s a with reqs := (arbOf s a).reqs.filter (fun q => cands.contains q.idx || still.contains q.idx || lockedOut s a q) }

/-- A request that is not granted. -/
def Requester.loses (lim : Nat) (q : Requester) : Requester :=
  { q with wait := q.wait + 1, forced := q.forced || decide (lim ≤ q.wait + 1) }

/-- The candidates' requests in a round. -/
def candidateReqs (s : State) (a : Nat) (cands still : List Nat) (stamps : Nat → Nat) : List Requester :=
  cands.map (fun r => raisedReq (keptArb s a cands still) (stamps r) r)

/-- The requesters whose request is raised apart from the round. -/
def apartOf (w : Nat) (cands still : List Nat) : List Nat := (still.filter (fun r => r != w && !cands.contains r)).eraseDups

/-- An arbiter after a round that w has won; `forced` tells that its request was forced. -/
def roundDone (s : State) (a w : Nat) (cands still : List Nat) (stamps : Nat → Nat) (forced : Bool) : Arb :=
  let kept := keptArb s a cands still
  let apart := apartOf w cands still
  { arbOf s a with
    reqs := ((candidateReqs s a cands still stamps).filter (fun q => q.idx != w)).map (Requester.loses (waitLimit s a)) ++
      apart.map (fun r => raisedReq kept (stamps r) r) ++
      kept.reqs.filter (fun q => !cands.contains q.idx && !apart.contains q.idx)
    round := (arbOf s a).round + 1, emBarred := false, won := (arbOf s a).won + flag forced }

section
variable {s : State} {a w : Nat} {cands still : List Nat} {prio stamps : Nat → Nat}

theorem arbDecide_eq : arbDecide s a w cands still prio stamps =
    if (candidateReqs s a cands still stamps).any (fun q => lockedOut s a q) then none
    else match ranksFirst (arbOf s a) prio (candidateReqs s a cands still stamps) with
      | none => none
      | some b => if b.idx ≠ w then none else some (roundDone s a w cands still stamps b.forced) := rfl

/-- The winner of a decision is the candidate that ranks first. -/
theorem arbDecide_some {x : Arb} (h : arbDecide s a w cands still prio stamps = some x) :
    w ∈ cands ∧ ∃ f, x = roundDone s a w cands still stamps f := by
  rw [arbDecide_eq] at h
  split at h
  · cases h
  · cases hb : ranksFirst (arbOf s a) prio (candidateReqs s a cands still stamps) with
    | none =>
      rw [hb] at h
      cases h
    | some b =>
      rw [hb] at h
      dsimp only at h
      split at h
      · cases h
      · next hw =>
        obtain ⟨r, hr, e⟩ := List.mem_map.1 (leastBy_some hb).1
        have hidx : b.idx = r := by rw [← e, raisedReq_idx]
        have hbw : b.idx = w := not_not.1 hw
        exact ⟨hbw ▸ hidx ▸ hr, b.forced, (Option.some.inj h).symm⟩

theorem reqOf_keptArb {r : Nat} (h : r ∈ cands) : reqOf (keptArb s a cands still) r = reqOf (arbOf s a) r :=
  reqOf_filter fun q e => by simp [e, h]

/-- Where w ranks before the other candidates and none is locked out, the round is its. -/
theorem arbDecide_won {behind : List Nat} (hprio : ∀ r, prio r < 8)
    (hlock : ∀ r ∈ w :: behind, lockedOut s a (reqOf (arbOf s a) r) = false)
    (hrank : ∀ r ∈ behind, rankKey (arbOf s a) prio (raisedReq (arbOf s a) (stamps r) r) <
      rankKey (arbOf s a) prio (raisedReq (arbOf s a) (stamps w) w)) :
    ∃ f, arbDecide s a w (w :: behind) still prio stamps = some (roundDone s a w (w :: behind) still stamps f) := by
  have hreqs : candidateReqs s a (w :: behind) still stamps = (w :: behind).map (fun r => raisedReq (arbOf s a) (stamps r) r) :=
    List.map_congr_left fun r hr => raisedReq_congr (reqOf_keptArb hr) _
  have hfree : (candidateReqs s a (w :: behind) still stamps).any (fun q => lockedOut s a q) = false := by
    rw [hreqs, List.any_map, List.any_eq_false]
    intro r hr
    simp [lockedOut_raisedReq, hlock r hr]
  have hfirst : ranksFirst (arbOf s a) prio (candidateReqs s a (w :: behind) still stamps) =
      some (raisedReq (arbOf s a) (stamps w) w) := by
    rw [hreqs, List.map_cons]
    exact ranksFirst_of_before hprio (List.forall_mem_map.2 hrank)
  rw [arbDecide_eq, hfree, hfirst, if_neg Bool.false_ne_true]
  exact ⟨_, if_neg (not_not.2 (raisedReq_idx _ _ _))⟩

variable {f : Bool}

/-- The requests after a round: those that lost it, those raised apart from it, and lockouts that run on. -/
theorem mem_roundDone {q : Requester} : q ∈ (roundDone s a w cands still stamps f).reqs ↔
    (∃ r ∈ cands, r ≠ w ∧ q = (raisedReq (arbOf s a) (stamps r) r).loses (waitLimit s a)) ∨
    (∃ r ∈ apartOf w cands still, q = raisedReq (keptArb s a cands still) (stamps r) r) ∨
    (q ∈ (keptArb s a cands still).reqs ∧ q.idx ∉ cands ∧ q.idx ∉ apartOf w cands still) := by
  have hlost : q ∈ ((candidateReqs s a cands still stamps).filter (fun q => q.idx != w)).map (Requester.loses (waitLimit s a)) ↔
      ∃ r ∈ cands, r ≠ w ∧ q = (raisedReq (arbOf s a) (stamps r) r).loses (waitLimit s a) := by
    constructor
    · intro hq
      obtain ⟨p, hp, rfl⟩ := List.mem_map.1 hq
      obtain ⟨hmem, hne⟩ := List.mem_filter.1 hp
      obtain ⟨r, hr, rfl⟩ := List.mem_map.1 hmem
      exact ⟨r, hr, by simpa using hne, by rw [raisedReq_congr (reqOf_keptArb hr)]⟩
    · rintro ⟨r, hr, hne, rfl⟩
      exact List.mem_map.2 ⟨_, List.mem_filter.2 ⟨List.mem_map.2 ⟨r, hr, rfl⟩, by simpa using hne⟩,
        by rw [raisedReq_congr (reqOf_keptArb hr)]⟩
  rw [roundDone, List.mem_append, List.mem_append, hlost, or_assoc]
  refine or_congr Iff.rfl (or_congr ?_ ?_)
  · simp only [List.mem_map, eq_comm]
  · rw [List.mem_filter]
    simp

theorem mem_apartOf {r : Nat} (h : r ∈ apartOf w cands still) : r ∈ still ∧ r ≠ w ∧ r ∉ cands := by
  simpa [apartOf] using h

/-- The winner's request is gone. -/
theorem roundDone_winner (hw : w ∈ cands) : ∀ q ∈ (roundDone s a w cands still stamps f).reqs, q.idx ≠ w := by
  intro q hq
  rcases mem_roundDone.1 hq with ⟨r, -, hne, rfl⟩ | ⟨r, hr, rfl⟩ | ⟨-, hc, -⟩
  · exact fun e => hne ((raisedReq_idx _ _ _).symm.trans e)
  · exact fun e => (mem_apartOf hr).2.1 ((raisedReq_idx _ _ _).symm.trans e)
  · exact fun e => hc (e ▸ hw)

/-- A candidate that is not granted has lost the round. -/
theorem reqOf_roundDone {r : Nat} (hr : r ∈ cands) (hne : r ≠ w) :
    reqOf (roundDone s a w cands still stamps f) r = (raisedReq (arbOf s a) (stamps r) r).loses (waitLimit s a) := by
  refine reqOf_only (mem_roundDone.2 (.inl ⟨r, hr, hne, rfl⟩)) (raisedReq_idx _ _ _) fun y hy e => ?_
  rcases mem_roundDone.1 hy with ⟨i, -, -, rfl⟩ | ⟨i, hi, rfl⟩ | ⟨-, hc, -⟩
  · rw [show i = r from (raisedReq_idx _ _ _).symm.trans e]
  · rw [raisedReq_idx] at e
    exact absurd (e ▸ hr) (mem_apartOf hi).2.2
  · exact absurd (e ▸ hr) hc

/-- What stands after a round took part, is raised apart from it, or is locked out. -/
theorem roundDone_stands : ∀ q ∈ (roundDone s a w cands still stamps f).reqs, q.idx ∈ cands ∨ q.idx ∈ still ∨ lockedOut s a q = true := by
  intro q hq
  rcases mem_roundDone.1 hq with ⟨r, hr, -, rfl⟩ | ⟨r, hr, rfl⟩ | ⟨hk, -, -⟩
  · exact .inl ((raisedReq_idx _ _ _).symm ▸ hr)
  · exact .inr (.inl ((raisedReq_idx _ _ _).symm ▸ (mem_apartOf hr).1))
  · simpa [or_assoc] using (List.mem_filter.1 hk).2

end

theorem Requester.loses_forced {lim : Nat} {q : Requester} (h : lim ≤ q.wait + 1) : (q.loses lim).forced = true := by
  simp [Requester.loses, h]

/-- A round, as the statement of R240 describes it. -/
theorem arbDecide_round {s : State} {a w : Nat} {cands still : List Nat} {prio stamps : Nat → Nat} {x : Arb}
    (h : arbDecide s a w cands still prio stamps = some x) :
    w ∈ cands ∧ x.round = (arbOf s a).round + 1 ∧ (∀ q ∈ x.reqs, q.idx ≠ w) ∧
    (∀ r ∈ cands, r ≠ w → ∃ q ∈ x.reqs, q.idx = r ∧ q.raised = true ∧
      q.wait = (raisedReq (arbOf s a) (stamps r) r).wait + 1 ∧ q.stamp = (raisedReq (arbOf s a) (stamps r) r).stamp ∧
      (waitLimit s a ≤ q.wait → q.forced = true)) ∧
    (∀ q ∈ x.reqs, q.idx ∈ cands ∨ q.idx ∈ still ∨ lockedOut s a q = true) := by
  obtain ⟨hw, f, rfl⟩ := arbDecide_some h
  refine ⟨hw, rfl, roundDone_winner hw, fun r hr hne => ?_, roundDone_stands⟩
  obtain ⟨n, e⟩ := raisedReq_spec (arbOf s a) (stamps r) r
  exact ⟨_, mem_roundDone.2 (.inl ⟨r, hr, hne, rfl⟩), raisedReq_idx _ _ _, by rw [e]; rfl, rfl, rfl, Requester.loses_forced⟩

/-! A context bank's round (07 R239 to R242). -/

theorem bankPrio_lt (s : State) (r : Nat) : bankPrio s r < 8 := bits_lt _ _ _

/-- The requesters that lose the round which r wins. -/
def behindOf (s : State) (a r : Nat) (cands waits : List Nat) (prio : Nat → Nat) : List Nat :=
  (cands ++ (raisedAt s a).filter (fun i => !waits.contains i)).eraseDups.filter (fun i => i != r &&
    decide (rankKey (arbOf s a) prio (raisedReq (arbOf s a) (arbOf s a).round i) <
      rankKey (arbOf s a) prio (raisedReq (arbOf s a) (arbOf s a).round r)) && !lockedOut s a (reqOf (arbOf s a) i))

theorem mem_behindOf {s : State} {a r i : Nat} {cands waits : List Nat} {prio : Nat → Nat} : i ∈ behindOf s a r cands waits prio ↔
    (i ∈ cands ∨ i ∈ raisedAt s a ∧ i ∉ waits) ∧ i ≠ r ∧
    rankKey (arbOf s a) prio (raisedReq (arbOf s a) (arbOf s a).round i) <
      rankKey (arbOf s a) prio (raisedReq (arbOf s a) (arbOf s a).round r) ∧ lockedOut s a (reqOf (arbOf s a) i) = false := by
  simp [behindOf, and_assoc]

/-- A granted requester wins a round of those behind it. -/
theorem State.grantAmong_won {s : State} {a r : Nat} {cands waits : List Nat} {prio : Nat → Nat} (hprio : ∀ i, prio i < 8)
    (hl : lockedOut s a (reqOf (arbOf s a) r) = false) :
    ∃ (still : List Nat) (f : Bool), s.grantAmong a r cands waits prio =
      s.putArb (roundDone s a r (r :: behindOf s a r cands waits prio) still (fun _ => (arbOf s a).round) f) := by
  obtain ⟨f, e⟩ := arbDecide_won (s := s) (a := a) (w := r) (behind := behindOf s a r cands waits prio)
    (still := waits ++ (cands ++ (raisedAt s a).filter (fun i => !waits.contains i)).eraseDups) (stamps := fun _ => (arbOf s a).round) hprio
    (fun i hi => by
      rcases List.mem_cons.1 hi with rfl | hi
      · exact hl
      · exact (mem_behindOf.1 hi).2.2.2)
    (fun i hi => (mem_behindOf.1 hi).2.2.1)
  refine ⟨waits ++ (cands ++ (raisedAt s a).filter (fun i => !waits.contains i)).eraseDups, f, ?_⟩
  show (State.arbGrant s a r (r :: behindOf s a r cands waits prio) _ prio _).getD s = _
  rw [State.arbGrant, e]
  rfl

/-- The best of some requesters is one of them, and no other ranks before it. -/
theorem bestOf_some {s : State} {a w : Nat} {prio : Nat → Nat} {rs : List Nat} (hprio : ∀ i, prio i < 8) (h : bestOf s a prio rs = some w) :
    w ∈ rs ∧ ∀ r ∈ rs, rankKey (arbOf s a) prio (raisedReq (arbOf s a) (arbOf s a).round r) ≤
      rankKey (arbOf s a) prio (raisedReq (arbOf s a) (arbOf s a).round w) := by
  obtain ⟨b, hb, rfl⟩ := Option.map_eq_some_iff.1 h
  obtain ⟨hmem, hbest⟩ := ranksFirst_some hprio hb
  obtain ⟨w, hw, rfl⟩ := List.mem_map.1 hmem
  rw [raisedReq_idx]
  exact ⟨hw, fun r hr => hbest _ (List.mem_map.2 ⟨r, hr, rfl⟩)⟩

/-- The arbiter after the grant of a context bank: an access of the winner has gone, and its next one raises its request. -/
def bankAfter (x : Arb) (w : Nat) : Arb :=
  let y := { x with waiting := x.waiting.erase w }
  if y.waiting.contains w then y.putReq (raisedReq y y.round w) else y

theorem bankAfter_spec (x : Arb) (w : Nat) : (bankAfter x w).num = x.num ∧ (bankAfter x w).round = x.round ∧
    (bankAfter x w).waiting = x.waiting.erase w ∧ ∀ r, r ≠ w → reqOf (bankAfter x w) r = reqOf x r := by
  unfold bankAfter
  dsimp only
  split
  · exact ⟨rfl, rfl, rfl, fun r hr => reqOf_putReq_ne (by rwa [raisedReq_idx])⟩
  · exact ⟨rfl, rfl, rfl, fun _ _ => rfl⟩

theorem State.bankGrant_best {s : State} {a w : Nat} (h : bestOf s a (bankPrio s) (raisedAt s a) = some w) :
    s.bankGrant a = (s.grantAmong a w (raisedAt s a) [] (bankPrio s)).putArb
      (bankAfter (arbOf (s.grantAmong a w (raisedAt s a) [] (bankPrio s)) a) w) := by
  unfold State.bankGrant
  dsimp only
  rw [h]
  rfl

/-- A bank's round, at a requester that loses it: the winner's access has gone, and no other arbiter has changed. -/
theorem State.bankGrant_loses {s : State} {a r w : Nat} (hr : (reqOf (arbOf s a) r).raised = true)
    (hrl : lockedOut s a (reqOf (arbOf s a) r) = false) (hwl : lockedOut s a (reqOf (arbOf s a) w) = false)
    (hbest : bestOf s a (bankPrio s) (raisedAt s a) = some w) (hne : w ≠ r) (hr64 : r < 64) (hw64 : w < 64) :
    reqOf (arbOf (s.bankGrant a) a) r = (reqOf (arbOf s a) r).loses (waitLimit s a) ∧
    (arbOf (s.bankGrant a) a).round = (arbOf s a).round + 1 ∧
    (arbOf (s.bankGrant a) a).waiting = (arbOf s a).waiting.erase w ∧ ∀ b, b ≠ a → arbOf (s.bankGrant a) b = arbOf s b := by
  have hmem : r ∈ raisedAt s a := reqOf_mem_raisedAt hr hrl
  have hbehind : r ∈ behindOf s a w (raisedAt s a) [] (bankPrio s) :=
    mem_behindOf.2 ⟨.inl hmem, hne.symm, lt_of_le_of_ne ((bestOf_some (bankPrio_lt s) hbest).2 r hmem)
      (rankKey_ne (by rwa [raisedReq_idx]) (by rwa [raisedReq_idx]) (by simpa using hne.symm)), hrl⟩
  obtain ⟨still, f, hgrant⟩ := State.grantAmong_won (r := w) (cands := raisedAt s a) (waits := []) (bankPrio_lt s) hwl
  rw [State.bankGrant_best hbest, hgrant]
  set x := roundDone s a w (w :: behindOf s a w (raisedAt s a) [] (bankPrio s)) still (fun _ => (arbOf s a).round) f with hx
  have hnum : x.num = a := arbOf_num s a
  rw [arbOf_putArb_at hnum]
  obtain ⟨hn, hround, hwait, hreq⟩ := bankAfter_spec x w
  have hn' := hn.trans hnum
  rw [arbOf_putArb_at hn', hround, hwait, hreq r hne.symm, hx, reqOf_roundDone (List.mem_cons_of_mem _ hbehind) hne.symm,
    raisedReq_of_raised hr]
  refine ⟨rfl, rfl, rfl, fun b hb => ?_⟩
  rw [arbOf_putArb_ne (by rwa [hn']), arbOf_putArb_ne (by rwa [hnum])]

/-! Forced wins (07 R240). -/

/-- The first round that leaves the requester forced is run; where there is none, nothing changes. -/
theorem forcedWin_runs {s : State} {a r : Nat} (hr : r < arbSize a) (hf : s.fatal = false) (hra : (reqOf (arbOf s a) r).raised = true)
    (hfo : (reqOf (arbOf s a) r).forced = false) (hl : lockedOut s a (reqOf (arbOf s a) r) = false) :
    exec (.forcedWin a r) s = .next (((roundsOf s a r).find? (fun t => (reqOf (arbOf t a) r).forced)).getD s) := by
  show execForcedWin a r s = _
  unfold execForcedWin
  rw [if_neg (by omega)]
  dsimp only
  rw [hf, hl, hra, hfo]
  rfl

theorem roundsOf_bank {s : State} {a r : Nat} (h16 : 16 ≤ a) (h32 : a < 32) : roundsOf s a r = [s.bankGrant a] := by
  unfold roundsOf
  rw [if_neg (by omega), if_pos h32]

/-! Cut-offs at a context bank (07 R242). -/

/-- Logging a fault writes LOG_LOST, ERR_LOST_SEQ and ERR_NEXT_SEQ only (11 R357 to R359). -/
theorem State.rd_logErr {q : Reg} {i : Nat} (hs : q.addr i ≠ Reg.addr .errLogStat 0) (hl : q.addr i ≠ Reg.addr .errLostSeq 0)
    (hn : q.addr i ≠ Reg.addr .errNextSeq 0) (s : State) (e : ErrRec) : (s.logErr e).rd q i = s.rd q i := by
  have hlose : ∀ (t : State) (n : W32), (t.loseErr n).rd q i = t.rd q i := by
    intro t n
    unfold State.loseErr
    dsimp only
    split
    · exact State.rd_sEvent_ne _ _ _ _ _ _ hs
    · rw [State.rd_sEvent_ne _ _ _ _ _ _ hs, State.rd_wr_other _ _ _ _ _ _ hl]
  unfold State.logErr
  dsimp only
  split
  · rfl
  · generalize (if s.rd .errNextSeq 0 + 1 = 0 then 1 else s.rd .errNextSeq 0 + 1) = v
    split
    · rw [hlose, State.rd_wr_other _ _ _ _ _ _ hn]
    · exact State.rd_wr_other s _ _ _ _ _ hn

theorem State.rd_logErr_schArbStat (s : State) (e : ErrRec) {a : Nat} (h : a < 34) :
    (s.logErr e).rd .schArbStat a = s.rd .schArbStat a := by
  have haddr : Reg.addr .schArbStat a = 0x3280 + 4 * a := rfl
  exact State.rd_logErr (by rw [haddr]; show _ ≠ 0x5110; omega) (by rw [haddr]; show _ ≠ 0x5114; omega)
    (by rw [haddr]; show _ ≠ 0x5118; omega) s e

theorem holdCeil_bank {s : State} {a r : Nat} (h16 : 16 ≤ a) (h32 : a < 32) (hr : r < 7) (hw : awake s)
    (hl : lockedOut s a (reqOf (arbOf s a) r) = false) :
    exec (.holdCeil a r) s = .next (((s.cutOff a r (cyclePs s 19)).bankWait a r true).logCutoff a r) := by
  show execHoldCeil a r s = _
  unfold execHoldCeil
  rw [if_neg (by rw [arbSize, if_pos h32]; omega), hw.1, hw.2, hl, if_neg (by decide), if_neg (by omega), if_pos h32]

/-- A cut-off arbiter's state, and its counter. -/
theorem State.cutOff_shared {s : State} {a r ps : Nat} (h : a < 34) : s.cutOff a r ps =
    (s.putArb ((arbOf s a).putReq { reqOf (arbOf s a) r with lockout := s.nomNs + (penalty s a * ps + 999) / 1000 })).bump
      .schArbStat a 16 16 1 := by
  unfold State.cutOff
  simp only [if_pos h]

/-- A cut-off requester of a bank is locked out, and its access is to be made again before its others. -/
theorem State.cutOff_bankWait {s : State} {a r ps : Nat} (h : a < 34) :
    (reqOf (arbOf ((s.cutOff a r ps).bankWait a r true) a) r).lockout = s.nomNs + (penalty s a * ps + 999) / 1000 ∧
    (arbOf ((s.cutOff a r ps).bankWait a r true) a).waiting = r :: (arbOf s a).waiting := by
  rw [State.cutOff_shared h]
  set q : Requester := { reqOf (arbOf s a) r with lockout := s.nomNs + (penalty s a * ps + 999) / 1000 }
  have hidx : q.idx = r := reqOf_idx _ r
  set t := (s.putArb ((arbOf s a).putReq q)).bump .schArbStat a 16 16 1
  have harb : arbOf t a = (arbOf s a).putReq q := arbOf_putArb_at (arbOf_num s a)
  have hreq : reqOf (arbOf t a) r = q := by rw [harb, ← hidx, reqOf_putReq_same]
  have hwait : arbOf (t.bankWait a r true) a =
      { (arbOf t a).putReq (raisedReq (arbOf t a) (arbOf t a).round r) with waiting := r :: (arbOf t a).waiting } :=
    arbOf_putArb_at (arbOf_num t a)
  obtain ⟨n, hn⟩ := raisedReq_spec (arbOf t a) (arbOf t a).round r
  have hraised := reqOf_putReq_same (arbOf t a) (raisedReq (arbOf t a) (arbOf t a).round r)
  rw [raisedReq_idx] at hraised
  rw [hwait]
  refine ⟨?_, by rw [harb]; rfl⟩
  show (reqOf ((arbOf t a).putReq _) r).lockout = _
  rw [hraised, hn, hreq]

/-- Settles O32: rounds as in `arbDecide_round`, the losing round of a bank as in `State.bankGrant_loses`, and its cut-off as in
`State.cutOff_bankWait`. -/
theorem arbiterLimits : Obligations.ArbiterLimits := by
  refine ⟨fun s a w cands still prio stamps x => arbDecide_round, ?_, ?_, ?_⟩
  · intro s a r hr hf hra hfo hl
    refine ⟨_, forcedWin_runs hr hf hra hfo hl, ?_⟩
    cases hfind : (roundsOf s a r).find? (fun t => (reqOf (arbOf t a) r).forced) with
    | none =>
      exact ⟨.inl rfl, fun ⟨u, hu, hforced⟩ => absurd hforced (List.find?_eq_none.1 hfind u hu)⟩
    | some u =>
      have hforced : (reqOf (arbOf u a) r).forced = true := List.find?_some (p := fun t => (reqOf (arbOf t a) r).forced) hfind
      exact ⟨.inr ⟨List.mem_of_find?_eq_some hfind, hforced⟩, fun _ => hforced⟩
  · intro s a r w h16 h32 hr hf hra hfo hl hbest hne hw hwl hlim
    obtain ⟨hreq, hround, hwait, hothers⟩ := State.bankGrant_loses hra hl hwl hbest hne (by omega) (by omega)
    have hforced : (reqOf (arbOf (s.bankGrant a) a) r).forced = true := by
      rw [hreq]
      exact Requester.loses_forced hlim
    obtain ⟨y, hframe⟩ := State.bankGrant_frame s a
    refine ⟨s.bankGrant a, ?_, hforced, by rw [hreq]; rfl, hround, hwait, hothers, by rw [hframe]⟩
    rw [forcedWin_runs (by rw [arbSize, if_pos h32]; exact hr) hf hra hfo hl, roundsOf_bank h16 h32,
      List.find?_cons_of_pos (p := fun t => (reqOf (arbOf t a) r).forced) hforced]
    rfl
  · intro s a r h16 h32 hr haw hl hwf
    obtain ⟨hlock, hwait⟩ := State.cutOff_bankWait (s := s) (r := r) (ps := cyclePs s 19) (show a < 34 by omega)
    obtain ⟨m, q, hlog⟩ := State.logErr_frame ((s.cutOff a r (cyclePs s 19)).bankWait a r true)
      (mkErr 0 (arbDomain a) 0x36 0 0 63 0 0 a r)
    have hcount : (((s.cutOff a r (cyclePs s 19)).bankWait a r true).logCutoff a r).fld .schArbStat a 16 16 =
        (s.fld .schArbStat a 16 16 + 1) % 2 ^ 16 := by
      rw [State.fld, State.logCutoff, State.rd_logErr_schArbStat _ _ (by omega), State.cutOff_shared (by omega)]
      exact State.fld_bump _ _ _ _ _ _ hwf (by decide)
    refine ⟨_, holdCeil_bank h16 h32 hr haw hl, ?_, ?_, hcount, ?_⟩
    · rw [State.logCutoff, hlog]
      exact hlock
    · rw [State.logCutoff, hlog]
      exact hwait
    · rw [State.logCutoff, hlog, State.cutOff_shared (by omega)]
      rfl

end Sys2Proof.Machine
end

section
/-! PROOFS. What the scheduler chooses, visits, binds and promotions (07 R218 to R224, R229; 02 R65). -/

namespace Sys2Proof.Machine

/-! The queue chosen (07 R218, R220, R221). -/

/-- The queue stands, eligible for cluster `clu`, in the rotation of a class (07 R218, R220). -/
def Choosable (s : State) (home clu q cls : Nat) : Prop :=
  cls < 4 ∧ ∃ r ∈ s.ready, r.qid = q ∧ eligible s r clu = true ∧ inRotation s home cls r = true

theorem nextQueue_choosable {s : State} {home clu cls iid q : Nat} (hcls : cls < 4) (h : nextQueue s home clu cls iid = some q) :
    Choosable s home clu q cls := by
  have hmem : q ∈ (s.ready.filter (fun r => inRotation s home cls r && eligible s r clu && decide (iidOf s r.qid = iid))).map (·.qid) := by
    unfold nextQueue at h
    dsimp only at h
    split at h
    · next hq => exact Option.some.inj h ▸ (List.mem_filter.1 (leastBy_some hq).1).1
    · exact (leastBy_some h).1
  obtain ⟨r, hr, rfl⟩ := List.mem_map.1 hmem
  obtain ⟨hready, hp⟩ := List.mem_filter.1 hr
  simp only [Bool.and_eq_true] at hp
  exact ⟨hcls, r, hready, rfl, hp.1.2, hp.1.1⟩

/-- The promoted queues that may be bound (07 R221). -/
def promotedQueues (s : State) (home clu : Nat) : List Ready :=
  s.ready.filter (fun r => r.promoted.isSome && eligible s r clu && (List.range 4).any (fun cls => inRotation s home cls r))

theorem mem_promotedQueues {s : State} {home clu : Nat} {r : Ready} : r ∈ promotedQueues s home clu ↔
    r ∈ s.ready ∧ r.promoted.isSome = true ∧ eligible s r clu = true ∧ ∃ cls, cls < 4 ∧ inRotation s home cls r = true := by
  simp [promotedQueues, and_assoc]

/-- A promoted queue is taken in the first of its rotations. -/
theorem State.chooseBind_promoted {s : State} {home clu : Nat} {r : Ready}
    (h : leastBy (fun r : Ready => r.promoted.getD 0) (promotedQueues s home clu) = some r) :
    ∃ cls, s.chooseBind home clu = (s, some (r.qid, cls)) ∧ Choosable s home clu r.qid cls := by
  obtain ⟨hready, -, hel, k, hk, hrot⟩ := mem_promotedQueues.1 (leastBy_some h).1
  obtain ⟨cls, hcls⟩ :=
    Option.isSome_iff_exists.1 (List.find?_isSome (p := fun cls => inRotation s home cls r).2 ⟨k, List.mem_range.2 hk, hrot⟩)
  refine ⟨cls, ?_, List.mem_range.1 (List.mem_of_find?_eq_some hcls), r, hready, rfl, hel,
    List.find?_some (p := fun cls => inRotation s home cls r) hcls⟩
  unfold State.chooseBind
  dsimp only
  rw [← promotedQueues, h]
  dsimp only
  rw [hcls, Option.map_some]

/-- Whatever is chosen may be. -/
theorem State.chooseBind_choosable (s : State) (home clu : Nat) :
    ∀ q cls, (s.chooseBind home clu).2 = some (q, cls) → Choosable (s.chooseBind home clu).1 home clu q cls := by
  cases hp : leastBy (fun r : Ready => r.promoted.getD 0) (promotedQueues s home clu) with
  | some r =>
    obtain ⟨k, e, hk⟩ := State.chooseBind_promoted hp
    rw [e]
    rintro q cls ⟨⟩
    exact hk
  | none =>
    unfold State.chooseBind
    rw [← promotedQueues]
    simp only [hp]
    refine List.foldlRecOn (motive := fun acc : State × Option (Nat × Nat) => ∀ q cls, acc.2 = some (q, cls) →
      Choosable acc.1 home clu q cls) (List.range 4) _ (fun _ _ h => nomatch h) fun acc hacc k hk => ?_
    split
    · exact hacc
    · split
      · intro q cls h
        obtain ⟨q', hq, e⟩ := Option.map_eq_some_iff.1 h
        obtain ⟨rfl, rfl⟩ := Prod.mk.inj e
        exact nextQueue_choosable (List.mem_range.1 hk) hq
      · exact fun _ _ h => nomatch h

/-- What an eligible queue meets (07 R218). -/
theorem eligible_conditions {s : State} {r : Ready} {clu : Nat} {c : QCtx} (h : eligible s r clu = true) (hc : ctxOf s r.qid = some c) :
    inService s clu = true ∧ awaitsPlace s clu = false ∧ s.instState c.iid.toNat = 1 ∧
    weightIn s (schedCluster s c.home.toNat) c.iid.toNat ≠ 0 ∧
    bucketsPositive s c.iid.toNat = true ∧ overlapUsed s r.qid < c.overlapM1.toNat + 1 ∧ heldBack s r.qid = false ∧
    setFull s r.qid = false ∧ cluEn s c.home.toNat = true ∧ homedAway s r.qid = false ∧
    (r.resume = false → isAdopting s r.qid = false → c.state = qActive ∧ c.piSeen ≠ nextIndex s r.qid c) ∧
    (r.resume = true → c.state = qError) := by
  simp only [eligible, hc, wantsBind, instTakes, clusterTakes, overlapRoom, Bool.and_eq_true, Bool.not_eq_true', decide_eq_true_eq] at h
  obtain ⟨⟨⟨⟨⟨⟨⟨⟨⟨-, hstate⟩, hover⟩, hheld⟩, -⟩, ⟨⟨⟨hinst, hweight⟩, hbuckets⟩, -⟩⟩, haway⟩, hen⟩, hset⟩, ⟨hserv, -⟩, hplace⟩ := h
  refine ⟨hserv, hplace, hinst, hweight, hbuckets, hover, hheld, hset, hen, haway, fun hr ha => ?_, fun hr => ?_⟩
  · rw [if_neg (by simp [hr]), if_neg (by simp [ha])] at hstate
    simpa using hstate
  · rw [if_pos hr] at hstate
    simpa using (Bool.and_eq_true_iff.1 hstate).1

/-- The next bind reads the first slot from F on that no channel holds (02 R65). -/
theorem nextIndex_first {s : State} {qid k : Nat} {c : QCtx}
    (hbusy : ∀ j, j < k → (earlySlots s qid).any (fun x => decide (x.slotIdx = c.f + BitVec.ofNat 32 j)) = true)
    (hk : k ≤ (earlySlots s qid).length) (hfree : (earlySlots s qid).any (fun x => decide (x.slotIdx = c.f + BitVec.ofNat 32 k)) = false) :
    nextIndex s qid c = c.f + BitVec.ofNat 32 k := by
  have hfind : (List.range ((earlySlots s qid).length + 1)).find?
      (fun k => !(earlySlots s qid).any (fun x => decide (x.slotIdx = c.f + BitVec.ofNat 32 k))) = some k := by
    rw [List.find?_range_eq_some]
    exact ⟨by rw [hfree]; rfl, List.mem_range.2 (by omega), fun j hj => by rw [hbusy j hj]; rfl⟩
  rw [nextIndex, hfind, Option.getD_some]

/-! Deficits and visits (07 R223, R225, R229). -/

theorem schedOf_putSched_at {s : State} {x : Sched} {n : Nat} (h : x.clu = n) : schedOf (s.putSched x) n = x := by
  subst h
  exact schedOf_putSched s x

theorem schedOf_putSched_ne {s : State} {x : Sched} {n : Nat} (h : n ≠ x.clu) : schedOf (s.putSched x) n = schedOf s n :=
  congrArg (Option.getD · _) (find_put_ne Sched.clu x s.sched h)

/-- A deficit within its limits (07 R225). -/
def clampDef (limit d : Int) : Int := max (-(2 : Int) ^ 39) (min limit d)

theorem schedOf_addDef (s : State) (home iid : Nat) (d : Int) : schedOf (s.addDef home iid d) home =
    { schedOf s home with defs := assocPut (schedOf s home).defs iid (clampDef (defLimit s home iid) (defOf s home iid + d)) } :=
  schedOf_putSched_at (schedOf_clu s home)

theorem defOf_addDef_ne {s : State} {home iid n : Nat} (h : n ≠ iid) (d : Int) : defOf (s.addDef home iid d) home n = defOf s home n := by
  rw [defOf, schedOf_addDef, assocGet_assocPut_ne h, defOf]

theorem defLimit_nonneg (s : State) (home iid : Nat) : 0 ≤ defLimit s home iid := by
  unfold defLimit
  split
  · exact Int.natCast_nonneg _
  · exact Int.natCast_nonneg _

/-- The limit of a deficit is that of the last new visit. -/
theorem defLimit_addDef (s : State) (home iid n : Nat) (d : Int) : defLimit (s.addDef home iid d) home n = defLimit s home n := by
  rw [defLimit, schedOf_addDef]
  rfl

/-- A new visit is in progress, with the WEIGHT and CLASS_CAP now in force, and has taken its quantum (07 R223, R229). -/
theorem State.beginVisit_spec (s : State) (home cls iid : Nat) :
    visitIn (s.beginVisit home cls iid) home cls = some { cls := cls, iid := iid, weight := weight s iid, cap := classCap s iid } ∧
    weightIn (s.beginVisit home cls iid) home iid = weight s iid ∧
    defOf (s.beginVisit home cls iid) home iid =
      clampDef (defLimit (s.beginVisit home cls iid) home iid) (defOf s home iid + quantum s (weight s iid)) := by
  unfold State.beginVisit
  extract_lets x u
  have hu : schedOf u home = _ := schedOf_putSched_at (schedOf_clu s home)
  have hdef : defOf u home iid = defOf s home iid := by
    rw [defOf, hu, defOf]
  refine ⟨?_, ?_, ?_⟩
  · rw [visitIn, schedOf_addDef, hu]
    simp
  · rw [weightIn, visitOf, schedOf_addDef, hu]
    simp
  · rw [defLimit_addDef, ← hdef]
    exact defOf_addDef u home iid _

/-- Some eligible queue of the instance is left in the cluster's rotations (07 R223). -/
def queueLeft (s : State) (home clu iid : Nat) : Bool :=
  s.ready.any (fun r => eligible s r clu && decide (iidOf s r.qid = iid) && (List.range 4).any (fun k => inRotation s home k r))

/-- The deficits after the end of a visit: that of an instance with no eligible queue left is not kept. -/
def State.defsSettled (s : State) (home clu iid : Nat) : State :=
  if queueLeft s home clu iid then s else s.addDef home iid (min 0 (- defOf s home iid))

theorem State.schedOf_endVisit (s : State) (home clu cls iid : Nat) : schedOf (s.endVisit home clu cls iid) home =
    { schedOf (s.defsSettled home clu iid) home with
      visits := (schedOf (s.defsSettled home clu iid) home).visits.filter (fun v => v.cls != cls)
      last := assocPut (schedOf (s.defsSettled home clu iid) home).last cls iid } :=
  schedOf_putSched_at (schedOf_clu _ home)

theorem defOf_endVisit_eq (s : State) (home clu cls iid n : Nat) :
    defOf (s.endVisit home clu cls iid) home n = defOf (s.defsSettled home clu iid) home n := by
  rw [defOf, State.schedOf_endVisit, defOf]

theorem visitIn_endVisit (s : State) (home clu cls iid : Nat) : visitIn (s.endVisit home clu cls iid) home cls = none := by
  rw [visitIn, State.schedOf_endVisit]
  simp

theorem defOf_endVisit_ne {s : State} {home iid n : Nat} (h : n ≠ iid) (clu cls : Nat) :
    defOf (s.endVisit home clu cls iid) home n = defOf s home n := by
  rw [defOf_endVisit_eq, State.defsSettled]
  split
  · rfl
  · exact defOf_addDef_ne h _

theorem defOf_endVisit_left {s : State} {home clu iid : Nat} (h : queueLeft s home clu iid = true) (cls : Nat) :
    defOf (s.endVisit home clu cls iid) home iid = defOf s home iid := by
  rw [defOf_endVisit_eq, State.defsSettled, if_pos h]

theorem defOf_endVisit_spent {s : State} {home clu iid : Nat} (h : queueLeft s home clu iid = false)
    (hd : -(2 : Int) ^ 39 ≤ defOf s home iid) (cls : Nat) :
    defOf (s.endVisit home clu cls iid) home iid = min (defOf s home iid) 0 := by
  rw [defOf_endVisit_eq, State.defsSettled, if_neg (by simp [h]), defOf_addDef]
  have := defLimit_nonneg s home iid
  omega

/-- A deficit after a debit, which is not kept where the visit has ended with it (07 R223). -/
def KeptOrSpent (d e : Int) : Prop := e = d ∨ 0 < d ∧ e = 0

theorem KeptOrSpent.endVisit {s : State} {home n : Nat} {d : Int} (hd : -(2 : Int) ^ 39 ≤ d) (h : KeptOrSpent d (defOf s home n))
    (clu cls iid : Nat) : KeptOrSpent d (defOf (s.endVisit home clu cls iid) home n) := by
  by_cases hn : n = iid
  · subst hn
    cases hl : queueLeft s home clu n with
    | true => rwa [defOf_endVisit_left hl]
    | false =>
      unfold KeptOrSpent at h ⊢
      rw [defOf_endVisit_spent hl (by omega)]
      omega
  · rwa [defOf_endVisit_ne hn]

theorem State.endVisit_frame (s : State) (home clu cls iid : Nat) : ∃ d, s.endVisit home clu cls iid = { s with sched := d } := by
  unfold State.endVisit
  dsimp only
  split
  · exact ⟨_, rfl⟩
  · exact ⟨_, rfl⟩

/-- The visits that end touch the schedulers only, and a deficit of the cluster is kept or set to 0. -/
theorem State.endVisits_spec {s : State} {home n : Nat} {d : Int} (hd : -(2 : Int) ^ 39 ≤ d) (h : KeptOrSpent d (defOf s home n)) :
    KeptOrSpent d (defOf (s.endVisits home) home n) ∧ ∃ x, s.endVisits home = { s with sched := x } := by
  unfold State.endVisits
  refine List.foldlRecOn (motive := fun t : State => KeptOrSpent d (defOf t home n) ∧ ∃ x, t = { s with sched := x })
    (schedOf s home).visits _ ⟨h, s.sched, rfl⟩ fun t ht v _ => ?_
  dsimp only
  split
  · obtain ⟨hdef, x, e⟩ := ht
    obtain ⟨y, e'⟩ := State.endVisit_frame t home home v.cls v.iid
    exact ⟨hdef.endVisit hd _ _ _, y, by rw [e', e]⟩
  · exact ht

/-- The note of a cluster that has lost its last channel leaves every deficit. -/
theorem defOf_noteFull (s : State) (clu home n : Nat) : defOf (s.noteFull clu) home n = defOf s home n := by
  have put : ∀ x : Sched, x.clu = clu → x.defs = (schedOf s clu).defs → defOf (s.putSched x) home n = defOf s home n := by
    rintro x rfl hx
    by_cases h : home = x.clu
    · rw [defOf, h, schedOf_putSched, hx, defOf]
    · rw [defOf, schedOf_putSched_ne h, defOf]
  unfold State.noteFull
  dsimp only
  split
  · split
    · rfl
    · exact put _ (schedOf_clu s clu) rfl
  · split
    · exact put _ (schedOf_clu s clu) rfl
    · rfl

/-! A bind (07 R220, R221, R223; 02 R65). -/

/-- The slot that begins to read. -/
def boundSlot (s : State) (qid home clu idx : Nat) (c : QCtx) : Slot :=
  newSlot clu idx qid c.iid.toNat home (nextIndex s qid c) (readAttrs s c (BitVec.ofNat 2 (schedClass s c))) c.estCost.toNat

/-- A queue after its bind: its time without one starts anew. -/
def Ready.rebound (r : Ready) : Ready := { r with elig := 0, promoted := none, resume := false }

/-- The channel is bound: the rotation is debited with the estimated cost, and remembers the queue. -/
def State.boundTo (s : State) (qid rot home clu idx : Nat) (c : QCtx) : State :=
  let s1 := s.addDef home c.iid.toNat (- (c.estCost.toNat : Int))
  let y := schedOf s1 home
  let s2 := s1.putSched { y with
    lastQ := (c.iid.toNat, rot, qid) :: y.lastQ.filter (fun z => !(z.1 == c.iid.toNat && z.2.1 == rot)) }
  { s2 with slots := boundSlot s qid home clu idx c :: s2.slots, ready := upd (fun r => r.qid == qid) Ready.rebound s2.ready }

theorem State.bindTo_eq {s : State} {qid : Nat} {c : QCtx} (hc : ctxOf s qid = some c) (rot home clu idx : Nat) :
    s.bindTo qid rot home clu idx = ((((s.boundTo qid rot home clu idx c).noteFull clu).endVisits home).lookup qid 1).service
      (slotRead (s.boundTo qid rot home clu idx c) clu idx c (slotAddr c (nextIndex s qid c))) := by
  unfold State.bindTo
  rw [hc]
  rfl

theorem State.boundTo_frame (s : State) (qid rot home clu idx : Nat) (c : QCtx) : ∃ d, s.boundTo qid rot home clu idx c =
    { s with sched := d, slots := boundSlot s qid home clu idx c :: s.slots,
             ready := upd (fun r => r.qid == qid) Ready.rebound s.ready } := ⟨_, rfl⟩

theorem defOf_boundTo (s : State) (qid rot home clu idx : Nat) (c : QCtx) :
    defOf (s.boundTo qid rot home clu idx c) home c.iid.toNat =
      clampDef (defLimit s home c.iid.toNat) (defOf s home c.iid.toNat - (c.estCost.toNat : Int)) := by
  have hdef := defOf_addDef s home c.iid.toNat (- (c.estCost.toNat : Int))
  have hput : schedOf (s.boundTo qid rot home clu idx c) home = _ :=
    schedOf_putSched_at (schedOf_clu (s.addDef home c.iid.toNat (- (c.estCost.toNat : Int))) home)
  rw [defOf, hput]
  exact hdef

/-- A bound queue in the list of ready queues. -/
theorem rebound_of_mem {q : Nat} {rs : List Ready} : ∀ r ∈ upd (fun r => r.qid == q) Ready.rebound rs, r.qid = q →
    r.elig = 0 ∧ r.promoted = none ∧ r.resume = false := by
  intro r hr hq
  obtain ⟨x, -, rfl⟩ := List.mem_map.1 hr
  by_cases hx : x.qid = q
  · rw [if_pos (by simpa using hx)]
    exact ⟨rfl, rfl, rfl⟩
  · rw [if_neg (by simpa using hx)] at hq
    exact absurd hq hx

/-- State t is s once a channel is bound to queue q, of context c, in the rotations of a cluster: the slot and its read, the deficit, and
the queue's time without a bind; the rest is as it was. -/
structure Binds (s t : State) (q home clu idx : Nat) (c : QCtx) : Prop where
  slots : t.slots = boundSlot s q home clu idx c :: s.slots
  offered : Offered t (.slot clu idx) false (slotAddr c (nextIndex s q c)) 64 []
  deficit : KeptOrSpent (clampDef (defLimit s home c.iid.toNat) (defOf s home c.iid.toNat - (c.estCost.toNat : Int)))
    (defOf t home c.iid.toNat)
  ready : t.ready = upd (fun r => r.qid == q) Ready.rebound s.ready
  ports : PortsOnly { s with slots := t.slots, ready := t.ready, sched := t.sched, ways := t.ways, regs := t.regs } t

/-- What follows the debit: the visits that end, the lookup and the read. -/
theorem State.bindTo_binds {s : State} {q : Nat} {c : QCtx} (hc : ctxOf s q = some c) (hf : s.fatal = false) (rot home clu idx : Nat) :
    Binds s (s.bindTo q rot home clu idx) q home clu idx c := by
  have hdebit : KeptOrSpent (clampDef (defLimit s home c.iid.toNat) (defOf s home c.iid.toNat - (c.estCost.toNat : Int)))
      (defOf ((s.boundTo q rot home clu idx c).noteFull clu) home c.iid.toNat) := by
    rw [defOf_noteFull, defOf_boundTo]
    exact .inl rfl
  obtain ⟨hkept, d, hended⟩ := State.endVisits_spec (le_max_left _ _) hdebit
  obtain ⟨_, hbound⟩ := State.boundTo_frame s q rot home clu idx c
  obtain ⟨_, hnoted⟩ := State.noteFull_frame (s.boundTo q rot home clu idx c) clu
  obtain ⟨w, a, hlook⟩ := State.lookup_frame (((s.boundTo q rot home clu idx c).noteFull clu).endVisits home) q 1
  rw [State.bindTo_eq hc]
  set k := slotRead (s.boundTo q rot home clu idx c) clu idx c (slotAddr c (nextIndex s q c))
  set u := (((s.boundTo q rot home clu idx c).noteFull clu).endVisits home).lookup q 1
  have hsched : u.sched = (((s.boundTo q rot home clu idx c).noteFull clu).endVisits home).sched := by
    rw [hlook]
    rfl
  obtain ⟨m, hu⟩ : ∃ m, u = { s with
      slots := boundSlot s q home clu idx c :: s.slots, ready := upd (fun r => r.qid == q) Ready.rebound s.ready
      sched := d, ways := w, regs := m, arbs := a } := by
    rw [hlook, hended, hnoted, hbound]
    exact ⟨_, rfl⟩
  have hoffered : Offered (u.service k) k.purpose k.write k.addr k.len k.data :=
    Offered.service u k (by rw [hu]; exact hf) (bytesAtIssue_plain _ _ rfl)
  obtain ⟨_, _, _, _, _, _, e⟩ := PortsOnly.service u k
  rw [e] at hoffered ⊢
  rw [← defOf_of_sched hsched] at hkept
  refine ⟨?_, hoffered, hkept, ?_, ?_⟩
  · rw [hu]
  · rw [hu]
  · rw [hu]
    exact ⟨_, _, _, _, _, _, rfl⟩

/-- The command binds what the scheduler chooses. -/
theorem bind_chosen {s u : State} {home clu slot q rot : Nat} (hhome : home < 16) (hclu : clu < 16) (hslot : slot < 32)
    (hrun : running s = true) (hfree : (freeChannels s.fetchReady clu).contains slot = true)
    (hplace : clu = home ∨ mayShare s.fetchReady home clu = true) (htakes : clusterTakes s.fetchReady clu = true)
    (hchoose : s.fetchReady.chooseBind home clu = (u, some (q, rot))) :
    exec (.bind home clu slot) s = .next (u.bindTo q rot home clu slot) := by
  show execBind home clu slot s = _
  unfold execBind
  rw [if_neg (by simp; omega), if_neg (by simp [hrun])]
  dsimp only
  have hgoes : (decide (clu = home) || mayShare s.fetchReady home clu) = true := by simpa using hplace
  rw [hfree, hgoes, htakes, if_neg (by decide), hchoose]

/-! Promotion (07 R221). -/

theorem promotion_promotes {s : State} {qid : Nat} {r : Ready} {c : QCtx} (hq : qid < 2 ^ 22)
    (hr : s.ready.find? (fun r => r.qid == qid) = some r) (hc : ctxOf s qid = some c) (hrun : running s = true) (hp : r.promoted = none)
    (hceil : bindCeilNs s ≤ r.elig) (hel : eligible s r (schedCluster s c.home.toNat) = true) :
    exec (.promotion qid) s = .next ((({ s with
      promoCtr := s.promoCtr + 1
      ready := upd (fun x => x.qid == qid) (fun x => { x with promoted := some s.promoCtr }) s.ready } : State).bump
        .schPromotions 0 0 32 1).pulse 146 0) := by
  show execPromotion qid s = _
  unfold execPromotion
  rw [if_neg (by omega), hr, hc]
  dsimp only
  rw [if_pos (by simp [hrun, hp, hceil, hel])]

/-- Settles O16: the choice as in `State.chooseBind_choosable` and `State.chooseBind_promoted`, visits as in `State.beginVisit_spec` and
`defOf_endVisit_spent`, a bind as in `State.bindTo_binds`, a promotion as in `promotion_promotes`. -/
theorem schedulerChoice : Obligations.SchedulerChoice := by
  refine ⟨?_, ?_, fun s r clu c => eligible_conditions, fun s qid c k => nextIndex_first, State.beginVisit_spec, ?_, ?_, ?_⟩
  · intro s home clu t q cls h
    have hchosen := State.chooseBind_choosable s home clu q cls
    rw [h] at hchosen
    exact hchosen rfl
  · intro s home clu r hr hp hel hrot
    have hmem : r ∈ promotedQueues s home clu := mem_promotedQueues.2 ⟨hr, hp, hel, hrot⟩
    cases hq : leastBy (fun r : Ready => r.promoted.getD 0) (promotedQueues s home clu) with
    | none =>
      rw [leastBy_eq_none hq] at hmem
      cases hmem
    | some q =>
      obtain ⟨hq', hleast⟩ := leastBy_some hq
      obtain ⟨hready, hprom, helq, -⟩ := mem_promotedQueues.1 hq'
      obtain ⟨cls, e, -⟩ := State.chooseBind_promoted hq
      exact ⟨q, hready, cls, e, hprom, helq, hleast r hmem⟩
  · exact fun s home clu cls iid hl hd => ⟨defOf_endVisit_spent hl hd cls, visitIn_endVisit s home clu cls iid⟩
  · intro s home clu slot u q rot c hhome hclu hslot hrun hfree hplace htakes hchoose hc hf
    have hbinds := State.bindTo_binds hc hf rot home clu slot
    refine ⟨_, boundSlot u q home clu slot c, bind_chosen hhome hclu hslot hrun hfree hplace htakes hchoose, ?_, rfl, rfl, rfl, rfl, rfl,
      rfl, rfl, hbinds.offered, hbinds.deficit, ?_, ?_⟩
    · rw [slotAt, hbinds.slots]
      exact List.find?_cons_of_pos (by simp [boundSlot, newSlot])
    · rw [hbinds.ready]
      exact rebound_of_mem
    · rw [← hbinds.slots]
      exact hbinds.ports
  · intro s qid r c hq hr hc hrun hp hceil hel hwf
    refine ⟨_, promotion_promotes hq hr hc hrun hp hceil hel, ?_, State.rd_bump_word (s := { s with promoCtr := _, ready := _ }) hwf, rfl,
      State.pulse_held _ 146 0, rfl⟩
    have hfind := find_upd (fun x : Ready => x.qid == qid) (fun x => { x with promoted := some s.promoCtr }) (fun x hx => hx) s.ready
    rw [hr] at hfind
    exact hfind

end Sys2Proof.Machine
end

section
/-! PROOFS. Faults of a loaf: its attempt is dropped, and begins again after its backoff or at once (08 R255, R258 to R260, R563). -/

namespace Sys2Proof.Machine

/-! An attempt that is dropped (04 R151; 05 R185; 08 R256). -/

/-- A slot whose loaf, l of number num, has lost its attempt. -/
def Slot.attemptDropped (x : Slot) (num : Nat) (l : Loaf) : Slot :=
  { ((x.updLoaf num (fun m => m.fresh (dSrcNi x.desc))).markStale (elementsIn x l.b0 l.b1 (!l.closed))).dropLens num with
    lines := if dSrcNi x.desc then x.lines else dropIf (fun r => r.ofLoaf num) x.lines }

@[simp] theorem Slot.attemptDropped_replays (x : Slot) (num : Nat) (l : Loaf) : (x.attemptDropped num l).replays = x.replays := rfl
@[simp] theorem Slot.attemptDropped_fabOver (x : Slot) (num : Nat) (l : Loaf) : (x.attemptDropped num l).fabOver = x.fabOver := rfl
@[simp] theorem Slot.attemptDropped_retireBy (x : Slot) (num : Nat) (l : Loaf) : (x.attemptDropped num l).retireBy = x.retireBy := rfl

@[simp] theorem Slot.updLoaf_replays (x : Slot) (num : Nat) (f : Loaf → Loaf) : (x.updLoaf num f).replays = x.replays := rfl
@[simp] theorem Slot.updLoaf_fabOver (x : Slot) (num : Nat) (f : Loaf → Loaf) : (x.updLoaf num f).fabOver = x.fabOver := rfl
@[simp] theorem Slot.updLoaf_retireBy (x : Slot) (num : Nat) (f : Loaf → Loaf) : (x.updLoaf num f).retireBy = x.retireBy := rfl

theorem loafOf_attemptDropped {x : Slot} {num : Nat} {l : Loaf} (hl : loafOf x num = some l) :
    loafOf (x.attemptDropped num l) num = some (l.fresh (dSrcNi x.desc)) :=
  loafOf_updLoaf (fun m => m.fresh (dSrcNi x.desc)) (fun _ => rfl) hl

/-! An attempt that begins (08 R269; 13 R402). -/

/-- A loaf whose new attempt begins. -/
def Loaf.begun (l : Loaf) : Loaf := { l with again := true, backoff := none }

/-- A slot on which a new attempt of a loaf has begun, counted. -/
def Slot.attemptBegun (x : Slot) (num : Nat) : Slot := { x.updLoaf num Loaf.begun with replays := x.replays + 1 }

@[simp] theorem Slot.attemptBegun_replays (x : Slot) (num : Nat) : (x.attemptBegun num).replays = x.replays + 1 := by
  simp [Slot.attemptBegun]
@[simp] theorem Slot.attemptBegun_retireBy (x : Slot) (num : Nat) : (x.attemptBegun num).retireBy = x.retireBy := by
  simp [Slot.attemptBegun]

theorem loafOf_attemptBegun {x : Slot} {num : Nat} {l : Loaf} (hl : loafOf x num = some l) :
    loafOf (x.attemptBegun num) num = some l.begun :=
  loafOf_updLoaf Loaf.begun (fun _ => rfl) hl

section
variable {s : State} {clu idx num : Nat} {x : Slot} {l : Loaf}

/-- One attempt begun again is counted in its cluster's register, and its source pulses. -/
theorem State.countReplays_one (hx : slotAt s clu idx = some x) :
    ∃ i a w, s.countReplays clu idx 1 = { (s.updSlot clu idx (fun y => { y with replays := y.replays + 1 })) with
      regs := (s.bump .cluReplayStat clu 0 16 1).regs, is3 := i, arbs := a, ways := w
      heldPulses := (s.pulse (8 * clu) 0).heldPulses } := by
  unfold State.countReplays
  rw [hx]
  dsimp only
  generalize ht : s.updSlot clu idx (fun y => { y with replays := y.replays + 1 }) = t
  obtain ⟨i, e1⟩ := State.addIs3_frame (t.bump .cluReplayStat clu 0 16 1) (instCtr x.iid + 6) 1
  obtain ⟨a, w, e2⟩ := State.countCtx_frame ((t.bump .cluReplayStat clu 0 16 1).addIs3 (instCtr x.iid + 6) 1) x.qid
    (fun c => { c with replays := c.replays + BitVec.ofNat 16 1 })
  rw [e2, e1, ← ht]
  exact ⟨i, a, w, rfl⟩

/-- The new attempt has begun in its slot, and is counted. -/
theorem State.beginAttempt_spec (hx : slotAt s clu idx = some x) (num : Nat) :
    slotAt (s.beginAttempt clu idx num) clu idx = some (x.attemptBegun num) ∧
    ∃ z i a w, s.beginAttempt clu idx num = { s with
      slots := z, regs := (s.bump .cluReplayStat clu 0 16 1).regs, is3 := i, arbs := a, ways := w
      heldPulses := (s.pulse (8 * clu) 0).heldPulses } := by
  have hb : slotAt (s.updSlot clu idx (fun y => y.updLoaf num Loaf.begun)) clu idx = some (x.updLoaf num Loaf.begun) :=
    slotAt_changed hx fun _ => ⟨rfl, rfl⟩
  obtain ⟨i, a, w, e⟩ := State.countReplays_one hb
  refine ⟨?_, _, i, a, w, e⟩
  change slotAt ((s.updSlot clu idx (fun y => y.updLoaf num Loaf.begun)).countReplays clu idx 1) clu idx = _
  rw [e]
  exact slotAt_changed hb fun _ => ⟨rfl, rfl⟩

/-! The end of a backoff (08 R258). -/

theorem replayBackoffEnd_begins {d : Nat} (hclu : clu < 16) (hslot : idx < 34) (hrun : running s = true) (hx : slotAt s clu idx = some x)
    (hl : loafOf x num = some l) (hb : l.backoff = some d) (hd : d ≤ s.nomNs) :
    exec (.replayBackoffEnd clu idx num) s = .next (s.beginAttempt clu idx num) := by
  show execReplayBackoffEnd clu idx num s = _
  rw [execReplayBackoffEnd, if_neg (slotPlace hclu hslot), hx]
  dsimp only
  rw [hl]
  dsimp only
  rw [hb]
  exact if_pos (by simp [hrun, hd])

theorem replayBackoffEnd_nextLoaf {d : Nat} (hclu : clu < 16) (hslot : idx < 34) (hrun : running s = true) (hx : slotAt s clu idx = some x)
    (hl : loafOf x x.cutNum = none) (hb : x.nextBackoff = some d) (hd : d ≤ s.nomNs) :
    exec (.replayBackoffEnd clu idx x.cutNum) s = .next (s.updSlot clu idx (fun y => { y with nextBackoff := none })) := by
  show execReplayBackoffEnd clu idx x.cutNum s = _
  rw [execReplayBackoffEnd, if_neg (slotPlace hclu hslot), hx]
  dsimp only
  rw [hl]
  dsimp only
  rw [hb]
  exact if_pos (by simp [hrun, hd])

/-! A fault is logged and counted, and its loaf's attempt dropped (08 R255). -/

/-- The state in which a fault of a loaf is logged and its attempt dropped. -/
def State.faultDrops (s : State) (x : Slot) (clu idx num code : Nat) (detail : BitVec 8) (arg1 : Nat) : State :=
  (s.logReplay x code detail arg1).dropAttempt clu idx num

theorem State.faultDrops_slot (hx : slotAt s clu idx = some x) (hl : loafOf x num = some l) (code : Nat) (detail : BitVec 8) (arg1 : Nat) :
    slotAt (s.faultDrops x clu idx num code detail arg1) clu idx = some (x.attemptDropped num l) := by
  obtain ⟨m, q, e⟩ := State.logErr_frame s (mkErr 1 (2 + x.clu) code x.iid x.qid x.idx x.clu detail x.slotIdx.toNat arg1)
  unfold State.faultDrops State.logReplay State.dropAttempt
  rw [e]
  have hx' : slotAt { s with regs := m, errQ := q } clu idx = some x := hx
  rw [hx']
  dsimp only
  rw [hl]
  dsimp only
  have hw : ∀ keep : Bool, slotAt (if keep then ({ s with regs := m, errQ := q } : State).dropWrites x num
      else (({ s with regs := m, errQ := q } : State).dropWrites x num).dropReads x num) clu idx = some x := by
    intro keep
    cases keep
    · exact hx
    · exact hx
  exact slotAt_changed (hw _) fun _ => ⟨rfl, rfl⟩

/-- A slot whose loaf, l of number num, has lost its attempt to a fault that f counts against it. -/
def Slot.faultCounted (x : Slot) (num : Nat) (l : Loaf) (f : Loaf → Loaf) : Slot := (x.attemptDropped num l).updLoaf num f

@[simp] theorem Slot.faultCounted_replays (x : Slot) (num : Nat) (l : Loaf) (f : Loaf → Loaf) :
    (x.faultCounted num l f).replays = x.replays := by
  simp [Slot.faultCounted]
@[simp] theorem Slot.faultCounted_fabOver (x : Slot) (num : Nat) (l : Loaf) (f : Loaf → Loaf) :
    (x.faultCounted num l f).fabOver = x.fabOver := by
  simp [Slot.faultCounted]
@[simp] theorem Slot.faultCounted_retireBy (x : Slot) (num : Nat) (l : Loaf) (f : Loaf → Loaf) :
    (x.faultCounted num l f).retireBy = x.retireBy := by
  simp [Slot.faultCounted]

theorem loafOf_faultCounted {f : Loaf → Loaf} (hf : ∀ m, (f m).num = m.num) (hl : loafOf x num = some l) :
    loafOf (x.faultCounted num l f) num = some (f (l.fresh (dSrcNi x.desc))) :=
  loafOf_updLoaf f hf (loafOf_attemptDropped hl)

/-- The state in which a fault of a loaf is logged and counted by f, and the loaf's attempt dropped. -/
def State.faultCounts (s : State) (x : Slot) (clu idx num code : Nat) (detail : BitVec 8) (arg1 : Nat) (f : Loaf → Loaf) : State :=
  (s.faultDrops x clu idx num code detail arg1).updSlot clu idx (fun y => y.updLoaf num f)

theorem State.faultCounts_slot (hx : slotAt s clu idx = some x) (hl : loafOf x num = some l) (code : Nat) (detail : BitVec 8) (arg1 : Nat)
    (f : Loaf → Loaf) : slotAt (s.faultCounts x clu idx num code detail arg1 f) clu idx = some (x.faultCounted num l f) :=
  slotAt_changed (State.faultDrops_slot hx hl _ _ _) fun _ => ⟨rfl, rfl⟩

/-! A fault of the fabric (08 R255, R258, R259). -/

/-- A loaf against which a fault of the fabric counts. -/
def Loaf.fabCounted (l : Loaf) : Loaf := { l with fab := l.fab + 1 }

/-- A loaf in a backoff until t. -/
def Loaf.waitsUntil (t : Nat) (l : Loaf) : Loaf := { l with backoff := some t }

section
variable (hx : slotAt s clu idx = some x) (hl : loafOf x num = some l)
variable (hst : stalled x = false) (hp : x.phase ≠ .ending) (code : Nat) (read : Bool) (detail : BitVec 6) (addr : Nat)
include hx hl hst hp

theorem State.fabricFault_eq : s.fabricFault clu idx num code read detail addr =
    if fabMax s clu < l.fab + 1 then
      (s.faultCounts x clu idx num code (detail.setWidth 8) addr Loaf.fabCounted).updSlot clu idx
        (fun y => { y with fabOver := some (read, detail, addr) })
    else if backoffNs s clu (l.fab + 1) = 0 then
      (s.faultCounts x clu idx num code (detail.setWidth 8) addr Loaf.fabCounted).beginAttempt clu idx num
    else
      (s.faultCounts x clu idx num code (detail.setWidth 8) addr Loaf.fabCounted).updSlot clu idx
        (fun y => y.updLoaf num (Loaf.waitsUntil (s.nomNs + backoffNs s clu (l.fab + 1)))) := by
  unfold State.fabricFault
  rw [hx]
  dsimp only
  rw [hst, if_neg Bool.false_ne_true, hl]
  dsimp only
  rw [if_neg hp]
  rfl

theorem State.fabricFault_over (h : fabMax s clu < l.fab + 1) : slotAt (s.fabricFault clu idx num code read detail addr) clu idx =
    some { x.faultCounted num l Loaf.fabCounted with fabOver := some (read, detail, addr) } := by
  rw [State.fabricFault_eq hx hl hst hp, if_pos h]
  exact slotAt_changed (State.faultCounts_slot hx hl _ _ _ _) fun _ => ⟨rfl, rfl⟩

theorem State.fabricFault_again (h : l.fab + 1 ≤ fabMax s clu) (hw : backoffNs s clu (l.fab + 1) = 0) :
    slotAt (s.fabricFault clu idx num code read detail addr) clu idx = some ((x.faultCounted num l Loaf.fabCounted).attemptBegun num) := by
  rw [State.fabricFault_eq hx hl hst hp, if_neg (by omega), if_pos hw]
  exact (State.beginAttempt_spec (State.faultCounts_slot hx hl _ _ _ _) num).1

theorem State.fabricFault_waits (h : l.fab + 1 ≤ fabMax s clu) (hw : backoffNs s clu (l.fab + 1) ≠ 0) :
    slotAt (s.fabricFault clu idx num code read detail addr) clu idx =
      some ((x.faultCounted num l Loaf.fabCounted).updLoaf num (Loaf.waitsUntil (s.nomNs + backoffNs s clu (l.fab + 1)))) := by
  rw [State.fabricFault_eq hx hl hst hp, if_neg (by omega), if_neg hw]
  exact slotAt_changed (State.faultCounts_slot hx hl _ _ _ _) fun _ => ⟨rfl, rfl⟩

end

/-! An internal fault (08 R260). -/

/-- A loaf against which an internal fault counts. -/
def Loaf.internalCounted (l : Loaf) : Loaf := { l with internal := l.internal + 1 }

section
variable (hx : slotAt s clu idx = some x) (hl : loafOf x num = some l) (hp : x.phase ≠ .ending) (code : Nat)
include hx hl hp

theorem State.internalFault_again (h : l.internal < 3) :
    slotAt (s.internalFault clu idx num code) clu idx = some ((x.faultCounted num l Loaf.internalCounted).attemptBegun num) := by
  have e : s.internalFault clu idx num code = (s.faultCounts x clu idx num code 0 l.b0 Loaf.internalCounted).beginAttempt clu idx num := by
    unfold State.internalFault
    simp only [hx, hl, if_neg hp, if_pos (show l.internal + 1 ≤ 3 by omega)]
    rfl
  rw [e]
  exact (State.beginAttempt_spec (State.faultCounts_slot hx hl _ _ _ _) num).1

theorem State.internalFault_retires (h : 3 ≤ l.internal) :
    slotAt (s.internalFault clu idx num code) clu idx = some { x.faultCounted num l Loaf.internalCounted with retireBy := some code } := by
  have e : s.internalFault clu idx num code = (s.faultDrops x clu idx num code 0 l.b0).updSlot clu idx
      (fun y => { y.updLoaf num Loaf.internalCounted with retireBy := some code }) := by
    unfold State.internalFault
    simp only [hx, hl, if_neg hp, if_neg (show ¬ l.internal + 1 ≤ 3 by omega)]
    rfl
  rw [e]
  exact slotAt_changed (State.faultDrops_slot hx hl _ _ _) fun _ => ⟨rfl, rfl⟩

end

end

/-- Settles O30: the slot that a fault of the fabric leaves is that of `State.fabricFault_over`, `State.fabricFault_again` or
`State.fabricFault_waits`, that of an internal fault `State.internalFault_again` or `State.internalFault_retires`; the attempt that
a backoff's end begins is counted as in `State.beginAttempt_spec`. -/
theorem replays : Obligations.Replays := by
  refine ⟨?_, ?_, ?_, ?_⟩
  · intro s clu idx num code read detail addr x l hx hst hl hp
    have hc := loafOf_faultCounted (f := Loaf.fabCounted) (fun _ => rfl) hl
    rcases Nat.lt_or_ge (fabMax s clu) (l.fab + 1) with h | h
    · exact ⟨_, _, State.fabricFault_over hx hl hst hp code read detail addr h, hc, rfl, rfl, rfl, rfl, rfl, rfl,
        fun h' => absurd h' h.not_ge, fun h' => absurd h' h.not_ge, fun _ => ⟨rfl, by simp⟩⟩
    · by_cases hw : backoffNs s clu (l.fab + 1) = 0
      · exact ⟨_, _, State.fabricFault_again hx hl hst hp code read detail addr h hw, loafOf_attemptBegun hc, rfl, rfl, rfl, rfl, rfl,
          rfl, fun _ hw' => absurd hw hw', fun _ _ => ⟨rfl, rfl, by simp⟩, fun h' => absurd h' h.not_gt⟩
      · exact ⟨_, _, State.fabricFault_waits hx hl hst hp code read detail addr h hw, loafOf_updLoaf _ (fun _ => rfl) hc, rfl, rfl, rfl,
          rfl, rfl, rfl, fun _ _ => ⟨rfl, by simp, by simp⟩, fun _ hw' => absurd hw' hw, fun h' => absurd h' h.not_gt⟩
  · intro s clu slot loaf x l d hclu hslot hrun hx hl hb hd hwf
    obtain ⟨hy, z, i, a, w, e⟩ := State.beginAttempt_spec hx loaf
    refine ⟨_, _, _, replayBackoffEnd_begins hclu hslot hrun hx hl hb hd, hy, loafOf_attemptBegun hl, rfl, rfl,
      x.attemptBegun_replays loaf, ?_, ?_, ?_⟩
    · rw [e]
      exact State.fld_bump s .cluReplayStat clu 0 16 1 hwf (by decide)
    · rw [e]
      exact State.pulse_held s (8 * clu) 0
    · rw [e]
  · intro s clu slot x d hclu hslot hrun hx hl hb hd
    exact ⟨_, replayBackoffEnd_nextLoaf hclu hslot hrun hx hl hb hd, slotAt_changed hx fun _ => ⟨rfl, rfl⟩, rfl⟩
  · intro s clu idx num code x l hx hl hp
    have hc := loafOf_faultCounted (f := Loaf.internalCounted) (fun _ => rfl) hl
    rcases Nat.lt_or_ge l.internal 3 with h | h
    · exact ⟨_, _, State.internalFault_again hx hl hp code h, loafOf_attemptBegun hc, rfl, rfl, rfl, rfl, rfl,
        fun _ => ⟨rfl, by simp, by simp⟩, fun h' => absurd h' h.not_ge⟩
    · exact ⟨_, _, State.internalFault_retires hx hl hp code h, hc, rfl, rfl, rfl, rfl, rfl, fun h' => absurd h' h.not_gt,
        fun _ => ⟨rfl, by simp⟩⟩

end Sys2Proof.Machine
end

section
/-! PROOFS. Registers that a change leaves, and the admin queue's own (09 R275 to R289). -/

namespace Sys2Proof.Machine

/-! Registers that read as they did. -/

/-- Every register but those at the offsets listed reads in t as in s. -/
structure RegsBut (offs : List Nat) (s t : State) : Prop where
  rd : ∀ (q : Reg) i, q.addr i ∉ offs → t.rd q i = s.rd q i
  wf : s.regs.wf = true → t.regs.wf = true

section
variable {offs : List Nat} {s t u : State}

theorem RegsBut.of_regs (h : t.regs = s.regs) : RegsBut offs s t :=
  ⟨fun q i _ => by rw [State.rd, State.rd, h], fun w => by rw [h]; exact w⟩

theorem RegsBut.trans (h : RegsBut offs s t) (k : RegsBut offs t u) : RegsBut offs s u :=
  ⟨fun q i hq => (k.rd q i hq).trans (h.rd q i hq), k.wf ∘ h.wf⟩

theorem RegsBut.mono {more : List Nat} (h : RegsBut offs s t) (hm : offs ⊆ more) : RegsBut more s t :=
  ⟨fun q i hq => h.rd q i fun hi => hq (hm hi), h.wf⟩

theorem RegsBut.fld (h : RegsBut offs s t) {q : Reg} {i : Nat} (hq : q.addr i ∉ offs) (lo len : Nat) : t.fld q i lo len = s.fld q i lo len := by
  rw [State.fld, State.fld, h.rd q i hq]

theorem RegsBut.wr {r : Reg} {i : Nat} (h : r.addr i ∈ offs) (v : W32) : RegsBut offs s (s.wr r i v) :=
  ⟨fun q j hq => State.rd_wr_other s r q i j v fun e => hq (e ▸ h), State.wf_wr s r i v⟩

theorem RegsBut.setFld {r : Reg} {i : Nat} (h : r.addr i ∈ offs) (lo len v : Nat) : RegsBut offs s (s.setFld r i lo len v) := RegsBut.wr h _

theorem RegsBut.ports (h : PortsOnly s t) : RegsBut offs s t := by
  obtain ⟨_, _, _, _, _, _, rfl⟩ := h
  exact RegsBut.of_regs rfl

/-- Logging a fault writes LOG_LOST, ERR_LOST_SEQ and ERR_NEXT_SEQ (11 R357 to R359). -/
theorem RegsBut.logErr (e : ErrRec) (h : [Reg.errLogStat.addr 0, Reg.errLostSeq.addr 0, Reg.errNextSeq.addr 0] ⊆ offs) :
    RegsBut offs s (s.logErr e) := by
  refine ⟨fun q i hq => State.rd_logErr (fun k => ?_) (fun k => ?_) (fun k => ?_) s e, fun w => ?_⟩
  · exact hq (k ▸ h (by simp))
  · exact hq (k ▸ h (by simp))
  · exact hq (k ▸ h (by simp))
  · have hl : ∀ (t : State) n, t.regs.wf = true → (t.loseErr n).regs.wf = true := by
      intro t n ht
      unfold State.loseErr
      dsimp only
      split
      · exact State.wf_sEvent _ _ _ _ ht
      · exact State.wf_sEvent _ _ _ _ (State.wf_wr _ _ _ _ ht)
    unfold State.logErr
    dsimp only
    generalize (if s.rd .errNextSeq 0 + 1 = 0 then 1 else s.rd .errNextSeq 0 + 1) = v
    have hn := State.wf_wr s .errNextSeq 0 v w
    split
    · exact w
    · split
      · exact hl _ _ hn
      · exact hn

/-- Another field of a register whose field is replaced. -/
theorem State.fld_setFld_ne (s : State) (r : Reg) (i lo len v a k : Nat) (w : s.regs.wf = true) (h : lo + len ≤ 32)
    (d : a + k ≤ lo ∨ lo + len ≤ a) : (s.setFld r i lo len v).fld r i a k = s.fld r i a k := by
  rw [State.fld, State.rd_setFld _ _ _ _ _ _ w, bits_withBits_ne _ _ _ _ _ _ h d, State.fld]

end

/-! The admin queue's state. -/

section
variable {s t : State} (h : PortsOnly s t)
include h

theorem PortsOnly.adm : t.adm = s.adm := by
  obtain ⟨_, _, _, _, _, _, rfl⟩ := h
  rfl

theorem PortsOnly.setAdm (f : Adm → Adm) : PortsOnly (s.setAdm f) (t.setAdm f) := by
  obtain ⟨_, _, _, _, _, _, rfl⟩ := h
  exact ⟨_, _, _, _, _, _, rfl⟩

end

theorem fatal_of_admRuns {s : State} (h : admRuns s = true) : s.fatal = false := by
  unfold admRuns at h
  simp only [Bool.and_eq_true, Bool.not_eq_true'] at h
  obtain ⟨⟨⟨⟨_, hf⟩, _⟩, _⟩, _⟩ := h
  exact hf

/-- What the admin processor reads of the registers: the place of its ring and its doorbell, and whether it runs. -/
theorem admSlotAddr_congr {offs : List Nat} {s t : State} (h : RegsBut offs s t) (x : W32)
    (hn : ∀ q ∈ [Reg.admQCtl, Reg.admQBaseLo, Reg.admQBaseHi], q.addr 0 ∉ offs) : admSlotAddr t x = admSlotAddr s x := by
  unfold admSlotAddr admBase admDepth
  rw [h.fld (hn .admQCtl (by simp)), h.fld (hn .admQBaseLo (by simp)), h.fld (hn .admQBaseHi (by simp))]

/-- t is s but for the admin queue's own state, the staging area, the registers at the offsets listed and the ports; what is asked for
stays so. -/
structure AdmStep (offs : List Nat) (s t : State) : Prop where
  frame : ∃ a x r, PortsOnly { s with adm := a, staged := x, regs := r } t
  regs : RegsBut offs s t
  asked : ∀ u w a l d, Asked s u w a l d → Asked t u w a l d

section
variable {offs : List Nat} {s t u : State}

theorem AdmStep.trans (h : AdmStep offs s t) (k : AdmStep offs t u) : AdmStep offs s u := by
  refine ⟨?_, h.regs.trans k.regs, fun _ _ _ _ _ a => k.asked _ _ _ _ _ (h.asked _ _ _ _ _ a)⟩
  obtain ⟨_, _, _, _, _, _, _, _, _, rfl⟩ := h.frame
  obtain ⟨_, _, _, _, _, _, _, _, _, rfl⟩ := k.frame
  exact ⟨_, _, _, _, _, _, _, _, _, rfl⟩

theorem AdmStep.mono {more : List Nat} (h : AdmStep offs s t) (hm : offs ⊆ more) : AdmStep more s t := ⟨h.frame, h.regs.mono hm, h.asked⟩

theorem AdmStep.refl (s : State) : AdmStep offs s s := ⟨⟨_, _, _, PortsOnly.refl s⟩, RegsBut.of_regs rfl, fun _ _ _ _ _ a => a⟩

theorem AdmStep.setAdm (s : State) (f : Adm → Adm) : AdmStep offs s (s.setAdm f) :=
  ⟨⟨_, _, _, PortsOnly.refl _⟩, RegsBut.of_regs rfl, fun _ _ _ _ _ a => a⟩

theorem AdmStep.empty (s : State) : AdmStep offs s { s with staged := [] } :=
  ⟨⟨_, _, _, PortsOnly.refl _⟩, RegsBut.of_regs rfl, fun _ _ _ _ _ a => a⟩

theorem AdmStep.wr {r : Reg} {i : Nat} (h : r.addr i ∈ offs) (s : State) (v : W32) : AdmStep offs s (s.wr r i v) :=
  ⟨⟨_, _, _, PortsOnly.refl _⟩, RegsBut.wr h v, fun _ _ _ _ _ a => a⟩

theorem AdmStep.service (s : State) (h : Held) : AdmStep offs s (s.service h) :=
  ⟨⟨_, _, _, PortsOnly.service s h⟩, RegsBut.ports (PortsOnly.service s h), fun _ _ _ _ _ a => a.mono h⟩

end

/-! The next slot is read (09 R278). -/

/-- What the admin queue does next touches its STATE and whether a slot is read. -/
theorem AdmStep.admPump (s : State) : AdmStep [Reg.admQStat.addr 0] s s.admPump := by
  unfold State.admPump
  dsimp only
  split
  · split
    · exact ((AdmStep.setAdm s _).trans (AdmStep.wr (by simp) _ _)).trans (AdmStep.service _ _)
    · exact AdmStep.wr (by simp) s _
  · exact AdmStep.refl s

theorem State.admPump_adm (s : State) : ∃ b, s.admPump.adm = { s.adm with slotActive := b } := by
  unfold State.admPump
  dsimp only
  split
  · split
    · exact ⟨true, (PortsOnly.service _ _).adm⟩
    · exact ⟨_, rfl⟩
  · exact ⟨_, rfl⟩

/-- The queue may read its next slot. -/
def admReads (s : State) : Prop :=
  (admState s = 1 ∨ admState s = 2) ∧ admRuns s = true ∧ s.adm.cmd = none ∧ s.adm.slotActive = false ∧ s.adm.rereadDue = none

/-- Slot F is read, and the queue is ACTIVE. -/
theorem State.admPump_reads {s : State} (h : admReads s) (hf : s.adm.f ≠ s.adm.piSeen) (hw : s.regs.wf = true) :
    admState s.admPump = 2 ∧ s.admPump.adm = { s.adm with slotActive := true } ∧
      Offered s.admPump .admSlot false (admSlotAddr s s.adm.f) 64 [] := by
  obtain ⟨hs, hr, hc, ha, hd⟩ := h
  have e : s.admPump = ((s.setAdm (fun x => { x with slotActive := true })).setFld .admQStat 0 0 3 2).service
      (admAccess s .admSlot false (admSlotAddr s s.adm.f) 64 []) := by
    unfold State.admPump
    dsimp only
    rw [if_pos (by simp [hs, hr, hc, ha, hd]), if_pos hf]
  have hfs := fatal_of_admRuns hr
  have hst : admState ((s.setAdm (fun x => { x with slotActive := true })).setFld .admQStat 0 0 3 2) = 2 :=
    State.fld_setFld _ _ _ _ _ _ hw (by decide)
  have hfat : ((s.setAdm (fun x => { x with slotActive := true })).setFld .admQStat 0 0 3 2).fatal = false := hfs
  have hadm : ((s.setAdm (fun x => { x with slotActive := true })).setFld .admQStat 0 0 3 2).adm = { s.adm with slotActive := true } := rfl
  rw [e]
  generalize (s.setAdm (fun x => { x with slotActive := true })).setFld .admQStat 0 0 3 2 = u at hst hfat hadm ⊢
  have hp := PortsOnly.service u (admAccess s .admSlot false (admSlotAddr s s.adm.f) 64 [])
  refine ⟨?_, hp.adm.trans hadm, (Asked.service (h := admAccess s .admSlot false (admSlotAddr s s.adm.f) 64 []) hfat rfl).offered⟩
  exact ((RegsBut.ports (offs := []) hp).fld (by simp) 0 3).trans hst

/-! The end of a command (09 R278, R280, R285). -/

/-- The staging area is empty (09 R301). -/
theorem AdmStep.discardStaged (s : State) : AdmStep [Reg.admStageStat.addr 0] s s.discardStaged := by
  unfold State.discardStaged
  dsimp only
  split
  · exact (AdmStep.empty s).trans (AdmStep.wr (r := .admStageStat) (i := 0) (by decide) _ _)
  · exact ((AdmStep.wr (r := .admStageStat) (i := 0) (by decide) s _).trans (AdmStep.empty _)).trans
      (AdmStep.wr (r := .admStageStat) (i := 0) (by decide) _ _)

theorem State.discardStaged_spec (s : State) : s.discardStaged.staged = [] ∧ s.discardStaged.adm = s.adm := by
  unfold State.discardStaged
  dsimp only
  split
  · exact ⟨rfl, rfl⟩
  · exact ⟨rfl, rfl⟩

/-- What follows a record: a queue that is stopping is DISABLED, else the next slot may be read (09 R278, R280). -/
def State.admNext (t : State) : State := if admState t = 4 then t.discardStaged.setFld .admQStat 0 0 3 0 else t.admPump

theorem AdmStep.admNext (s : State) : AdmStep [Reg.admStageStat.addr 0, Reg.admQStat.addr 0] s s.admNext := by
  unfold State.admNext
  split
  · exact ((AdmStep.discardStaged s).mono (by simp)).trans (AdmStep.wr (by simp) _ _)
  · exact (AdmStep.admPump s).mono (by simp)

theorem State.admNext_adm (s : State) : ∃ b, s.admNext.adm = { s.adm with slotActive := b } := by
  unfold State.admNext
  split
  · exact ⟨s.adm.slotActive, s.discardStaged_spec.2⟩
  · exact s.admPump_adm

theorem State.admNext_disabled {s : State} (h : admState s = 4) (hw : s.regs.wf = true) : admState s.admNext = 0 := by
  rw [State.admNext, if_pos h]
  exact State.fld_setFld _ _ _ _ _ _ ((AdmStep.discardStaged s).regs.wf hw) (by decide)

/-- The record of slot `idx` is asked for, and Q and ADM_LAST_DONE pass it (09 R285). -/
theorem AdmStep.admRecord (s : State) (idx : W32) (words : List W64) : AdmStep [Reg.admLastDone.addr 0] s (s.admRecord idx words) :=
  ((AdmStep.service s _).trans (AdmStep.setAdm _ _)).trans (AdmStep.wr (by simp) _ _)

theorem State.admRecord_adm (s : State) (idx : W32) (words : List W64) : (s.admRecord idx words).adm = { s.adm with q := idx + 1 } :=
  congrArg (fun a : Adm => { a with q := idx + 1 })
    (PortsOnly.service s (admAccess s (.admRecord idx) true (admSlotAddr s idx) 64 (bytesOfWords words))).adm

theorem State.admRecord_lastDone {s : State} (hw : s.regs.wf = true) (idx : W32) (words : List W64) :
    (s.admRecord idx words).rd .admLastDone 0 = idx + 1 :=
  State.rd_wr_same _ _ _ _ ((AdmStep.service (offs := []) s _).regs.wf hw)

theorem State.admRecord_asked {s : State} (hf : s.fatal = false) (idx : W32) (words : List W64) :
    Asked (s.admRecord idx words) (.admRecord idx) true (admSlotAddr s idx) 64 (bytesOfWords words) :=
  Asked.congr (Asked.service (h := admAccess s (.admRecord idx) true (admSlotAddr s idx) 64 (bytesOfWords words)) hf rfl) rfl rfl

/-- Nothing is in progress any more, and FED_EPOCH has advanced with a federated command that ended OK (14 R425). -/
def State.cmdEnded (s : State) (c : AdmCmd) (status : Nat) : State :=
  (if decide (status = 0) && isFederated c c.items then s.epochNext else s).putCmd true none

theorem AdmStep.putCmd {offs : List Nat} (s : State) (c : Option AdmCmd) : AdmStep offs s (s.putCmd true c) :=
  AdmStep.setAdm s fun a => { a with cmd := c }

theorem AdmStep.cmdEnded (s : State) (c : AdmCmd) (status : Nat) : AdmStep [Reg.fedEpoch.addr 0] s (s.cmdEnded c status) := by
  have he : AdmStep [Reg.fedEpoch.addr 0] s s.epochNext := by
    unfold State.epochNext
    split
    · exact AdmStep.wr (by simp) s _
    · exact AdmStep.refl s
  unfold State.cmdEnded
  split
  · exact he.trans (AdmStep.putCmd _ _)
  · exact AdmStep.putCmd s _

theorem State.cmdEnded_adm (s : State) (c : AdmCmd) (status : Nat) : (s.cmdEnded c status).adm = { s.adm with cmd := none } := by
  unfold State.cmdEnded State.epochNext
  split
  · split
    · rfl
    · rfl
  · rfl

section
variable {s : State} {c : AdmCmd} (hc : s.adm.cmd = some c) (hs : c.sender = none) (hb : c.bad = none) (hl : c.silent = false)
include hc hs hb hl

/-- This member's own command ends with its record. -/
theorem State.admEnd_own (status detail w1 w2 w5 : Nat) : s.admEnd true status detail w1 w2 w5 =
    ((s.cmdEnded c status).admRecord c.idx (recordWords (cOp c) status (128 * flag (unsyncedNow s) + detail) (dClass c.words) 0 false
      (dTag c.words) (genOf (admDepth s) c.idx) (BitVec.ofNat 64 w1) (BitVec.ofNat 64 w2) c.fetchTs (s.timebase.setWidth 48) 0
      (BitVec.ofNat 64 w5) (wd c.words 6))).admNext := by
  have hcmd : cmdOf s true = some c := hc
  unfold State.admEnd worstStatus
  simp only [hcmd, hs, hb, hl, Option.isNone_none, if_true, Bool.false_eq_true, if_false]
  rfl

theorem State.admEnd_spec (hf : s.fatal = false) (hw : s.regs.wf = true) (status detail w1 w2 w5 : Nat) :
    let t := s.admEnd true status detail w1 w2 w5
    t.adm.cmd = none ∧ t.adm.q = c.idx + 1 ∧ t.rd .admLastDone 0 = c.idx + 1 ∧ (admState s = 4 → admState t = 0) ∧
      Offered t (.admRecord c.idx) true (admSlotAddr s c.idx) 64
        (bytesOfWords (recordWords (cOp c) status (128 * flag (unsyncedNow s) + detail) (dClass c.words) 0 false (dTag c.words)
          (genOf (admDepth s) c.idx) (BitVec.ofNat 64 w1) (BitVec.ofNat 64 w2) c.fetchTs (s.timebase.setWidth 48) 0
          (BitVec.ofNat 64 w5) (wd c.words 6))) ∧
      ∃ a x r, PortsOnly { s with adm := a, staged := x, regs := r } t := by
  rw [State.admEnd_own hc hs hb hl]
  generalize recordWords (cOp c) _ _ _ _ _ _ _ _ _ _ _ _ _ _ = ws
  dsimp only
  have he := AdmStep.cmdEnded s c status
  have ha := s.cmdEnded_adm c status
  generalize s.cmdEnded c status = u at he ha ⊢
  have hfu : u.fatal = false := by
    obtain ⟨_, _, _, _, _, _, _, _, _, rfl⟩ := he.frame
    exact hf
  have hr := AdmStep.admRecord u c.idx ws
  have hn := AdmStep.admNext (u.admRecord c.idx ws)
  obtain ⟨b, hadm⟩ := (u.admRecord c.idx ws).admNext_adm
  rw [State.admRecord_adm, ha] at hadm
  have hwr := hr.regs.wf (he.regs.wf hw)
  refine ⟨by rw [hadm], by rw [hadm], ?_, fun h4 => State.admNext_disabled ?_ hwr, ?_, ?_⟩
  · rw [hn.regs.rd .admLastDone 0 (by decide)]
    exact State.admRecord_lastDone (he.regs.wf hw) c.idx ws
  · exact ((hr.regs.fld (q := .admQStat) (by decide) 0 3).trans (he.regs.fld (by decide) 0 3)).trans h4
  · rw [← admSlotAddr_congr he.regs c.idx (by decide)]
    exact (hn.asked _ _ _ _ _ (State.admRecord_asked hfu c.idx ws)).offered
  · exact (((he.mono (more := [Reg.fedEpoch.addr 0, Reg.admLastDone.addr 0, Reg.admStageStat.addr 0, Reg.admQStat.addr 0]) (by simp)).trans
      (hr.mono (by simp))).trans (hn.mono (by simp))).frame

end

end Sys2Proof.Machine
end

section
/-! PROOFS. The admin queue's reads, its notice and ERROR. -/

namespace Sys2Proof.Machine

/-! The admin notice (09 R289, 03 R130). -/

/-- A trigger of the notice touches the notice's own state alone. -/
theorem State.admNotice_frame (s : State) :
    ∃ b k n, PortsOnly { s with adm := { s.adm with noticeBusy := b, noticeKept := k, nseq := n } } s.admNotice := by
  unfold State.admNotice
  split
  · exact ⟨_, _, _, PortsOnly.refl s⟩
  · split
    · exact ⟨_, _, _, PortsOnly.refl _⟩
    · exact ⟨_, _, _, PortsOnly.service _ _⟩

/-- The admin queue once its notice is asked for. -/
def Adm.noticed (a : Adm) : Adm := { a with noticeBusy := true, noticeKept := false, nseq := BitVec.ofNat 8 (nseqNext a.nseq.toNat) }

/-- The word of a notice that tells of no ERROR. -/
theorem admNoticeWord_noticed (s : State) (he : admState s ≠ 3) : admNoticeWord (s.setAdm Adm.noticed) =
    pack [(0, 32, (admCi s).toNat), (32, 17, 0), (49, 1, 0), (56, 8, nseqNext s.adm.nseq.toNat)] := by
  have h : admState (s.setAdm Adm.noticed) ≠ 3 := he
  unfold admNoticeWord
  rw [decide_eq_false h]
  show pack [(0, 32, (admCi s).toNat), (32, 17, 0), (49, 1, 0), (56, 8, (BitVec.ofNat 8 (nseqNext s.adm.nseq.toNat)).toNat)] = _
  rw [(nseqNext_byte s.adm.nseq).1]

/-- The notice that is asked for. -/
def admNoticeHeld (s : State) : Held :=
  { admAccess (s.setAdm Adm.noticed) .admNotice true (admNoticeAddr s) 8 (leBytes 8 (admNoticeWord (s.setAdm Adm.noticed)).toNat) with
    form := true }

/-- A notice that waits is no record that waits. -/
theorem admUnacked_notice (s : State) {h : Held} (hp : h.purpose = .admNotice) :
    admUnacked { s with held := s.held ++ [h] } = admUnacked s := by
  unfold admUnacked
  show List.filter (fun i => decide ((s.adm.q - i).toNat ≤ admDepth s)) _ = _
  dsimp only
  rw [List.filterMap_append, List.filterMap_cons, hp]
  rw [List.filterMap_nil, List.append_nil]

/-- The notice's bytes are formed at its issue (03 R132): the same as here. -/
theorem bytesAtIssue_admNoticeHeld (s : State) : bytesAtIssue { s.setAdm Adm.noticed with held := (s.setAdm Adm.noticed).held ++ [admNoticeHeld s] }
    (admNoticeHeld s) = (admNoticeHeld s).data := by
  refine congrArg (fun v : W64 => leBytes 8 v.toNat) (admNoticeWord_congr rfl rfl fun i => ?_)
  rw [admUnacked_notice (s.setAdm Adm.noticed) (h := admNoticeHeld s) rfl]

/-- A trigger while no notice is on its way or waits asks for one. -/
theorem State.admNotice_asks {s : State} (ha : admNoticeAddr s ≠ 0) (hb : s.adm.noticeBusy = false) (hf : s.fatal = false)
    (hw : s.held.any (fun h => h.form && decide (h.purpose = .admNotice)) = false) :
    s.admNotice.adm = s.adm.noticed ∧
      Offered s.admNotice .admNotice true (admNoticeAddr s) 8 (leBytes 8 (admNoticeWord (s.setAdm Adm.noticed)).toNat) := by
  have e : s.admNotice = (s.setAdm Adm.noticed).service (admNoticeHeld s) := by
    unfold State.admNotice
    rw [if_neg (by simp [ha, hw]), if_neg (by simp [hb])]
    rfl
  have hft : (s.setAdm Adm.noticed).fatal = false := hf
  rw [e]
  exact ⟨(PortsOnly.service _ _).adm, Offered.service _ (admNoticeHeld s) hft (bytesAtIssue_admNoticeHeld s)⟩

/-- A read of the admin processor is offered, with what it notes of itself. -/
theorem State.setAdm_reads {s : State} (hf : s.fatal = false) (f : Adm → Adm) (u : Purpose) (addr len : Nat) :
    PortsOnly { s with adm := f s.adm } ((s.setAdm f).service (admAccess s u false addr len [])) ∧
      Offered ((s.setAdm f).service (admAccess s u false addr len [])) u false addr len [] :=
  ⟨PortsOnly.service (s.setAdm f) _, (Asked.service (s := s.setAdm f) (h := admAccess s u false addr len []) hf rfl).offered⟩

/-! Answers to the admin processor's reads (09 R277). -/

/-- A sound answer frees its tag, and its bytes are used. -/
theorem State.admRead_clean {s : State} {a : Access} {ans : Answer} (h : CleanAnswer a ans) (k : State → List Byte → State) :
    s.admRead a ans k = k (s.dropAccess a.aid).drainHeld (answerBytes a ans) := by
  have hl := State.land_clean (s.dropAccess a.aid).drainHeld h 3 0 63 0
  obtain ⟨h0, _, _, hm⟩ := h
  unfold State.admRead
  rw [State.readEnds_drop (.inl h0)]
  dsimp only
  rw [if_neg (not_not.mpr h0), hl]
  dsimp only
  rw [if_neg hm]

theorem adminDoorbellResponse_clean {s : State} {a : Access} {ans : Answer} (ha : s.access a.aid = some a) (hp : a.purpose = .admDoorbell)
    (hf : s.fatal = false) (h : CleanAnswer a ans) : exec (.adminDoorbellResponse a.aid ans) s = .next
      (((s.dropAccess a.aid).drainHeld.setAdm (fun x => { x with dbActive := false })).admDoorbell
        (BitVec.ofNat 64 (leNat (answerBytes a ans)))) := by
  show execAdminDoorbellResponse a.aid ans s = _
  unfold execAdminDoorbellResponse
  rw [ha]
  dsimp only
  rw [if_neg (by simp [hp, hf]), State.admRead_clean h]

theorem adminSlotReadResponse_clean {s : State} {a : Access} {ans : Answer} (ha : s.access a.aid = some a) (hp : a.purpose = .admSlot)
    (hf : s.fatal = false) (h : CleanAnswer a ans) : exec (.adminSlotReadResponse a.aid ans) s =
      .next ((s.dropAccess a.aid).drainHeld.admSlotRead (wordsOfBytes (answerBytes a ans))) := by
  show execAdminSlotReadResponse a.aid ans s = _
  unfold execAdminSlotReadResponse
  rw [ha]
  dsimp only
  rw [if_neg (by simp [hp]), if_neg (by simp [hp, hf]), State.admRead_clean h]

/-! A record of the doorbell (09 R276). -/

/-- A record that passes the checks moves PI on, and the queue reads its next slot. -/
theorem State.admDoorbell_moves {s : State} {rec : W64} (hs : admState s = 1) (hn : bits rec 56 8 = s.fld .admQCtl 0 5 8)
    (hd : (rec.setWidth 32 - s.adm.piSeen).toNat ≤ admDepth s) (hq : (rec.setWidth 32 - s.adm.q).toNat ≤ admDepth s)
    (hp : rec.setWidth 32 ≠ s.adm.piSeen) : ∃ b c, s.admDoorbell rec =
      (s.setAdm fun x => { x with resumeSeen := b, abandonSeen := c, piSeen := rec.setWidth 32 }).admPump := by
  have h0 : (rec.setWidth 32 - s.adm.piSeen).toNat ≠ 0 := fun e => hp (by bv_omega)
  refine ⟨BitVec.ofNat 1 (bits rec 48 1), BitVec.ofNat 1 (bits rec 49 1), ?_⟩
  unfold State.admDoorbell
  dsimp only
  rw [if_neg (by simp [hs]), if_neg (not_not.mpr hn), if_neg (by omega), if_neg h0, if_neg (by simp [hs]), if_neg (by simp [hs])]
  rfl

/-! The ERROR state (09 R283, 02 R80). -/

/-- Emptying a COMMIT touches the command in progress alone, by what it is. -/
theorem State.emptyCommit_spec (s : State) : s.emptyCommit = { s with adm := { s.adm with cmd := s.emptyCommit.adm.cmd } } := by
  unfold State.emptyCommit
  split
  · split
    · rfl
    · rfl
  · rfl

theorem State.emptyCommit_cmd {s t : State} (h : t.adm.cmd = s.adm.cmd) : t.emptyCommit.adm.cmd = s.emptyCommit.adm.cmd := by
  unfold State.emptyCommit
  rw [h]
  split
  · split
    · rfl
    · exact h
  · exact h

/-- The registers of the ERROR state, before its notice and record. -/
def State.admErrRegs (s : State) (cause : Nat) (idx : W32) : State :=
  (((s.setFld .admQStat 0 0 3 3).setFld .admQStat 0 8 8 cause).setFld .admQStat 0 16 8 0).wr .admErrIndex 0 idx

theorem State.admErrRegs_adm (s : State) (cause : Nat) (idx : W32) : (s.admErrRegs cause idx).adm = s.adm := rfl

theorem State.admErrRegs_spec {s : State} (hw : s.regs.wf = true) (cause : Nat) (idx : W32) :
    admState (s.admErrRegs cause idx) = 3 ∧ (s.admErrRegs cause idx).fld .admQStat 0 8 8 = cause % 256 ∧
      (s.admErrRegs cause idx).rd .admErrIndex 0 = idx := by
  have h1 : (s.setFld .admQStat 0 0 3 3).regs.wf = true := State.wf_wr _ _ _ _ hw
  have h2 : ((s.setFld .admQStat 0 0 3 3).setFld .admQStat 0 8 8 cause).regs.wf = true := State.wf_wr _ _ _ _ h1
  have h3 : (((s.setFld .admQStat 0 0 3 3).setFld .admQStat 0 8 8 cause).setFld .admQStat 0 16 8 0).regs.wf = true := State.wf_wr _ _ _ _ h2
  have hi : ∀ t : State, RegsBut [Reg.admErrIndex.addr 0] t (t.wr .admErrIndex 0 idx) := fun t => RegsBut.wr (by simp) idx
  have hne := fun (t : State) v a k (w : t.regs.wf = true) d => State.fld_setFld_ne t .admQStat 0 16 8 v a k w (by decide) d
  refine ⟨?_, ?_, State.rd_wr_same _ _ _ _ h3⟩
  · calc admState (s.admErrRegs cause idx)
      _ = _ := (hi _).fld (by decide) 0 3
      _ = _ := hne _ _ _ _ h2 (by decide)
      _ = _ := State.fld_setFld_ne _ _ _ _ _ _ _ _ h1 (by decide) (by decide)
      _ = 3 := State.fld_setFld _ _ _ _ _ _ hw (by decide)
  · calc (s.admErrRegs cause idx).fld .admQStat 0 8 8
      _ = _ := (hi _).fld (by decide) 8 8
      _ = _ := hne _ _ _ _ h2 (by decide)
      _ = cause % 256 := State.fld_setFld _ _ _ _ _ _ h1 (by decide)

/-- Of the registers, what follows those of the ERROR state touches the staging area's and the log's. -/
theorem State.admError_rest (s : State) (cause : Nat) (idx : W32) :
    RegsBut [Reg.admStageStat.addr 0, Reg.errLogStat.addr 0, Reg.errLostSeq.addr 0, Reg.errNextSeq.addr 0]
        (s.dropAdmSlot.emptyCommit.admErrRegs cause idx) (s.admError cause idx) ∧
      (s.admError cause idx).adm.f = s.adm.f ∧ (s.admError cause idx).adm.cmd = s.emptyCommit.adm.cmd ∧ (s.admError cause idx).staged = [] := by
  have ha := State.admErrRegs_adm s.dropAdmSlot.emptyCommit cause idx
  have hc : s.dropAdmSlot.emptyCommit.adm.cmd = s.emptyCommit.adm.cmd := State.emptyCommit_cmd rfl
  have hf : s.dropAdmSlot.emptyCommit.adm.f = s.adm.f := by rw [State.emptyCommit_spec]; rfl
  rw [← ha] at hc hf
  have e : s.admError cause idx =
    ((s.dropAdmSlot.emptyCommit.admErrRegs cause idx).discardStaged.logErr (mkErr 2 20 cause 0 0 63 0 0 idx.toNat 0)).admNotice := rfl
  rw [e]
  generalize s.dropAdmSlot.emptyCommit.admErrRegs cause idx = t at hc hf ⊢
  obtain ⟨hs, hda⟩ := t.discardStaged_spec
  have hd := (AdmStep.discardStaged t).regs
  generalize t.discardStaged = u at hs hda hd ⊢
  have hl : RegsBut _ u _ := RegsBut.logErr (mkErr 2 20 cause 0 0 63 0 0 idx.toNat 0) (List.Subset.refl _)
  obtain ⟨_, _, hle⟩ := State.logErr_frame u (mkErr 2 20 cause 0 0 63 0 0 idx.toNat 0)
  generalize u.logErr (mkErr 2 20 cause 0 0 63 0 0 idx.toNat 0) = v at hl hle ⊢
  have hva : v.adm = t.adm := by rw [hle]; exact hda
  have hvs : v.staged = [] := by rw [hle]; exact hs
  obtain ⟨_, _, _, _, _, _, _, _, _, hn⟩ := v.admNotice_frame
  refine ⟨((hd.mono (by simp)).trans (hl.mono (by simp))).trans (RegsBut.of_regs (by rw [hn])), ?_, ?_, ?_⟩
  · rw [hn, ← hf, ← hva]
  · rw [hn, ← hc, ← hva]
  · rw [hn, ← hvs]

theorem State.admError_spec {s : State} (hw : s.regs.wf = true) (cause : Nat) (idx : W32) :
    admState (s.admError cause idx) = 3 ∧ (s.admError cause idx).fld .admQStat 0 8 8 = cause % 256 ∧
      (s.admError cause idx).rd .admErrIndex 0 = idx ∧ (s.admError cause idx).adm.f = s.adm.f ∧ (s.admError cause idx).staged = [] ∧
      (s.admError cause idx).adm.cmd = s.emptyCommit.adm.cmd := by
  have hr : s.dropAdmSlot.emptyCommit.regs.wf = true := by rw [State.emptyCommit_spec]; exact hw
  obtain ⟨h3, hc, hi⟩ := State.admErrRegs_spec hr cause idx
  obtain ⟨hk, hf, hcmd, hst⟩ := s.admError_rest cause idx
  exact ⟨(hk.fld (by decide) 0 3).trans h3, (hk.fld (by decide) 8 8).trans hc, (hk.rd _ _ (by decide)).trans hi, hf, hst, hcmd⟩

/-! A slot as read (09 R277, R283). -/

section
variable {s : State} {ws : List W64} (hs : admState s = 1 ∨ admState s = 2)
include hs

theorem State.admSlotRead_torn (hg : ¬(dGen ws = genOf (admDepth s) s.adm.f ∧ dSeal ws = genOf (admDepth s) s.adm.f))
    (hr : s.adm.reread < tornCeil s) : s.admSlotRead ws =
      s.setAdm (fun x => { x with slotActive := false, reread := s.adm.reread + 1, rereadDue := some (s.nomNs + admPollNs s) }) := by
  unfold State.admSlotRead
  dsimp only
  rw [if_neg (by rcases hs with h | h <;> simp [h]), if_pos (by tauto), if_neg (by omega)]
  rfl

variable (hg : dGen ws = genOf (admDepth s) s.adm.f ∧ dSeal ws = genOf (admDepth s) s.adm.f)
include hg

theorem State.admSlotRead_sound (hc : admProofCause ws = 0) : s.admSlotRead ws =
    (s.setAdm (fun x => { x with
      slotActive := false, reread := 0, lastSlot := ws, f := s.adm.f + 1, cmd := some (newCmd s ws s.adm.f none) })).setFld .admQStat 0 0 3 2 := by
  unfold State.admSlotRead
  dsimp only
  rw [if_neg (by rcases hs with h | h <;> simp [h]), if_neg (by tauto), if_neg (by simp [hc])]
  rfl

theorem State.admSlotRead_malformed (hc : admProofCause ws ≠ 0) : s.admSlotRead ws =
    (s.setAdm (fun x => { x with slotActive := false, reread := 0, lastSlot := ws })).admError (admProofCause ws) s.adm.f := by
  have h3 : admState (s.setAdm (fun x => { x with slotActive := false, reread := 0, lastSlot := ws })) ≠ 3 := by
    show admState s ≠ 3
    omega
  unfold State.admSlotRead State.admMalformed
  dsimp only
  rw [if_neg (by rcases hs with h | h <;> simp [h]), if_neg (by tauto), if_pos hc]
  exact if_neg h3

end

/-- What a slot read finds of the admin queue is the same once its tag is free. -/
theorem PortsOnly.admView {s u : State} (h : PortsOnly s u) : admState u = admState s ∧ admDepth u = admDepth s ∧ tornCeil u = tornCeil s ∧
    u.regs = s.regs ∧ (∀ ws i m, newCmd u ws i m = newCmd s ws i m) ∧ u.nomNs + admPollNs u = s.nomNs + admPollNs s := by
  obtain ⟨_, _, _, _, _, _, rfl⟩ := h
  exact ⟨rfl, rfl, rfl, rfl, fun _ _ _ => rfl, rfl⟩

/-- Settles O38: each clause is the lemma on its step; a read or an acknowledgement first frees its tag, which only the ports show. -/
theorem adminRecords : Obligations.AdminRecords := by
  unfold Obligations.AdminRecords
  refine ⟨fun s c status detail w1 w2 w5 hc hs hb hl hf hw => State.admEnd_spec hc hs hb hl hf hw status detail w1 w2 w5,
    ?_, ?_, ?_, ?_, ?_, ?_, ?_⟩
  · intro s hr h1 h3 hd hk
    refine ⟨_, ?_, State.setAdm_reads (fatal_of_admRuns hr) (fun x => { x with dbActive := true, kick := false, nextPoll := s.nomNs + admPollNs s })
      .admDoorbell (admDbAddr s) 8⟩
    show execAdminDoorbellRead s = _
    unfold execAdminDoorbellRead
    dsimp only
    rw [if_pos (by simpa [hr, h1, h3, hd] using hk)]
  · intro s a ans ha hp hf hans
    have he := adminDoorbellResponse_clean ha hp hf hans
    have hP := PortsOnly.dropDrain s a.aid
    have hR := Released.dropDrain s a.aid
    generalize (s.dropAccess a.aid).drainHeld = u at he hP hR
    exact ⟨_, he, hP.setAdm _, hR.congr rfl⟩
  · intro s rec hs hc ha hd hr hn hd1 hd2 hp hF hw
    obtain ⟨b, e, hb⟩ := State.admDoorbell_moves hs hn hd1 hd2 hp
    rw [hb]
    obtain ⟨g1, g2, g3⟩ := State.admPump_reads (s := s.setAdm fun x => { x with resumeSeen := b, abandonSeen := e, piSeen := rec.setWidth 32 })
      ⟨.inl hs, hr, hc, ha, hd⟩ hF hw
    exact ⟨by rw [g2]; rfl, g1, by rw [g2], g3⟩
  · intro s a ans ws ha hp hf hans hs hw hws
    subst hws
    rw [adminSlotReadResponse_clean ha hp hf hans]
    have hP := PortsOnly.dropDrain s a.aid
    have hR := Released.dropDrain s a.aid
    generalize (s.dropAccess a.aid).drainHeld = u at hP hR
    obtain ⟨vs, vd, vt, vr, vn, vp⟩ := hP.admView
    have va := hP.adm
    generalize wordsOfBytes (answerBytes a ans) = ws
    rw [← vs] at hs
    rw [← vr] at hw
    rw [← vd, ← vt, ← va]
    refine ⟨fun hg hc => ⟨_, rfl, ?_⟩, fun hg hc => ⟨_, rfl, ?_⟩, fun hg hr => ⟨_, rfl, ?_⟩⟩
    · rw [State.admSlotRead_sound hs hg hc]
      exact ⟨State.fld_setFld _ _ _ _ _ _ hw (by decide), rfl, rfl, congrArg some (vn ws u.adm.f none), rfl⟩
    · rw [State.admSlotRead_malformed hs hg hc]
      obtain ⟨g1, g2, g3, g4, g5, g6⟩ := State.admError_spec
        (s := u.setAdm (fun x => { x with slotActive := false, reread := 0, lastSlot := ws })) hw (admProofCause ws) u.adm.f
      exact ⟨g1, g2, g3, g4, g5, g6.trans (State.emptyCommit_cmd (by rw [← va]; rfl))⟩
    · rw [State.admSlotRead_torn hs hg hr]
      refine ⟨hR.congr rfl, ?_⟩
      rw [← vp, va]
      exact hP.setAdm fun x => { x with slotActive := false, reread := s.adm.reread + 1, rereadDue := some (u.nomNs + admPollNs u) }
  · intro s due hd ht hr h1 h3
    refine ⟨_, ?_, State.setAdm_reads (fatal_of_admRuns hr) (fun x => { x with rereadDue := none, slotActive := true })
      .admSlot (admSlotAddr s s.adm.f) 64⟩
    show execAdminSlotReread s = _
    unfold execAdminSlotReread
    rw [hd]
    dsimp only
    rw [if_pos (by simp [hr, ht, h1, h3])]
  · intro s a i ha hp hf
    refine ⟨_, ?_, PortsOnly.dropDrain s a.aid, Released.dropDrain s a.aid⟩
    show execAdminRecordAck a.aid 0 s = _
    unfold execAdminRecordAck
    rw [ha]
    dsimp only
    rw [hp]
    dsimp only
    rw [if_neg (by simp [hf]), if_pos (by decide)]
  · intro s ha hb he hf hh
    obtain ⟨g1, g2⟩ := State.admNotice_asks ha hb hf hh
    rw [admNoticeWord_noticed s he] at g2
    exact ⟨by rw [g1]; rfl, by rw [g1]; rfl, g2⟩

end Sys2Proof.Machine
end

section
/-! PROOFS. The entry of an instance, and its commands (10 R313 to R333). -/

namespace Sys2Proof.Machine

/-! Words of a map that is cleared. -/

theorem WordMap.get_clear (m : WordMap) (lo n k : Nat) : (m.clear lo n).get k = if k < lo ∨ lo + n ≤ k then m.get k else 0 := by
  unfold WordMap.clear
  induction m with
  | nil => simp [WordMap.get]
  | cons p r ih =>
    obtain ⟨a, x⟩ := p
    rw [List.filter_cons]
    by_cases hk : a = k
    · subst hk
      by_cases h : a < lo ∨ lo + n ≤ a
      · rw [if_pos (by simpa using h), if_pos h]
        simp [WordMap.get]
      · rw [if_neg (by simpa using h), ih, if_neg h, if_neg h]
    · have hr : WordMap.get ((a, x) :: r) k = WordMap.get r k := if_neg hk
      rw [hr, ← ih]
      split
      · exact if_neg hk
      · rfl

/-! Changes of one instance. -/

/-- t is s but for the entry of instance `iid` and what the units keep of it. -/
structure InstStep (iid : Nat) (s t : State) : Prop where
  frame : ∃ m c r p b q f d x, t = { s with is0 := m, is3 := c, regs := r, pollInst := p, buckets := b, dirtyQ := q, dirtyFilter := f,
                                            dirtyPrev := d, sched := x }
  outside : ∀ k, k < 16 * iid ∨ 16 * iid + 16 ≤ k → t.is0.get k = s.is0.get k
  wf : s.is0.wf = true → t.is0.wf = true

section
variable {iid : Nat} {s t u : State}

theorem InstStep.refl (s : State) : InstStep iid s s := ⟨⟨_, _, _, _, _, _, _, _, _, rfl⟩, fun _ _ => rfl, id⟩

theorem InstStep.trans (h : InstStep iid s t) (k : InstStep iid t u) : InstStep iid s u := by
  refine ⟨?_, fun n hn => (k.outside n hn).trans (h.outside n hn), k.wf ∘ h.wf⟩
  obtain ⟨_, _, _, _, _, _, _, _, _, rfl⟩ := h.frame
  obtain ⟨_, _, _, _, _, _, _, _, _, rfl⟩ := k.frame
  exact ⟨_, _, _, _, _, _, _, _, _, rfl⟩

/-- The entry as it was. -/
theorem InstStep.of_is0 (h : ∃ c r p b q f d x, t = { s with
    is3 := c, regs := r, pollInst := p, buckets := b, dirtyQ := q, dirtyFilter := f, dirtyPrev := d, sched := x }) : InstStep iid s t := by
  obtain ⟨_, _, _, _, _, _, _, _, rfl⟩ := h
  exact ⟨⟨_, _, _, _, _, _, _, _, _, rfl⟩, fun _ _ => rfl, id⟩

theorem InstStep.setInst (s : State) {w : Nat} (hw : w < 16) (v : W32) : InstStep iid s (s.setInst iid w v) :=
  ⟨⟨_, _, _, _, _, _, _, _, _, rfl⟩, fun k hk => State.is0_setInst_get s iid w k v (by omega), State.is0_setInst_wf s iid w v⟩

theorem InstStep.setInstFld (s : State) {w : Nat} (hw : w < 16) (lo len v : Nat) : InstStep iid s (s.setInstFld iid w lo len v) :=
  InstStep.setInst s hw _

theorem InstStep.setFld (s : State) (r : Reg) (i lo len v : Nat) : InstStep iid s (s.setFld r i lo len v) :=
  InstStep.of_is0 ⟨_, _, _, _, _, _, _, _, rfl⟩

/-- What an instance command leaves. -/
theorem InstStep.kept (h : InstStep iid s t) : t.adm = s.adm ∧ t.ways = s.ways ∧ t.queues = s.queues ∧ t.slots = s.slots := by
  obtain ⟨_, _, _, _, _, _, _, _, _, rfl⟩ := h.frame
  exact ⟨rfl, rfl, rfl, rfl⟩

end

/-! CREATE_INSTANCE writes the entry (10 R313). -/

/-- The first n words of an entry are written. -/
theorem State.foldl_setInst (s : State) (iid : Nat) (f : Nat → W32) (hw : s.is0.wf = true) (n : Nat) (hn : n ≤ 16) :
    InstStep iid s ((List.range n).foldl (fun t w => t.setInst iid w (f w)) s) ∧
      ∀ w, w < n → ((List.range n).foldl (fun t w => t.setInst iid w (f w)) s).inst iid w = f w := by
  induction n with
  | zero => exact ⟨InstStep.refl s, by omega⟩
  | succ n ih =>
    obtain ⟨h, hf⟩ := ih (by omega)
    rw [List.range_succ, List.foldl_append, List.foldl_cons, List.foldl_nil]
    generalize (List.range n).foldl (fun t w => t.setInst iid w (f w)) s = t at h hf ⊢
    refine ⟨h.trans (InstStep.setInst t (by omega) _), fun w hwn => ?_⟩
    by_cases e : w = n
    · rw [e, State.inst_setInst _ _ _ _ (h.wf hw)]
    · rw [State.inst_setInst_ne _ _ _ _ _ _ (by omega), hf w (by omega)]

/-- The entry of a new instance. -/
def State.newEntry (s : State) (iid : Nat) (f : Nat → W32) : State :=
  ((((List.range 13).foldl (fun t w => t.setInst iid w (f w)) s).setInst iid 13 1).setInst iid 14 0).setInst iid 15 0

theorem State.newEntry_spec (s : State) (iid : Nat) (f : Nat → W32) (hw : s.is0.wf = true) :
    InstStep iid s (s.newEntry iid f) ∧ (∀ w, w < 13 → (s.newEntry iid f).inst iid w = f w) ∧
      (s.newEntry iid f).inst iid 13 = 1 ∧ (s.newEntry iid f).inst iid 14 = 0 ∧ (s.newEntry iid f).inst iid 15 = 0 := by
  obtain ⟨h, hf⟩ := s.foldl_setInst iid f hw 13 (by decide)
  unfold State.newEntry
  generalize (List.range 13).foldl (fun t w => t.setInst iid w (f w)) s = t at h hf ⊢
  have h1 : InstStep iid t (t.setInst iid 13 1) := InstStep.setInst t (by decide) 1
  have h2 : InstStep iid t ((t.setInst iid 13 1).setInst iid 14 0) := h1.trans (InstStep.setInst _ (by decide) 0)
  have h3 : InstStep iid t (((t.setInst iid 13 1).setInst iid 14 0).setInst iid 15 0) := h2.trans (InstStep.setInst _ (by decide) 0)
  have hne := fun (u : State) w v x (hx : x ≠ w) => State.inst_setInst_ne u iid w iid x v (by omega)
  refine ⟨h.trans h3, fun w hw13 => ?_, ?_, ?_, State.inst_setInst _ _ _ _ (h2.wf (h.wf hw))⟩
  · rw [hne _ _ _ _ (by omega), hne _ _ _ _ (by omega), hne _ _ _ _ (by omega), hf w hw13]
  · rw [hne _ _ _ _ (by decide), hne _ _ _ _ (by decide), State.inst_setInst _ _ _ _ (h.wf hw)]
  · rw [hne _ _ _ _ (by decide), State.inst_setInst _ _ _ _ (h1.wf (h.wf hw))]

/-- CREATE_INSTANCE takes effect: the entry, and nothing else of the instances. -/
theorem State.createInst_spec (s : State) (c : AdmCmd) (hw : s.is0.wf = true) : ∃ u : State,
    s.createInst true c = u.admEnd true 0 0 0 0 0 ∧ InstStep (cIid c) s u ∧ (∀ w, w < 13 → u.inst (cIid c) w = imageWord c w) ∧
      u.inst (cIid c) 13 = 1 ∧ u.inst (cIid c) 14 = 0 ∧ u.inst (cIid c) 15 = 0 := by
  obtain ⟨h, hf, h13, h14, h15⟩ := s.newEntry_spec (cIid c) (imageWord c) hw
  unfold State.createInst
  dsimp only
  change ∃ u, State.admEnd (ite _ (State.dueNow
    { ((s.newEntry (cIid c) (imageWord c)).setFld .insStat 0 0 13 ((s.newEntry (cIid c) (imageWord c)).fld .insStat 0 0 13 + 1)) with
      buckets := (s.newEntry (cIid c) (imageWord c)).buckets.filter (fun b => b.iid != cIid c) } _)
    { ((s.newEntry (cIid c) (imageWord c)).setFld .insStat 0 0 13 ((s.newEntry (cIid c) (imageWord c)).fld .insStat 0 0 13 + 1)) with
      buckets := (s.newEntry (cIid c) (imageWord c)).buckets.filter (fun b => b.iid != cIid c) }) _ _ _ _ _ _ = _ ∧ _
  generalize s.newEntry (cIid c) (imageWord c) = t at h hf h13 h14 h15 ⊢
  refine ⟨_, rfl, ?_⟩
  split
  · exact ⟨h.trans (InstStep.of_is0 ⟨_, _, _, _, _, _, _, _, rfl⟩), hf, h13, h14, h15⟩
  · exact ⟨h.trans (InstStep.of_is0 ⟨_, _, _, _, _, _, _, _, rfl⟩), hf, h13, h14, h15⟩

/-! MODIFY_INSTANCE writes the groups selected (10 R314). -/

/-- A group's field is taken from the image where the group is selected. -/
def State.putGroup (s : State) (iid : Nat) (img : Nat → W32) (on : Bool) (w lo len : Nat) : State :=
  if on then s.putInst iid w (withBits (s.inst iid w) lo len (bits (img w) lo len)) else s

theorem State.putInst_is0 (s : State) (iid w : Nat) (v : W32) : (s.putInst iid w v).is0 = (s.setInst iid w v).is0 := by
  unfold State.putInst
  dsimp only
  split
  · split
    · rfl
    · rfl
  · split
    · rfl
    · rfl

theorem InstStep.putInst {iid : Nat} (s : State) {w : Nat} (hw : w < 16) (v : W32) : InstStep iid s (s.putInst iid w v) := by
  refine (InstStep.setInst s hw v).trans (InstStep.of_is0 ?_)
  unfold State.putInst
  dsimp only
  split
  · split
    · exact ⟨_, _, _, _, _, _, _, _, rfl⟩
    · exact ⟨_, _, _, _, _, _, _, _, rfl⟩
  · split
    · exact ⟨_, _, _, _, _, _, _, _, rfl⟩
    · exact ⟨_, _, _, _, _, _, _, _, rfl⟩

section
variable (s : State) (iid : Nat) (img : Nat → W32) (on : Bool) {w : Nat} (hw : w < 16) (lo len : Nat)

theorem State.putGroup_get {k : Nat} (hk : k ≠ 16 * iid + w) : (s.putGroup iid img on w lo len).is0.get k = s.is0.get k := by
  unfold State.putGroup
  split
  · rw [State.putInst_is0]
    exact State.is0_setInst_get _ _ _ _ _ hk
  · rfl

theorem State.putGroup_word {x : Nat} (hx : x ≠ w) : (s.putGroup iid img on w lo len).inst iid x = s.inst iid x :=
  s.putGroup_get iid img on lo len (by omega)

theorem State.putGroup_fld_word {x : Nat} (hx : x ≠ w) (a k : Nat) :
    (s.putGroup iid img on w lo len).instFld iid x a k = s.instFld iid x a k := by
  rw [State.instFld, s.putGroup_word iid img on lo len hx, State.instFld]

include hw in
theorem InstStep.putGroup : InstStep iid s (s.putGroup iid img on w lo len) := by
  unfold State.putGroup
  split
  · exact InstStep.putInst s hw _
  · exact InstStep.refl s

variable (hs : s.is0.wf = true) (hl : lo + len ≤ 32)
include hs hl

theorem State.putGroup_fld : (s.putGroup iid img on w lo len).instFld iid w lo len =
    if on then bits (img w) lo len else s.instFld iid w lo len := by
  unfold State.putGroup
  split
  · rw [State.instFld, State.inst, State.putInst_is0, ← State.inst, State.inst_setInst _ _ _ _ hs, bits_withBits _ _ _ _ hl]
    exact Nat.mod_eq_of_lt (bits_lt _ _ _)
  · rfl

theorem State.putGroup_fld_ne {a k : Nat} (d : a + k ≤ lo ∨ lo + len ≤ a) :
    (s.putGroup iid img on w lo len).instFld iid w a k = s.instFld iid w a k := by
  unfold State.putGroup
  split
  · rw [State.instFld, State.inst, State.putInst_is0, ← State.inst, State.inst_setInst _ _ _ _ hs, bits_withBits_ne _ _ _ _ _ _ hl d,
      State.instFld]
  · rfl

end

/-- A group of a whole word. -/
theorem State.putGroup_all (s : State) (iid : Nat) (img : Nat → W32) (on : Bool) (w : Nat) (hs : s.is0.wf = true) :
    (s.putGroup iid img on w 0 32).inst iid w = if on then img w else s.inst iid w := by
  have h := s.putGroup_fld iid img on (w := w) 0 32 hs (by decide)
  rw [instFld_word] at h
  refine BitVec.eq_of_toNat_eq (h.trans ?_)
  split
  · unfold bits
    rw [Nat.pow_zero, Nat.div_one, Nat.mod_eq_of_lt (img w).isLt]
  · exact instFld_word s iid w

/-- The groups of MODIFY_INSTANCE. -/
def State.putGroups (s : State) (iid : Nat) (img : Nat → W32) (g : Nat → Bool) : State :=
  ((((((s.putGroup iid img (g 0) 9 0 16).putGroup iid img (g 1) 10 0 21).putGroup iid img (g 1) 11 0 32).putGroup iid img (g 1) 12 0 20).putGroup
    iid img (g 2) 9 16 2).putGroup iid img (g 3) 3 16 16).putGroup iid img (g 4) 8 0 21

theorem State.modifyInst_eq (s : State) (c : AdmCmd) : s.modifyInst true c =
    (s.putGroups (cIid c) (imageWord c) (fun k => bit (wd c.words 1) (16 + k))).admEnd true 0 0 0 0 0 := rfl

/-- Each group's field is the image's where the group is selected, and all else of IS0 stays. -/
theorem State.putGroups_spec (s : State) (iid : Nat) (img : Nat → W32) (g : Nat → Bool) (hs : s.is0.wf = true) :
    InstStep iid s (s.putGroups iid img g) ∧
      (s.putGroups iid img g).instFld iid 9 0 16 = (if g 0 then bits (img 9) 0 16 else s.instFld iid 9 0 16) ∧
      (s.putGroups iid img g).instFld iid 10 0 21 = (if g 1 then bits (img 10) 0 21 else s.instFld iid 10 0 21) ∧
      (s.putGroups iid img g).inst iid 11 = (if g 1 then img 11 else s.inst iid 11) ∧
      (s.putGroups iid img g).instFld iid 12 0 20 = (if g 1 then bits (img 12) 0 20 else s.instFld iid 12 0 20) ∧
      (s.putGroups iid img g).instFld iid 9 16 2 = (if g 2 then bits (img 9) 16 2 else s.instFld iid 9 16 2) ∧
      (s.putGroups iid img g).instFld iid 3 16 16 = (if g 3 then bits (img 3) 16 16 else s.instFld iid 3 16 16) ∧
      (s.putGroups iid img g).instFld iid 8 0 21 = (if g 4 then bits (img 8) 0 21 else s.instFld iid 8 0 21) ∧
      ∀ k, (∀ w ∈ [3, 8, 9, 10, 11, 12], k ≠ 16 * iid + w) → (s.putGroups iid img g).is0.get k = s.is0.get k := by
  unfold State.putGroups
  have s1 := InstStep.putGroup s iid img (g 0) (w := 9) (by decide) 0 16
  have s2 := s1.trans (InstStep.putGroup _ iid img (g 1) (w := 10) (by decide) 0 21)
  have s3 := s2.trans (InstStep.putGroup _ iid img (g 1) (w := 11) (by decide) 0 32)
  have s4 := s3.trans (InstStep.putGroup _ iid img (g 1) (w := 12) (by decide) 0 20)
  have s5 := s4.trans (InstStep.putGroup _ iid img (g 2) (w := 9) (by decide) 16 2)
  have s6 := s5.trans (InstStep.putGroup _ iid img (g 3) (w := 3) (by decide) 16 16)
  have s7 := s6.trans (InstStep.putGroup _ iid img (g 4) (w := 8) (by decide) 0 21)
  refine ⟨s7, ?_, ?_, ?_, ?_, ?_, ?_, ?_, fun k hk => ?_⟩
  · simp (disch := decide) only [State.putGroup_fld_word]
    rw [State.putGroup_fld_ne _ _ _ _ _ _ (s4.wf hs) (by decide) (by decide)]
    simp (disch := decide) only [State.putGroup_fld_word]
    exact State.putGroup_fld _ _ _ _ _ _ hs (by decide)
  · simp (disch := decide) only [State.putGroup_fld_word]
    rw [State.putGroup_fld _ _ _ _ _ _ (s1.wf hs) (by decide), State.putGroup_fld_word _ _ _ _ _ _ (by decide)]
  · simp (disch := decide) only [State.putGroup_word]
    rw [State.putGroup_all _ _ _ _ _ (s2.wf hs)]
    simp (disch := decide) only [State.putGroup_word]
  · simp (disch := decide) only [State.putGroup_fld_word]
    rw [State.putGroup_fld _ _ _ _ _ _ (s3.wf hs) (by decide)]
    simp (disch := decide) only [State.putGroup_fld_word]
  · simp (disch := decide) only [State.putGroup_fld_word]
    rw [State.putGroup_fld _ _ _ _ _ _ (s4.wf hs) (by decide)]
    simp (disch := decide) only [State.putGroup_fld_word]
    rw [State.putGroup_fld_ne _ _ _ _ _ _ hs (by decide) (by decide)]
  · simp (disch := decide) only [State.putGroup_fld_word]
    rw [State.putGroup_fld _ _ _ _ _ _ (s5.wf hs) (by decide)]
    simp (disch := decide) only [State.putGroup_fld_word]
  · rw [State.putGroup_fld _ _ _ _ _ _ (s6.wf hs) (by decide)]
    simp (disch := decide) only [State.putGroup_fld_word]
  · have h : ∀ w ∈ [3, 8, 9, 10, 11, 12], ∀ (t : State) on lo len, (t.putGroup iid img on w lo len).is0.get k = t.is0.get k :=
      fun w hw t on lo len => t.putGroup_get iid img on lo len (hk w hw)
    rw [h 8 (by simp), h 3 (by simp), h 9 (by simp), h 12 (by simp), h 11 (by simp), h 10 (by simp), h 9 (by simp)]

end Sys2Proof.Machine
end

section
/-! PROOFS. The instance commands (10 R313 to R333; 09 R286 to R293). -/

namespace Sys2Proof.Machine

/-! A command in progress. -/

section
variable {s : State} {op : Nat} {c : AdmCmd} (h : Proofed s op c)
include h

theorem Proofed.code : cOp c = op ∧ admRuns s = true := by
  obtain ⟨hr, _⟩ := h
  unfold cmdReady at hr
  split at hr
  · split at hr
    · rename_i d hd hp
      obtain rfl := Option.some.inj hr
      simp only [Bool.and_eq_true, decide_eq_true_eq] at hp
      exact ⟨hp.1.2, hp.2⟩
    · nomatch hr
  · nomatch hr

/-- The first piece of its image or list is read (09 R291). -/
theorem Proofed.withList (hop : op < 0x90) (k : State → Bool → AdmCmd → State) :
    PortsOnly { s with adm := { s.adm with cmd := some { c with phase := .image [] } } } (s.withList true c k) ∧
      Offered (s.withList true c k) (.admImage 0) false (wd c.words 2).toNat (min 64 (64 - (wd c.words 2).toNat % 64)) [] := by
  obtain ⟨ho, hr⟩ := h.code
  have hf := fatal_of_admRuns hr
  have hl : listRange c = ((wd c.words 2).toNat, 64) := by rw [listRange, if_pos (by omega)]
  have e : s.withList true c k = (s.setAdm fun a => { a with cmd := some { c with phase := .image [] } }).service
      (admAccess s (.admImage 0) false (wd c.words 2).toNat (min 64 (64 - (wd c.words 2).toNat % 64)) []) := by
    rw [State.withList, if_pos rfl]
    dsimp only
    rw [State.readPiece, hl]
    rfl
  rw [e]
  exact State.setAdm_reads hf _ _ _ _

end

/-- With no other member, a command takes effect at once (14 R423). -/
theorem State.toMembers_alone {s : State} (h : fedOthers s = []) (c : AdmCmd) (items : List (W64 × W64))
    (eff : State → Bool → AdmCmd → State) : s.toMembers true c items eff = eff s true c := by
  have hm : toldMembers s true = [] := h
  rw [State.toMembers, hm]

/-! Answers to the reads of an image (09 R291). -/

section
variable {s : State} {a : Access} {ofs : Nat} {ans : Answer} (ha : s.access a.aid = some a) (hp : a.purpose = .admImage ofs)
  (hf : s.fatal = false)
include ha hp hf

/-- The last piece: the command goes on with the whole. -/
theorem imageReadResponse_whole (h : CleanAnswer a ans) {c : AdmCmd} {got : List Byte} (hc : s.adm.cmd = some c) (hg : c.phase = .image got)
    (hl : (listRange c).2 ≤ (got ++ answerBytes a ans).length) :
    exec (.imageReadResponse a.aid ans) s = .next ((s.dropAccess a.aid).drainHeld.listRead c (got ++ answerBytes a ans)) := by
  have h0 : codeSeen ans.code = 0 := h.1
  show execImageReadResponse a.aid ans s = _
  unfold execImageReadResponse
  rw [ha]
  dsimp only
  rw [hp]
  dsimp only
  rw [if_neg (by simp [hf]), if_neg (by simp [h0]), State.admRead_clean h]
  rw [(PortsOnly.dropDrain s a.aid).adm, hc]
  dsimp only
  rw [hg]
  dsimp only
  rw [if_pos hl]

/-- A non-retryable error ends the command with MEM_FAULT. -/
theorem imageReadResponse_fault (h0 : codeSeen ans.code ≠ 0) (hr : codeRetryable (codeSeen ans.code) = false) :
    exec (.imageReadResponse a.aid ans) s =
      .next ((s.readEnds a ans).drainHeld.admEnd true 0x49 (codeSeen ans.code).toNat 0 0 a.addr) := by
  show execImageReadResponse a.aid ans s = _
  unfold execImageReadResponse
  rw [ha]
  dsimp only
  rw [hp]
  dsimp only
  rw [if_neg (by simp [hf]), if_pos (by simpa [hr] using h0)]

end

/-- CREATE_INSTANCE goes on with its image, MODIFY_INSTANCE with its own. -/
theorem State.listRead_instance (s : State) {c : AdmCmd} (bs : List Byte) (hop : cOp c = 0x80 ∨ cOp c = 0x81) :
    s.listRead c bs = let d := { c with image := wordsOfBytes bs, items := [] }
      if cOp c = 0x80 then (s.putCmd true (some d)).createInstImage true d else (s.putCmd true (some d)).modifyInstImage true d := by
  have hlt : cOp c < 0x90 := by omega
  unfold State.listRead
  dsimp only
  simp only [if_pos hlt]
  split
  · rfl
  · rw [if_pos (by omega)]

section
variable {t : State} {d : AdmCmd}

theorem State.createInstImage_bad {w : Nat} (h : (List.range 16).find? (fun x => imageBad d x) = some w) :
    t.createInstImage true d = t.admEnd true 0x44 0 0 0 w := by
  unfold State.createInstImage
  rw [h]
  rfl

theorem State.createInstImage_fits (h : ∀ w, w < 16 → imageBad d w = false) (hc : imageClash t d = false) (ha : fedOthers t = []) :
    t.createInstImage true d = t.createInst true d := by
  have hn : (List.range 16).find? (fun x => imageBad d x) = none := by
    rw [List.find?_eq_none]
    intro w hw
    rw [h w (List.mem_range.mp hw)]
    exact Bool.false_ne_true
  unfold State.createInstImage
  rw [hn]
  dsimp only
  rw [hc, if_neg Bool.false_ne_true, State.toMembers_alone ha]

end

/-- An image's command finds the instances as they were before its last read. -/
theorem PortsOnly.imageView {s t : State} (h : PortsOnly s t) (d : AdmCmd) : (t.putCmd true (some d)).is0 = s.is0 ∧
    (t.putCmd true (some d)).ways = s.ways ∧ (t.putCmd true (some d)).queues = s.queues ∧ (t.putCmd true (some d)).slots = s.slots ∧
    imageClash (t.putCmd true (some d)) d = imageClash s d ∧ fedOthers (t.putCmd true (some d)) = fedOthers s := by
  obtain ⟨_, _, _, _, _, _, rfl⟩ := h
  exact ⟨rfl, rfl, rfl, rfl, rfl, rfl⟩

/-! The instance's queues stay its queues as its state changes. -/

theorem instQueues_setState (s : State) (iid v : Nat) : instQueues (s.setInstFld iid 13 0 3 v) iid = instQueues s iid := by
  have hw : ∀ w, w ≠ 13 → (s.setInstFld iid 13 0 3 v).inst iid w = s.inst iid w := fun w hw => State.inst_setInst_ne _ _ _ _ _ _ (by omega)
  unfold instQueues qbase qidSpan State.instFld
  rw [hw 2 (by decide), hw 3 (by decide)]
  rfl

/-! QUIESCE_INSTANCE (10 R321, R322). -/

section
variable {s : State} {c : AdmCmd} (h : Proofed s 0x82 c)
include h

/-- A LIVE instance with no queue of this member is QUIESCING. -/
theorem Proofed.quiesce_live (hc : cFlag c 0 = false) (hi : s.instState (cIid c) = 1) (hq : ownQueues s (cIid c) = []) :
    exec .quiesceInstance s =
      .next (State.setInstFld { s with adm := { s.adm with cmd := some { underCeil s c with phase := .waiting } } } (cIid c) 13 0 3 2) := by
  have hcid : cIid (underCeil s c) = cIid c := by rw [cIid, underCeil_words, ← cIid]
  have hb : exec .quiesceInstance s = .next (s.beginQuiesce true c) := h.begins State.beginQuiesce
  rw [hb, State.beginQuiesce]
  rw [hi, if_neg (by decide), hc, if_neg (by decide), if_neg (by decide), h.toMembers rfl, State.quiesceInst]
  dsimp only
  rw [hcid, hi, if_neg (by decide), if_neg (by decide), if_pos rfl, State.waitQuiesce_underCeil, State.eachQueue]
  have hn : ownQueues (State.setInstFld { s with adm := { s.adm with cmd := some { underCeil s c with phase := .waiting } } } (cIid c) 13 0 3 2)
      (cIid c) = [] := by
    rw [← hq, ownQueues, instQueues_setState]
    rfl
  rw [hn]
  rfl

end

/-! DRAIN_OR_SQUASH (10 R329 to R331). -/

/-- With nothing of the instance in the clusters there is nothing to squash. -/
theorem State.squashAll_idle {s : State} {iid : Nat} (hs : ∀ x ∈ s.slots, x.iid ≠ iid)
    (hm : ∀ m ∈ s.moving, m.2.iid ≠ iid ∧ m.2.squashed = false) : s.squashAll iid = s := by
  have h0 : s.slots.filter (fun x => decide (x.iid = iid)) = [] := by
    rw [List.filter_eq_nil_iff]
    exact fun x hx => by simpa using hs x hx
  have h1 : s.slots.filter (fun x => decide (x.iid = iid) && isEarly x) = [] := by
    rw [List.filter_eq_nil_iff]
    exact fun x hx => by simp [hs x hx]
  have h2 : s.moving.map (fun m => if m.2.iid = iid then (m.1, m.2.squash) else m) = s.moving := by
    refine (List.map_congr_left (g := id) fun m hm' => ?_).trans (List.map_id _)
    exact if_neg (hm m hm').1
  have h3 : s.moving.find? (movedDone s) = none := by
    rw [List.find?_eq_none]
    exact fun m hm' => by simp [movedDone, (hm m hm').2]
  have hset : ∀ n, s.settleMoving n = s := by
    intro n
    cases n with
    | zero => rfl
    | succ n => rw [State.settleMoving, h3]
  unfold State.squashAll
  dsimp only
  rw [h1, List.foldl_nil, h0, List.foldl_nil, h2]
  exact hset _

/-- An own command's end leaves the other member's in progress. -/
theorem State.admEnd_own_fed {s : State} {c : AdmCmd} (hc : s.adm.cmd = some c) (hs : c.sender = none) (status detail w1 w2 w5 : Nat) :
    (s.admEnd true status detail w1 w2 w5).fed = s.fed := by
  have hcmd : cmdOf s true = some c := hc
  have fed : ∀ {offs : List Nat} {t u : State}, AdmStep offs t u → u.fed = t.fed := by
    intro offs t u h
    obtain ⟨_, _, _, _, _, _, _, _, _, rfl⟩ := h.frame
    rfl
  unfold State.admEnd
  simp only [hcmd, hs, Option.isNone_none, if_true]
  refine (fed (AdmStep.admNext _)).trans ?_
  have he : ∀ b : Bool, ((if b = true then s.epochNext else s).putCmd true none).fed = s.fed := by
    intro b
    refine (fed (AdmStep.putCmd (offs := []) _ none)).trans ?_
    unfold State.epochNext
    split
    · split
      · rfl
      · rfl
    · rfl
  split
  · exact he _
  · exact (fed (AdmStep.admRecord _ _ _)).trans (he _)

section
variable {s : State} {c : AdmCmd}

/-- A squash whose instance is idle ends at once (10 R329, R330). -/
theorem State.admCheckOne_squash (hc : s.adm.cmd = some c) (hp : c.phase = .waiting) (ho : cOp c = 0x83) (hr : instRuns s (cIid c) = false)
    (hk : instRecords s (cIid c) = false) : s.admCheckOne true = (s.setInstFld (cIid c) 13 0 3 3).admEnd true 0 0 c.w1.toNat c.w2.toNat 0 := by
  have hcmd : cmdOf s true = some c := hc
  unfold State.admCheckOne
  rw [hcmd]
  dsimp only
  rw [if_neg (by simp [hp]), if_neg (by simp [ho]), if_pos ho, hr, hk]
  rfl

theorem State.admCheckOne_none (hr : s.fed.remote = none) : s.admCheckOne false = s := by
  have hcmd : cmdOf s false = none := hr
  unfold State.admCheckOne
  rw [hcmd]

/-- The command of a squash that has no descriptor to end. -/
def squashed (s : State) (c : AdmCmd) : AdmCmd :=
  { c with phase := .waiting, w1 := 0, w2 := BitVec.ofNat 64 (instWrites s (cIid c)) }

/-- DRAIN_OR_SQUASH of an instance with nothing in the clusters. -/
theorem Proofed.squash_idle (h : Proofed s 0x83 c) (hi : s.instState (cIid c) = 2 ∨ s.instState (cIid c) = 3)
    (hr : instRuns s (cIid c) = false) (hk : instRecords s (cIid c) = false) (hx : ∀ x ∈ s.slots, x.iid ≠ cIid c)
    (hm : ∀ m ∈ s.moving, m.2.squashed = false) (hf : s.fed.remote = none) : exec .drainOrSquash s =
      .next ((((s.putCmd true (some (squashed s c))).setInstFld (cIid c) 13 0 3 4).setInstFld (cIid c) 13 0 3 3).admEnd true 0 0 0
        (instWrites s (cIid c) % 2 ^ 64) 0) := by
  obtain ⟨_, hsender, _⟩ := id h
  have hmi : ∀ m ∈ s.moving, m.2.iid ≠ cIid c := by
    intro m hm' e
    unfold instRuns at hr
    simp only [Bool.or_eq_false_iff, List.any_eq_false] at hr
    exact hr.2 m hm' (decide_eq_true e)
  have hn0 : s.slots.filter (fun x => decide (x.iid = cIid c)) = [] := by
    rw [List.filter_eq_nil_iff]
    exact fun x hx' => by simpa using hx x hx'
  have hn1 : s.moving.filter (fun m => decide (m.2.iid = cIid c)) = [] := by
    rw [List.filter_eq_nil_iff]
    exact fun m hm' => by simpa using hmi m hm'
  have hb : exec .drainOrSquash s = .next (s.beginSquash true c) := h.begins State.beginSquash
  have hst : ¬(s.instState (cIid c) ≠ 2 ∧ s.instState (cIid c) ≠ 3) := by omega
  have hb' : s.beginSquash true c =
      (((s.putCmd true (some (squashed s c))).setInstFld (cIid c) 13 0 3 4).squashAll (cIid c)).admCheck := by
    rw [State.beginSquash, if_neg (by omega), if_neg hst, h.toMembers rfl, State.squashInst]
    dsimp only
    rw [if_neg hst, hn0, hn1]
    rfl
  have hq : instQueues ((s.putCmd true (some (squashed s c))).setInstFld (cIid c) 13 0 3 4) (cIid c) = instQueues s (cIid c) :=
    instQueues_setState (s.putCmd true (some (squashed s c))) (cIid c) 4
  have hk' : instRecords ((s.putCmd true (some (squashed s c))).setInstFld (cIid c) 13 0 3 4) (cIid c) = false := by
    rw [instRecords, hq]
    exact hk
  have hs' := State.squashAll_idle (s := (s.putCmd true (some (squashed s c))).setInstFld (cIid c) 13 0 3 4) hx
    fun m hm' => ⟨hmi m hm', hm m hm'⟩
  have he := State.admCheckOne_squash (s := (s.putCmd true (some (squashed s c))).setInstFld (cIid c) 13 0 3 4) (c := squashed s c)
    rfl rfl h.code.1 hr hk'
  rw [hb, hb', hs', State.admCheck, he, State.admCheckOne_none]
  · rw [squashed, BitVec.toNat_ofNat]
    rfl
  · rw [State.admEnd_own_fed (c := squashed s c) rfl hsender]
    exact hf

end

/-! RESET_INSTANCE and DESTROY_INSTANCE (10 R333). -/

section
variable {s : State} {c : AdmCmd} (hp : (s.polls.any (fun p => p.iid == cIid c)) = false) (hq : instQueues s (cIid c) = [])
include hp hq

/-- No poll and no queue is waited for. -/
theorem State.closeStep_queues (hs : c.stage = 0) (f : Nat) : s.closeStep true c (f + 1) =
    (s.putCmd true (some { c with stage := 1, w1 := 0 })).closeStep true { c with stage := 1, w1 := 0 } f := by
  rw [State.closeStep]
  dsimp only
  rw [if_pos hs, hp, if_neg Bool.false_ne_true, hq]
  rfl

/-- The instance logs nothing: it ends. -/
theorem State.closeStep_ends (hs : c.stage = 1) (hl : logOn s (cIid c) = false) (f : Nat) : s.closeStep true c (f + 1) =
    (s.instanceEnd (cIid c) (decide (cOp c = 0x85))).admEnd true 0 0 c.w1.toNat 0 0 := by
  rw [State.closeStep]
  dsimp only
  rw [if_neg (by omega), if_pos hs, if_neg (not_not.mpr hq), hl, Bool.not_false, if_pos rfl, State.closeEnd]
  rw [hp, Bool.and_false, if_neg Bool.false_ne_true]

/-- An instance with nothing to wait for closes at once. -/
theorem State.closeInst_idle (hl : logOn s (cIid c) = false) : s.closeInst true c =
    ((s.putCmd true (some { c with phase := .waiting, stage := 1, w1 := 0 })).instanceEnd (cIid c) (decide (cOp c = 0x85))).admEnd
      true 0 0 0 0 0 := by
  have e := (s.putCmd true (some { c with phase := .waiting, stage := 0 })).closeStep_queues (c := { c with phase := .waiting, stage := 0 })
    hp hq rfl 5
  have e' := (s.putCmd true (some { c with phase := .waiting, stage := 1, w1 := 0 })).closeStep_ends
    (c := { c with phase := .waiting, stage := 1, w1 := 0 }) hp hq rfl hl 4
  exact e.trans e'

end

/-- The end of an instance: RESET leaves it LIVE, DESTROY clears its entry. -/
theorem State.instanceEnd_spec (s : State) (iid : Nat) (gone : Bool) (hw : s.is0.wf = true) :
    InstStep iid s (s.instanceEnd iid gone) ∧ (gone = false → (s.instanceEnd iid gone).instState iid = 1) ∧
      (gone = true → ∀ w, w < 16 → (s.instanceEnd iid gone).inst iid w = 0) := by
  cases gone with
  | true =>
    refine ⟨⟨⟨_, _, _, _, _, _, _, _, _, rfl⟩, fun k hk => ?_, WordMap.wf_clear _ _ _⟩, nofun, fun _ w hw16 => ?_⟩
    · exact (WordMap.get_clear s.is0 (16 * iid) 16 k).trans (if_pos hk)
    · exact (WordMap.get_clear s.is0 (16 * iid) 16 (16 * iid + w)).trans (if_neg (by omega))
  | false =>
    exact ⟨(InstStep.of_is0 ⟨_, _, _, _, _, _, _, _, rfl⟩).trans (InstStep.setInstFld _ (by decide) _ _ _),
      fun _ => State.instFld_setInstFld _ _ _ _ _ _ hw (by decide), nofun⟩

/-- RESET_INSTANCE and DESTROY_INSTANCE of an instance with nothing to wait for. -/
theorem Proofed.close_idle {s : State} {op : Nat} {c : AdmCmd} (h : Proofed s op c)
    (hi : s.instState (cIid c) = 1 ∨ s.instState (cIid c) = 3) (hn : instInFlight s (cIid c) = 0)
    (hp : (s.polls.any (fun p => p.iid == cIid c)) = false) (hq : instQueues s (cIid c) = []) (hl : logOn s (cIid c) = false)
    (hw : s.is0.wf = true) : ∃ u : State, s.beginClose true c = u.admEnd true 0 0 0 0 0 ∧
      (op ≠ 0x85 → u.instState (cIid c) = 1) ∧ (op = 0x85 → ∀ w, w < 16 → u.inst (cIid c) w = 0) ∧
      (∀ k, k < 16 * cIid c ∨ 16 * cIid c + 16 ≤ k → u.is0.get k = s.is0.get k) ∧ u.queues = s.queues ∧ u.ways = s.ways ∧
      u.slots = s.slots := by
  have hs : InstStep (cIid c) s (s.setInstFld (cIid c) 13 0 3 5) := InstStep.setInstFld s (by decide) _ _ _
  have hl' : logOn (s.setInstFld (cIid c) 13 0 3 5) (cIid c) = false := by
    have e := State.instFld_setInstFld_ne s (cIid c) 13 0 3 5 3 1 hw (by decide) (by decide)
    unfold State.instFld at e
    rw [logOn, bit_eq_bits] at hl ⊢
    rw [e]
    exact hl
  rw [State.beginClose, if_neg (by omega), if_neg (by omega), if_neg (by omega),
    h.toMembers (t := s.setInstFld (cIid c) 13 0 3 5) rfl,
    State.closeInst_idle (s := s.setInstFld (cIid c) 13 0 3 5) (c := { c with stage := 16 + s.instState (cIid c) }) hp
      ((instQueues_setState s (cIid c) 5).trans hq) hl']
  refine ⟨_, rfl, ?_⟩
  have ho : cOp c = op := h.code.1
  obtain ⟨he, hr, hd⟩ := State.instanceEnd_spec ((s.setInstFld (cIid c) 13 0 3 5).putCmd true
    (some { c with phase := .waiting, stage := 1, w1 := 0 })) (cIid c) (decide (cOp c = 0x85)) (hs.wf hw)
  obtain ⟨_, hways, hqueues, hslots⟩ := he.kept
  exact ⟨fun hne => hr (decide_eq_false (ho ▸ hne)), fun e => hd (decide_eq_true (ho.trans e)),
    fun k hk => (he.outside k hk).trans (hs.outside k hk), hqueues, hways, hslots⟩

/-- Settles O39: each clause is the lemma on its command; an image's effect is the entry's new words (10 R313, R314). -/
theorem instanceCommands : Obligations.InstanceCommands := by
  unfold Obligations.InstanceCommands
  refine ⟨?_, ?_, ?_, ?_, ?_, ?_, fun s c hd => if_pos hd, ?_, ?_, ?_, ?_, ?_⟩
  · intro s c h hi
    have hb : exec .createInstance s = .next (s.beginCreateInst true c) := h.begins State.beginCreateInst
    rw [State.beginCreateInst, if_neg (not_not.mpr hi)] at hb
    exact ⟨_, hb, h.withList (by decide) _⟩
  · intro s c h hi
    have hb : exec .createInstance s = .next (s.beginCreateInst true c) := h.begins State.beginCreateInst
    rw [State.beginCreateInst, if_pos hi] at hb
    exact hb
  · intro s c h hi
    have hb : exec .modifyInstance s = .next (s.beginModifyInst true c) := h.begins State.beginModifyInst
    rw [State.beginModifyInst, if_neg hi] at hb
    exact ⟨_, hb, h.withList (by decide) _⟩
  · intro s a ofs ans c got d ha hp hf hans hc hg hl ho hw hd
    rw [imageReadResponse_whole ha hp hf hans hc hg hl]
    obtain ⟨v0, vw, vq, vx, vc, vf⟩ := (PortsOnly.dropDrain s a.aid).imageView d
    generalize (s.dropAccess a.aid).drainHeld = t at v0 vw vq vx vc vf
    have hid : cIid d = cIid c := by rw [hd]; rfl
    have hwd : d.words = c.words := by rw [hd]
    have hlist : cOp c = 0x80 ∨ cOp c = 0x81 → t.listRead c (got ++ answerBytes a ans) =
        if cOp c = 0x80 then (t.putCmd true (some d)).createInstImage true d else (t.putCmd true (some d)).modifyInstImage true d := by
      rw [hd]
      exact t.listRead_instance _
    rw [← v0] at hw
    have hcmd : (t.putCmd true (some d)).adm.cmd = some d := rfl
    generalize t.putCmd true (some d) = v at v0 vw vq vx vc vf hw hlist hcmd
    refine ⟨fun h80 hok hcl => ?_, fun h80 w hbad => ?_, fun h81 => ?_⟩
    · obtain ⟨u, hu, hs, h12, h13, h14, h15⟩ := v.createInst_spec d hw
      obtain ⟨ka, kw, kq, kx⟩ := hs.kept
      rw [hid] at hs h12 h13 h14 h15
      rw [hlist (.inl h80), if_pos h80, State.createInstImage_fits hok (vc.trans hcl) (vf.trans ho), hu]
      exact ⟨u, rfl, (congrArg Adm.cmd ka).trans hcmd, h12, h13, h14, h15, fun k hk => (hs.outside k hk).trans (by rw [v0]),
        kw.trans vw, kq.trans vq, kx.trans vx⟩
    · rw [hlist (.inl h80), if_pos h80, State.createInstImage_bad hbad]
      exact ⟨v, rfl, v0⟩
    · have hinst : ∀ w, v.inst (cIid c) w = s.inst (cIid c) w := fun w => by rw [State.inst, v0, State.inst]
      have hfld : ∀ w lo len, v.instFld (cIid c) w lo len = s.instFld (cIid c) w lo len := fun w lo len => by
        rw [State.instFld, hinst, State.instFld]
      obtain ⟨hs, g0, g1, g2, g3, g4, g5, g6, hk⟩ :=
        v.putGroups_spec (cIid c) (imageWord d) (fun k => bit (wd c.words 1) (16 + k)) hw
      obtain ⟨_, kw, kq, kx⟩ := hs.kept
      rw [hlist (.inr h81), if_neg (by omega), State.modifyInstImage, State.toMembers_alone (vf.trans ho), State.modifyInst_eq, hid, hwd]
      simp only [hfld, hinst] at g0 g1 g2 g3 g4 g5 g6
      exact ⟨_, rfl, g0, g1, g2, g3, g4, g5, g6, fun k hk' => (hk k hk').trans (by rw [v0]), kw.trans vw, kq.trans vq, kx.trans vx⟩
  · intro s a ofs ans ha hp hf h0 hr
    obtain ⟨hrel, hports, _⟩ := s.readEnds_drain a ans
    exact ⟨_, imageReadResponse_fault ha hp hf h0 hr, hports, hrel⟩
  · intro s c h hc hi hq hw
    refine ⟨_, h.quiesce_live hc hi hq, State.instFld_setInstFld _ _ _ _ _ _ ?_ (by decide), rfl⟩
    exact hw
  · intro s c h hc h0 h3
    have hb : exec .quiesceInstance s = .next (s.beginQuiesce true c) := h.begins State.beginQuiesce
    rw [State.beginQuiesce, if_neg h0, if_pos hc, if_pos h3] at hb
    exact hb
  · intro s c h hi hr hk hx hm hf hw
    refine ⟨_, h.squash_idle hi hr hk hx hm hf, State.instFld_setInstFld _ _ _ _ _ _ (State.is0_setInst_wf _ _ _ _ ?_) (by decide), rfl⟩
    exact hw
  · intro s c h hi hn hp hq hl hw
    obtain ⟨u, hu, h1, _, hk⟩ := h.close_idle hi hn hp hq hl hw
    have hb : exec .resetInstance s = .next (s.beginClose true c) := h.begins State.beginClose
    rw [hu] at hb
    exact ⟨u, hb, h1 (by decide), hk⟩
  · intro s c h hi hn hp hq hl hw
    obtain ⟨u, hu, _, h0, hk⟩ := h.close_idle hi hn hp hq hl hw
    have hb : exec .destroyInstance s = .next (s.beginClose true c) := h.begins State.beginClose
    rw [hu] at hb
    exact ⟨u, hb, h0 rfl, hk⟩
  · intro s c h h0 h1 h3
    have hb : exec .resetInstance s = .next (s.beginClose true c) := h.begins State.beginClose
    rw [State.beginClose, if_neg h0, if_pos ⟨h1, h3⟩] at hb
    exact hb

end Sys2Proof.Machine
end

section
/-! PROOFS. Register writes that act on the system (16 R478 to R486): what a write answered OK stores, and the admin queue's, the
timebase's, the clocks' and the federation's writes. -/

namespace Sys2Proof.Machine

/-! A write that is answered OK and not dropped. -/

/-- A register whose written value is stored, with its action. -/
def storesValue (r : Reg) : Bool :=
  decide (r.sBits = 0) && decide (r.base ≠ Reg.regIndClaim.base) && decide (r.base ≠ Reg.regIndAddr.base) &&
    decide (r.base ≠ Reg.regIndData.base) && decide (r.base ≠ Reg.regLock.base) && !decide (r.pBits = 0 ∧ r.mBits = 0)

section
variable {s : State} {w : RegWrite} {r : Reg} {i : Nat} (h : Written s w r i)
include h

theorem Written.reaches' : reaches' w.offset r = true := by
  obtain ⟨_, _, _, hr, _⟩ := h
  unfold Machine.reaches'
  rw [hr]
  exact beq_self_eq_true _

/-- Its row stores the value merged into the register's (16 R479, R481). -/
theorem Written.stores (hv : storesValue r = true) (hd : dropReason s r (s.stored r i) (r.merge (s.stored r i) w.data) w.data = 0)
    {mine : Bool} (hm : mine = true) :
    writeRow w mine s = .next ((s.regStore r i (s.stored r i) (r.merge (s.stored r i) w.data) w.agent).okWrite w) := by
  obtain ⟨ht, ha, hc, hr, hi⟩ := h
  unfold storesValue at hv
  simp only [Bool.and_eq_true, decide_eq_true_eq, Bool.not_eq_true', decide_eq_false_iff_not] at hv
  obtain ⟨⟨⟨⟨⟨hs, h1⟩, h2⟩, h3⟩, h4⟩, h5⟩ := hv
  have hw : s.writeOk w (canonOffset w.offset) = s.regStore r i (s.stored r i) (r.merge (s.stored r i) w.data) w.agent := by
    unfold State.writeOk
    rw [hr]
    dsimp only
    rw [hi, if_neg (not_not.mpr hs), if_neg h1, if_neg h2, if_neg h3, if_neg h4, if_neg h5, if_neg (not_not.mpr hd)]
  rw [writeRow, if_neg (by omega), if_pos hm, State.regWrite, ht, if_neg (by decide)]
  dsimp only
  rw [if_pos hc, hc, hw]
  rfl

end

/-! The value after a write (16 R481). -/

/-- Bit k below 32 of a merged value: the data's where the register takes it whole or its mask has it, else the old one. -/
theorem Reg.bit_merge {r : Reg} (hr : r.base ≠ Reg.regProtMap.base) (old data : W32) {k : Nat} (hk : k < 32) :
    bit (r.merge old data) k =
      if bit data (16 + k) && r.mBits.testBit k then bit data k
      else if r.pBits.testBit k then bit data k else bit old k := by
  unfold Reg.merge
  dsimp only
  rw [if_neg hr]
  simp only [bit_eq, BitVec.getLsbD_or, BitVec.getLsbD_and, BitVec.getLsbD_not, BitVec.getLsbD_ushiftRight, BitVec.getLsbD_ofNat, hk,
    decide_true, Bool.true_and]
  cases data.getLsbD (16 + k) <;> cases r.mBits.testBit k <;> cases r.pBits.testBit k <;> simp

/-- Words are equal whose bits are. -/
theorem word_ext {a b : W32} (h : ∀ k, k < 32 → bit a k = bit b k) : a = b :=
  BitVec.eq_of_getLsbD_eq fun k hk => by rw [← bit_eq, ← bit_eq, h k hk]

/-- A register that takes every bit. -/
theorem Reg.merge_whole {r : Reg} (hr : r.base ≠ Reg.regProtMap.base) (hp : r.pBits = 0xffffffff) (old data : W32) : r.merge old data = data := by
  refine word_ext fun k hk => ?_
  have ht : Nat.testBit 0xffffffff k = true := by
    rw [show (0xffffffff : Nat) = 2 ^ 32 - 1 from rfl, Nat.testBit_two_pow_sub_one]
    exact decide_eq_true hk
  rw [Reg.bit_merge hr _ _ hk, hp, ht]
  simp

/-! Admin queue 0 is enabled and disabled (09 R275, R280). -/

theorem regStore_admQCtl (s : State) (old new : W32) (agent : Nat) : s.regStore .admQCtl 0 old new agent =
    if bit new 4 && !bit old 4 then (s.wr .admQCtl 0 new).admEnableSet agent
    else if bit old 4 && !bit new 4 then (s.wr .admQCtl 0 new).admEnableClear else s.wr .admQCtl 0 new := rfl

theorem admQCtl_merge_enable (old : W32) {data : W32} (h : bit data 20 = true) : bit (Reg.admQCtl.merge old data) 4 = bit data 4 := by
  rw [Reg.bit_merge (by decide) _ _ (by decide), h]
  rfl

/-- An enabled queue is IDLE and new, and its agent noted. -/
theorem State.admEnableSet_spec {s : State} (hw : s.regs.wf = true) {agent : Nat} (ha : agent < 3) :
    RegsBut [Reg.admStageStat.addr 0, Reg.admQStat.addr 0] s (s.admEnableSet agent) ∧ admState (s.admEnableSet agent) = 1 ∧
      (s.admEnableSet agent).fld .admQStat 0 4 2 = agent ∧ (s.admEnableSet agent).staged = [] ∧
      (s.admEnableSet agent).adm = { Adm.init with noticeBusy := s.adm.noticeBusy, noticeKept := s.adm.noticeKept, nextPoll := s.nomNs } := by
  unfold State.admEnableSet
  dsimp only
  generalize hn : ({ Adm.init with noticeBusy := s.adm.noticeBusy, noticeKept := s.adm.noticeKept, nextPoll := s.nomNs } : Adm) = a
  have h0 : RegsBut [Reg.admStageStat.addr 0, Reg.admQStat.addr 0] s { s with adm := a } := RegsBut.of_regs rfl
  have ha' : State.adm { s with adm := a } = a := rfl
  generalize ({ s with adm := a } : State) = t at h0 ha' ⊢
  obtain ⟨hs, hda⟩ := t.discardStaged_spec
  have hd := (AdmStep.discardStaged t).regs
  generalize t.discardStaged = u at hs hda hd ⊢
  have hu : u.regs.wf = true := hd.wf (h0.wf hw)
  have hv : (u.setFld .admQStat 0 0 3 1).regs.wf = true := State.wf_wr _ _ _ _ hu
  refine ⟨?_, ?_, ?_, hs, hda.trans ha'⟩
  · exact ((h0.trans (hd.mono (by simp))).trans (RegsBut.setFld (r := .admQStat) (i := 0) (by decide) _ _ _)).trans
      (RegsBut.setFld (r := .admQStat) (i := 0) (by decide) _ _ _)
  · exact (State.fld_setFld_ne _ _ _ _ _ _ _ _ hv (by decide) (by decide)).trans (State.fld_setFld _ _ _ _ _ _ hu (by decide))
  · rw [State.fld_setFld _ _ _ _ _ _ hv (by decide), Nat.mod_eq_of_lt (by omega)]

/-- A queue that runs is told to stop: at once, or with the end of its command. -/
theorem State.admEnableClear_spec {s : State} (hw : s.regs.wf = true) (h1 : 1 ≤ admState s) (h3 : admState s ≤ 3) :
    s.admEnableClear.adm.cmd = s.adm.cmd ∧ s.admEnableClear.adm.slotActive = false ∧
      (s.adm.cmd = none → admState s.admEnableClear = 0 ∧ s.admEnableClear.staged = []) ∧
      (s.adm.cmd.isSome = true → admState s.admEnableClear = 4) := by
  have hr : s.admForget.regs.wf = true := hw
  have hc : s.admForget.adm.cmd = s.adm.cmd := rfl
  have ha : s.admForget.adm.slotActive = false := rfl
  unfold State.admEnableClear
  rw [if_neg (by omega)]
  dsimp only
  generalize s.admForget = t at hr hc ha ⊢
  rw [← hc]
  obtain ⟨hs, hda⟩ := t.discardStaged_spec
  have hd := (AdmStep.discardStaged t).regs.wf hr
  generalize t.discardStaged = u at hs hda hd ⊢
  cases hcmd : t.adm.cmd with
  | none =>
    exact ⟨(congrArg Adm.cmd hda).trans hcmd, (congrArg Adm.slotActive hda).trans ha,
      fun _ => ⟨State.fld_setFld _ _ _ _ _ _ hd (by decide), hs⟩, nofun⟩
  | some c => exact ⟨hcmd, ha, nofun, fun _ => State.fld_setFld _ _ _ _ _ _ hr (by decide)⟩

/-! The timebase (13 R395). -/

theorem regStore_telTbAdj (s : State) (old new : W32) (agent : Nat) :
    s.regStore .telTbAdj 0 old new agent = (s.wr .telTbAdj 0 new).tbAdd (new.signExtend 64) := rfl

theorem regStore_telTbRate (s : State) (old new : W32) (agent : Nat) :
    s.regStore .telTbRate 0 old new agent = (s.wr .telTbRate 0 new).tbRate new := rfl

theorem State.tbAdd_spec (s : State) (v : W64) : (s.tbAdd v).timebase = s.timebase + v ∧ (s.tbAdd v).tbFrac = s.tbFrac ∧
    (s.tbAdd v).slots = s.slots ∧ (s.tbAdd v).ways = s.ways := by
  unfold State.tbAdd
  split
  case isTrue h => exact ⟨by rw [h]; exact (BitVec.add_zero _).symm, rfl, rfl, rfl⟩
  case isFalse => exact ⟨rfl, rfl, rfl, rfl⟩

/-! PLLs that are started (15 R454). -/

theorem regStore_clkPllCmd (s : State) (old new : W32) (agent : Nat) :
    s.regStore .clkPllCmd 0 old new agent = ((s.wr .clkPllCmd 0 new).wr .clkPllCmd 0 0).pllCmd (bits new 0 2) := rfl

/-- PLL p is told to start, where v names it and it is off or failed. -/
def State.pllGo (s : State) (v : Nat) (p : Bool) : State :=
  if v / 2 ^ flag p % 2 = 1 ∧ (pllState s p = 0 ∨ pllState s p = 4) then s.pllStart p (pllOf s p).tripped else s

theorem State.pllCmd_eq (s : State) (v : Nat) : s.pllCmd v = (s.pllGo v false).pllGo v true := rfl

theorem State.pllGo_spec {s : State} (hw : s.regs.wf = true) (v : Nat) (p : Bool) :
    (∃ g x, s.pllGo v p = { s with regs := g, plls := x }) ∧ (s.pllGo v p).regs.wf = true ∧
      pllState (s.pllGo v p) p = (if v / 2 ^ flag p % 2 = 1 ∧ (pllState s p = 0 ∨ pllState s p = 4) then 1 else pllState s p) ∧
      pllState (s.pllGo v p) (!p) = pllState s (!p) := by
  unfold State.pllGo
  split
  · refine ⟨⟨_, _, rfl⟩, State.wf_wr _ _ _ _ hw, ?_, ?_⟩
    · cases p with
      | false => exact State.fld_setFld _ _ _ _ _ _ hw (by decide)
      | true => exact State.fld_setFld _ _ _ _ _ _ hw (by decide)
    · cases p with
      | false => exact State.fld_setFld_ne s .clkStat 0 0 3 1 3 3 hw (by decide) (by decide)
      | true => exact State.fld_setFld_ne s .clkStat 0 3 3 1 0 3 hw (by decide) (by decide)
  · exact ⟨⟨_, _, rfl⟩, hw, rfl, rfl⟩

theorem State.pllCmd_spec {s : State} (hw : s.regs.wf = true) (v : Nat) :
    (∃ g x, s.pllCmd v = { s with regs := g, plls := x }) ∧ ∀ p, pllState (s.pllCmd v) p =
      if v / 2 ^ flag p % 2 = 1 ∧ (pllState s p = 0 ∨ pllState s p = 4) then 1 else pllState s p := by
  rw [State.pllCmd_eq]
  obtain ⟨⟨g, x, e⟩, hw1, ha, hb⟩ := s.pllGo_spec hw v false
  obtain ⟨⟨g', x', e'⟩, _, ha', hb'⟩ := (s.pllGo v false).pllGo_spec hw1 v true
  refine ⟨⟨g', x', by rw [e', e]⟩, fun p => ?_⟩
  cases p with
  | false => exact hb'.trans ha
  | true =>
    rw [ha']
    have h : pllState (s.pllGo v false) true = pllState s true := hb
    rw [h]

/-! Performance levels (15 R464 to R466). -/

theorem regStore_pwrCtl (s : State) (old new : W32) (agent : Nat) :
    s.regStore .pwrCtl 0 old new agent = (s.wr .pwrCtl 0 new).levelWritten := rfl

/-- t is s but for PWR_STAT and the change of level in progress. -/
structure LevelStep (s t : State) : Prop where
  frame : t = { s with regs := t.regs, pchange := t.pchange }
  regs : RegsBut [Reg.pwrStat.addr 0] s t

section
variable {s t u : State}

theorem LevelStep.refl (s : State) : LevelStep s s := ⟨rfl, RegsBut.of_regs rfl⟩

theorem LevelStep.trans (h : LevelStep s t) (k : LevelStep t u) : LevelStep s u := by
  refine ⟨?_, h.regs.trans k.regs⟩
  rw [k.frame, h.frame]

theorem LevelStep.setFld (s : State) (lo len v : Nat) : LevelStep s (s.setFld .pwrStat 0 lo len v) :=
  ⟨rfl, RegsBut.setFld (r := .pwrStat) (i := 0) (by decide) _ _ _⟩

theorem LevelStep.pWait (s : State) (t : Nat) (up late : Bool) : LevelStep s (s.pWait t up late) :=
  ⟨rfl, (LevelStep.setFld s 4 1 1).regs.trans (RegsBut.of_regs rfl)⟩

theorem LevelStep.pHold (s : State) (t : Nat) : LevelStep s (s.pHold t) :=
  ⟨rfl, (LevelStep.setFld s 4 1 1).regs.trans (RegsBut.of_regs rfl)⟩

theorem LevelStep.pRun (s : State) (t : Nat) : LevelStep s (s.pRun t) := by
  unfold State.pRun
  dsimp only
  split
  · split
    · exact LevelStep.setFld s _ _ _
    · exact (LevelStep.setFld s _ _ _).trans (LevelStep.pWait _ _ _ _)
  · split
    · exact LevelStep.setFld s _ _ _
    · exact ((LevelStep.setFld s _ _ _).trans (LevelStep.setFld _ _ _ _)).trans (LevelStep.pWait _ _ _ _)

theorem LevelStep.levelWritten (s : State) : LevelStep s s.levelWritten := by
  unfold State.levelWritten State.pStart
  split
  · exact LevelStep.refl s
  · split
    · exact LevelStep.refl s
    · split
      · exact LevelStep.pHold s _
      · split
        · exact LevelStep.pWait s _ _ _
        · exact LevelStep.pRun s _

end

/-- BUSY is shown, the levels as they were. -/
theorem State.busy_spec {s : State} (hw : s.regs.wf = true) : inForce (s.setFld .pwrStat 0 4 1 1) = inForce s ∧
    reqLevel (s.setFld .pwrStat 0 4 1 1) = reqLevel s ∧ bit ((s.setFld .pwrStat 0 4 1 1).rd .pwrStat 0) 4 = true :=
  ⟨State.fld_setFld_ne _ _ _ _ _ _ _ _ hw (by decide) (by decide), State.fld_setFld_ne _ _ _ _ _ _ _ _ hw (by decide) (by decide),
    decide_eq_true (State.fld_setFld s .pwrStat 0 4 1 1 hw (by decide))⟩

section
variable {s : State} (hp : s.pchange = none) (hm : s.mode ≠ .rest) (hr : s.restEnter ≠ 2)
include hp hm hr

theorem State.levelWritten_starts : s.levelWritten = s.pStart (levelWanted s) := by
  rw [State.levelWritten, if_neg]
  simp [hp, hm, hr]

section
variable (hc : cluSwitching s = false) (ha : ackLate s = false)
include hc ha

theorem State.levelWritten_runs (hn : ¬(inForce s = levelWanted s ∧ reqLevel s = levelWanted s)) :
    s.levelWritten = s.pRun (levelWanted s) := by
  rw [State.levelWritten_starts hp hm hr, State.pStart, if_neg hn, hc, ha]
  rfl

end

variable (hw : s.regs.wf = true)
include hw

/-- A change that waits for the switches of clusters' clocks. -/
theorem State.levelWritten_holds (hc : cluSwitching s = true) (hn : ¬(inForce s = levelWanted s ∧ reqLevel s = levelWanted s)) :
    inForce s.levelWritten = inForce s ∧ reqLevel s.levelWritten = reqLevel s ∧ bit (s.levelWritten.rd .pwrStat 0) 4 = true ∧
      s.levelWritten.pchange = some { target := levelWanted s, up := false, due := s.nomNs, late := false, held := true } := by
  rw [State.levelWritten_starts hp hm hr, State.pStart, if_neg hn, if_pos hc]
  obtain ⟨h1, h2, h3⟩ := State.busy_spec hw
  exact ⟨h1, h2, h3, rfl⟩

section
variable (hc : cluSwitching s = false) (ha : ackLate s = false)
include hc ha

/-- A step to a lower number: the supply is requested first, and the dividers wait for it. -/
theorem State.levelWritten_lower (hl : levelWanted s < inForce s) (hq : reqLevel s ≠ levelWanted s) :
    inForce s.levelWritten = inForce s ∧ reqLevel s.levelWritten = levelWanted s ∧ bit (s.levelWritten.rd .pwrStat 0) 4 = true ∧
      s.levelWritten.pchange =
        some { target := levelWanted s, up := true, due := s.nomNs + ackCeilNs s.levelWritten, late := false, held := false } := by
  have hk : ackCeilNs s.levelWritten = ackCeilNs s := by
    unfold ackCeilNs
    rw [(LevelStep.levelWritten s).regs.fld (by decide)]
  rw [hk, State.levelWritten_runs hp hm hr hc ha (by omega), State.pRun, if_pos hl, if_neg hq]
  have hf : inForce (s.setFld .pwrStat 0 2 2 (levelWanted s)) = inForce s :=
    State.fld_setFld_ne _ _ _ _ _ _ _ _ hw (by decide) (by decide)
  have hr' : reqLevel (s.setFld .pwrStat 0 2 2 (levelWanted s)) = levelWanted s :=
    (State.fld_setFld _ _ _ _ _ _ hw (by decide)).trans (Nat.mod_eq_of_lt (bits_lt _ _ _))
  have hw' : (s.setFld .pwrStat 0 2 2 (levelWanted s)).regs.wf = true := State.wf_wr _ _ _ _ hw
  have hk' : ackCeilNs (s.setFld .pwrStat 0 2 2 (levelWanted s)) = ackCeilNs s := by
    unfold ackCeilNs
    rw [(LevelStep.setFld s _ _ _).regs.fld (by decide)]
  have hn : (s.setFld .pwrStat 0 2 2 (levelWanted s)).nomNs = s.nomNs := rfl
  generalize s.setFld .pwrStat 0 2 2 (levelWanted s) = t at hf hr' hw' hk' hn ⊢
  obtain ⟨h1, h2, h3⟩ := State.busy_spec hw'
  refine ⟨h1.trans hf, h2.trans hr', h3, ?_⟩
  rw [← hk', ← hn]
  rfl

/-- A step to a higher number: the dividers change at once. -/
theorem State.levelWritten_higher (hl : inForce s < levelWanted s) :
    inForce s.levelWritten = levelWanted s ∧ reqLevel s.levelWritten = levelWanted s := by
  have hlt : levelWanted s % 2 ^ 2 = levelWanted s := Nat.mod_eq_of_lt (bits_lt _ _ _)
  rw [State.levelWritten_runs hp hm hr hc ha (by omega), State.pRun, if_neg (by omega)]
  dsimp only
  have hf : inForce (s.setFld .pwrStat 0 0 2 (levelWanted s)) = levelWanted s := (State.fld_setFld _ _ _ _ _ _ hw (by decide)).trans hlt
  have hq : reqLevel (s.setFld .pwrStat 0 0 2 (levelWanted s)) = reqLevel s :=
    State.fld_setFld_ne _ _ _ _ _ _ _ _ hw (by decide) (by decide)
  have hw1 : (s.setFld .pwrStat 0 0 2 (levelWanted s)).regs.wf = true := State.wf_wr _ _ _ _ hw
  generalize s.setFld .pwrStat 0 0 2 (levelWanted s) = t at hf hq hw1 ⊢
  split
  case isTrue h => exact ⟨hf, hq.trans h⟩
  case isFalse =>
    have hf' : inForce (t.setFld .pwrStat 0 2 2 (levelWanted s)) = inForce t :=
      State.fld_setFld_ne _ _ _ _ _ _ _ _ hw1 (by decide) (by decide)
    have hq' : reqLevel (t.setFld .pwrStat 0 2 2 (levelWanted s)) = levelWanted s :=
      (State.fld_setFld _ _ _ _ _ _ hw1 (by decide)).trans hlt
    obtain ⟨h1, h2, _⟩ := State.busy_spec (s := t.setFld .pwrStat 0 2 2 (levelWanted s)) (State.wf_wr _ _ _ _ hw1)
    exact ⟨h1.trans (hf'.trans hf), h2.trans hq'⟩

end

end

/-! The federation (14 R431). -/

theorem regStore_fedResync (s : State) (old new : W32) (agent : Nat) :
    s.regStore .fedResync 0 old new agent = (s.wr .fedResync 0 new).heldCheck := rfl

theorem State.rescanned_frame (t s : State) : ∃ p, t.rescanned s = { t with pollInst := p } := by
  unfold State.rescanned
  generalize createdIids t = is
  have go : ∀ (is : List Nat) (u : State), (∃ p, u = { t with pollInst := p }) →
      ∃ p, is.foldl (fun u i => if pollsInstance s i = pollsInstance t i then u else u.fullScanNext i) u = { t with pollInst := p } := by
    intro is
    induction is with
    | nil => exact fun u h => h
    | cons i is ih =>
      rintro _ ⟨p, rfl⟩
      refine ih _ ?_
      by_cases h : pollsInstance s i = pollsInstance t i
      · exact ⟨_, if_pos h⟩
      · exact ⟨_, if_neg h⟩
  exact go is t ⟨_, rfl⟩

theorem FetchStep.queues {s t : State} (h : FetchStep s t) : t.queues = s.queues := by
  obtain ⟨_, _, _, _, _, _, _, _, rfl⟩ := h
  rfl

/-- Fetches and write-backs of contexts count misses, and touch no other register. -/
theorem RegsBut.writeBack (s : State) (w : Way) : RegsBut [] s (s.writeBack w) := by
  unfold State.writeBack
  dsimp only
  split
  · exact RegsBut.of_regs rfl
  · refine RegsBut.trans (RegsBut.of_regs ?_) (RegsBut.ports (PortsOnly.service _ _))
    split
    · rfl
    · rfl

theorem writeBacks_step (ws : List Way) (s : State) :
    RegsBut [] s (ws.foldl (fun t w => t.writeBack w) s) ∧ (ws.foldl (fun t w => t.writeBack w) s).queues = s.queues := by
  induction ws generalizing s with
  | nil => exact ⟨RegsBut.of_regs rfl, rfl⟩
  | cons w ws ih =>
    obtain ⟨hr, hq⟩ := ih (s.writeBack w)
    exact ⟨(RegsBut.writeBack s w).trans hr, hq.trans (FetchStep.writeBack s w).queues⟩

/-- A mask of members names each. -/
theorem memberMask_testBit {ms : List Nat} {m : Nat} (hm : m < 4) (h : m ∈ ms) : (memberMask ms).testBit m = true := by
  have hc : ms.contains m = true := List.contains_iff_mem.mpr h
  have all : ∀ f : Nat → Bool, f m = true → (((List.range 4).map (fun k => if f k = true then 2 ^ k else 0)).sum).testBit m = true := by
    intro f hf
    simp only [show List.range 4 = [0, 1, 2, 3] from rfl, List.map_cons, List.map_nil, List.sum_cons, List.sum_nil]
    have h4 : m = 0 ∨ m = 1 ∨ m = 2 ∨ m = 3 := by omega
    rcases h4 with rfl | rfl | rfl | rfl
    · rw [hf]; cases f 1 <;> cases f 2 <;> cases f 3 <;> decide
    · rw [hf]; cases f 0 <;> cases f 2 <;> cases f 3 <;> decide
    · rw [hf]; cases f 0 <;> cases f 1 <;> cases f 3 <;> decide
    · rw [hf]; cases f 0 <;> cases f 1 <;> cases f 2 <;> decide
  exact all ms.contains hc

/-- FED_STAT as a member that enters service reads it. -/
theorem State.fedStat_entered {s : State} (hw : s.regs.wf = true) {mask m : Nat} (hm : m < 4) (hb : mask.testBit m = true) :
    ((s.setFld .fedStat 0 5 4 mask).setFld .fedStat 0 2 3 2).fld .fedStat 0 2 3 = 2 ∧
      bit (((s.setFld .fedStat 0 5 4 mask).setFld .fedStat 0 2 3 2).rd .fedStat 0) (5 + m) = true := by
  have hw1 : (s.setFld .fedStat 0 5 4 mask).regs.wf = true := State.wf_wr _ _ _ _ hw
  refine ⟨State.fld_setFld _ _ _ _ _ _ hw1 (by decide), ?_⟩
  rw [State.rd_setFld _ _ _ _ _ _ hw1, bit_withBits _ _ _ _ _ (by decide), if_neg (by omega), State.rd_setFld _ _ _ _ _ _ hw,
    bit_withBits _ _ _ _ _ (by decide), if_pos (by omega), Nat.add_sub_cancel_left]
  exact hb

theorem State.enterMember_spec {s : State} (hw : s.regs.wf = true) : fedState s.enterMember = 2 ∧
    s.enterMember.rd .fedEpoch 0 = s.rd .fedEpoch 0 ∧ bit (s.enterMember.rd .fedStat 0) (5 + ownMember s) = true ∧
    s.enterMember.queues = s.queues := by
  have hown : ownMember s < 4 := bits_lt _ _ _
  unfold State.enterMember
  dsimp only
  generalize hws : s.ways.filter _ = ws
  generalize hms : memberMask (ownMember s :: members s) = mask
  have hb : mask.testBit (ownMember s) = true := hms ▸ memberMask_testBit hown (by simp)
  generalize hs1 : ({ s with ways := _, fed := _ } : State) = s1
  have h1 : s1.regs = s.regs := by rw [← hs1]
  have q1 : s1.queues = s.queues := by rw [← hs1]
  obtain ⟨hst, hbit⟩ := State.fedStat_entered (s := s1) (h1 ▸ hw) hown hb
  have hr2 : RegsBut [Reg.fedStat.addr 0] s1 ((s1.setFld .fedStat 0 5 4 mask).setFld .fedStat 0 2 3 2) :=
    (RegsBut.setFld (r := .fedStat) (i := 0) (by simp) _ _ _).trans (RegsBut.setFld (r := .fedStat) (i := 0) (by simp) _ _ _)
  have q2 : ((s1.setFld .fedStat 0 5 4 mask).setFld .fedStat 0 2 3 2).queues = s1.queues := rfl
  generalize (s1.setFld .fedStat 0 5 4 mask).setFld .fedStat 0 2 3 2 = s2 at hst hbit hr2 q2 ⊢
  obtain ⟨p, hs3⟩ := s2.rescanned_frame s
  have h3 : RegsBut [] s2 (s2.rescanned s) := RegsBut.of_regs (by rw [hs3])
  have q3 : (s2.rescanned s).queues = s2.queues := by rw [hs3]
  obtain ⟨h4, q4⟩ := writeBacks_step ws (s2.rescanned s)
  have h5 := h3.trans h4
  refine ⟨(h5.fld (by simp) 2 3).trans hst, ?_, ?_, (((q4.trans q3).trans q2).trans q1)⟩
  · rw [h5.rd _ _ (by simp), hr2.rd _ _ (by decide), State.rd, h1, State.rd]
  · rw [h5.rd _ _ (by simp)]
    exact hbit

/-- FED_RESYNC with the epoch of the members heard, whose ownership is this member's: HELD ends. -/
theorem State.heldCheck_joins {s : State} (h3 : fedState s = 3) (hp : heardPeers s ≠ [])
    (he : (s.rd .fedResync 0).toNat = (heardPeers s).foldl (fun m x => max m x.epoch.toNat) 0)
    (hh : ∀ x ∈ heardPeers s, x.epoch.toNat = (s.rd .fedResync 0).toNat → x.hash = s.fed.hash) :
    s.heldCheck = (s.wr .fedEpoch 0 (s.rd .fedResync 0)).enterMember := by
  unfold State.heldCheck
  dsimp only
  rw [if_pos]
  simp only [h3, ← he, decide_true, Bool.true_and, Bool.and_true, Bool.and_eq_true, Bool.not_eq_true', List.isEmpty_eq_false_iff,
    List.all_eq_true, List.mem_filter, decide_eq_true_eq]
  exact ⟨hp, fun x hx => hh x hx.1 hx.2⟩

theorem State.heldCheck_idle {s : State} (h : fedState s ≠ 3) : s.heldCheck = s := by
  unfold State.heldCheck
  dsimp only
  rw [if_neg (by simp [h])]

/-- What FED_RESYNC is checked against is the heartbeats' and FED_STAT's. -/
theorem heardPeers_wr_fedResync (s : State) (v : W32) : heardPeers (s.wr .fedResync 0 v) = heardPeers s ∧
    fedState (s.wr .fedResync 0 v) = fedState s ∧ ownMember (s.wr .fedResync 0 v) = ownMember s := by
  have h : (s.wr .fedResync 0 v).rd .fedStat 0 = s.rd .fedStat 0 := State.rd_wr_other _ _ _ _ _ _ (by decide)
  have ho := ownMember_of_fedStat h
  have hb : hbCeilNs (s.wr .fedResync 0 v) = hbCeilNs s := by
    unfold hbCeilNs State.fld
    rw [State.rd_wr_other _ _ _ _ _ _ (by decide)]
  have hd : ∀ m, heardDirect (s.wr .fedResync 0 v) m = heardDirect s m := fun m => by
    unfold heardDirect
    rw [hb]
    rfl
  refine ⟨?_, ?_, ho⟩
  · unfold heardPeers
    simp only [ho, hd]
    rfl
  · unfold fedState State.fld
    rw [h]

end Sys2Proof.Machine
end

section
/-! PROOFS. Clocks that are enabled and stopped (15 R467, R468), and the writes of the system. -/

namespace Sys2Proof.Machine

/-! What the gating of a clock touches beside its status. -/

/-- The registers that clocks which start and stop bring along: sources, link and test-unit status, and CTX_MISSES. -/
def gateSide : List Nat :=
  [Reg.clkSrcLo.addr 0, Reg.clkSrcHi.addr 0, Reg.tstCtl.addr 0, Reg.ctxMisses.addr 0] ++
    (List.range 3).map (fun k => Reg.fedLinkStat.addr k) ++ (List.range 19).map (fun u => Reg.tstUnitStat.addr u)

theorem fedLinkStat_gateSide {k : Nat} (h : k < 3) : Reg.fedLinkStat.addr k ∈ gateSide := by
  unfold gateSide
  simp only [List.mem_append, List.mem_map, List.mem_range]
  exact .inl (.inr ⟨k, h, rfl⟩)

theorem tstUnitStat_gateSide {u : Nat} (h : u < 19) : Reg.tstUnitStat.addr u ∈ gateSide := by
  unfold gateSide
  simp only [List.mem_append, List.mem_map, List.mem_range]
  exact .inr ⟨u, h, rfl⟩

/-- t has the slots and contexts of s, and its registers but for those that a clock's start or stop brings along. -/
structure GateStep (s t : State) : Prop where
  regs : RegsBut gateSide s t
  slots : t.slots = s.slots
  ways : t.ways = s.ways
  ctxWait : t.ctxWait = s.ctxWait

section
variable {s t u : State}

theorem GateStep.refl (s : State) : GateStep s s := ⟨RegsBut.of_regs rfl, rfl, rfl, rfl⟩

theorem GateStep.trans (h : GateStep s t) (k : GateStep t u) : GateStep s u :=
  ⟨h.regs.trans k.regs, k.slots.trans h.slots, k.ways.trans h.ways, k.ctxWait.trans h.ctxWait⟩

theorem GateStep.wr (s : State) {r : Reg} {i : Nat} (h : r.addr i ∈ gateSide) (v : W32) : GateStep s (s.wr r i v) :=
  ⟨RegsBut.wr h v, rfl, rfl, rfl⟩

theorem GateStep.setSrc (s : State) (d v : Nat) : GateStep s (s.setSrc d v) := by
  unfold State.setSrc
  split
  · exact GateStep.wr s (by decide) _
  · exact GateStep.wr s (by decide) _

theorem GateStep.setSync (s : State) {u : Nat} (h : u < 19) (v : Bool) : GateStep s (s.setSync u v) := GateStep.wr s (tstUnitStat_gateSide h) _

theorem GateStep.putLink (s : State) (l : Link) : GateStep s (s.putLink l) := ⟨RegsBut.of_regs rfl, rfl, rfl, rfl⟩

theorem GateStep.linkTrain (s : State) {k : Nat} (h : k < 3) : GateStep s (s.linkTrain k) :=
  ((GateStep.putLink s _).trans (GateStep.wr _ (fedLinkStat_gateSide h) _)).trans (GateStep.setSync _ (by omega) _)

theorem GateStep.linkStop (s : State) {k : Nat} (h : k < 3) : GateStep s (s.linkStop k) := by
  have rest : ∀ t : State, GateStep t
      (((t.putLink { linkOf t k with rxOk := false, farOk := false, ackOwed := false, idle := [] }).setFld .fedLinkStat k 0 2 0).setSync (16 + k)
        false) :=
    fun t => ((GateStep.putLink t _).trans (GateStep.wr _ (fedLinkStat_gateSide h) _)).trans (GateStep.setSync _ (by omega) _)
  unfold State.linkStop
  dsimp only
  split
  · exact GateStep.refl s
  · split
    · exact (GateStep.wr s (fedLinkStat_gateSide h) _).trans (rest _)
    · exact rest s

theorem GateStep.unitsStop (s : State) : GateStep s s.unitsStop := by
  have fold : ∀ (n : Nat), n ≤ 16 → ∀ t : State, GateStep s t → GateStep s ((List.range n).foldl (fun x u => x.setSync u false) t) := by
    intro n
    induction n with
    | zero => exact fun _ t h => h
    | succ n ih =>
      intro hn t h
      rw [List.range_succ, List.foldl_append]
      exact (ih (by omega) t h).trans (GateStep.setSync _ (by omega) _)
  unfold State.unitsStop
  dsimp only
  refine (fold 16 (by decide) _ ?_).trans (GateStep.wr (r := .tstCtl) (i := 0) _ (by decide) _)
  exact ⟨RegsBut.of_regs rfl, rfl, rfl, rfl⟩

end

/-! One enable (15 R467). -/

/-- CLK_GATE_STAT of a clock once its enable has taken effect: a cluster's clock stops later (15 R468). -/
def gated (on was : Bool) (i : Nat) : Bool := on || (decide (i < 16) && was)

/-- t is s with enable i in effect. -/
structure GatedOne (s t : State) (i : Nat) : Prop where
  gate : t.rd .clkGate 0 = s.rd .clkGate 0
  wf : t.regs.wf = true
  this : bit (t.rd .clkGateStat 0) i = gated (bit (s.rd .clkGate 0) i) (bit (s.rd .clkGateStat 0) i) i
  others : ∀ j, j ≠ i → bit (t.rd .clkGateStat 0) j = bit (s.rd .clkGateStat 0) j
  slots : t.slots = s.slots
  ways : t.ways = s.ways
  ctxWait : t.ctxWait = s.ctxWait

/-- The status bit of a clock is written, and what the clock's start or stop brings along follows. -/
theorem GatedOne.of_set {s t : State} (hw : s.regs.wf = true) {i : Nat} (hi : i < 25) (on : Bool)
    (ho : gated (bit (s.rd .clkGate 0) i) (bit (s.rd .clkGateStat 0) i) i = on)
    (h : GateStep (s.setFld .clkGateStat 0 i 1 (flag on)) t) : GatedOne s t i := by
  have hr : t.rd .clkGateStat 0 = withBits (s.rd .clkGateStat 0) i 1 (flag on) := by
    rw [h.regs.rd _ _ (by decide), State.rd_setFld _ _ _ _ _ _ hw]
  refine ⟨?_, h.regs.wf (State.wf_wr _ _ _ _ hw), ?_, fun j hj => ?_, h.slots, h.ways, h.ctxWait⟩
  · rw [h.regs.rd _ _ (by decide)]
    exact State.rd_wr_other _ _ _ _ _ _ (by decide)
  · rw [hr, bit_withBits_one _ _ _ (by omega), ho]
  · rw [hr, bit_withBits _ _ _ _ _ (by omega), if_neg (by omega)]

theorem State.gateOne_spec {s : State} (hw : s.regs.wf = true) {i : Nat} (hi : i < 25) : GatedOne s (s.gateOne i) i := by
  have same : gated (bit (s.rd .clkGate 0) i) (bit (s.rd .clkGateStat 0) i) i = bit (s.rd .clkGateStat 0) i → GatedOne s s i :=
    fun h => ⟨rfl, hw, h.symm, fun _ _ => rfl, rfl, rfl, rfl⟩
  unfold State.gateOne
  dsimp only
  split
  case isTrue h => exact same (by rw [h]; cases bit (s.rd .clkGateStat 0) i <;> simp [gated])
  case isFalse h =>
    split
    case isTrue hon =>
      refine GatedOne.of_set hw hi true (by rw [hon]; rfl) ?_
      have hs : ∀ t : State, GateStep t (match (List.range 28).find? (fun d => decide (gateBit d = some i)) with
          | some d => t.setSrc d (curSource s)
          | none => t) := by
        intro t
        split
        · exact GateStep.setSrc t _ _
        · exact GateStep.refl t
      split
      · exact (hs _).trans (GateStep.linkTrain _ (by omega))
      · exact hs _
    case isFalse hon =>
      have hoff : bit (s.rd .clkGate 0) i = false := by simpa using hon
      split
      case isTrue h16 => exact same (by rw [hoff]; simp [gated, h16])
      case isFalse h16 =>
        refine GatedOne.of_set hw hi false (by rw [hoff]; simp [gated, h16]) ?_
        split
        · exact GateStep.linkStop _ (by omega)
        · split
          · exact GateStep.unitsStop _
          · exact GateStep.refl _

/-- The first n enables in effect. -/
theorem State.gateFold_spec {s : State} (hw : s.regs.wf = true) {n : Nat} (hn : n ≤ 25) :
    let t := (List.range n).foldl (fun t i => t.gateOne i) s
    t.rd .clkGate 0 = s.rd .clkGate 0 ∧ t.regs.wf = true ∧
      (∀ j, j < n → bit (t.rd .clkGateStat 0) j = gated (bit (s.rd .clkGate 0) j) (bit (s.rd .clkGateStat 0) j) j) ∧
      (∀ j, n ≤ j → bit (t.rd .clkGateStat 0) j = bit (s.rd .clkGateStat 0) j) ∧
      t.slots = s.slots ∧ t.ways = s.ways ∧ t.ctxWait = s.ctxWait := by
  dsimp only
  induction n with
  | zero => exact ⟨rfl, hw, by omega, fun _ _ => rfl, rfl, rfl, rfl⟩
  | succ n ih =>
    obtain ⟨hg, hwt, hlt, hge, hs, hy, hc⟩ := ih (by omega)
    rw [List.range_succ, List.foldl_append, List.foldl_cons, List.foldl_nil]
    generalize (List.range n).foldl (fun t i => t.gateOne i) s = t at hg hwt hlt hge hs hy hc ⊢
    have h := t.gateOne_spec hwt (i := n) (by omega)
    refine ⟨h.gate.trans hg, h.wf, fun j hj => ?_, fun j hj => (h.others j (by omega)).trans (hge j (by omega)), h.slots.trans hs,
      h.ways.trans hy, h.ctxWait.trans hc⟩
    by_cases e : j = n
    · rw [e, h.this, hg, hge n (by omega)]
    · rw [h.others j e, hlt j (by omega)]

/-! Fetches of contexts that a clock's start lets begin. -/

theorem RegsBut.noticeTrigger (s : State) (q : Nat) : RegsBut [] s (s.noticeTrigger q) := by
  unfold State.noticeTrigger
  split
  · exact RegsBut.of_regs rfl
  · dsimp only
    split
    · exact RegsBut.of_regs rfl
    · split
      · exact RegsBut.of_regs rfl
      · refine RegsBut.trans ?_ (RegsBut.ports (PortsOnly.service _ _))
        exact RegsBut.of_regs rfl

theorem RegsBut.evict (s : State) (w : Way) : RegsBut [] s (s.evict w) := by
  unfold State.evict
  refine RegsBut.trans ?_ (RegsBut.writeBack _ w)
  split
  · exact RegsBut.of_regs rfl
  · exact RegsBut.noticeTrigger s _

theorem RegsBut.startFetch (s : State) (q : Nat) : RegsBut gateSide s (s.startFetch q) := by
  unfold State.startFetch State.fetchCtx
  extract_lets issued fetch
  have hf : RegsBut gateSide s fetch :=
    (RegsBut.ports (PortsOnly.service s _)).trans (RegsBut.wr (r := .ctxMisses) (i := 0) (by decide) _)
  clear_value fetch issued
  split
  · exact RegsBut.of_regs rfl
  · split
    · exact hf
    · split
      · split
        · exact hf
        · split
          · exact RegsBut.of_regs rfl
          · exact (RegsBut.evict s _).mono (by simp)
      · exact RegsBut.of_regs rfl

theorem RegsBut.pumpCtx (s : State) : RegsBut gateSide s s.pumpCtx := by
  unfold State.pumpCtx
  generalize s.ctxWait = xs
  induction xs generalizing s with
  | nil => exact RegsBut.of_regs rfl
  | cons x xs ih => exact (RegsBut.startFetch s x.1).trans (ih _)

/-- CLK_GATE as written: each enable takes effect. -/
theorem State.gateWritten_spec {s : State} (hw : s.regs.wf = true) (hm : s.mode ≠ .rest) :
    s.gateWritten.rd .clkGate 0 = s.rd .clkGate 0 ∧
      (∀ j, j < 25 → bit (s.gateWritten.rd .clkGateStat 0) j = gated (bit (s.rd .clkGate 0) j) (bit (s.rd .clkGateStat 0) j) j) ∧
      s.gateWritten.slots = s.slots ∧ (s.ctxWait = [] → s.gateWritten.ways = s.ways) := by
  obtain ⟨hg, _, hlt, _, hs, hy, hc⟩ := State.gateFold_spec hw (Nat.le_refl 25)
  unfold State.gateWritten
  rw [if_neg (by simp [hm])]
  generalize (List.range 25).foldl (fun t i => t.gateOne i) s = t at hg hlt hs hy hc ⊢
  have hp := PortsOnly.drainHeld t
  have hr : RegsBut gateSide t t.drainHeld := RegsBut.ports hp
  have hx : t.drainHeld.ways = t.ways ∧ t.drainHeld.ctxWait = t.ctxWait := by
    obtain ⟨_, _, _, _, _, _, e⟩ := hp
    exact ⟨by rw [e], by rw [e]⟩
  have hsl := hp.slots
  generalize t.drainHeld = u at hr hx hsl ⊢
  have hq := hr.trans (RegsBut.pumpCtx u)
  have hfs : u.pumpCtx.slots = u.slots := by
    obtain ⟨_, _, _, _, _, _, _, _, e⟩ := FetchStep.pumpCtx u
    rw [e]
  refine ⟨(hq.rd _ _ (by decide)).trans hg, fun j hj => ?_, (hfs.trans hsl).trans hs, fun hw0 => ?_⟩
  · rw [hq.rd _ _ (by decide), hlt j hj]
  · rw [State.pumpCtx_idle (hx.2.trans (hc.trans hw0))]
    exact hx.1.trans hy

/-! The writes. -/

theorem regStore_clkGate (s : State) (old new : W32) (agent : Nat) :
    s.regStore .clkGate 0 old new agent = (s.wr .clkGate 0 new).gateWritten := rfl

theorem regStore_cluEccInj (s : State) (i : Nat) (old new : W32) (agent : Nat) :
    s.regStore .cluEccInj i old new agent = s.wr .cluEccInj i new := rfl

/-- A PLL is named by a command whose bit and mask bit are written (15 R454). -/
theorem clkPllCmd_merge (data : W32) (p : Bool) :
    (bits (Reg.clkPllCmd.merge 0 data) 0 2 / 2 ^ flag p % 2 = 1) ↔ (bit data (flag p) && bit data (16 + flag p)) = true := by
  have hp : flag p < 2 := by cases p <;> decide
  have hm : Reg.clkPllCmd.mBits.testBit (flag p) = true := by cases p <;> decide
  have hold : bit (0 : W32) (flag p) = false := by cases p <;> decide
  have hb : bit (Reg.clkPllCmd.merge 0 data) (flag p) = (bit data (flag p) && bit data (16 + flag p)) := by
    rw [Reg.bit_merge (by decide) _ _ (by omega), hm, hold, show Reg.clkPllCmd.pBits = 0 from rfl, Nat.zero_testBit]
    cases bit data (16 + flag p) <;> simp
  have ht := testBit_bits (Reg.clkPllCmd.merge 0 data) 0 2 (flag p)
  rw [Nat.testBit_eq_decide_div_mod_eq, decide_eq_true hp, Bool.true_and, Nat.zero_add, ← bit_eq, hb] at ht
  rw [← ht, decide_eq_true_iff]

/-- PWR_CTL takes LEVEL as written. -/
theorem pwrCtl_merge_level (old data : W32) : bits (Reg.pwrCtl.merge old data) 0 2 = bits data 0 2 := by
  apply Nat.eq_of_testBit_eq
  intro k
  rw [testBit_bits, testBit_bits]
  by_cases hk : k < 2
  · rw [← bit_eq, ← bit_eq, Reg.bit_merge (by decide) _ _ (by omega)]
    have hp : Reg.pwrCtl.pBits.testBit (0 + k) = true := by
      have h2 : k = 0 ∨ k = 1 := by omega
      rcases h2 with rfl | rfl
      · decide
      · decide
    rw [hp]
    simp
  · simp [hk]

/-- PWR_CTL as written holds the level wanted, and PWR_STAT is as it was. -/
theorem State.wr_pwrCtl_spec (s : State) (old data : W32) (hw : s.regs.wf = true) :
    levelWanted (s.wr .pwrCtl 0 (Reg.pwrCtl.merge old data)) = bits data 0 2 ∧
      inForce (s.wr .pwrCtl 0 (Reg.pwrCtl.merge old data)) = inForce s ∧
      reqLevel (s.wr .pwrCtl 0 (Reg.pwrCtl.merge old data)) = reqLevel s ∧
      ackLate (s.wr .pwrCtl 0 (Reg.pwrCtl.merge old data)) = ackLate s ∧
      (s.wr .pwrCtl 0 (Reg.pwrCtl.merge old data)).regs.wf = true := by
  have h : RegsBut [Reg.pwrCtl.addr 0] s (s.wr .pwrCtl 0 (Reg.pwrCtl.merge old data)) := RegsBut.wr (by simp) _
  refine ⟨?_, h.fld (by decide) _ _, h.fld (by decide) _ _, ?_, h.wf hw⟩
  · unfold levelWanted State.fld
    rw [State.rd_wr_same _ _ _ _ hw, pwrCtl_merge_level]
  · unfold ackLate
    rw [h.rd _ _ (by decide)]

/-- CLK_GATE takes every enable as written. -/
theorem clkGate_merge_enable (old data : W32) {k : Nat} (hk : k < 25) : bit (Reg.clkGate.merge old data) k = bit data k := by
  have hp : Reg.clkGate.pBits.testBit k = true := by
    rw [show Reg.clkGate.pBits = 2 ^ 25 - 1 from rfl, Nat.testBit_two_pow_sub_one]
    exact decide_eq_true hk
  rw [Reg.bit_merge (by decide) _ _ (by omega), hp]
  simp

/-- Settles O49: each write stores the merged value, and its register's action follows (16 R479, R481). -/
theorem systemWrites : Obligations.SystemWrites := by
  unfold Obligations.SystemWrites
  refine ⟨?_, ?_, ?_, ?_, ?_, ?_, ?_, ?_, ?_, ?_⟩
  · intro s w h h20 h4 hold hd hw
    have hagent : w.agent < 3 := h.2.1
    have e : exec (.admQEnableSet w) s = _ := h.stores (by decide) hd (by rw [h.reaches', h20, h4]; rfl)
    have hn := (admQCtl_merge_enable (s.rd .admQCtl 0) h20).trans h4
    have hs : s.stored .admQCtl 0 = s.rd .admQCtl 0 := rfl
    rw [hs, regStore_admQCtl, hn, hold, Bool.not_false, Bool.and_true, if_pos rfl] at e
    obtain ⟨hr, h1, ha, hst, hadm⟩ := State.admEnableSet_spec
      (State.wf_wr s .admQCtl 0 (Reg.admQCtl.merge (s.rd .admQCtl 0) w.data) hw) hagent
    refine ⟨_, e, h1, ha, hst, congrArg Adm.f hadm, congrArg Adm.q hadm, congrArg Adm.piSeen hadm, congrArg Adm.cmd hadm, ?_⟩
    rw [hr.rd _ _ (by decide), State.rd_wr_same _ _ _ _ hw]
    exact hn
  · intro s w h h20 h4 hold hd h1 h3 hw
    have e : exec (.admQEnableClear w) s = _ := h.stores (by decide) hd (by rw [h.reaches', h20, h4]; rfl)
    have hn := (admQCtl_merge_enable (s.rd .admQCtl 0) h20).trans h4
    have hs : s.stored .admQCtl 0 = s.rd .admQCtl 0 := rfl
    rw [hs, regStore_admQCtl, hn, hold, Bool.false_and, if_neg (by decide), Bool.not_false, Bool.and_true, if_pos rfl] at e
    have hst : admState (s.wr .admQCtl 0 (Reg.admQCtl.merge (s.rd .admQCtl 0) w.data)) = admState s :=
      (RegsBut.wr (r := .admQCtl) (i := 0) (offs := [Reg.admQCtl.addr 0]) (by simp) _).fld (by decide) 0 3
    exact ⟨_, e, State.admEnableClear_spec (State.wf_wr _ _ _ _ hw) (by omega) (by omega)⟩
  · intro s w h hd
    have e : exec (.tbAdjWrite w) s = _ := h.stores (by decide) hd h.reaches'
    rw [Reg.merge_whole (by decide) rfl, regStore_telTbAdj] at e
    exact ⟨_, e, State.tbAdd_spec (s.wr .telTbAdj 0 w.data) _⟩
  · intro s w h hd hw
    have e : exec (.tbRateWrite w) s = _ := h.stores (by decide) hd h.reaches'
    rw [Reg.merge_whole (by decide) rfl, regStore_telTbRate] at e
    exact ⟨_, e, State.rd_wr_same _ _ _ _ (State.wf_wr _ _ _ _ hw), rfl, rfl⟩
  · intro s w p h hd hw h0
    have e : exec (.pllRestart w) s = _ := h.stores (by decide) hd h.reaches'
    have hs : s.stored .clkPllCmd 0 = 0 := h0
    rw [hs, regStore_clkPllCmd] at e
    have hr : RegsBut [Reg.clkPllCmd.addr 0] s ((s.wr .clkPllCmd 0 (Reg.clkPllCmd.merge 0 w.data)).wr .clkPllCmd 0 0) :=
      (RegsBut.wr (by simp) _).trans (RegsBut.wr (by simp) _)
    obtain ⟨⟨g, x, ef⟩, hp⟩ := State.pllCmd_spec (hr.wf hw) (bits (Reg.clkPllCmd.merge 0 w.data) 0 2)
    refine ⟨_, e, by rw [ef]; rfl, (hp p).trans ?_⟩
    have hst : pllState ((s.wr .clkPllCmd 0 (Reg.clkPllCmd.merge 0 w.data)).wr .clkPllCmd 0 0) p = pllState s p := hr.fld (by decide) _ _
    simp only [hst, clkPllCmd_merge, Bool.and_eq_true, Bool.or_eq_true, decide_eq_true_eq]
  · intro s w h hd hw
    have e : exec (.pLevelChange w) s = _ := h.stores (by decide) hd h.reaches'
    rw [regStore_pwrCtl] at e
    obtain ⟨hwant, hf, hq, hl, hwf⟩ := s.wr_pwrCtl_spec (s.stored .pwrCtl 0) w.data hw
    have hfr : s.wr .pwrCtl 0 (Reg.pwrCtl.merge (s.stored .pwrCtl 0) w.data) =
      { s with regs := (s.wr .pwrCtl 0 (Reg.pwrCtl.merge (s.stored .pwrCtl 0) w.data)).regs } := rfl
    generalize s.wr .pwrCtl 0 (Reg.pwrCtl.merge (s.stored .pwrCtl 0) w.data) = t at e hwant hf hq hl hwf hfr
    have hpc : t.pchange = s.pchange := by rw [hfr]
    have hmo : t.mode = s.mode := by rw [hfr]
    have hre : t.restEnter = s.restEnter := by rw [hfr]
    have hno : t.nomNs = s.nomNs := by rw [hfr]
    have hsw : cluSwitching t = cluSwitching s := by rw [hfr]; rfl
    have hls := LevelStep.levelWritten t
    rw [← hpc, ← hmo, ← hre, ← hno, ← hsw, ← hf, ← hq, ← hl, ← hwant]
    refine ⟨_, e, ?_, hls.regs.fld (by decide) _ _, fun hk => ?_, fun hp hm hr hc hn => State.levelWritten_holds hp hm hr hwf hc hn,
      fun hp hm hr hc ha hlt hne => State.levelWritten_lower hp hm hr hwf hc ha hlt hne,
      fun hp hm hr hc ha hlt => State.levelWritten_higher hp hm hr hwf hc ha hlt⟩
    · exact hls.frame.trans (by rw [hfr])
    · rw [State.levelWritten, if_pos hk]
      exact ⟨rfl, rfl, rfl⟩
  · intro s w h hd hw hm
    have e : exec (.clkGateWrite w) s = _ := h.stores (by decide) hd h.reaches'
    have hs : s.stored .clkGate 0 = s.rd .clkGate 0 := rfl
    rw [hs, regStore_clkGate] at e
    have hst : (s.wr .clkGate 0 (Reg.clkGate.merge (s.rd .clkGate 0) w.data)).rd .clkGateStat 0 = s.rd .clkGateStat 0 :=
      State.rd_wr_other _ _ _ _ _ _ (by decide)
    have hgt := State.rd_wr_same s .clkGate 0 (Reg.clkGate.merge (s.rd .clkGate 0) w.data) hw
    obtain ⟨hg, hb, hsl, hways⟩ := State.gateWritten_spec
      (State.wf_wr s .clkGate 0 (Reg.clkGate.merge (s.rd .clkGate 0) w.data) hw) hm
    rw [hgt, hst] at hb
    have hbit : ∀ i, i < 25 → bit (State.rd (s.wr .clkGate 0 (Reg.clkGate.merge (s.rd .clkGate 0) w.data)).gateWritten .clkGateStat 0) i =
        gated (bit w.data i) (bit (s.rd .clkGateStat 0) i) i := fun i hi => by rw [hb i hi, clkGate_merge_enable _ _ hi]
    refine ⟨_, e, hg.trans hgt, fun i hi hon => ?_, fun i hi hoff => ?_, fun i h16 hi hoff => ?_, hsl, hways⟩
    · rw [hbit i hi, hon]
      rfl
    · rw [hbit i (by omega), hoff]
      simp [gated, hi]
    · rw [hbit i hi, hoff]
      simp [gated, h16]
  · intro s w i h hi hd hw
    have e : exec (.eccInj w) s = _ := h.stores (by decide) hd h.reaches'
    rw [regStore_cluEccInj] at e
    exact ⟨_, e, rfl, State.rd_wr_same _ _ _ _ hw⟩
  · intro s w h hd hw h3 hp he hh
    have e : exec (.fedResyncWrite w) s = _ := h.stores (by decide) hd h.reaches'
    rw [Reg.merge_whole (by decide) rfl, regStore_fedResync] at e
    obtain ⟨vp, vs, vo⟩ := heardPeers_wr_fedResync s w.data
    have hwf := State.wf_wr s .fedResync 0 w.data hw
    have hrd := State.rd_wr_same s .fedResync 0 w.data hw
    have hj := State.heldCheck_joins (s := s.wr .fedResync 0 w.data) (vs.trans h3) (by rw [vp]; exact hp) (by rw [hrd, vp]; exact he)
      (by rw [hrd, vp]; exact hh)
    rw [hj, hrd] at e
    obtain ⟨g1, g2, g3, g4⟩ := State.enterMember_spec (State.wf_wr _ .fedEpoch 0 w.data hwf)
    have ho : ownMember ((s.wr .fedResync 0 w.data).wr .fedEpoch 0 w.data) = ownMember s :=
      (ownMember_of_fedStat (State.rd_wr_other _ _ _ _ _ _ (by decide))).trans vo
    rw [ho] at g3
    exact ⟨_, e, g1, g2.trans (State.rd_wr_same _ _ _ _ hwf), g3, g4⟩
  · intro s w h hd hw h3
    have e : exec (.fedResyncWrite w) s = _ := h.stores (by decide) hd h.reaches'
    have hn : fedState (s.wr .fedResync 0 w.data) ≠ 3 := fun k => h3 ((heardPeers_wr_fedResync s w.data).2.1.symm.trans k)
    rw [Reg.merge_whole (by decide) rfl, regStore_fedResync, State.heldCheck_idle hn] at e
    exact ⟨_, e, rfl, State.rd_wr_same _ _ _ _ hw⟩

end Sys2Proof.Machine
end

section
/-! PROOFS. The dirty log's records and the sweep of its filter (10 R338, R341, R344). -/

namespace Sys2Proof.Machine

/-- DIRTY_OVERFLOW is set, and its source pulses, where the current epoch's records fill the ring (10 R341, R342). -/
def State.dirtyOverflow (s : State) (iid : Nat) : State :=
  if 2 ^ s.instFld iid 13 5 5 ≤ (s.instFld iid 15 0 32 + 2 ^ 32 - epochStart s iid) % 2 ^ 32 then
    (s.setInstFld iid 13 11 1 1).pulse 148 0
  else s

/-- Of the instance's entry the overflow touches word 13 alone. -/
theorem State.dirtyOverflow_spec (s : State) (iid : Nat) (hw : s.is0.wf = true) :
    (∃ m p, s.dirtyOverflow iid = { s with is0 := m, heldPulses := p }) ∧ (s.dirtyOverflow iid).is0.wf = true ∧
      ∀ w, w ≠ 13 → (s.dirtyOverflow iid).inst iid w = s.inst iid w := by
  unfold State.dirtyOverflow
  split
  · refine ⟨⟨_, _, rfl⟩, State.is0_setInst_wf _ _ _ _ hw, fun w h => ?_⟩
    exact State.inst_setInst_ne s iid 13 iid w _ (by omega)
  · exact ⟨⟨_, _, rfl⟩, hw, fun _ _ => rfl⟩

/-- The write of a dirty record, at LOG_WR of its instance's ring (10 R338). -/
def dirtyHeld (s : State) (r : DirtyRec) : Held :=
  mkHeld (.dirtyLog r.iid r.epoch) r.iid true (logBase s r.iid + 8 * ((s.inst r.iid 15).toNat % 2 ^ s.instFld r.iid 13 5 5)) 8
    (sharedAttrs s 0) (leBytes 8 (pack [(0, 1, flag r.epoch), (1, 1, flag r.big), (12, 52, r.page)]).toNat) 0

/-- The oldest record leaves the queue, and LOG_WR passes it (10 R338). -/
def State.dirtyTaken (s : State) (r : DirtyRec) (rest : List DirtyRec) : State :=
  { (s.dirtyOverflow r.iid).setInst r.iid 15 (s.inst r.iid 15 + 1) with dirtyQ := rest }

theorem State.dirtyTaken_spec (s : State) (r : DirtyRec) (rest : List DirtyRec) (hw : s.is0.wf = true) :
    (∃ m p, s.dirtyTaken r rest = { s with dirtyQ := rest, is0 := m, heldPulses := p }) ∧
      (s.dirtyTaken r rest).inst r.iid 15 = s.inst r.iid 15 + 1 ∧
      ∀ w, w < 13 → (s.dirtyTaken r rest).inst r.iid w = s.inst r.iid w := by
  obtain ⟨⟨m, p, e⟩, hw1, hsame⟩ := s.dirtyOverflow_spec r.iid hw
  refine ⟨?_, State.inst_setInst _ _ _ _ hw1, fun w hw13 => ?_⟩
  · rw [State.dirtyTaken, e]
    exact ⟨_, _, rfl⟩
  · exact (State.inst_setInst_ne _ r.iid 15 r.iid w _ (by omega)).trans (hsame w (by omega))

theorem dirtyLogRecordWrite_eq {s : State} {r : DirtyRec} {rest : List DirtyRec} (hq : s.dirtyQ = r :: rest) (hf : s.fatal = false) :
    exec .dirtyLogRecordWrite s = .next ((s.dirtyTaken r rest).service (dirtyHeld s r)) := by
  have hn : BitVec.ofNat 32 ((s.inst r.iid 15).toNat + 1) = s.inst r.iid 15 + 1 := by
    rw [BitVec.ofNat_add, BitVec.ofNat_toNat, BitVec.setWidth_eq]
    rfl
  show execDirtyLogRecordWrite s = _
  unfold execDirtyLogRecordWrite
  rw [hq]
  dsimp only
  rw [hf, if_neg Bool.false_ne_true, instFld_word, hn, dirtyHeld, State.dirtyTaken, State.dirtyOverflow, instFld_word]

/-- The oldest sweep has ended: the entries of the closed epoch of its instance are dropped (10 R344). -/
def State.swept (s : State) (iid : Nat) : State :=
  State.setFld { s with
    sweep := s.sweep.filter (· != iid), dirtyFilter := s.dirtyFilter.filter (fun k => !(k.iid == iid && k.epoch == !logEpoch s iid)) }
    .insDlogStat 0 13 1 (flag (decide (s.sweep.filter (· != iid) ≠ [])))

theorem filterSweepDone_eq {s : State} {iid : Nat} {more : List Nat} (hs : s.sweep.reverse = iid :: more) (ha : awake s) :
    exec .filterSweepDone s = .next (s.swept iid).admCheck := by
  obtain ⟨hf, hr⟩ := ha
  show execFilterSweepDone s = _
  unfold execFilterSweepDone
  rw [hs]
  dsimp only
  rw [if_neg (by simp [hf, hr])]
  rfl

/-- Settles O5: the record's write is `dirtyLogRecordWrite_eq`, with the entry of `State.dirtyTaken_spec`, and the sweep's end is
`filterSweepDone_eq`. -/
theorem dirtyLogRecords : Obligations.DirtyLogRecords := by
  unfold Obligations.DirtyLogRecords
  constructor
  · intro s r rest hq hf hw
    obtain ⟨⟨m, p, e⟩, h15, hlow⟩ := s.dirtyTaken_spec r rest hw
    rw [dirtyLogRecordWrite_eq hq hf]
    generalize s.dirtyTaken r rest = u at e h15 hlow
    have hask := Asked.service (s := u) (h := dirtyHeld s r) (by rw [e]; exact hf) rfl
    have hports := PortsOnly.service u (dirtyHeld s r)
    generalize u.service (dirtyHeld s r) = t at hask hports
    subst e
    obtain ⟨_, _, _, _, _, _, rfl⟩ := hports
    exact ⟨_, rfl, ⟨_, _, _, _, _, _, rfl⟩, h15, hlow, hask.offered⟩
  · intro s iid more hs ha
    exact ⟨s.swept iid, filterSweepDone_eq hs ha, rfl, rfl, rfl⟩

end Sys2Proof.Machine
end

section
/-! PROOFS. Quiet instances, commands at QUIESCE_CEIL, and the ends of drains (10 R323, R328; 09 R293; 02 R79, R565). -/

namespace Sys2Proof.Machine

/-! The end of this member's own command. -/

section
variable {s : State} {c : AdmCmd} (hc : s.adm.cmd = some c) (hs : c.sender = none)
include hc hs

/-- It touches the admin queue, the staging area, registers and the ports. -/
theorem State.admEnd_own_frame (status detail w1 w2 w5 : Nat) :
    ∃ a x r, PortsOnly { s with adm := a, staged := x, regs := r } (s.admEnd true status detail w1 w2 w5) := by
  have hcmd : cmdOf s true = some c := hc
  unfold State.admEnd
  simp only [hcmd, hs, Option.isNone_none, if_true]
  generalize worstStatus s c status detail = fin
  generalize recordWords _ _ _ _ _ _ _ _ _ _ _ _ _ _ _ = ws
  let offs := [Reg.fedEpoch.addr 0, Reg.admLastDone.addr 0, Reg.admStageStat.addr 0, Reg.admQStat.addr 0]
  have he : AdmStep offs s (s.cmdEnded c fin.1) := (AdmStep.cmdEnded s c fin.1).mono (by simp [offs])
  have hn : ∀ u : State, AdmStep offs u u.admNext := fun u => (AdmStep.admNext u).mono (by simp [offs])
  split
  · exact ((he.trans ((AdmStep.setAdm _ _).trans (AdmStep.wr (by simp [offs]) _ _))).trans (hn _)).frame
  · exact ((he.trans ((AdmStep.admRecord _ c.idx ws).mono (by simp [offs]))).trans (hn _)).frame

end

/-! INSTANCE_QUIET (10 R323). -/

/-- The QUIESCE_INSTANCE that waits for the instance's quiet ends OK with W1 = n. -/
def State.quietEnd (s : State) (own : Bool) (iid n : Nat) : State :=
  if (quiesceCmd s own iid).isSome then s.admEnd own 0 0 n 0 0 else s

theorem State.quietEnd_none {s : State} {own : Bool} {iid : Nat} (h : quiesceCmd s own iid = none) (n : Nat) :
    s.quietEnd own iid n = s := by
  rw [State.quietEnd, h]
  rfl

theorem instanceQuiet_eq {s : State} {iid : Nat} (hi : iid < 4096) (hr : admRuns s = true) (h2 : s.instState iid = 2)
    (hq : instQuiet s iid = true) : exec (.instanceQuiet iid) s =
      .next (((s.setInstFld iid 13 0 3 3).quietEnd true iid (instInFlight s iid)).quietEnd false iid (instInFlight s iid)) := by
  show execInstanceQuiet iid s = _
  unfold execInstanceQuiet
  rw [if_neg (by omega), if_pos (by simp [hr, h2, hq])]
  rfl

/-- An own QUIESCE_INSTANCE that waits is the command in progress. -/
theorem quiesceCmd_own {s : State} {iid : Nat} {c : AdmCmd} (h : quiesceCmd s true iid = some c) : s.adm.cmd = some c :=
  (Option.filter_eq_some_iff.mp h).1

theorem ceilCmd_own {s : State} {c : AdmCmd} (h : ceilCmd s true = some c) : s.adm.cmd = some c :=
  (Option.filter_eq_some_iff.mp h).1

/-! QUEUE_DRAIN_END (02 R565). -/

theorem State.admCheckOne_idle {s : State} {own : Bool} (h : cmdOf s own = none) : s.admCheckOne own = s := by
  unfold State.admCheckOne
  rw [h]

theorem State.drainDone_idle {s : State} {own : Bool} (h : cmdOf s own = none) (qid : Nat) : s.drainDone own qid = s := by
  unfold State.drainDone
  rw [h]

/-- A trigger of a queue's notice leaves every other queue's context. -/
theorem ctxOf_noticeTrigger_ne (s : State) {qid r : Nat} (h : r ≠ qid) : ctxOf (s.noticeTrigger qid) r = ctxOf s r := by
  unfold State.noticeTrigger
  split
  · rfl
  · dsimp only
    split
    · rfl
    · split
      · exact ctxOf_setCtx_ne s qid r _ h
      · obtain ⟨_, _, _, _, _, _, e⟩ := (PortsOnly.bankAccess _ qid 3).trans (PortsOnly.service _ _)
        exact (ctxOf_of_ways (by rw [e]) r).trans (ctxOf_setCtx_ne s qid r _ h)

theorem State.idleNotice_step (s : State) (qid : Nat) :
    KeepsCtx s (s.idleNotice qid) ∧ (∀ r, r ≠ qid → ctxOf (s.idleNotice qid) r = ctxOf s r) ∧ FetchStep s (s.idleNotice qid) := by
  unfold State.idleNotice
  split
  · exact ⟨KeepsCtx.refl s, fun _ _ => rfl, FetchStep.refl s⟩
  · split
    · exact ⟨KeepsCtx.noticeTrigger s qid, fun _ h => ctxOf_noticeTrigger_ne s h, FetchStep.noticeTrigger s qid⟩
    · exact ⟨KeepsCtx.refl s, fun _ _ => rfl, FetchStep.refl s⟩

section
variable {s : State} {qid : Nat} {c : QCtx} (hc : ctxOf s qid = some c)
include hc

/-- A queue in service that is made ready stays in service. -/
theorem State.markReady_step (hs : c.state = qIdle ∨ c.state = qActive) :
    (∃ x, (x = qIdle ∨ x = qActive) ∧ ctxOf (s.markReady qid) qid = some { c with state := x }) ∧
      (∀ r, r ≠ qid → ctxOf (s.markReady qid) r = ctxOf s r) ∧
      ∃ w y i, s.markReady qid = { s with ways := w, ready := y, idleSince := i } := by
  rw [State.markReady_inService hc hs]
  split
  · exact ⟨⟨c.state, hs, hc⟩, fun _ _ => rfl, _, _, _, rfl⟩
  · obtain ⟨hown, hne, _, e⟩ := State.active_spec hc
    exact ⟨⟨qActive, .inr rfl, hown⟩, hne, _, _, _, e⟩

/-- Made ready, with its notice if it is IDLE, a queue in service keeps its place in its ring. -/
theorem State.readied_spec (hs : c.state = qIdle ∨ c.state = qActive) :
    (∃ d, ctxOf ((s.markReady qid).idleNotice qid) qid = some d ∧ d.home = c.home ∧ (d.state = qIdle ∨ d.state = qActive) ∧
        d.piSeen = c.piSeen ∧ d.f = c.f ∧ d.q = c.q) ∧
      (∀ r, r ≠ qid → ctxOf ((s.markReady qid).idleNotice qid) r = ctxOf s r) ∧
      ((s.markReady qid).idleNotice qid).adm = s.adm ∧ ((s.markReady qid).idleNotice qid).fed = s.fed := by
  obtain ⟨⟨x, hx, hown⟩, hne, w, y, i, e⟩ := State.markReady_step hc hs
  have ha : (s.markReady qid).adm = s.adm ∧ (s.markReady qid).fed = s.fed := by rw [e]; exact ⟨rfl, rfl⟩
  generalize s.markReady qid = t at hown hne ha ⊢
  obtain ⟨hk, hk', hfetch⟩ := t.idleNotice_step qid
  refine ⟨?_, fun r hr => (hk' r hr).trans (hne r hr), ?_⟩
  · have hcore := hk qid
    rw [hown, Option.map_some] at hcore
    obtain ⟨d, hd, he⟩ := Option.map_eq_some_iff.mp hcore
    have field : ∀ {α : Type} (f : QCtx → α), f d.core = f (QCtx.core { c with state := x }) := fun f => congrArg f he
    have hst : d.state = x := field QCtx.state
    exact ⟨d, hd, field QCtx.home, by rwa [hst], field QCtx.piSeen, field QCtx.f, field QCtx.q⟩
  · obtain ⟨_, _, _, _, _, _, _, _, e'⟩ := hfetch
    rw [e']
    exact ha

/-- A row that ends a drain leaves what the drain's target says, where no command waits for it. -/
theorem queueDrainEnd_eq (hq : qid < 4194304) (hr : admRuns s = true) (hs : c.state = qDraining) (hd : drained s qid c = true)
    (hx : ctxOn s = true) (ha : (s.drainTo qid c).adm.cmd = none) (hf : (s.drainTo qid c).fed.remote = none) :
    exec (.queueDrainEnd qid) s = .next (s.drainTo qid c) := by
  show execQueueDrainEnd qid s = _
  unfold execQueueDrainEnd
  rw [if_neg (by omega), hc]
  dsimp only
  rw [if_pos (by simp [hr, hs, hd, hx])]
  rw [State.drainDone_idle (own := true) ha, State.drainDone_idle (own := false) hf, State.admCheck,
    State.admCheckOne_idle (own := true) ha, State.admCheckOne_idle (own := false) hf]

end

/-! The three targets of a drain (02 R79). -/

section
variable {s : State} {qid : Nat} {c : QCtx}

/-- The context of a queue on its new home. -/
def QCtx.rehomed (c : QCtx) : QCtx := { c with home := c.newHome, drainTo := 0, state := restState c }

theorem restState_inService (c : QCtx) : restState c = qIdle ∨ restState c = qActive := by
  unfold restState
  split
  · exact .inl rfl
  · exact .inr rfl

theorem State.drainTo_paused (h0 : c.drainTo = 0) (ho : s.overrun.contains qid = false) :
    s.drainTo qid c = State.setCtx { s with overrun := s.overrun.filter (· != qid) } qid { c with state := qPaused } := by
  have hm : decide (c.drainTo = 2) = false := by rw [h0]; rfl
  have hself : ({ c with drainTo := 0 } : QCtx) = c := by rw [← h0]
  unfold State.drainTo
  rw [if_neg (by rw [h0]; decide), if_neg (fun h => of_decide_eq_false hm h.1), if_neg (fun h => of_decide_eq_false hm h.1)]
  simp only [hm, ho, Bool.not_false, if_true, Bool.false_eq_true, if_false]
  exact congrArg (fun d : QCtx => State.setCtx { s with overrun := s.overrun.filter (· != qid) } qid { d with state := qPaused }) hself

theorem State.drainTo_moved (h2 : c.drainTo = 2) (ho : s.overrun.contains qid = false) (hp : c.prior ≠ qPaused)
    (hi : s.instState c.iid.toNat < 2) (hl : s.fed.leaving.contains qid = false) (hy : assocGet s.fed.yielding qid = none) :
    s.drainTo qid c =
      ((State.setCtx { s with overrun := s.overrun.filter (· != qid) } qid c.rehomed).markReady qid).idleNotice qid := by
  have hm : decide (c.drainTo = 2) = true := by rw [h2]; rfl
  have hi' : ¬ 2 ≤ s.instState c.iid.toNat := by omega
  unfold State.drainTo
  rw [if_neg (by rw [h2]; decide), if_neg (by simp [hy]), if_neg (fun h => by rw [hl] at h; exact Bool.false_ne_true h.2)]
  simp only [hm, ho, hp, hi', Bool.not_true, if_true, Bool.false_eq_true, if_false]
  rfl

theorem State.leaveCheck_idle (h : fedState s ≠ 5) : s.leaveCheck = s := if_neg fun k => h k.1

end

/-- A queue whose ways are let go has no context, and each other keeps its own. -/
theorem ctxOf_dropped {s t : State} {qid : Nat} (h : t.ways = s.ways.filter (fun w => w.qid != qid)) :
    ctxOf t qid = none ∧ ∀ r, r ≠ qid → ctxOf t r = ctxOf s r := by
  unfold ctxOf wayOf
  rw [h]
  refine ⟨?_, fun r hr => ?_⟩
  · rw [List.find?_eq_none.mpr, Option.map_none]
    intro w hw
    simpa using (List.mem_filter.mp hw).2
  · rw [List.find?_filter]
    congr 2
    funext w
    by_cases hw : w.qid = r
    · simp [hw, hr]
    · simp [hw]

/-- A queue with no channel that is dropped: its ways and its place among the queues go, and nothing of the accesses or instances. -/
theorem State.dropQueue_spec {s : State} {qid : Nat} (hn : chans s qid = []) :
    (s.dropQueue qid).ways = s.ways.filter (fun w => w.qid != qid) ∧ (s.dropQueue qid).queues = s.queues.filter (· != qid) ∧
      (s.dropQueue qid).is0 = s.is0 ∧ (s.dropQueue qid).slots = s.slots ∧ (s.dropQueue qid).acc = s.acc ∧
      (s.dropQueue qid).adm = s.adm ∧ (s.dropQueue qid).fed.remote = s.fed.remote ∧ (s.dropQueue qid).regs = s.regs := by
  unfold State.dropQueue
  rw [hn]
  exact ⟨rfl, rfl, rfl, rfl, rfl, rfl, rfl, rfl⟩

/-- A queue that is gone is forgotten by the federation as well. -/
def State.dropDrained (s : State) (qid : Nat) : State :=
  { s.dropQueue qid with fed := { (s.dropQueue qid).fed with
      leaving := (s.dropQueue qid).fed.leaving.filter (· != qid), yielding := assocDel (s.dropQueue qid).fed.yielding qid } }

theorem State.drainTo_gone {s : State} {qid : Nat} {c : QCtx} (h1 : c.drainTo = 1) (hn : chans s qid = []) (hf : fedState s ≠ 5) :
    s.drainTo qid c = s.dropDrained qid := by
  obtain ⟨_, _, _, _, _, _, _, hregs⟩ := State.dropQueue_spec hn
  unfold State.drainTo
  rw [if_pos h1]
  refine State.leaveCheck_idle ?_
  unfold fedState State.fld State.rd at hf ⊢
  rwa [hregs]

/-- Settles O37: each row's equation, with `State.admEnd_own_frame` for what the end of a command touches, and the state that each
target of a drain leaves. -/
theorem instanceDrains : Obligations.InstanceDrains := by
  unfold Obligations.InstanceDrains
  refine ⟨?_, ?_, ?_, ?_⟩
  · intro s iid hi hr h2 hq hw hown hother
    refine ⟨s.setInstFld iid 13 0 3 3, ?_, rfl, State.instFld_setInstFld _ _ _ _ _ _ hw (by decide),
      fun k hk => State.is0_setInst_get s iid 13 k _ hk⟩
    rw [instanceQuiet_eq hi hr h2 hq, State.quietEnd_none (s := s.setInstFld iid 13 0 3 3) hown,
      State.quietEnd_none (s := s.setInstFld iid 13 0 3 3) hother]
  · intro s iid c hi hr h2 hq hc _ hsender hrem
    have hc' : quiesceCmd (s.setInstFld iid 13 0 3 3) true iid = some c := hc
    have hend : (s.setInstFld iid 13 0 3 3).quietEnd true iid (instInFlight s iid) =
        (s.setInstFld iid 13 0 3 3).admEnd true 0 0 (instInFlight s iid) 0 0 := by
      rw [State.quietEnd, hc', Option.isSome_some, if_pos rfl]
    have hfed : ((s.setInstFld iid 13 0 3 3).admEnd true 0 0 (instInFlight s iid) 0 0).fed = s.fed :=
      State.admEnd_own_fed (quiesceCmd_own hc') hsender _ _ _ _ _
    rw [instanceQuiet_eq hi hr h2 hq, hend, State.quietEnd_none]
    rw [quiesceCmd, cmdOf, if_neg Bool.false_ne_true, hfed, hrem, Option.filter_none]
  · intro s c hr hc
    refine ⟨_, ?_, rfl, fun hsender => ?_⟩
    · show execQuiesceTimeout s = _
      unfold execQuiesceTimeout
      rw [hr, hc, Bool.not_true, if_neg Bool.false_ne_true]
    · obtain ⟨_, _, _, _, _, _, _, _, _, e⟩ := State.admEnd_own_frame (ceilCmd_own hc) hsender 0x46 0
        (if cOp c = 0x82 then instInFlight s (cIid c) else 0) 0 0
      rw [e]
      exact ⟨rfl, rfl, rfl, rfl⟩
  · intro s qid c hlt hr hc hs hd hcmd hrem ho hx
    have hends := queueDrainEnd_eq hc hlt hr hs hd hx
    refine ⟨fun h0 => ?_, fun h2 hp hi hl hy => ?_, fun h1 hn hf => ?_⟩
    · rw [State.drainTo_paused h0 ho] at hends
      exact ⟨_, hends hcmd hrem, rfl, ctxOf_setCtx _ _ _ (congrArg Option.isSome hc),
        fun r hne => ctxOf_setCtx_ne _ qid r _ hne⟩
    · rw [State.drainTo_moved h2 ho hp hi hl hy] at hends
      have hrest : c.rehomed.state = qIdle ∨ c.rehomed.state = qActive := restState_inService c
      have hown : ctxOf (State.setCtx { s with overrun := s.overrun.filter (· != qid) } qid c.rehomed) qid = some c.rehomed :=
        ctxOf_setCtx _ _ _ (congrArg Option.isSome hc)
      have hne : ∀ r, r ≠ qid → ctxOf (State.setCtx { s with overrun := s.overrun.filter (· != qid) } qid c.rehomed) r = ctxOf s r :=
        fun r h => ctxOf_setCtx_ne _ qid r _ h
      obtain ⟨⟨d, hd, hh, hst, hpi, hdf, hdq⟩, hothers, hadm, hfed⟩ := State.readied_spec hown hrest
      exact ⟨_, d, hends (by rw [hadm]; exact hcmd) (by rw [hfed]; exact hrem), hd, hh, hst, hpi, hdf, hdq,
        fun r h => (hothers r h).trans (hne r h)⟩
    · rw [State.drainTo_gone h1 hn hf] at hends
      obtain ⟨hways, hqueues, his0, hslots, hacc, hadm, hremote, _⟩ := State.dropQueue_spec hn
      obtain ⟨hnone, hothers⟩ := ctxOf_dropped (t := s.dropDrained qid) hways
      exact ⟨_, hends (hadm ▸ hcmd) (hremote.trans hrem), hnone, hqueues, hothers, his0, hslots, hacc⟩

end Sys2Proof.Machine
end

section
/-! PROOFS. The commands of the dirty log (10 R342 to R345). -/

namespace Sys2Proof.Machine

/-! Fields of words. -/

/-- A field of a word's low part is the word's. -/
theorem bits_setWidth {n : Nat} (w : BitVec n) {m lo len : Nat} (h : lo + len ≤ m) : bits (w.setWidth m) lo len = bits w lo len := by
  apply Nat.eq_of_testBit_eq
  intro i
  rw [testBit_bits, testBit_bits, BitVec.getLsbD_setWidth]
  by_cases hi : i < len
  · simp [show lo + i < m by omega]
  · simp [hi]

/-- A bit of an entry's word once one of its bits is written. -/
theorem State.bit_setInstFld (s : State) (iid w k i : Nat) (b : Bool) (hw : s.is0.wf = true) (hk : k < 32) :
    bit ((s.setInstFld iid w k 1 (flag b)).inst iid w) i = if i = k then b else bit (s.inst iid w) i := by
  rw [State.setInstFld, State.inst_setInst _ _ _ _ hw]
  split
  case isTrue h => rw [h, bit_withBits_one _ _ _ (by omega)]
  case isFalse h => rw [bit_withBits _ _ _ _ _ (by omega), if_neg (by omega)]

/-! START_DIRTY_LOG (10 R345). -/

/-- Word 13 of the entry of an instance whose log starts: LOG_ON, the page size, the ring's size and the low part of its base. -/
def logWord (s : State) (c : AdmCmd) : W32 :=
  (pack [(0, 3, s.instState (cIid c)), (3, 1, 1), (4, 1, bits (wd c.words 1) 12 1), (5, 5, bits (wd c.words 3) 0 5),
    (12, 20, (wd c.words 2).toNat / 4096)]).setWidth 32

theorem logWord_spec (s : State) (c : AdmCmd) : bits (logWord s c) 0 3 = s.instState (cIid c) ∧ bit (logWord s c) 3 = true ∧
    bits (logWord s c) 5 5 = bits (wd c.words 3) 0 5 ∧ bits (logWord s c) 12 20 = (wd c.words 2).toNat / 4096 % 2 ^ 20 := by
  unfold logWord
  rw [bit_eq_bits]
  rw [bits_setWidth _ (by decide), bits_setWidth _ (by decide), bits_setWidth _ (by decide), bits_setWidth _ (by decide)]
  rw [bits_pack rfl rfl, bits_pack rfl rfl, bits_pack rfl rfl, bits_pack rfl rfl]
  exact ⟨Nat.mod_eq_of_lt (bits_lt _ _ _), rfl, Nat.mod_eq_of_lt (bits_lt _ _ _), rfl⟩

/-- The entry of an instance whose log starts. -/
def State.logEntry (s : State) (c : AdmCmd) : State :=
  ((s.setInst (cIid c) 13 (logWord s c)).setInst (cIid c) 14 (BitVec.ofNat 32 ((wd c.words 2).toNat / 2 ^ 32))).setInst (cIid c) 15 0

/-- The three words are as written, and all else of IS0 stays. -/
theorem State.logEntry_words (s : State) (c : AdmCmd) (hw : s.is0.wf = true) :
    (s.logEntry c).inst (cIid c) 13 = logWord s c ∧
      (s.logEntry c).inst (cIid c) 14 = BitVec.ofNat 32 ((wd c.words 2).toNat / 2 ^ 32) ∧ (s.logEntry c).inst (cIid c) 15 = 0 ∧
      ∀ k, k ≠ 16 * cIid c + 13 → k ≠ 16 * cIid c + 14 → k ≠ 16 * cIid c + 15 → (s.logEntry c).is0.get k = s.is0.get k := by
  have w13 := State.is0_setInst_wf s (cIid c) 13 (logWord s c) hw
  have w14 := State.is0_setInst_wf _ (cIid c) 14 (BitVec.ofNat 32 ((wd c.words 2).toNat / 2 ^ 32)) w13
  unfold State.logEntry
  refine ⟨?_, ?_, State.inst_setInst _ _ _ _ w14, fun k h13 h14 h15 => ?_⟩
  · rw [State.inst_setInst_ne _ _ _ _ _ _ (by omega), State.inst_setInst_ne _ _ _ _ _ _ (by omega), State.inst_setInst _ _ _ _ hw]
  · rw [State.inst_setInst_ne _ _ _ _ _ _ (by omega), State.inst_setInst _ _ _ _ w13]
  · rw [State.is0_setInst_get _ _ _ _ _ h15, State.is0_setInst_get _ _ _ _ _ h14, State.is0_setInst_get _ _ _ _ _ h13]

/-- A base whose two parts are the entry's is the entry's base. -/
theorem logBase_of_words {s : State} {iid : Nat} {base : W64} (hb : base.toNat % 4096 = 0)
    (h13 : bits (s.inst iid 13) 12 20 = base.toNat / 4096 % 2 ^ 20) (h14 : s.inst iid 14 = BitVec.ofNat 32 (base.toNat / 2 ^ 32)) :
    logBase s iid = base.toNat := by
  have hlt := base.isLt
  rw [logBase, instFld_word, State.instFld, h13, h14, BitVec.toNat_ofNat]
  omega

/-- The log of an instance is on, its filter and its epochs empty. -/
def State.logBegun (s : State) (c : AdmCmd) : State :=
  { (s.logEntry c).setFld .insStat 0 13 13 ((s.logEntry c).fld .insStat 0 13 13 + 1) with
    dirtyPrev := assocDel (assocDel s.dirtyPrev (2 * cIid c)) (2 * cIid c + 1)
    dirtyFilter := s.dirtyFilter.filter (fun k => k.iid != cIid c) }

theorem State.logBegun_spec (s : State) (c : AdmCmd) (hw : s.is0.wf = true) (hb : (wd c.words 2).toNat % 4096 = 0) :
    logOn (s.logBegun c) (cIid c) = true ∧ (s.logBegun c).instState (cIid c) = s.instState (cIid c) ∧
      logBase (s.logBegun c) (cIid c) = (wd c.words 2).toNat ∧ (s.logBegun c).instFld (cIid c) 13 5 5 = bits (wd c.words 3) 0 5 ∧
      (s.logBegun c).inst (cIid c) 15 = 0 ∧
      ∀ k, k ≠ 16 * cIid c + 13 → k ≠ 16 * cIid c + 14 → k ≠ 16 * cIid c + 15 → (s.logBegun c).is0.get k = s.is0.get k := by
  obtain ⟨h13, h14, h15, hk⟩ := s.logEntry_words c hw
  obtain ⟨hst, hon, hsize, hlow⟩ := logWord_spec s c
  rw [← h13] at hst hon hsize hlow
  exact ⟨hon, hst, logBase_of_words (s := s.logEntry c) hb hlow h14, hsize, h15, hk⟩

section
variable {s : State} {c : AdmCmd} (h : Proofed s 0x98 c) (hi : s.instState (cIid c) ≠ 0)
include h hi

theorem startDirtyLog_starts (hl : logOn s (cIid c) = false) : exec .startDirtyLog s = .next ((s.logBegun c).admEnd true 0 0 0 0 0) := by
  have hb : exec .startDirtyLog s = .next (s.beginLog true c) := h.begins State.beginLog
  rw [State.beginLog, if_neg hi, if_neg (by simp [hl])] at hb
  exact hb

theorem startDirtyLog_refused (hl : logOn s (cIid c) = true) : exec .startDirtyLog s = .next (s.admEnd true 0x43 0 0 0 0x21) := by
  have hb : exec .startDirtyLog s = .next (s.beginLog true c) := h.begins State.beginLog
  rw [State.beginLog, if_neg hi, if_pos hl] at hb
  exact hb

end

/-! HARVEST_DIRTY_LOG and STOP_DIRTY_LOG, stage by stage (10 R344, R345). -/

section
variable {s : State} {c : AdmCmd}

/-- No sweep of the instance runs: its epoch closes. -/
theorem State.harvestStep_closes (hs : c.stage = 0) (hsw : s.sweep.contains (cIid c) = false) (f : Nat) :
    s.harvestStep true c (f + 1) =
      ((s.closeEpoch (cIid c)).putCmd true (some { c with stage := 1 })).harvestStep true { c with stage := 1 } f := by
  rw [State.harvestStep]
  dsimp only
  rw [if_pos hs, hsw, if_neg Bool.false_ne_true]

/-- The sweep of the closed epoch begins. -/
theorem State.epochEnd_sweeps (s : State) (iid : Nat) : (s.epochEnd iid).sweep.contains iid = true := by
  show (iid :: s.sweep.filter (· != iid)).contains iid = true
  rw [List.contains_cons, beq_self_eq_true, Bool.true_or]

variable (hs : c.stage = 1) (he : epochClosed s (cIid c) = true)
include hs he

/-- The closed epoch of a harvest is told. -/
theorem State.harvestStep_harvests (ho : cOp c = 0x99) (f : Nat) : s.harvestStep true c (f + 1) =
    (s.epochEnd (cIid c)).admEnd true 0 0 (s.instFld (cIid c) 15 0 32) (s.instFld (cIid c) 13 11 1) 0 := by
  rw [State.harvestStep]
  dsimp only
  rw [if_neg (by omega), if_pos hs, he, Bool.not_true, if_neg Bool.false_ne_true, if_pos ho]

/-- The command of a stop, once its last epoch is closed. -/
def stopped (s : State) (c : AdmCmd) : AdmCmd :=
  { c with stage := 2, w1 := BitVec.ofNat 64 (s.instFld (cIid c) 15 0 32), w2 := BitVec.ofNat 64 (s.instFld (cIid c) 13 11 1) }

/-- The stop of a log waits for the sweep of its last epoch. -/
theorem State.harvestStep_stops (ho : cOp c ≠ 0x99) (f : Nat) : s.harvestStep true c (f + 2) =
    ((s.epochEnd (cIid c)).logStops (cIid c)).putCmd true (some (stopped s c)) := by
  have hsw : ((s.epochEnd (cIid c)).logStops (cIid c)).sweep.contains (cIid c) = true := by
    have hend : (s.epochEnd (cIid c)).sweep.contains (cIid c) = true := s.epochEnd_sweeps (cIid c)
    unfold State.logStops
    split
    · exact hend
    · exact hend
  rw [State.harvestStep]
  dsimp only
  rw [if_neg (by omega), if_pos hs, he, Bool.not_true, if_neg Bool.false_ne_true, if_neg ho, State.harvestStep]
  dsimp only
  rw [if_neg (by decide), if_neg (by decide)]
  exact if_pos hsw

end

/-- No record of an instance that none has is unacknowledged. -/
theorem epochClosed_of_none {s : State} {iid : Nat} (hq : ∀ r ∈ s.dirtyQ, r.iid ≠ iid)
    (ha : ∀ a ∈ s.acc, ∀ e, a.purpose ≠ .dirtyLog iid e) (hh : ∀ h ∈ s.held, ∀ e, h.purpose ≠ .dirtyLog iid e) : epochClosed s iid = true := by
  unfold epochClosed
  split
  · rfl
  · rename_i e _
    have h1 : s.dirtyQ.any (fun r => r.iid == iid && r.epoch == e) = false := by
      rw [List.any_eq_false]
      exact fun r hr => by simp [hq r hr]
    have h2 : s.acc.any (fun a => a.purpose == .dirtyLog iid e) = false := by
      rw [List.any_eq_false]
      exact fun a hm => by simpa using ha a hm e
    have h3 : s.held.any (fun h => h.purpose == .dirtyLog iid e) = false := by
      rw [List.any_eq_false]
      exact fun h hm => by simpa using hh h hm e
    rw [h1, h2, h3]
    rfl

/-! The entry of an instance whose epoch ends (10 R342, R344). -/

/-- A field of one bit is the bit. -/
theorem bits_one {n : Nat} (w : BitVec n) (i : Nat) : bits w i 1 = flag (bit w i) := by
  have hlt := bits_lt w i 1
  rw [bit_eq_bits]
  by_cases h : bits w i 1 = 1
  · simp [h, flag]
  · simp [h, flag]
    omega

/-- A harvest or stop that has closed its instance's epoch. -/
def AdmCmd.closing (c : AdmCmd) : AdmCmd := { c with phase := .waiting, stage := 1 }

/-- The state once the epoch is closed: EPOCH is turned. -/
def State.epochLeft (s : State) (c : AdmCmd) : State := (s.closeEpoch (cIid c)).putCmd true (some c.closing)

theorem State.epochLeft_spec (s : State) (c : AdmCmd) (hw : s.is0.wf = true) :
    (s.epochLeft c).is0.wf = true ∧ (s.epochLeft c).inst (cIid c) 15 = s.inst (cIid c) 15 ∧
      ∀ i, bit ((s.epochLeft c).inst (cIid c) 13) i = if i = 10 then !logEpoch s (cIid c) else bit (s.inst (cIid c) 13) i :=
  ⟨State.is0_setInst_wf s _ _ _ hw, State.inst_setInst_ne s _ _ _ _ _ (by omega),
    fun i => State.bit_setInstFld s (cIid c) 13 10 i _ hw (by decide)⟩

theorem State.epochEnd_spec (s : State) (iid : Nat) (hw : s.is0.wf = true) :
    (s.epochEnd iid).is0.wf = true ∧ (s.epochEnd iid).sweep.contains iid = true ∧ (s.epochEnd iid).dirtyQ = s.dirtyQ ∧
      ∀ i, bit ((s.epochEnd iid).inst iid 13) i = if i = 11 then false else bit (s.inst iid 13) i :=
  ⟨State.is0_setInst_wf s _ _ _ hw, s.epochEnd_sweeps iid, rfl, fun i => State.bit_setInstFld s iid 13 11 i false hw (by decide)⟩

theorem State.logStops_spec (s : State) (iid : Nat) (hw : s.is0.wf = true) : logOn (s.logStops iid) iid = false ∧
    (s.logStops iid).sweep = s.sweep ∧ (s.logStops iid).adm = s.adm := by
  unfold State.logStops
  split
  case isTrue h => exact ⟨(State.bit_setInstFld s iid 13 3 3 false hw (by decide)).trans (if_pos rfl), rfl, rfl⟩
  case isFalse h => exact ⟨Bool.eq_false_iff.mpr h, rfl, rfl⟩

/-- What the command tells of the closed epoch is as it was: LOG_WR and DIRTY_OVERFLOW. -/
theorem State.epochLeft_told (s : State) (c : AdmCmd) (hw : s.is0.wf = true) :
    (s.epochLeft c).instFld (cIid c) 15 0 32 = s.instFld (cIid c) 15 0 32 ∧
      (s.epochLeft c).instFld (cIid c) 13 11 1 = s.instFld (cIid c) 13 11 1 := by
  obtain ⟨_, h15, hb⟩ := s.epochLeft_spec c hw
  refine ⟨by rw [State.instFld, h15, State.instFld], ?_⟩
  rw [State.instFld, bits_one, hb 11, if_neg (by decide), ← bits_one, State.instFld]

/-- A harvest, or a stop, of a log with no sweep under way and no record on its way. -/
structure HarvestReady (s : State) (c : AdmCmd) : Prop where
  live : s.instState (cIid c) ≠ 0
  on : logOn s (cIid c) = true
  swept : s.sweep.contains (cIid c) = false
  queued : ∀ r ∈ s.dirtyQ, r.iid ≠ cIid c
  issued : ∀ a ∈ s.acc, ∀ e, a.purpose ≠ .dirtyLog (cIid c) e
  held : ∀ h ∈ s.held, ∀ e, h.purpose ≠ .dirtyLog (cIid c) e

section
variable {s : State} {c : AdmCmd} (h : HarvestReady s c) (hw : s.is0.wf = true)
include h

theorem HarvestReady.closes : s.beginHarvest true c = (s.epochLeft c).harvestStep true c.closing 5 := by
  rw [State.beginHarvest, if_neg h.live, h.on, Bool.not_true, if_neg Bool.false_ne_true]
  exact State.harvestStep_closes (s := s.putCmd true (some { c with phase := .waiting, stage := 0 }))
    (c := { c with phase := .waiting, stage := 0 }) rfl h.swept 5

theorem HarvestReady.closed : epochClosed (s.epochLeft c) (cIid c) = true := epochClosed_of_none h.queued h.issued h.held

variable (hw : s.is0.wf = true)
include hw

/-- HARVEST_DIRTY_LOG ends at once, and logging goes on in the next epoch. -/
theorem HarvestReady.harvested (hp : Proofed s 0x99 c) : ∃ u : State,
    exec .harvestDirtyLog s = .next (u.admEnd true 0 0 (s.instFld (cIid c) 15 0 32) (s.instFld (cIid c) 13 11 1) 0) ∧
    logEpoch u (cIid c) = !logEpoch s (cIid c) ∧ u.instFld (cIid c) 13 11 1 = 0 ∧ logOn u (cIid c) = true ∧
    u.sweep.contains (cIid c) = true ∧ u.dirtyQ = s.dirtyQ := by
  obtain ⟨hw1, _, hb⟩ := s.epochLeft_spec c hw
  obtain ⟨hwr, hovf⟩ := s.epochLeft_told c hw
  obtain ⟨_, hsw, hdq, hb'⟩ := (s.epochLeft c).epochEnd_spec (cIid c) hw1
  have hend : (s.epochLeft c).harvestStep true c.closing 5 = ((s.epochLeft c).epochEnd (cIid c)).admEnd true 0 0
      ((s.epochLeft c).instFld (cIid c) 15 0 32) ((s.epochLeft c).instFld (cIid c) 13 11 1) 0 :=
    State.harvestStep_harvests (c := c.closing) rfl h.closed hp.code.1 4
  have hbeg : exec .harvestDirtyLog s = .next (s.beginHarvest true c) := hp.begins State.beginHarvest
  rw [h.closes, hend, hwr, hovf] at hbeg
  refine ⟨(s.epochLeft c).epochEnd (cIid c), hbeg, (hb' 10).trans (hb 10), ?_, (hb' 3).trans ((hb 3).trans h.on), hsw, hdq⟩
  rw [State.instFld, bits_one, hb' 11]
  rfl

/-- STOP_DIRTY_LOG turns logging off, and waits for the sweep of the last epoch. -/
theorem HarvestReady.stopped (hp : Proofed s 0x9A c) : ∃ (t : State) (d : AdmCmd), exec .stopDirtyLog s = .next t ∧
    t.adm = { s.adm with cmd := some d } ∧ d.phase = .waiting ∧ d.stage = 2 ∧ d.w1 = BitVec.ofNat 64 (s.instFld (cIid c) 15 0 32) ∧
    d.w2 = BitVec.ofNat 64 (s.instFld (cIid c) 13 11 1) ∧ logOn t (cIid c) = false ∧ t.sweep.contains (cIid c) = true := by
  obtain ⟨hw1, _, _⟩ := s.epochLeft_spec c hw
  obtain ⟨hwr, hovf⟩ := s.epochLeft_told c hw
  obtain ⟨hw2, hsw, _, _⟩ := (s.epochLeft c).epochEnd_spec (cIid c) hw1
  obtain ⟨hoff, hsw', hadm⟩ := ((s.epochLeft c).epochEnd (cIid c)).logStops_spec (cIid c) hw2
  have ho : cOp c.closing ≠ 0x99 := by
    have e : cOp c.closing = 0x9A := hp.code.1
    omega
  have hend := State.harvestStep_stops (s := s.epochLeft c) (c := c.closing) rfl h.closed ho 3
  have hbeg : exec .stopDirtyLog s = .next (s.beginHarvest true c) := hp.begins State.beginHarvest
  refine ⟨_, Machine.stopped (s.epochLeft c) c.closing, hbeg.trans (congrArg _ (h.closes.trans hend)), ?_, rfl, rfl,
    congrArg (BitVec.ofNat 64) hwr, congrArg (BitVec.ofNat 64) hovf, hoff, hsw' ▸ hsw⟩
  exact congrArg (fun a : Adm => { a with cmd := some (Machine.stopped (s.epochLeft c) c.closing) }) hadm

end

end Sys2Proof.Machine
end

section
/-! PROOFS. SET_TIMEBASE, FED_JOIN, FED_LEAVE, REST and READ_TELEMETRY (13 R395, R396, R414; 14 R426, R442; 15 R470). -/

namespace Sys2Proof.Machine

/-! SET_TIMEBASE (13 R395, R396). -/

/-- The timebase as the command sets it: LOAD, or else ADD. -/
def State.timebaseSet (s : State) (c : AdmCmd) : State :=
  if cFlag c 0 then s.tbLoad (wd c.words 1) else if cFlag c 1 then s.tbAdd (wd c.words 1) else s

theorem State.timebaseSet_spec (s : State) (c : AdmCmd) :
    (s.timebaseSet c).timebase =
        (if cFlag c 0 then wd c.words 1 else if cFlag c 1 then s.timebase + wd c.words 1 else s.timebase) ∧
      ∃ b f n, s.timebaseSet c = { s with timebase := b, tbFrac := f, tbStep := n } := by
  unfold State.timebaseSet
  split
  · exact ⟨rfl, _, _, _, rfl⟩
  · split
    · refine ⟨(s.tbAdd_spec _).1, ?_⟩
      unfold State.tbAdd
      split
      · exact ⟨_, _, _, rfl⟩
      · exact ⟨_, _, _, rfl⟩
    · exact ⟨rfl, _, _, _, rfl⟩

/-- The timebase and its rate as the command sets them. -/
def State.timebaseRated (s : State) (c : AdmCmd) : State :=
  if cFlag c 2 then (s.timebaseSet c).tbRate ((wd c.words 2).setWidth 32) else s.timebaseSet c

theorem Proofed.setTimebase {s : State} {c : AdmCmd} (h : Proofed s 0xA8 c) : exec .setTimebase s =
    .next ((s.timebaseRated c).admEnd true 0 0 (s.timebaseRated c).timebase.toNat 0 0) := h.begins State.setTimebase

/-- SET_RATE writes the rate and drops the fraction, and nothing else leaves the timebase. -/
theorem State.timebaseRated_spec (s : State) (c : AdmCmd) (hw : s.regs.wf = true) :
    (s.timebaseRated c).timebase = (s.timebaseSet c).timebase ∧
      (cFlag c 2 = true → (s.timebaseRated c).rd .telTbRate 0 = (wd c.words 2).setWidth 32 ∧ (s.timebaseRated c).tbFrac = 0) ∧
      (cFlag c 2 = false → (s.timebaseRated c).regs = s.regs) ∧
      (s.timebaseRated c).is0 = s.is0 ∧ (s.timebaseRated c).ways = s.ways ∧ (s.timebaseRated c).slots = s.slots := by
  obtain ⟨_, b, f, n, e⟩ := s.timebaseSet_spec c
  unfold State.timebaseRated
  rw [e]
  split
  case isTrue h =>
    exact ⟨rfl, fun _ => ⟨State.rd_wr_same _ _ _ _ hw, rfl⟩, fun h' => absurd (h.symm.trans h') (by decide), rfl, rfl, rfl⟩
  case isFalse h => exact ⟨rfl, fun h' => absurd h' h, fun _ => rfl, rfl, rfl, rfl⟩

/-! FED_STAT (14 R426, R442). -/

/-- A field of FED_STAT is written, and polls are looked at again: FED_STAT alone reads otherwise. -/
theorem State.fedStatWritten_spec {s : State} (hw : s.regs.wf = true) (lo len v : Nat) :
    ((s.setFld .fedStat 0 lo len v).rescanned s).rd .fedStat 0 = withBits (s.rd .fedStat 0) lo len v ∧
      RegsBut [Reg.fedStat.addr 0] s ((s.setFld .fedStat 0 lo len v).rescanned s) ∧
      ∃ r p, (s.setFld .fedStat 0 lo len v).rescanned s = { s with regs := r, pollInst := p } := by
  have hr : RegsBut [Reg.fedStat.addr 0] s (s.setFld .fedStat 0 lo len v) := RegsBut.setFld (by simp) lo len v
  obtain ⟨p, e⟩ := State.rescanned_frame (s.setFld .fedStat 0 lo len v) s
  rw [e]
  exact ⟨State.rd_setFld s .fedStat 0 lo len v hw, hr.trans (RegsBut.of_regs rfl), _, _, rfl⟩

theorem State.setFedState_spec {s : State} (hw : s.regs.wf = true) (v : Nat) :
    (s.setFedState v).rd .fedStat 0 = withBits (s.rd .fedStat 0) 2 3 v ∧ RegsBut [Reg.fedStat.addr 0] s (s.setFedState v) ∧
      ∃ r p, s.setFedState v = { s with regs := r, pollInst := p } := State.fedStatWritten_spec hw 2 3 v

theorem State.setMembers_spec {s : State} (hw : s.regs.wf = true) (mask : Nat) :
    (s.setMembers mask).rd .fedStat 0 = withBits (s.rd .fedStat 0) 5 4 mask ∧ RegsBut [Reg.fedStat.addr 0] s (s.setMembers mask) ∧
      ∃ r p, s.setMembers mask = { s with regs := r, pollInst := p } := State.fedStatWritten_spec hw 5 4 mask

/-- No member is in service once IN_SERVICE is 0. -/
theorem members_of_clear {s : State} (h : ∀ m, m < 4 → bit (s.rd .fedStat 0) (5 + m) = false) : members s = [] := by
  rw [members, List.filter_eq_nil_iff]
  intro m hm
  rw [h m (List.mem_range.mp hm)]
  exact Bool.false_ne_true

/-! Frames that leave (14 R444 to R447). -/

/-- t is s but for its links and the frames that they send. -/
def LinkStep (s t : State) : Prop := ∃ l x, t = { s with fed := { s.fed with links := l }, txFrames := x }

theorem LinkStep.refl (s : State) : LinkStep s s := ⟨_, _, rfl⟩

theorem LinkStep.trans {s t u : State} (h : LinkStep s t) (k : LinkStep t u) : LinkStep s u := by
  obtain ⟨_, _, rfl⟩ := h
  obtain ⟨_, _, rfl⟩ := k
  exact ⟨_, _, rfl⟩

theorem LinkStep.foldl {α : Type} {f : State → α → State} (hf : ∀ t x, LinkStep t (f t x)) (xs : List α) (s : State) :
    LinkStep s (xs.foldl f s) := by
  induction xs generalizing s with
  | nil => exact LinkStep.refl s
  | cons x xs ih => exact (hf s x).trans (ih _)

theorem LinkStep.sendFrame (s : State) (k type dst : Nat) (relayed : Bool) (src : Nat) (fields : List (Nat × Nat × Nat))
    (payload : List (BitVec 256)) : LinkStep s (s.sendFrame k type dst relayed src fields payload) := by
  unfold State.sendFrame
  dsimp only
  split
  · exact LinkStep.refl s
  · split
    · exact ⟨_, _, rfl⟩
    · exact ⟨_, _, rfl⟩

theorem LinkStep.heartbeats (s : State) : LinkStep s s.heartbeats := by
  refine LinkStep.foldl (fun t k => ?_) _ s
  split
  · unfold State.heartbeatOn
    split
    · exact LinkStep.refl t
    · exact LinkStep.sendFrame t _ _ _ _ _ _ _
  · exact LinkStep.refl t

/-- t keeps the contexts, the queues and the epoch of s. -/
structure EpochKept (s t : State) : Prop where
  ways : t.ways = s.ways
  queues : t.queues = s.queues
  epoch : t.rd .fedEpoch 0 = s.rd .fedEpoch 0
  wf : s.regs.wf = true → t.regs.wf = true

section
variable {s t u : State}

theorem EpochKept.trans (h : EpochKept s t) (k : EpochKept t u) : EpochKept s u :=
  ⟨k.ways.trans h.ways, k.queues.trans h.queues, k.epoch.trans h.epoch, k.wf ∘ h.wf⟩

theorem EpochKept.of_fedStat (h : RegsBut [Reg.fedStat.addr 0] s t)
    (e : ∃ a r p f, t = { s with adm := a, regs := r, pollInst := p, fed := f }) :
    EpochKept s t := by
  have hr := h.rd .fedEpoch 0 (by decide)
  have hw := h.wf
  obtain ⟨_, _, _, _, rfl⟩ := e
  exact ⟨rfl, rfl, hr, hw⟩

theorem EpochKept.of_links (h : LinkStep s t) : EpochKept s t := by
  obtain ⟨_, _, rfl⟩ := h
  exact ⟨rfl, rfl, rfl, id⟩

theorem EpochKept.setFedState (hw : s.regs.wf = true) (v : Nat) : EpochKept s (s.setFedState v) := by
  obtain ⟨_, k, _, _, e⟩ := State.setFedState_spec hw v
  exact EpochKept.of_fedStat k ⟨_, _, _, _, e⟩

theorem EpochKept.setMembers (hw : s.regs.wf = true) (mask : Nat) : EpochKept s (s.setMembers mask) := by
  obtain ⟨_, k, _, _, e⟩ := State.setMembers_spec hw mask
  exact EpochKept.of_fedStat k ⟨_, _, _, _, e⟩

end

/-! FED_JOIN (14 R426). -/

/-- FED_STAT of a joiner: its own member number, JOINING, and nobody in service. -/
def joinStat (s : State) (c : AdmCmd) : W32 :=
  withBits (withBits (withBits (s.rd .fedStat 0) 0 2 (bits (wd c.words 1) 0 2)) 5 4 0) 2 3 1

theorem joinStat_spec (s : State) (c : AdmCmd) : bits (joinStat s c) 2 3 = 1 ∧ bits (joinStat s c) 0 2 = bits (wd c.words 1) 0 2 ∧
    ∀ m, m < 4 → bit (joinStat s c) (5 + m) = false := by
  unfold joinStat
  refine ⟨bits_withBits _ _ _ _ (by decide), ?_, fun m hm => ?_⟩
  · rw [bits_withBits_ne _ _ _ _ _ _ (by decide) (by decide), bits_withBits_ne _ _ _ _ _ _ (by decide) (by decide),
      bits_withBits _ _ _ _ (by decide)]
    exact Nat.mod_eq_of_lt (bits_lt _ _ _)
  · rw [bit_withBits _ _ _ _ _ (by decide), if_neg (by omega), bit_withBits _ _ _ _ _ (by decide), if_pos (by omega), Nat.zero_testBit]

/-- The command of a join under its ceiling. -/
def joinsCmd (s : State) (c : AdmCmd) : AdmCmd := { c with phase := .waiting, due := s.nomNs + joinCeilNs s }

/-- A joiner that begins anew, with its own number and nobody in service. -/
def State.joinReset (s : State) (c : AdmCmd) : State :=
  ((s.putCmd true (some (joinsCmd s c))).setFld .fedStat 0 0 2 (bits (wd c.words 1) 0 2)).setMembers 0

/-- A joiner before its manifests leave. -/
def State.joining (s : State) (c : AdmCmd) : State :=
  { (s.joinReset c).setFedState 1 with
    fed := { (s.joinReset c).fed with joinSeen := [], joinGroups := [], joinTable := [], leaving := [], config := [] } }

theorem State.joining_spec (s : State) (c : AdmCmd) (hw : s.regs.wf = true) : (s.joining c).rd .fedStat 0 = joinStat s c ∧
    ∃ r p f, s.joining c = { s with adm := { s.adm with cmd := some (joinsCmd s c) }, regs := r, pollInst := p, fed := f } := by
  have h1 := State.rd_setFld (s.putCmd true (some (joinsCmd s c))) .fedStat 0 0 2 (bits (wd c.words 1) 0 2) hw
  have w1 : ((s.putCmd true (some (joinsCmd s c))).setFld .fedStat 0 0 2 (bits (wd c.words 1) 0 2)).regs.wf = true := State.wf_wr _ _ _ _ hw
  obtain ⟨h2, k2, r2, p2, e2⟩ := State.setMembers_spec w1 0
  obtain ⟨h3, _, r3, p3, e3⟩ := State.setFedState_spec (s := s.joinReset c) (k2.wf w1) 1
  have hrd : (s.joining c).rd .fedStat 0 = ((s.joinReset c).setFedState 1).rd .fedStat 0 := rfl
  refine ⟨?_, ?_⟩
  · rw [hrd, h3, State.joinReset, h2, h1]
    rfl
  · rw [State.joining, e3, State.joinReset, e2]
    exact ⟨_, _, _, rfl⟩

/-- The manifest leaves on each link of the command that is trained. -/
def State.joinManifests (s : State) (c : AdmCmd) : State :=
  (List.range 3).foldl (fun t k => if bit (wd c.words 1) (4 + k) && decide (lstate t k = 2) then t.joinManifest k else t) s

theorem LinkStep.joinManifests (s : State) (c : AdmCmd) : LinkStep s (s.joinManifests c) := by
  refine LinkStep.foldl (fun t k => ?_) _ s
  split
  · exact LinkStep.sendFrame t _ _ _ _ _ _ _
  · exact LinkStep.refl t

/-- What a join leaves once its manifests are out: FED_STAT as written, and nothing of the queues or the time. -/
theorem State.joined_spec (s : State) (c : AdmCmd) (hw : s.regs.wf = true) :
    fedState ((s.joining c).joinManifests c) = 1 ∧ ownMember ((s.joining c).joinManifests c) = bits (wd c.words 1) 0 2 ∧
      members ((s.joining c).joinManifests c) = [] ∧ ((s.joining c).joinManifests c).adm = { s.adm with cmd := some (joinsCmd s c) } ∧
      ((s.joining c).joinManifests c).ways = s.ways ∧ ((s.joining c).joinManifests c).queues = s.queues ∧
      ((s.joining c).joinManifests c).timebase = s.timebase := by
  obtain ⟨hst, hown, hin⟩ := joinStat_spec s c
  obtain ⟨hrd, _, _, _, e⟩ := s.joining_spec c hw
  have hl := LinkStep.joinManifests (s.joining c) c
  generalize s.joining c = a at hrd e hl ⊢
  generalize a.joinManifests c = t at hl ⊢
  have ht : t.rd .fedStat 0 = joinStat s c := by
    obtain ⟨_, _, rfl⟩ := hl
    exact hrd
  rw [fedState, ownMember, State.fld, State.fld, ht]
  refine ⟨hst, hown, members_of_clear fun m hm => by rw [ht]; exact hin m hm, ?_⟩
  obtain ⟨_, _, rfl⟩ := hl
  rw [e]
  exact ⟨rfl, rfl, rfl, rfl⟩

section
variable {s : State} {c : AdmCmd} (h : Proofed s 0xB0 c)
include h

/-- A member that is ALONE or FENCED joins (log entry 24). -/
theorem Proofed.fedJoin (hs : fedState s = 0 ∨ fedState s = 4) : exec .fedJoin s = .next ((s.joining c).joinManifests c) := by
  have hb : exec .fedJoin s = .next (s.beginJoin true c) := h.begins State.beginJoin
  rw [State.beginJoin, if_neg (by omega)] at hb
  exact hb

theorem Proofed.fedJoin_refused (h0 : fedState s ≠ 0) (h4 : fedState s ≠ 4) :
    exec .fedJoin s = .next (s.admEnd true 0x43 0 0 0 (0x30 + fedState s)) := by
  have hb : exec .fedJoin s = .next (s.beginJoin true c) := h.begins State.beginJoin
  rw [State.beginJoin, if_pos ⟨h0, h4⟩] at hb
  exact hb

end

/-! FED_LEAVE (14 R442). -/

/-- A leaving member with no survivor: LEAVING, and no queue to hand over. -/
def State.leaving (s : State) (c : AdmCmd) : State :=
  { (s.putCmd true (some (joinsCmd s c))).setFedState 5 with
    fed := { ((s.putCmd true (some (joinsCmd s c))).setFedState 5).fed with leaving := [] } }

/-- A member that has left: its epoch has advanced, it is ALONE, and the others hear so. -/
def State.left (s : State) (c : AdmCmd) : State :=
  ((((s.leaving c).wr .fedEpoch 0 ((s.leaving c).rd .fedEpoch 0 + 1)).setFedState 0).heartbeats).setMembers 0

theorem State.leaving_spec (s : State) (c : AdmCmd) (hw : s.regs.wf = true) : fedState (s.leaving c) = 5 ∧ EpochKept s (s.leaving c) := by
  obtain ⟨h1, k1, r, p, e⟩ := State.setFedState_spec (s := s.putCmd true (some (joinsCmd s c))) hw 5
  have hrd : (s.leaving c).rd .fedStat 0 = ((s.putCmd true (some (joinsCmd s c))).setFedState 5).rd .fedStat 0 := rfl
  refine ⟨?_, EpochKept.of_fedStat ⟨k1.rd, k1.wf⟩ ?_⟩
  · rw [fedState, State.fld, hrd, h1, bits_withBits _ _ _ _ (by decide)]
    rfl
  · rw [State.leaving, e]
    exact ⟨_, _, _, _, rfl⟩

theorem State.left_spec (s : State) (c : AdmCmd) (hw : s.regs.wf = true) : fedState (s.left c) = 0 ∧ members (s.left c) = [] ∧
    (s.left c).rd .fedEpoch 0 = s.rd .fedEpoch 0 + 1 ∧ (s.left c).ways = s.ways ∧ (s.left c).queues = s.queues := by
  obtain ⟨_, k0⟩ := s.leaving_spec c hw
  have w1 : ((s.leaving c).wr .fedEpoch 0 ((s.leaving c).rd .fedEpoch 0 + 1)).regs.wf = true := State.wf_wr _ _ _ _ (k0.wf hw)
  have ep1 : ((s.leaving c).wr .fedEpoch 0 ((s.leaving c).rd .fedEpoch 0 + 1)).rd .fedEpoch 0 = s.rd .fedEpoch 0 + 1 := by
    rw [State.rd_wr_same _ _ _ _ (k0.wf hw), k0.epoch]
  unfold State.left
  generalize ha : (s.leaving c).wr .fedEpoch 0 ((s.leaving c).rd .fedEpoch 0 + 1) = a at w1 ep1 ⊢
  have v1 : a.ways = s.ways ∧ a.queues = s.queues := by rw [← ha]; exact ⟨k0.ways, k0.queues⟩
  obtain ⟨h2, _⟩ := State.setFedState_spec w1 0
  have hl := LinkStep.heartbeats (a.setFedState 0)
  have k3 := (EpochKept.setFedState w1 0).trans (EpochKept.of_links hl)
  have h3 : (a.setFedState 0).heartbeats.rd .fedStat 0 = withBits (a.rd .fedStat 0) 2 3 0 := by
    rw [← h2]
    obtain ⟨_, _, e⟩ := hl
    rw [e]
    rfl
  obtain ⟨h4, _⟩ := State.setMembers_spec (k3.wf w1) 0
  have k4 := k3.trans (EpochKept.setMembers (k3.wf w1) 0)
  refine ⟨?_, members_of_clear fun m hm => ?_, k4.epoch.trans ep1, k4.ways.trans v1.1, k4.queues.trans v1.2⟩
  · rw [fedState, State.fld, h4, bits_withBits_ne _ _ _ _ _ _ (by decide) (by decide), h3, bits_withBits _ _ _ _ (by decide)]
    rfl
  · rw [h4, bit_withBits _ _ _ _ _ (by decide), if_pos (by omega), Nat.zero_testBit]

section
variable {s : State} {c : AdmCmd} (h : Proofed s 0xB1 c)
include h

/-- A member with no survivor leaves at once. -/
theorem Proofed.fedLeave (h2 : fedState s = 2) (hm : s.mode = .run) (hn : (members s).any (fun m => decide (m ≠ ownMember s)) = false)
    (hw : s.regs.wf = true) : exec .fedLeave s = .next ((s.left c).admEnd true 0 0 0 0 0) := by
  have hb : exec .fedLeave s = .next (s.beginLeave true c) := h.begins State.beginLeave
  have hcmd : (leaveCmd (s.leaving c)).isSome = true := by
    have hc : (s.leaving c).adm.cmd = some (joinsCmd s c) := by
      obtain ⟨_, _, _, _, e⟩ := State.setFedState_spec (s := s.putCmd true (some (joinsCmd s c))) hw 5
      rw [State.leaving, e]
      rfl
    have ho : cOp (joinsCmd s c) = 0xB1 := h.code.1
    have hp : (joinsCmd s c).phase = .waiting := rfl
    rw [leaveCmd, hc, Option.filter_some, if_pos (by simp [ho, hp])]
    rfl
  rw [State.beginLeave, if_neg (by simp [h2, hm])] at hb
  simp only [hn, Bool.false_eq_true, if_false, List.foldl_nil] at hb
  have he : (s.leaving c).leaveCheck = (s.left c).admEnd true 0 0 0 0 0 := by
    rw [State.leaveCheck, if_pos ⟨(s.leaving_spec c hw).1, rfl⟩]
    dsimp only
    rw [if_pos hcmd]
    rfl
  exact hb.trans (congrArg _ he)

/-- Only a MEMBER leaves (log entry 37). -/
theorem Proofed.fedLeave_refused (h2 : fedState s ≠ 2) : exec .fedLeave s = .next (s.admEnd true 0x43 0 0 0 (0x30 + fedState s)) := by
  have hb : exec .fedLeave s = .next (s.beginLeave true c) := h.begins State.beginLeave
  rw [State.beginLeave, if_pos (.inl h2)] at hb
  exact hb

end

/-! REST (15 R470). -/

section
variable {s : State} {c : AdmCmd} (h : Proofed s 0xB8 c)
include h

theorem Proofed.rest (hm : s.mode = .run) : exec .rest s = .next { s with
    adm := { s.adm with cmd := some { c with phase := .waiting, due := s.nomNs + 1000 * bits (wd c.words 1) 0 22 } },
    idleSince := if restIdle s then some s.nomNs else none } := by
  have hb : exec .rest s = .next (s.beginRest true c) := h.begins State.beginRest
  rw [State.beginRest, if_neg (not_not.mpr hm)] at hb
  exact hb

theorem Proofed.rest_refused (hm : s.mode ≠ .run) : exec .rest s = .next (s.admEnd true 0x43 0 0 0 (0x40 + s.mode.code)) := by
  have hb : exec .rest s = .next (s.beginRest true c) := h.begins State.beginRest
  rw [State.beginRest, if_pos hm] at hb
  exact hb

end

/-! READ_TELEMETRY (13 R412, R414). -/

/-- Writes that are asked for one after another touch the ports alone, and each of them is asked for. -/
theorem State.foldl_service {α : Type} {g : State → α → Held} (plain : ∀ t x, (g t x).form = false) (xs : List α) {s : State}
    (hf : s.fatal = false) : PortsOnly s (xs.foldl (fun t x => t.service (g t x)) s) ∧
      (∀ u w a l d, Asked s u w a l d → Asked (xs.foldl (fun t x => t.service (g t x)) s) u w a l d) ∧
      ∀ x ∈ xs, ∃ t, Asked (xs.foldl (fun t x => t.service (g t x)) s)
        (g t x).purpose (g t x).write (g t x).addr (g t x).len (g t x).data := by
  induction xs generalizing s with
  | nil => exact ⟨PortsOnly.refl s, fun _ _ _ _ _ k => k, nofun⟩
  | cons y ys ih =>
    have hp := PortsOnly.service s (g s y)
    have hf' : (s.service (g s y)).fatal = false := by
      obtain ⟨_, _, _, _, _, _, e⟩ := hp
      rw [e]
      exact hf
    obtain ⟨ip, ikeep, iasks⟩ := ih hf'
    refine ⟨hp.trans ip, fun _ _ _ _ _ k => ikeep _ _ _ _ _ (k.mono _), fun x hx => ?_⟩
    rcases List.mem_cons.mp hx with rfl | hx
    · exact ⟨s, ikeep _ _ _ _ _ (Asked.service hf (plain s x))⟩
    · exact iasks x hx

/-- A copy that is taken touches its sequence and the maxima that it restarts. -/
theorem State.takeCopy_frame (s : State) (set iid qid : Nat) (c : Option QCtx) (absent : Bool) :
    ∃ n m, (s.takeCopy set iid qid c absent).1 = { s with copySeq := n, is3 := m } := by
  unfold State.takeCopy
  dsimp only
  split
  · exact ⟨_, _, rfl⟩
  · exact ⟨_, _, rfl⟩

theorem Proofed.readTelemetry {s : State} {c : AdmCmd} (h : Proofed s 0xB9 c)
    (hs : bits (wd c.words 2) 12 4 = 2 ∨ bits (wd c.words 2) 12 4 ≠ 3 ∧ s.instState (bits (wd c.words 2) 0 12) ≠ 0) :
    exec .readTelemetry s = .next (s.readCopy true c none) := by
  have hb : exec .readTelemetry s = .next (s.beginTelemetry true c) := h.begins State.beginTelemetry
  rw [hb, State.beginTelemetry]
  split
  · rfl
  · obtain ⟨h3, hi⟩ := hs.resolve_left ‹_›
    rw [if_neg hi, if_pos h3]

/-- The command while its copy's lines, and then the header, are written. -/
def copying (c : AdmCmd) (ls : List (List W64)) (hd : List W64) : AdmCmd :=
  { c with phase := .copying ls.length (some ((wd c.words 1).toNat, hd)), w1 := BitVec.ofNat 64 (64 * (ls.length + 1)) }

/-- The write of line l of its copy. -/
def copyLine (c : AdmCmd) (s : State) (l : List W64 × Nat) : Held :=
  admAccess s (.admCopy false) true (((wd c.words 1).toNat + 64 + 64 * l.2) % 2 ^ 64) 64 (bytesOfWords l.1)

/-- The copy of a READ_TELEMETRY is taken, and its lines are written from DEST + 64 on. -/
theorem State.readCopy_spec {s u : State} {c : AdmCmd} {q : Option QCtx} {ls : List (List W64)} {hd : List W64} (hf : s.fatal = false)
    (h : s.takeCopy (bits (wd c.words 2) 12 4) (bits (wd c.words 2) 0 12) (bits (wd c.words 3) 0 22) q false = (u, ls, hd)) :
    PortsOnly { u with adm := { s.adm with cmd := some (copying c ls hd) } } (s.readCopy true c q) ∧
      ∀ l ∈ ls.zipIdx, Offered (s.readCopy true c q) (.admCopy false) true (((wd c.words 1).toNat + 64 + 64 * l.2) % 2 ^ 64) 64
        (bytesOfWords l.1) := by
  obtain ⟨n, m, hu⟩ := s.takeCopy_frame (bits (wd c.words 2) 12 4) (bits (wd c.words 2) 0 12) (bits (wd c.words 3) 0 22) q false
  rw [h] at hu
  change u = _ at hu
  have ha : u.adm = s.adm := by rw [hu]
  have hfu : (u.putCmd true (some (copying c ls hd))).fatal = false := by rw [hu]; exact hf
  have e : s.readCopy true c q =
      ls.zipIdx.foldl (fun t l => t.service (copyLine c t l)) (u.putCmd true (some (copying c ls hd))) := by
    unfold State.readCopy
    dsimp only
    rw [h]
    rfl
  obtain ⟨hp, _, hask⟩ := State.foldl_service (g := copyLine c) (fun _ _ => rfl) ls.zipIdx hfu
  rw [e, ← ha]
  refine ⟨hp, fun l hl => ?_⟩
  obtain ⟨_, k⟩ := hask l hl
  exact k.offered

/-- Settles O42: each clause is the lemma on its command; FED_JOIN writes FED_STAT as in `joinStat_spec`, and its manifests leave that as
it is. -/
theorem otherCommands : Obligations.OtherCommands := by
  unfold Obligations.OtherCommands
  refine ⟨?_, fun s c h hi hl => startDirtyLog_refused h hi hl, ?_, ?_, ?_, fun s c h h0 h4 => h.fedJoin_refused h0 h4, ?_,
    fun s c h h2 => h.fedLeave_refused h2, fun s c h hm => ⟨_, h.rest hm, rfl⟩, fun s c h hm => h.rest_refused hm, ?_⟩
  · intro s c h hi hl hw hb
    exact ⟨s.logBegun c, startDirtyLog_starts h hi hl, s.logBegun_spec c hw hb⟩
  · intro s c _ hi hl hw hsw hq ha hh
    have hr : HarvestReady s c := ⟨hi, hl, hsw, hq, ha, hh⟩
    exact ⟨hr.harvested hw, hr.stopped hw⟩
  · intro s c h hw
    obtain ⟨ht, hrate, hregs, h0, hways, hslots⟩ := s.timebaseRated_spec c hw
    exact ⟨s.timebaseRated c, h.setTimebase, ht.trans (s.timebaseSet_spec c).1, hrate, hregs, h0, hways, hslots⟩
  · intro s c h hs hw
    exact ⟨_, h.fedJoin hs, s.joined_spec c hw⟩
  · intro s c h h2 hm hn hw
    exact ⟨s.left c, h.fedLeave h2 hm hn hw, s.left_spec c hw⟩
  · intro s c u ls hd h hs hcopy
    obtain ⟨hp, ho⟩ := State.readCopy_spec (fatal_of_admRuns h.code.2) hcopy
    exact ⟨_, h.readTelemetry hs, hp, ho⟩

end Sys2Proof.Machine
end

section
/-! PROOFS. What every step keeps, the edges of rst_n among the commands (11 R359; 18 R517; 19 R542, R543). -/

namespace Sys2Proof.Machine

/-- What InvariantsKept says of a state. -/
def State.invariantsOk (s : State) : Prop := s.mapsOk = true ∧ s.errOk = true ∧ s.creditsOk = true ∧ s.resetOk = true

theorem Keeps.invariants {s t : State} (k : Keeps s t) (h : s.invariantsOk) : t.invariantsOk := by
  obtain ⟨hmaps, herr, hcredits, hreset⟩ := h
  exact ⟨k.maps hmaps, k.err herr, k.credits hcredits, k.reset hreset⟩

/-- The edge into RESET leaves the maps empty but for the held word of ERR_FATAL, and rst_n low. -/
theorem rstNFall_invariants {s t : State} (h : exec .rstNFall s = .next t) : t.invariantsOk := by
  obtain rfl := Host.Outcome.next.inj h
  have hregs := WordMap.wf_put [] (Reg.errFatal.addr 0) (s.regs.get (Reg.errFatal.addr 0)) rfl
  refine ⟨?_, rfl, rfl, rfl⟩
  show (WordMap.wf _ && _ && _ && _ && _ && _ && _ && _ && _ && _ && _ && _ && _) = true
  rw [hregs]
  rfl

/-- With rst_n high in BRINGUP the invariants hold before the PLLs start, which keeps them. -/
theorem rstNRise_invariants {s t : State} (hs : s.invariantsOk) (h : exec .rstNRise s = .next t) : t.invariantsOk := by
  change execRstNRise s = .next t at h
  unfold execRstNRise at h
  split at h
  · obtain rfl := Host.Outcome.next.inj h
    exact hs
  · obtain rfl := Host.Outcome.next.inj h
    obtain ⟨hmaps, herr, hcredits, -⟩ := hs
    have hrisen : ({ s with rstN := true, mode := .bringup } : State).invariantsOk := ⟨hmaps, herr, hcredits, rfl⟩
    exact (Keeps.pllStart (Keeps.pllStart (Keeps.refl _) false false) true false).invariants hrisen

/-- The two edges of rst_n are the only commands that do not keep rst_n as it is. -/
theorem exec_invariants {c : Instr} {s t : State} (hs : s.invariantsOk) (h : exec c s = .next t) : t.invariantsOk := by
  by_cases hfall : c = .rstNFall
  · subst hfall
    exact rstNFall_invariants h
  · by_cases hrise : c = .rstNRise
    · subst hrise
      exact rstNRise_invariants hs h
    · exact (exec_keeps c s hfall hrise t h).invariants hs

theorem step_invariants {s t : State} (hs : s.invariantsOk) (h : step s = .next t) : t.invariantsOk := by
  unfold step at h
  split at h
  · obtain rfl := Host.Outcome.next.inj h
    exact (tick_keeps s).invariants hs
  · next c cs _ => exact exec_invariants (s := { s with pending := cs }) hs h

/-- Settles O59: by `step_invariants`, which splits a step into a tick, the two edges of rst_n, and the other commands, which `exec_keeps`
covers. -/
theorem invariantsKept : Obligations.InvariantsKept := by
  unfold Obligations.InvariantsKept
  intro s t hmaps herr hcredits hreset hstep
  exact step_invariants ⟨hmaps, herr, hcredits, hreset⟩ hstep

end Sys2Proof.Machine
end

section
/-! PROOFS. An error record whose write no port takes until the error-log writer asks for it (11 R354; 07 R238, R242). -/

namespace Sys2Proof.Machine

/-- The write of the oldest pending record, over its slot of the ring (11 R354). -/
def errLogHeld (s : State) (e : ErrRec) : Held :=
  admAccess s (.errLog e.seq (decide (e.cls = 3))) true (errBase s + 64 * (e.seq.toNat % errRing s)) 64 (bytesOfWords (errWords e))

/-- Where the ring has room and the ports take the write at once, the record is no longer pending. -/
theorem errorLogWrite_issued {s : State} {e : ErrRec} {rest : List ErrRec} (hq : s.errQ = e :: rest) (hruns : admRuns s = true)
    (hen : bit (s.rd .errLogCtl 0) 0 = true) (hroom : (e.seq - s.rd .errLogCons 0).toNat < errRing s)
    (hissued : (({ s with errQ := rest } : State).service (errLogHeld s e)).held = []) :
    exec .errorLogWrite s = .next (({ s with errQ := rest } : State).service (errLogHeld s e)) := by
  show execErrorLogWrite s = _
  unfold execErrorLogWrite
  rw [hq]
  dsimp only
  rw [if_neg (by simp [hruns, hen]), if_pos hroom, ← errLogHeld, if_neg (by simp [hissued])]

/-- Port 0's arbiter lists the admin processor, requester 3, twice: the first entry is free, the second locked out until 1 ns. -/
def twiceListed : Arb :=
  { num := 0, round := 0, emBarred := false, emRun := 0, won := 0, waiting := [],
    reqs := [{ idx := 3, stamp := 0, wait := 0, forced := false, lockout := 0, raised := false },
             { idx := 3, stamp := 0, wait := 0, forced := false, lockout := 1, raised := false }] }

/-- A pending DEVICE record, the first that the ring is to hold. -/
def pendingRecord : ErrRec := { mkErr 3 0 0x41 0 0 63 0 0 0 0 with seq := 1 }

/-- RUN at time 0, the error log enabled, with credits for one write on port 0. -/
def twiceListedState : State :=
  { ((({ State.reset with mode := .run } : State).wr .clkGate 0 0x1FFFFFF).wr .clkGateStat 0 0x1FFFFFF).wr .errLogCtl 0 1 with
    errQ := [pendingRecord], credits := [(0, 1, 1, 8)], portActive := [0], arbs := [twiceListed] }

theorem twiceListedState_logs : admRuns twiceListedState = true ∧ bit (twiceListedState.rd .errLogCtl 0) 0 = true ∧
    (pendingRecord.seq - twiceListedState.rd .errLogCons 0).toNat < errRing twiceListedState := by
  decide +kernel

/-- The second entry bars the write from its port. -/
theorem twiceListedState_barred : portNow twiceListedState (errLogHeld twiceListedState pendingRecord) = none := by
  decide +kernel

/-- Raising the request replaces both entries by the first, which is free, and the port grants the write. -/
theorem twiceListedState_grants :
    (({ twiceListedState with errQ := [] } : State).service (errLogHeld twiceListedState pendingRecord)).held = [] := by
  decide +kernel

/-- Refutes O4: where the port's arbiter lists the admin processor twice, locked out in its second entry alone, no port takes the
write before the error-log writer asks for it, but raising its request drops the second entry, and the write is issued: the record
does not stay pending. No hypothesis keeps an arbiter from listing a requester twice. -/
theorem not_errorLogRecords : ¬ Obligations.ErrorLogRecords := by
  unfold Obligations.ErrorLogRecords
  rintro ⟨hwrite, -, -⟩
  obtain ⟨hruns, hen, hroom⟩ := twiceListedState_logs
  obtain ⟨hpending, -⟩ := hwrite twiceListedState pendingRecord [] _ rfl hruns hen hroom rfl rfl
  have hstays := hpending twiceListedState_barred
  rw [errorLogWrite_issued rfl hruns hen hroom twiceListedState_grants] at hstays
  have herr := congrArg State.errQ (Host.Outcome.next.inj hstays)
  obtain ⟨_, _, _, _, _, _, hports⟩ :=
    PortsOnly.service { twiceListedState with errQ := [] } (errLogHeld twiceListedState pendingRecord)
  rw [hports] at herr
  exact List.cons_ne_nil _ _ herr.symm

end Sys2Proof.Machine
end

section
/-! PROOFS. The event matrix: inputs, pulses, deferred edges and stuck lines (12 R374 to R392). -/

namespace Sys2Proof.Machine

/-! What EVM keeps of a line. -/

theorem lineOf_num (s : State) (l : Nat) : (lineOf s l).num = l := find_key Line.num l s.lines _ rfl

theorem lineOf_putLine (s : State) {x : Line} {l : Nat} (h : x.num = l) : lineOf (s.putLine x) l = x := by
  simp [lineOf, State.putLine, h]

theorem lineOf_putLine_ne (s : State) {x : Line} {l : Nat} (h : l ≠ x.num) : lineOf (s.putLine x) l = lineOf s l := by
  unfold lineOf State.putLine
  rw [find_put_ne Line.num x s.lines h]

theorem lineOf_congr {s t : State} (h : t.lines = s.lines) (l : Nat) : lineOf t l = lineOf s l := by
  rw [lineOf, lineOf, h]

/-- A line that EVM keeps in front of the others is routed where it was or is that line. -/
theorem routedLines_putLine {s : State} {x : Line} (h : x.num ∈ routedLines s) : routedLines (s.putLine x) = routedLines s := by
  have hl : ∀ l, (s.putLine x).lines.any (fun y => y.num == l) = (decide (x.num = l) || s.lines.any (fun y => y.num == l)) := by
    intro l
    rw [Bool.eq_iff_iff]
    simp only [State.putLine, List.any_cons, List.any_filter, Bool.or_eq_true, beq_iff_eq, List.any_eq_true, bne_iff_ne,
      Bool.and_eq_true, decide_eq_true_eq]
    grind
  unfold routedLines at h ⊢
  simp only [hl, List.mem_filter] at h ⊢
  obtain ⟨_, hx⟩ := h
  refine List.filter_congr fun l _ => ?_
  by_cases e : x.num = l
  · rw [← e, hx]
    simp
  · simp [e, State.putLine]

/-! Frames: lines, flags and gated timers follow the levels (R377, R392, R411). -/

/-- t is s but for the lines, what their levels set in the registers, and the timers. -/
def LinesOnly (s t : State) : Prop := ∃ m f l x, t = { s with regs := m, flagSets := f, lines := l, timers := x }

theorem LinesOnly.refl (s : State) : LinesOnly s s := ⟨_, _, _, _, rfl⟩

theorem LinesOnly.trans {s t u : State} (h : LinesOnly s t) (k : LinesOnly t u) : LinesOnly s u := by
  obtain ⟨_, _, _, _, rfl⟩ := h
  obtain ⟨_, _, _, _, rfl⟩ := k
  exact ⟨_, _, _, _, rfl⟩

theorem LinesOnly.foldl {α : Type} {f : State → α → State} (hf : ∀ t x, LinesOnly t (f t x)) (xs : List α) (s : State) :
    LinesOnly s (xs.foldl f s) := by
  induction xs generalizing s with
  | nil => exact LinesOnly.refl s
  | cons x xs ih => exact (hf s x).trans (ih _)

theorem State.lineFlag_frame (s : State) (l : Nat) (edge : Bool) : ∃ m, s.lineFlag l edge = { s with regs := m } := by
  unfold State.lineFlag
  split
  · exact ⟨_, rfl⟩
  · exact ⟨_, rfl⟩

theorem State.setWaitFlags_frame (s : State) (p : Nat → Bool) (fs : List Nat) :
    ∃ m f, fs.foldl (fun t k => if p k then t.setWaitFlag k else t) s = { s with regs := m, flagSets := f } := by
  induction fs generalizing s with
  | nil => exact ⟨_, _, rfl⟩
  | cons k fs ih =>
    rw [List.foldl_cons]
    by_cases h : p k = true
    · rw [if_pos h]
      obtain ⟨m, f, e⟩ := ih (s.setWaitFlag k)
      exact ⟨m, f, e⟩
    · rw [if_neg h]
      exact ih s

/-- The line at its new level. -/
def lineAt (s : State) (l : Nat) (v : Bool) : Line :=
  { lineOf s l with level := v, since := if v && !(lineOf s l).level then s.nomNs else (lineOf s l).since }

theorem State.lineLevel_frame (s : State) (l : Nat) (v : Bool) :
    ∃ m f, s.lineLevel l v = { s.putLine (lineAt s l v) with regs := m, flagSets := f } := by
  unfold State.lineLevel
  dsimp only
  rw [← lineAt]
  split
  · exact ⟨_, _, rfl⟩
  · obtain ⟨m, e⟩ := (s.putLine (lineAt s l v)).lineFlag_frame l false
    rw [e]
    split
    · exact State.setWaitFlags_frame _ _ _
    · exact ⟨_, _, rfl⟩

theorem LinesOnly.lineLevel (s : State) (l : Nat) (v : Bool) : LinesOnly s (s.lineLevel l v) := by
  obtain ⟨m, f, e⟩ := s.lineLevel_frame l v
  exact ⟨m, f, _, _, e⟩

theorem State.timerGate_frame (s : State) (k : Nat) (high : Bool) : ∃ x, s.timerGate k high = { s with timers := x } := by
  unfold State.timerGate
  dsimp only
  split
  · exact ⟨_, rfl⟩
  · split
    · exact ⟨_, rfl⟩
    · exact ⟨_, rfl⟩
    · exact ⟨_, rfl⟩

theorem State.gateTimers_frame (s : State) : ∃ x, s.gateTimers = { s with timers := x } := by
  unfold State.gateTimers
  generalize List.range 32 = ks
  induction ks generalizing s with
  | nil => exact ⟨_, rfl⟩
  | cons k ks ih =>
    rw [List.foldl_cons]
    split
    · obtain ⟨x, e⟩ := s.timerGate_frame k (timerHigh s k)
      obtain ⟨y, e'⟩ := ih (s.timerGate k (timerHigh s k))
      exact ⟨y, by rw [e', e]⟩
    · exact ih s

theorem LinesOnly.gateTimers (s : State) : LinesOnly s s.gateTimers := by
  obtain ⟨x, e⟩ := s.gateTimers_frame
  exact ⟨_, _, _, x, e⟩

/-! Levels that are taken anew. -/

/-- t is s but for pulses, source levels, and what follows them; what was held to be delivered still is. -/
structure LevelsTaken (s t : State) : Prop where
  frame : t = { s with heldPulses := t.heldPulses, srcLevels := t.srcLevels, pulseHigh := t.pulseHigh, flagSets := t.flagSets,
                       lines := t.lines, timers := t.timers, regs := t.regs }
  held : ∀ n, s.heldPulses.any (fun p => p.1 == n) = true → t.heldPulses.any (fun p => p.1 == n) = true

theorem LevelsTaken.refl (s : State) : LevelsTaken s s := ⟨rfl, fun _ h => h⟩

theorem LevelsTaken.trans {s t u : State} (h : LevelsTaken s t) (k : LevelsTaken t u) : LevelsTaken s u := by
  refine ⟨?_, fun n hn => k.held n (h.held n hn)⟩
  rw [k.frame, h.frame]

theorem LevelsTaken.lines {s t : State} (h : LinesOnly s t) : LevelsTaken s t := by
  obtain ⟨_, _, _, _, rfl⟩ := h
  exact ⟨rfl, fun _ h => h⟩

/-- A further pulse leaves a source with what it holds. -/
theorem State.pulse_keeps (s : State) (src hop n : Nat) (h : s.heldPulses.any (fun p => p.1 == n) = true) :
    (s.pulse src hop).heldPulses.any (fun p => p.1 == n) = true := by
  have hm : ∀ xs : List (Nat × Nat × Nat), xs.any (fun p => p.1 == n) = (xs.map (·.1)).any (· == n) := by
    intro xs
    simp [List.any_map, Function.comp_def]
  unfold State.pulse
  dsimp only
  split
  · rw [List.any_append, h, Bool.true_or]
  · rw [hm, mergePulse_sources, ← hm, h]

theorem LevelsTaken.pulses (s : State) (hop : Nat → Nat) (ns : List Nat) :
    LevelsTaken s (ns.foldl (fun t n => t.pulse n (hop n)) s) := by
  induction ns generalizing s with
  | nil => exact LevelsTaken.refl s
  | cons n ns ih => exact LevelsTaken.trans ⟨rfl, fun m => s.pulse_keeps n (hop n) m⟩ (ih _)

theorem LevelsTaken.refreshEvm (s : State) : LevelsTaken s s.refreshEvm := by
  unfold State.refreshEvm
  split
  · exact LevelsTaken.refl s
  · extract_lets high hop pulsed
    have h0 : LevelsTaken s { s with srcLevels := high, pulseHigh := [] } := ⟨rfl, fun _ h => h⟩
    have hp : LevelsTaken s pulsed := h0.trans (LevelsTaken.pulses _ hop _)
    exact hp.trans (LevelsTaken.lines
      ((LinesOnly.foldl (fun t l => LinesOnly.lineLevel t l _) (routedLines pulsed) pulsed).trans (LinesOnly.gateTimers _)))

/-! Edges and falls of inputs (R376, R473). -/

/-- The block once an input is high. -/
def State.inputHigh (s : State) (i : Nat) (hop : BitVec 3) : State := { s with evIn := (i, hop.toNat) :: s.evIn }

/-- EVM once it has taken an input's edge: a pulse of its source, and the levels anew. -/
def State.inputEdge (s : State) (i hop : Nat) : State :=
  ({ s.pulse (256 + i) hop with srcLevels := (256 + i) :: s.srcLevels } : State).refreshEvm

theorem execEvInEdge_eq {s : State} {i : Nat} (hop : BitVec 3) (hi : i < 256) (hlow : s.evIn.any (fun e => e.1 == i) = false) :
    exec (.evInEdge i hop) s =
      (let t := if [0, 1].any (fun k => wakeEn s k && decide (s.fld .pwrWakeCtl 0 (9 * k) 8 = i)) then (s.inputHigh i hop).wakeBy 0
        else s.inputHigh i hop
       .next (if evmOn t then t.inputEdge i hop.toNat else t)) := by
  show execEvInEdge i hop s = _
  unfold execEvInEdge
  rw [if_neg (by omega), if_neg (by simp [hlow])]
  exact (apply_ite Host.Outcome.next _ _ _).symm

/-- Outside REST, or with no wake source enabled, an edge wakes nothing. -/
theorem evInEdge_takes {s : State} {i : Nat} (hop : BitVec 3) (hi : i < 256) (hlow : s.evIn.any (fun e => e.1 == i) = false)
    (h : s.mode ≠ .rest ∧ s.restEnter ≠ 2 ∨ wakeEn s 0 = false ∧ wakeEn s 1 = false) :
    exec (.evInEdge i hop) s = .next (if evmOn s then (s.inputHigh i hop).inputEdge i hop.toNat else s.inputHigh i hop) := by
  rw [execEvInEdge_eq hop hi hlow]
  have hw : (if [0, 1].any (fun k => wakeEn s k && decide (s.fld .pwrWakeCtl 0 (9 * k) 8 = i)) then (s.inputHigh i hop).wakeBy 0
      else s.inputHigh i hop) = s.inputHigh i hop := by
    rcases h with ⟨hm, hr⟩ | ⟨h0, h1⟩
    · have hb : (s.inputHigh i hop).wakeBy 0 = s.inputHigh i hop := by
        unfold State.wakeBy
        simp [State.inputHigh, hm, hr]
      rw [hb, ite_self]
    · simp [h0, h1]
  rw [hw]
  rfl

theorem State.inputEdge_taken (s : State) (i hop : Nat) :
    LevelsTaken { s.pulse (256 + i) hop with srcLevels := (256 + i) :: s.srcLevels } (s.inputEdge i hop) := LevelsTaken.refreshEvm _

/-- The input's source holds its pulse. -/
theorem State.inputEdge_held (s : State) (i hop : Nat) : (s.inputEdge i hop).heldPulses.any (fun p => p.1 == 256 + i) = true :=
  (s.inputEdge_taken i hop).held _ (s.pulse_held (256 + i) hop)

theorem State.inputEdge_frame (s : State) (i hop : Nat) : s.inputEdge i hop =
    { s with heldPulses := (s.inputEdge i hop).heldPulses, srcLevels := (s.inputEdge i hop).srcLevels,
             pulseHigh := (s.inputEdge i hop).pulseHigh, flagSets := (s.inputEdge i hop).flagSets, lines := (s.inputEdge i hop).lines,
             timers := (s.inputEdge i hop).timers, regs := (s.inputEdge i hop).regs } := (s.inputEdge_taken i hop).frame

/-- On an enabled wake source's input an edge wakes the block in REST. -/
theorem evInEdge_wakes {s : State} {i k : Nat} (hop : BitVec 3) (hi : i < 256) (hlow : s.evIn.any (fun e => e.1 == i) = false)
    (ha : awake s) (hm : s.mode = .rest) (hr : s.restEnter ≠ 2) (hn : s.wakeAt = none) (hk : k < 2) (hen : wakeEn s k = true)
    (hsrc : s.fld .pwrWakeCtl 0 (9 * k) 8 = i) (hoff : evmOn ((s.inputHigh i hop).startWake 0) = false) :
    exec (.evInEdge i hop) s = .next ((s.inputHigh i hop).startWake 0) := by
  obtain ⟨hf, hrst⟩ := ha
  have hany : [0, 1].any (fun k => wakeEn s k && decide (s.fld .pwrWakeCtl 0 (9 * k) 8 = i)) = true :=
    List.any_eq_true.mpr ⟨k, by simp; omega, by rw [hen, hsrc]; simp⟩
  have hw : (s.inputHigh i hop).wakeBy 0 = (s.inputHigh i hop).startWake 0 := by
    have hr' : (s.inputHigh i hop).restEnter ≠ 2 := hr
    have hm' : (s.inputHigh i hop).mode = .rest ∧ (s.inputHigh i hop).wakeAt = none := ⟨hm, hn⟩
    have ha' : ((s.inputHigh i hop).fatal || !(s.inputHigh i hop).rstN) = false := by simp [State.inputHigh, hf, hrst]
    rw [State.wakeBy, ha', if_neg (by decide), if_neg hr', if_pos hm']
  rw [execEvInEdge_eq hop hi hlow, if_pos hany, hw]
  dsimp only
  rw [hoff]
  rfl

/-! Deferred edges (R381, R388). -/

/-- Edges that all fall due in the cycle in course are left for it. -/
theorem State.settleDue_now {s : State} (h : ∀ x ∈ dueLines s, evmCycle s x.window = evmCycle s s.nomNs) (n : Nat) :
    s.settleDue n = s := by
  cases n with
  | zero => rfl
  | succ n =>
    unfold State.settleDue
    cases e : leastBy (fun x => x.window) (dueLines s) with
    | none => rfl
    | some x =>
      dsimp only
      rw [if_pos (h x (leastBy_some e).1)]

/-- Edges that all fall due in cycle c, of lines not masked, are delivered in it, and open their lines' windows anew. -/
theorem State.takeDue_all {s : State} {c : Nat} (hc : ∀ x ∈ dueLines s, evmCycle s x.window = c)
    (hm : ∀ x ∈ dueLines s, x.masked = false) :
    s.takeDue c = ((dueLines s).foldl (fun t x => t.openWindow x.num x.window) s,
      (dueLines s).map (fun x => (x.num, x.defer.getD 0))) := by
  unfold State.takeDue
  have hf : (dueLines s).filter (fun x => evmCycle s x.window == c) = dueLines s :=
    List.filter_eq_self.mpr fun x hx => by simp [hc x hx]
  have hn : (dueLines s).filter (fun x => !x.masked) = dueLines s := List.filter_eq_self.mpr fun x hx => by simp [hm x hx]
  dsimp only
  rw [hf, hn]
  congr 1
  refine List.foldl_ext _ _ _ fun t x hx => ?_
  rw [hm x hx, if_neg (by decide)]

theorem State.takeDue_none {s : State} (h : dueLines s = []) (c : Nat) : s.takeDue c = (s, []) := by
  rw [State.takeDue_all (by simp [h]) (by simp [h]), h]
  rfl

/-- A line among those due has them all delivered with its edge. -/
theorem rateMergedEdge_delivers {s : State} {l : Nat} (hl : l < 256) (hon : evmOn s = true) (hd : ∃ x ∈ dueLines s, x.num = l)
    (hc : ∀ x ∈ dueLines s, evmCycle s x.window = evmCycle s s.nomNs) (hm : ∀ x ∈ dueLines s, x.masked = false) :
    exec (.rateMergedEdge l) s = .next (((dueLines s).foldl (fun t x => t.openWindow x.num x.window) s).deliverEdges
      ((dueLines s).map (fun x => (x.num, x.defer.getD 0)))) := by
  show execRateMergedEdge l s = _
  unfold execRateMergedEdge
  rw [if_neg (by omega), if_pos (by simpa [hon] using hd)]
  dsimp only
  rw [State.settleDue_now hc, State.takeDue_all hc hm]

theorem lineOf_openWindow (s : State) (l t : Nat) :
    lineOf (s.openWindow l t) l = { lineOf s l with window := t + minGap s * evmCycleNs s, defer := none } :=
  lineOf_putLine s (lineOf_num s l)

/-! Pulses that lines take (R374, R375, R377). -/

/-- A counter that takes k more. -/
theorem is3_countLine (s : State) (w k : Nat) (h : s.is3.wf = true) :
    (s.countLine w k).is3.get w = s.is3.get w + BitVec.ofNat 32 k ∧ (s.countLine w k).is3.wf = true ∧
      ∀ x, x ≠ w → (s.countLine w k).is3.get x = s.is3.get x := by
  refine ⟨?_, WordMap.wf_put _ _ _ h, fun x hx => WordMap.get_put_other _ _ _ _ hx⟩
  refine (WordMap.get_put_same _ 0 _ _ h).trans (BitVec.eq_of_toNat_eq ?_)
  simp

/-- Line l once it has taken one pulse: it has counted the pulse, and none that was merged into another. -/
def State.pulseCounted (s : State) (l : Nat) : State := (s.countLine (8 * l) 1).countLine (8 * l + 2) 0

theorem State.pulseCounted_count (s : State) (l : Nat) (h : s.is3.wf = true) :
    (s.pulseCounted l).is3.get (8 * l) = s.is3.get (8 * l) + 1 := by
  obtain ⟨hg, hw, _⟩ := is3_countLine s (8 * l) 1 h
  exact ((is3_countLine _ (8 * l + 2) 0 hw).2.2 _ (by omega)).trans hg

/-- A line that is not masked, in no window, takes one pulse of few hops: its edge is delivered now. -/
theorem State.lineEdge_now {s : State} {l h : Nat} (hm : (lineOf s l).masked = false) (hw : (lineOf s l).window ≤ s.nomNs)
    (hg : minGap s = 0) (hh : h < 6) : s.lineEdge l 1 0 h = (s.pulseCounted l, true) := by
  have hx : lineOf (s.pulseCounted l) l = lineOf s l := rfl
  have hg' : minGap (s.pulseCounted l) = 0 := hg
  have hn : (s.pulseCounted l).nomNs = s.nomNs := rfl
  unfold State.lineEdge
  dsimp only
  rw [show (s.countLine (8 * l) (1 + 0)).countLine (8 * l + 2) (1 - 1 + 0) = s.pulseCounted l from rfl, hx, hm, if_neg (by decide),
    if_neg (by omega), hn, if_neg (by omega), if_pos hg']

/-- The state in which source n's pulse has been taken, and shows its level where it has no other. -/
def State.pulseShown (s : State) (n : Nat) : State := ({ s with heldPulses := [] } : State).pulseLevels ([n].filter pulseOnly)

/-- The lines that a source feeds, of which l is the only one routed, are high in its pulse cycle. -/
theorem State.pulseShown_level {s : State} {n l : Nat} (hr : routedLines s = [l]) (hf : feeds s.evm n l = true) (hp : pulseOnly n = true) :
    ∃ m f x, s.pulseShown n =
      { s.putLine (lineAt s l true) with heldPulses := [], pulseHigh := [n], regs := m, flagSets := f, timers := x } := by
  unfold State.pulseShown State.pulseLevels
  rw [List.filter_cons_of_pos hp, List.filter_nil, if_neg (by simp)]
  have hl : (routedLines ({ s with heldPulses := [] } : State)).filter
      (fun k => [n].any (fun n => feeds ({ s with heldPulses := [] } : State).evm n k)) = [l] := by
    rw [show routedLines ({ s with heldPulses := [] } : State) = [l] from hr]
    simp [hf]
  rw [hl, List.foldl_cons, List.foldl_nil]
  obtain ⟨m, f, e⟩ := ({ s with heldPulses := [], pulseHigh := [n] } : State).lineLevel_frame l true
  obtain ⟨x, e'⟩ := (({ s with heldPulses := [], pulseHigh := [n] } : State).lineLevel l true).gateTimers_frame
  refine ⟨m, f, x, ?_⟩
  rw [e', e]
  rfl

theorem State.pulseShown_plain {n : Nat} (s : State) (hp : pulseOnly n = false) : s.pulseShown n = { s with heldPulses := [] } := by
  unfold State.pulseShown State.pulseLevels
  rw [List.filter_cons_of_neg (by simp [hp]), List.filter_nil, if_pos rfl]

/-- What the pulse cycle leaves of line l, and of everything else. -/
theorem State.pulseShown_spec {s : State} {n l : Nat} (hr : routedLines s = [l]) (hf : feeds s.evm n l = true) :
    (∃ b m f x y, s.pulseShown n = { s with heldPulses := [], pulseHigh := b, regs := m, flagSets := f, timers := x, lines := y }) ∧
      routedLines (s.pulseShown n) = [l] ∧
      lineOf (s.pulseShown n) l = (if pulseOnly n then lineAt s l true else lineOf s l) := by
  cases hp : pulseOnly n with
  | false =>
    rw [s.pulseShown_plain hp]
    exact ⟨⟨_, _, _, _, _, rfl⟩, hr, rfl⟩
  | true =>
    obtain ⟨m, f, x, e⟩ := State.pulseShown_level hr hf hp
    rw [e]
    have hn : (lineAt s l true).num = l := lineOf_num s l
    refine ⟨⟨_, _, _, _, _, rfl⟩, ?_, lineOf_putLine s hn⟩
    exact (routedLines_putLine (by rw [hn, hr]; simp)).trans hr

/-- Among edges in order of their lines the one of line l stands alone. -/
theorem edgesInOrder_single (l e n : Nat) :
    (List.range n).flatMap (fun k => [(l, e)].filter (fun x => x.1 == k)) = if l < n then [(l, e)] else [] := by
  induction n with
  | zero => rfl
  | succ n ih =>
    rw [List.range_succ, List.flatMap_append, ih, List.flatMap_singleton]
    rcases Nat.lt_trichotomy l n with h | rfl | h
    · rw [if_pos h, if_pos (by omega), List.filter_cons_of_neg (by simp; omega)]
      rfl
    · simp
    · rw [if_neg (by omega), if_neg (by omega), List.filter_cons_of_neg (by simp; omega)]
      rfl

theorem State.takePulses_only {s : State} {n k h : Nat} (hp : s.heldPulses = [(n, k, h)]) :
    s.takePulses [n] = { s with heldPulses := [] } := by
  unfold State.takePulses
  rw [hp]
  simp

theorem heldOf_only {s : State} {n k h : Nat} (hp : s.heldPulses = [(n, k, h)]) : heldOf s [n] = [(n, k, h)] := by
  unfold heldOf
  rw [hp]
  simp

/-- The one pulse held, of a source that reaches one synchronous line, makes that line's edge. -/
theorem evmSourcePulse_one {s : State} {n l h : Nat} (hn : n < 512) (hl : l < 256) (hon : evmOn s = true) (hs : s.refreshEvm = s)
    (hp : s.heldPulses = [(n, 1, h)]) (hh : h < 6) (hr : routedLines s = [l]) (hdir : lineDirect s.evm l = false)
    (hf : feeds s.evm n l = true) (hm : (lineOf s l).masked = false) (hd : dueLines s = [])
    (hw : (lineOf s l).window ≤ s.nomNs) (hg : minGap s = 0) :
    exec (.evmSourcePulse [n]) s = .next (((s.pulseShown n).pulseCounted l).deliverEdges [(l, 1 + h)]) := by
  obtain ⟨⟨b, m, f, x, y, e⟩, hr', hline⟩ := State.pulseShown_spec hr hf
  have hone : (lineOf (s.pulseShown n) l).masked = false ∧ (lineOf (s.pulseShown n) l).window ≤ (s.pulseShown n).nomNs := by
    rw [hline, e]
    split
    · exact ⟨hm, hw⟩
    · exact ⟨hm, hw⟩
  have hedge : (s.pulseShown n).lineEdge l 1 0 h = ((s.pulseShown n).pulseCounted l, true) :=
    State.lineEdge_now hone.1 hone.2 (by rw [e]; exact hg) hh
  have hmine : [(n, 1, h)].filter (fun p => feeds s.evm p.1 l) = [(n, 1, h)] := List.filter_cons_of_pos (by simpa using hf)
  show execEvmSourcePulse [n] s = _
  unfold execEvmSourcePulse
  rw [if_neg (by simp; omega), hon, if_neg (by decide), hs, State.settleDue_now (by simp [hd])]
  dsimp only
  rw [State.takeDue_none hd]
  dsimp only
  rw [heldOf_only hp, State.takePulses_only hp, List.map_cons, List.map_nil, ← State.pulseShown, hr', List.foldl_cons, List.foldl_nil,
    if_neg (by simp [hdir]), hmine, if_neg (by simp)]
  simp only [List.foldl_cons, List.foldl_nil, List.map_cons, List.map_nil, List.sum_cons, List.sum_nil, List.length_cons, List.length_nil,
    Nat.zero_add, Nat.sub_self, Nat.zero_max, hedge, List.nil_append]
  rw [edgesInOrder_single, if_pos hl, Nat.min_eq_right (by omega)]

/-! Stuck lines (R389). -/

theorem State.logErr_lines (s : State) (e : ErrRec) : (s.logErr e).lines = s.lines := by
  obtain ⟨_, _, h⟩ := s.logErr_frame e
  rw [h]

theorem stuckCeil_masks {s : State} {l : Nat} (hl : l < 256) (hon : evmOn s = true) (hs : s.refreshEvm = s)
    (hlevel : (lineOf s l).level = true) (hm : (lineOf s l).masked = false) (hd : (lineOf s l).since + stuckNs s l ≤ s.nomNs) :
    exec (.stuckCeil l) s = .next ((s.putLine { lineOf s l with masked := true }).logErr
      (mkErr 2 21 0x1F (lineCtl s.evm l % 4096) 0 63 0 0 l (lineCtl s.evm l % 4096))).refreshEvm := by
  show execStuckCeil l s = _
  unfold execStuckCeil
  rw [if_neg (by omega), hs]
  dsimp only
  rw [if_pos (by simp [hon, hlevel, hm, hd])]

/-- Settles O7: levels, pulses and deferred edges each change what `LevelsTaken`, `pulseShown` and `takeDue` say, and nothing else. -/
theorem eventInputs : Obligations.EventInputs := by
  unfold Obligations.EventInputs
  refine ⟨?_, ?_, ?_, ?_, ?_, ?_, ?_⟩
  · intro s i hop hi hlow hrest
    refine ⟨_, evInEdge_takes hop hi hlow hrest, ?_⟩
    cases hon : evmOn s with
    | false => exact ⟨rfl, nofun, fun _ => rfl, rfl⟩
    | true =>
      rw [if_pos rfl]
      have hframe := (s.inputHigh i hop).inputEdge_frame i hop.toNat
      refine ⟨?_, fun _ => State.inputEdge_held _ i _, nofun, ?_⟩
      · rw [hframe]
        rfl
      · generalize (s.inputHigh i hop).inputEdge i hop.toNat = t at hframe ⊢
        rw [hframe]
        rfl
  · intro s i k hop hi hlow ha hm hr hn hk hen hsrc _ hoff
    exact evInEdge_wakes hop hi hlow ha hm hr hn hk hen hsrc hoff
  · intro s i hi
    have hframe := (LevelsTaken.refreshEvm { s with evIn := s.evIn.filter (fun e => e.1 != i) }).frame
    refine ⟨_, if_neg (by omega), ?_, ?_⟩
    · rw [hframe]
    · generalize State.refreshEvm { s with evIn := s.evIn.filter (fun e => e.1 != i) } = t at hframe ⊢
      rw [hframe]
  · intro s n l h hn hl hon hs hp hh hr hdir hf hm hd hw hg hwf
    obtain ⟨⟨b, m, f, x, y, e⟩, _, hline⟩ := State.pulseShown_spec hr hf
    refine ⟨_, evmSourcePulse_one hn hl hon hs hp hh hr hdir hf hm hd hw hg, ?_, ?_, ?_, fun hpo => ?_⟩
    · rw [e]
      rfl
    · rw [State.pulseCounted_count _ _ (by rw [e]; exact hwf), e]
    · refine (congrArg Line.level hline).trans ?_
      cases pulseOnly n with
      | false => exact (Bool.or_false _).symm
      | true => exact (Bool.or_true _).symm
    · rw [s.pulseShown_plain hpo]
      rfl
  · intro s l h hl hon hdef hd hc hm
    have hx : ∀ x ∈ dueLines s, x = lineOf s l := by simp [hd]
    refine ⟨?_, ?_, ?_⟩
    · rw [rateMergedEdge_delivers hl hon ⟨_, by simp [hd], lineOf_num s l⟩ (fun x h => by rw [hx x h, hc])
        (fun x h => by rw [hx x h, hm]), hd]
      simp [lineOf_num, hdef]
    · rw [lineOf_openWindow]
    · rw [lineOf_openWindow]
  · intro s l m h g hlm hm256 hon hdl hdm hd hml hmm hcl hcm
    have hx : ∀ x ∈ dueLines s, x = lineOf s l ∨ x = lineOf s m := by simp [hd]
    have hc : ∀ x ∈ dueLines s, evmCycle s x.window = evmCycle s s.nomNs := by
      intro x h
      rcases hx x h with rfl | rfl
      · exact hcl
      · exact hcm
    have hk : ∀ x ∈ dueLines s, x.masked = false := by
      intro x h
      rcases hx x h with rfl | rfl
      · exact hml
      · exact hmm
    have hedges : (dueLines s).map (fun x => (x.num, x.defer.getD 0)) = [(l, h), (m, g)] := by simp [hd, lineOf_num, hdl, hdm]
    refine ⟨(dueLines s).foldl (fun t x => t.openWindow x.num x.window) s, ?_, ?_, ?_⟩
    · rw [rateMergedEdge_delivers (by omega) hon ⟨lineOf s l, by simp [hd], lineOf_num s l⟩ hc hk, hedges]
    · rw [rateMergedEdge_delivers hm256 hon ⟨lineOf s m, by simp [hd], lineOf_num s m⟩ hc hk, hedges]
    · rw [hd]
      rfl
  · intro s l hl hon hs hlevel hm hd
    refine ⟨_, stuckCeil_masks hl hon hs hlevel hm hd, ?_, rfl⟩
    rw [lineOf_congr (State.logErr_lines _ _)]
    exact congrArg Line.masked (lineOf_putLine s (x := { lineOf s l with masked := true }) (lineOf_num s l))

end Sys2Proof.Machine
end

section
/-! PROOFS. The test unit: generators and checkers, and what an MBIST run leaves (19 R551 to R558). -/

namespace Sys2Proof.Machine

/-! A unit's requests (19 R555). -/

theorem tunitOf_num (s : State) (u : Nat) : (tunitOf s u).num = u := find_key TUnit.num u s.tunits _ rfl

theorem tunitOf_put {s : State} {t : TUnit} {u : Nat} (h : t.num = u) (r : List TUnit) (hs : s.tunits = t :: r) : tunitOf s u = t := by
  simp [tunitOf, hs, h]

/-- Outside TEST, of a link, or in the mode that turns patterns back at its port, a unit makes no request. -/
theorem State.testGo_idle {s : State} {u : Nat} (h : s.mode ≠ .test ∨ 16 ≤ u ∨ unitMode s u = 1) : s.testGo u = s := by
  unfold State.testGo
  split
  case isTrue => rfl
  case isFalse hgo =>
    have h1 : unitMode s u = 1 := by
      rcases h with h | h | h
      · simp [unitRuns, h] at hgo
      · simp [h] at hgo
      · exact h
    simp [h1]

theorem RegsBut.putTunit {offs : List Nat} (s : State) (t : TUnit) : RegsBut offs s (s.putTunit t) := RegsBut.of_regs rfl

theorem RegsBut.testWrite (s : State) (t : TUnit) : RegsBut [Reg.tstUnitCtl.addr t.num] s (s.testWrite t) := by
  unfold State.testWrite
  split
  exact ((RegsBut.putTunit s _).trans (RegsBut.setFld (r := .tstUnitCtl) (i := t.num) (by simp) 7 1 0)).trans
    (RegsBut.ports (PortsOnly.service _ _))

/-- Of the registers, a unit's next request clears INJ alone. -/
theorem RegsBut.testGo (s : State) (u : Nat) : RegsBut [Reg.tstUnitCtl.addr u] s (s.testGo u) := by
  have hw : RegsBut [Reg.tstUnitCtl.addr u] s (s.testWrite (tunitOf s u)) := by
    have h := RegsBut.testWrite s (tunitOf s u)
    rwa [tunitOf_num] at h
  have hr : ∀ h, RegsBut [Reg.tstUnitCtl.addr u] s ((s.putTunit (tunitOf s u)).service h) := fun h =>
    (RegsBut.putTunit s _).trans (RegsBut.ports (PortsOnly.service _ h))
  unfold State.testGo
  dsimp only
  split
  · exact RegsBut.of_regs rfl
  · split
    · split
      · exact hw
      · exact hr _
    · split
      · exact hw
      · split
        · exact hr _
        · exact RegsBut.of_regs rfl

/-! Units that start and stop (19 R554). -/

/-- The control and status of a unit. -/
def unitRegs (u : Nat) : List Nat := [Reg.tstUnitCtl.addr u, Reg.tstUnitStat.addr u]

theorem tstUnitStat_other {k u : Nat} (hk : k < 19) (hu : u < 19) (h : k ≠ u) : Reg.tstUnitStat.addr k ∉ unitRegs u := by
  simp [unitRegs, Reg.addr, Reg.clustered, Reg.at, Reg.tstUnitStat, Reg.tstUnitCtl]
  omega

theorem tstCtl_other {u : Nat} : Reg.tstCtl.addr 0 ∉ unitRegs u := by
  simp [unitRegs, Reg.addr, Reg.clustered, Reg.at, Reg.tstUnitStat, Reg.tstUnitCtl, Reg.tstCtl]
  omega

theorem State.bit_setSync {s : State} (hw : s.regs.wf = true) (u : Nat) (v : Bool) :
    bit ((s.setSync u v).rd .tstUnitStat u) 0 = v := by
  rw [State.setSync, State.rd_setFld _ _ _ _ _ _ hw, bit_withBits_one _ _ _ (by decide)]

theorem RegsBut.setSync (s : State) (u : Nat) (v : Bool) : RegsBut (unitRegs u) s (s.setSync u v) :=
  RegsBut.setFld (r := .tstUnitStat) (i := u) (by simp [unitRegs]) _ _ _

theorem RegsBut.unitStart (s : State) (u : Nat) : RegsBut (unitRegs u) s (s.unitStart u) := by
  unfold State.unitStart
  exact ((RegsBut.putTunit s _).trans (RegsBut.setSync _ u _)).trans ((RegsBut.testGo _ u).mono (by simp [unitRegs]))

/-- A link unit starts out of SYNC. -/
theorem State.unitStart_link {s : State} (hw : s.regs.wf = true) {u : Nat} (h16 : 16 ≤ u) (hu : u < 19) :
    bit ((s.unitStart u).rd .tstUnitStat u) 0 = false := by
  unfold State.unitStart
  dsimp only
  rw [State.testGo_idle (.inr (.inl h16)), State.bit_setSync (by exact hw)]
  simp [show ¬ u < 16 by omega]

/-- Steps of the units in turn, each of its own registers, of which those that p picks leave SYNC clear. -/
theorem unitsInTurn {f : State → Nat → State} {p : Nat → Prop} (hf : ∀ t u, RegsBut (unitRegs u) t (f t u))
    (hb : ∀ t u, t.regs.wf = true → u < 19 → p u → bit ((f t u).rd .tstUnitStat u) 0 = false) {s : State} (hw : s.regs.wf = true)
    {n : Nat} (hn : n ≤ 19) :
    let t := (List.range n).foldl f s
    t.regs.wf = true ∧ t.rd .tstCtl 0 = s.rd .tstCtl 0 ∧ ∀ k, k < n → p k → bit (t.rd .tstUnitStat k) 0 = false := by
  dsimp only
  induction n with
  | zero => exact ⟨hw, rfl, by omega⟩
  | succ n ih =>
    obtain ⟨hwt, hct, hst⟩ := ih (by omega)
    rw [List.range_succ, List.foldl_append, List.foldl_cons, List.foldl_nil]
    generalize (List.range n).foldl f s = t at hwt hct hst ⊢
    refine ⟨(hf t n).wf hwt, ((hf t n).rd _ _ tstCtl_other).trans hct, fun k hk hp => ?_⟩
    by_cases e : k = n
    · subst e
      exact hb t k hwt (by omega) hp
    · rw [(hf t n).rd _ _ (tstUnitStat_other (by omega) (by omega) e)]
      exact hst k (by omega) hp

theorem setSyncs_frame (us : List Nat) (s : State) : ∃ m, us.foldl (fun t u => t.setSync u false) s = { s with regs := m } := by
  induction us generalizing s with
  | nil => exact ⟨_, rfl⟩
  | cons u us ih =>
    obtain ⟨m, e⟩ := ih (s.setSync u false)
    exact ⟨m, e⟩

theorem RegsBut.unitRestart (s : State) (u : Nat) : RegsBut (unitRegs u) s ((s.setSync u false).unitStart u) :=
  (RegsBut.setSync s u false).trans (RegsBut.unitStart _ u)

/-- RUN rises: the link units are out of SYNC. -/
theorem State.runWritten_rises {s : State} (hw : s.regs.wf = true) {old new : W32} (hn : bit new 0 = true) (ho : bit old 0 = false) :
    (s.runWritten old new).rd .tstCtl 0 = s.rd .tstCtl 0 ∧
      ∀ k, 16 ≤ k → k < 19 → bit ((s.runWritten old new).rd .tstUnitStat k) 0 = false := by
  unfold State.runWritten
  rw [hn, ho, if_pos (show (true && !false) = true from rfl)]
  obtain ⟨_, hc, hb⟩ := unitsInTurn (p := fun u => 16 ≤ u) RegsBut.unitRestart
    (fun t u ht hu h16 => State.unitStart_link ((RegsBut.setSync t u false).wf ht) h16 hu) hw (Nat.le_refl 19)
  exact ⟨hc, fun k h16 hk => hb k hk h16⟩

/-- RUN falls: the port units are out of SYNC, and nothing but the registers changes. -/
theorem State.runWritten_falls {s : State} (hw : s.regs.wf = true) {old new : W32} (hn : bit new 0 = false) (ho : bit old 0 = true) :
    (∃ m, s.runWritten old new = { s with regs := m }) ∧ (s.runWritten old new).rd .tstCtl 0 = s.rd .tstCtl 0 ∧
      ∀ k, k < 16 → bit ((s.runWritten old new).rd .tstUnitStat k) 0 = false := by
  unfold State.runWritten
  rw [hn, ho, if_neg (by decide), if_pos (show (true && !false) = true from rfl)]
  obtain ⟨_, hc, hb⟩ := unitsInTurn (p := fun _ => True) (fun t u => RegsBut.setSync t u false)
    (fun t u ht _ _ => State.bit_setSync ht u false) hw (show 16 ≤ 19 by decide)
  exact ⟨setSyncs_frame _ s, hc, fun k hk => hb k hk trivial⟩

/-- RUN as it was: nothing changes. -/
theorem State.runWritten_same (s : State) {old new : W32} (h : bit new 0 = bit old 0) : s.runWritten old new = s := by
  unfold State.runWritten
  rw [h, Bool.and_not_self, if_neg (by decide), if_neg (by decide)]

/-- RUN itself stays as written. -/
theorem State.runWritten_tstCtl {s : State} (hw : s.regs.wf = true) (old new : W32) :
    (s.runWritten old new).rd .tstCtl 0 = s.rd .tstCtl 0 := by
  cases hn : bit new 0 with
  | false =>
    cases ho : bit old 0 with
    | false => rw [State.runWritten_same s (hn.trans ho.symm)]
    | true => exact (State.runWritten_falls hw hn ho).2.1
  | true =>
    cases ho : bit old 0 with
    | false => exact (State.runWritten_rises hw hn ho).1
    | true => rw [State.runWritten_same s (hn.trans ho.symm)]

/-! Patterns turned back at a port (19 R554, R555). -/

theorem prbsBytes_length (sel n : Nat) (r : BitVec 31) : (prbsBytes sel n r).1.length = n := by
  induction n generalizing r with
  | zero => rfl
  | succ n ih => exact congrArg (· + 1) (ih _)

theorem bitErrors_self (bs : List Byte) : bitErrors bs bs = 0 := by
  induction bs with
  | nil => rfl
  | cons b bs ih =>
    rw [bitErrors, ih, BitVec.xor_self]
    decide

/-- A beat with its injected error differs in the one bit. -/
theorem bitErrors_injectBit {bs : List Byte} (h : bs ≠ []) : bitErrors (injectBit bs) bs = 1 := by
  cases bs with
  | nil => exact absurd rfl h
  | cons b bs =>
    have hb : (b ^^^ 1) ^^^ b = 1 := by rw [BitVec.xor_comm b, BitVec.xor_assoc, BitVec.xor_self, BitVec.xor_zero]
    rw [injectBit, bitErrors, bitErrors_self, hb]
    decide

theorem bitErrors_beat (inj : Bool) {bs : List Byte} (h : bs ≠ []) : bitErrors (if inj then injectBit bs else bs) bs = flag inj := by
  cases inj with
  | false => exact bitErrors_self bs
  | true => exact bitErrors_injectBit h

/-- The generator of unit u after its next n bytes. -/
def nextGen (s : State) (u n : Nat) : BitVec 31 := (prbsBytes (unitPrbs s u) n (tunitOf s u).gen).2

/-- The block once unit u has generated a beat: its generator has moved on, and INJ is clear. -/
def State.beatGenerated (s : State) (u n : Nat) : State :=
  (s.putTunit { tunitOf s u with gen := nextGen s u n }).setFld .tstUnitCtl u 7 1 0

theorem State.genBeat_eq (s : State) (u n : Nat) : s.genBeat u n = (s.beatGenerated u n,
    if bit (s.rd .tstUnitCtl u) 7 then injectBit (prbsBytes (unitPrbs s u) n (tunitOf s u).gen).1
    else (prbsBytes (unitPrbs s u) n (tunitOf s u).gen).1) := rfl

theorem tunitOf_beatGenerated (s : State) (u n : Nat) : tunitOf (s.beatGenerated u n) u = { tunitOf s u with gen := nextGen s u n } :=
  tunitOf_put (tunitOf_num s u) _ rfl

/-- The beat that a port unit turns back to its own checker, which counts the injected error. -/
theorem State.portLoop_eq {s : State} {i : Nat} (hr : unitRuns s i = true) (hm : unitMode s i = 1) (hg : unitGen s i = true)
    (hc : unitChk s i = true) (he : (tunitOf s i).gen = (tunitOf s i).chk) :
    s.portLoop i = ((s.beatGenerated i 64).unitErrors i (flag (bit (s.rd .tstUnitCtl i) 7))).putTunit
      { tunitOf s i with gen := nextGen s i 64, chk := nextGen s i 64 } := by
  have hb : (prbsBytes (unitPrbs s i) 64 (tunitOf s i).gen).1 ≠ [] := by
    intro h
    have hl := prbsBytes_length (unitPrbs s i) 64 (tunitOf s i).gen
    rw [h] at hl
    cases hl
  have hbeat := bitErrors_beat (bit (s.rd .tstUnitCtl i) 7) hb
  unfold State.portLoop
  rw [if_neg (by simp [hr, hm, hg]), State.genBeat_eq]
  dsimp only
  rw [if_neg (by simp [hc]), tunitOf_beatGenerated]
  dsimp only
  rw [← he, hbeat, nextGen]

theorem State.unitErrors_counts {s : State} {u : Nat} (h : s.suspect.contains 26 = false) (n : Nat) :
    s.unitErrors u n = s.bumpSat .tstUnitErrs u 0 32 n := by
  rw [State.unitErrors, h]
  rfl

theorem State.fld_word (s : State) (r : Reg) (i : Nat) : s.fld r i 0 32 = (s.rd r i).toNat := by
  unfold State.fld bits
  rw [Nat.pow_zero, Nat.div_one, Nat.mod_eq_of_lt (s.rd r i).isLt]

theorem State.rd_bumpSat_word {s : State} (hw : s.regs.wf = true) (r : Reg) (i n : Nat) :
    ((s.bumpSat r i 0 32 n).rd r i).toNat = min (2 ^ 32 - 1) ((s.rd r i).toNat + n) := by
  rw [← State.fld_word, State.bumpSat, State.fld_setFld _ _ _ _ _ _ hw (by decide), State.fld_word]
  omega

theorem State.unitErrors_frame (s : State) (u n : Nat) : ∃ m, s.unitErrors u n = { s with regs := m } := by
  unfold State.unitErrors
  split
  · exact ⟨_, rfl⟩
  · exact ⟨_, rfl⟩

theorem RegsBut.unitErrors (s : State) (u n : Nat) : RegsBut [Reg.tstUnitErrs.addr u] s (s.unitErrors u n) := by
  unfold State.unitErrors
  split
  · exact RegsBut.of_regs rfl
  · exact RegsBut.setFld (r := .tstUnitErrs) (i := u) (by simp) _ _ _

theorem tstUnitErrs_apart (i : Nat) : Reg.tstUnitErrs.addr i ∉ unitRegs i ∧ Reg.tstUnitCtl.addr i ∉ [Reg.tstUnitErrs.addr i] := by
  simp [unitRegs, Reg.addr, Reg.clustered, Reg.at, Reg.tstUnitStat, Reg.tstUnitCtl, Reg.tstUnitErrs]

/-- The checker of a port unit that turns its beats back counts the injected errors, and keeps up with the generator. -/
theorem State.portLoop_spec {s : State} {i : Nat} (hr : unitRuns s i = true) (hm : unitMode s i = 1) (hg : unitGen s i = true)
    (hc : unitChk s i = true) (hsus : s.suspect.contains 26 = false) (he : (tunitOf s i).gen = (tunitOf s i).chk)
    (hw : s.regs.wf = true) :
    let t := s.portLoop i
    t = { s with regs := t.regs, tunits := t.tunits } ∧ bit (t.rd .tstUnitCtl i) 7 = false ∧ (tunitOf t i).gen = (tunitOf t i).chk ∧
      (t.rd .tstUnitErrs i).toNat = min (2 ^ 32 - 1) ((s.rd .tstUnitErrs i).toNat + flag (bit (s.rd .tstUnitCtl i) 7)) := by
  dsimp only
  obtain ⟨he1, he2⟩ := tstUnitErrs_apart i
  have hgen : RegsBut (unitRegs i) s (s.beatGenerated i 64) :=
    (RegsBut.putTunit s _).trans (RegsBut.setFld (r := .tstUnitCtl) (i := i) (by simp [unitRegs]) 7 1 0)
  have hinj : bit ((s.beatGenerated i 64).rd .tstUnitCtl i) 7 = false := by
    rw [State.beatGenerated, State.rd_setFld _ _ _ _ _ _ (by exact hw), bit_withBits _ _ _ _ _ (by decide), if_pos (by decide)]
    rfl
  have hf : s.beatGenerated i 64 = { s with regs := (s.beatGenerated i 64).regs, tunits := (s.beatGenerated i 64).tunits } := rfl
  rw [State.portLoop_eq hr hm hg hc he]
  generalize s.beatGenerated i 64 = t at hgen hinj hf ⊢
  have herr := State.unitErrors_counts (s := t) (u := i) (by rw [hf]; exact hsus) (flag (bit (s.rd .tstUnitCtl i) 7))
  have hcount := State.rd_bumpSat_word (hgen.wf hw) .tstUnitErrs i (flag (bit (s.rd .tstUnitCtl i) 7))
  refine ⟨?_, ?_, ?_, ?_⟩
  · rw [herr, hf]
    rfl
  · exact (congrArg (bit · 7) ((RegsBut.unitErrors t i _).rd .tstUnitCtl i he2)).trans hinj
  · rw [tunitOf_put (by exact tunitOf_num s i) _ rfl]
  · rw [hgen.rd _ _ he1, ← herr] at hcount
    exact hcount

/-! SYNC gained and lost (19 R554, R558). -/

theorem syncGained_sets {s : State} {u : Nat} (hu : u < 19) (hc : linkChecks s u = true) :
    exec (.syncGained u) s = .next (s.setSync u true) := by
  show execSyncGained u s = _
  rw [execSyncGained, if_neg (by omega), if_pos hc]

/-- The loss is counted, and SYNC is clear. -/
def State.syncDropped (s : State) (u : Nat) : State := (s.bump .tstUnitStat u 8 8 1).setSync u false

theorem State.syncDropped_spec {s : State} (hw : s.regs.wf = true) (u : Nat) :
    (s.syncDropped u).regs.wf = true ∧ bit ((s.syncDropped u).rd .tstUnitStat u) 0 = false ∧
      (s.syncDropped u).fld .tstUnitStat u 8 8 = (s.fld .tstUnitStat u 8 8 + 1) % 256 ∧
      RegsBut [Reg.tstUnitStat.addr u] s (s.syncDropped u) := by
  have hw1 : (s.bump .tstUnitStat u 8 8 1).regs.wf = true := State.wf_wr _ _ _ _ hw
  refine ⟨State.wf_wr _ _ _ _ hw1, State.bit_setSync hw1 u false, ?_, ?_⟩
  · exact (State.fld_setFld_ne _ _ _ _ _ _ _ _ hw1 (by decide) (by decide)).trans (State.fld_bump _ _ _ _ _ _ hw (by decide))
  · exact (RegsBut.setFld (r := .tstUnitStat) (i := u) (by simp) _ _ _).trans (RegsBut.setFld (r := .tstUnitStat) (i := u) (by simp) _ _ _)

theorem syncLost_inTest {s : State} {u : Nat} (hu : u < 19) (hc : linkChecks s u = true) (hb : bit (s.rd .tstUnitStat u) 0 = true)
    (hm : s.mode = .test) : exec (.syncLost u) s =
      .next { (s.syncDropped u).unitErrors u (16 + (Config.freeValue s.freeCtr).toNat % 4081) with freeCtr := s.freeCtr + 1 } := by
  show execSyncLost u s = _
  rw [execSyncLost, if_neg (by omega), if_neg (by simp [hc, hb])]
  exact if_pos hm

/-- Outside TEST the sixteen beats count in IDLE_ERR, and toward the limit of R448. -/
def State.idleLost (s : State) (k : Nat) : State :=
  (s.bump .fedLinkStat k 16 16 16).putLink { linkOf s k with idle := List.replicate 16 0 ++ (linkOf s k).idle }

theorem syncLost_outsideTest {s : State} {u : Nat} (hu : u < 19) (hc : linkChecks s u = true)
    (hb : bit (s.rd .tstUnitStat u) 0 = true) (hm : s.mode ≠ .test) :
    exec (.syncLost u) s = .next ((s.syncDropped u).idleLost (u - 16)) := by
  show execSyncLost u s = _
  rw [execSyncLost, if_neg (by omega), if_neg (by simp [hc, hb])]
  exact if_neg hm

theorem tstUnitStat_ne_tstUnitErrs (u k : Nat) (hu : u < 19) (hk : k < 19) : Reg.tstUnitStat.addr u ∉ [Reg.tstUnitErrs.addr k] := by
  simp [Reg.addr, Reg.clustered, Reg.at, Reg.tstUnitStat, Reg.tstUnitErrs]
  omega

/-- A checker that gains and loses SYNC in TEST. -/
theorem State.syncLost_test_spec {s : State} (hw : s.regs.wf = true) {u : Nat} (hu : u < 19) (n : Nat) :
    let t := (s.syncDropped u).unitErrors u n
    (∃ m, t = { s with regs := m }) ∧ bit (t.rd .tstUnitStat u) 0 = false ∧
      t.fld .tstUnitStat u 8 8 = (s.fld .tstUnitStat u 8 8 + 1) % 256 := by
  dsimp only
  obtain ⟨_, hb, hf, _⟩ := State.syncDropped_spec hw u
  have hr := RegsBut.unitErrors (s.syncDropped u) u n
  have hne := tstUnitStat_ne_tstUnitErrs u u hu hu
  refine ⟨?_, ?_, (hr.fld hne 8 8).trans hf⟩
  · obtain ⟨m, e⟩ := (s.syncDropped u).unitErrors_frame u n
    exact ⟨m, e⟩
  · rw [hr.rd _ _ hne]
    exact hb

theorem tstUnitStat_ne_fedLinkStat {u k : Nat} (hu : u < 19) (hk : k < 3) : Reg.fedLinkStat.addr k ≠ Reg.tstUnitStat.addr u := by
  simp [Reg.addr, Reg.clustered, Reg.at, Reg.tstUnitStat, Reg.fedLinkStat]
  omega

/-- And outside it. -/
theorem State.idleLost_spec {s : State} (hw : s.regs.wf = true) {u k : Nat} (hu : u < 19) (hk : k < 3) :
    let t := (s.syncDropped u).idleLost k
    t = { s with regs := t.regs, fed := t.fed } ∧ bit (t.rd .tstUnitStat u) 0 = false ∧
      t.fld .tstUnitStat u 8 8 = (s.fld .tstUnitStat u 8 8 + 1) % 256 ∧
      t.fld .fedLinkStat k 16 16 = (s.fld .fedLinkStat k 16 16 + 16) % 65536 := by
  dsimp only
  obtain ⟨hw1, hb, hf, hr1⟩ := State.syncDropped_spec hw u
  have hr : RegsBut [Reg.fedLinkStat.addr k] (s.syncDropped u) ((s.syncDropped u).idleLost k) :=
    (RegsBut.setFld (r := .fedLinkStat) (i := k) (by simp) _ _ _).trans (RegsBut.of_regs rfl)
  have hne : Reg.tstUnitStat.addr u ∉ [Reg.fedLinkStat.addr k] := by simpa using (tstUnitStat_ne_fedLinkStat hu hk).symm
  refine ⟨rfl, ?_, (hr.fld hne 8 8).trans hf, ?_⟩
  · rw [hr.rd _ _ hne]
    exact hb
  · refine (State.fld_bump (s.syncDropped u) .fedLinkStat k 16 16 16 hw1 (by decide)).trans ?_
    rw [hr1.fld (by simpa using tstUnitStat_ne_fedLinkStat hu hk)]
    rfl

/-! MBIST on demand (19 R551). -/

theorem State.passMacros_frame (ms : List Nat) (s : State) : ∃ m, ms.foldl (fun t k => t.passMacro k) s = { s with is6 := m } := by
  induction ms generalizing s with
  | nil => exact ⟨_, rfl⟩
  | cons k ms ih =>
    obtain ⟨m, e⟩ := ih (s.passMacro k)
    refine ⟨m, e.trans ?_⟩
    unfold State.passMacro
    split
    · rfl
    · rfl

/-- A run without faults touches the macros' records only, before it leaves the macros zero. -/
theorem State.mbistRecords_frame (s : State) (sel : Nat) (repair : Bool) : ∃ m, s.mbistRecords sel repair [] = { s with is6 := m } :=
  State.passMacros_frame _ s

theorem State.mbistZero_spec (s : State) (sel : Nat) : (s.mbistZero sel).regs = s.regs ∧
    (s.mbistZero sel).ways = (if sel.testBit 16 then [] else s.ways) ∧
    (s.mbistZero sel).ckpt = (if sel.testBit 17 then [] else s.ckpt) := by
  unfold State.mbistZero
  dsimp only
  split
  · split
    · exact ⟨rfl, rfl, rfl⟩
    · exact ⟨rfl, rfl, rfl⟩
  · split
    · exact ⟨rfl, rfl, rfl⟩
    · exact ⟨rfl, rfl, rfl⟩

/-- TST_MBIST_STAT after a run: not busy, done, and two counts. -/
theorem mbistStat_bits (a b : Nat) : bit (BitVec.ofNat 32 (2 + 256 * a + 65536 * b)) 0 = false ∧
    bit (BitVec.ofNat 32 (2 + 256 * a + 65536 * b)) 1 = true := by
  unfold bit
  rw [BitVec.toNat_ofNat, decide_eq_false_iff_not, decide_eq_true_iff]
  omega

/-- The tested macros whose result is v, as TST_MBIST_STAT counts them. -/
def mbistCount (s : State) (sel v : Nat) : Nat :=
  min 255 ((macrosNoted s).filter (fun m => mbistTests sel m && decide (macroResult s m = v))).length

/-- The tested macros noted and left zero, and the run's results shown. -/
def State.mbistShown (s : State) (sel : Nat) : State :=
  (s.mbistZero sel).wr .tstMbistStat 0
    (BitVec.ofNat 32 (2 + 256 * mbistCount (s.mbistZero sel) sel 3 + 65536 * mbistCount (s.mbistZero sel) sel 2))

theorem State.mbistShown_spec {s : State} (hw : s.regs.wf = true) (sel : Nat) :
    bit ((s.mbistShown sel).rd .tstMbistStat 0) 0 = false ∧ bit ((s.mbistShown sel).rd .tstMbistStat 0) 1 = true ∧
      (s.mbistShown sel).ways = (if sel.testBit 16 then [] else s.ways) ∧
      (s.mbistShown sel).ckpt = (if sel.testBit 17 then [] else s.ckpt) := by
  obtain ⟨hr, hways, hckpt⟩ := s.mbistZero_spec sel
  have hrd : (s.mbistShown sel).rd .tstMbistStat 0 = _ := State.rd_wr_same (s.mbistZero sel) .tstMbistStat 0 _ (by rw [hr]; exact hw)
  rw [hrd]
  exact ⟨(mbistStat_bits _ _).1, (mbistStat_bits _ _).2, hways, hckpt⟩

theorem mbistRunDone_ends {s : State} {sel : Nat} {repair : Bool} (h : s.mbist = some (sel, repair)) (hm : s.mode = .test)
    (hf : s.fatal = false) :
    exec (.mbistRunDone []) s = .next { (s.mbistRecords sel repair []).mbistShown sel with mbist := none } := by
  show execMbistRunDone [] s = _
  unfold execMbistRunDone
  rw [h]
  dsimp only
  rw [if_neg (by simp [hm, hf])]
  rfl

end Sys2Proof.Machine
end

section
/-! PROOFS. The writes that act on the event matrix, the debug unit, the mode and the test unit (12 R383, R389; 17 R504, R505; 19 R543,
R545, R551 to R555). -/

namespace Sys2Proof.Machine

/-! Values merged, and writes that are dropped (16 R479, R481). -/

/-- A bit that the register takes whole. -/
theorem Reg.bit_merge_whole {r : Reg} (hr : r.base ≠ Reg.regProtMap.base) (old data : W32) {k : Nat} (hk : k < 32)
    (hp : r.pBits.testBit k = true) : bit (r.merge old data) k = bit data k := by
  rw [Reg.bit_merge hr _ _ hk, if_pos hp, ite_self]

/-- A field of such bits. -/
theorem Reg.bits_merge {r : Reg} (hr : r.base ≠ Reg.regProtMap.base) (old data : W32) {lo len : Nat} (h : lo + len ≤ 32)
    (hp : ∀ k, k < len → r.pBits.testBit (lo + k) = true) : bits (r.merge old data) lo len = bits data lo len := by
  apply Nat.eq_of_testBit_eq
  intro k
  rw [testBit_bits, testBit_bits]
  by_cases hk : k < len
  · rw [← bit_eq, ← bit_eq, Reg.bit_merge_whole hr _ _ (by omega) (hp k hk)]
  · simp [hk]

section
variable {s : State} {w : RegWrite} {r : Reg} {i : Nat} (h : Written s w r i)
include h

/-- In the FATAL state no write is answered OK. -/
theorem Written.not_fatal : s.fatal = false := by
  obtain ⟨_, _, hc, _⟩ := h
  cases hf : s.fatal with
  | false => rfl
  | true =>
    unfold writeCode at hc
    dsimp only at hc
    split at hc
    · cases hc
    · cases hc

/-- Its row reports the drop, where there is a reason for one. -/
theorem Written.drops (hv : storesValue r = true) {k : Nat}
    (hd : dropReason s r (s.stored r i) (r.merge (s.stored r i) w.data) w.data = k) (hk : k ≠ 0) {mine : Bool} (hm : mine = true) :
    writeRow w mine s = .next ((s.reportDrop k w.agent (canonOffset w.offset)).okWrite w) := by
  obtain ⟨ht, ha, hc, hr, hi⟩ := h
  unfold storesValue at hv
  simp only [Bool.and_eq_true, decide_eq_true_eq, Bool.not_eq_true', decide_eq_false_iff_not] at hv
  obtain ⟨⟨⟨⟨⟨hs, h1⟩, h2⟩, h3⟩, h4⟩, h5⟩ := hv
  have hw : s.writeOk w (canonOffset w.offset) = s.reportDrop k w.agent (canonOffset w.offset) := by
    unfold State.writeOk
    rw [hr]
    dsimp only
    rw [hi, if_neg (not_not.mpr hs), if_neg h1, if_neg h2, if_neg h3, if_neg h4, if_neg h5, hd, if_pos hk]
  rw [writeRow, if_neg (by omega), if_pos hm, State.regWrite, ht, if_neg (by decide)]
  dsimp only
  rw [if_pos hc, hc, hw]
  rfl

end

/-! The event matrix (R383, R389). -/

theorem regStore_evmWflag (s : State) (i : Nat) (old new : W32) (agent : Nat) :
    s.regStore .evmWflag i old new agent = ((s.wr .evmWflag i new).setsWin i).refreshEvm := rfl

/-- A flag takes its bit where its mask bit is written. -/
theorem evmWflag_merge (old data : W32) {k : Nat} (hk : k < 16) :
    bit (Reg.evmWflag.merge old data) k = if bit data (16 + k) then bit data k else bit old k := by
  have hm : Reg.evmWflag.mBits.testBit k = true := by
    rw [show Reg.evmWflag.mBits = 2 ^ 16 - 1 from rfl, Nat.testBit_two_pow_sub_one]
    exact decide_eq_true hk
  rw [Reg.bit_merge (by decide) _ _ (by omega), hm, Bool.and_true, show Reg.evmWflag.pBits = 0 from rfl, Nat.zero_testBit]
  rfl

/-- Both banks with the elements of lines 2i and 2i + 1 replaced, and these lines' elements written. -/
def State.lineCtlStored (s : State) (i : Nat) (v : W32) : State := (s.putReg .evmLineCtl i v).linePair s.evm i 0xFFFFFFFF

theorem regStore_evmLineCtl (s : State) (i : Nat) (old new : W32) (agent : Nat) :
    s.regStore .evmLineCtl i old new agent = (s.lineCtlStored i new).refreshEvm := rfl

/-- A line whose element is written is no longer masked. -/
theorem State.lineWritten_eq (s : State) (l : Nat) (wasDirect : Bool) :
    ∃ x, s.lineWritten l wasDirect = s.putLine x ∧ x.num = l ∧ x.masked = false := by
  unfold State.lineWritten
  dsimp only
  split
  · exact ⟨_, rfl, lineOf_num s l, rfl⟩
  · exact ⟨_, rfl, lineOf_num s l, rfl⟩

theorem State.linePair_whole (s : State) (old : EvmBank) (i : Nat) : s.linePair old i 0xFFFFFFFF =
    (s.lineWritten (2 * i) (lineDirect old (2 * i))).lineWritten (2 * i + 1) (lineDirect old (2 * i + 1)) := by
  unfold State.linePair
  dsimp only
  rw [if_neg (by decide), if_neg (by decide)]
  rfl

/-- The lines of the pair are unmasked, and every other one is as it was. -/
theorem State.linePair_spec (s : State) (old : EvmBank) (i : Nat) :
    let t := s.linePair old i 0xFFFFFFFF
    t = { s with lines := t.lines } ∧ (lineOf t (2 * i)).masked = false ∧ (lineOf t (2 * i + 1)).masked = false ∧
      ∀ l, l ≠ 2 * i → l ≠ 2 * i + 1 → lineOf t l = lineOf s l := by
  dsimp only
  obtain ⟨x, e, hx, hxm⟩ := s.lineWritten_eq (2 * i) (lineDirect old (2 * i))
  obtain ⟨y, e', hy, hym⟩ := (s.putLine x).lineWritten_eq (2 * i + 1) (lineDirect old (2 * i + 1))
  rw [State.linePair_whole, e, e']
  refine ⟨rfl, ?_, ?_, fun l h0 h1 => ?_⟩
  · rw [lineOf_putLine_ne _ (by omega), lineOf_putLine s hx, hxm]
  · rw [lineOf_putLine _ hy, hym]
  · rw [lineOf_putLine_ne _ (by omega), lineOf_putLine_ne s (by omega)]

/-- The elements of a pair of lines. -/
theorem lineCtl_pair {b : EvmBank} {i : Nat} {v : W32} (h : evRd b .evmLineCtl i = v) :
    lineCtl b (2 * i) = bits v 0 16 ∧ lineCtl b (2 * i + 1) = bits v 16 16 := by
  unfold lineCtl
  rw [show 2 * i / 2 = i by omega, show (2 * i + 1) / 2 = i by omega, show 2 * i % 2 = 0 by omega, show (2 * i + 1) % 2 = 1 by omega, h]
  exact ⟨rfl, rfl⟩

theorem evRd_putReg {b : EvmBank} (hw : b.regs.wf = true) (r : Reg) (i : Nat) (v : W32) : evRd (b.putReg r i v) r i = v := by
  unfold evRd EvmBank.putReg
  rw [WordMap.get_put_same _ 0 _ _ hw, BitVec.xor_assoc, BitVec.xor_self, BitVec.xor_zero]

/-- Both banks take the elements, whose lines are unmasked; every other line stays as it was. -/
theorem State.lineCtlStored_spec {s : State} (hw : s.evm.regs.wf = true) (i : Nat) (v : W32) :
    let t := s.lineCtlStored i v
    t = { s with evm := t.evm, evmPend := t.evmPend, lines := t.lines } ∧
      lineCtl t.evm (2 * i) = bits v 0 16 ∧ lineCtl t.evm (2 * i + 1) = bits v 16 16 ∧
      (lineOf t (2 * i)).masked = false ∧ (lineOf t (2 * i + 1)).masked = false ∧
      ∀ l, l ≠ 2 * i → l ≠ 2 * i + 1 → lineOf t l = lineOf s l := by
  dsimp only
  obtain ⟨hf, h0, h1, ho⟩ := (s.putReg .evmLineCtl i v).linePair_spec s.evm i
  have hp := evRd_putReg hw .evmLineCtl i v
  rw [← State.lineCtlStored] at hf h0 h1
  have he : (s.lineCtlStored i v).evm = s.evm.putReg .evmLineCtl i v := by rw [hf]; rfl
  obtain ⟨ha, hb⟩ := lineCtl_pair (he ▸ hp)
  refine ⟨?_, ha, hb, h0, h1, ho⟩
  rw [hf]
  rfl

/-! The debug access (17 R504). -/

theorem regStore_dbgMemCtl (s : State) (old new : W32) (agent : Nat) : s.regStore .dbgMemCtl 0 old new agent =
    if bit new 23 then ((s.wr .dbgMemCtl 0 new).setFld .dbgMemCtl 0 23 1 0).dbgGo else s.wr .dbgMemCtl 0 new := rfl

/-- GO issues the access that the registers describe. -/
theorem State.dbgGo_spec {s : State} (hf : s.fatal = false) (hw : s.regs.wf = true) :
    PortsOnly (s.wr .dbgMemStat 0 1) s.dbgGo ∧ s.dbgGo.rd .dbgMemStat 0 = 1 ∧ s.dbgGo.rd .dbgMemCtl 0 = s.rd .dbgMemCtl 0 ∧
      Offered s.dbgGo .debug (bit (s.rd .dbgMemCtl 0) 10) (dbgAddr s) (dbgLen s)
        (if bit (s.rd .dbgMemCtl 0) 10 then (dbgBytes s).take (dbgLen s) else []) := by
  have hp : PortsOnly (s.wr .dbgMemStat 0 1) s.dbgGo := PortsOnly.service _ _
  have hr : RegsBut [] (s.wr .dbgMemStat 0 1) s.dbgGo := RegsBut.ports hp
  refine ⟨hp, ?_, ?_, ?_⟩
  · rw [hr.rd _ _ (by simp), State.rd_wr_same _ _ _ _ hw]
  · rw [hr.rd _ _ (by simp), State.rd_wr_other _ _ _ _ _ _ (by decide)]
  · unfold State.dbgGo
    exact (Asked.service (s := s.wr .dbgMemStat 0 1) hf rfl).offered

theorem dbgMemData_ne_dbgMemCtl (k : Nat) : Reg.dbgMemData.addr k ∉ [Reg.dbgMemCtl.addr 0] := by
  simp [Reg.addr, Reg.clustered, Reg.at, Reg.dbgMemData, Reg.dbgMemCtl]
  omega

/-- The address and the data registers of the access are not those that GO writes. -/
theorem dbg_congr {s t : State} (h : RegsBut [Reg.dbgMemCtl.addr 0] s t) : dbgAddr t = dbgAddr s ∧ dbgBytes t = dbgBytes s := by
  refine ⟨?_, ?_⟩
  · unfold dbgAddr
    rw [h.fld (by decide), h.fld (by decide)]
  · unfold dbgBytes
    simp only [h.rd .dbgMemData _ (dbgMemData_ne_dbgMemCtl _)]

/-- A write of GO. -/
theorem dbgGo_stored {s : State} (hf : s.fatal = false) (hw : s.regs.wf = true) (old data : W32) :
    let u := ((s.wr .dbgMemCtl 0 (Reg.dbgMemCtl.merge old data)).setFld .dbgMemCtl 0 23 1 0).dbgGo
    (∃ m, PortsOnly { s with regs := m } u) ∧ u.rd .dbgMemStat 0 = 1 ∧ bit (u.rd .dbgMemCtl 0) 23 = false ∧
      Offered u .debug (bit data 10) (dbgAddr s) (bits data 4 6 + 1)
        (if bit data 10 then (dbgBytes s).take (bits data 4 6 + 1) else []) := by
  dsimp only
  have hw1 : (s.wr .dbgMemCtl 0 (Reg.dbgMemCtl.merge old data)).regs.wf = true := State.wf_wr _ _ _ _ hw
  have hr : RegsBut [Reg.dbgMemCtl.addr 0] s ((s.wr .dbgMemCtl 0 (Reg.dbgMemCtl.merge old data)).setFld .dbgMemCtl 0 23 1 0) :=
    (RegsBut.wr (by simp) _).trans (RegsBut.setFld (r := .dbgMemCtl) (i := 0) (by simp) _ _ _)
  have hrd := State.rd_setFld _ .dbgMemCtl 0 23 1 0 hw1
  rw [State.rd_wr_same _ _ _ _ hw] at hrd
  have hfr : ∃ m, (s.wr .dbgMemCtl 0 (Reg.dbgMemCtl.merge old data)).setFld .dbgMemCtl 0 23 1 0 = { s with regs := m } := ⟨_, rfl⟩
  generalize (s.wr .dbgMemCtl 0 (Reg.dbgMemCtl.merge old data)).setFld .dbgMemCtl 0 23 1 0 = t at hr hrd hfr ⊢
  obtain ⟨m, hfr⟩ := hfr
  obtain ⟨hp, hs, hc, ho⟩ := State.dbgGo_spec (s := t) (by rw [hfr]; exact hf) (hr.wf hw)
  have hdir : bit (t.rd .dbgMemCtl 0) 10 = bit data 10 := by
    rw [hrd, bit_withBits _ _ _ _ _ (by decide), if_neg (by omega), Reg.bit_merge_whole (by decide) _ _ (by decide) (by decide)]
  have hlen : dbgLen t = bits data 4 6 + 1 := by
    rw [dbgLen, State.fld, hrd, bits_withBits_ne _ _ _ _ _ _ (by decide) (by decide),
      Reg.bits_merge (by decide) _ _ (by decide) (by decide)]
  obtain ⟨ha, hb⟩ := dbg_congr hr
  rw [hdir, hlen, ha, hb] at ho
  refine ⟨?_, hs, ?_, ho⟩
  · rw [hfr] at hp ⊢
    exact ⟨_, hp⟩
  · rw [hc, hrd, bit_withBits _ _ _ _ _ (by decide), if_pos (by omega)]
    rfl

/-! Kicks of polls (02 R63; 17 R505). -/

theorem regStore_dbgPoll (s : State) (old new : W32) (agent : Nat) : s.regStore .dbgPoll 0 old new agent =
    if bit new 12 then ((s.wr .dbgPoll 0 new).setFld .dbgPoll 0 12 1 0).kickPoll (bits new 0 12) true else s.wr .dbgPoll 0 new := rfl

theorem State.kickPoll_idle {s : State} {iid : Nat} (h : s.instState iid = 0 ∨ s.mode = .configure ∨ s.mode = .test) (dbg : Bool) :
    s.kickPoll iid dbg = s := by
  unfold State.kickPoll
  rw [if_pos]
  simpa [or_assoc] using h

section
variable {s : State} {iid : Nat} (hi : s.instState iid ≠ 0) (hc : s.mode ≠ .configure) (ht : s.mode ≠ .test)
include hi hc ht

theorem State.kickPoll_kicks (dbg : Bool) :
    s.kickPoll iid dbg = (if iid = 0 then s.setAdm (fun a => { a with kick := true }) else s).kickInst iid dbg := by
  unfold State.kickPoll
  rw [if_neg]
  simp [hi, hc, ht]

end

theorem State.beginPoll_adm (s : State) (iid : Nat) (dbg : Bool) : (s.beginPoll iid dbg).adm = s.adm := by
  unfold State.beginPoll
  split
  · rfl
  · rfl

theorem State.kickInst_adm (s : State) (iid : Nat) (dbg : Bool) : (s.kickInst iid dbg).adm = s.adm := by
  unfold State.kickInst
  split
  · rfl
  · extract_lets p q t
    have ht : t.adm = s.adm := rfl
    split
    · exact (State.beginPoll_adm t iid _).trans ht
    · exact ht

/-- A kick of an instance that cannot be polled is kept. -/
theorem State.kickInst_kept {s : State} {iid : Nat} (hi : s.instState iid ≠ 0) (hc : canPoll s iid = false) :
    (pollOf (s.kickInst iid true) iid).kept = true ∧ (pollOf (s.kickInst iid true) iid).keptDbg = true := by
  unfold State.kickInst
  rw [if_neg hi]
  dsimp only
  generalize hx : (if (pollIn s iid).isSome then { pollOf s iid with kept := true, keptDbg := (pollOf s iid).keptDbg || true }
    else fallDue s s.nomNs { pollOf s iid with kept := true, keptDbg := (pollOf s iid).keptDbg || true }) = x
  have hspec : x.iid = iid ∧ x.kept = true ∧ x.keptDbg = true := by
    rw [← hx]
    unfold fallDue
    split
    · exact ⟨pollOf_iid s iid, rfl, Bool.or_true _⟩
    · split
      · exact ⟨pollOf_iid s iid, rfl, Bool.or_true _⟩
      · exact ⟨pollOf_iid s iid, rfl, Bool.or_true _⟩
  obtain ⟨hn, hk, hd⟩ := hspec
  have hm : mayBegin (s.putPoll x) iid = false := by
    have hcan : canPoll (s.putPoll x) iid = false := hc
    rw [mayBegin, hcan]
    rfl
  have hp : pollOf (s.putPoll x) iid = x := by
    rw [← hn]
    exact pollOf_putPoll s x
  rw [hm, if_neg (by decide), hp]
  exact ⟨hk, hd⟩

/-! The mode (R543, R545). -/

theorem regStore_glbMode (s : State) (old new : W32) (agent : Nat) :
    s.regStore .glbMode 0 old new agent = (s.wr .glbMode 0 new).modeRequested (bits new 8 3) := rfl

/-- GLB_MODE takes REQ as written. -/
theorem glbMode_merge_req (old data : W32) : bits (Reg.glbMode.merge old data) 8 3 = bits data 8 3 :=
  Reg.bits_merge (by decide) _ _ (by decide) (by decide)

theorem Mode.code_configure {m : Mode} (h : 2 = m.code) : m = .configure := by
  cases m with
  | configure => rfl
  | _ => exact absurd h (by decide)

/-- A mode asked for again. -/
theorem State.modeRequested_same {s : State} {v : Nat} (h : v = s.mode.code) : s.modeRequested v = s := if_pos h

theorem State.modeRequested_run {s : State} (h : 3 ≠ s.mode.code) : s.modeRequested 3 = { s with modeNext := some .run } := if_neg h

theorem State.modeRequested_configure {s : State} (h : 2 ≠ s.mode.code) : s.modeRequested 2 = { s with modeNext := some .configure } :=
  if_neg h

/-- With no dirty way TEST waits for no write-back. -/
theorem State.modeRequested_test {s : State} (h : 5 ≠ s.mode.code) (hw : s.ways.any (fun x => x.dirty) = false) :
    s.modeRequested 5 = { s with modeNext := some .test } := by
  have hn : s.ways.filter (fun w => w.dirty && !wbBusy ({ s with modeNext := some .test } : State) w.qid) = [] := by
    refine List.filter_eq_nil_iff.mpr fun w hm => ?_
    have hd : w.dirty = false := by simpa using List.any_eq_false.mp hw w hm
    simp [hd]
  refine (if_neg h).trans ?_
  rw [if_neg (by decide), if_neg (by decide), State.flushWays]
  exact congrArg (List.foldl _ _) hn

/-- A request that is busy is dropped, with BUSY (16 R479). -/
theorem dropReason_modeBusy {s : State} (hl : setupLocked s = false) {old new data : W32} (hb : modeReqBusy s (bits data 8 3) = true) :
    dropReason s .glbMode old new data = 1 := by
  unfold dropReason
  rw [hl, Bool.false_and, Bool.false_and, if_neg (by decide)]
  split
  · rfl
  · rw [if_pos rfl, hb]
    rfl

/-! MBIST and units as their registers set them (R551, R554, R555). -/

theorem regStore_tstMbistCtl (s : State) (old new : W32) (agent : Nat) : s.regStore .tstMbistCtl 0 old new agent =
    if bit new 20 then (s.wr .tstMbistCtl 0 new).mbistStart else s.wr .tstMbistCtl 0 new := rfl

theorem State.mbistStart_spec {s : State} (hw : s.regs.wf = true) :
    s.mbistStart = { s with regs := s.mbistStart.regs, mbist := some (bits (s.rd .tstMbistCtl 0) 0 19, bit (s.rd .tstMbistCtl 0) 19) } ∧
      s.mbistStart.rd .tstMbistStat 0 = 1 ∧ bit (s.mbistStart.rd .tstMbistCtl 0) 20 = false := by
  have hw1 : (s.setFld .tstMbistCtl 0 20 1 0).regs.wf = true := State.wf_wr _ _ _ _ hw
  refine ⟨rfl, State.rd_wr_same _ _ _ _ hw1, ?_⟩
  have h : s.mbistStart.rd .tstMbistCtl 0 = (s.setFld .tstMbistCtl 0 20 1 0).rd .tstMbistCtl 0 := State.rd_wr_other _ _ _ _ _ _ (by decide)
  rw [h, State.rd_setFld _ _ _ _ _ _ hw, bit_withBits _ _ _ _ _ (by decide), if_pos (by decide)]
  rfl

theorem regStore_tstCtl (s : State) (old new : W32) (agent : Nat) :
    s.regStore .tstCtl 0 old new agent = (s.wr .tstCtl 0 new).runWritten old new := rfl

theorem regStore_tstUnitCtl (s : State) (i : Nat) (old new : W32) (agent : Nat) :
    s.regStore .tstUnitCtl i old new agent = (s.wr .tstUnitCtl i new).unitWritten i old new := rfl

/-- TST_UNIT_CTL takes every field as written. -/
theorem tstUnitCtl_merge (old data : W32) {lo len : Nat} (h : lo + len ≤ 8) :
    bits (Reg.tstUnitCtl.merge old data) lo len = bits data lo len := by
  refine Reg.bits_merge (by simp [Reg.tstUnitCtl, Reg.regProtMap]) _ _ (by omega) fun k hk => ?_
  rw [show Reg.tstUnitCtl.pBits = 2 ^ 8 - 1 from rfl, Nat.testBit_two_pow_sub_one]
  exact decide_eq_true (by omega)

/-- A write that leaves MODE, PRBS and the enables restarts nothing. -/
theorem State.unitWritten_same (s : State) (u : Nat) {old new : W32} (h : bits new 0 7 = bits old 0 7) :
    s.unitWritten u old new = s.testGo u := by
  have hb : ∀ k, k < 7 → bit new k = bit old k := by
    intro k hk
    have ht := congrArg (·.testBit k) h
    simpa only [testBit_bits, hk, decide_true, Bool.true_and, Nat.zero_add, ← bit_eq] using ht
  have h5 : bits old 0 5 = bits new 0 5 := by
    have hx : ∀ v : W32, bits v 0 5 = bits v 0 7 % 2 ^ 5 := by
      intro v
      unfold bits
      rw [Nat.pow_zero, Nat.div_one, Nat.mod_mod_of_dvd _ (by decide)]
    rw [hx, hx, h]
  unfold State.unitWritten
  dsimp only
  rw [if_neg]
  simp [h5, hb 5 (by decide), hb 6 (by decide)]

/-- INJ set, with nothing else of the unit changed, and the unit making no request. -/
theorem tstUnitCtl_stored {s : State} (hw : s.regs.wf = true) {i : Nat} {data : W32} (h7 : bit data 7 = true)
    (hsame : bits data 0 7 = bits (s.rd .tstUnitCtl i) 0 7) (hidle : s.mode ≠ .test ∨ 16 ≤ i ∨ bits data 0 3 = 1) :
    let new := Reg.tstUnitCtl.merge (s.rd .tstUnitCtl i) data
    (s.wr .tstUnitCtl i new).unitWritten i (s.rd .tstUnitCtl i) new = s.wr .tstUnitCtl i new ∧
      bit ((s.wr .tstUnitCtl i new).rd .tstUnitCtl i) 7 = true := by
  dsimp only
  refine ⟨?_, ?_⟩
  · rw [State.unitWritten_same _ _ ((tstUnitCtl_merge _ _ (by decide)).trans hsame)]
    refine State.testGo_idle (hidle.imp_right (Or.imp_right fun h1 => ?_))
    rw [unitMode, State.fld, State.rd_wr_same _ _ _ _ hw, tstUnitCtl_merge _ _ (by decide), h1]
  · rw [State.rd_wr_same _ _ _ _ hw, bit_eq_bits, tstUnitCtl_merge _ _ (by decide), ← bit_eq_bits, h7]

/-- Settles O50: each write stores the merged value, and its register's action follows; a run of MBIST, a beat turned back, and SYNC
that is gained or lost change what `mbistShown`, `portLoop_eq`, `setSync` and `syncDropped` say. -/
theorem unitWrites : Obligations.UnitWrites := by
  unfold Obligations.UnitWrites
  refine ⟨?_, ?_, ?_, ?_, ?_, ?_, ?_, ?_, ?_, ?_, ?_, ?_, ?_⟩
  · intro s w i h hd
    have e : exec (.evmWflagWrite w) s = _ := h.stores (by decide) hd h.reaches'
    rw [regStore_evmWflag] at e
    exact ⟨e, fun k hk => evmWflag_merge _ _ hk⟩
  · intro s w i h hd hw
    have e : exec (.evmLineCtlWrite w) s = _ := h.stores (by decide) hd h.reaches'
    rw [Reg.merge_whole (by decide) rfl, regStore_evmLineCtl] at e
    exact ⟨_, e, State.lineCtlStored_spec hw i w.data⟩
  · intro s w h h23 hd hw
    have e : exec (.dbgMemGo w) s = _ := h.stores (by decide) hd (by rw [h.reaches', h23]; rfl)
    rw [regStore_dbgMemCtl, if_pos (by rw [Reg.bit_merge_whole (by decide) _ _ (by decide) (by decide), h23])] at e
    exact ⟨_, e, dbgGo_stored h.not_fatal hw _ _⟩
  · intro s w h h12 hd
    have e : exec (.dbgPollGo w) s = _ := h.stores (by decide) hd (by rw [h.reaches', h12]; rfl)
    rw [regStore_dbgPoll, if_pos (by rw [Reg.bit_merge_whole (by decide) _ _ (by decide) (by decide), h12]),
      Reg.bits_merge (by decide) _ _ (by decide) (by decide)] at e
    refine ⟨_, e, rfl, ?_⟩
    have hinst : ∀ (t : State) v k, (((t.wr .dbgPoll 0 v).setFld .dbgPoll 0 12 1 0).instState k) = t.instState k := fun _ _ _ => rfl
    have hmode : ∀ (t : State) v, ((t.wr .dbgPoll 0 v).setFld .dbgPoll 0 12 1 0).mode = t.mode := fun _ _ => rfl
    rw [← hinst s, ← hinst s, ← hmode s]
    generalize (s.wr .dbgPoll 0 _).setFld .dbgPoll 0 12 1 0 = v
    refine ⟨fun hidle => State.kickPoll_idle hidle true, fun _ hi hc ht => ?_, fun hi hc ht hcan => ?_⟩
    · rw [State.kickPoll_kicks hi hc ht, State.kickInst_adm]
      rfl
    · rw [State.kickPoll_kicks hi hc ht]
      split
      · exact State.kickInst_kept hi hcan
      · exact State.kickInst_kept hi hcan
  · intro s w h hd hways
    have hs : ∀ {mine : Bool}, mine = true → writeRow w mine s = _ := h.stores (by decide) hd
    rw [regStore_glbMode, glbMode_merge_req] at hs
    generalize ht : s.wr .glbMode 0 _ = t at hs
    have hf : t = { s with regs := t.regs } := by rw [← ht]; rfl
    have hmode : t.mode = s.mode := by rw [hf]
    rw [← hmode]
    refine ⟨fun hv hm => ?_, fun hv hm => ?_, fun hv hm => ?_, fun hsame hv => ?_⟩
    · have e : exec (.modeReqRun w) s = _ := hs (by rw [h.reaches', hv]; rfl)
      rw [hv, State.modeRequested_run (by rw [hm]; decide)] at e
      exact ⟨_, e, by rw [hf]⟩
    · have e : exec (.modeReqConfigure w) s = _ := hs (by rw [h.reaches', hv]; rfl)
      rw [hv, State.modeRequested_configure fun k => hm (Mode.code_configure k)] at e
      exact ⟨_, e, by rw [hf]⟩
    · have e : exec (.modeReqTest w) s = _ := hs (by rw [h.reaches', hv]; rfl)
      rw [hv, State.modeRequested_test (by rw [hm]; decide) (by rw [hf]; exact hways)] at e
      exact ⟨_, e, by rw [hf]⟩
    · have e : exec (.modeReqRun w) s = _ := hs (by rw [h.reaches', hv]; rfl)
      rw [State.modeRequested_same hsame] at e
      exact ⟨_, e, by rw [hf]⟩
  · intro s w h hl hb hv
    exact h.drops (by decide) (dropReason_modeBusy hl hb) (by decide) (by rw [h.reaches', hv]; rfl)
  · intro s w h h20 hm hd hw
    have e : exec (.mbistGo w) s = _ := h.stores (by decide) hd (by rw [h.reaches', h20]; rfl)
    rw [regStore_tstMbistCtl, if_pos (by rw [Reg.bit_merge_whole (by decide) _ _ (by decide) (by decide), h20])] at e
    obtain ⟨hf, hst, hgo⟩ := State.mbistStart_spec
      (State.wf_wr s .tstMbistCtl 0 (Reg.tstMbistCtl.merge (s.stored .tstMbistCtl 0) w.data) hw)
    rw [State.rd_wr_same _ _ _ _ hw, Reg.bits_merge (by decide) _ _ (by decide) (by decide),
      Reg.bit_merge_whole (by decide) _ _ (by decide) (by decide)] at hf
    refine ⟨_, e, ?_, hst, hgo⟩
    rw [hf]
    rfl
  · intro s w h hd hw
    have e : exec (.tstRun w) s = _ := h.stores (by decide) hd h.reaches'
    have hs : s.stored .tstCtl 0 = s.rd .tstCtl 0 := rfl
    rw [hs, regStore_tstCtl] at e
    have hnew := Reg.bit_merge_whole (r := .tstCtl) (by decide) (s.rd .tstCtl 0) w.data (k := 0) (by decide) (by decide)
    have hrd := State.rd_wr_same s .tstCtl 0 (Reg.tstCtl.merge (s.rd .tstCtl 0) w.data) hw
    have hwf := State.wf_wr s .tstCtl 0 (Reg.tstCtl.merge (s.rd .tstCtl 0) w.data) hw
    rw [← hnew]
    generalize Reg.tstCtl.merge (s.rd .tstCtl 0) w.data = new at e hrd hwf ⊢
    refine ⟨_, e, ?_, fun hn ho => (State.runWritten_rises hwf hn ho).2, fun hn ho => ?_, fun hn => ?_⟩
    · rw [State.runWritten_tstCtl hwf, hrd]
    · obtain ⟨⟨m, hf⟩, _, hb⟩ := State.runWritten_falls hwf hn ho
      exact ⟨by rw [hf]; rfl, hb⟩
    · rw [State.runWritten_same _ hn]
      rfl
  · intro s w i h hi h7 hd hw hsame
    have e : exec (.tstInj w) s = _ := h.stores (by decide) hd (by rw [h.reaches', h7]; rfl)
    have hs : s.stored .tstUnitCtl i = s.rd .tstUnitCtl i := rfl
    rw [hs, regStore_tstUnitCtl] at e
    refine ⟨fun hm => ?_, fun _ hidle => ?_⟩
    · obtain ⟨hu, hb⟩ := tstUnitCtl_stored hw h7 hsame (.inl hm)
      exact ⟨_, e, by rw [hu]; rfl, by rw [hu]; exact hb⟩
    · obtain ⟨hu, hb⟩ := tstUnitCtl_stored hw h7 hsame (.inr hidle)
      exact ⟨_, e, by rw [hu]; rfl, by rw [hu]; exact hb⟩
  · intro s i _ hr hm hg hc hsus he hw
    exact ⟨_, rfl, State.portLoop_spec hr hm hg hc hsus he hw⟩
  · intro s sel repair h hm hf hw
    obtain ⟨m, hrec⟩ := s.mbistRecords_frame sel repair
    obtain ⟨hbusy, hdone, hways, hckpt⟩ := State.mbistShown_spec (s := s.mbistRecords sel repair []) (by rw [hrec]; exact hw) sel
    refine ⟨_, mbistRunDone_ends h hm hf, rfl, hbusy, hdone, fun h16 => hways.trans (if_pos h16), fun h17 => hckpt.trans (if_pos h17),
      fun h16 => hways.trans ?_, fun h17 => hckpt.trans ?_⟩
    · rw [h16, hrec]
      rfl
    · rw [h17, hrec]
      rfl
  · intro s u hu hc hw
    exact ⟨_, syncGained_sets hu hc, rfl, State.bit_setSync hw u true⟩
  · intro s u hu hc hb hw
    by_cases hm : s.mode = .test
    · obtain ⟨⟨m, hf⟩, hsync, hcount⟩ := State.syncLost_test_spec hw hu (16 + (Config.freeValue s.freeCtr).toNat % 4081)
      refine ⟨_, syncLost_inTest hu hc hb hm, hsync, hcount, fun hn => absurd hm hn, fun _ => ?_⟩
      rw [hf]
    · obtain ⟨hf, hsync, hcount, hidle⟩ := State.idleLost_spec (s := s) hw hu (show u - 16 < 3 by omega)
      exact ⟨_, syncLost_outsideTest hu hc hb hm, hsync, hcount, fun _ => ⟨hf, hidle⟩, fun hn => absurd hn hm⟩

end Sys2Proof.Machine
end

section
/-! PROOFS. The queue of waiting commands, and the command at its front. -/

namespace Sys2Proof.Machine

/-- A command leaves the queue of waiting commands as it is: the edges of rst_n too, which keep it beside what they reset. -/
theorem exec_pending {c : Instr} {s t : State} (h : exec c s = .next t) : t.pending = s.pending := by
  by_cases hfall : c = .rstNFall
  · subst hfall
    obtain rfl := Host.Outcome.next.inj h
    rfl
  · by_cases hrise : c = .rstNRise
    · subst hrise
      change execRstNRise s = .next t at h
      unfold execRstNRise at h
      split at h <;> (obtain rfl := Host.Outcome.next.inj h; rfl)
    · exact (exec_keeps c s hfall hrise t h).pending

/-- Settles O60: a tick keeps an empty queue, and a command keeps the rest that it finds (`exec_pending`). -/
theorem queueKept : Obligations.QueueKept := by
  intro s t h
  unfold step at h
  split at h
  · next he =>
    obtain rfl := Host.Outcome.next.inj h
    rw [(tick_keeps s).pending, he]
    rfl
  · next c cs he => rw [exec_pending h, he]; rfl

/-- Settles O1: the step's own equation on a queue with a front. -/
theorem stepRunsFront : Obligations.StepRunsFront := by
  intro s c cs h
  unfold step
  rw [h]

end Sys2Proof.Machine
end

section
/-! PROOFS. Every command answers a next state, or names no unit of the block (16 R478). -/

namespace Sys2Proof.Machine

/-- What a command may answer: a next state, or a fault where it is ill-formed. -/
inductive Answers (wf : Bool) : Out → Prop
  | next (s : State) : Answers wf (.next s)
  | fault (f : Fault) (h : wf = false) : Answers wf (.fault f)

theorem Answers.not_refused {wf : Bool} {o : Out} {r : Refusal} (h : Answers wf o) : o ≠ .refused r := by
  cases h <;> exact nofun

theorem Answers.of_wf {wf : Bool} {o : Out} (h : Answers wf o) (hwf : wf = true) : ∃ t, o = .next t := by
  cases h with
  | next t => exact ⟨t, rfl⟩
  | fault _ hbad => rw [hwf] at hbad; cases hbad

theorem Answers.of_fault {wf : Bool} {o : Out} {f : Fault} (h : Answers wf o) (ho : o = .fault f) : wf = false := by
  cases h with
  | next t => cases ho
  | fault _ hbad => exact hbad

/-- An operand is checked first, and a well-formed command passes. -/
theorem Answers.guard {wf : Bool} {bad : Prop} [Decidable bad] {f : Fault} {o : Out} (h : wf = true → ¬bad) (k : Answers wf o) :
    Answers wf (if bad then .fault f else o) := by
  split
  · next hbad => exact .fault f (Bool.eq_false_iff.mpr fun hwf => h hwf hbad)
  · exact k

theorem Answers.beginCmd (wf : Bool) (op : Nat) (run : State → Bool → AdmCmd → State) (s : State) :
    Answers wf (Machine.beginCmd op run s) := by
  unfold Machine.beginCmd
  repeat' first | with_reducible exact .next _ | split

theorem Answers.writeRow (w : RegWrite) (mine : Bool) (s : State) : Answers w.wf (Machine.writeRow w mine s) := by
  unfold Machine.writeRow
  refine .guard (fun h => ?_) ?_
  · simp only [RegWrite.wf, Bool.and_eq_true, decide_eq_true_eq] at h
    omega
  · split
    · exact .next _
    · exact .next _

/-- The check of a cluster and a slot passes where the command names both. -/
theorem not_slotGuard {clu slot : Nat} (h : (decide (clu < 16) && decide (slot < 34)) = true) :
    ¬(decide (16 ≤ clu) || decide (34 ≤ slot)) = true := by
  simp only [Bool.and_eq_true, decide_eq_true_eq, Bool.or_eq_true] at h ⊢
  omega

theorem Answers.beginData (k : OpKind) (clu slot : Nat) (s : State) :
    Answers (decide (clu < 16) && decide (slot < 34)) (Machine.beginData k clu slot s) := by
  unfold Machine.beginData
  refine .guard not_slotGuard ?_
  repeat' first | with_reducible exact .next _ | split

theorem Answers.ite {wf : Bool} {c : Prop} [Decidable c] {a b : Out} (ha : Answers wf a) (hb : Answers wf b) :
    Answers wf (if c then a else b) := by
  split
  · exact ha
  · exact hb

/-- A tail word's read: each of the things that a tail word asks for is done (02 R69). -/
theorem Answers.tailLineReadResponse (wf : Bool) (aid : Nat) (ans : Answer) (s : State) :
    Answers wf (execTailLineReadResponse aid ans s) := by
  dsimp only [execTailLineReadResponse]
  split
  · exact .next _
  · split
    · refine .ite (.next _) ?_
      split
      · exact .next _
      · refine .ite (.next _) (.ite (.next _) (.ite (.next _) (.ite ?_ (.ite (.next _) (.ite (.next _) ?_)))))
        · split <;> exact .next _
        · split
          · exact .next _
          · exact .ite (.next _) (.next _)
    · exact .next _
    · exact .next _

/-- Every command answers: an ill-formed one may be a fault, and none is refused. -/
theorem exec_answers (c : Instr) (s : State) : Answers c.wf (exec c s) := by
  cases c with
  | createInstance | modifyInstance | quiesceInstance | drainOrSquash | resetInstance | destroyInstance | modifyQueue | destroyQueue
  | moveQueue | stage | commit | startDirtyLog | harvestDirtyLog | stopDirtyLog | evmUpdate | setTimebase | fedJoin | fedLeave | rest
  | readTelemetry =>
    exact .beginCmd _ _ _ _
  | createQueue =>
    dsimp only [exec, execCreateQueue]
    split
    · exact .next _
    · exact .beginCmd _ _ _ _
  | pLevelChange | clkGateWrite | modeReqRun | modeReqConfigure | modeReqTest | registerWrite | seqWriteBack | errFatalWriteBack
  | lockSetup | indClaim | indDataWrite | tbAdjWrite | tbRateWrite | admQEnableSet | admQEnableClear | eccInj | evmWflagWrite
  | evmLineCtlWrite | fedResyncWrite | dbgMemGo | dbgPollGo | pllRestart | mbistGo | tstRun | tstInj =>
    exact .writeRow _ _ _
  | copy | gather | scatter | sglist | fill | check | piInsert | piStrip | piVerify =>
    exact .beginData _ _ _ _
  | link | fence | fenceComplete | signal | signalPulse | wait | waitTimeout | nop | parkTest | parkCeil | readRequestIssue
  | writeRequestIssue | lensHoldExpiry | replayBackoffEnd | fabMaxExceeded | releaseLimit | slotRetired | loafRelease
  | checkpointStored | ckptCeil =>
    dsimp only [exec, execLink, execFence, execFenceComplete, execSignal, execSignalPulse, execWait, execWaitTimeout, execNop, execParkTest,
      execParkCeil, execReadRequestIssue, execWriteRequestIssue, execLensHoldExpiry, execReplayBackoffEnd, execFabMaxExceeded,
      execReleaseLimit, execSlotRetired, execLoafRelease, execCheckpointStored, execCkptCeil]
    refine .guard (fun h => by simp only [Instr.wf, Bool.and_eq_true, decide_eq_true_eq, Bool.or_eq_true] at h ⊢; omega) ?_
    repeat' first | with_reducible exact .next _ | split
  | pollDue | ctxFetchCeil | contextWriteBack | promotion | slotReread | tornCeilReached | poolLineGrant | descriptorPlaced
  | completionRecord | abandonedRecord | noticeDelayExpiry | instanceQuiet | queueDrainEnd | thresholdEval | intervalTimerExpiry
  | evInEdge | rateMergedEdge | stuckCeil | suspectClear | clusterClockStop | regAccessCeil | agentReset | fabricCredit | train
  | manifest | heartbeat | time | config | configAck | doorbell | fenceFrame | ack | witnessRead | adoptionStart | linkRetryCeil
  | linkResendLimit | linkIdleErrLimit | linkRxKindZero | ackSend | rxOk | syncGained | syncLost | evInFall | pollAccessIssue
  | datapathBeat =>
    dsimp only [exec, execPollDue, execCtxFetchCeil, execContextWriteBack, execPromotion, execSlotReread, execTornCeilReached, execPoolLineGrant,
      execDescriptorPlaced, execCompletionRecord, execAbandonedRecord, execNoticeDelayExpiry, execInstanceQuiet, execQueueDrainEnd,
      execThresholdEval, execIntervalTimerExpiry, execEvInEdge, execRateMergedEdge, execStuckCeil, execSuspectClear,
      execClusterClockStop, execRegAccessCeil, execAgentReset, execFabricCredit, execTrain, execManifest, execHeartbeat, execTime,
      execConfig, execConfigAck, execDoorbell, execFenceFrame, execAck, execWitnessRead, execAdoptionStart, execLinkRetryCeil,
      execLinkResendLimit, execLinkIdleErrLimit, execLinkRxKindZero, execAckSend, execRxOk, execSyncGained, execSyncLost, execEvInFall,
      execPollAccessIssue, execDatapathBeat]
    refine .guard (fun h => by simp only [Instr.wf, Bool.and_eq_true, decide_eq_true_eq] at h; omega) ?_
    repeat' first | with_reducible exact .next _ | split
  | indDataRead | tbLoRead | sClassRead =>
    dsimp only [exec, execIndDataRead, execTbLoRead, execSClassRead]
    refine .guard (fun h => by simp only [Instr.wf, RegRead.wf, Bool.and_eq_true, decide_eq_true_eq] at h; omega) ?_
    repeat' first | with_reducible exact .next _ | split
  | bind =>
    dsimp only [exec, execBind]
    refine .guard (fun h => by simp only [Instr.wf, Bool.and_eq_true, decide_eq_true_eq, Bool.or_eq_true] at h ⊢; omega) ?_
    repeat' first | with_reducible exact .next _ | split
  | waitFlagSeen =>
    dsimp only [exec, execWaitFlagSeen]
    refine .guard (fun h => by simp only [Instr.wf, Bool.and_eq_true, decide_eq_true_eq, Bool.or_eq_true] at h ⊢; omega) ?_
    repeat' first | with_reducible exact .next _ | split
  | muxHangCeil =>
    dsimp only [exec, execMuxHangCeil]
    refine .guard (fun h => by simp only [Instr.wf, Bool.and_eq_true, decide_eq_true_eq] at h; omega) ?_
    repeat' first | with_reducible exact .next _ | split
  | holdCeil | forcedWin =>
    dsimp only [exec, execHoldCeil, execForcedWin]
    refine .guard (fun h => Nat.not_le.mpr (of_decide_eq_true h)) ?_
    repeat' first | with_reducible exact .next _ | split
  | evmSourcePulse =>
    dsimp only [exec, execEvmSourcePulse]
    refine .guard (fun h => by simpa [Instr.wf] using h) ?_
    repeat' first | with_reducible exact .next _ | split
  | wake =>
    dsimp only [exec, execWake]
    split
    · refine .guard (fun h => Nat.not_le.mpr (of_decide_eq_true h)) ?_
      repeat' first | with_reducible exact .next _ | split
    · exact .next _
  | adminDoorbellRead | adminDoorbellResponse | adminSlotReadResponse | adminRecordAck | admMemCeil | rootSwapResponse
  | leafSwapResponse | doorbellLineReadResponse | pollAccessCeil | ctxFetchResponse | ctxWriteBackAck | slotReadResponse | slotReadCeil
  | readResponse | writeAck | dataReadCeil | dataWriteCeil | recordWriteCeil | recordGiveUp | beatCeil | quarantineEnd
  | storeBridgeTransfer | completionRecordAck | noticeAck | quiesceTimeout | errorLogWrite | errorLogAck | dirtyLogRecordWrite
  | filterSweepDone | occupancySample | refclkLost | pllWindowEnd | pllTapLost | pllLockCeil | pwAckToggle | pwAckCeil | restIdleMet
  | restTimeout | restEntry | wakeTimer | wakeRun | rstNFall | rstNRise | bringupEnd | modeTransitionDone | mbistRunDone
  | regParityFault | shadowScrub | heartbeatSend | witnessReadResponse | selfFence | joinCeil | imageReadResponse | adminSlotReread
  | quietPoint | commitCeil | telemetryWriteCeil | dbgMemCeil | tstRequestCeil | witnessReadCeil | wakeRestart =>
    dsimp only [exec, execAdminDoorbellRead, execAdminDoorbellResponse, execAdminSlotReadResponse, execAdminRecordAck, execAdmMemCeil,
      execRootSwapResponse, execLeafSwapResponse, execDoorbellLineReadResponse, execPollAccessCeil, execCtxFetchResponse,
      execCtxWriteBackAck, execSlotReadResponse, execSlotReadCeil, execReadResponse, execWriteAck, execDataReadCeil, execDataWriteCeil,
      execRecordWriteCeil, execRecordGiveUp, execBeatCeil, execQuarantineEnd, execStoreBridgeTransfer, execCompletionRecordAck,
      execNoticeAck, execQuiesceTimeout, execErrorLogWrite, execErrorLogAck, execDirtyLogRecordWrite, execFilterSweepDone,
      execOccupancySample, execRefclkLost, execPllWindowEnd, execPllTapLost, execPllLockCeil, execPwAckToggle, execPwAckCeil,
      execRestIdleMet, execRestTimeout, execRestEntry, execWakeTimer, execWakeRun, execRstNFall, execRstNRise, execBringupEnd,
      execModeTransitionDone, execMbistRunDone, execRegParityFault, execShadowScrub, execHeartbeatSend, execWitnessReadResponse,
      execSelfFence, execJoinCeil, execImageReadResponse, execAdminSlotReread, execQuietPoint, execCommitCeil, execTelemetryWriteCeil,
      execDbgMemCeil, execTstRequestCeil, execWitnessReadCeil, execWakeRestart]
    repeat' first | with_reducible exact .next _ | split
  | tailLineReadResponse =>
    dsimp only [exec]
    exact Answers.tailLineReadResponse _ _ _ _

/-- Settles O3: each part reads one answer of `exec_answers`. -/
theorem wellFormedCommandsRun : Obligations.WellFormedCommandsRun := by
  refine ⟨fun c s r => ?_, fun c s hwf => ?_, fun c s f hf => ?_⟩
  · exact (exec_answers c s).not_refused
  · exact (exec_answers c s).of_wf hwf
  · exact (exec_answers c s).of_fault hf

end Sys2Proof.Machine
end

section
/-! PROOFS. The block right after rst_n rises (16 R500, 19 R543, R546). -/

namespace Sys2Proof.Machine

/-- A register that no word is held for reads its reset value (R500). -/
theorem State.reset_rd (r : Reg) (i : Nat) : State.reset.rd r i = BitVec.ofNat 32 r.reset := by
  simp [State.rd, State.reset, WordMap.get]

/-- Only IID 0 has a word of its own after reset, its INST_STATE. -/
theorem State.reset_inst {iid : Nat} (h : 1 ≤ iid) (w : Nat) : State.reset.inst iid w = 0 := by
  have hne : (13 : Nat) ≠ 16 * iid + w := by omega
  simp [State.inst, State.reset, WordMap.get, hne]

/-- Settles O58: the record's own fields, and the two reads of the maps. -/
theorem resetState : Obligations.ResetState := by
  have hinst : ∀ iid, 1 ≤ iid → State.reset.instState iid = 0 := by
    intro iid h
    rw [State.instState, State.instFld, State.reset_inst h]
    rfl
  exact ⟨by decide, by decide, by decide, by decide, by decide, rfl, rfl, rfl, rfl, by decide, by decide, rfl, rfl, rfl, rfl, rfl,
    State.reset_rd, hinst⟩

end Sys2Proof.Machine
end

section
/-! PROOFS. The register port (16 R475 to R485): which register an offset reaches, and what an access that is answered OK does; the
timebase's reads (13 R399), LOCK_SETUP (16 R484) and the claims of the indirect pairs (16 R493). -/

namespace Sys2Proof.Machine

/-! The register at an offset (16 R475). -/

theorem regList_bases_nodup : (regList.map (·.base)).Nodup := by decide +kernel

theorem Reg.eq_of_base {r q : Reg} (hr : r ∈ regList) (hq : q ∈ regList) (h : r.base = q.base) : r = q :=
  List.inj_on_of_nodup_map regList_bases_nodup hr hq h

theorem regAtOffset_mem {off : Nat} {r : Reg} (h : regAtOffset off = some r) : r ∈ regList := List.mem_of_find?_eq_some h

theorem regAtOffset_covers {off : Nat} {r : Reg} (h : regAtOffset off = some r) : r.covers off = true := by
  have hc := List.find?_some h
  exact hc

/-- The register that an offset reaches, by the test of a row. -/
theorem regAtOffset_of_reaches' {a : Nat} {r : Reg} (hr : r ∈ regList) (h : reaches' a r = true) :
    regAtOffset (canonOffset a) = some r := by
  unfold reaches' at h
  split at h
  · next q hq => rw [hq, Reg.eq_of_base (regAtOffset_mem hq) hr (beq_iff_eq.mp h)]
  · cases h

theorem reaches'_of_regAtOffset {a : Nat} {r q : Reg} (h : regAtOffset (canonOffset a) = some r) : reaches' a q = (r.base == q.base) := by
  unfold reaches'
  rw [h]

/-- A register of one word, outside the clusters, lies at its base. -/
theorem Reg.eq_base_of_covers {r : Reg} {off : Nat} (hc : r.clustered = false) (hn : r.count = 1) (h : r.covers off = true) : off = r.base := by
  unfold Reg.covers at h
  rw [hc, if_neg (by decide), hn, Nat.mul_one] at h
  simp only [Bool.and_eq_true, decide_eq_true_eq] at h
  obtain ⟨⟨hle, hlt⟩, hmod⟩ := h
  rw [Nat.mod_eq_of_lt (by omega)] at hmod
  omega

/-! A write that is answered OK. -/

section
variable {s : State} {w : RegWrite} {r : Reg} {i : Nat} (h : Written s w r i)
include h

theorem Written.mem : r ∈ regList := by
  obtain ⟨_, _, _, hr, _⟩ := h
  exact regAtOffset_mem hr

/-- Its row does what the register's class says. -/
theorem Written.row {mine : Bool} (hm : mine = true) : writeRow w mine s = .next ((s.writeOk w (canonOffset w.offset)).okWrite w) := by
  obtain ⟨ht, ha, hc, _, _⟩ := h
  rw [writeRow, if_neg (by omega), if_pos hm, State.regWrite, ht, if_neg (by decide)]
  dsimp only
  rw [if_pos hc, hc]
  rfl

/-- What it does, by the register's class (16 R479, R481, R483). -/
theorem Written.writeOk_eq : s.writeOk w (canonOffset w.offset) =
    if r.sBits ≠ 0 then s.seqClear r i w.data
    else if r.base = Reg.regIndClaim.base then s.claimWrite i w.agent w.data (canonOffset w.offset)
    else if r.base = Reg.regIndAddr.base then s.wr r i (w.data &&& BitVec.ofNat 32 r.xBits)
    else if r.base = Reg.regIndData.base then s.indWrite i w (canonOffset w.offset)
    else if r.base = Reg.regLock.base then s.lockWrite w.agent w.data (canonOffset w.offset)
    else if r.pBits = 0 ∧ r.mBits = 0 then s
    else if dropReason s r (s.stored r i) (r.merge (s.stored r i) w.data) w.data ≠ 0 then
      s.reportDrop (dropReason s r (s.stored r i) (r.merge (s.stored r i) w.data) w.data) w.agent (canonOffset w.offset)
    else s.regStore r i (s.stored r i) (r.merge (s.stored r i) w.data) w.agent := by
  obtain ⟨_, _, _, hr, hi⟩ := h
  unfold State.writeOk
  rw [hr]
  dsimp only
  rw [hi]

end

/-! A read that is answered OK. -/

/-- It does its register's part and answers with the data. -/
theorem ReadTaken.regRead {s : State} {r : RegRead} (h : ReadTaken s r) (data : W32) (f : State → State) :
    s.regRead r data f = ((f s).answer r.agent 0 data).accessWakes := by
  obtain ⟨ht, _, hc⟩ := h
  rw [State.regRead, ht, if_neg (by decide)]
  dsimp only
  rw [if_pos hc, hc]

/-! The timebase's reads (13 R399). -/

theorem assocGet_assocPut_of_ne {β : Type} (xs : List (Nat × β)) {k n : Nat} (v : β) (h : n ≠ k) :
    assocGet (assocPut xs k v) n = assocGet xs n := assocGet_assocPut_ne h

/-- A read of TEL_TB_LO latches the high half for its agent. -/
theorem ReadTaken.tbLo {s : State} {r : RegRead} (h : ReadTaken s r) (hr : reaches' r.offset .telTbLo = true) :
    exec (.tbLoRead r) s = .next (({ s with tbLatch := assocPut s.tbLatch r.agent ((s.timebase >>> 32).setWidth 32) }.answer r.agent 0
      (s.timebase.setWidth 32)).accessWakes) := by
  change execTbLoRead r s = _
  have ha := h.2.1
  unfold execTbLoRead
  rw [if_neg (by omega), hr, if_neg (by decide), h.regRead]

/-- A direct register without a status field is read without effect. -/
theorem ReadTaken.plain {s : State} {r : RegRead} (h : ReadTaken s r) (hlo : reaches' r.offset .telTbLo = false)
    (hd : reaches' r.offset .regIndData = false) : exec (.sClassRead r) s =
      .next (((s.noteRead r.agent (canonOffset r.offset) (readReg s r.agent (canonOffset r.offset))).answer r.agent 0
        (readReg s r.agent (canonOffset r.offset))).accessWakes) := by
  change execSClassRead r s = _
  have ha := h.2.1
  unfold execSClassRead
  rw [if_neg (by omega), hlo, hd, if_neg (by decide)]
  dsimp only
  rw [h.regRead]

theorem State.noteRead_of_not_reachesS {s : State} {off : Nat} (h : reachesS off = false) (agent : Nat) (v : W32) :
    s.noteRead agent off v = s := by
  rw [State.noteRead, h, if_neg (by decide)]

/-- Settles O45: TEL_TB_HI lies alone at its offset and has no SEQ, so that its read notes nothing. -/
theorem timebaseReads : Obligations.TimebaseReads := by
  refine ⟨fun s r h hr => ⟨_, h.tbLo hr, rfl, assocGet_assocPut _ _ _, fun a ha => assocGet_assocPut_of_ne _ _ ha⟩, ?_⟩
  intro s r v h hr hv
  have hreg := regAtOffset_of_reaches' (by decide) hr
  have hoff : canonOffset r.offset = Reg.telTbHi.base := Reg.eq_base_of_covers rfl rfl (regAtOffset_covers hreg)
  have hread : readReg s r.agent (canonOffset r.offset) = v := by
    unfold readReg
    rw [hreg]
    change (assocGet s.tbLatch r.agent).getD 0 = v
    rw [hv]
    rfl
  rw [h.plain (by rw [reaches'_of_regAtOffset hreg]; rfl) (by rw [reaches'_of_regAtOffset hreg]; rfl), hread, hoff,
    State.noteRead_of_not_reachesS (by decide)]

/-! LOCK_SETUP (16 R484). -/

/-- A PLL that starts writes its state. -/
theorem RegsBut.pllStart (s : State) (p tripped : Bool) : RegsBut [Reg.clkStat.addr 0] s (s.pllStart p tripped) :=
  (RegsBut.setFld (List.mem_singleton_self _) _ _ _).trans (RegsBut.of_regs (s := s.setPll p 1) rfl)

/-- The counts and the PLLs of a wake. -/
def State.wakeCounted (s : State) (cause : Nat) : State :=
  (((s.bump .pwrWakes 0 0 16 1).setFld .pwrWakes 0 16 2 cause).pllStart false false).pllStart true false

theorem State.startWake_eq (s : State) (cause : Nat) :
    s.startWake cause = { s.wakeCounted cause with pwRest := false, wakeAt := some s.nomNs } := rfl

theorem State.pllStart_resp (s : State) (p tripped : Bool) : (s.pllStart p tripped).resp = s.resp := rfl

theorem State.wakeCounted_frame (s : State) (cause : Nat) :
    RegsBut [Reg.pwrWakes.addr 0, Reg.clkStat.addr 0] s (s.wakeCounted cause) ∧ (s.wakeCounted cause).resp = s.resp := by
  have hw : ∀ (t : State) lo len v, RegsBut [Reg.pwrWakes.addr 0, Reg.clkStat.addr 0] t (t.setFld .pwrWakes 0 lo len v) :=
    fun t lo len v => RegsBut.setFld List.mem_cons_self _ _ _
  have hp : ∀ (t : State) p, RegsBut [Reg.pwrWakes.addr 0, Reg.clkStat.addr 0] t (t.pllStart p false) :=
    fun t p => (RegsBut.pllStart t p false).mono (List.subset_cons_self _ _)
  unfold State.wakeCounted
  refine ⟨(((hw s 0 16 _).trans (hw _ 16 2 cause)).trans (hp _ false)).trans (hp _ true), ?_⟩
  rw [State.pllStart_resp, State.pllStart_resp]
  rfl

/-- A wake writes CLK_STAT and PWR_WAKES, and nothing that answers an access (15 R472). -/
theorem State.accessWakes_frame (s : State) :
    RegsBut [Reg.pwrWakes.addr 0, Reg.clkStat.addr 0] s s.accessWakes ∧ s.accessWakes.resp = s.resp := by
  unfold State.accessWakes State.wakeBy
  split
  · exact ⟨.of_regs rfl, rfl⟩
  · split
    · exact ⟨.of_regs rfl, rfl⟩
    · split
      · obtain ⟨hb, hr⟩ := s.wakeCounted_frame 1
        rw [State.startWake_eq]
        exact ⟨hb.trans (.of_regs rfl), hr⟩
      · exact ⟨.of_regs rfl, rfl⟩

/-- A write without the protected attribute is not answered OK where its register needs it (16 R478). -/
theorem writeCode_unprotected {s : State} {w : RegWrite} (hp : w.prot = false) (hn : needsProt s (canonOffset w.offset) = true) :
    writeCode s w ≠ 0 := by
  unfold writeCode
  dsimp only
  rw [hp, hn]
  repeat' split
  · decide
  · decide
  · decide
  · decide
  · decide
  · next h _ => exact absurd rfl h
  · next h _ => exact absurd rfl h

theorem writeCode_prot {s : State} {w : RegWrite} (hp : w.prot = false) (hn : needsProt s (canonOffset w.offset) = true)
    (hy : w.parityOk = true) (hh : hangCuts s (canonOffset w.offset) = false) (hf : s.fatal = false) (hb : s.mode ≠ .bringup)
    (hr : s.mode ≠ .rest) : writeCode s w = 2 := by
  unfold writeCode
  simp [hp, hn, hy, hh, hf, hb, hr]

/-- A write that is not answered OK is answered, and does nothing (16 R478). -/
theorem registerWrite_refused {s : State} {w : RegWrite} (ht : portTakes s = true) (ha : w.agent < 3) (hc : writeCode s w ≠ 0) :
    exec (.registerWrite w) s = .next ((s.answer w.agent (writeCode s w) 0).accessWakes) := by
  change writeRow w true s = _
  rw [writeRow, if_neg (by omega), if_pos rfl, State.regWrite, ht, if_neg (by decide)]
  dsimp only
  rw [if_neg hc]

theorem setupLocked_wr {s : State} (hw : s.regs.wf = true) : setupLocked (s.wr .regLock 0 1) = true := by
  rw [setupLocked, State.rd_wr_same _ _ _ _ hw]
  decide

/-- A report writes REG_ERR and REG_ERR_COUNT (16 R479). -/
theorem RegsBut.reportDrop (s : State) (reason agent off : Nat) :
    RegsBut [Reg.regErr.addr 0, Reg.regErrCount.addr 0] s (s.reportDrop reason agent off) :=
  (RegsBut.wr List.mem_cons_self _).trans (RegsBut.setFld (List.mem_cons_of_mem _ (List.mem_singleton_self _)) _ _ _)

/-- REG_ERR.REASON after a report. -/
theorem State.reportDrop_reason {s : State} (hw : s.regs.wf = true) {reason : Nat} (hr : reason < 16) (agent off : Nat) :
    bits ((s.reportDrop reason agent off).rd .regErr 0) 0 4 = reason := by
  unfold State.reportDrop State.bump State.setFld
  rw [State.rd_wr_other _ _ _ _ _ _ (by decide), State.bits_sEvent _ _ _ _ _ _ hw (by decide),
    bits_withBits_ne _ _ _ _ _ _ (by decide) (by decide), bits_withBits_ne _ _ _ _ _ _ (by decide) (by decide),
    bits_withBits _ _ _ _ (by decide)]
  exact Nat.mod_eq_of_lt hr

/-- Settles O46: REG_LOCK needs the protected attribute for every write (`writeCode_unprotected`), and its row is `State.lockWrite`. -/
theorem lockSetup : Obligations.LockSetup := by
  refine ⟨by decide, fun s t h => ?_, fun s w ht ha hr hp => ?_, fun s w h hw => ?_⟩
  · obtain rfl := Host.Outcome.next.inj h
    have hr : ∀ v, (WordMap.put [] (Reg.errFatal.addr 0) v).get (Reg.regLock.addr 0) = 0 := fun v => by
      rw [WordMap.get_put_other _ _ _ _ (by decide)]
      rfl
    rw [setupLocked, State.rd, hr]
    decide
  · have hoff : canonOffset w.offset = Reg.regLock.base :=
      Reg.eq_base_of_covers rfl rfl (regAtOffset_covers (regAtOffset_of_reaches' (by decide) hr))
    have hn : needsProt s (canonOffset w.offset) = true := by
      unfold needsProt
      simp [hoff]
    obtain ⟨hf, hresp⟩ := (s.answer w.agent (writeCode s w) 0).accessWakes_frame
    refine ⟨_, registerWrite_refused ht ha (writeCode_unprotected hp hn), hf.rd _ _ (by decide), hf.rd _ _ (by decide),
      hf.rd _ _ (by decide), fun hy hh hF hb hm => ?_⟩
    rw [hresp, writeCode_prot hp hn hy hh hF hb hm]
    rfl
  · have hk : s.writeOk w (canonOffset w.offset) = s.lockWrite w.agent w.data (canonOffset w.offset) := h.writeOk_eq
    have hrow : ∀ {mine : Bool}, mine = true → writeRow w mine s = .next ((s.lockWrite w.agent w.data (canonOffset w.offset)).okWrite w) :=
      fun hm => by rw [h.row hm, hk]
    have hmine : bit w.data 0 = true → (reaches' w.offset .regLock && bit w.data 0) = true := fun hb => by rw [h.reaches', hb]; rfl
    refine ⟨fun hb hl => ⟨?_, setupLocked_wr hw⟩, fun hb hl => ⟨?_, (RegsBut.reportDrop ..).rd _ _ (by decide)⟩, fun hb => ?_⟩
    · refine (hrow (hmine hb)).trans ?_
      rw [State.lockWrite, hb, hl, if_neg (by decide), if_neg (by decide)]
    · refine (hrow (hmine hb)).trans ?_
      rw [State.lockWrite, hb, hl, if_neg (by decide), if_pos rfl]
    · refine (hrow rfl).trans ?_
      rw [State.lockWrite, hb, if_pos (by decide)]

/-! The claims of the indirect pairs (16 R493). -/

/-- A bit of the register's three. -/
theorem bit_and_seven (v : W32) {k : Nat} (hk : k < 3) : bit (v &&& 7) k = bit v k := by
  rw [bit_eq, bit_eq, BitVec.getLsbD_and]
  have h7 : (7 : W32).getLsbD k = true := by
    revert k
    decide
  rw [h7, Bool.and_true]

theorem bits_and_seven (v : W32) : bits (v &&& 7) 0 2 = bits v 0 2 := by
  apply Nat.eq_of_testBit_eq
  intro k
  rw [testBit_bits, testBit_bits]
  by_cases hk : k < 2
  · rw [Nat.zero_add, ← bit_eq, ← bit_eq, bit_and_seven v (by omega)]
  · simp [hk]

section
variable {s : State} {w : RegWrite} {p : Nat} (h : Written s w .regIndClaim p)
include h

theorem Written.claims : exec (.indClaim w) s = .next ((s.claimWrite p w.agent w.data (canonOffset w.offset)).okWrite w) := by
  have hk : s.writeOk w (canonOffset w.offset) = s.claimWrite p w.agent w.data (canonOffset w.offset) := h.writeOk_eq
  rw [← hk]
  exact h.row h.reaches'

/-- A claim that is taken stores the data's three bits, in the pair's own register. -/
theorem Written.claim_taken
    (ht : ((!bit (s.rd .regIndClaim p) 2 && bit w.data 2 && decide (bits w.data 0 2 = w.agent)) || (holds s p w.agent && !bit w.data 2)) = true)
    (hw : s.regs.wf = true) :
    exec (.indClaim w) s = .next ((s.wr .regIndClaim p (w.data &&& 7)).okWrite w) ∧
      (s.wr .regIndClaim p (w.data &&& 7)).rd .regIndClaim p = w.data &&& 7 ∧
      ∀ q, q ≠ p → (s.wr .regIndClaim p (w.data &&& 7)).rd .regIndClaim q = s.rd .regIndClaim q := by
  refine ⟨by rw [h.claims, State.claimWrite, if_pos ht], State.rd_wr_same _ _ _ _ hw, fun q hq => State.rd_wr_other _ _ _ _ _ _ ?_⟩
  change 0x2100 + 16 * q ≠ 0x2100 + 16 * p
  omega

end

/-- Settles O47: the claim and the release are the two writes that `State.claimWrite` takes. -/
theorem pairClaims : Obligations.PairClaims := by
  intro s w p h _ hw
  refine ⟨fun hfree hset hown => ?_, fun hheld hclear => ?_, fun hclaim hrelease => ?_⟩
  · obtain ⟨he, hrd, ho⟩ := h.claim_taken (by simp [hfree, hset, hown]) hw
    refine ⟨_, he, rfl, ?_, fun q _ hq => ho q hq⟩
    rw [holds, hrd, bit_and_seven _ (by decide), bits_and_seven, hset, hown]
    simp
  · obtain ⟨he, hrd, ho⟩ := h.claim_taken (by simp [hheld, hclear]) hw
    refine ⟨_, he, rfl, ?_, fun q _ hq => ho q hq⟩
    rw [hrd, bit_and_seven _ (by decide), hclear]
  · have hdrop : ((!bit (s.rd .regIndClaim p) 2 && bit w.data 2 && decide (bits w.data 0 2 = w.agent)) ||
        (holds s p w.agent && !bit w.data 2)) = false := by
      simp only [Bool.or_eq_false_iff, Bool.and_eq_false_iff, Bool.not_eq_false', decide_eq_false_iff_not]
      constructor
      · by_contra hn
        push Not at hn
        obtain ⟨⟨h1, h2⟩, h3⟩ := hn
        exact hclaim ⟨by simpa using h1, by simpa using h2, h3⟩
      · by_contra hn
        push Not at hn
        obtain ⟨h1, h2⟩ := hn
        exact hrelease ⟨by simpa using h1, by simpa using h2⟩
    refine ⟨?_, (RegsBut.reportDrop ..).rd _ _ ?_, ?_⟩
    · rw [h.claims, State.claimWrite, hdrop, if_neg (by decide)]
    · have hne : Reg.regIndClaim.addr p = 0x2100 + 16 * p := rfl
      have h1 : Reg.regErr.addr 0 = 0x2000 := by decide
      have h2 : Reg.regErrCount.addr 0 = 0x2004 := by decide
      rw [hne, h1, h2]
      simp
      omega
    · exact State.reportDrop_reason hw (by decide) _ _

end Sys2Proof.Machine
end

section
/-! PROOFS. Register writes and reads through the port (16 R478 to R495): a write that is dropped, stored or clears status bits, ERR_FATAL,
and the indirect pairs' data. -/

namespace Sys2Proof.Machine

/-! The registers that EVM's levels set (12 R383, R392). -/

/-- EVM_LINE_STAT and EVM_WFLAG. -/
def evmSide : List Nat := (List.range 32).map (fun i => Reg.evmLineStat.addr i) ++ (List.range 4).map (fun i => Reg.evmWflag.addr i)

theorem evmLineStat_mem_evmSide {i : Nat} (h : i < 32) : Reg.evmLineStat.addr i ∈ evmSide :=
  List.mem_append_left _ (List.mem_map_of_mem (List.mem_range.mpr h))

theorem evmWflag_mem_evmSide {i : Nat} (h : i < 4) : Reg.evmWflag.addr i ∈ evmSide :=
  List.mem_append_right _ (List.mem_map_of_mem (List.mem_range.mpr h))

theorem RegsBut.refl (offs : List Nat) (s : State) : RegsBut offs s s := .of_regs rfl

theorem RegsBut.foldl_mem {α : Type} {offs : List Nat} {f : State → α → State} (xs : List α) (s : State)
    (hf : ∀ t, ∀ x ∈ xs, RegsBut offs t (f t x)) : RegsBut offs s (xs.foldl f s) := by
  induction xs generalizing s with
  | nil => exact .refl _ _
  | cons x xs ih =>
    exact (hf s x List.mem_cons_self).trans (ih _ fun t y hy => hf t y (List.mem_cons_of_mem _ hy))

theorem RegsBut.lineFlag (s : State) {l : Nat} (hl : l < 256) (edge : Bool) : RegsBut evmSide s (s.lineFlag l edge) := by
  unfold State.lineFlag
  split
  · exact .wr (evmLineStat_mem_evmSide (by omega)) _
  · exact .refl _ _

theorem RegsBut.setWaitFlag (s : State) {f : Nat} (hf : f < 64) : RegsBut evmSide s (s.setWaitFlag f) :=
  (RegsBut.setFld (evmWflag_mem_evmSide (by omega)) _ _ _).trans (RegsBut.of_regs (s := s.putWaitFlag f true) rfl)

theorem RegsBut.lineLevel (s : State) {l : Nat} (hl : l < 256) (v : Bool) : RegsBut evmSide s (s.lineLevel l v) := by
  unfold State.lineLevel
  extract_lets x raised flagged
  have hr : RegsBut evmSide s raised := .of_regs rfl
  have hf : RegsBut evmSide s flagged := hr.trans (.lineFlag _ hl _)
  split
  · exact hr
  · split
    · refine hf.trans (.foldl_mem _ _ fun t f hm => ?_)
      split
      · exact .setWaitFlag _ (List.mem_range.mp hm)
      · exact .refl _ _
    · exact hf

theorem lt_of_mem_routedLines {s : State} {l : Nat} (h : l ∈ routedLines s) : l < 256 := List.mem_range.mp (List.mem_filter.mp h).1

theorem RegsBut.gateTimers (offs : List Nat) (s : State) : RegsBut offs s s.gateTimers := by
  obtain ⟨x, e⟩ := s.gateTimers_frame
  rw [e]
  exact .of_regs rfl

theorem State.pulses_regs (s : State) (hop : Nat → Nat) (ns : List Nat) : (ns.foldl (fun t n => t.pulse n (hop n)) s).regs = s.regs := by
  induction ns generalizing s with
  | nil => rfl
  | cons n ns ih => exact (ih _).trans rfl

/-- Levels that are taken anew set flags of lines and wait flags, and no other register. -/
theorem RegsBut.refreshEvm (s : State) : RegsBut evmSide s s.refreshEvm := by
  unfold State.refreshEvm
  split
  · exact .refl _ _
  · extract_lets high hop pulsed
    have hp : RegsBut evmSide s pulsed := .of_regs (State.pulses_regs _ _ _)
    exact (hp.trans (.foldl_mem _ _ fun t l hl => .lineLevel t (lt_of_mem_routedLines hl) _)).trans (.gateTimers _ _)

/-! Writes by the class of their register (16 R479 to R483). -/

/-- Outside the classes of its own row, a register with bits of class P or M stores its value. -/
theorem storesValue_of_mem : ∀ r ∈ regList, r.sBits = 0 → (r.pBits ≠ 0 ∨ r.mBits ≠ 0) → r.base ≠ Reg.regIndClaim.base →
    storesValue r = true := by decide +kernel

/-- A register with no action of its own takes the value alone (17 R500). -/
theorem State.regStore_plain {r : Reg} (h : actionRegs.contains r.base = false) (s : State) (i : Nat) (old new : W32) (agent : Nat) :
    s.regStore r i old new agent = s.putReg r i new := by
  have hne : ∀ q ∈ actionRegs, r.base ≠ q := by
    rintro q hq rfl
    rw [List.contains_eq_mem, decide_eq_false_iff_not] at h
    exact h hq
  simp only [actionRegs, List.forall_mem_cons] at hne
  unfold State.regStore
  dsimp only
  simp only [hne, if_false]

/-- A register reads what it stored, in the bank that is active where it has two. -/
theorem State.stored_putReg {s : State} (hw : s.regs.wf = true) (he : s.evm.regs.wf = true) (r : Reg) (i : Nat) (v : W32) :
    (s.putReg r i v).stored r i = v := by
  unfold State.putReg State.stored
  split
  · exact evRd_putReg he ..
  · exact State.rd_wr_same _ _ _ _ hw

section
variable {s : State} {w : RegWrite} {r : Reg} {i : Nat} (h : Written s w r i)
include h

theorem Written.reachesS : reachesS w.offset = decide (r.sBits ≠ 0) := by
  obtain ⟨_, _, _, hr, _⟩ := h
  unfold Machine.reachesS
  rw [hr]

/-- A write of a register with a status field clears what its SEQ allows (R483). -/
theorem Written.clears (hs : r.sBits ≠ 0) {mine : Bool} (hm : mine = true) : writeRow w mine s = .next ((s.seqClear r i w.data).okWrite w) := by
  rw [h.row hm, h.writeOk_eq, if_pos hs]

end

/-- ERR_FATAL after its clearing write: its status bits are 0, and its SEQ stays (11 R351). -/
theorem errFatal_cleared (v : W32) :
    bits (v &&& ~~~(BitVec.ofNat 32 (Reg.errFatal.sBits % 2 ^ 24))) 0 18 = 0 ∧
      bits (v &&& ~~~(BitVec.ofNat 32 (Reg.errFatal.sBits % 2 ^ 24))) 24 8 = bits v 24 8 := by
  have hb : ∀ k, k < 32 → (BitVec.ofNat 32 (Reg.errFatal.sBits % 2 ^ 24)).getLsbD k = decide (k < 18) := by decide
  constructor
  · apply Nat.eq_of_testBit_eq
    intro k
    rw [testBit_bits, Nat.zero_testBit, BitVec.getLsbD_and, BitVec.getLsbD_not]
    by_cases hk : k < 18
    · rw [hb (0 + k) (by omega)]
      simp [hk]
    · simp [hk]
  · apply Nat.eq_of_testBit_eq
    intro k
    rw [testBit_bits, testBit_bits, BitVec.getLsbD_and, BitVec.getLsbD_not]
    by_cases hk : k < 8
    · rw [hb (24 + k) (by omega)]
      have h18 : ¬24 + k < 18 := by omega
      have h32 : 24 + k < 32 := by omega
      simp [hk, h18, h32]
    · simp [hk]

/-- Settles O43: every write takes its own row of the response table, and what the row leaves is said per row. -/
theorem registerWrites : Obligations.RegisterWrites := by
  refine ⟨fun s w ht ha hc => registerWrite_refused ht ha hc, fun s w r i h hs hpm hb hd => ?_, fun s w r i h hs hpm ha hd hw he => ?_,
    fun s w r i h hs => ?_, fun s w h hseq hw => ?_⟩
  · exact h.drops (storesValue_of_mem r h.mem hs hpm hb) rfl hd rfl
  · have hb : r.base ≠ Reg.regIndClaim.base := by
      intro hb
      rw [hb] at ha
      revert ha
      decide
    refine ⟨?_, State.stored_putReg hw he ..⟩
    rw [← State.regStore_plain ha s i (s.stored r i) _ w.agent]
    exact h.stores (storesValue_of_mem r h.mem hs hpm hb) hd rfl
  · have hrow := h.clears hs (h.reachesS.trans (decide_eq_true hs))
    refine ⟨fun hseq => ?_, fun hseq => ?_⟩
    · rw [State.seqClear, if_pos hseq] at hrow
      exact hrow
    · rw [State.seqClear, if_neg hseq] at hrow
      exact hrow
  · have hrow := h.clears (by decide) h.reaches'
    rw [State.seqClear, if_pos hseq] at hrow
    have hrd := (RegsBut.refreshEvm (s.wr .errFatal 0 (s.rd .errFatal 0 &&& ~~~(BitVec.ofNat 32 (Reg.errFatal.sBits % 2 ^ 24))))).rd
      .errFatal 0 (by decide)
    rw [State.rd_wr_same _ _ _ _ hw] at hrd
    obtain ⟨hz, hk⟩ := errFatal_cleared (s.rd .errFatal 0)
    exact ⟨_, hrow, by rw [hrd]; exact hz, by rw [hrd]; exact hk⟩

/-! Reads (16 R481, R482) and the indirect pairs (16 R494, R495). -/

/-- A read that is not answered OK is answered without data. -/
theorem sClassRead_refused {s : State} {r : RegRead} (ht : portTakes s = true) (ha : r.agent < 3) (hc : readCode s r ≠ 0)
    (hlo : reaches' r.offset .telTbLo = false) (hd : reaches' r.offset .regIndData = false) :
    exec (.sClassRead r) s = .next ((s.answer r.agent (readCode s r) 0).accessWakes) := by
  change execSClassRead r s = _
  unfold execSClassRead State.regRead
  rw [if_neg (by omega), hlo, hd, if_neg (by decide), ht]
  dsimp only
  rw [if_neg (by decide), if_neg hc, State.answer, State.answer, if_neg hc, if_neg hc]

/-- The SEQ read is the agent's last of that register. -/
theorem State.noteRead_spec (s : State) (agent off : Nat) (v : W32) :
    s.noteRead agent off v = { s with lastRead := (s.noteRead agent off v).lastRead } ∧
      (reachesS off = true →
        (s.noteRead agent off v).lastRead.find? (fun x => x.1 == agent && x.2.1 == off) = some (agent, off, bits v 24 8)) := by
  unfold State.noteRead
  split
  · exact ⟨rfl, fun _ => List.find?_cons_of_pos (by simp)⟩
  · next h => exact ⟨rfl, fun hr => absurd hr h⟩

/-- A data access moves WORD by STRIDE. -/
theorem State.indAdvance_word {s : State} (hw : s.regs.wf = true) (p : Nat) :
    indWord (s.indAdvance p) p = (indWord s p + indStride s p) % 2 ^ 20 := State.fld_setFld _ _ _ _ _ _ hw (by decide)

theorem ReadTaken.indData {s : State} {r : RegRead} {p : Nat} (h : ReadTaken s r) (hp : dataPair (canonOffset r.offset) = some p) :
    exec (.indDataRead r) s = .next (((s.indAdvance p).answer r.agent 0 (indRead s (indSpace s p) (indWord s p))).accessWakes) := by
  obtain ⟨_, ha, _⟩ := id h
  change execIndDataRead r s = _
  unfold execIndDataRead
  rw [if_neg (by omega), hp]
  dsimp only
  rw [h.regRead]

theorem State.putInst_regs (s : State) (iid w : Nat) (v : W32) : (s.putInst iid w v).regs = s.regs := by
  unfold State.putInst
  dsimp only
  split
  · split
    · rfl
    · rfl
  · split
    · rfl
    · rfl

/-- Outside RUN and REST, with LOCK_SETUP clear, a word of the instance table takes the data but for reserved bits. -/
theorem State.is0Write_free {s : State} {x : Nat} (hx : x < 65536) (hx13 : x % 16 < 13) (hl : setupLocked s = false)
    (hr : refusing s = false) (data : W32) (agent off : Nat) :
    s.is0Write x data agent off = s.putInst (x / 16) (x % 16) (data &&& ~~~(BitVec.ofNat 32 (imageReserved (x % 16)))) := by
  unfold State.is0Write
  dsimp only
  rw [if_neg (by omega), hl, hr, Bool.false_and, Bool.false_and, if_neg (by decide), if_neg (by decide)]

/-- Settles O44: a plain read notes at most its SEQ, and data accesses of a pair end in `State.indAdvance`. -/
theorem registerReads : Obligations.RegisterReads := by
  refine ⟨fun s r h hlo hd => ?_, fun s r ht ha hc hlo hd => sClassRead_refused ht ha hc hlo hd, fun s r p h hp hw => ?_,
    fun s w p h hs hx hx13 hl hr hw hi => ?_⟩
  · obtain ⟨hframe, hnote⟩ := s.noteRead_spec r.agent (canonOffset r.offset) (readReg s r.agent (canonOffset r.offset))
    exact ⟨_, h.plain hlo hd, hframe, fun hn => State.noteRead_of_not_reachesS hn _ _, hnote⟩
  · exact ⟨_, h.indData hp, rfl, State.indAdvance_word hw p⟩
  · have hk : s.writeOk w (canonOffset w.offset) = s.indWrite p w (canonOffset w.offset) := h.writeOk_eq
    have hrow := h.row h.reaches'
    rw [hk, State.indWrite, State.indStore, if_pos hs, State.is0Write_free hx hx13 hl hr] at hrow
    generalize hv : w.data &&& ~~~(BitVec.ofNat 32 (imageReserved (indWord s p % 16))) = v at hrow ⊢
    have hregs := s.putInst_regs (indWord s p / 16) (indWord s p % 16) v
    have hput := s.putInst_is0 (indWord s p / 16) (indWord s p % 16) v
    have his0 : (s.setInst (indWord s p / 16) (indWord s p % 16) v).is0 = s.is0.put (indWord s p) v := by
      rw [State.setInst]
      dsimp only
      rw [Nat.div_add_mod]
    generalize s.putInst (indWord s p / 16) (indWord s p % 16) v = t at hrow hregs hput
    have hfld : ∀ lo len, t.fld .regIndAddr p lo len = s.fld .regIndAddr p lo len := fun lo len => by
      rw [State.fld, State.fld, State.rd, State.rd, hregs]
    refine ⟨_, hrow, ?_, fun k hk => ?_, ?_⟩
    · change t.is0.get _ = v
      rw [hput, his0, WordMap.get_put_same _ 0 _ _ hi]
    · change t.is0.get k = _
      rw [hput, his0, WordMap.get_put_other _ _ _ _ hk]
    · rw [State.indAdvance_word (by rw [hregs]; exact hw), indWord, indStride, hfld, hfld]
      rfl

end Sys2Proof.Machine
end

section
/-! PROOFS. Faults of the registers (16 R478, R489, R490; 11 R349) and an agent's reset (18 R529). -/

namespace Sys2Proof.Machine

/-! Accesses that a domain does not take (16 R478). -/

section
variable {s : State} {agent offset : Nat} (ha : agent < 3) (ht : portTakes s = true)
include ha ht

/-- An earlier row answers the access. -/
theorem regAccessCeil_answered (hc : readCode s { agent := agent, offset := offset, prot := true, parityOk := true } ≠ 0) :
    exec (.regAccessCeil agent offset) s = .next
      ((s.answer agent (readCode s { agent := agent, offset := offset, prot := true, parityOk := true }) 0).accessWakes) := by
  change execRegAccessCeil agent offset s = _
  unfold execRegAccessCeil
  rw [if_neg (by omega), ht, if_neg (by decide)]
  dsimp only
  rw [if_pos hc]

/-- Else it is GATED, and logged. -/
theorem regAccessCeil_gated (hc : readCode s { agent := agent, offset := offset, prot := true, parityOk := true } = 0)
    (hf : s.fatal = false) : exec (.regAccessCeil agent offset) s = .next
      (((s.logErr (mkErr 3 1 0x4D 0 0 63 0 0 (canonOffset offset) agent)).answer agent 1 0).accessWakes) := by
  change execRegAccessCeil agent offset s = _
  unfold execRegAccessCeil
  rw [if_neg (by omega), ht, if_neg (by decide)]
  dsimp only
  rw [if_neg (not_not.mpr hc), hf, if_neg (by decide)]

end

/-! Targets of the walker (16 R489 to R491). -/

theorem regParityFault_eq {s : State} {target : Nat} {x : Target} (hx : targetOf target = some x) (ha : awake s) (flop : W32) (bad : Bool) :
    exec (.regParityFault target flop bad) s = .next
      (if bad = false then
        ((s.logErr (mkErr 0 (targetDomain target) 0x31 0 0 63 0 0 target 0)).shadowEvent 0 target).bump .regReloads 0 0 32 1
      else if target / 0x1000 = 1 ∨ target / 0x1000 = 7 then
        (s.putTarget x flop).goFatal (fun w => withBits (withBits w 0 1 1) 2 16 target)
      else ((s.logErr (mkErr 3 (targetDomain target) 0x47 0 0 63 0 0 target 1)).shadowEvent 1 target).putTarget x x.reset) := by
  obtain ⟨hf, hr⟩ := ha
  change execRegParityFault target flop bad s = _
  unfold execRegParityFault
  rw [hx]
  dsimp only
  rw [hf, hr, if_neg (by decide), apply_ite Host.Outcome.next, apply_ite Host.Outcome.next]
  cases bad <;> rfl

theorem shadowScrub_eq {s : State} {target : Nat} {x : Target} (hx : targetOf target = some x) (ha : awake s) (found : EccMark) :
    exec (.shadowScrub target found) s = .next
      (match found with
       | .clean => s
       | .corrected => s.bump .regShadowStat 0 2 6 1
       | .uncorrectable => (s.logErr (mkErr 3 (targetDomain target) 0x47 0 0 63 0 0 target 0)).shadowEvent 1 target) := by
  obtain ⟨hf, hr⟩ := ha
  change execShadowScrub target found s = _
  unfold execShadowScrub
  rw [hx, hf, hr, if_neg (by simp)]
  cases found <;> rfl

/-- The registers that a record of the error log sets. -/
def logSide : List Nat := [Reg.errLogStat.addr 0, Reg.errLostSeq.addr 0, Reg.errNextSeq.addr 0]

/-- An event of the shadow: its bit, and nothing but registers. -/
theorem State.shadowEvent_bit {s : State} (hw : s.regs.wf = true) {k : Nat} (hk : k < 2) (a : Nat) :
    bit ((s.shadowEvent k a).rd .regShadowStat 0) k = true := by
  rw [State.shadowEvent, State.bit_sEvent _ _ _ _ _ hw (by omega), bit_withBits _ _ _ _ _ (by decide), if_neg (by omega)]
  exact bit_withBits_one _ k true (by omega)

theorem RegsBut.shadowEvent (s : State) (k a : Nat) : RegsBut [Reg.regShadowStat.addr 0] s (s.shadowEvent k a) :=
  .wr (List.mem_singleton_self _) _

/-- A record and an event of the shadow. -/
theorem shadowLogged_spec {s : State} (hw : s.regs.wf = true) (e : ErrRec) {k : Nat} (hk : k < 2) (a : Nat) :
    (∃ m q, (s.logErr e).shadowEvent k a = { s with regs := m, errQ := q }) ∧
      bit (((s.logErr e).shadowEvent k a).rd .regShadowStat 0) k = true ∧
      ((s.logErr e).shadowEvent k a).rd .regReloads 0 = s.rd .regReloads 0 ∧ ((s.logErr e).shadowEvent k a).regs.wf = true := by
  have hl : RegsBut logSide s (s.logErr e) := .logErr e (List.Subset.refl _)
  have he := RegsBut.shadowEvent (s.logErr e) k a
  refine ⟨?_, State.shadowEvent_bit (hl.wf hw) hk a, (he.rd _ _ (by decide)).trans (hl.rd _ _ (by decide)), he.wf (hl.wf hw)⟩
  obtain ⟨m, q, hm⟩ := s.logErr_frame e
  rw [hm]
  exact ⟨_, _, rfl⟩

theorem logged_shadowEvent {s : State} (h : s.errQ.length < 64) {e : ErrRec} (hc : 1 < e.cls) (k a : Nat) :
    Logged s ((s.logErr e).shadowEvent k a) e := Logged.logErr s e h hc

/-- A target is stored in canonical form. -/
theorem State.putTarget_wf {s : State} (hw : s.regs.wf = true) (x : Target) (v : W32) : (s.putTarget x v).regs.wf = true := by
  have hr : ∀ (t : State) second w, t.regs.wf = true → (t.is12Write second w v).regs.wf = true := by
    intro t second w ht
    unfold State.is12Write State.reroute
    dsimp only
    split
    · exact ht
    · exact (RegsBut.refreshEvm _).wf ((RegsBut.refreshEvm t).wf ht)
  cases x with
  | is0 w => exact hw
  | is1 w => exact hr s false w hw
  | is2 w => exact hr s true w hw
  | reg r i mask =>
    refine (RegsBut.refreshEvm _).wf ?_
    unfold State.putReg
    split
    · exact hw
    · exact State.wf_wr _ _ _ _ hw

/-- FATAL by a parity fault: its record of the target, and the work that ends (11 R349). -/
theorem goFatal_parity {s : State} (hw : s.regs.wf = true) (target : Nat) :
    let t := s.goFatal (fun w => withBits (withBits w 0 1 1) 2 16 target)
    bit (t.rd .errFatal 0) 0 = true ∧ bits (t.rd .errFatal 0) 2 16 = target % 2 ^ 16 := by
  intro t
  have hrd : t.rd .errFatal 0 = (s.sEvent .errFatal 0 (fun w => withBits (withBits w 0 1 1) 2 16 target)).rd .errFatal 0 := rfl
  rw [hrd, State.bit_sEvent _ _ _ _ _ hw (by decide), State.bits_sEvent _ _ _ _ _ _ hw (by decide),
    bit_withBits _ _ _ _ _ (by decide), if_neg (by decide), bits_withBits _ _ _ _ (by decide)]
  exact ⟨bit_withBits_one _ 0 true (by decide), rfl⟩

theorem targetOf_is0 {target w : Nat} (h : targetOf target = some (.is0 w)) : ¬(target / 0x1000 = 1 ∨ target / 0x1000 = 7) := by
  unfold targetOf at h
  split at h
  · omega
  · split at h
    · omega
    · split at h
      · omega
      · split at h
        · split at h
          · split at h
            · cases h
            · cases h
          · cases h
        · cases h

/-! An agent's reset (18 R529). -/

/-- Pair p is freed where the agent holds it. -/
def State.freePair (s : State) (agent p : Nat) : State := if holds s p agent then s.wr .regIndClaim p 0 else s

theorem holds_congr {s t : State} {p : Nat} (h : t.rd .regIndClaim p = s.rd .regIndClaim p) (a : Nat) : holds t p a = holds s p a := by
  rw [holds, holds, h]

theorem State.freePair_frame (s : State) (agent p : Nat) : ∃ m, s.freePair agent p = { s with regs := m } := by
  unfold State.freePair
  split
  · exact ⟨_, rfl⟩
  · exact ⟨_, rfl⟩

theorem RegsBut.freePair (s : State) (agent p : Nat) : RegsBut [Reg.regIndClaim.addr p] s (s.freePair agent p) := by
  unfold State.freePair
  split
  · exact .wr (List.mem_singleton_self _) _
  · exact .refl _ _

theorem State.freePair_rd_ne (s : State) (agent : Nat) {p q : Nat} (h : q ≠ p) :
    (s.freePair agent p).rd .regIndClaim q = s.rd .regIndClaim q := by
  refine (RegsBut.freePair s agent p).rd _ _ ?_
  rw [List.mem_singleton]
  change ¬0x2100 + 16 * q = 0x2100 + 16 * p
  omega

theorem State.freePair_freed {s : State} (hw : s.regs.wf = true) (agent p : Nat) : holds (s.freePair agent p) p agent = false := by
  unfold State.freePair
  split
  · rw [holds, State.rd_wr_same _ _ _ _ hw]
    simp [bit]
  · next h => exact Bool.eq_false_iff.mpr h

theorem State.freePair_other {s : State} {agent b p : Nat} (hb : b ≠ agent) (h : holds s p b = true) : s.freePair agent p = s := by
  refine if_neg fun ha => hb ?_
  rw [holds, Bool.and_eq_true, decide_eq_true_eq] at h ha
  obtain ⟨_, h⟩ := h
  obtain ⟨_, ha⟩ := ha
  rw [← h, ← ha]

/-- Pairs freed one by one: each is free of the agent, and other agents' stay. -/
theorem State.freePairs_spec (agent : Nat) (ps : List Nat) {s : State} (hw : s.regs.wf = true) :
    let t := ps.foldl (fun t p => t.freePair agent p) s
    (∃ m, t = { s with regs := m }) ∧ RegsBut (ps.map fun p => Reg.regIndClaim.addr p) s t ∧
      (∀ p, p ∈ ps ∨ holds s p agent = false → holds t p agent = false) ∧
      (∀ p b, b ≠ agent → holds s p b = true → holds t p b = true) := by
  induction ps generalizing s with
  | nil => exact ⟨⟨_, rfl⟩, .refl _ _, fun p hp => hp.resolve_left List.not_mem_nil, fun _ _ _ h => h⟩
  | cons q ps ih =>
    have hq := RegsBut.freePair s agent q
    obtain ⟨⟨m, hm⟩, hrest, hfree, hkeep⟩ := ih (hq.wf hw)
    obtain ⟨m', hm'⟩ := s.freePair_frame agent q
    refine ⟨⟨m, ?_⟩, (hq.mono (by simp)).trans (hrest.mono (by simp)), fun p hp => hfree p ?_, fun p b hb h => hkeep p b hb ?_⟩
    · rw [List.foldl_cons, hm, hm']
    · by_cases e : p = q
      · exact .inr (e ▸ State.freePair_freed hw agent q)
      · rcases hp with hp | hp
        · exact .inl ((List.mem_cons.mp hp).resolve_left e)
        · exact .inr (by rw [holds_congr (s.freePair_rd_ne agent e), hp])
    · by_cases e : p = q
      · subst e
        rw [State.freePair_other hb h, h]
      · rw [holds_congr (s.freePair_rd_ne agent e), h]

theorem assocGet_assocDel {β : Type} (xs : List (Nat × β)) (k : Nat) : assocGet (assocDel xs k) k = none := by
  unfold assocGet assocDel
  rw [Option.map_eq_none_iff, List.find?_eq_none]
  intro x hx
  simpa using (List.mem_filter.mp hx).2

/-- The block without the agent's pairs, latch and SEQs. -/
def State.agentForgotten (s : State) (agent : Nat) : State :=
  let t := (List.range 4).foldl (fun t p => t.freePair agent p) s
  { t with tbLatch := assocDel t.tbLatch agent, lastRead := t.lastRead.filter (fun x => x.1 != agent) }

/-- The reset of an agent that does not own admin queue 0. -/
theorem agentReset_eq {s : State} {agent : Nat} (h : agent < 3) (ha : awake s) (hown : (s.agentForgotten agent).fld .admQStat 0 4 2 ≠ agent) :
    exec (.agentReset agent) s = .next (s.agentForgotten agent) := by
  obtain ⟨hf, hr⟩ := ha
  change (if 3 ≤ agent then _ else if !s.rstN || s.fatal then _ else Host.Outcome.next
    (if (s.agentForgotten agent).fld .admQStat 0 4 2 = agent then _ else s.agentForgotten agent)) = _
  rw [if_neg (by omega), hf, hr, if_neg (by decide), if_neg hown]

/-- Settles O48: a logged shadow fault first, then the reload, the fatal stop or the reset of its target. -/
theorem registerFaults : Obligations.RegisterFaults := by
  refine ⟨fun s agent offset ha ht hc => regAccessCeil_answered ha ht hc, fun s agent offset ha ht hc hf hq => ?_,
    fun s target flop x hx ha hw => ?_, fun s target flop x hx ha hp hw => ?_, fun s target flop w hx ha hq hw hi => ?_,
    fun s target x hx ha hq hw => ?_, fun s agent ha hr hown hw => ?_⟩
  · refine ⟨_, regAccessCeil_gated ha ht hc hf, ?_, Logged.logErr s _ hq (show 1 < 3 by decide)⟩
    obtain ⟨m, q, hm⟩ := s.logErr_frame (mkErr 3 1 0x4D 0 0 63 0 0 (canonOffset offset) agent)
    rw [hm]
  · obtain ⟨⟨m, q, hm⟩, hbit, hrel, hwf⟩ :=
      shadowLogged_spec hw (mkErr 0 (targetDomain target) 0x31 0 0 63 0 0 target 0) (show 0 < 2 by decide) target
    refine ⟨_, regParityFault_eq hx ha flop false, ?_, ?_, ?_⟩
    · rw [if_pos rfl, hm]
      rfl
    · rw [if_pos rfl, State.bump, (RegsBut.setFld (List.mem_singleton_self _) _ _ _).rd _ _ (by decide), hbit]
    · rw [if_pos rfl, State.rd_bump_word hwf, hrel]
      rfl
  · have hwf := State.putTarget_wf hw x flop
    obtain ⟨hbit, hfld⟩ := goFatal_parity hwf target
    refine ⟨_, regParityFault_eq hx ha flop true, ?_⟩
    rw [if_neg (by decide), if_pos hp]
    exact ⟨rfl, rfl, rfl, rfl, hbit, hfld⟩
  · obtain ⟨⟨m, q, hm⟩, hbit, _, _⟩ :=
      shadowLogged_spec hw (mkErr 3 (targetDomain target) 0x47 0 0 63 0 0 target 1) (show 1 < 2 by decide) target
    have hlog := logged_shadowEvent hq (e := mkErr 3 (targetDomain target) 0x47 0 0 63 0 0 target 1) (show 1 < 3 by decide) 1 target
    refine ⟨_, regParityFault_eq hx ha flop true, ?_⟩
    rw [if_neg (by decide), if_neg (targetOf_is0 hx)]
    generalize (s.logErr (mkErr 3 (targetDomain target) 0x47 0 0 63 0 0 target 1)).shadowEvent 1 target = t at hm hbit hlog
    refine ⟨?_, ?_, hbit, hlog⟩
    · rw [hm]
      rfl
    · rw [hm]
      change (s.is0.put (16 * (w / 16) + w % 16) 0).get w = 0
      rw [Nat.div_add_mod, WordMap.get_put_same _ 0 _ _ hi]
  · refine ⟨shadowScrub_eq hx ha .clean, ⟨_, shadowScrub_eq hx ha .corrected, rfl, State.fld_bump _ _ _ _ _ _ hw (by decide)⟩,
      ⟨_, shadowScrub_eq hx ha .uncorrectable, ?_⟩⟩
    obtain ⟨⟨m, q, hm⟩, hbit, _, _⟩ :=
      shadowLogged_spec hw (mkErr 3 (targetDomain target) 0x47 0 0 63 0 0 target 0) (show 1 < 2 by decide) target
    exact ⟨by rw [hm], hbit, logged_shadowEvent hq (show 1 < 3 by decide) 1 target⟩
  · obtain ⟨⟨m, hm⟩, hregs, hfree, hkeep⟩ := State.freePairs_spec agent (List.range 4) hw
    have howner : (s.agentForgotten agent).fld .admQStat 0 4 2 = s.fld .admQStat 0 4 2 := hregs.fld (by decide) 4 2
    exact ⟨_, agentReset_eq ha hr (howner ▸ hown), by rw [State.agentForgotten, hm], fun p hp => hfree p (.inl (List.mem_range.mpr hp)),
      assocGet_assocDel _ _, fun p b _ hb h => hkeep p b hb h⟩

end Sys2Proof.Machine
end

section
/-! PROOFS. Occupancy samples, thresholds and interval timers (13 R407 to R411). -/

namespace Sys2Proof.Machine

/-! Occupancy (13 R407). -/

/-- t is s but for words of IS3 from `lo` up to and without `hi`. -/
structure Is3Within (lo hi : Nat) (s t : State) : Prop where
  frame : t = { s with is3 := t.is3 }
  wf : s.is3.wf = true → t.is3.wf = true
  get : ∀ w, w < lo ∨ hi ≤ w → t.is3.get w = s.is3.get w

theorem Is3Within.trans {lo hi : Nat} {s t u : State} (h : Is3Within lo hi s t) (k : Is3Within lo hi t u) : Is3Within lo hi s u :=
  ⟨by rw [k.frame, h.frame], k.wf ∘ h.wf, fun w hw => (k.get w hw).trans (h.get w hw)⟩

theorem Is3Within.mono {lo hi lo' hi' : Nat} {s t : State} (h : Is3Within lo hi s t) (hl : lo' ≤ lo) (hh : hi ≤ hi') : Is3Within lo' hi' s t :=
  ⟨h.frame, h.wf, fun w hw => h.get w (by omega)⟩

theorem Is3Within.put (s : State) (w : Nat) (v : W32) : Is3Within w (w + 1) s { s with is3 := s.is3.put w v } :=
  ⟨rfl, WordMap.wf_put _ _ _, fun j hj => WordMap.get_put_other _ _ _ _ (by omega)⟩

theorem Is3Within.addIs3 (s : State) (w k : Nat) : Is3Within w (w + 1) s (s.addIs3 w k) := by
  unfold State.addIs3
  split
  · exact ⟨rfl, id, fun _ _ => rfl⟩
  · exact .put s w _

theorem Is3Within.addIs3w (s : State) (w k : Nat) : Is3Within w (w + 2) s (s.addIs3w w k) := by
  unfold State.addIs3w
  split
  · exact ⟨rfl, id, fun _ _ => rfl⟩
  · exact ((Is3Within.put s w _).mono (by omega) (by omega)).trans ((Is3Within.put _ (w + 1) _).mono (by omega) (by omega))

/-- What port p's sample takes: held tags, held write IDs and pool lines, and 0 of a port that does not run. -/
def portSample (s : State) (p k : Nat) : Nat :=
  if !(bit (s.rd .clkGateStat 0) p && !outOfService s p) then 0
  else if k = 0 then tagsHeld s p false (fun _ => true) else if k = 1 then tagsHeld s p true (fun _ => true) else poolUsed s p

/-- One of the three values of a port's sample: the last, the largest and the sum. -/
def State.sampleCell (s : State) (b k v : Nat) : State :=
  let last := s.is3.put (b + k) (BitVec.ofNat 32 v)
  let most := last.put (b + 3 + k) (BitVec.ofNat 32 (max (last.get (b + 3 + k)).toNat v))
  ({ s with is3 := most }).addIs3w (b + 8 + 2 * k) v

theorem State.samplePort_eq (s : State) (p : Nat) : s.samplePort p =
    ((List.range 3).foldl (fun t k => t.sampleCell (0x68000 + 16 * p) k (portSample s p k)) s).addIs3 (0x68000 + 16 * p + 6) 1 := rfl

/-- It writes its own words of the port's sixteen, and of the last values its own. -/
theorem State.sampleCell_spec {s : State} (hw : s.is3.wf = true) (b v : Nat) {k : Nat} (hk : k < 3) :
    Is3Within b (b + 16) s (s.sampleCell b k v) ∧ (s.sampleCell b k v).is3.get (b + k) = BitVec.ofNat 32 v ∧
      ∀ j, j < 3 → j ≠ k → (s.sampleCell b k v).is3.get (b + j) = s.is3.get (b + j) := by
  unfold State.sampleCell
  extract_lets last most
  have h1 : Is3Within (b + k) (b + k + 1) s { s with is3 := last } := .put s _ _
  have h2 : Is3Within (b + 3 + k) (b + 3 + k + 1) { s with is3 := last } { s with is3 := most } := .put _ _ _
  have h3 := Is3Within.addIs3w { s with is3 := most } (b + 8 + 2 * k) v
  refine ⟨((h1.mono (by omega) (by omega)).trans (h2.mono (by omega) (by omega))).trans (h3.mono (by omega) (by omega)), ?_, fun j hj hjk => ?_⟩
  · rw [h3.get _ (by omega), h2.get _ (by omega)]
    exact WordMap.get_put_same _ 0 _ _ hw
  · rw [h3.get _ (by omega), h2.get _ (by omega), h1.get _ (by omega)]

/-- A port's sample. -/
theorem State.samplePort_spec {s : State} (hw : s.is3.wf = true) (p : Nat) :
    Is3Within (0x68000 + 16 * p) (0x68000 + 16 * p + 16) s (s.samplePort p) ∧
      ∀ k, k < 3 → (s.samplePort p).is3.get (0x68000 + 16 * p + k) = BitVec.ofNat 32 (portSample s p k) := by
  rw [State.samplePort_eq, show List.range 3 = [0, 1, 2] from rfl, List.foldl_cons, List.foldl_cons, List.foldl_cons, List.foldl_nil]
  generalize 0x68000 + 16 * p = b
  obtain ⟨i0, v0, _⟩ := State.sampleCell_spec hw b (portSample s p 0) (show 0 < 3 by decide)
  obtain ⟨i1, v1, o1⟩ := State.sampleCell_spec (i0.wf hw) b (portSample s p 1) (show 1 < 3 by decide)
  obtain ⟨i2, v2, o2⟩ := State.sampleCell_spec (i1.wf (i0.wf hw)) b (portSample s p 2) (show 2 < 3 by decide)
  have i3 := Is3Within.addIs3 (((s.sampleCell b 0 (portSample s p 0)).sampleCell b 1 (portSample s p 1)).sampleCell b 2 (portSample s p 2))
    (b + 6) 1
  refine ⟨((i0.trans i1).trans i2).trans (i3.mono (by omega) (by omega)), fun k hk => ?_⟩
  rw [i3.get _ (by omega)]
  match k, hk with
  | 0, _ => rw [o2 0 (by decide) (by decide), o1 0 (by decide) (by decide), v0]
  | 1, _ => rw [o2 1 (by decide) (by decide), v1]
  | 2, _ => exact v2

theorem portSample_congr {s t : State} (h : t = { s with is3 := t.is3 }) (p k : Nat) : portSample t p k = portSample s p k := by
  rw [h]
  rfl

/-- All ports' samples: those of the first n. -/
theorem State.samplePorts_spec {s : State} (hw : s.is3.wf = true) (n : Nat) :
    let t := (List.range n).foldl (fun t p => t.samplePort p) s
    Is3Within 0x68000 (0x68000 + 16 * n) s t ∧
      ∀ p k, p < n → k < 3 → t.is3.get (0x68000 + 16 * p + k) = BitVec.ofNat 32 (portSample s p k) := by
  induction n with
  | zero => exact ⟨⟨rfl, id, fun _ _ => rfl⟩, fun p k hp => absurd hp (Nat.not_lt_zero p)⟩
  | succ n ih =>
    obtain ⟨hs, hv⟩ := ih
    rw [List.range_succ, List.foldl_append, List.foldl_cons, List.foldl_nil]
    generalize (List.range n).foldl (fun t p => t.samplePort p) s = t at hs hv
    obtain ⟨ht, hvt⟩ := State.samplePort_spec (hs.wf hw) n
    refine ⟨(hs.mono (by omega) (by omega)).trans (ht.mono (by omega) (by omega)), fun p k hp hk => ?_⟩
    by_cases e : p = n
    · rw [e, hvt k hk, portSample_congr hs.frame]
    · rw [ht.get _ (by omega), hv p k (by omega) hk]

/-! Thresholds (13 R409). -/

/-- An evaluation at a sample writes the threshold's state and the value it compares with. -/
theorem State.evalThr_sample (s : State) (k : Nat) :
    s.evalThr k true = { s with is3 := (s.evalThr k true).is3, thrPrev := (s.evalThr k true).thrPrev } ∧
      ∀ w, w < 0x69000 → (s.evalThr k true).is3.get w = s.is3.get w := by
  unfold State.evalThr
  dsimp only
  split
  · exact ⟨rfl, fun w hw => WordMap.get_put_other _ _ _ _ (by omega)⟩
  · exact ⟨rfl, fun _ _ => rfl⟩

theorem State.evalThrs_sample (ks : List Nat) (s : State) :
    let t := ks.foldl (fun t k => t.evalThr k true) s
    t = { s with is3 := t.is3, thrPrev := t.thrPrev } ∧ ∀ w, w < 0x69000 → t.is3.get w = s.is3.get w := by
  induction ks generalizing s with
  | nil => exact ⟨rfl, fun _ _ => rfl⟩
  | cons k ks ih =>
    obtain ⟨hf, hg⟩ := s.evalThr_sample k
    obtain ⟨hf', hg'⟩ := ih (s.evalThr k true)
    refine ⟨?_, fun w hw => (hg' w hw).trans (hg w hw)⟩
    rw [List.foldl_cons, hf', hf]

/-- The state that a threshold takes. -/
theorem State.setThr_spec {s : State} (hw : s.is3.wf = true) (k : Nat) (v : Bool) :
    thrState (s.setThr k v) k = v ∧ ∀ w, w ≠ 0x69000 + 4 * k + 3 → (s.setThr k v).is3.get w = s.is3.get w := by
  refine ⟨?_, fun w h => WordMap.get_put_other _ _ _ _ h⟩
  have hg : thrWord (s.setThr k v) k 3 = BitVec.ofNat 32 (flag v) := WordMap.get_put_same _ 0 _ _ hw
  rw [thrState, hg]
  cases v <;> rfl

/-- In delta mode an evaluation without a sample does nothing; in another mode it gives the threshold its next state. -/
theorem State.evalThr_delta {s : State} {k : Nat} (h : bits (thrWord s k 0) 20 2 = 3) : s.evalThr k false = s := by
  unfold State.evalThr
  dsimp only
  rw [if_pos h, if_neg (by decide)]

theorem State.evalThr_next {s : State} {k : Nat} (h : bits (thrWord s k 0) 20 2 ≠ 3) : s.evalThr k false =
    s.setThr k (thrNext (bits (thrWord s k 0) 20 2) (is3Word s (bits (thrWord s k 0) 0 20)).toNat (thrWord s k 1).toNat
      (thrWord s k 2).toNat (thrState s k)) := by
  unfold State.evalThr
  dsimp only
  rw [if_neg h, if_neg (by decide)]

theorem thresholdEval_runs {s : State} {k : Nat} (hk : k < 64) (ht : telRuns s = true) (ha : awake s) :
    exec (.thresholdEval k) s = .next (s.evalThr k false) := by
  obtain ⟨hf, hr⟩ := ha
  change execThresholdEval k s = _
  unfold execThresholdEval
  rw [if_neg (by omega), ht, hf, hr, if_pos (by decide)]

theorem occupancySample_runs {s : State} (ht : telRuns s = true) (ha : awake s) (he : bit (s.rd .telOccCtl 0) 20 = true)
    (hd : s.occDue ≤ s.nomNs) : exec .occupancySample s = .next ((List.range 64).foldl (fun t k => t.evalThr k true)
      ((List.range 16).foldl (fun t p => t.samplePort p) { s with occDue := s.nomNs + occPeriodNs s })) := by
  obtain ⟨hf, hr⟩ := ha
  change execOccupancySample s = _
  unfold execOccupancySample
  rw [ht, hf, hr, he, decide_eq_true hd, if_pos (by decide)]

/-! Interval timers (13 R411). -/

theorem timerOf_putTimer (s : State) (x : Timer) : timerOf (s.putTimer x) x.num = x := by
  unfold timerOf State.putTimer
  dsimp only
  split
  · next h =>
    have hnone : (s.timers.filter (fun t => t.num != x.num)).find? (fun t => t.num == x.num) = none := by
      rw [List.find?_eq_none]
      intro t ht
      simpa using (List.mem_filter.mp ht).2
    obtain ⟨n, e, p⟩ := x
    simp only [Bool.and_eq_true, Option.isNone_iff_eq_none] at h
    obtain ⟨rfl, rfl⟩ := h
    rw [List.nil_append, hnone]
    rfl
  · rw [List.cons_append, List.find?_cons_of_pos (by simp)]
    rfl

theorem intervalTimerExpiry_runs {s : State} {k e : Nat} (hk : k < 32) (ht : telRuns s = true) (ha : awake s)
    (he : (timerOf s k).ends = some e) (hd : e ≤ s.nomNs) : exec (.intervalTimerExpiry k) s =
      .next ((s.pulse (224 + k) 0).putTimer
        { num := k, ends := if timerMode s k = 2 then none else some (e + timerPeriod s k), paused := none }) := by
  obtain ⟨hf, hr⟩ := ha
  change execIntervalTimerExpiry k s = _
  unfold execIntervalTimerExpiry
  rw [if_neg (by omega), he]
  dsimp only
  rw [ht, hf, hr, decide_eq_true hd, if_pos (by decide)]

/-- Settles O6: samples write the words of their ports alone, evaluations the threshold's state alone, and an expiry its timer. -/
theorem telemetryEvents : Obligations.TelemetryEvents := by
  refine ⟨fun s ht ha he hd hw => ?_, fun s k hk ht ha hw => ?_, fun s k e hk ht ha he hd => ?_⟩
  · refine ⟨_, occupancySample_runs ht ha he hd, ?_⟩
    obtain ⟨hs, hv⟩ := State.samplePorts_spec (s := { s with occDue := s.nomNs + occPeriodNs s }) hw 16
    generalize (List.range 16).foldl (fun t p => t.samplePort p) { s with occDue := s.nomNs + occPeriodNs s } = t at hs hv
    obtain ⟨hf, hg⟩ := State.evalThrs_sample (List.range 64) t
    refine ⟨by rw [hf, hs.frame], fun p hp hon hserve => ?_⟩
    have hk : ∀ k, k < 3 → ((List.range 64).foldl (fun t k => t.evalThr k true) t).is3.get (0x68000 + 16 * p + k) =
        BitVec.ofNat 32 (portSample s p k) := fun k hk => (hg _ (by omega)).trans (hv p k hp hk)
    have hrun : ∀ k, portSample s p k =
        if k = 0 then tagsHeld s p false (fun _ => true) else if k = 1 then tagsHeld s p true (fun _ => true) else poolUsed s p :=
      fun k => by rw [portSample, hon, hserve, if_neg (by decide)]
    refine ⟨?_, ?_, ?_⟩
    · exact (hk 0 (by decide)).trans (by rw [hrun]; rfl)
    · exact (hk 1 (by decide)).trans (by rw [hrun]; rfl)
    · exact (hk 2 (by decide)).trans (by rw [hrun]; rfl)
  · refine ⟨_, thresholdEval_runs hk ht ha, ?_⟩
    by_cases h3 : bits (thrWord s k 0) 20 2 = 3
    · rw [State.evalThr_delta h3]
      refine ⟨rfl, fun _ _ => rfl, fun _ => rfl, fun h => ?_, fun h => ?_, fun h => ?_⟩
      · omega
      · omega
      · omega
    · rw [State.evalThr_next h3]
      generalize hv : thrNext (bits (thrWord s k 0) 20 2) (is3Word s (bits (thrWord s k 0) 0 20)).toNat (thrWord s k 1).toNat
        (thrWord s k 2).toNat (thrState s k) = v
      obtain ⟨hst, hget⟩ := State.setThr_spec hw k v
      refine ⟨rfl, hget, fun h => absurd h h3, fun h => ?_, fun h => ?_, fun h => ?_⟩
      · rw [hst, ← hv, h]
        rfl
      · rw [h] at hv
        exact hst.trans hv.symm
      · rw [h] at hv
        exact hst.trans hv.symm
  · refine ⟨_, intervalTimerExpiry_runs hk ht ha he hd, rfl, fun h2 => ?_, fun h2 => ?_⟩
    · exact (congrArg Timer.ends (timerOf_putTimer _ _)).trans (if_pos h2)
    · exact (congrArg Timer.ends (timerOf_putTimer _ _)).trans (if_neg h2)

end Sys2Proof.Machine
end

section
/-! PROOFS. CLU_BEAT_CEIL (18 R525): requests, data beats and read beats that are not taken. -/

namespace Sys2Proof.Machine

section
variable {s : State} {aid : Nat} {a : Access} (ha : s.access aid = some a) (hf : s.fatal = false)
include ha hf

/-- A request that is still offered is not issued. -/
theorem beatCeil_request (ho : offered s a = true) : exec (.beatCeil aid .request) s =
    .next ((((s.unIssue a).notIssued a (beatFaultAt a) (fun t => t.ceilEffect a))).drainHeld) := by
  change execBeatCeil aid .request s = _
  unfold execBeatCeil
  rw [ha]
  dsimp only
  rw [hf, if_neg (by decide), if_pos ho]

/-- The beat of a read that does not come. -/
theorem beatCeil_response (hw : a.write = false) (hs : a.attrs.swap = false) : exec (.beatCeil aid .response) s =
    .next (((s.quarantine a).notIssued a (beatFaultAt a) (fun t => t.ceilEffect a)).drainHeld) := by
  have hp : s.logPage a = s := by
    rw [State.logPage, hw, hs]
    rfl
  change execBeatCeil aid .response s = _
  unfold execBeatCeil
  rw [ha]
  dsimp only
  rw [hf, hw, hp, if_neg (by decide), if_neg (by decide)]

/-- A data beat of a loaf that is not released. -/
theorem beatCeil_write {c i n : Nat} {x : Slot} (hp : a.purpose = .write c i n) (hx : slotAt s c i = some x) (hr : isReleased x n = false)
    (ht : a.toSend ≠ 0) : exec (.beatCeil aid .data) s = .next (s.fabricFault x.clu x.idx n 0x28 false 0x3D a.addr) := by
  change execBeatCeil aid .data s = _
  unfold execBeatCeil
  rw [ha]
  dsimp only
  rw [hf, if_neg (by decide), hp]
  dsimp only
  rw [hx]
  dsimp only
  rw [hr, decide_eq_false ht, if_neg (by decide)]
  rfl

/-- A data beat of a record or notice (11 R362, R562). -/
theorem beatCeil_record (hr : isRecordWrite a.purpose = true) (hw : a.write = true) : exec (.beatCeil aid .data) s =
    .next ((((s.logDirty a.iid a.addr).quarantine a).recordAgain a 0).drainHeld) := by
  change execBeatCeil aid .data s = _
  unfold execBeatCeil State.ceilEffect
  rw [ha]
  dsimp only
  rw [hf, if_neg (by decide), hw]
  cases hp : a.purpose with
  | record | notice => rfl
  | _ => rw [hp] at hr; cases hr

end

/-- A slot read that is not issued, or is abandoned, is asked for again. -/
theorem State.notIssued_slot (s : State) {a : Access} {c k : Nat} (hp : a.purpose = .slot c k) :
    s.notIssued a (beatFaultAt a) (fun t => t.ceilEffect a) = s.serviceAgain a 0 := by
  unfold State.notIssued State.ceilEffect
  rw [hp]
  rfl

/-- A data read that is abandoned frees its lines, and its loaf replays. -/
theorem State.notIssued_data {s : State} {a : Access} {c i n : Nat} {x : Slot} (hp : a.purpose = .data c i n) (hx : slotAt s c i = some x) :
    s.notIssued a (beatFaultAt a) (fun t => t.ceilEffect a) = s.readFault x n a 0x28 0x3D := by
  unfold State.notIssued
  rw [hp]
  dsimp only
  rw [hx]
  rfl

theorem State.unIssue_released (s : State) (a : Access) : Released s (s.unIssue a) a.aid := ⟨[], (List.append_nil _).symm⟩

theorem PortsOnly.unIssue (s : State) (a : Access) : PortsOnly s (s.unIssue a) := ⟨_, _, _, _, _, _, rfl⟩

theorem PortsOnly.quar {s t : State} (h : PortsOnly s t) : t.quar = s.quar := by
  obtain ⟨_, _, _, _, _, _, rfl⟩ := h
  rfl

theorem Quarantined.self (s : State) (a : Access) : Quarantined s (s.quarantine a) a := ⟨rfl, [], (List.append_nil _).symm⟩

/-- Settles O34: each wait's own effect, on the access whose tag is free or quarantined. -/
theorem beatCeilings : Obligations.BeatCeilings := by
  refine ⟨fun s aid a c k ha hf hp ho => ?_, fun s aid a c i n x ha hf hp hx hr ht hc hi => ?_,
    fun s aid a ha hf hr hw => beatCeil_record ha hf hr hw, fun s aid a c k ha hf hw hs hp => ?_,
    fun s aid a c i n x ha hf hw hs hp hx hc hi => ?_⟩
  · have hexec := beatCeil_request ha hf ho
    rw [State.notIssued_slot _ hp] at hexec
    have hports := (PortsOnly.unIssue s a).trans (PortsOnly.serviceAgain (s.unIssue a) a 0)
    exact ⟨_, _, hexec, rfl, (s.unIssue_released a).service _, hports.quar, (Asked.serviceAgain (s := s.unIssue a) a 0 hf).offered,
      hports.trans (PortsOnly.drainHeld _)⟩
  · rw [beatCeil_write ha hf hp hx hr ht, hc, hi]
  · have hexec := beatCeil_response ha hf hw hs
    rw [State.notIssued_slot _ hp] at hexec
    have hports := (PortsOnly.serviceAgain (s.quarantine a) a 0).trans (PortsOnly.drainHeld _)
    refine ⟨_, _, hexec, rfl, (Quarantined.self s a).service _, (Asked.serviceAgain (s := s.quarantine a) a 0 hf).offered, ?_⟩
    obtain ⟨_, _, _, _, _, _, e⟩ := hports
    rw [e]
    exact ⟨_, _, _, _, _, _, rfl⟩
  · have hexec := beatCeil_response ha hf hw hs
    rw [State.notIssued_data (s := s.quarantine a) hp hx] at hexec
    exact ⟨_, hexec, Quarantined.self s a, rfl⟩

end Sys2Proof.Machine
end

section
/-! PROOFS. A tick: what the block keeps of its state while no command waits (13 R394, R396; 19 R546). -/

namespace Sys2Proof.Machine

/-! What a tick keeps once it has taken its time. -/

/-- The mode, the commands, the slots, the queues, the instance table and the time. -/
def State.work (s : State) : Mode × List Instr × List Slot × List Nat × WordMap × Nat × W64 × Int :=
  (s.mode, s.pending, s.slots, s.queues, s.is0, s.nomNs, s.timebase, s.tbFrac)

/-- These and the contexts. -/
def State.workCtx (s : State) : List Way × Mode × List Instr × List Slot × List Nat × WordMap × Nat × W64 × Int := (s.ways, s.work)

theorem work_of_workCtx {s t : State} (h : t.workCtx = s.workCtx) : t.work = s.work := congrArg Prod.snd h

theorem ways_of_workCtx {s t : State} (h : t.workCtx = s.workCtx) : t.ways = s.ways := congrArg Prod.fst h

/-- A view that every step of a fold keeps is kept by the fold. -/
theorem view_foldl {α β : Type} (view : State → β) {f : State → α → State} (hf : ∀ t x, view (f t x) = view t) (xs : List α) (s : State) :
    view (xs.foldl f s) = view s := by
  induction xs generalizing s with
  | nil => rfl
  | cons x xs ih => exact (ih _).trans (hf s x)

section
variable {s t : State}

theorem PortsOnly.workCtx (h : PortsOnly s t) : t.workCtx = s.workCtx := by
  obtain ⟨_, _, _, _, _, _, rfl⟩ := h
  rfl

theorem LinkStep.workCtx (h : LinkStep s t) : t.workCtx = s.workCtx := by
  obtain ⟨_, _, rfl⟩ := h
  rfl

theorem LevelsTaken.workCtx (h : LevelsTaken s t) : t.workCtx = s.workCtx := by
  rw [h.frame]
  rfl

theorem FetchStep.work (h : FetchStep s t) : t.work = s.work := by
  obtain ⟨_, _, _, _, _, _, _, _, rfl⟩ := h
  rfl

end

/-! Budgets, polls and visits. -/

theorem State.tickCounts_frame (s : State) (dt : Nat) : ∃ b k r o x,
    s.tickCounts dt = { s with pollBudget := b, buckets := k, ready := r, occDue := o, timers := x } := by
  unfold State.tickCounts State.telStands
  split
  · exact ⟨_, _, _, _, _, rfl⟩
  · exact ⟨_, _, _, _, _, rfl⟩

theorem State.settleVisits_frame (s : State) : ∃ d, s.settleVisits = { s with sched := d } := by
  have h : ({ s.settleVisits with sched := [] } : State) = { s with sched := [] } := by
    refine view_foldl (fun u : State => ({ u with sched := [] } : State)) (fun t x => ?_) _ s
    split
    · rfl
    · refine view_foldl (fun u : State => ({ u with sched := [] } : State)) (fun u v => ?_) _ t
      dsimp only
      split
      · obtain ⟨_, e⟩ := u.endVisit_frame x.clu x.clu v.cls v.iid
        rw [e]
      · rfl
  exact ⟨s.settleVisits.sched, congrArg (fun u : State => { u with sched := s.settleVisits.sched }) h⟩

theorem State.tickDue_frame (s : State) : ∃ p d, s.tickDue = { s with pollInst := p, lateFlags := [], sched := d } := by
  unfold State.tickDue
  dsimp only
  split
  · obtain ⟨d, e⟩ := State.settleVisits_frame { s.pollsFallDue with lateFlags := [] }
    exact ⟨_, d, e⟩
  · exact ⟨_, _, rfl⟩

/-- The block once its counts have taken the time, and what falls due has. -/
def State.tickTaken (s : State) : State := ((s.tickTimebase (tickNs s)).tickCounts (tickNs s)).tickDue

theorem State.tickTaken_eq (s : State) : s.tickTaken.workCtx = (s.tickTimebase (tickNs s)).workCtx ∧
    s.tickTaken.adopting = s.adopting ∧ s.tickTaken.snaps = s.snaps ∧ s.tickTaken.held = s.held := by
  have ht : (s.tickTimebase (tickNs s)).adopting = s.adopting ∧ (s.tickTimebase (tickNs s)).snaps = s.snaps ∧
      (s.tickTimebase (tickNs s)).held = s.held := by
    unfold State.tickTimebase
    dsimp only
    split
    · exact ⟨rfl, rfl, rfl⟩
    · exact ⟨rfl, rfl, rfl⟩
  unfold State.tickTaken
  generalize s.tickTimebase (tickNs s) = t at ht
  obtain ⟨_, _, _, _, _, e⟩ := t.tickCounts_frame (tickNs s)
  obtain ⟨_, _, e'⟩ := (t.tickCounts (tickNs s)).tickDue_frame
  rw [e', e]
  exact ⟨rfl, ht⟩

/-! Notices, adopted queues and snapshots that wait for contexts. -/

theorem State.awaitCtx_work (s : State) (q : Nat) (w : CtxWork) : (s.awaitCtx q w).work = s.work := (FetchStep.startFetch _ q).work

/-- The fetch for one access that waits, where it is a notice to be formed. -/
def State.fetchForNotice (s : State) (h : Held) : State :=
  match h.purpose with
  | .notice q => if !h.form || (ctxOf s q).isSome || !s.queues.contains q || homedAway s q || s.ctxWait.contains (q, .notice) then s
    else s.awaitCtx q .notice
  | _ => s

theorem State.fetchForNotices_eq (s : State) : s.fetchForNotices = s.held.foldl State.fetchForNotice s := rfl

theorem State.fetchForNotices_work (s : State) : s.fetchForNotices.work = s.work := by
  refine view_foldl State.work (fun t h => ?_) _ s
  split
  · split
    · rfl
    · exact t.awaitCtx_work _ _
  · rfl

theorem State.fetchForNotice_formed (s : State) {h : Held} (hf : h.form = false) : s.fetchForNotice h = s := by
  unfold State.fetchForNotice
  rw [hf]
  split
  · rfl
  · rfl

/-- Where every access that waits carries its bytes, no notice is still to be formed. -/
theorem State.fetchForNotices_formed {s : State} (h : ∀ x ∈ s.held, x.form = false) : s.fetchForNotices = s := by
  rw [State.fetchForNotices_eq]
  generalize s.held = hs at h
  induction hs with
  | nil => rfl
  | cons x xs ih =>
    rw [List.foldl_cons, s.fetchForNotice_formed (h x List.mem_cons_self)]
    exact ih fun y hy => h y (List.mem_cons_of_mem _ hy)

theorem State.adoptCheck_work (s : State) (q : Nat) : (s.adoptCheck q).work = s.work := by
  unfold State.adoptCheck
  split
  · rfl
  · split
    · rfl
    · split
      · exact (FetchStep.noticeTrigger _ q).work
      · rfl

theorem State.snapCopy_work (s : State) (k key : Nat) (ws : List W32) (c : Option QCtx) (absent : Bool) :
    (s.snapCopy k key ws c absent).work = s.work := by
  unfold State.snapCopy
  dsimp only
  refine (view_foldl State.work (fun t l => work_of_workCtx (PortsOnly.service t _).workCtx) _ _).trans ?_
  obtain ⟨_, _, e⟩ := s.takeCopy_frame (bits (ws.getD 2 0) 12 4) (bits (ws.getD 2 0) 0 12) (bits (ws.getD 3 0) 0 22) c absent
  rw [e]
  rfl

theorem State.snapWaits_work (s : State) (x : Snap) : (s.snapWaits x).work = s.work := by
  unfold State.snapWaits
  dsimp only
  split
  · rfl
  · split
    · exact s.snapCopy_work ..
    · split
      · exact s.snapCopy_work ..
      · split
        · rfl
        · exact s.awaitCtx_work _ _

/-! Joiners and bring-up. -/

theorem State.answerWaiting_workCtx (s : State) : s.answerWaiting.workCtx = s.workCtx := by
  unfold State.answerWaiting
  split
  · rfl
  · refine (view_foldl State.workCtx (fun t w => ?_) _ _).trans rfl
    exact (LinkStep.foldl (fun u m => LinkStep.sendFrame u _ _ _ _ _ _ _) _ _).workCtx.trans (LinkStep.sendFrame _ _ _ _ _ _ _ _).workCtx

theorem State.bringupCeil_early {s : State} (h : s.mode = .bringup → s.nomNs < 4000000) : s.bringupCeil = s :=
  if_neg fun hc => absurd hc.2 (Nat.not_le.mpr (h hc.1))

/-- Bring-up ends in CONFIGURE, at the time that it is. -/
theorem State.bringupEnd_view (s : State) (faults : List MacroFault) :
    (s.bringupEnd faults).mode = .configure ∧ (s.bringupEnd faults).nomNs = s.nomNs := by
  unfold State.bringupEnd
  extract_lets noted out failing logged
  have h1 : noted.nomNs = s.nomNs := view_foldl State.nomNs (fun t f => by unfold State.noteMacro; split <;> rfl) _ _
  have h2 : out.nomNs = noted.nomNs := view_foldl State.nomNs (f := fun t n => t.bistOut n) (fun t n => rfl) _ _
  have h3 : logged.nomNs = out.nomNs := view_foldl State.nomNs (fun t d => by
    obtain ⟨_, _, e⟩ := t.logErr_frame (mkErr 3 d 0x4C 0 0 63 0 0 d (failing d))
    rw [e]) _ _
  have hl := (LevelsTaken.refreshEvm { (logged.setFld .glbStat 0 0 1 1) with mode := .configure }).frame
  constructor
  · rw [hl]
  · rw [hl]
    exact h3.trans (h2.trans h1)

/-! Requests, ports and patterns. -/

theorem State.dropStreams_workCtx (s : State) : s.dropStreams.workCtx = s.workCtx := by
  refine view_foldl State.workCtx (fun t k => ?_) _ s
  split
  · obtain ⟨_, e⟩ := t.dropRequest_frame (k / 2) (k % 2)
    rw [e]
    rfl
  · rfl

theorem State.bankGrants_workCtx (s : State) : s.bankGrants.workCtx = s.workCtx := by
  refine view_foldl State.workCtx (fun t b => ?_) _ s
  obtain ⟨_, e⟩ := t.bankGrant_frame (16 + b)
  rw [e]
  rfl

theorem State.trackIdle_workCtx (s : State) : s.trackIdle.workCtx = s.workCtx := rfl

theorem State.unitErrors_workCtx (s : State) (u n : Nat) : (s.unitErrors u n).workCtx = s.workCtx := by
  obtain ⟨_, e⟩ := s.unitErrors_frame u n
  rw [e]
  rfl

theorem State.linkTrain_workCtx (s : State) (k : Nat) : (s.linkTrain k).workCtx = s.workCtx := rfl

theorem State.linkDown_workCtx (s : State) (k : Nat) : (s.linkDown k).workCtx = s.workCtx := by
  unfold State.linkDown
  split
  · obtain ⟨_, _, e⟩ := (s.bump .fedLinkStat k 8 8 1).logErr_frame (mkErr 3 (23 + k) 0x4A 0 0 63 0 0 k 0)
    rw [State.linkTrain_workCtx, e]
    rfl
  · split
    · exact s.linkTrain_workCtx k
    · rfl

theorem State.idleBeat_workCtx (s : State) (k : Nat) : (s.idleBeat k).workCtx = s.workCtx := by
  unfold State.idleBeat
  split
  · rfl
  · extract_lets bad s1 l ages now s2
    have h1 : s1.workCtx = s.workCtx := by
      unfold s1
      split <;> rfl
    have h2 : s2.workCtx = s.workCtx := h1
    split
    · exact (s2.linkDown_workCtx k).trans h2
    · exact h2

theorem State.linkCheck_workCtx (s : State) (u : Nat) (beat : List Byte) : (s.linkCheck u beat).workCtx = s.workCtx := by
  unfold State.linkCheck
  extract_lets t sel sync
  split
  dsimp only
  split
  · split
    · exact s.unitErrors_workCtx u _
    · split
      · exact s.unitErrors_workCtx u _
      · exact s.unitErrors_workCtx u _
  · split
    · rfl
    · split
      · rfl
      · rfl

theorem State.linkBeat_workCtx (s : State) (k : Nat) : (s.linkBeat k).workCtx = s.workCtx := by
  unfold State.linkBeat
  dsimp only
  split
  · split
    · rfl
    · rw [State.genBeat_eq]
      dsimp only
      split
      · exact (State.linkCheck_workCtx _ _ _).trans rfl
      · rfl
  · split
    · rfl
    · rfl

theorem State.portLoop_workCtx (s : State) (u : Nat) : (s.portLoop u).workCtx = s.workCtx := by
  unfold State.portLoop
  split
  · rfl
  · rw [State.genBeat_eq]
    dsimp only
    split
    · rfl
    · exact (State.unitErrors_workCtx _ u _).trans rfl

theorem State.patternBeats_workCtx (s : State) : s.patternBeats.workCtx = s.workCtx := by
  unfold State.patternBeats
  refine (view_foldl State.workCtx State.portLoop_workCtx _ _).trans ?_
  exact (view_foldl State.workCtx (fun t k => (State.linkBeat_workCtx _ k).trans (t.idleBeat_workCtx k)) _ _).trans rfl

/-! The parts of a tick. -/

/-- What waits for contexts: notices, adopted queues and snapshots. -/
def State.tickContexts (s : State) : State :=
  let t := if running s then s.fetchForNotices.adoptChecks else s
  t.snaps.foldl (fun u x => u.snapWaits x) t

/-- What follows bring-up's ceiling in a tick. -/
def State.tickRest (s : State) : State :=
  let t := s.dropStreams
  ((((if ctxOn t then t.bankGrants else t).drainHeld).trackIdle).refreshEvm).patternBeats

theorem State.tickWaits_eq (s : State) : s.tickWaits =
    (if ctxOn s.tickContexts.answerWaiting.bringupCeil.dropStreams then s.tickContexts.answerWaiting.bringupCeil.dropStreams.bankGrants
     else s.tickContexts.answerWaiting.bringupCeil.dropStreams) := rfl

theorem State.tickRest_eq (s : State) : s.tickRest =
    (((((if ctxOn s.dropStreams then s.dropStreams.bankGrants else s.dropStreams)).drainHeld).trackIdle).refreshEvm).patternBeats := rfl

theorem State.tick_eq {s : State} (hr : s.rstN = true) (hf : s.fatal = false) : s.tick =
    s.tickTaken.tickContexts.answerWaiting.bringupCeil.tickRest := by
  unfold State.tick
  rw [hr, hf, if_neg (by decide)]
  dsimp only
  rw [if_neg (by decide), State.tickRest_eq, ← State.tickWaits_eq, State.tickTaken]

theorem State.tick_fatal {s : State} (hr : s.rstN = true) (hf : s.fatal = true) :
    s.tick = { s.tickTimebase (tickNs s) with idleOut := [] } := by
  unfold State.tick
  rw [hr, hf, if_neg (by decide)]
  dsimp only
  rw [if_pos rfl]

theorem State.tickContexts_work (s : State) : s.tickContexts.work = s.work := by
  unfold State.tickContexts
  extract_lets t
  refine (view_foldl State.work State.snapWaits_work _ _).trans ?_
  unfold t
  split
  · exact (view_foldl State.work (fun u a => State.adoptCheck_work u _) _ _).trans s.fetchForNotices_work
  · rfl

/-- With nothing that waits for a context, contexts stay too. -/
theorem State.tickContexts_idle {s : State} (ha : s.adopting = []) (hs : s.snaps = []) (hh : ∀ x ∈ s.held, x.form = false) :
    s.tickContexts = s := by
  have h : (if running s then s.fetchForNotices.adoptChecks else s) = s := by
    rw [State.fetchForNotices_formed hh, State.adoptChecks, ha]
    exact ite_self _
  unfold State.tickContexts
  dsimp only
  rw [h, hs]
  rfl

theorem State.tickRest_workCtx (s : State) : s.tickRest.workCtx = s.workCtx := by
  unfold State.tickRest
  extract_lets t
  have ht : t.workCtx = s.workCtx := s.dropStreams_workCtx
  have hg : (if ctxOn t then t.bankGrants else t).workCtx = t.workCtx := by
    split
    · exact t.bankGrants_workCtx
    · rfl
  generalize (if ctxOn t then t.bankGrants else t) = u at hg
  have hd : u.drainHeld.workCtx = u.workCtx := (PortsOnly.drainHeld u).workCtx
  have hl := (LevelsTaken.refreshEvm u.drainHeld.trackIdle).workCtx
  rw [State.patternBeats_workCtx, hl, State.trackIdle_workCtx, hd, hg, ht]

theorem State.tickTimebase_time (s : State) (dt : Nat) : (s.tickTimebase dt).nomNs = s.nomNs + dt ∧
    (s.tickTimebase dt).workCtx = (s.ways, s.mode, s.pending, s.slots, s.queues, s.is0, s.nomNs + dt,
      if tbHangs s then (s.timebase, s.tbFrac)
      else (s.timebase + BitVec.ofInt 64 (trimmed s.tbFrac (ratePpb s) dt).1, (trimmed s.tbFrac (ratePpb s) dt).2)) := by
  unfold State.tickTimebase
  dsimp only
  split
  · exact ⟨rfl, rfl⟩
  · exact ⟨rfl, rfl⟩

/-- Without a trim the time advances by the cycle. -/
theorem trimmed_zero {f : Int} (h1 : -1000000000 < f) (h2 : f < 1000000000) (dt : Nat) : trimmed f 0 dt = ((dt : Int), f) := by
  unfold trimmed
  dsimp only
  rw [Int.zero_mul, Int.add_zero, if_neg (by omega), if_neg (by omega)]

/-- What is waited for until bring-up's ceiling keeps the work. -/
theorem State.tickTaken_waits (s : State) : s.tickTaken.tickContexts.answerWaiting.work = (s.tickTimebase (tickNs s)).work :=
  (work_of_workCtx (State.answerWaiting_workCtx _)).trans ((State.tickContexts_work _).trans (work_of_workCtx s.tickTaken_eq.1))

theorem mode_of_work {s t : State} (h : t.work = s.work) : t.mode = s.mode := congrArg (fun w => w.1) h

theorem nomNs_of_work {s t : State} (h : t.work = s.work) : t.nomNs = s.nomNs := congrArg (fun w => w.2.2.2.2.2.1) h

/-- A tick that does not end bring-up keeps the work, and takes the time; with nothing that waits for a context it keeps contexts. -/
theorem State.tick_work {s : State} (hr : s.rstN = true) (hb : s.mode = .bringup → s.nomNs + tickNs s < 4000000) :
    s.tick.work = (s.tickTimebase (tickNs s)).work ∧
      (s.adopting = [] → s.snaps = [] → (∀ h ∈ s.held, h.form = false) → s.tick.ways = s.ways) := by
  obtain ⟨htime, hview⟩ := s.tickTimebase_time (tickNs s)
  have hways : (s.tickTimebase (tickNs s)).ways = s.ways := congrArg Prod.fst hview
  have hmode : (s.tickTimebase (tickNs s)).mode = s.mode := congrArg (fun w => w.2.1) hview
  by_cases hf : s.fatal = true
  · rw [State.tick_fatal hr hf]
    exact ⟨rfl, fun _ _ _ => hways⟩
  · have hw := s.tickTaken_waits
    obtain ⟨htaken, ha, hs, hh⟩ := s.tickTaken_eq
    have hearly : s.tickTaken.tickContexts.answerWaiting.bringupCeil = s.tickTaken.tickContexts.answerWaiting := by
      refine State.bringupCeil_early fun hm => ?_
      rw [nomNs_of_work hw, htime]
      exact hb (hmode.symm.trans ((mode_of_work hw).symm.trans hm))
    rw [State.tick_eq hr (Bool.eq_false_iff.mpr hf), hearly]
    have hrest := State.tickRest_workCtx s.tickTaken.tickContexts.answerWaiting
    refine ⟨(work_of_workCtx hrest).trans hw, fun h1 h2 h3 => ?_⟩
    have hkept : s.tickTaken.tickContexts = s.tickTaken :=
      State.tickContexts_idle (ha.trans h1) (hs.trans h2) (by rw [hh]; exact h3)
    rw [hkept] at hrest ⊢
    exact (ways_of_workCtx (hrest.trans ((State.answerWaiting_workCtx _).trans htaken))).trans hways

/-- A tick that ends bring-up. -/
theorem State.tick_bringup {s : State} (hr : s.rstN = true) (hf : s.fatal = false) (hm : s.mode = .bringup)
    (hb : 4000000 ≤ s.nomNs + tickNs s) : s.tick.mode = .configure ∧ s.tick.nomNs = s.nomNs + tickNs s := by
  obtain ⟨htime, hview⟩ := s.tickTimebase_time (tickNs s)
  have hmode : (s.tickTimebase (tickNs s)).mode = s.mode := congrArg (fun w => w.2.1) hview
  have hw := s.tickTaken_waits
  rw [State.tick_eq hr hf]
  generalize s.tickTaken.tickContexts.answerWaiting = t at hw
  have ht : t.mode = .bringup ∧ 4000000 ≤ t.nomNs := by
    rw [mode_of_work hw, nomNs_of_work hw, hmode, htime]
    exact ⟨hm, hb⟩
  have hrest := work_of_workCtx t.bringupCeil.tickRest_workCtx
  rw [mode_of_work hrest, nomNs_of_work hrest, State.bringupCeil, if_pos ht]
  obtain ⟨hc, hn⟩ := State.bringupEnd_view { t with freeCtr := t.freeCtr + nMacro }
    (((List.range nMacro).filter (fun m => Config.upset (t.freeCtr + m))).map
      (fun m => { num := m, rows := [], passes := false, finished := false }))
  exact ⟨hc, hn.trans ((nomNs_of_work hw).trans htime)⟩

theorem step_idle {s : State} (h : s.pending = []) : step s = .next s.tick := by
  unfold step
  rw [h]

/-- Settles O2: a tick is the time that `State.tickTimebase` takes, and parts that keep the work (`State.tick_work`). -/
theorem idleTick : Obligations.IdleTick := by
  refine ⟨fun s hp hr => ?_, fun s hp hr hf hm hb => ?_, fun s hp hr hb => ?_⟩
  · rw [step_idle hp, State.tick, hr]
    rfl
  · obtain ⟨hc, hn⟩ := State.tick_bringup hr hf hm hb
    exact ⟨_, step_idle hp, hc, (tick_keeps s).pending.trans hp, hn⟩
  · obtain ⟨hw, hways⟩ := State.tick_work hr hb
    obtain ⟨_, hview⟩ := s.tickTimebase_time (tickNs s)
    have hall := hw.trans (congrArg Prod.snd hview)
    simp only [State.work, Prod.mk.injEq] at hall
    obtain ⟨hmode, hpend, hslots, hqueues, his0, hnom, htb⟩ := hall
    rw [hp] at hpend
    refine ⟨_, step_idle hp, hnom, hmode, hpend, hslots, hqueues, his0, hways, fun hh => ?_, fun hh => ?_, fun hh h0 h1 h2 => ?_⟩
    · rw [hh, if_pos rfl] at htb
      exact congrArg Prod.fst htb
    · rw [hh, if_neg (by decide)] at htb
      exact ⟨congrArg Prod.fst htb, congrArg Prod.snd htb⟩
    · rw [hh, if_neg (by decide), h0, trimmed_zero h1 h2] at htb
      exact ⟨(congrArg Prod.fst htb).trans (by rw [BitVec.ofInt_natCast]), congrArg Prod.snd htb⟩

end Sys2Proof.Machine
end

section
/-! PROOFS. Clock sources and PLLs (15 R450 to R460): the fields of CLK_STAT and CLK_SRC, and switches of domains' clocks. -/

namespace Sys2Proof.Machine

/-! PLL states and sources (17 CLK_STAT, CLK_SRC). -/

theorem RegsBut.setPll (s : State) (p : Bool) (v : Nat) : RegsBut [Reg.clkStat.addr 0] s (s.setPll p v) :=
  .setFld (List.mem_singleton_self _) _ _ _

theorem pllState_setPll {s : State} (hw : s.regs.wf = true) (p : Bool) {v : Nat} (hv : v < 8) : pllState (s.setPll p v) p = v := by
  have h := State.fld_setFld s .clkStat 0 (3 * flag p) 3 v hw (by cases p <;> decide)
  exact h.trans (Nat.mod_eq_of_lt hv)

theorem pllState_setPll_ne {s : State} (hw : s.regs.wf = true) {p q : Bool} (h : q ≠ p) (v : Nat) :
    pllState (s.setPll p v) q = pllState s q := by
  refine State.fld_setFld_ne s .clkStat 0 _ 3 v _ 3 hw (by cases p <;> decide) ?_
  cases p <;> cases q <;> first | exact absurd rfl h | decide

/-- CLK_SRC. -/
def srcRegs : List Nat := [Reg.clkSrcLo.addr 0, Reg.clkSrcHi.addr 0]

theorem RegsBut.setSrc (s : State) (d v : Nat) : RegsBut srcRegs s (s.setSrc d v) := by
  unfold State.setSrc
  split
  · exact .setFld (by decide) _ _ _
  · exact .setFld (by decide) _ _ _

theorem State.setSrc_frame (s : State) (d v : Nat) : ∃ m, s.setSrc d v = { s with regs := m } := by
  unfold State.setSrc
  split
  · exact ⟨_, rfl⟩
  · exact ⟨_, rfl⟩

theorem srcOf_setSrc {s : State} (hw : s.regs.wf = true) {d v : Nat} (hd : d < 28) (hv : v < 4) : srcOf (s.setSrc d v) d = v := by
  unfold srcOf State.setSrc
  split
  · exact (State.fld_setFld _ _ _ _ _ _ hw (by omega)).trans (Nat.mod_eq_of_lt hv)
  · exact (State.fld_setFld _ _ _ _ _ _ hw (by omega)).trans (Nat.mod_eq_of_lt hv)

theorem srcOf_setSrc_ne {s : State} (hw : s.regs.wf = true) {d e : Nat} (hd : d < 28) (h : e ≠ d) (v : Nat) :
    srcOf (s.setSrc d v) e = srcOf s e := by
  unfold srcOf State.setSrc
  split
  · split
    · exact State.fld_setFld_ne _ _ _ _ _ _ _ _ hw (by omega) (by omega)
    · exact RegsBut.fld (.setFld (List.mem_singleton_self _) _ _ _) (by decide) _ _
  · split
    · exact RegsBut.fld (.setFld (List.mem_singleton_self _) _ _ _) (by decide) _ _
    · exact State.fld_setFld_ne _ _ _ _ _ _ _ _ hw (by omega) (by omega)

theorem srcOf_congr {offs : List Nat} {s t : State} (h : RegsBut offs s t) (hlo : Reg.clkSrcLo.addr 0 ∉ offs)
    (hhi : Reg.clkSrcHi.addr 0 ∉ offs) (d : Nat) : srcOf t d = srcOf s d := by
  unfold srcOf
  rw [h.fld hlo, h.fld hhi]

theorem pllState_congr {offs : List Nat} {s t : State} (h : RegsBut offs s t) (hn : Reg.clkStat.addr 0 ∉ offs) (p : Bool) :
    pllState t p = pllState s p := h.fld hn _ _

theorem curSource_congr {offs : List Nat} {s t : State} (h : RegsBut offs s t) (hn : Reg.clkStat.addr 0 ∉ offs) :
    curSource t = curSource s := by
  rw [curSource, curSource, pllState_congr h hn, pllState_congr h hn]

theorem curSource_lt (s : State) : curSource s < 3 := by
  unfold curSource
  split
  · decide
  · split <;> decide

/-- The domains on a source, as long as their clocks and switches are as they were. -/
theorem domainsOn_congr {offs : List Nat} {s t : State} (h : RegsBut offs s t)
    (hn : ∀ q ∈ [Reg.clkGateStat, Reg.clkSrcLo, Reg.clkSrcHi], q.addr 0 ∉ offs)
    (ht : t.mode = s.mode ∧ t.muxes = s.muxes ∧ t.clkWait = s.clkWait) (src : Nat) : domainsOn t src = domainsOn s src := by
  obtain ⟨hm, hx, hc⟩ := ht
  have hg := h.rd .clkGateStat 0 (hn _ (by simp))
  have hs := srcOf_congr h (hn .clkSrcLo (by simp)) (hn .clkSrcHi (by simp))
  unfold domainsOn
  refine List.filter_congr fun d _ => ?_
  rw [hs, hx, hc, domainRuns, domainRuns, hm, hg]

theorem lt_of_mem_domainsOn {s : State} {src d : Nat} (h : d ∈ domainsOn s src) : d < 28 :=
  List.mem_range.mp (List.mem_of_mem_drop (List.mem_filter.mp h).1)

theorem srcOf_of_mem_domainsOn {s : State} {src d : Nat} (h : d ∈ domainsOn s src) : srcOf s d = src := by
  obtain ⟨_, hp⟩ := List.mem_filter.mp h
  simp only [Bool.and_eq_true, decide_eq_true_eq] at hp
  obtain ⟨⟨⟨_, hs⟩, _⟩, _⟩ := hp
  exact hs

/-! Switches (15 R457, R458, R466). -/

/-- The hang of a switch that begins now. -/
def hangOf (s : State) (d : Nat) : Mux := { domain := d, since := s.nomNs, ceil := max 1 (s.fld .clkMuxCtl 0 0 8) }

/-- A switch waits for the end of a change of level. -/
def State.awaitSwitch (s : State) (d : Nat) (hang : Bool) : State := { s with clkWait := s.clkWait ++ [(d, hang)] }

theorem State.switchOne_waits {s : State} {d : Nat} (h : switchWaits s d = true) (target : Nat) (hang : Bool) :
    s.switchOne target hang d = s.awaitSwitch d hang := if_pos h

theorem State.switchOne_now {s : State} {d : Nat} (h : ¬switchWaits s d = true) (target : Nat) :
    s.switchOne target false d = s.setSrc d target := by
  rw [State.switchOne, if_neg h, if_neg (by decide)]

theorem State.switchOne_hangs {s : State} {d : Nat} (h : ¬switchWaits s d = true) (target : Nat) :
    s.switchOne target true d = { s with muxes := s.muxes ++ [hangOf s d] } := by
  rw [State.switchOne, if_neg h, if_pos rfl]
  rfl

theorem RegsBut.awaitSwitch (offs : List Nat) (s : State) (d : Nat) (hang : Bool) : RegsBut offs s (s.awaitSwitch d hang) := .of_regs rfl

theorem srcOf_awaitSwitch (s : State) (d : Nat) (hang : Bool) (e : Nat) : srcOf (s.awaitSwitch d hang) e = srcOf s e := rfl

theorem switchWaits_awaitSwitch (s : State) (d : Nat) (hang : Bool) (e : Nat) : switchWaits (s.awaitSwitch d hang) e = switchWaits s e := rfl

/-- Ordinary switches, in turn: those that need not wait take the target; the others wait, with their source. -/
theorem State.switchAll_spec {target : Nat} (ht : target < 4) (ds : List Nat) {s : State} (hw : s.regs.wf = true) (hd : ∀ d ∈ ds, d < 28) :
    let t := ds.foldl (fun t d => t.switchOne target false d) s
    (∃ m, t = { s with regs := m, clkWait := s.clkWait ++ (ds.filter (fun d => switchWaits s d)).map (fun d => (d, false)) }) ∧
      RegsBut srcRegs s t ∧ ∀ d, srcOf t d = if d ∈ ds ∧ switchWaits s d = false then target else srcOf s d := by
  induction ds generalizing s with
  | nil => exact ⟨⟨s.regs, by simp⟩, .refl _ _, fun d => by simp⟩
  | cons d ds ih =>
    rw [List.forall_mem_cons] at hd
    obtain ⟨hd0, hds⟩ := hd
    rw [List.foldl_cons]
    by_cases hwait : switchWaits s d = true
    · rw [State.switchOne_waits hwait]
      obtain ⟨⟨m, hm⟩, hr, hs⟩ := ih (s := s.awaitSwitch d false) hw hds
      simp only [switchWaits_awaitSwitch] at hm
      refine ⟨⟨m, ?_⟩, (RegsBut.awaitSwitch _ s d false).trans hr, fun e => (hs e).trans ?_⟩
      · rw [hm, List.filter_cons_of_pos hwait, List.map_cons]
        simp [State.awaitSwitch]
      · change (if e ∈ ds ∧ switchWaits s e = false then target else srcOf s e) = _
        by_cases hed : e = d
        · subst hed
          have hn : ∀ p : Prop, ¬(p ∧ switchWaits s e = false) := fun p hp => by rw [hwait] at hp; exact absurd hp.2 (by decide)
          exact (if_neg (hn _)).trans (if_neg (hn _)).symm
        · simp only [List.mem_cons, hed, false_or]
    · rw [State.switchOne_now hwait]
      have hb := RegsBut.setSrc s d target
      obtain ⟨m0, hm0⟩ := s.setSrc_frame d target
      obtain ⟨⟨m, hm⟩, hr, hs⟩ := ih (hb.wf hw) hds
      have hsw : ∀ e, switchWaits (s.setSrc d target) e = switchWaits s e := fun e => by rw [hm0]; rfl
      simp only [hsw] at hm hs
      refine ⟨⟨m, ?_⟩, hb.trans hr, fun e => (hs e).trans ?_⟩
      · rw [hm, hm0, List.filter_cons_of_neg hwait]
      · by_cases hed : e = d
        · subst hed
          rw [srcOf_setSrc hw hd0 ht, ite_self, if_pos ⟨List.mem_cons_self, Bool.eq_false_iff.mpr hwait⟩]
        · rw [srcOf_setSrc_ne hw hd0 hed]
          simp only [List.mem_cons, hed, false_or]

/-- Switches of a clock that has stopped: those that need not wait hang, and every domain keeps its source. -/
theorem State.hangAll_eq (target : Nat) (ds : List Nat) (s : State) : ds.foldl (fun t d => t.switchOne target true d) s =
    { s with muxes := s.muxes ++ (ds.filter (fun d => !switchWaits s d)).map (hangOf s),
             clkWait := s.clkWait ++ (ds.filter (fun d => switchWaits s d)).map (fun d => (d, true)) } := by
  induction ds generalizing s with
  | nil => simp
  | cons d ds ih =>
    rw [List.foldl_cons]
    by_cases hwait : switchWaits s d = true
    · rw [State.switchOne_waits hwait, ih, List.filter_cons_of_pos hwait, List.filter_cons_of_neg (by simp [hwait])]
      simp [State.awaitSwitch, switchWaits, hangOf, State.fld, State.rd]
      rfl
    · rw [State.switchOne_hangs hwait, ih, List.filter_cons_of_neg hwait, List.filter_cons_of_pos (by simp [hwait])]
      simp [switchWaits, hangOf, State.fld, State.rd]
      rfl

end Sys2Proof.Machine
end

section
/-! PROOFS. The clocks' monitors (15 R450 to R460; 08 R267): windows, lost taps, the lock ceiling, forced switches and a lost reference. -/

namespace Sys2Proof.Machine

/-! What switches leave. -/

/-- Domain d's switch from s: it waits, or takes the target. -/
def Switched (s t : State) (target d : Nat) : Prop :=
  if switchWaits s d then srcOf t d = srcOf s d ∧ (d, false) ∈ t.clkWait else srcOf t d = target

/-- Each domain of a list that is switched. -/
theorem State.switchAll_each {target : Nat} (ht : target < 4) {ds : List Nat} {s : State} (hw : s.regs.wf = true) (hd : ∀ d ∈ ds, d < 28)
    {d : Nat} (hm : d ∈ ds) : Switched s (ds.foldl (fun t d => t.switchOne target false d) s) target d := by
  obtain ⟨⟨m, he⟩, _, hs⟩ := State.switchAll_spec ht ds hw hd
  have hsd := hs d
  unfold Switched
  split
  · next hwait =>
    rw [if_neg (by simp [hwait])] at hsd
    refine ⟨hsd, ?_⟩
    rw [he]
    exact List.mem_append_right _ (List.mem_map.mpr ⟨d, List.mem_filter.mpr ⟨hm, hwait⟩, rfl⟩)
  · next hwait =>
    rw [if_pos ⟨hm, Bool.eq_false_iff.mpr hwait⟩] at hsd
    exact hsd

theorem flag_lt (p : Bool) : 1 + flag p < 4 := by cases p <;> decide

/-- Switches after the PLLs' states have changed. -/
theorem State.switchAll_pll {s u : State} (hu : RegsBut [Reg.clkStat.addr 0] s u) (hf : ∃ m x, u = { s with regs := m, plls := x })
    (hw : s.regs.wf = true) {target : Nat} (ht : target < 4) {ds : List Nat} (hd : ∀ d ∈ ds, d < 28) :
    let t := ds.foldl (fun t d => t.switchOne target false d) u
    (∃ m x c, t = { s with regs := m, plls := x, clkWait := c }) ∧ RegsBut srcRegs u t ∧ ∀ d ∈ ds, Switched s t target d := by
  obtain ⟨⟨m, he⟩, hr, _⟩ := State.switchAll_spec ht ds (hu.wf hw) hd
  have heach := fun d hm => State.switchAll_each ht (hu.wf hw) hd (d := d) hm
  have hsrc := srcOf_congr hu (by decide) (by decide)
  obtain ⟨g, x, rfl⟩ := hf
  refine ⟨⟨m, x, _, he⟩, hr, fun d hm => ?_⟩
  have h := heach d hm
  unfold Switched at h ⊢
  rw [hsrc] at h
  exact h

/-! A PLL that is judged stable (15 R451, R453, R460). -/

theorem State.pllJudged_first {s : State} (hw : s.regs.wf = true) (p : Bool) (h : curSource s = 0) :
    (∃ m x c, s.pllJudged p = { s with regs := m, plls := x, clkWait := c }) ∧ pllState (s.pllJudged p) p = 2 ∧
      ∀ d ∈ domainsOn s 0, Switched s (s.pllJudged p) (1 + flag p) d := by
  have he : s.pllJudged p = (domainsOn s 0).foldl (fun t d => t.switchOne (1 + flag p) false d) (s.setPll p 2) := if_pos h
  obtain ⟨hf, hr, hs⟩ := State.switchAll_pll (RegsBut.setPll s p 2) ⟨_, _, rfl⟩ hw (flag_lt p) (ds := domainsOn s 0)
    fun d hd => lt_of_mem_domainsOn hd
  rw [he]
  exact ⟨hf, (pllState_congr hr (by decide) p).trans (pllState_setPll hw p (by decide)), hs⟩

theorem State.pllJudged_primary {s : State} (hw : s.regs.wf = true) (p : Bool) (h : curSource s ≠ 0) (hp : isPrimary s p = true)
    (ht : (pllOf s p).tripped = false) :
    (∃ m x c, s.pllJudged p = { s with regs := m, plls := x, clkWait := c }) ∧ pllState (s.pllJudged p) p = 2 ∧
      pllState (s.pllJudged p) (!p) = 3 ∧
      ∀ d, d ∈ domainsOn s 0 ∨ d ∈ domainsOn s (1 + flag (!p)) → Switched s (s.pllJudged p) (1 + flag p) d := by
  have he : s.pllJudged p = (domainsOn s 0 ++ domainsOn s (1 + flag (!p))).foldl (fun t d => t.switchOne (1 + flag p) false d)
      ((s.setPll (!p) 3).setPll p 2) := by
    rw [State.pllJudged, if_neg h, hp, ht, if_pos (by decide)]
  have h1 := RegsBut.setPll s (!p) 3
  have h2 := RegsBut.setPll (s.setPll (!p) 3) p 2
  obtain ⟨hf, hr, hs⟩ := State.switchAll_pll (h1.trans h2) ⟨_, _, rfl⟩ hw (flag_lt p) (ds := domainsOn s 0 ++ domainsOn s (1 + flag (!p)))
    fun d hd => (List.mem_append.mp hd).elim lt_of_mem_domainsOn lt_of_mem_domainsOn
  rw [he]
  refine ⟨hf, (pllState_congr hr (by decide) p).trans (pllState_setPll (h1.wf hw) p (by decide)), ?_, fun d hd => hs d (List.mem_append.mpr hd)⟩
  exact (pllState_congr hr (by decide) (!p)).trans
    ((pllState_setPll_ne (h1.wf hw) (by cases p <;> decide) 2).trans (pllState_setPll hw (!p) (by decide)))

theorem State.pllJudged_standby {s : State} (hw : s.regs.wf = true) (p : Bool) (h : curSource s ≠ 0)
    (hp : isPrimary s p = false ∨ (pllOf s p).tripped = true) :
    (∃ m, s.pllJudged p = { s with regs := m }) ∧ pllState (s.pllJudged p) p = 3 ∧ isPrimary (s.pllJudged p) p = false := by
  have he : s.pllJudged p = if isPrimary (s.setPll p 3) p then (s.setPll p 3).setFld .clkStat 0 7 1 (flag (!p)) else s.setPll p 3 := by
    rw [State.pllJudged, if_neg h, if_neg]
    rcases hp with hp | hp
    · simp [hp]
    · simp [hp]
  have h1 := (RegsBut.setPll s p 3).wf hw
  have hst := pllState_setPll hw p (show 3 < 8 by decide)
  rw [he]
  split
  · refine ⟨⟨_, rfl⟩, ?_, ?_⟩
    · exact (State.fld_setFld_ne _ _ _ _ _ _ _ _ h1 (by decide) (by cases p <;> decide)).trans hst
    · rw [isPrimary, State.fld_setFld _ _ _ _ _ _ h1 (by decide)]
      cases p <;> rfl
  · next hn => exact ⟨⟨_, rfl⟩, hst, Bool.eq_false_iff.mpr hn⟩

/-! A PLL that trips (15 R455, R458, R460). -/

/-- A PLL that has tripped, before its domains move. -/
def State.tripped (s : State) (p : Bool) : State := (s.bump .clkStat 0 8 8 1).pllStart p true

theorem State.tripped_spec {s : State} (hw : s.regs.wf = true) (p : Bool) : RegsBut [Reg.clkStat.addr 0] s (s.tripped p) ∧
    (∃ m x, s.tripped p = { s with regs := m, plls := x }) ∧ pllState (s.tripped p) p = 1 ∧
    pllState (s.tripped p) (!p) = pllState s (!p) ∧ (s.tripped p).fld .clkStat 0 8 8 = (s.fld .clkStat 0 8 8 + 1) % 256 := by
  have h1 : RegsBut [Reg.clkStat.addr 0] s (s.bump .clkStat 0 8 8 1) := .setFld (List.mem_singleton_self _) _ _ _
  have hb := State.fld_bump s .clkStat 0 8 8 1 hw (by decide)
  have hne : ∀ q, pllState (s.bump .clkStat 0 8 8 1) q = pllState s q := fun q =>
    State.fld_setFld_ne s .clkStat 0 8 8 _ (3 * flag q) 3 hw (by decide) (by cases q <;> decide)
  refine ⟨h1.trans (.pllStart _ p true), ⟨_, _, rfl⟩, pllState_setPll (h1.wf hw) p (by decide), ?_, ?_⟩
  · exact (pllState_setPll_ne (h1.wf hw) (by cases p <;> decide) 1).trans (hne _)
  · exact (State.fld_setFld_ne _ .clkStat 0 (3 * flag p) 3 1 8 8 (h1.wf hw) (by cases p <;> decide) (by cases p <;> decide)).trans hb

theorem State.pllTrip_unused {s : State} {p : Bool} (h : pllState s p ≠ 2) (hang : Bool) : s.pllTrip p hang = s.tripped p := by
  unfold State.pllTrip
  dsimp only
  rw [decide_eq_false h, if_pos (by decide)]
  rfl

/-- The standby takes the place of a PLL that trips. -/
theorem State.pllTrip_standby {s : State} (hw : s.regs.wf = true) {p : Bool} (h : pllState s p = 2) (hs : pllState s (!p) = 3) :
    (∃ m x c, s.pllTrip p false = { s with regs := m, plls := x, clkWait := c }) ∧ pllState (s.pllTrip p false) p = 1 ∧
      pllState (s.pllTrip p false) (!p) = 2 ∧ (s.pllTrip p false).fld .clkStat 0 8 8 = (s.fld .clkStat 0 8 8 + 1) % 256 ∧
      ∀ d ∈ domainsOn s (1 + flag p), Switched s (s.pllTrip p false) (1 + flag (!p)) d := by
  have he : s.pllTrip p false =
      (domainsOn s (1 + flag p)).foldl (fun t d => t.switchOne (1 + flag (!p)) false d) ((s.tripped p).setPll (!p) 2) := by
    unfold State.pllTrip
    dsimp only
    rw [h, hs, if_neg (by decide), decide_eq_true rfl, if_pos rfl, if_pos rfl]
    rfl
  obtain ⟨hb, ⟨m, x, e⟩, hp, _, hc⟩ := State.tripped_spec hw p
  have h2 := RegsBut.setPll (s.tripped p) (!p) 2
  obtain ⟨hf, hr, hsw⟩ := State.switchAll_pll (hb.trans h2) ⟨_, x, by rw [State.setPll, e]; rfl⟩ hw (flag_lt (!p))
    (ds := domainsOn s (1 + flag p)) fun d hd => lt_of_mem_domainsOn hd
  rw [he]
  refine ⟨hf, (pllState_congr hr (by decide) p).trans ((pllState_setPll_ne (hb.wf hw) (by cases p <;> decide) 2).trans hp),
    (pllState_congr hr (by decide) (!p)).trans (pllState_setPll (hb.wf hw) (!p) (by decide)), ?_, hsw⟩
  refine (hr.fld (by decide) 8 8).trans (.trans ?_ hc)
  exact State.fld_setFld_ne _ .clkStat 0 (3 * flag (!p)) 3 2 8 8 (hb.wf hw) (by cases p <;> decide) (by cases p <;> decide)

/-- The domains of a tap that is lost hang. -/
theorem State.pllTrip_hang {s : State} (hw : s.regs.wf = true) {p : Bool} (h : pllState s p = 2) :
    let ds := domainsOn s (1 + flag p)
    ∃ u, s.pllTrip p true = { u with
        muxes := s.muxes ++ (ds.filter (fun d => !switchWaits s d)).map (hangOf s),
        clkWait := s.clkWait ++ (ds.filter (fun d => switchWaits s d)).map (fun d => (d, true)) } ∧
      (∃ m x, u = { s with regs := m, plls := x }) ∧ RegsBut [Reg.clkStat.addr 0] s u ∧ pllState u p = 1 ∧
      u.fld .clkStat 0 8 8 = (s.fld .clkStat 0 8 8 + 1) % 256 := by
  intro ds
  obtain ⟨hb, ⟨m, x, e⟩, hp, _, hc⟩ := State.tripped_spec hw p
  have key : ∀ (u : State) target, RegsBut [Reg.clkStat.addr 0] s u → (∃ m x, u = { s with regs := m, plls := x }) →
      ds.foldl (fun t d => t.switchOne target true d) u = { u with
        muxes := s.muxes ++ (ds.filter (fun d => !switchWaits s d)).map (hangOf s),
        clkWait := s.clkWait ++ (ds.filter (fun d => switchWaits s d)).map (fun d => (d, true)) } := by
    intro u target hu hf
    have hh : hangOf u = hangOf s := funext fun d => by
      unfold hangOf
      rw [hu.fld (by decide)]
      obtain ⟨_, _, rfl⟩ := hf
      rfl
    rw [State.hangAll_eq, hh]
    obtain ⟨_, _, rfl⟩ := hf
    rfl
  by_cases hs : pllState s (!p) = 3
  · have h2 := RegsBut.setPll (s.tripped p) (!p) 2
    have hf : ∃ m x, (s.tripped p).setPll (!p) 2 = { s with regs := m, plls := x } := ⟨_, x, by rw [State.setPll, e]; rfl⟩
    refine ⟨(s.tripped p).setPll (!p) 2, ?_, hf, hb.trans h2, (pllState_setPll_ne (hb.wf hw) (by cases p <;> decide) 2).trans hp, ?_⟩
    · rw [← key _ (1 + flag (!p)) (hb.trans h2) hf]
      unfold State.pllTrip
      dsimp only
      rw [h, hs, if_neg (by decide), decide_eq_true rfl, if_pos rfl, if_pos rfl]
      rfl
    · exact (State.fld_setFld_ne _ .clkStat 0 (3 * flag (!p)) 3 2 8 8 (hb.wf hw) (by cases p <;> decide) (by cases p <;> decide)).trans hc
  · refine ⟨s.tripped p, ?_, ⟨m, x, e⟩, hb, hp, hc⟩
    rw [← key _ 0 hb ⟨m, x, e⟩]
    unfold State.pllTrip
    dsimp only
    rw [h, if_neg (by decide), decide_eq_false hs, if_neg (by decide), if_neg (by decide)]
    rfl

/-! The monitors' commands. -/

/-- The block with a window's count. -/
def State.windowTaken (s : State) (p : Bool) (count : Nat) : State := s.setFld .clkMon 0 (16 * flag p) 16 count

theorem State.windowTaken_regs (s : State) (p : Bool) (count : Nat) : RegsBut [Reg.clkMon.addr 0] s (s.windowTaken p count) :=
  .setFld (List.mem_singleton_self _) _ _ _

/-- The block with a window's count, and the windows in a row that were clean. -/
def State.windowClean (s : State) (p : Bool) (count n : Nat) : State := (s.windowTaken p count).putPll p { pllOf s p with clean := n }

theorem State.windowClean_regs (s : State) (p : Bool) (count n : Nat) : RegsBut [Reg.clkMon.addr 0] s (s.windowClean p count n) :=
  (s.windowTaken_regs p count).trans (RegsBut.of_regs (s := s.windowTaken p count) rfl)

theorem pllOf_putPll (s : State) (p : Bool) (x : Pll) : pllOf (s.putPll p x) p = x := by
  cases p <;> rfl

section
variable {s : State} {p : Bool} {count : Nat} (ha : awake s) (h0 : pllState s p ≠ 0) (h4 : pllState s p ≠ 4)
include ha h0 h4

/-- A window inside the tolerance. -/
theorem pllWindowEnd_inside
    (hin : count ≤ 5120 + max 1 (s.fld .clkPllCtl 0 0 4) ∧ 5120 ≤ count + max 1 (s.fld .clkPllCtl 0 0 4)) :
    exec (.pllWindowEnd p count) s = .next
      (if pllState s p = 1 then
        if 4 ≤ (pllOf s p).clean + 1 then (s.windowClean p count 0).pllJudged p else s.windowClean p count ((pllOf s p).clean + 1)
      else s.windowTaken p count) := by
  obtain ⟨hf, hr⟩ := ha
  obtain ⟨hle, hge⟩ := hin
  change execPllWindowEnd p count s = _
  unfold execPllWindowEnd
  dsimp only
  rw [hf, hr, decide_eq_false h0, decide_eq_false h4, if_neg (by decide), decide_eq_true hle, decide_eq_true hge]
  by_cases h1 : pllState s p = 1
  · rw [if_pos h1, if_pos h1, if_neg (by decide)]
    exact (apply_ite Host.Outcome.next _ _ _).symm
  · rw [if_neg h1, if_neg h1, if_pos (by decide)]
    rfl

/-- A window outside it. -/
theorem pllWindowEnd_outside
    (hout : ¬(count ≤ 5120 + max 1 (s.fld .clkPllCtl 0 0 4) ∧ 5120 ≤ count + max 1 (s.fld .clkPllCtl 0 0 4))) :
    exec (.pllWindowEnd p count) s = .next
      (if pllState s p = 1 then s.windowClean p count 0 else (s.windowTaken p count).pllTrip p false) := by
  obtain ⟨hf, hr⟩ := ha
  have hb : (decide (count ≤ 5120 + max 1 (s.fld .clkPllCtl 0 0 4)) && decide (5120 ≤ count + max 1 (s.fld .clkPllCtl 0 0 4))) = false := by
    rw [← Bool.decide_and]
    exact decide_eq_false hout
  change execPllWindowEnd p count s = _
  unfold execPllWindowEnd
  dsimp only
  rw [hf, hr, decide_eq_false h0, decide_eq_false h4, if_neg (by decide), hb]
  by_cases h1 : pllState s p = 1
  · rw [if_pos h1, if_pos h1, if_pos (by decide)]
    rfl
  · rw [if_neg h1, if_neg h1, if_neg (by decide)]
    rfl

end

/-- The views of the clocks that a window's count leaves. -/
theorem State.window_views {s u : State} (hb : RegsBut [Reg.clkMon.addr 0] s u) (hf : ∃ m x, u = { s with regs := m, plls := x }) :
    curSource u = curSource s ∧ (∀ q, pllState u q = pllState s q) ∧ (∀ d, srcOf u d = srcOf s d) ∧
      (∀ src, domainsOn u src = domainsOn s src) ∧ (∀ q, isPrimary u q = isPrimary s q) ∧ (∀ d, switchWaits u d = switchWaits s d) ∧
      u.fld .clkStat 0 8 8 = s.fld .clkStat 0 8 8 := by
  refine ⟨curSource_congr hb (by decide), fun q => pllState_congr hb (by decide) q, fun d => srcOf_congr hb (by decide) (by decide) d,
    fun src => domainsOn_congr hb (by decide) ?_ src, fun q => ?_, fun d => ?_, hb.fld (by decide) _ _⟩
  · obtain ⟨_, _, rfl⟩ := hf
    exact ⟨rfl, rfl, rfl⟩
  · rw [isPrimary, isPrimary, hb.fld (by decide)]
  · obtain ⟨_, _, rfl⟩ := hf
    rfl

/-- A domain's switch from a state whose clocks are as in s. -/
theorem Switched.of_views {s u t : State} {target d src : Nat} (h : Switched u t target d) (hw : switchWaits u d = switchWaits s d)
    (hs : srcOf u d = srcOf s d) (hm : srcOf s d = src) :
    if switchWaits s d then srcOf t d = src ∧ (d, false) ∈ t.clkWait else srcOf t d = target := by
  unfold Switched at h
  rw [hw, hs, hm] at h
  exact h

/-- A fault that is merged with no other is queued (11 R355). -/
theorem Logged.logErr_new {s : State} {e : ErrRec} (h : s.errQ.length < 64) (hn : ∀ x ∈ s.errQ, x.code ≠ e.code) : Logged s (s.logErr e) e := by
  have hany : s.errQ.any (fun x => decide (x.code = e.code) && decide (x.clu = e.clu) && decide (x.slot = e.slot) && decide (x.qid = e.qid)) =
      false := by
    rw [List.any_eq_false]
    intro x hx
    rw [decide_eq_false (hn x hx)]
    simp
  unfold State.logErr
  dsimp only
  rw [hany, Bool.and_false, if_neg (by decide), if_neg (show ¬64 ≤ (s.wr .errNextSeq 0 _).errQ.length from Nat.not_le.mpr h)]
  rfl

theorem Logged.congr {s u t : State} {e : ErrRec} (h : Logged u t e) (hq : u.errQ = s.errQ) (hn : u.rd .errNextSeq 0 = s.rd .errNextSeq 0)
    (ht : u.timebase = s.timebase) : Logged s t e := by
  unfold Logged at h ⊢
  rw [h, hq, hn, ht]

section
variable {s : State} {p : Bool} (ha : awake s)
include ha

theorem pllTapLost_trips (h2 : 2 ≤ pllState s p) (h4 : pllState s p ≠ 4) : exec (.pllTapLost p) s = .next (s.pllTrip p true) := by
  obtain ⟨hf, hr⟩ := ha
  change execPllTapLost p s = _
  unfold execPllTapLost
  rw [hf, hr, decide_eq_false (Nat.not_lt.mpr h2), decide_eq_false h4, if_neg (by decide)]

theorem pllLockCeil_fails (h1 : pllState s p = 1) (hd : (pllOf s p).due ≤ s.nomNs) : exec (.pllLockCeil p) s =
    .next ((s.setPll p 4).logErr (mkErr 3 0 0x48 0 0 63 0 0 (flag p) (s.fld .clkMon 0 (16 * flag p) 16))) := by
  obtain ⟨hf, hr⟩ := ha
  change execPllLockCeil p s = _
  unfold execPllLockCeil
  rw [hf, hr, h1, decide_eq_false (Nat.not_lt.mpr hd), if_neg (by decide)]

end

theorem refclkLost_fatal {s : State} (ha : awake s) : exec .refclkLost s = .next (s.goFatal (fun w => withBits w 1 1 1)) := by
  obtain ⟨hf, hr⟩ := ha
  change execRefclkLost s = _
  unfold execRefclkLost
  rw [hf, hr, if_neg (by decide)]

/-! Forced switches (15 R458, R459; 08 R267; 13 R398). -/

/-- The block as the switch of domain d is forced. -/
def State.forced (s : State) (d : Nat) : State :=
  (({ s with muxes := s.muxes.filter (fun y => y.domain != d), suspect := d :: s.suspect.filter (· != d) } : State).setSrc d
    (curSource s)).bump .clkStat 0 16 8 1

/-- What stands after the record of a forced switch outside the clusters. -/
def State.forcedRecord (s : State) (d : Nat) : State := (s.forced d).logErr (mkErr 0 d 0x38 0 0 63 0 0 0 0)

theorem muxHangCeil_forces {s : State} {d : Nat} {x : Mux} (h1 : 1 ≤ d) (h28 : d < 28)
    (hx : s.muxes.find? (fun y => y.domain == d) = some x) (ha : awake s) (hd : x.since + 10 * x.ceil ≤ s.nomNs) :
    exec (.muxHangCeil d) s =
      if 2 ≤ d ∧ d ≤ 17 then .next ((s.forced d).forceClu (d - 2)).heldLevel
      else if d = 18 then .next (s.forcedRecord d).forceSch
      else if d = 20 then .next (s.forcedRecord d).forceAdm
      else if d = 22 then
        .next { s.forcedRecord d with
          timebase := (s.forcedRecord d).timebase +
            BitVec.ofNat 64 (20 + (max (s.forcedRecord d).nomNs (x.since + 10 * (x.ceil + 4)) - x.since)),
          nomNs := max (s.forcedRecord d).nomNs (x.since + 10 * (x.ceil + 4)) }
      else if d = 26 then .next ([16, 17, 18].foldl (fun t u => t.setSync u false) (s.forcedRecord d))
      else .next (s.forcedRecord d) := by
  obtain ⟨hf, hr⟩ := ha
  change execMuxHangCeil d s = _
  unfold execMuxHangCeil
  have hc : ¬(s.fatal || !s.rstN || decide (s.nomNs < x.since + 10 * x.ceil)) = true := by
    rw [hf, hr, decide_eq_false (Nat.not_lt.mpr hd)]
    decide
  rw [if_neg (by omega), hx]
  exact (if_neg hc).trans rfl

theorem State.forced_spec {s : State} (hw : s.regs.wf = true) {d : Nat} (h28 : d < 28) :
    (∃ m, s.forced d =
      { s with regs := m, muxes := s.muxes.filter (fun y => y.domain != d), suspect := d :: s.suspect.filter (· != d) }) ∧
    srcOf (s.forced d) d = curSource s ∧ (s.forced d).fld .clkStat 0 16 8 = (s.fld .clkStat 0 16 8 + 1) % 256 ∧
    RegsBut (Reg.clkStat.addr 0 :: srcRegs) s (s.forced d) := by
  unfold State.forced
  generalize hu : ({ s with muxes := s.muxes.filter (fun y => y.domain != d), suspect := d :: s.suspect.filter (· != d) } : State) = u
  have hwu : u.regs.wf = true := by
    rw [← hu]
    exact hw
  have h1 := RegsBut.setSrc u d (curSource s)
  have h2 : RegsBut [Reg.clkStat.addr 0] (u.setSrc d (curSource s)) ((u.setSrc d (curSource s)).bump .clkStat 0 16 8 1) :=
    .setFld (List.mem_singleton_self _) _ _ _
  obtain ⟨m, hm⟩ := u.setSrc_frame d (curSource s)
  have hlt := curSource_lt s
  refine ⟨?_, ?_, ?_, ?_⟩
  · rw [State.bump, State.setFld, hm, ← hu]
    exact ⟨_, rfl⟩
  · exact (srcOf_congr h2 (by decide) (by decide) d).trans (srcOf_setSrc hwu h28 (by omega))
  · rw [State.fld_bump _ _ _ _ _ _ (h1.wf hwu) (by decide), h1.fld (by decide)]
    rw [← hu]
    rfl
  · have h0 : RegsBut (Reg.clkStat.addr 0 :: srcRegs) s u := .of_regs (by rw [← hu])
    exact (h0.trans (h1.mono (List.subset_cons_self _ _))).trans (h2.mono (by decide))

/-- The checkers of the links leave SYNC. -/
theorem State.linksUnsynced {s : State} (hw : s.regs.wf = true) {k : Nat} (h16 : 16 ≤ k) (h19 : k < 19) :
    bit (([16, 17, 18].foldl (fun t u => t.setSync u false) s).rd .tstUnitStat k) 0 = false := by
  have hne : ∀ {t : State} {u : Nat}, u < 19 → k ≠ u → (t.setSync u false).rd .tstUnitStat k = t.rd .tstUnitStat k := fun hu h =>
    (RegsBut.setSync _ _ _).rd _ _ (tstUnitStat_other h19 hu h)
  have h1 := (RegsBut.setSync s 16 false).wf hw
  have h2 := (RegsBut.setSync (s.setSync 16 false) 17 false).wf h1
  change bit ((((s.setSync 16 false).setSync 17 false).setSync 18 false).rd .tstUnitStat k) 0 = false
  obtain rfl | rfl | rfl : k = 16 ∨ k = 17 ∨ k = 18 := by omega
  · rw [hne (by decide) (by decide), hne (by decide) (by decide), State.bit_setSync hw]
  · rw [hne (by decide) (by decide), State.bit_setSync h1]
  · exact State.bit_setSync h2 18 false

/-! The clauses of windows. -/

section
variable {s : State} {p : Bool} {count : Nat} (ha : awake s) (h1 : pllState s p = 1)
include ha h1

theorem windowEnd_dirty (hout : ¬(count ≤ 5120 + max 1 (s.fld .clkPllCtl 0 0 4) ∧ 5120 ≤ count + max 1 (s.fld .clkPllCtl 0 0 4))) :
    ∃ t, exec (.pllWindowEnd p count) s = .next t ∧ t = { s with regs := t.regs, plls := t.plls } ∧ pllState t p = 1 ∧
      (pllOf t p).clean = 0 := by
  refine ⟨s.windowClean p count 0, ?_, rfl, ?_, ?_⟩
  · rw [pllWindowEnd_outside ha (by omega) (by omega) hout, if_pos h1]
  · exact (pllState_congr (s.windowClean_regs p count 0) (by decide) p).trans h1
  · exact congrArg Pll.clean (pllOf_putPll _ _ _)

variable (hin : count ≤ 5120 + max 1 (s.fld .clkPllCtl 0 0 4) ∧ 5120 ≤ count + max 1 (s.fld .clkPllCtl 0 0 4))
include hin

theorem windowEnd_clean (hc : (pllOf s p).clean + 1 < 4) :
    ∃ t, exec (.pllWindowEnd p count) s = .next t ∧ t = { s with regs := t.regs, plls := t.plls } ∧ pllState t p = 1 ∧
      (pllOf t p).clean = (pllOf s p).clean + 1 := by
  refine ⟨s.windowClean p count ((pllOf s p).clean + 1), ?_, rfl, ?_, ?_⟩
  · rw [pllWindowEnd_inside ha (by omega) (by omega) hin, if_pos h1, if_neg (by omega)]
  · exact (pllState_congr (s.windowClean_regs p count _) (by decide) p).trans h1
  · exact congrArg Pll.clean (pllOf_putPll _ _ _)

theorem windowEnd_judged (hw : s.regs.wf = true) (hc : 4 ≤ (pllOf s p).clean + 1) :
    ∃ t, exec (.pllWindowEnd p count) s = .next t ∧ t = { s with regs := t.regs, plls := t.plls, clkWait := t.clkWait } ∧
      (curSource s ≠ 0 → isPrimary s p = true → (pllOf s p).tripped = false → pllState t p = 2 ∧ pllState t (!p) = 3 ∧
        ∀ d, (d ∈ domainsOn s 0 ∨ d ∈ domainsOn s (1 + flag (!p))) →
          if switchWaits s d then srcOf t d = srcOf s d ∧ (d, false) ∈ t.clkWait else srcOf t d = 1 + flag p) ∧
      (curSource s ≠ 0 → (isPrimary s p = false ∨ (pllOf s p).tripped = true) → pllState t p = 3 ∧ t.clkWait = s.clkWait ∧
        isPrimary t p = false) ∧
      (curSource s = 0 → pllState t p = 2 ∧ ∀ d ∈ domainsOn s 0,
        if switchWaits s d then srcOf t d = 0 ∧ (d, false) ∈ t.clkWait else srcOf t d = 1 + flag p) := by
  have he := pllWindowEnd_inside (p := p) ha (by omega) (by omega) hin
  rw [if_pos h1, if_pos hc] at he
  have hb := s.windowClean_regs p count 0
  have hf : ∃ m x, s.windowClean p count 0 = { s with regs := m, plls := x } := ⟨_, _, rfl⟩
  have ht : (pllOf (s.windowClean p count 0) p).tripped = (pllOf s p).tripped := by
    rw [State.windowClean, pllOf_putPll]
  generalize s.windowClean p count 0 = u at he hb hf ht
  obtain ⟨hcur, _, hsrc, hon, hprim, hwait, _⟩ := State.window_views hb hf
  have hwu := hb.wf hw
  obtain ⟨_, _, rfl⟩ := hf
  refine ⟨_, he, ?_, fun h hp hn => ?_, fun h hp => ?_, fun h => ?_⟩
  · by_cases h : curSource s = 0
    · obtain ⟨⟨_, _, _, e⟩, _⟩ := State.pllJudged_first hwu p (hcur.trans h)
      rw [e]
    · by_cases hp : isPrimary s p = true ∧ (pllOf s p).tripped = false
      · obtain ⟨⟨_, _, _, e⟩, _⟩ := State.pllJudged_primary hwu p (hcur ▸ h) ((hprim p).trans hp.1) (ht.trans hp.2)
        rw [e]
      · obtain ⟨⟨_, e⟩, _⟩ := State.pllJudged_standby hwu p (hcur ▸ h) (by rw [hprim, ht]; revert hp; cases isPrimary s p <;> simp)
        rw [e]
  · obtain ⟨_, h2, h3, hs⟩ := State.pllJudged_primary hwu p (hcur ▸ h) ((hprim p).trans hp) (ht.trans hn)
    refine ⟨h2, h3, fun d hd => (hs d ?_).of_views (hwait d) (hsrc d) rfl⟩
    rwa [hon, hon]
  · obtain ⟨⟨_, e⟩, h3, hn⟩ := State.pllJudged_standby hwu p (hcur ▸ h) (by rwa [hprim, ht])
    exact ⟨h3, by rw [e], hn⟩
  · obtain ⟨_, h2, hs⟩ := State.pllJudged_first hwu p (hcur.trans h)
    exact ⟨h2, fun d hd => (hs d ((hon 0).symm ▸ hd)).of_views (hwait d) (hsrc d) (srcOf_of_mem_domainsOn hd)⟩

end

theorem windowEnd_trips {s : State} {p : Bool} {count : Nat} (ha : awake s) (hw : s.regs.wf = true) (h2 : pllState s p = 2)
    (hout : ¬(count ≤ 5120 + max 1 (s.fld .clkPllCtl 0 0 4) ∧ 5120 ≤ count + max 1 (s.fld .clkPllCtl 0 0 4)))
    (hs : pllState s (!p) = 3) :
    ∃ t, exec (.pllWindowEnd p count) s = .next t ∧ t = { s with regs := t.regs, plls := t.plls, clkWait := t.clkWait } ∧
      pllState t p = 1 ∧ pllState t (!p) = 2 ∧ t.fld .clkStat 0 8 8 = (s.fld .clkStat 0 8 8 + 1) % 256 ∧
      ∀ d ∈ domainsOn s (1 + flag p),
        if switchWaits s d then srcOf t d = 1 + flag p ∧ (d, false) ∈ t.clkWait else srcOf t d = 1 + flag (!p) := by
  have he := pllWindowEnd_outside (p := p) ha (by omega) (by omega) hout
  rw [if_neg (by omega)] at he
  have hb := s.windowTaken_regs p count
  have hf : ∃ m x, s.windowTaken p count = { s with regs := m, plls := x } := ⟨_, _, rfl⟩
  generalize s.windowTaken p count = u at he hb hf
  obtain ⟨_, hst, hsrc, hon, _, hwait, hcnt⟩ := State.window_views hb hf
  obtain ⟨⟨_, _, _, e⟩, h1, h3, hc, hd⟩ := State.pllTrip_standby (hb.wf hw) ((hst p).trans h2) ((hst (!p)).trans hs)
  obtain ⟨_, _, rfl⟩ := hf
  refine ⟨_, he, by rw [e], h1, h3, hc.trans (by rw [hcnt]), fun d hm => ?_⟩
  exact (hd d ((hon _).symm ▸ hm)).of_views (hwait d) (hsrc d) (srcOf_of_mem_domainsOn hm)

/-! The clauses of lost taps, the lock ceiling and forced switches. -/

theorem tapLost_hangs {s : State} {p : Bool} (ha : awake s) (h : pllState s p = 2) (hw : s.regs.wf = true) :
    ∃ t, exec (.pllTapLost p) s = .next t ∧ t = { s with regs := t.regs, plls := t.plls, muxes := t.muxes, clkWait := t.clkWait } ∧
      pllState t p = 1 ∧ t.fld .clkStat 0 8 8 = (s.fld .clkStat 0 8 8 + 1) % 256 ∧ (∀ d, d < 28 → srcOf t d = srcOf s d) ∧
      t.muxes = s.muxes ++ ((domainsOn s (1 + flag p)).filter (fun d => !switchWaits s d)).map (hangOf s) ∧
      t.clkWait = s.clkWait ++ ((domainsOn s (1 + flag p)).filter (fun d => switchWaits s d)).map (fun d => (d, true)) := by
  obtain ⟨u, e, ⟨m, x, hu⟩, hb, hp, hc⟩ := State.pllTrip_hang hw h
  refine ⟨_, (pllTapLost_trips ha (by omega) (by omega)).trans (congrArg _ e), ?_, hp, hc, fun d _ => ?_, rfl, rfl⟩
  · rw [hu]
  · exact srcOf_congr hb (by decide) (by decide) d

theorem tapLost_unused {s : State} {p : Bool} (ha : awake s) (h : pllState s p = 3) (hw : s.regs.wf = true) :
    ∃ t, exec (.pllTapLost p) s = .next t ∧ t = { s with regs := t.regs, plls := t.plls } ∧ pllState t p = 1 := by
  obtain ⟨_, ⟨m, x, e⟩, hp, _⟩ := State.tripped_spec hw p
  refine ⟨s.tripped p, (pllTapLost_trips ha (by omega) (by omega)).trans ?_, by rw [e], hp⟩
  rw [State.pllTrip_unused (by omega)]

theorem lockCeil_stops {s : State} {p : Bool} (ha : awake s) (h1 : pllState s p = 1) (hd : (pllOf s p).due ≤ s.nomNs)
    (hl : s.errQ.length < 64) (hw : s.regs.wf = true) :
    ∃ t, exec (.pllLockCeil p) s = .next t ∧ t = { s with regs := t.regs, errQ := t.errQ } ∧ pllState t p = 4 ∧
      (∀ d, d < 28 → srcOf t d = srcOf s d) ∧
      Logged s t (mkErr 3 0 0x48 0 0 63 0 0 (flag p) (s.fld .clkMon 0 (16 * flag p) 16)) := by
  have hs := RegsBut.setPll s p 4
  refine ⟨_, pllLockCeil_fails ha h1 hd, ?_, ?_, fun d _ => ?_, ?_⟩
  · obtain ⟨_, _, e⟩ := (s.setPll p 4).logErr_frame (mkErr 3 0 0x48 0 0 63 0 0 (flag p) (s.fld .clkMon 0 (16 * flag p) 16))
    rw [e]
    rfl
  · exact (pllState_congr (.logErr (offs := logSide) _ (List.Subset.refl _)) (by decide) p).trans (pllState_setPll hw p (by decide))
  · exact (srcOf_congr (.logErr (offs := logSide) _ (List.Subset.refl _)) (by decide) (by decide) d).trans
      (srcOf_congr hs (by decide) (by decide) d)
  · exact (Logged.logErr (s.setPll p 4) _ hl (show 1 < 3 by decide)).congr rfl (hs.rd _ _ (by decide)) rfl

theorem refclkLost_stops {s : State} (ha : awake s) (hw : s.regs.wf = true) :
    ∃ t, exec .refclkLost s = .next t ∧ t = { s with regs := t.regs, fatal := true, acc := [], held := [], evOut := [] } ∧
      bit (t.rd .errFatal 0) 1 = true ∧ ∀ r i, r.addr i ≠ Reg.errFatal.addr 0 → t.rd r i = s.rd r i := by
  have hrd : ∀ r i, (s.goFatal (fun w => withBits w 1 1 1)).rd r i = (s.sEvent .errFatal 0 (fun w => withBits w 1 1 1)).rd r i :=
    fun _ _ => rfl
  refine ⟨_, refclkLost_fatal ha, rfl, ?_, fun r i h => (hrd r i).trans (State.rd_sEvent_ne s .errFatal r 0 i _ h)⟩
  rw [hrd, State.bit_sEvent _ _ _ _ _ hw (by decide), bit_withBits _ _ _ _ _ (by decide)]
  rfl

theorem muxHangCeil_each {s : State} {d : Nat} {x : Mux} (h1 : 1 ≤ d) (h28 : d < 28)
    (hx : s.muxes.find? (fun y => y.domain == d) = some x) (ha : awake s) (hw : s.regs.wf = true) (hl : s.errQ.length < 64)
    (hn : ∀ e ∈ s.errQ, e.code ≠ 0x38) (hd : x.since + 10 * x.ceil ≤ s.nomNs) :
    ∃ u : State, u = { s with regs := u.regs, muxes := s.muxes.filter (fun y => y.domain != d), suspect := d :: s.suspect.filter (· != d) } ∧
      srcOf u d = curSource s ∧ u.fld .clkStat 0 16 8 = (s.fld .clkStat 0 16 8 + 1) % 256 ∧
      (2 ≤ d → d ≤ 17 → exec (.muxHangCeil d) s = .next (u.forceClu (d - 2)).heldLevel) ∧
      (¬(2 ≤ d ∧ d ≤ 17) → ∃ v : State, v = { u with regs := v.regs, errQ := v.errQ } ∧ Logged u v (mkErr 0 d 0x38 0 0 63 0 0 0 0) ∧
        (d = 18 → exec (.muxHangCeil d) s = .next v.forceSch) ∧ (d = 20 → exec (.muxHangCeil d) s = .next v.forceAdm) ∧
        (d ≠ 18 → d ≠ 20 → d ≠ 22 → d ≠ 26 → exec (.muxHangCeil d) s = .next v) ∧
        (d = 22 → ∃ t, exec (.muxHangCeil d) s = .next t ∧ t = { v with timebase := t.timebase, nomNs := t.nomNs } ∧
          t.nomNs = max s.nomNs (x.since + 10 * (x.ceil + 4)) ∧
          t.timebase = s.timebase + BitVec.ofNat 64 (20 + (t.nomNs - x.since))) ∧
        (d = 26 → ∃ t, exec (.muxHangCeil d) s = .next t ∧ t = { v with regs := t.regs } ∧
          ∀ k, 16 ≤ k → k < 19 → bit (t.rd .tstUnitStat k) 0 = false)) := by
  have he := muxHangCeil_forces h1 h28 hx ha hd
  obtain ⟨⟨m, hu⟩, hsrc, hcnt, hb⟩ := State.forced_spec hw h28
  refine ⟨s.forced d, by rw [hu], hsrc, hcnt, fun ha hb => he.trans (if_pos ⟨ha, hb⟩), fun hclu => ?_⟩
  rw [if_neg hclu] at he
  have hq : (s.forced d).errQ = s.errQ := by rw [hu]
  have hlog : Logged (s.forced d) (s.forcedRecord d) (mkErr 0 d 0x38 0 0 63 0 0 0 0) := .logErr_new (by rwa [hq]) (by rwa [hq])
  obtain ⟨r, q, hv⟩ : ∃ m q, s.forcedRecord d = { s.forced d with regs := m, errQ := q } := State.logErr_frame _ _
  have hwv : (s.forcedRecord d).regs.wf = true := RegsBut.wf (offs := logSide) (.logErr _ (List.Subset.refl _)) (hb.wf hw)
  have hns : (s.forcedRecord d).nomNs = s.nomNs := by rw [hv, hu]
  have htb : (s.forcedRecord d).timebase = s.timebase := by rw [hv, hu]
  rw [hns, htb] at he
  generalize s.forcedRecord d = v at he hlog hv hwv
  refine ⟨v, by rw [hv], hlog, ?_, ?_, ?_, ?_, ?_⟩
  · rintro rfl
    exact he.trans (if_pos rfl)
  · rintro rfl
    exact he.trans ((if_neg (by decide)).trans (if_pos rfl))
  · intro h18 h20 h22 h26
    rw [if_neg h18, if_neg h20, if_neg h22, if_neg h26] at he
    exact he
  · rintro rfl
    rw [if_neg (by decide), if_neg (by decide), if_pos rfl] at he
    exact ⟨_, he, rfl, rfl, rfl⟩
  · rintro rfl
    rw [if_neg (by decide), if_neg (by decide), if_neg (by decide), if_pos rfl] at he
    refine ⟨_, he, ?_, fun k h16 h19 => State.linksUnsynced hwv h16 h19⟩
    obtain ⟨_, e⟩ := setSyncs_frame [16, 17, 18] v
    rw [e]

theorem suspectClear_clears {s : State} {d : Nat} (h : d < 28) (ha : awake s) (hn : s.muxes.any (fun x => x.domain == d) = false) :
    exec (.suspectClear d) s = .next { s with suspect := s.suspect.filter (· != d) } := by
  obtain ⟨hf, hr⟩ := ha
  change execSuspectClear d s = _
  unfold execSuspectClear
  rw [if_neg (by omega), if_neg]
  rw [hf, hr, hn]
  decide

/-- Settles O51: the window by its count and its history, each other event by its own equation. -/
theorem clockMonitors : Obligations.ClockMonitors := by
  unfold Obligations.ClockMonitors
  refine ⟨?_, fun _ _ => tapLost_hangs, fun _ _ => tapLost_unused, fun _ _ => lockCeil_stops, fun _ => refclkLost_stops,
    fun _ _ _ => muxHangCeil_each, fun _ _ => suspectClear_clears⟩
  intro s p count ha h0 h4 hw inside
  refine ⟨fun h1 hin => ?_, windowEnd_dirty ha, windowEnd_clean ha, fun h1 hin => windowEnd_judged ha h1 hin hw,
    windowEnd_trips ha hw⟩
  have he := pllWindowEnd_inside ha h0 h4 hin
  rw [if_neg h1] at he
  exact ⟨_, he, rfl, pllState_congr (s.windowTaken_regs p count) (by decide) p,
    State.fld_setFld _ _ _ _ _ _ hw (by cases p <;> decide)⟩

end Sys2Proof.Machine
end

section
/-! PROOFS. Changes of the power level (15 R463 to R466) and the stop of a cluster's clock (15 R468). -/

namespace Sys2Proof.Machine

theorem State.bit_setFld {s : State} (hw : s.regs.wf = true) {r : Reg} {i lo len v k : Nat} (h : lo + len ≤ 32) :
    bit ((s.setFld r i lo len v).rd r i) k = if lo ≤ k ∧ k < lo + len then v.testBit (k - lo) else bit (s.rd r i) k := by
  rw [State.rd_setFld _ _ _ _ _ _ hw, bit_withBits _ _ _ _ _ h]

/-! The end of a change. -/

/-- The switches that waited for the end of a change, in the order of their arrival. -/
def State.switchEach (s : State) (target : Nat) (ws : List (Nat × Bool)) : State := ws.foldl (fun t w => t.switchOne target w.2 w.1) s

theorem State.switchEach_frame (target : Nat) (ws : List (Nat × Bool)) {s : State} (h : s.pchange = none) :
    (∃ m x, s.switchEach target ws = { s with regs := m, muxes := x }) ∧ RegsBut srcRegs s (s.switchEach target ws) := by
  induction ws generalizing s with
  | nil => exact ⟨⟨_, _, rfl⟩, .refl _ _⟩
  | cons w ws ih =>
    obtain ⟨d, hang⟩ := w
    have hwait : ¬switchWaits s d = true := by simp [switchWaits, h]
    have hone : (∃ m x, s.switchOne target hang d = { s with regs := m, muxes := x }) ∧ RegsBut srcRegs s (s.switchOne target hang d) := by
      cases hang with
      | false =>
        rw [State.switchOne_now hwait]
        obtain ⟨m, e⟩ := s.setSrc_frame d target
        exact ⟨⟨m, _, e⟩, .setSrc s d target⟩
      | true =>
        rw [State.switchOne_hangs hwait]
        exact ⟨⟨_, _, rfl⟩, .of_regs rfl⟩
    obtain ⟨⟨m, x, e⟩, hr⟩ := hone
    change (∃ m x, (s.switchOne target hang d).switchEach target ws = { s with regs := m, muxes := x }) ∧
      RegsBut srcRegs s ((s.switchOne target hang d).switchEach target ws)
    obtain ⟨⟨m', x', e'⟩, hr'⟩ := ih (s := s.switchOne target hang d) (by rw [e]; exact h)
    exact ⟨⟨m', x', by rw [e', e]⟩, hr.trans hr'⟩

/-- The block with its change ended. -/
def State.levelFree (s : State) : State := { (s.setFld .pwrStat 0 4 1 0) with pchange := none, clkWait := [] }

/-- The block with its change ended, and with the switches begun that waited for it. -/
def State.levelEnded (s : State) : State := s.levelFree.switchEach (curSource s) s.clkWait

theorem RegsBut.levelFree (s : State) : RegsBut [Reg.pwrStat.addr 0] s s.levelFree :=
  (LevelStep.setFld s 4 1 0).regs.trans (.of_regs rfl)

theorem State.levelEnded_frame (s : State) :
    (∃ m x, s.levelEnded = { s with regs := m, pchange := none, clkWait := [], muxes := x }) ∧
      RegsBut (Reg.pwrStat.addr 0 :: srcRegs) s s.levelEnded ∧ s.levelEnded.rd .pwrStat 0 = s.levelFree.rd .pwrStat 0 := by
  obtain ⟨⟨m, x, e⟩, hr⟩ := State.switchEach_frame (curSource s) s.clkWait (s := s.levelFree) rfl
  refine ⟨⟨m, x, e.trans rfl⟩, ?_, hr.rd _ _ (by decide)⟩
  exact ((RegsBut.levelFree s).mono (by decide)).trans (hr.mono (by decide))

/-- A change whose level is the one wanted ends and nothing more begins. -/
theorem State.pEnd_ends {s : State} {was : Nat} (hr : s.restEnter ≠ 2) (hl : levelWanted s = was) : s.pEnd was = s.levelEnded := by
  obtain ⟨⟨m, x, e⟩, hb, _⟩ := s.levelEnded_frame
  have h1 : s.levelEnded.restEnter ≠ 2 := by rwa [e]
  have h2 : levelWanted s.levelEnded = was := (hb.fld (by decide) 0 2).trans hl
  change (if s.levelEnded.restEnter = 2 then _ else if s.levelEnded.mode = .rest ∨ levelWanted s.levelEnded = was then s.levelEnded else _) = _
  rw [if_neg h1, if_pos (.inr h2)]

/-- BUSY is clear, the levels and ACK_LATE as they were. -/
theorem State.levelEnded_views {s : State} (hw : s.regs.wf = true) : inForce s.levelEnded = inForce s ∧
    bit (s.levelEnded.rd .pwrStat 0) 4 = false ∧ ackLate s.levelEnded = ackLate s := by
  obtain ⟨_, _, hrd⟩ := s.levelEnded_frame
  have hf : s.levelFree.rd .pwrStat 0 = (s.setFld .pwrStat 0 4 1 0).rd .pwrStat 0 := rfl
  rw [inForce, ackLate, State.fld, hrd, hf]
  refine ⟨State.fld_setFld_ne s .pwrStat 0 4 1 0 0 2 hw (by decide) (by decide), ?_, ?_⟩
  · rw [State.bit_setFld hw (by decide)]
    rfl
  · rw [State.bit_setFld hw (by decide)]
    rfl

/-- What the switches that waited do. -/
theorem State.levelEnded_switches {s : State} (hw : s.regs.wf = true) : (s.clkWait = [] → s.levelEnded.muxes = s.muxes) ∧
    (∀ d, s.clkWait = [(d, false)] → d < 28 → srcOf s.levelEnded d = curSource s) ∧
    (∀ d, s.clkWait = [(d, true)] → s.levelEnded.muxes = s.muxes ++ [hangOf s d]) := by
  have hwait : ∀ d, ¬switchWaits s.levelFree d = true := fun d => by simp [switchWaits, State.levelFree]
  refine ⟨fun h => ?_, fun d h hd => ?_, fun d h => ?_⟩
  · rw [State.levelEnded, h]
    rfl
  · have e : s.levelEnded = s.levelFree.setSrc d (curSource s) := by
      rw [State.levelEnded, h]
      exact State.switchOne_now (hwait d) _
    have hlt := curSource_lt s
    rw [e]
    exact srcOf_setSrc ((RegsBut.levelFree s).wf hw) hd (by omega)
  · have e : s.levelEnded = { s.levelFree with muxes := s.muxes ++ [hangOf s.levelFree d] } := by
      rw [State.levelEnded, h]
      exact State.switchOne_hangs (hwait d) _
    rw [e, hangOf, (RegsBut.levelFree s).fld (by decide)]
    rfl

/-! pw_ack. -/

/-- The block as pw_ack toggles under the change c that waits for it. -/
def State.toggled (s : State) (c : PChange) : State :=
  if c.up then ({ s with pwAck := !s.pwAck } : State).setFld .pwrStat 0 0 2 c.target else { s with pwAck := !s.pwAck }

theorem State.toggled_spec {s : State} (hw : s.regs.wf = true) {c : PChange} (ht : c.target < 4) :
    (∃ m, s.toggled c = { s with pwAck := !s.pwAck, regs := m }) ∧ RegsBut [Reg.pwrStat.addr 0] s (s.toggled c) ∧
      inForce (s.toggled c) = if c.up then c.target else inForce s := by
  unfold State.toggled
  split
  · refine ⟨⟨_, rfl⟩, RegsBut.trans (t := { s with pwAck := !s.pwAck }) (.of_regs rfl) (LevelStep.setFld _ 0 2 _).regs, ?_⟩
    exact (State.fld_setFld _ _ _ _ _ _ (by exact hw) (by decide)).trans (Nat.mod_eq_of_lt ht)
  · exact ⟨⟨_, rfl⟩, .of_regs rfl, rfl⟩

theorem pwAckToggle_unawaited {s : State} (ha : awake s) (h : s.pchange.all (fun c => c.held) = true) :
    exec .pwAckToggle s = .next (({ s with pwAck := !s.pwAck } : State).setFld .pwrStat 0 5 1 0) := by
  obtain ⟨hf, hr⟩ := ha
  change execPwAckToggle s = _
  unfold execPwAckToggle
  have hc : ¬(s.fatal || !s.rstN) = true := by
    rw [hf, hr]
    decide
  refine (if_neg hc).trans ?_
  cases hp : s.pchange with
  | none => rfl
  | some c =>
    rw [hp] at h
    exact if_pos h

theorem pwAckToggle_awaited {s : State} (ha : awake s) {c : PChange} (h : s.pchange = some c) (hh : c.held = false) (hl : c.late = false) :
    exec .pwAckToggle s = .next ((s.toggled c).pEnd c.target) := by
  obtain ⟨hf, hr⟩ := ha
  change execPwAckToggle s = _
  unfold execPwAckToggle State.toggled
  have hc : ¬(s.fatal || !s.rstN) = true := by
    rw [hf, hr]
    decide
  refine (if_neg hc).trans ?_
  rw [h]
  refine (if_neg (by rw [hh]; decide)).trans ((if_neg (by rw [hl]; decide)).trans ?_)
  split
  · rfl
  · rfl

/-- The block after a change whose toggle does not come. -/
def State.ackLost (s : State) (c : PChange) : State :=
  (s.logErr (mkErr 3 0 0x49 0 0 63 0 0 c.target (inForce s))).setFld .pwrStat 0 5 1 1

theorem pwAckCeil_ends {s : State} (ha : awake s) {c : PChange} (h : s.pchange = some c) (hh : c.held = false) (hd : c.due ≤ s.nomNs)
    (hr2 : s.restEnter ≠ 2) : exec .pwAckCeil s = .next ((s.ackLost c).pEnd c.target) := by
  obtain ⟨hf, hr⟩ := ha
  change execPwAckCeil s = _
  unfold execPwAckCeil
  rw [h]
  refine (if_neg ?_).trans (if_neg fun hn => hr2 hn.2)
  rw [hf, hr, hh, decide_eq_false (Nat.not_lt.mpr hd)]
  decide

theorem pwAckCeil_held {s : State} {c : PChange} (h : s.pchange = some c) (hh : c.held = true) : exec .pwAckCeil s = .next s := by
  change execPwAckCeil s = _
  unfold execPwAckCeil
  rw [h]
  refine if_pos ?_
  rw [hh]
  simp

/-- A change that waits for switches goes on waiting while there is one. -/
theorem State.heldLevel_waits {s : State} {c : PChange} (h : s.pchange = some c) (hc : cluSwitching s = true) : s.heldLevel = s := by
  unfold State.heldLevel
  rw [h]
  exact if_pos (by rw [hc, Bool.or_true])

/-- It begins once there is none. -/
theorem State.heldLevel_begins {s : State} {c : PChange} (h : s.pchange = some c) (hh : c.held = true) (hc : cluSwitching s = false)
    (hr : s.restEnter ≠ 2) : s.heldLevel =
      let v := ({ (s.setFld .pwrStat 0 4 1 0) with pchange := none } : State).pStart (levelWanted s)
      if v.pchange.isSome then v else v.pEnd (levelWanted s) := by
  have hl : levelWanted ({ (s.setFld .pwrStat 0 4 1 0) with pchange := none } : State) = levelWanted s :=
    ((LevelStep.setFld s 4 1 0).regs.trans (RegsBut.of_regs rfl)).fld (by decide) 0 2
  unfold State.heldLevel
  rw [h]
  refine (if_neg (by rw [hh, hc]; decide)).trans ?_
  have ht : (if s.restEnter = 2 then 3 else levelWanted ({ (s.setFld .pwrStat 0 4 1 0) with pchange := none } : State)) = levelWanted s :=
    (if_neg hr).trans hl
  exact congrArg (fun t => let v := ({ (s.setFld .pwrStat 0 4 1 0) with pchange := none } : State).pStart t
    if v.pchange.isSome then v else v.pEnd t) ht

/-! A cluster's clock (15 R468). -/

theorem clusterClockStop_stops {s : State} {n : Nat} (hn : n < 16) (ha : awake s) (he : cluEn s n = false)
    (hg : bit (s.rd .clkGateStat 0) n = true) (hx : s.slots.any (fun x => x.clu == n) = false) (hb : portBusy s n = false) :
    exec (.clusterClockStop n) s = .next (s.setFld .clkGateStat 0 n 1 0).drainHeld := by
  obtain ⟨hf, hr⟩ := ha
  change execClusterClockStop n s = _
  unfold execClusterClockStop
  refine (if_neg (by omega)).trans (if_neg ?_)
  rw [hf, hr, he, hg, hx, hb]
  decide

/-! The clauses. -/

theorem pwAckToggle_clears {s : State} (ha : awake s) (h : s.pchange.all (fun c => c.held) = true) (hw : s.regs.wf = true) :
    ∃ t, exec .pwAckToggle s = .next t ∧ t = { s with pwAck := !s.pwAck, regs := t.regs } ∧ ackLate t = false ∧ inForce t = inForce s ∧
      reqLevel t = reqLevel s := by
  have hwu : ({ s with pwAck := !s.pwAck } : State).regs.wf = true := hw
  refine ⟨_, pwAckToggle_unawaited ha h, rfl, ?_, ?_, ?_⟩
  · rw [ackLate, State.bit_setFld hwu (by decide)]
    rfl
  · exact State.fld_setFld_ne _ .pwrStat 0 5 1 0 0 2 hwu (by decide) (by decide)
  · exact State.fld_setFld_ne _ .pwrStat 0 5 1 0 2 2 hwu (by decide) (by decide)

theorem pwAckToggle_completes {s : State} {c : PChange} (ha : awake s) (h : s.pchange = some c) (hh : c.held = false) (hl : c.late = false)
    (ht : c.target < 4) (hr : s.restEnter ≠ 2) (hv : levelWanted s = c.target) (hw : s.regs.wf = true) :
    ∃ t, exec .pwAckToggle s = .next t ∧
      t = { s with pwAck := !s.pwAck, regs := t.regs, pchange := none, clkWait := [], muxes := t.muxes } ∧
      inForce t = (if c.up then c.target else inForce s) ∧ bit (t.rd .pwrStat 0) 4 = false ∧
      (s.clkWait = [] → t.muxes = s.muxes) ∧ (∀ d, s.clkWait = [(d, false)] → 1 ≤ d → d < 28 → srcOf t d = curSource s) ∧
      (∀ d, s.clkWait = [(d, true)] → t.muxes = s.muxes ++ [{ domain := d, since := s.nomNs, ceil := max 1 (s.fld .clkMuxCtl 0 0 8) }]) := by
  have he := pwAckToggle_awaited ha h hh hl
  obtain ⟨⟨m, e⟩, hb, hi⟩ := State.toggled_spec hw ht
  have hlv : levelWanted (s.toggled c) = c.target := (hb.fld (by decide) 0 2).trans hv
  have hcs := curSource_congr hb (by decide)
  have hmx := hb.fld (q := .clkMuxCtl) (i := 0) (by decide) 0 8
  have hwu := hb.wf hw
  generalize s.toggled c = u at he e hb hi hlv hcs hmx hwu
  rw [State.pEnd_ends (by rwa [e]) hlv] at he
  obtain ⟨⟨m', x, e'⟩, _, _⟩ := u.levelEnded_frame
  obtain ⟨hf, h4, _⟩ := State.levelEnded_views hwu
  obtain ⟨s0, s1, s2⟩ := State.levelEnded_switches hwu
  refine ⟨_, he, by rw [e', e], hf.trans hi, h4, fun hc => ?_, fun d hc _ hd => ?_, fun d hc => ?_⟩
  · rw [s0 (by rwa [e]), e]
  · exact (s1 d (by rwa [e]) hd).trans hcs
  · rw [s2 d (by rwa [e]), hangOf, hmx, e]

theorem pwAckCeil_logs {s : State} {c : PChange} (ha : awake s) (h : s.pchange = some c) (hh : c.held = false) (hd : c.due ≤ s.nomNs)
    (hr : s.restEnter ≠ 2) (hv : levelWanted s = c.target) (hw : s.regs.wf = true) (hq : s.errQ.length < 64) :
    ∃ t, exec .pwAckCeil s = .next t ∧
      t = { s with regs := t.regs, errQ := t.errQ, pchange := none, clkWait := [], muxes := t.muxes } ∧ inForce t = inForce s ∧
      (s.clkWait = [] → t.muxes = s.muxes) ∧
      ackLate t = true ∧ bit (t.rd .pwrStat 0) 4 = false ∧ Logged s t (mkErr 3 0 0x49 0 0 63 0 0 c.target (inForce s)) := by
  have he := pwAckCeil_ends ha h hh hd hr
  have hlog := Logged.logErr s (mkErr 3 0 0x49 0 0 63 0 0 c.target (inForce s)) hq (show 1 < 3 by decide)
  obtain ⟨m, q, e⟩ := s.logErr_frame (mkErr 3 0 0x49 0 0 63 0 0 c.target (inForce s))
  have hb : RegsBut logSide s _ := .logErr (mkErr 3 0 0x49 0 0 63 0 0 c.target (inForce s)) (List.Subset.refl _)
  unfold State.ackLost at he
  generalize s.logErr (mkErr 3 0 0x49 0 0 63 0 0 c.target (inForce s)) = v at he hlog e hb
  have hwv := hb.wf hw
  have hk := LevelStep.setFld v 5 1 1
  have hlv : levelWanted (v.setFld .pwrStat 0 5 1 1) = c.target := (hk.regs.fld (by decide) 0 2).trans ((hb.fld (by decide) 0 2).trans hv)
  rw [State.pEnd_ends (by rw [hk.frame, e]; exact hr) hlv] at he
  obtain ⟨⟨m', x, e'⟩, _, _⟩ := (v.setFld .pwrStat 0 5 1 1).levelEnded_frame
  obtain ⟨hf, h4, h5⟩ := State.levelEnded_views (hk.regs.wf hwv)
  obtain ⟨s0, _, _⟩ := State.levelEnded_switches (hk.regs.wf hwv)
  refine ⟨_, he, ?_, ?_, fun hc => ?_, ?_, h4, ?_⟩
  · rw [e', hk.frame, e]
  · exact hf.trans ((State.fld_setFld_ne v .pwrStat 0 5 1 1 0 2 hwv (by decide) (by decide)).trans (hb.fld (by decide) 0 2))
  · rw [s0 (by rw [hk.frame, e]; exact hc), hk.frame, e]
  · rw [h5, ackLate, State.bit_setFld hwv (by decide)]
    rfl
  · unfold Logged at hlog ⊢
    rw [e', ← hlog]
    rfl

/-- Settles O52: each end of a change of level by its own equation; the stop clears one enable and drains its port. -/
theorem powerLevels : Obligations.PowerLevels := by
  unfold Obligations.PowerLevels
  refine ⟨fun _ => pwAckToggle_clears, fun _ _ => pwAckToggle_completes, fun s c h hh => ⟨pwAckCeil_held h hh, State.heldLevel_waits h,
    State.heldLevel_begins h hh⟩, fun _ _ => pwAckCeil_logs, fun s n hn ha he hg hx hb hw => ?_⟩
  have hp := PortsOnly.drainHeld (s.setFld .clkGateStat 0 n 1 0)
  refine ⟨_, clusterClockStop_stops hn ha he hg hx hb, ⟨_, hp⟩, ?_, fun k hk => ?_⟩
  · rw [(RegsBut.ports (offs := []) hp).rd _ _ (by simp), State.bit_setFld hw (by omega), if_pos (by omega)]
    simp
  · rw [(RegsBut.ports (offs := []) hp).rd _ _ (by simp), State.bit_setFld hw (by omega), if_neg (by omega)]

end Sys2Proof.Machine
end

section
/-! PROOFS. The federation links as they stop and train (14 R447; 15 R471, R474), and the clock sources on bypass. -/

namespace Sys2Proof.Machine

/-! One link. -/

/-- t is s but for its registers and its links. -/
def LinksMoved (s t : State) : Prop := ∃ m l, t = { s with regs := m, fed := { s.fed with links := l } }

theorem LinksMoved.refl (s : State) : LinksMoved s s := ⟨_, _, rfl⟩

theorem LinksMoved.trans {s t u : State} (h : LinksMoved s t) (k : LinksMoved t u) : LinksMoved s u := by
  obtain ⟨_, _, rfl⟩ := h
  obtain ⟨_, _, rfl⟩ := k
  exact ⟨_, _, rfl⟩

/-- The registers of link k. -/
def linkRegs (k : Nat) : List Nat := [Reg.fedLinkStat.addr k, Reg.tstUnitStat.addr (16 + k)]

/-- The registers of the links. -/
def linksRegs : List Nat := linkRegs 0 ++ linkRegs 1 ++ linkRegs 2

theorem linkRegs_subset {k : Nat} (h : k < 3) : linkRegs k ⊆ linksRegs := by
  obtain rfl | rfl | rfl : k = 0 ∨ k = 1 ∨ k = 2 := by omega
  · decide
  · decide
  · decide

theorem fedLinkStat_other {j k : Nat} (hj : j < 3) (hk : k < 3) (h : j ≠ k) : Reg.fedLinkStat.addr j ∉ linkRegs k := by
  simp [linkRegs, Reg.addr, Reg.clustered, Reg.at, Reg.fedLinkStat, Reg.tstUnitStat]
  omega

theorem lstate_congr {offs : List Nat} {s t : State} (h : RegsBut offs s t) {k : Nat} (hn : Reg.fedLinkStat.addr k ∉ offs) :
    lstate t k = lstate s k := h.fld hn 0 2

/-- Link k takes l and the LSTATE v, and its pattern checker is out of SYNC. -/
def State.linkReset (s : State) (k : Nat) (l : Link) (v : Nat) : State :=
  ((s.putLink l).setFld .fedLinkStat k 0 2 v).setSync (16 + k) false

theorem LinksMoved.linkReset (s : State) (k : Nat) (l : Link) (v : Nat) : LinksMoved s (s.linkReset k l v) := ⟨_, _, rfl⟩

theorem RegsBut.linkReset (s : State) (k : Nat) (l : Link) (v : Nat) : RegsBut (linkRegs k) s (s.linkReset k l v) := by
  have h1 : RegsBut (linkRegs k) s (s.putLink l) := .of_regs rfl
  have h2 : RegsBut (linkRegs k) (s.putLink l) ((s.putLink l).setFld .fedLinkStat k 0 2 v) :=
    .setFld (by simp [linkRegs]) _ _ _
  exact (h1.trans h2).trans (.setFld (by simp [linkRegs]) _ _ _)

theorem lstate_linkReset {s : State} (hw : s.regs.wf = true) {k : Nat} (l : Link) {v : Nat} (hv : v < 4) :
    lstate (s.linkReset k l v) k = v := by
  have hs : RegsBut [Reg.tstUnitStat.addr (16 + k)] ((s.putLink l).setFld .fedLinkStat k 0 2 v) (s.linkReset k l v) :=
    .setFld (List.mem_singleton_self _) _ _ _
  have hn : Reg.fedLinkStat.addr k ∉ [Reg.tstUnitStat.addr (16 + k)] := by
    simp [Reg.addr, Reg.clustered, Reg.at, Reg.fedLinkStat, Reg.tstUnitStat]
    omega
  refine (lstate_congr hs hn).trans ?_
  exact (State.fld_setFld (s.putLink l) _ _ _ _ _ hw (by decide)).trans (Nat.mod_eq_of_lt hv)

theorem State.linkTrain_eq (s : State) (k : Nat) : ∃ l, s.linkTrain k = s.linkReset k l 1 := ⟨_, rfl⟩

/-- A link that stops is down; one that was up is counted. -/
theorem State.linkStop_eq (s : State) (k : Nat) (h : lstate s k ≠ 0) :
    ∃ u l, s.linkStop k = u.linkReset k l 0 ∧ (u = s ∨ u = s.bump .fedLinkStat k 8 8 1) := by
  unfold State.linkStop
  rw [if_neg h]
  dsimp only
  split
  · exact ⟨_, _, rfl, .inr rfl⟩
  · exact ⟨_, _, rfl, .inl rfl⟩

theorem State.linkStop_spec {s : State} (hw : s.regs.wf = true) (k : Nat) :
    LinksMoved s (s.linkStop k) ∧ RegsBut (linkRegs k) s (s.linkStop k) ∧ lstate (s.linkStop k) k = 0 := by
  by_cases h : lstate s k = 0
  · rw [State.linkStop, if_pos h]
    exact ⟨.refl s, .of_regs rfl, h⟩
  · obtain ⟨u, l, e, hu⟩ := s.linkStop_eq k h
    have hb : LinksMoved s u ∧ RegsBut (linkRegs k) s u := by
      rcases hu with rfl | rfl
      · exact ⟨.refl _, .of_regs rfl⟩
      · exact ⟨⟨_, _, rfl⟩, .setFld (by simp [linkRegs]) _ _ _⟩
    obtain ⟨hm, hr⟩ := hb
    rw [e]
    exact ⟨hm.trans (.linkReset u k l 0), hr.trans (.linkReset u k l 0), lstate_linkReset (hr.wf hw) l (by decide)⟩

/-! All links. -/

theorem State.stopLinks_spec {s : State} (hw : s.regs.wf = true) :
    LinksMoved s s.stopLinks ∧ RegsBut linksRegs s s.stopLinks ∧ ∀ k, k < 3 → lstate s.stopLinks k = 0 := by
  change LinksMoved s (((s.linkStop 0).linkStop 1).linkStop 2) ∧ RegsBut linksRegs s (((s.linkStop 0).linkStop 1).linkStop 2) ∧
    ∀ k, k < 3 → lstate (((s.linkStop 0).linkStop 1).linkStop 2) k = 0
  obtain ⟨m0, r0, d0⟩ := State.linkStop_spec hw 0
  obtain ⟨m1, r1, d1⟩ := State.linkStop_spec (r0.wf hw) 1
  obtain ⟨m2, r2, d2⟩ := State.linkStop_spec (r1.wf (r0.wf hw)) 2
  refine ⟨(m0.trans m1).trans m2, ((r0.mono (by decide)).trans (r1.mono (by decide))).trans (r2.mono (by decide)), fun k hk => ?_⟩
  obtain rfl | rfl | rfl : k = 0 ∨ k = 1 ∨ k = 2 := by omega
  · rw [lstate_congr r2 (by decide), lstate_congr r1 (by decide), d0]
  · rw [lstate_congr r2 (by decide), d1]
  · exact d2

/-- A link that is down trains where its clock runs. -/
def State.linkStart (s : State) (k : Nat) : State :=
  if bit (s.rd .clkGateStat 0) (17 + k) && decide (lstate s k = 0) then s.linkTrain k else s

theorem State.startLinks_eq (s : State) : s.startLinks = ((s.linkStart 0).linkStart 1).linkStart 2 := rfl

theorem State.linkStart_spec (s : State) (k : Nat) : LinksMoved s (s.linkStart k) ∧ RegsBut (linkRegs k) s (s.linkStart k) := by
  unfold State.linkStart
  split
  · obtain ⟨l, e⟩ := s.linkTrain_eq k
    rw [e]
    exact ⟨.linkReset s k l 1, .linkReset s k l 1⟩
  · exact ⟨.refl s, .of_regs rfl⟩

theorem State.startLinks_spec (s : State) : LinksMoved s s.startLinks ∧ RegsBut linksRegs s s.startLinks := by
  rw [State.startLinks_eq]
  obtain ⟨m0, r0⟩ := s.linkStart_spec 0
  obtain ⟨m1, r1⟩ := (s.linkStart 0).linkStart_spec 1
  obtain ⟨m2, r2⟩ := ((s.linkStart 0).linkStart 1).linkStart_spec 2
  exact ⟨(m0.trans m1).trans m2, ((r0.mono (by decide)).trans (r1.mono (by decide))).trans (r2.mono (by decide))⟩

/-! Every domain but SUP on bypass. -/

/-- CLK_SRC with every domain that can be switched on bypass. -/
def State.onBypass (s : State) : State := (s.wr .clkSrcLo 0 3).wr .clkSrcHi 0 0

theorem RegsBut.onBypass (s : State) : RegsBut srcRegs s s.onBypass := (RegsBut.wr (by decide) _).trans (.wr (by decide) _)

theorem bits_three {k : Nat} (h : 2 ≤ k) (n : Nat) : bits (3 : W32) k n = 0 := by
  unfold bits
  have h4 : 4 ≤ 2 ^ k := Nat.pow_le_pow_right (n := 2) (by decide) h
  rw [show (3 : W32).toNat = 3 from rfl, Nat.div_eq_of_lt (by omega), Nat.zero_mod]

theorem srcOf_onBypass {s : State} (hw : s.regs.wf = true) {d : Nat} (h : 1 ≤ d) : srcOf s.onBypass d = 0 := by
  have h1 := State.wf_wr s .clkSrcLo 0 3 hw
  unfold srcOf State.onBypass
  split
  · rw [State.fld, State.rd_wr_other _ _ _ _ _ _ (by decide), State.rd_wr_same _ _ _ _ hw, bits_three (by omega)]
  · rw [State.fld, State.rd_wr_same _ _ _ _ h1]
    simp [bits]

end Sys2Proof.Machine
end

section
/-! PROOFS. REST and the wake from it (15 R470 to R474; 09 R292). -/

namespace Sys2Proof.Machine

/-! The entry. -/

theorem restIdleMet_issues {s : State} {c : AdmCmd} {since : Nat} (hc : restCmd s = some c) (hi : s.idleSince = some since)
    (hr : running s = true) (hid : restIdle s = true) (hd : since + idleNs s ≤ s.nomNs) :
    exec .restIdleMet s = .next { (s.admEnd true 0 0 0 0 0) with restEnter := 1 } := by
  change execRestIdleMet s = _
  unfold execRestIdleMet
  rw [hc, hi]
  exact if_pos (by rw [hr, hid, decide_eq_true hd]; rfl)

theorem restTimeout_ends {s : State} {c : AdmCmd} (hc : restCmd s = some c) (ha : awake s) (hd : c.due ≤ s.nomNs) :
    exec .restTimeout s = .next (s.admEnd true 0x46 0 0 0 0) := by
  obtain ⟨hf, hr⟩ := ha
  change execRestTimeout s = _
  unfold execRestTimeout
  rw [hc]
  exact if_pos (by rw [hf, hr, decide_eq_true hd]; rfl)

section
variable {s : State} (ha : awake s) (hm : s.mode = .run)
include ha hm

theorem restEntry_runs : exec .restEntry s =
    if s.restEnter = 1 then
      if admUnacked s ≠ [] then .next s
      else .next (if s.pchange.isSome then ({ s with restEnter := 2 } : State) else ({ s with restEnter := 2 } : State).pStart 3).restStep
    else .next s.restStep := by
  obtain ⟨hf, hr⟩ := ha
  change execRestEntry s = _
  unfold execRestEntry
  exact if_neg (by rw [hf, hr, hm]; decide)

/-- An entry that waits for a change of level. -/
theorem restEntry_waits (h1 : s.restEnter = 1) (hu : admUnacked s = []) (hp : s.pchange.isSome = true) :
    exec .restEntry s = .next { s with restEnter := 2 } := by
  rw [restEntry_runs ha hm, if_pos h1, if_neg (by simp [hu]), if_pos hp]
  refine congrArg _ (if_neg ?_)
  change ¬(decide (2 = 2) && s.pchange.isNone && s.acc.isEmpty && s.held.isEmpty && s.polls.isEmpty) = true
  cases hc : s.pchange with
  | none =>
    rw [hc] at hp
    exact absurd hp (by decide)
  | some c => simp

theorem restEntry_enters (h2 : s.restEnter = 2) (hp : s.pchange = none) (hac : s.acc = []) (hh : s.held = []) (hpo : s.polls = []) :
    exec .restEntry s = .next s.enterRest := by
  rw [restEntry_runs ha hm, if_neg (by omega)]
  exact congrArg _ (if_pos (by rw [h2, hp, hac, hh, hpo]; rfl))

end

/-- The registers in REST: PLLs off, sources on bypass, every clock stopped. -/
def State.clocksOff (s : State) : State := ((s.onBypass.setPll false 0).setPll true 0).wr .clkGateStat 0 0

theorem State.clocksOff_spec {s : State} (hw : s.regs.wf = true) :
    RegsBut (srcRegs ++ [Reg.clkStat.addr 0, Reg.clkGateStat.addr 0]) s s.clocksOff ∧ s.clocksOff.rd .clkGateStat 0 = 0 ∧
      (∀ d, 1 ≤ d → srcOf s.clocksOff d = 0) ∧ ∀ p, pllState s.clocksOff p = 0 := by
  have h1 := RegsBut.onBypass s
  have h2 := RegsBut.setPll s.onBypass false 0
  have h3 := RegsBut.setPll (s.onBypass.setPll false 0) true 0
  have hw2 := h2.wf (h1.wf hw)
  have h4 : RegsBut [Reg.clkGateStat.addr 0] ((s.onBypass.setPll false 0).setPll true 0) s.clocksOff := .wr (List.mem_singleton_self _) _
  refine ⟨(((h1.mono (by decide)).trans (h2.mono (by decide))).trans (h3.mono (by decide))).trans (h4.mono (by decide)),
    State.rd_wr_same _ _ _ _ (h3.wf hw2), fun d hd => ?_, fun p => (pllState_congr h4 (by decide) p).trans ?_⟩
  · rw [srcOf_congr h4 (by decide) (by decide), srcOf_congr h3 (by decide) (by decide), srcOf_congr h2 (by decide) (by decide),
      srcOf_onBypass hw hd]
  · cases p with
    | true => exact pllState_setPll hw2 true (by decide)
    | false => exact (pllState_setPll_ne hw2 (by decide) 0).trans (pllState_setPll (h1.wf hw) false (by decide))

theorem State.clocksOff_frame (s : State) : ∃ m, s.clocksOff = { s with regs := m } := by
  have hp : ∀ (t : State) p, ∃ m, t.setPll p 0 = { t with regs := m } := fun _ _ => ⟨_, rfl⟩
  have hb : ∃ m, s.onBypass = { s with regs := m } := ⟨_, rfl⟩
  obtain ⟨_, e0⟩ := hb
  obtain ⟨_, e1⟩ := hp s.onBypass false
  obtain ⟨_, e2⟩ := hp (s.onBypass.setPll false 0) true
  unfold State.clocksOff
  rw [e2, e1, e0]
  exact ⟨_, rfl⟩

/-- The block as it enters REST, before its ports fall. -/
def State.rested (s : State) : State :=
  { s.stopLinks.clocksOff with mode := .rest, restEnter := 0, restAt := s.nomNs, idleSince := none, muxes := [], clkWait := [], evOut := [],
                               pwRest := true, wakePend := none, wakeAt := none }

theorem State.enterRest_sleeps {s : State} (h : s.wakePend = none) : s.enterRest = s.rested.refreshPorts := by
  unfold State.enterRest
  rw [h]
  rfl

theorem State.rested_spec {s : State} (hw : s.regs.wf = true) : s.rested.rd .clkGateStat 0 = 0 ∧ (∀ d, 1 ≤ d → srcOf s.rested d = 0) ∧
    (∀ p, pllState s.rested p = 0) ∧ (∀ k, k < 3 → lstate s.rested k = 0) ∧
    s.rested.queues = s.queues ∧ s.rested.ways = s.ways ∧ s.rested.is0 = s.is0 ∧ s.rested.nomNs = s.nomNs := by
  obtain ⟨⟨m, l, hl⟩, hb, hdown⟩ := State.stopLinks_spec hw
  obtain ⟨hb', hg, hs, hq⟩ := State.clocksOff_spec (hb.wf hw)
  have hoff := s.stopLinks.clocksOff_frame
  have hls : ∀ k, k < 3 → lstate s.stopLinks.clocksOff k = 0 := fun k hk => by
    refine (lstate_congr hb' ?_).trans (hdown k hk)
    obtain rfl | rfl | rfl : k = 0 ∨ k = 1 ∨ k = 2 := by omega
    · decide
    · decide
    · decide
  unfold State.rested
  generalize s.stopLinks.clocksOff = u at hg hs hq hls hoff
  obtain ⟨m', hu⟩ := hoff
  refine ⟨hg, hs, hq, hls, ?_, ?_, ?_, ?_⟩
  · rw [hu, hl]
  · rw [hu, hl]
  · rw [hu, hl]
  · rw [hu, hl]

theorem restEntry_sleeps {s : State} (ha : awake s) (hm : s.mode = .run) (h2 : s.restEnter = 2) (hp : s.pchange = none) (hac : s.acc = [])
    (hh : s.held = []) (hpo : s.polls = []) (hwp : s.wakePend = none) (hw : s.regs.wf = true) :
    ∃ t, exec .restEntry s = .next t ∧ t.mode = .rest ∧ t.restEnter = 0 ∧ t.restAt = s.nomNs ∧ t.pwRest = true ∧ t.evOut = [] ∧
      t.rd .clkGateStat 0 = 0 ∧ (∀ d, 1 ≤ d → d < 28 → srcOf t d = 0) ∧ pllState t false = 0 ∧ pllState t true = 0 ∧
      (∀ k, k < 3 → lstate t k = 0) ∧ t.queues = s.queues ∧ t.ways = s.ways ∧ t.is0 = s.is0 ∧ t.nomNs = s.nomNs := by
  have he := restEntry_enters ha hm h2 hp hac hh hpo
  obtain ⟨p, c, w, hr⟩ := s.rested.refreshPorts_frame
  rw [State.enterRest_sleeps hwp, hr] at he
  obtain ⟨hg, hs, hq, hl, e1, e2, e3, e4⟩ := State.rested_spec hw
  have hv : s.rested.mode = .rest ∧ s.rested.restEnter = 0 ∧ s.rested.restAt = s.nomNs ∧ s.rested.pwRest = true ∧ s.rested.evOut = [] :=
    ⟨rfl, rfl, rfl, rfl, rfl⟩
  obtain ⟨v1, v2, v3, v4, v5⟩ := hv
  generalize s.rested = u at *
  exact ⟨_, he, v1, v2, v3, v4, v5, hg, fun d h1 _ => hs d h1, hq false, hq true, hl, e1, e2, e3, e4⟩

/-! Wake causes. -/

theorem State.wakeBy_wakes {s : State} (ha : awake s) (hm : s.mode = .rest) (h2 : s.restEnter ≠ 2) (hw : s.wakeAt = none) (cause : Nat) :
    s.wakeBy cause = s.startWake cause := by
  obtain ⟨hf, hr⟩ := ha
  unfold State.wakeBy
  rw [if_neg (by rw [hf, hr]; decide), if_neg h2, if_pos ⟨hm, hw⟩]

theorem wakeTimer_wakes {s : State} (hm : s.mode = .rest) (h0 : s.fld .pwrWakeTmr 0 0 30 ≠ 0)
    (hd : s.restAt + 1000000 * s.fld .pwrWakeTmr 0 0 30 ≤ s.nomNs) : exec .wakeTimer s = .next (s.wakeBy 2) := by
  change execWakeTimer s = _
  unfold execWakeTimer
  exact if_pos (by rw [decide_eq_true hm, decide_eq_true h0, decide_eq_true hd]; rfl)

theorem State.pllStart_frame (s : State) (p tripped : Bool) : ∃ m x, s.pllStart p tripped = { s with regs := m, plls := x } := ⟨_, _, rfl⟩

theorem pllState_pllStart {s : State} (hw : s.regs.wf = true) (p tripped : Bool) : pllState (s.pllStart p tripped) p = 1 :=
  pllState_setPll hw p (by decide)

theorem pllState_pllStart_ne {s : State} (hw : s.regs.wf = true) {p q : Bool} (h : q ≠ p) (tripped : Bool) :
    pllState (s.pllStart p tripped) q = pllState s q := pllState_setPll_ne hw h 1

/-- Both PLLs start. -/
theorem State.pllsStart_spec {s : State} (hw : s.regs.wf = true) (t0 t1 : Bool) :
    let t := (s.pllStart false t0).pllStart true t1
    (∃ m x, t = { s with regs := m, plls := x }) ∧ RegsBut [Reg.clkStat.addr 0] s t ∧ ∀ p, pllState t p = 1 := by
  have h1 := RegsBut.pllStart s false t0
  have h2 := RegsBut.pllStart (s.pllStart false t0) true t1
  obtain ⟨_, _, e⟩ := s.pllStart_frame false t0
  obtain ⟨m, x, e'⟩ := (s.pllStart false t0).pllStart_frame true t1
  refine ⟨⟨m, x, by rw [e', e]⟩, h1.trans h2, fun p => ?_⟩
  cases p with
  | true => exact pllState_pllStart (h1.wf hw) true t1
  | false => exact (pllState_pllStart_ne (h1.wf hw) (by decide) t1).trans (pllState_pllStart hw false t0)

theorem State.wakeCounted_spec {s : State} (hw : s.regs.wf = true) {cause : Nat} (hc : cause < 4) :
    (∃ m x, s.wakeCounted cause = { s with regs := m, plls := x }) ∧ (∀ p, pllState (s.wakeCounted cause) p = 1) ∧
      (s.wakeCounted cause).fld .pwrWakes 0 0 16 = (s.fld .pwrWakes 0 0 16 + 1) % 65536 ∧ (s.wakeCounted cause).fld .pwrWakes 0 16 2 = cause := by
  have hw1 : (s.bump .pwrWakes 0 0 16 1).regs.wf = true := State.wf_wr _ _ _ _ hw
  have hn := State.fld_bump s .pwrWakes 0 0 16 1 hw (by decide)
  unfold State.wakeCounted
  generalize hb : s.bump .pwrWakes 0 0 16 1 = b at hw1 hn
  have hw2 : (b.setFld .pwrWakes 0 16 2 cause).regs.wf = true := State.wf_wr _ _ _ _ hw1
  have hn2 := (State.fld_setFld_ne b .pwrWakes 0 16 2 cause 0 16 hw1 (by decide) (by decide)).trans hn
  have hc2 := (State.fld_setFld b .pwrWakes 0 16 2 cause hw1 (by decide)).trans (Nat.mod_eq_of_lt hc)
  have hf : ∃ m, b.setFld .pwrWakes 0 16 2 cause = { s with regs := m } := ⟨_, by rw [← hb]; rfl⟩
  generalize b.setFld .pwrWakes 0 16 2 cause = u at hw2 hn2 hc2 hf
  obtain ⟨⟨m, x, e⟩, hb, hp⟩ := State.pllsStart_spec hw2 false false
  refine ⟨?_, hp, (hb.fld (by decide) 0 16).trans hn2, (hb.fld (by decide) 16 2).trans hc2⟩
  obtain ⟨_, hu⟩ := hf
  exact ⟨m, x, by rw [e, hu]⟩

theorem wakes_start {s : State} (hm : s.mode = .rest) {cmd : Instr} {cause : Nat}
    (h : cmd = .wake (.event 0) ∧ bit (s.rd .pwrWakeCtl 0) 8 = true ∧ cause = 0 ∨
      cmd = .wake (.event 1) ∧ bit (s.rd .pwrWakeCtl 0) 17 = true ∧ cause = 0 ∨ cmd = .wake .access ∧ cause = 1 ∨
      cmd = .wakeTimer ∧ s.fld .pwrWakeTmr 0 0 30 ≠ 0 ∧ s.restAt + 1000000 * s.fld .pwrWakeTmr 0 0 30 ≤ s.nomNs ∧ cause = 2) :
    exec cmd s = .next (s.wakeBy cause) ∧ cause < 4 := by
  rcases h with ⟨rfl, hb, rfl⟩ | ⟨rfl, hb, rfl⟩ | ⟨rfl, rfl⟩ | ⟨rfl, h0, hd, rfl⟩
  · exact ⟨if_pos hb, by decide⟩
  · exact ⟨if_pos hb, by decide⟩
  · exact ⟨rfl, by decide⟩
  · exact ⟨wakeTimer_wakes hm h0 hd, by decide⟩

/-! The restart of the domains and the end of the wake. -/

/-- Every enabled domain runs, on bypass. -/
def State.clocksOn (s : State) : State := (s.wr .clkGateStat 0 (s.rd .clkGate 0)).onBypass

theorem State.clocksOn_spec {s : State} (hw : s.regs.wf = true) : (∃ m, s.clocksOn = { s with regs := m }) ∧ s.clocksOn.regs.wf = true ∧
    s.clocksOn.rd .clkGateStat 0 = s.rd .clkGate 0 ∧ ∀ d, 1 ≤ d → srcOf s.clocksOn d = 0 := by
  have hg := State.rd_wr_same s .clkGateStat 0 (s.rd .clkGate 0) hw
  have hw1 := State.wf_wr s .clkGateStat 0 (s.rd .clkGate 0) hw
  have hf : ∃ m, s.wr .clkGateStat 0 (s.rd .clkGate 0) = { s with regs := m } := ⟨_, rfl⟩
  unfold State.clocksOn
  generalize s.wr .clkGateStat 0 (s.rd .clkGate 0) = u at hg hw1 hf
  refine ⟨?_, (RegsBut.onBypass u).wf hw1, ((RegsBut.onBypass u).rd _ _ (by decide)).trans hg, fun d h1 => srcOf_onBypass hw1 h1⟩
  obtain ⟨_, rfl⟩ := hf
  exact ⟨_, rfl⟩

/-- The poll of instance i falls due at time t. -/
def State.pollDueAt (t : Nat) (s : State) (i : Nat) : State :=
  if pollIv s i = 0 then s else s.putPoll { pollOf s i with nextDue := some t, fell := none }

theorem State.pollsDueAt_frame (t : Nat) (is : List Nat) (s : State) :
    ∃ p, is.foldl (State.pollDueAt t) s = { s with pollInst := p } := by
  refine ⟨(is.foldl (State.pollDueAt t) s).pollInst, ?_⟩
  have h : ({ is.foldl (State.pollDueAt t) s with pollInst := [] } : State) = { s with pollInst := [] } := by
    refine view_foldl (fun u : State => ({ u with pollInst := [] } : State)) (fun u i => ?_) _ s
    unfold State.pollDueAt
    split
    · rfl
    · rfl
  exact congrArg (fun u : State => { u with pollInst := (is.foldl (State.pollDueAt t) s).pollInst }) h

/-- The block as its clocks restart, its polls due at time t. -/
def State.restarted (s : State) (t : Nat) : State :=
  ((createdIids s.clocksOn).foldl (State.pollDueAt t) s.clocksOn).setAdm
    (fun a => { a with nextPoll := t, kick := a.kick || decide (admPollNs s = 0) })

theorem State.restarted_spec {s : State} (hw : s.regs.wf = true) (t : Nat) :
    (∃ m p a, s.restarted t = { s with regs := m, pollInst := p, adm := a } ∧ a.nextPoll = t) ∧
      (s.restarted t).rd .clkGateStat 0 = s.rd .clkGate 0 ∧ ∀ d, 1 ≤ d → srcOf (s.restarted t) d = 0 := by
  obtain ⟨⟨m, e⟩, _, hg, hs⟩ := State.clocksOn_spec hw
  obtain ⟨p, e'⟩ := State.pollsDueAt_frame t (createdIids s.clocksOn) s.clocksOn
  unfold State.restarted
  rw [e']
  generalize s.clocksOn = u at e hg hs
  refine ⟨?_, hg, hs⟩
  rw [e]
  exact ⟨_, _, _, rfl, rfl⟩

section
variable {s : State} {at0 : Nat} (h : s.wakeAt = some at0) (ha : awake s) (hm : s.mode = .rest)
include h ha hm

theorem wakeRestart_restarts (hd : at0 + 10000 ≤ s.nomNs) (hg : s.rd .clkGateStat 0 = 0) :
    exec .wakeRestart s = .next (s.restarted (at0 + 20480)).startLinks.drainHeld := by
  obtain ⟨hf, hr⟩ := ha
  change execWakeRestart s = _
  unfold execWakeRestart
  rw [h]
  refine (if_neg ?_).trans rfl
  simp only [hm, hf, hr, hg]
  simp
  omega

theorem wakeRun_runs (hd : at0 + 40000 ≤ s.nomNs) (hg : s.rd .clkGateStat 0 ≠ 0) :
    exec .wakeRun s = .next ((({ s with mode := .run, wakeAt := none } : State).levelWritten.drainHeld).admPump).refreshEvm := by
  obtain ⟨hf, hr⟩ := ha
  change execWakeRun s = _
  unfold execWakeRun
  rw [h]
  refine (if_neg ?_).trans rfl
  simp only [hm, hf, hr, hg]
  simp
  omega

theorem wakeRestart_spec (hd : at0 + 10000 ≤ s.nomNs) (hg : s.rd .clkGateStat 0 = 0) (hw : s.regs.wf = true) :
    ∃ t, exec .wakeRestart s = .next t ∧ t.mode = .rest ∧ t.rd .clkGateStat 0 = s.rd .clkGate 0 ∧ (∀ d, 1 ≤ d → d < 28 → srcOf t d = 0) ∧
      t.adm.nextPoll = at0 + 20480 ∧ t.queues = s.queues ∧ t.ways = s.ways := by
  have he := wakeRestart_restarts h ha hm hd hg
  obtain ⟨⟨m, p, a, e, hn⟩, hgs, hsrc⟩ := State.restarted_spec hw (at0 + 20480)
  generalize s.restarted (at0 + 20480) = u at he e hgs hsrc
  obtain ⟨⟨m', l, e'⟩, hb⟩ := u.startLinks_spec
  have hp := PortsOnly.drainHeld u.startLinks
  have hr : RegsBut linksRegs u u.startLinks.drainHeld := hb.trans (.ports hp)
  generalize u.startLinks.drainHeld = v at he hp hr
  refine ⟨v, he, ?_, (hr.rd _ _ (by decide)).trans hgs, fun d h1 _ => (srcOf_congr hr (by decide) (by decide) d).trans (hsrc d h1), ?_⟩
  · obtain ⟨_, _, _, _, _, _, rfl⟩ := hp
    rw [e', e]
    exact hm
  · obtain ⟨_, _, _, _, _, _, rfl⟩ := hp
    rw [e', e]
    exact ⟨hn, rfl, rfl⟩

theorem wakeRun_spec (hd : at0 + 40000 ≤ s.nomNs) (hg : s.rd .clkGateStat 0 ≠ 0) :
    ∃ t, exec .wakeRun s = .next t ∧ t.mode = .run ∧ t.wakeAt = none ∧ t.queues = s.queues ∧ t.ways = s.ways ∧ t.is0 = s.is0 := by
  refine ⟨_, wakeRun_runs h ha hm hd hg, ?_⟩
  have hl := (LevelStep.levelWritten { s with mode := .run, wakeAt := none }).frame
  generalize ({ s with mode := .run, wakeAt := none } : State).levelWritten = u at hl
  have hp := PortsOnly.drainHeld u
  generalize u.drainHeld = v at hp
  obtain ⟨_, _, _, hap⟩ := (AdmStep.admPump v).frame
  generalize v.admPump = w at hap
  have hev := (LevelsTaken.refreshEvm w).frame
  generalize w.refreshEvm = x at hev
  obtain ⟨_, _, _, _, _, _, rfl⟩ := hap
  obtain ⟨_, _, _, _, _, _, rfl⟩ := hp
  rw [hev, hl]
  exact ⟨rfl, rfl, rfl, rfl, rfl⟩

end

/-- Settles O53: the way into REST and out of it, command by command; a wake is its count and then `State.startWake`. -/
theorem restAndWake : Obligations.RestAndWake := by
  unfold Obligations.RestAndWake
  refine ⟨fun _ _ _ => restIdleMet_issues, fun _ _ => restTimeout_ends, fun _ => restEntry_waits, fun _ => restEntry_sleeps, ?_,
    fun _ _ => wakeRestart_spec, fun _ _ => wakeRun_spec⟩
  intro s cmd cause hcmd ha hm h2 hwk hw
  obtain ⟨he, hc⟩ := wakes_start hm hcmd
  obtain ⟨⟨m, x, e⟩, hp, hn, hk⟩ := State.wakeCounted_spec hw hc
  rw [State.wakeBy_wakes ha hm h2 hwk, State.startWake_eq] at he
  exact ⟨_, he, by rw [e], hp false, hp true, hn, hk⟩

end Sys2Proof.Machine
end

section
/-! PROOFS. rst_n, bring-up, the requested modes (19 R542 to R548; 11 R351; 08 R263) and the output pins (18 R540; 12 R382). -/

namespace Sys2Proof.Machine

/-! rst_n (19 R543; 11 R351). -/

theorem rstNFall_resets (s : State) : ∃ t, exec .rstNFall s = .next t ∧ t.mode = .reset ∧ t.rstN = false ∧ t.fatal = false ∧
    t.rd .errFatal 0 = s.rd .errFatal 0 ∧ (∀ (r : Reg) i, r.addr i ≠ Reg.errFatal.addr 0 → t.rd r i = BitVec.ofNat 32 r.reset) ∧
    t.acc = [] ∧ t.slots = [] ∧ t.ways = [] ∧ t.queues = [] ∧ t.records = [] ∧ t.errQ = [] ∧ t.staged = [] ∧ t.timebase = 0 ∧
    t.evIn = s.evIn ∧ t.pwAck = s.pwAck ∧ t.pending = s.pending := by
  have hsame := WordMap.get_put_same [] 0 (Reg.errFatal.addr 0) (s.regs.get (Reg.errFatal.addr 0)) rfl
  have hother : ∀ j, j ≠ Reg.errFatal.addr 0 → (WordMap.put [] (Reg.errFatal.addr 0) (s.regs.get (Reg.errFatal.addr 0))).get j = 0 :=
    fun j hj => (WordMap.get_put_other [] _ j _ hj).trans rfl
  refine ⟨_, rfl, rfl, rfl, rfl, congrArg (· ^^^ BitVec.ofNat 32 Reg.errFatal.reset) hsame, fun r i h => ?_, rfl, rfl, rfl, rfl, rfl, rfl,
    rfl, rfl, rfl, rfl, rfl⟩
  exact (congrArg (· ^^^ BitVec.ofNat 32 r.reset) (hother _ h)).trans BitVec.zero_xor

theorem rstNRise_starts {s : State} (h : s.rstN = false) (hw : s.regs.wf = true) : ∃ t, exec .rstNRise s = .next t ∧
    t = { s with rstN := true, mode := .bringup, regs := t.regs, plls := t.plls } ∧ pllState t false = 1 ∧ pllState t true = 1 := by
  have hwu : ({ s with rstN := true, mode := .bringup } : State).regs.wf = true := hw
  obtain ⟨⟨m, x, e⟩, _, hp⟩ := State.pllsStart_spec hwu false false
  refine ⟨_, if_neg (by rw [h]; decide), ?_, hp false, hp true⟩
  rw [e]

/-! Bring-up (19 R546, R548). -/

/-- A relation that is reflexive and transitive and that each step of a fold keeps holds across the fold. -/
theorem rel_foldl {α : Type} {R : State → State → Prop} (hr : ∀ s, R s s) (ht : ∀ s t u, R s t → R t u → R s u) {f : State → α → State}
    (hf : ∀ t x, R t (f t x)) (xs : List α) (s : State) : R s (xs.foldl f s) := by
  induction xs generalizing s with
  | nil => exact hr s
  | cons x xs ih => exact ht _ _ _ (hf s x) (ih _)

/-- t is s but for its registers and its pending error records. -/
def ErrorsOnly (s t : State) : Prop := ∃ m q, t = { s with regs := m, errQ := q }

theorem ErrorsOnly.refl (s : State) : ErrorsOnly s s := ⟨_, _, rfl⟩

theorem ErrorsOnly.trans {s t u : State} (h : ErrorsOnly s t) (k : ErrorsOnly t u) : ErrorsOnly s u := by
  obtain ⟨_, _, rfl⟩ := h
  obtain ⟨_, _, rfl⟩ := k
  exact ⟨_, _, rfl⟩

/-- The results of MBIST noted. -/
def State.noteMacros (s : State) (faults : List MacroFault) : State := faults.foldl (fun t f => t.noteMacro f) s

theorem State.noteMacros_frame (s : State) (faults : List MacroFault) : ∃ x, s.noteMacros faults = { s with is6 := x } := by
  refine rel_foldl (R := fun s t => ∃ x, t = { s with is6 := x }) (fun _ => ⟨_, rfl⟩) ?_ (fun t f => ?_) faults s
  · rintro s t u ⟨_, rfl⟩ ⟨_, rfl⟩
    exact ⟨_, rfl⟩
  · unfold State.noteMacro
    split
    · exact ⟨_, rfl⟩
    · exact ⟨_, rfl⟩

/-- The clusters with a macro that failed. -/
def failedClusters (s : State) : List Nat := (List.range 16).filter (fun n => domainFailed s (2 + n))

/-- They go out of service. -/
def State.bistOuts (s : State) (ns : List Nat) : State := ns.foldl (fun t n => t.bistOut n) s

/-- How many macros of a domain failed. -/
def failedIn (s : State) (d : Nat) : Nat := ((macrosFailed s).filter (fun m => macroDomain m == d)).length

/-- A record for each domain with a macro that failed in u. -/
def State.logFailed (s u : State) : State :=
  ((List.range 32).filter (fun d => decide (failedIn u d ≠ 0))).foldl (fun t d => t.logErr (mkErr 3 d 0x4C 0 0 63 0 0 d (failedIn u d))) s

theorem State.bringupEnd_eq (s : State) (faults : List MacroFault) :
    let u := s.noteMacros faults
    s.bringupEnd faults = ({ ((u.bistOuts (failedClusters u)).logFailed u).setFld .glbStat 0 0 1 1 with mode := .configure } : State).refreshEvm :=
  rfl

theorem RegsBut.bistOut (s : State) (n : Nat) : RegsBut [Reg.cluMirrorStat.addr n] s (s.bistOut n) := by
  unfold State.bistOut
  extract_lets sound ad
  have h : ∀ (t : State) lo len v, RegsBut [Reg.cluMirrorStat.addr n] t (t.setFld .cluMirrorStat n lo len v) :=
    fun t lo len v => .setFld (List.mem_singleton_self _) _ _ _
  exact ((h _ 4 1 1).trans (h _ 5 4 ad)).trans (h _ 9 2 2)

theorem outOfService_bistOut {s : State} (hw : s.regs.wf = true) (n : Nat) : outOfService (s.bistOut n) n = true := by
  unfold State.bistOut outOfService
  extract_lets sound ad
  clear_value ad
  have hw1 := State.wf_wr s .cluMirrorStat n (withBits (s.rd .cluMirrorStat n) 4 1 1) hw
  have h1 : bit ((s.setFld .cluMirrorStat n 4 1 1).rd .cluMirrorStat n) 4 = true := by
    rw [State.bit_setFld hw (by decide)]
    rfl
  change (s.setFld .cluMirrorStat n 4 1 1).regs.wf = true at hw1
  generalize s.setFld .cluMirrorStat n 4 1 1 = t at hw1 h1
  have hw2 : (t.setFld .cluMirrorStat n 5 4 ad).regs.wf = true := State.wf_wr _ _ _ _ hw1
  rw [State.bit_setFld hw2 (by decide), if_neg (by omega), State.bit_setFld hw1 (by decide), if_neg (by omega), h1]

theorem cluMirrorStat_addr (n : Nat) : Reg.cluMirrorStat.addr n = 0x810C + 0x1000 * (n / 2) + 0x400 * (n % 2) := rfl

/-- The clusters' pages lie above the others. -/
theorem cluMirrorStat_above {offs : List Nat} (h : ∀ x ∈ offs, x < 0x8000) (n : Nat) : Reg.cluMirrorStat.addr n ∉ offs := fun hm => by
  have hlt := h _ hm
  rw [cluMirrorStat_addr] at hlt
  omega

theorem cluMirrorStat_other {n k : Nat} (h : n ≠ k) : Reg.cluMirrorStat.addr n ∉ [Reg.cluMirrorStat.addr k] := by
  rw [List.mem_singleton, cluMirrorStat_addr, cluMirrorStat_addr]
  omega

theorem State.bistOuts_out (ns : List Nat) {n : Nat} {s : State} (hw : s.regs.wf = true) (h : n ∈ ns ∨ outOfService s n = true) :
    outOfService (s.bistOuts ns) n = true := by
  induction ns generalizing s with
  | nil => exact h.resolve_left (List.not_mem_nil)
  | cons k ns ih =>
    refine ih (s := s.bistOut k) ((RegsBut.bistOut s k).wf hw) ?_
    by_cases hk : n = k
    · subst hk
      exact .inr (outOfService_bistOut hw n)
    · refine h.imp (fun hm => (List.mem_cons.mp hm).resolve_left hk) fun ho => ?_
      rw [outOfService, (RegsBut.bistOut s k).rd _ _ (cluMirrorStat_other hk)]
      exact ho

theorem State.bistOuts_frame (s : State) (ns : List Nat) : ErrorsOnly s (s.bistOuts ns) :=
  rel_foldl ErrorsOnly.refl (fun _ _ _ => ErrorsOnly.trans) (fun _ _ => ⟨_, _, rfl⟩) ns s

theorem State.bistOuts_wf {s : State} (hw : s.regs.wf = true) (ns : List Nat) : (s.bistOuts ns).regs.wf = true :=
  rel_foldl (R := fun s t => s.regs.wf = true → t.regs.wf = true) (fun _ h => h) (fun _ _ _ h k hs => k (h hs))
    (fun t n => (RegsBut.bistOut t n).wf) ns s hw

theorem State.logFailed_spec (s u : State) : ErrorsOnly s (s.logFailed u) ∧ RegsBut logSide s (s.logFailed u) := by
  refine rel_foldl (R := fun s t => ErrorsOnly s t ∧ RegsBut logSide s t) (fun s => ⟨.refl s, .of_regs rfl⟩)
    (fun _ _ _ h k => ⟨h.1.trans k.1, h.2.trans k.2⟩) (fun t d => ?_) _ s
  obtain ⟨m, q, e⟩ := t.logErr_frame (mkErr 3 d 0x4C 0 0 63 0 0 d (failedIn u d))
  exact ⟨⟨m, q, e⟩, .logErr _ (List.Subset.refl _)⟩

theorem bringupEnd_ends {s : State} (hm : s.mode = .bringup) (ha : awake s) (faults : List MacroFault) :
    exec (.bringupEnd faults) s = .next (s.bringupEnd faults) := by
  obtain ⟨hf, hr⟩ := ha
  change execBringupEnd faults s = _
  unfold execBringupEnd
  exact if_neg (by simp [hm, hf, hr])

/-- What bring-up leaves where it ends. -/
theorem State.bringupEnd_spec {s : State} (hw : s.regs.wf = true) (faults : List MacroFault) :
    let u := s.noteMacros faults
    let t := s.bringupEnd faults
    t.mode = .configure ∧ bit (t.rd .glbStat 0) 0 = true ∧ t.is0 = s.is0 ∧ t.is6 = u.is6 ∧
      ∀ n, n < 16 → domainFailed u (2 + n) = true → outOfService t n = true := by
  obtain ⟨x, hu⟩ := s.noteMacros_frame faults
  rw [State.bringupEnd_eq]
  generalize s.noteMacros faults = u at hu
  have hwu : u.regs.wf = true := by
    rw [hu]
    exact hw
  obtain ⟨m, q, hb⟩ := u.bistOuts_frame (failedClusters u)
  have hwb := State.bistOuts_wf hwu (failedClusters u)
  have hout : ∀ n, n < 16 → domainFailed u (2 + n) = true → outOfService (u.bistOuts (failedClusters u)) n = true := fun n hn hf =>
    State.bistOuts_out _ hwu (.inl (List.mem_filter.mpr ⟨List.mem_range.mpr hn, hf⟩))
  generalize u.bistOuts (failedClusters u) = b at hb hwb hout
  obtain ⟨⟨m', q', hl⟩, hlr⟩ := b.logFailed_spec u
  generalize b.logFailed u = l at hl hlr
  have hg : RegsBut [Reg.glbStat.addr 0] l ({ l.setFld .glbStat 0 0 1 1 with mode := .configure } : State) :=
    .trans (.setFld (List.mem_singleton_self _) _ _ _) (.of_regs (s := l.setFld .glbStat 0 0 1 1) rfl)
  have hbit : bit (({ l.setFld .glbStat 0 0 1 1 with mode := .configure } : State).rd .glbStat 0) 0 = true := by
    change bit ((l.setFld .glbStat 0 0 1 1).rd .glbStat 0) 0 = true
    rw [State.bit_setFld (hlr.wf hwb) (by decide)]
    rfl
  have hview : ({ l.setFld .glbStat 0 0 1 1 with mode := .configure } : State).mode = .configure ∧
      ({ l.setFld .glbStat 0 0 1 1 with mode := .configure } : State).is0 = l.is0 ∧
      ({ l.setFld .glbStat 0 0 1 1 with mode := .configure } : State).is6 = l.is6 := ⟨rfl, rfl, rfl⟩
  generalize ({ l.setFld .glbStat 0 0 1 1 with mode := .configure } : State) = g at hg hbit hview
  obtain ⟨hmode, hi0, hi6⟩ := hview
  have hev := (LevelsTaken.refreshEvm g).frame
  have her := RegsBut.refreshEvm g
  refine ⟨?_, ?_, ?_, ?_, fun n hn hf => ?_⟩
  · rw [hev]
    exact hmode
  · rw [her.rd _ _ (by decide)]
    exact hbit
  · rw [hev]
    exact hi0.trans (by rw [hl, hb, hu])
  · rw [hev]
    exact hi6.trans (by rw [hl, hb])
  · rw [outOfService, her.rd _ _ (cluMirrorStat_above (by decide) n), hg.rd _ _ (cluMirrorStat_above (by decide) n),
      hlr.rd _ _ (cluMirrorStat_above (by decide) n)]
    exact hout n hn hf

/-! The result of one macro (19 R548; 08 R263). -/

/-- The word that gives a macro's RESULT, as the map holds it. -/
def resultWord (f : MacroFault) : W32 := BitVec.ofNat 32 ((mbistResult f).1 + 256 * (mbistResult f).2) ^^^ 1

theorem mbistResult_lt (f : MacroFault) : (mbistResult f).1 < 4 := by
  unfold mbistResult
  split
  · decide
  · split
    · decide
    · split
      · decide
      · change (if f.passes then 2 else 3) < 4
        split
        · decide
        · decide

theorem bits_resultWord (f : MacroFault) : bits (resultWord f ^^^ 1) 0 2 = (mbistResult f).1 := by
  have hlt := mbistResult_lt f
  unfold resultWord bits
  rw [BitVec.xor_assoc, BitVec.xor_self, BitVec.xor_zero, BitVec.toNat_ofNat]
  omega

theorem State.noteMacro_is6 {s : State} {f : MacroFault} (h : f.num < nMacro) : ∃ v,
    (s.noteMacro f).is6 = (s.is6.put (65 + 4 * f.num) (resultWord f)).put (66 + 4 * f.num) v := by
  unfold State.noteMacro
  rw [if_neg (by omega)]
  exact ⟨_, rfl⟩

theorem State.noteMacro_get {s : State} {f : MacroFault} (h : f.num < nMacro) (hw : s.is6.wf = true) :
    (s.noteMacro f).is6.get (65 + 4 * f.num) = resultWord f := by
  obtain ⟨v, e⟩ := State.noteMacro_is6 (s := s) h
  rw [e, WordMap.get_put_other _ _ _ _ (by omega), WordMap.get_put_same _ 0 _ _ hw]

/-- A word that is not zero is listed. -/
theorem WordMap.mem_of_get (m : WordMap) (k : Nat) (h : m.get k ≠ 0) : (k, m.get k) ∈ m := by
  induction m with
  | nil => exact absurd rfl h
  | cons p r ih =>
    obtain ⟨a, x⟩ := p
    unfold WordMap.get at h ⊢
    split
    · next hk =>
      rw [hk]
      exact List.mem_cons_self
    · next hk =>
      rw [if_neg hk] at h
      exact List.mem_cons_of_mem _ (ih h)

/-- A macro that failed is counted to its domain. -/
theorem domainFailed_of_result {s : State} {m : Nat} (h : macroResult s m = 0 ∨ macroResult s m = 3) : domainFailed s (macroDomain m) = true := by
  have hne : s.is6.get (65 + 4 * m) ≠ 0 := fun hz => by
    rw [macroResult, hz] at h
    exact absurd h (by decide)
  have hdiv : (65 + 4 * m - 65) / 4 = m := by omega
  refine List.any_eq_true.mpr ⟨m, List.mem_filter.mpr ⟨List.mem_map.mpr ⟨_, List.mem_filter.mpr ⟨WordMap.mem_of_get _ _ hne, ?_⟩, hdiv⟩, ?_⟩, ?_⟩
  · simp only [hdiv, Bool.and_eq_true, decide_eq_true_eq]
    omega
  · exact decide_eq_true (by omega)
  · exact beq_self_eq_true _

theorem macroDomain_cluster {m : Nat} (h4 : 4 ≤ m) (h : m < 164) : macroDomain m = 2 + (m - 4) / 10 := by
  rw [macroDomain, macroPlace, if_neg (by omega), if_pos h]

theorem bringupEnd_notes {s : State} {f : MacroFault} (hm : s.mode = .bringup) (ha : awake s) (hw : s.regs.wf = true) (h6 : s.is6.wf = true)
    (hn : f.num < nMacro) :
    ∃ t, exec (.bringupEnd [f]) s = .next t ∧ macroResult t f.num = (mbistResult f).1 ∧
      (4 ≤ f.num → f.num < 164 → ((mbistResult f).1 = 0 ∨ (mbistResult f).1 = 3) → outOfService t ((f.num - 4) / 10) = true) := by
  obtain ⟨_, _, _, hi6, hout⟩ := State.bringupEnd_spec hw [f]
  have hres : macroResult (s.noteMacro f) f.num = (mbistResult f).1 := by
    rw [macroResult, State.noteMacro_get hn h6, bits_resultWord]
  have hr : macroResult (s.bringupEnd [f]) f.num = (mbistResult f).1 := by
    rw [macroResult, hi6]
    exact hres
  refine ⟨_, bringupEnd_ends hm ha [f], hr, fun h4 h164 hfail => hout _ (by omega) ?_⟩
  rw [← macroDomain_cluster h4 h164]
  rw [← hres] at hfail
  exact domainFailed_of_result hfail

/-! Requested modes (19 R542, R543). -/

/-- What every queue that is served again leaves. -/
theorem State.pumped_view (s : State) : (s.drainHeld.admPump).mode = s.mode ∧ (s.drainHeld.admPump).modeNext = s.modeNext ∧
    (s.drainHeld.admPump).tunits = s.tunits ∧ (s.drainHeld.admPump).ways = s.ways ∧ (s.drainHeld.admPump).queues = s.queues ∧
    (s.drainHeld.admPump).is0 = s.is0 := by
  have hp := PortsOnly.drainHeld s
  generalize s.drainHeld = v at hp
  obtain ⟨_, _, _, hap⟩ := (AdmStep.admPump v).frame
  generalize v.admPump = w at hap
  obtain ⟨_, _, _, _, _, _, rfl⟩ := hap
  obtain ⟨_, _, _, _, _, _, rfl⟩ := hp
  exact ⟨rfl, rfl, rfl, rfl, rfl, rfl⟩

/-- The polls that an interval of their own brings fall due now. -/
def State.pollsDueNow (s : State) (is : List Nat) : State := is.foldl (fun t i => if pollIv t i = 0 then t else t.dueNow i) s

theorem State.pollsDueNow_frame (s : State) (is : List Nat) : ∃ p, s.pollsDueNow is = { s with pollInst := p } := by
  refine rel_foldl (R := fun s t => ∃ p, t = { s with pollInst := p }) (fun _ => ⟨_, rfl⟩) ?_ (fun t i => ?_) is s
  · rintro s t u ⟨_, rfl⟩ ⟨_, rfl⟩
    exact ⟨_, rfl⟩
  · split
    · exact ⟨_, rfl⟩
    · exact ⟨_, rfl⟩

/-- A fetch brings no context to where there is none. -/
theorem State.startFetch_noWays {s : State} (h : s.ways = []) (q : Nat) : (s.startFetch q).ways = [] := by
  have hv : victim s q = none := by
    unfold victim
    rw [h]
    rfl
  unfold State.startFetch State.fetchCtx
  extract_lets issued fetch
  have hf : fetch.ways = [] := by
    obtain ⟨_, _, _, _, _, _, e⟩ := PortsOnly.service s (mkHeld (.ctxFetch q) q false (ctxAddr s q) 128 (sharedAttrs s 0) [] 0)
    change issued.ways = []
    unfold issued
    rw [e]
    exact h
  clear_value fetch issued
  rw [hv]
  split
  · exact h
  · split
    · exact hf
    · exact h

theorem State.pumpCtx_noWays {s : State} (h : s.ways = []) : s.pumpCtx.ways = [] := by
  refine rel_foldl (R := fun s t => s.ways = [] → t.ways = []) (fun _ h => h) (fun _ _ _ h k hs => k (h hs))
    (fun t x ht => State.startFetch_noWays ht x.1) _ s h

/-- CONFIGURE after TEST, whose contexts are lost. -/
def State.contextsLost (s : State) : State :=
  { s with
    mode := .configure, modeNext := none, ways := [], is4 := [], is4Seen := [], ctxZero := false,
    usedWays := (s.is4.filter (fun p => decide (p.1 < 0x80000))).foldl (fun l p => if l.contains (p.1 / 32) then l else p.1 / 32 :: l)
      s.usedWays }

theorem State.contextsLost_view (s : State) : s.contextsLost.mode = .configure ∧ s.contextsLost.modeNext = none ∧ s.contextsLost.ways = [] ∧
    s.contextsLost.tunits = s.tunits ∧ s.contextsLost.queues = s.queues := ⟨rfl, rfl, rfl, rfl, rfl⟩

/-- The block as it leaves TEST for CONFIGURE, before its links train. -/
def State.testLeft (s : State) : State := s.unitsStop.contextsLost

theorem State.unitsStop_view (s : State) : s.unitsStop.tunits = [] ∧ s.unitsStop.queues = s.queues := by
  unfold State.unitsStop
  extract_lets still t
  obtain ⟨m, e⟩ := setSyncs_frame (List.range 16) { s with tunits := [], held := s.held.filter still }
  have ht : t = { s with regs := m, tunits := [], held := s.held.filter still } := e
  clear_value t
  rw [ht]
  exact ⟨rfl, rfl⟩

section
variable {s : State} (ha : awake s)
include ha

theorem modeTransitionDone_run (h : s.modeNext = some .run) : exec .modeTransitionDone s =
    .next (((({ s with mode := .run, modeNext := none } : State).pollsDueNow
      (createdIids { s with mode := .run, modeNext := none })).drainHeld).admPump).refreshEvm := by
  obtain ⟨hf, hr⟩ := ha
  change execModeTransitionDone s = _
  unfold execModeTransitionDone
  refine (if_neg (by rw [hf, hr]; decide)).trans ?_
  rw [h]
  rfl

theorem modeTransitionDone_configure (h : s.modeNext = some .configure) : exec .modeTransitionDone s =
    if s.mode = .test then .next ((((s.testLeft.startLinks).drainHeld).pumpCtx).admPump)
    else if s.polls ≠ [] then .next s else .next { s with mode := .configure, modeNext := none } := by
  obtain ⟨hf, hr⟩ := ha
  change execModeTransitionDone s = _
  unfold execModeTransitionDone
  refine (if_neg (by rw [hf, hr]; decide)).trans ?_
  rw [h]
  rfl

theorem modeTransitionDone_test (h : s.modeNext = some .test) (hd : s.ways.any (fun w => w.dirty) = false)
    (hb : s.ways.any (fun w => wbBusy s w.qid) = false) :
    exec .modeTransitionDone s = .next { s.stopLinks with mode := .test, modeNext := none } := by
  obtain ⟨hf, hr⟩ := ha
  change execModeTransitionDone s = _
  unfold execModeTransitionDone
  refine (if_neg (by rw [hf, hr]; decide)).trans ?_
  rw [h]
  exact if_neg (by rw [hd, hb]; decide)

theorem modeTransitionDone_runs (h : s.modeNext = some .run) : ∃ t, exec .modeTransitionDone s = .next t ∧ t.mode = .run ∧
    t.modeNext = none ∧ t.queues = s.queues ∧ t.ways = s.ways ∧ t.is0 = s.is0 := by
  refine ⟨_, modeTransitionDone_run ha h, ?_⟩
  obtain ⟨p, e⟩ := State.pollsDueNow_frame { s with mode := .run, modeNext := none } (createdIids { s with mode := .run, modeNext := none })
  generalize State.pollsDueNow _ _ = u at e
  obtain ⟨h1, h2, _, h4, h5, h6⟩ := u.pumped_view
  generalize u.drainHeld.admPump = v at h1 h2 h4 h5 h6
  rw [(LevelsTaken.refreshEvm v).frame]
  subst e
  exact ⟨h1, h2, h5, h4, h6⟩

theorem modeTransitionDone_leavesTest (h : s.modeNext = some .configure) (hm : s.mode = .test) :
    ∃ t, exec .modeTransitionDone s = .next t ∧ t.mode = .configure ∧ t.modeNext = none ∧ t.ways = [] ∧ t.tunits = [] ∧
      t.queues = s.queues := by
  have he := modeTransitionDone_configure ha h
  rw [if_pos hm] at he
  have hv := s.unitsStop.contextsLost_view
  obtain ⟨hu, hq⟩ := s.unitsStop_view
  rw [hu, hq] at hv
  unfold State.testLeft at he
  generalize s.unitsStop.contextsLost = u at he hv
  obtain ⟨v1, v2, v3, v4, v5⟩ := hv
  refine ⟨_, he, ?_⟩
  obtain ⟨⟨_, _, e⟩, _⟩ := u.startLinks_spec
  obtain ⟨_, _, _, _, _, _, e'⟩ := PortsOnly.drainHeld u.startLinks
  generalize u.startLinks.drainHeld = v at e'
  rw [e] at e'
  have hw : v.pumpCtx.ways = [] := State.pumpCtx_noWays (by rw [e']; exact v3)
  obtain ⟨_, _, _, _, _, _, _, _, e2⟩ := FetchStep.pumpCtx v
  generalize v.pumpCtx = w at hw e2
  obtain ⟨_, _, _, _, _, _, _, _, _, e3⟩ := (AdmStep.admPump w).frame
  rw [e3]
  refine ⟨?_, ?_, hw, ?_, ?_⟩
  · rw [e2, e']
    exact v1
  · rw [e2, e']
    exact v2
  · rw [e2, e']
    exact v4
  · rw [e2, e']
    exact v5

theorem modeTransitionDone_entersTest (h : s.modeNext = some .test) (hd : s.ways.any (fun w => w.dirty) = false)
    (hb : s.ways.any (fun w => wbBusy s w.qid) = false) (hw : s.regs.wf = true) :
    ∃ t, exec .modeTransitionDone s = .next t ∧ t.mode = .test ∧ t.modeNext = none ∧ (∀ k, k < 3 → lstate t k = 0) ∧
      t.ways = s.ways ∧ t.queues = s.queues := by
  have he := modeTransitionDone_test ha h hd hb
  obtain ⟨⟨m, l, e⟩, _, hdown⟩ := State.stopLinks_spec hw
  generalize s.stopLinks = u at he e hdown
  refine ⟨_, he, rfl, rfl, hdown, ?_⟩
  rw [e]
  exact ⟨rfl, rfl⟩

end

/-! Output pins (18 R540; 12 R382). -/

/-- The block does not run: in reset, bring-up, REST or the FATAL state. -/
def Halted (s : State) : Prop := s.rstN = false ∨ s.mode = .bringup ∨ s.mode = .rest ∧ s.wakeAt = none ∨ s.fatal = true

theorem eventPins_of_halted {s : State} (h : Halted s) : eventPins s = false := by
  unfold eventPins waking
  rcases h with h | h | ⟨h, hw⟩ | h
  · simp [h]
  · simp [h]
  · simp [h, hw]
  · simp [h]

theorem fpActivePin_of_halted {s : State} (h : Halted s) (n : Nat) : fpActivePin s n = false := by
  unfold fpActivePin
  rcases h with h | h | ⟨h, _⟩ | h
  · simp [h]
  · simp [h]
  · simp [h]
  · simp [h]

theorem pwReqPin_of_halted {s : State} (h : Halted s) (hf : s.fatal = false ∨ s.rstN = false) : pwReqPin s = 3 := by
  unfold pwReqPin
  refine if_neg ?_
  rcases hf with hf | hf
  · rcases h with h | h | ⟨h, _⟩ | h
    · simp [h]
    · simp [hf, h]
    · simp [hf, h]
    · exact absurd (hf.symm.trans h) (by decide)
  · simp [hf]

theorem mbistPins_straps {s : State} (h : s.rstN = false ∨ s.mode = .rest ∧ s.fatal = false) :
    mbistPins s = (s.strapTst.getLsbD 0, s.strapTst.getLsbD 1) := by
  unfold mbistPins
  refine if_neg ?_
  rcases h with h | ⟨hm, hf⟩
  · simp [h]
  · simp [hm, hf]

/-- A line that is routed to an output and high there. -/
theorem evOutPin_of_line {s : State} {k l : Nat} (hp : eventPins s = true) (hl : l ∈ routedLines s) (hr : reaches s.evm l k = true)
    (hh : pinLevel s l = true) : evOutPin s k = true := by
  have hany : (routedLines s).any (fun l => reaches s.evm l k && pinLevel s l) = true :=
    List.any_eq_true.mpr ⟨l, hl, by rw [hr, hh]; rfl⟩
  unfold evOutPin
  rw [if_pos hp, hany, Bool.true_or]

/-- Registered lines show their level; direct ones their inputs and pulses. -/
theorem pinLevel_high {s : State} {l : Nat} (hm : (lineOf s l).masked = false) :
    ((lineOf s l).level = true → lineDirect s.evm l = false → pinLevel s l = true) ∧
      (∀ e, e ∈ s.evIn → feeds s.evm (256 + e.1) l = true → lineDirect s.evm l = true → pinLevel s l = true) ∧
      (∀ n, n ∈ s.pulseHigh → feeds s.evm n l = true → lineDirect s.evm l = true → pinLevel s l = true) := by
  unfold pinLevel
  refine ⟨fun hl hd => by simp [hm, hl, hd], fun e he hf hd => ?_, fun n hn hf hd => ?_⟩
  · have hany : s.evIn.any (fun e => feeds s.evm (256 + e.1) l) = true := List.any_eq_true.mpr ⟨e, he, hf⟩
    simp only [hm, hd, hany, Bool.not_false, Bool.true_and, Bool.true_or, if_true]
  · have hany : s.pulseHigh.any (fun n => feeds s.evm n l) = true := List.any_eq_true.mpr ⟨n, hn, hf⟩
    simp only [hm, hd, hany, Bool.not_false, Bool.true_and, Bool.or_true, if_true]

theorem evmCycleNs_pos (s : State) : 0 < evmCycleNs s := by
  unfold evmCycleNs
  split <;> decide

/-- The period that an edge begins at an output. -/
def edgePeriod (s : State) (k : Nat) (h : Nat × Nat) : Nat × Nat × Nat := (k, s.nomNs + 4 * evmCycleNs s, max 0 h.2)

theorem State.sinkEdge_output {k : Nat} (hk : k < 256) (s : State) (h : Nat × Nat) :
    s.sinkEdge k [h] = { s with evOut := edgePeriod s k h :: s.evOut.filter (fun e => decide (s.nomNs < e.2.1)) } := if_pos hk

theorem outPeriods_sinkEdge {k : Nat} (hk : k < 256) (s : State) (h : Nat × Nat) : edgePeriod s k h ∈ outPeriods (s.sinkEdge k [h]) k := by
  have hpos := evmCycleNs_pos s
  rw [State.sinkEdge_output hk]
  refine List.mem_filter.mpr ⟨List.mem_cons_self, ?_⟩
  rw [Bool.and_eq_true, decide_eq_true_eq, decide_eq_true_eq]
  refine ⟨rfl, ?_⟩
  change s.nomNs < s.nomNs + 4 * evmCycleNs s
  omega

/-- The largest of what a fold compares is at least each. -/
theorem le_foldl_max {α : Type} (f : α → Nat) (xs : List α) (m : Nat) : m ≤ xs.foldl (fun m x => max m (f x)) m ∧
    ∀ x ∈ xs, f x ≤ xs.foldl (fun m x => max m (f x)) m := by
  induction xs generalizing m with
  | nil => exact ⟨Nat.le_refl m, fun _ h => absurd h List.not_mem_nil⟩
  | cons y ys ih =>
    obtain ⟨h0, hs⟩ := ih (max m (f y))
    refine ⟨Nat.le_trans (Nat.le_max_left _ _) h0, List.forall_mem_cons.mpr ⟨Nat.le_trans (Nat.le_max_right _ _) h0, hs⟩⟩

theorem evOut_edge {s : State} {k : Nat} (h : Nat × Nat) (hp : eventPins s = true) (hk : k < 256) :
    evOutPin (s.sinkEdge k [h]) k = true ∧ h.2 ≤ evOutHopPin (s.sinkEdge k [h]) k ∧
      ((∀ e ∈ s.evOut, e.2.1 ≤ s.nomNs + 4 * evmCycleNs s) →
        outPeriods { s.sinkEdge k [h] with nomNs := s.nomNs + 4 * evmCycleNs s } k = []) := by
  have hm := outPeriods_sinkEdge hk s h
  have hp' : eventPins (s.sinkEdge k [h]) = true := by
    rw [State.sinkEdge_output hk]
    exact hp
  refine ⟨?_, ?_, fun hle => ?_⟩
  · have hne : (outPeriods (s.sinkEdge k [h]) k).isEmpty = false := List.isEmpty_eq_false_iff.mpr (List.ne_nil_of_mem hm)
    unfold evOutPin
    rw [if_pos hp', hne]
    simp
  · unfold evOutHopPin
    rw [if_pos hp']
    exact Nat.le_trans (Nat.le_max_right 0 h.2) ((le_foldl_max (fun e => e.2.2) _ 0).2 _ hm)
  · rw [State.sinkEdge_output hk]
    refine List.filter_eq_nil_iff.mpr fun e he => ?_
    have hend : e.2.1 ≤ s.nomNs + 4 * evmCycleNs s := by
      rcases List.mem_cons.mp he with rfl | he
      · exact Nat.le_refl _
      · exact hle e (List.mem_of_mem_filter he)
    rw [decide_eq_false (Nat.not_lt.mpr hend), Bool.and_false]
    decide

/-- Settles O54: reset and bring-up, the requested modes, and the pins of a block that does not run. -/
theorem modesAndReset : Obligations.ModesAndReset := by
  unfold Obligations.ModesAndReset
  refine ⟨rstNFall_resets, fun _ => rstNRise_starts, fun s faults hm ha hw => ?_, fun _ _ => bringupEnd_notes, fun _ => modeTransitionDone_runs,
    fun s ha h hm => ⟨fun hp => ?_, fun hp => ?_⟩, fun _ => modeTransitionDone_leavesTest, fun _ => modeTransitionDone_entersTest,
    fun s k n h => ⟨?_, ?_, fpActivePin_of_halted h n, pwReqPin_of_halted h, mbistPins_straps⟩, fun s k l hp hl hr hm => ?_,
    fun s k h => evOut_edge h⟩
  · obtain ⟨h1, h2, h3, _⟩ := State.bringupEnd_spec hw faults
    exact ⟨_, bringupEnd_ends hm ha faults, h1, h2, h3⟩
  · rw [modeTransitionDone_configure ha h, if_neg hm, if_neg (by simp [hp])]
  · rw [modeTransitionDone_configure ha h, if_neg hm, if_pos hp]
  · rw [evOutPin, eventPins_of_halted h]
    rfl
  · rw [evOutHopPin, eventPins_of_halted h]
    rfl
  · obtain ⟨p0, p1, p2⟩ := pinLevel_high hm
    have hout := evOutPin_of_line hp hl hr
    exact ⟨fun a b => hout (p0 a b), fun e he hf hd => hout (p1 e he hf hd), fun n hn hf hd => hout (p2 n hn hf hd)⟩

end Sys2Proof.Machine
end

section
/-! PROOFS. Sealed frames as they are received (14 R444; 18 R536). -/

namespace Sys2Proof.Machine

/-! Beats and their words. -/

theorem leNat_append (xs ys : List Byte) : leNat (xs ++ ys) = leNat xs + 256 ^ xs.length * leNat ys := by
  induction xs with
  | nil => simp [leNat]
  | cons x xs ih =>
    rw [List.cons_append, leNat, leNat, ih, List.length_cons, Nat.pow_succ]
    ring

theorem leNat_bytesOfWords (w : W64) (ws : List W64) : leNat (bytesOfWords (w :: ws)) = w.toNat + 2 ^ 64 * leNat (bytesOfWords ws) := by
  have hw : leNat (leBytes 8 w.toNat) = w.toNat := (leNat_leBytes 8 w.toNat).trans (Nat.mod_eq_of_lt w.isLt)
  change leNat (leBytes 8 w.toNat ++ bytesOfWords ws) = _
  rw [leNat_append, hw, leBytes_length, show (256 : Nat) ^ 8 = 2 ^ 64 from rfl]

theorem wordsBeat_beatWords (b : BitVec 256) : wordsBeat (beatWords b) = b := by
  refine BitVec.eq_of_toNat_eq ?_
  have hlt := b.isLt
  have hw : ∀ k, (BitVec.ofNat 64 (bits b k 64)).toNat = b.toNat / 2 ^ k % 2 ^ 64 := fun k => by
    rw [BitVec.toNat_ofNat, bits, Nat.mod_mod]
  change (BitVec.ofNat 256 (leNat (bytesOfWords [_, _, _, _]))).toNat = b.toNat
  rw [BitVec.toNat_ofNat, leNat_bytesOfWords, leNat_bytesOfWords, leNat_bytesOfWords, leNat_bytesOfWords, hw, hw, hw, hw]
  change (_ + 2 ^ 64 * (_ + 2 ^ 64 * (_ + 2 ^ 64 * (_ + 2 ^ 64 * 0)))) % 2 ^ 256 = _
  simp only [Nat.reduceMul, Nat.reducePow, Nat.div_one]
  omega

theorem beatWords_length (b : BitVec 256) : (beatWords b).length = 4 := rfl

/-- The words of a beat of several. -/
theorem words_of_beat {bs : List (BitVec 256)} {i : Nat} (h : i < bs.length) :
    ((bs.flatMap beatWords).drop (4 * i)).take 4 = beatWords bs[i] := by
  induction bs generalizing i with
  | nil => exact absurd h (Nat.not_lt_zero i)
  | cons b bs ih =>
    cases i with
    | zero => exact List.take_left' rfl
    | succ i =>
      rw [List.flatMap_cons, show 4 * (i + 1) = (beatWords b).length + 4 * i by rw [beatWords_length]; omega, List.drop_length_add_append]
      exact ih (Nat.lt_of_succ_lt_succ h)

/-! Frames. -/

/-- The check bytes of a frame are those that its sender gives its words. -/
def Sealed (f : RawFrame) : Prop := f.checks = (sealFrame f.header f.payload).checks

theorem sealFrame_sealed (h : BitVec 256) (p : List (BitVec 256)) : Sealed (sealFrame h p) := rfl

theorem frameDecode_sealed {f : RawFrame} (h : Sealed f) :
    frameDecode f = ((f.header :: f.payload).flatMap beatWords).map (fun w => (w, .clean)) := by
  have hc : f.checks = ((f.header :: f.payload).flatMap beatWords).map secdedCheck := by
    rw [List.map_flatMap]
    exact h
  unfold frameDecode
  rw [hc]
  generalize (f.header :: f.payload).flatMap beatWords = ws
  induction ws with
  | nil => rfl
  | cons w ws ih =>
    rw [List.map_cons, List.zip_cons_cons, List.map_cons, List.map_cons, ih, secdedDecode_clean]

theorem frameMark_sealed {f : RawFrame} (h : Sealed f) : frameMark f = .clean := by
  unfold frameMark
  rw [frameDecode_sealed h]
  generalize (f.header :: f.payload).flatMap beatWords = ws
  induction ws with
  | nil => rfl
  | cons w ws ih => exact ih

theorem frameCorrected_sealed {f : RawFrame} (h : Sealed f) : frameCorrected f = 0 := by
  unfold frameCorrected
  rw [frameDecode_sealed h, List.filter_eq_nil_iff.mpr]
  · rfl
  · intro x hx
    obtain ⟨w, _, rfl⟩ := List.mem_map.mp hx
    exact of_decide_eq_false rfl

theorem fixedFrame_sealed {f : RawFrame} (h : Sealed f) : fixedFrame f = f := by
  have hws : (frameDecode f).map (·.1) = (f.header :: f.payload).flatMap beatWords := by
    rw [frameDecode_sealed h, List.map_map]
    exact List.map_id _
  have hbeat : ∀ i (hi : i < (f.header :: f.payload).length),
      wordsBeat ((((f.header :: f.payload).flatMap beatWords).drop (4 * i)).take 4) = (f.header :: f.payload)[i] := fun i hi => by
    rw [words_of_beat hi, wordsBeat_beatWords]
  have hp : (List.range f.payload.length).map
      (fun b => wordsBeat ((((f.header :: f.payload).flatMap beatWords).drop (4 * (b + 1))).take 4)) = f.payload := by
    refine List.ext_getElem (by simp) fun i h1 h2 => ?_
    rw [List.getElem_map, List.getElem_range, hbeat (i + 1) (by simpa using h2)]
    rfl
  unfold fixedFrame
  rw [hws]
  dsimp only
  rw [hp, hbeat 0 (by simp)]
  rfl

end Sys2Proof.Machine
end

section
/-! PROOFS. What the link layer does with a frame (14 R445, R447, R448; 19 R556), and links that train, acknowledge, resend and fail. -/

namespace Sys2Proof.Machine

/-! The links' table. -/

theorem linkOf_num (s : State) (k : Nat) : (linkOf s k).num = k := by
  unfold linkOf
  cases h : s.fed.links.find? (fun l => l.num == k) with
  | none => rfl
  | some l => simpa using List.find?_some h

theorem linkOf_putLink (s : State) {l : Link} {k : Nat} (h : l.num = k) : linkOf (s.putLink l) k = l := by
  unfold linkOf State.putLink
  rw [List.find?_cons_of_pos (by simp [h])]
  rfl

theorem linkOf_congr {s t : State} (h : t.fed.links = s.fed.links) (k : Nat) : linkOf t k = linkOf s k := by
  unfold linkOf
  rw [h]

/-! Frames that are received. -/

/-- Link k takes a frame of TYPE `type`. -/
structure LinkTakes (s : State) (k type : Nat) (raw : RawFrame) : Prop where
  awake : awake s
  link : lstate s k ≠ 0
  mode : s.mode ≠ .test
  mark : frameMark raw ≠ .uncorrectable
  type : bits (fixedFrame raw).header 0 8 = type
  sound : frameSound (fixedFrame raw) = true

theorem farLoop_of_mode {s : State} (h : s.mode ≠ .test) (k : Nat) : farLoop s k = false := by
  unfold farLoop unitRuns
  rw [decide_eq_false h]
  rfl

/-- In far-end loopback a frame goes back (19 R556). -/
theorem rxFrame_loops {s : State} {k : Nat} (h : farLoop s k = true) (type : Nat) (raw : RawFrame) :
    s.rxFrame k type raw = ({ s with txFrames := s.txFrames ++ [(k, raw)] }, false) := if_pos h

/-- A frame with an uncorrectable word does nothing (14 R448). -/
theorem rxFrame_uncorrectable {s : State} {k : Nat} {raw : RawFrame} (h : farLoop s k = false) (hu : frameMark raw = .uncorrectable) (type : Nat) :
    s.rxFrame k type raw = (s, false) := by
  unfold State.rxFrame
  refine (if_neg (by rw [h]; decide)).trans (if_pos ?_)
  simp [hu]

/-- A frame that is taken acknowledges, and its corrected words are logged (14 R447, R448). -/
def State.rxAcked (s : State) (k : Nat) (raw : RawFrame) : State := (s.logFrameWords k raw).takeAck k (bits (fixedFrame raw).header 16 8)

section
variable {s : State} {k type : Nat} {raw : RawFrame}

theorem LinkTakes.not_refused (h : LinkTakes s k type raw) : ¬(s.fatal || !s.rstN || decide (lstate s k = 0) || decide (s.mode = .test) ||
    decide (frameMark raw = .uncorrectable) || decide (bits (fixedFrame raw).header 0 8 ≠ type) || !frameSound (fixedFrame raw)) = true := by
  obtain ⟨⟨hf, hr⟩, hl, hm, hk, ht, hs⟩ := h
  simp [hf, hr, hl, hm, hk, ht, hs]

theorem rxFrame_train (h : LinkTakes s k 1 raw) : s.rxFrame k 1 raw = (s.rxAcked k raw, true) := by
  unfold State.rxFrame
  exact (if_neg (by rw [farLoop_of_mode h.mode]; decide)).trans ((if_neg h.not_refused).trans (if_pos rfl))

theorem rxFrame_ack (h : LinkTakes s k 9 raw) : s.rxFrame k 9 raw = (s.rxAcked k raw, false) := by
  unfold State.rxFrame
  exact (if_neg (by rw [farLoop_of_mode h.mode]; decide)).trans ((if_neg h.not_refused).trans ((if_neg (by decide)).trans (if_pos rfl)))

/-- A frame that is the next in sequence and for this member is applied here. -/
theorem rxFrame_next (h : LinkTakes s k type raw) (h1 : type ≠ 1) (h9 : type ≠ 9)
    (hseq : bits (fixedFrame raw).header 8 8 = ((linkOf (s.rxAcked k raw) k).rxSeq + 1) % 256)
    (hd : bits (fixedFrame raw).header 34 2 = ownMember (s.rxAcked k raw) ∨
      type = 2 ∧ bit (fixedFrame raw).header 36 = false ∧ bits (fixedFrame raw).header 34 2 = frameSrc (fixedFrame raw)) :
    s.rxFrame k type raw = ((s.rxAcked k raw).frameIn k (fixedFrame raw), true) := by
  unfold State.rxFrame
  refine (if_neg (by rw [farLoop_of_mode h.mode]; decide)).trans ((if_neg h.not_refused).trans ?_)
  have he : (s.logFrameWords k raw).takeAck k (bits (fixedFrame raw).header 16 8) = s.rxAcked k raw := rfl
  dsimp only
  rw [he]
  generalize s.rxAcked k raw = u at hseq hd
  refine (if_neg h1).trans ((if_neg h9).trans ((if_pos hseq).trans (if_pos ?_)))
  rcases hd with hd | ⟨ht, h36, hd⟩
  · rw [Bool.or_eq_true, decide_eq_true_eq]
    exact .inl hd
  · rw [Bool.or_eq_true, Bool.and_eq_true, Bool.and_eq_true, decide_eq_true_eq, decide_eq_true_eq, decide_eq_true_eq, h36]
    exact .inr ⟨⟨ht, rfl⟩, hd⟩

end

/-! Frames as their senders sealed them. -/

theorem State.logFrameWords_sealed (s : State) (k : Nat) {f : RawFrame} (h : Sealed f) : s.logFrameWords k f = s := by
  unfold State.logFrameWords
  rw [frameCorrected_sealed h]
  rfl

theorem State.takeAck_nothing {s : State} {k a : Nat} (h : (linkOf s k).unacked.findIdx? (fun t => t.seq == a) = none) : s.takeAck k a = s := by
  unfold State.takeAck
  dsimp only
  rw [h]

theorem frameMark_ne_of_sealed {f : RawFrame} (h : Sealed f) : frameMark f ≠ .uncorrectable := by
  rw [frameMark_sealed h]
  decide

section
variable {s : State} {k type : Nat} {f : RawFrame} (h : FrameSound s k type f)
include h

theorem FrameSound.sealed : Sealed f := by
  obtain ⟨_, _, _, _, _, _, hc, _, _⟩ := h
  exact hc

theorem FrameSound.lt : k < 3 := h.1

theorem FrameSound.takes : LinkTakes s k type f := by
  have hs := h.sealed
  obtain ⟨_, hf, hr, hl, hm, ht, _, hsound, _⟩ := h
  exact ⟨⟨hf, hr⟩, hl, hm, frameMark_ne_of_sealed hs, by rwa [fixedFrame_sealed hs], by rwa [fixedFrame_sealed hs]⟩

theorem FrameSound.rxAcked : s.rxAcked k f = s := by
  have hs := h.sealed
  obtain ⟨_, _, _, _, _, _, _, _, hn⟩ := h
  rw [State.rxAcked, State.logFrameWords_sealed s k hs, fixedFrame_sealed hs, State.takeAck_nothing hn]

end

theorem FrameTaken.rxFrame {s : State} {k type : Nat} {f : RawFrame} (h : FrameTaken s k type f) (h1 : type ≠ 1) (h9 : type ≠ 9) :
    s.rxFrame k type f = (s.frameIn k f, true) := by
  obtain ⟨hs, hseq, hd⟩ := h
  have hx := fixedFrame_sealed hs.sealed
  have ha := hs.rxAcked
  have hn := rxFrame_next hs.takes h1 h9 (by rwa [hx, ha]) (by rwa [hx, ha])
  rwa [hx, ha] at hn

/-! The frames' commands. -/

/-- The state that the command of a frame leaves where the frame is not applied. -/
theorem frames_refused {s t : State} {k : Nat} {raw : RawFrame} (hk : k < 3) (h : ∀ type, s.rxFrame k type raw = (t, false)) :
    exec (.train k raw) s = .next t ∧ exec (.ack k raw) s = .next t ∧ exec (.manifest k raw) s = .next t ∧
      exec (.heartbeat k raw) s = .next t ∧ exec (.time k raw) s = .next t ∧ exec (.config k raw) s = .next t ∧
      exec (.configAck k raw) s = .next t ∧ exec (.doorbell k raw) s = .next t ∧ exec (.fenceFrame k raw) s = .next t := by
  have hk' : ¬3 ≤ k := Nat.not_le.mpr hk
  refine ⟨?_, ?_, ?_, ?_, ?_, ?_, ?_, ?_, ?_⟩
  · change execTrain k raw s = _
    unfold execTrain
    rw [if_neg hk']
    dsimp only
    rw [h]
  · change execAck k raw s = _
    unfold execAck
    rw [if_neg hk', h]
  · change execManifest k raw s = _
    unfold execManifest
    rw [if_neg hk']
    dsimp only
    rw [h]
  · change execHeartbeat k raw s = _
    unfold execHeartbeat
    rw [if_neg hk']
    dsimp only
    rw [h]
  · change execTime k raw s = _
    unfold execTime
    rw [if_neg hk']
    dsimp only
    rw [h]
  · change execConfig k raw s = _
    unfold execConfig
    rw [if_neg hk']
    dsimp only
    rw [h]
  · change execConfigAck k raw s = _
    unfold execConfigAck
    rw [if_neg hk']
    dsimp only
    rw [h]
  · change execDoorbell k raw s = _
    unfold execDoorbell
    rw [if_neg hk']
    dsimp only
    rw [h]
  · change execFenceFrame k raw s = _
    unfold execFenceFrame
    rw [if_neg hk']
    dsimp only
    rw [h]

end Sys2Proof.Machine
end

section
/-! PROOFS. Federation links: training, acknowledgements, resends and failures (14 R444 to R447; 18 R536; 19 R556, R559). -/

namespace Sys2Proof.Machine

/-! Frames that leave. -/

theorem LinkStep.putLink (s : State) (l : Link) : LinkStep s (s.putLink l) := ⟨_, _, rfl⟩

theorem LinkStep.emitFrame (s : State) (k type dst : Nat) (relayed : Bool) (src : Nat) (fields : List (Nat × Nat × Nat))
    (payload : List (BitVec 256)) : LinkStep s (s.emitFrame k type dst relayed src fields payload) := ⟨_, _, rfl⟩

theorem LinkStep.pumpLink (s : State) (k f : Nat) : LinkStep s (s.pumpLink k f) := by
  induction f generalizing s with
  | zero => exact .refl s
  | succ f ih =>
    unfold State.pumpLink
    dsimp only
    split
    · exact .refl s
    · split
      · exact ((LinkStep.putLink s _).trans (LinkStep.emitFrame _ _ _ _ _ _ _ _)).trans (ih _)
      · exact .refl s

theorem LinkStep.lstate {s t : State} (h : LinkStep s t) (k : Nat) : lstate t k = lstate s k := by
  obtain ⟨_, _, rfl⟩ := h
  rfl

/-- Link k once it has sent what it owes. -/
def paidLink (s : State) (k : Nat) : Link := { linkOf s k with ackOwed := false }

theorem linkOf_paid (s : State) (k : Nat) : linkOf (s.putLink (paidLink s k)) k = paidLink s k := linkOf_putLink s (linkOf_num s k)

theorem State.sendTrain_eq (s : State) (k : Nat) : s.sendTrain k = { s.putLink (paidLink s k) with
    txFrames := s.txFrames ++ [(k, sealFrame (frameHeader 1 0 (linkOf s k).rxSeq (ownMember s) ((linkOf s k).far.getD 0) false
      (fedEpoch s) [(72, 1, 1)] []) [])] } := rfl

theorem State.sendAck_eq (s : State) (k : Nat) : s.emitFrame k 9 ((linkOf s k).far.getD 0) false (ownMember s) [] [] =
    { s.putLink (paidLink s k) with
      txFrames := s.txFrames ++ [(k, sealFrame (frameHeader 9 0 (linkOf s k).rxSeq (ownMember s) ((linkOf s k).far.getD 0) false
        (fedEpoch s) [] []) [])] } := rfl

/-! Links that come up (14 R446). -/

theorem State.linkTrained_up {s : State} (hw : s.regs.wf = true) (k : Nat) : lstate (s.linkTrained k) k = 2 := by
  unfold State.linkTrained
  extract_lets l fresh l1 again s1 s2
  refine ((LinkStep.pumpLink _ k _).lstate k).trans ?_
  exact State.fld_setFld s2 .fedLinkStat k 0 2 2 hw (by decide)

theorem State.linkUp_up {s : State} (hw : s.regs.wf = true) (k : Nat) : lstate (s.linkUp k) k = 2 := by
  have h := State.linkTrained_up hw k
  unfold State.linkUp
  dsimp only
  split
  · split
    · exact ((LinkStep.sendFrame _ _ _ _ _ _ _ _).lstate k).trans h
    · exact h
  · exact h

section
variable {s : State} {k : Nat} (hk : k < 3) (ha : awake s) (h1 : lstate s k = 1) (hr : (linkOf s k).rxOk = false)
include hk ha h1 hr

/-- Link k as its receiver has come to lock. -/
def rxLocked (s : State) (k : Nat) : Link := { linkOf s k with rxOk := true }

theorem rxOk_trains : exec (.rxOk k) s = .next
    (if (linkOf s k).farOk then ((s.putLink (rxLocked s k)).sendTrain k).linkUp k else (s.putLink (rxLocked s k)).sendTrain k) := by
  obtain ⟨hf, hn⟩ := ha
  change execRxOk k s = _
  unfold execRxOk
  refine (if_neg (by omega)).trans ((if_neg ?_).trans ?_)
  · rw [hf, hn, hr, h1]
    decide
  · have hl : linkOf (s.putLink (rxLocked s k)) k = rxLocked s k := linkOf_putLink s (linkOf_num s k)
    have hfar : (linkOf ((s.putLink (rxLocked s k)).sendTrain k) k).farOk = (linkOf s k).farOk := by
      rw [State.sendTrain_eq]
      refine (congrArg Link.farOk (linkOf_paid (s.putLink (rxLocked s k)) k)).trans ?_
      rw [paidLink, hl]
      rfl
    rw [← hfar]
    rfl

theorem rxOk_sendsTrain (hf : (linkOf s k).farOk = false) :
    ∃ t, exec (.rxOk k) s = .next t ∧ t = { s with fed := t.fed, txFrames := t.txFrames } ∧ (linkOf t k).rxOk = true ∧
      t.txFrames = s.txFrames ++ [(k, sealFrame (frameHeader 1 0 (linkOf s k).rxSeq (ownMember s) ((linkOf s k).far.getD 0) false
        (fedEpoch s) [(72, 1, 1)] []) [])] := by
  have he := rxOk_trains hk ha h1 hr
  rw [hf, if_neg (by decide)] at he
  have hl : linkOf (s.putLink (rxLocked s k)) k = rxLocked s k := linkOf_putLink s (linkOf_num s k)
  refine ⟨_, he, rfl, ?_, ?_⟩
  · rw [State.sendTrain_eq]
    refine (congrArg Link.rxOk (linkOf_paid (s.putLink (rxLocked s k)) k)).trans ?_
    rw [paidLink, hl]
    rfl
  · rw [State.sendTrain_eq, hl]
    rfl

theorem rxOk_up (hf : (linkOf s k).farOk = true) (hw : s.regs.wf = true) : ∃ t, exec (.rxOk k) s = .next t ∧ lstate t k = 2 := by
  have he := rxOk_trains hk ha h1 hr
  rw [hf, if_pos rfl] at he
  exact ⟨_, he, State.linkUp_up (by exact hw) k⟩

end

/-! TRAIN and ACK as their sender sealed them (14 R446, R447). -/

section
variable {s : State} {k : Nat} {f : RawFrame} (h : FrameSound s k 1 f)
include h

theorem train_taken : exec (.train k f) s =
    if !bit f.header 72 then .next s
    else if lstate s k = 2 then .next (s.sendTrain k)
    else .next (if (linkOf s k).rxOk then (s.putLink { linkOf s k with farOk := true }).linkUp k else s.putLink { linkOf s k with farOk := true }) := by
  have hx := fixedFrame_sealed h.sealed
  have hrx := rxFrame_train h.takes
  have hl : linkOf (s.putLink { linkOf s k with farOk := true }) k = { linkOf s k with farOk := true } := linkOf_putLink s (linkOf_num s k)
  change execTrain k f s = _
  unfold execTrain
  rw [if_neg (Nat.not_le.mpr h.lt)]
  dsimp only
  rw [hrx, h.rxAcked, hx]
  dsimp only
  rw [hl]

theorem train_trains (hb : bit f.header 72 = true) (h1 : lstate s k = 1) (hw : s.regs.wf = true) :
    ((linkOf s k).rxOk = false → exec (.train k f) s = .next (s.putLink { linkOf s k with farOk := true })) ∧
      ((linkOf s k).rxOk = true → ∃ t, exec (.train k f) s = .next t ∧ lstate t k = 2) := by
  have he := train_taken h
  rw [hb, h1, if_neg (by decide), if_neg (by decide)] at he
  refine ⟨fun hr => ?_, fun hr => ?_⟩
  · rw [hr, if_neg (by decide)] at he
    exact he
  · rw [hr, if_pos rfl] at he
    exact ⟨_, he, State.linkUp_up (by exact hw) k⟩

theorem train_answered (hor : bit f.header 72 = false ∨ lstate s k = 2) :
    ∃ t, exec (.train k f) s = .next t ∧ t = { s with fed := t.fed, txFrames := t.txFrames } ∧ (bit f.header 72 = false → t = s) := by
  have he := train_taken h
  by_cases hb : bit f.header 72 = false
  · rw [hb, if_pos (by decide)] at he
    exact ⟨s, he, rfl, fun _ => rfl⟩
  · rw [Bool.eq_true_of_not_eq_false hb, if_neg (by decide), if_pos (hor.resolve_left hb)] at he
    exact ⟨_, he, rfl, fun hn => absurd hn hb⟩

end

theorem ack_takes {s : State} {k : Nat} {raw : RawFrame} (hk : k < 3) (h : LinkTakes s k 9 raw) : exec (.ack k raw) s = .next (s.rxAcked k raw) := by
  change execAck k raw s = _
  unfold execAck
  rw [if_neg (Nat.not_le.mpr hk), rxFrame_ack h]

theorem State.pumpLink_none {s : State} {k : Nat} (h : (linkOf s k).waiting = []) (f : Nat) : s.pumpLink k f = s := by
  cases f with
  | zero => rfl
  | succ f =>
    unfold State.pumpLink
    dsimp only
    rw [h]

/-- What an acknowledgement releases, where no frame waits for room. -/
theorem State.takeAck_releases {s : State} {k a i : Nat} (hi : (linkOf s k).unacked.findIdx? (fun t => t.seq == a) = some i)
    (hw : (linkOf s k).waiting = []) : s.takeAck k a = s.putLink { linkOf s k with unacked := (linkOf s k).unacked.drop (i + 1) } := by
  unfold State.takeAck
  dsimp only
  rw [hi]
  have hl := linkOf_putLink s (l := { linkOf s k with unacked := (linkOf s k).unacked.drop (i + 1) }) (linkOf_num s k)
  exact State.pumpLink_none ((congrArg Link.waiting hl).trans hw) _

theorem ack_releases {s : State} {k i : Nat} {f : RawFrame} (hk : k < 3) (ha : awake s) (hl : lstate s k ≠ 0) (hm : s.mode ≠ .test)
    (ht : bits f.header 0 8 = 9) (hc : Sealed f) (hs : frameSound f = true)
    (hi : (linkOf s k).unacked.findIdx? (fun t => t.seq == bits f.header 16 8) = some i) (hw : (linkOf s k).waiting = []) :
    exec (.ack k f) s = .next (s.putLink { linkOf s k with unacked := (linkOf s k).unacked.drop (i + 1) }) := by
  have hx := fixedFrame_sealed hc
  have htk : LinkTakes s k 9 f := ⟨ha, hl, hm, frameMark_ne_of_sealed hc, by rwa [hx], by rwa [hx]⟩
  rw [ack_takes hk htk, State.rxAcked, State.logFrameWords_sealed s k hc, hx, State.takeAck_releases hi hw]

theorem fedLinkStat_not_mem {offs : List Nat} (h : ∀ j ∈ [0, 1, 2], Reg.fedLinkStat.addr j ∉ offs) {k : Nat} (hk : k < 3) :
    Reg.fedLinkStat.addr k ∉ offs := h k (by simp; omega)

/-- A corrected frame is taken as it was sealed (14 R448). -/
theorem ack_corrected {s : State} {k : Nat} {raw : RawFrame} (hk : k < 3) (h : LinkTakes s k 9 raw) :
    exec (.ack k raw) s = exec (.ack k (sealFrame (fixedFrame raw).header (fixedFrame raw).payload)) (s.logFrameWords k raw) := by
  have hs := sealFrame_sealed (fixedFrame raw).header (fixedFrame raw).payload
  have hx := fixedFrame_sealed hs
  have hlog : ErrorsOnly s (s.logFrameWords k raw) ∧ RegsBut logSide s (s.logFrameWords k raw) := by
    refine rel_foldl (R := fun s t => ErrorsOnly s t ∧ RegsBut logSide s t) (fun s => ⟨.refl s, .of_regs rfl⟩)
      (fun _ _ _ h k => ⟨h.1.trans k.1, h.2.trans k.2⟩) (fun t _ => ?_) _ s
    obtain ⟨m, q, e⟩ := t.logErr_frame (mkErr 0 (23 + k) 0x30 0 0 63 0 0 6 k)
    exact ⟨⟨m, q, e⟩, .logErr _ (List.Subset.refl _)⟩
  rw [ack_takes hk h, State.rxAcked]
  obtain ⟨ha, hl, hm, _, ht, hsound⟩ := h
  generalize s.logFrameWords k raw = u at hlog
  obtain ⟨⟨_, _, he⟩, hr⟩ := hlog
  have hlu : lstate u k = lstate s k := lstate_congr hr (fedLinkStat_not_mem (by decide) hk)
  have htk : LinkTakes u k 9 (sealFrame (fixedFrame raw).header (fixedFrame raw).payload) := by
    refine ⟨?_, by rwa [hlu], ?_, frameMark_ne_of_sealed hs, by rwa [hx], by rwa [hx]⟩
    · rw [he]
      exact ha
    · rw [he]
      exact hm
  rw [ack_takes hk htk, State.rxAcked, State.logFrameWords_sealed u k hs, hx]
  rfl

/-! Acknowledgements and resends (14 R445, R447). -/

theorem ackSend_sends {s : State} {k : Nat} (hk : k < 3) (hf : s.fatal = false) (h2 : lstate s k = 2) (ho : (linkOf s k).ackOwed = true) :
    ∃ t, exec (.ackSend k) s = .next t ∧ t = { s with fed := t.fed, txFrames := t.txFrames } ∧ (linkOf t k).ackOwed = false ∧
      t.txFrames = s.txFrames ++ [(k, sealFrame (frameHeader 9 0 (linkOf s k).rxSeq (ownMember s) ((linkOf s k).far.getD 0) false
        (fedEpoch s) [] []) [])] := by
  have he : exec (.ackSend k) s = .next (s.emitFrame k 9 ((linkOf s k).far.getD 0) false (ownMember s) [] []) := by
    change execAckSend k s = _
    unfold execAckSend
    rw [if_neg (Nat.not_le.mpr hk), hf, h2, ho]
    exact if_pos rfl
  rw [State.sendAck_eq] at he
  exact ⟨_, he, rfl, congrArg Link.ackOwed (linkOf_paid s k), rfl⟩

/-- The frames of link k as they are sent again. -/
def resent (s : State) (k : Nat) : List TxFrame :=
  (linkOf s k).unacked.map (fun y => { y with due := s.nomNs + retryCeilNs s k, resends := y.resends + 1 })

theorem linkRetryCeil_resends {s : State} {k : Nat} {x : TxFrame} (hk : k < 3) (hx : lateFrame s k = some x) (hn : x.resends < 16) :
    ∃ t, exec (.linkRetryCeil k) s = .next t ∧ t = { s with fed := t.fed, txFrames := t.txFrames, regs := t.regs, errQ := t.errQ } ∧
      t.txFrames = s.txFrames ++ (linkOf s k).unacked.map (fun y => (k, sealFrame y.header y.payload)) ∧
      (linkOf t k).unacked.map (fun y => y.resends) = (linkOf s k).unacked.map (fun y => y.resends + 1) := by
  have hl := linkOf_putLink s (l := { linkOf s k with unacked := resent s k }) (linkOf_num s k)
  have hput : ∃ l, s.putLink { linkOf s k with unacked := resent s k } = { s with fed := { s.fed with links := l } } := ⟨_, rfl⟩
  have he : exec (.linkRetryCeil k) s = .next
      { (s.putLink { linkOf s k with unacked := resent s k }).logErr (mkErr 0 (23 + k) 0x39 0 0 63 0 0 k (x.resends + 1)) with
        txFrames := ((s.putLink { linkOf s k with unacked := resent s k }).logErr
          (mkErr 0 (23 + k) 0x39 0 0 63 0 0 k (x.resends + 1))).txFrames ++
            (linkOf s k).unacked.map (fun y => (k, sealFrame y.header y.payload)) } := by
    change execLinkRetryCeil k s = _
    unfold execLinkRetryCeil
    rw [if_neg (Nat.not_le.mpr hk), hx]
    exact if_neg (Nat.not_le.mpr hn)
  generalize s.putLink { linkOf s k with unacked := resent s k } = u at hl hput he
  obtain ⟨_, _, e⟩ := u.logErr_frame (mkErr 0 (23 + k) 0x39 0 0 63 0 0 k (x.resends + 1))
  rw [e] at he
  obtain ⟨_, hu⟩ := hput
  refine ⟨_, he, by rw [hu], by rw [hu], ?_⟩
  refine (congrArg (fun l : Link => l.unacked.map (fun y => y.resends)) hl).trans ?_
  change (resent s k).map (fun y => y.resends) = _
  rw [resent, List.map_map]
  rfl

/-! Failures (14 R447; 18 R536; 19 R559). -/

/-- Link k once its failure is counted and logged. -/
def State.linkFailed (s : State) (k : Nat) : State := (s.bump .fedLinkStat k 8 8 1).logErr (mkErr 3 (23 + k) 0x4A 0 0 63 0 0 k 0)

theorem State.linkDown_up {s : State} {k : Nat} (h : lstate s k = 2) : s.linkDown k = (s.linkFailed k).linkTrain k := if_pos h

theorem State.linkTrain_resets (s : State) (k : Nat) :
    ∃ l, s.linkTrain k = s.linkReset k l 1 ∧ l.num = k ∧ l.rxOk = false ∧ l.farOk = false := ⟨_, rfl, linkOf_num s k, rfl, rfl⟩

theorem linkOf_linkReset (s : State) {k : Nat} {l : Link} (h : l.num = k) (v : Nat) : linkOf (s.linkReset k l v) k = l :=
  (linkOf_congr (s := s.putLink l) rfl k).trans (linkOf_putLink s h)

/-- The counts of a link stand as its state changes. -/
theorem fld_linkReset {s : State} (hw : s.regs.wf = true) {k : Nat} (hk : k < 3) (l : Link) (v : Nat) :
    (s.linkReset k l v).fld .fedLinkStat k 8 8 = s.fld .fedLinkStat k 8 8 := by
  have hs : RegsBut [Reg.tstUnitStat.addr (16 + k)] ((s.putLink l).setFld .fedLinkStat k 0 2 v) (s.linkReset k l v) :=
    .setFld (List.mem_singleton_self _) _ _ _
  have hn : Reg.fedLinkStat.addr k ∉ [Reg.tstUnitStat.addr (16 + k)] := by
    obtain rfl | rfl | rfl : k = 0 ∨ k = 1 ∨ k = 2 := by omega
    · decide
    · decide
    · decide
  exact (hs.fld hn 8 8).trans (State.fld_setFld_ne (s.putLink l) .fedLinkStat k 0 2 v 8 8 hw (by decide) (by decide))

theorem State.linkFailed_spec {s : State} {k : Nat} (hk : k < 3) (hw : s.regs.wf = true) (hq : s.errQ.length < 64) :
    ErrorsOnly s (s.linkFailed k) ∧ (s.linkFailed k).regs.wf = true ∧
      (s.linkFailed k).fld .fedLinkStat k 8 8 = (s.fld .fedLinkStat k 8 8 + 1) % 256 ∧
      Logged s (s.linkFailed k) (mkErr 3 (23 + k) 0x4A 0 0 63 0 0 k 0) := by
  have hc := State.fld_bump s .fedLinkStat k 8 8 1 hw (by decide)
  have hw1 : (s.bump .fedLinkStat k 8 8 1).regs.wf = true := State.wf_wr _ _ _ _ hw
  have hseq : (s.bump .fedLinkStat k 8 8 1).rd .errNextSeq 0 = s.rd .errNextSeq 0 := State.rd_wr_other _ _ _ _ _ _ (by
    obtain rfl | rfl | rfl : k = 0 ∨ k = 1 ∨ k = 2 := by omega
    · decide
    · decide
    · decide)
  have hf : ∃ m, s.bump .fedLinkStat k 8 8 1 = { s with regs := m } := ⟨_, rfl⟩
  unfold State.linkFailed
  generalize s.bump .fedLinkStat k 8 8 1 = v at hc hw1 hseq hf
  obtain ⟨_, hv⟩ := hf
  obtain ⟨m, q, e⟩ := v.logErr_frame (mkErr 3 (23 + k) 0x4A 0 0 63 0 0 k 0)
  have hb : RegsBut logSide v (v.logErr (mkErr 3 (23 + k) 0x4A 0 0 63 0 0 k 0)) := .logErr _ (List.Subset.refl _)
  refine ⟨⟨m, q, by rw [e, hv]⟩, hb.wf hw1, (hb.fld (fedLinkStat_not_mem (by decide) hk) 8 8).trans hc, ?_⟩
  have hlog := Logged.logErr v (mkErr 3 (23 + k) 0x4A 0 0 63 0 0 k 0) (by rwa [hv]) (show 1 < 3 by decide)
  exact hlog.congr (by rw [hv]) hseq (by rw [hv])

theorem State.linkDown_fails {s : State} {k : Nat} (hk : k < 3) (h2 : lstate s k = 2) (hw : s.regs.wf = true) (hq : s.errQ.length < 64) :
    s.linkDown k = { s with fed := (s.linkDown k).fed, regs := (s.linkDown k).regs, errQ := (s.linkDown k).errQ } ∧
      lstate (s.linkDown k) k = 1 ∧ (linkOf (s.linkDown k) k).rxOk = false ∧ (linkOf (s.linkDown k) k).farOk = false ∧
      (s.linkDown k).fld .fedLinkStat k 8 8 = (s.fld .fedLinkStat k 8 8 + 1) % 256 ∧
      Logged s (s.linkDown k) (mkErr 3 (23 + k) 0x4A 0 0 63 0 0 k 0) := by
  obtain ⟨⟨m, q, e⟩, hwf, hc, hlog⟩ := State.linkFailed_spec hk hw hq
  rw [State.linkDown_up h2]
  generalize s.linkFailed k = u at e hwf hc hlog
  obtain ⟨l, el, hn, hr, hf⟩ := u.linkTrain_resets k
  rw [el]
  obtain ⟨m', l', em⟩ := LinksMoved.linkReset u k l 1
  refine ⟨?_, lstate_linkReset hwf l (by decide), ?_, ?_, (fld_linkReset hwf hk l 1).trans hc, ?_⟩
  · rw [em, e]
  · rw [linkOf_linkReset u hn 1, hr]
  · rw [linkOf_linkReset u hn 1, hf]
  · unfold Logged at hlog ⊢
    rw [em]
    exact hlog

/-- Idle beats in error are counted before the link goes down (19 R559). -/
theorem State.idleErrors_view {s : State} (hw : s.regs.wf = true) {k : Nat} (hk : k < 3) (n : Nat) :
    let u := s.bump .fedLinkStat k 16 16 n
    (∃ m, u = { s with regs := m }) ∧ u.regs.wf = true ∧ lstate u k = lstate s k ∧ u.fld .fedLinkStat k 8 8 = s.fld .fedLinkStat k 8 8 ∧
      u.rd .errNextSeq 0 = s.rd .errNextSeq 0 := by
  refine ⟨⟨_, rfl⟩, State.wf_wr _ _ _ _ hw, State.fld_setFld_ne s .fedLinkStat k 16 16 _ 0 2 hw (by decide) (by decide),
    State.fld_setFld_ne s .fedLinkStat k 16 16 _ 8 8 hw (by decide) (by decide), State.rd_wr_other _ _ _ _ _ _ ?_⟩
  obtain rfl | rfl | rfl : k = 0 ∨ k = 1 ∨ k = 2 := by omega
  · decide
  · decide
  · decide

theorem link_fails {s : State} {k : Nat} {cmd : Instr} (hk : k < 3) (ha : awake s) (h2 : lstate s k = 2) (hw : s.regs.wf = true)
    (hq : s.errQ.length < 64)
    (hcmd : cmd = .linkIdleErrLimit k ∨ cmd = .linkRxKindZero k ∨ cmd = .linkResendLimit k ∧ ∃ x, lateFrame s k = some x ∧ 16 ≤ x.resends) :
    ∃ t, exec cmd s = .next t ∧ t = { s with fed := t.fed, regs := t.regs, errQ := t.errQ } ∧ lstate t k = 1 ∧
      (linkOf t k).rxOk = false ∧ (linkOf t k).farOk = false ∧
      t.fld .fedLinkStat k 8 8 = (s.fld .fedLinkStat k 8 8 + 1) % 256 ∧ Logged s t (mkErr 3 (23 + k) 0x4A 0 0 63 0 0 k 0) := by
  obtain ⟨hf, hr⟩ := ha
  have hk' : ¬3 ≤ k := Nat.not_le.mpr hk
  rcases hcmd with rfl | rfl | ⟨rfl, x, hx, hn⟩
  · have he : exec (.linkIdleErrLimit k) s = .next ((s.bump .fedLinkStat k 16 16 (64 - (linkOf s k).idle.length)).linkDown k) := by
      change execLinkIdleErrLimit k s = _
      unfold execLinkIdleErrLimit
      refine (if_neg hk').trans (if_neg ?_)
      rw [hf, hr, h2]
      decide
    obtain ⟨⟨m, e⟩, hwu, hl, hc, hseq⟩ := State.idleErrors_view hw hk (64 - (linkOf s k).idle.length)
    generalize s.bump .fedLinkStat k 16 16 (64 - (linkOf s k).idle.length) = u at he e hwu hl hc hseq
    obtain ⟨d1, d2, d3, d4, d5, d6⟩ := State.linkDown_fails hk (hl.trans h2) hwu (by rwa [e])
    refine ⟨_, he, ?_, d2, d3, d4, d5.trans (by rw [hc]), d6.congr (by rw [e]) hseq (by rw [e])⟩
    rw [d1, e]
  · refine ⟨_, (if_neg hk').trans (if_neg ?_), State.linkDown_fails hk h2 hw hq⟩
    rw [hf, hr]
    decide
  · refine ⟨_, ?_, State.linkDown_fails hk h2 hw hq⟩
    change execLinkResendLimit k s = _
    unfold execLinkResendLimit
    rw [if_neg hk', hx]
    exact if_pos hn

/-- Settles O55: training, acknowledgements and failures through `LinkStep`, frames that are not taken through `rxFrame`. -/
theorem links : Obligations.Links := by
  unfold Obligations.Links
  refine ⟨fun _ _ => rxOk_sendsTrain, fun _ _ => rxOk_up, fun _ _ _ => train_trains, fun _ _ _ => train_answered, fun s k f h => ?_,
    fun s k f i hk ha hl hm ht hc hs hi hw => ack_releases hk ha hl hm ht hc hs hi hw, fun s k raw hk h => ?_,
    fun s k raw hk h hu => frames_refused hk (rxFrame_uncorrectable h hu), fun s k raw hk ha hl hm hu ht hs => ?_, fun _ _ => ackSend_sends,
    fun _ _ _ => linkRetryCeil_resends, fun _ _ _ => link_fails⟩
  · rw [ack_takes h.lt h.takes, h.rxAcked]
  · exact frames_refused hk fun type => rxFrame_loops h type raw
  · exact ack_corrected hk ⟨ha, hl, hm, hu, ht, hs⟩

end Sys2Proof.Machine
end

section
/-! PROOFS. What each federation frame does (14 R421, R423, R425 to R435, R443). -/

namespace Sys2Proof.Machine

/-! What is known of the members. -/

theorem memberOf_num (s : State) (m : Nat) : (memberOf s m).num = m := by
  unfold memberOf
  cases h : s.fed.members.find? (fun x => x.num == m) with
  | none => rfl
  | some x => simpa using List.find?_some h

theorem memberOf_putMember (s : State) {x : Member} {m : Nat} (h : x.num = m) : memberOf (s.putMember x) m = x := by
  unfold memberOf State.putMember
  rw [List.find?_cons_of_pos (by simp [h])]
  rfl

theorem memberOf_putMember_ne (s : State) {x : Member} {m : Nat} (h : x.num ≠ m) : memberOf (s.putMember x) m = memberOf s m := by
  unfold memberOf State.putMember
  rw [List.find?_cons_of_neg (by simpa using h), List.find?_filter]
  refine congrArg (fun o : Option Member => o.getD _) (congrArg (fun p => List.find? p s.fed.members) (funext fun y => ?_))
  by_cases hy : y.num = m
  · simp [hy, Ne.symm h]
  · simp [hy]

/-- t is s but for what the federation keeps beside its registers. -/
def FedOnly (s t : State) : Prop := t = { s with fed := t.fed }

theorem FedOnly.refl (s : State) : FedOnly s s := rfl

theorem FedOnly.trans {s t u : State} (h : FedOnly s t) (k : FedOnly t u) : FedOnly s u := by
  unfold FedOnly at h k ⊢
  rw [k, h]

theorem FedOnly.fedState {s t : State} (h : FedOnly s t) : fedState t = fedState s := by
  rw [h]
  rfl

theorem FedOnly.frameIn (s : State) (k : Nat) (f : RawFrame) : FedOnly s (s.frameIn k f) := rfl

theorem FedOnly.putMember (s : State) (x : Member) : FedOnly s (s.putMember x) := rfl

/-! The link that took the frame. -/

/-- The link of a frame that is taken, and what it has learned of the far end. -/
def takenLink (s : State) (k : Nat) (f : RawFrame) : Link := { linkOf s k with rxSeq := bits f.header 8 8, ackOwed := true }

theorem linkOf_frameIn (s : State) (k : Nat) (f : RawFrame) : linkOf (s.frameIn k f) k = takenLink s k f := linkOf_putLink s (linkOf_num s k)

theorem State.learnFar_spec (s : State) (k : Nat) (f : RawFrame) : (∃ l, s.learnFar k f = { s with fed := { s.fed with links := l } }) ∧
    (linkOf (s.learnFar k f) k).ackOwed = (linkOf s k).ackOwed ∧ (linkOf (s.learnFar k f) k).rxSeq = (linkOf s k).rxSeq := by
  unfold State.learnFar
  split
  · exact ⟨⟨_, rfl⟩, rfl, rfl⟩
  · have hl := linkOf_putLink s (l := { linkOf s k with far := some (frameSrc f) }) (linkOf_num s k)
    rw [hl]
    exact ⟨⟨_, rfl⟩, rfl, rfl⟩

/-- The block once link k has taken a frame and learned of its far end. -/
def State.taken (s : State) (k : Nat) (f : RawFrame) : State := (s.frameIn k f).learnFar k f

theorem State.taken_spec (s : State) (k : Nat) (f : RawFrame) : (∃ l, s.taken k f = { s with fed := { s.fed with links := l } }) ∧
    (linkOf (s.taken k f) k).ackOwed = true ∧ (linkOf (s.taken k f) k).rxSeq = bits f.header 8 8 := by
  obtain ⟨⟨l, e⟩, ha, hr⟩ := (s.frameIn k f).learnFar_spec k f
  rw [linkOf_frameIn] at ha hr
  exact ⟨⟨l, e⟩, ha, hr⟩

/-! MANIFEST (14 R426 to R428). -/

/-- The words of a manifest's payload. -/
def manifestPayload (f : RawFrame) : List W32 :=
  (f.payload.flatMap (fun b => (List.range 8).map (fun i => BitVec.ofNat 32 (bits b (32 * i) 32)))).take 16

/-- The manifest of member m has come. -/
def State.haveManifest (s : State) (m : Nat) : State := s.putMember { memberOf s m with manifest := true }

theorem memberOf_haveManifest (s : State) (m : Nat) : (memberOf (s.haveManifest m) m).manifest = true :=
  congrArg Member.manifest (memberOf_putMember s (x := { memberOf s m with manifest := true }) (memberOf_num s m))

/-- The manifest's words and its sender noted. -/
def State.manifestNoted (s : State) (k : Nat) (f : RawFrame) : State :=
  ({ s.taken k f with is7 := s.is7.putAll (16 * frameSrc f) (manifestPayload f) } : State).haveManifest (frameSrc f)

theorem WordMap.get_putAll_below (vs : List W32) (m : WordMap) (k j : Nat) (h : j < k) : (m.putAll k vs).get j = m.get j := by
  induction vs generalizing m k with
  | nil => rfl
  | cons v vs ih => exact (ih (m.put k v) (k + 1) (by omega)).trans (WordMap.get_put_other m k j v (by omega))

theorem WordMap.get_putAll (vs : List W32) (m : WordMap) (k : Nat) (hw : m.wf = true) {i : Nat} (h : i < vs.length) :
    (m.putAll k vs).get (k + i) = vs[i] := by
  induction vs generalizing m k i with
  | nil => exact absurd h (Nat.not_lt_zero i)
  | cons v vs ih =>
    cases i with
    | zero => exact (WordMap.get_putAll_below vs (m.put k v) (k + 1) k (by omega)).trans (WordMap.get_put_same m 0 k v hw)
    | succ i =>
      rw [show k + (i + 1) = (k + 1) + i by omega]
      exact ih (m.put k v) (k + 1) (WordMap.wf_put m k v hw) (Nat.lt_of_succ_lt_succ h)

theorem manifestPayload_get {f : RawFrame} (h : f.payload.length = 2) {b j : Nat} (hb : b < 2) (hj : j < 8) :
    ∃ hi : 8 * b + j < (manifestPayload f).length, (manifestPayload f)[8 * b + j] = BitVec.ofNat 32 (bits (f.payload.getD b 0) (32 * j) 32) := by
  obtain ⟨p, q, hp⟩ := List.length_eq_two.mp h
  have hm : manifestPayload f = (List.range 8).map (fun i => BitVec.ofNat 32 (bits p (32 * i) 32)) ++
      (List.range 8).map (fun i => BitVec.ofNat 32 (bits q (32 * i) 32)) := by
    rw [manifestPayload, hp]
    rfl
  have hl : ∀ w : BitVec 256, ((List.range 8).map (fun i => BitVec.ofNat 32 (bits w (32 * i) 32))).length = 8 := fun _ => rfl
  rw [hm, hp]
  obtain rfl | rfl : b = 0 ∨ b = 1 := by omega
  · exact ⟨by simp; omega, by simp [List.getElem_append_left, hj]⟩
  · exact ⟨by simp; omega, by simp [List.getElem_append_right]⟩

theorem manifest_noted {s : State} {k : Nat} {f : RawFrame} (h : FrameTaken s k 2 f) (hs : fedState s = 0 ∨ fedState s = 3 ∨ fedState s = 4) :
    exec (.manifest k f) s = .next (s.manifestNoted k f) := by
  have hrx := h.rxFrame (by decide) (by decide)
  have hx := fixedFrame_sealed h.1.sealed
  obtain ⟨⟨l, e⟩, _, _⟩ := s.taken_spec k f
  have hst : fedState (s.manifestNoted k f) = fedState s := by
    unfold State.manifestNoted
    rw [e]
    rfl
  change execManifest k f s = _
  unfold execManifest
  rw [if_neg (Nat.not_le.mpr h.1.lt), hrx, hx]
  have h1 : ¬fedState (s.manifestNoted k f) = 1 := by omega
  refine (if_neg h1).trans (if_neg ?_)
  rintro ⟨hc, _⟩
  have h2 : fedState (s.manifestNoted k f) = 2 ∨ fedState (s.manifestNoted k f) = 5 := hc
  omega

theorem State.manifestNoted_spec (s : State) (k : Nat) (f : RawFrame) (hl : f.payload.length = 2) (hw : s.is7.wf = true) :
    s.manifestNoted k f = { s with fed := (s.manifestNoted k f).fed, is7 := (s.manifestNoted k f).is7 } ∧
      (memberOf (s.manifestNoted k f) (frameSrc f)).manifest = true ∧
      (∀ b j, b < 2 → j < 8 →
        (s.manifestNoted k f).is7.get (16 * frameSrc f + 8 * b + j) = BitVec.ofNat 32 (bits (f.payload.getD b 0) (32 * j) 32)) ∧
      (linkOf (s.manifestNoted k f) k).ackOwed = true ∧ (linkOf (s.manifestNoted k f) k).rxSeq = bits f.header 8 8 := by
  obtain ⟨⟨l, e⟩, ha, hr⟩ := s.taken_spec k f
  unfold State.manifestNoted
  generalize s.taken k f = u at e ha hr
  refine ⟨by rw [e]; rfl, ?_, fun b j hb hj => ?_, ha, hr⟩
  · exact memberOf_haveManifest _ _
  · obtain ⟨hi, hv⟩ := manifestPayload_get hl hb hj
    rw [← hv, Nat.add_assoc]
    exact WordMap.get_putAll _ _ _ hw hi

/-! HEARTBEAT (14 R429, R431, R434). -/

/-- Member m as its own heartbeat shows it. -/
def heardMember (s : State) (f : RawFrame) : Member :=
  { memberOf s (frameSrc f) with
    heardAt := some s.nomNs, epoch := BitVec.ofNat 32 (bits f.header 40 32), hash := BitVec.ofNat 64 (bits f.header 128 64),
    state := bits f.header 80 3, witness := none, readAt := none, silent := false }

/-- Member j is among those that the sender of a heartbeat hears. -/
def State.listed (s : State) (j : Nat) : State :=
  s.putMember { memberOf s j with listedAt := some s.nomNs, witness := none, readAt := none, silent := false }

/-- The members that a heartbeat lists, but for its sender and this one. -/
def listedIn (s : State) (f : RawFrame) : List Nat :=
  (List.range 4).filter (fun j => bit f.header (72 + j) && decide (j ≠ frameSrc f) && decide (j ≠ ownMember s))

/-- The block with the sender of a heartbeat, and those that it lists, marked heard. -/
def State.heardFrom (s : State) (f : RawFrame) : State :=
  (listedIn (s.putMember (heardMember s f)) f).foldl State.listed (s.putMember (heardMember s f))

theorem State.listed_others {js : List Nat} {m : Nat} (h : m ∉ js) (s : State) : FedOnly s (js.foldl State.listed s) ∧
    (js.foldl State.listed s).fed.links = s.fed.links ∧ memberOf (js.foldl State.listed s) m = memberOf s m := by
  induction js generalizing s with
  | nil => exact ⟨.refl s, rfl, rfl⟩
  | cons j js ih =>
    rw [List.mem_cons, not_or] at h
    obtain ⟨hj, hjs⟩ := h
    obtain ⟨hf, hl, hm⟩ := ih hjs (s.listed j)
    refine ⟨(FedOnly.putMember s _).trans hf, hl.trans rfl, hm.trans (memberOf_putMember_ne s fun he => hj ?_)⟩
    exact (he.symm.trans (memberOf_num s j))

theorem State.heardFrom_spec (s : State) (f : RawFrame) : FedOnly s (s.heardFrom f) ∧ (s.heardFrom f).fed.links = s.fed.links ∧
    memberOf (s.heardFrom f) (frameSrc f) = heardMember s f := by
  have hn : frameSrc f ∉ listedIn (s.putMember (heardMember s f)) f := fun hm => by
    have hp := (List.mem_filter.mp hm).2
    simp at hp
  obtain ⟨hf, hl, hm⟩ := State.listed_others hn (s.putMember (heardMember s f))
  exact ⟨(FedOnly.putMember s _).trans hf, hl.trans rfl, hm.trans (memberOf_putMember s (memberOf_num s _))⟩

theorem State.taken_fedOnly (s : State) (k : Nat) (f : RawFrame) : FedOnly s (s.taken k f) := by
  obtain ⟨⟨_, e⟩, _⟩ := s.taken_spec k f
  unfold FedOnly
  rw [e]

/-- A heartbeat is noted, and what it shows is taken by a member that takes part. -/
theorem heartbeat_heard {s : State} {k : Nat} {f : RawFrame} (h : FrameTaken s k 3 f) : exec (.heartbeat k f) s = .next
    (if decide (fedState s = 2) || decide (fedState s = 3) || decide (fedState s = 5) then
      (((((s.taken k f).heardFrom f).takeHeartbeat (frameSrc f) (bits f.header 80 3) (bits f.header 40 32)).settleOwners (frameSrc f)
        f.owners).heldCheck)
    else (s.taken k f).heardFrom f) := by
  have hrx := h.rxFrame (by decide) (by decide)
  have hx := fixedFrame_sealed h.1.sealed
  have hst : fedState ((s.taken k f).heardFrom f) = fedState s := ((s.taken_fedOnly k f).trans ((s.taken k f).heardFrom_spec f).1).fedState
  change execHeartbeat k f s = _
  unfold execHeartbeat
  rw [if_neg (Nat.not_le.mpr h.1.lt), hrx, hx, ← hst]
  rfl

end Sys2Proof.Machine
end

section
/-! PROOFS. The ownership tables, TIME, CONFIG, CONFIG_ACK, DOORBELL and FENCE (14 R421, R423, R429 to R435, R443). -/

namespace Sys2Proof.Machine

/-! The ownership tables (14 R429, R430). -/

theorem State.settleOwners_agrees {s : State} {m : Nat} {tb : List (Nat × Nat)}
    (h : (memberOf s m).hash = s.fed.hash ∨ fedState s = 3 ∨ tb = []) : s.settleOwners m tb = s := by
  unfold State.settleOwners
  rcases h with h | h | rfl
  · exact if_pos (by rw [decide_eq_true h, Bool.or_true])
  · exact if_pos (by rw [decide_eq_true h, Bool.true_or])
  · split <;> rfl

theorem homeOf_own {s : State} {q : Nat} (h : homedAway s q = false) : homeOf s q = ownMember s := by
  simpa [homedAway] using h

/-- An entry for a queue that is homed here. -/
theorem State.settleOwner_own {s : State} {q : Nat} (hc : s.queues.contains q = true) (hh : homedAway s q = false) (m n : Nat) :
    State.settleOwner m s (q, n) = if n = m ∧ m < ownMember s then s.yieldQueue q m else s := by
  unfold State.settleOwner
  exact (if_neg (by rw [hc]; decide)).trans (if_pos (homeOf_own hh))

theorem State.settleOwner_theirs {s : State} {m q n : Nat} (hc : s.queues.contains q = true) (hm : homeOf s q = m) (ho : m ≠ ownMember s)
    (hn : n ≠ m) : State.settleOwner m s (q, n) = s.giveOwner q n := by
  unfold State.settleOwner
  exact (if_neg (by rw [hc]; decide)).trans ((if_neg (by rw [hm]; exact ho)).trans ((if_pos hm).trans (if_neg hn)))

/-- A queue is homed on member n. -/
def State.homedOn (s : State) (q n : Nat) : State := { s with fed := { s.fed with owners := assocPut s.fed.owners q n } }

/-- A queue that is given away. -/
def State.given (s : State) (q n : Nat) : State := ((s.flipHash q (homeOf s q)).flipHash q n).homedOn q n

theorem State.giveOwner_away (s : State) {q n : Nat} (h : n ≠ ownMember s) : s.giveOwner q n = s.given q n := if_neg h

theorem homeOf_of_owner {s : State} {q n : Nat} (h : assocGet s.fed.owners q = some n) : homeOf s q = n := by
  rw [homeOf, h]
  rfl

/-- What this member keeps of a queue that is member m's from now on is dropped. -/
def State.letGo (s : State) (q m : Nat) : State :=
  { s with
      ways := s.ways.filter (fun w => w.qid != q), overrun := s.overrun.filter (· != q), lastSlots := assocDel s.lastSlots q,
      ctxWait := s.ctxWait.filter (fun w => w.1 != q), ctxRetry := assocDel s.ctxRetry q, ctxWb := assocDel s.ctxWb q,
      fed := { s.fed with owners := assocPut s.fed.owners q m, yielding := assocDel s.fed.yielding q,
                          leaving := s.fed.leaving.filter (· != q) } }

/-- The hash of a queue that is yielded. -/
def State.yieldHash (s : State) (q m : Nat) : State := ((s.flipHash q (ownMember s)).flipHash q m).forgetReady q

theorem State.letGo_view (s : State) (q m : Nat) :
    (s.letGo q m).regs = s.regs ∧ (s.letGo q m).fed.owners = assocPut s.fed.owners q m ∧ (s.letGo q m).fed.hash = s.fed.hash :=
  ⟨rfl, rfl, rfl⟩

theorem State.yieldHash_view (s : State) (q m : Nat) : (s.yieldHash q m).regs = s.regs ∧ (s.yieldHash q m).fed.owners = s.fed.owners ∧
    (s.yieldHash q m).fed.hash = s.fed.hash ^^^ hashTerm q (ownMember s) ^^^ hashTerm q m := ⟨rfl, rfl, rfl⟩

/-- A queue that is yielded, before a leaving member looks whether it was its last. -/
def State.yielded (s : State) (q m : Nat) : State := ((s.yieldHash q m).letGo q m).bump .fedStat 0 16 8 1

theorem State.yieldDone_eq (s : State) (q m : Nat) : s.yieldDone q m = (s.yielded q m).leaveCheck := rfl

theorem State.yielded_spec {s : State} (hw : s.regs.wf = true) (q m : Nat) : homeOf (s.yielded q m) q = m ∧
    fedState (s.yielded q m) = fedState s ∧ (s.yielded q m).fld .fedStat 0 16 8 = (s.fld .fedStat 0 16 8 + 1) % 256 ∧
    (s.yielded q m).fed.hash = s.fed.hash ^^^ hashTerm q (ownMember s) ^^^ hashTerm q m := by
  obtain ⟨hr, ho, hh⟩ := (s.yieldHash q m).letGo_view q m
  obtain ⟨hr', ho', hh'⟩ := s.yieldHash_view q m
  rw [hr'] at hr
  rw [ho'] at ho
  rw [hh'] at hh
  unfold State.yielded
  generalize (s.yieldHash q m).letGo q m = u at hr ho hh
  have hwu : u.regs.wf = true := by
    rw [hr]
    exact hw
  have hb : RegsBut [] s u := .of_regs hr
  have hown : assocGet (u.bump .fedStat 0 16 8 1).fed.owners q = some m := by
    change assocGet u.fed.owners q = some m
    rw [ho, assocGet_assocPut]
  refine ⟨homeOf_of_owner hown, ?_, ?_, hh⟩
  · exact (State.fld_setFld_ne u .fedStat 0 16 8 _ 2 3 hwu (by decide) (by decide)).trans (hb.fld (by simp) 2 3)
  · rw [State.fld_bump u .fedStat 0 16 8 1 hwu (by decide), hb.fld (by simp)]
    rfl

/-- A queue whose yielding to member m is noted. -/
def State.yieldNoted (s : State) (q m : Nat) : State := { s with fed := { s.fed with yielding := assocPut s.fed.yielding q m } }

theorem State.yieldQueue_idle {s : State} {q : Nat} (hc : ctxOf s q = none) (hy : assocGet s.fed.yielding q = none) (m : Nat) :
    s.yieldQueue q m = (s.yieldNoted q m).yieldDone q m := by
  unfold State.yieldQueue
  exact (if_neg (by rw [hy]; decide)).trans (if_neg (by rw [hc]; decide))

theorem State.settleOwner_yields {s : State} {m q : Nat} (hc : s.queues.contains q = true) (hh : homedAway s q = false)
    (hm : m < ownMember s) (hx : ctxOf s q = none) (hy : assocGet s.fed.yielding q = none) (h5 : fedState s ≠ 5) (hw : s.regs.wf = true) :
    ∃ t : State, State.settleOwner m s (q, m) = t ∧ homeOf t q = m ∧ t.fld .fedStat 0 16 8 = (s.fld .fedStat 0 16 8 + 1) % 256 ∧
      t.fed.hash = s.fed.hash ^^^ hashTerm q (ownMember s) ^^^ hashTerm q m := by
  obtain ⟨h1, h2, h3, h4⟩ := State.yielded_spec (s := s.yieldNoted q m) hw q m
  refine ⟨_, ?_, h1, h3, h4⟩
  rw [State.settleOwner_own hc hh, if_pos ⟨rfl, hm⟩, State.yieldQueue_idle hx hy, State.yieldDone_eq, State.leaveCheck_idle (by rw [h2]; exact h5)]

/-! TIME (14 R432, R433). -/

/-- The offset that an answer gives: half the difference d, whose half nanosecond is left open (log entry 1). -/
def timeOffset (s : State) (d : Int) : Int := if d % 2 = 0 then d / 2 else d / 2 + (((Config.freeValue s.freeCtr).toNat % 2 : Nat) : Int)

theorem timeOffset_halves (s : State) (d : Int) : 2 * timeOffset s d = d ∨ 2 * timeOffset s d = d - 1 ∨ 2 * timeOffset s d = d + 1 := by
  unfold timeOffset
  split
  · omega
  · omega

/-- The block once an answer has given the offset. -/
def State.timed (s : State) (off : Int) : State :=
  ({ s with freeCtr := s.freeCtr + 1, fed := { s.fed with timeReq := none, offset := BitVec.ofInt 64 off } } : State).setFld .fedStat 0 13 1
    (flag (decide (((max 1 (s.fld .fedCtl 0 11 10) : Nat) : Int) < (off.natAbs : Int))))

section
variable {s : State} {k : Nat} {f : RawFrame} (h : FrameTaken s k 4 f)
include h

theorem time_request (hb : bit f.header 72 = false) :
    ((members s).head? = some (ownMember s) → exec (.time k f) s =
      .next ((s.frameIn k f).sendTo 4 (frameSrc f) [(72, 1, 1), (80, 8, bits f.header 80 8)]
        [BitVec.ofNat 256 (bits ((f.payload.head?).getD 0) 0 64 + 2 ^ 64 * s.timebase.toNat + 2 ^ 128 * s.timebase.toNat)])) ∧
      ((members s).head? ≠ some (ownMember s) → exec (.time k f) s = .next (s.frameIn k f)) := by
  have hrx := h.rxFrame (by decide) (by decide)
  have hx := fixedFrame_sealed h.1.sealed
  have he : exec (.time k f) s = if (members (s.frameIn k f)).head? = some (ownMember (s.frameIn k f)) then
      .next ((s.frameIn k f).sendTo 4 (frameSrc f) [(72, 1, 1), (80, 8, bits f.header 80 8)]
        [BitVec.ofNat 256 (bits ((f.payload.head?).getD 0) 0 64 + 2 ^ 64 * s.timebase.toNat + 2 ^ 128 * s.timebase.toNat)])
      else .next (s.frameIn k f) := by
    change execTime k f s = _
    unfold execTime
    rw [if_neg (Nat.not_le.mpr h.1.lt), hrx, hx]
    exact if_pos (by rw [hb]; rfl)
  exact ⟨fun hr => he.trans (if_pos hr), fun hr => he.trans (if_neg hr)⟩

theorem time_answer {n : Nat} {t0 : W64} {d : Int} (hb : bit f.header 72 = true) (hq : s.fed.timeReq = some (n, t0)) (hn : n = bits f.header 80 8)
    (ht : t0.toNat = bits ((f.payload.head?).getD 0) 0 64) (hw : s.regs.wf = true)
    (hd : d = (bits ((f.payload.head?).getD 0) 64 64 : Int) - (t0.toNat : Int) -
      ((s.timebase.toNat : Int) - (bits ((f.payload.head?).getD 0) 128 64 : Int))) :
    ∃ (t : State) (off : Int), exec (.time k f) s = .next t ∧ t = { s with fed := t.fed, regs := t.regs, freeCtr := s.freeCtr + 1 } ∧
      (2 * off = d ∨ 2 * off = d - 1 ∨ 2 * off = d + 1) ∧ t.fed.offset = BitVec.ofInt 64 off ∧ t.fed.timeReq = none ∧
      (bit (t.rd .fedStat 0) 13 = true ↔ max 1 (s.fld .fedCtl 0 11 10) < off.natAbs) := by
  have hrx := h.rxFrame (by decide) (by decide)
  have hx := fixedFrame_sealed h.1.sealed
  have he : exec (.time k f) s = .next ((s.frameIn k f).timed (timeOffset s d)) := by
    change execTime k f s = _
    unfold execTime
    rw [if_neg (Nat.not_le.mpr h.1.lt), hrx, hx]
    refine (if_neg (by rw [hb]; decide)).trans ?_
    have hq' : (s.frameIn k f).fed.timeReq = some (n, t0) := hq
    rw [hq']
    refine (if_neg ?_).trans ?_
    · rintro (hc | hc)
      · exact hc hn
      · exact hc ht
    · rw [hd, ht]
      rfl
  have hbit : bit (((s.frameIn k f).timed (timeOffset s d)).rd .fedStat 0) 13 =
      decide (((max 1 (s.fld .fedCtl 0 11 10) : Nat) : Int) < ((timeOffset s d).natAbs : Int)) := by
    unfold State.timed
    rw [State.rd_setFld _ _ _ _ _ _ (by exact hw), bit_withBits_one _ _ _ (by decide)]
    rfl
  refine ⟨_, _, he, rfl, timeOffset_halves s d, rfl, rfl, ?_⟩
  rw [hbit, decide_eq_true_eq]
  omega

end

/-! CONFIG and CONFIG_ACK (14 R423). -/

section
variable {s : State} {k : Nat} {f : RawFrame} (h : FrameTaken s k 5 f)
include h

theorem config_whole (hs : fedState s = 2 ∨ fedState s = 5) (hp : bits f.header 88 8 = 0) (hb : bit f.header 96 = true)
    (hr : s.fed.remote = none) :
    ∃ t, exec (.config k f) s = .next t ∧ t = { s with fed := t.fed } ∧
      t.fed.remote = some (configCmd s (frameSrc f) (bits f.header 72 16) f.payload) ∧ t.fed.inbox = s.fed.inbox := by
  have hrx := h.rxFrame (by decide) (by decide)
  have hx := fixedFrame_sealed h.1.sealed
  have he : exec (.config k f) s = .next { s.frameIn k f with fed := { (s.frameIn k f).fed with
      config := s.fed.config.filter (fun x => !(x.1 == frameSrc f && x.2.1 == bits f.header 72 16)),
      remote := some (configCmd s (frameSrc f) (bits f.header 72 16) f.payload) } } := by
    change execConfig k f s = _
    unfold execConfig
    rw [if_neg (Nat.not_le.mpr h.1.lt), hrx, hx]
    dsimp only
    rw [if_pos hp]
    refine (if_neg ?_).trans ((if_pos hb).trans ?_)
    · rintro (hc | ⟨h2, h5⟩)
      · exact hc hp
      · exact hs.elim h2 h5
    · have hn : (s.frameIn k f).fed.remote.isNone = true := by
        change s.fed.remote.isNone = true
        rw [hr]
        rfl
      rw [if_pos hn]
      rfl
  exact ⟨_, he, rfl, rfl, rfl⟩

theorem config_apart (hs : fedState s ≠ 2 ∧ fedState s ≠ 5) : exec (.config k f) s = .next (s.frameIn k f) := by
  have hrx := h.rxFrame (by decide) (by decide)
  have hx := fixedFrame_sealed h.1.sealed
  change execConfig k f s = _
  unfold execConfig
  rw [if_neg (Nat.not_le.mpr h.1.lt), hrx, hx]
  exact if_pos (.inr hs)

end

theorem configAck_answers {s : State} {k : Nat} {f : RawFrame} {c : AdmCmd} (h : FrameTaken s k 6 f) (hc : s.adm.cmd = some c)
    (hi : bits c.idx 0 16 = bits f.header 72 16) :
    exec (.configAck k f) s = .next ((s.frameIn k f).memberAnswered (frameSrc f) (some (bits f.header 88 8, bits f.header 96 8))) := by
  have hrx := h.rxFrame (by decide) (by decide)
  have hx := fixedFrame_sealed h.1.sealed
  have hc' : (s.frameIn k f).adm.cmd = some c := hc
  change execConfigAck k f s = _
  unfold execConfigAck
  rw [if_neg (Nat.not_le.mpr h.1.lt), hrx, hx]
  dsimp only
  rw [hc']
  exact if_pos hi

section
variable {s : State} {m : Nat} {c : AdmCmd} (hc : s.adm.cmd = some c) (ha : c.acks = [m]) (hb : c.bad = none)
include hc ha hb

theorem State.memberAnswered_well (de : Nat) :
    s.memberAnswered m (some (0, de)) = (s.putCmd true (some { c with acks := [] })).afterMembers true { c with acks := [] } := by
  unfold State.memberAnswered
  rw [hc]
  dsimp only
  rw [ha, hb, List.filter_cons_of_neg (by simp), List.filter_nil]
  exact (if_neg (by simp)).trans ((if_pos rfl).trans rfl)

theorem State.memberAnswered_failed {st de : Nat} (hp : c.phase = .members) (hs : st ≠ 0) (h84 : cOp c ≠ 0x84) (h85 : cOp c ≠ 0x85)
    (h91 : cOp c ≠ 0x91) : s.memberAnswered m (some (st, de)) =
      (s.putCmd true (some { c with acks := [], bad := some (m, st, de) })).admEnd true 0 0 0 0 0 := by
  have ho : cOp { c with acks := [], bad := some (m, st, de) } = cOp c := rfl
  unfold State.memberAnswered
  rw [hc]
  dsimp only
  rw [ha, hb, List.filter_cons_of_neg (by simp), List.filter_nil]
  dsimp only
  rw [if_pos hs]
  refine (if_neg (by simp)).trans ((if_pos rfl).trans ?_)
  unfold State.afterMembers
  refine (if_neg (fun hn => hn hp)).trans ((if_pos rfl).trans ?_)
  rw [ho, if_neg h91, if_neg (by simp [h84, h85])]

end

/-! DOORBELL (14 R421, R443). -/

theorem doorbell_taken {s : State} {k : Nat} {f : RawFrame} (h : FrameTaken s k 7 f) (hs : serves s = true) : exec (.doorbell k f) s =
    if s.queues.contains (bits f.header 72 22) = false then .next (s.frameIn k f)
    else if homedAway s (bits f.header 72 22) then
      .next ((s.frameIn k f).forwardDoorbell (bits f.header 72 22) (BitVec.ofNat 64 (bits f.header 96 64)))
    else .next ((s.frameIn k f).takeRecord (bits f.header 72 22) (BitVec.ofNat 64 (bits f.header 96 64))) := by
  have hrx := h.rxFrame (by decide) (by decide)
  have hx := fixedFrame_sealed h.1.sealed
  have hs' : serves (s.frameIn k f) = true := hs
  have hq : (s.frameIn k f).queues = s.queues := rfl
  change execDoorbell k f s = _
  unfold execDoorbell
  rw [if_neg (Nat.not_le.mpr h.1.lt), hrx, hx]
  dsimp only
  rw [hs', hq]
  cases s.queues.contains (bits f.header 72 22) with
  | false => rfl
  | true => rfl

/-! FENCE (14 R435, R438). -/

theorem fence_applies {s : State} {k : Nat} {f : RawFrame} {ms out : List Nat} (h : FrameTaken s k 8 f)
    (hs : fedState s = 2 ∨ fedState s = 5) (he : fedEpoch s < bits f.header 72 32) (hm : ms = (List.range 4).filter (fun m => bit f.header (104 + m)))
    (hc : ms.contains (ownMember s) = true)
    (ho : out = ((List.range 4).filter (fun m => bit f.header (108 + m))).filter (fun m => (members s).contains m)) :
    exec (.fenceFrame k f) s = .next ((s.frameIn k f).applyFence (bits f.header 72 32) ms out) := by
  have hrx := h.rxFrame (by decide) (by decide)
  have hx := fixedFrame_sealed h.1.sealed
  have hcond : (ms.contains (ownMember s) && decide (fedEpoch s < bits f.header 72 32) && (decide (fedState s = 2) || decide (fedState s = 5))) =
      true := by
    rw [hc, decide_eq_true he]
    rcases hs with hs | hs
    · rw [hs]
      rfl
    · rw [hs]
      rfl
  rw [hm] at hcond
  change execFenceFrame k f s = _
  unfold execFenceFrame
  rw [if_neg (Nat.not_le.mpr h.1.lt), hrx, hx, hm, ho]
  exact if_pos hcond

theorem memberMask_bits (ms : List Nat) {m : Nat} (hm : m < 4) : (memberMask ms).testBit m = ms.contains m := by
  unfold memberMask
  simp only [show List.range 4 = [0, 1, 2, 3] from rfl, List.map_cons, List.map_nil, List.sum_cons, List.sum_nil]
  have hall : ∀ a b c d : Bool, ∀ m, m < 4 →
      ((if a then 2 ^ 0 else 0) + ((if b then 2 ^ 1 else 0) + ((if c then 2 ^ 2 else 0) + ((if d then 2 ^ 3 else 0) + 0)))).testBit m =
        [a, b, c, d].getD m false := by decide
  rw [hall _ _ _ _ m hm]
  obtain rfl | rfl | rfl | rfl : m = 0 ∨ m = 1 ∨ m = 2 ∨ m = 3 := by omega
  · rfl
  · rfl
  · rfl
  · rfl

theorem applyFence_settles {s : State} {e : Nat} {ms : List Nat} (he : e < 2 ^ 32) (hw : s.regs.wf = true)
    (hm : ms = (List.range 4).filter (fun m => ms.contains m)) :
    fedEpoch (s.applyFence e ms []) = e ∧ members (s.applyFence e ms []) = ms := by
  have heq : s.applyFence e ms [] =
      (({ s with fed := { s.fed with outstanding := s.fed.outstanding ++ unfinished s [] } } : State).wr .fedEpoch 0 (BitVec.ofNat 32 e)).setMembers
        (memberMask ms) := rfl
  have hwu : ({ s with fed := { s.fed with outstanding := s.fed.outstanding ++ unfinished s [] } } : State).regs.wf = true := hw
  rw [heq]
  generalize ({ s with fed := { s.fed with outstanding := s.fed.outstanding ++ unfinished s [] } } : State) = u at hwu
  have hep := State.rd_wr_same u .fedEpoch 0 (BitVec.ofNat 32 e) hwu
  have hw1 := State.wf_wr u .fedEpoch 0 (BitVec.ofNat 32 e) hwu
  generalize u.wr .fedEpoch 0 (BitVec.ofNat 32 e) = v at hep hw1
  obtain ⟨hst, hb, _⟩ := State.setMembers_spec hw1 (memberMask ms)
  refine ⟨?_, ?_⟩
  · rw [fedEpoch, State.fld, hb.rd _ _ (by decide), hep, bits, BitVec.toNat_ofNat, Nat.pow_zero, Nat.div_one, Nat.mod_mod,
      Nat.mod_eq_of_lt he]
  · refine Eq.trans ?_ hm.symm
    unfold members
    refine List.filter_congr fun m hmr => ?_
    have hm4 := List.mem_range.mp hmr
    rw [hst, bit_withBits _ _ _ _ _ (by decide), if_pos (by omega), Nat.add_sub_cancel_left, memberMask_bits ms hm4]

/-! The clauses that remain. -/

theorem State.flipHash_fed (s : State) (q m : Nat) : FedOnly s (s.flipHash q m) := rfl

theorem State.homedOn_fed (s : State) (q n : Nat) : FedOnly s (s.homedOn q n) := rfl

theorem State.giveOwner_spec (s : State) {q n : Nat} (h : n ≠ ownMember s) : s.giveOwner q n = { s with fed := (s.giveOwner q n).fed } ∧
    homeOf (s.giveOwner q n) q = n ∧ (s.giveOwner q n).fed.hash = s.fed.hash ^^^ hashTerm q (homeOf s q) ^^^ hashTerm q n := by
  have hf : FedOnly s (s.given q n) := ((s.flipHash_fed q (homeOf s q)).trans (State.flipHash_fed _ q n)).trans (State.homedOn_fed _ q n)
  have hh : (s.given q n).fed.hash = s.fed.hash ^^^ hashTerm q (homeOf s q) ^^^ hashTerm q n := rfl
  rw [State.giveOwner_away s h]
  exact ⟨hf, homeOf_of_owner (assocGet_assocPut _ _ _), hh⟩

/-- A heartbeat at a member that takes no part. -/
theorem heartbeat_apart {s : State} {k : Nat} {f : RawFrame} (h : FrameTaken s k 3 f)
    (hs : fedState s = 0 ∨ fedState s = 1 ∨ fedState s = 4) :
    ∃ t, exec (.heartbeat k f) s = .next t ∧ t = { s with fed := t.fed } ∧ (memberOf t (frameSrc f)).heardAt = some s.nomNs ∧
      (memberOf t (frameSrc f)).epoch = BitVec.ofNat 32 (bits f.header 40 32) ∧ (memberOf t (frameSrc f)).state = bits f.header 80 3 ∧
      (memberOf t (frameSrc f)).hash = BitVec.ofNat 64 (bits f.header 128 64) ∧ (memberOf t (frameSrc f)).silent = false ∧
      (linkOf t k).ackOwed = true := by
  have he := heartbeat_heard h
  rw [if_neg (by simp only [Bool.or_eq_true, decide_eq_true_eq]; omega)] at he
  obtain ⟨hfed, hlinks, hmem⟩ := (s.taken k f).heardFrom_spec f
  obtain ⟨⟨l, et⟩, hack, _⟩ := s.taken_spec k f
  have hnow : (s.taken k f).nomNs = s.nomNs := by rw [et]
  refine ⟨_, he, (s.taken_fedOnly k f).trans hfed, ?_⟩
  rw [hmem]
  exact ⟨congrArg some hnow, rfl, rfl, rfl, rfl, (congrArg Link.ackOwed (linkOf_congr hlinks k)).trans hack⟩

/-- At one that takes part. -/
theorem heartbeat_part {s : State} {k : Nat} {f : RawFrame} (h : FrameTaken s k 3 f)
    (hs : fedState s = 2 ∨ fedState s = 3 ∨ fedState s = 5) :
    ∃ u : State, u = { s with fed := u.fed } ∧ (memberOf u (frameSrc f)).heardAt = some s.nomNs ∧
      exec (.heartbeat k f) s = .next
        (((u.takeHeartbeat (frameSrc f) (bits f.header 80 3) (bits f.header 40 32)).settleOwners (frameSrc f) f.owners).heldCheck) := by
  have he := heartbeat_heard h
  rw [if_pos (by simp only [Bool.or_eq_true, decide_eq_true_eq]; omega)] at he
  obtain ⟨hfed, _, hmem⟩ := (s.taken k f).heardFrom_spec f
  obtain ⟨⟨l, et⟩, _⟩ := s.taken_spec k f
  have hnow : (s.taken k f).nomNs = s.nomNs := by rw [et]
  refine ⟨_, (s.taken_fedOnly k f).trans hfed, ?_, he⟩
  rw [hmem]
  exact congrArg some hnow

theorem doorbell_each {s : State} {k : Nat} {f : RawFrame} (h : FrameTaken s k 7 f) (hs : serves s = true) :
    (s.queues.contains (bits f.header 72 22) = false → exec (.doorbell k f) s = .next (s.frameIn k f)) ∧
      (s.queues.contains (bits f.header 72 22) = true → homedAway s (bits f.header 72 22) = true → exec (.doorbell k f) s =
        .next ((s.frameIn k f).forwardDoorbell (bits f.header 72 22) (BitVec.ofNat 64 (bits f.header 96 64)))) ∧
      (s.queues.contains (bits f.header 72 22) = true → homedAway s (bits f.header 72 22) = false → exec (.doorbell k f) s =
        .next ((s.frameIn k f).takeRecord (bits f.header 72 22) (BitVec.ofNat 64 (bits f.header 96 64)))) := by
  have he := doorbell_taken h hs
  refine ⟨fun hq => he.trans (if_pos hq), fun hq hh => he.trans ?_, fun hq hh => he.trans ?_⟩
  · rw [if_neg (by rw [hq]; decide), if_pos hh]
  · rw [if_neg (by rw [hq]; decide), if_neg (by rw [hh]; decide)]

/-- Settles O56: every frame is `State.frameIn` first, and then the work of its type. -/
theorem federationFrames : Obligations.FederationFrames := by
  unfold Obligations.FederationFrames
  refine ⟨fun s k f h hs hl hw => ⟨_, manifest_noted h hs, s.manifestNoted_spec k f hl hw⟩, fun _ _ _ => heartbeat_apart,
    fun _ _ _ => heartbeat_part, fun _ _ _ => State.settleOwners_agrees, fun s m q hc hh hm => ?_, fun _ _ _ => State.settleOwner_yields,
    fun _ _ _ _ => State.settleOwner_theirs, fun s _ _ => s.giveOwner_spec, fun _ _ _ => time_request,
    fun _ _ _ _ _ _ h => time_answer h, fun _ _ _ => config_whole, fun _ _ _ => config_apart, fun _ _ _ _ => configAck_answers,
    fun s m c st de hc ha hb hp => ⟨?_, State.memberAnswered_failed hc ha hb hp⟩, fun _ _ _ => doorbell_each, fun _ _ _ _ _ => fence_applies,
    fun _ _ _ => applyFence_settles⟩
  · rw [State.settleOwner_own hc hh, if_neg (by omega)]
  · rintro rfl
    exact State.memberAnswered_well hc ha hb de

end Sys2Proof.Machine
end

section
/-! PROOFS. Heartbeats, witness lines, fencing, adoption and founding (14 R426, R434 to R437). -/

namespace Sys2Proof.Machine

/-! HEARTBEAT_SEND (14 R434). -/

theorem LinkStep.sendTo (s : State) (type dst : Nat) (fields : List (Nat × Nat × Nat)) (payload : List (BitVec 256)) :
    LinkStep s (s.sendTo type dst fields payload) := by
  unfold State.sendTo
  split
  · exact .sendFrame s _ _ _ _ _ _ _
  · exact .refl s

/-- A member's heartbeat step begins: its count, and when the next one is due. -/
def State.hbBegun (s : State) : State :=
  { s with fed := { s.fed with witnessCnt := (s.fed.witnessCnt + 1) % 2 ^ 32, nextHb := s.nomNs + hbStepNs s } }

/-- The write of its witness line. -/
def witnessLine (s : State) : Held :=
  mkHeld .witnessWrite 0 true (witnessAddr s (ownMember s)) 64 (sharedAttrs s 0)
    (bytesOfWords (BitVec.ofNat 64 ((s.fed.witnessCnt + 1) % 2 ^ 32 + 2 ^ 32 * fedEpoch s) :: List.replicate 7 0)) 0

/-- A TIME request to the reference, where another member is. -/
def State.askTime (s : State) : State :=
  match (members s).head? with
  | none => s
  | some r =>
    if r = ownMember s then s
    else
      ({ s with fed := { s.fed with timeNum := (s.fed.timeNum + 1) % 256, timeReq := some ((s.fed.timeNum + 1) % 256, s.timebase) } } : State).sendTo
        4 r [(80, 8, (s.fed.timeNum + 1) % 256)] [BitVec.ofNat 256 s.timebase.toNat]

theorem State.askTime_frame (s : State) : ∃ l x n r,
    s.askTime = { s with fed := { s.fed with links := l, timeNum := n, timeReq := r }, txFrames := x } := by
  unfold State.askTime
  split
  · exact ⟨_, _, _, _, rfl⟩
  · split
    · exact ⟨_, _, _, _, rfl⟩
    · obtain ⟨_, _, e⟩ := LinkStep.sendTo
        ({ s with fed := { s.fed with timeNum := (s.fed.timeNum + 1) % 256, timeReq := some ((s.fed.timeNum + 1) % 256, s.timebase) } } : State) 4 _
        [(80, 8, (s.fed.timeNum + 1) % 256)] [BitVec.ofNat 256 s.timebase.toNat]
      rw [e]
      exact ⟨_, _, _, _, rfl⟩

theorem State.next_askTime (s : State) : (Host.Outcome.next s.askTime : Out) =
    match (members s).head? with
    | none => .next s
    | some r =>
      if r = ownMember s then .next s
      else
        .next (({ s with fed := { s.fed with timeNum := (s.fed.timeNum + 1) % 256, timeReq := some ((s.fed.timeNum + 1) % 256, s.timebase) } } : State).sendTo
          4 r [(80, 8, (s.fed.timeNum + 1) % 256)] [BitVec.ofNat 256 s.timebase.toNat]) := by
  unfold State.askTime
  cases (members s).head? with
  | none => rfl
  | some r => exact apply_ite Host.Outcome.next _ _ _

theorem heartbeatSend_sends {s : State} (ha : awake s) (hs : fedState s = 2 ∨ fedState s = 3 ∨ fedState s = 5) (hd : s.fed.nextHb ≤ s.nomNs) :
    exec .heartbeatSend s = .next ((s.hbBegun.service (witnessLine s)).heartbeats).askTime := by
  obtain ⟨hf, hr⟩ := ha
  have hc : ¬(s.fatal || !s.rstN || !(decide (fedState s = 2) || decide (fedState s = 3) || decide (fedState s = 5)) ||
      decide (s.nomNs < s.fed.nextHb)) = true := by
    rw [hf, hr, decide_eq_false (Nat.not_lt.mpr hd)]
    rcases hs with hs | hs | hs
    · rw [hs]
      decide
    · rw [hs]
      decide
    · rw [hs]
      decide
  change execHeartbeatSend s = _
  unfold execHeartbeatSend
  exact (if_neg hc).trans (State.next_askTime _).symm

theorem heartbeatSend_spec {s : State} (ha : awake s) (hs : fedState s = 2 ∨ fedState s = 3 ∨ fedState s = 5) (hd : s.fed.nextHb ≤ s.nomNs) :
    ∃ t, exec .heartbeatSend s = .next t ∧ t.fed.witnessCnt = (s.fed.witnessCnt + 1) % 2 ^ 32 ∧ t.fed.nextHb = s.nomNs + hbStepNs s ∧
      Offered t .witnessWrite true (witnessAddr s (ownMember s)) 64
        (bytesOfWords (BitVec.ofNat 64 ((s.fed.witnessCnt + 1) % 2 ^ 32 + 2 ^ 32 * fedEpoch s) :: List.replicate 7 0)) ∧
      t.regs = s.regs ∧ t.ways = s.ways ∧ t.slots = s.slots ∧ t.queues = s.queues := by
  have ho := (Asked.service (s := s.hbBegun) (h := witnessLine s) ha.1 rfl).offered
  have hp := PortsOnly.service s.hbBegun (witnessLine s)
  refine ⟨_, heartbeatSend_sends ha hs hd, ?_⟩
  generalize s.hbBegun.service (witnessLine s) = u at ho hp
  obtain ⟨_, _, hl⟩ := LinkStep.heartbeats u
  generalize u.heartbeats = v at hl
  obtain ⟨_, _, _, _, he⟩ := v.askTime_frame
  rw [he, hl]
  refine ⟨?_, ?_, ho.congr rfl rfl, ?_⟩
  · obtain ⟨_, _, _, _, _, _, rfl⟩ := hp
    rfl
  · obtain ⟨_, _, _, _, _, _, rfl⟩ := hp
    rfl
  · obtain ⟨_, _, _, _, _, _, rfl⟩ := hp
    exact ⟨rfl, rfl, rfl, rfl⟩

/-! Witness lines of others (14 R435). -/

theorem witnessRead_reads {s : State} {m : Nat} (hm : m < 4) (ha : awake s) (hs : fedState s = 2 ∨ fedState s = 5)
    (hc : (members s).contains m = true) (ho : m ≠ ownMember s) (hh : heardNow s m = false) (hr : (memberOf s m).readAt = none)
    (hacc : s.acc.any (fun a => a.purpose == .witnessRead m) = false) (hheld : s.held.any (fun h => h.purpose == .witnessRead m) = false) :
    ∃ t, exec (.witnessRead m) s = .next t ∧ PortsOnly { s with fed := t.fed } t ∧ (memberOf t m).readAt = some s.nomNs ∧
      Offered t (.witnessRead m) false (witnessAddr s m) 64 [] := by
  obtain ⟨hf, hn⟩ := ha
  have he : exec (.witnessRead m) s = .next ((s.putMember { memberOf s m with readAt := some s.nomNs }).service
      (mkHeld (.witnessRead m) 0 false (witnessAddr s m) 64 (sharedAttrs s 0) [] 0)) := by
    change execWitnessRead m s = _
    unfold execWitnessRead
    refine (if_neg (Nat.not_le.mpr hm)).trans (if_neg ?_)
    rw [hr, hacc, hheld, hh, hc, hf, hn, decide_eq_false ho]
    rcases hs with hs | hs
    · simp [hs]
    · simp [hs]
  have hmem := memberOf_putMember s (x := { memberOf s m with readAt := some s.nomNs }) (memberOf_num s m)
  have hfed : FedOnly s (s.putMember { memberOf s m with readAt := some s.nomNs }) := .putMember s _
  have hfat : (s.putMember { memberOf s m with readAt := some s.nomNs }).fatal = false := hf
  generalize s.putMember { memberOf s m with readAt := some s.nomNs } = u at he hmem hfed hfat
  have hp := PortsOnly.service u (mkHeld (.witnessRead m) 0 false (witnessAddr s m) 64 (sharedAttrs s 0) [] 0)
  have hof := (Asked.service (s := u) (h := mkHeld (.witnessRead m) 0 false (witnessAddr s m) 64 (sharedAttrs s 0) [] 0) hfat rfl).offered
  refine ⟨_, he, ?_, ?_, hof⟩
  · obtain ⟨_, _, _, _, _, _, e⟩ := hp
    rw [e, hfed]
    exact ⟨_, _, _, _, _, _, rfl⟩
  · obtain ⟨_, _, _, _, _, _, e⟩ := hp
    rw [e]
    exact congrArg Member.readAt hmem

section
variable {s : State} {a : Access} {m : Nat} (ha : s.access a.aid = some a) (hp : a.purpose = .witnessRead m) (hf : s.fatal = false)
include ha hp hf

theorem witnessReadResponse_clean {ans : Answer} (h : CleanAnswer a ans) :
    ∃ u : State, exec (.witnessReadResponse a.aid ans) s = .next (u.witnessSeen m (some (leNat ((answerBytes a ans).take 4)))) ∧
      PortsOnly s u ∧ Released s u a.aid := by
  refine ⟨(s.dropAccess a.aid).drainHeld, ?_, .dropDrain s a.aid, .dropDrain s a.aid⟩
  have hl := State.land_clean (s.dropAccess a.aid).drainHeld h 3 0 63 0
  obtain ⟨h0, _, _, hm⟩ := h
  change execWitnessReadResponse a.aid ans s = _
  unfold execWitnessReadResponse
  rw [ha]
  dsimp only
  rw [hp]
  dsimp only
  rw [if_neg (by rw [hf]; decide), State.readEnds_drop (.inl h0), if_neg (not_not.mpr h0), hl]
  dsimp only
  rw [if_neg hm]

theorem witnessReadCeil_expires (hd : a.due ≤ s.nomNs) :
    ∃ u : State, exec (.witnessReadCeil a.aid) s = .next (u.witnessSeen m none) ∧ Quarantined s u a := by
  refine ⟨(s.quarantine a).drainHeld, ?_, .drain s a⟩
  change execWitnessReadCeil a.aid s = _
  unfold execWitnessReadCeil
  rw [ha]
  dsimp only
  rw [hp]
  dsimp only
  exact if_neg (by rw [hf, expired, decide_eq_true hd]; decide)

end

/-- Member m with its witness line's count as first read. -/
def firstWitness (s : State) (m n : Nat) : Member := { memberOf s m with witness := some (n, s.nomNs), silent := false }

theorem State.witnessSeen_first {s : State} {m n : Nat} (hh : heardNow s m = false) (hc : (members s).contains m = true)
    (hw : (memberOf s m).witness = none) : s.witnessSeen m (some n) = (s.putMember (firstWitness s m n)).fenceNow := by
  unfold State.witnessSeen
  dsimp only
  rw [hh, hc, hw]
  rfl

theorem State.fenceNow_nobody {s : State} (h : silentMembers s = []) : s.fenceNow = s := by
  unfold State.fenceNow
  dsimp only
  rw [h]
  exact if_pos (by simp)

/-- A member that is not silent makes nobody silent. -/
theorem silentMembers_putMember {s : State} {x : Member} (hx : x.silent = false) (h : silentMembers s = []) :
    silentMembers (s.putMember x) = [] := by
  unfold silentMembers at h ⊢
  rw [List.filter_eq_nil_iff] at h ⊢
  intro j hj
  by_cases hn : x.num = j
  · rw [memberOf_putMember s hn, hx, Bool.and_false]
    decide
  · rw [memberOf_putMember_ne s hn]
    exact h j hj

theorem memberOf_witnessSeen {s : State} {m n : Nat} (hh : heardNow s m = false) (hc : (members s).contains m = true)
    (hw : (memberOf s m).witness = none) (hs : silentMembers s = []) :
    memberOf (s.witnessSeen m (some n)) m = { memberOf s m with witness := some (n, s.nomNs), silent := false } := by
  rw [State.witnessSeen_first hh hc hw, State.fenceNow_nobody (silentMembers_putMember rfl hs)]
  exact memberOf_putMember s (memberOf_num s m)

/-! SELF_FENCE (14 R436). -/

theorem selfFence_fences {s : State} (ha : awake s) (hs : fedState s = 2 ∨ fedState s = 3 ∨ fedState s = 5)
    (hd : s.fed.witnessAck + hbCeilNs s / 2 ≤ s.nomNs) (hw : s.regs.wf = true) :
    ∃ t, exec .selfFence s = .next t ∧ fedState t = 4 ∧ t.fed = { s.fed with fenced := true } ∧ serves t = false ∧
      t = { s with regs := t.regs, pollInst := t.pollInst, fed := t.fed } := by
  obtain ⟨hf, hr⟩ := ha
  have he : exec .selfFence s = .next (({ s with fed := { s.fed with fenced := true } } : State).setFedState 4) := by
    change execSelfFence s = _
    unfold execSelfFence
    refine if_pos ?_
    rw [hf, hr, decide_eq_true hd]
    rcases hs with hs | hs | hs
    · rw [hs]
      decide
    · rw [hs]
      decide
    · rw [hs]
      decide
  obtain ⟨hst, _, r, p, e⟩ := State.setFedState_spec (s := { s with fed := { s.fed with fenced := true } }) hw 4
  have h4 : fedState (({ s with fed := { s.fed with fenced := true } } : State).setFedState 4) = 4 := by
    rw [fedState, State.fld, hst, bits_withBits _ _ _ _ (by decide)]
    rfl
  generalize ({ s with fed := { s.fed with fenced := true } } : State).setFedState 4 = t at he e h4
  refine ⟨t, he, h4, by rw [e], ?_, by rw [e]⟩
  have h4' : t.fld .fedStat 0 2 3 = 4 := h4
  unfold serves
  rw [h4']
  rfl

/-! ADOPTION_START (14 R437). -/

/-- One queue of the fenced member m, shared out among the members ms. -/
def State.adoptStep (ms : List Nat) (m : Nat) (t : State) (q : Nat) : State :=
  let n := ms.getD (q % max 1 ms.length) (ownMember t)
  let t2 := ((t.flipHash q m).flipHash q n).homedOn q n
  if n = ownMember t then ({ t2 with adopting := assocPut t2.adopting q m }).awaitCtx q .adopt else t2

theorem adoptionStart_shares {s : State} {m at0 : Nat} (hm : m < 4) (hat : (memberOf s m).adoptAt = some at0) (ha : awake s)
    (hd : at0 ≤ s.nomNs) (hs : fedState s = 2 ∨ fedState s = 5) : exec (.adoptionStart m) s = .next
      ((s.queues.filter (fun q => decide (homeOf s q = m))).foldl (State.adoptStep (members s) m)
        (s.putMember { memberOf s m with adoptAt := none })) := by
  obtain ⟨hf, hr⟩ := ha
  have hc : ¬(s.fatal || !s.rstN || decide (s.nomNs < at0) || (decide (fedState s ≠ 2) && decide (fedState s ≠ 5))) = true := by
    rw [hf, hr, decide_eq_false (Nat.not_lt.mpr hd)]
    rcases hs with hs | hs
    · simp [hs]
    · simp [hs]
  change execAdoptionStart m s = _
  unfold execAdoptionStart
  rw [if_neg (Nat.not_le.mpr hm), hat]
  exact (if_neg hc).trans rfl

theorem State.awaitCtx_keeps (s : State) (q : Nat) (w : CtxWork) : (s.awaitCtx q w).fed = s.fed ∧
    (s.awaitCtx q w).adopting = s.adopting ∧ (s.awaitCtx q w).queues = s.queues := by
  obtain ⟨_, _, _, _, _, _, _, _, e⟩ := FetchStep.startFetch { s with ctxWait := s.ctxWait ++ [(q, w)] } q
  unfold State.awaitCtx
  rw [e]
  exact ⟨rfl, rfl, rfl⟩

theorem State.adoptStep_spec (ms : List Nat) (m : Nat) (t : State) (q : Nat) :
    homeOf (t.adoptStep ms m q) q = ms.getD (q % max 1 ms.length) (ownMember t) ∧
      (ms.getD (q % max 1 ms.length) (ownMember t) = ownMember t → assocGet (t.adoptStep ms m q).adopting q = some m) ∧
      (t.adoptStep ms m q).queues = t.queues := by
  unfold State.adoptStep
  dsimp only
  generalize ms.getD (q % max 1 ms.length) (ownMember t) = n
  have hg := assocGet_assocPut ((t.flipHash q m).flipHash q n).fed.owners q n
  have hf : FedOnly t (((t.flipHash q m).flipHash q n).homedOn q n) :=
    ((t.flipHash_fed q m).trans (State.flipHash_fed _ q n)).trans (State.homedOn_fed _ q n)
  by_cases hn : n = ownMember t
  case neg =>
    rw [if_neg hn]
    exact ⟨homeOf_of_owner hg, fun h => absurd h hn, by rw [hf]⟩
  case pos =>
    rw [if_pos hn]
    have ha := assocGet_assocPut (((t.flipHash q m).flipHash q n).homedOn q n).adopting q m
    change assocGet (((t.flipHash q m).flipHash q n).homedOn q n).fed.owners q = some n at hg
    generalize ((t.flipHash q m).flipHash q n).homedOn q n = u at hg ha hf
    obtain ⟨e1, e2, e3⟩ := State.awaitCtx_keeps { u with adopting := assocPut u.adopting q m } q .adopt
    generalize ({ u with adopting := assocPut u.adopting q m } : State).awaitCtx q .adopt = v at e1 e2 e3
    exact ⟨homeOf_of_owner ((congrArg (fun f : Fed => assocGet f.owners q) e1).trans hg),
      fun _ => (congrArg (assocGet · q) e2).trans ha, e3.trans (by rw [hf])⟩

theorem adoptionStart_none {s : State} {m at0 : Nat} (hm : m < 4) (hat : (memberOf s m).adoptAt = some at0) (ha : awake s)
    (hd : at0 ≤ s.nomNs) (hs : fedState s = 2 ∨ fedState s = 5) (hq : ∀ q ∈ s.queues, homeOf s q ≠ m) :
    exec (.adoptionStart m) s = .next (s.putMember { memberOf s m with adoptAt := none }) := by
  rw [adoptionStart_shares hm hat ha hd hs, List.filter_eq_nil_iff.mpr fun q h => by rw [decide_eq_false (hq q h)]; decide]
  rfl

theorem adoptionStart_one {s : State} {m at0 q n : Nat} (hm : m < 4) (hat : (memberOf s m).adoptAt = some at0) (ha : awake s)
    (hd : at0 ≤ s.nomNs) (hs : fedState s = 2 ∨ fedState s = 5) (hq : s.queues.filter (fun x => decide (homeOf s x = m)) = [q])
    (hn : n = (members s).getD (q % max 1 (members s).length) (ownMember s)) :
    ∃ t, exec (.adoptionStart m) s = .next t ∧ homeOf t q = n ∧ (n = ownMember s → assocGet t.adopting q = some m) ∧
      t.queues = s.queues := by
  have he := adoptionStart_shares hm hat ha hd hs
  rw [hq] at he
  have hown : ownMember (s.putMember { memberOf s m with adoptAt := none }) = ownMember s := ownMember_of_fedStat rfl
  have hqs : (s.putMember { memberOf s m with adoptAt := none }).queues = s.queues := rfl
  generalize s.putMember { memberOf s m with adoptAt := none } = u at he hown hqs
  have hspec := State.adoptStep_spec (members s) m u q
  rw [hown, ← hn] at hspec
  obtain ⟨h1, h2, h3⟩ := hspec
  exact ⟨_, he, h1, h2, h3.trans hqs⟩

/-! JOIN_CEIL (14 R426). -/

/-- IN_SERVICE of a member that enters service: its own bit beside those of the members it knows. -/
theorem State.enterMember_fedStat {s : State} (hw : s.regs.wf = true) : s.enterMember.rd .fedStat 0 =
    withBits (withBits (s.rd .fedStat 0) 5 4 (memberMask (ownMember s :: members s))) 2 3 2 := by
  unfold State.enterMember
  dsimp only
  generalize s.ways.filter _ = ws
  generalize memberMask (ownMember s :: members s) = mask
  generalize hs1 : ({ s with ways := _, fed := _ } : State) = s1
  have h1 : s1.regs = s.regs := by rw [← hs1]
  have hw1 : (s1.setFld .fedStat 0 5 4 mask).regs.wf = true := State.wf_wr _ _ _ _ (h1 ▸ hw)
  have hr : ((s1.setFld .fedStat 0 5 4 mask).setFld .fedStat 0 2 3 2).rd .fedStat 0 = withBits (withBits (s.rd .fedStat 0) 5 4 mask) 2 3 2 := by
    rw [State.rd_setFld _ _ _ _ _ _ hw1, State.rd_setFld _ _ _ _ _ _ (h1 ▸ hw), State.rd, h1]
    rfl
  generalize (s1.setFld .fedStat 0 5 4 mask).setFld .fedStat 0 2 3 2 = s2 at hr ⊢
  obtain ⟨p, hs3⟩ := s2.rescanned_frame s
  have h3 : RegsBut [] s2 (s2.rescanned s) := RegsBut.of_regs (by rw [hs3])
  exact ((h3.trans (writeBacks_step ws (s2.rescanned s)).1).rd _ _ (by simp)).trans hr

theorem members_enterMember_founder {s : State} (hw : s.regs.wf = true) (h : members s = []) :
    members s.enterMember = [ownMember s] := by
  have hown : ownMember s < 4 := bits_lt _ _ _
  have hbits : ∀ m, m < 4 → bit (s.enterMember.rd .fedStat 0) (5 + m) = decide (m = ownMember s) := by
    intro m hm
    rw [State.enterMember_fedStat hw, h, bit_withBits _ _ _ _ _ (by decide), if_neg (by omega), bit_withBits _ _ _ _ _ (by decide),
      if_pos (by omega), Nat.add_sub_cancel_left, memberMask_bits _ hm]
    simp
  have hl : members s.enterMember = (List.range 4).filter (fun m => decide (m = ownMember s)) :=
    List.filter_congr fun m hm => hbits m (List.mem_range.mp hm)
  rw [hl]
  generalize ownMember s = o at hown
  obtain rfl | rfl | rfl | rfl : o = 0 ∨ o = 1 ∨ o = 2 ∨ o = 3 := by omega
  · rfl
  · rfl
  · rfl
  · rfl

/-- A founder: epoch 1, no owner named, and the hash of its own queues. -/
def State.ownerless (s : State) : State := { s with fed := { s.fed with owners := [] } }

def State.hashed (s : State) : State := { s with fed := { s.fed with hash := ownerHash s } }

def State.founder (s : State) : State := (s.wr .fedEpoch 0 1).ownerless.hashed

theorem State.founder_spec {s : State} (hw : s.regs.wf = true) : s.founder.regs.wf = true ∧ fedEpoch s.founder = 1 ∧
    ownMember s.founder = ownMember s ∧ members s.founder = members s ∧ s.founder.queues = s.queues := by
  have hst : s.founder.rd .fedStat 0 = s.rd .fedStat 0 := State.rd_wr_other s .fedEpoch .fedStat 0 0 1 (by decide)
  have hep : s.founder.rd .fedEpoch 0 = 1 := State.rd_wr_same s .fedEpoch 0 1 hw
  refine ⟨State.wf_wr s .fedEpoch 0 1 hw, ?_, ownMember_of_fedStat hst, ?_, rfl⟩
  · rw [fedEpoch, State.fld, hep]
    decide
  · unfold members
    rw [hst]

section
variable {s : State} {c : AdmCmd} (ha : admRuns s = true) (hj : joinCmd s = some c) (hd : c.due ≤ s.nomNs)
include ha hj hd

theorem joinCeil_founds (hseen : s.fed.joinSeen = []) (hb : bit (s.rd .fedCtl 0) 0 = true) :
    exec .joinCeil s = .next (s.founder.enterMember.admEnd true 0 0 0 0 0) := by
  change execJoinCeil s = _
  unfold execJoinCeil
  rw [if_neg (by rw [ha]; decide), hj]
  dsimp only
  rw [if_neg (Nat.not_lt.mpr hd)]
  exact (if_pos ⟨hseen, hb⟩).trans rfl

theorem joinCeil_fails (hb : bit (s.rd .fedCtl 0) 0 = false) (hl : ∀ k, k < 3 → lstate s k ≠ 2) :
    exec .joinCeil s = .next ((s.setFedState 0).admEnd true 0x4A 5 0 0 0) := by
  change execJoinCeil s = _
  unfold execJoinCeil
  rw [if_neg (by rw [ha]; decide), hj]
  dsimp only
  rw [if_neg (Nat.not_lt.mpr hd), if_neg (by rw [hb]; simp)]
  refine (if_pos (List.all_eq_true.mpr fun k hk => ?_)).trans rfl
  rw [decide_eq_true (hl k (List.mem_range.mp hk)), Bool.or_true]

end

theorem joinCeil_founder {s : State} {c : AdmCmd} (ha : admRuns s = true) (hj : joinCmd s = some c) (hd : c.due ≤ s.nomNs)
    (hseen : s.fed.joinSeen = []) (hb : bit (s.rd .fedCtl 0) 0 = true) (hw : s.regs.wf = true) :
    ∃ u : State, exec .joinCeil s = .next (u.admEnd true 0 0 0 0 0) ∧ fedState u = 2 ∧ fedEpoch u = 1 ∧
      (members s = [] → members u = [ownMember s]) ∧ u.queues = s.queues := by
  obtain ⟨hw1, hep, hown, hms, hqs⟩ := State.founder_spec hw
  refine ⟨_, joinCeil_founds ha hj hd hseen hb, ?_⟩
  generalize s.founder = v at hw1 hep hown hms hqs
  obtain ⟨h2, h1, _, hq⟩ := State.enterMember_spec hw1
  refine ⟨h2, ?_, fun h => ?_, hq.trans hqs⟩
  · rw [← hep, fedEpoch, fedEpoch, State.fld, State.fld, h1]
  · rw [members_enterMember_founder hw1 (hms.trans h), hown]

/-- Settles O57: the heartbeat's own steps, the adoption queue by queue (`State.adoptStep`), and the founder (`State.founder`). -/
theorem membership : Obligations.Membership := by
  unfold Obligations.Membership
  exact ⟨fun _ => heartbeatSend_spec, fun _ _ => witnessRead_reads, fun _ _ _ _ ha hp hf => witnessReadResponse_clean ha hp hf,
    fun _ _ _ => witnessReadCeil_expires, fun _ _ _ => memberOf_witnessSeen, fun _ => selfFence_fences, fun _ _ _ => adoptionStart_none,
    fun _ _ _ _ _ => adoptionStart_one, fun _ _ => joinCeil_founder, fun _ _ ha hj hd _ => joinCeil_fails ha hj hd⟩

end Sys2Proof.Machine
end
